-- ==== Sys2Proof/Word.lean ====
section
/-! DEFINITION. The word types of the device. -/

namespace Sys2Proof

/-- A memory byte. -/
abbrev Byte := BitVec 8

/-- A 32-bit register word (R25). -/
abbrev Word := BitVec 32

/-- A 64-bit quantity: an A register of a Drover task, the bits of an S64 (R39). -/
abbrev W64 := BitVec 64

/-- The 96 bits of a T96 value (R35). -/
abbrev W96 := BitVec 96

end Sys2Proof
end

