-- ==== Sys2Proof/Machine/Operands.lean ====
section
/-! DEFINITION. The number formats of the device and their arithmetic: T96 instants, S64 spans, Y48 frequency offsets, the
four rounding modes, the steering conversion, the hardware edge grid (R35 to R47, R60 to R63). Mathematical values are exact
integers; conversion to and from register bits is done here, once. -/

namespace Sys2Proof.Machine

/-- T96 LSBs in one nanosecond: 2^18 (R35). -/
def lsbPerNs : Nat := 262144

/-- Nanoseconds in one second. -/
def nsPerSec : Nat := 1000000000

/-- T96 LSBs in one second. -/
def lsbPerSec : Nat := lsbPerNs * nsPerSec

/-- An instant of device time: the canonical T96 as a count of 2^-18 ns from the epoch. Every value below `instantEnd` is a
canonical T96 and every canonical T96 is such a value, so no instant held this way can be non-canonical (R36). -/
abbrev Instant := Nat

/-- One past the largest T96 value: 2^48 seconds (R35). -/
def instantEnd : Nat := 281474976710656 * lsbPerSec

/-- The largest T96 value (R41). -/
def instantMax : Nat := instantEnd - 1

/-- The 96 bits of an instant: SEC, NS, FRAC (R35). -/
def packT96 (t : Instant) : Nat :=
  (t / lsbPerSec) * 2 ^ 48 + (t % lsbPerSec / lsbPerNs) * 2 ^ 18 + t % lsbPerNs

/-- The NS field of 96 bits. -/
def t96Ns (w : Nat) : Nat := w / 2 ^ 18 % 2 ^ 30

/-- The instant 96 bits stand for; none when the NS field is not canonical (R36). -/
def unpackT96 (w : Nat) : Option Instant :=
  if t96Ns w < nsPerSec then
    some ((w / 2 ^ 48 % 2 ^ 48) * lsbPerSec + t96Ns w * lsbPerNs + w % 2 ^ 18)
  else none

/-- The instant of a whole nanosecond count. -/
def ofNs (n : Nat) : Instant := n * lsbPerNs

/-- The whole nanoseconds of an instant. -/
def nsOf (t : Instant) : Nat := t / lsbPerNs

/-- The largest S64 and the least. -/
def s64Max : Int := 9223372036854775807
def s64Min : Int := -9223372036854775808

/-- The signed value of the low 64 bits of a word. -/
def s64Of (w : Nat) : Int := if w % 2 ^ 64 < 2 ^ 63 then (w % 2 ^ 64 : Nat) else ((w % 2 ^ 64 : Nat) : Int) - 2 ^ 64

/-- Two's complement bits of an integer in a field of `n` bits. -/
def bitsOf (n : Nat) (x : Int) : Nat := (x % (2 ^ n : Nat)).toNat

/-- Signed value of the low `n` bits. -/
def signedOf (n w : Nat) : Int := if w % 2 ^ n < 2 ^ (n - 1) then (w % 2 ^ n : Nat) else ((w % 2 ^ n : Nat) : Int) - (2 ^ n : Nat)

/-- Saturation to S64 and whether it happened (R40, R42). -/
def satS64 (x : Int) : Int × Bool :=
  if x > s64Max then (s64Max, true) else if x < s64Min then (s64Min, true) else (x, false)

/-- The rounding modes of R46. -/
inductive Rounding where
  | nearestEven | towardZero | floor | ceiling
  deriving DecidableEq, Repr

/-- The code of a rounding field (R46). -/
def Rounding.ofCode (c : Nat) : Rounding :=
  match c % 4 with
  | 0 => .nearestEven
  | 1 => .towardZero
  | 2 => .floor
  | _ => .ceiling

/-- Round the exact quotient x / d, d positive, to an integer (R46). -/
def roundDiv (m : Rounding) (x : Int) (d : Nat) : Int :=
  let q := x / (d : Int)
  let r := x % (d : Int)
  match m with
  | .floor => q
  | .ceiling => if r = 0 then q else q + 1
  | .towardZero => if r = 0 ∨ 0 ≤ x then q else q + 1
  | .nearestEven => if 2 * r < d then q else if 2 * r > d then q + 1 else if q % 2 = 0 then q else q + 1

/-- Whether the exact quotient is not an integer: X (R47). -/
def inexactDiv (x : Int) (d : Nat) : Bool := decide (x % (d : Int) ≠ 0)

/-- Nearest-even rounding, the mode where none is stated (R47). -/
def rne (x : Int) (d : Nat) : Int := roundDiv .nearestEven x d

/-- The result of an operation with the flags X and V of R47. -/
structure Flagged where
  val : Int
  x : Bool
  v : Bool
  deriving DecidableEq, Repr

/-- Difference of two instants as S64 (R40): exact in 2^-18 ns, nearest-even to 2^-16 ns, then saturation. -/
def spanBetween (a b : Instant) : Flagged :=
  let d : Int := (a : Int) - b
  let r := rne d 4
  ⟨(satS64 r).1, inexactDiv d 4, (satS64 r).2⟩

/-- An instant moved by an S64 span (R41): exact, held at either end of T96 with V. -/
def addSpan (t : Instant) (s : Int) : Instant × Bool :=
  let x : Int := (t : Int) + 4 * s
  if x < 0 then (0, true) else if x > (instantMax : Int) then (instantMax, true) else (x.toNat, false)

/-- The sum or difference of two S64 values, saturated (R42). -/
def addS64 (a b : Int) : Int × Bool := satS64 (a + b)
def subS64 (a b : Int) : Int × Bool := satS64 (a - b)

/-- S64 LSBs in one nanosecond. -/
def s64PerNs : Int := 65536

/-- The bound of a Y48: 500 ppm (R43). -/
def y48Max : Int := 500000000000

/-- The signed value of 48 bits. -/
def y48Of (w : Nat) : Int := signedOf 48 w

/-- Clamp a Y48 and say whether it changed (R43). -/
def clampY48 (y : Int) : Int × Bool :=
  if y > y48Max then (y48Max, true) else if y < -y48Max then (-y48Max, true) else (y, false)

/-- The 64 register bits of a Y48: bits 63..48 read as the sign extension (R51). -/
def packY48 (y : Int) : Nat := bitsOf 64 y

/-- One application of the steering conversion (R44): `y` in 10^-15 and the carry in 2^-24 of a binary LSB. The exact
increment is y * 2^56 / 10^15; the result is F, the nearest-even increment of the exact sum with the carry, and the new
carry, held to 2^-24 of a binary LSB. -/
def steerIncrement (y carry : Int) : Int × Int :=
  let num : Int := y * 2 ^ 80 + carry * 1000000000000000
  let n := rne num (1000000000000000 * 2 ^ 24)
  (n, rne (num - n * (1000000000000000 * 2 ^ 24)) 1000000000000000)

/-- Fine units of the edge grid in one T96 LSB: 2^-24 ns (R61). -/
def finePerLsb : Nat := 64

/-- Fine units in one nanosecond. -/
def finePerNs : Nat := 16777216

/-- A tap table of an output (R60): the delay D in fine units, the tap starts p[0..31] in fine units, the vernier steps
g[0..31] in 2^-32 ns. -/
structure TapTable where
  d : Nat
  p : List Nat
  g : List Nat
  deriving DecidableEq, Repr

/-- p[i], with p[32] = 2^24 and past the end as well. -/
def TapTable.start (t : TapTable) (i : Nat) : Nat := t.p.getD i finePerNs

/-- g[i]. -/
def TapTable.step (t : TapTable) (i : Nat) : Nat := t.g.getD i 131200

/-- The conditions under which a table may be used (R60), taking the delay it would have in force. -/
def TapTable.usable (t : TapTable) : Bool :=
  decide (t.d < 2 ^ 26) && decide (t.p.length = 32) && decide (t.g.length = 32) && decide (t.start 0 = 0) &&
  (List.range 32).all fun i =>
    decide (t.start i < t.start (i + 1)) && decide (0 < t.step i) && decide (t.step i ≤ 171798) &&
    decide ((t.start (i + 1) - t.start i) * 256 * 2 < 2047 * t.step i)

/-- The nominal table of a channel whose fused delay is `d` (R60). -/
def TapTable.nominal (d : Nat) : TapTable :=
  ⟨d, (List.range 32).map (fun i => i * 524288), List.replicate 32 131200⟩

/-- Largest i in 0..31 with p[i] ≤ phi, searching down from `i`. -/
def tapIndex (t : TapTable) (phi : Nat) : Nat → Nat
  | 0 => 0
  | i + 1 => if t.start (i + 1) ≤ phi then i + 1 else tapIndex t phi i

/-- A place on the edge grid: launch tick in whole ns (negative before the epoch), tap, vernier code, residue in fine units. -/
structure GridPlace where
  tick : Int
  tap : Nat
  code : Nat
  res : Int
  deriving DecidableEq, Repr

/-- The conversion of R61 for a target and a table. -/
def toGrid (t : TapTable) (target : Instant) : GridPlace :=
  let x : Int := (target : Int) * finePerLsb - t.d
  let tick : Int := x / finePerNs
  let phi : Nat := (x % finePerNs).toNat
  let i := tapIndex t phi 31
  let q : Int := ((phi : Int) - t.start i) * 256
  let v := rne q (t.step i)
  ⟨tick, i, v.toNat, rne (v * t.step i - q) 256⟩

/-- Units of 2^-34 ns in a T96 LSB: the 16 guard bits of a train accumulator (R63). -/
def guardPerLsb : Nat := 65536

/-- A train accumulator value (2^-34 ns) rounded to an instant by nearest-even on the guard bits (R63). -/
def trainInstant (acc : Int) : Int := rne acc guardPerLsb

/-- A bit field of a natural number: bits hi..lo. -/
def bits (v hi lo : Nat) : Nat := v / 2 ^ lo % 2 ^ (hi + 1 - lo)

/-- One bit of a natural number. -/
def bit (v i : Nat) : Bool := decide (v / 2 ^ i % 2 = 1)

/-- A natural number with the field hi..lo replaced. -/
def setBits (v hi lo x : Nat) : Nat :=
  v / 2 ^ (hi + 1) * 2 ^ (hi + 1) + x % 2 ^ (hi + 1 - lo) * 2 ^ lo + v % 2 ^ lo

/-- A Bool as a bit. -/
def bnat (b : Bool) : Nat := if b then 1 else 0

/-- A 32-bit counter step that wraps (the counters of the device's register tables are 32 or 64 bits). -/
def wrapInc (n v : Nat) : Nat := (v + 1) % 2 ^ n

end Sys2Proof.Machine
end

