-- ==== Sys2Proof/Machine/Regs.lean ====
section
/-! DEFINITION. Every BAR0 register of the device: block, offset, width in words, array dimensions, and each field's place,
access code, reset value and range rule, as the register tables of spec/ give them (R4, R6, R24). -/

namespace Sys2Proof.Machine

/-- Access codes of R6. `rws` is RW whose value is kept across warm reset. -/
inductive Acc where
  | ro | rw | rw1c | rw1s | wo | rc | rwl | rws
  deriving DecidableEq, Repr

/-- The range rule of a field (R9): which written values its table accepts. -/
inductive Rng where
  | any                  -- every value of the field's width
  | span (lo hi : Nat)   -- lo to hi, both included
  | canon                -- a canonical T96 (R36)
  | mul32                -- a multiple of 32
  | even2                -- even and at least 2
  | gsel                 -- a gate selector of DW_CH_CFG.GSEL
  | nonneg               -- a Y48 that is not negative
  | alpha                -- a delay asymmetry coefficient
  | logSync              -- a LOG_SYNC code
  | logDreq              -- a LOG_DREQ code
  deriving DecidableEq, Repr

/-- The BAR0 blocks of R24. -/
inductive Blk where
  | glb | flt | mon | mb | dma | tb | syn | bw | eo | tiu | tal | dw | drv | cal | nt | ln | pt | sw | pad | tas | bbr
  deriving DecidableEq, Repr

/-- First and last BAR0 address of a block (R24). -/
def Blk.range : Blk → Nat × Nat
  | .glb => (0x0, 0xFFFF)
  | .flt => (0x10000, 0x1FFFF)
  | .mon => (0x20000, 0x2FFFF)
  | .mb => (0x30000, 0x3FFFF)
  | .dma => (0x40000, 0x4FFFF)
  | .tb => (0x100000, 0x10FFFF)
  | .syn => (0x110000, 0x11FFFF)
  | .bw => (0x120000, 0x12FFFF)
  | .eo => (0x200000, 0x23FFFF)
  | .tiu => (0x300000, 0x35FFFF)
  | .tal => (0x1900000, 0x19FFFFF)
  | .dw => (0x400000, 0x4FFFFF)
  | .drv => (0x500000, 0x5FFFFF)
  | .cal => (0x600000, 0x6FFFFF)
  | .nt => (0x700000, 0x7FFFFF)
  | .ln => (0x800000, 0x881FFF)
  | .pt => (0xA00000, 0xA67FFF)
  | .sw => (0x1000000, 0x17FFFFF)
  | .pad => (0x1800000, 0x18FFFFF)
  | .tas => (0xC00000, 0xFFFFFF)
  | .bbr => (0x1A00000, 0x1AFFFFF)

/-- Every register the spec names. -/
inductive Reg where
  | glbDeviceId | glbStepping | glbErr | glbRstCtl | glbBlkRst | glbRstCause | glbBootStat | glbStrap
  | glbFwVer | glbLnfVer | glbSmbCntPec
  | fltCtl | fltReact | fltFreeze | fltStat | fltClr | fltWdogKick | fltScanStat | fltFirst
  | fltCntDet | fltCntMask | fltCntRepeat
  | monTemp | monTempHi | monSup | monSupWin
  | mbCmd | mbStatus | mbProgress | mbPosDone | mbPosTotal | mbLong | mbInt | mbArg
  | mbBuf
  | dmaStat | dmaAperBase | dmaRingCfg | dmaRingStat | dmaRingBase | dmaRingSize | dmaRingHead | dmaRingTail
  | dmaRingCntDrop | dmaRingAux | msixTable | msixPba
  | tbCtl | tbStat | tbNow | tbNcoSw | tbNcoApplied | tbStep | tbSet | tbLastStep
  | tbCntStep
  | synStat | synTsynCtl | synTsynStat | synTsynCntExc | synCntSwap | synBpllStat | synCsynCtl | synCsynStat
  | synCsynCntGuard | synOsynCtl | synOsynCmd | synOsynStat | synOsynFd | synOsynFn | synOsynPhase0 | synOsynAnchor
  | synOsynRampt | synOsynSeg
  | bwCtl | bwStat | bwSel | bwCmd | bwUnlock | bwSlew | bwFslew | bwDpll
  | bwQual | bwDisagree | bwLock | bwHoCtl | bwHoSpec | bwPhaseAccept | bwPhaseOffset | bwHoAllow
  | bwHoAging | bwHoTe | bwHoElapsed | bwHoUnc | bwYOut | bwPsi | bwCntSwitch | bwRestartY
  | bwRefCfg | bwRefStat | bwRefDelay | bwRefSw | bwRefFest
  | eoCtl | eoStat | eoQres | eoTrigCtl | eoVerifyWin | eoVerifySel | eoCntIss | eoCntVer
  | eoCntSkip | eoCntDisp | eoCntMiss | eoCntExtra | eoCntLate | eoCntRunt | eoCntRate | eoCntNull
  | eoCntRefuse | eoCntTrigIgn | eoCntActFull | eoQe | eoTe | eoProfCtl | eoProfLines | eoProfZpos
  | eoProfX0 | eoProfV0 | eoProfPos | eoBankCtl | eoSeg
  | tiuCtl | tiuStat | tiuArm | tiuSel | tiuFreq | tiuTmo | tiuOfs | tiuRes
  | tiuCntHit | tiuCntClose | tiuCntGap | tiuCntOvf | tiuCntTmo | tiuCntRdq | tiuCntCalhold
  | talCtl | talStat | talBase | talSize | talPre | talPost | talWptr | talWraps
  | talTrigTime | talTrigPos | talCntIn | talCntLost | talCntDisc
  | dwChCfg | dwChSrc | dwChOwn | dwChStat | dwChCnt | dwCtl | dwStat | dwSwf
  | dwSwgate | dwCntLoop | dwCntDrop | dwFlCtl | dwTmrCtl | dwTmrCount | dwTmrPeriod | dwTmrAnchor
  | dwEvinCtl | dwEvoutCtl | dwConSel
  | drvInfo | drvCtl | drvStat | drvCsrPerm | drvProg | drvProgStat | drvMemAddr | drvMemData
  | drvCntIssue | drvCntEcc | drvCntDramLost | drvTaskCtl | drvTaskStat | drvTaskTrap | drvInStat | drvTaskA
  | drvTaskT
  | calCtl | calStat | calCmd | calCmdRes | calDt | calGapMin | calSlew | calCd
  | calImgAddr | calSeq | calRegion | calEoPol | calEoRes | calTiuPol | calTiuRes | calEoTab
  | calEoShadow | calTiuTab | calTiuShadow
  | ntStat | ntClockId | ntCntStepdrop | ntDomCfg | ntPortCfg | ntPortStat | ntPortIlatTx | ntPortIlatRx
  | ntPortBlatTx | ntPortBlatRx | ntPortAsym | ntPortAlpha | ntPortRtt | ntPortDms | ntPortPdph | ntPortPdfreq
  | ntSesCfg | ntSesStat | ntSesPeerid | ntSesLink | ntSesOfs | ntSesDms | ntSesRr | ntSesT
  | ntSesCntTx | ntSesCntRx | ntSesCntDisc | ntSesHdr
  | lnCtl | lnStat | lnTxeq | lnCntLol | lnQuadCtl | lnQuadStat
  | ptCfg | ptTrain | ptStat | ptBackoff | ptCntLinkDown | ptCntTrainFail | ptCntElmDisc | ptCntSpareDisc
  | ptPartner | ptTsf | ptCntTsfLost
  | swMac | swVlan | swStream | swPortCfg | swPcpMap | swSample | swFrr | swCntRxBad
  | swCntSampleLost | swStat | swAge | swCntLearnFull
  | padCtl | padStat | padFree | padHrTd | padHrRtt | padLlMtu | padClass | padGmin
  | padHr | padHold | padCntDownDisc | padCntFlush | padCntDrop | padCntHrDrop | padCntLlOver
  | tasGclCtl | tasCycle | tasGateDflt | tasQ7Maxlen | tasPreempt | tasLatePol | tasQCfg | tasCntLate
  | tasCntTxBad | tasBase | tasFl | tasLastDep | tasLqTpl | tasGcl | tasGclOper
  | bbrCtl | bbrStat | bbrPre | bbrPost | bbrSeq | bbrWptr | bbrTrigSeq | bbrSpillWptr
  | bbrCntLost | bbrCntSpillLost | bbrRec
  deriving DecidableEq, Repr

/-- One field of a register: its bits, access code, reset value and range rule. -/
structure FldDef where
  hi : Nat
  lo : Nat
  acc : Acc
  rst : Nat
  rng : Rng
  deriving DecidableEq, Repr

/-- One register: its name, block, offset from the block's base, width in 32-bit words, array dimensions (count and stride in
bytes) and fields. Bits that no field holds are reserved (R8). -/
structure RegDef where
  name : String
  blk : Blk
  off : Nat
  words : Nat
  dims : List (Nat × Nat)
  flds : List FldDef
  deriving DecidableEq, Repr

/-- The register tables of spec/, one arm per register. -/
def Reg.info : Reg → RegDef
  | .glbDeviceId => ⟨"GLB_DEVICE_ID", .glb, 0x0, 1, [],
      [⟨15, 0, .ro, 0x6452, .any⟩]⟩
  | .glbStepping => ⟨"GLB_STEPPING", .glb, 0x4, 1, [],
      [⟨7, 4, .ro, 2, .any⟩, ⟨3, 0, .ro, 0, .any⟩]⟩
  | .glbErr => ⟨"GLB_ERR", .glb, 0x8, 1, [],
      [⟨1, 1, .rw1c, 0, .any⟩, ⟨0, 0, .rw1c, 0, .any⟩]⟩
  | .glbRstCtl => ⟨"GLB_RST_CTL", .glb, 0x20, 1, [],
      [⟨7, 0, .wo, 0, .any⟩]⟩
  | .glbBlkRst => ⟨"GLB_BLK_RST", .glb, 0x24, 1, [],
      [⟨7, 7, .rw1s, 0, .any⟩, ⟨6, 6, .rw1s, 0, .any⟩, ⟨5, 5, .rw1s, 0, .any⟩, ⟨4, 4, .rw1s, 0, .any⟩, ⟨3, 3, .rw1s, 0, .any⟩, ⟨2, 2, .rw1s, 0, .any⟩, ⟨1, 1, .rw1s, 0, .any⟩, ⟨0, 0, .rw1s, 0, .any⟩]⟩
  | .glbRstCause => ⟨"GLB_RST_CAUSE", .glb, 0x28, 1, [],
      [⟨6, 6, .rw1c, 0, .any⟩, ⟨5, 5, .rw1c, 0, .any⟩, ⟨4, 4, .rw1c, 0, .any⟩, ⟨3, 3, .rw1c, 0, .any⟩, ⟨2, 2, .rw1c, 0, .any⟩, ⟨1, 1, .rw1c, 0, .any⟩, ⟨0, 0, .rw1c, 1, .any⟩]⟩
  | .glbBootStat => ⟨"GLB_BOOT_STAT", .glb, 0x30, 1, [],
      [⟨10, 10, .ro, 0, .any⟩, ⟨9, 9, .ro, 0, .any⟩, ⟨8, 8, .ro, 0, .any⟩, ⟨7, 6, .ro, 0, .any⟩, ⟨5, 4, .ro, 0, .any⟩, ⟨3, 3, .ro, 0, .any⟩, ⟨2, 2, .ro, 0, .any⟩, ⟨1, 1, .ro, 0, .any⟩]⟩
  | .glbStrap => ⟨"GLB_STRAP", .glb, 0x34, 1, [],
      [⟨3, 3, .ro, 0, .any⟩, ⟨2, 0, .ro, 0, .any⟩]⟩
  | .glbFwVer => ⟨"GLB_FW_VER", .glb, 0x38, 1, [],
      [⟨31, 0, .ro, 0, .any⟩]⟩
  | .glbLnfVer => ⟨"GLB_LNF_VER", .glb, 0x3C, 1, [],
      [⟨31, 0, .ro, 0, .any⟩]⟩
  | .glbSmbCntPec => ⟨"GLB_SMB_CNT_PEC", .glb, 0x44, 1, [],
      [⟨31, 0, .rc, 0, .any⟩]⟩
  | .fltCtl => ⟨"FLT_CTL", .flt, 0x0, 1, [],
      [⟨23, 8, .rw, 0x64, (.span 1 65535)⟩, ⟨2, 2, .rw, 0, .any⟩, ⟨1, 1, .rw, 1, .any⟩, ⟨0, 0, .rw, 1, .any⟩]⟩
  | .fltReact => ⟨"FLT_REACT", .flt, 0x4, 1, [],
      [⟨10, 8, .rw, 0, .any⟩, ⟨6, 0, .rw, 0x1e, .any⟩]⟩
  | .fltFreeze => ⟨"FLT_FREEZE", .flt, 0x8, 1, [],
      [⟨10, 0, .rw, 0x7ff, .any⟩]⟩
  | .fltStat => ⟨"FLT_STAT", .flt, 0xC, 1, [],
      [⟨31, 31, .ro, 0, .any⟩, ⟨26, 16, .rw1c, 0, .any⟩, ⟨14, 4, .rw1c, 0, .any⟩, ⟨0, 0, .rw1c, 0, .any⟩]⟩
  | .fltClr => ⟨"FLT_CLR", .flt, 0x10, 1, [],
      [⟨0, 0, .wo, 0, .any⟩]⟩
  | .fltWdogKick => ⟨"FLT_WDOG_KICK", .flt, 0x14, 1, [],
      [⟨7, 0, .wo, 0, .any⟩]⟩
  | .fltScanStat => ⟨"FLT_SCAN_STAT", .flt, 0x18, 1, [],
      [⟨15, 0, .ro, 0, .any⟩]⟩
  | .fltFirst => ⟨"FLT_FIRST", .flt, 0x20, 8, [],
      [⟨255, 0, .ro, 0, .any⟩]⟩
  | .fltCntDet => ⟨"FLT_CNT_DET", .flt, 0x40, 1, [],
      [⟨31, 0, .rc, 0, .any⟩]⟩
  | .fltCntMask => ⟨"FLT_CNT_MASK", .flt, 0x44, 1, [],
      [⟨31, 0, .rc, 0, .any⟩]⟩
  | .fltCntRepeat => ⟨"FLT_CNT_REPEAT", .flt, 0x48, 1, [],
      [⟨31, 0, .rc, 0, .any⟩]⟩
  | .monTemp => ⟨"MON_TEMP", .mon, 0x0, 1, [(12, 0x4)],
      [⟨15, 0, .ro, 0, .any⟩]⟩
  | .monTempHi => ⟨"MON_TEMP_HI", .mon, 0x40, 1, [],
      [⟨15, 0, .rws, 0x6900, (.span 0 30720)⟩]⟩
  | .monSup => ⟨"MON_SUP", .mon, 0x100, 1, [(11, 0x8)],
      [⟨11, 0, .ro, 0, .any⟩]⟩
  | .monSupWin => ⟨"MON_SUP_WIN", .mon, 0x104, 1, [(11, 0x8)],
      [⟨27, 16, .rws, 0, .any⟩, ⟨11, 0, .rws, 0, .any⟩]⟩
  | .mbCmd => ⟨"MB_CMD", .mb, 0x0, 1, [],
      [⟨31, 31, .wo, 0, .any⟩, ⟨15, 0, .rw, 0, .any⟩]⟩
  | .mbStatus => ⟨"MB_STATUS", .mb, 0x4, 1, [],
      [⟨31, 31, .ro, 0, .any⟩, ⟨30, 28, .ro, 0, .any⟩, ⟨27, 27, .rw1c, 0, .any⟩, ⟨23, 16, .ro, 0, .any⟩, ⟨15, 0, .ro, 0, .any⟩]⟩
  | .mbProgress => ⟨"MB_PROGRESS", .mb, 0x8, 1, [],
      [⟨13, 0, .ro, 0, .any⟩]⟩
  | .mbPosDone => ⟨"MB_POS_DONE", .mb, 0xC, 1, [],
      [⟨31, 0, .ro, 0, .any⟩]⟩
  | .mbPosTotal => ⟨"MB_POS_TOTAL", .mb, 0x10, 1, [],
      [⟨31, 0, .ro, 0, .any⟩]⟩
  | .mbLong => ⟨"MB_LONG", .mb, 0x14, 1, [],
      [⟨1, 0, .ro, 0, .any⟩]⟩
  | .mbInt => ⟨"MB_INT", .mb, 0x18, 1, [],
      [⟨1, 1, .rw, 1, .any⟩, ⟨0, 0, .rw1c, 0, .any⟩]⟩
  | .mbArg => ⟨"MB_ARG", .mb, 0x100, 1, [(64, 0x4)],
      [⟨31, 0, .rw, 0, .any⟩]⟩
  | .mbBuf => ⟨"MB_BUF", .mb, 0x8000, 1, [(8192, 0x4)],
      [⟨31, 0, .rw, 0, .any⟩]⟩
  | .dmaStat => ⟨"DMA_STAT", .dma, 0x0, 1, [],
      [⟨1, 1, .rw1c, 0, .any⟩, ⟨0, 0, .rw1c, 0, .any⟩]⟩
  | .dmaAperBase => ⟨"DMA_APER_BASE", .dma, 0x100, 1, [],
      [⟨4, 4, .ro, 0, .any⟩, ⟨3, 3, .rw1c, 0, .any⟩, ⟨2, 0, .rw, 6, .any⟩]⟩
  | .dmaRingCfg => ⟨"DMA_RING_CFG", .dma, 0x1000, 1, [(16, 0x40)],
      [⟨31, 31, .rw, 0, .any⟩, ⟨21, 16, .rw, 0, (.span 0 51)⟩, ⟨13, 8, .rw, 8, (.span 8 63)⟩, ⟨4, 4, .rw, 0, .any⟩, ⟨2, 0, .rw, 0, (.span 0 4)⟩]⟩
  | .dmaRingStat => ⟨"DMA_RING_STAT", .dma, 0x1004, 1, [(16, 0x40)],
      [⟨1, 1, .rw1c, 0, .any⟩, ⟨0, 0, .ro, 0, .any⟩]⟩
  | .dmaRingBase => ⟨"DMA_RING_BASE", .dma, 0x1008, 2, [(16, 0x40)],
      [⟨63, 0, .rw, 0, .mul32⟩]⟩
  | .dmaRingSize => ⟨"DMA_RING_SIZE", .dma, 0x1010, 1, [(16, 0x40)],
      [⟨4, 0, .rw, 8, (.span 3 16)⟩]⟩
  | .dmaRingHead => ⟨"DMA_RING_HEAD", .dma, 0x1014, 1, [(16, 0x40)],
      [⟨15, 0, .ro, 0, .any⟩]⟩
  | .dmaRingTail => ⟨"DMA_RING_TAIL", .dma, 0x1018, 1, [(16, 0x40)],
      [⟨15, 0, .rw, 0, .any⟩]⟩
  | .dmaRingCntDrop => ⟨"DMA_RING_CNT_DROP", .dma, 0x101C, 1, [(16, 0x40)],
      [⟨31, 0, .rc, 0, .any⟩]⟩
  | .dmaRingAux => ⟨"DMA_RING_AUX", .dma, 0x1020, 1, [(16, 0x40)],
      [⟨26, 0, .rw, 0, .any⟩]⟩
  | .msixTable => ⟨"MSIX_TABLE", .dma, 0x8000, 4, [(64, 0x10)],
      [⟨63, 0, .rw, 0, .any⟩, ⟨95, 64, .rw, 0, .any⟩, ⟨96, 96, .rw, 1, .any⟩]⟩
  | .msixPba => ⟨"MSIX_PBA", .dma, 0xC000, 2, [],
      [⟨63, 0, .ro, 0, .any⟩]⟩
  | .tbCtl => ⟨"TB_CTL", .tb, 0x0, 1, [],
      [⟨1, 1, .rw, 1, .any⟩, ⟨0, 0, .rw, 0, .any⟩]⟩
  | .tbStat => ⟨"TB_STAT", .tb, 0x4, 1, [],
      [⟨15, 12, .ro, 0, .any⟩, ⟨11, 8, .ro, 0, .any⟩, ⟨4, 4, .ro, 0, .any⟩, ⟨3, 3, .ro, 0, .any⟩, ⟨2, 2, .rw1c, 0, .any⟩, ⟨1, 1, .rw1c, 0, .any⟩, ⟨0, 0, .rw1c, 0, .any⟩]⟩
  | .tbNow => ⟨"TB_NOW", .tb, 0x10, 3, [],
      [⟨95, 0, .ro, 0, .any⟩]⟩
  | .tbNcoSw => ⟨"TB_NCO_SW", .tb, 0x20, 2, [],
      [⟨47, 0, .rw, 0, .any⟩]⟩
  | .tbNcoApplied => ⟨"TB_NCO_APPLIED", .tb, 0x28, 2, [],
      [⟨47, 0, .ro, 0, .any⟩]⟩
  | .tbStep => ⟨"TB_STEP", .tb, 0x30, 2, [],
      [⟨63, 0, .rw, 0, .any⟩]⟩
  | .tbSet => ⟨"TB_SET", .tb, 0x40, 3, [],
      [⟨95, 0, .rw, 0, .canon⟩]⟩
  | .tbLastStep => ⟨"TB_LAST_STEP", .tb, 0x50, 2, [],
      [⟨63, 0, .ro, 0, .any⟩]⟩
  | .tbCntStep => ⟨"TB_CNT_STEP", .tb, 0x58, 1, [],
      [⟨31, 0, .rc, 0, .any⟩]⟩
  | .synStat => ⟨"SYN_STAT", .syn, 0x0, 1, [],
      [⟨2, 2, .rw1c, 0, .any⟩, ⟨1, 1, .rw1c, 0, .any⟩, ⟨0, 0, .rw1c, 0, .any⟩]⟩
  | .synTsynCtl => ⟨"SYN_TSYN_CTL", .syn, 0x10, 1, [],
      [⟨15, 8, .rw, 1, .any⟩, ⟨1, 1, .rw, 0, .any⟩, ⟨0, 0, .rw, 1, .any⟩]⟩
  | .synTsynStat => ⟨"SYN_TSYN_STAT", .syn, 0x14, 1, [],
      [⟨31, 16, .ro, 0, .any⟩, ⟨5, 5, .rw1c, 0, .any⟩, ⟨4, 4, .rw1c, 0, .any⟩, ⟨3, 3, .ro, 0, .any⟩, ⟨2, 2, .ro, 0, .any⟩, ⟨1, 0, .ro, 2, .any⟩]⟩
  | .synTsynCntExc => ⟨"SYN_TSYN_CNT_EXC", .syn, 0x18, 1, [],
      [⟨31, 0, .rc, 0, .any⟩]⟩
  | .synCntSwap => ⟨"SYN_CNT_SWAP", .syn, 0x1C, 1, [],
      [⟨31, 0, .rc, 0, .any⟩]⟩
  | .synBpllStat => ⟨"SYN_BPLL_STAT", .syn, 0x20, 1, [],
      [⟨15, 0, .ro, 0, .any⟩]⟩
  | .synCsynCtl => ⟨"SYN_CSYN_CTL", .syn, 0x40, 1, [],
      [⟨29, 26, .rw, 0, .any⟩, ⟨25, 24, .rw, 0, (.span 0 2)⟩, ⟨23, 12, .rw, 0x3e8, (.span 1 1000)⟩, ⟨10, 0, .rw, 0x546, (.span 1000 1350)⟩]⟩
  | .synCsynStat => ⟨"SYN_CSYN_STAT", .syn, 0x44, 1, [],
      [⟨17, 17, .rw1c, 0, .any⟩, ⟨16, 16, .rw1c, 0, .any⟩, ⟨15, 15, .ro, 0, .any⟩, ⟨14, 14, .ro, 0, .any⟩, ⟨13, 12, .ro, 3, .any⟩, ⟨10, 0, .ro, 0x546, .any⟩]⟩
  | .synCsynCntGuard => ⟨"SYN_CSYN_CNT_GUARD", .syn, 0x48, 1, [],
      [⟨31, 0, .rc, 0, .any⟩]⟩
  | .synOsynCtl => ⟨"SYN_OSYN_CTL", .syn, 0x100, 1, [(4, 0x40)],
      [⟨30, 24, .rw, 0, (.span 0 64)⟩, ⟨23, 8, .rw, 0xa, .even2⟩, ⟨2, 1, .rw, 0, (.span 0 2)⟩, ⟨0, 0, .rw, 0, .any⟩]⟩
  | .synOsynCmd => ⟨"SYN_OSYN_CMD", .syn, 0x104, 1, [(4, 0x40)],
      [⟨1, 1, .wo, 0, .any⟩, ⟨0, 0, .wo, 0, .any⟩]⟩
  | .synOsynStat => ⟨"SYN_OSYN_STAT", .syn, 0x108, 1, [(4, 0x40)],
      [⟨15, 12, .ro, 0, .any⟩, ⟨11, 8, .ro, 0, .any⟩, ⟨4, 4, .rw1c, 0, .any⟩, ⟨3, 3, .ro, 0, .any⟩, ⟨2, 2, .ro, 0, .any⟩, ⟨1, 0, .ro, 0, .any⟩]⟩
  | .synOsynFd => ⟨"SYN_OSYN_FD", .syn, 0x10C, 1, [(4, 0x40)],
      [⟨31, 0, .rw, 1, .any⟩]⟩
  | .synOsynFn => ⟨"SYN_OSYN_FN", .syn, 0x110, 2, [(4, 0x40)],
      [⟨47, 0, .rw, 0x989680, .any⟩]⟩
  | .synOsynPhase0 => ⟨"SYN_OSYN_PHASE0", .syn, 0x118, 1, [(4, 0x40)],
      [⟨31, 0, .rw, 0, .any⟩]⟩
  | .synOsynAnchor => ⟨"SYN_OSYN_ANCHOR", .syn, 0x120, 3, [(4, 0x40)],
      [⟨95, 0, .rw, 0, .canon⟩]⟩
  | .synOsynRampt => ⟨"SYN_OSYN_RAMPT", .syn, 0x130, 3, [(4, 0x40)],
      [⟨95, 0, .rw, 0, .canon⟩]⟩
  | .synOsynSeg => ⟨"SYN_OSYN_SEG", .syn, 0x1000, 4, [(4, 0x400), (64, 0x10)],
      [⟨47, 0, .rw, 0, .any⟩, ⟨127, 64, .rw, 0, .any⟩]⟩
  | .bwCtl => ⟨"BW_CTL", .bw, 0x0, 1, [],
      [⟨6, 6, .rw, 1, .any⟩, ⟨5, 4, .rw, 0, (.span 0 2)⟩, ⟨3, 3, .rw, 1, .any⟩, ⟨2, 2, .rw, 0, .any⟩, ⟨1, 0, .rw, 0, (.span 0 2)⟩]⟩
  | .bwStat => ⟨"BW_STAT", .bw, 0x4, 1, [],
      [⟨18, 16, .ro, 0, .any⟩, ⟨15, 15, .ro, 0, .any⟩, ⟨14, 12, .ro, 0, .any⟩, ⟨8, 8, .ro, 0, .any⟩, ⟨7, 7, .ro, 0, .any⟩, ⟨6, 6, .ro, 0, .any⟩, ⟨5, 5, .ro, 0, .any⟩, ⟨4, 4, .rw1c, 0, .any⟩, ⟨3, 3, .rw1c, 0, .any⟩, ⟨2, 2, .rw1c, 0, .any⟩, ⟨1, 1, .rw1c, 0, .any⟩, ⟨0, 0, .rw1c, 0, .any⟩]⟩
  | .bwSel => ⟨"BW_SEL", .bw, 0x8, 1, [],
      [⟨2, 0, .rw, 0, .any⟩]⟩
  | .bwCmd => ⟨"BW_CMD", .bw, 0xC, 1, [],
      [⟨0, 0, .wo, 0, .any⟩]⟩
  | .bwUnlock => ⟨"BW_UNLOCK", .bw, 0x10, 1, [],
      [⟨7, 0, .wo, 0, .any⟩]⟩
  | .bwSlew => ⟨"BW_SLEW", .bw, 0x14, 1, [],
      [⟨19, 0, .rw, 0x3e8, (.span 1 1000000)⟩]⟩
  | .bwFslew => ⟨"BW_FSLEW", .bw, 0x18, 1, [],
      [⟨19, 0, .rw, 0x3e8, (.span 1 1000000)⟩]⟩
  | .bwDpll => ⟨"BW_DPLL", .bw, 0x1C, 1, [],
      [⟨16, 0, .rw, 0x3e8, (.span 1 100000)⟩]⟩
  | .bwQual => ⟨"BW_QUAL", .bw, 0x20, 1, [],
      [⟨27, 16, .rw, 0xa, (.span 1 3600)⟩, ⟨15, 0, .rw, 0x32, (.span 1 65535)⟩]⟩
  | .bwDisagree => ⟨"BW_DISAGREE", .bw, 0x24, 1, [],
      [⟨19, 0, .rw, 0x32, (.span 1 1000000)⟩]⟩
  | .bwLock => ⟨"BW_LOCK", .bw, 0x28, 1, [],
      [⟨31, 16, .rw, 0xa, (.span 1 65535)⟩, ⟨15, 0, .rw, 0xa, (.span 1 65535)⟩]⟩
  | .bwHoCtl => ⟨"BW_HO_CTL", .bw, 0x2C, 1, [],
      [⟨10, 0, .rw, 0x12c, (.span 1 1024)⟩]⟩
  | .bwHoSpec => ⟨"BW_HO_SPEC", .bw, 0x30, 1, [],
      [⟨31, 31, .rw, 1, .any⟩, ⟨30, 0, .rw, 0x3840, .any⟩]⟩
  | .bwPhaseAccept => ⟨"BW_PHASE_ACCEPT", .bw, 0x34, 1, [],
      [⟨31, 0, .rw, 0x64, .any⟩]⟩
  | .bwPhaseOffset => ⟨"BW_PHASE_OFFSET", .bw, 0x38, 2, [],
      [⟨63, 0, .ro, 0, .any⟩]⟩
  | .bwHoAllow => ⟨"BW_HO_ALLOW", .bw, 0x40, 2, [],
      [⟨47, 0, .rw, 0, .nonneg⟩]⟩
  | .bwHoAging => ⟨"BW_HO_AGING", .bw, 0x48, 2, [],
      [⟨47, 0, .rw, 0, .nonneg⟩]⟩
  | .bwHoTe => ⟨"BW_HO_TE", .bw, 0x50, 2, [],
      [⟨63, 0, .ro, 0, .any⟩]⟩
  | .bwHoElapsed => ⟨"BW_HO_ELAPSED", .bw, 0x58, 1, [],
      [⟨31, 0, .ro, 0, .any⟩]⟩
  | .bwHoUnc => ⟨"BW_HO_UNC", .bw, 0x5C, 1, [],
      [⟨31, 0, .ro, 0, .any⟩]⟩
  | .bwYOut => ⟨"BW_Y_OUT", .bw, 0x60, 2, [],
      [⟨47, 0, .ro, 0, .any⟩]⟩
  | .bwPsi => ⟨"BW_PSI", .bw, 0x68, 2, [],
      [⟨63, 0, .ro, 0, .any⟩]⟩
  | .bwCntSwitch => ⟨"BW_CNT_SWITCH", .bw, 0x70, 1, [],
      [⟨31, 0, .rc, 0, .any⟩]⟩
  | .bwRestartY => ⟨"BW_RESTART_Y", .bw, 0x78, 2, [],
      [⟨47, 0, .rws, 0, .any⟩]⟩
  | .bwRefCfg => ⟨"BW_REF_CFG", .bw, 0x100, 1, [(8, 0x20)],
      [⟨19, 19, .rw, 0, .any⟩, ⟨18, 16, .rw, 7, .any⟩, ⟨15, 8, .rw, 0, .any⟩, ⟨2, 0, .rw, 0, (.span 0 5)⟩]⟩
  | .bwRefStat => ⟨"BW_REF_STAT", .bw, 0x104, 1, [(8, 0x20)],
      [⟨31, 16, .ro, 0, .any⟩, ⟨15, 12, .rc, 0, .any⟩, ⟨11, 11, .rw1c, 0, .any⟩, ⟨10, 8, .ro, 0, .any⟩, ⟨7, 7, .rw1c, 0, .any⟩, ⟨6, 6, .ro, 0, .any⟩, ⟨1, 0, .ro, 0, .any⟩]⟩
  | .bwRefDelay => ⟨"BW_REF_DELAY", .bw, 0x108, 2, [(8, 0x20)],
      [⟨63, 0, .rw, 0, .any⟩]⟩
  | .bwRefSw => ⟨"BW_REF_SW", .bw, 0x110, 2, [(8, 0x20)],
      [⟨63, 0, .rw, 0, .any⟩]⟩
  | .bwRefFest => ⟨"BW_REF_FEST", .bw, 0x118, 2, [(8, 0x20)],
      [⟨47, 0, .ro, 0, .any⟩]⟩
  | .eoCtl => ⟨"EO_CTL", .eo, 0x0, 1, [(64, 0x1000)],
      [⟨29, 24, .rw, 0, .any⟩, ⟨20, 16, .rw, 0, .any⟩, ⟨9, 9, .rw, 0, .any⟩, ⟨8, 8, .rw, 0, .any⟩, ⟨5, 4, .rw, 0, (.span 0 2)⟩, ⟨3, 3, .rw, 0, .any⟩, ⟨2, 2, .rw, 0, .any⟩, ⟨1, 1, .rw, 0, .any⟩, ⟨0, 0, .rw, 0, .any⟩]⟩
  | .eoStat => ⟨"EO_STAT", .eo, 0x4, 1, [(64, 0x1000)],
      [⟨30, 24, .ro, 0, .any⟩, ⟨23, 23, .ro, 0, .any⟩, ⟨22, 22, .ro, 0, .any⟩, ⟨21, 19, .ro, 0, .any⟩, ⟨12, 12, .ro, 0, .any⟩, ⟨11, 11, .rw1c, 0, .any⟩, ⟨10, 10, .rw1c, 0, .any⟩, ⟨9, 9, .rw1c, 0, .any⟩, ⟨8, 8, .rw1c, 0, .any⟩, ⟨7, 7, .rw1c, 0, .any⟩, ⟨6, 6, .rw1c, 0, .any⟩, ⟨5, 5, .rw1c, 0, .any⟩, ⟨4, 4, .rw1c, 0, .any⟩, ⟨3, 3, .rw1c, 0, .any⟩, ⟨2, 2, .rw1c, 0, .any⟩, ⟨1, 1, .rw1c, 0, .any⟩, ⟨0, 0, .rw1c, 0, .any⟩]⟩
  | .eoQres => ⟨"EO_QRES", .eo, 0x8, 1, [(64, 0x1000)],
      [⟨15, 8, .ro, 0, .any⟩, ⟨3, 0, .ro, 0, .any⟩]⟩
  | .eoTrigCtl => ⟨"EO_TRIG_CTL", .eo, 0xC, 1, [(64, 0x1000)],
      [⟨1, 1, .rw, 1, .any⟩, ⟨0, 0, .rw, 0, .any⟩]⟩
  | .eoVerifyWin => ⟨"EO_VERIFY_WIN", .eo, 0x10, 1, [(64, 0x1000)],
      [⟨31, 16, .rw, 0x3a98, (.span 1000 65535)⟩, ⟨15, 0, .rw, 0x1388, (.span 1000 65535)⟩]⟩
  | .eoVerifySel => ⟨"EO_VERIFY_SEL", .eo, 0x14, 1, [(64, 0x1000)],
      [⟨27, 16, .rw, 1, .any⟩, ⟨1, 0, .rw, 0, (.span 0 2)⟩]⟩
  | .eoCntIss => ⟨"EO_CNT_ISS", .eo, 0x20, 2, [(64, 0x1000)],
      [⟨63, 0, .ro, 0, .any⟩]⟩
  | .eoCntVer => ⟨"EO_CNT_VER", .eo, 0x28, 1, [(64, 0x1000)],
      [⟨31, 0, .rc, 0, .any⟩]⟩
  | .eoCntSkip => ⟨"EO_CNT_SKIP", .eo, 0x2C, 1, [(64, 0x1000)],
      [⟨31, 0, .rc, 0, .any⟩]⟩
  | .eoCntDisp => ⟨"EO_CNT_DISP", .eo, 0x30, 1, [(64, 0x1000)],
      [⟨31, 0, .rc, 0, .any⟩]⟩
  | .eoCntMiss => ⟨"EO_CNT_MISS", .eo, 0x34, 1, [(64, 0x1000)],
      [⟨31, 0, .rc, 0, .any⟩]⟩
  | .eoCntExtra => ⟨"EO_CNT_EXTRA", .eo, 0x38, 1, [(64, 0x1000)],
      [⟨31, 0, .rc, 0, .any⟩]⟩
  | .eoCntLate => ⟨"EO_CNT_LATE", .eo, 0x3C, 1, [(64, 0x1000)],
      [⟨31, 0, .rc, 0, .any⟩]⟩
  | .eoCntRunt => ⟨"EO_CNT_RUNT", .eo, 0x40, 1, [(64, 0x1000)],
      [⟨31, 0, .rc, 0, .any⟩]⟩
  | .eoCntRate => ⟨"EO_CNT_RATE", .eo, 0x44, 1, [(64, 0x1000)],
      [⟨31, 0, .rc, 0, .any⟩]⟩
  | .eoCntNull => ⟨"EO_CNT_NULL", .eo, 0x48, 1, [(64, 0x1000)],
      [⟨31, 0, .rc, 0, .any⟩]⟩
  | .eoCntRefuse => ⟨"EO_CNT_REFUSE", .eo, 0x4C, 1, [(64, 0x1000)],
      [⟨31, 0, .rc, 0, .any⟩]⟩
  | .eoCntTrigIgn => ⟨"EO_CNT_TRIG_IGN", .eo, 0x50, 1, [(64, 0x1000)],
      [⟨31, 0, .rc, 0, .any⟩]⟩
  | .eoCntActFull => ⟨"EO_CNT_ACT_FULL", .eo, 0x54, 1, [(64, 0x1000)],
      [⟨31, 0, .rc, 0, .any⟩]⟩
  | .eoQe => ⟨"EO_QE", .eo, 0x80, 10, [(64, 0x1000)],
      [⟨319, 0, .rw, 0, .any⟩]⟩
  | .eoTe => ⟨"EO_TE", .eo, 0xC0, 10, [(64, 0x1000)],
      [⟨319, 0, .rw, 0, .any⟩]⟩
  | .eoProfCtl => ⟨"EO_PROF_CTL", .eo, 0x100, 1, [(64, 0x1000)],
      [⟨8, 8, .rw, 0, .any⟩, ⟨5, 4, .rw, 0, (.span 0 2)⟩, ⟨2, 2, .rw, 0, .any⟩, ⟨1, 0, .rw, 0, (.span 0 1)⟩]⟩
  | .eoProfLines => ⟨"EO_PROF_LINES", .eo, 0x104, 1, [(64, 0x1000)],
      [⟨23, 0, .rw, 0x800, .any⟩]⟩
  | .eoProfZpos => ⟨"EO_PROF_ZPOS", .eo, 0x108, 1, [(64, 0x1000)],
      [⟨25, 0, .rw, 0, .any⟩]⟩
  | .eoProfX0 => ⟨"EO_PROF_X0", .eo, 0x110, 4, [(64, 0x1000)],
      [⟨127, 0, .rw, 0, .any⟩]⟩
  | .eoProfV0 => ⟨"EO_PROF_V0", .eo, 0x120, 2, [(64, 0x1000)],
      [⟨63, 0, .rw, 0, .any⟩]⟩
  | .eoProfPos => ⟨"EO_PROF_POS", .eo, 0x140, 7, [(64, 0x1000)],
      [⟨223, 0, .ro, 0, .any⟩]⟩
  | .eoBankCtl => ⟨"EO_BANK_CTL", .eo, 0x7F0, 1, [(8, 0x8000)],
      [⟨0, 0, .rw, 1, .any⟩]⟩
  | .eoSeg => ⟨"EO_SEG", .eo, 0x800, 4, [(64, 0x1000), (2, 0x400), (64, 0x10)],
      [⟨47, 0, .rw, 0, .any⟩, ⟨127, 64, .rw, 0, .any⟩]⟩
  | .tiuCtl => ⟨"TIU_CTL", .tiu, 0x0, 1, [(96, 0x1000)],
      [⟨9, 9, .rw, 0, .any⟩, ⟨8, 8, .rw, 0, .any⟩, ⟨5, 4, .rw, 0, (.span 0 2)⟩, ⟨3, 3, .rw, 0, .any⟩, ⟨2, 0, .rw, 0, (.span 0 4)⟩]⟩
  | .tiuStat => ⟨"TIU_STAT", .tiu, 0x4, 1, [(96, 0x1000)],
      [⟨20, 16, .ro, 0, .any⟩, ⟨10, 10, .rw1c, 0, .any⟩, ⟨9, 9, .ro, 0, .any⟩, ⟨8, 8, .ro, 0, .any⟩, ⟨7, 7, .rw1c, 0, .any⟩, ⟨6, 6, .rw1c, 0, .any⟩, ⟨5, 5, .rw1c, 0, .any⟩, ⟨4, 4, .rw1c, 0, .any⟩, ⟨3, 3, .rw1c, 0, .any⟩, ⟨2, 2, .rw1c, 0, .any⟩, ⟨1, 1, .rw1c, 0, .any⟩, ⟨0, 0, .rw1c, 0, .any⟩]⟩
  | .tiuArm => ⟨"TIU_ARM", .tiu, 0x8, 1, [(96, 0x1000)],
      [⟨31, 31, .wo, 0, .any⟩, ⟨30, 30, .wo, 0, .any⟩, ⟨23, 0, .rw, 1, .any⟩]⟩
  | .tiuSel => ⟨"TIU_SEL", .tiu, 0xC, 1, [(96, 0x1000)],
      [⟨18, 18, .rw, 0, .any⟩, ⟨17, 16, .rw, 2, (.span 0 2)⟩, ⟨13, 12, .rw, 0, (.span 0 2)⟩, ⟨7, 7, .rw, 0, .any⟩, ⟨6, 0, .rw, 0, (.span 0 95)⟩]⟩
  | .tiuFreq => ⟨"TIU_FREQ", .tiu, 0x10, 1, [(96, 0x1000)],
      [⟨31, 30, .rw, 0, .any⟩, ⟨27, 0, .rw, 0xf4240, .any⟩]⟩
  | .tiuTmo => ⟨"TIU_TMO", .tiu, 0x14, 1, [(96, 0x1000)],
      [⟨31, 31, .rw, 0, .any⟩, ⟨30, 0, .rw, 0, .any⟩]⟩
  | .tiuOfs => ⟨"TIU_OFS", .tiu, 0x18, 1, [(96, 0x1000)],
      [⟨31, 0, .rw, 0, .any⟩]⟩
  | .tiuRes => ⟨"TIU_RES", .tiu, 0x20, 8, [(96, 0x1000)],
      [⟨255, 0, .ro, 0, .any⟩]⟩
  | .tiuCntHit => ⟨"TIU_CNT_HIT", .tiu, 0x40, 2, [(96, 0x1000)],
      [⟨63, 0, .ro, 0, .any⟩]⟩
  | .tiuCntClose => ⟨"TIU_CNT_CLOSE", .tiu, 0x48, 1, [(96, 0x1000)],
      [⟨31, 0, .rc, 0, .any⟩]⟩
  | .tiuCntGap => ⟨"TIU_CNT_GAP", .tiu, 0x4C, 1, [(96, 0x1000)],
      [⟨31, 0, .rc, 0, .any⟩]⟩
  | .tiuCntOvf => ⟨"TIU_CNT_OVF", .tiu, 0x50, 1, [(96, 0x1000)],
      [⟨31, 0, .rc, 0, .any⟩]⟩
  | .tiuCntTmo => ⟨"TIU_CNT_TMO", .tiu, 0x54, 1, [(96, 0x1000)],
      [⟨31, 0, .rc, 0, .any⟩]⟩
  | .tiuCntRdq => ⟨"TIU_CNT_RDQ", .tiu, 0x58, 1, [(96, 0x1000)],
      [⟨31, 0, .rc, 0, .any⟩]⟩
  | .tiuCntCalhold => ⟨"TIU_CNT_CALHOLD", .tiu, 0x5C, 1, [(96, 0x1000)],
      [⟨31, 0, .rc, 0, .any⟩]⟩
  | .talCtl => ⟨"TAL_CTL", .tal, 0x0, 1, [],
      [⟨7, 7, .wo, 0, .any⟩, ⟨5, 5, .rw, 0, .any⟩, ⟨4, 4, .rw, 1, .any⟩, ⟨1, 1, .rw, 0, .any⟩, ⟨0, 0, .rw, 0, .any⟩]⟩
  | .talStat => ⟨"TAL_STAT", .tal, 0x4, 1, [],
      [⟨7, 7, .ro, 0, .any⟩, ⟨6, 6, .rw1c, 0, .any⟩, ⟨5, 5, .rw1c, 0, .any⟩, ⟨4, 4, .ro, 0, .any⟩, ⟨3, 3, .ro, 0, .any⟩, ⟨2, 2, .ro, 0, .any⟩, ⟨1, 1, .ro, 0, .any⟩, ⟨0, 0, .rw1c, 0, .any⟩]⟩
  | .talBase => ⟨"TAL_BASE", .tal, 0x8, 1, [],
      [⟨26, 0, .rw, 0, .any⟩]⟩
  | .talSize => ⟨"TAL_SIZE", .tal, 0xC, 1, [],
      [⟨27, 0, .rw, 0x8000000, (.span 0 134217728)⟩]⟩
  | .talPre => ⟨"TAL_PRE", .tal, 0x10, 1, [],
      [⟨27, 0, .rw, 0, (.span 0 134217728)⟩]⟩
  | .talPost => ⟨"TAL_POST", .tal, 0x14, 1, [],
      [⟨27, 0, .rw, 0, (.span 0 134217728)⟩]⟩
  | .talWptr => ⟨"TAL_WPTR", .tal, 0x18, 1, [],
      [⟨27, 0, .ro, 0, .any⟩]⟩
  | .talWraps => ⟨"TAL_WRAPS", .tal, 0x1C, 1, [],
      [⟨31, 0, .ro, 0, .any⟩]⟩
  | .talTrigTime => ⟨"TAL_TRIG_TIME", .tal, 0x20, 3, [],
      [⟨95, 0, .ro, 0, .any⟩]⟩
  | .talTrigPos => ⟨"TAL_TRIG_POS", .tal, 0x2C, 1, [],
      [⟨27, 0, .ro, 0, .any⟩]⟩
  | .talCntIn => ⟨"TAL_CNT_IN", .tal, 0x30, 2, [],
      [⟨63, 0, .ro, 0, .any⟩]⟩
  | .talCntLost => ⟨"TAL_CNT_LOST", .tal, 0x38, 2, [],
      [⟨63, 0, .ro, 0, .any⟩]⟩
  | .talCntDisc => ⟨"TAL_CNT_DISC", .tal, 0x40, 2, [],
      [⟨63, 0, .ro, 0, .any⟩]⟩
  | .dwChCfg => ⟨"DW_CH_CFG", .dw, 0x0, 1, [(256, 0x10)],
      [⟨24, 16, .rw, 0, .gsel⟩, ⟨12, 8, .rw, 0, .any⟩, ⟨5, 5, .rw, 0, .any⟩, ⟨4, 4, .rw, 0, .any⟩, ⟨3, 3, .rw, 0, .any⟩, ⟨1, 1, .rw, 0, .any⟩, ⟨0, 0, .rw, 0, .any⟩]⟩
  | .dwChSrc => ⟨"DW_CH_SRC", .dw, 0x4, 1, [(256, 0x10)],
      [⟨26, 16, .rw, 0x7ff, .any⟩, ⟨10, 0, .rw, 0x7ff, .any⟩]⟩
  | .dwChOwn => ⟨"DW_CH_OWN", .dw, 0x8, 1, [(256, 0x10)],
      [⟨31, 31, .rw1s, 0, .any⟩, ⟨8, 8, .rw, 0, .any⟩, ⟨7, 4, .rw, 0, .any⟩, ⟨1, 0, .rw, 0, (.span 0 2)⟩]⟩
  | .dwChStat => ⟨"DW_CH_STAT", .dw, 0xC, 1, [(256, 0x10)],
      [⟨7, 7, .rw1c, 0, .any⟩, ⟨6, 6, .rw1c, 0, .any⟩, ⟨5, 5, .rw1c, 0, .any⟩, ⟨3, 0, .ro, 0, .any⟩]⟩
  | .dwChCnt => ⟨"DW_CH_CNT", .dw, 0x1000, 1, [(256, 0x4)],
      [⟨31, 0, .rc, 0, .any⟩]⟩
  | .dwCtl => ⟨"DW_CTL", .dw, 0x2000, 1, [],
      [⟨31, 31, .rw1s, 0, .any⟩, ⟨3, 0, .rwl, 8, (.span 1 15)⟩]⟩
  | .dwStat => ⟨"DW_STAT", .dw, 0x2004, 1, [],
      [⟨5, 5, .rw1c, 0, .any⟩, ⟨4, 4, .rw1c, 0, .any⟩, ⟨3, 3, .rw1c, 0, .any⟩, ⟨2, 2, .rw1c, 0, .any⟩, ⟨0, 0, .rw1c, 0, .any⟩]⟩
  | .dwSwf => ⟨"DW_SWF", .dw, 0x2008, 1, [],
      [⟨15, 0, .wo, 0, .any⟩]⟩
  | .dwSwgate => ⟨"DW_SWGATE", .dw, 0x200C, 1, [],
      [⟨15, 0, .rw, 0, .any⟩]⟩
  | .dwCntLoop => ⟨"DW_CNT_LOOP", .dw, 0x2010, 1, [],
      [⟨31, 0, .rc, 0, .any⟩]⟩
  | .dwCntDrop => ⟨"DW_CNT_DROP", .dw, 0x2014, 1, [],
      [⟨31, 0, .rc, 0, .any⟩]⟩
  | .dwFlCtl => ⟨"DW_FL_CTL", .dw, 0x2100, 1, [(32, 0x4)],
      [⟨5, 4, .rw, 0, (.span 0 2)⟩, ⟨0, 0, .rw, 1, .any⟩]⟩
  | .dwTmrCtl => ⟨"DW_TMR_CTL", .dw, 0x2200, 1, [(8, 0x20)],
      [⟨3, 3, .rw1c, 0, .any⟩, ⟨2, 2, .rw1c, 0, .any⟩, ⟨1, 1, .rw, 0, .any⟩, ⟨0, 0, .rw, 0, .any⟩]⟩
  | .dwTmrCount => ⟨"DW_TMR_COUNT", .dw, 0x2204, 1, [(8, 0x20)],
      [⟨31, 0, .rw, 0, .any⟩]⟩
  | .dwTmrPeriod => ⟨"DW_TMR_PERIOD", .dw, 0x2208, 2, [(8, 0x20)],
      [⟨63, 0, .rw, 0xf42400000, (.span 524288 9223372036854775807)⟩]⟩
  | .dwTmrAnchor => ⟨"DW_TMR_ANCHOR", .dw, 0x2210, 3, [(8, 0x20)],
      [⟨95, 0, .rw, 0, .canon⟩]⟩
  | .dwEvinCtl => ⟨"DW_EVIN_CTL", .dw, 0x2400, 1, [(16, 0x4)],
      [⟨1, 0, .rw, 1, .any⟩]⟩
  | .dwEvoutCtl => ⟨"DW_EVOUT_CTL", .dw, 0x2440, 1, [(16, 0x4)],
      [⟨9, 8, .rw, 0, (.span 0 1)⟩, ⟨7, 0, .rw, 4, .any⟩]⟩
  | .dwConSel => ⟨"DW_CON_SEL", .dw, 0x10000, 1, [(1076, 0x4)],
      [⟨31, 31, .rw1s, 0, .any⟩, ⟨29, 28, .rw, 0, (.span 0 2)⟩, ⟨7, 0, .rw, 0, .any⟩]⟩
  | .drvInfo => ⟨"DRV_INFO", .drv, 0x0, 1, [(16, 0x10000)],
      [⟨11, 8, .ro, 0, .any⟩, ⟨7, 4, .ro, 8, .any⟩, ⟨3, 0, .ro, 1, .any⟩]⟩
  | .drvCtl => ⟨"DRV_CTL", .drv, 0x4, 1, [(16, 0x10000)],
      [⟨8, 8, .rw, 0, .any⟩, ⟨0, 0, .wo, 0, .any⟩]⟩
  | .drvStat => ⟨"DRV_STAT", .drv, 0x8, 1, [(16, 0x10000)],
      [⟨15, 8, .rw1c, 0, .any⟩, ⟨7, 7, .rw1c, 0, .any⟩, ⟨6, 6, .rw1c, 0, .any⟩, ⟨5, 5, .rw1c, 0, .any⟩, ⟨4, 4, .rw1c, 0, .any⟩, ⟨1, 1, .ro, 0, .any⟩, ⟨0, 0, .rw1c, 0, .any⟩]⟩
  | .drvCsrPerm => ⟨"DRV_CSR_PERM", .drv, 0xC, 1, [(16, 0x10000)],
      [⟨31, 31, .rw1s, 0, .any⟩, ⟨8, 8, .rwl, 1, .any⟩, ⟨7, 7, .rwl, 0, .any⟩, ⟨6, 6, .rwl, 0, .any⟩, ⟨5, 5, .rwl, 1, .any⟩, ⟨4, 4, .rwl, 1, .any⟩, ⟨3, 3, .rwl, 1, .any⟩, ⟨2, 2, .rwl, 0, .any⟩, ⟨1, 1, .rwl, 0, .any⟩, ⟨0, 0, .rwl, 0, .any⟩]⟩
  | .drvProg => ⟨"DRV_PROG", .drv, 0x10, 3, [(16, 0x10000)],
      [⟨14, 0, .rw, 0, (.span 0 16384)⟩, ⟨35, 32, .rw, 0, .any⟩, ⟨95, 64, .rw, 0, .any⟩]⟩
  | .drvProgStat => ⟨"DRV_PROG_STAT", .drv, 0x1C, 1, [(16, 0x10000)],
      [⟨1, 0, .ro, 0, .any⟩]⟩
  | .drvMemAddr => ⟨"DRV_MEM_ADDR", .drv, 0x20, 1, [(16, 0x10000)],
      [⟨31, 31, .rw, 0, .any⟩, ⟨30, 30, .rw, 1, .any⟩, ⟨12, 0, .rw, 0, .any⟩]⟩
  | .drvMemData => ⟨"DRV_MEM_DATA", .drv, 0x24, 2, [(16, 0x10000)],
      [⟨63, 0, .rw, 0, .any⟩]⟩
  | .drvCntIssue => ⟨"DRV_CNT_ISSUE", .drv, 0x30, 2, [(16, 0x10000)],
      [⟨63, 0, .ro, 0, .any⟩]⟩
  | .drvCntEcc => ⟨"DRV_CNT_ECC", .drv, 0x38, 1, [(16, 0x10000)],
      [⟨31, 0, .rc, 0, .any⟩]⟩
  | .drvCntDramLost => ⟨"DRV_CNT_DRAM_LOST", .drv, 0x3C, 1, [(16, 0x10000)],
      [⟨31, 0, .rc, 0, .any⟩]⟩
  | .drvTaskCtl => ⟨"DRV_TASK_CTL", .drv, 0x100, 1, [(16, 0x10000), (8, 0x40)],
      [⟨31, 31, .wo, 0, .any⟩, ⟨30, 30, .wo, 0, .any⟩, ⟨18, 18, .rw, 0, .any⟩, ⟨17, 17, .rw, 0, .any⟩, ⟨16, 16, .rw, 0, .any⟩, ⟨13, 0, .rw, 0, .any⟩]⟩
  | .drvTaskStat => ⟨"DRV_TASK_STAT", .drv, 0x104, 1, [(16, 0x10000), (8, 0x40)],
      [⟨30, 28, .ro, 0, .any⟩, ⟨27, 24, .ro, 0, .any⟩, ⟨23, 20, .ro, 0, .any⟩, ⟨19, 14, .ro, 0, .any⟩, ⟨13, 0, .ro, 0, .any⟩]⟩
  | .drvTaskTrap => ⟨"DRV_TASK_TRAP", .drv, 0x108, 3, [(16, 0x10000), (8, 0x40)],
      [⟨23, 16, .ro, 0, .any⟩, ⟨13, 0, .ro, 0, .any⟩, ⟨63, 32, .ro, 0, .any⟩, ⟨95, 64, .ro, 0, .any⟩]⟩
  | .drvInStat => ⟨"DRV_IN_STAT", .drv, 0x120, 1, [(16, 0x10000), (8, 0x40), (4, 0x4)],
      [⟨16, 14, .ro, 0, .any⟩, ⟨13, 10, .ro, 0, .any⟩, ⟨9, 9, .ro, 0, .any⟩, ⟨8, 8, .ro, 0, .any⟩, ⟨7, 0, .ro, 0, .any⟩]⟩
  | .drvTaskA => ⟨"DRV_TASK_A", .drv, 0x1000, 2, [(16, 0x10000), (8, 0x200), (16, 0x8)],
      [⟨63, 0, .rw, 0, .any⟩]⟩
  | .drvTaskT => ⟨"DRV_TASK_T", .drv, 0x1100, 3, [(16, 0x10000), (8, 0x200), (8, 0x10)],
      [⟨95, 0, .rw, 0, .canon⟩]⟩
  | .calCtl => ⟨"CAL_CTL", .cal, 0x0, 1, [],
      [⟨20, 16, .rw, 8, (.span 4 16)⟩, ⟨3, 3, .rw, 1, .any⟩, ⟨2, 2, .rw, 1, .any⟩, ⟨1, 1, .rw, 1, .any⟩, ⟨0, 0, .rw, 1, .any⟩]⟩
  | .calStat => ⟨"CAL_STAT", .cal, 0x4, 1, [],
      [⟨9, 8, .ro, 0, .any⟩, ⟨5, 5, .rw1c, 0, .any⟩, ⟨4, 4, .rw1c, 0, .any⟩, ⟨3, 3, .ro, 0, .any⟩, ⟨2, 2, .rw1c, 0, .any⟩, ⟨1, 1, .ro, 0, .any⟩, ⟨0, 0, .rw1c, 0, .any⟩]⟩
  | .calCmd => ⟨"CAL_CMD", .cal, 0x8, 1, [],
      [⟨15, 8, .wo, 0, .any⟩, ⟨3, 0, .wo, 0, .any⟩]⟩
  | .calCmdRes => ⟨"CAL_CMD_RES", .cal, 0xC, 1, [],
      [⟨23, 16, .ro, 0, .any⟩, ⟨8, 8, .ro, 0, .any⟩, ⟨4, 0, .ro, 0, .any⟩]⟩
  | .calDt => ⟨"CAL_DT", .cal, 0x10, 1, [],
      [⟨8, 0, .rw, 0x20, (.span 4 256)⟩]⟩
  | .calGapMin => ⟨"CAL_GAP_MIN", .cal, 0x14, 1, [],
      [⟨9, 0, .rw, 0x14, (.span 2 1000)⟩]⟩
  | .calSlew => ⟨"CAL_SLEW", .cal, 0x18, 1, [],
      [⟨9, 0, .rw, 0x32, (.span 0 1000)⟩]⟩
  | .calCd => ⟨"CAL_CD", .cal, 0x1C, 1, [],
      [⟨31, 16, .rw, 0x1000, (.span 1024 65535)⟩, ⟨4, 0, .rw, 0x16, (.span 17 24)⟩]⟩
  | .calImgAddr => ⟨"CAL_IMG_ADDR", .cal, 0x20, 1, [],
      [⟨21, 0, .rw, 0x180000, (.span 1572864 1834942)⟩]⟩
  | .calSeq => ⟨"CAL_SEQ", .cal, 0x24, 1, [],
      [⟨31, 0, .ro, 0, .any⟩]⟩
  | .calRegion => ⟨"CAL_REGION", .cal, 0x100, 1, [(12, 0x4)],
      [⟨17, 17, .ro, 0, .any⟩, ⟨16, 16, .ro, 0, .any⟩, ⟨15, 0, .ro, 0, .any⟩]⟩
  | .calEoPol => ⟨"CAL_EO_POL", .cal, 0x1000, 1, [(64, 0x10)],
      [⟨5, 5, .rw, 0, .any⟩, ⟨4, 4, .rw, 1, .any⟩, ⟨1, 1, .rw, 1, .any⟩, ⟨0, 0, .rw, 1, .any⟩]⟩
  | .calEoRes => ⟨"CAL_EO_RES", .cal, 0x1004, 1, [(64, 0x10)],
      [⟨21, 16, .ro, 0, .any⟩, ⟨8, 8, .rw1c, 0, .any⟩, ⟨7, 7, .ro, 0, .any⟩, ⟨6, 6, .ro, 0, .any⟩, ⟨5, 5, .ro, 0, .any⟩, ⟨4, 0, .ro, 0, .any⟩]⟩
  | .calTiuPol => ⟨"CAL_TIU_POL", .cal, 0x2000, 1, [(96, 0x10)],
      [⟨1, 1, .rw, 0, .any⟩, ⟨0, 0, .rw, 1, .any⟩]⟩
  | .calTiuRes => ⟨"CAL_TIU_RES", .cal, 0x2004, 1, [(96, 0x10)],
      [⟨31, 8, .ro, 0, .any⟩, ⟨5, 5, .ro, 0, .any⟩, ⟨4, 0, .ro, 0, .any⟩]⟩
  | .calEoTab => ⟨"CAL_EO_TAB", .cal, 0x10000, 1, [(64, 0x400), (128, 0x4)],
      [⟨31, 0, .ro, 0, .any⟩]⟩
  | .calEoShadow => ⟨"CAL_EO_TAB_SHADOW", .cal, 0x10200, 1, [(64, 0x400), (128, 0x4)],
      [⟨31, 0, .rw, 0, .any⟩]⟩
  | .calTiuTab => ⟨"CAL_TIU_TAB", .cal, 0x20000, 1, [(96, 0x1000), (512, 0x4)],
      [⟨31, 0, .ro, 0, .any⟩]⟩
  | .calTiuShadow => ⟨"CAL_TIU_TAB_SHADOW", .cal, 0x20800, 1, [(96, 0x1000), (512, 0x4)],
      [⟨31, 0, .rw, 0, .any⟩]⟩
  | .ntStat => ⟨"NT_STAT", .nt, 0x4, 1, [],
      [⟨0, 0, .rw1c, 0, .any⟩]⟩
  | .ntClockId => ⟨"NT_CLOCK_ID", .nt, 0x8, 2, [],
      [⟨63, 0, .rw, 0, .any⟩]⟩
  | .ntCntStepdrop => ⟨"NT_CNT_STEPDROP", .nt, 0x10, 1, [],
      [⟨31, 0, .rc, 0, .any⟩]⟩
  | .ntDomCfg => ⟨"NT_DOM_CFG", .nt, 0x100, 1, [(16, 0x4)],
      [⟨22, 20, .rw, 0, (.span 0 3)⟩, ⟨19, 8, .rw, 0, .any⟩, ⟨7, 0, .rw, 0, .any⟩]⟩
  | .ntPortCfg => ⟨"NT_PORT_CFG", .nt, 0x10000, 1, [(52, 0x100)],
      [⟨19, 16, .rw, 0xf, .any⟩, ⟨11, 8, .rw, 6, (.span 0 10)⟩, ⟨6, 6, .rw, 0, .any⟩, ⟨5, 5, .rw, 1, .any⟩]⟩
  | .ntPortStat => ⟨"NT_PORT_STAT", .nt, 0x10004, 1, [(52, 0x100)],
      [⟨31, 28, .ro, 0, .any⟩, ⟨7, 7, .ro, 0, .any⟩, ⟨6, 6, .rw1c, 0, .any⟩, ⟨5, 5, .ro, 0, .any⟩, ⟨4, 4, .ro, 0, .any⟩, ⟨3, 3, .ro, 0, .any⟩, ⟨2, 2, .ro, 0, .any⟩]⟩
  | .ntPortIlatTx => ⟨"NT_PORT_ILAT_TX", .nt, 0x10010, 2, [(52, 0x100)],
      [⟨63, 0, .ro, 0, .any⟩]⟩
  | .ntPortIlatRx => ⟨"NT_PORT_ILAT_RX", .nt, 0x10018, 2, [(52, 0x100)],
      [⟨63, 0, .ro, 0, .any⟩]⟩
  | .ntPortBlatTx => ⟨"NT_PORT_BLAT_TX", .nt, 0x10020, 2, [(52, 0x100)],
      [⟨63, 0, .rw, 0, (.span 0 65536000)⟩]⟩
  | .ntPortBlatRx => ⟨"NT_PORT_BLAT_RX", .nt, 0x10028, 2, [(52, 0x100)],
      [⟨63, 0, .rw, 0, (.span 0 65536000)⟩]⟩
  | .ntPortAsym => ⟨"NT_PORT_ASYM", .nt, 0x10030, 2, [(52, 0x100)],
      [⟨63, 0, .rw, 0, .any⟩]⟩
  | .ntPortAlpha => ⟨"NT_PORT_ALPHA", .nt, 0x10038, 2, [(52, 0x100)],
      [⟨63, 0, .rw, 0, .alpha⟩]⟩
  | .ntPortRtt => ⟨"NT_PORT_RTT", .nt, 0x10040, 2, [(52, 0x100)],
      [⟨63, 0, .ro, 0, .any⟩]⟩
  | .ntPortDms => ⟨"NT_PORT_DMS", .nt, 0x10048, 2, [(52, 0x100)],
      [⟨63, 0, .ro, 0, .any⟩]⟩
  | .ntPortPdph => ⟨"NT_PORT_PDPH", .nt, 0x10050, 2, [(52, 0x100)],
      [⟨63, 0, .ro, 0, .any⟩]⟩
  | .ntPortPdfreq => ⟨"NT_PORT_PDFREQ", .nt, 0x10058, 2, [(52, 0x100)],
      [⟨47, 0, .ro, 0, .any⟩]⟩
  | .ntSesCfg => ⟨"NT_SES_CFG", .nt, 0x20000, 1, [(256, 0x100)],
      [⟨31, 31, .rw, 0, .any⟩, ⟨30, 28, .rw, 0, (.span 0 3)⟩, ⟨27, 27, .rw, 0, .any⟩, ⟨26, 25, .rw, 0, (.span 0 2)⟩, ⟨24, 21, .rw, 0, .any⟩, ⟨20, 17, .rw, 0xd, .logSync⟩, ⟨16, 13, .rw, 0xd, .logDreq⟩, ⟨12, 9, .rw, 4, (.span 0 10)⟩]⟩
  | .ntSesStat => ⟨"NT_SES_STAT", .nt, 0x20004, 1, [(256, 0x100)],
      [⟨11, 8, .ro, 0, .any⟩, ⟨7, 7, .ro, 0, .any⟩, ⟨6, 6, .ro, 0, .any⟩, ⟨5, 5, .ro, 0, .any⟩, ⟨4, 4, .rw1c, 0, .any⟩, ⟨3, 3, .rw1c, 0, .any⟩, ⟨2, 2, .rw1c, 0, .any⟩]⟩
  | .ntSesPeerid => ⟨"NT_SES_PEERID", .nt, 0x20008, 3, [(256, 0x100)],
      [⟨79, 0, .rw, 0, .any⟩]⟩
  | .ntSesLink => ⟨"NT_SES_LINK", .nt, 0x20014, 1, [(256, 0x100)],
      [⟨23, 16, .rw, 3, (.span 2 255)⟩, ⟨15, 8, .rw, 0, .any⟩, ⟨5, 0, .rw, 0, (.span 0 51)⟩]⟩
  | .ntSesOfs => ⟨"NT_SES_OFS", .nt, 0x20020, 2, [(256, 0x100)],
      [⟨63, 0, .ro, 0, .any⟩]⟩
  | .ntSesDms => ⟨"NT_SES_DMS", .nt, 0x20028, 2, [(256, 0x100)],
      [⟨63, 0, .ro, 0, .any⟩]⟩
  | .ntSesRr => ⟨"NT_SES_RR", .nt, 0x20030, 2, [(256, 0x100)],
      [⟨47, 0, .ro, 0, .any⟩]⟩
  | .ntSesT => ⟨"NT_SES_T", .nt, 0x20040, 3, [(256, 0x100), (4, 0xC)],
      [⟨95, 0, .ro, 0, .any⟩]⟩
  | .ntSesCntTx => ⟨"NT_SES_CNT_TX", .nt, 0x20070, 1, [(256, 0x100)],
      [⟨31, 0, .rc, 0, .any⟩]⟩
  | .ntSesCntRx => ⟨"NT_SES_CNT_RX", .nt, 0x20074, 1, [(256, 0x100)],
      [⟨31, 0, .rc, 0, .any⟩]⟩
  | .ntSesCntDisc => ⟨"NT_SES_CNT_DISC", .nt, 0x20078, 1, [(256, 0x100)],
      [⟨31, 0, .rc, 0, .any⟩]⟩
  | .ntSesHdr => ⟨"NT_SES_HDR", .nt, 0x20080, 1, [(256, 0x100), (32, 0x4)],
      [⟨31, 0, .rw, 0, .any⟩]⟩
  | .lnCtl => ⟨"LN_CTL", .ln, 0x0, 1, [(65, 0x2000)],
      [⟨8, 8, .wo, 0, .any⟩, ⟨2, 2, .rw, 0, .any⟩, ⟨1, 1, .rw, 0, .any⟩, ⟨0, 0, .rw, 0, .any⟩]⟩
  | .lnStat => ⟨"LN_STAT", .ln, 0x4, 1, [(65, 0x2000)],
      [⟨11, 10, .ro, 0, .any⟩, ⟨5, 5, .rw1c, 0, .any⟩, ⟨4, 4, .ro, 0, .any⟩, ⟨3, 3, .ro, 0, .any⟩, ⟨2, 2, .ro, 0, .any⟩, ⟨1, 1, .ro, 1, .any⟩, ⟨0, 0, .rw1c, 0, .any⟩]⟩
  | .lnTxeq => ⟨"LN_TXEQ", .ln, 0x8, 1, [(65, 0x2000)],
      [⟨17, 12, .rw, 8, .any⟩, ⟨11, 6, .rw, 0x33, .any⟩, ⟨5, 0, .rw, 4, .any⟩]⟩
  | .lnCntLol => ⟨"LN_CNT_LOL", .ln, 0xC, 1, [(65, 0x2000)],
      [⟨31, 0, .rc, 0, .any⟩]⟩
  | .lnQuadCtl => ⟨"LN_QUAD_CTL", .ln, 0x100, 1, [(16, 0x8000)],
      [⟨0, 0, .rw, 0, .any⟩]⟩
  | .lnQuadStat => ⟨"LN_QUAD_STAT", .ln, 0x104, 1, [(16, 0x8000)],
      [⟨3, 3, .ro, 0, .any⟩, ⟨2, 1, .ro, 0, .any⟩, ⟨0, 0, .ro, 0, .any⟩]⟩
  | .ptCfg => ⟨"PT_CFG", .pt, 0x0, 1, [(52, 0x2000)],
      [⟨31, 31, .rw, 0, .any⟩, ⟨15, 14, .rw, 2, (.span 1 2)⟩, ⟨13, 13, .rw, 1, .any⟩, ⟨12, 12, .rw, 1, .any⟩, ⟨9, 8, .rw, 1, .any⟩, ⟨6, 6, .rw, 1, .any⟩, ⟨5, 4, .rw, 0, .any⟩, ⟨2, 0, .rw, 2, .any⟩]⟩
  | .ptTrain => ⟨"PT_TRAIN", .pt, 0x4, 1, [(52, 0x2000)],
      [⟨31, 16, .rw, 0x1f4, (.span 1 10000)⟩, ⟨15, 0, .rw, 0x32, (.span 1 1000)⟩]⟩
  | .ptStat => ⟨"PT_STAT", .pt, 0x8, 1, [(52, 0x2000)],
      [⟨31, 28, .ro, 0, .any⟩, ⟨27, 24, .ro, 0, .any⟩, ⟨23, 20, .ro, 0, .any⟩, ⟨19, 16, .ro, 0, .any⟩, ⟨15, 15, .ro, 0, .any⟩, ⟨14, 14, .ro, 0, .any⟩, ⟨13, 13, .ro, 0, .any⟩, ⟨12, 12, .ro, 0, .any⟩, ⟨11, 11, .rw1c, 0, .any⟩, ⟨10, 8, .ro, 0, .any⟩, ⟨7, 6, .ro, 0, .any⟩, ⟨1, 1, .rw1c, 0, .any⟩, ⟨0, 0, .rw1c, 0, .any⟩]⟩
  | .ptBackoff => ⟨"PT_BACKOFF", .pt, 0xC, 1, [(52, 0x2000)],
      [⟨12, 0, .ro, 0, .any⟩]⟩
  | .ptCntLinkDown => ⟨"PT_CNT_LINK_DOWN", .pt, 0x10, 1, [(52, 0x2000)],
      [⟨31, 0, .rc, 0, .any⟩]⟩
  | .ptCntTrainFail => ⟨"PT_CNT_TRAIN_FAIL", .pt, 0x14, 1, [(52, 0x2000)],
      [⟨31, 0, .rc, 0, .any⟩]⟩
  | .ptCntElmDisc => ⟨"PT_CNT_ELM_DISC", .pt, 0x18, 1, [(52, 0x2000)],
      [⟨31, 0, .rc, 0, .any⟩]⟩
  | .ptCntSpareDisc => ⟨"PT_CNT_SPARE_DISC", .pt, 0x1C, 1, [(52, 0x2000)],
      [⟨31, 0, .rc, 0, .any⟩]⟩
  | .ptPartner => ⟨"PT_PARTNER", .pt, 0x20, 3, [(52, 0x2000)],
      [⟨71, 0, .ro, 0, .any⟩]⟩
  | .ptTsf => ⟨"PT_TSF", .pt, 0x30, 5, [(52, 0x2000)],
      [⟨159, 0, .ro, 0, .any⟩]⟩
  | .ptCntTsfLost => ⟨"PT_CNT_TSF_LOST", .pt, 0x44, 1, [(52, 0x2000)],
      [⟨31, 0, .rc, 0, .any⟩]⟩
  | .swMac => ⟨"SW_MAC", .sw, 0x0, 4, [(131072, 0x10)],
      [⟨63, 0, .rw, 0, .any⟩, ⟨69, 64, .rw, 0, (.span 0 51)⟩, ⟨71, 70, .rw, 0, .any⟩]⟩
  | .swVlan => ⟨"SW_VLAN", .sw, 0x200000, 4, [(4096, 0x10)],
      [⟨51, 0, .rw, 0, .any⟩, ⟨115, 64, .rw, 0, .any⟩]⟩
  | .swStream => ⟨"SW_STREAM", .sw, 0x300000, 8, [(4096, 0x20)],
      [⟨59, 0, .rw, 0, .any⟩, ⟨60, 60, .rw, 0, .any⟩, ⟨61, 61, .rw, 0, .any⟩, ⟨62, 62, .rw1c, 0, .any⟩, ⟨79, 64, .rw, 0x2400, .any⟩, ⟨127, 96, .rw, 0, .any⟩, ⟨159, 128, .rw, 0, .any⟩, ⟨191, 160, .rw, 0, .any⟩, ⟨223, 192, .rw, 0, .any⟩, ⟨255, 224, .rc, 0, .any⟩]⟩
  | .swPortCfg => ⟨"SW_PORT_CFG", .sw, 0x400000, 1, [(52, 0x100)],
      [⟨31, 30, .rw, 0, (.span 0 2)⟩, ⟨29, 22, .rw, 0xff, .any⟩, ⟨18, 18, .rw, 1, .any⟩, ⟨17, 15, .rw, 0, .any⟩, ⟨13, 0, .rw, 0x2400, (.span 64 9216)⟩]⟩
  | .swPcpMap => ⟨"SW_PCP_MAP", .sw, 0x400004, 1, [(52, 0x100)],
      [⟨23, 0, .rw, 0xfac688, .any⟩]⟩
  | .swSample => ⟨"SW_SAMPLE", .sw, 0x400008, 1, [(52, 0x100)],
      [⟨29, 25, .rw, 2, (.span 1 16)⟩, ⟨24, 0, .rw, 0, (.span 0 16777216)⟩]⟩
  | .swFrr => ⟨"SW_FRR", .sw, 0x40000C, 1, [(52, 0x100)],
      [⟨31, 31, .rw, 0, .any⟩, ⟨30, 30, .rw, 1, .any⟩, ⟨21, 6, .rw, 0x3e8, .any⟩, ⟨5, 0, .rw, 0, (.span 0 51)⟩]⟩
  | .swCntRxBad => ⟨"SW_CNT_RX_BAD", .sw, 0x400010, 1, [(52, 0x100)],
      [⟨31, 0, .rc, 0, .any⟩]⟩
  | .swCntSampleLost => ⟨"SW_CNT_SAMPLE_LOST", .sw, 0x400014, 1, [(52, 0x100)],
      [⟨31, 0, .rc, 0, .any⟩]⟩
  | .swStat => ⟨"SW_STAT", .sw, 0x7F0000, 1, [],
      [⟨0, 0, .rw1c, 0, .any⟩]⟩
  | .swAge => ⟨"SW_AGE", .sw, 0x7F0004, 1, [],
      [⟨19, 0, .rw, 0x12c, (.span 1 1000000)⟩]⟩
  | .swCntLearnFull => ⟨"SW_CNT_LEARN_FULL", .sw, 0x7F0008, 1, [],
      [⟨31, 0, .rc, 0, .any⟩]⟩
  | .padCtl => ⟨"PAD_CTL", .pad, 0x0, 1, [],
      [⟨31, 31, .rw, 1, .any⟩, ⟨9, 0, .rw, 0x10, (.span 1 1023)⟩]⟩
  | .padStat => ⟨"PAD_STAT", .pad, 0x4, 1, [],
      [⟨2, 2, .rw1c, 0, .any⟩, ⟨1, 1, .rw1c, 0, .any⟩, ⟨0, 0, .rw1c, 0, .any⟩]⟩
  | .padFree => ⟨"PAD_FREE", .pad, 0x8, 1, [],
      [⟨18, 0, .ro, 0, .any⟩]⟩
  | .padHrTd => ⟨"PAD_HR_TD", .pad, 0xC, 1, [],
      [⟨31, 16, .rw, 0x421c, .any⟩, ⟨15, 0, .rw, 0x7f2, .any⟩]⟩
  | .padHrRtt => ⟨"PAD_HR_RTT", .pad, 0x10, 1, [],
      [⟨19, 0, .rw, 0x186a0, .any⟩]⟩
  | .padLlMtu => ⟨"PAD_LL_MTU", .pad, 0x14, 1, [],
      [⟨13, 0, .rw, 0x800, (.span 64 9216)⟩]⟩
  | .padClass => ⟨"PAD_CLASS", .pad, 0x100, 1, [(8, 0x4)],
      [⟨4, 4, .rw, 0, .any⟩, ⟨3, 0, .rw, 6, (.span 0 9)⟩]⟩
  | .padGmin => ⟨"PAD_GMIN", .pad, 0x1000, 1, [(52, 0x40), (8, 0x4)],
      [⟨8, 0, .rw, 0x30, .any⟩]⟩
  | .padHr => ⟨"PAD_HR", .pad, 0x1020, 1, [(52, 0x40), (8, 0x4)],
      [⟨15, 0, .rw, 0, .any⟩]⟩
  | .padHold => ⟨"PAD_HOLD", .pad, 0x3000, 1, [(52, 0x4)],
      [⟨19, 0, .rw, 0x7d0, (.span 0 1000000)⟩]⟩
  | .padCntDownDisc => ⟨"PAD_CNT_DOWN_DISC", .pad, 0x4000, 1, [(52, 0x20)],
      [⟨31, 0, .rc, 0, .any⟩]⟩
  | .padCntFlush => ⟨"PAD_CNT_FLUSH", .pad, 0x4004, 1, [(52, 0x20)],
      [⟨31, 0, .rc, 0, .any⟩]⟩
  | .padCntDrop => ⟨"PAD_CNT_DROP", .pad, 0x4008, 1, [(52, 0x20)],
      [⟨31, 0, .rc, 0, .any⟩]⟩
  | .padCntHrDrop => ⟨"PAD_CNT_HR_DROP", .pad, 0x400C, 1, [(52, 0x20)],
      [⟨31, 0, .rc, 0, .any⟩]⟩
  | .padCntLlOver => ⟨"PAD_CNT_LL_OVER", .pad, 0x4010, 1, [(52, 0x20)],
      [⟨31, 0, .rc, 0, .any⟩]⟩
  | .tasGclCtl => ⟨"TAS_GCL_CTL", .tas, 0x0, 1, [(52, 0x10000)],
      [⟨31, 31, .wo, 0, .any⟩, ⟨30, 30, .ro, 0, .any⟩, ⟨25, 24, .ro, 0, .any⟩, ⟨8, 0, .rw, 0, .any⟩]⟩
  | .tasCycle => ⟨"TAS_CYCLE", .tas, 0x4, 1, [(52, 0x10000)],
      [⟨31, 0, .rw, 0xf4240, .any⟩]⟩
  | .tasGateDflt => ⟨"TAS_GATE_DFLT", .tas, 0x8, 1, [(52, 0x10000)],
      [⟨7, 0, .rw, 0xff, .any⟩]⟩
  | .tasQ7Maxlen => ⟨"TAS_Q7_MAXLEN", .tas, 0xC, 1, [(52, 0x10000)],
      [⟨13, 0, .rw, 0x5f2, (.span 64 9216)⟩]⟩
  | .tasPreempt => ⟨"TAS_PREEMPT", .tas, 0x10, 1, [(52, 0x10000)],
      [⟨31, 31, .rw, 0, .any⟩, ⟨30, 30, .rw, 0, .any⟩, ⟨29, 29, .ro, 0, .any⟩, ⟨9, 8, .rw, 0, .any⟩, ⟨7, 6, .ro, 3, .any⟩, ⟨5, 0, .rw, 0, .any⟩]⟩
  | .tasLatePol => ⟨"TAS_LATE_POL", .tas, 0x14, 1, [(52, 0x10000)],
      [⟨0, 0, .rw, 0, .any⟩]⟩
  | .tasQCfg => ⟨"TAS_Q_CFG", .tas, 0x18, 1, [(52, 0x10000)],
      [⟨7, 0, .rw, 0, .any⟩]⟩
  | .tasCntLate => ⟨"TAS_CNT_LATE", .tas, 0x1C, 1, [(52, 0x10000)],
      [⟨31, 0, .rc, 0, .any⟩]⟩
  | .tasCntTxBad => ⟨"TAS_CNT_TX_BAD", .tas, 0x20, 1, [(52, 0x10000)],
      [⟨31, 0, .rc, 0, .any⟩]⟩
  | .tasBase => ⟨"TAS_BASE", .tas, 0x40, 3, [(52, 0x10000)],
      [⟨95, 0, .rw, 0, .canon⟩]⟩
  | .tasFl => ⟨"TAS_FL", .tas, 0x50, 3, [(52, 0x10000)],
      [⟨63, 0, .rw, 0x1400000, (.span 20971520 65536000000)⟩, ⟨64, 64, .rw, 0, .any⟩]⟩
  | .tasLastDep => ⟨"TAS_LAST_DEP", .tas, 0x60, 3, [(52, 0x10000)],
      [⟨95, 0, .ro, 0, .any⟩]⟩
  | .tasLqTpl => ⟨"TAS_LQ_TPL", .tas, 0x80, 4, [(52, 0x10000)],
      [⟨34, 0, .rw, 0, .any⟩, ⟨77, 64, .rw, 0, .any⟩, ⟨82, 80, .rw, 0, .any⟩, ⟨87, 84, .ro, 0, .any⟩, ⟨127, 96, .rw, 0, .any⟩]⟩
  | .tasGcl => ⟨"TAS_GCL", .tas, 0x1000, 2, [(52, 0x10000), (256, 0x8)],
      [⟨7, 0, .rw, 0xff, .any⟩, ⟨63, 32, .rw, 0, .any⟩]⟩
  | .tasGclOper => ⟨"TAS_GCL_OPER", .tas, 0x2000, 2, [(52, 0x10000), (256, 0x8)],
      [⟨7, 0, .ro, 0xff, .any⟩, ⟨63, 32, .ro, 0, .any⟩]⟩
  | .bbrCtl => ⟨"BBR_CTL", .bbr, 0x0, 1, [],
      [⟨5, 5, .wo, 0, .any⟩, ⟨4, 4, .wo, 0, .any⟩, ⟨2, 2, .rw, 0, .any⟩, ⟨1, 1, .rw, 1, .any⟩, ⟨0, 0, .rw, 1, .any⟩]⟩
  | .bbrStat => ⟨"BBR_STAT", .bbr, 0x4, 1, [],
      [⟨5, 5, .ro, 0, .any⟩, ⟨4, 4, .rw1c, 0, .any⟩, ⟨2, 2, .ro, 0, .any⟩, ⟨1, 1, .ro, 0, .any⟩, ⟨0, 0, .rw1c, 0, .any⟩]⟩
  | .bbrPre => ⟨"BBR_PRE", .bbr, 0x8, 1, [],
      [⟨13, 0, .rw, 0x2fff, .any⟩]⟩
  | .bbrPost => ⟨"BBR_POST", .bbr, 0xC, 1, [],
      [⟨13, 0, .rw, 0x1000, .any⟩]⟩
  | .bbrSeq => ⟨"BBR_SEQ", .bbr, 0x10, 1, [],
      [⟨31, 0, .ro, 0, .any⟩]⟩
  | .bbrWptr => ⟨"BBR_WPTR", .bbr, 0x14, 1, [],
      [⟨13, 0, .ro, 0, .any⟩]⟩
  | .bbrTrigSeq => ⟨"BBR_TRIG_SEQ", .bbr, 0x18, 1, [],
      [⟨31, 0, .ro, 0, .any⟩]⟩
  | .bbrSpillWptr => ⟨"BBR_SPILL_WPTR", .bbr, 0x1C, 1, [],
      [⟨22, 0, .ro, 0, .any⟩]⟩
  | .bbrCntLost => ⟨"BBR_CNT_LOST", .bbr, 0x20, 1, [],
      [⟨31, 0, .rc, 0, .any⟩]⟩
  | .bbrCntSpillLost => ⟨"BBR_CNT_SPILL_LOST", .bbr, 0x24, 1, [],
      [⟨31, 0, .rc, 0, .any⟩]⟩
  | .bbrRec => ⟨"BBR_REC", .bbr, 0x80000, 8, [(16384, 0x20)],
      [⟨255, 0, .ro, 0, .any⟩]⟩

/-- The registers of a block, in the order of their tables. -/
def Blk.regs : Blk → List Reg
  | .glb => [.glbDeviceId, .glbStepping, .glbErr, .glbRstCtl, .glbBlkRst, .glbRstCause, .glbBootStat, .glbStrap] ++
      [.glbFwVer, .glbLnfVer, .glbSmbCntPec]
  | .flt => [.fltCtl, .fltReact, .fltFreeze, .fltStat, .fltClr, .fltWdogKick, .fltScanStat, .fltFirst] ++
      [.fltCntDet, .fltCntMask, .fltCntRepeat]
  | .mon => [.monTemp, .monTempHi, .monSup, .monSupWin]
  | .mb => [.mbCmd, .mbStatus, .mbProgress, .mbPosDone, .mbPosTotal, .mbLong, .mbInt, .mbArg] ++
      [.mbBuf]
  | .dma => [.dmaStat, .dmaAperBase, .dmaRingCfg, .dmaRingStat, .dmaRingBase, .dmaRingSize, .dmaRingHead, .dmaRingTail] ++
      [.dmaRingCntDrop, .dmaRingAux, .msixTable, .msixPba]
  | .tb => [.tbCtl, .tbStat, .tbNow, .tbNcoSw, .tbNcoApplied, .tbStep, .tbSet, .tbLastStep] ++
      [.tbCntStep]
  | .syn => [.synStat, .synTsynCtl, .synTsynStat, .synTsynCntExc, .synCntSwap, .synBpllStat, .synCsynCtl, .synCsynStat] ++
      [.synCsynCntGuard, .synOsynCtl, .synOsynCmd, .synOsynStat, .synOsynFd, .synOsynFn, .synOsynPhase0, .synOsynAnchor] ++
      [.synOsynRampt, .synOsynSeg]
  | .bw => [.bwCtl, .bwStat, .bwSel, .bwCmd, .bwUnlock, .bwSlew, .bwFslew, .bwDpll] ++
      [.bwQual, .bwDisagree, .bwLock, .bwHoCtl, .bwHoSpec, .bwPhaseAccept, .bwPhaseOffset, .bwHoAllow] ++
      [.bwHoAging, .bwHoTe, .bwHoElapsed, .bwHoUnc, .bwYOut, .bwPsi, .bwCntSwitch, .bwRestartY] ++
      [.bwRefCfg, .bwRefStat, .bwRefDelay, .bwRefSw, .bwRefFest]
  | .eo => [.eoCtl, .eoStat, .eoQres, .eoTrigCtl, .eoVerifyWin, .eoVerifySel, .eoCntIss, .eoCntVer] ++
      [.eoCntSkip, .eoCntDisp, .eoCntMiss, .eoCntExtra, .eoCntLate, .eoCntRunt, .eoCntRate, .eoCntNull] ++
      [.eoCntRefuse, .eoCntTrigIgn, .eoCntActFull, .eoQe, .eoTe, .eoProfCtl, .eoProfLines, .eoProfZpos] ++
      [.eoProfX0, .eoProfV0, .eoProfPos, .eoBankCtl, .eoSeg]
  | .tiu => [.tiuCtl, .tiuStat, .tiuArm, .tiuSel, .tiuFreq, .tiuTmo, .tiuOfs, .tiuRes] ++
      [.tiuCntHit, .tiuCntClose, .tiuCntGap, .tiuCntOvf, .tiuCntTmo, .tiuCntRdq, .tiuCntCalhold]
  | .tal => [.talCtl, .talStat, .talBase, .talSize, .talPre, .talPost, .talWptr, .talWraps] ++
      [.talTrigTime, .talTrigPos, .talCntIn, .talCntLost, .talCntDisc]
  | .dw => [.dwChCfg, .dwChSrc, .dwChOwn, .dwChStat, .dwChCnt, .dwCtl, .dwStat, .dwSwf] ++
      [.dwSwgate, .dwCntLoop, .dwCntDrop, .dwFlCtl, .dwTmrCtl, .dwTmrCount, .dwTmrPeriod, .dwTmrAnchor] ++
      [.dwEvinCtl, .dwEvoutCtl, .dwConSel]
  | .drv => [.drvInfo, .drvCtl, .drvStat, .drvCsrPerm, .drvProg, .drvProgStat, .drvMemAddr, .drvMemData] ++
      [.drvCntIssue, .drvCntEcc, .drvCntDramLost, .drvTaskCtl, .drvTaskStat, .drvTaskTrap, .drvInStat, .drvTaskA] ++
      [.drvTaskT]
  | .cal => [.calCtl, .calStat, .calCmd, .calCmdRes, .calDt, .calGapMin, .calSlew, .calCd] ++
      [.calImgAddr, .calSeq, .calRegion, .calEoPol, .calEoRes, .calTiuPol, .calTiuRes, .calEoTab] ++
      [.calEoShadow, .calTiuTab, .calTiuShadow]
  | .nt => [.ntStat, .ntClockId, .ntCntStepdrop, .ntDomCfg, .ntPortCfg, .ntPortStat, .ntPortIlatTx, .ntPortIlatRx] ++
      [.ntPortBlatTx, .ntPortBlatRx, .ntPortAsym, .ntPortAlpha, .ntPortRtt, .ntPortDms, .ntPortPdph, .ntPortPdfreq] ++
      [.ntSesCfg, .ntSesStat, .ntSesPeerid, .ntSesLink, .ntSesOfs, .ntSesDms, .ntSesRr, .ntSesT] ++
      [.ntSesCntTx, .ntSesCntRx, .ntSesCntDisc, .ntSesHdr]
  | .ln => [.lnCtl, .lnStat, .lnTxeq, .lnCntLol, .lnQuadCtl, .lnQuadStat]
  | .pt => [.ptCfg, .ptTrain, .ptStat, .ptBackoff, .ptCntLinkDown, .ptCntTrainFail, .ptCntElmDisc, .ptCntSpareDisc] ++
      [.ptPartner, .ptTsf, .ptCntTsfLost]
  | .sw => [.swMac, .swVlan, .swStream, .swPortCfg, .swPcpMap, .swSample, .swFrr, .swCntRxBad] ++
      [.swCntSampleLost, .swStat, .swAge, .swCntLearnFull]
  | .pad => [.padCtl, .padStat, .padFree, .padHrTd, .padHrRtt, .padLlMtu, .padClass, .padGmin] ++
      [.padHr, .padHold, .padCntDownDisc, .padCntFlush, .padCntDrop, .padCntHrDrop, .padCntLlOver]
  | .tas => [.tasGclCtl, .tasCycle, .tasGateDflt, .tasQ7Maxlen, .tasPreempt, .tasLatePol, .tasQCfg, .tasCntLate] ++
      [.tasCntTxBad, .tasBase, .tasFl, .tasLastDep, .tasLqTpl, .tasGcl, .tasGclOper]
  | .bbr => [.bbrCtl, .bbrStat, .bbrPre, .bbrPost, .bbrSeq, .bbrWptr, .bbrTrigSeq, .bbrSpillWptr] ++
      [.bbrCntLost, .bbrCntSpillLost, .bbrRec]

/-- The blocks in address order. -/
def Blk.all : List Blk :=
  [.glb, .flt, .mon, .mb, .dma, .tb, .syn, .bw, .eo, .tiu, .dw, .drv, .cal, .nt, .ln, .pt, .tas, .sw, .pad, .tal, .bbr]

/-- A named field: its register and bits. -/
structure Fld where
  reg : Reg
  hi : Nat
  lo : Nat
  deriving DecidableEq, Repr

namespace F

def glbDeviceId_DEVICE : Fld := ⟨.glbDeviceId, 15, 0⟩
def glbStepping_MAJOR : Fld := ⟨.glbStepping, 7, 4⟩
def glbStepping_MINOR : Fld := ⟨.glbStepping, 3, 0⟩
def glbErr_ACC_ERR : Fld := ⟨.glbErr, 1, 1⟩
def glbErr_WR_ERR : Fld := ⟨.glbErr, 0, 0⟩
def glbRstCtl_KEY : Fld := ⟨.glbRstCtl, 7, 0⟩
def glbBlkRst_MEM : Fld := ⟨.glbBlkRst, 7, 7⟩
def glbBlkRst_SWPAD : Fld := ⟨.glbBlkRst, 6, 6⟩
def glbBlkRst_TAS : Fld := ⟨.glbBlkRst, 5, 5⟩
def glbBlkRst_NT : Fld := ⟨.glbBlkRst, 4, 4⟩
def glbBlkRst_TAL : Fld := ⟨.glbBlkRst, 3, 3⟩
def glbBlkRst_CAL : Fld := ⟨.glbBlkRst, 2, 2⟩
def glbBlkRst_DRV : Fld := ⟨.glbBlkRst, 1, 1⟩
def glbBlkRst_DW : Fld := ⟨.glbBlkRst, 0, 0⟩
def glbRstCause_JTAG : Fld := ⟨.glbRstCause, 6, 6⟩
def glbRstCause_THERMAL : Fld := ⟨.glbRstCause, 5, 5⟩
def glbRstCause_FLR : Fld := ⟨.glbRstCause, 4, 4⟩
def glbRstCause_WARM : Fld := ⟨.glbRstCause, 3, 3⟩
def glbRstCause_PIN : Fld := ⟨.glbRstCause, 2, 2⟩
def glbRstCause_MAIN_POR : Fld := ⟨.glbRstCause, 1, 1⟩
def glbRstCause_VAUX_POR : Fld := ⟨.glbRstCause, 0, 0⟩
def glbBootStat_SB_EN : Fld := ⟨.glbBootStat, 10, 10⟩
def glbBootStat_OVERRIDE : Fld := ⟨.glbBootStat, 9, 9⟩
def glbBootStat_LIMITED : Fld := ⟨.glbBootStat, 8, 8⟩
def glbBootStat_LNF_SLOT : Fld := ⟨.glbBootStat, 7, 6⟩
def glbBootStat_MCF_SLOT : Fld := ⟨.glbBootStat, 5, 4⟩
def glbBootStat_FW_RUN : Fld := ⟨.glbBootStat, 3, 3⟩
def glbBootStat_DRAM_READY : Fld := ⟨.glbBootStat, 2, 2⟩
def glbBootStat_TB_READY : Fld := ⟨.glbBootStat, 1, 1⟩
def glbStrap_LIMITED : Fld := ⟨.glbStrap, 3, 3⟩
def glbStrap_SMB_ADDR : Fld := ⟨.glbStrap, 2, 0⟩
def glbFwVer_VER : Fld := ⟨.glbFwVer, 31, 0⟩
def glbLnfVer_VER : Fld := ⟨.glbLnfVer, 31, 0⟩
def glbSmbCntPec_COUNT : Fld := ⟨.glbSmbCntPec, 31, 0⟩
def fltCtl_WDOG_MS : Fld := ⟨.fltCtl, 23, 8⟩
def fltCtl_MASK_PIN : Fld := ⟨.fltCtl, 2, 2⟩
def fltCtl_WDOG_EN : Fld := ⟨.fltCtl, 1, 1⟩
def fltCtl_SCAN_EN : Fld := ⟨.fltCtl, 0, 0⟩
def fltReact_CLASS_HI : Fld := ⟨.fltReact, 10, 8⟩
def fltReact_CLASS_LO : Fld := ⟨.fltReact, 6, 0⟩
def fltFreeze_CLASS : Fld := ⟨.fltFreeze, 10, 0⟩
def fltStat_ACTIVE : Fld := ⟨.fltStat, 31, 31⟩
def fltStat_DET : Fld := ⟨.fltStat, 26, 16⟩
def fltStat_MASKED : Fld := ⟨.fltStat, 14, 4⟩
def fltStat_WR_ERR : Fld := ⟨.fltStat, 0, 0⟩
def fltClr_RELEASE : Fld := ⟨.fltClr, 0, 0⟩
def fltWdogKick_KEY : Fld := ⟨.fltWdogKick, 7, 0⟩
def fltScanStat_GROUP : Fld := ⟨.fltScanStat, 15, 0⟩
def fltFirst_REC : Fld := ⟨.fltFirst, 255, 0⟩
def fltCntDet_COUNT : Fld := ⟨.fltCntDet, 31, 0⟩
def fltCntMask_COUNT : Fld := ⟨.fltCntMask, 31, 0⟩
def fltCntRepeat_COUNT : Fld := ⟨.fltCntRepeat, 31, 0⟩
def monTemp_T : Fld := ⟨.monTemp, 15, 0⟩
def monTempHi_T : Fld := ⟨.monTempHi, 15, 0⟩
def monSup_MV : Fld := ⟨.monSup, 11, 0⟩
def monSupWin_HI : Fld := ⟨.monSupWin, 27, 16⟩
def monSupWin_LO : Fld := ⟨.monSupWin, 11, 0⟩
def mbCmd_GO : Fld := ⟨.mbCmd, 31, 31⟩
def mbCmd_OP : Fld := ⟨.mbCmd, 15, 0⟩
def mbStatus_BUSY : Fld := ⟨.mbStatus, 31, 31⟩
def mbStatus_OWNER : Fld := ⟨.mbStatus, 30, 28⟩
def mbStatus_WR_ERR : Fld := ⟨.mbStatus, 27, 27⟩
def mbStatus_SEQ : Fld := ⟨.mbStatus, 23, 16⟩
def mbStatus_CODE : Fld := ⟨.mbStatus, 15, 0⟩
def mbProgress_P : Fld := ⟨.mbProgress, 13, 0⟩
def mbPosDone_N : Fld := ⟨.mbPosDone, 31, 0⟩
def mbPosTotal_N : Fld := ⟨.mbPosTotal, 31, 0⟩
def mbLong_SRC : Fld := ⟨.mbLong, 1, 0⟩
def mbInt_EN : Fld := ⟨.mbInt, 1, 1⟩
def mbInt_DONE : Fld := ⟨.mbInt, 0, 0⟩
def mbArg_DATA : Fld := ⟨.mbArg, 31, 0⟩
def mbBuf_DATA : Fld := ⟨.mbBuf, 31, 0⟩
def dmaStat_PCIE_ERR : Fld := ⟨.dmaStat, 1, 1⟩
def dmaStat_WR_ERR : Fld := ⟨.dmaStat, 0, 0⟩
def dmaAperBase_UNAVAIL : Fld := ⟨.dmaAperBase, 4, 4⟩
def dmaAperBase_FW_WR : Fld := ⟨.dmaAperBase, 3, 3⟩
def dmaAperBase_BASE : Fld := ⟨.dmaAperBase, 2, 0⟩
def dmaRingCfg_EN : Fld := ⟨.dmaRingCfg, 31, 31⟩
def dmaRingCfg_PORT : Fld := ⟨.dmaRingCfg, 21, 16⟩
def dmaRingCfg_VEC : Fld := ⟨.dmaRingCfg, 13, 8⟩
def dmaRingCfg_TRIG : Fld := ⟨.dmaRingCfg, 4, 4⟩
def dmaRingCfg_KIND : Fld := ⟨.dmaRingCfg, 2, 0⟩
def dmaRingStat_STALL : Fld := ⟨.dmaRingStat, 1, 1⟩
def dmaRingStat_BUSY : Fld := ⟨.dmaRingStat, 0, 0⟩
def dmaRingBase_ADDR : Fld := ⟨.dmaRingBase, 63, 0⟩
def dmaRingSize_LOG : Fld := ⟨.dmaRingSize, 4, 0⟩
def dmaRingHead_IDX : Fld := ⟨.dmaRingHead, 15, 0⟩
def dmaRingTail_IDX : Fld := ⟨.dmaRingTail, 15, 0⟩
def dmaRingCntDrop_COUNT : Fld := ⟨.dmaRingCntDrop, 31, 0⟩
def dmaRingAux_IDX : Fld := ⟨.dmaRingAux, 26, 0⟩
def msixTable_ADDR : Fld := ⟨.msixTable, 63, 0⟩
def msixTable_DATA : Fld := ⟨.msixTable, 95, 64⟩
def msixTable_MASK : Fld := ⟨.msixTable, 96, 96⟩
def msixPba_PENDING : Fld := ⟨.msixPba, 63, 0⟩
def tbCtl_SWSTEP_EN : Fld := ⟨.tbCtl, 1, 1⟩
def tbCtl_NCO_SRC : Fld := ⟨.tbCtl, 0, 0⟩
def tbStat_XO_PH : Fld := ⟨.tbStat, 15, 12⟩
def tbStat_STEP_SEQ : Fld := ⟨.tbStat, 11, 8⟩
def tbStat_DEG : Fld := ⟨.tbStat, 4, 4⟩
def tbStat_VALID : Fld := ⟨.tbStat, 3, 3⟩
def tbStat_STEP_SAT : Fld := ⟨.tbStat, 2, 2⟩
def tbStat_CLAMP : Fld := ⟨.tbStat, 1, 1⟩
def tbStat_WR_ERR : Fld := ⟨.tbStat, 0, 0⟩
def tbNow_NOW : Fld := ⟨.tbNow, 95, 0⟩
def tbNcoSw_Y : Fld := ⟨.tbNcoSw, 47, 0⟩
def tbNcoApplied_Y : Fld := ⟨.tbNcoApplied, 47, 0⟩
def tbStep_SPAN : Fld := ⟨.tbStep, 63, 0⟩
def tbSet_TIME : Fld := ⟨.tbSet, 95, 0⟩
def tbLastStep_SPAN : Fld := ⟨.tbLastStep, 63, 0⟩
def tbCntStep_COUNT : Fld := ⟨.tbCntStep, 31, 0⟩
def synStat_REF_LOSS : Fld := ⟨.synStat, 2, 2⟩
def synStat_XO_LOSS : Fld := ⟨.synStat, 1, 1⟩
def synStat_WR_ERR : Fld := ⟨.synStat, 0, 0⟩
def synTsynCtl_RET_HOLD : Fld := ⟨.synTsynCtl, 15, 8⟩
def synTsynCtl_FORCE_BPLL : Fld := ⟨.synTsynCtl, 1, 1⟩
def synTsynCtl_RET_EN : Fld := ⟨.synTsynCtl, 0, 0⟩
def synTsynStat_PERR : Fld := ⟨.synTsynStat, 31, 16⟩
def synTsynStat_GUARD : Fld := ⟨.synTsynStat, 5, 5⟩
def synTsynStat_SWAP : Fld := ⟨.synTsynStat, 4, 4⟩
def synTsynStat_BPLL_LOCK : Fld := ⟨.synTsynStat, 3, 3⟩
def synTsynStat_TSYN_LOCK : Fld := ⟨.synTsynStat, 2, 2⟩
def synTsynStat_SRC : Fld := ⟨.synTsynStat, 1, 0⟩
def synTsynCntExc_COUNT : Fld := ⟨.synTsynCntExc, 31, 0⟩
def synCntSwap_COUNT : Fld := ⟨.synCntSwap, 31, 0⟩
def synBpllStat_AERR : Fld := ⟨.synBpllStat, 15, 0⟩
def synCsynCtl_SS_DEPTH : Fld := ⟨.synCsynCtl, 29, 26⟩
def synCsynCtl_SS_MODE : Fld := ⟨.synCsynCtl, 25, 24⟩
def synCsynCtl_RATE : Fld := ⟨.synCsynCtl, 23, 12⟩
def synCsynCtl_TGT : Fld := ⟨.synCsynCtl, 10, 0⟩
def synCsynStat_BAND_FAIL : Fld := ⟨.synCsynStat, 17, 17⟩
def synCsynStat_GUARD : Fld := ⟨.synCsynStat, 16, 16⟩
def synCsynStat_ON_TB : Fld := ⟨.synCsynStat, 15, 15⟩
def synCsynStat_RAMP : Fld := ⟨.synCsynStat, 14, 14⟩
def synCsynStat_BAND : Fld := ⟨.synCsynStat, 13, 12⟩
def synCsynStat_FREQ : Fld := ⟨.synCsynStat, 10, 0⟩
def synCsynCntGuard_COUNT : Fld := ⟨.synCsynCntGuard, 31, 0⟩
def synOsynCtl_RCOUNT : Fld := ⟨.synOsynCtl, 30, 24⟩
def synOsynCtl_BYP_DIV : Fld := ⟨.synOsynCtl, 23, 8⟩
def synOsynCtl_BYPASS : Fld := ⟨.synOsynCtl, 2, 1⟩
def synOsynCtl_EN : Fld := ⟨.synOsynCtl, 0, 0⟩
def synOsynCmd_RAMP : Fld := ⟨.synOsynCmd, 1, 1⟩
def synOsynCmd_APPLY : Fld := ⟨.synOsynCmd, 0, 0⟩
def synOsynStat_CACHE_N : Fld := ⟨.synOsynStat, 15, 12⟩
def synOsynStat_RES : Fld := ⟨.synOsynStat, 11, 8⟩
def synOsynStat_LOL : Fld := ⟨.synOsynStat, 4, 4⟩
def synOsynStat_CACHE_HIT : Fld := ⟨.synOsynStat, 3, 3⟩
def synOsynStat_RAMPING : Fld := ⟨.synOsynStat, 2, 2⟩
def synOsynStat_STATE : Fld := ⟨.synOsynStat, 1, 0⟩
def synOsynFd_FD : Fld := ⟨.synOsynFd, 31, 0⟩
def synOsynFn_FN : Fld := ⟨.synOsynFn, 47, 0⟩
def synOsynPhase0_PHASE0 : Fld := ⟨.synOsynPhase0, 31, 0⟩
def synOsynAnchor_A : Fld := ⟨.synOsynAnchor, 95, 0⟩
def synOsynRampt_RT : Fld := ⟨.synOsynRampt, 95, 0⟩
def synOsynSeg_DUR : Fld := ⟨.synOsynSeg, 47, 0⟩
def synOsynSeg_H : Fld := ⟨.synOsynSeg, 127, 64⟩
def bwCtl_INIT_STEP : Fld := ⟨.bwCtl, 6, 6⟩
def bwCtl_POLICY : Fld := ⟨.bwCtl, 5, 4⟩
def bwCtl_FALLBACK : Fld := ⟨.bwCtl, 3, 3⟩
def bwCtl_REVERT : Fld := ⟨.bwCtl, 2, 2⟩
def bwCtl_MODE : Fld := ⟨.bwCtl, 1, 0⟩
def bwStat_STATE : Fld := ⟨.bwStat, 18, 16⟩
def bwStat_ACTIVE_V : Fld := ⟨.bwStat, 15, 15⟩
def bwStat_ACTIVE : Fld := ⟨.bwStat, 14, 12⟩
def bwStat_SW_NCO : Fld := ⟨.bwStat, 8, 8⟩
def bwStat_PULLING : Fld := ⟨.bwStat, 7, 7⟩
def bwStat_OFFSET_HELD : Fld := ⟨.bwStat, 6, 6⟩
def bwStat_STEP_OK : Fld := ⟨.bwStat, 5, 5⟩
def bwStat_HO_SHORT : Fld := ⟨.bwStat, 4, 4⟩
def bwStat_JUMP : Fld := ⟨.bwStat, 3, 3⟩
def bwStat_STEP_DENIED : Fld := ⟨.bwStat, 2, 2⟩
def bwStat_REF_DISPUTE : Fld := ⟨.bwStat, 1, 1⟩
def bwStat_WR_ERR : Fld := ⟨.bwStat, 0, 0⟩
def bwSel_REF : Fld := ⟨.bwSel, 2, 0⟩
def bwCmd_REALIGN : Fld := ⟨.bwCmd, 0, 0⟩
def bwUnlock_KEY : Fld := ⟨.bwUnlock, 7, 0⟩
def bwSlew_SLEW : Fld := ⟨.bwSlew, 19, 0⟩
def bwFslew_FSLEW : Fld := ⟨.bwFslew, 19, 0⟩
def bwDpll_BWU : Fld := ⟨.bwDpll, 16, 0⟩
def bwQual_QTIME : Fld := ⟨.bwQual, 27, 16⟩
def bwQual_QSTAB : Fld := ⟨.bwQual, 15, 0⟩
def bwDisagree_DIS : Fld := ⟨.bwDisagree, 19, 0⟩
def bwLock_WIN : Fld := ⟨.bwLock, 31, 16⟩
def bwLock_FWIN : Fld := ⟨.bwLock, 15, 0⟩
def bwHoCtl_AVG : Fld := ⟨.bwHoCtl, 10, 0⟩
def bwHoSpec_EN : Fld := ⟨.bwHoSpec, 31, 31⟩
def bwHoSpec_SPEC : Fld := ⟨.bwHoSpec, 30, 0⟩
def bwPhaseAccept_ACCEPT : Fld := ⟨.bwPhaseAccept, 31, 0⟩
def bwPhaseOffset_OFS : Fld := ⟨.bwPhaseOffset, 63, 0⟩
def bwHoAllow_ALLOW : Fld := ⟨.bwHoAllow, 47, 0⟩
def bwHoAging_AGING : Fld := ⟨.bwHoAging, 47, 0⟩
def bwHoTe_TE : Fld := ⟨.bwHoTe, 63, 0⟩
def bwHoElapsed_SEC : Fld := ⟨.bwHoElapsed, 31, 0⟩
def bwHoUnc_U : Fld := ⟨.bwHoUnc, 31, 0⟩
def bwYOut_Y : Fld := ⟨.bwYOut, 47, 0⟩
def bwPsi_PSI : Fld := ⟨.bwPsi, 63, 0⟩
def bwCntSwitch_COUNT : Fld := ⟨.bwCntSwitch, 31, 0⟩
def bwRestartY_Y : Fld := ⟨.bwRestartY, 47, 0⟩
def bwRefCfg_CKIN_100M : Fld := ⟨.bwRefCfg, 19, 19⟩
def bwRefCfg_RANK : Fld := ⟨.bwRefCfg, 18, 16⟩
def bwRefCfg_INDEX : Fld := ⟨.bwRefCfg, 15, 8⟩
def bwRefCfg_TYPE : Fld := ⟨.bwRefCfg, 2, 0⟩
def bwRefStat_QLEFT : Fld := ⟨.bwRefStat, 31, 16⟩
def bwRefStat_DQ : Fld := ⟨.bwRefStat, 15, 12⟩
def bwRefStat_IGN : Fld := ⟨.bwRefStat, 11, 11⟩
def bwRefStat_FCAUSE : Fld := ⟨.bwRefStat, 10, 8⟩
def bwRefStat_FAULT : Fld := ⟨.bwRefStat, 7, 7⟩
def bwRefStat_TIME : Fld := ⟨.bwRefStat, 6, 6⟩
def bwRefStat_QSTATE : Fld := ⟨.bwRefStat, 1, 0⟩
def bwRefDelay_DELAY : Fld := ⟨.bwRefDelay, 63, 0⟩
def bwRefSw_THETA : Fld := ⟨.bwRefSw, 63, 0⟩
def bwRefFest_FEST : Fld := ⟨.bwRefFest, 47, 0⟩
def eoCtl_QLOW : Fld := ⟨.eoCtl, 29, 24⟩
def eoCtl_FLOCK : Fld := ⟨.eoCtl, 20, 16⟩
def eoCtl_TALLY : Fld := ⟨.eoCtl, 9, 9⟩
def eoCtl_TRIG_EN : Fld := ⟨.eoCtl, 8, 8⟩
def eoCtl_SRC : Fld := ⟨.eoCtl, 5, 4⟩
def eoCtl_LATE : Fld := ⟨.eoCtl, 3, 3⟩
def eoCtl_IDLE : Fld := ⟨.eoCtl, 2, 2⟩
def eoCtl_POL : Fld := ⟨.eoCtl, 1, 1⟩
def eoCtl_EN : Fld := ⟨.eoCtl, 0, 0⟩
def eoStat_DEPTH : Fld := ⟨.eoStat, 30, 24⟩
def eoStat_LEVEL : Fld := ⟨.eoStat, 23, 23⟩
def eoStat_RUN : Fld := ⟨.eoStat, 22, 22⟩
def eoStat_PERR : Fld := ⟨.eoStat, 21, 19⟩
def eoStat_NOVERIFY : Fld := ⟨.eoStat, 12, 12⟩
def eoStat_DEGRADED : Fld := ⟨.eoStat, 11, 11⟩
def eoStat_EXTRA : Fld := ⟨.eoStat, 10, 10⟩
def eoStat_MISSING : Fld := ⟨.eoStat, 9, 9⟩
def eoStat_DISPLACED : Fld := ⟨.eoStat, 8, 8⟩
def eoStat_PROF_ERR : Fld := ⟨.eoStat, 7, 7⟩
def eoStat_TRIG_IGN : Fld := ⟨.eoStat, 6, 6⟩
def eoStat_REFUSED : Fld := ⟨.eoStat, 5, 5⟩
def eoStat_RATE : Fld := ⟨.eoStat, 4, 4⟩
def eoStat_RUNT : Fld := ⟨.eoStat, 3, 3⟩
def eoStat_LATE : Fld := ⟨.eoStat, 2, 2⟩
def eoStat_ACT_FULL : Fld := ⟨.eoStat, 1, 1⟩
def eoStat_WR_ERR : Fld := ⟨.eoStat, 0, 0⟩
def eoQres_SEQ : Fld := ⟨.eoQres, 15, 8⟩
def eoQres_CODE : Fld := ⟨.eoQres, 3, 0⟩
def eoTrigCtl_ONESHOT : Fld := ⟨.eoTrigCtl, 1, 1⟩
def eoTrigCtl_ARMED : Fld := ⟨.eoTrigCtl, 0, 0⟩
def eoVerifyWin_DWIN : Fld := ⟨.eoVerifyWin, 31, 16⟩
def eoVerifyWin_WIN : Fld := ⟨.eoVerifyWin, 15, 0⟩
def eoVerifySel_RATIO : Fld := ⟨.eoVerifySel, 27, 16⟩
def eoVerifySel_EDGES : Fld := ⟨.eoVerifySel, 1, 0⟩
def eoCntIss_ISS : Fld := ⟨.eoCntIss, 63, 0⟩
def eoCntVer_COUNT : Fld := ⟨.eoCntVer, 31, 0⟩
def eoCntSkip_COUNT : Fld := ⟨.eoCntSkip, 31, 0⟩
def eoCntDisp_COUNT : Fld := ⟨.eoCntDisp, 31, 0⟩
def eoCntMiss_COUNT : Fld := ⟨.eoCntMiss, 31, 0⟩
def eoCntExtra_COUNT : Fld := ⟨.eoCntExtra, 31, 0⟩
def eoCntLate_COUNT : Fld := ⟨.eoCntLate, 31, 0⟩
def eoCntRunt_COUNT : Fld := ⟨.eoCntRunt, 31, 0⟩
def eoCntRate_COUNT : Fld := ⟨.eoCntRate, 31, 0⟩
def eoCntNull_COUNT : Fld := ⟨.eoCntNull, 31, 0⟩
def eoCntRefuse_COUNT : Fld := ⟨.eoCntRefuse, 31, 0⟩
def eoCntTrigIgn_COUNT : Fld := ⟨.eoCntTrigIgn, 31, 0⟩
def eoCntActFull_COUNT : Fld := ⟨.eoCntActFull, 31, 0⟩
def eoQe_E : Fld := ⟨.eoQe, 319, 0⟩
def eoTe_E : Fld := ⟨.eoTe, 319, 0⟩
def eoProfCtl_DIRINV : Fld := ⟨.eoProfCtl, 8, 8⟩
def eoProfCtl_ZW : Fld := ⟨.eoProfCtl, 5, 4⟩
def eoProfCtl_END : Fld := ⟨.eoProfCtl, 2, 2⟩
def eoProfCtl_MODE : Fld := ⟨.eoProfCtl, 1, 0⟩
def eoProfLines_LINES : Fld := ⟨.eoProfLines, 23, 0⟩
def eoProfZpos_ZPOS : Fld := ⟨.eoProfZpos, 25, 0⟩
def eoProfX0_X0 : Fld := ⟨.eoProfX0, 127, 0⟩
def eoProfV0_V0 : Fld := ⟨.eoProfV0, 63, 0⟩
def eoProfPos_POS : Fld := ⟨.eoProfPos, 223, 0⟩
def eoBankCtl_PWR : Fld := ⟨.eoBankCtl, 0, 0⟩
def eoSeg_DUR : Fld := ⟨.eoSeg, 47, 0⟩
def eoSeg_H : Fld := ⟨.eoSeg, 127, 64⟩
def tiuCtl_RDQ : Fld := ⟨.tiuCtl, 9, 9⟩
def tiuCtl_TALLY : Fld := ⟨.tiuCtl, 8, 8⟩
def tiuCtl_EDGES : Fld := ⟨.tiuCtl, 5, 4⟩
def tiuCtl_CONT : Fld := ⟨.tiuCtl, 3, 3⟩
def tiuCtl_MODE : Fld := ⟨.tiuCtl, 2, 0⟩
def tiuStat_RDQ_DEPTH : Fld := ⟨.tiuStat, 20, 16⟩
def tiuStat_ARM_LATE : Fld := ⟨.tiuStat, 10, 10⟩
def tiuStat_ARMED : Fld := ⟨.tiuStat, 9, 9⟩
def tiuStat_CAL : Fld := ⟨.tiuStat, 8, 8⟩
def tiuStat_RDQ_OVF : Fld := ⟨.tiuStat, 7, 7⟩
def tiuStat_TIMEOUT : Fld := ⟨.tiuStat, 6, 6⟩
def tiuStat_OVF : Fld := ⟨.tiuStat, 5, 5⟩
def tiuStat_GAP : Fld := ⟨.tiuStat, 4, 4⟩
def tiuStat_CLOSE : Fld := ⟨.tiuStat, 3, 3⟩
def tiuStat_REVERSED : Fld := ⟨.tiuStat, 2, 2⟩
def tiuStat_COINCIDENT : Fld := ⟨.tiuStat, 1, 1⟩
def tiuStat_WR_ERR : Fld := ⟨.tiuStat, 0, 0⟩
def tiuArm_ARM : Fld := ⟨.tiuArm, 31, 31⟩
def tiuArm_DISARM : Fld := ⟨.tiuArm, 30, 30⟩
def tiuArm_COUNT : Fld := ⟨.tiuArm, 23, 0⟩
def tiuSel_STOP_AFTER : Fld := ⟨.tiuSel, 18, 18⟩
def tiuSel_STOP_EDGES : Fld := ⟨.tiuSel, 17, 16⟩
def tiuSel_STOP_SRC : Fld := ⟨.tiuSel, 13, 12⟩
def tiuSel_START_SRC : Fld := ⟨.tiuSel, 7, 7⟩
def tiuSel_STOP_UNIT : Fld := ⟨.tiuSel, 6, 0⟩
def tiuFreq_PRE : Fld := ⟨.tiuFreq, 31, 30⟩
def tiuFreq_GATE : Fld := ⟨.tiuFreq, 27, 0⟩
def tiuTmo_EN : Fld := ⟨.tiuTmo, 31, 31⟩
def tiuTmo_TMO : Fld := ⟨.tiuTmo, 30, 0⟩
def tiuOfs_OFS : Fld := ⟨.tiuOfs, 31, 0⟩
def tiuRes_REC : Fld := ⟨.tiuRes, 255, 0⟩
def tiuCntHit_HIT : Fld := ⟨.tiuCntHit, 63, 0⟩
def tiuCntClose_COUNT : Fld := ⟨.tiuCntClose, 31, 0⟩
def tiuCntGap_COUNT : Fld := ⟨.tiuCntGap, 31, 0⟩
def tiuCntOvf_COUNT : Fld := ⟨.tiuCntOvf, 31, 0⟩
def tiuCntTmo_COUNT : Fld := ⟨.tiuCntTmo, 31, 0⟩
def tiuCntRdq_COUNT : Fld := ⟨.tiuCntRdq, 31, 0⟩
def tiuCntCalhold_COUNT : Fld := ⟨.tiuCntCalhold, 31, 0⟩
def talCtl_FIRE : Fld := ⟨.talCtl, 7, 7⟩
def talCtl_TRIG_EN : Fld := ⟨.talCtl, 5, 5⟩
def talCtl_MARK : Fld := ⟨.talCtl, 4, 4⟩
def talCtl_MODE : Fld := ⟨.talCtl, 1, 1⟩
def talCtl_EN : Fld := ⟨.talCtl, 0, 0⟩
def talStat_UNAVAIL : Fld := ⟨.talStat, 7, 7⟩
def talStat_TRUNC : Fld := ⟨.talStat, 6, 6⟩
def talStat_LOST : Fld := ⟨.talStat, 5, 5⟩
def talStat_FULL : Fld := ⟨.talStat, 4, 4⟩
def talStat_FROZEN : Fld := ⟨.talStat, 3, 3⟩
def talStat_TRIGGERED : Fld := ⟨.talStat, 2, 2⟩
def talStat_ACTIVE : Fld := ⟨.talStat, 1, 1⟩
def talStat_WR_ERR : Fld := ⟨.talStat, 0, 0⟩
def talBase_BASE : Fld := ⟨.talBase, 26, 0⟩
def talSize_SIZE : Fld := ⟨.talSize, 27, 0⟩
def talPre_PRE : Fld := ⟨.talPre, 27, 0⟩
def talPost_POST : Fld := ⟨.talPost, 27, 0⟩
def talWptr_WPTR : Fld := ⟨.talWptr, 27, 0⟩
def talWraps_WRAPS : Fld := ⟨.talWraps, 31, 0⟩
def talTrigTime_TT : Fld := ⟨.talTrigTime, 95, 0⟩
def talTrigPos_POS : Fld := ⟨.talTrigPos, 27, 0⟩
def talCntIn_COUNT : Fld := ⟨.talCntIn, 63, 0⟩
def talCntLost_COUNT : Fld := ⟨.talCntLost, 63, 0⟩
def talCntDisc_COUNT : Fld := ⟨.talCntDisc, 63, 0⟩
def dwChCfg_GSEL : Fld := ⟨.dwChCfg, 24, 16⟩
def dwChCfg_FLOCK : Fld := ⟨.dwChCfg, 12, 8⟩
def dwChCfg_FL_MEM : Fld := ⟨.dwChCfg, 5, 5⟩
def dwChCfg_SRCB_EN : Fld := ⟨.dwChCfg, 4, 4⟩
def dwChCfg_GINV : Fld := ⟨.dwChCfg, 3, 3⟩
def dwChCfg_ASYNC : Fld := ⟨.dwChCfg, 1, 1⟩
def dwChCfg_EN : Fld := ⟨.dwChCfg, 0, 0⟩
def dwChSrc_SRC_B : Fld := ⟨.dwChSrc, 26, 16⟩
def dwChSrc_SRC_A : Fld := ⟨.dwChSrc, 10, 0⟩
def dwChOwn_LOCK : Fld := ⟨.dwChOwn, 31, 31⟩
def dwChOwn_SEC : Fld := ⟨.dwChOwn, 8, 8⟩
def dwChOwn_DRV : Fld := ⟨.dwChOwn, 7, 4⟩
def dwChOwn_OWNER : Fld := ⟨.dwChOwn, 1, 0⟩
def dwChStat_LOOP : Fld := ⟨.dwChStat, 7, 7⟩
def dwChStat_GATED : Fld := ⟨.dwChStat, 6, 6⟩
def dwChStat_FLOCKED : Fld := ⟨.dwChStat, 5, 5⟩
def dwChStat_RES : Fld := ⟨.dwChStat, 3, 0⟩
def dwChCnt_COUNT : Fld := ⟨.dwChCnt, 31, 0⟩
def dwCtl_LOCK : Fld := ⟨.dwCtl, 31, 31⟩
def dwCtl_GEN_LIMIT : Fld := ⟨.dwCtl, 3, 0⟩
def dwStat_FL_LATE : Fld := ⟨.dwStat, 5, 5⟩
def dwStat_LOOP : Fld := ⟨.dwStat, 4, 4⟩
def dwStat_LOCK_ERR : Fld := ⟨.dwStat, 3, 3⟩
def dwStat_OWN_ERR : Fld := ⟨.dwStat, 2, 2⟩
def dwStat_WR_ERR : Fld := ⟨.dwStat, 0, 0⟩
def dwSwf_FIRE : Fld := ⟨.dwSwf, 15, 0⟩
def dwSwgate_GATE : Fld := ⟨.dwSwgate, 15, 0⟩
def dwCntLoop_COUNT : Fld := ⟨.dwCntLoop, 31, 0⟩
def dwCntDrop_COUNT : Fld := ⟨.dwCntDrop, 31, 0⟩
def dwFlCtl_REACT : Fld := ⟨.dwFlCtl, 5, 4⟩
def dwFlCtl_STATE : Fld := ⟨.dwFlCtl, 0, 0⟩
def dwTmrCtl_SKIP : Fld := ⟨.dwTmrCtl, 3, 3⟩
def dwTmrCtl_DONE : Fld := ⟨.dwTmrCtl, 2, 2⟩
def dwTmrCtl_UNLIM : Fld := ⟨.dwTmrCtl, 1, 1⟩
def dwTmrCtl_EN : Fld := ⟨.dwTmrCtl, 0, 0⟩
def dwTmrCount_COUNT : Fld := ⟨.dwTmrCount, 31, 0⟩
def dwTmrPeriod_PERIOD : Fld := ⟨.dwTmrPeriod, 63, 0⟩
def dwTmrAnchor_ANCHOR : Fld := ⟨.dwTmrAnchor, 95, 0⟩
def dwEvinCtl_EDGES : Fld := ⟨.dwEvinCtl, 1, 0⟩
def dwEvoutCtl_MODE : Fld := ⟨.dwEvoutCtl, 9, 8⟩
def dwEvoutCtl_WIDTH : Fld := ⟨.dwEvoutCtl, 7, 0⟩
def dwConSel_LOCK : Fld := ⟨.dwConSel, 31, 31⟩
def dwConSel_MODE : Fld := ⟨.dwConSel, 29, 28⟩
def dwConSel_CH : Fld := ⟨.dwConSel, 7, 0⟩
def drvInfo_INDEX : Fld := ⟨.drvInfo, 11, 8⟩
def drvInfo_TASKS : Fld := ⟨.drvInfo, 7, 4⟩
def drvInfo_LEVEL : Fld := ⟨.drvInfo, 3, 0⟩
def drvCtl_TRAP_ALL : Fld := ⟨.drvCtl, 8, 8⟩
def drvCtl_RST : Fld := ⟨.drvCtl, 0, 0⟩
def drvStat_TRAP : Fld := ⟨.drvStat, 15, 8⟩
def drvStat_LOCKSTEP : Fld := ⟨.drvStat, 7, 7⟩
def drvStat_ECC_UNC : Fld := ⟨.drvStat, 6, 6⟩
def drvStat_ECC_CORR : Fld := ⟨.drvStat, 5, 5⟩
def drvStat_DRAM_LOST : Fld := ⟨.drvStat, 4, 4⟩
def drvStat_FAULTED : Fld := ⟨.drvStat, 1, 1⟩
def drvStat_WR_ERR : Fld := ⟨.drvStat, 0, 0⟩
def drvCsrPerm_LOCK : Fld := ⟨.drvCsrPerm, 31, 31⟩
def drvCsrPerm_TAL : Fld := ⟨.drvCsrPerm, 8, 8⟩
def drvCsrPerm_CAL : Fld := ⟨.drvCsrPerm, 7, 7⟩
def drvCsrPerm_DRV : Fld := ⟨.drvCsrPerm, 6, 6⟩
def drvCsrPerm_DW : Fld := ⟨.drvCsrPerm, 5, 5⟩
def drvCsrPerm_TIU : Fld := ⟨.drvCsrPerm, 4, 4⟩
def drvCsrPerm_EO : Fld := ⟨.drvCsrPerm, 3, 3⟩
def drvCsrPerm_BW : Fld := ⟨.drvCsrPerm, 2, 2⟩
def drvCsrPerm_SYN : Fld := ⟨.drvCsrPerm, 1, 1⟩
def drvCsrPerm_TB : Fld := ⟨.drvCsrPerm, 0, 0⟩
def drvProg_LEN : Fld := ⟨.drvProg, 14, 0⟩
def drvProg_LEVEL : Fld := ⟨.drvProg, 35, 32⟩
def drvProg_CRC : Fld := ⟨.drvProg, 95, 64⟩
def drvProgStat_RES : Fld := ⟨.drvProgStat, 1, 0⟩
def drvMemAddr_SPACE : Fld := ⟨.drvMemAddr, 31, 31⟩
def drvMemAddr_AUTOINC : Fld := ⟨.drvMemAddr, 30, 30⟩
def drvMemAddr_INDEX : Fld := ⟨.drvMemAddr, 12, 0⟩
def drvMemData_DATA : Fld := ⟨.drvMemData, 63, 0⟩
def drvCntIssue_ISSUE : Fld := ⟨.drvCntIssue, 63, 0⟩
def drvCntEcc_COUNT : Fld := ⟨.drvCntEcc, 31, 0⟩
def drvCntDramLost_COUNT : Fld := ⟨.drvCntDramLost, 31, 0⟩
def drvTaskCtl_START : Fld := ⟨.drvTaskCtl, 31, 31⟩
def drvTaskCtl_STOP : Fld := ⟨.drvTaskCtl, 30, 30⟩
def drvTaskCtl_CLRIN : Fld := ⟨.drvTaskCtl, 18, 18⟩
def drvTaskCtl_QSTALL : Fld := ⟨.drvTaskCtl, 17, 17⟩
def drvTaskCtl_LPOL : Fld := ⟨.drvTaskCtl, 16, 16⟩
def drvTaskCtl_ENTRY : Fld := ⟨.drvTaskCtl, 13, 0⟩
def drvTaskStat_SRES : Fld := ⟨.drvTaskStat, 30, 28⟩
def drvTaskStat_TAG : Fld := ⟨.drvTaskStat, 27, 24⟩
def drvTaskStat_STATE : Fld := ⟨.drvTaskStat, 23, 20⟩
def drvTaskStat_FLAGS : Fld := ⟨.drvTaskStat, 19, 14⟩
def drvTaskStat_PC : Fld := ⟨.drvTaskStat, 13, 0⟩
def drvTaskTrap_CODE : Fld := ⟨.drvTaskTrap, 23, 16⟩
def drvTaskTrap_PC : Fld := ⟨.drvTaskTrap, 13, 0⟩
def drvTaskTrap_INSN : Fld := ⟨.drvTaskTrap, 63, 32⟩
def drvTaskTrap_ARG : Fld := ⟨.drvTaskTrap, 95, 64⟩
def drvInStat_DEPTH : Fld := ⟨.drvInStat, 16, 14⟩
def drvInStat_TAG : Fld := ⟨.drvInStat, 13, 10⟩
def drvInStat_TS_LOST : Fld := ⟨.drvInStat, 9, 9⟩
def drvInStat_COINCIDENT : Fld := ⟨.drvInStat, 8, 8⟩
def drvInStat_COUNT : Fld := ⟨.drvInStat, 7, 0⟩
def drvTaskA_A : Fld := ⟨.drvTaskA, 63, 0⟩
def drvTaskT_T : Fld := ⟨.drvTaskT, 95, 0⟩
def calCtl_TRACK_AVG : Fld := ⟨.calCtl, 20, 16⟩
def calCtl_AUTOSAVE : Fld := ⟨.calCtl, 3, 3⟩
def calCtl_RUN_EN : Fld := ⟨.calCtl, 2, 2⟩
def calCtl_TRACK_EN : Fld := ⟨.calCtl, 1, 1⟩
def calCtl_TEMP_EN : Fld := ⟨.calCtl, 0, 0⟩
def calStat_SLOT : Fld := ⟨.calStat, 9, 8⟩
def calStat_STARVED : Fld := ⟨.calStat, 5, 5⟩
def calStat_REJECT : Fld := ⟨.calStat, 4, 4⟩
def calStat_DEG_HOLD : Fld := ⟨.calStat, 3, 3⟩
def calStat_FULL_DONE : Fld := ⟨.calStat, 2, 2⟩
def calStat_BUSY : Fld := ⟨.calStat, 1, 1⟩
def calStat_WR_ERR : Fld := ⟨.calStat, 0, 0⟩
def calCmd_ARG : Fld := ⟨.calCmd, 15, 8⟩
def calCmd_OP : Fld := ⟨.calCmd, 3, 0⟩
def calCmdRes_SEQ : Fld := ⟨.calCmdRes, 23, 16⟩
def calCmdRes_DONE : Fld := ⟨.calCmdRes, 8, 8⟩
def calCmdRes_CODE : Fld := ⟨.calCmdRes, 4, 0⟩
def calDt_DT : Fld := ⟨.calDt, 8, 0⟩
def calGapMin_GAP : Fld := ⟨.calGapMin, 9, 0⟩
def calSlew_SLEW : Fld := ⟨.calSlew, 9, 0⟩
def calCd_CHI2_MAX : Fld := ⟨.calCd, 31, 16⟩
def calCd_CD_LOG : Fld := ⟨.calCd, 4, 0⟩
def calImgAddr_PAGE : Fld := ⟨.calImgAddr, 21, 0⟩
def calSeq_SEQ : Fld := ⟨.calSeq, 31, 0⟩
def calRegion_RUNNING : Fld := ⟨.calRegion, 17, 17⟩
def calRegion_PENDING : Fld := ⟨.calRegion, 16, 16⟩
def calRegion_TCAP : Fld := ⟨.calRegion, 15, 0⟩
def calEoPol_B_FLOCK : Fld := ⟨.calEoPol, 5, 5⟩
def calEoPol_B_IDLE : Fld := ⟨.calEoPol, 4, 4⟩
def calEoPol_TRACK_EN : Fld := ⟨.calEoPol, 1, 1⟩
def calEoPol_RUN_EN : Fld := ⟨.calEoPol, 0, 0⟩
def calEoRes_TRIM : Fld := ⟨.calEoRes, 21, 16⟩
def calEoRes_TRK_LIM : Fld := ⟨.calEoRes, 8, 8⟩
def calEoRes_SLEWING : Fld := ⟨.calEoRes, 7, 7⟩
def calEoRes_PENDING : Fld := ⟨.calEoRes, 6, 6⟩
def calEoRes_HOLD : Fld := ⟨.calEoRes, 5, 5⟩
def calEoRes_CODE : Fld := ⟨.calEoRes, 4, 0⟩
def calTiuPol_LIVE : Fld := ⟨.calTiuPol, 1, 1⟩
def calTiuPol_RUN_EN : Fld := ⟨.calTiuPol, 0, 0⟩
def calTiuRes_VTRIM : Fld := ⟨.calTiuRes, 31, 8⟩
def calTiuRes_HOLD : Fld := ⟨.calTiuRes, 5, 5⟩
def calTiuRes_CODE : Fld := ⟨.calTiuRes, 4, 0⟩
def calEoTab_W : Fld := ⟨.calEoTab, 31, 0⟩
def calEoShadow_W : Fld := ⟨.calEoShadow, 31, 0⟩
def calTiuTab_W : Fld := ⟨.calTiuTab, 31, 0⟩
def calTiuShadow_W : Fld := ⟨.calTiuShadow, 31, 0⟩
def ntStat_WR_ERR : Fld := ⟨.ntStat, 0, 0⟩
def ntClockId_ID : Fld := ⟨.ntClockId, 63, 0⟩
def ntCntStepdrop_COUNT : Fld := ⟨.ntCntStepdrop, 31, 0⟩
def ntDomCfg_MODE : Fld := ⟨.ntDomCfg, 22, 20⟩
def ntDomCfg_SDOID : Fld := ⟨.ntDomCfg, 19, 8⟩
def ntDomCfg_DOMAIN : Fld := ⟨.ntDomCfg, 7, 0⟩
def ntPortCfg_QL_TX : Fld := ⟨.ntPortCfg, 19, 16⟩
def ntPortCfg_PD_AVG : Fld := ⟨.ntPortCfg, 11, 8⟩
def ntPortCfg_ESMC_EN : Fld := ⟨.ntPortCfg, 6, 6⟩
def ntPortCfg_FINE_EN : Fld := ⟨.ntPortCfg, 5, 5⟩
def ntPortStat_QL_RX : Fld := ⟨.ntPortStat, 31, 28⟩
def ntPortStat_RTT_V : Fld := ⟨.ntPortStat, 7, 7⟩
def ntPortStat_ESMC_LOSS : Fld := ⟨.ntPortStat, 6, 6⟩
def ntPortStat_DNU : Fld := ⟨.ntPortStat, 5, 5⟩
def ntPortStat_PD_SETTLED : Fld := ⟨.ntPortStat, 4, 4⟩
def ntPortStat_FINE_RX : Fld := ⟨.ntPortStat, 3, 3⟩
def ntPortStat_FINE_TX : Fld := ⟨.ntPortStat, 2, 2⟩
def ntPortIlatTx_LAT : Fld := ⟨.ntPortIlatTx, 63, 0⟩
def ntPortIlatRx_LAT : Fld := ⟨.ntPortIlatRx, 63, 0⟩
def ntPortBlatTx_LAT : Fld := ⟨.ntPortBlatTx, 63, 0⟩
def ntPortBlatRx_LAT : Fld := ⟨.ntPortBlatRx, 63, 0⟩
def ntPortAsym_A : Fld := ⟨.ntPortAsym, 63, 0⟩
def ntPortAlpha_ALPHA : Fld := ⟨.ntPortAlpha, 63, 0⟩
def ntPortRtt_RM : Fld := ⟨.ntPortRtt, 63, 0⟩
def ntPortDms_D : Fld := ⟨.ntPortDms, 63, 0⟩
def ntPortPdph_PH : Fld := ⟨.ntPortPdph, 63, 0⟩
def ntPortPdfreq_Y : Fld := ⟨.ntPortPdfreq, 47, 0⟩
def ntSesCfg_EN : Fld := ⟨.ntSesCfg, 31, 31⟩
def ntSesCfg_KIND : Fld := ⟨.ntSesCfg, 30, 28⟩
def ntSesCfg_TWO_STEP : Fld := ⟨.ntSesCfg, 27, 27⟩
def ntSesCfg_TRANSPORT : Fld := ⟨.ntSesCfg, 26, 25⟩
def ntSesCfg_DOM : Fld := ⟨.ntSesCfg, 24, 21⟩
def ntSesCfg_LOG_SYNC : Fld := ⟨.ntSesCfg, 20, 17⟩
def ntSesCfg_LOG_DREQ : Fld := ⟨.ntSesCfg, 16, 13⟩
def ntSesCfg_DAVG : Fld := ⟨.ntSesCfg, 12, 9⟩
def ntSesStat_RES : Fld := ⟨.ntSesStat, 11, 8⟩
def ntSesStat_VALID : Fld := ⟨.ntSesStat, 7, 7⟩
def ntSesStat_FINE : Fld := ⟨.ntSesStat, 6, 6⟩
def ntSesStat_HELD : Fld := ⟨.ntSesStat, 5, 5⟩
def ntSesStat_STEPDROP : Fld := ⟨.ntSesStat, 4, 4⟩
def ntSesStat_TMO : Fld := ⟨.ntSesStat, 3, 3⟩
def ntSesStat_DISC : Fld := ⟨.ntSesStat, 2, 2⟩
def ntSesPeerid_ID : Fld := ⟨.ntSesPeerid, 79, 0⟩
def ntSesLink_RX_TMO : Fld := ⟨.ntSesLink, 23, 16⟩
def ntSesLink_PEER : Fld := ⟨.ntSesLink, 15, 8⟩
def ntSesLink_PORT : Fld := ⟨.ntSesLink, 5, 0⟩
def ntSesOfs_THETA : Fld := ⟨.ntSesOfs, 63, 0⟩
def ntSesDms_D : Fld := ⟨.ntSesDms, 63, 0⟩
def ntSesRr_Y : Fld := ⟨.ntSesRr, 47, 0⟩
def ntSesT_T : Fld := ⟨.ntSesT, 95, 0⟩
def ntSesCntTx_COUNT : Fld := ⟨.ntSesCntTx, 31, 0⟩
def ntSesCntRx_COUNT : Fld := ⟨.ntSesCntRx, 31, 0⟩
def ntSesCntDisc_COUNT : Fld := ⟨.ntSesCntDisc, 31, 0⟩
def ntSesHdr_HDR : Fld := ⟨.ntSesHdr, 31, 0⟩
def lnCtl_RST : Fld := ⟨.lnCtl, 8, 8⟩
def lnCtl_RXINV : Fld := ⟨.lnCtl, 2, 2⟩
def lnCtl_TXINV : Fld := ⟨.lnCtl, 1, 1⟩
def lnCtl_TXDIS : Fld := ⟨.lnCtl, 0, 0⟩
def lnStat_RATE : Fld := ⟨.lnStat, 11, 10⟩
def lnStat_LOL : Fld := ⟨.lnStat, 5, 5⟩
def lnStat_ADAPT : Fld := ⟨.lnStat, 4, 4⟩
def lnStat_BLOCK_LOCK : Fld := ⟨.lnStat, 3, 3⟩
def lnStat_CDR_LOCK : Fld := ⟨.lnStat, 2, 2⟩
def lnStat_LOS : Fld := ⟨.lnStat, 1, 1⟩
def lnStat_WR_ERR : Fld := ⟨.lnStat, 0, 0⟩
def lnTxeq_POST : Fld := ⟨.lnTxeq, 17, 12⟩
def lnTxeq_MAIN : Fld := ⟨.lnTxeq, 11, 6⟩
def lnTxeq_PRE : Fld := ⟨.lnTxeq, 5, 0⟩
def lnCntLol_COUNT : Fld := ⟨.lnCntLol, 31, 0⟩
def lnQuadCtl_SYNT : Fld := ⟨.lnQuadCtl, 0, 0⟩
def lnQuadStat_SYNT_LIM : Fld := ⟨.lnQuadStat, 3, 3⟩
def lnQuadStat_FAMILY : Fld := ⟨.lnQuadStat, 2, 1⟩
def lnQuadStat_QPLL_LOCK : Fld := ⟨.lnQuadStat, 0, 0⟩
def ptCfg_EN : Fld := ⟨.ptCfg, 31, 31⟩
def ptCfg_MAXRATE : Fld := ⟨.ptCfg, 15, 14⟩
def ptCfg_TRUNK_SPARE : Fld := ⟨.ptCfg, 13, 13⟩
def ptCfg_ELBER_EN : Fld := ⟨.ptCfg, 12, 12⟩
def ptCfg_PAUSE_ADV : Fld := ⟨.ptCfg, 9, 8⟩
def ptCfg_AN_EN : Fld := ⟨.ptCfg, 6, 6⟩
def ptCfg_FEC : Fld := ⟨.ptCfg, 5, 4⟩
def ptCfg_MODE : Fld := ⟨.ptCfg, 2, 0⟩
def ptTrain_TOTAL_TMO : Fld := ⟨.ptTrain, 31, 16⟩
def ptTrain_STEP_TMO : Fld := ⟨.ptTrain, 15, 0⟩
def ptStat_LANES : Fld := ⟨.ptStat, 31, 28⟩
def ptStat_STATE : Fld := ⟨.ptStat, 27, 24⟩
def ptStat_RATE : Fld := ⟨.ptStat, 23, 20⟩
def ptStat_FAILS : Fld := ⟨.ptStat, 19, 16⟩
def ptStat_LINK : Fld := ⟨.ptStat, 15, 15⟩
def ptStat_ELBER : Fld := ⟨.ptStat, 14, 14⟩
def ptStat_SPARE : Fld := ⟨.ptStat, 13, 13⟩
def ptStat_DOWNRATE : Fld := ⟨.ptStat, 12, 12⟩
def ptStat_QUAD_CONFLICT : Fld := ⟨.ptStat, 11, 11⟩
def ptStat_LAST_FAIL : Fld := ⟨.ptStat, 10, 8⟩
def ptStat_PAUSE_RES : Fld := ⟨.ptStat, 7, 6⟩
def ptStat_TSF_OVF : Fld := ⟨.ptStat, 1, 1⟩
def ptStat_WR_ERR : Fld := ⟨.ptStat, 0, 0⟩
def ptBackoff_MS : Fld := ⟨.ptBackoff, 12, 0⟩
def ptCntLinkDown_COUNT : Fld := ⟨.ptCntLinkDown, 31, 0⟩
def ptCntTrainFail_COUNT : Fld := ⟨.ptCntTrainFail, 31, 0⟩
def ptCntElmDisc_COUNT : Fld := ⟨.ptCntElmDisc, 31, 0⟩
def ptCntSpareDisc_COUNT : Fld := ⟨.ptCntSpareDisc, 31, 0⟩
def ptPartner_PARTNER : Fld := ⟨.ptPartner, 71, 0⟩
def ptTsf_ENTRY : Fld := ⟨.ptTsf, 159, 0⟩
def ptCntTsfLost_COUNT : Fld := ⟨.ptCntTsfLost, 31, 0⟩
def swMac_KEY : Fld := ⟨.swMac, 63, 0⟩
def swMac_PORT : Fld := ⟨.swMac, 69, 64⟩
def swMac_FLAGS : Fld := ⟨.swMac, 71, 70⟩
def swVlan_MEMBER : Fld := ⟨.swVlan, 51, 0⟩
def swVlan_UNTAG : Fld := ⟨.swVlan, 115, 64⟩
def swStream_KEY : Fld := ⟨.swStream, 59, 0⟩
def swStream_EN : Fld := ⟨.swStream, 60, 60⟩
def swStream_BLOCK_OVERSIZE : Fld := ⟨.swStream, 61, 61⟩
def swStream_BLOCKED : Fld := ⟨.swStream, 62, 62⟩
def swStream_MAXSDU : Fld := ⟨.swStream, 79, 64⟩
def swStream_CIR : Fld := ⟨.swStream, 127, 96⟩
def swStream_EIR : Fld := ⟨.swStream, 159, 128⟩
def swStream_CBS : Fld := ⟨.swStream, 191, 160⟩
def swStream_EBS : Fld := ⟨.swStream, 223, 192⟩
def swStream_DROP : Fld := ⟨.swStream, 255, 224⟩
def swPortCfg_FC : Fld := ⟨.swPortCfg, 31, 30⟩
def swPortCfg_PAUSE_MASK : Fld := ⟨.swPortCfg, 29, 22⟩
def swPortCfg_CT_EN : Fld := ⟨.swPortCfg, 18, 18⟩
def swPortCfg_DPCP : Fld := ⟨.swPortCfg, 17, 15⟩
def swPortCfg_MTU : Fld := ⟨.swPortCfg, 13, 0⟩
def swPcpMap_MAP : Fld := ⟨.swPcpMap, 23, 0⟩
def swSample_TRUNC : Fld := ⟨.swSample, 29, 25⟩
def swSample_N : Fld := ⟨.swSample, 24, 0⟩
def swFrr_EN : Fld := ⟨.swFrr, 31, 31⟩
def swFrr_REVERT_EN : Fld := ⟨.swFrr, 30, 30⟩
def swFrr_REVERT : Fld := ⟨.swFrr, 21, 6⟩
def swFrr_ALT : Fld := ⟨.swFrr, 5, 0⟩
def swCntRxBad_COUNT : Fld := ⟨.swCntRxBad, 31, 0⟩
def swCntSampleLost_COUNT : Fld := ⟨.swCntSampleLost, 31, 0⟩
def swStat_WR_ERR : Fld := ⟨.swStat, 0, 0⟩
def swAge_SEC : Fld := ⟨.swAge, 19, 0⟩
def swCntLearnFull_COUNT : Fld := ⟨.swCntLearnFull, 31, 0⟩
def padCtl_HR_AUTO : Fld := ⟨.padCtl, 31, 31⟩
def padCtl_XON_DELTA : Fld := ⟨.padCtl, 9, 0⟩
def padStat_HR_OVF : Fld := ⟨.padStat, 2, 2⟩
def padStat_HR_SHORT : Fld := ⟨.padStat, 1, 1⟩
def padStat_WR_ERR : Fld := ⟨.padStat, 0, 0⟩
def padFree_F : Fld := ⟨.padFree, 18, 0⟩
def padHrTd_TD1G : Fld := ⟨.padHrTd, 31, 16⟩
def padHrTd_TD : Fld := ⟨.padHrTd, 15, 0⟩
def padHrRtt_DFLT : Fld := ⟨.padHrRtt, 19, 0⟩
def padLlMtu_MTU : Fld := ⟨.padLlMtu, 13, 0⟩
def padClass_LL : Fld := ⟨.padClass, 4, 4⟩
def padClass_ALPHA : Fld := ⟨.padClass, 3, 0⟩
def padGmin_CELLS : Fld := ⟨.padGmin, 8, 0⟩
def padHr_CELLS : Fld := ⟨.padHr, 15, 0⟩
def padHold_US : Fld := ⟨.padHold, 19, 0⟩
def padCntDownDisc_COUNT : Fld := ⟨.padCntDownDisc, 31, 0⟩
def padCntFlush_COUNT : Fld := ⟨.padCntFlush, 31, 0⟩
def padCntDrop_COUNT : Fld := ⟨.padCntDrop, 31, 0⟩
def padCntHrDrop_COUNT : Fld := ⟨.padCntHrDrop, 31, 0⟩
def padCntLlOver_COUNT : Fld := ⟨.padCntLlOver, 31, 0⟩
def tasGclCtl_CHANGE : Fld := ⟨.tasGclCtl, 31, 31⟩
def tasGclCtl_PENDING : Fld := ⟨.tasGclCtl, 30, 30⟩
def tasGclCtl_RES : Fld := ⟨.tasGclCtl, 25, 24⟩
def tasGclCtl_LEN : Fld := ⟨.tasGclCtl, 8, 0⟩
def tasCycle_NS : Fld := ⟨.tasCycle, 31, 0⟩
def tasGateDflt_GATES : Fld := ⟨.tasGateDflt, 7, 0⟩
def tasQ7Maxlen_BYTES : Fld := ⟨.tasQ7Maxlen, 13, 0⟩
def tasPreempt_EN : Fld := ⟨.tasPreempt, 31, 31⟩
def tasPreempt_VERIFY_DIS : Fld := ⟨.tasPreempt, 30, 30⟩
def tasPreempt_ACTIVE : Fld := ⟨.tasPreempt, 29, 29⟩
def tasPreempt_ADDFRAG : Fld := ⟨.tasPreempt, 9, 8⟩
def tasPreempt_EXPRESS_HI : Fld := ⟨.tasPreempt, 7, 6⟩
def tasPreempt_EXPRESS_LO : Fld := ⟨.tasPreempt, 5, 0⟩
def tasLatePol_DROP : Fld := ⟨.tasLatePol, 0, 0⟩
def tasQCfg_WINDOW : Fld := ⟨.tasQCfg, 7, 0⟩
def tasCntLate_COUNT : Fld := ⟨.tasCntLate, 31, 0⟩
def tasCntTxBad_COUNT : Fld := ⟨.tasCntTxBad, 31, 0⟩
def tasBase_T : Fld := ⟨.tasBase, 95, 0⟩
def tasFl_DELAY : Fld := ⟨.tasFl, 63, 0⟩
def tasFl_EN : Fld := ⟨.tasFl, 64, 64⟩
def tasLastDep_T : Fld := ⟨.tasLastDep, 95, 0⟩
def tasLqTpl_ADDR : Fld := ⟨.tasLqTpl, 34, 0⟩
def tasLqTpl_LEN : Fld := ⟨.tasLqTpl, 77, 64⟩
def tasLqTpl_CLASS : Fld := ⟨.tasLqTpl, 82, 80⟩
def tasLqTpl_RES : Fld := ⟨.tasLqTpl, 87, 84⟩
def tasLqTpl_OFFSET : Fld := ⟨.tasLqTpl, 127, 96⟩
def tasGcl_GATES : Fld := ⟨.tasGcl, 7, 0⟩
def tasGcl_INTERVAL : Fld := ⟨.tasGcl, 63, 32⟩
def tasGclOper_GATES : Fld := ⟨.tasGclOper, 7, 0⟩
def tasGclOper_INTERVAL : Fld := ⟨.tasGclOper, 63, 32⟩
def bbrCtl_REARM : Fld := ⟨.bbrCtl, 5, 5⟩
def bbrCtl_FIRE : Fld := ⟨.bbrCtl, 4, 4⟩
def bbrCtl_SPILL_FOLLOW : Fld := ⟨.bbrCtl, 2, 2⟩
def bbrCtl_SPILL_EN : Fld := ⟨.bbrCtl, 1, 1⟩
def bbrCtl_TRIG_EN : Fld := ⟨.bbrCtl, 0, 0⟩
def bbrStat_AON_RC : Fld := ⟨.bbrStat, 5, 5⟩
def bbrStat_SPILL_LOST : Fld := ⟨.bbrStat, 4, 4⟩
def bbrStat_FROZEN : Fld := ⟨.bbrStat, 2, 2⟩
def bbrStat_TRIGGERED : Fld := ⟨.bbrStat, 1, 1⟩
def bbrStat_WR_ERR : Fld := ⟨.bbrStat, 0, 0⟩
def bbrPre_N : Fld := ⟨.bbrPre, 13, 0⟩
def bbrPost_N : Fld := ⟨.bbrPost, 13, 0⟩
def bbrSeq_SEQ : Fld := ⟨.bbrSeq, 31, 0⟩
def bbrWptr_IDX : Fld := ⟨.bbrWptr, 13, 0⟩
def bbrTrigSeq_SEQ : Fld := ⟨.bbrTrigSeq, 31, 0⟩
def bbrSpillWptr_IDX : Fld := ⟨.bbrSpillWptr, 22, 0⟩
def bbrCntLost_COUNT : Fld := ⟨.bbrCntLost, 31, 0⟩
def bbrCntSpillLost_COUNT : Fld := ⟨.bbrCntSpillLost, 31, 0⟩
def bbrRec_REC : Fld := ⟨.bbrRec, 255, 0⟩

end F

end Sys2Proof.Machine
end

