-- ==== Sys2Proof/Machine/Sparse.lean ====
section
/-! DEFINITION. Sparse storage: maps from keys to values whose unlisted keys read a default, and byte memories as lists of
(address, byte) cells in one canonical form (addresses strictly rising, no cell equal to what an unlisted address reads). -/

namespace Sys2Proof.Machine

/-- A sparse map: the listed keys and their values. What an unlisted key reads is an argument of the reading function. -/
structure SMap (K V : Type) where
  cells : List (K × V) := []
  deriving DecidableEq, Repr

/-- The value listed for a key, if one is. -/
def lookupCell {K V : Type} [DecidableEq K] (k : K) : List (K × V) → Option V
  | [] => none
  | (k', v) :: t => if k' = k then some v else lookupCell k t

/-- Put a cell before the first one whose code is greater. -/
def insertCell {K V : Type} (code : K → Nat) (k : K) (v : V) : List (K × V) → List (K × V)
  | [] => [(k, v)]
  | (k', v') :: t => if code k < code k' then (k, v) :: (k', v') :: t else (k', v') :: insertCell code k v t

/-- The cells without those of one key. -/
def eraseCell {K V : Type} [DecidableEq K] (k : K) : List (K × V) → List (K × V)
  | [] => []
  | (k', v') :: t => if k' = k then eraseCell k t else (k', v') :: eraseCell k t

/-- Read a sparse map. -/
def SMap.get {K V : Type} [DecidableEq K] (m : SMap K V) (dflt : V) (k : K) : V :=
  (lookupCell k m.cells).getD dflt

/-- Write a sparse map: writing the default removes the cell. -/
def SMap.put {K V : Type} [DecidableEq K] [DecidableEq V] (code : K → Nat) (m : SMap K V) (dflt : V) (k : K) (v : V) :
    SMap K V :=
  if v = dflt then ⟨eraseCell k m.cells⟩ else ⟨insertCell code k v (eraseCell k m.cells)⟩

/-- Keep the cells whose key passes a test. -/
def SMap.keep {K V : Type} (p : K → Bool) (m : SMap K V) : SMap K V := ⟨m.cells.filter fun c => p c.1⟩

/-- The cells with a function applied to each value: only the first cell of a key is kept, and none that becomes the default. -/
def mapCells {K V : Type} [DecidableEq K] [DecidableEq V] (dflt : V) (f : V → V) : List (K × V) → List (K × V)
  | [] => []
  | (k, v) :: t => if f v = dflt then eraseCell k (mapCells dflt f t) else (k, f v) :: eraseCell k (mapCells dflt f t)

/-- Apply a function that keeps the default to every value of a sparse map. -/
def SMap.mapVals {K V : Type} [DecidableEq K] [DecidableEq V] (dflt : V) (f : V → V) (m : SMap K V) : SMap K V :=
  ⟨mapCells dflt f m.cells⟩

/-- A byte memory: cells of (address, byte). -/
abbrev Memory := List Host.Cell

/-- The byte at an address; an unlisted address reads `unl`. (DESIGN CHOICE, log entry 3.) -/
def memRead (unl : Byte) (m : Memory) (a : Nat) : Byte :=
  match m with
  | [] => unl
  | (x, c) :: t => if x = a then c else if a < x then unl else memRead unl t a

/-- Store one byte and keep the canonical form. -/
def memWrite (unl : Byte) (m : Memory) (a : Nat) (b : Byte) : Memory :=
  match m with
  | [] => if b = unl then [] else [(a, b)]
  | (x, c) :: t =>
    if a < x then (if b = unl then (x, c) :: t else (a, b) :: (x, c) :: t)
    else if a = x then (if b = unl then t else (a, b) :: t)
    else (x, c) :: memWrite unl t a b

/-- Every address of the list is greater than `lo`, they rise strictly, and no byte equals what an unlisted address reads. -/
def memWfFrom (unl : Byte) (lo : Nat) : Memory → Bool
  | [] => true
  | (x, c) :: t => decide (lo ≤ x) && decide (c ≠ unl) && memWfFrom unl (x + 1) t

/-- The canonical form of a byte memory. -/
def Memory.wf (unl : Byte) (m : Memory) : Bool := memWfFrom unl 0 m

/-- Little-endian read of `n` bytes as a natural number (R38). -/
def memReadLE (unl : Byte) (m : Memory) (a : Nat) : Nat → Nat
  | 0 => 0
  | n + 1 => (memRead unl m a).toNat + 256 * memReadLE unl m (a + 1) n

/-- Little-endian store of the low `n` bytes of `v` (R38). -/
def memWriteLE (unl : Byte) (m : Memory) (a : Nat) (v : Nat) : Nat → Memory
  | 0 => m
  | n + 1 => memWriteLE unl (memWrite unl m a (BitVec.ofNat 8 v)) (a + 1) (v / 256) n

/-- Store a list of bytes at rising addresses. -/
def memWriteBytes (unl : Byte) (m : Memory) (a : Nat) : List Byte → Memory
  | [] => m
  | b :: t => memWriteBytes unl (memWrite unl m a b) (a + 1) t

/-- The `n` bytes from an address. -/
def memReadBytes (unl : Byte) (m : Memory) (a : Nat) : Nat → List Byte
  | 0 => []
  | n + 1 => memRead unl m a :: memReadBytes unl m (a + 1) n

end Sys2Proof.Machine
end

