-- ==== Sys2Proof/Machine/Types.lean ====
section
/-! DEFINITION. The data types of the device's state, block by block: what a register, queue, event, record, task or channel
holds. They are plain data; their meaning is in the operations. -/

namespace Sys2Proof.Machine

/-- A source of BAR0 accesses (R23, R48, R194): management firmware, PCIe, SMBus, JTAG, or a Drover through CSR. -/
inductive Requester where
  | fw | pcie | smbus | jtag
  | drv (d : Fin 16)
  deriving DecidableEq, Repr

/-- Place of a requester in the order of R23, Drovers first in ascending number (R194). -/
def Requester.order : Requester → Nat
  | .drv d => d.val
  | .fw => 16
  | .pcie => 17
  | .smbus => 18
  | .jtag => 19

/-- The requesters that reach the device from outside its Drovers: firmware, PCIe, SMBus, JTAG (R23). A Drover's accesses are its CSR
instructions. (DEDUCED, log entry 9.) -/
inductive Port where
  | fw | pcie | smbus | jtag
  deriving DecidableEq, Repr

/-- DEDUCED, log entry 9. -/
def Port.req : Port → Requester
  | .fw => .fw
  | .pcie => .pcie
  | .smbus => .smbus
  | .jtag => .jtag

/-- The register an access reaches: its name and array indices (unused indices 0). -/
structure RegKey where
  r : Reg
  i : Nat := 0
  j : Nat := 0
  k : Nat := 0
  deriving DecidableEq, Repr

/-- A number that orders register keys in the sparse register file. -/
def RegKey.code (k : RegKey) : Nat := ((k.r.ctorIdx * 131072 + k.i) * 2048 + k.j) * 2048 + k.k

/-- A register as one requester sees it: key of read latches and write staging (R48, R49). -/
structure ReqKey where
  q : Requester
  key : RegKey
  deriving DecidableEq, Repr

def ReqKey.code (k : ReqKey) : Nat := k.key.code * 32 + k.q.order

/-- What has acted on the registers in this cycle: the bits of each register that a hardware event has set or cleared (R7), and for each
register written one more than the place of the last requester to write it in the order of R23. (DESIGN CHOICE, log entry 82.) -/
structure Cyc where
  hw : SMap RegKey Nat := {}
  wrote : SMap RegKey Nat := {}
  deriving DecidableEq, Repr

/-- What an access answered: the data word of a read and, for the side-band hosts, a status. -/
structure Resp where
  data : Nat := 0
  status : Nat := 0
  bytes : List Nat := []
  deriving DecidableEq, Repr

/-! ### Events (R149) and the outboxes between blocks -/

/-- An event that a producer has raised: producer identifier (R150), timestamp, tag, the tick in which it is raised, and the
channels that have taken it. -/
structure Ev where
  prod : Nat
  ts : Instant
  tag : Nat
  tick : Nat
  taken : List Nat := []
  deriving DecidableEq, Repr

/-- An event as a consumer receives it. -/
structure Stamp where
  ts : Instant
  tag : Nat
  deriving DecidableEq, Repr

/-- A group of events on its way to a consumer input (R149), and the tick in which the input holds it. -/
structure Group where
  x : Nat
  evs : List Stamp
  due : Nat
  deriving DecidableEq, Repr

/-- A fault some mechanism has found and the fault monitor has yet to take (R415): masked or detected, class (R411), SOURCE and
CODE (R420, R421), arguments, its own timestamp if it has one, whether it lies upstream of the timebase (R410), and the flock a
reaction is confined to. -/
structure FaultRep where
  detected : Bool
  cls : Nat
  source : Nat
  code : Nat
  arg0 : Nat
  arg1 : Nat
  ts : Option Instant
  upstream : Bool := false
  flock : Option Nat := none
  tick : Nat := 0                       -- tick of detection
  deriving DecidableEq, Repr

/-- A record offered to the black box (R419, R422) that the recorder has yet to take. -/
structure BbrOffer where
  source : Nat
  code : Nat
  arg0 : Nat
  arg1 : Nat
  ts : Option Instant
  trigger : Bool := false
  tick : Nat := 0                       -- AON cycle of the offer
  deriving DecidableEq, Repr

/-! ### TIU and Tally (R108 to R148) -/

/-- A 32-byte record (R124): TIME, VALUE, SRC, FLAGS, AUX, SEQ. -/
structure Rec where
  time : Instant
  value : Int
  src : Nat
  flags : Nat
  aux : Nat
  seq : Nat
  deriving DecidableEq, Repr


/-- An arm (R115): timestamp, records left, tag, expiry instant (R122). -/
structure Arm where
  ta : Instant
  left : Nat
  tag : Nat
  expiry : Option Instant
  deriving DecidableEq, Repr

/-- A pending half of an interval (R118): start or stop, timestamp, sense, whether it came from an event, tag, the tick count of
its capture or instant for the coarse counter (R120), the expiry instant in CONT mode (R122), VALID and DEG then (R125). -/
structure Half where
  isStart : Bool
  ts : Instant
  rising : Bool
  event : Bool
  tag : Nat
  tick : Nat
  expiry : Option Instant
  valid : Bool := false
  deg : Bool := false
  deriving DecidableEq, Repr

/-- An open frequency gate (R121): opening instant, prescaled edges counted since, its tag, expiry instant, VALID and DEG at its opening. -/
structure Gate where
  opened : Instant
  edges : Nat
  tag : Nat
  expiry : Option Instant
  valid : Bool := false
  deg : Bool := false
  deriving DecidableEq, Repr

/-- A hit with its timestamp, or an event, as the controller of a unit takes it (R113, R117): sense, whether it is an event, what it qualifies
as, the arbiter's order (R119), VALID and DEG at its instant, fine code. -/
structure TiuHalf where
  rising : Bool
  event : Bool
  qStart : Bool
  qStop : Bool
  arb : Bool
  valid : Bool
  deg : Bool
  code : Nat
  deriving DecidableEq, Repr

/-- What reaches the controller: an arm for a count of records with its timestamp, a disarm being an arm for none (R114 to R116), or a hit or
event. -/
inductive TiuAsk where
  | arm (count : Nat) (ta : Instant)
  | half (h : TiuHalf)
  deriving DecidableEq, Repr

/-- One input of the controller: the instant from which it acts, the tick count of its capture or arrival, its tag. -/
structure TiuIn where
  ts : Instant
  tick : Nat
  tag : Nat
  ask : TiuAsk
  deriving DecidableEq, Repr

/-- A record in a unit's FIFO with the channel whose verification made it, if one did (R127). -/
structure FifoRec where
  rcd : Rec
  eo : Option Nat
  deriving DecidableEq, Repr

/-- A hit captured by a front end whose timestamp is not yet formed (R111): capture tick in ns of device time and as a count of
ticks, fine code, sense, whether the unit itself selects it, the tag it carries (R167), the frequency gate it closes, VALID and DEG at its
capture. -/
structure Flight where
  tk : Nat
  tick : Nat
  code : Nat
  rising : Bool
  own : Bool
  tag : Nat
  closes : Option Gate := none
  valid : Bool := false
  deg : Bool := false
  deriving DecidableEq, Repr

/-- One time-interval unit. -/
structure Tiu where
  lastHit : Option Nat := none          -- capture position of the last accepted hit, 2^-10 tick by the count of ticks (dead time, R109)
  seen : Option Nat := none             -- tick count of the last transition it selects, taken or lost (R251)
  flight : List Flight := []            -- hits captured, timestamps not yet formed (R111)
  pre : Nat := 0                        -- input edges since the last prescaled edge (R121)
  preFresh : Bool := true               -- the next rising input edge is a prescaled edge
  arm : Option Arm := none
  half : Option Half := none
  gate : Option Gate := none
  ins : List TiuIn := []                -- inputs of the controller that wait for their turn, in timestamp order (R115, R118)
  missed : List TiuIn := []             -- hits and events no arm admitted, for an arm that is still to come (R115)
  edges : List (Nat × Nat × Nat) := []  -- rising edges no arm admitted, FREQUENCY: tick count, ns of device time, fine code (R115)
  closeLost : List (Nat × Nat) := []    -- hits lost to dead time since the last record: tick count and fine code (R109)
  closeNext : Bool := false             -- the next record carries CLOSE
  gapNext : Bool := false               -- the next record carries GAP
  seq : Nat := 0                        -- R126
  fifo : List FifoRec := []             -- R127
  reserved : Nat := 0                   -- FIFO entries held for checked transitions
  nextDrain : Nat := 0                  -- earliest next drain, in half ticks
  rdq : List Rec := []                  -- readout queue
  calHeld : Bool := false               -- R129
  deriving DecidableEq, Repr

/-- A record on its way from a unit FIFO to Tally, and the tick in which it was offered (R130). -/
structure TalOffer where
  rcd : Rec
  tick : Nat
  deriving DecidableEq, Repr

/-- A record or marker in the Tally ingest buffer. -/
structure TalIn where
  rcd : Rec
  marker : Bool
  deriving DecidableEq, Repr

/-- The Tally store (R130 to R135). -/
structure Tally where
  offers : List TalOffer := []          -- records leaving unit FIFOs for Tally
  buf : List TalIn := []                -- ingest buffer, oldest first
  marks : List TalIn := []              -- markers that wait for a free slot of the buffer
  takenTick : Nat := 0                  -- tick of the last record taken
  takenCnt : Nat := 0                   -- records taken in that tick (at most 2)
  lost : Nat := 0                       -- lost since the last LOST marker
  markSeq : Nat := 0
  written : Nat := 0                    -- records written since EN rose, capped at SIZE
  total : Nat := 0                      -- records written since EN rose
  gen : Nat := 0                        -- captures begun or reset
  kept : Nat := 0                       -- pre-trigger records reserved
  afterTrig : Nat := 0                  -- ring slots written since the trigger
  post : Nat := 0                       -- TIU and EO records with TIME ≥ tt written since the trigger
  draining : Bool := false              -- EN has fallen with records left in the buffer
  deriving DecidableEq, Repr

/-! ### Droveway (R149 to R178) -/

/-- One change of a flock's state: its instant and the state it set (R162). -/
structure FlockChange where
  at_ : Instant
  state : Bool
  deriving DecidableEq, Repr

/-- An EVOUT pin (R155): level and the tick at which a pulse in progress ends. -/
structure EvOut where
  level : Bool := false
  pulseEnd : Option Nat := none
  deriving DecidableEq, Repr

/-- An event-input pin: the level the first synchroniser stage captured last, the level seen at the synchroniser output and the
tick of the last capture (R151, R158). -/
structure EvIn where
  level : Bool := false
  seen : Bool := false
  tick : Nat := 0
  deriving DecidableEq, Repr

/-- A register that has been written in a tick, with the value that stays in force until tick `from_` (R156, R164, R175). -/
structure LateReg where
  key : RegKey
  old : Nat
  from_ : Nat
  deriving DecidableEq, Repr

/-- Droveway state beside its registers. -/
structure Dw where
  late : List LateReg := []             -- register values that stay in force to the end of this tick
  soon : List Ev := []                  -- events a producer raises in a later tick
  evq : List Ev := []
  inbox : List Group := []
  flocks : SMap Nat (List FlockChange) := {}  -- latest changes, newest first, at most 8
  disAt : SMap Nat (List Instant) := {} -- instants of a flock's latest eight disables, also of those that changed nothing
  timers : SMap Nat Nat := {}           -- number of each timer's next instant (R152)
  evin : SMap Nat EvIn := {}
  evpin : SMap Nat Bool := {}           -- levels of the event-input pins themselves (R160)
  ti : SMap Nat Bool := {}              -- comparator levels of the precision inputs
  ppsin : SMap Nat Bool := {}
  evout : SMap Nat EvOut := {}
  checking : SMap Nat Bool := {}        -- enable checks in progress (R166)
  deriving DecidableEq, Repr

/-! ### Edge outputs (R65 to R107) -/

/-- Who offered an action. -/
inductive ActSrc where
  | reg (q : Requester)
  | slot
  | task (d : Fin 16) (k : Fin 8)
  deriving DecidableEq, Repr

/-- An action's entry (R71) as offered, its tag, and the tick at which it may be accepted (R70). -/
structure Offer where
  src : ActSrc
  entry : Nat
  tag : Nat
  due : Nat
  deriving DecidableEq, Repr

/-- Kinds of action that enter the queue (R71). -/
inductive ActKind where
  | edge | pulse | train | prof
  deriving DecidableEq, Repr

/-- A profile segment: ticks and half-acceleration scaled by 2^64 (R84, R106). -/
structure Seg where
  dur : Nat
  h : Int
  deriving DecidableEq, Repr

/-- The profile values captured at acceptance (R87). -/
structure ProfCap where
  dirinv : Bool
  zw : Nat
  halt : Bool
  abz : Bool
  lines : Nat
  zpos : Nat
  x0 : Int
  v0 : Int
  cont : Bool
  bank : Nat
  segs : List Seg
  deriving DecidableEq, Repr

/-- An accepted action holding a queue entry (R65). `next` counts the transitions it has made (two a pulse); `limit` is the instant
at or after which its pulses do not rise (CHAIN, CANCEL), in 2^-34 ns; `inFlow` counts its transitions in the filter; `done`: no
further transition comes; `shift` is how far policy ASAP has moved it (R81); `asap` is EO_CTL.LATE at its acceptance (R94). -/
structure QAct where
  id : Nat
  kind : ActKind
  tag : Nat
  start : Instant
  first : Instant
  level : Bool := false
  width : Int := 0
  period : Int := 0
  count : Nat := 0
  unlim : Bool := false
  late : Bool := false
  active : Bool := false
  next : Nat := 0
  limit : Option Int := none
  inFlow : Nat := 0
  done : Bool := false
  prof : Option ProfCap := none
  shift : Int := 0
  asap : Bool := false
  deriving DecidableEq, Repr

/-- A transition in the filter (R76). `act` is the action it belongs to, `k` its pulse, `rise` whether it starts the pulse; `tag`
is the tag its events carry; `eng` marks a transition that a profile engine made (`act` and `k` are then the PROF and the tick). -/
structure Trans where
  act : Option Nat
  k : Nat
  rise : Bool
  target : Instant
  level : Bool
  tag : Nat
  late : Bool
  eng : Bool := false
  deriving DecidableEq, Repr

/-- A committed transition: its place on the grid (R61). -/
structure Launch where
  tr : Trans
  tick : Int
  tap : Nat
  code : Nat
  res : Int
  deriving DecidableEq, Repr

/-- A launched transition and its capture window (R89). `hit` is the measured time of its hit once one came; `tick` is the count of the tick
of its launch. -/
structure Win where
  target : Instant
  level : Bool
  tag : Nat
  late : Bool
  deg : Bool
  valid : Bool
  res : Int
  checked : Bool
  hit : Option Instant
  reported : Bool
  tick : Nat := 0
  deriving DecidableEq, Repr

/-- A running profile engine (R84 to R88): the action, position and velocity scaled by 2^64 at the start of tick `tick` of device
time, half-acceleration and ticks left of the segment, segments to come, captured values. -/
structure Engine where
  act : Nat
  tag : Nat
  x : Int
  v : Int
  h : Int := 0
  left : Nat := 0
  segs : List Seg
  tick : Nat
  ended : Bool := false
  cap : ProfCap
  deriving DecidableEq, Repr

/-- A profile as the engine started it, and the tick at which it stopped before its own end, if it did. -/
structure Track where
  e : Engine
  stop : Option Nat := none
  deriving DecidableEq, Repr

/-- A CANCEL waiting for its cut instant: it governs the actions accepted before it (R80). -/
structure Cut where
  at_ : Instant
  before : Nat
  deriving DecidableEq, Repr

/-- Fault reaction a channel stands in (R92). -/
inductive Stand where
  | run | quiet | freeze
  deriving DecidableEq, Repr

/-- One EO channel. -/
structure Eo where
  offers : List Offer := []
  acceptTick : Option Nat := none       -- tick of the last acceptance (one a tick)
  nextAct : Nat := 0
  queue : List QAct := []
  cuts : List Cut := []
  filter : List Trans := []
  flevel : Bool := false                -- level after the last non-null transition the filter has seen
  dropNext : Bool := false              -- the next transition goes with a removed one (rate rule)
  committed : List Launch := []
  tickLoad : List Int := []             -- launch ticks of the latest commits (at most two a tick)
  level : Bool := false                 -- level of the last launched transition, or IDLE
  lastTarget : Option Instant := none
  selCount : Nat := 0                   -- selected transitions since EN rose
  wins : List Win := []
  lastTag : Nat := 0                    -- tag of the EO_ISS of the last launch since EN rose
  seq : Nat := 0                        -- verification record sequence (R126)
  slot : Nat := 0                       -- trigger template, 320 bits
  engine : Option Engine := none
  track : List Track := []              -- profiles started, latest first: where x stands now (R105)
  profNext : List Trans := []           -- transitions an engine has made for this output, not yet in the filter
  perr : Nat := 0                       -- EO_STAT.PERR
  stand : Stand := .run
  reactSeen : Nat := 0                  -- fault reactions this channel has carried out or passed over
  poweringUp : Bool := false
  deriving DecidableEq, Repr

/-- Result of a requester's last commit to a channel (R96). -/
structure QRes where
  seq : Nat := 0
  code : Nat := 0
  deriving DecidableEq, Repr

/-! ### Drovers (R179 to R219) -/

/-- Task states (R180). -/
inductive TaskSt where
  | stopped | ready | busy | waitEvent | waitTime | waitMem | waitMeas | waitQueue | trapped
  deriving DecidableEq, Repr

/-- The code DRV_TASK_STAT reports for a state (R180). -/
def TaskSt.code : TaskSt → Nat
  | .stopped => 0
  | .ready => 1
  | .busy => 2
  | .waitEvent => 3
  | .waitTime => 4
  | .waitMem => 5
  | .waitMeas => 6
  | .waitQueue => 7
  | .trapped => 8

/-- The task flags (R181). -/
structure TFlags where
  z : Bool := false
  n : Bool := false
  c : Bool := false
  v : Bool := false
  x : Bool := false
  l : Bool := false
  deriving DecidableEq, Repr

/-- A loop stack entry (R225). -/
structure LoopEnt where
  start : Nat
  stop : Nat
  left : Nat
  deriving DecidableEq, Repr

/-- A task input (R161). -/
structure TaskIn where
  count : Nat := 0
  coinc : Bool := false
  tsLost : Bool := false
  tag : Nat := 0
  fifo : List Instant := []
  tick : Nat := 0                       -- tick of the first group since it was consumed
  deriving DecidableEq, Repr

/-- What a multi-tick instruction writes when it completes. -/
structure BusyRes where
  areg : Option (Nat × W64) := none
  flags : Option TFlags := none
  adv : Bool := true                    -- the PC moves on with it
  deriving DecidableEq, Repr

/-- What a waiting task waits for. -/
inductive Wait where
  | none
  | busy (until_ : Nat) (res : BusyRes)            -- tick of readiness
  | action (ch : Nat)                              -- result of an action offered
  | event (mask : Nat) (expiry : Option Instant)
  | instant (t : Instant) (late : Bool)            -- WAITT; a forward step has carried device time past it
  | yield (until_ : Nat)
  | wakes (tick : Nat)                             -- the wake is decided: READY from that tick
  | ldx (areg : Nat) (off : Nat) (tick : Nat) (data : W64)  -- what DRAM held at the issue
  | meas (u td ad tick : Nat) (issued : Instant) (expiry : Option Instant) (got : Option (Rec × Nat × Nat))
  | launch (p : Nat) (entry : Nat) (t : Instant) (tick : Nat)
  deriving DecidableEq, Repr

/-- One Drover task. -/
structure Task where
  st : TaskSt := .stopped
  pc : Nat := 0
  a : SMap Nat W64 := {}
  t : SMap Nat Instant := {}
  fl : TFlags := {}
  cstack : List Nat := []
  lstack : List LoopEnt := []
  tag : Nat := 0
  wake : Nat := 0
  wtime : Instant := 0
  lpol : Bool := false
  qstall : Bool := false
  ares : Nat := 0
  inp : SMap Nat TaskIn := {}           -- inputs without the latest group
  newIn : SMap Nat (Nat × List Stamp) := {}  -- the latest group of an input and the tick it reached it in
  wait : Wait := .none
  offer : Nat := 0                      -- the action entry being re-offered
  readyAt : Nat := 0                    -- tick from which a READY task may issue
  trap : Nat := 0                       -- DRV_TASK_TRAP, 96 bits
  sres : Nat := 0
  deriving DecidableEq, Repr

/-- What an instruction sends out of its Drover, to act at a later tick: arms, trigger slots, the arrival of a MEAS, a start or stop
of a task, a write through CSR, what the comparator of its two cores has found (R194, R201, R204, R235, R236). -/
inductive DrvOut where
  | arm (u : Nat) (ta : Instant) (tag : Nat)
  | disarm (u : Nat) (ta : Instant)
  | slot (n : Nat) (on : Bool)
  | meas (k u : Nat) (arms : Bool) (ta : Instant) (tag : Nat)
  | tctl (k w : Nat)
  | csr (addr data : Nat)
  | mismatch
  deriving DecidableEq, Repr

/-- One Drover: memories, issue state, program check, what it has sent out and the ticks it acts at. -/
structure Drover where
  imem : SMap Nat Word := {}
  dmem : SMap Nat W64 := {}
  last : Nat := 7                       -- task that issued most recently
  issued : Option Nat := none           -- tick of the last issue
  progRes : Nat := 0
  faulted : Bool := false
  tasks : SMap Nat Task := {}
  outs : List (Nat × DrvOut) := []
  deriving DecidableEq, Repr

end Sys2Proof.Machine
end

