-- ==== Sys2Proof/Machine/TypesBarli.lean ====
section
/-! DEFINITION. The operand forms of the Barli instructions (R220 to R239) and what the device meets at an issue. -/

namespace Sys2Proof.Machine

/-- What happens to the Drover at one issue beside the instruction: its two cores disagree (R201); a word the instruction reads from a
memory, register file or stack carries an error, double-bit or not, at an address (R202). (DESIGN CHOICE, log entry 7; DEDUCED, log entry 43.) -/
structure IssueEnv where
  lockstep : Bool := false
  ecc : Option (Bool × Nat) := none
  deriving DecidableEq, Repr

/-- The second operand of an integer instruction (R226): Ab, or the immediate imm17. -/
inductive BSrc where
  | reg (ab : Fin 16)
  | imm (n : BitVec 17)
  deriving DecidableEq, Repr

/-- The count of a shift (R226). -/
inductive ShSrc where
  | reg (ab : Fin 16)
  | imm (n : Fin 64)
  deriving DecidableEq, Repr

/-- The count of a LOOP (R225). -/
inductive LpSrc where
  | reg (aa : Fin 16)
  | imm (n : Fin 2048)
  deriving DecidableEq, Repr

/-- The channel of an edge instruction: n, or Ar[5:0]. -/
inductive ChSrc where
  | imm (n : Fin 64)
  | reg (ar : Fin 16)
  deriving DecidableEq, Repr

/-- The register operand of a control word access (R239). -/
inductive CsrReg where
  | a (r : Fin 16)
  | t (r : Fin 8)
  deriving DecidableEq, Repr

end Sys2Proof.Machine
end

