-- ==== Sys2Proof/Machine/TypesTime.lean ====
section
/-! DEFINITION. The data types of resets, device time, synthesizers, faults and the black box. -/

namespace Sys2Proof.Machine

/-- One of the two time counters (R52): the 78 bits it holds, SEC over NS, and the parity bit stored with them. `exempt`: the value
was loaded, so no predecessor check applies (R54). -/
structure Ctr where
  val : Nat := 0
  par : Bool := false
  exempt : Bool := true
  deriving DecidableEq, Repr

/-- Who asked for a time step, in the order of R274. -/
inductive StepSrc where
  | bw | nt
  | sw (q : Requester)
  deriving DecidableEq, Repr

def StepSrc.order : StepSrc → Nat
  | .bw => 0
  | .nt => 1
  | .sw q => 2 + q.order

/-- What a step request asks: a span, or an instant to set (R275). -/
inductive StepAsk where
  | by_ (span : Int)
  | to_ (t : Instant)
  deriving DecidableEq, Repr

/-- A step request and the tick at which it reached TB. -/
structure StepReq where
  src : StepSrc
  ask : StepAsk
  tick : Nat
  deriving DecidableEq, Repr

/-- A receiver's copy of device time (R58): whole ns and the STEP_SEQ it last saw. -/
structure BusRx where
  now : Nat
  seq : Nat
  deriving DecidableEq, Repr

/-- Where the timebase takes its tick (SYN_TSYN_STAT.SRC). -/
inductive TbSrc where
  | tsyn | bpll | acquiring
  deriving DecidableEq, Repr

def TbSrc.code : TbSrc → Nat
  | .tsyn => 0
  | .bpll => 1
  | .acquiring => 2

/-- Device time and the numerical oscillator. -/
structure TimeSt where
  run : Bool := false                   -- the timebase is ready and the counters run
  a : Ctr := {}
  b : Ctr := {}
  pa : Nat := 0                         -- counter values one tick earlier
  pb : Nat := 0
  suspA : Bool := false
  suspB : Bool := false
  reloadA : Bool := false               -- to be reloaded at the next tick
  reloadB : Bool := false
  faultOn : Bool := false               -- TIME_FAULT reported, no clean evaluation since
  ovf : Bool := false                   -- TIME_OVF reported
  now : Nat := 0                        -- the compared value driven out: device time in whole ns
  valid : Bool := false                 -- time-valid (R53)
  reqs : List StepReq := []
  stepTick : Option Nat := none         -- tick of the last step applied
  stepSeq : Nat := 0
  subNs : Int := 0                      -- φ of the steps that the oscillator has yet to absorb, S64 LSB (R273)
  xoPh : Nat := 0
  phase : Nat := 0                      -- Φ, 2^-56 of a cycle, modulo one cycle (R270)
  carry : Int := 0                      -- R44, 2^-24 of a binary LSB
  rotRes : Int := 0                     -- rounding residue of the rotator, 2^-56 cycle (R271)
  rotPos : Nat := 0                     -- place of the last steered edge, 2^-14 cycle (R271)
  y : Int := 0                          -- steering word in force
  yNext : Option Int := none            -- word that takes effect at the next XO_IN edge
  yShown : Int := 0                     -- TB_NCO_APPLIED
  xoAge : Nat := 0                      -- ticks since the last XO_IN edge
  rx : SMap Nat (Option BusRx) := {}    -- receivers whose copy is not the word on the bus: 0 FAB, 1 + p port p
  shadow : Nat := 0                     -- AON shadow of device time, 2^-56 of 10 ns
  shadowY : Int := 0                    -- steering word in force when the reset began
  shadowCarry : Int := 0
  rcDuring : Bool := false              -- AON ran on its backup oscillator during the reset
  deriving DecidableEq, Repr

/-- TSYN, BPLL and LOCKF (R276 to R280). -/
structure TsynSt where
  src : TbSrc := .acquiring
  locked : Bool := false
  bpllLocked : Bool := false
  perr : Int := 0                       -- 0.1 ps
  aerr : Int := 0
  hist : List Bool := []                -- the latest eight comparisons, true when beyond ±50 ps
  declared : Bool := false              -- unlock declared or guard tripped, swap due
  goodSince : Option Nat := none        -- tick since which every comparison lay within ±50 ps
  lockfLow : Nat := 0                   -- LOCKF is low until this tick
  everLocked : Bool := false
  deriving DecidableEq, Repr

/-- CSYN (R281 to R284). -/
structure CsynSt where
  from_ : Nat := 1350000000             -- frequency in Hz at `fromTick`
  fromTick : Nat := 0
  target : Nat := 1350000000
  band : Nat := 3
  ramp : Bool := false
  onTb : Bool := false
  relock : Bool := false                -- a relock is in progress
  nextBand : Nat := 3
  failed : Bool := false
  failTick : Nat := 0
  removed : List Nat := []              -- ticks of edges removed within the last microsecond
  ssMode : Nat := 0                     -- spread in force
  ssDepth : Nat := 0
  deriving DecidableEq, Repr

/-- A band cache entry of an output synthesizer: tuning range in Hz, first and last (R286). -/
structure BandEnt where
  lo : Nat
  hi : Nat
  deriving DecidableEq, Repr

/-- What an output synthesizer does. -/
inductive OsynState where
  | off | hopping | locked | bypass
  deriving DecidableEq, Repr

def OsynState.code : OsynState → Nat
  | .off => 0
  | .hopping => 1
  | .locked => 2
  | .bypass => 3

/-- One output synthesizer (R285 to R288). Phase p in units of 1 / (Q · 2^32) cycle, frequency numerator fx scaled by 2^32. -/
structure OsynSt where
  st : OsynState := .off
  fn : Nat := 0
  fd : Nat := 1
  anchor : Instant := 0
  phase0 : Nat := 0
  p : Nat := 0
  fx : Int := 0
  h : Int := 0
  running : Bool := false               -- the output follows the phase
  started : Bool := false               -- the definition's phase is being kept
  hit : Bool := false
  cache : List BandEnt := []            -- most recently used first, at most 16
  band : Option BandEnt := none         -- tuning range of the locked band
  rampAt : Option Instant := none       -- a ramp that waits for its start, and its number of segments
  rampN : Nat := 0
  ramping : Bool := false
  seg : Nat := 0
  left : Nat := 0
  segs : Nat := 0
  origin : Option (Nat × Nat × Int) := none  -- the latest ramp started: its first tick of device time, p and fx there
  gone : Nat := 0                       -- ticks since then
  bypass : Nat := 0                     -- BYPASS in force since the loss of lock
  deriving DecidableEq, Repr

/-- Which reset holds the device (R30, R32). -/
inductive RstLevel where
  | none | warm | pin | aux
  deriving DecidableEq, Repr

def RstLevel.rank : RstLevel → Nat
  | .none => 0
  | .warm => 1
  | .pin => 2
  | .aux => 3

/-- Resets, supplies and clocks outside the timebase. -/
structure GlbSt where
  level : RstLevel := .aux              -- the reset in force, or from which the timebase is not yet ready
  pinLow : Bool := true                 -- RESET_N is low
  por : Bool := true                    -- the internal main-rail POR is held
  porSince : Option Nat := none         -- AON cycle at which the last rail passed 90 %
  thermal : Bool := false               -- thermal shutdown holds pin reset
  boundary : Bool := false              -- a JTAG boundary instruction holds pin reset
  vaux : Bool := true                   -- VAUX is above its threshold
  rails : Nat := 1023                   -- main rails below 90 % of nominal, one bit each
  xo : Bool := false                    -- XO_IN is present
  xoLost : Bool := false                -- its loss has been reported
  aonRc : Bool := true                  -- AON runs on its backup oscillator
  aonCycle : Nat := 0                   -- AON cycles counted
  dramReady : Bool := false             -- DRAM training complete
  dramFault : Bool := false             -- an uncorrectable DRAM fault
  limited : Bool := false               -- limited mode
  barReady : Bool := false              -- BAR access available (R431)
  fwRun : Bool := false                 -- management firmware running
  deriving DecidableEq, Repr

/-- The last entry of a SOURCE and CODE in the black box, for repeat suppression (R422). -/
structure BbrLast where
  source : Nat
  code : Nat
  at_ : Nat                             -- AON time of the entry, ns
  repeats : Nat
  deriving DecidableEq, Repr

/-- A black-box record waiting for entry or entered (R419). -/
structure BbrRec where
  time : Instant
  source : Nat
  code : Nat
  arg0 : Nat
  arg1 : Nat
  seq : Nat
  flags : Nat
  deriving DecidableEq, Repr

/-- The black-box recorder (R419 to R425). -/
structure BbrSt where
  offers : List BbrOffer := []
  queue : List BbrRec := []
  ring : SMap Nat BbrRec := {}
  wptr : Nat := 0
  seq : Nat := 0
  spill : Nat := 0
  frozen : Bool := false
  triggered : Bool := false
  trigSeq : Nat := 0
  after : Nat := 0                      -- records entered after the trigger record
  gap : Bool := false
  last : List BbrLast := []
  enteredCycle : Option Nat := none     -- AON cycle of the last entry
  deriving DecidableEq, Repr

/-- The fault monitor and the sensors (R408 to R418). -/
structure FltSt where
  reports : List FaultRep := []
  pinLow : Bool := false                -- FAULT_N is driven low
  first : Option BbrRec := none
  firstCycle : Nat := 0                 -- AON cycle of the first fault
  releaseAt : Option Nat := none        -- AON cycle at which an early release takes effect
  kickCycle : Nat := 0                  -- AON cycle from which the watchdog interval counts
  lastDet : Option (Nat × BbrRec) := none -- AON cycle and record of the latest detected fault
  hotPrev : SMap Nat Bool := {}         -- last sample of a sensor was above its limit
  shut : SMap Nat Bool := {}            -- the sensor's thermal shutdown is detected
  shutPrev : SMap Nat Bool := {}        -- last sample of a sensor was at 125 °C or above
  shutDue : Bool := false               -- TEMP_SHUT is reported and the hold has yet to begin
  hot : SMap Nat Bool := {}             -- the condition is detected
  supPrev : SMap Nat Bool := {}
  sup : SMap Nat Bool := {}
  reacts : List (Option Nat) := []      -- reactions started, oldest first: one flock, or none for all 32
  deriving DecidableEq, Repr

end Sys2Proof.Machine
end

