-- ==== Sys2Proof/Machine/TypesCal.lean ====
section
/-! DEFINITION. The data types of the self-calibration engine (R240 to R269). -/

namespace Sys2Proof.Machine

/-- One half of CAL_EO_TAB: the table of an output (R269). Delays and widths are in fine units, steps in 2^-32 ns; `at96` keeps the
96 bits of the capture instant. -/
structure EoTab where
  d : Nat := 0
  k : Int := 0
  mask : Nat := 0
  trim : Nat := 0
  at96 : Nat := 0
  temp : Nat := 0
  res : Nat := 0
  p : List Nat := []
  g : List Nat := []
  w : List Nat := []
  deriving DecidableEq, Repr

/-- A blend in progress (R254): where it started, where it goes, transitions committed since, its M in 2^-32 ns, the slew in force when
it started in fs. -/
structure Blend where
  old : EoTab
  new : EoTab
  k : Nat
  m : Nat
  slew : Nat
  deriving DecidableEq, Repr

/-- What CAL keeps for one output. -/
structure CalEo where
  tab : Option EoTab := none            -- the table in force
  blend : Option Blend := none
  pend : Option EoTab := none           -- a discontinuous change that waits (R255)
  pendAt : Instant := 0
  pendApply : Bool := false             -- an APPLY command has come
  pendTrk : Option Int := none          -- the tracking term an imported table brings with it (R261)
  pendPin : Option Bool := none         -- whether the ball term of the waiting table comes from a pin run, where that changes
  k : Option Int := none                -- the ball term, none while the fused one holds
  pin : Bool := false                   -- the ball term comes from a pin run
  trk : Int := 0                        -- tracking term, fine units
  trkTarget : Int := 0
  sum : Int := 0                        -- errors of the block so far, S64 LSB
  cnt : Nat := 0
  hold : Bool := false
  code : Nat := 0
  deriving DecidableEq, Repr

/-- What CAL keeps for one unit. `w`: the 1,024 widths in force, none while the nominal centres hold. -/
structure CalTiu where
  w : Option (List Nat) := none
  vtrim : Nat := 0
  ofs25 : Option Int := none            -- taken from an image; none while the fused value holds
  tc : Option Int := none
  code : Nat := 0
  cdLog : Nat := 0
  chi2 : Nat := 0
  deriving DecidableEq, Repr

/-- What CAL keeps for one region. -/
structure CalReg where
  tcap : Nat := 0                       -- 16 bits, sQ8.8
  at96 : Nat := 0
  pending : Bool := false
  running : Bool := false
  byTemp : Bool := false                -- scheduled by temperature alone (R251)
  t0 : Nat := 0                         -- temperature at the start of the run
  rej : Nat := 0                        -- code of the first rejection of this run
  did : List (Bool × Nat) := []         -- the units and channels this run has finished with
  deriving DecidableEq, Repr

/-- A run of one unit (`eo` false) or channel that is scheduled or in progress; `sched` is the tick it was scheduled, `dither` asks for
the dither source whatever LIVE says. A code-density run has chosen the trims of the four cores (R244) and keeps the histogram it has
collected of 2^log hits (R242), of 1,024 bins once a hit has come. -/
structure CalRun where
  eo : Bool
  idx : Nat
  sched : Nat
  dither : Bool
  trim : Option Nat := none
  log : Nat := 0
  h : List Nat := []
  deriving DecidableEq, Repr

/-- A run to try again, no sooner than the tick given (R249, R252). -/
structure CalRetry where
  eo : Bool
  idx : Nat
  notBefore : Nat
  deriving DecidableEq, Repr

/-- CAL_CMD_RES of one requester (R268). -/
structure CalRes where
  seq : Nat := 0
  done : Bool := false
  code : Nat := 0
  deriving DecidableEq, Repr

/-- What a commanded run covers. -/
inductive CalWhat where
  | region (r : Nat)
  | unit (u : Nat)
  | chan (n : Nat)
  deriving DecidableEq, Repr

/-- A command waiting for its run. -/
structure CalWaiter where
  q : Requester
  seq : Nat
  what : CalWhat
  deriving DecidableEq, Repr

/-- The long operations (R264). -/
inductive CalOp where
  | full | pin (n : Nat) | exportImg | importImg | save
  deriving DecidableEq, Repr

/-- A long operation in progress and the command that asked for it, if one did: the tick it began, how far it has come (pulses, bytes,
or the steps of R262), the image it writes and where that goes. -/
structure CalLong where
  op : CalOp
  by_ : Option (Requester × Nat)
  rej : Nat := 0
  since : Nat := 0
  pos : Nat := 0
  img : List Nat := []
  base : Nat := 0
  deriving DecidableEq, Repr

/-- A run history record (R260). -/
structure CalHist where
  at96 : Nat
  temp : Nat
  kind : Nat
  idx : Nat
  code : Nat
  deriving DecidableEq, Repr

/-- The calibration engine. -/
structure Cal where
  eo : SMap Nat CalEo := {}
  tiu : SMap Nat CalTiu := {}
  reg : SMap Nat CalReg := {}
  runs : List CalRun := []
  retries : List CalRetry := []
  res : SMap Nat CalRes := {}
  waits : List CalWaiter := []
  long : Option CalLong := none
  hist : List CalHist := []             -- oldest first, at most 1,024
  seq : Nat := 0                        -- sequence number of the image last imported or saved
  slot : Nat := 0
  started : Bool := false               -- the start-up import has been made since the last reset
  fullImg : Bool := false               -- the values in force come from a full calibration
  deriving DecidableEq, Repr

end Sys2Proof.Machine
end

