-- ==== Sys2Proof/Machine/TypesBw.lean ====
section
/-! DEFINITION. The data types of Bellwether and of the network time engine (R296 to R353). -/

namespace Sys2Proof.Machine

/-! ### Bellwether -/

/-- A phase sample: reference less device time, path delay subtracted, S64 LSB, and the instant it was taken (R297). -/
structure PhSample where
  theta : Int
  at_ : Instant
  deriving DecidableEq, Repr

/-- What Bellwether keeps for one candidate (R300 to R302). -/
structure BwCand where
  last : Option PhSample := none        -- latest phase sample
  start : Option PhSample := none       -- latest at or before the start of the second
  lastTick : Nat := 0                   -- tick of the latest sample
  acc : Int := 0                        -- phase accumulated over the second so far, 10^-15 of 2^-14 ns
  accN : Nat := 0                       -- the ticks it took
  ph : Option (Int × Nat) := none       -- phase and tick of the latest 1 ms comparison of an L1 source
  fnow : Int := 0                       -- latest 1 ms comparison, Y48 LSB
  present : Bool := false               -- CKIN edges are seen
  freqs : List Int := []                -- last 10 frequency samples, newest first
  qsum : Int := 0                       -- samples since qualification began
  qn : Nat := 0
  deriving DecidableEq, Repr

/-- Bellwether (R303 to R318). Ψ is held in 2^-16 as, its rate in fs/s. -/
structure Bw where
  cand : SMap Nat BwCand := {}
  pulse : SMap Nat Nat := {}            -- last accepted PPSIN pulse of each pin, fine units counted by ticks
  psi : Int := 0
  vel : Int := 0
  goal : Int := 0                       -- H, S64 LSB
  acq : Bool := false                   -- an acquisition waits for its first sample
  fixed : Bool := false                 -- time was not set: Ψ is held (R309)
  realign : Bool := false               -- the pull in progress clears the held offset
  y : Int := 0                          -- loop output, Y48
  integ : Int := 0                      -- loop integrator, loopUnit to one Y48 LSB
  slip : Int := 0                       -- 1 ms frequency errors of a FREQ reference since it became active, summed
  freq : Bool := false                  -- the active reference became so as a FREQ candidate
  good : Nat := 0                       -- consecutive updates that meet the lock condition
  broken : Nat := 0                     -- consecutive updates in LOCKED that do not
  hist : List Int := []                 -- holdover history, newest first, at most 1,024
  ySum : Int := 0                       -- loop output over the second so far
  yN : Nat := 0
  lockedTick : Nat := 0                 -- tick LOCKED was entered
  errs : List Int := []                 -- e of the updates in LOCKED, newest first, at most 10,000
  hoTick : Nat := 0                     -- tick HOLDOVER was entered
  te0 : Int := 0
  dispute : Bool := false               -- a dispute has been entered in the black box
  fell : Option Nat := none             -- tick in which the active reference fell to DISQ, not yet evaluated
  evalTick : Option Nat := none
  secTick : Option Nat := none
  deriving DecidableEq, Repr

/-! ### Network time -/

/-- A time-protocol message as the wire carries it: key, source port identity, sequence number, two-step flag, correctionField
(2^-16 ns), its timestamp field, requesting port identity, whether its sender's timestamp was FINE. (DESIGN CHOICE, log entry 58.) -/
structure PtpMsg where
  domain : Nat
  sdo : Nat
  spid : Nat
  seq : Nat
  twoStep : Bool
  corr : Int
  ts : Instant
  reqPid : Nat
  fine : Bool
  deriving DecidableEq, Repr

/-- The edge a lane-domain timestamp is formed from (R59, R326): how many ticks ago it was sampled, the slot of the tick that caught it, its
phase within the tick as the word count and the lane sampling phase place it (T96 LSB), and the span db. (DESIGN CHOICE, log entry 7.) -/
structure EdgeObs where
  ago : Nat
  slot : Fin 32
  phase : Fin 262144
  db : Int
  deriving DecidableEq, Repr

/-- A timestamp a session has taken: its instant, the STEP_SEQ in force, FINE (R333, R339). -/
structure NtStamp where
  t : Instant
  stepSeq : Nat
  fine : Bool
  deriving DecidableEq, Repr

/-- A Sync that waits for its Follow_Up (R338), or the latest complete one. -/
structure NtSync where
  seq : Nat
  t1 : Instant
  t2 : NtStamp
  corr : Int
  fine1 : Bool
  until_ : Nat                          -- tick until which its Follow_Up is taken
  deriving DecidableEq, Repr

/-- A Delay_Req or Pdelay_Req that waits for its answer. -/
structure NtReq where
  seq : Nat
  sent : NtStamp
  deriving DecidableEq, Repr

/-- A two-step Pdelay_Resp that waits for its follow-up. -/
structure NtPresp where
  seq : Nat
  t2 : Instant
  t4 : NtStamp
  corr : Int
  fine2 : Bool
  deriving DecidableEq, Repr

/-- The last message a session sent: messageType, sequenceId, correctionField, timestamp. -/
structure NtTx where
  typ : Nat := 0
  seq : Nat := 0
  corr : Int := 0
  ts : Instant := 0
  deriving DecidableEq, Repr

/-- One session. -/
structure NtSes where
  lastSeq : Option Nat := none          -- sequenceId of the previous accepted Sync
  wait : Option NtSync := none
  sync : Option NtSync := none          -- latest complete Sync
  req : Option NtReq := none
  presp : Option NtPresp := none
  rs : List Int := []                   -- round trips, newest first
  resps : List (Instant × Instant) := [] -- t3 and t4 of responses, newest first
  delayAt : Option Nat := none          -- tick of the last delay measured
  delayFine : Bool := false
  syncAt : Nat := 0                     -- tick of the last accepted Sync
  next : Nat := 0                       -- tick of the next Delay_Req or Pdelay_Req; last grid index of Sync
  seq : Nat := 0                        -- next sequenceId of Sync or requests
  tx : NtTx := {}
  deriving DecidableEq, Repr

/-- What NT keeps for one port. -/
structure NtPort where
  esmcTick : Nat := 0                   -- tick of the last ESMC PDU
  sum : Int := 0                        -- readings of the mean in progress, 2^-14 ns
  cnt : Nat := 0
  mean : Option Int := none             -- last mean of the unwrapped phase, S64 LSB
  close : Nat := 0                      -- successive means within 1 ps of their predecessors
  ph : Option (Int × Nat) := none       -- last reading and its tick
  turn : Int := 0                       -- unwrapped phase, 2^-14 ns
  measured : Bool := false              -- lane sampling phase measured since the last lock
  tsf : List Nat := []                  -- timestamp FIFO (R330), oldest first
  deriving DecidableEq, Repr

/-- The network time engine. -/
structure Nt where
  ses : SMap Nat NtSes := {}
  port : SMap Nat NtPort := {}
  deriving DecidableEq, Repr

end Sys2Proof.Machine
end

