-- ==== Sys2Proof/Machine/TypesPt.lean ====
section
/-! DEFINITION. The data types of ports and link training (R354 to R378). -/

namespace Sys2Proof.Machine

/-- The head of an Elber link message (R362): version, MAXRATE, FEC wish, TRUNK_SPARE, serial hash, port number. -/
structure ElmHead where
  version : Nat
  maxRate : Nat
  fec : Bool
  spare : Bool
  hash : Nat
  port : Nat
  deriving DecidableEq, Repr

/-- The type-specific part of an Elber link message that a port sends (R363). Requests of EQ are codes for PRE, MAIN and POST. -/
inductive ElmBody where
  | hello (hash port : Nat)                             -- the partner last heard, 0 if none
  | ack (hash port rate : Nat) (fec trunk : Bool)
  | rate (rate fec form : Nat) (answers : Bool)
  | eq (lane : Nat) (ask : Nat × Nat × Nat) (done limit : Bool) (pre main post answered : Nat)
  | verify (lane : Nat) (done pass : Bool) (bits errs : Nat)
  | echo (reply : Bool) (idx : Nat) (t2 t3 : Instant)
  | drop (lane round : Nat)
  | dropAck (lane round : Nat)
  | add (lane round : Nat) (reply : Bool)
  deriving DecidableEq, Repr

/-- The Elber link messages a port sends (R362): the next sequence number, those it sent last with theirs, and the round its DROP marks. -/
structure ElmOut where
  seq : Nat := 0
  sent : List (Nat × ElmBody) := []
  round : Nat := 0
  deriving DecidableEq, Repr

/-- A lane leaving use (R373): the lane, the ticks of the first and the latest DROP. -/
structure PtDrop where
  lane : Nat
  first : Nat
  sent : Nat
  deriving DecidableEq, Repr

/-- A lane training alone to return (R375). -/
structure PtRejoin where
  lane : Nat
  stepAt : Nat
  eqMine : Bool := false
  eqTheirs : Bool := false
  verMine : Bool := false
  verTheirs : Bool := false
  deriving DecidableEq, Repr

/-- What a port keeps beside its registers. -/
structure Pt where
  stepAt : Nat := 0                     -- tick the step began
  attAt : Nat := 0                      -- tick BASE, or the standard mode, began
  helloSeen : Bool := false
  acked : Bool := false
  head : Option ElmHead := none         -- partner's capabilities
  rate : Nat := 2                       -- agreed lane rate, code of LN_STAT.RATE
  fec : Bool := false
  rateRx : Bool := false                -- the RATE exchange is made
  switched : Bool := false
  stepped : Bool := false               -- the rate has been stepped down (R365)
  badLane : Option Nat := none          -- the one lane left out after VERIFY
  eqMine : Nat := 0                     -- lanes DONE, one bit each
  eqTheirs : Nat := 0
  verMine : Nat := 0                    -- lanes reported, and those that passed
  verMineOk : Nat := 0
  verTheirs : Nat := 0
  verTheirsOk : Nat := 0
  echo : Option (Nat × NtStamp) := none -- exchange in progress: index and t1
  echoIdx : Nat := 0
  echoTick : Nat := 0
  rs : List Int := []                   -- the last 16 round trips, newest first
  helloTick : Nat := 0
  drop : Option PtDrop := none
  rejoin : Option PtRejoin := none
  retryAt : Nat := 0                    -- a rejoin may be tried from this tick
  pendDown : Bool := false              -- the switch core has yet to act on the port going down
  pendUp : Bool := false
  deriving DecidableEq, Repr

end Sys2Proof.Machine
end

