-- ==== Sys2Proof/Machine/TypesSw.lean ====
section
/-! DEFINITION. The data types of the switch core, Paddock and the egress scheduler (R379 to R407). -/

namespace Sys2Proof.Machine

/-- What a time-protocol frame is looked up by (R324), and its messageType. -/
structure PtpKey where
  domain : Nat
  sdo : Nat
  typ : Nat
  deriving DecidableEq, Repr

/-- What the parser reads from a frame: addresses, the outer tag's PCP and VID, the time-protocol key, whether it is an ELM. -/
structure FrameHead where
  dst : Nat
  src : Nat
  tag : Option (Nat × Nat) := none
  ptp : Option PtpKey := none
  elm : Bool := false
  deriving DecidableEq, Repr

/-- Where a frame in Paddock comes from. -/
inductive FrameKind where
  | fwd                                 -- forwarded from its ingress port
  | launch                              -- in a launch queue
  deriving DecidableEq, Repr

/-- One copy of a frame waiting at an egress port, or leaving it. -/
structure FrameCopy where
  port : Nat
  inst : Option Instant := none         -- launch time or fixed-latency instant
  late : Bool := false                  -- it has counted in TAS_CNT_LATE
  start : Option Nat := none            -- tick its transmission began
  stop : Nat := 0                       -- tick its transmission ends, IFG included
  deriving DecidableEq, Repr

/-- A frame in Paddock: its ingress pair, its class, its copies, the cells it holds. -/
structure PFrame where
  id : Nat
  kind : FrameKind
  inPort : Nat
  cls : Nat
  len : Nat
  guar : Nat
  shared : Nat
  head : Nat
  copies : List FrameCopy
  ts : NtStamp
  dms : Int := 0                        -- d_rx of its ingress port, added in a P2P_TC slot
  ptp : Option PtpKey := none
  complete : Bool := false
  cut : Bool := false
  data : List Byte := []
  tags : Option (Option (Nat × Nat) × Nat × Nat) := none  -- of a bridged frame: the outer tag it came with, and the PCP and VID it has
  deriving DecidableEq, Repr

/-- A frame still arriving at a port. -/
structure RxNow where
  head : FrameHead
  cls : Nat
  vid : Nat
  ts : NtStamp
  valid : Bool
  deg : Bool
  id : Option Nat
  cut : Bool
  sample : Bool
  dropped : Bool
  down : Bool
  deriving DecidableEq, Repr

/-- The frame a port sent last: what was written in flight (R329, R345, R400). -/
structure TxLast where
  id : Nat := 0
  cls : Nat := 0
  ts : Instant := 0
  corr : Int := 0
  data : List Byte := []                -- as it came, its outer tag included
  tag : Option (Nat × Nat) := none      -- PCP and VID of the outer tag it left with
  len : Nat := 0                        -- bytes it left with, FCS included
  deriving DecidableEq, Repr

/-- A gate list that waits to take effect (R393): entries, cycle and base in ns, the cycle start at which it does. -/
structure GclPend where
  list : List (Nat × Nat)
  cycle : Nat
  base : Nat
  at_ : Nat
  deriving DecidableEq, Repr

/-- A launch template (R398). -/
structure LqTpl where
  data : List Byte
  cls : Nat
  offset : Int
  cells : Nat
  deriving DecidableEq, Repr

/-- What the switch core, Paddock and TAS keep for one port. -/
structure SwPort where
  rx : Option RxNow := none
  expUntil : Nat := 0                   -- tick at which the express frame in transmission ends
  preUntil : Nat := 0                   -- tick at which the preemptable one ends
  preStart : Nat := 0
  preId : Nat := 0
  last : TxLast := {}
  holdUntil : Option Nat := none        -- the port is down and holds its frames until this tick
  upTick : Nat := 0
  rerouted : Bool := false
  gates : Nat := 255
  oper : List (Nat × Nat) := []
  cycle : Nat := 1000000
  base : Nat := 0
  pend : Option GclPend := none
  tpl : Option LqTpl := none
  sampCnt : Nat := 0
  sampSeq : Nat := 0
  rttUsed : Option Int := none          -- round trip last used for the headroom, S64
  fcMask : Nat := 0                     -- last flow-control frame sent: classes and quanta
  fcQuanta : Nat := 0
  deriving DecidableEq, Repr

/-- The meter of a stream: tokens in thousandths of a bit, and the tick they were last counted (R381). -/
structure Meter where
  c : Nat
  e : Nat
  tick : Nat
  deriving DecidableEq, Repr

/-- The switch core, Paddock and TAS. Pairs (port, class) are keyed port · 8 + class. -/
structure Sw where
  frames : List PFrame := []            -- oldest first
  nextId : Nat := 0
  port : SMap Nat SwPort := {}
  xoff : SMap Nat (Option Nat) := {}    -- lossless pairs that have sent XOFF, and the tick of the last one
  pause : SMap Nat Nat := {}            -- classes stopped by the partner, and until which tick
  meters : SMap Nat (Option Meter) := {}
  macTick : SMap Nat Nat := {}          -- tick of the last frame of a MAC entry
  samples : List (Nat × Nat) := []      -- the sampled-frame ring, oldest first: place in the region and length
  sampleAt : Nat := 0                   -- place of the next sample
  deriving DecidableEq, Repr

end Sys2Proof.Machine
end

