-- ==== Sys2Proof/Machine/TypesHost.lean ====
section
/-! DEFINITION. The data types of the host interface: mailbox, DMA rings, SMBus, JTAG, boot record and fuses (R430 to R456). -/

namespace Sys2Proof.Machine

/-- The mailbox command in progress (R442): operation, owner code, and the first arguments of the shared copy as they were accepted. (DESIGN CHOICE, log entry 74.) -/
structure MbCmd where
  op : Nat
  owner : Nat
  args : List Nat
  deriving DecidableEq, Repr

/-- The mailbox beside its registers. The shared copy is MB_ARG. A staging copy's word w of requester code q is keyed 64·q + w. -/
structure Mbox where
  stage : SMap Nat Nat := {}
  cmd : Option MbCmd := none
  upd : Option (Bool × Bool) := none    -- open update: LNF?, slot B?
  deriving DecidableEq, Repr

/-- One DMA ring beside its registers. -/
structure Ring where
  credits : Nat := 0                    -- descriptors that DMA_TRIG events have started and the ring has yet to process (R437)
  stopped : Bool := false               -- OWN was 0 at HEAD; waits for a write of TAIL (R434)
  talFrom : Option Nat := none          -- TALLY descriptor in progress: tick of its first record
  talGot : Nat := 0                     -- records it holds
  talLag : Nat := 0                     -- records of the Tally ring not yet read when Tally had written `talSeen` records
  talSeen : Nat := 0
  talGen : Option Nat := none           -- the Tally capture these count
  deriving DecidableEq, Repr

/-- What the boot record holds (R450): preferred slots (true is B), the override pair. -/
structure BootRec where
  prefM : Bool := false
  prefL : Bool := false
  forced : Option (Bool × Bool) := none
  deriving DecidableEq, Repr

/-- The boot that runs (R450, R452): slots of MCF and LNF, by override or not. -/
structure Boot where
  m : Bool
  l : Bool
  byOver : Bool
  deriving DecidableEq, Repr

/-- JTAG (R439 to R441): instruction, boundary register, and what Capture-DR of REGACC loads. -/
structure Jtag where
  ir : Nat := 0x01
  boundary : Nat := 0
  status : Nat := 0
  data : Nat := 0
  deriving DecidableEq, Repr

/-- The host interface. -/
structure HostIf where
  mbox : Mbox := {}
  ring : SMap Nat Ring := {}
  flrTick : Option Nat := none          -- tick of the latest function-level reset, in progress to the end of it (R31)
  smbAddr : Nat := 0
  jtag : Jtag := {}
  bootRec : BootRec := {}               -- the boot record as the boot ROM read it from flash and the commands have changed it
  selected : Bool := false              -- the boot ROM has chosen since the last reset
  boot : Option Boot := none
  svnRaised : Nat := 0                  -- SVN_MIN as SVN_COMMIT has raised it
  deriving DecidableEq, Repr

end Sys2Proof.Machine
end

