-- ==== Sys2Proof/Machine/TypesObs.lean ====
section
/-! DEFINITION. What commands carry of the world outside the registers: the observations of a tick, of a tap run, of the memory scrub. -/

namespace Sys2Proof.Machine

/-- What is observed in one tick: upsets of the counters and of their parity bits, the start of an AON cycle, the TSYN
comparison of a steered edge (none: it failed to arrive), the period guard, BPLL's alignment error, corrupted time bus words, hits of the
dither source (unit, fine code), how far CAL's long operation has come in it. (DESIGN CHOICE, log entry 7.) -/
structure TickObs where
  upA : Nat := 0
  upB : Nat := 0
  parA : Bool := false
  parB : Bool := false
  aon : Bool := false
  err : Option Int := some 0
  guard : Bool := false
  aerr : Int := 0
  bus : List (Nat × Nat) := []
  dither : List (Nat × Nat) := []
  work : Nat := 0
  deriving DecidableEq, Repr

/-- A memory the scrub visits (R411): a Drover's, a Paddock frame's cells, DRAM, or another by its block code, index and identifier. -/
inductive MemId where
  | drover (d : Fin 16)
  | paddock (frame : Nat)
  | dram
  | other (blk : Fin 32) (idx : Fin 2048) (id : Nat)
  deriving DecidableEq, Repr

/-- What a tap run measured, in fine units (R245): the 40 element widths, and again under a new selection; the 32 differences t1023 − t0 at
the trim in force and at each trim above it, as far as they were taken; the replica delay. (DESIGN CHOICE, log entry 7.) -/
structure TapMeas where
  widths : List Nat
  again : List Nat
  vern : List (List Nat)
  replica : Nat
  deriving DecidableEq, Repr

/-- What CAL holds (R251), an output or a unit, and the mean vernier step of each of its cores at each trim in 2^16 hits, in 2^-34 ns (R244).
(DESIGN CHOICE, log entry 7.) -/
structure HoldObs where
  idx : Fin 64
  steps : List (List Nat)
  deriving DecidableEq, Repr

/-- What every Elber link message begins with (R362), as far as its receiver uses it: version and sequence number. -/
structure ElmTop where
  version : Nat
  seq : BitVec 16
  deriving DecidableEq, Repr

/-- The edges of an ECHO message (R366): that of its receipt, and that of the reply to it. -/
structure EchoObs where
  rx : EdgeObs
  tx : EdgeObs
  deriving DecidableEq, Repr

/-- The body of an ADD message (R375): the lane, and whether it answers a request. -/
structure ElmAddMsg where
  lane : Fin 4
  reply : Bool
  deriving DecidableEq, Repr

end Sys2Proof.Machine
end

