-- ==== Sys2Proof/Syntax.lean ====
section
/-! DEFINITION. The commands of the block: one constructor per row of the opcode table, with the row's operands. -/

namespace Sys2Proof

/-- A command. -/
inductive Instr where
  /-- REGISTER_WRITE (R6). -/
  | registerWrite (q : Machine.Port) (a x : BitVec 32) (be : BitVec 4) (poison : Bool)
  /-- MULTIWORD_READ_LATCH (R48). -/
  | multiwordReadLatch (q : Machine.Port) (a : BitVec 32)
  /-- COUNTER_READ_CLEAR (R6). -/
  | counterReadClear (q : Machine.Port) (a : BitVec 32)
  /-- BAR2_READ (R29). -/
  | bar2Read (x : BitVec 30) (n : Fin 4097)
  /-- BAR2_WRITE (R29). -/
  | bar2Write (x : BitVec 30) (bytes : List Byte) (poison : Bool)
  /-- AUX_POWER_ON (R30). -/
  | auxPowerOn
  /-- PIN_RESET (R30). -/
  | pinReset
  /-- PIN_RESET_RELEASE (R453). -/
  | pinResetRelease (straps : BitVec 4)
  /-- MAIN_RAIL_POR (R470). -/
  | mainRailPor (low : BitVec 10)
  /-- MAIN_RAIL_LOSS (R472). -/
  | mainRailLoss
  /-- WARM_RESET (R30). -/
  | warmReset (q : Machine.Port) (key : BitVec 8)
  /-- BLOCK_RESET_MEM (R33). -/
  | blockResetMem (q : Machine.Port)
  /-- BLOCK_RESET_SWPAD (R33). -/
  | blockResetSwpad (q : Machine.Port)
  /-- BLOCK_RESET_TAS (R404). -/
  | blockResetTas (q : Machine.Port)
  /-- BLOCK_RESET_NT (R348). -/
  | blockResetNt (q : Machine.Port)
  /-- BLOCK_RESET_TAL (R135). -/
  | blockResetTal (q : Machine.Port)
  /-- BLOCK_RESET_CAL (R265). -/
  | blockResetCal (q : Machine.Port)
  /-- BLOCK_RESET_DRV (R207). -/
  | blockResetDrv (q : Machine.Port)
  /-- BLOCK_RESET_DW (R33). -/
  | blockResetDw (q : Machine.Port)
  /-- BLOCK_RESET_DONE (R33). -/
  | blockResetDone (b : Fin 8)
  /-- FUNCTION_LEVEL_RESET (R31). -/
  | functionLevelReset
  /-- TIMEBASE_READY (R30). -/
  | timebaseReady
  /-- TICK (R52). -/
  | tick (o : Machine.TickObs)
  /-- TB_STEP_COMMIT (R275). -/
  | tbStepCommit (q : Machine.Port) (v : BitVec 64)
  /-- TB_SET_COMMIT (R275). -/
  | tbSetCommit (q : Machine.Port) (v : BitVec 96)
  /-- TIME_STEP_APPLY (R55). -/
  | timeStepApply
  /-- TB_NCO_SW_WRITE (R272). -/
  | tbNcoSwWrite (q : Machine.Port) (v : BitVec 64)
  /-- XO_LOSS (R278). -/
  | xoLoss
  /-- XO_RETURN (R425). -/
  | xoReturn
  /-- TSYN_SWAP (R277). -/
  | tsynSwap
  /-- TSYN_RETURN (R279). -/
  | tsynReturn
  /-- FORCE_BPLL (R279). -/
  | forceBpll (q : Machine.Port) (data : BitVec 32)
  /-- CSYN_TARGET_WRITE (R281). -/
  | csynTargetWrite (q : Machine.Port) (data : BitVec 32)
  /-- CSYN_BAND_CHANGE (R282). -/
  | csynBandChange
  /-- CSYN_RELOCK_DONE (R282). -/
  | csynRelockDone
  /-- CSYN_BAND_FAIL (R282). -/
  | csynBandFail
  /-- CSYN_RETRY (R282). -/
  | csynRetry
  /-- CSYN_GUARD_MOVE (R283). -/
  | csynGuardMove (n : Nat) (long : Bool)
  /-- CSYN_RAMP_DONE (R281). -/
  | csynRampDone
  /-- OSYN_APPLY (R286). -/
  | osynApply (q : Machine.Port) (i : Fin 4)
  /-- OSYN_LOCK_DONE (R286). -/
  | osynLockDone (i : Fin 4) (lo hi : Nat)
  /-- OSYN_RAMP (R287). -/
  | osynRamp (q : Machine.Port) (i : Fin 4)
  /-- OSYN_RAMP_START (R287). -/
  | osynRampStart (i : Fin 4)
  /-- OSYN_SEGMENT_END (R287). -/
  | osynSegmentEnd (i : Fin 4)
  /-- OSYN_LOSS_OF_LOCK (R288). -/
  | osynLossOfLock (i : Fin 4)
  /-- OSYN_RELOCK (R288). -/
  | osynRelock (i : Fin 4)
  /-- OSYN_DISABLE (R294). -/
  | osynDisable (q : Machine.Port) (i : Fin 4) (data : BitVec 32)
  /-- EO_QE_COMMIT (R101). -/
  | eoQeCommit (q : Machine.Port) (n : Fin 64) (v : BitVec 320)
  /-- EO_TE_COMMIT (R83). -/
  | eoTeCommit (q : Machine.Port) (n : Fin 64) (v : BitVec 320)
  /-- ACTION_ACCEPT (R72). -/
  | actionAccept (n : Fin 64)
  /-- CANCEL_CUT (R80). -/
  | cancelCut (n : Fin 64)
  /-- ACTION_ACTIVATE (R66). -/
  | actionActivate (n : Fin 64)
  /-- TRANSITION_FILTER (R76). -/
  | transitionFilter (n : Fin 64)
  /-- TRANSITION_COMMIT (R65). -/
  | transitionCommit (n : Fin 64)
  /-- TRANSITION_LAUNCH (R78). -/
  | transitionLaunch (n : Fin 64)
  /-- EDGE_VERIFY (R89). -/
  | edgeVerify (n : Fin 64)
  /-- EO_ENABLE (R69). -/
  | eoEnable (q : Machine.Port) (n : Fin 64) (data : BitVec 32)
  /-- EO_DISABLE (R69). -/
  | eoDisable (q : Machine.Port) (n : Fin 64) (data : BitVec 32)
  /-- BANK_POWER_DOWN (R67). -/
  | bankPowerDown (q : Machine.Port) (b : Fin 8)
  /-- BANK_POWER_UP (R67). -/
  | bankPowerUp (q : Machine.Port) (b : Fin 8)
  /-- BANK_POWER_UP_DONE (R67). -/
  | bankPowerUpDone (b : Fin 8)
  /-- EO_ARM (R83). -/
  | eoArm (n : Fin 64)
  /-- EO_TRIG (R83). -/
  | eoTrig (n : Fin 64)
  /-- PROF_START (R86). -/
  | profStart (n : Fin 64)
  /-- PROFILE_SEGMENT_END (R86). -/
  | profileSegmentEnd (n : Fin 64)
  /-- EO_FAULT_REACTION (R92). -/
  | eoFaultReaction (n : Fin 64)
  /-- TIU_HIT_CAPTURE (R109). -/
  | tiuHitCapture (u : Fin 96) (code : Fin 1024) (rising : Bool)
  /-- TIU_RECORD_COMPLETE (R111). -/
  | tiuRecordComplete (u : Fin 96) (arb : Bool)
  /-- TIU_OVERFLOW (R120). -/
  | tiuOverflow (u : Fin 96)
  /-- TIU_TIMEOUT (R122). -/
  | tiuTimeout (u : Fin 96)
  /-- TIU_ARM (R115). -/
  | tiuArm (u : Fin 96) (w : Option (Machine.Port × BitVec 32))
  /-- TIU_DISARM (R116). -/
  | tiuDisarm (q : Machine.Port) (u : Fin 96) (data : BitVec 32)
  /-- TIU_START (R117). -/
  | tiuStart (u : Fin 96)
  /-- TIU_STOP (R117). -/
  | tiuStop (u : Fin 96)
  /-- TIU_CTL_WRITE (R116). -/
  | tiuCtlWrite (q : Machine.Port) (u : Fin 96) (data : BitVec 32)
  /-- TIU_FIFO_DRAIN (R127). -/
  | tiuFifoDrain (u : Fin 96)
  /-- TIU_RES_READ (R143). -/
  | tiuResRead (q : Machine.Port) (u : Fin 96)
  /-- TALLY_RECORD_IN (R130). -/
  | tallyRecordIn
  /-- TALLY_WRITE (R131). -/
  | tallyWrite
  /-- TAL_TRIG (R133). -/
  | talTrig
  /-- TAL_FIRE (R133). -/
  | talFire (q : Machine.Port) (data : BitVec 32)
  /-- TALLY_FREEZE (R133). -/
  | tallyFreeze
  /-- TALLY_ENABLE (R134). -/
  | tallyEnable (q : Machine.Port) (data : BitVec 32)
  /-- TALLY_DISABLE (R134). -/
  | tallyDisable (q : Machine.Port) (data : BitVec 32)
  /-- TALLY_DRAIN_DONE (R134). -/
  | tallyDrainDone
  /-- DW_CHANNEL_EVENT (R157). -/
  | dwChannelEvent (c : Fin 256)
  /-- EVIN_EDGE (R151). -/
  | evinEdge (i : Fin 16) (level : Bool)
  /-- DW_TMR_ENABLE (R152). -/
  | dwTmrEnable (q : Machine.Port) (i : Fin 8) (data : BitVec 32)
  /-- DW_TMR_INSTANT (R152). -/
  | dwTmrInstant (i : Fin 8)
  /-- SWF_FIRE (R153). -/
  | swfFire (q : Machine.Port) (data : BitVec 16)
  /-- EVOUT_EVENT (R155). -/
  | evoutEvent (i : Fin 16)
  /-- EVOUT_PULSE_END (R155). -/
  | evoutPulseEnd (i : Fin 16)
  /-- FLOCK_EN (R162). -/
  | flockEn (f : Fin 32)
  /-- FLOCK_DIS (R162). -/
  | flockDis (f : Fin 32)
  /-- FLOCK_STATE_WRITE (R162). -/
  | flockStateWrite (q : Machine.Port) (f : Fin 32) (data : BitVec 32)
  /-- DW_CHANNEL_ENABLE (R166). -/
  | dwChannelEnable (q : Machine.Port) (c : Fin 256) (data : BitVec 32)
  /-- DW_CHANNEL_DISABLE (R166). -/
  | dwChannelDisable (q : Machine.Port) (c : Fin 256) (data : BitVec 32)
  /-- DW_ENABLE_CHECK_DONE (R166). -/
  | dwEnableCheckDone (c : Fin 256)
  /-- DW_CH_OWN_WRITE (R164). -/
  | dwChOwnWrite (q : Machine.Port) (c : Fin 256) (data : BitVec 32)
  /-- DW_CON_SEL_WRITE (R156). -/
  | dwConSelWrite (q : Machine.Port) (x : Fin 1076) (data : BitVec 32)
  /-- DRV_IN_GROUP (R161). -/
  | drvInGroup (d : Fin 16) (k : Fin 8) (i : Fin 4)
  /-- TASK_WAKE_EVENT (R191). -/
  | taskWakeEvent (d : Fin 16) (k : Fin 8)
  /-- TASK_WAKE_TIME (R232). -/
  | taskWakeTime (d : Fin 16) (k : Fin 8)
  /-- TASK_WAKE_TIMEOUT (R233). -/
  | taskWakeTimeout (d : Fin 16) (k : Fin 8)
  /-- YIELD_END (R223). -/
  | yieldEnd (d : Fin 16) (k : Fin 8)
  /-- DRV_BUSY_END (R184). -/
  | drvBusyEnd (d : Fin 16) (k : Fin 8)
  /-- WAIT_QUEUE_REOFFER (R186). -/
  | waitQueueReoffer (d : Fin 16) (k : Fin 8)
  /-- LDX_RETURN (R197). -/
  | ldxReturn (d : Fin 16) (k : Fin 8) (bad : Bool)
  /-- LDX_TIMEOUT (R198). -/
  | ldxTimeout (d : Fin 16) (k : Fin 8)
  /-- MEAS_COMPLETE (R236). -/
  | measComplete (d : Fin 16) (k : Fin 8)
  /-- MEAS_TIMEOUT (R236). -/
  | measTimeout (d : Fin 16) (k : Fin 8)
  /-- LAUNCH_COMPLETE (R238). -/
  | launchComplete (d : Fin 16) (k : Fin 8)
  /-- TASK_START (R204). -/
  | taskStart (q : Machine.Port) (d : Fin 16) (k : Fin 8) (data : BitVec 32)
  /-- TASK_STOP (R205). -/
  | taskStop (q : Machine.Port) (d : Fin 16) (k : Fin 8) (data : BitVec 32)
  /-- DRV_PROG_COMMIT (R203). -/
  | drvProgCommit (q : Machine.Port) (d : Fin 16) (v : BitVec 96)
  /-- DRV_PROG_CHECK_DONE (R203). -/
  | drvProgCheckDone (d : Fin 16) (bad : Bool)
  /-- DRV_RESET (R207). -/
  | drvReset (q : Machine.Port) (d : Fin 16) (data : BitVec 32)
  /-- DRV_MEM_READ (R213). -/
  | drvMemRead (q : Machine.Port) (d : Fin 16)
  /-- DRV_MEM_WRITE (R213). -/
  | drvMemWrite (q : Machine.Port) (d : Fin 16) (v : BitVec 64)
  /-- NOP (R223). -/
  | nop (d : Fin 16) (k : Fin 8) (e : Machine.IssueEnv)
  /-- HALT (R223). -/
  | halt (d : Fin 16) (k : Fin 8) (e : Machine.IssueEnv)
  /-- YIELD (R223). -/
  | yield (d : Fin 16) (k : Fin 8) (e : Machine.IssueEnv) (n : Fin 1024)
  /-- TRAP (R223). -/
  | trap (d : Fin 16) (k : Fin 8) (e : Machine.IssueEnv) (imm : BitVec 16)
  /-- B (R223). -/
  | b (d : Fin 16) (k : Fin 8) (e : Machine.IssueEnv) (target : BitVec 14)
  /-- BC (R224). -/
  | bc (d : Fin 16) (k : Fin 8) (e : Machine.IssueEnv) (cond : Fin 15) (target : BitVec 14)
  /-- CALL (R182). -/
  | call (d : Fin 16) (k : Fin 8) (e : Machine.IssueEnv) (target : BitVec 14)
  /-- RET (R182). -/
  | ret (d : Fin 16) (k : Fin 8) (e : Machine.IssueEnv)
  /-- LOOP (R225). -/
  | loop (d : Fin 16) (k : Fin 8) (e : Machine.IssueEnv) (c : Machine.LpSrc) (stop : BitVec 14)
  /-- ENDL (R225). -/
  | endl (d : Fin 16) (k : Fin 8) (e : Machine.IssueEnv)
  /-- ENDL_POP (R225). -/
  | endlPop (d : Fin 16) (k : Fin 8) (e : Machine.IssueEnv)
  /-- ADD (R226). -/
  | add (d : Fin 16) (k : Fin 8) (e : Machine.IssueEnv) (ad aa : Fin 16) (b : Machine.BSrc)
  /-- SUB (R226). -/
  | sub (d : Fin 16) (k : Fin 8) (e : Machine.IssueEnv) (ad aa : Fin 16) (b : Machine.BSrc)
  /-- ADDS (R226). -/
  | adds (d : Fin 16) (k : Fin 8) (e : Machine.IssueEnv) (ad aa : Fin 16) (b : Machine.BSrc)
  /-- SUBS (R226). -/
  | subs (d : Fin 16) (k : Fin 8) (e : Machine.IssueEnv) (ad aa : Fin 16) (b : Machine.BSrc)
  /-- MULQ (R227). -/
  | mulq (d : Fin 16) (k : Fin 8) (e : Machine.IssueEnv) (ad aa ab : Fin 16) (rm : Machine.Rounding) (u : Bool) (sh : Fin 64)
  /-- DIVQ (R227). -/
  | divq (d : Fin 16) (k : Fin 8) (e : Machine.IssueEnv) (ad aa ab : Fin 16) (rm : Machine.Rounding) (u : Bool) (sh : Fin 64)
  /-- SHL (R226). -/
  | shl (d : Fin 16) (k : Fin 8) (e : Machine.IssueEnv) (ad aa : Fin 16) (n : Machine.ShSrc)
  /-- SHR (R227). -/
  | shr (d : Fin 16) (k : Fin 8) (e : Machine.IssueEnv) (ad aa : Fin 16) (n : Machine.ShSrc) (rm : Machine.Rounding) (lg : Bool)
  /-- AND (R226). -/
  | and (d : Fin 16) (k : Fin 8) (e : Machine.IssueEnv) (ad aa : Fin 16) (b : Machine.BSrc)
  /-- OR (R226). -/
  | or (d : Fin 16) (k : Fin 8) (e : Machine.IssueEnv) (ad aa : Fin 16) (b : Machine.BSrc)
  /-- XOR (R226). -/
  | xor (d : Fin 16) (k : Fin 8) (e : Machine.IssueEnv) (ad aa : Fin 16) (b : Machine.BSrc)
  /-- CMP (R226). -/
  | cmp (d : Fin 16) (k : Fin 8) (e : Machine.IssueEnv) (aa : Fin 16) (b : Machine.BSrc)
  /-- LDI (R226). -/
  | ldi (d : Fin 16) (k : Fin 8) (e : Machine.IssueEnv) (ad : Fin 16) (imm : BitVec 22)
  /-- LDHI (R226). -/
  | ldhi (d : Fin 16) (k : Fin 8) (e : Machine.IssueEnv) (ad : Fin 16) (h : Fin 4) (imm : BitVec 16)
  /-- MOV (R226). -/
  | mov (d : Fin 16) (k : Fin 8) (e : Machine.IssueEnv) (ad aa : Fin 16)
  /-- NEG (R226). -/
  | neg (d : Fin 16) (k : Fin 8) (e : Machine.IssueEnv) (ad aa : Fin 16)
  /-- TADD (R228). -/
  | tadd (d : Fin 16) (k : Fin 8) (e : Machine.IssueEnv) (td ta : Fin 8) (ab : Fin 16)
  /-- TADD_SUB (R228). -/
  | taddSub (d : Fin 16) (k : Fin 8) (e : Machine.IssueEnv) (td ta : Fin 8) (ab : Fin 16)
  /-- TSUB (R228). -/
  | tsub (d : Fin 16) (k : Fin 8) (e : Machine.IssueEnv) (ad : Fin 16) (ta tb : Fin 8)
  /-- TCMP (R228). -/
  | tcmp (d : Fin 16) (k : Fin 8) (e : Machine.IssueEnv) (ta tb : Fin 8)
  /-- TNOW (R228). -/
  | tnow (d : Fin 16) (k : Fin 8) (e : Machine.IssueEnv) (td : Fin 8)
  /-- TMOV (R229). -/
  | tmov (d : Fin 16) (k : Fin 8) (e : Machine.IssueEnv) (td ta : Fin 8)
  /-- TMOV_SEC (R229). -/
  | tmovSec (d : Fin 16) (k : Fin 8) (e : Machine.IssueEnv) (ad : Fin 16) (ta : Fin 8)
  /-- TMOV_NSF (R229). -/
  | tmovNsf (d : Fin 16) (k : Fin 8) (e : Machine.IssueEnv) (ad : Fin 16) (ta : Fin 8)
  /-- TMOV_PACK (R229). -/
  | tmovPack (d : Fin 16) (k : Fin 8) (e : Machine.IssueEnv) (td : Fin 8) (aa ab : Fin 16)
  /-- TMOV_ZERO (R229). -/
  | tmovZero (d : Fin 16) (k : Fin 8) (e : Machine.IssueEnv) (td : Fin 8)
  /-- TLD (R228). -/
  | tld (d : Fin 16) (k : Fin 8) (e : Machine.IssueEnv) (td : Fin 8) (aa : Fin 16) (off : BitVec 14)
  /-- TST (R228). -/
  | tst (d : Fin 16) (k : Fin 8) (e : Machine.IssueEnv) (td : Fin 8) (aa : Fin 16) (off : BitVec 14)
  /-- LD (R230). -/
  | ld (d : Fin 16) (k : Fin 8) (e : Machine.IssueEnv) (ad aa : Fin 16) (off : BitVec 18)
  /-- ST (R230). -/
  | st (d : Fin 16) (k : Fin 8) (e : Machine.IssueEnv) (ad aa : Fin 16) (off : BitVec 18)
  /-- LDX (R230). -/
  | ldx (d : Fin 16) (k : Fin 8) (e : Machine.IssueEnv) (ad aa : Fin 16) (off : BitVec 18)
  /-- STX (R230). -/
  | stx (d : Fin 16) (k : Fin 8) (e : Machine.IssueEnv) (ad aa : Fin 16) (off : BitVec 18)
  /-- EDGE (R231). -/
  | edge (d : Fin 16) (k : Fin 8) (e : Machine.IssueEnv) (ch : Machine.ChSrc) (ts : Fin 8) (level : Bool)
  /-- PULSE (R231). -/
  | pulse (d : Fin 16) (k : Fin 8) (e : Machine.IssueEnv) (ch : Machine.ChSrc) (ts : Fin 8) (aw : Fin 16)
  /-- TRAIN (R231). -/
  | train (d : Fin 16) (k : Fin 8) (e : Machine.IssueEnv) (ch : Machine.ChSrc) (ts : Fin 8) (aw : Fin 16) (ap : Fin 8) (ac : Fin 16) (unlim chain : Bool)
  /-- PROF (R231). -/
  | prof (d : Fin 16) (k : Fin 8) (e : Machine.IssueEnv) (ch : Machine.ChSrc) (ts : Fin 8) (ac : Fin 16) (cont bank : Bool)
  /-- CANCEL (R231). -/
  | cancel (d : Fin 16) (k : Fin 8) (e : Machine.IssueEnv) (ch : Machine.ChSrc) (ts : Fin 8)
  /-- WAITT (R232). -/
  | waitt (d : Fin 16) (k : Fin 8) (e : Machine.IssueEnv) (ta : Fin 8)
  /-- WAITE (R233). -/
  | waite (d : Fin 16) (k : Fin 8) (e : Machine.IssueEnv) (mask : BitVec 4) (x : Bool) (ao : Fin 16)
  /-- SIGNAL (R234). -/
  | signal (d : Fin 16) (k : Fin 8) (e : Machine.IssueEnv) (sg : Fin 8) (ts : Bool) (tt : Fin 8)
  /-- ARM_TIU (R235). -/
  | armTiu (d : Fin 16) (k : Fin 8) (e : Machine.IssueEnv) (u : Fin 96) (ts : Bool) (tt : Fin 8)
  /-- DISARM_TIU (R235). -/
  | disarmTiu (d : Fin 16) (k : Fin 8) (e : Machine.IssueEnv) (u : Fin 96) (ts : Bool) (tt : Fin 8)
  /-- ARM_EO_SLOT (R235). -/
  | armEoSlot (d : Fin 16) (k : Fin 8) (e : Machine.IssueEnv) (n : Fin 64) (ts : Bool) (tt : Fin 8)
  /-- DISARM_EO_SLOT (R235). -/
  | disarmEoSlot (d : Fin 16) (k : Fin 8) (e : Machine.IssueEnv) (n : Fin 64) (ts : Bool) (tt : Fin 8)
  /-- MEAS (R236). -/
  | meas (d : Fin 16) (k : Fin 8) (e : Machine.IssueEnv) (td : Fin 8) (ad : Fin 16) (u : Fin 96) (x na : Bool) (ao : Fin 16)
  /-- LAUNCH (R238). -/
  | launch (d : Fin 16) (k : Fin 8) (e : Machine.IssueEnv) (p : Fin 52) (tt : Fin 8) (aa : Fin 16)
  /-- CSR_READ_CW (R193). -/
  | csrReadCw (d : Fin 16) (k : Fin 8) (e : Machine.IssueEnv) (r : Machine.CsrReg) (n : BitVec 12)
  /-- CSR_WRITE_CW (R193). -/
  | csrWriteCw (d : Fin 16) (k : Fin 8) (e : Machine.IssueEnv) (r : Machine.CsrReg) (n : BitVec 12)
  /-- CSR_READ_BAR0 (R194). -/
  | csrReadBar0 (d : Fin 16) (k : Fin 8) (e : Machine.IssueEnv) (ad aa : Fin 16)
  /-- CSR_WRITE_BAR0 (R194). -/
  | csrWriteBar0 (d : Fin 16) (k : Fin 8) (e : Machine.IssueEnv) (ar aa : Fin 16)
  /-- CAL_TEMP_EVAL (R250). -/
  | calTempEval
  /-- CAL_HOLD (R251). -/
  | calHold (eo : Bool) (o : Machine.HoldObs)
  /-- CD_RUN_DONE (R242). -/
  | cdRunDone (u : Fin 96) (h : List Nat) (vtrim : Nat)
  /-- TAP_RUN_DONE (R245). -/
  | tapRunDone (n : Fin 64) (m : Machine.TapMeas)
  /-- PIN_RUN_DONE (R246). -/
  | pinRunDone (n : Fin 64) (mon replica : Nat) (load : Bool)
  /-- REGION_RUN_DONE (R247). -/
  | regionRunDone (r : Fin 12)
  /-- CAL_RUN_STARVED (R252). -/
  | calRunStarved (eo : Bool) (i : Fin 96)
  /-- RUN_REGION (R268). -/
  | runRegion (q : Machine.Port) (arg : BitVec 8)
  /-- RUN_TIU (R268). -/
  | runTiu (q : Machine.Port) (arg : BitVec 8)
  /-- RUN_EO (R268). -/
  | runEo (q : Machine.Port) (arg : BitVec 8)
  /-- CAL_PIN (R246). -/
  | calPin (q : Machine.Port) (arg : BitVec 8)
  /-- CAL_FULL (R253). -/
  | calFull (q : Machine.Port) (arg : BitVec 8)
  /-- CAL_APPLY (R255). -/
  | calApply (q : Machine.Port) (arg : BitVec 8)
  /-- LOAD_TIU (R268). -/
  | loadTiu (q : Machine.Port) (arg : BitVec 8)
  /-- LOAD_EO (R268). -/
  | loadEo (q : Machine.Port) (arg : BitVec 8)
  /-- EXPORT (R261). -/
  | calExport (q : Machine.Port) (arg : BitVec 8)
  /-- IMPORT (R261). -/
  | calImport (q : Machine.Port) (arg : BitVec 8)
  /-- SAVE (R262). -/
  | calSave (q : Machine.Port) (arg : BitVec 8)
  /-- CAL_ABORT (R268). -/
  | calAbort (q : Machine.Port) (arg : BitVec 8)
  /-- EXPORT_DONE (R261). -/
  | exportDone
  /-- IMPORT_DONE (R261). -/
  | importDone
  /-- SAVE_DONE (R262). -/
  | saveDone (bad : List (Nat × Nat))
  /-- CAL_STARTUP_IMPORT (R263). -/
  | calStartupImport
  /-- PPSIN_PULSE (R298). -/
  | ppsinPulse (i : Fin 2) (slot : Fin 32)
  /-- BW_REF_SW_COMMIT (R299). -/
  | bwRefSwCommit (q : Machine.Port) (r : Fin 8) (theta : BitVec 64)
  /-- BW_SECOND (R300). -/
  | bwSecond
  /-- REF_DISQUALIFY (R302). -/
  | refDisqualify (r : Fin 8)
  /-- BW_EVALUATE (R303). -/
  | bwEvaluate (ck : List (Option Int))
  /-- BW_UNLOCK_WRITE (R311). -/
  | bwUnlockWrite (q : Machine.Port) (data : BitVec 32)
  /-- REALIGN (R310). -/
  | bwRealign (q : Machine.Port)
  /-- HOLDOVER_LOST (R315). -/
  | holdoverLost
  /-- BW_CTL_WRITE (R317). -/
  | bwCtlWrite (q : Machine.Port) (data : BitVec 32)
  /-- BW_REF_CFG_WRITE (R302). -/
  | bwRefCfgWrite (q : Machine.Port) (r : Fin 8) (data : BitVec 32)
  /-- SYNC_RX (R338). -/
  | syncRx (p : Fin 52) (m : Machine.PtpMsg) (o : Machine.EdgeObs)
  /-- FOLLOW_UP_RX (R338). -/
  | followUpRx (p : Fin 52) (m : Machine.PtpMsg)
  /-- DELAY_REQ_RX (R336). -/
  | delayReqRx (p : Fin 52) (m : Machine.PtpMsg) (o : Machine.EdgeObs)
  /-- DELAY_RESP_RX (R340). -/
  | delayRespRx (p : Fin 52) (m : Machine.PtpMsg)
  /-- PDELAY_REQ_RX (R337). -/
  | pdelayReqRx (p : Fin 52) (m : Machine.PtpMsg) (o tx : Machine.EdgeObs)
  /-- PDELAY_RESP_RX (R341). -/
  | pdelayRespRx (p : Fin 52) (m : Machine.PtpMsg) (o : Machine.EdgeObs)
  /-- PDELAY_RESP_FOLLOW_UP_RX (R344). -/
  | pdelayRespFollowUpRx (p : Fin 52) (m : Machine.PtpMsg)
  /-- SYNC_TX (R337). -/
  | syncTx (i : Fin 256) (o : Machine.EdgeObs)
  /-- DELAY_REQ_TX (R337). -/
  | delayReqTx (i : Fin 256) (o : Machine.EdgeObs)
  /-- PDELAY_REQ_TX (R337). -/
  | pdelayReqTx (i : Fin 256) (o : Machine.EdgeObs)
  /-- SES_SYNC_TIMEOUT (R338). -/
  | sesSyncTimeout (i : Fin 256)
  /-- NT_SES_ENABLE (R351). -/
  | ntSesEnable (q : Machine.Port) (i : Fin 256) (data : BitVec 32)
  /-- ESMC_RX (R335). -/
  | esmcRx (p : Fin 52) (code : Fin 16)
  /-- ESMC_LOSS (R334). -/
  | esmcLoss (p : Fin 52)
  /-- PD_READING (R331). -/
  | pdReading (p : Fin 52) (ph : Int)
  /-- LANE_PHASE_MEASURED (R332). -/
  | lanePhaseMeasured (p : Fin 52)
  /-- PT_TSF_READ (R330). -/
  | ptTsfRead (q : Machine.Port) (p : Fin 52)
  /-- PT_ENABLE (R355). -/
  | ptEnable (q : Machine.Port) (p : Fin 52) (data : BitVec 32)
  /-- PT_DISABLE (R376). -/
  | ptDisable (q : Machine.Port) (p : Fin 52) (data : BitVec 32)
  /-- PT_CFG_WRITE (R378). -/
  | ptCfgWrite (q : Machine.Port) (train : Bool) (p : Fin 52) (data : BitVec 32)
  /-- LANE_LOCK (R356). -/
  | laneLock (j : Fin 65) (tx rx : Int)
  /-- LANE_LOSS_OF_LOCK (R356). -/
  | laneLossOfLock (j : Fin 65) (los : Bool) (cut : Nat)
  /-- SYNT_CHANGE (R361). -/
  | syntChange (q : Machine.Port) (k : Fin 16) (data : BitVec 32)
  /-- QPLL_RELOCK_DONE (R355). -/
  | qpllRelockDone (k : Fin 16)
  /-- ELM_HELLO (R364). -/
  | elmHello (p : Fin 52) (h : Machine.ElmHead)
  /-- ELM_ACK (R364). -/
  | elmAck (p : Fin 52) (version hash port : Nat)
  /-- ELM_RATE (R364). -/
  | elmRate (p : Fin 52) (version rate : Nat)
  /-- ELM_EQ (R363). -/
  | elmEq (p : Fin 52) (top : Machine.ElmTop) (lane : Fin 4) (pre main post : Fin 4) (theirs mine : Bool)
  /-- ELM_VERIFY (R364). -/
  | elmVerify (p : Fin 52) (version : Nat) (lane : Fin 4) (done pass : Bool)
  /-- ELM_ECHO (R366). -/
  | elmEcho (p : Fin 52) (version : Nat) (reply : Bool) (k : Fin 16) (t2 t3 : Machine.Instant) (o : Machine.EchoObs)
  /-- ELM_DROP (R373). -/
  | elmDrop (p : Fin 52) (version : Nat) (lane : Fin 4)
  /-- ELM_DROP_ACK (R373). -/
  | elmDropAck (p : Fin 52) (version : Nat) (lane : Fin 4)
  /-- ELM_ADD (R375). -/
  | elmAdd (p : Fin 52) (version : Nat) (m : Machine.ElmAddMsg)
  /-- HELLO_TX (R364). -/
  | helloTx (p : Fin 52)
  /-- RATE_SWITCH (R364). -/
  | rateSwitch (p : Fin 52)
  /-- VERIFY_END (R364). -/
  | verifyEnd (p : Fin 52) (errs : List Nat)
  /-- ECHO_TX (R366). -/
  | echoTx (p : Fin 52) (o : Machine.EdgeObs)
  /-- TRAIN_STEP_TIMEOUT (R367). -/
  | trainStepTimeout (p : Fin 52)
  /-- TRAIN_TOTAL_TIMEOUT (R367). -/
  | trainTotalTimeout (p : Fin 52)
  /-- STANDARD_LINK_UP (R368). -/
  | standardLinkUp (p : Fin 52) (pause : Fin 4)
  /-- LISTEN_BACKOFF_EXPIRE (R369). -/
  | listenBackoffExpire (p : Fin 52)
  /-- DROP_RESEND (R373). -/
  | dropResend (p : Fin 52)
  /-- DROP_ACK_TIMEOUT (R374). -/
  | dropAckTimeout (p : Fin 52)
  /-- LANE_REJOIN (R375). -/
  | laneRejoin (p : Fin 52) (lane : Fin 4)
  /-- LANE_REJOIN_RETRY (R375). -/
  | laneRejoinRetry (p : Fin 52) (lane : Fin 4)
  /-- LANE_RESET (R376). -/
  | laneReset (q : Machine.Port) (j : Fin 65) (data : BitVec 32)
  /-- FRAME_RX (R379). -/
  | frameRx (p : Fin 52) (h : Machine.FrameHead) (len : Nat) (o : Machine.EdgeObs)
  /-- FRAME_RX_END (R382). -/
  | frameRxEnd (p : Fin 52) (data : List Byte) (fcsOk err : Bool)
  /-- FRAME_TX_START (R394). -/
  | frameTxStart (p : Fin 52) (o : Machine.EdgeObs)
  /-- PFC_RX (R386). -/
  | pfcRx (p : Fin 52) (pauseFrame : Bool) (mask : BitVec 8) (quanta : List Nat)
  /-- PAUSE_EXPIRE (R386). -/
  | pauseExpire (p : Fin 52) (c : Fin 8)
  /-- XOFF_REPEAT (R387). -/
  | xoffRepeat (p : Fin 52) (c : Fin 8)
  /-- MAC_AGE_EXPIRE (R379). -/
  | macAgeExpire (i : Fin 131072)
  /-- PORT_DOWN (R390). -/
  | portDown (p : Fin 52)
  /-- PAD_HOLD_EXPIRE (R390). -/
  | padHoldExpire (p : Fin 52)
  /-- PORT_UP (R390). -/
  | portUp (p : Fin 52)
  /-- FRR_REVERT (R391). -/
  | frrRevert (p : Fin 52)
  /-- GCL_ENTRY (R392). -/
  | gclEntry (p : Fin 52)
  /-- GCL_CHANGE (R393). -/
  | gclChange (q : Machine.Port) (p : Fin 52) (data : BitVec 32)
  /-- GCL_CHANGE_EFFECT (R393). -/
  | gclChangeEffect (p : Fin 52)
  /-- PREEMPT_VERIFY_DONE (R395). -/
  | preemptVerifyDone (p : Fin 52)
  /-- LAUNCH_RELEASE (R397). -/
  | launchRelease (p : Fin 52) (o : Machine.EdgeObs)
  /-- FIXED_LATENCY_RELEASE (R399). -/
  | fixedLatencyRelease (p : Fin 52) (o : Machine.EdgeObs)
  /-- LQ_TPL_COMMIT (R398). -/
  | lqTplCommit (q : Machine.Port) (p : Fin 52) (v : BitVec 128)
  /-- LQ_TRIG (R398). -/
  | lqTrig (p : Fin 52)
  /-- FAULT_DETECTED (R415). -/
  | faultDetected (ext : Option Machine.FaultRep)
  /-- FAULT_MASKED (R415). -/
  | faultMasked (ext : Option Machine.FaultRep)
  /-- WDOG_KICK (R412). -/
  | wdogKick (q : Machine.Port) (key : BitVec 8)
  /-- WDOG_EXPIRE (R412). -/
  | wdogExpire
  /-- CFG_SCAN_GROUP (R413). -/
  | cfgScanGroup (group blk : Nat) (bad : Bool)
  /-- MON_TEMP_SAMPLE (R414). -/
  | monTempSample (t : List (BitVec 16))
  /-- MON_SUPPLY_SAMPLE (R414). -/
  | monSupplySample (mv : List (BitVec 12))
  /-- FAULT_RELEASE (R417). -/
  | faultRelease (q : Machine.Port)
  /-- FAULT_PIN_RELEASE (R417). -/
  | faultPinRelease
  /-- BBR_RECORD_OFFER (R422). -/
  | bbrRecordOffer
  /-- BBR_RECORD_ENTER (R422). -/
  | bbrRecordEnter
  /-- BBR_FIRE (R424). -/
  | bbrFire (q : Machine.Port) (data : BitVec 32)
  /-- BBR_TRIG (R424). -/
  | bbrTrig
  /-- BBR_REARM (R424). -/
  | bbrRearm (q : Machine.Port) (data : BitVec 32)
  /-- MEM_SCRUB (R411). -/
  | memScrub (m : Machine.MemId) (addr : Nat) (err : Fin 3)
  /-- DMA_RING_ENABLE (R456). -/
  | dmaRingEnable (q : Machine.Port) (i : Fin 16) (data : BitVec 32)
  /-- DMA_RING_DISABLE (R456). -/
  | dmaRingDisable (q : Machine.Port) (i : Fin 16) (data : BitVec 32)
  /-- DMA_TAIL_WRITE (R434). -/
  | dmaTailWrite (q : Machine.Port) (i : Fin 16) (data : BitVec 32)
  /-- DMA_H2D (R434). -/
  | dmaH2d (i : Fin 16) (err : Option Nat)
  /-- DMA_D2H (R434). -/
  | dmaD2h (i : Fin 16) (err : Option Nat)
  /-- DMA_SAMPLE (R436). -/
  | dmaSample (i : Fin 16)
  /-- DMA_TALLY (R436). -/
  | dmaTally (i : Fin 16)
  /-- DMA_TALLY_TIMEOUT (R436). -/
  | dmaTallyTimeout (i : Fin 16)
  /-- DMA_LAUNCH (R435). -/
  | dmaLaunch (i : Fin 16) (err : Bool)
  /-- DMA_TRIG (R437). -/
  | dmaTrig (i : Fin 4)
  /-- SMB_REG_WRITE (R438). -/
  | smbRegWrite (dev : BitVec 7) (a x : BitVec 32) (pecOk : Bool)
  /-- SMB_SET_ADDRESS (R438). -/
  | smbSetAddress (dev : BitVec 7) (a : BitVec 32) (pecOk : Bool)
  /-- SMB_REG_READ (R438). -/
  | smbRegRead (dev : BitVec 7)
  /-- BYPASS (R439). -/
  | jtagBypass (op : BitVec 8)
  /-- IDCODE (R439). -/
  | jtagIdcode
  /-- SAMPLE_PRELOAD (R439). -/
  | jtagSamplePreload (v : Nat)
  /-- EXTEST (R440). -/
  | jtagExtest
  /-- EXTEST_PULSE (R440). -/
  | jtagExtestPulse
  /-- EXTEST_TRAIN (R440). -/
  | jtagExtestTrain
  /-- CLAMP (R440). -/
  | jtagClamp
  /-- HIGHZ (R440). -/
  | jtagHighz
  /-- REGACC (R441). -/
  | jtagRegacc
  /-- REGACC_READ (R441). -/
  | regaccRead (a : BitVec 32)
  /-- REGACC_WRITE (R441). -/
  | regaccWrite (a x : BitVec 32)
  /-- JTAG_TEST_LOGIC_RESET (R440). -/
  | jtagTestLogicReset
  /-- GET_INFO (R444). -/
  | mbGetInfo (q : Machine.Port)
  /-- FW_BEGIN (R444). -/
  | mbFwBegin (q : Machine.Port) (args : List Word)
  /-- FW_CHUNK (R444). -/
  | mbFwChunk (q : Machine.Port) (args : List Word)
  /-- FW_END (R444). -/
  | mbFwEnd (q : Machine.Port)
  /-- FW_SELECT (R444). -/
  | mbFwSelect (q : Machine.Port) (args : List Word)
  /-- FW_VERIFY (R444). -/
  | mbFwVerify (q : Machine.Port) (args : List Word)
  /-- FLASH_READ (R444). -/
  | mbFlashRead (q : Machine.Port) (args : List Word)
  /-- FLASH_WRITE (R444). -/
  | mbFlashWrite (q : Machine.Port) (args : List Word)
  /-- OVERRIDE_SET (R452). -/
  | mbOverrideSet (q : Machine.Port) (args : List Word)
  /-- OVERRIDE_CLEAR (R452). -/
  | mbOverrideClear (q : Machine.Port) (args : List Word)
  /-- SVN_COMMIT (R444). -/
  | mbSvnCommit (q : Machine.Port) (args : List Word)
  /-- MB_ABORT (R444). -/
  | mbAbort (q : Machine.Port)
  /-- MB_COMPLETE (R442). -/
  | mbComplete (ok : Bool)
  /-- BOOT_SELECT (R450). -/
  | bootSelect
  /-- DRAM_TRAINED (R453). -/
  | dramTrained
  /-- FIRMWARE_START (R453). -/
  | firmwareStart
  /-- LANE_SIGNAL_DETECTED (R364). -/
  | laneSignalDetected (j : Fin 65)
  /-- VAUX_LOSS (R472). -/
  | vauxLoss
  /-- AON_SHADOW_ADVANCE (R30). -/
  | aonShadowAdvance
  /-- BAR_ACCESS_READY (R431). -/
  | barAccessReady
  /-- ASYNC_SOURCE_LEVEL_CHANGE (R160). -/
  | asyncSourceLevelChange (a : Fin 64) (level : Bool)
  /-- ILLEGAL (R221). -/
  | illegal (d : Fin 16) (k : Fin 8) (e : Machine.IssueEnv) (w : Word)
  deriving DecidableEq, Repr

end Sys2Proof
end

