-- ==== Sys2Proof/Decode.lean ====
section
/-! DEFINITION. The command that a table word spells. -/

namespace Sys2Proof

/-- The rows of the opcode table give no bits: no word spells a command. The words of the Barli instructions are those of the encoding
tables (R220, R221), in Machine/BarliEnc.lean. -/
def decodeTableWord (_nbits _w : Nat) : Option Instr := none

end Sys2Proof
end

