-- ==== Sys2Proof/Machine/BarliEnc.lean ====
section
/-! DEFINITION. The encoding of Barli (R220, R221 and the encoding tables): the word of each instruction and which words are legal. -/

namespace Sys2Proof.Machine

/-- An instruction word from its opcode and its fields, each a value and the bit it begins at (R220). -/
def enc (op : Nat) (fs : List (Nat × Nat)) : Word := BitVec.ofNat 32 (op * 2 ^ 26 + fs.foldl (fun a f => a + f.1 * 2 ^ f.2) 0)

/-- The fields of a second operand. -/
def BSrc.fields : BSrc → List (Nat × Nat)
  | .reg ab => [(0, 17), (ab.val, 13)]
  | .imm n => [(1, 17), (n.toNat, 0)]

def ShSrc.fields : ShSrc → List (Nat × Nat)
  | .reg ab => [(0, 17), (ab.val, 13)]
  | .imm n => [(1, 17), (n.val, 11)]

def LpSrc.fields : LpSrc → List (Nat × Nat)
  | .reg aa => [(0, 25), (aa.val, 7)]
  | .imm n => [(1, 25), (n.val, 0)]

def ChSrc.fields : ChSrc → List (Nat × Nat)
  | .imm n => [(0, 25), (n.val, 19)]
  | .reg ar => [(1, 25), (ar.val, 19)]

def CsrReg.fields : CsrReg → List (Nat × Nat)
  | .a r => [(0, 23), (r.val, 19)]
  | .t r => [(1, 23), (r.val, 19)]

/-- The code of a rounding mode (R46). -/
def Rounding.code : Rounding → Nat
  | .nearestEven => 0
  | .towardZero => 1
  | .floor => 2
  | .ceiling => 3

/-- An integer instruction with a second operand. -/
def encAlu (op ad aa : Nat) (b : BSrc) : Word := enc op ([(ad, 22), (aa, 18)] ++ b.fields)

/-- A field that must be 0. -/
def zeros (w hi lo : Nat) : Bool := decide (bits w hi lo = 0)

/-- A word is a legal instruction at index `pc` (R221): its opcode is listed, its reserved fields are 0, no field holds a value its row
excludes. -/
def legalWord (w pc : Nat) : Bool :=
  let i25 := bit w 25
  let i17 := bit w 17
  let chan := !i25 || zeros w 24 23
  match bits w 31 26 with
  | 0x00 => zeros w 25 0
  | 0x01 => zeros w 25 0
  | 0x02 => zeros w 25 10
  | 0x03 => zeros w 25 16
  | 0x04 => zeros w 25 14
  | 0x05 => decide (bits w 25 22 ≠ 15) && zeros w 21 14
  | 0x06 => zeros w 25 14
  | 0x07 => zeros w 25 0
  | 0x08 => decide (pc < bits w 24 11) && (i25 || zeros w 6 0)
  | 0x09 => zeros w 24 0
  | 0x10 => i17 || zeros w 12 0
  | 0x11 => i17 || zeros w 12 0
  | 0x12 => i17 || zeros w 12 0
  | 0x13 => i17 || zeros w 12 0
  | 0x14 => zeros w 4 0
  | 0x15 => zeros w 4 0
  | 0x16 => (i17 || zeros w 12 11) && zeros w 10 0
  | 0x17 => (i17 || zeros w 12 11) && zeros w 7 0
  | 0x18 => i17 || zeros w 12 0
  | 0x19 => i17 || zeros w 12 0
  | 0x1A => i17 || zeros w 12 0
  | 0x1B => zeros w 25 22 && (i17 || zeros w 12 0)
  | 0x1C => true
  | 0x1D => zeros w 19 16
  | 0x1E => zeros w 17 0
  | 0x1F => zeros w 17 0
  | 0x20 => zeros w 14 0
  | 0x21 => zeros w 15 0
  | 0x22 => zeros w 25 22 && zeros w 15 0
  | 0x23 => zeros w 22 0
  | 0x24 => zeros w 13 3 &&
    (match bits w 2 0 with
     | 0 => zeros w 25 25 && zeros w 21 21 && zeros w 17 14
     | 1 => zeros w 21 21 && zeros w 17 14
     | 2 => zeros w 21 21 && zeros w 17 14
     | 3 => zeros w 25 25
     | 4 => zeros w 25 25 && zeros w 21 14
     | _ => false)
  | 0x25 => zeros w 17 14
  | 0x28 => true
  | 0x29 => true
  | 0x2A => true
  | 0x2B => true
  | 0x30 => chan && zeros w 14 0
  | 0x31 => chan && zeros w 11 0
  | 0x32 => chan && zeros w 8 8 && zeros w 1 0
  | 0x33 => chan && zeros w 9 0
  | 0x34 => chan && zeros w 15 0
  | 0x38 => zeros w 22 0
  | 0x39 => zeros w 16 0 && (decide (bits w 25 22 ≠ 0) || bit w 21)
  | 0x3A => zeros w 18 0
  | 0x3B => decide (bits w 23 17 ≤ (if i25 then 63 else 95)) && zeros w 12 0
  | 0x3C => decide (bits w 18 12 ≤ 95) && zeros w 5 0
  | 0x3D => decide (bits w 25 20 ≤ 51) && zeros w 12 0
  | 0x3E =>
    if bit w 25 then zeros w 23 23 && zeros w 14 0
    else zeros w 18 12 && (!bit w 23 || zeros w 22 22)
  | _ => false

end Sys2Proof.Machine
end

