-- ==== Sys2Proof/Config.lean ====
section
/-! DEFINITION. What one chip fixes and the values the spec leaves open. Every open value is an opaque constant: no proof can see
what it is, so a statement holds whatever it is. -/

namespace Sys2Proof.Config

/-- A fresh value of an unstated result, drawn with the counter `State.free` (log entry 5). -/
opaque freeNat : Nat → Nat

/-- The fused nominal output delay of an EO channel, in fine units; the device holds it below 4 ns (R60), which the model keeps by
reducing it. (DEDUCED, log entry 47.) -/
opaque fusedDelay : Nat → Nat

/-- The fused ball term K_n of an EO channel, in fine units (R240). (DEDUCED, log entry 47.) -/
opaque fusedBall : Nat → Int

/-- The fused offset of a unit at 25 °C, sQ8.24 ns, and its temperature coefficient, sQ16.16 fs per °C (R240, R247). (DEDUCED, log entry 47.) -/
opaque fusedOfs25 : Nat → Int
/-- DEDUCED, log entry 47. -/
opaque fusedTc : Nat → Int

/-- The first 8 bytes of SHA-384 of the fused serial number, little-endian (R259). (DEDUCED, log entry 47.) -/
opaque serialHash : Nat

/-- The fused pad delay of PPSINi, in fine units (R298). (DEDUCED, log entry 47.) -/
opaque ppsDelay : Nat → Int

/-- The measured delay from TB to the lane domains of a port, S64 LSB (R20, R59). (DESIGN CHOICE, log entry 7.) -/
opaque busDelay : Nat → Int

/-- Natural frequency of Bellwether's loop for each step of BWU, less one, in 10^-12 rad/s (R306). With the damping fixed it is proportional
to the bandwidth; the spec does not say which bandwidth 0.1 mHz measures. (DESIGN CHOICE, log entry 52.) -/
opaque loopRate : Nat

/-- The cause code an NT_INVALID record carries for each cause (R338, R421): 0 timeout, 1 port down, 2 disabled, 3 delay stale, 4 PEER
lost. (DESIGN CHOICE, log entry 59.) -/
opaque ntCause : Nat → Nat

/-- The hash of the MAC table: the bucket of a MAC address and VID (R379). (DESIGN CHOICE, log entry 64.) -/
opaque macHash : Nat → Nat → Nat

/-- The SHA-384 of an image header's key equals KEYHASH (R448, R449). (DESIGN CHOICE, log entry 73.) -/
opaque keyOk : List Byte → Bool

/-- A signature verifies over header bytes 0 to 159 and the body, under a key (R447, R449): key, signature, signed bytes. (DESIGN CHOICE, log entry 73.) -/
opaque sigOk : List Byte → List Byte → List Byte → Bool

/-- SVN_MIN as fused at manufacture (R448). (DESIGN CHOICE, log entry 73.) -/
opaque svnMinFused : Nat

end Sys2Proof.Config
end

