-- ==== Sys2Proof/Machine/State.lean ====
section
/-! DEFINITION. The state of the device, as plain data, and the state after reset. -/

namespace Sys2Proof.Machine

/-- Why the machine stops with a fault. -/
inductive Fault where
  /-- Raised by no meaning at present: the spec gives every command an effect or none. Safe: nothing stops. -/
  | none
  deriving DecidableEq, Repr

/-- Why a command is refused. -/
inductive Refusal where
  /-- Raised by an arm of `exec` for a command that has no meaning yet. Safe: nothing is claimed of it. -/
  | notModelled (mnemonic : String)
  deriving DecidableEq, Repr

/-- The state of the ELB6452 as one block. -/
structure State where
  regs : SMap RegKey Nat
  latches : SMap ReqKey Nat
  staging : SMap ReqKey Nat
  cyc : Cyc
  resp : Resp
  tickNo : Nat
  free : Nat
  glb : GlbSt
  time : TimeSt
  tsyn : TsynSt
  csyn : CsynSt
  osyn : SMap Nat OsynSt
  eo : SMap Nat Eo
  qres : SMap ReqKey QRes
  tiu : SMap Nat Tiu
  tal : Tally
  dw : Dw
  drv : SMap Nat Drover
  bbr : BbrSt
  flt : FltSt
  cal : Cal
  bw : Bw
  nt : Nt
  pt : SMap Nat Pt
  elm : SMap Nat ElmOut
  sw : Sw
  host : HostIf
  msix : List Nat
  hostMem : Memory
  flash : Memory
  dram : Memory
  pending : List Instr
  deriving DecidableEq, Repr

/-- The device right after auxiliary power-on (R30): every register at its reset value, the main rails below 90 % of nominal, RESET_N
low, AON on its backup oscillator (R469, R470), the record of the reset offered to the empty black box (R34). -/
def State.reset : State where
  regs := {}
  latches := {}
  staging := {}
  cyc := {}
  resp := {}
  tickNo := 0
  free := 0
  glb := {}
  time := {}
  tsyn := {}
  csyn := {}
  osyn := {}
  eo := {}
  qres := {}
  tiu := {}
  tal := {}
  dw := {}
  drv := {}
  bbr := { offers := [⟨0x8000, 0x3001, 1, 0, none, false, 0⟩] }
  flt := {}
  cal := {}
  bw := {}
  nt := {}
  pt := {}
  elm := {}
  sw := {}
  host := {}
  msix := []
  hostMem := []
  flash := []
  dram := []
  pending := []

end Sys2Proof.Machine
end

