-- ==== Sys2Proof/Machine/Ops.lean ====
section
/-! DEFINITION. The named operations every meaning is written with: the register file and its fields, the saturating counters,
device time, raising an event, reporting a fault, offering a record to the black box or to Tally. -/

namespace Sys2Proof.Machine

/-! ### The register file -/

/-- A register's reset value from its field table. -/
def resetOfFields (fs : List FldDef) : Nat := fs.foldl (fun a f => a + f.rst * 2 ^ f.lo) 0

/-- Nominal rail voltages in mV, in the order of *Registers* of the fault chapter: VDD, VDDS, VDDT0 to VDDT3, VDDL, VDDLH, VDDM,
VDDIO, VAUX (R465). -/
def railNominal (r : Nat) : Nat :=
  ([750, 850, 900, 900, 900, 900, 900, 1200, 1100, 1800, 750] : List Nat).getD r 0

/-- The reset value of a register (R9), with the registers whose reset depends on their index: DRV_INFO (R208), TIU_CTL (R136),
PT_CFG (R378), MON_SUP_WIN (R428). (DESIGN CHOICE, log entry 18.) -/
def regReset (k : RegKey) : Nat :=
  match k.r with
  | .drvInfo => resetOfFields Reg.drvInfo.info.flds + k.i * 256
  | .tiuCtl => if k.i < 32 then 0 else 4
  | .ptCfg =>
    if k.i < 48 then resetOfFields Reg.ptCfg.info.flds
    else setBits (setBits (resetOfFields Reg.ptCfg.info.flds) 2 0 4) 5 4 2
  | .monSupWin =>
    let n := railNominal k.i
    (n * 105 + 50) / 100 * 65536 + (n * 95 + 50) / 100
  | r => resetOfFields r.info.flds

/-- Read the stored value of a register. -/
def State.rget (s : State) (k : RegKey) : Nat := s.regs.get (regReset k) k

/-- Store the value of a register. -/
def State.rset (s : State) (k : RegKey) (v : Nat) : State :=
  { s with regs := s.regs.put RegKey.code (regReset k) k v }

/-- Read a field. -/
def State.fget (s : State) (f : Fld) (i : Nat := 0) (j : Nat := 0) (k : Nat := 0) : Nat :=
  bits (s.rget ⟨f.reg, i, j, k⟩) f.hi f.lo

/-- Read a one-bit field. -/
def State.fbit (s : State) (f : Fld) (i : Nat := 0) (j : Nat := 0) (k : Nat := 0) : Bool :=
  bit (s.rget ⟨f.reg, i, j, k⟩) f.lo

/-- Store a field. (DEDUCED, log entry 80.) -/
def State.fset (s : State) (f : Fld) (v : Nat) (i : Nat := 0) (j : Nat := 0) (k : Nat := 0) : State :=
  s.rset ⟨f.reg, i, j, k⟩ (setBits (s.rget ⟨f.reg, i, j, k⟩) f.hi f.lo v)

/-- The bits of a register that a hardware event has acted on in this cycle (R7). -/
def State.hwMask (s : State) (k : RegKey) : Nat := s.cyc.hw.get 0 k

/-- A hardware event acts on bits of a register: a write of the same cycle does not undo it (R7). -/
def State.hwMark (s : State) (k : RegKey) (m : Nat) : State :=
  { s with cyc := { s.cyc with hw := s.cyc.hw.put RegKey.code 0 k (s.hwMask k ||| m) } }

/-- Set a status bit: a hardware event (R7). -/
def State.fon (s : State) (f : Fld) (i : Nat := 0) (j : Nat := 0) (k : Nat := 0) : State :=
  (s.fset f 1 i j k).hwMark ⟨f.reg, i, j, k⟩ (2 ^ f.lo)

/-- Set one bit of a status field: a hardware event (R7). -/
def State.fonBit (s : State) (f : Fld) (b : Nat) (i : Nat := 0) (j : Nat := 0) (k : Nat := 0) : State :=
  (s.fset f (s.fget f i j k ||| 2 ^ b) i j k).hwMark ⟨f.reg, i, j, k⟩ (2 ^ (f.lo + b))

/-- Set a status bit when a condition holds. -/
def State.fonIf (s : State) (c : Bool) (f : Fld) (i : Nat := 0) (j : Nat := 0) (k : Nat := 0) : State :=
  if c then s.fon f i j k else s

/-- Add to a 32-bit counter that saturates at 0xFFFF_FFFF. (DEDUCED, log entry 80.) -/
def State.cntAdd (s : State) (r : Reg) (n : Nat) (i : Nat := 0) : State :=
  s.rset ⟨r, i, 0, 0⟩ (min (s.rget ⟨r, i, 0, 0⟩ + n) 0xFFFFFFFF)

/-- Count one in a saturating counter. -/
def State.cnt (s : State) (r : Reg) (i : Nat := 0) : State := s.cntAdd r 1 i

/-- Count in a 64-bit counter that wraps at 2^64. (DEDUCED, log entry 80.) -/
def State.cnt64 (s : State) (r : Reg) (n : Nat) (i : Nat := 0) : State :=
  s.rset ⟨r, i, 0, 0⟩ ((s.rget ⟨r, i, 0, 0⟩ + n) % 2 ^ 64)

/-- A function-level reset is in progress: from its command to the end of the tick (R31). (DEDUCED, log entry 23.) -/
def State.flrOn (s : State) : Bool := decide (s.host.flrTick = some s.tickNo)

/-- The registers of one name that hold something other than their reset value: first index and value. -/
def State.listed (s : State) (r : Reg) : List (Nat × Nat) :=
  s.regs.cells.filterMap fun c => if c.1.r = r then some (c.1.i, c.2) else none

/-! ### Blocks of state kept per index -/

def State.getEo (s : State) (n : Nat) : Eo := s.eo.get {} n
def State.setEo (s : State) (n : Nat) (e : Eo) : State := { s with eo := s.eo.put id {} n e }
def State.getTiu (s : State) (u : Nat) : Tiu := s.tiu.get {} u
def State.setTiu (s : State) (u : Nat) (t : Tiu) : State := { s with tiu := s.tiu.put id {} u t }
def State.getDrv (s : State) (d : Nat) : Drover := s.drv.get {} d
def State.setDrv (s : State) (d : Nat) (x : Drover) : State := { s with drv := s.drv.put id {} d x }
def State.getTask (s : State) (d k : Nat) : Task := (s.getDrv d).tasks.get {} k
def State.setTask (s : State) (d k : Nat) (t : Task) : State :=
  let x := s.getDrv d
  s.setDrv d { x with tasks := x.tasks.put id {} k t }
def State.getOsyn (s : State) (i : Nat) : OsynSt := s.osyn.get {} i
def State.setOsyn (s : State) (i : Nat) (o : OsynSt) : State := { s with osyn := s.osyn.put id {} i o }
def State.setTime (s : State) (t : TimeSt) : State := { s with time := t }
def State.setTsyn (s : State) (t : TsynSt) : State := { s with tsyn := t }
def State.setCsyn (s : State) (t : CsynSt) : State := { s with csyn := t }
def State.setDw (s : State) (d : Dw) : State := { s with dw := d }
def State.setTal (s : State) (t : Tally) : State := { s with tal := t }
def State.setBbr (s : State) (b : BbrSt) : State := { s with bbr := b }
def State.setFlt (s : State) (f : FltSt) : State := { s with flt := f }
def State.setGlb (s : State) (g : GlbSt) : State := { s with glb := g }
def State.setResp (s : State) (r : Resp) : State := { s with resp := r }
def State.setDram (s : State) (m : Memory) : State := { s with dram := m }

/-! ### Device time -/

/-- Device time as an instant: the compared whole nanosecond, FRAC 0 (R52, R54). -/
def State.nowI (s : State) : Instant := ofNs s.time.now

/-- The DEG bit of the time bus (R57): the timebase runs on BPLL. -/
def State.deg (s : State) : Bool := decide (s.tsyn.src = .bpll)

/-- Nanoseconds of AON time: the AON domain counts through every reset but auxiliary power-on. -/
def State.aonNs (s : State) : Nat := s.glb.aonCycle * 10

/-- DRAM is unavailable (R28): limited mode, a MEM reset, an uncorrectable fault, or before training. -/
def State.dramUnavail (s : State) : Bool :=
  s.glb.limited || s.fbit F.glbBlkRst_MEM || s.glb.dramFault || !s.glb.dramReady

/-- What an unlisted byte of DRAM reads (log entry 3). -/
def dramUnl : Byte := 0

/-- Read `n` bytes of DRAM as a little-endian number. -/
def State.dramRead (s : State) (a n : Nat) : Nat := memReadLE dramUnl s.dram a n

/-- Write `n` bytes of DRAM from a little-endian number. -/
def State.dramWrite (s : State) (a v n : Nat) : State := s.setDram (memWriteLE dramUnl s.dram a v n)

/-! ### Outboxes -/

/-- Offer a record to the black box (R419): records of one AON cycle are put in order by SOURCE (R422). -/
def State.offerBbr (s : State) (o : BbrOffer) : State :=
  s.setBbr { s.bbr with offers := s.bbr.offers ++ [{ o with tick := s.glb.aonCycle }] }

/-- Report a fault to the monitor (R415). -/
def State.report (s : State) (f : FaultRep) : State := s.setFlt { s.flt with reports := s.flt.reports ++ [{ f with tick := s.tickNo }] }

/-- SOURCE of a record: block code and index (R420). -/
def srcOf (blk idx : Nat) : Nat := blk * 2048 + idx % 2048

/-- Tally is ACTIVE (R132). -/
def State.talActive (s : State) : Bool :=
  s.fbit F.talCtl_EN && !s.fbit F.talStat_FULL && !s.fbit F.talStat_FROZEN

/-- Offer a record to Tally: it counts while EN is 1 (R148), and is discarded while Tally is not ACTIVE or has no ring (R132). -/
def State.offerTally (s : State) (r : Rec) : State :=
  if !s.fbit F.talCtl_EN then s
  else
    let s1 := s.cnt64 .talCntIn 1
    if !s1.talActive ∨ s1.fget F.talSize_SIZE = 0 then s1.cnt64 .talCntDisc 1
    else s1.setTal { s1.tal with offers := s1.tal.offers ++ [⟨r, s1.tickNo⟩] }

/-- What an unlisted byte of host memory reads: host memory belongs to the environment (log entry 6). -/
def hostUnl : Byte := 0

/-- An MSI-X vector's message leaves: a write of its DATA to its address in host memory (R432). -/
def State.msixMessage (s : State) (v : Nat) : State :=
  { s with msix := s.msix ++ [v]
           hostMem := memWriteLE hostUnl s.hostMem (s.fget F.msixTable_ADDR v) (s.fget F.msixTable_DATA v) 4 }

/-- Send an MSI-X vector, or set its pending bit while it is masked (R432). -/
def State.sendMsix (s : State) (v : Nat) : State :=
  if s.fbit F.msixTable_MASK v then
    s.fonBit F.msixPba_PENDING v
  else s.msixMessage v

/-! ### Droveway producers and consumers (R150, R154) -/

namespace Prod
def eoIss (n : Nat) : Nat := n
def eoVer (n : Nat) : Nat := 0x040 + n
def eoErr (n : Nat) : Nat := 0x080 + n
def eoLate (n : Nat) : Nat := 0x0C0 + n
def eoQlow (n : Nat) : Nat := 0x100 + n
def tiuRaw (u : Nat) : Nat := 0x140 + u
def tiuHit (u : Nat) : Nat := 0x1A0 + u
def tiuDone (u : Nat) : Nat := 0x200 + u
def tiuErr (u : Nat) : Nat := 0x260 + u
def drvSig (d s : Nat) : Nat := 0x2C0 + 8 * d + s
def evin (i : Nat) : Nat := 0x340 + i
def dwTmr (i : Nat) : Nat := 0x350 + i
def swf (i : Nat) : Nat := 0x358 + i
def ppsin (i : Nat) : Nat := 0x368 + i
def timeStep : Nat := 0x36A
def tbSec : Nat := 0x36B
def tsynLock : Nat := 0x36C
def csynBand : Nat := 0x36D
def osynLock (i : Nat) : Nat := 0x36E + i
def bwState : Nat := 0x372
def bwRefsel : Nat := 0x373
def calDone : Nat := 0x374
def fltDet : Nat := 0x375
def fltMask : Nat := 0x376
def flock (f : Nat) : Nat := 0x380 + f
def ptLink (p : Nat) : Nat := 0x3A0 + p
def ptRx7 (p : Nat) : Nat := 0x400 + p
end Prod

/-- The identifiers R150 lists. -/
def prodListed (p : Nat) : Bool :=
  decide (p ≤ 0x376) || decide (0x380 ≤ p ∧ p ≤ 0x3D3) || decide (0x400 ≤ p ∧ p ≤ 0x433)

namespace Con
def eoArm (n : Nat) : Nat := n
def eoTrig (n : Nat) : Nat := 0x040 + n
def tiuArm (u : Nat) : Nat := 0x080 + u
def tiuStart (u : Nat) : Nat := 0x0E0 + u
def tiuStop (u : Nat) : Nat := 0x140 + u
def drvIn (d k i : Nat) : Nat := 0x1A0 + 32 * d + 4 * k + i
def talTrig : Nat := 0x3A0
def bbrTrig : Nat := 0x3A1
def dmaTrig (i : Nat) : Nat := 0x3A2 + i
def evout (i : Nat) : Nat := 0x3A8 + i
def flockEn (f : Nat) : Nat := 0x3C0 + f
def flockDis (f : Nat) : Nat := 0x3E0 + f
def lqTrig (p : Nat) : Nat := 0x400 + p
end Con

/-- The fixed wire of a consumer (R154). -/
def fixedWire (x : Nat) : Option Nat :=
  if x ≤ 0x03F then some (Prod.evin (x % 16))
  else if x ≤ 0x07F then some (Prod.tiuHit ((x - 0x040) % 32))
  else if x ≤ 0x0DF then
    (if x - 0x080 < 32 then some (Prod.evin ((x - 0x080) % 16)) else some (Prod.eoIss (x - 0x080 - 32)))
  else if x ≤ 0x13F then some (Prod.dwTmr ((x - 0x0E0) % 8))
  else if x ≤ 0x19F then none
  else if x ≤ 0x39F then
    (if (x - 0x1A0) % 4 = 3 then some (Prod.drvSig ((x - 0x1A0) / 32) ((x - 0x1A0) % 32 / 4)) else none)
  else if x = 0x3A0 then some Prod.fltDet
  else if x ≤ 0x3A7 then none
  else if x ≤ 0x3B7 then some (Prod.dwTmr ((x - 0x3A8) % 8))
  else if x ≤ 0x3DF then none
  else if x ≤ 0x3FF then some Prod.fltDet
  else none

/-- The indices R154 lists. -/
def conListed (x : Nat) : Bool :=
  decide (x ≤ 0x3A5) || decide (0x3A8 ≤ x ∧ x ≤ 0x3B7) || decide (0x3C0 ≤ x ∧ x ≤ 0x433)

/-- The block of a consumer is held in reset (R154): a Drover, Tally, the Droveway's own consumers, or TAS. -/
def State.conHeld (s : State) (x : Nat) : Bool :=
  if 0x1A0 ≤ x ∧ x ≤ 0x39F then s.fbit F.glbBlkRst_DRV
  else if x = 0x3A0 then s.fbit F.glbBlkRst_TAL
  else if 0x400 ≤ x then s.fbit F.glbBlkRst_TAS
  else if 0x3A8 ≤ x then s.fbit F.glbBlkRst_DW
  else false

/-- Insert an event of a group by timestamp, after those with an equal one (R149). -/
def insertStamp (e : Stamp) : List Stamp → List Stamp
  | [] => [e]
  | b :: t => if e.ts < b.ts then e :: b :: t else b :: insertStamp e t

/-- Put events at a consumer's input, to arrive at a tick: those of one tick make one group, in timestamp order (R149). -/
def State.deliver (s : State) (x : Nat) (evs : List Stamp) (due : Nat) : State :=
  let here (g : Group) : Bool := decide (g.x = x ∧ g.due = due)
  let l := if s.dw.inbox.any here then
      s.dw.inbox.map fun g => if here g then { g with evs := evs.foldl (fun l e => insertStamp e l) g.evs } else g
    else s.dw.inbox ++ [⟨x, evs, due⟩]
  s.setDw { s.dw with inbox := l }

/-- Groups that arrive in this tick at a consumer whose block is held in reset are discarded and counted (R154). -/
def State.dropHeld (s : State) : State :=
  let gone := s.dw.inbox.filter fun g => decide (g.due = s.tickNo) && s.conHeld g.x
  if gone.isEmpty then s
  else
    (s.setDw { s.dw with inbox := s.dw.inbox.filter fun g => !(decide (g.due = s.tickNo) && s.conHeld g.x) }).cntAdd .dwCntDrop
      (gone.map fun g => g.evs.length).sum

/-- The value of a register whose change applies from the tick after the write (R156, R164, R175). -/
def State.inForce (s : State) (k : RegKey) : Nat :=
  match s.dw.late.find? fun l => decide (l.key = k) && decide (s.tickNo < l.from_) with
  | some l => l.old
  | none => s.rget k

/-- Keep a register's value in force to the end of this tick, before it is written. (DEDUCED, log entry 44.) -/
def State.defer (s : State) (k : RegKey) : State :=
  if s.dw.late.any fun l => decide (l.key = k) && decide (s.tickNo < l.from_) then s
  else s.setDw { s.dw with late := s.dw.late ++ [⟨k, s.rget k, s.tickNo + 1⟩] }

/-- The consumer selections in force: consumer index and DW_CON_SEL (R156). -/
def State.conSels (s : State) : List (Nat × Nat) :=
  let here := (s.listed .dwConSel).map fun c => (c.1, s.inForce ⟨.dwConSel, c.1, 0, 0⟩)
  here ++ ((s.dw.late.filter fun l => decide (l.key.r = .dwConSel) && decide (s.tickNo < l.from_) &&
    !here.any fun c => decide (c.1 = l.key.i)).map fun l => (l.key.i, l.old))

/-- The consumers that a producer feeds by fixed wire (R156). (DEDUCED, log entry 44.) -/
def State.fixedConsumers (s : State) (prod : Nat) : List Nat :=
  s.conSels.filterMap fun c =>
    if bits c.2 29 28 = 1 ∧ fixedWire c.1 = some prod then some c.1 else none

/-- The enabled clocked channels that name a producer (R168). -/
def State.channelsOf (s : State) (prod : Nat) : List Nat :=
  (s.listed .dwChCfg).filterMap fun c =>
    if bit c.2 0 ∧ ¬ bit c.2 1 ∧
        (s.fget F.dwChSrc_SRC_A c.1 = prod ∨ (bit c.2 4 ∧ s.fget F.dwChSrc_SRC_B c.1 = prod)) then some c.1
    else none

/-- A suppressed event shows in one channel (R168): LOOP, and the first since LOOP was cleared in the black box. -/
def State.loopIn (s : State) (prod c : Nat) : State :=
  let s1 := if s.fbit F.dwChStat_LOOP c then s
    else s.offerBbr { source := srcOf 0x06 c, code := 0x0012, arg0 := c, arg1 := prod, ts := none }
  s1.fon F.dwChStat_LOOP c

/-- The fixed MSI-X vector of an event (R432). -/
def vectorOf (prod : Nat) : Option Nat :=
  if prod = Prod.fltDet then some 1
  else if prod = Prod.fltMask then some 2
  else if prod = Prod.calDone then some 3
  else if prod = Prod.bwState then some 4
  else if 0x3A0 ≤ prod ∧ prod ≤ 0x3D3 then some 5
  else if prod = Prod.tsynLock ∨ (Prod.osynLock 0 ≤ prod ∧ prod ≤ Prod.osynLock 3) then some 7
  else none

/-- Send the vector of an event that has one. -/
def State.sendVector (s : State) (prod : Nat) : State :=
  match vectorOf prod with
  | some v => s.sendMsix v
  | none => s

/-- Raise an event now (R149), or suppress it when its tag exceeds the limit (R168). Fixed wires deliver it one tick later (R156). -/
def State.raiseNow (s : State) (prod : Nat) (ts : Instant) (tag : Nat) : State :=
  if tag > s.fget F.dwCtl_GEN_LIMIT then
    let s1 := (s.fon F.dwStat_LOOP).cnt .dwCntLoop
    (s1.channelsOf prod).foldl (fun st c => st.loopIn prod c) s1
  else
    let e : Ev := ⟨prod, ts, tag, s.tickNo, []⟩
    let s1 := (s.sendVector prod).setDw { s.dw with evq := s.dw.evq ++ [e] }
    (s1.fixedConsumers prod).foldl (fun st x => st.deliver x [⟨ts, tag⟩] (s.tickNo + 1)) s1

/-- Raise an event, now or `delay` ticks from now: the tag limit and the fixed wires are judged in the tick in which it is raised. -/
def State.raiseEv (s : State) (prod : Nat) (ts : Instant) (tag : Nat) (delay : Nat := 0) : State :=
  if delay = 0 then s.raiseNow prod ts tag else s.setDw { s.dw with soon := s.dw.soon ++ [⟨prod, ts, tag, s.tickNo + delay, []⟩] }

/-- The events whose tick has come are raised. -/
def State.raiseDue (s : State) : State :=
  (s.dw.soon.filter fun e => decide (e.tick ≤ s.tickNo)).foldl (fun st e => st.raiseNow e.prod e.ts e.tag)
    (s.setDw { s.dw with soon := s.dw.soon.filter fun e => !decide (e.tick ≤ s.tickNo) })

/-- Raise an event when a condition holds. -/
def State.raiseIf (s : State) (c : Bool) (prod : Nat) (ts : Instant) (tag : Nat) (delay : Nat := 0) : State :=
  if c then s.raiseEv prod ts tag delay else s

/-- The oldest group waiting at a consumer that reached its input `lag` ticks ago or earlier, if any. -/
def findGroup (x lag now : Nat) : List Group → Option Group
  | [] => none
  | g :: t => if g.x = x ∧ g.due + lag ≤ now then some g else findGroup x lag now t

/-- The inbox without the group `findGroup` finds. -/
def dropGroup (x lag now : Nat) : List Group → List Group
  | [] => []
  | g :: t => if g.x = x ∧ g.due + lag ≤ now then t else g :: dropGroup x lag now t

/-- Take the group at a consumer's input: its events and the state without it; none while nothing has arrived. `lag` is how many ticks
after its arrival the consumer acts on a group. -/
def State.takeGroup (s : State) (x : Nat) (lag : Nat := 0) : Option (List Stamp × State) :=
  match findGroup x lag s.tickNo s.dw.inbox with
  | none => none
  | some g => some (g.evs, s.setDw { s.dw with inbox := dropGroup x lag s.tickNo s.dw.inbox })

/-- What a consumer does with the oldest group at its input: nothing while none has arrived; while its block is held in reset the group is
discarded and counted (R154). (DEDUCED, log entry 44.) -/
def State.onGroup (s : State) (x : Nat) (f : List Stamp → State → State) (lag : Nat := 0) : State :=
  match s.takeGroup x lag with
  | none => s
  | some (evs, s1) => if s1.conHeld x then s1.cntAdd .dwCntDrop evs.length else f evs s1

/-- The TB and FAB domains act only while device time runs (R30). -/
def State.live (s t : State) : State := if s.time.run then t else s

/-- A fresh free value (log entry 5) and the state with its counter advanced. -/
def State.fresh (s : State) : Nat × State := (Config.freeNat s.free, { s with free := s.free + 1 })

end Sys2Proof.Machine
end

