-- ==== Sys2Proof/Machine/DrvOps.lean ====
section
/-! DEFINITION. Operations on Drover tasks: registers, traps, results of offered actions, start, stop, wake, inputs and resets
(R179 to R207). -/

namespace Sys2Proof.Machine

/-- Registers of a task. -/
def Task.aget (t : Task) (r : Nat) : W64 := t.a.get 0 r
def Task.aput (t : Task) (r : Nat) (v : W64) : Task := { t with a := t.a.put id 0 r v }
def Task.tget (t : Task) (r : Nat) : Instant := t.t.get 0 r
def Task.tput (t : Task) (r : Nat) (v : Instant) : Task := { t with t := t.t.put id 0 r v }

/-- A group reaches an input (R161): count, COINCIDENT, FIFO, tag. -/
def TaskIn.arrive (t : TaskIn) (evs : List Stamp) (now : Nat) : TaskIn :=
  let room := 4 - t.fifo.length
  { count := min (t.count + evs.length) 255
    coinc := t.coinc || decide (2 ≤ evs.length)
    tsLost := t.tsLost || decide (room < evs.length)
    tag := evs.foldl (fun a e => max a e.tag) t.tag
    fifo := t.fifo ++ (evs.take room).map Stamp.ts
    tick := if t.count = 0 then now else t.tick }

/-- An input, every group that has reached it included. -/
def Task.iget (t : Task) (i : Nat) : TaskIn :=
  let n := t.newIn.get (0, []) i
  if n.2 = [] then t.inp.get {} i else (t.inp.get {} i).arrive n.2 n.1

/-- An input as it was before the group of this tick (R187). -/
def Task.ibefore (t : Task) (i now : Nat) : TaskIn := if (t.newIn.get (0, []) i).1 = now then t.inp.get {} i else t.iget i

def Task.iput (t : Task) (i : Nat) (v : TaskIn) : Task :=
  { t with inp := t.inp.put id {} i v, newIn := t.newIn.put id (0, []) i (0, []) }

/-- A group reaches an input of the task in this tick. -/
def Task.iarrive (t : Task) (i : Nat) (evs : List Stamp) (now : Nat) : Task :=
  let x := t.iput i (t.iget i)
  { x with newIn := x.newIn.put id (0, []) i (now, evs) }

/-- A read leaves `v` of what an input held before the group of this tick, which is applied after the read (R187). -/
def Task.itake (t : Task) (i now : Nat) (v : TaskIn) : Task :=
  if (t.newIn.get (0, []) i).1 = now then { t with inp := t.inp.put id {} i v } else t.iput i v

/-- The FLAGS word of R193. -/
def TFlags.pack (f : TFlags) : Nat :=
  bnat f.z + 2 * bnat f.n + 4 * bnat f.c + 8 * bnat f.v + 16 * bnat f.x + 32 * bnat f.l

def TFlags.unpack (w : Nat) : TFlags := ⟨bit w 0, bit w 1, bit w 2, bit w 3, bit w 4, bit w 5⟩

/-- DRV_IN_STAT of an input (R218). -/
def TaskIn.pack (t : TaskIn) : Nat :=
  t.count + 256 * bnat t.coinc + 512 * bnat t.tsLost + 1024 * t.tag + 16384 * t.fifo.length

/-! Trap codes (R200). -/
namespace TrapCode
def illegal : Nat := 0x01
def trap : Nat := 0x02
def noncanon : Nat := 0x03
def dmem : Nat := 0x04
def imemRange : Nat := 0x05
def stack : Nat := 0x06
def loop : Nat := 0x07
def div0 : Nat := 0x08
def late : Nat := 0x09
def action : Nat := 0x0A
def csrDeny : Nat := 0x0B
def dram : Nat := 0x0C
def ecc : Nat := 0x0D
def lockstep : Nat := 0x0E
def sibling : Nat := 0x0F
end TrapCode

/-- The instruction word at an index. -/
def Drover.word (x : Drover) (i : Nat) : Word := x.imem.get 0 i

/-- An offer of a task. -/
def Offer.ofTask (o : Offer) (d k : Nat) : Bool :=
  match o.src with
  | .task d' k' => decide (d'.val = d) && decide (k'.val = k)
  | _ => false

/-- The action a task has offered and its channel has not yet accepted is abandoned (R199, R205). (DEDUCED, log entry 38.) -/
def State.dropOffers (s : State) (d k : Nat) : State :=
  match (s.getTask d k).wait with
  | .action ch => let c := s.getEo ch; s.setEo ch { c with offers := c.offers.filter fun o => !o.ofTask d k }
  | _ => s

/-- One task enters TRAPPED (R199): DRV_TASK_TRAP, DRV_STAT.TRAP, the black box and vector 6 (R432). -/
def State.trapOne (s : State) (d k code arg : Nat) : State :=
  let t := s.getTask d k
  let insn := ((s.getDrv d).word t.pc).toNat
  let rcd := (code * 65536 + t.pc) + insn * 2 ^ 32 + (arg % 2 ^ 32) * 2 ^ 64
  let s1 := (s.dropOffers d k).setTask d k { t with st := .trapped, wait := .none, trap := rcd }
  let s2 := s1.fonBit F.drvStat_TRAP k d
  (s2.offerBbr { source := srcOf 0x07 d, code := 0x0010, arg0 := d * 8 + k, arg1 := code * 65536 + t.pc, ts := none }).sendMsix 6

/-- A trap with its effect on the siblings under TRAP_ALL (R199). -/
def State.trapTask (s : State) (d k code arg : Nat) : State :=
  let s1 := s.trapOne d k code arg
  if s1.fbit F.drvCtl_TRAP_ALL d then
    (List.range 8).foldl (fun st j =>
      if j = k ∨ (st.getTask d j).st = .stopped then st
      else st.trapOne d j TrapCode.sibling k) s1
  else s1

/-- A lockstep mismatch, in the tick after the issue it was found in (R201): all eight tasks trap, FAULTED, a detected fault. -/
def State.lockstepFault (s : State) (d : Nat) : State :=
  let s1 := (List.range 8).foldl (fun st j => st.trapOne d j TrapCode.lockstep 0) s
  let s2 := s1.fon F.drvStat_LOCKSTEP d
  let s3 := s2.setDrv d { s2.getDrv d with faulted := true }
  s3.report { detected := true, cls := 1, source := srcOf 0x07 d, code := 0x2101, arg0 := d, arg1 := 0, ts := some s.nowI }

/-- A single-bit error in a Drover memory (R202): corrected, counted, a masked fault. -/
def State.eccCorrected (s : State) (d addr : Nat) : State :=
  ((s.fon F.drvStat_ECC_CORR d).cnt .drvCntEcc d).report
    { detected := false, cls := 0, source := srcOf 0x07 d, code := 0x1001, arg0 := addr, arg1 := 0, ts := some s.nowI }

/-- A double-bit error in a Drover memory (R202): ECC_UNC and a detected fault. -/
def State.eccUncorrected (s : State) (d addr : Nat) : State :=
  (s.fon F.drvStat_ECC_UNC d).report
    { detected := true, cls := 0, source := srcOf 0x07 d, code := 0x2001, arg0 := addr, arg1 := 0, ts := some s.nowI }

/-- A wake (R190): TAG, WAKE, WTIME; the task is READY. -/
def Task.wakeWith (t : Task) (tag reason inputs : Nat) (w : Instant) : Task :=
  { t with st := .ready, wait := .none, tag := tag, wake := reason * 256 + inputs, wtime := w }

/-- The masked inputs that hold at least one event. -/
def Task.waking (t : Task) (mask : Nat) : List Nat :=
  (List.range 4).filter fun i => bit mask i && decide (0 < (t.iget i).count)

/-- The earliest FIFO head of some inputs (R190); none when every FIFO is empty. -/
def Task.earliest (t : Task) (is : List Nat) : Option Instant := (is.filterMap fun i => (t.iget i).fifo.head?).min?

/-- A wake by events (R189, R190): the largest tag held, the inputs, the earliest head, `fv` when there is none; Z := 0 (R233). `v` is
the task whose inputs are looked at. -/
def Task.wakeEvent (t v : Task) (is : List Nat) (fv : Instant) : Task :=
  let tag := (is.map fun i => (v.iget i).tag).foldl max 0
  let t1 := t.wakeWith tag 1 (is.foldl (fun a i => a + 2 ^ i) 0) ((v.earliest is).getD fv)
  { t1 with fl := { t1.fl with z := false } }

/-- The task with its inputs as they were before the groups of this tick. -/
def Task.unseen (t : Task) (now : Nat) : Task :=
  (List.range 4).foldl (fun x i => x.iput i (t.ibefore i now)) t

/-- The tick of the first group of some inputs. -/
def Task.firstTick (t : Task) (is : List Nat) : Nat := ((is.map fun i => (t.iget i).tick).min?).getD 0

/-- A wake by timeout (R233): READY from the tick after. -/
def Task.wakeTimeout (t : Task) (expiry : Instant) (now : Nat) : Task :=
  let t1 := t.wakeWith 0 3 0 expiry
  { t1 with fl := { t1.fl with z := true }, readyAt := now + 1 }

/-- The PC moves on after a completed instruction. -/
def Task.advance (t : Task) : Task := { t with pc := t.pc + 1 }

/-- An action's or a launch's result reaches its task (R185, R186, R231): ARES, the late policy, QSTALL, or the trap. `keep` is what
the task waits on while it re-offers. (DEDUCED, log entry 38; DEDUCED, log entry 42.) -/
def State.actionResult (s : State) (d k ch code : Nat) : State :=
  let t := s.getTask d k
  let awaits : Bool := match t.wait with
    | .action c => decide (c = ch)
    | .launch p _ _ _ => decide (p = ch)
    | _ => false
  if !awaits then s
  else
    let t1 := { t with ares := code + ch * 65536 }
    let go (x : Task) : Task := { x.advance with st := .busy, wait := .busy (s.tickNo + 1) { adv := false } }
    if code = 1 ∨ code = 2 then
      let t2 := { t1 with fl := { t1.fl with l := true } }
      if t2.lpol then (s.setTask d k t2).trapTask d k TrapCode.late t2.ares else s.setTask d k (go t2)
    else if code = 3 ∧ t1.qstall then
      let w := match t1.wait with
        | .launch p a x _ => .launch p a x s.tickNo
        | x => x
      s.setTask d k { t1 with st := .waitQueue, wait := w, readyAt := s.tickNo + 1 }
    else if 3 ≤ code then (s.setTask d k t1).trapTask d k TrapCode.action t1.ares
    else s.setTask d k (go t1)

/-- Why a start is refused (R204): SRES of the first failing condition, 0 when it succeeds. -/
def State.startCheck (s : State) (d k entry : Nat) : Nat :=
  let t := s.getTask d k
  let x := s.getDrv d
  if ¬ (t.st = .stopped ∨ t.st = .trapped) then 1
  else if x.progRes ≠ 2 then 2
  else if 1 < s.fget F.drvProg_LEVEL d then 3
  else if s.fget F.drvProg_LEN d ≤ entry then 4
  else if x.faulted then 5
  else 0

/-- Start a task from a control word laid out as DRV_TASK_CTL (R204, R215). -/
def State.startTask (s : State) (d k w : Nat) : State :=
  let entry := bits w 13 0
  let c := s.startCheck d k entry
  let t := s.getTask d k
  if c ≠ 0 then s.setTask d k { t with sres := c }
  else s.setTask d k
    { t with
      st := .ready, pc := entry, fl := {}, cstack := [], lstack := [], tag := 0, wake := 0, wtime := s.nowI
      lpol := bit w 16, qstall := bit w 17, inp := if bit w 18 then {} else t.inp, newIn := if bit w 18 then {} else t.newIn, wait := .none, readyAt := s.tickNo + 1, sres := 0 }

/-- Stop a task (R205): the action it has offered is abandoned with it. -/
def State.stopTask (s : State) (d k : Nat) : State :=
  let t := s.getTask d k
  if t.st = .stopped then s else (s.dropOffers d k).setTask d k { t with st := .stopped, wait := .none }

/-- Write a control word to a task: start, stop or, for both, neither (R205, R215). -/
def State.taskControl (s : State) (d k w : Nat) : State :=
  if bit w 31 ∧ bit w 30 then s.fon F.drvStat_WR_ERR d
  else if bit w 31 then s.startTask d k w
  else if bit w 30 then s.stopTask d k
  else s

/-- A Drover's state after a reset that keeps its memories (R207). -/
def Drover.resetKeep (x : Drover) : Drover := { imem := x.imem, dmem := x.dmem }

/-- The registers of one Drover's window return to reset values. -/
def State.resetDrvRegs (s : State) (d : Nat) : State :=
  { s with
    regs := s.regs.keep (fun k => !(k.r.info.blk == .drv && k.i == d))
    staging := s.staging.keep (fun k => !(k.key.r.info.blk == .drv && k.key.i == d)) }

/-- Reset of one Drover (R207). -/
def State.resetDrover (s : State) (d : Nat) : State :=
  let s1 := s.resetDrvRegs d
  s1.setDrv d (s1.getDrv d).resetKeep

/-- Reflected CRC-32C of one byte: eight shifts of the polynomial 0x82F63B78. -/
def crcShift : Nat → Nat → Nat
  | 0, c => c
  | n + 1, c => crcShift n (if c % 2 = 1 then c / 2 ^^^ 0x82F63B78 else c / 2)

/-- CRC-32C over bytes, from a running value. -/
def crcBytes (c : Nat) : List Nat → Nat
  | [] => c
  | b :: t => crcBytes (crcShift 8 (c ^^^ b)) t

/-- CRC-32C of a list of bytes; that of no bytes is 0 (R203). -/
def crc32c (bs : List Nat) : Nat := crcBytes 0xFFFFFFFF bs ^^^ 0xFFFFFFFF

/-- The bytes of instructions 0 to n - 1, each as four little-endian bytes (R203). -/
def Drover.progBytes (x : Drover) (n : Nat) : List Nat :=
  (List.range n).flatMap fun i =>
    let w := (x.word i).toNat
    [w % 256, w / 256 % 256, w / 65536 % 256, w / 16777216]

/-- Some task of the Drover is in a state other than STOPPED or TRAPPED. -/
def State.drvBusy (s : State) (d : Nat) : Bool :=
  (List.range 8).any fun k => !((s.getTask d k).st == .stopped || (s.getTask d k).st == .trapped)

end Sys2Proof.Machine
end

