-- ==== Sys2Proof/Machine/Flags.lean ====
section
/-! DEFINITION. The arithmetic of Barli and every flag computation (R181, R222 to R229). -/

namespace Sys2Proof.Machine

/-- Z and N of a 64-bit result (R222). -/
def TFlags.zn (f : TFlags) (r : W64) : TFlags := { f with z := r == 0, n := r.msb }

/-- A result with the flags after it. -/
structure AluOut where
  val : W64
  fl : TFlags
  deriving DecidableEq, Repr

/-- add: C is the carry out of bit 63 (R226). -/
def aluAdd (f : TFlags) (a b : W64) : AluOut :=
  let r := a + b
  ⟨r, { f.zn r with c := decide (2 ^ 64 ≤ a.toNat + b.toNat) }⟩

/-- sub: C is the borrow (R226). -/
def aluSub (f : TFlags) (a b : W64) : AluOut :=
  let r := a - b
  ⟨r, { f.zn r with c := decide (a.toNat < b.toNat) }⟩

/-- A saturated signed result: Z, N, sticky V (R42). -/
def aluSat (f : TFlags) (x : Int) : AluOut :=
  let q := satS64 x
  let r := BitVec.ofInt 64 q.1
  ⟨r, { f.zn r with v := f.v || q.2 }⟩

/-- adds, subs and neg (R226). -/
def aluAdds (f : TFlags) (a b : W64) : AluOut := aluSat f (a.toInt + b.toInt)
def aluSubs (f : TFlags) (a b : W64) : AluOut := aluSat f (a.toInt - b.toInt)
def aluNeg (f : TFlags) (a : W64) : AluOut := aluSat f (-a.toInt)

/-- The bitwise operations: Z and N (R226). -/
def aluBits (f : TFlags) (r : W64) : AluOut := ⟨r, f.zn r⟩

/-- cmp (R226): Z equal, N less as signed, C less as unsigned. -/
def fCmp (f : TFlags) (a b : W64) : TFlags :=
  { f with z := a == b, n := decide (a.toInt < b.toInt), c := decide (a.toNat < b.toNat) }

/-- A shift count above 64 is taken as 64 (R226). -/
def shCount (n : Nat) : Nat := min n 64

/-- shl (R226): C the last bit shifted out, V when a bit shifted out or the new bit 63 differs from the old bit 63. -/
def aluShl (f : TFlags) (a : W64) (n : Nat) : AluOut :=
  let m := shCount n
  let r := a <<< m
  let out := (List.range m).any fun i => a.getLsbD (63 - i) != a.msb
  ⟨r, { f.zn r with c := decide (0 < m) && a.getLsbD (64 - m), v := f.v || (out || r.msb != a.msb) }⟩

/-- The value of a register as signed or unsigned (R227). -/
def valOf (u : Bool) (a : W64) : Int := if u then (a.toNat : Int) else a.toInt

/-- Saturation to the signed range, or to 0 .. 2^64 - 1 for unsigned operation (R227). -/
def satTo (u : Bool) (x : Int) : Int × Bool :=
  if u then (if x < 0 then (0, true) else if x > 18446744073709551615 then (18446744073709551615, true) else (x, false))
  else satS64 x

/-- The exact quotient num / den, rounded and saturated (R46, R47, R227): X when it is not whole, V when clipped. -/
def aluRound (f : TFlags) (u : Bool) (rm : Rounding) (num : Int) (den : Nat) : AluOut :=
  let q := satTo u (roundDiv rm num den)
  let r := BitVec.ofInt 64 q.1
  ⟨r, { f.zn r with x := f.x || inexactDiv num den, v := f.v || q.2 }⟩

/-- mulq (R227). -/
def aluMulq (f : TFlags) (u : Bool) (rm : Rounding) (sh : Nat) (a b : W64) : AluOut :=
  aluRound f u rm (valOf u a * valOf u b) (2 ^ sh)

/-- divq with a divisor other than 0 (R227). -/
def aluDivq (f : TFlags) (u : Bool) (rm : Rounding) (sh : Nat) (a b : W64) : AluOut :=
  let d := valOf u b
  let n := valOf u a * 2 ^ sh
  if d < 0 then aluRound f u rm (-n) d.natAbs else aluRound f u rm n d.natAbs

/-- shr (R227): the result always fits, so V is not set. -/
def aluShr (f : TFlags) (lg : Bool) (rm : Rounding) (a : W64) (n : Nat) : AluOut :=
  let num := valOf lg a
  let r := BitVec.ofInt 64 (roundDiv rm num (2 ^ shCount n))
  ⟨r, { f.zn r with x := f.x || inexactDiv num (2 ^ shCount n) }⟩

/-- ldhi (R226): one 16-bit lane. -/
def ldhiVal (a : W64) (h : Nat) (imm : Nat) : W64 := BitVec.ofNat 64 (setBits a.toNat (16 * h + 15) (16 * h) imm)

/-- tsub (R40, R228): Z, N; sticky X, V. -/
def aluTsub (f : TFlags) (ta tb : Instant) : AluOut :=
  let q := spanBetween ta tb
  let r := BitVec.ofInt 64 q.val
  ⟨r, { f.zn r with x := f.x || q.x, v := f.v || q.v }⟩

/-- tcmp (R228): Z equal, N earlier, C := N. -/
def fTcmp (f : TFlags) (ta tb : Instant) : TFlags :=
  { f with z := decide (ta = tb), n := decide (ta < tb), c := decide (ta < tb) }

/-- The conditions of BC (R224). -/
def condHolds (f : TFlags) (c : Nat) : Bool :=
  match c with
  | 0 => true
  | 1 => f.z
  | 2 => !f.z
  | 3 => f.n
  | 4 => !f.n
  | 5 => !f.n && !f.z
  | 6 => f.n || f.z
  | 7 => f.c
  | 8 => !f.c
  | 9 => f.v
  | 10 => !f.v
  | 11 => f.x
  | 12 => !f.x
  | 13 => f.l
  | _ => !f.l

end Sys2Proof.Machine
end

