-- ==== Sys2Proof/Machine/BarliOps.lean ====
section
/-! DEFINITION. Issue of a Barli instruction, and the effects of the control, arithmetic, time and memory instructions (R182 to R184,
R195 to R202, R220 to R230). -/

namespace Sys2Proof.Machine

/-! ### Issue (R183, R199, R201, R202) -/

/-- A task may issue in this tick. -/
def State.ready (s : State) (d k : Nat) : Bool :=
  let t := s.getTask d k
  decide (t.st = .ready) && decide (t.readyAt ≤ s.tickNo)

/-- The task that issues in this tick: the first READY one upward, cyclically, from the task after the last that issued (R183). -/
def State.issuer (s : State) (d : Nat) : Option Nat :=
  let l := (s.getDrv d).last
  ((List.range 8).map fun j => (l + 1 + j) % 8).find? fun k => s.ready d k

/-- The Drover can issue in this tick: TB runs, the Drovers are not in reset, nothing has issued yet. -/
def State.mayIssue (s : State) (d : Nat) : Bool :=
  s.time.run && !s.fbit F.glbBlkRst_DRV && !decide ((s.getDrv d).issued = some s.tickNo)

/-- The instruction word at a task's PC, if the PC is below LEN (R195). -/
def State.fetchWord (s : State) (d k : Nat) : Option Word :=
  let pc := (s.getTask d k).pc
  if pc < s.fget F.drvProg_LEN d then some ((s.getDrv d).word pc) else none

/-- The issue itself: the round moves on and DRV_CNT_ISSUE counts (R183, R214). -/
def State.markIssue (s : State) (d k : Nat) : State :=
  (s.setDrv d { s.getDrv d with last := k, issued := some s.tickNo }).cnt64 .drvCntIssue 1 d

/-- Something leaves the Drover, to act at a later tick. -/
def State.sendOut (s : State) (d tick : Nat) (o : DrvOut) : State :=
  let x := s.getDrv d
  s.setDrv d { x with outs := x.outs ++ [(tick, o)] }

/-- A group has reached an input of the task and has yet to be applied to it. -/
def State.inputWaits (s : State) (d k : Nat) : Bool :=
  s.dw.inbox.any fun g => decide (g.due ≤ s.tickNo) && (List.range 4).any fun i => decide (g.x = Con.drvIn d k i)

/-- What an error met at the issue does around the instruction (R201, R202). (DEDUCED, log entry 43.) -/
def State.underEnv (s : State) (d k : Nat) (e : IssueEnv) (f : State → State) : State :=
  if e.lockstep then s.sendOut d (s.tickNo + 1) .mismatch
  else match e.ecc with
    | none => f s
    | some (true, a) => (s.eccUncorrected d a).trapTask d k TrapCode.ecc a
    | some (false, a) => f (s.eccCorrected d a)

/-- Task k of Drover d is the one that issues in this tick, its inputs hold what has reached them, its PC holds the word `w`. -/
def State.issues (s : State) (d k : Nat) (w : Word) : Bool :=
  s.mayIssue d && decide (s.issuer d = some k) && decide (s.fetchWord d k = some w) && !s.inputWaits d k

/-- Task k of Drover d issues the instruction that `w` spells, whose effect is `f`: nothing happens unless the task is the one that
issues in this tick and its PC holds that word. -/
def State.issue (s : State) (d k : Nat) (e : IssueEnv) (w : Word) (f : State → State) : State :=
  if s.issues d k w && legalWord w.toNat (s.getTask d k).pc then
    (s.markIssue d k).underEnv d k e f
  else s

/-- ILLEGAL (R221): an illegal word issues and traps. -/
def State.issueIllegal (s : State) (d k : Nat) (e : IssueEnv) (w : Word) : State :=
  if s.issues d k w && !legalWord w.toNat (s.getTask d k).pc then
    (s.markIssue d k).underEnv d k e fun st => st.trapTask d k TrapCode.illegal w.toNat
  else s

/-! ### Completion -/

/-- A task whose instruction took one tick: READY for the next (R184). -/
def Task.again (t : Task) (pc now : Nat) : Task := { t with pc := pc, readyAt := now + 1 }

/-- The task moves to an index, with what the instruction did to it; past LEN it traps instead (R195, R199). (DEDUCED, log entry 39.) -/
def State.goTo (s : State) (d k : Nat) (target : Nat) (t : Task) : State :=
  if target < s.fget F.drvProg_LEN d then s.setTask d k (t.again target s.tickNo)
  else s.trapTask d k TrapCode.imemRange target

/-- A one-tick instruction that changes its own task and goes on to the next index. -/
def State.taskDoes (s : State) (d k : Nat) (f : Task → Task) : State :=
  let t := s.getTask d k
  s.goTo d k (t.pc + 1) (f t)

/-- An instruction with an effect beyond its task's registers: `f` runs only when the next index is below LEN. -/
def State.inRange (s : State) (d k : Nat) (f : State → State) : State :=
  let pc := (s.getTask d k).pc + 1
  if pc < s.fget F.drvProg_LEN d then f s else s.trapTask d k TrapCode.imemRange pc

/-- Such an instruction of one tick: its effect, then the task is READY again at the next index. (DEDUCED, log entry 39.) -/
def State.thenNext (s : State) (d k : Nat) (f : State → State) : State :=
  s.inRange d k fun st =>
    let a := f st
    let t := a.getTask d k
    a.setTask d k (t.again (t.pc + 1) a.tickNo)

/-- A multi-tick instruction: BUSY until `ticks` after issue, then its result (R184). -/
def State.holdBusy (s : State) (d k ticks : Nat) (r : BusyRes) : State :=
  s.inRange d k fun st => st.setTask d k { st.getTask d k with st := .busy, wait := .busy (st.tickNo + ticks) r }

/-- The task waits; its PC stays until the wait ends. -/
def State.holdWait (s : State) (d k : Nat) (st : TaskSt) (w : Wait) : State := s.setTask d k { s.getTask d k with st := st, wait := w }

/-! ### Control and flow (R182, R223 to R225) -/

def State.bNop (s : State) (d k : Nat) : State := s.taskDoes d k id

/-- HALT: STOPPED with PC at the instruction after it (R205). (DEDUCED, log entry 39.) -/
def State.bHalt (s : State) (d k : Nat) : State :=
  let t := s.getTask d k
  s.setTask d k { t with st := .stopped, wait := .none, pc := (t.pc + 1) % 16384 }

/-- YIELD. -/
def State.bYield (s : State) (d k n : Nat) : State :=
  if n = 0 then s.bNop d k else s.inRange d k fun st => st.holdWait d k .waitTime (.yield (st.tickNo + n + 1))

def State.bTrap (s : State) (d k imm : Nat) : State := s.trapTask d k TrapCode.trap imm

def State.bJump (s : State) (d k target : Nat) : State := s.goTo d k target (s.getTask d k)

def State.bBc (s : State) (d k cond target : Nat) : State :=
  if condHolds (s.getTask d k).fl cond then s.bJump d k target else s.bNop d k

/-- CALL: the index after it goes onto the call stack of 16. -/
def State.bCall (s : State) (d k target : Nat) : State :=
  let t := s.getTask d k
  if 16 ≤ t.cstack.length then s.trapTask d k TrapCode.stack t.cstack.length
  else s.goTo d k target { t with cstack := (t.pc + 1) :: t.cstack }

def State.bRet (s : State) (d k : Nat) : State :=
  let t := s.getTask d k
  match t.cstack with
  | [] => s.trapTask d k TrapCode.stack 0
  | a :: r => s.goTo d k a { t with cstack := r }

/-- The count of a LOOP. -/
def Task.lpCount (t : Task) : LpSrc → Nat
  | .imm n => n.val
  | .reg aa => (t.aget aa.val).toNat % 2 ^ 32

def State.bLoop (s : State) (d k stop : Nat) (c : LpSrc) : State :=
  let t := s.getTask d k
  let n := t.lpCount c
  if n = 0 then s.goTo d k (stop + 1) t
  else if 4 ≤ t.lstack.length then s.trapTask d k TrapCode.loop t.lstack.length
  else s.goTo d k (t.pc + 1) { t with lstack := ⟨t.pc + 1, stop, n⟩ :: t.lstack }

def State.bEndl (s : State) (d k : Nat) : State :=
  let t := s.getTask d k
  match t.lstack with
  | [] => s.trapTask d k TrapCode.loop 0
  | l :: r =>
    if l.stop ≠ t.pc then s.trapTask d k TrapCode.loop t.lstack.length
    else if 1 < l.left then s.goTo d k l.start { t with lstack := { l with left := l.left - 1 } :: r }
    else s.goTo d k (t.pc + 1) { t with lstack := r }

def State.bEndlPop (s : State) (d k : Nat) : State :=
  let t := s.getTask d k
  match t.lstack with
  | [] => s.trapTask d k TrapCode.loop 0
  | _ :: r => s.goTo d k (t.pc + 1) { t with lstack := r }

/-! ### Integer and span arithmetic (R226, R227) -/

/-- The second operand. -/
def Task.bval (t : Task) : BSrc → W64
  | .reg ab => t.aget ab.val
  | .imm n => n.signExtend 64

/-- The count of a shift. -/
def Task.shval (t : Task) : ShSrc → Nat
  | .reg ab => (t.aget ab.val).toNat
  | .imm n => n.val

/-- A result into an A register, with its flags. -/
def Task.res (t : Task) (ad : Nat) (o : AluOut) : Task := { t.aput ad o.val with fl := o.fl }

/-- An integer instruction of one tick. -/
def State.bAlu (s : State) (d k ad aa : Nat) (b : BSrc) (f : TFlags → W64 → W64 → AluOut) : State :=
  s.taskDoes d k fun t => t.res ad (f t.fl (t.aget aa) (t.bval b))

def State.bCmp (s : State) (d k aa : Nat) (b : BSrc) : State :=
  s.taskDoes d k fun t => { t with fl := fCmp t.fl (t.aget aa) (t.bval b) }

def State.bMulq (s : State) (d k ad aa ab : Nat) (u : Bool) (rm : Rounding) (sh : Nat) : State :=
  let t := s.getTask d k
  let o := aluMulq t.fl u rm sh (t.aget aa) (t.aget ab)
  s.holdBusy d k 4 { areg := some (ad, o.val), flags := some o.fl }

def State.bDivq (s : State) (d k ad aa ab : Nat) (u : Bool) (rm : Rounding) (sh : Nat) : State :=
  let t := s.getTask d k
  if t.aget ab = 0 then s.trapTask d k TrapCode.div0 0
  else
    let o := aluDivq t.fl u rm sh (t.aget aa) (t.aget ab)
    s.holdBusy d k 34 { areg := some (ad, o.val), flags := some o.fl }

def State.bShl (s : State) (d k ad aa : Nat) (n : ShSrc) : State :=
  s.taskDoes d k fun t => t.res ad (aluShl t.fl (t.aget aa) (t.shval n))

def State.bShr (s : State) (d k ad aa : Nat) (n : ShSrc) (rm : Rounding) (lg : Bool) : State :=
  s.taskDoes d k fun t => t.res ad (aluShr t.fl lg rm (t.aget aa) (t.shval n))

def State.bLdi (s : State) (d k ad : Nat) (imm : BitVec 22) : State := s.taskDoes d k fun t => t.aput ad (imm.signExtend 64)

def State.bLdhi (s : State) (d k ad h : Nat) (imm : BitVec 16) : State :=
  s.taskDoes d k fun t => t.aput ad (ldhiVal (t.aget ad) h imm.toNat)

def State.bMov (s : State) (d k ad aa : Nat) : State := s.taskDoes d k fun t => t.aput ad (t.aget aa)

def State.bNeg (s : State) (d k ad aa : Nat) : State := s.taskDoes d k fun t => t.res ad (aluNeg t.fl (t.aget aa))

/-! ### Time (R228, R229) -/

/-- TADD and TADD.SUB (R41): V when the sum is held at an end of T96. -/
def State.bTadd (s : State) (d k td ta ab : Nat) (sub : Bool) : State :=
  s.taskDoes d k fun t =>
    let x := (t.aget ab).toInt
    let q := addSpan (t.tget ta) (if sub then -x else x)
    { t.tput td q.1 with fl := { t.fl with v := t.fl.v || q.2 } }

def State.bTsub (s : State) (d k ad ta tb : Nat) : State :=
  s.taskDoes d k fun t => t.res ad (aluTsub t.fl (t.tget ta) (t.tget tb))

def State.bTcmp (s : State) (d k ta tb : Nat) : State :=
  s.taskDoes d k fun t => { t with fl := fTcmp t.fl (t.tget ta) (t.tget tb) }

def State.bTnow (s : State) (d k td : Nat) : State := s.taskDoes d k fun t => t.tput td s.nowI

def State.bTmov (s : State) (d k td ta : Nat) : State := s.taskDoes d k fun t => t.tput td (t.tget ta)

def State.bTmovSec (s : State) (d k ad ta : Nat) : State :=
  s.taskDoes d k fun t => t.aput ad (BitVec.ofNat 64 (packT96 (t.tget ta) / 2 ^ 48))

def State.bTmovNsf (s : State) (d k ad ta : Nat) : State :=
  s.taskDoes d k fun t => t.aput ad (BitVec.ofNat 64 (packT96 (t.tget ta) % 2 ^ 48))

/-- The 96 bits TMOV.PACK forms. -/
def packBits (a b : W64) : Nat := a.toNat % 2 ^ 48 * 2 ^ 48 + b.toNat % 2 ^ 48

def State.tmovPut (s : State) (d k td : Nat) : Option Instant → State
  | none => s.trapTask d k TrapCode.noncanon 0xFFFFFFFF
  | some x => s.taskDoes d k fun t => t.tput td x

def State.bTmovPack (s : State) (d k td aa ab : Nat) : State :=
  s.tmovPut d k td (unpackT96 (packBits ((s.getTask d k).aget aa) ((s.getTask d k).aget ab)))

def State.bTmovZero (s : State) (d k td : Nat) : State := s.taskDoes d k fun t => t.tput td 0

/-! ### Memory (R196 to R198, R230) -/

/-- Byte address of an access: base register plus a signed offset, modulo 2^64. -/
def Task.ea (t : Task) (aa : Nat) (off : W64) : Nat := (t.aget aa + off).toNat

/-- A data memory access of `n` bytes at multiples of `m` is in order (R196). -/
def dmemOk (a n m : Nat) : Bool := decide (a % m = 0) && decide (a + n ≤ 32768)

/-- One 32-bit word of data memory. -/
def Drover.dword (x : Drover) (i : Nat) : Nat :=
  let v := (x.dmem.get 0 (i / 2)).toNat
  if i % 2 = 0 then v % 2 ^ 32 else v / 2 ^ 32

/-- Store one 32-bit word of data memory. -/
def Drover.dwordPut (x : Drover) (i v : Nat) : Drover :=
  let old := (x.dmem.get 0 (i / 2)).toNat
  { x with dmem := x.dmem.put id 0 (i / 2) (BitVec.ofNat 64 (if i % 2 = 0 then setBits old 31 0 v else setBits old 63 32 v)) }

/-- The T96 at a data address (R38, R196). -/
def Drover.tword (x : Drover) (a : Nat) : Nat := x.dword (a / 4) + x.dword (a / 4 + 1) * 2 ^ 32 + x.dword (a / 4 + 2) * 2 ^ 64

/-- Store 96 bits at a data address. -/
def Drover.twordPut (x : Drover) (a v : Nat) : Drover :=
  ((x.dwordPut (a / 4) v).dwordPut (a / 4 + 1) (v / 2 ^ 32)).dwordPut (a / 4 + 2) (v / 2 ^ 64)

def State.bLd (s : State) (d k ad aa : Nat) (off : W64) : State :=
  let a := (s.getTask d k).ea aa off
  if dmemOk a 8 8 then s.taskDoes d k fun t => t.aput ad ((s.getDrv d).dmem.get 0 (a / 8))
  else s.trapTask d k TrapCode.dmem a

def State.bSt (s : State) (d k ad aa : Nat) (off : W64) : State :=
  let t := s.getTask d k
  let a := t.ea aa off
  if dmemOk a 8 8 then
    s.thenNext d k fun st =>
      let x := st.getDrv d
      st.setDrv d { x with dmem := x.dmem.put id 0 (a / 8) (t.aget ad) }
  else s.trapTask d k TrapCode.dmem a

/-- DEDUCED, log entry 42. -/
def State.bTld (s : State) (d k td aa : Nat) (off : W64) : State :=
  let a := (s.getTask d k).ea aa off
  if dmemOk a 12 4 then
    match unpackT96 ((s.getDrv d).tword a) with
    | none => s.trapTask d k TrapCode.noncanon a
    | some x => s.taskDoes d k fun t => t.tput td x
  else s.trapTask d k TrapCode.dmem a

def State.bTst (s : State) (d k td aa : Nat) (off : W64) : State :=
  let t := s.getTask d k
  let a := t.ea aa off
  if dmemOk a 12 4 then s.thenNext d k fun st => st.setDrv d ((st.getDrv d).twordPut a (packT96 (t.tget td)))
  else s.trapTask d k TrapCode.dmem a

/-- DRAM address of a window offset (R197). -/
def windowAddr (d x : Nat) : Nat := 0x100000000 + d * 0x8000000 + x

/-- A window offset is in order: inside the window and a multiple of 8 (R197, R198). -/
def windowOk (x : Nat) : Bool := decide (x < 0x8000000) && decide (x % 8 = 0)

/-- LDX (R197): the data are those of the DRAM at the issue, so of every earlier STX and no later one. (DEDUCED, log entry 40.) -/
def State.bLdx (s : State) (d k ad aa : Nat) (off : W64) : State :=
  let a := (s.getTask d k).ea aa off
  if !windowOk a || s.dramUnavail then s.trapTask d k TrapCode.dram a
  else s.inRange d k fun st =>
    st.holdWait d k .waitMem (.ldx ad a st.tickNo (BitVec.ofNat 64 (st.dramRead (windowAddr d a) 8)))

def State.bStx (s : State) (d k ad aa : Nat) (off : W64) : State :=
  let t := s.getTask d k
  let a := t.ea aa off
  if !windowOk a then s.trapTask d k TrapCode.dram a
  else s.thenNext d k fun st =>
    if st.dramUnavail then (st.fon F.drvStat_DRAM_LOST d).cnt .drvCntDramLost d
    else st.dramWrite (windowAddr d a) (t.aget ad).toNat 8

/-- LDX_RETURN (R197, R198): data, or a trap for an uncorrectable error or DRAM that is unavailable. (DEDUCED, log entry 40.) -/
def State.ldxReturn (s : State) (d k : Nat) (bad : Bool) : State :=
  let t := s.getTask d k
  match t.st, t.wait with
  | .waitMem, .ldx ad a tick v =>
    if !s.time.run || s.fbit F.glbBlkRst_DRV || decide (s.tickNo ≤ tick) || decide (tick + 2000 < s.tickNo) then s
    else if s.dramUnavail then s.trapTask d k TrapCode.dram a
    else if bad then s.trapTask d k TrapCode.ecc a
    else s.setTask d k { (t.aput ad v).advance with st := .ready, wait := .none, readyAt := s.tickNo }
  | _, _ => s

/-- LDX_TIMEOUT (R198): no data 2 µs after issue. -/
def State.ldxTimeout (s : State) (d k : Nat) : State :=
  let t := s.getTask d k
  match t.st, t.wait with
  | .waitMem, .ldx _ a tick _ => if s.time.run && decide (tick + 2000 ≤ s.tickNo) then s.trapTask d k TrapCode.dram a else s
  | _, _ => s

end Sys2Proof.Machine
end

