-- ==== Sys2Proof/Machine/CalTab.lean ====
section
/-! DEFINITION. The calibration tables in force: placing, blending, tracking, pending changes and bin centres (R240 to R256). -/

namespace Sys2Proof.Machine

def State.getCalEo (s : State) (n : Nat) : CalEo := s.cal.eo.get {} n
def State.setCalEo (s : State) (n : Nat) (e : CalEo) : State := { s with cal := { s.cal with eo := s.cal.eo.put id {} n e } }
def State.getCalTiu (s : State) (u : Nat) : CalTiu := s.cal.tiu.get {} u
def State.setCalTiu (s : State) (u : Nat) (t : CalTiu) : State := { s with cal := { s.cal with tiu := s.cal.tiu.put id {} u t } }
def State.getCalReg (s : State) (r : Nat) : CalReg := s.cal.reg.get {} r
def State.setCalReg (s : State) (r : Nat) (x : CalReg) : State := { s with cal := { s.cal with reg := s.cal.reg.put id {} r x } }
def State.setCal (s : State) (c : Cal) : State := { s with cal := c }

/-- The fused nominal delay of an output, below 4 ns (R60). -/
def State.nominalTable (n : Nat) : TapTable := TapTable.nominal (Config.fusedDelay n % 2 ^ 26)

/-- The ball term of an output (R240). -/
def CalEo.ball (c : CalEo) (n : Nat) : Int := c.k.getD (Config.fusedBall n)

/-! ### Blending (R254) -/

/-- A value num/den of the way from one to the other, nearest even (R46). (DEDUCED, log entry 49.) -/
def mixInt (o n : Int) (num den : Nat) : Int := o + rne ((n - o) * num) den

/-- Mix two lists. -/
def mixList (o n : List Nat) (num den : Nat) : List Nat :=
  List.zipWith (fun (a b : Nat) => (mixInt (a : Int) (b : Int) num den).toNat) o n

/-- The blended table: delay, starts and steps lie between the two; the rest is the newer one's. -/
def mixTab (o n : EoTab) (num den : Nat) : EoTab :=
  { n with d := (mixInt (o.d : Int) (n.d : Int) num den).toNat, p := mixList o.p n.p num den, g := mixList o.g n.g num den }

/-- The share a_k of a blend as a fraction: min(1, k · CAL_SLEW / M). -/
def Blend.share (b : Blend) : Nat × Nat :=
  let num := b.k * b.slew * 2 ^ 32
  let den := 1000000 * b.m
  if den ≤ num then (1, 1) else (num, den)

/-- The table a blend places with now. -/
def Blend.now (b : Blend) : EoTab := mixTab b.old b.new b.share.1 b.share.2

/-- The largest change in delay between two tables, at tap starts and at code 1,023 of each tap, in 2^-32 ns. (DEDUCED, log entry 49.) -/
def blendM (o n : EoTab) : Nat :=
  (List.range 32).foldl (fun m i =>
    let dp : Int := ((n.d : Int) - o.d + ((n.p.getD i 0 : Nat) : Int) - ((o.p.getD i 0 : Nat) : Int)) * 256
    let dg : Int := (((n.g.getD i 0 : Nat) : Int) - ((o.g.getD i 0 : Nat) : Int)) * 1023
    max m (max dp.natAbs (dp + dg).natAbs)) 0

/-- The table of an output in force, blended if a blend is in progress; none while the nominal table holds. -/
def CalEo.inForce (c : CalEo) : Option EoTab :=
  match c.blend with
  | some b => some b.now
  | none => c.tab

/-- A table with a tracking term added to its delay. -/
def EoTab.tapTable (t : EoTab) (trk : Int) : TapTable := ⟨((t.d : Int) + trk).toNat, t.p, t.g⟩

/-- The tap table an output places with now (R60, R254). -/
def State.tableNow (s : State) (n : Nat) : TapTable :=
  let c := s.getCalEo n
  match c.inForce with
  | some t => t.tapTable c.trk
  | none => let t := State.nominalTable n; { t with d := ((t.d : Int) + c.trk).toNat }

/-! ### Regions and schedules (R250, R252) -/

/-- The region of a channel and of a unit (R250). -/
def regionOfEo (n : Nat) : Nat := n / 8
def regionOfTiu (u : Nat) : Nat := if u < 32 then 8 + u / 8 else (u - 32) / 8
def regionUnits (r : Nat) : List Nat := (List.range 8).map fun i => if r < 8 then 32 + 8 * r + i else 8 * (r - 8) + i
def regionChans (r : Nat) : List Nat := if r < 8 then (List.range 8).map fun i => 8 * r + i else []

/-- The sensor of a region, 16 bits of sQ8.8. -/
def State.regionTemp (s : State) (r : Nat) : Nat := s.fget F.monTemp_T r

/-- CAL may not run: DEG (R252) or limited mode (R265). -/
def State.calHalted (s : State) : Bool := s.deg || s.glb.limited

/-- Schedule a run of one unit or channel; requests that coincide merge (R250). -/
def State.addRun (s : State) (eo : Bool) (idx : Nat) (dither : Bool) : State :=
  if s.cal.runs.any fun r => decide (r.eo = eo ∧ r.idx = idx) then
    s.setCal { s.cal with runs := s.cal.runs.map fun r =>
      if r.eo = eo ∧ r.idx = idx then { r with dither := r.dither || dither } else r }
  else s.setCal { s.cal with runs := s.cal.runs ++ [{ eo := eo, idx := idx, sched := s.tickNo, dither := dither }] }

/-- A temperature run may take a unit or channel (R251). -/
def State.unitMay (s : State) (u : Nat) : Bool :=
  s.fbit F.calTiuPol_LIVE u || (s.fbit F.calTiuPol_RUN_EN u && s.fbit F.calCtl_RUN_EN)
def State.chanMay (s : State) (n : Nat) : Bool := s.fbit F.calEoPol_RUN_EN n && s.fbit F.calCtl_RUN_EN

/-- Schedule a run of a region: a code-density run of every unit, then a tap run of every channel of a powered bank. A run in progress
carries the request out: what it has finished with is not done again (R250). (DEDUCED, log entry 51.) -/
def State.scheduleRegion (s : State) (r : Nat) (temp dither : Bool) : State :=
  if s.glb.limited then s
  else
    let x := s.getCalReg r
    let left (eo : Bool) (i : Nat) : Bool := !(x.running && x.did.contains (eo, i))
    let s1 := (regionUnits r).foldl (fun st u => if left false u && (!temp || st.unitMay u) then st.addRun false u dither else st) s
    let s2 := (regionChans r).foldl
      (fun st n => if left true n && st.fbit F.eoBankCtl_PWR r && (!temp || st.chanMay n) then st.addRun true n false else st) s1
    if x.running then s2.setCalReg r { x with byTemp := x.byTemp && temp }
    else if s.deg then s2.setCalReg r { x with pending := true, byTemp := temp, rej := 0, did := [] }
    else s2.setCalReg r { x with pending := false, running := true, byTemp := temp, t0 := s.regionTemp r, rej := 0, did := [] }

/-- A bank powers up: a run of its region is scheduled (R67, R252). -/
def State.calBankUp (s : State) (b : Nat) : State := s.scheduleRegion b false false

/-! ### Bringing changes into force (R254, R255) -/

/-- A waiting change comes into force, with the ball term and the tracking term it brings. -/
def CalEo.adopt (c : CalEo) : CalEo :=
  match c.pend with
  | none => c
  | some t =>
    { c with
      tab := some t, pend := none, blend := none, pendApply := false, pendTrk := none, pendPin := none
      k := some t.k, pin := c.pendPin.getD c.pin, trk := c.pendTrk.getD c.trk, trkTarget := c.pendTrk.getD c.trkTarget }

/-- The delay D_n in force (R60). -/
def CalEo.delay (c : CalEo) (n : Nat) : Nat :=
  match c.inForce with
  | some t => t.d
  | none => (State.nominalTable n).d

/-- D_n + TRK_n stays below 4 ns (R60, R248): where the delay in force leaves less room, TRK_n is clamped, which shows in TRK_LIM and
schedules a run of the region. -/
def State.trkFit (s : State) (n : Nat) : State :=
  let c := s.getCalEo n
  let hi : Int := 2 ^ 26 - 1 - (c.delay n : Int)
  if c.trk ≤ hi ∧ c.trkTarget ≤ hi then s
  else
    ((s.setCalEo n { c with trk := min c.trk hi, trkTarget := min c.trkTarget hi }).fon F.calEoRes_TRK_LIM n).scheduleRegion
      (regionOfEo n) false false

/-- No transition is queued, in the filter or on its way, and the last launch lies 1 µs back (R255). -/
def State.eoIdle (s : State) (n : Nat) : Bool :=
  let e := s.getEo n
  !s.fbit F.eoCtl_EN n ||
    (e.queue.isEmpty && e.filter.isEmpty && e.committed.isEmpty &&
      (match e.lastTarget with
       | none => true
       | some t => decide (t + 1000 * lsbPerNs ≤ s.nowI)))

/-- A boundary of R255 lets a waiting change in for a transition with this target. -/
def State.boundary (s : State) (n : Nat) (target : Instant) : Bool :=
  let c := s.getCalEo n
  let idle := s.fbit F.calEoPol_B_IDLE n &&
    (match (s.getEo n).lastTarget with
     | none => true
     | some t => decide (t + 1000 * lsbPerNs ≤ target))
  let fl := s.fbit F.calEoPol_B_FLOCK n &&
    ((s.dw.flocks.get [⟨0, true⟩] (s.fget F.eoCtl_FLOCK n)).any fun ch => decide (c.pendAt < ch.at_ ∧ ch.at_ ≤ target))
  idle || fl || c.pendApply

/-- The most a tracking term moves in one transition, fine units (R248). (DEDUCED, log entry 49.) -/
def State.trkStep (s : State) : Int := ((s.fget F.calSlew_SLEW * 2 ^ 24 / 1000000 : Nat) : Int)

/-- Move a value toward another by at most a step. -/
def moveToward (x t step : Int) : Int := if x < t then min t (x + step) else max t (x - step)

/-- Counters of a commit: a waiting change enters at its boundary, a blend takes a step, or the tracking term moves (R248, R254,
R255). (DEDUCED, log entry 49.) -/
def State.calCommit (s : State) (n : Nat) (target : Instant) : State :=
  let c0 := s.getCalEo n
  let c1 := if c0.pend.isSome ∧ s.boundary n target then c0.adopt else c0
  let c2 := match c1.blend with
    | some b =>
      let b1 := { b with k := b.k + 1 }
      if b1.share.1 = b1.share.2 then { c1 with blend := none, tab := some b1.new } else { c1 with blend := some b1 }
    | none => if s.deg then c1 else { c1 with trk := moveToward c1.trk c1.trkTarget s.trkStep }
  (s.setCalEo n c2).trkFit n

/-- The table a transition is placed with, and the state after the commit. -/
def State.commitTable (s : State) (n : Nat) (target : Instant) : TapTable × State :=
  let s1 := s.calCommit n target
  (s1.tableNow n, s1)

/-- A change keeps the selection and the trim in force (R254). (DEDUCED, log entry 49.) -/
def continuous (o n : EoTab) : Bool := decide (o.mask = n.mask ∧ o.trim = n.trim)

/-- A table waits for a boundary as a discontinuous change, or enters at once where the channel is idle (R255); `force`: also on any
disabled channel (R261). -/
def State.pendTable (s : State) (n : Nat) (t : EoTab) (trk : Option Int) (pin : Option Bool) (force : Bool) : State :=
  let c := { s.getCalEo n with pend := some t, pendAt := s.nowI, pendApply := false, pendTrk := trk, pendPin := pin }
  if (force && !s.fbit F.eoCtl_EN n) || (s.fbit F.calEoPol_B_IDLE n && s.eoIdle n) then (s.setCalEo n c.adopt).trkFit n
  else s.setCalEo n c

/-- A run's table arrives for an output (R254, R255): it blends, waits, replaces the change that waits, or is merged into it. What a
continuous result of another selection than the waiting one brings is its delay. (DEDUCED, log entry 49.) -/
def State.newTable (s : State) (n : Nat) (t : EoTab) : State :=
  let c := s.getCalEo n
  match c.inForce, c.pend with
  | none, _ => s.pendTable n t none none false
  | some o, none =>
    if continuous o t && decide (s.fget F.calSlew_SLEW ≠ 0) then
      let m := blendM o t
      (s.setCalEo n { c with tab := some t, blend := if m = 0 then none else some ⟨o, t, 0, m, s.fget F.calSlew_SLEW⟩ }).trkFit n
    else s.pendTable n t none none false
  | some o, some p =>
    if continuous o t then
      s.setCalEo n { c with pend := some (if continuous p t then t else { p with d := t.d, k := t.k, at96 := t.at96, temp := t.temp }) }
    else s.pendTable n t none none false

/-- An idle channel, or one that is disabled, takes at once what waits for its idle gap (R255). -/
def State.idleTable (s : State) (n : Nat) : State :=
  let c := s.getCalEo n
  if c.pend.isSome && s.fbit F.calEoPol_B_IDLE n && s.eoIdle n then (s.setCalEo n c.adopt).trkFit n else s

/-! ### Holds (R251) -/

/-- Release the hold of a channel and its monitor (R251). -/
def State.calRelease (s : State) (n : Nat) : State :=
  if (s.getCalEo n).hold || (s.getTiu (32 + n)).calHeld then
    let s1 := s.setCalEo n { s.getCalEo n with hold := false }
    s1.setTiu (32 + n) { s1.getTiu (32 + n) with calHeld := false }
  else s

/-! ### Tracking (R248) -/

/-- 20 ps in fine units. -/
def trkMax : Int := 335544

/-- One VERIFIED error of a channel, in S64 LSB: after a block of 2^TRACK_AVG the target of TRK_n moves by the mean error. -/
def State.calTrack (s : State) (n : Nat) (e : Int) : State :=
  let c := s.getCalEo n
  if s.deg then s.setCalEo n { c with sum := 0, cnt := 0 }
  else if !(s.fbit F.calCtl_TRACK_EN && s.fbit F.calEoPol_TRACK_EN n && s.fbit F.eoCtl_EN n) then s
  else
    let size := 2 ^ s.fget F.calCtl_TRACK_AVG
    let sum := c.sum + e
    if c.cnt + 1 < size then s.setCalEo n { c with sum := sum, cnt := c.cnt + 1 }
    else
      let want := c.trkTarget + rne (sum * 256) (c.cnt + 1)
      let hi : Int := min trkMax (2 ^ 26 - 1 - (c.delay n : Int))
      let lim := max (-trkMax) (min hi want)
      let s1 := s.setCalEo n { c with sum := 0, cnt := 0, trkTarget := lim }
      if lim = want then s1 else (s1.fon F.calEoRes_TRK_LIM n).scheduleRegion (regionOfEo n) false false

/-! ### Bin centres (R109, R110, R243) -/

/-- The centre of a fine code, in fine units: from the widths in force, or nominal. -/
def State.tiuCentre (s : State) (u code : Nat) : Nat :=
  match (s.getCalTiu u).w with
  | none => (2 * code + 1) * 8192
  | some w => (rne ((2 * (w.take code).foldl (· + ·) 0 + w.getD code 0 : Nat) : Int) 2).toNat

end Sys2Proof.Machine
end

