-- ==== Sys2Proof/Machine/CalOps.lean ====
section
/-! DEFINITION. Calibration runs, their judging, commands, long operations and images (R242 to R269). -/

namespace Sys2Proof.Machine

namespace CalCode
def ok : Nat := 0x00
def busy : Nat := 0x01
def minHits : Nat := 0x02
def chi2 : Nat := 0x03
def slotStep : Nat := 0x04
def taps : Nat := 0x05
def span : Nat := 0x06
def reach : Nat := 0x07
def delay : Nat := 0x08
def load : Nat := 0x09
def starved : Nat := 0x0A
def aborted : Nat := 0x0B
def notIdle : Nat := 0x0C
def badArg : Nat := 0x0D
def imgFormat : Nat := 0x10
def imgDevice : Nat := 0x11
def imgCrc : Nat := 0x12
def imgValues : Nat := 0x13
def flash : Nat := 0x14
def unavail : Nat := 0x15
end CalCode

/-! ### Outcomes -/

/-- CAL_DONE is raised with tag 0 (R257). -/
def State.calDone (s : State) : State := s.raiseEv Prod.calDone s.nowI 0

/-- The result of a requester's latest command. -/
def State.getCalRes (s : State) (q : Requester) : CalRes := s.cal.res.get {} q.order
def State.setCalRes (s : State) (q : Requester) (r : CalRes) : State :=
  s.setCal { s.cal with res := s.cal.res.put id {} q.order r }

/-- A command ends: its requester sees the code unless a later command of its own has taken the register (R268). -/
def State.calAnswer (s : State) (q : Requester) (seq code : Nat) : State :=
  if (s.getCalRes q).seq = seq then s.setCalRes q ⟨seq, true, code⟩ else s

/-- Commands that waited for a run end with its code; CAL_DONE marks the end of each commanded run (R257). -/
def State.calWake (s : State) (w : CalWhat) (code : Nat) : State :=
  let hit := s.cal.waits.filter fun x => decide (x.what = w)
  let s1 := s.setCal { s.cal with waits := s.cal.waits.filter fun x => !decide (x.what = w) }
  hit.foldl (fun st x => (st.calAnswer x.q x.seq code).calDone) s1

/-- Progress of the long operation in the mailbox registers (R264). -/
def State.calProgress (s : State) (done total : Nat) : State :=
  ((s.fset F.mbPosDone_N done).fset F.mbPosTotal_N total).fset F.mbProgress_P (if total = 0 then 0 else done * 10000 / total)

/-- A run outcome enters the history (R258, R260). -/
def State.calHistory (s : State) (kind idx region code : Nat) : State :=
  let h := s.cal.hist ++ [⟨packT96 s.nowI, s.regionTemp region, kind, idx, code⟩]
  s.setCal { s.cal with hist := h.drop (h.length - 1024) }

/-- A rejection sets REJECT, enters the black box and is retried no sooner than 1 s later (R249). -/
def State.calReject (s : State) (eo : Bool) (idx code : Nat) (retry : Bool) : State :=
  let s1 := (s.fon F.calStat_REJECT).offerBbr { source := srcOf 0x08 idx, code := 0x0013, arg0 := idx, arg1 := code, ts := none }
  if retry then s1.setCal { s1.cal with retries := s1.cal.retries ++ [⟨eo, idx, s1.tickNo + 1000000000⟩] } else s1

/-- The run in progress of a unit or channel. -/
def State.calRun (s : State) (eo : Bool) (idx : Nat) : Option CalRun :=
  s.cal.runs.find? fun r => decide (r.eo = eo ∧ r.idx = idx)

def calRegion (eo : Bool) (idx : Nat) : Nat := if eo then regionOfEo idx else regionOfTiu idx

/-- A unit is released (R251). -/
def State.unitRelease (s : State) (u : Nat) : State :=
  if 32 ≤ u then s.calRelease (u - 32) else s.setTiu u { s.getTiu u with calHeld := false }

/-- A full calibration is running. -/
def State.calFull (s : State) : Bool := s.cal.long.any fun l => decide (l.op = CalOp.full)

/-- The units and channels the region runs have finished with. -/
def State.calDid (s : State) : Nat := (List.range 12).foldl (fun a r => a + (s.getCalReg r).did.length) 0

/-- A run of one unit or channel ends with a code; a full calibration counts the units and channels its regions have finished with. -/
def State.itemEnd (s : State) (eo : Bool) (idx code : Nat) : State :=
  let r := calRegion eo idx
  let s1 := if eo then (s.setCalEo idx { s.getCalEo idx with code := code }).calRelease idx
    else (s.setCalTiu idx { s.getCalTiu idx with code := code }).unitRelease idx
  let s2 := s1.setCal { s1.cal with runs := s1.cal.runs.filter fun x => !decide (x.eo = eo ∧ x.idx = idx) }
  let s3 := s2.calHistory (bnat eo) idx r code
  let x := s3.getCalReg r
  let s4 := s3.setCalReg r { x with
    rej := if x.rej = 0 then code else x.rej
    did := if x.running ∧ !x.did.contains (eo, idx) then (eo, idx) :: x.did else x.did }
  let s5 : State := s4.calWake (if eo then .chan idx else .unit idx) code
  if s5.calFull then s5.calProgress (max (s5.fget F.mbPosDone_N) s5.calDid) 160 else s5

/-! ### Judging (R249) -/

/-- Sum of a list. -/
def listSum (l : List Nat) : Nat := l.foldl (· + ·) 0

/-- The histogram of a run is complete: 1,024 bins, 2^log hits (R242). -/
def CalRun.complete (r : CalRun) : Bool := decide (r.h.length = 1024) && decide (listSum r.h = 2 ^ r.log)

/-- A hit enters the histogram of a run, which takes CD_LOG with its first (R242). -/
def CalRun.hit (r : CalRun) (log code : Nat) : CalRun :=
  let r1 := if r.h.isEmpty then { r with h := List.replicate 1024 0, log := log } else r
  if r1.complete then r1 else { r1 with h := r1.h.set code (r1.h.getD code 0 + 1) }

/-- Change the run in progress of a unit. -/
def State.onRun (s : State) (u : Nat) (f : CalRun → CalRun) : State :=
  s.setCal { s.cal with runs := s.cal.runs.map fun r => if r.eo = false ∧ r.idx = u then f r else r }

/-- The run of a unit takes its hits from the dither source. -/
def State.onDither (s : State) (u : Nat) : Bool :=
  match s.calRun false u with
  | none => false
  | some r => r.dither || !s.fbit F.calTiuPol_LIVE u

/-- A hit of a unit's own input: a run in LIVE mode collects it (R242). -/
def State.calLiveHit (s : State) (u code : Nat) : State :=
  if (s.calRun false u).isSome && !s.onDither u && !s.calHalted then s.onRun u (·.hit (s.fget F.calCd_CD_LOG) code) else s

/-- A hit of the dither source: a held unit's run collects it once its trims are set (R242, R244). -/
def State.calDitherHit (s : State) (u code : Nat) : State :=
  if s.onDither u && (s.getTiu u).calHeld && (s.calRun false u).any (·.trim.isSome) && !s.calHalted && decide (code < 1024) then
    s.onRun u (·.hit (s.fget F.calCd_CD_LOG) code)
  else s

/-- The trim whose mean vernier step lies nearest 2^-10 ns, the lowest among equals: `l` has the step at each trim from 0, in 2^-34 ns,
and `best` and `trim` the best so far (R244). (DEDUCED, log entry 49.) -/
def bestTrim : Nat → Nat × Nat → List Nat → Nat
  | _, b, [] => b.2
  | i, b, x :: t =>
    let d := ((x : Int) - 2 ^ 24).natAbs
    bestTrim (i + 1) (if d < b.1 then (d, i) else b) t

/-- The trims of the four cores, by the mean steps of each core over 2^16 dither hits (R244); a core without steps keeps `cur`. -/
def chooseTrims (cur : Nat) (steps : List (List Nat)) : Nat :=
  (List.range 4).foldl (fun a i =>
    let old := bits cur (6 * i + 5) (6 * i)
    let l := (steps.getD i []).take 64
    setBits a (6 * i + 5) (6 * i) (if l.isEmpty then old else bestTrim 0 (((l.getD 0 0 : Nat) - (2 ^ 24 : Int)).natAbs + 1, 0) l)) 0

/-- Before it collects a histogram from the dither source, a run sets the trims of the cores (R244). -/
def State.calTrims (s : State) (u : Nat) (steps : List (List Nat)) : State :=
  if s.onDither u && (s.calRun false u).any (·.trim.isNone) then
    s.onRun u fun r => { r with trim := some (chooseTrims (s.getCalTiu u).vtrim steps), h := [] }
  else s

/-- A unit's trims change: a histogram in progress starts over (R244). -/
def State.calTrimChange (s : State) (u vtrim : Nat) : State :=
  if (s.getCalTiu u).vtrim = vtrim then s else s.onRun u fun r => { r with trim := none, h := [] }

/-- Partial results are discarded (R250, R252). -/
def State.calDiscard (s : State) (p : Bool → Nat → Bool) : State :=
  s.setCal { s.cal with runs := s.cal.runs.map fun r => if p r.eo r.idx then { r with trim := none, h := [] } else r }

/-- The widths a histogram of 2^log hits gives (R242). -/
def widthsOf (h : List Nat) (log : Nat) : List Nat := h.map fun c => c * 2 ^ (24 - log)

/-- The 32 codes of a slot. -/
def slotSum (w : List Nat) (i : Nat) : Nat := ((w.drop (32 * i)).take 32).foldl (· + ·) 0

/-- Every slot's mean vernier step lies in 0.7 to 1.3 ps and every width fits 16 bits. -/
def slotsOk (w : List Nat) : Bool :=
  w.all (fun x => decide (x ≤ 65535)) &&
  (List.range 32).all fun i =>
    decide (7 * 32 * 2 ^ 24 ≤ slotSum w i * 10000) && decide (slotSum w i * 10000 ≤ 13 * 32 * 2 ^ 24)

/-- χ² of a histogram against the widths in force, as an exact fraction. -/
def chiFrac (log : Nat) : List Nat → List Nat → Nat × Nat
  | h :: hs, w :: ws =>
    let r := chiFrac log hs ws
    let e := w * 2 ^ log
    let d := ((h * 2 ^ 24 : Nat) : Int) - e
    let num := (d * d).toNat
    let den := e * 2 ^ 24
    if den = 0 then r else (r.1 * den + num * r.2, r.2 * den)
  | _, _ => (0, 1)

/-- The nominal widths. -/
def nominalWidths : List Nat := List.replicate 1024 16384

/-- Judge a code-density histogram of 2^log hits: the code and χ² in uQ24.8. -/
def State.judgeCd (s : State) (u : Nat) (h : List Nat) (log : Nat) : Nat × Nat :=
  let x := chiFrac log h ((s.getCalTiu u).w.getD nominalWidths)
  let c := min ((rne ((x.1 * 256 : Nat) : Int) x.2).toNat) 0xFFFFFFFF
  if h.any (fun n => decide (n < 64)) then (CalCode.minHits, c)
  else if s.fget F.calCd_CHI2_MAX * x.2 < x.1 then (CalCode.chi2, c)
  else if slotsOk (widthsOf h log) then (CalCode.ok, c) else (CalCode.slotStep, c)

/-- The values in force no longer come from one full calibration unless one is running (R259). -/
def State.calNotFull (s : State) : State := if s.calFull then s else s.setCal { s.cal with fullImg := false }

/-- CD_RUN_DONE: a unit's histogram is complete (R242 to R244, R249, R256). The command names the histogram `h` and the trims `vtrim` it ends
with, which are those the run has gathered and chosen; with others it is no such event. (DESIGN CHOICE, log entry 2.) -/
def State.cdDone (s : State) (u : Nat) (h : List Nat) (vtrim : Nat) : State :=
  match s.calRun false u with
  | none => s
  | some r =>
    let c := s.getCalTiu u
    if s.calHalted || !r.complete || decide (r.h ≠ h) || decide (r.trim.getD c.vtrim ≠ vtrim) then s
    else
      let j := s.judgeCd u h r.log
      let s1 := if j.1 = 0 then
          (s.setCalTiu u { c with
            w := some (widthsOf h r.log), vtrim := vtrim, cdLog := r.log, chi2 := j.2 }).calNotFull
        else (s.setCalTiu u { c with cdLog := r.log, chi2 := j.2 }).calReject false u j.1 true
      s1.itemEnd false u j.1

/-- 20 ps and 45 ps in hundredths of a fine unit. -/
def elemOk (w : Nat) : Bool := decide (20 * 2 ^ 24 ≤ w * 1000) && decide (w * 1000 ≤ 45 * 2 ^ 24)

/-- Distance of a width from 31.25 ps. -/
def elemDist (w : Nat) : Nat := ((w : Int) - 524288).natAbs

/-- The element selection of R245: the 32 acceptable widths nearest 31.25 ps, the lower element first among equals. (DEDUCED, log entry 49.) -/
def selectElems (w : List Nat) : List Nat :=
  let ok := (List.range 40).filter fun e => elemOk (w.getD e 0)
  let rank (e : Nat) : Nat := (ok.filter fun f =>
    decide (elemDist (w.getD f 0) < elemDist (w.getD e 0)) ||
    (decide (elemDist (w.getD f 0) = elemDist (w.getD e 0)) && decide (f < e))).length
  ok.filter fun e => decide (rank e < 32)

/-- The running sums before each element of a list. -/
def sumsBefore (acc : Nat) : List Nat → List Nat
  | [] => []
  | x :: t => acc :: sumsBefore (acc + x) t

/-- A set of elements as bits. -/
def maskOf (l : List Nat) : Nat := l.foldl (fun a e => a + 2 ^ e) 0

/-- The selection of a tap run and the widths it rests on (R245): a selection that differs from the one in force is set, and measured and
selected once more. (DEDUCED, log entry 49.) -/
def tapSelect (now : Option Nat) (m : TapMeas) : List Nat × List Nat :=
  let a := selectElems m.widths
  if a.length < 32 ∨ now = some (maskOf a) then (a, m.widths) else (selectElems m.again, m.again)

/-- The table a tap run forms from a selection and the vernier differences at a trim (R245). -/
def State.tapTab (s : State) (n : Nat) (sel widths : List Nat) (replica trim : Nat) (vern : List Nat) : EoTab :=
  let ws := sel.map fun e => widths.getD e 0
  let span := listSum ws
  { d := ((replica : Int) + (s.getCalEo n).ball n).toNat
    k := (s.getCalEo n).ball n
    mask := maskOf sel
    trim := trim
    at96 := packT96 s.nowI
    temp := s.regionTemp (regionOfEo n)
    res := 0
    p := (sumsBefore 0 ws).map fun x => (rne ((x * 2 ^ 24 : Nat) : Int) span).toNat
    g := vern.map fun v => (rne ((v * 2 ^ 32 : Nat) : Int) (1023 * span)).toNat
    w := widths }

/-- The reach rule of R60, and steps no greater than 171,798. -/
def EoTab.reachOk (t : EoTab) : Bool :=
  let x := t.tapTable 0
  (List.range 32).all fun i => decide ((x.start (i + 1) - x.start i) * 256 * 2 < 2047 * t.g.getD i 0)
def EoTab.stepsOk (t : EoTab) : Bool := t.g.all fun x => decide (x ≤ 171798)

/-- The trim rises by one unit until the table reaches, up to 63 (R245 step 6): none while the differences at the next trim are still to
be taken. -/
def tapReach (mk : Nat → List Nat → EoTab) : Nat → List (List Nat) → Option EoTab
  | _, [] => none
  | trim, v :: rest =>
    let t := mk trim v
    if t.reachOk || decide (63 ≤ trim) then some t else tapReach mk (trim + 1) rest

/-- Judge a tap run (R245, R249): its table and code, none while it is not complete. -/
def State.judgeTap (s : State) (n : Nat) (m : TapMeas) : Option (EoTab × Nat) :=
  let c := (s.getCalEo n).inForce
  let x := tapSelect (c.map EoTab.mask) m
  let trim := (c.map EoTab.trim).getD 0
  let span := listSum (x.1.map fun e => x.2.getD e 0)
  let mk := s.tapTab n x.1 x.2 m.replica
  if x.1.length < 32 then some (mk trim [], CalCode.taps)
  else if span * 1000 < 990 * 2 ^ 24 ∨ 1010 * 2 ^ 24 < span * 1000 then some (mk trim [], CalCode.span)
  else (tapReach mk trim m.vern).map fun t =>
    (t, if !t.reachOk || !t.stepsOk then CalCode.reach else if 2 ^ 26 ≤ t.d then CalCode.delay else CalCode.ok)

/-- The bank of a channel is powered. -/
def State.calBankOn (s : State) (n : Nat) : Bool := s.fbit F.eoBankCtl_PWR (n / 8)

/-- A code-density run must come before the tap run of a channel: any of its region while that runs (R250), else its monitor's own
(R245). -/
def State.cdFirst (s : State) (n : Nat) : Bool :=
  if (s.getCalReg (regionOfEo n)).running then (regionUnits (regionOfEo n)).any fun u => (s.calRun false u).isSome
  else (s.calRun false (32 + n)).isSome

/-- TAP_RUN_DONE (R245, R249, R254, R255): the channel and its monitor are held. -/
def State.tapDone (s : State) (n : Nat) (m : TapMeas) : State :=
  if (s.calRun true n).isNone || s.calHalted || s.cdFirst n || !s.calBankOn n || !(s.getCalEo n).hold then s
  else match s.judgeTap n m with
    | none => s
    | some (t, code) => (if code = 0 then (s.newTable n t).calNotFull else s.calReject true n code true).itemEnd true n code

/-- Word `i` of a table (R269). -/
def EoTab.word (t : EoTab) (trk : Int) (i : Nat) : Nat :=
  if i = 0 then t.d
  else if i = 1 then bitsOf 32 t.k
  else if i = 2 then bitsOf 32 trk
  else if i = 3 then t.mask % 2 ^ 32
  else if i = 4 then t.mask / 2 ^ 32 % 256
  else if i = 5 then t.trim
  else if i = 6 then t.at96 % 2 ^ 32
  else if i = 7 then t.at96 / 2 ^ 32 % 2 ^ 32
  else if i = 8 then t.at96 / 2 ^ 64 % 2 ^ 32
  else if i = 9 then t.temp + t.res * 2 ^ 16
  else if 16 ≤ i ∧ i < 48 then t.p.getD (i - 16) 0
  else if 48 ≤ i ∧ i < 80 then t.g.getD (i - 48) 0
  else if 80 ≤ i ∧ i < 120 then t.w.getD (i - 80) 0
  else 0

/-- Word `i` of the in-force half of CAL_EO_TAB(n): 0 while no table is in force. -/
def State.eoTabWord (s : State) (n i : Nat) : Nat :=
  let c := s.getCalEo n
  match c.inForce with
  | some t => t.word c.trk i
  | none => 0

/-- Word `i` of the in-force half of CAL_TIU_TAB(u). -/
def State.tiuTabWord (s : State) (u i : Nat) : Nat :=
  match (s.getCalTiu u).w with
  | some w => w.getD (2 * i) 0 + w.getD (2 * i + 1) 0 * 2 ^ 16
  | none => 0

/-- Bytes of an image. -/
def imgLen : Nat := 268548

/-! ### Images (R258 to R263) -/

/-- Little-endian bytes. -/
def leBytes : Nat → Nat → List Nat
  | 0, _ => []
  | n + 1, v => v % 256 :: leBytes n (v / 256)

/-- Mean of the twelve sensors. -/
def State.meanTemp (s : State) : Nat :=
  bitsOf 16 (rne ((List.range 12).foldl (fun a r => a + signedOf 16 (s.regionTemp r)) 0) 12)

/-- The header (R259). -/
def State.imgHeader (s : State) (seq : Nat) : List Nat :=
  [0x45, 0x43, 0x41, 0x4C] ++ leBytes 2 1 ++ leBytes 2 0x20 ++ leBytes 8 Config.serialHash ++ leBytes 4 seq ++
  leBytes 4 imgLen ++ leBytes 12 (packT96 s.nowI) ++ leBytes 2 s.meanTemp ++
  leBytes 2 (bnat s.cal.fullImg + 2 * bnat ((List.range 64).all fun n => (s.getCalEo n).pin)) ++ leBytes 24 0

/-- The entry of a unit (R260). -/
def State.imgTiu (s : State) (u : Nat) : List Nat :=
  let c := s.getCalTiu u
  leBytes 4 (s.fget F.tiuOfs_OFS u) ++ leBytes 4 (bitsOf 32 (c.ofs25.getD (Config.fusedOfs25 u))) ++
  leBytes 4 (bitsOf 32 (c.tc.getD (Config.fusedTc u))) ++
  (List.range 4).flatMap (fun i => [c.vtrim / 2 ^ (6 * i) % 64]) ++
  [c.code, c.cdLog, 0, 0] ++ leBytes 4 c.chi2 ++ leBytes 40 0

/-- The image of the values in force, less its CRC (R258). -/
def State.imgBody (s : State) (seq : Nat) : List Nat :=
  s.imgHeader seq ++
  (List.range 12).flatMap (fun r => let x := s.getCalReg r; leBytes 2 x.tcap ++ leBytes 12 x.at96 ++ leBytes 2 0) ++
  (List.range 96).flatMap (fun u => s.imgTiu u) ++
  (List.range 96).flatMap (fun u => (List.range 512).flatMap fun i => leBytes 4 (s.tiuTabWord u i)) ++
  (List.range 64).flatMap (fun n => (List.range 128).flatMap fun i => leBytes 4 (s.eoTabWord n i)) ++
  (List.range 1024).flatMap (fun i => match s.cal.hist[i]? with
    | some h => leBytes 12 h.at96 ++ leBytes 2 h.temp ++ [h.kind, h.idx, h.code] ++ leBytes 15 0
    | none => leBytes 32 0)

/-- The whole image. -/
def State.image (s : State) (seq : Nat) : List Nat :=
  let b := s.imgBody seq
  b ++ leBytes 4 (crc32c b)

def toBytes (l : List Nat) : List Byte := l.map fun x => BitVec.ofNat 8 x

/-- Little-endian number of `n` bytes at an offset. -/
def leAt (b : List Nat) (off n : Nat) : Nat := ((b.drop off).take n).foldr (fun x a => x + 256 * a) 0

/-- The checks of the header and the CRC (R261, R263). -/
def imgFormatOk (b : List Nat) : Bool :=
  decide (leAt b 0 4 = 0x4C414345) && decide (leAt b 4 2 = 1) && decide (leAt b 20 4 = imgLen)
def imgDeviceOk (b : List Nat) : Bool := decide (leAt b 8 8 = Config.serialHash % 2 ^ 64)
def imgCrcOk (b : List Nat) : Bool := decide (leAt b 0x41900 4 = crc32c (b.take 0x41900))

/-- The DRAM address of the image. -/
def State.imgAddr (s : State) : Nat := s.fget F.calImgAddr_PAGE * 4096

/-! ### Flash slots (R262, R263) -/

/-- Unwritten flash reads 0xFF. (DESIGN CHOICE, log entry 81.) -/
def flashUnl : Byte := 0xFF#8

def State.flashRead (s : State) (a n : Nat) : Nat := memReadLE flashUnl s.flash a n
def State.flashBytes (s : State) (a n : Nat) : List Nat := (memReadBytes flashUnl s.flash a n).map BitVec.toNat

/-- Erase a range of flash. -/
def State.flashErase (s : State) (a n : Nat) : State := { s with flash := s.flash.filter fun c => decide (c.1 < a ∨ a + n ≤ c.1) }
def State.flashWrite (s : State) (a : Nat) (b : List Nat) : State := { s with flash := memWriteBytes flashUnl s.flash a (toBytes b) }

/-- The flash address of a calibration slot (R262). -/
def calSlotAddr (b : Bool) : Nat := if b then 0x03080000 else 0x03000000

/-- The checks of R263 on a slot; the sequence number of its image. -/
def State.slotSeq (s : State) (b : Bool) : Option Nat :=
  let a := calSlotAddr b
  let r := a + 0x7FFF0
  let img := s.flashBytes a imgLen
  if decide (s.flashRead r 4 = 0x6C5AA5C6) && decide (s.flashRead (r + 4) 4 = leAt img 16 4) &&
      decide (s.flashRead (r + 8) 4 = leAt img 20 4) && decide (s.flashRead (r + 12) 4 = leAt img 0x41900 4) &&
      imgCrcOk img && decide (leAt img 0 4 = 0x4C414345) && decide (leAt img 4 2 = 1) && imgDeviceOk img then
    some (leAt img 16 4)
  else none

/-- The valid slot with the higher sequence number, slot A when equal: whether it is B, and its number. -/
def State.bestSlot (s : State) : Option (Bool × Nat) :=
  match s.slotSeq false, s.slotSeq true with
  | none, none => none
  | some a, none => some (false, a)
  | none, some b => some (true, b)
  | some a, some b => if a < b then some (true, b) else some (false, a)

/-- The slot a SAVE writes, whether it is B, and its sequence number (R262). -/
def State.saveSlot (s : State) : Bool × Nat :=
  match s.bestSlot with
  | some (b, n) => (!b, (n + 1) % 2 ^ 32)
  | none => (false, 1)

/-! ### Region runs (R247, R250 to R252) -/

/-- TIU_OFS of every unit of a region at a temperature (R247). -/
def State.ofsUpdate (s : State) (r temp : Nat) : State :=
  (regionUnits r).foldl (fun st u =>
    let c := st.getCalTiu u
    let o := c.ofs25.getD (Config.fusedOfs25 u) + rne (c.tc.getD (Config.fusedTc u) * (signedOf 16 temp - 25 * 256)) 1000000
    st.fset F.tiuOfs_OFS (bitsOf 32 o) u) s

/-- No run is left in a region. -/
def State.regionIdle (s : State) (r : Nat) : Bool := s.cal.runs.all fun x => !decide (calRegion x.eo x.idx = r)

/-- Start a long operation: what EXPORT and SAVE write is the image of the values in force now. (DEDUCED, log entry 51.) -/
def State.longStart (s : State) (op : CalOp) (by_ : Option (Requester × Nat)) (total : Nat) : State :=
  let w : List Nat × Nat := match op with
    | .save => (s.image s.saveSlot.2, calSlotAddr s.saveSlot.1)
    | .exportImg => (s.image s.cal.seq, s.imgAddr)
    | _ => ([], 0)
  ((s.setCal { s.cal with long := some { op := op, by_ := by_, since := s.tickNo, img := w.1, base := w.2 } }).fset F.mbLong_SRC 2).calProgress
    0 total

/-- A long operation ends with a code (R257, R264); AUTOSAVE follows an accepted full calibration or pin run (R262). -/
def State.longEnd (s : State) (code : Nat) : State :=
  match s.cal.long with
  | none => s
  | some l =>
    let s1 := (s.setCal { s.cal with long := none }).fset F.mbLong_SRC 0
    let s2 := if code = 0 then (s1.fset F.mbPosDone_N (s1.fget F.mbPosTotal_N)).fset F.mbProgress_P 10000 else s1
    let s3 := match l.by_ with
      | some w => s2.calAnswer w.1 w.2 code
      | none => s2
    let s4 := s3.calDone
    let saves := match l.op with
      | CalOp.full => true
      | CalOp.pin _ => true
      | _ => false
    if decide (code = 0) && saves && s4.fbit F.calCtl_AUTOSAVE then s4.longStart CalOp.save none imgLen else s4

/-- A full calibration ends when no region is left (R253). -/
def State.fullCheck (s : State) : State :=
  match s.cal.long with
  | some l =>
    if l.op = CalOp.full ∧ (List.range 12).all (fun r => !(s.getCalReg r).running && !(s.getCalReg r).pending) then
      let s1 := (s.setCal { s.cal with fullImg := decide (l.rej = 0) }).fon F.calStat_FULL_DONE
      s1.longEnd l.rej
    else s
  | none => s

/-- A region run is over: its code goes to whoever asked, and a full calibration remembers the first failure. -/
def State.regionEnd (s : State) (r code : Nat) : State :=
  let s1 := s.setCalReg r { s.getCalReg r with running := false, pending := false, rej := 0 }
  let s2 := match s1.cal.long with
    | some l => if l.op = CalOp.full ∧ l.rej = 0 then s1.setCal { s1.cal with long := some { l with rej := code } } else s1
    | none => s1
  ((s2.calDone).calWake (.region r) code).fullCheck

/-- REGION_RUN_DONE (R247, R250, R257). -/
def State.regionDone (s : State) (r : Nat) : State :=
  let x := s.getCalReg r
  if x.running ∧ s.regionIdle r ∧ !s.calHalted then
    let s1 := s.ofsUpdate r x.t0
    let s2 := if x.rej = 0 then s1.setCalReg r { x with tcap := x.t0, at96 := packT96 s.nowI } else s1
    s2.regionEnd r x.rej
  else s

/-- 60 s in ticks. -/
def starveTicks : Nat := 60000000000

/-- A run of one unit or channel starves (R252); a region run whose last this was ends with the offsets updated (R247). -/
def State.itemStarved (s : State) (eo : Bool) (idx : Nat) : State :=
  let s1 := (s.itemEnd eo idx CalCode.starved).fon F.calStat_STARVED
  let s2 := s1.setCal { s1.cal with retries := s1.cal.retries ++ [⟨eo, idx, s1.tickNo⟩] }
  let r := calRegion eo idx
  if s2.regionIdle r ∧ (s2.getCalReg r).running then
    (s2.ofsUpdate r (s2.getCalReg r).t0).regionEnd r (s2.getCalReg r).rej
  else s2

/-- A pin run starves (R252). -/
def State.pinStarved (s : State) (n : Nat) : State :=
  (((s.setCalEo n { s.getCalEo n with code := CalCode.starved }).calHistory 2 n (regionOfEo n) CalCode.starved).fon
    F.calStat_STARVED).longEnd CalCode.starved

/-- CAL_RUN_STARVED (R252). -/
def State.runStarved (s : State) (eo : Bool) (idx : Nat) : State :=
  match s.calRun eo idx with
  | some run => if s.tickNo < run.sched + starveTicks then s else s.itemStarved eo idx
  | none =>
    match s.cal.long with
    | some l => if eo ∧ l.op = .pin idx ∧ l.since + starveTicks ≤ s.tickNo then s.pinStarved idx else s
    | none => s

/-- A region's sensor lies more than CAL_DT from a temperature. -/
def State.tempMoved (s : State) (r ref : Nat) : Bool :=
  decide ((s.fget F.calDt_DT * 16 : Nat) < (signedOf 16 (s.regionTemp r) - signedOf 16 ref).natAbs)

/-- A run of the region was rejected less than 1 s ago (R249). -/
def State.calWaits (s : State) (r : Nat) : Bool :=
  s.cal.retries.any fun x => decide (calRegion x.eo x.idx = r) && decide (s.tickNo < x.notBefore)

/-- One region at the temperature evaluation (R249, R250): a run whose temperature has moved restarts without its partial results, within a
full calibration from the dither source (R253). -/
def State.tempEvalOne (s : State) (r : Nat) : State :=
  let x := s.getCalReg r
  if x.running then
    if s.tempMoved r x.t0 then
      ((s.setCalReg r { x with running := false }).calDiscard fun eo i => decide (calRegion eo i = r)).scheduleRegion r x.byTemp s.calFull
    else s
  else if x.pending ∧ !s.deg then s.setCalReg r { x with pending := false, running := true, t0 := s.regionTemp r }
  else if s.fbit F.calCtl_TEMP_EN ∧ s.tempMoved r x.tcap ∧ !s.calWaits r then s.scheduleRegion r true false
  else s

/-- CAL_TEMP_EVAL: every region, then the runs to be retried (R249, R250, R252). -/
def State.tempEval (s : State) : State :=
  if s.glb.limited then s
  else
    let s1 := (List.range 12).foldl (fun st r => st.tempEvalOne r) s
    let due := s1.cal.retries.filter fun x => decide (x.notBefore ≤ s1.tickNo)
    let s2 := s1.setCal { s1.cal with retries := s1.cal.retries.filter fun x => !decide (x.notBefore ≤ s1.tickNo) }
    due.foldl (fun st x => if x.eo ∧ !st.calBankOn x.idx then st else st.addRun x.eo x.idx false) s2

/-- DEG rises: holds and runs are suspended, to start over, and tracking blocks go (R248, R252). (DEDUCED, log entry 51.) -/
def State.calDegOn (s : State) : State :=
  let s1 := (List.range 64).foldl (fun st n =>
    let s2 := st.calRelease n
    let c := s2.getCalEo n
    if c.cnt = 0 then s2 else s2.setCalEo n { c with sum := 0, cnt := 0 }) s
  let s3 := (List.range 32).foldl (fun st u =>
    if (st.getTiu u).calHeld then st.setTiu u { st.getTiu u with calHeld := false } else st) s1
  let s4 := match s3.cal.long with
    | some l => match l.op with
      | .pin _ => (s3.setCal { s3.cal with long := some { l with pos := 0 } }).calProgress 0 4096
      | _ => s3
    | none => s3
  (List.range 12).foldl (fun st r =>
    let x := st.getCalReg r
    if x.running then st.setCalReg r { x with running := false, pending := true } else st) (s4.calDiscard fun _ _ => true)

/-- DEG falls: the interrupted runs restart (R252). -/
def State.calDegOff (s : State) : State :=
  (List.range 12).foldl (fun st r =>
    let x := st.getCalReg r
    if x.pending then st.setCalReg r { x with pending := false, running := true, t0 := st.regionTemp r } else st) s

/-! ### Pin runs (R246) -/

/-- EN rises during a pin run: it ends at once with NOT_IDLE (R246). -/
def State.pinEnabled (s : State) (n : Nat) : State :=
  match s.cal.long with
  | none => s
  | some l =>
    if l.op ≠ .pin n then s
    else ((s.setCalEo n { s.getCalEo n with code := CalCode.notIdle }).calHistory 2 n (regionOfEo n) CalCode.notIdle).longEnd CalCode.notIdle

/-- The ball term and the delay a pin run gives: in the table that waits, if one does, else in the one in force (R246, R255). -/
def State.pinTable (s : State) (n mon : Nat) (k : Int) : State :=
  let c := s.getCalEo n
  match c.pend, c.inForce with
  | some p, _ => s.setCalEo n { c with pend := some { p with d := mon, k := k, at96 := packT96 s.nowI }, pendPin := some true }
  | none, some t => s.newTable n { t with d := mon, k := k, at96 := packT96 s.nowI }
  | none, none => s

/-- PIN_RUN_DONE: mean monitor delay and replica delay of all 4,096 pulses, in fine units; `load`: some pulse failed the load test (R246,
R249). -/
def State.pinDone (s : State) (n mon replica : Nat) (load : Bool) : State :=
  match s.cal.long with
  | none => s
  | some l =>
    if l.op ≠ .pin n ∨ l.pos < 4096 ∨ s.calHalted ∨ !s.calBankOn n then s
    else
      let k : Int := (mon : Int) - replica
      let code := if 2 ^ 26 ≤ mon then CalCode.delay else if load then CalCode.load else CalCode.ok
      let s1 := s.calHistory 2 n (regionOfEo n) code
      if code ≠ 0 then
        let s2 := s1.calReject true n code false
        (s2.setCalEo n { s2.getCalEo n with code := code }).longEnd code
      else
        ((s1.setCalEo n { s1.getCalEo n with k := some k, pin := true, code := 0 }).pinTable n mon k).longEnd 0

/-! ### Loads (R261, R268) -/

/-- Widths that may come into force by a load or an import (R243, R249). -/
def widthsOk (w : List Nat) : Bool :=
  decide (w.length = 1024) && decide (w.foldl (· + ·) 0 = 2 ^ 24) && w.all (fun x => decide (1 ≤ x)) && slotsOk w

/-- The selected elements of a mask. -/
def maskElems (m : Nat) : List Nat := (List.range 40).filter fun e => bit m e

/-- A table that may come into force by a load or an import (R60, R249). -/
def EoTab.loadOk (t : EoTab) : Bool :=
  let sel := maskElems t.mask
  let span := (sel.map fun e => t.w.getD e 0).foldl (· + ·) 0
  decide (sel.length = 32) && sel.all (fun e => elemOk (t.w.getD e 0)) &&
  decide (990 * 2 ^ 24 ≤ span * 1000) && decide (span * 1000 ≤ 1010 * 2 ^ 24) && (t.tapTable 0).usable

/-- A table from its 128 words (R269). -/
def tabOfWords (f : Nat → Nat) : EoTab :=
  { d := f 0, k := signedOf 32 (f 1), mask := f 3 + f 4 % 256 * 2 ^ 32, trim := f 5 % 64
    at96 := f 6 + f 7 * 2 ^ 32 + f 8 * 2 ^ 64, temp := f 9 % 2 ^ 16, res := f 9 / 2 ^ 16 % 32
    p := (List.range 32).map fun i => f (16 + i)
    g := (List.range 32).map fun i => f (48 + i)
    w := (List.range 40).map fun e => f (80 + e) }

/-- LOAD_TIU: the shadow half of a unit is checked and brought into force (R256, R268). (DEDUCED, log entry 50.) -/
def State.loadTiu (s : State) (u : Nat) : Nat × State :=
  let w := (List.range 1024).map fun c =>
    s.rget ⟨.calTiuShadow, u, c / 2, 0⟩ / (if c % 2 = 0 then 1 else 2 ^ 16) % 2 ^ 16
  if widthsOk w then (CalCode.ok, (s.setCalTiu u { s.getCalTiu u with w := some w }).calNotFull) else (CalCode.imgValues, s)

/-- LOAD_EO: the shadow half of a channel is checked and comes into force at a boundary (R255, R268). (DEDUCED, log entry 50.) -/
def State.loadEo (s : State) (n : Nat) : Nat × State :=
  let t := tabOfWords fun i => s.rget ⟨.calEoShadow, n, i, 0⟩
  if t.loadOk then
    (CalCode.ok, (s.pendTable n t none (some false) false).calNotFull)
  else (CalCode.imgValues, s)

/-! ### Judging an image (R261, R263) -/

/-- The widths and the tables of an image. -/
def imgWidths (b : List Nat) (u : Nat) : List Nat := (List.range 1024).map fun c => leAt b (0x1900 + u * 2048 + 2 * c) 2
def imgTab (b : List Nat) (n : Nat) : EoTab := tabOfWords fun i => leAt b (0x31900 + n * 512 + 4 * i) 4
/-- DEDUCED, log entry 50. -/
def imgValuesOk (b : List Nat) : Bool :=
  (List.range 64).all (fun n => (imgTab b n).loadOk) && (List.range 96).all (fun u => widthsOk (imgWidths b u))

/-- Judge an image in the order of R261. (DEDUCED, log entry 50.) -/
def judgeImage (b : List Nat) : Nat :=
  if !imgFormatOk b then CalCode.imgFormat
  else if !imgDeviceOk b then CalCode.imgDevice
  else if !imgCrcOk b then CalCode.imgCrc
  else if !imgValuesOk b then CalCode.imgValues
  else CalCode.ok

/-- The history of an image. (DEDUCED, log entry 50.) -/
def imgHist (b : List Nat) : List CalHist :=
  (List.range 1024).filterMap fun i =>
    let o := 0x39900 + 32 * i
    if leAt b o 32 = 0 then none else some ⟨leAt b o 12, leAt b (o + 12) 2, leAt b (o + 14) 1, leAt b (o + 15) 1, leAt b (o + 16) 1⟩

/-- An accepted image comes into force (R261): on an enabled channel its table is a discontinuous change, and what K_n and TRK_n the entry
has come with it. -/
def State.takeImage (s : State) (b : List Nat) : State :=
  let s1 := (List.range 96).foldl (fun st u =>
    let o := 0x100 + 64 * u
    let vtrim := leAt b (o + 12) 1 % 64 + leAt b (o + 13) 1 % 64 * 2 ^ 6 + leAt b (o + 14) 1 % 64 * 2 ^ 12 + leAt b (o + 15) 1 % 64 * 2 ^ 18
    ((st.calTrimChange u vtrim).fset F.tiuOfs_OFS (leAt b o 4) u).setCalTiu u
      { w := some (imgWidths b u)
        vtrim := vtrim
        ofs25 := some (signedOf 32 (leAt b (o + 4) 4)), tc := some (signedOf 32 (leAt b (o + 8) 4))
        code := leAt b (o + 16) 1 % 32, cdLog := leAt b (o + 17) 1, chi2 := leAt b (o + 20) 4 }) s
  let s2 := (List.range 64).foldl (fun st n =>
    let t := imgTab b n
    let trk := max (-trkMax) (min trkMax (signedOf 32 (leAt b (0x31900 + n * 512 + 8) 4)))
    (st.setCalEo n { st.getCalEo n with code := t.res }).pendTable n t (some trk) (some (bit (leAt b 38 2) 1)) true) s1
  let s3 := (List.range 12).foldl (fun st r =>
    st.setCalReg r { st.getCalReg r with tcap := leAt b (0x40 + 16 * r) 2, at96 := leAt b (0x42 + 16 * r) 12 }) s2
  s3.setCal { s3.cal with hist := imgHist b, seq := leAt b 16 4, fullImg := bit (leAt b 38 2) 0 }

/-- Bytes of the image that go to DRAM or to flash at an address, of those that make up the steps from `first` on the ones that fall to the
steps `lo` to `hi` − 1. -/
def stepBytes (first lo hi : Nat) (b : List Nat) : Nat × List Nat := (lo - first, (b.take (hi - first)).drop (lo - first))

/-- The record words 1 to 3 of an image (R262). -/
def recordWords (img : List Nat) : List Nat := leBytes 4 (leAt img 16 4) ++ leBytes 4 (leAt img 20 4) ++ leBytes 4 (leAt img 0x41900 4)

/-- The steps of a SAVE (R262): the erase, each byte of the image with its CRC, each of record words 1 to 3, each of the commit word. -/
def State.saveSteps (s : State) (l : CalLong) (lo hi : Nat) : State :=
  let n := l.img.length
  let put (st : State) (a first : Nat) (b : List Nat) : State :=
    let x := stepBytes first lo hi b
    if x.2.isEmpty then st else st.flashWrite (a + x.1) x.2
  let s1 := if lo = 0 ∧ 0 < hi then s.flashErase l.base 0x80000 else s
  put (put (put s1 l.base 1 l.img) (l.base + 0x7FFF4) (n + 1) (recordWords l.img)) (l.base + 0x7FFF0) (n + 13) (leBytes 4 0x6C5AA5C6)

/-- The steps a long operation takes: pulses, bytes, or those of a SAVE. -/
def CalLong.steps (l : CalLong) : Nat :=
  match l.op with
  | .full => 0
  | .pin _ => 4096
  | .exportImg => l.img.length
  | .importImg => imgLen
  | .save => l.img.length + 17

/-- What the positions of a long operation count up to (R264). -/
def CalLong.total (l : CalLong) : Nat :=
  match l.op with
  | .full => 160
  | .pin _ => 4096
  | _ => imgLen

/-- A long operation may go on: a pin run not while CAL is suspended (R252), an EXPORT not without DRAM. -/
def State.longMay (s : State) (l : CalLong) : Bool :=
  match l.op with
  | .full => false
  | .pin n => !s.calHalted && s.calBankOn n
  | .exportImg => !s.dramUnavail
  | .importImg => !s.dramUnavail
  | .save => true

/-- A long operation comes `n` steps further (R262, R264). (DESIGN CHOICE, log entry 74.) -/
def State.calWork (s : State) (n : Nat) : State :=
  match s.cal.long with
  | none => s
  | some l =>
    let hi := min l.steps (l.pos + n)
    if !s.longMay l ∨ hi ≤ l.pos then s
    else
      let s1 := match l.op with
        | .exportImg =>
          let x := stepBytes 0 l.pos hi l.img
          s.setDram (memWriteBytes dramUnl s.dram (l.base + x.1) (toBytes x.2))
        | .save => s.saveSteps l l.pos hi
        | _ => s
      let done := match l.op with
        | .save => hi - 1
        | _ => hi
      (s1.setCal { s1.cal with long := some { l with pos := hi } }).calProgress (min done l.total) l.total

/-- EXPORT_DONE (R261). -/
def State.exportDone (s : State) : State :=
  match s.cal.long with
  | none => s
  | some l =>
    if l.op ≠ .exportImg then s
    else if s.dramUnavail then s.longEnd CalCode.unavail
    else if l.pos < l.img.length then s
    else s.longEnd 0

/-- IMPORT_DONE (R261). -/
def State.importDone (s : State) : State :=
  match s.cal.long with
  | none => s
  | some l =>
    if l.op ≠ .importImg then s
    else if s.dramUnavail then s.longEnd CalCode.unavail
    else if l.pos < imgLen then s
    else
      let b := (memReadBytes dramUnl s.dram s.imgAddr imgLen).map BitVec.toNat
      let code := judgeImage b
      (if code = 0 then s.takeImage b else s).longEnd code

/-- SAVE_DONE: the slot is read back, with the bytes given differing from what was written (offset in the slot, byte read) (R262). (DEDUCED,
log entry 51.) -/
def State.saveDone (s : State) (bad : List (Nat × Nat)) : State :=
  match s.cal.long with
  | none => s
  | some l =>
    if l.op ≠ .save ∨ l.pos < l.steps then s
    else
      let s1 := bad.foldl (fun st x => st.flashWrite (l.base + x.1 % 0x80000) [x.2 % 256]) s
      if s1.flash = s.flash then (s1.setCal { s1.cal with seq := leAt l.img 16 4 }).longEnd 0 else s1.longEnd CalCode.flash

/-- CAL_STARTUP_IMPORT (R247, R263): once after each reset that cleared the tables, when the firmware runs. -/
def State.calStartup (s : State) : State :=
  if s.cal.started ∨ s.glb.limited ∨ !s.glb.fwRun ∨ !s.time.run then s
  else
    let s0 := s.setCal { s.cal with started := true }
    let offs (st : State) : State := (List.range 12).foldl (fun x r => x.ofsUpdate r (x.regionTemp r)) st
    let full (st : State) (slot : Nat) : State :=
      let s1 := st.setCal { st.cal with slot := slot }
      let s2 := if s1.fget F.mbLong_SRC = 0 then s1.longStart CalOp.full none 160 else s1
      (List.range 12).foldl (fun x r => x.scheduleRegion r false true) (offs s2)
    match s0.bestSlot with
    | none => full s0 0
    | some (b, _) =>
      let img := s0.flashBytes (calSlotAddr b) imgLen
      if judgeImage img = 0 then
        let s1 := s0.takeImage img
        offs (s1.setCal { s1.cal with slot := if b then 2 else 1 })
      else full s0 3

/-! ### Commands (R268) -/

/-- A long operation is asked for: refused while another runs (R264). -/
def State.longAsk (s : State) (q : Requester) (seq : Nat) (op : CalOp) (total : Nat) : State :=
  if s.fget F.mbLong_SRC ≠ 0 then s.calAnswer q seq CalCode.busy else s.longStart op (some (q, seq)) total

/-- A command waits for the run it asked for. -/
def State.calWait (s : State) (q : Requester) (seq : Nat) (w : CalWhat) : State :=
  s.setCal { s.cal with waits := s.cal.waits ++ [⟨q, seq, w⟩] }

/-- ABORT: the long operation and all runs end with ABORTED (R268). -/
def State.calAbort (s : State) : State :=
  let s1 := s.cal.runs.foldl (fun st r => st.itemEnd r.eo r.idx CalCode.aborted) s
  let s2 := (List.range 12).foldl (fun st r =>
    let x := st.getCalReg r
    if x.running || x.pending then
      ((st.setCalReg r { x with running := false, pending := false, rej := 0 }).calDone).calWake (.region r) CalCode.aborted
    else st) s1
  s2.longEnd CalCode.aborted

/-- Issue a CAL command (R268). (DEDUCED, log entry 51.) -/
def State.calCommand (s : State) (q : Requester) (op arg : Nat) : State :=
  if op = 0 ∨ 12 < op then s.fon F.calStat_WR_ERR
  else
    let seq := ((s.getCalRes q).seq + 1) % 256
    let s1 := s.setCalRes q ⟨seq, false, CalCode.busy⟩
    let ans (c : Nat) : State := s1.calAnswer q seq c
    let dr (x : Nat × State) : State := x.2.calAnswer q seq x.1
    if op = 12 then (s1.calAbort).calAnswer q seq CalCode.ok
    else if op = 1 then
      if 12 ≤ arg then ans CalCode.badArg else if s.glb.limited then ans CalCode.unavail
      else (s1.scheduleRegion arg false false).calWait q seq (.region arg)
    else if op = 2 then
      if 96 ≤ arg then ans CalCode.badArg else if s.glb.limited then ans CalCode.unavail
      else (s1.addRun false arg false).calWait q seq (.unit arg)
    else if op = 3 then
      if 64 ≤ arg then ans CalCode.badArg else if s.glb.limited then ans CalCode.unavail
      else (s1.addRun true arg false).calWait q seq (.chan arg)
    else if op = 4 then
      if 64 ≤ arg then ans CalCode.badArg else if s.glb.limited then ans CalCode.unavail
      else if s.fbit F.eoCtl_EN arg then (ans CalCode.notIdle).calDone
      else s1.longAsk q seq (.pin arg) 4096
    else if op = 5 then
      if s.glb.limited then ans CalCode.unavail
      else if s.fget F.mbLong_SRC ≠ 0 then ans CalCode.busy
      else (List.range 12).foldl (fun st r => st.scheduleRegion r false true) (s1.longStart CalOp.full (some (q, seq)) 160)
    else if op = 6 then
      if 64 ≤ arg then ans CalCode.badArg
      else
        let c := s1.getCalEo arg
        let c1 := if c.pend.isSome then (if s1.eoIdle arg then c.adopt else { c with pendApply := true }) else c
        ((s1.setCalEo arg c1).trkFit arg).calAnswer q seq CalCode.ok
    else if op = 7 then (if 96 ≤ arg then ans CalCode.badArg else dr (s1.loadTiu arg))
    else if op = 8 then (if 64 ≤ arg then ans CalCode.badArg else dr (s1.loadEo arg))
    else if op = 9 then (if s.dramUnavail then ans CalCode.unavail else s1.longAsk q seq .exportImg imgLen)
    else if op = 10 then (if s.dramUnavail then ans CalCode.unavail else s1.longAsk q seq .importImg imgLen)
    else if s.glb.limited then ans CalCode.unavail
    else s1.longAsk q seq .save imgLen

/-! ### Resets (R265) -/

/-- No long operation of CAL remains. -/
def State.setLongNone (s : State) : State := (s.setCal { s.cal with long := none }).fset F.mbLong_SRC 0

/-- A CAL block reset: runs and long operations go, control registers return, tables, trims and TRK_n stay; the register part is
the caller's. -/
def State.calBlockReset (s : State) : State :=
  let s1 := s.cal.runs.foldl (fun st r => st.itemEnd r.eo r.idx CalCode.aborted) s
  let s2 := match s1.cal.long with
    | some _ => (s1.longEnd CalCode.aborted).setLongNone
    | none => s1
  let s3 := s2.setCal { s2.cal with
    runs := [], retries := [], waits := [], res := {}
    reg := ⟨s2.cal.reg.cells.map fun c => (c.1, { c.2 with pending := false, running := false, rej := 0 })⟩ }
  (List.range 64).foldl (fun st n =>
    let c := (st.calRelease n).getCalEo n
    (st.calRelease n).setCalEo n { c with
      tab := c.inForce, blend := none, pend := none, pendApply := false, pendTrk := none, pendPin := none
      trkTarget := c.trk, sum := 0, cnt := 0 }) s3

end Sys2Proof.Machine
end

