-- ==== Sys2Proof/Machine/MbOps.lean ====
section
/-! DEFINITION. A mailbox command's data and the bytes its long operation has done (R443, R444). -/

namespace Sys2Proof.Machine

def State.setHost (s : State) (h : HostIf) : State := { s with host := h }
def State.setMbox (s : State) (m : Mbox) : State := s.setHost { s.host with mbox := m }

/-- The byte address of a firmware slot, and its size: MCF or LNF, slot A or B (R446). -/
def slotBase (lnf b : Bool) : Nat :=
  if lnf then (if b then 0x01200000 else 0x01000000) else (if b then 0x00800000 else 0)
def slotSize (lnf : Bool) : Nat := if lnf then 0x200000 else 0x800000

/-- Result codes of the mailbox (R445). -/
inductive MbCode where
  | ok | busy | badOp | badArg | imgFormat | imgCrc | imgSig | imgSvn | inUse | flash | unavail | aborted | denied | limited
  deriving DecidableEq, Repr

/-- The code as MB_STATUS.CODE shows it. -/
def MbCode.code (c : MbCode) : Nat := c.ctorIdx

/-! Operations of R444. -/
namespace MbOp
def getInfo : Nat := 1
def fwBegin : Nat := 2
def fwChunk : Nat := 3
def fwEnd : Nat := 4
def fwSelect : Nat := 5
def fwVerify : Nat := 6
def flashRead : Nat := 7
def flashWrite : Nat := 8
def overrideSet : Nat := 9
def overrideClear : Nat := 10
def svnCommit : Nat := 11
def abort : Nat := 12
end MbOp

/-- The operation is long (R444). -/
def mbLongOp (op : Nat) : Bool := decide (op = 2 ∨ op = 3 ∨ op = 4 ∨ op = 6 ∨ op = 7 ∨ op = 8)

/-- The operation is served in limited mode (R444). -/
def mbLimOk (op : Nat) : Bool := decide (op ≠ 8 ∧ op ≠ 11)

/-- Argument word w of a command. -/
def MbCmd.arg (c : MbCmd) (w : Nat) : Nat := c.args.getD w 0

/-- The bytes a long operation counts (R443). -/
def MbCmd.total (c : MbCmd) : Nat :=
  if c.op = MbOp.fwBegin ∨ c.op = MbOp.fwEnd ∨ c.op = MbOp.fwVerify then slotSize (decide (c.arg 0 = 2)) else c.arg 1

/-- The bytes of MB_BUF. -/
def State.bufBytes (s : State) (n : Nat) : List Byte :=
  (List.range n).map fun i => BitVec.ofNat 8 (s.rget ⟨.mbBuf, i / 4, 0, 0⟩ / 256 ^ (i % 4))

/-- Bytes go into MB_BUF from its start. -/
def State.bufPut (s : State) (b : List Byte) : State :=
  b.zipIdx.foldl (fun st x =>
    let k : RegKey := ⟨.mbBuf, x.2 / 4, 0, 0⟩
    let lo := 8 * (x.2 % 4)
    st.rset k (setBits (st.rget k) (lo + 7) lo x.1.toNat)) s

/-- The DRAM address of a command, none for MB_BUF (R444). -/
def MbCmd.place (c : MbCmd) : Option Nat :=
  let a := c.arg 2 % 2 ^ 32 + c.arg 3 % 2 ^ 32 * 2 ^ 32
  if a = 2 ^ 64 - 1 then none else some a

/-- A data place of n bytes is refused: beyond DRAM or MB_BUF, or DRAM unavailable (R444, R445). -/
def State.rangeBad (s : State) (n : Nat) : Option Nat → Option MbCode
  | none => if 32768 < n then some .badArg else none
  | some a => if 2 ^ 33 < a + n then some .badArg else if s.dramUnavail then some .unavail else none

/-- The data place of a command is refused (R444, R445). -/
def State.placeBad (s : State) (c : MbCmd) : Option MbCode := s.rangeBad (c.arg 1) c.place

/-- The n bytes of a data place. -/
def State.bytesAt (s : State) (n : Nat) : Option Nat → List Byte
  | none => s.bufBytes n
  | some a => memReadBytes dramUnl s.dram a n

/-- The bytes a command takes. -/
def State.placeBytes (s : State) (c : MbCmd) : List Byte := s.bytesAt (c.arg 1) c.place

/-- Bytes go to the data place of a command: MB_BUF, or DRAM from an address (R444). -/
def State.placePut (s : State) (b : List Byte) : Option Nat → State
  | none => s.bufPut b
  | some a => s.setDram (memWriteBytes dramUnl s.dram a b)

/-- Type and slot of a command: none when out of range. -/
def MbCmd.slot (c : MbCmd) : Option (Bool × Bool) :=
  if (c.arg 0 = 1 ∨ c.arg 0 = 2) ∧ c.arg 1 ≤ 1 then some (decide (c.arg 0 = 2), decide (c.arg 1 = 1)) else none

/-- The slot holds a running image (R444). -/
def State.slotRuns (s : State) (lnf b : Bool) : Bool :=
  match s.host.boot with
  | some x => decide ((if lnf then x.l else x.m) = b)
  | none => false

/-! ### What a long command has done (R443, R444) -/

/-- What refuses FW_BEGIN: the slot of a running image. -/
def State.beginBad (s : State) (c : MbCmd) : Option MbCode :=
  match c.slot with
  | none => some .badArg
  | some p => if s.slotRuns p.1 p.2 then some .inUse else none

/-- What refuses FW_CHUNK: it writes to the open slot, below its commit record. (DESIGN CHOICE, log entry 74.) -/
def State.chunkBad (s : State) (c : MbCmd) : Option MbCode :=
  match s.host.mbox.upd with
  | none => some .badArg
  | some p => if 32768 < c.arg 1 ∨ slotSize p.1 - 16 < c.arg 0 + c.arg 1 then some .badArg else s.placeBad c

/-- What refuses FLASH_READ. -/
def State.flashReadBad (s : State) (c : MbCmd) : Option MbCode := if 0x4000000 < c.arg 0 + c.arg 1 then some .badArg else s.placeBad c

/-- What refuses FLASH_WRITE: it writes the host region alone. -/
def State.flashWriteBad (s : State) (c : MbCmd) : Option MbCode :=
  if c.arg 0 < 0x2000000 ∨ 0x3000000 < c.arg 0 + c.arg 1 then some .badArg else s.placeBad c

/-- The slot a command of the update works on: FW_BEGIN names it, FW_CHUNK takes the open one. -/
def State.updSlot (s : State) (c : MbCmd) : Bool × Bool :=
  ((if c.op = MbOp.fwBegin then c.slot else s.host.mbox.upd).getD (false, false))

/-- The first `n` bytes of what a long command does to the flash, or brings from it (R444); a refused command does nothing.
(DESIGN CHOICE, log entry 74.) -/
def State.mbPart (s : State) (c : MbCmd) (n : Nat) : State :=
  let p := s.updSlot c
  if c.op = MbOp.fwBegin ∧ s.beginBad c = none then s.flashErase (slotBase p.1 p.2) n
  else if c.op = MbOp.fwChunk ∧ s.chunkBad c = none then
    s.flashWrite (slotBase p.1 p.2 + c.arg 0) (((s.placeBytes c).take n).map BitVec.toNat)
  else if c.op = MbOp.flashRead ∧ s.flashReadBad c = none then s.placePut (memReadBytes flashUnl s.flash (c.arg 0) n) c.place
  else if c.op = MbOp.flashWrite ∧ s.flashWriteBad c = none ∧ !s.glb.limited then
    s.flashWrite (c.arg 0) (((s.placeBytes c).take n).map BitVec.toNat)
  else s

/-- A long mailbox command comes `n` bytes further (R443); the end of it is MB_COMPLETE. -/
def State.mbWork (s : State) (n : Nat) : State :=
  match s.host.mbox.cmd with
  | none => s
  | some c =>
    let pos := s.fget F.mbPosDone_N
    let hi := min c.total (pos + n)
    if !mbLongOp c.op ∨ s.fget F.mbLong_SRC ≠ 1 ∨ !(s.glb.fwRun || s.glb.limited) ∨ hi ≤ pos then s
    else ((s.mbPart c hi).fset F.mbPosDone_N hi).fset F.mbProgress_P (hi * 10000 / c.total)

end Sys2Proof.Machine
end

