-- ==== Sys2Proof/Machine/BwOps.lean ====
section
/-! DEFINITION. Bellwether: candidates, selection, pull, acquisition, states, holdover (R296 to R321). -/

namespace Sys2Proof.Machine

def State.getCand (s : State) (r : Nat) : BwCand := s.bw.cand.get {} r
def State.setCand (s : State) (r : Nat) (c : BwCand) : State := { s with bw := { s.bw with cand := s.bw.cand.put id {} r c } }
def State.setBw (s : State) (b : Bw) : State := { s with bw := b }

namespace BwState
def freeRun : Nat := 0
def acquiring : Nat := 1
def locked : Nat := 2
def holdover : Nat := 3
def lost : Nat := 4
end BwState

def State.bwState (s : State) : Nat := s.fget F.bwStat_STATE
def State.candType (s : State) (r : Nat) : Nat := s.fget F.bwRefCfg_TYPE r
def State.candIndex (s : State) (r : Nat) : Nat := s.fget F.bwRefCfg_INDEX r

/-- TIME candidates: NT, PPSIN, SW (R296). -/
def isTime (typ : Nat) : Bool := decide (typ = 1 ∨ typ = 2 ∨ typ = 5)

/-- Candidates from 0 to 7. -/
def candList : List Nat := List.range 8

/-- The active reference. -/
def State.bwActive (s : State) : Option Nat := if s.fbit F.bwStat_ACTIVE_V then some (s.fget F.bwStat_ACTIVE) else none

/-- The L1 source of a port holds (R334): readings within 1 ms and, where ESMC judges it, a PDU within 5 s with a code other than
0xF. -/
def State.l1Ok (s : State) (p : Nat) : Bool :=
  let n := s.nt.port.get {} p
  (match n.ph with
   | some x => decide (s.tickNo < x.2 + 1000000)
   | none => false) &&
  (!s.fbit F.ntPortCfg_ESMC_EN p || (decide (s.tickNo < n.esmcTick + 5000000000) && !s.fbit F.ntPortStat_DNU p))

/-- The source of a candidate is present (R301, R302). -/
def State.present (s : State) (r : Nat) : Bool :=
  let c := s.getCand r
  match s.candType r with
  | 1 => s.fbit F.ntSesStat_VALID (s.candIndex r)
  | 2 => c.last.isSome && decide (s.tickNo < c.lastTick + 1100000000)
  | 3 => c.present
  | 4 => s.l1Ok (s.candIndex r)
  | 5 => c.last.isSome && decide (s.tickNo < c.lastTick + 2000000000)
  | _ => false

/-- A candidate falls to DISQ with a cause (R302). -/
def State.disqualify (s : State) (r cause : Nat) : State :=
  if s.fget F.bwRefStat_QSTATE r = 0 then s
  else
    let s1 := (((s.fset F.bwRefStat_QSTATE 0 r).fset F.bwRefStat_FCAUSE cause r).fon F.bwRefStat_FAULT r).fset F.bwRefStat_DQ
      (min 15 (s.fget F.bwRefStat_DQ r + 1)) r
    let s2 := (s1.fset F.bwRefStat_QLEFT 0 r).setCand r { s1.getCand r with qsum := 0, qn := 0 }
    if s2.bwActive = some r then s2.setBw { s2.bw with fell := some s2.tickNo } else s2

/-- REF_DISQUALIFY by loss of signal. -/
def State.signalLost (s : State) (r : Nat) : State := if s.present r then s else s.disqualify r 1

/-- The frequency estimate of a candidate (R300). -/
def State.fest (s : State) (r : Nat) : Int := y48Of (s.fget F.bwRefFest_FEST r)

/-- A reading held to the values a Y48 has (R43). -/
def satY48 (x : Int) : Int := max (-(2 ^ 47)) (min (2 ^ 47 - 1) x)

/-- Round a frequency: an S64 span over a span of T96 LSB, as a Y48 (R46). -/
def freqOf (dTheta : Int) (dt : Nat) : Int := satY48 (rne (dTheta * 4 * 1000000000000000) dt)

/-- Take a phase difference modulo 1 s into −0.5 s to below +0.5 s, S64 LSB. -/
def wrapSec (x : Int) : Int :=
  let sec : Int := 65536000000000
  (x + sec / 2) % sec - sec / 2

/-! ### Pull and acquisition (R307 to R310) -/

/-- 2^-16 as in one S64 LSB: 10^9. -/
def psiUnit : Int := 1000000000

def State.setPsi (s : State) (theta vel : Int) : State := s.setBw { s.bw with psi := theta * psiUnit, vel := vel }

/-- Begin a pull toward the goal; it takes the place of a REALIGN. -/
def State.startPull (s : State) (theta vel goal : Int) : State :=
  let s1 := (s.setPsi theta vel).fset F.bwStat_PULLING 1
  s1.setBw { s1.bw with goal := goal, fixed := false, good := 0, realign := false }

/-- Ψ stands with no pull. -/
def State.holdPsi (s : State) (theta goal : Int) (fixed : Bool) : State :=
  let s1 := (s.setPsi theta 0).fset F.bwStat_PULLING 0
  s1.setBw { s1.bw with goal := goal, fixed := fixed, good := 0, realign := false }

/-- The held offset (R310). -/
def State.heldOffset (s : State) : Int := if s.fbit F.bwStat_OFFSET_HELD then s64Of (s.fget F.bwPhaseOffset_OFS) else 0
def State.setHeld (s : State) (o : Option Int) : State :=
  match o with
  | some x => (s.fset F.bwPhaseOffset_OFS (bitsOf 64 x)).fset F.bwStat_OFFSET_HELD 1
  | none => (s.fset F.bwPhaseOffset_OFS 0).fset F.bwStat_OFFSET_HELD 0

/-- Bellwether asks for a step (R274). -/
def State.bwStep (s : State) (span : Int) : State :=
  if span = 0 then s else s.setTime { s.time with reqs := s.time.reqs ++ [⟨.bw, .by_ span, s.tickNo⟩] }

/-- J in whole ns, signed 32 bits, saturating (R47, R421). -/
def jumpArg (j : Int) : Nat := bitsOf 32 (max (-2147483648) (min 2147483647 (rne j 65536)))

/-- HOLD_PHASE (R310). -/
def State.holdPhase (s : State) (t0 : Int) : State := (s.holdPsi t0 t0 false).setHeld (some t0)

/-- The first sample of an acquisition (R309, R310). -/
def State.acquire (s : State) (r : Nat) (t0 : Int) : State :=
  let s1 := s.setBw { s.bw with acq := false }
  if !s1.time.valid then
    if s1.fbit F.bwCtl_INIT_STEP then
      let s2 := (s1.bwStep t0).setHeld none
      if t0 = 0 then { s2.startPull 0 0 0 with time := { s2.time with valid := true } } else s2.startPull 0 0 0
    else s1.holdPsi t0 0 true
  else
    let h := s1.heldOffset
    let j := t0 - h
    if j.natAbs ≤ s1.fget F.bwPhaseAccept_ACCEPT * 65536 then s1.startPull t0 0 h
    else
      let s2 := (s1.fon F.bwStat_JUMP).offerBbr { source := srcOf 0x03 r, code := 0x0015, arg0 := r, arg1 := jumpArg j, ts := none }
      let pol := s2.fget F.bwCtl_POLICY
      if pol = 1 then (s2.setHeld none).startPull t0 0 0
      else if pol = 2 ∧ s2.fbit F.bwStat_STEP_OK then ((s2.bwStep t0).setHeld none).startPull 0 0 0
      else if pol = 2 then (s2.fon F.bwStat_STEP_DENIED).holdPhase t0
      else s2.holdPhase t0

/-- θ in the form of its candidate: modulo 1 s for PPSIN, else an S64 that saturates (R42, R297). -/
def State.candTheta (s : State) (r : Nat) (x : Int) : Int := if s.candType r = 2 then wrapSec x else (satS64 x).1

/-- The samples held are referred to time after a step that Bellwether made. (DEDUCED, log entry 55.) -/
def State.bwStepped (s : State) (span : Int) : State :=
  candList.foldl (fun st r =>
    let c := st.getCand r
    let mv (x : PhSample) : PhSample := ⟨st.candTheta r (x.theta - span), (addSpan x.at_ span).1⟩
    if c.last.isSome then st.setCand r { c with last := c.last.map mv, start := c.start.map mv } else st) s

/-- A phase sample reaches a candidate (R297, R302 cause JUMP, R309). -/
def State.bwSample (s : State) (r : Nat) (raw : Int) (at_ : Instant) : State :=
  let th := s.candTheta r (raw - s64Of (s.fget F.bwRefDelay_DELAY r))
  let c := s.getCand r
  let s1 := s.setCand r { c with last := some ⟨th, at_⟩, lastTick := s.tickNo }
  let jump : Bool := match c.last with
    | some p =>
      let dt : Int := (at_ : Int) - p.at_
      let pred := p.theta + rne (s.fest r * dt) 4000000000000000
      let diff := if s.candType r = 2 then wrapSec (th - pred) else th - pred
      decide (s.fget F.bwPhaseAccept_ACCEPT * 65536 < diff.natAbs)
    | none => false
  if s.fget F.bwRefStat_QSTATE r = 2 ∧ jump = true then s1.disqualify r 4
  else if s1.bw.acq ∧ s1.bwActive = some r then s1.acquire r th
  else s1

/-- A sample of a source goes to every candidate that names it. -/
def State.bwDeliver (s : State) (typ index : Nat) (theta : Int) (at_ : Instant) : State :=
  candList.foldl (fun st r =>
    if st.candType r = typ ∧ (typ = 5 ∨ st.candIndex r = index) then st.bwSample r theta at_ else st) s

/-- PPSIN_PULSE (R298): the slot that caught the edge in this tick. The 0.5 s count from edge to edge, whatever steps device time takes. -/
def State.ppsinPulse (s : State) (i slot : Nat) : State :=
  let fine : Int := (s.time.now : Int) * finePerNs + (2 * slot + 1) * 262144 - Config.ppsDelay i
  let te : Instant := (rne fine finePerLsb).toNat
  let edge := s.tickNo * finePerNs + (2 * slot + 1) * 262144
  let near := match s.bw.pulse.cells.find? fun c => decide (c.1 = i) with
    | some c => decide (edge < c.2 + nsPerSec / 2 * finePerNs)
    | none => false
  if near then
    candList.foldl (fun st r => if st.candType r = 2 ∧ st.candIndex r = i then st.fon F.bwRefStat_IGN r else st) s
  else
    let s1 := s.setBw { s.bw with pulse := ⟨insertCell id i edge (eraseCell i s.bw.pulse.cells)⟩ }
    let s2 := s1.raiseEv (Prod.ppsin i) te 0 4
    s2.bwDeliver 2 i (-(rne ((te % lsbPerSec : Nat) : Int) 4)) te

/-- BW_REF_SW_COMMIT (R299). -/
def State.bwSwCommit (s : State) (r : Nat) (theta : Int) : State :=
  if s.candType r ≠ 5 then s.fon F.bwStat_WR_ERR else s.bwSample r theta s.nowI

/-! ### Seconds (R300 to R302, R314) -/

/-- The frequency sample of the second just ended, if one forms. -/
def State.secSample (s : State) (r : Nat) : Option Int :=
  let c := s.getCand r
  if isTime (s.candType r) then
    match c.start, c.last with
    | some a, some b =>
      if a.at_ < b.at_ then
        let d := b.theta - a.theta
        some (freqOf (if s.candType r = 2 then wrapSec d else d) (b.at_ - a.at_))
      else none
    | _, _ => none
  else if c.accN = 0 then none else some (satY48 (rne c.acc (c.accN * 16384)))

/-- The mean of a list. -/
def meanOf (l : List Int) : Int := if l.isEmpty then 0 else rne (l.foldl (· + ·) 0) l.length

/-- 20 ppm in Y48 LSB. -/
def ppm20 : Int := 20000000000

/-- A candidate's next sample joins its last 10, the mean of which is FEST (R300), and while it qualifies those of its qualification. -/
def State.addFreq (s : State) (r : Nat) (f : Int) : State :=
  let c := s.getCand r
  let fs := (f :: c.freqs).take 10
  let q := decide (s.fget F.bwRefStat_QSTATE r = 1)
  (s.setCand r { c with freqs := fs, qsum := if q then c.qsum + f else c.qsum, qn := if q then c.qn + 1 else c.qn }).fset
    F.bwRefFest_FEST (bitsOf 48 (meanOf fs)) r

/-- What a sample says of a candidate (R302): 0, RANGE or UNSTABLE. It is judged with the means that hold it: that of the qualification while
it qualifies, FEST from then on. (DEDUCED, log entry 55.) -/
def State.freqVerdict (s : State) (r : Nat) (f : Int) : Nat :=
  let c := s.getCand r
  let q := s.fget F.bwRefStat_QSTATE r
  let stab : Int := ((s.fget F.bwQual_QSTAB * 100000 : Nat) : Int)
  if q = 0 then 0
  else if f > ppm20 ∨ f < -ppm20 then 3
  else if q = 1 ∧ ((f * c.qn - c.qsum).natAbs : Int) > stab * c.qn then 2
  else if q = 2 ∧ ((f - s.fest r).natAbs : Int) > stab then 2
  else 0

/-- One candidate at a second boundary. -/
def State.candSecond (s : State) (r : Nat) : State :=
  let c := s.getCand r
  let smp := s.secSample r
  let s1 := s.setCand r { c with start := c.last, acc := 0, accN := 0 }
  let q := s1.fget F.bwRefStat_QSTATE r
  let s2 := match smp with
    | none => s1
    | some f => s1.addFreq r f
  let verdict := match smp with
    | none => 0
    | some f => s2.freqVerdict r f
  if verdict ≠ 0 then s2.disqualify r verdict
  else if q = 0 then
    if s2.present r then
      ((s2.setCand r { s2.getCand r with qsum := 0, qn := 0 }).fset F.bwRefStat_QSTATE 1 r).fset F.bwRefStat_QLEFT
        (s2.fget F.bwQual_QTIME) r
    else s2
  else if q = 1 then
    let left := s2.fget F.bwRefStat_QLEFT r - 1
    let s3 := s2.fset F.bwRefStat_QLEFT left r
    if left = 0 then s3.fset F.bwRefStat_QSTATE 2 r else s3
  else s2

/-- BW_SECOND: at a tick whose NS is 0 (R300, R301, R314). -/
def State.bwSecond (s : State) : State :=
  if s.time.now % nsPerSec ≠ 0 ∨ !s.time.run ∨ s.glb.limited ∨ s.bw.secTick = some s.tickNo then s
  else
    let s1 := candList.foldl (fun st r => st.candSecond r) (s.setBw { s.bw with secTick := some s.tickNo })
    let b := s1.bw
    let whole := decide (s1.bwState = BwState.locked) && decide (b.lockedTick + nsPerSec ≤ s1.tickNo) && decide (b.yN ≠ 0)
    let h := if whole then (rne b.ySum b.yN :: b.hist).take 1024 else b.hist
    s1.setBw { b with hist := h, ySum := 0, yN := 0 }

/-! ### States (R312, R314 to R317) -/

/-- Integer square root, rounded down, by bisection. -/
def isqrtIn : Nat → Nat → Nat → Nat → Nat
  | 0, lo, _, _ => lo
  | k + 1, lo, hi, n =>
    if lo + 1 < hi then
      let m := (lo + hi) / 2
      if m * m ≤ n then isqrtIn k m hi n else isqrtIn k lo m n
    else lo
def isqrt (n : Nat) : Nat := isqrtIn 300 0 (n + 1) n

/-- The square root of num / den, rounded to the nearest integer. (DESIGN CHOICE, log entry 54.) -/
def sqrtFrac (num den : Nat) : Nat := (isqrt (4 * num / den) + 1) / 2

/-- Numerator of the variance of a list over its squared length: n Σ x² − (Σ x)². (DESIGN CHOICE, log entry 54.) -/
def varNum (l : List Int) : Nat :=
  let n : Int := l.length
  let t := l.foldl (· + ·) 0
  (n * l.foldl (fun a x => a + x * x) 0 - t * t).toNat

/-- Standard deviation, rounded. (DESIGN CHOICE, log entry 54.) -/
def stdDev (l : List Int) : Nat := if l.isEmpty then 0 else sqrtFrac (varNum l) (l.length * l.length)

/-- Units of the loop's integrator to one Y48 LSB. -/
def loopUnit : Nat := 65536 * 10 ^ 30

/-- One update of a type-2 loop with damping 1.0 and natural frequency `w` · 10^-12 rad/s (R306): the output it asks for, Y48 LSB, and the
integrator after it. The output is 2ω times the error plus the integral of ω² times it over updates 1 ms apart; `x` is the error in 10^-9 S64 LSB. -/
def loopStep (w : Nat) (x integ : Int) : Int × Int :=
  let next := integ + w * w * x
  (rne (next + 2 * w * x * 10 ^ 15) loopUnit, next)

/-- The word goes to the oscillator, unless software steers (R272); it is clamped there. -/
def State.bwWord (s : State) (y : Int) : State :=
  let s1 := (s.setBw { s.bw with y := y }).fset F.bwYOut_Y (bitsOf 48 y)
  if s.fbit F.tbCtl_NCO_SRC then s1 else s1.setTime { s1.time with yNext := some y }

/-- Seconds of holdover so far (R315). (DEDUCED, log entry 56.) -/
def State.hoElapsed (s : State) : Nat :=
  if s.bwState = BwState.holdover ∨ s.bwState = BwState.lost then min ((s.tickNo - s.bw.hoTick) / nsPerSec) 0xFFFFFFFF
  else s.fget F.bwHoElapsed_SEC

/-- The time-error estimate (R316), 0 outside HOLDOVER and LOST. (DEDUCED, log entry 56.) -/
def State.hoTe (s : State) : Int :=
  if s.bwState = BwState.holdover ∨ s.bwState = BwState.lost then
    let t : Int := s.hoElapsed
    let lin : Int := ((s.fget F.bwHoUnc_U : Nat) : Int) + y48Of (s.fget F.bwHoAllow_ALLOW)
    (satS64 (s.bw.te0 + rne ((lin * t * 172800 + y48Of (s.fget F.bwHoAging_AGING) * t * t) * 65536) 172800000000)).1
  else 0

/-- Bellwether's state changes: BW_STATE, tagged 0 (R312). -/
def State.bwGoto (s : State) (st : Nat) : State :=
  if s.bwState = st then s
  else
    let s1 := if s.bwState = BwState.holdover ∨ s.bwState = BwState.lost then
        (if st = BwState.lost then s else s.fset F.bwHoElapsed_SEC s.hoElapsed)
      else s
    let s2 := s1.fset F.bwStat_STATE st
    let s3 := s2.setBw { s2.bw with good := 0, broken := 0, lockedTick := s2.tickNo }
    s3.raiseEv Prod.bwState s3.nowI 0

/-- HOLDOVER is entered (R314, R316). (DESIGN CHOICE, log entry 54.) -/
def State.enterHoldover (s : State) (freqRef : Bool) : State :=
  let n := s.fget F.bwHoCtl_AVG
  let l := s.bw.hist.take n
  let m := meanOf s.bw.errs
  let te0 : Int := if freqRef then 0 else ((m.natAbs : Nat) : Int) + 3 * stdDev s.bw.errs
  let u := if l.isEmpty then 0 else sqrtFrac (varNum l) (l.length * l.length * l.length)
  let s1 := if l.isEmpty then s else s.bwWord (meanOf l)
  let s2 := (s1.fonIf (decide (l.length < n)) F.bwStat_HO_SHORT).fset F.bwHoUnc_U (min u 0xFFFFFFFF)
  let s3 := s2.setBw { s2.bw with hist := [], hoTick := s2.tickNo, te0 := te0, errs := [], acq := false }
  (s3.fset F.bwStat_PULLING 0).bwGoto BwState.holdover

/-- The active reference changes (R305): counted, BW_REFSEL. A REALIGN in progress ends (R310). -/
def State.setActive (s : State) (t : Option Nat) : State :=
  let s0 := s.setBw { s.bw with realign := false }
  let s1 := match t with
    | some r => (s0.fset F.bwStat_ACTIVE r).fset F.bwStat_ACTIVE_V 1
    | none => (s0.fset F.bwStat_ACTIVE 0).fset F.bwStat_ACTIVE_V 0
  (s1.cnt .bwCntSwitch).raiseEv Prod.bwRefsel s1.nowI 0

/-- The target is none (R312). (DEDUCED, log entry 55.) -/
def State.noTarget (s : State) : State :=
  let s1 := if s.bwActive.isSome then s.setActive none else s
  let st := s1.bwState
  if st = BwState.locked then s1.enterHoldover s1.bw.freq
  else if st = BwState.acquiring then
    if s1.bw.hist.isEmpty then
      let s2 := (s1.fset F.bwStat_PULLING 0).bwGoto BwState.freeRun
      s2.setBw { s2.bw with acq := false }
    else s1.enterHoldover s1.bw.freq
  else s1

/-- Two candidates agree (R303). -/
def State.agree (s : State) (a b : Nat) : Bool :=
  decide ((s.fest a - s.fest b).natAbs ≤ s.fget F.bwDisagree_DIS * 1000)

/-- Selectable candidates (R303). -/
def State.selectable (s : State) (r : Nat) : Bool :=
  decide (s.fget F.bwRefStat_QSTATE r = 2) && (decide (s.candType r ≠ 2) || s.time.valid)

def State.rank (s : State) (r : Nat) : Nat := s.fget F.bwRefCfg_RANK r

/-- The members of the best rank among a list of candidates. -/
def State.bestGroup (s : State) (l : List Nat) : List Nat :=
  let best := l.foldl (fun m r => min m (s.rank r)) 8
  l.filter fun r => decide (s.rank r = best)

/-- The target of an evaluation (R303, R304). -/
def State.bwTarget (s : State) : Option Nat :=
  let cands := candList.filter fun r => s.selectable r
  let mode := s.fget F.bwCtl_MODE
  let revert := s.fbit F.bwCtl_REVERT || decide (s.bwState = BwState.acquiring)
  let ref := s.fget F.bwSel_REF
  if mode = 2 then none
  else if mode = 1 ∧ ref ∈ cands then some ref
  else if mode = 1 ∧ !s.fbit F.bwCtl_FALLBACK then none
  else
    let g := s.bestGroup cands
    let stay := match s.bwActive with
      | some a => decide (a ∈ cands) && (!revert || decide (a ∈ g))
      | none => false
    if stay then s.bwActive
    else if g.all fun a => g.all fun b => s.agree a b then g.head?
    else
      let sup (m : Nat) : Nat := (cands.filter fun x => decide (x ≠ m) && s.agree x m).length
      g.find? fun m => g.all fun x => decide (x = m) || decide (sup x < sup m)

/-- The active reference disputes with a member of its group (R304). -/
def State.inDispute (s : State) : Bool :=
  let cands := candList.filter fun r => s.selectable r
  let g := s.bestGroup cands
  match s.bwActive with
  | some a => decide (a ∈ g) && decide (s.fget F.bwCtl_MODE = 0 ∨ s.fget F.bwCtl_MODE = 1 ∧ ¬ s.fget F.bwSel_REF = a) &&
      g.any fun x => !s.agree a x
  | none => false

/-- No acquisition waits. -/
def State.setAcq (s : State) (a : Bool) : State := s.setBw { s.bw with acq := a }

/-- A new target becomes active (R305): from LOCKED or ACQUIRING a switch, which starts a pull; else an acquisition, whose loop begins from the
word in force. (DEDUCED, log entry 55; DESIGN CHOICE, log entry 52.) -/
def State.bwSwitch (s : State) (r : Nat) : State :=
  let st := s.bwState
  let time := isTime (s.candType r)
  let s0 := s.setActive (some r)
  let s1 := s0.setBw { s0.bw with slip := 0, freq := !time }
  let th := ((s1.getCand r).last.map PhSample.theta).getD 0
  if st = BwState.locked ∨ st = BwState.acquiring then
    let s2 := if time then s1.startPull th s1.bw.vel s1.heldOffset else s1.holdPsi 0 0 false
    (s2.setAcq false).bwGoto BwState.acquiring
  else
    let s2 := if time then s1.setAcq true else (s1.holdPsi 0 0 false).setAcq false
    (s2.setBw { s2.bw with integ := s2.bw.y * loopUnit }).bwGoto BwState.acquiring

/-! ### The pull profile and the loop (R306, R307) -/

/-- The distance a rate needs to come to rest under a change of `a` per update, fs per update. (DEDUCED, log entry 53.) -/
def stopDist (v a : Int) : Int :=
  if a ≤ 0 ∨ v ≤ 0 then 0
  else
    let n := v / a
    (n + 1) * v - a * (n * (n + 1) / 2)

/-- One update of Ψ toward its goal (units of 2^-16 as; rates in fs/s move fs · 2^-3 … per ms as 65,536 units): position and rate. (DEDUCED, log entry 53.) -/
def pullStep (pos vel goal vmax a : Int) : Int × Int :=
  let d := goal - pos
  let sg : Int := if d < 0 then -1 else 1
  let dist := sg * d
  let w := sg * vel
  if w.natAbs ≤ a.natAbs ∧ dist ≤ a * 65536 then (goal, 0)
  else
    let fits (x : Int) : Bool := decide (0 ≤ x ∧ stopDist x a * 65536 ≤ dist)
    let up := min vmax (w + a)
    let w1 := if w < 0 then w + a else if fits up then up else if fits (min vmax w) then min vmax w else max 0 (w - a)
    (pos + sg * w1 * 65536, sg * w1)

/-- Advance the pull by one update. (DEDUCED, log entry 53.) -/
def State.pull (s : State) : State :=
  if !s.fbit F.bwStat_PULLING then s
  else
    let r := pullStep s.bw.psi s.bw.vel (s.bw.goal * psiUnit) ((s.fget F.bwSlew_SLEW * 1000 : Nat) : Int)
      ((s.fget F.bwFslew_FSLEW : Nat) : Int)
    let s1 := s.setBw { s.bw with psi := r.1, vel := r.2 }
    if r.1 = s.bw.goal * psiUnit ∧ r.2 = 0 then
      let s2 := s1.fset F.bwStat_PULLING 0
      if s2.bw.realign then (s2.setHeld none).setBw { s2.bw with realign := false } else s2
    else s1

/-- Ψ as an S64. -/
def State.psiS64 (s : State) : Int := rne s.bw.psi 1000000000

/-- One loop update of the active reference and the lock judgement (R306, R312, R313). (DESIGN CHOICE, log entry 52.) -/
def State.loopUpdate (s : State) (r : Nat) : State :=
  let time := isTime (s.candType r)
  let c := s.getCand r
  let s1 := s.pull
  let e : Int := if time then ((c.last.map PhSample.theta).getD 0) - s1.psiS64 else c.fnow
  let slip := if time then s1.bw.slip else s1.bw.slip + e
  let l := loopStep (s1.fget F.bwDpll_BWU * (Config.loopRate + 1)) (if time then e * 10 ^ 9 else slip * 65536) s1.bw.integ
  let step : Int := ((s1.fget F.bwFslew_FSLEW : Nat) : Int)
  let y := satY48 (max (s1.bw.y - step) (min (s1.bw.y + step) l.1))
  let s2 := s1.setBw { s1.bw with integ := l.2, slip := slip, ySum := s1.bw.ySum + y, yN := s1.bw.yN + 1 }
  let s3 := (s2.bwWord y).fset F.bwPsi_PSI (bitsOf 64 s2.psiS64)
  let ok := if time then !s3.fbit F.bwStat_PULLING && decide (e.natAbs ≤ s3.fget F.bwLock_WIN * 65536)
    else decide (e.natAbs ≤ s3.fget F.bwLock_FWIN * 1000)
  let b := s3.bw
  let s4 := s3.setBw { b with
    good := if ok then b.good + 1 else 0
    broken := if ok then 0 else b.broken + 1
    errs := if s3.bwState = BwState.locked ∧ time then (e :: b.errs).take 10000 else b.errs }
  if s4.bwState = BwState.acquiring ∧ 1000 ≤ s4.bw.good then
    let s5 := s4.bwGoto BwState.locked
    s5.setBw { s5.bw with errs := [] }
  else if s4.bwState = BwState.locked ∧ 100 ≤ s4.bw.broken then s4.bwGoto BwState.acquiring
  else s4

/-- While software steers, Bellwether stays in FREE_RUN and follows the word in force (R317). -/
def State.bwSwNco (s : State) : State :=
  let s1 := if s.bwActive.isSome then s.setActive none else s
  let s2 := ((s1.fset F.bwStat_SW_NCO 1).fset F.bwStat_PULLING 0).bwGoto BwState.freeRun
  s2.setBw { s2.bw with integ := s2.time.y * loopUnit, y := s2.time.y, acq := false }

/-- A 1 ms comparison of a FREQ candidate: none where a CKIN shows no edges (R296); for L1 the unwrapped phase of PD_RX at its latest reading
against that of the comparison before (R334). -/
def State.freqCompare (s : State) (ck : List (Option Int)) (r : Nat) : State :=
  let c := s.getCand r
  match s.candType r with
  | 3 => match (ck.getD (s.candIndex r) none) with
    | some y => s.setCand r { c with present := true, fnow := y, acc := c.acc + y * 1000000 * 16384, accN := c.accN + 1000000 }
    | none => s.setCand r { c with present := false }
  | 4 =>
    let n := s.nt.port.get {} (s.candIndex r)
    let now := if s.l1Ok (s.candIndex r) then n.ph.map fun x => (n.turn, x.2) else none
    match now, c.ph with
    | some b, some a =>
      if a.2 < b.2 then
        let d := (b.1 - a.1) * 1000000000000000
        s.setCand r { c with ph := now, fnow := satY48 (rne d (16384 * (b.2 - a.2))), acc := c.acc + d, accN := c.accN + (b.2 - a.2) }
      else s
    | _, _ => s.setCand r { c with ph := now }
  | _ => s

/-- BW_EVALUATE (R303 to R309, R312): each millisecond of device time, and the tick after the active reference falls. `ck`: the
comparison of CKIN0 and CKIN1 over the last millisecond, Y48 LSB. -/
def State.bwEvaluate (s : State) (ck : List (Option Int)) : State :=
  let ms := decide (s.time.now % 1000000 = 0)
  let after := match s.bw.fell with
    | some t => decide (t < s.tickNo)
    | none => false
  if !s.time.run ∨ s.glb.limited ∨ s.bw.evalTick = some s.tickNo ∨ !(ms || after) then s
  else
    let s0 := s.setBw { s.bw with evalTick := some s.tickNo, fell := none }
    let s1 := if ms then candList.foldl (fun st r => st.freqCompare ck r) s0 else s0
    let s2 := if ms then candList.foldl (fun st r => st.signalLost r) s1 else s1
    if s2.fbit F.tbCtl_NCO_SRC then s2.bwSwNco
    else
      let tgt := s2.bwTarget
      let s3 := match tgt with
        | none => s2.noTarget
        | some r => if s2.bwActive = some r then s2 else s2.bwSwitch r
      let disp := s3.inDispute
      let s4 := if disp then
          let s5 := s3.fon F.bwStat_REF_DISPUTE
          let a := (s5.bwActive).getD 0
          if s5.bw.dispute then s5 else s5.offerBbr { source := srcOf 0x03 a, code := 0x0014, arg0 := a, arg1 := 0, ts := none }
        else s3
      let s6 := s4.setBw { s4.bw with dispute := disp }
      match s6.bwActive with
      | some r => if ms && !s6.bw.acq then s6.loopUpdate r else s6
      | none => s6

/-- HOLDOVER_LOST (R315). -/
def State.holdoverLost (s : State) : State :=
  if s.bwState = BwState.holdover ∧ s.fbit F.bwHoSpec_EN ∧ s.fget F.bwHoSpec_SPEC ≤ s.hoElapsed then s.bwGoto BwState.lost else s

/-- BW_CTL.MODE forces the state at once (R317). -/
def State.bwForce (s : State) : State := if s.fget F.bwCtl_MODE = 2 then s.noTarget else s

/-- REALIGN (R310). -/
def State.bwRealign (s : State) : State :=
  match s.bwActive with
  | some r => if isTime (s.candType r) ∧ !s.bw.acq then
      let s1 := s.fset F.bwStat_PULLING 1
      s1.setBw { s1.bw with goal := 0, realign := true, fixed := false, good := 0 }
    else s
  | none => s

/-- BW_UNLOCK (R311). -/
def State.bwUnlock (s : State) (q : Requester) (key : Nat) : State :=
  let host := match q with
    | .pcie => true
    | .smbus => true
    | .jtag => true
    | _ => false
  if !host then s.fon F.bwStat_WR_ERR
  else if key = 0xA7 then s.fset F.bwStat_STEP_OK 1
  else if key = 0 then s.fset F.bwStat_STEP_OK 0
  else s.fon F.bwStat_WR_ERR

/-- A write has changed TYPE, INDEX or CKIN_100M (R302 cause CONFIG). (DEDUCED, log entry 55.) -/
def State.candConfig (s : State) (r : Nat) : State :=
  let s1 := (s.disqualify r 5).setCand r {}
  (s1.fset F.bwRefStat_TIME (bnat (isTime (s1.candType r))) r).fset F.bwRefFest_FEST 0 r

/-- The INDEX values a TYPE admits (R296). -/
def indexOk (typ index : Nat) : Bool :=
  match typ with
  | 2 => decide (index ≤ 1)
  | 3 => decide (index ≤ 1)
  | 4 => decide (index ≤ 51)
  | _ => true

end Sys2Proof.Machine
end

