-- ==== Sys2Proof/Machine/PadHr.lean ====
section
/-! DEFINITION. Paddock's cells: the division of the pool, the reservations, and the headroom that firmware sizes from the measured
round trip (R384, R388). -/

namespace Sys2Proof.Machine

def State.setSw (s : State) (x : Sw) : State := { s with sw := x }
def State.getSwPort (s : State) (p : Nat) : SwPort := s.sw.port.get {} p
def State.setSwPort (s : State) (p : Nat) (x : SwPort) : State := s.setSw { s.sw with port := s.sw.port.put id {} p x }

/-- A frame copy still holds its cells: it has not started, or its last byte has not left. -/
def FrameCopy.live (now : Nat) (c : FrameCopy) : Bool :=
  match c.start with
  | none => true
  | some _ => decide (now < c.stop)

/-- A frame still holds its cells. -/
def PFrame.live (now : Nat) (f : PFrame) : Bool := !f.complete || f.copies.any fun c => c.live now

/-- The sum of one kind of cells over the frames that pass a test. -/
def State.cellSum (s : State) (g : PFrame → Nat) (t : PFrame → Bool) : Nat :=
  s.sw.frames.foldl (fun a f => if f.live s.tickNo && t f then a + g f else a) 0

/-- Cells reserved beyond the default division: the sum of every GMIN and every HR (R384). -/
def State.reserved (s : State) : Int :=
  let g := (s.listed .padGmin).foldl (fun (a : Int) c => a + c.2 - 48) 19968
  (s.listed .padHr).foldl (fun (a : Int) c => a + c.2) g

/-- The size of the shared pool (R384): 262,144 cells less every reservation. -/
def State.sharedPool (s : State) : Int := 262144 - s.reserved

/-- Cells held by launch templates (R398). -/
def State.tplCells (s : State) : Nat := s.sw.port.cells.foldl (fun a c => a + ((c.2.tpl.map LqTpl.cells).getD 0)) 0

/-- F: the free cells of the shared pool (R387). -/
def State.padFree (s : State) : Nat := (s.sharedPool - (s.cellSum PFrame.shared fun _ => true) - s.tplCells).toNat

/-- A reservation is written, or refused when it would make the shared pool negative (R384). -/
def State.padReserve (s : State) (r : Reg) (p c cells : Nat) : State :=
  let s1 := s.rset ⟨r, p, c, 0⟩ cells
  if s1.sharedPool < 0 then (s.fon F.padStat_HR_SHORT).fon F.padStat_WR_ERR else s1

/-- Rate in Gb/s of a port rate code (R378). -/
def gbps (code : Nat) : Nat := ([0, 1, 10, 25, 40, 75, 100] : List Nat).getD code 0

/-- Headroom cells of R388 for a rate in Gb/s, a round trip in S64 LSB and TD in ns. -/
def hrCells (rate : Nat) (rtt : Int) (td : Nat) : Nat :=
  (roundDiv .ceiling (rate * (rtt + td * 65536)) (2048 * 65536)).toNat

/-- The round trip that sizes the headroom (R388), S64 LSB. -/
def State.hrRtt (s : State) (p : Nat) : Int :=
  if s.fbit F.ntPortStat_RTT_V p then s64Of (s.fget F.ntPortRtt_RM p) else (s.fget F.padHrRtt_DFLT * 65536 : Nat)

/-- Management firmware writes PAD_HR of every lossless class of a port (R388). -/
def State.hrWrite (s : State) (p : Nat) : State :=
  let code := s.fget F.ptStat_RATE p
  let rate := if code = 5 then 100 else gbps code
  let rtt := s.hrRtt p
  let hr := hrCells rate rtt (if rate = 1 then s.fget F.padHrTd_TD1G else s.fget F.padHrTd_TD)
  let s1 := (List.range 8).foldl (fun st c =>
    if st.fbit F.padClass_LL c then st.padReserve .padHr p c (min hr 65535) else st) s
  s1.setSwPort p { s1.getSwPort p with rttUsed := some rtt }

/-- Whether firmware sizes the headroom of a port. (DEDUCED, log entry 62.) -/
def State.hrOn (s : State) (p : Nat) : Bool :=
  s.fbit F.padCtl_HR_AUTO && s.glb.fwRun && !s.glb.limited && s.fbit F.ptStat_LINK p && decide (s.fget F.swPortCfg_FC p ≠ 0)

/-- At each link-up. -/
def State.hrLinkUp (s : State) (p : Nat) : State := if s.hrOn p then s.hrWrite p else s

/-- Whenever the round trip has changed by more than 1 % from the value last used. -/
def State.hrRttChange (s : State) (p : Nat) : State :=
  if s.hrOn p then
    match (s.getSwPort p).rttUsed with
    | none => s.hrWrite p
    | some u => if 100 * (s.hrRtt p - u).natAbs > u.natAbs then s.hrWrite p else s
  else s

end Sys2Proof.Machine
end

