-- ==== Sys2Proof/Machine/NtOps.lean ====
section
/-! DEFINITION. The network time engine: timestamps, sessions, delays and offsets, lane phase detectors, ESMC (R322 to R353). -/

namespace Sys2Proof.Machine

def State.getSes (s : State) (i : Nat) : NtSes := s.nt.ses.get {} i
def State.setSes (s : State) (i : Nat) (x : NtSes) : State := { s with nt := { s.nt with ses := s.nt.ses.put id {} i x } }
def State.getNtPort (s : State) (p : Nat) : NtPort := s.nt.port.get {} p
def State.setNtPort (s : State) (p : Nat) (x : NtPort) : State := { s with nt := { s.nt with port := s.nt.port.put id {} p x } }

/-! ### Ports, lanes and quads (R354) -/

/-- The lanes of a port, in order. -/
def portLanes (p : Nat) : List Nat := if p < 48 then [p] else (List.range 4).map fun i => 4 * p - 144 + i

/-- The quad of a port. -/
def portQuad (p : Nat) : Nat := if p < 48 then p / 4 else p - 36

/-- The port of a line lane. -/
def lanePort (j : Nat) : Nat := if j < 48 then j else (j + 144) / 4

/-- The timing lane: the lowest-numbered lane in use (R328). -/
def State.timingLane (s : State) (p : Nat) : Nat :=
  let l := portLanes p
  let m := s.fget F.ptStat_LANES p
  (((List.range l.length).find? fun i => bit m i).bind fun i => l[i]?).getD (l.headD 0)

/-- 90 ppm in Y48 LSB (R360). -/
def syntLimit : Nat := 90000000000

/-- A quad transmits syntonized: SYNT is set and the word in force lies within ±90 ppm (R359, R360). -/
def State.syntonized (s : State) (q : Nat) : Bool := s.fbit F.lnQuadCtl_SYNT q && decide (s.time.y.natAbs ≤ syntLimit)

/-- The lane rate code of a port's timing lane. -/
def State.laneRate (s : State) (p : Nat) : Nat := s.fget F.lnStat_RATE (s.timingLane p)

/-! ### Timestamps (R325 to R333) -/

/-- FINE transmit and receive timestamps of a port (R333): 10.3125 or 25.78125 Gb/s, syntonized quad, sampling phase measured, and for
receive a settled detector. -/
def State.fineTx (s : State) (p : Nat) : Bool :=
  s.fbit F.ntPortCfg_FINE_EN p && decide (2 ≤ s.laneRate p) && s.syntonized (portQuad p) && (s.getNtPort p).measured
def State.fineRx (s : State) (p : Nat) : Bool := s.fineTx p && s.fbit F.ntPortStat_PD_SETTLED p

/-- The copy of device time that a receiving domain keeps (R58): 0 the fabric, 1 + p the lanes of port p. -/
def State.busCopy (s : State) (r : Nat) : BusRx := (s.time.rx.get none r).getD ⟨s.time.now, s.time.stepSeq⟩

/-- The edge instant of R59 and R326: the time-bus value sampled in the port's lane domain, less the measured delay, plus the phase within
the tick: FINE from the lane sampling phase and `rxPhase`, COARSE from the centre of the slot that sampled it. -/
def State.edgeInstant (s : State) (p : Nat) (fine : Bool) (o : EdgeObs) (rxPhase : Int) : Instant :=
  let sampled := ofNs ((s.busCopy (1 + p)).now - o.ago)
  let within : Nat := if fine then o.phase.val else o.slot.val * 8192 + 4096
  (addSpan (sampled + within) ((if fine then rxPhase else 0) - Config.busDelay p)).1

/-- Receive and transmit timestamps of a port (R326, R327). -/
def State.stampRx (s : State) (p : Nat) (o : EdgeObs) : NtStamp :=
  let fine := s.fineRx p
  let e := s.edgeInstant p fine o (s64Of (s.fget F.ntPortPdph_PH p))
  let sub := o.db + s64Of (s.fget F.ntPortIlatRx_LAT p) + s64Of (s.fget F.ntPortBlatRx_LAT p)
  ⟨(addSpan e (-sub)).1, (s.busCopy (1 + p)).seq, fine⟩
def State.stampTx (s : State) (p : Nat) (o : EdgeObs) : NtStamp :=
  let fine := s.fineTx p
  let e := s.edgeInstant p fine o 0
  let add := o.db + s64Of (s.fget F.ntPortIlatTx_LAT p) + s64Of (s.fget F.ntPortBlatTx_LAT p)
  ⟨(addSpan e add).1, (s.busCopy (1 + p)).seq, fine⟩

/-- A timestamp of an event message that firmware handles enters the port's FIFO (R330). `dirTx`: transmitted. -/
def State.tsfPush (s : State) (p : Nat) (m : PtpMsg) (typ : Nat) (st : NtStamp) (dirTx : Bool) : State :=
  let x := s.getNtPort p
  if 64 ≤ x.tsf.length then (s.fon F.ptStat_TSF_OVF p).cnt .ptCntTsfLost p
  else
    let w3 := m.seq % 65536 * 65536 + typ % 16 * 4096 + m.domain % 256 * 16 + bnat s.time.valid * 8 + bnat st.fine * 4 + bnat dirTx * 2 + 1
    let w4 := st.stepSeq % 16 * 65536 + m.sdo % 4096
    s.setNtPort p { x with tsf := x.tsf ++ [packT96 st.t + w3 * 2 ^ 96 + w4 * 2 ^ 128] }

/-- A read of PT_TSF word 0 removes the head entry; an empty FIFO gives zeros (R330). -/
def State.tsfPop (s : State) (p : Nat) : Nat × State :=
  let x := s.getNtPort p
  match x.tsf with
  | [] => (0, s)
  | e :: t => (e, s.setNtPort p { x with tsf := t })

/-! ### Domains and sessions (R324, R336, R344) -/

/-- The enabled domain slot a message matches (R324); none in limited mode (R348). -/
def State.domSlot (s : State) (domain sdo : Nat) : Option Nat :=
  if s.glb.limited then none
  else (List.range 16).find? fun m =>
    decide (s.fget F.ntDomCfg_MODE m ≠ 0) && decide (s.fget F.ntDomCfg_DOMAIN m = domain) && decide (s.fget F.ntDomCfg_SDOID m = sdo)

namespace Kind
def slave : Nat := 0
def master : Nat := 1
def peer : Nat := 2
def pslave : Nat := 3
end Kind

/-- The enabled sessions of a kind that are bound to a port and a slot. -/
def State.sessions (s : State) (p m : Nat) (kinds : List Nat) : List Nat :=
  (s.listed .ntSesCfg).filterMap fun c =>
    let i := c.1
    if s.fbit F.ntSesCfg_EN i ∧ s.fget F.ntSesLink_PORT i = p ∧ s.fget F.ntSesCfg_DOM i = m ∧ s.fget F.ntSesCfg_KIND i ∈ kinds then some i
    else none

def State.sesPort (s : State) (i : Nat) : Nat := s.fget F.ntSesLink_PORT i

/-- 2^log seconds in ns, for a signed 4-bit field. -/
def logNs (code : Nat) : Nat :=
  let l := signedOf 4 code
  if 0 ≤ l then nsPerSec * 2 ^ l.toNat else nsPerSec / 2 ^ (-l).toNat
def State.syncNs (s : State) (i : Nat) : Nat := logNs (s.fget F.ntSesCfg_LOG_SYNC i)
def State.dreqNs (s : State) (i : Nat) : Nat := logNs (s.fget F.ntSesCfg_LOG_DREQ i)

/-- A message addressed to a session is discarded, counted and passed to firmware (R338). -/
def State.sesDiscard (s : State) (i : Nat) : State := (s.fon F.ntSesStat_DISC i).cnt .ntSesCntDisc i

/-- An exchange across a step is discarded (R339). -/
def State.stepDrop (s : State) (i : Nat) : State := (s.fon F.ntSesStat_STEPDROP i).cnt .ntSesCntDisc i

/-- A session loses VALID (R338): entered in the black box. (DESIGN CHOICE, log entry 59.) -/
def State.sesInvalid (s : State) (i cause : Nat) : State :=
  if s.fbit F.ntSesStat_VALID i then
    (s.fset F.ntSesStat_VALID 0 i).offerBbr
      { source := srcOf 0x09 i, code := 0x0016, arg0 := i, arg1 := Config.ntCause cause, ts := none }
  else s

/-- PSLAVE sessions whose PEER is no longer valid lose VALID. -/
def State.pslavesOf (s : State) (peer : Nat) : State :=
  ((s.listed .ntSesCfg).map Prod.fst).foldl (fun st i =>
    if st.fget F.ntSesCfg_KIND i = Kind.pslave ∧ st.fget F.ntSesLink_PEER i = peer then st.sesInvalid i 4 else st) s

/-- A session loses VALID, and with a PEER the sessions that lean on it. -/
def State.sesLost (s : State) (i cause : Nat) : State :=
  let s1 := s.sesInvalid i cause
  if s1.fget F.ntSesCfg_KIND i = Kind.peer then s1.pslavesOf i else s1

/-- The round-trip mean and the receive-direction delay (R340, R342); the flag is V. -/
def State.delayOf (s : State) (p : Nat) (rs : List Int) : Int × Int × Bool :=
  let rm := rne (rs.foldl (· + ·) 0) rs.length
  let al := s64Of (s.fget F.ntPortAlpha_ALPHA p)
  let d0 := rne (rm * (2 ^ 62 + al)) (2 ^ 63 + al).toNat
  let d := satS64 (d0 + s64Of (s.fget F.ntPortAsym_A p))
  (rm, d.1, d.2)

/-- The session that publishes the port's delay: its SLAVE session, or else its PEER session (R343). -/
def State.publishes (s : State) (i : Nat) : Bool :=
  let p := s.sesPort i
  decide (s.fget F.ntSesCfg_KIND i = Kind.slave) ||
    !((s.listed .ntSesCfg).any fun c => s.fbit F.ntSesCfg_EN c.1 && decide (s.sesPort c.1 = p) && decide (s.fget F.ntSesCfg_KIND c.1 = Kind.slave))

/-- Publish a port's delay (R343). -/
def State.publish (s : State) (p : Nat) (rm d : Int) : State :=
  (((s.fset F.ntPortRtt_RM (bitsOf 64 rm) p).fset F.ntPortDms_D (bitsOf 64 d) p).fset F.ntPortStat_RTT_V 1 p).hrRttChange p

/-- A round trip of a session: window, mean, delay (R340, R341). -/
def State.roundTrip (s : State) (i : Nat) (r : Int) (fine : Bool) : State :=
  let p := s.sesPort i
  let x := s.getSes i
  let rs := (r :: x.rs).take (2 ^ s.fget F.ntSesCfg_DAVG i)
  let dl := s.delayOf p rs
  if dl.2.2 then s.sesDiscard i
  else
    let s1 := (s.setSes i { x with rs := rs, delayAt := some s.tickNo, delayFine := fine }).fset F.ntSesDms_D (bitsOf 64 dl.2.1) i
    if s1.publishes i then s1.publish p dl.1 dl.2.1 else s1

/-- Subtract two instants; the flag is V (R40). -/
def dif (a b : Instant) : Int × Bool := let f := spanBetween a b; (f.val, f.v)

/-- Show the timestamps of an exchange (R353). -/
def State.showT (s : State) (i k : Nat) (t : Instant) : State := s.rset ⟨.ntSesT, i, k, 0⟩ (packT96 t % 2 ^ 96)

/-- The delay a session uses: its own, or its PEER's (R340, R341). -/
def State.sesDelay (s : State) (i : Nat) : Option Int :=
  if s.fget F.ntSesCfg_KIND i = Kind.pslave then
    let pr := s.fget F.ntSesLink_PEER i
    if s.fbit F.ntSesStat_VALID pr then some (s64Of (s.fget F.ntSesDms_D pr)) else none
  else match (s.getSes i).delayAt with
    | some t => if s.tickNo ≤ t + 16 * s.dreqNs i then some (s64Of (s.fget F.ntSesDms_D i)) else none
    | none => none

/-- The offset of a complete Sync exchange is formed with the delay, shown and delivered to Bellwether (R340). -/
def State.syncOffset (s : State) (i : Nat) (y : NtSync) : Option Int → State
  | none => s
  | some d =>
    let a := dif y.t1 y.t2.t
    let b := satS64 (a.1 + y.corr)
    let th := satS64 (b.1 + d)
    if a.2 || b.2 || th.2 then s.sesDiscard i
    else
      let dfine := if s.fget F.ntSesCfg_KIND i = Kind.pslave then (s.getSes (s.fget F.ntSesLink_PEER i)).delayFine
        else (s.getSes i).delayFine
      let s3 := ((s.fset F.ntSesOfs_THETA (bitsOf 64 th.1) i).fset F.ntSesStat_VALID 1 i).fset F.ntSesStat_FINE
        (bnat (y.t2.fine && y.fine1 && dfine)) i
      s3.bwDeliver 1 i th.1 y.t2.t

/-- A Sync exchange is complete: its timestamps are shown, and its offset is formed where the session has a delay (R340). -/
def State.syncDone (s : State) (i : Nat) (y : NtSync) : State :=
  let s1 := (s.setSes i { s.getSes i with sync := some y, wait := none }).showT i 0 y.t1
  let s2 := s1.showT i 1 y.t2.t
  s2.syncOffset i y (s2.sesDelay i)

/-- A Sync reaches a SLAVE or PSLAVE session (R338). -/
def State.syncTo (s : State) (m : PtpMsg) (st : NtStamp) (i : Nat) : State :=
  let x := s.getSes i
  if m.spid = s.fget F.ntSesPeerid_ID i ∧ x.lastSeq ≠ some m.seq then
    let s1 := (s.setSes i { x with lastSeq := some m.seq, syncAt := s.tickNo }).cnt .ntSesCntRx i
    let y : NtSync := ⟨m.seq, m.ts, st, m.corr, m.fine, s.tickNo + s.syncNs i⟩
    if m.twoStep then s1.setSes i { s1.getSes i with wait := some y } else s1.syncDone i y
  else s.sesDiscard i

/-- Whether some session took a message: DISC and CNT_RX tell; a message no session takes goes to firmware (R330, R338). -/
def State.toSessions (s : State) (l : List Nat) (f : State → Nat → State) : State := l.foldl f s

/-- SYNC_RX (R338): to each SLAVE and PSLAVE session of its port and domain; a timestamp goes to the FIFO when firmware is given the
message. -/
def State.syncRx (s : State) (p : Nat) (m : PtpMsg) (o : EdgeObs) : State :=
  match s.domSlot m.domain m.sdo with
  | none => s
  | some d =>
    let st := s.stampRx p o
    let l := s.sessions p d [Kind.slave, Kind.pslave]
    let takes := l.any fun i => decide (m.spid = s.fget F.ntSesPeerid_ID i) && decide ((s.getSes i).lastSeq ≠ some m.seq)
    let s1 := s.toSessions l fun x i => x.syncTo m st i
    if takes ∨ 2 ≤ s.fget F.ntDomCfg_MODE d then s1 else s1.tsfPush p m 0 st false

/-- FOLLOW_UP_RX (R338). -/
def State.followUpRx (s : State) (p : Nat) (m : PtpMsg) : State :=
  match s.domSlot m.domain m.sdo with
  | none => s
  | some d => s.toSessions (s.sessions p d [Kind.slave, Kind.pslave]) fun x i =>
    match (x.getSes i).wait with
    | some y =>
      if y.seq = m.seq ∧ m.spid = x.fget F.ntSesPeerid_ID i ∧ x.tickNo ≤ y.until_ then
        let c := satS64 (y.corr + m.corr)
        let x1 := x.cnt .ntSesCntRx i
        if c.2 then x1.sesDiscard i else x1.syncDone i { y with t1 := m.ts, corr := c.1, fine1 := m.fine }
      else x.sesDiscard i
    | none => x.sesDiscard i

/-- A message of a session leaves (R336, R337): counted and kept as the last one sent. (DESIGN CHOICE, log entry 58.) -/
def State.sesSend (s : State) (i typ seq : Nat) (corr : Int) (ts : Instant) : State :=
  (s.setSes i { s.getSes i with tx := ⟨typ, seq, corr, ts⟩ }).cnt .ntSesCntTx i

/-- The sub-nanosecond part of an instant rounded to 2^-16 ns (R340), and its whole nanoseconds. -/
def subNs (t : Instant) : Int := rne ((t % lsbPerNs : Nat) : Int) 4
def wholeNs (t : Instant) : Instant := t / lsbPerNs * lsbPerNs

/-- A MASTER sends only while time-valid is 1; otherwise it sets HELD (R336). -/
def State.masterHeld (s : State) (i : Nat) : State := s.fset F.ntSesStat_HELD (bnat (!s.time.valid)) i

/-- DELAY_REQ_RX (R336, R340): each MASTER session of the port and domain answers with a Delay_Resp. (PRESUMED, log entry 57.) -/
def State.delayReqRx (s : State) (p : Nat) (m : PtpMsg) (o : EdgeObs) : State :=
  match s.domSlot m.domain m.sdo with
  | none => s
  | some d =>
    let st := s.stampRx p o
    let l := s.sessions p d [Kind.master]
    let s1 := s.toSessions l fun x i =>
      let x1 := (x.cnt .ntSesCntRx i).masterHeld i
      if x1.time.valid then x1.sesSend i 9 m.seq (satS64 (m.corr - subNs st.t)).1 (wholeNs st.t) else x1
    if l.isEmpty ∧ s.fget F.ntDomCfg_MODE d = 1 then s1.tsfPush p m 1 st false else s1

/-- DELAY_RESP_RX (R338, R340): the SLAVE session whose outstanding Delay_Req it answers completes a round trip. (PRESUMED, log entry 57.) -/
def State.delayRespRx (s : State) (p : Nat) (m : PtpMsg) : State :=
  match s.domSlot m.domain m.sdo with
  | none => s
  | some d => s.toSessions (s.sessions p d [Kind.slave]) fun x i =>
    let e := x.getSes i
    match e.req with
    | some r =>
      if r.seq = m.seq ∧ m.spid = x.fget F.ntSesPeerid_ID i ∧ m.reqPid / 65536 = x.fget F.ntClockId_ID then
        let x1 := (x.setSes i { e with req := none }).cnt .ntSesCntRx i
        match e.sync with
        | none => x1
        | some y =>
          if y.t2.stepSeq ≠ r.sent.stepSeq then x1.stepDrop i
          else
            let a := dif y.t2.t y.t1
            let b := satS64 (a.1 - y.corr)
            let c := dif m.ts r.sent.t
            let f := satS64 (b.1 + c.1)
            let g := satS64 (f.1 - m.corr)
            if a.2 || b.2 || c.2 || f.2 || g.2 then x1.sesDiscard i
            else ((x1.showT i 2 r.sent.t).showT i 3 m.ts).roundTrip i g.1 (r.sent.fine && m.fine)
      else x.sesDiscard i
    | none => x.sesDiscard i

/-- PDELAY_REQ_RX (R337): each PEER session of the port answers; one step carries the turnaround in the correctionField. (PRESUMED, log entry 57.) -/
def State.pdelayReqRx (s : State) (p : Nat) (m : PtpMsg) (o tx : EdgeObs) : State :=
  match s.domSlot m.domain m.sdo with
  | none => s
  | some d =>
    let t2 := s.stampRx p o
    let t3 := s.stampTx p tx
    let l := s.sessions p d [Kind.peer]
    let s1 := s.toSessions l fun x i =>
      let x1 := x.cnt .ntSesCntRx i
      if x1.fbit F.ntSesCfg_TWO_STEP i then
        (x1.sesSend i 3 m.seq (satS64 (m.corr - subNs t2.t)).1 (wholeNs t2.t)).sesSend i 10 m.seq (subNs t3.t) (wholeNs t3.t)
      else x1.sesSend i 3 m.seq (satS64 (m.corr + (dif t3.t t2.t).1)).1 0
    if l.isEmpty ∧ s.fget F.ntDomCfg_MODE d = 1 then s1.tsfPush p m 2 t2 false else s1

/-- The neighbour rate ratio from a response window (R341). -/
def ratioOf : List (Instant × Instant) → Int
  | [] => 0
  | l :: t => match t.getLast? with
    | none => 0
    | some f =>
      let a : Int := (l.1 : Int) - f.1
      let b : Int := (l.2 : Int) - f.2
      if b ≤ 0 then 0 else satY48 (rne ((a - b) * 1000000000000000) b.toNat)

/-- A peer exchange is complete (R341). -/
def State.peerDone (s : State) (i : Nat) (t1 t4 : NtStamp) (t2 t3 : Instant) (c : Int) (two fine : Bool) : State :=
  if t1.stepSeq ≠ t4.stepSeq then s.stepDrop i
  else
    let x := s.getSes i
    let rp := if two then ((t3, t4.t) :: x.resps).take (2 ^ s.fget F.ntSesCfg_DAVG i + 1) else x.resps
    let y := ratioOf rp
    let s1 := (s.setSes i { x with resps := rp }).fset F.ntSesRr_Y (bitsOf 48 y) i
    let a := dif t4.t t1.t
    let b := dif t3 t2
    let pr := rne (b.1 * (1000000000000000 + y)) 1000000000000000
    let f := satS64 (a.1 - pr)
    let g := satS64 (f.1 - c)
    if a.2 || b.2 || f.2 || g.2 then s1.sesDiscard i
    else
      let s2 := (((s1.showT i 0 t1.t).showT i 1 t2).showT i 2 t3).showT i 3 t4.t
      (s2.roundTrip i g.1 fine).fset F.ntSesStat_VALID 1 i

/-- PDELAY_RESP_RX (R341); one that no session takes goes to firmware (R330, R338). (PRESUMED, log entry 57.) -/
def State.pdelayRespRx (s : State) (p : Nat) (m : PtpMsg) (o : EdgeObs) : State :=
  match s.domSlot m.domain m.sdo with
  | none => s
  | some d =>
    let st := s.stampRx p o
    let l := s.sessions p d [Kind.peer]
    let s1 := s.toSessions l fun x i =>
      let e := x.getSes i
      match e.req with
      | some r =>
        if r.seq = m.seq ∧ m.reqPid / 65536 = x.fget F.ntClockId_ID then
          let x1 := x.cnt .ntSesCntRx i
          if m.twoStep then x1.setSes i { e with presp := some ⟨m.seq, m.ts, st, m.corr, m.fine⟩ }
          else (x1.setSes i { e with req := none }).peerDone i r.sent st 0 0 m.corr false (r.sent.fine && st.fine && m.fine)
        else x.sesDiscard i
      | none => x.sesDiscard i
    let takes := l.any fun i =>
      (((s.getSes i).req.map fun r => decide (r.seq = m.seq)).getD false) && decide (m.reqPid / 65536 = s.fget F.ntClockId_ID)
    if !takes ∧ (s.fget F.ntDomCfg_MODE d = 1 ∨ !l.isEmpty) then s1.tsfPush p m 3 st false else s1

/-- PDELAY_RESP_FOLLOW_UP_RX (R341, R344). -/
def State.pdelayFuRx (s : State) (p : Nat) (m : PtpMsg) : State :=
  match s.domSlot m.domain m.sdo with
  | none => s
  | some d => s.toSessions (s.sessions p d [Kind.peer]) fun x i =>
    let e := x.getSes i
    match e.req, e.presp with
    | some r, some w =>
      if w.seq = m.seq ∧ r.seq = m.seq then
        let c := satS64 (w.corr + m.corr)
        let x1 := (x.setSes i { e with req := none, presp := none }).cnt .ntSesCntRx i
        if c.2 then x1.sesDiscard i
        else x1.peerDone i r.sent w.t4 w.t2 m.ts c.1 true (r.sent.fine && w.t4.fine && w.fine2 && m.fine)
      else x.sesDiscard i
    | _, _ => x.sesDiscard i

/-- SYNC_TX (R336, R337, R340): a MASTER at the whole multiples of its interval. -/
def State.syncTx (s : State) (i : Nat) (o : EdgeObs) : State :=
  let x := s.getSes i
  let k := s.time.now / s.syncNs i
  if !s.fbit F.ntSesCfg_EN i ∨ s.fget F.ntSesCfg_KIND i ≠ Kind.master ∨ s.glb.limited ∨ k ≤ x.next then s
  else
    let s1 := (s.setSes i { x with next := k }).masterHeld i
    if !s1.time.valid then s1
    else
      let t := (s1.stampTx (s1.sesPort i) o).t
      let s2 := s1.setSes i { s1.getSes i with seq := (x.seq + 1) % 65536 }
      if s2.fbit F.ntSesCfg_TWO_STEP i then (s2.sesSend i 0 x.seq 0 0).sesSend i 8 x.seq (subNs t) (wholeNs t)
      else s2.sesSend i 0 x.seq (subNs t) (wholeNs t)

/-- A request leaves and waits for its answer. -/
def State.reqTx (s : State) (i typ : Nat) (o : EdgeObs) : State :=
  let x := s.getSes i
  let st := s.stampTx (s.sesPort i) o
  let s1 := s.setSes i { x with
    req := some ⟨x.seq, st⟩, presp := none, seq := (x.seq + 1) % 65536, next := x.next + s.dreqNs i }
  s1.sesSend i typ x.seq 0 0

/-- The interval of a session's requests has come. -/
def State.reqDue (s : State) (i kind : Nat) : Bool :=
  s.fbit F.ntSesCfg_EN i && decide (s.fget F.ntSesCfg_KIND i = kind) && !s.glb.limited && decide ((s.getSes i).next ≤ s.tickNo)

/-- DELAY_REQ_TX and PDELAY_REQ_TX (R337). -/
def State.delayReqTx (s : State) (i : Nat) (o : EdgeObs) : State := if s.reqDue i Kind.slave then s.reqTx i 1 o else s
def State.pdelayReqTx (s : State) (i : Nat) (o : EdgeObs) : State := if s.reqDue i Kind.peer then s.reqTx i 2 o else s

/-- SES_SYNC_TIMEOUT (R338): no accepted Sync for RX_TMO intervals; a stale delay or an invalid PEER ends VALID as well. -/
def State.sesTimeout (s : State) (i : Nat) : State :=
  let k := s.fget F.ntSesCfg_KIND i
  if !s.fbit F.ntSesStat_VALID i ∨ !(decide (k = Kind.slave) || decide (k = Kind.pslave)) then s
  else if (s.getSes i).syncAt + s.fget F.ntSesLink_RX_TMO i * s.syncNs i ≤ s.tickNo then
    (s.fon F.ntSesStat_TMO i).sesInvalid i 0
  else match s.sesDelay i with
    | some _ => s
    | none => s.sesInvalid i (if k = Kind.slave then 3 else 4)

/-- A session is enabled after its checks (R341, R344, R351): EN and RES. (DESIGN CHOICE, log entry 5; DEDUCED, log entry 60; DEDUCED, log entry 62.) -/
def State.sesEnable (s : State) (i : Nat) : State :=
  let k := s.fget F.ntSesCfg_KIND i
  let pr := s.fget F.ntSesLink_PEER i
  let mode := s.fget F.ntDomCfg_MODE (s.fget F.ntSesCfg_DOM i)
  if k = Kind.pslave ∧ !(s.fbit F.ntSesCfg_EN pr && decide (s.fget F.ntSesCfg_KIND pr = Kind.peer) && decide (s.sesPort pr = s.sesPort i)) then
    (s.fset F.ntSesStat_RES 1 i).fset F.ntSesCfg_EN 0 i
  else if k = Kind.master ∧ 2 ≤ mode then (s.fset F.ntSesStat_RES 2 i).fset F.ntSesCfg_EN 0 i
  else
    let f := s.fresh
    let nx := if k = Kind.master then s.time.now / s.syncNs i else s.tickNo + f.1 % s.dreqNs i
    ((f.2.fset F.ntSesStat_RES 0 i).fset F.ntSesCfg_EN 1 i).setSes i { syncAt := s.tickNo, next := nx }

/-- A session is disabled (R338). -/
def State.sesDisable (s : State) (i : Nat) : State := (((s.sesLost i 2).setSes i {}).fset F.ntSesStat_HELD 0 i)

/-- The sessions of a port whose link goes down lose VALID (R338). -/
def State.ntPortDown (s : State) (p : Nat) : State :=
  let l := ((s.listed .ntSesCfg).map Prod.fst).filter fun i => s.fbit F.ntSesCfg_EN i && decide (s.sesPort i = p)
  let s1 := l.foldl (fun st i => st.sesLost i 1) s
  s1.fset F.ntPortStat_RTT_V 0 p

/-- The timing role of a trunk passes on: each session of the port drops the exchange in progress (R328). -/
def State.timingMoves (s : State) (p : Nat) : State :=
  let l := ((s.listed .ntSesCfg).map Prod.fst).filter fun i => s.fbit F.ntSesCfg_EN i && decide (s.sesPort i = p)
  l.foldl (fun st i =>
    let x := st.getSes i
    if x.wait.isSome || x.req.isSome then (st.setSes i { x with wait := none, req := none, presp := none }).cnt .ntSesCntDisc i else st) s

/-! ### Ports (R331 to R335) -/

/-- The timing lane of a port loses lock: detector, phase and latencies go (R327, R331, R334). -/
def State.ntLaneLost (s : State) (p : Nat) : State :=
  let x := s.getNtPort p
  ((((s.setNtPort p { x with sum := 0, cnt := 0, mean := none, close := 0, ph := none, measured := false }).fset
    F.ntPortStat_PD_SETTLED 0 p).fset F.ntPortIlatTx_LAT 0 p).fset F.ntPortIlatRx_LAT 0 p)

/-- Internal latencies measured at lock (R327). -/
def State.ntLaneLock (s : State) (p : Nat) (tx rx : Int) : State :=
  (s.fset F.ntPortIlatTx_LAT (bitsOf 64 tx) p).fset F.ntPortIlatRx_LAT (bitsOf 64 rx) p

/-- The word period of a lane rate in 2^-14 ns, as a fraction (R332); none at 1.25 Gb/s. -/
def wordPeriod (rate : Nat) : Option (Int × Int) :=
  if rate = 3 then some (2048 * 16384, 825) else if rate = 2 then some (1024 * 16384, 165) else none

/-- A phase change taken within half a word period. -/
def unwrapPh (rate : Nat) (d : Int) : Int :=
  match wordPeriod rate with
  | none => d
  | some w => if 2 * d * w.2 > w.1 then rne (d * w.2 - w.1) w.2.toNat else if 2 * d * w.2 < -w.1 then rne (d * w.2 + w.1) w.2.toNat else d

/-- A phase in S64 LSB modulo the word period (R331). -/
def modWord (rate : Nat) (x : Int) : Int :=
  match wordPeriod rate with
  | none => x
  | some w => rne ((x * w.2) % (4 * w.1)) w.2.toNat

/-- PD_READING (R331): one reading of the phase in 2^-14 ns, while the timing lane has its recovered clock. The means are those of the unwrapped
phase. -/
def State.pdReading (s : State) (p : Nat) (ph : Int) : State :=
  let x := s.getNtPort p
  let turn := match x.ph with
    | some o => x.turn + unwrapPh (s.laneRate p) (ph - o.1)
    | none => ph
  if !s.fbit F.lnStat_CDR_LOCK (s.timingLane p) then s
  else
    let s1 := match x.ph with
      | some o =>
        if o.2 < s.tickNo then
          s.fset F.ntPortPdfreq_Y (bitsOf 48 (satY48 (rne ((turn - x.turn) * 1000000000000000) (16384 * (s.tickNo - o.2))))) p
        else s
      | none => s
    let sum := x.sum + turn
    let y := { x with turn := turn, ph := some (ph, s.tickNo) }
    if x.cnt + 1 < 2 ^ s.fget F.ntPortCfg_PD_AVG p then s1.setNtPort p { y with sum := sum, cnt := x.cnt + 1 }
    else
      let mean := rne (sum * 4) (x.cnt + 1)
      let diff : Option Nat := x.mean.map fun m => (mean - m).natAbs
      let close := match diff with
        | some d => if d * 1000 ≤ 65536 then x.close + 1 else 0
        | none => 0
      let s2 := (s1.setNtPort p { y with sum := 0, cnt := 0, mean := some mean, close := close }).fset
        F.ntPortPdph_PH (bitsOf 64 (modWord (s.laneRate p) mean)) p
      if 8 ≤ close then s2.fset F.ntPortStat_PD_SETTLED 1 p
      else match diff with
        | some d => if 5 * 65536 < d * 1000 then s2.fset F.ntPortStat_PD_SETTLED 0 p else s2
        | none => s2

/-- LANE_PHASE_MEASURED (R332): within a syntonized quad, at the two higher rates, on a locked lane. (DEDUCED, log entry 60.) -/
def State.phaseMeasured (s : State) (p : Nat) : State :=
  if s.syntonized (portQuad p) ∧ 2 ≤ s.laneRate p ∧ s.fbit F.lnStat_BLOCK_LOCK (s.timingLane p) then
    s.setNtPort p { s.getNtPort p with measured := true }
  else s

/-- ESMC_RX (R334, R335). -/
def State.esmcRx (s : State) (p code : Nat) : State :=
  let s1 := (s.fset F.ntPortStat_QL_RX code p).fset F.ntPortStat_DNU (bnat (decide (code = 15))) p
  s1.setNtPort p { s1.getNtPort p with esmcTick := s1.tickNo }

/-- ESMC_LOSS (R334): no PDU for 5 s. -/
def State.esmcLoss (s : State) (p : Nat) : State :=
  if s.fbit F.ntPortCfg_ESMC_EN p ∧ (s.getNtPort p).esmcTick + 5000000000 ≤ s.tickNo then
    candList.foldl (fun st r => if st.candType r = 4 ∧ st.candIndex r = p then st.disqualify r 1 else st) (s.fon F.ntPortStat_ESMC_LOSS p)
  else s

/-- Sessions, exchanges and means go (R348); the timestamp FIFOs of PT and what the lanes have shown stay. The register part is the caller's.
(DEDUCED, log entry 21.) -/
def State.ntClear (s : State) : State :=
  { s with nt := { port := s.nt.port.mapVals {} fun x => { esmcTick := x.esmcTick, ph := x.ph, turn := x.turn, measured := x.measured, tsf := x.tsf } } }

end Sys2Proof.Machine
end

