-- ==== Sys2Proof/Machine/TiuOps.lean ====
section
/-! DEFINITION. Records and the record FIFO of a time-interval unit (R124 to R128), and the timestamp of a hit (R110). -/

namespace Sys2Proof.Machine

/-- FLAGS bits of a record (R125). -/
structure RecFlags where
  valid : Bool := false
  deg : Bool := false
  sense : Bool := false
  reversed : Bool := false
  coincident : Bool := false
  order : Bool := false
  ovf : Bool := false
  timeout : Bool := false
  close : Bool := false
  gap : Bool := false
  late : Bool := false
  event : Bool := false
  deriving DecidableEq, Repr

def RecFlags.pack (f : RecFlags) : Nat :=
  bnat f.valid + 2 * bnat f.deg + 4 * bnat f.sense + 8 * bnat f.reversed + 16 * bnat f.coincident + 32 * bnat f.order +
  64 * bnat f.ovf + 128 * bnat f.timeout + 256 * bnat f.close + 512 * bnat f.gap + 1024 * bnat f.late + 2048 * bnat f.event

/-- The 256 bits of a record (R124). -/
def Rec.pack (r : Rec) : Nat :=
  packT96 r.time + bitsOf 64 r.value * 2 ^ 96 + r.src % 65536 * 2 ^ 160 + r.flags % 65536 * 2 ^ 176 +
  r.aux % 2 ^ 32 * 2 ^ 192 + r.seq % 2 ^ 32 * 2 ^ 224

/-- SRC of a TIU record, an EO record and a marker (R124). -/
def srcTiu (u : Nat) : Nat := u
def srcEo (n : Nat) : Nat := 0x4000 + n
def srcMark : Nat := 0x8000

/-- A sense selector of R136 and R139 admits a transition: 0 both, 1 rising, 2 falling. -/
def senseOk (sel : Nat) (rising : Bool) : Bool :=
  decide (sel = 0) || (decide (sel = 1) && rising) || (decide (sel = 2) && !rising)

/-- The timestamp of a hit captured in the tick whose device time is `tk` ns, with a bin centre and an offset (R110). -/
def hitStamp (tk centre : Nat) (ofs : Int) : Instant :=
  let f : Int := (centre : Int) - ofs
  let w : Int := f / finePerNs
  let r : Int := f % finePerNs
  let t := (addSpan (ofNs tk) (w * s64PerNs)).1
  min (t + (rne r 64).toNat) instantMax

/-- The timestamp a unit gives a capture (R110). -/
def State.stampOf (s : State) (u tk code : Nat) : Instant :=
  hitStamp tk (s.tiuCentre u code) (signedOf 32 (s.fget F.tiuOfs_OFS u))

/-- Put a completed record into a unit's FIFO, or lose and count it (R127). CLOSE and GAP ride on it (R125). -/
def State.tiuPush (s : State) (u : Nat) (r : Rec) (eo : Option Nat) : State :=
  let t := s.getTiu u
  if 64 ≤ t.fifo.length + t.reserved then
    ((s.setTiu u { t with gapNext := true }).cnt .tiuCntGap u).fon F.tiuStat_GAP u
  else
    let fl := r.flags ||| 256 * bnat t.closeNext ||| 512 * bnat t.gapNext
    s.setTiu u { t with fifo := t.fifo ++ [⟨{ r with flags := fl }, eo⟩], closeNext := false, gapNext := false }

/-- Put a checked transition's record into the entry it reserved (R127). -/
def State.tiuPushReserved (s : State) (u : Nat) (r : Rec) (eo : Option Nat) : State :=
  let t := s.getTiu u
  (s.setTiu u { t with reserved := t.reserved - 1 }).tiuPush u r eo

end Sys2Proof.Machine
end

