-- ==== Sys2Proof/Machine/EoOps.lean ====
section
/-! DEFINITION. The edge output channels (R65 to R107): entries, acceptance, lateness, trains, the transition filter, commit, launch,
profile engines, verification, enables, faults and time steps. -/

namespace Sys2Proof.Machine

/-! ### Entries (R71) -/

def eType (e : Nat) : Nat := bits e 3 0
def eLevel (e : Nat) : Bool := bit e 4
def eUnlim (e : Nat) : Bool := bit e 5
def eChain (e : Nat) : Bool := bit e 6
def eCont (e : Nat) : Bool := bit e 7
def eBank (e : Nat) : Nat := bits e 8 8
def eResv (e : Nat) : Nat := bits e 31 9
def eStart (e : Nat) : Nat := bits e 127 32
def eWidth (e : Nat) : Int := s64Of (bits e 191 128)
def ePeriod (e : Nat) : Int := signedOf 80 (bits e 271 192)
def eCount (e : Nat) : Nat := bits e 319 288
def eOffset (e : Nat) : Int := s64Of (bits e 95 32)

/-- Build an entry's 320 bits. -/
def mkEntry (typ : Nat) (level unlim chain cont : Bool) (bank start width period count : Nat) : Nat :=
  typ + 16 * bnat level + 32 * bnat unlim + 64 * bnat chain + 128 * bnat cont + 256 * bank + start * 2 ^ 32 +
  width * 2 ^ 128 + period * 2 ^ 192 + count * 2 ^ 288

/-! Result codes (R72). -/
namespace Code
def accepted : Nat := 0
def acceptedLate : Nat := 1
def lateDrop : Nat := 2
def qfull : Nat := 3
def badArg : Nat := 4
def noncanon : Nat := 5
def chOff : Nat := 6
def srcErr : Nat := 7
def profErr : Nat := 8
def zero : Nat := 9
end Code

/-- The lead time EO_LEAD_MIN and a PROF's (R81). -/
def leadNs : Nat := 24
def profLeadNs : Nat := 64

/-- Guard LSBs (2^-34 ns) in a T96 LSB and in one period LSB (2^-32 ns). -/
def guardOf (t : Instant) : Int := (t : Int) * guardPerLsb

/-- The exact accumulated rise k of a train, 2^-34 ns (R63). -/
def trainAcc (start : Instant) (period : Int) (k : Nat) : Int := guardOf start + k * (4 * period)

/-- An instant from an exact integer count of T96 LSBs, held inside T96 (R41). -/
def clampInstant (x : Int) : Instant := if x < 0 then 0 else if x > (instantMax : Int) then instantMax else x.toNat

/-- The BAD_ARG conditions that depend on the entry alone (R72), START.FRAC apart. -/
def badArgStatic (e : Nat) : Bool :=
  decide (4 < eType e) || decide (eResv e ≠ 0) ||
  (decide (eType e = 1 ∨ eType e = 2) && decide (eWidth e < 0)) ||
  (decide (eType e = 2) && (decide (1 ≤ eCount e) || eUnlim e) &&
    (decide (ePeriod e < 2 ^ 32) || decide (ePeriod e ≤ eWidth e * 2 ^ 16))) ||
  (decide (eType e = 3) && decide (64 < eCount e))

/-- TYPE is not allowed for a channel's SRC (R72, SRC_ERR). -/
def srcErrType (src typ : Nat) : Bool :=
  (decide (src = 0) && decide (typ = 3)) ||
  (decide (src = 1) && !(decide (typ = 3) || decide (typ = 4))) ||
  (decide (src = 2) && !decide (typ = 4))

/-- The bank of a channel is powered (R67, R107). -/
def State.bankOn (s : State) (n : Nat) : Bool := s.fbit F.eoBankCtl_PWR (n / 8)

/-- The channel refuses actions with CH_OFF (R72, R92). -/
def State.eoOff (s : State) (n : Nat) : Bool :=
  !s.fbit F.eoCtl_EN n || !s.bankOn n || !decide ((s.getEo n).stand = .run)

/-- The train most recently accepted that still holds its entry (R79). -/
def lastTrain (q : List QAct) : Option QAct :=
  (q.filter fun a => decide (a.kind = .train)).foldl
    (fun m a => match m with
      | none => some a
      | some b => if b.id ≤ a.id then some a else some b) none

/-! ### Profiles (R84 to R88) -/

/-- Load the next segment that has ticks, or apply the end mode (R86). -/
def loadSegs (halt : Bool) (e : Engine) : List Seg → Engine
  | [] => if halt then { e with h := 0, left := 0, segs := [], ended := true } else { e with h := 0, left := 0, segs := [] }
  | g :: t => if g.dur = 0 then loadSegs halt e t else { e with h := g.h, left := g.dur, segs := t }

/-- A segment is loaded when the engine has used up the last one. -/
def Engine.load (e : Engine) : Engine := if e.left ≠ 0 then e else loadSegs e.cap.halt e e.segs

/-- One tick of the integration (R84): exact. -/
def Engine.step (e : Engine) : Engine :=
  let e1 := e.load
  if e1.ended then e1
  else { e1 with x := e1.x + e1.v + e1.h, v := e1.v + 2 * e1.h, left := e1.left - 1, tick := e1.tick + 1 }

/-- `m` ticks inside one segment (R84): the closed form. -/
def Engine.jump (e : Engine) (m : Nat) : Engine :=
  { e with x := e.x + e.v * m + e.h * (m * m : Nat), v := e.v + 2 * e.h * m, left := e.left - m, tick := e.tick + m }

/-- Advance an engine by `m` ticks through its segments; `fuel` bounds the number of segments. An ended engine stays where it
ended. -/
def Engine.advance : Nat → Nat → Engine → Engine
  | 0, _, e => e
  | fuel + 1, m, e =>
    if m = 0 then e
    else
      let e1 := e.load
      if e1.ended then e1
      else if e1.left = 0 then e1.jump m
      else if m ≤ e1.left then e1.jump m
      else Engine.advance fuel (m - e1.left) (e1.jump e1.left)

/-- Advance to a tick of device time. -/
def Engine.goTo (e : Engine) (t : Nat) : Engine := e.advance 66 (t - e.tick)

/-- The engine of a profile at a tick of device time. -/
def Track.at (k : Track) (t : Nat) : Engine :=
  k.e.goTo (match k.stop with
    | some m => min t m
    | none => t)

/-- The profile is running at a tick. -/
def Track.runs (k : Track) (t : Nat) : Bool :=
  decide (k.e.tick ≤ t) && !(k.stop.any fun m => decide (m ≤ t)) && (let e := k.at t; !(e.ended && decide (e.tick < t)))

/-- The profile has yet to start or is running at a tick. -/
def Track.live (k : Track) (t : Nat) : Bool := (decide (t < k.e.tick) && !(k.stop.any fun m => decide (m ≤ k.e.tick))) || k.runs t

/-- Start a profile: those it replaces before now are forgotten. -/
def trackStart (now : Nat) (e : Engine) (l : List Track) : List Track :=
  ⟨e, none⟩ :: (l.filter fun k => decide (now < k.e.tick)) ++ ((l.find? fun k => decide (k.e.tick ≤ now)).map fun k => [k]).getD []

/-- The profile of an action stops at a tick. -/
def trackStop (act t : Nat) (l : List Track) : List Track :=
  l.map fun k => if k.e.act = act ∧ k.stop = none then { k with stop := some t } else k

/-- Every profile stops now; those yet to start do not. -/
def trackHalt (now : Nat) (l : List Track) : List Track :=
  (l.filter fun k => decide (k.e.tick ≤ now)).map fun k => { k with stop := some (min now (k.stop.getD now)) }

/-- Start an engine at an anchor (R86). -/
def engineAt (act tag : Nat) (cap : ProfCap) (x v : Int) (anchor : Nat) : Engine :=
  { act := act, tag := tag, x := x, v := v, segs := cap.segs, tick := anchor, cap := cap }

/-- The first tick at or after an instant. -/
def ceilNs (t : Instant) : Nat := (t + (lsbPerNs - 1)) / lsbPerNs

/-- The earliest tick at which a cut stops an action's profile (R80). -/
def cutTick (cuts : List Cut) (id : Nat) : Option Nat :=
  ((cuts.filter fun c => decide (id < c.before)).map fun c => ceilNs c.at_).min?

/-- The running profile at a tick, none when it has ended before it (R86). -/
def engineAtTick (cuts : List Cut) (e : Engine) (t : Nat) : Option Engine :=
  match cutTick cuts e.act with
  | some c => if c < t then none else
      let e1 := e.goTo t
      if e1.ended ∧ e1.tick < t then none else some e1
  | none =>
      let e1 := e.goTo t
      if e1.ended ∧ e1.tick < t then none else some e1

/-- The engine that a queued PROF starts, given the engine running until then. -/
def profStartOf (cuts : List Cut) (run : Option Engine) (a : QAct) (cap : ProfCap) : Option Engine :=
  let anchor := nsOf a.start
  if cap.cont then
    match run with
    | none => none
    | some e => match engineAtTick cuts e anchor with
      | none => none
      | some e1 => some (engineAt a.id a.tag cap e1.x e1.v anchor)
  else some (engineAt a.id a.tag cap cap.x0 cap.v0 anchor)

/-- A cut discards a queued action: its first transition lies at or after the cut (R80). -/
def cutOff (cuts : List Cut) (a : QAct) : Bool := cuts.any fun c => decide (a.id < c.before ∧ c.at_ ≤ a.first)

/-- The profile the engine will be running at an anchor, projected through the queued PROFs that no cut discards (R86). -/
def projectProf (c : Eo) (anchor : Nat) : Option Engine :=
  let run := (c.queue.filter fun a => !a.active && decide (nsOf a.start < anchor) && !cutOff c.cuts a).foldl
    (fun r a => match a.prof with
      | some cap => profStartOf c.cuts r a cap
      | none => r) c.engine
  match run with
  | none => none
  | some e => engineAtTick c.cuts e anchor

/-- A velocity lies in the sQ0.64 range. -/
def velOk (v : Int) : Bool := decide (-(2 ^ 63) ≤ v ∧ v < 2 ^ 63)

/-- The velocity after each segment and after the last (R87). -/
def segVels (v : Int) : List Seg → List Int
  | [] => []
  | g :: t => (v + 2 * g.h * g.dur) :: segVels (v + 2 * g.h * g.dur) t

/-- The captured values of a PROF entry (R87): the register values now. -/
def State.profCapOf (s : State) (n e : Nat) : ProfCap :=
  { dirinv := s.fbit F.eoProfCtl_DIRINV n
    zw := s.fget F.eoProfCtl_ZW n
    halt := s.fbit F.eoProfCtl_END n
    abz := decide (s.fget F.eoProfCtl_MODE n = 1)
    lines := s.fget F.eoProfLines_LINES n
    zpos := s.fget F.eoProfZpos_ZPOS n
    x0 := signedOf 128 (s.fget F.eoProfX0_X0 n)
    v0 := s64Of (s.fget F.eoProfV0_V0 n)
    cont := eCont e
    bank := eBank e
    segs := (List.range (min (eCount e) 64)).map fun i =>
      ⟨s.fget F.eoSeg_DUR n (eBank e) i, s64Of (s.fget F.eoSeg_H n (eBank e) i)⟩ }

/-- A channel stands ready to follow leader n (R87, PLACE). -/
def State.followOk (s : State) (n m : Nat) : Bool :=
  decide (m / 8 = n / 8) && decide (s.fget F.eoCtl_SRC m = 2) && s.fbit F.eoCtl_EN m

/-- The PROF checks of R87: 0 when the profile passes, else PERR. -/
def State.profCheck (s : State) (n : Nat) (cap : ProfCap) (anchor : Nat) : Nat :=
  let c := s.getEo n
  let run := projectProf c anchor
  if cap.cont ∧ run = none then 5
  else
    let v0 := if cap.cont then (run.map Engine.v).getD 0 else cap.v0
    let vs := segVels v0 cap.segs
    if !(vs.all velOk) then 1
    else if cap.halt ∧ vs.getLastD v0 ≠ 0 then 2
    else if !(s.followOk n (n + 1)) || (cap.abz && !(s.followOk n (n + 2))) then 3
    else if cap.abz ∧ 1 ≤ cap.lines ∧ 4 * cap.lines ≤ cap.zpos then 4
    else 0

/-- The checks of codes 0x4 to 0x9 in ascending order (R73): the code, 0 when all pass, and PERR of a PROF_ERR. -/
def State.eoCheck (s : State) (n e : Nat) : Nat × Nat :=
  if badArgStatic e || (decide (eType e = 3) && decide (eStart e % 2 ^ 18 ≠ 0)) then (Code.badArg, 0)
  else match unpackT96 (eStart e) with
    | none => (Code.noncanon, 0)
    | some start =>
      if s.eoOff n then (Code.chOff, 0)
      else if srcErrType (s.fget F.eoCtl_SRC n) (eType e) || (decide (eType e = 2) && eChain e && (lastTrain (s.getEo n).queue).isNone)
        then (Code.srcErr, 0)
      else if eType e = 3 ∧ s.profCheck n (s.profCapOf n e) (nsOf start) ≠ 0 then
        (Code.profErr, s.profCheck n (s.profCapOf n e) (nsOf start))
      else if (eType e = 1 ∨ eType e = 2) ∧ (eWidth e = 0 ∨ (eType e = 2 ∧ eCount e = 0 ∧ ¬ eUnlim e)) then (Code.zero, 0)
      else (0, 0)

/-! ### The queue -/

/-- Insert by first target, by acceptance among equal ones (R65). -/
def insertAct (a : QAct) : List QAct → List QAct
  | [] => [a]
  | b :: t => if a.first < b.first ∨ (a.first = b.first ∧ a.id < b.id) then a :: b :: t else b :: insertAct a t

/-- The action an entry makes, on time, accepted as number `id` (R74). -/
def State.actOfEntry (s : State) (n id e tag : Nat) (start : Instant) : QAct :=
  { id := id
    kind := if eType e = 0 then .edge else if eType e = 1 then .pulse else if eType e = 2 then .train else .prof
    tag := tag, start := start, first := start
    level := eLevel e, width := eWidth e, period := ePeriod e, count := eCount e, unlim := eUnlim e, asap := s.fbit F.eoCtl_LATE n
    prof := if eType e = 3 then some (s.profCapOf n e) else none }

/-- The rising instant r_k of a train (R63, R74). -/
def trainRise (start : Instant) (period : Int) (k : Nat) : Instant := clampInstant (trainInstant (trainAcc start period k))

/-- The number of pulses of a train that rise before an instant (R81, ASAP): by the exact instants, less the last one if rounding brings it
up to the instant. -/
def skipCount (start lim : Instant) (period : Int) : Nat :=
  if lim ≤ start then 0
  else
    let k := ((guardOf lim - guardOf start + (4 * period - 1)) / (4 * period)).toNat
    if lim ≤ trainRise start period (k - 1) then k - 1 else k

/-- A late action under policy ASAP (R81): an EDGE or PULSE is shifted, a TRAIN skips pulses. -/
def asapAct (a : QAct) (lim : Instant) : QAct :=
  match a.kind with
  | .train =>
    let k := skipCount a.start lim a.period
    { a with next := 2 * k, first := trainRise a.start a.period k }
  | _ => { a with start := lim, first := lim, late := true, shift := a.shift + ((lim : Int) - a.start) }

/-- A train accepted with CHAIN limits the train it replaces to the pulses rising before START − PERIOD/2 (R79). -/
def chainLimit (q : List QAct) (start : Instant) : List QAct :=
  match lastTrain q with
  | none => q
  | some r => q.map fun a =>
      if a.id = r.id then
        let l := guardOf start - 2 * a.period
        { a with limit := some (match a.limit with
          | none => l
          | some m => min m l) }
      else a

/-- The instant an action's pulses may not reach: its own limit and the cuts that govern it, 2^-34 ns. (DEDUCED, log entry 35.) -/
def effLimit (cuts : List Cut) (a : QAct) : Option Int :=
  (cuts.filter fun c => decide (a.id < c.before)).foldl
    (fun m c => match m with
      | none => some (guardOf c.at_)
      | some x => some (min x (guardOf c.at_))) a.limit

/-- The next transition an action makes (R74): target, level, pulse number, whether it starts the pulse. -/
def nextOf (cuts : List Cut) (a : QAct) : Option (Instant × Bool × Nat × Bool) :=
  if a.done then none
  else match a.kind with
    | .prof => none
    | .edge => if a.next = 0 then some (a.start, a.level, 0, true) else none
    | .pulse =>
      if a.next = 0 then some (a.start, true, 0, true)
      else if a.next = 1 then some ((addSpan a.start a.width).1, false, 0, false)
      else none
    | .train =>
      let k := a.next / 2
      let rise := trainRise a.start a.period k
      if a.next % 2 = 1 then some ((addSpan rise a.width).1, false, k, false)
      else if ¬ a.unlim ∧ a.count ≤ k then none
      else match effLimit cuts a with
        | some l => if l ≤ guardOf rise then none else some (rise, true, k, true)
        | none => some (rise, true, k, true)

/-- An action has nothing left in the generators or the filter (R65). -/
def finished (cuts : List Cut) (a : QAct) : Bool :=
  decide (a.inFlow = 0) &&
    (match a.kind with
     | .prof => a.active && a.done
     | _ => (nextOf cuts a).isNone)

/-- Take actions out of the queue; EO_QLOW is raised when the depth crosses down to QLOW (R94). Of several that leave together the last in the
queue gives the event its tag. (DESIGN CHOICE, log entry 92.) -/
def State.eoLeave (s : State) (n : Nat) (p : QAct → Bool) : State :=
  let c := s.getEo n
  let gone := c.queue.filter p
  let kept := c.queue.filter fun a => !p a
  let ql := s.fget F.eoCtl_QLOW n
  let s1 := s.setEo n { c with queue := kept }
  if gone.isEmpty then s
  else s1.raiseIf (decide (ql < c.queue.length) && decide (kept.length ≤ ql)) (Prod.eoQlow n) s.nowI
    ((gone.getLast?.map QAct.tag).getD 0 + 1)

/-- Actions whose work is over leave the queue. -/
def State.eoSettle (s : State) (n : Nat) : State := s.eoLeave n (finished (s.getEo n).cuts)

/-! ### Acceptance (R70 to R73, R80, R81) -/

/-- A requester's result register (R96). -/
def State.getQres (s : State) (q : Requester) (n : Nat) : QRes := s.qres.get {} ⟨q, ⟨.eoQres, n, 0, 0⟩⟩
def State.setQres (s : State) (q : Requester) (n : Nat) (r : QRes) : State :=
  { s with qres := s.qres.put ReqKey.code {} ⟨q, ⟨.eoQres, n, 0, 0⟩⟩ r }

/-- An action's code goes to whoever offered it (R72); codes from 0x2 set REFUSED and count. (DEDUCED, log entry 38.) -/
def State.eoResult (s : State) (n : Nat) (src : ActSrc) (code : Nat) : State :=
  let s1 := if 2 ≤ code then (s.fon F.eoStat_REFUSED n).cnt .eoCntRefuse n else s
  match src with
  | .reg q => s1.setQres q n { s1.getQres q n with code := code }
  | .slot => s1
  | .task d k => s1.actionResult d.val k.val n code

/-- A late action is counted and reported (R81). -/
def State.eoLate (s : State) (n : Nat) (ts : Instant) (tag : Nat) : State :=
  ((s.fon F.eoStat_LATE n).cnt .eoCntLate n).raiseEv (Prod.eoLate n) ts (tag + 1)

/-- Put an accepted action into the queue. (DEDUCED, log entry 35.) -/
def State.eoEnqueue (s : State) (n : Nat) (a : QAct) (chain : Bool) : State :=
  let c := s.getEo n
  let q := if chain then chainLimit c.queue a.start else c.queue
  (s.setEo n { c with queue := insertAct a q, nextAct := c.nextAct + 1 }).eoSettle n

/-- Judge an offered action at its acceptance tick (R72, R73, R81): the state after and the code. -/
def State.eoJudge (s : State) (n : Nat) (o : Offer) : State × Nat :=
  let (code, perr) := s.eoCheck n o.entry
  if code = Code.profErr then
    ((s.fon F.eoStat_PROF_ERR n).setEo n { s.getEo n with perr := perr }, code)
  else if code ≠ 0 then (s, code)
  else
    let start := (unpackT96 (eStart o.entry)).getD 0
    let c := s.getEo n
    if eType o.entry = 4 then
      (s.setEo n { c with cuts := c.cuts ++ [⟨max start (ofNs (s.time.now + leadNs)), c.nextAct⟩] }, Code.accepted)
    else
      let a := s.actOfEntry n c.nextAct o.entry o.tag start
      let lim := ofNs (s.time.now + (if eType o.entry = 3 then profLeadNs else leadNs))
      let chain := decide (eType o.entry = 2) && eChain o.entry
      if start < lim then
        if eType o.entry = 3 ∨ ¬ s.fbit F.eoCtl_LATE n then (s.eoLate n start o.tag, Code.lateDrop)
        else if 64 ≤ c.queue.length then (s, Code.qfull)
        else ((s.eoEnqueue n (asapAct a lim) chain).eoLate n start o.tag, Code.acceptedLate)
      else if 64 ≤ c.queue.length then (s, Code.qfull)
      else (s.eoEnqueue n a chain, Code.accepted)

/-- The order in which offers of one tick are accepted (R70). -/
def ActSrc.order : ActSrc → Nat
  | .task d _ => d.val
  | .slot => 16
  | .reg q => 17 + q.order

/-- The offer that is next: the least source order among those due, earliest offered first, also where a newer offer of a higher source meets
an older one. (DESIGN CHOICE, log entry 87.) -/
def pickOffer (now : Nat) (l : List Offer) : Option Offer :=
  (l.filter fun o => decide (o.due ≤ now)).foldl
    (fun m o => match m with
      | none => some o
      | some b => if o.src.order < b.src.order then some o else some b) none

/-- Offer an action to a channel. -/
def State.eoOffer (s : State) (n : Nat) (o : Offer) : State :=
  let c := s.getEo n
  s.setEo n { c with offers := c.offers ++ [o] }

/-- Accept or refuse the next offer of a channel, one a tick (R70). -/
def State.eoAccept (s : State) (n : Nat) : State :=
  let c := s.getEo n
  match pickOffer s.tickNo c.offers with
  | none => s
  | some o =>
    if c.acceptTick = some s.tickNo then s
    else
      let s1 := s.setEo n { c with offers := c.offers.erase o, acceptTick := some s.tickNo }
      let r := s1.eoJudge n o
      let s2 := if r.2 ≤ 1 then r.1.calRelease n else r.1
      s2.eoResult n o.src r.2

/-- The launch tick a target has with the table in force. (DEDUCED, log entry 34.) -/
def State.launchTick (s : State) (n : Nat) (t : Instant) : Int := (toGrid (s.tableNow n) t).tick

/-- The earliest target that a launch at a tick reaches with the table in force (R61). -/
def State.tickTarget (s : State) (n tick : Nat) : Instant := (tick * finePerNs + (s.tableNow n).d + 63) / 64

/-- How many actions are active on a channel (R65). -/
def activeCount (q : List QAct) : Nat := (q.filter QAct.active).length

/-- Discard an action that finds no generator (R66). -/
def State.actFull (s : State) (n id : Nat) : State :=
  ((s.eoLeave n fun a => decide (a.id = id)).fon F.eoStat_ACT_FULL n).cnt .eoCntActFull n

/-- The first queued action that is due to take a generator: its first transition enters the filter 17 ticks before its launch
tick (R65), and no cut governs it. -/
def State.activationDue (s : State) (n : Nat) : Option QAct :=
  let c := s.getEo n
  c.queue.find? fun a =>
    !a.active && !decide (a.kind = .prof) && (nextOf c.cuts a).isSome &&
    decide (s.launchTick n a.first ≤ (s.time.now : Int) + 17) && !cutOff c.cuts a

/-- Give an action a generator. -/
def markActive (id : Nat) (q : List QAct) : List QAct := q.map fun a => if a.id = id then { a with active := true } else a

/-- ACTION_ACTIVATE (R66). (DESIGN CHOICE, log entry 2.) -/
def State.eoActivate (s : State) (n : Nat) : State :=
  match s.activationDue n with
  | none => s
  | some a =>
    let c := s.getEo n
    if 4 ≤ activeCount c.queue then s.actFull n a.id
    else s.setEo n { c with queue := markActive a.id c.queue }

/-! ### The transition filter (R75, R76) -/

/-- Transitions removed from the filter no longer count as flowing for their action. -/
def unflow (t : Trans) (q : List QAct) : List QAct :=
  q.map fun a => if t.act = some a.id then { a with inFlow := a.inFlow - 1 } else a

/-- A transition enters for its action. -/
def inflow (t : Trans) (q : List QAct) : List QAct :=
  q.map fun a => if t.act = some a.id then { a with inFlow := a.inFlow + 1 } else a

/-- The next transition of each active action, in queue order, and the engine's next for this output. -/
def filterCands (c : Eo) : List Trans :=
  (c.queue.filter QAct.active).filterMap (fun a =>
    (nextOf c.cuts a).map fun r => ⟨some a.id, r.2.2.1, r.2.2.2, r.1, r.2.1, a.tag + 1, a.late, false⟩) ++ c.profNext.take 1

/-- The earliest candidate, the first in queue order on a tie. -/
def earliestTrans (l : List Trans) : Option Trans :=
  l.foldl (fun m t => match m with
    | none => some t
    | some b => if t.target < b.target then some t else some b) none

/-- Take a candidate out of its generator. -/
def consumeCand (c : Eo) (t : Trans) : Eo :=
  match t.act with
  | some id =>
    if t.eng then { c with profNext := c.profNext.drop 1 }
    else { c with queue := c.queue.map fun a => if a.id = id then { a with next := a.next + 1, inFlow := a.inFlow + 1 } else a }
  | none => { c with profNext := c.profNext.drop 1 }

/-- The runt limit: 250 ps in T96 LSB. -/
def runtLsb : Nat := 65536

/-- A transition that has entered is judged (R75, R76): null, a runt pair with the one before it, or kept. -/
def State.filterJudge (s : State) (n : Nat) (t : Trans) : State :=
  let c := s.getEo n
  if t.level = c.flevel then
    (s.setEo n { c with queue := unflow t c.queue }).cnt .eoCntNull n
  else match c.filter.getLast? with
    | some p =>
      if t.target < p.target + runtLsb then
        ((s.setEo n { c with filter := c.filter.dropLast, flevel := t.level, queue := unflow p (unflow t c.queue) }).cnt
          .eoCntRunt n).fon F.eoStat_RUNT n
      else s.setEo n { c with filter := c.filter ++ [t], flevel := t.level }
    | none => s.setEo n { c with filter := c.filter ++ [t], flevel := t.level }

/-- TRANSITION_FILTER: the next transition that is due enters the filter. (DEDUCED, log entry 34.) -/
def State.eoFilter (s : State) (n : Nat) : State :=
  let c := s.getEo n
  match earliestTrans (filterCands c) with
  | none => s
  | some t =>
    if s.launchTick n t.target ≤ (s.time.now : Int) + 17 then
      ((s.setEo n (consumeCand c t)).filterJudge n t).eoSettle n
    else s

/-! ### Commit and launch (R65, R76 to R78, R89) -/

/-- How many commits have a launch tick. -/
def loadAt (l : List Int) (t : Int) : Nat := (l.filter fun x => decide (x = t)).length

/-- A transition within 250 ps of this one has yet to enter the filter (R77): from an active action or the engine, or from a queued action
that has yet to take a generator. -/
def State.filterWaits (s : State) (n : Nat) (t : Trans) : Bool :=
  let c := s.getEo n
  ((earliestTrans (filterCands c)).any fun x => decide (x.target < t.target + runtLsb)) ||
  (c.queue.any fun a => !a.active && !cutOff c.cuts a && decide (a.first < t.target + runtLsb))

/-- TRANSITION_COMMIT: the head of the filter is converted with the table in force 16 ticks before its launch tick, once every transition
within 250 ps of it is in the filter (R77); a third in a launch tick goes, and the next one with it (R76). A hold of CAL ends before (R90).
(DEDUCED, log entry 34.) -/
def State.eoCommit (s0 : State) (n : Nat) : State :=
  let s := s0.calRelease n
  let c := s.getEo n
  match c.filter with
  | [] => s0
  | t :: rest =>
    if (s.time.now : Int) + 16 < s.launchTick n t.target ∨ s.filterWaits n t then s0
    else
      let s1 := s.setEo n { c with filter := rest, queue := unflow t c.queue }
      let c1 := s1.getEo n
      if c.dropNext then (s1.setEo n { c1 with dropNext := false }).eoSettle n
      else
        let r := s1.commitTable n t.target
        let g := toGrid r.1 t.target
        if 2 ≤ loadAt c.tickLoad g.tick then
          (((s1.setEo n { c1 with dropNext := true }).cnt .eoCntRate n).fon F.eoStat_RATE n).eoSettle n
        else
          let c2 := r.2.getEo n
          (r.2.setEo n { c2 with
            committed := c2.committed ++ [⟨t, g.tick, g.tap, g.code, g.res⟩]
            tickLoad := (g.tick :: c2.tickLoad).take 4 }).eoSettle n

/-- FLAGS of an edge record (R125). -/
def winFlags (w : Win) : Nat :=
  ({ valid := w.valid, deg := w.deg, sense := w.level, late := w.late } : RecFlags).pack

/-- A verification record takes the next sequence number while TALLY is 1 (R126). -/
def State.eoRec (s : State) (n : Nat) (time : Instant) (value : Int) (flags outcome : Nat) (res : Int) : Rec × State :=
  let c := s.getEo n
  let rcd : Rec := ⟨time, value, srcEo n, flags, bitsOf 10 res + outcome * 4096, c.seq⟩
  (rcd, if s.fbit F.eoCtl_TALLY n then s.setEo n { c with seq := (c.seq + 1) % 2 ^ 32 } else s)

/-- The monitor unit of a channel is in monitor mode. -/
def State.monitorOn (s : State) (n : Nat) : Bool := decide (s.fget F.tiuCtl_MODE (32 + n) = 4)

/-- The 6 ns within which a transition is not checked, in T96 LSB (R89). -/
def verifyGapLsb : Nat := 6 * lsbPerNs

/-- A launched transition is selected for verification or skipped (R89). While its bank powers up no outcome arises (R67). -/
def State.eoSelect (s : State) (n : Nat) (w : Win) (prev : Option Instant) : State :=
  let c := s.getEo n
  let ratio := s.fget F.eoVerifySel_RATIO n
  let chosen := senseOk (s.fget F.eoVerifySel_EDGES n) w.level
  let turn := chosen && decide (ratio ≠ 0) && decide (c.selCount % ratio = 0)
  let s1 := if chosen then s.setEo n { c with selCount := c.selCount + 1 } else s
  let t := s1.getTiu (32 + n)
  let near := match prev with
    | some p => decide (w.target < p + verifyGapLsb)
    | none => false
  let check := turn && !near && s1.monitorOn n && decide (t.fifo.length + t.reserved < 64)
  let c1 := s1.getEo n
  let s2 := s1.setEo n { c1 with wins := c1.wins ++ [{ w with checked := check && !c.poweringUp }] }
  if c.poweringUp then s2
  else if check then s2.setTiu (32 + n) { t with reserved := t.reserved + 1 }
  else
    let r := (s2.cnt .eoCntSkip n).eoRec n w.target 0 (winFlags w) 4 w.res
    r.2.tiuPush (32 + n) r.1 (some n)

/-- TRANSITION_LAUNCH (R78): the first committed transition whose tick has come leaves. -/
def State.eoLaunch (s : State) (n : Nat) : State :=
  let c := s.getEo n
  match c.committed with
  | [] => s
  | l :: rest =>
    if (s.time.now : Int) < l.tick then s
    else
      let keep := c.wins.filter fun w => !w.reported && (w.checked || decide (s.tickNo < w.tick + 1000))
      let s1 := s.setEo n { c with
        committed := rest, level := l.tr.level, lastTarget := some l.tr.target, lastTag := l.tr.tag, wins := keep }
      let s2 := ((s1.cnt64 .eoCntIss 1 n).fonIf s.deg F.eoStat_DEGRADED n).raiseEv (Prod.eoIss n) l.tr.target l.tr.tag
      s2.eoSelect n ⟨l.tr.target, l.tr.level, l.tr.tag, l.tr.late, s.deg, s.time.valid, l.res, false, none, false, s.tickNo⟩ c.lastTarget

/-! ### Verification (R89, R90) -/

/-- The half-width of a capture window: 2 ns. -/
def windowLsb : Nat := 2 * lsbPerNs

/-- An instant lies in a window. -/
def inWindow (w : Win) (t : Instant) : Bool := decide (w.target ≤ t + windowLsb ∧ t ≤ w.target + windowLsb)

/-- Give a monitor hit to the first checked window that wants it. -/
def takeHit (t : Instant) (rising : Bool) : List Win → List Win
  | [] => []
  | w :: l =>
    if w.checked ∧ w.hit = none ∧ ¬ w.reported ∧ w.level = rising ∧ inWindow w t then { w with hit := some t } :: l
    else w :: takeHit t rising l

/-- An EXTRA outcome (R89). The edge belongs to no transition: its EO_ERR carries the tag of the last launched one. (DESIGN CHOICE, log entry
91.) -/
def State.eoExtra (s : State) (n : Nat) (t : Instant) (rising : Bool) : State :=
  let c := s.getEo n
  let s1 := ((s.cnt .eoCntExtra n).fon F.eoStat_EXTRA n).raiseEv (Prod.eoErr n) t c.lastTag
  let s2 := s1.report { detected := true, cls := 4, source := srcOf 0x04 n, code := 0x2403, arg0 := n, arg1 := 0,
                        ts := some t, flock := some (s.fget F.eoCtl_FLOCK n) }
  let r := s2.eoRec n t 0 ({ valid := s.time.valid, deg := s.deg, sense := rising } : RecFlags).pack 3 0
  r.2.tiuPush (32 + n) r.1 (some n)

/-- A monitor hit whose timestamp is formed (R89): it belongs to a checked transition, is ignored inside any window, or is EXTRA; no outcome arises while the bank is down or powers up (R67). -/
def State.eoMonitorHit (s : State) (n : Nat) (t : Instant) (rising : Bool) : State :=
  let c := s.getEo n
  if c.poweringUp || !s.bankOn n then s
  else if c.wins.any (fun w => inWindow w t) then s.setEo n { c with wins := takeHit t rising c.wins }
  else s.eoExtra n t rising

/-- The tolerance W in fs (R89), by DEG and the register at the delivery of the outcome. (DESIGN CHOICE, log entry 90.) -/
def State.verifyTol (s : State) (n : Nat) : Nat :=
  if s.deg then s.fget F.eoVerifyWin_DWIN n else s.fget F.eoVerifyWin_WIN n

/-- An S64 error lies within a tolerance in fs: 1 ns is 2^16 LSB and 10^6 fs. -/
def withinFs (e : Int) (tol : Nat) : Bool := decide (e.natAbs * 1000000 ≤ tol * 65536)

/-- ARG1 of a displaced record: the error's low 32 bits, saturating (R421). -/
def errArg (e : Int) : Nat :=
  bitsOf 32 (if e > 2147483647 then 2147483647 else if e < -2147483648 then -2147483648 else e)

/-- Deliver the outcome of a checked transition (R89). -/
def State.eoOutcome (s : State) (n : Nat) (w : Win) : State :=
  match w.hit with
  | some m =>
    let e := (spanBetween m w.target).val
    if withinFs e (s.verifyTol n) then
      let r := ((s.cnt .eoCntVer n).raiseEv (Prod.eoVer n) m w.tag).eoRec n w.target e (winFlags w) 0 w.res
      (r.2.tiuPushReserved (32 + n) r.1 (some n)).calTrack n e
    else
      let s1 := ((s.cnt .eoCntDisp n).fon F.eoStat_DISPLACED n).raiseEv (Prod.eoErr n) m w.tag
      let s2 := s1.report { detected := true, cls := 4, source := srcOf 0x04 n, code := 0x2401, arg0 := n, arg1 := errArg e,
                            ts := some m, flock := some (s.fget F.eoCtl_FLOCK n) }
      let r := s2.eoRec n w.target e (winFlags w) 1 w.res
      r.2.tiuPushReserved (32 + n) r.1 (some n)
  | none =>
    let s1 := ((s.cnt .eoCntMiss n).fon F.eoStat_MISSING n).raiseEv (Prod.eoErr n) w.target w.tag
    let s2 := s1.report { detected := true, cls := 4, source := srcOf 0x04 n, code := 0x2402, arg0 := n, arg1 := 0,
                          ts := some w.target, flock := some (s.fget F.eoCtl_FLOCK n) }
    let r := s2.eoRec n w.target 0 (winFlags w) 2 w.res
    r.2.tiuPushReserved (32 + n) r.1 (some n)

/-- A checked window is ready: its hit came, or no hit can come any more: the target at most 5 ticks after the launch tick, window end,
capture and the 28 ticks of R111. -/
def winReady (now : Nat) (w : Win) : Bool := w.checked && !w.reported && (w.hit.isSome || decide (w.tick + 36 ≤ now))

/-- Mark the first ready window as reported. -/
def reportFirst (now : Nat) : List Win → List Win
  | [] => []
  | w :: l => if winReady now w then { w with reported := true } :: l else w :: reportFirst now l

/-- EDGE_VERIFY: the oldest checked transition whose outcome is known is delivered. (DEDUCED, log entry 34.) -/
def State.eoVerify (s : State) (n : Nat) : State :=
  let c := s.getEo n
  match c.wins.find? (winReady s.tickNo) with
  | none => s
  | some w => (s.setEo n { c with wins := reportFirst s.tickNo c.wins }).eoOutcome n w

/-! ### Enables, banks, reactions (R67, R69, R92) -/

/-- Drop all work of a channel: queue, generators, filter and, unless `keepCommitted`, committed transitions. -/
def State.eoClear (s : State) (n : Nat) (keepCommitted : Bool) : State :=
  let s1 := s.eoLeave n fun _ => true
  let c := s1.getEo n
  let com := if keepCommitted then c.committed else []
  s1.setEo n { c with
    queue := [], filter := [], dropNext := false, engine := none, profNext := [], cuts := [], committed := com
    track := trackHalt s.time.now c.track
    flevel := (com.getLast?.map fun l => l.tr.level).getD c.level }

/-- Launch one transition to a level at the next tick, outside the lead rule, if the level differs (R69, R92): with tag 0, or with the tag
given. A hold of CAL ends before (R90). (DEDUCED, log entry 34.) -/
def State.eoForce (s0 : State) (n : Nat) (lvl : Bool) (tag : Nat := 0) : State :=
  let s := s0.calRelease n
  let c := s.getEo n
  if c.level = lvl then s0.setEo n { s0.getEo n with flevel := lvl }
  else
    let t := s.tickTarget n (s.time.now + 1)
    let g := toGrid (s.tableNow n) t
    s.setEo n { c with
      flevel := lvl
      committed := c.committed ++ [⟨⟨none, 0, true, t, lvl, tag, false, false⟩, g.tick, g.tap, g.code, g.res⟩] }

/-- EN falls (R69). -/
def State.eoDisableCh (s : State) (n : Nat) : State :=
  let s1 := s.eoClear n false
  let s2 := s1.setEo n { s1.getEo n with stand := .run }
  (if s2.bankOn n then s2.eoForce n (s2.fbit F.eoCtl_IDLE n) else s2).idleTable n

/-- Output levels A, B, Z of a position (R88), A and B swapped under DIRINV. -/
def profOutputs (cap : ProfCap) (x : Int) : Bool × Bool × Bool :=
  let f := x / (2 ^ 64 : Int)
  let q := f % 4
  let a := decide (q = 1 ∨ q = 2)
  let b := decide (q = 2 ∨ q = 3)
  let w : Int := if cap.zw = 0 then 1 else if cap.zw = 1 then 2 else 4
  let z := cap.abz && decide (cap.lines ≠ 0) && decide ((f - cap.zpos) % (4 * cap.lines : Nat) < w)
  if cap.dirinv then (b, a, z) else (a, b, z)

/-- The levels of EOn_P and EOn_N (R67, R68): 0 V differential while the bank is down. -/
def State.eoPins (s : State) (n : Nat) : Option (Bool × Bool) :=
  if s.bankOn n then some ((s.getEo n).level ^^ s.fbit F.eoCtl_POL n, !((s.getEo n).level ^^ s.fbit F.eoCtl_POL n)) else none

/-- The eight channels of a bank. -/
def bankChans (b : Nat) : List Nat := (List.range 8).map fun i => 8 * b + i

/-- The capture windows of a channel close without an outcome; the FIFO entries they reserved are free again. (DEDUCED, log entry 95.) -/
def State.closeWins (s : State) (n : Nat) : State :=
  let c := s.getEo n
  let t := s.getTiu (32 + n)
  (s.setTiu (32 + n) { t with reserved := t.reserved - (c.wins.filter fun w => w.checked && !w.reported).length }).setEo n
    { c with wins := [] }

/-- A bank powers down (R67): every action of its channels goes, the levels read IDLE, and CAL lets go of the channels (R252). -/
def State.bankDown (s : State) (b : Nat) : State :=
  (bankChans b).foldl (fun st n =>
    let s1 := ((st.eoClear n false).closeWins n).calRelease n
    let idle := s1.fbit F.eoCtl_IDLE n
    s1.setEo n { s1.getEo n with level := idle, flevel := idle, poweringUp := false }) s

/-- A bank powers up (R67): each channel comes up at IDLE, and CAL schedules a run. -/
def State.bankUp (s : State) (b : Nat) : State :=
  ((bankChans b).foldl (fun st n =>
    let idle := st.fbit F.eoCtl_IDLE n
    st.setEo n { st.getEo n with level := idle, flevel := idle, poweringUp := true }) s).calBankUp b

/-- BANK_POWER_UP_DONE (R67): each channel of the bank stands at its idle level. -/
def State.bankUpDone (s : State) (b : Nat) : State :=
  (bankChans b).foldl (fun st n => if (st.getEo n).poweringUp then st.setEo n { st.getEo n with poweringUp := false } else st) s

/-- The reaction a flock carries out reaches a channel (R92): 0 HOLD, 1 QUIET, 2 FREEZE. -/
def State.eoReact (s : State) (n react : Nat) : State :=
  if react = 1 then
    let s1 := s.eoClear n false
    let s2 := s1.setEo n { s1.getEo n with stand := .quiet }
    if s2.fbit F.eoCtl_EN n ∧ s2.bankOn n then s2.eoForce n (s2.fbit F.eoCtl_IDLE n) else s2
  else if react = 2 then
    let s1 := s.eoClear n true
    s1.setEo n { s1.getEo n with stand := .freeze }
  else s

/-! ### Triggers (R83) -/

/-- Fire a slot: the template with START = te + OFFSET (R83). -/
def fireEntry (tpl : Nat) (te : Instant) : Nat :=
  setBits tpl 127 32 (packT96 (addSpan te (eOffset tpl)).1)

/-- One event at EO_TRIG(n) (R83). (DEDUCED, log entry 48.) -/
def State.eoTrigOne (s : State) (n : Nat) (ev : Stamp) : State :=
  if s.fbit F.eoCtl_TRIG_EN n ∧ s.fbit F.eoTrigCtl_ARMED n then
    let s1 := if s.fbit F.eoTrigCtl_ONESHOT n then
        (s.fset F.eoTrigCtl_ARMED 0 n).hwMark ⟨.eoTrigCtl, n, 0, 0⟩ (2 ^ F.eoTrigCtl_ARMED.lo) else s
    s1.eoOffer n ⟨.slot, fireEntry (s.getEo n).slot ev.ts, ev.tag, s.tickNo + 2⟩
  else (s.cnt .eoCntTrigIgn n).fon F.eoStat_TRIG_IGN n

/-- The result a template commit reports (R83): 0, BAD_ARG or SRC_ERR. Word 3, reserved in a template, is not judged. (DESIGN CHOICE, log
entry 89.) -/
def State.templateCheck (s : State) (n e : Nat) : Nat :=
  if badArgStatic e then Code.badArg
  else if srcErrType (s.fget F.eoCtl_SRC n) (eType e) then Code.srcErr
  else 0

/-- Commit of EO_TE (R83). -/
def State.teCommit (s : State) (q : Requester) (n e : Nat) : State :=
  let code := s.templateCheck n e
  let r := s.getQres q n
  let s1 := s.setQres q n ⟨(r.seq + 1) % 256, code⟩
  if code = 0 then s1.setEo n { s1.getEo n with slot := e } else s1.fon F.eoStat_WR_ERR n

/-- Commit of EO_QE (R101): the entry is offered, for acceptance one tick later. -/
def State.qeCommit (s : State) (q : Requester) (n e : Nat) : State :=
  let r := s.getQres q n
  (s.setQres q n { r with seq := (r.seq + 1) % 256 }).eoOffer n ⟨.reg q, e, 0, s.tickNo + 1⟩

/-- A segment bank is in use (R87): a PROF that holds its entry names it, or one whose engine has run ahead to its end has yet to end. -/
def State.bankInUse (s : State) (n bank : Nat) : Bool :=
  ((s.getEo n).queue.any fun a => match a.prof with
    | some cap => decide (cap.bank = bank)
    | none => false) ||
  ((s.getEo n).track.any fun k => decide (k.e.cap.bank = bank) && k.live s.time.now)

/-! ### Profile engines at work -/

/-- Ticks an engine runs ahead of device time, so that its transitions meet the commit of R65. (DEDUCED, log entry 34.) -/
def engineAhead : Nat := 24

/-- x + v τ + h τ² − B scaled, at τ = m / 2^17 tick. -/
def crossPoly (e : Engine) (b : Int) (m : Nat) : Int :=
  e.x * 2 ^ 34 + e.v * (m * 2 ^ 17 : Nat) + e.h * (m * m : Nat) - b * 2 ^ 98

/-- The least j in lo..hi with a crossing at or before (j + ½) LSB; `fuel` halvings. (DEDUCED, log entry 36.) -/
def bisect (p : Nat → Bool) : Nat → Nat → Nat → Nat
  | 0, lo, _ => lo
  | fuel + 1, lo, hi =>
    if hi ≤ lo then lo
    else
      let mid := (lo + hi) / 2
      if p mid then bisect p fuel lo mid else bisect p fuel (mid + 1) hi

/-- τ of the crossing in S64 LSB, 0 to 65536 (R85): e is the engine with the tick's h loaded, before the step. (DEDUCED, log entry 36.) -/
def crossTau (e : Engine) (rise : Bool) (b : Int) : Nat :=
  if rise then bisect (fun j => decide (0 ≤ crossPoly e b (2 * j + 1))) 17 0 65536
  else if e.x = b * 2 ^ 64 then 0
  else bisect (fun j => decide (crossPoly e b (2 * j + 1) < 0)) 17 0 65536

/-- Give an output of an engine a transition, if the output takes it. A hold of CAL ends before (R90, R251). -/
def State.engPut (s0 : State) (ch act k : Nat) (t : Instant) (lvl : Bool) (tag : Nat) (late : Bool) : State :=
  let s := s0.calRelease ch
  let c := s.getEo ch
  let tr : Trans := ⟨some act, k, true, t, lvl, tag, late, true⟩
  if s.fbit F.eoCtl_EN ch ∧ c.stand = .run then
    s.setEo ch { c with profNext := c.profNext ++ [tr], queue := inflow tr c.queue }
  else s0

/-- Give every output of a leader that `out` admits and whose level changes from `o0` to `o1` its transition. -/
def State.engOutputs (s : State) (n : Nat) (e : Engine) (o0 o1 : Bool × Bool × Bool) (t : Instant) (late : Bool)
    (out : Nat → Bool := fun _ => true) : State :=
  let fol (k : Nat) : Bool := out k && decide (s.fget F.eoCtl_SRC (n + k) = 2)
  let s1 := if o0.1 ≠ o1.1 ∧ out 0 = true then s.engPut n e.act e.tick t o1.1 (e.tag + 1) late else s
  let s2 := if o0.2.1 ≠ o1.2.1 ∧ fol 1 = true then s1.engPut (n + 1) e.act e.tick t o1.2.1 (e.tag + 1) late else s1
  if e.cap.abz ∧ o0.2.2 ≠ o1.2.2 ∧ fol 2 = true then s2.engPut (n + 2) e.act e.tick t o1.2.2 (e.tag + 1) late else s2

/-- The transitions of one tick of the engine, from `e`, its segment loaded, to `e1` (R85, R88). -/
def State.engCross (s : State) (n : Nat) (e e1 : Engine) (out : Nat → Bool := fun _ => true) : State :=
  let f0 := e.x / (2 ^ 64 : Int)
  let f1 := e1.x / (2 ^ 64 : Int)
  if f0 = f1 then s
  else
    let tau := if f0 < f1 then crossTau e true f1 else crossTau e false f0
    s.engOutputs n e (profOutputs e.cap e.x) (profOutputs e1.cap e1.x) (ofNs e.tick + 4 * tau) false out

/-- The levels the outputs of a leader will have after what they already hold. -/
def State.engLevels (s : State) (n : Nat) : Bool × Bool × Bool :=
  let lv (m : Nat) := let c := s.getEo m
    (c.profNext.getLast?.map Trans.level).getD c.flevel
  (lv n, lv (n + 1), lv (n + 2))

/-- The leader that drives a FOLLOW channel while a profile is known for it, and the output the channel takes: 1 for B, 2 for Z. -/
def State.leaderOf (s : State) (n : Nat) : Option (Nat × Nat) :=
  let leads (m : Nat) : Bool := decide (s.fget F.eoCtl_SRC m = 1) && !(s.getEo m).track.isEmpty
  let abz (m : Nat) : Bool := ((s.getEo m).track.head?.map fun k => k.e.cap.abz).getD false
  if 1 ≤ n ∧ (n - 1) / 8 = n / 8 ∧ leads (n - 1) = true then some (n - 1, 1)
  else if 2 ≤ n ∧ (n - 2) / 8 = n / 8 ∧ leads (n - 2) = true ∧ abz (n - 2) = true then some (n - 2, 2)
  else none

/-- One of the outputs A, B, Z. -/
def outOf (o : Bool × Bool × Bool) (k : Nat) : Bool := if k = 0 then o.1 else if k = 1 then o.2.1 else o.2.2

/-- What a leader's engine has made ahead of now, made again for the outputs that `out` admits: from engine `e` up to tick `upto`; `fuel`
is the number of ticks. -/
def State.engReplay (s : State) (n : Nat) (out : Nat → Bool) (upto : Nat) : Nat → Engine → State
  | 0, _ => s
  | fuel + 1, e =>
    let e0 := e.load
    if upto ≤ e.tick ∨ e0.ended then s
    else
      let e1 := e0.step
      State.engReplay (s.engCross n e0 e1 out) n out upto fuel e1

/-- The tick up to which a channel's engine has run a profile ahead. -/
def trackEnd (c : Eo) (k : Track) : Nat := k.stop.getD (((c.engine.filter fun e => decide (e.act = k.e.act)).map Engine.tick).getD k.e.tick)

/-- A profile yet to start, as far as leader n's engine has run it ahead, made again for the outputs that `out` admits. -/
def State.engAgain (s : State) (n : Nat) (out : Nat → Bool) (k : Track) : State :=
  let upto := trackEnd (s.getEo n) k
  (s.engOutputs n k.e (s.engLevels n) (profOutputs k.e.cap k.e.x) (ofNs k.e.tick) false out).engReplay n out upto (upto - k.e.tick) k.e

/-- A FOLLOW channel joins its leader's profiles (R69): it goes to the level the position gives, with the tag of the profile's transitions,
and takes the later crossings. (DEDUCED, log entry 94.) -/
def State.followJoin (s : State) (n m out : Nat) : State :=
  let c := s.getEo m
  let next := s.time.now + 1
  let only (o : Nat) : Bool := decide (o = out)
  c.track.reverse.foldl (fun st k =>
    if k.runs next then
      let e := k.at next
      (st.eoForce n (outOf (profOutputs e.cap e.x) out) (e.tag + 1)).engReplay m only (trackEnd c k) (trackEnd c k - next) e
    else if next < k.e.tick then st.engAgain m only k
    else st) s

/-- EN rises (R69): the level is IDLE; a FOLLOW channel of a running profile goes to the level its leader's position gives. A pin run of the
channel ends (R246). -/
def State.eoEnableCh (s0 : State) (n : Nat) : State :=
  let s := s0.pinEnabled n
  let idle := s.fbit F.eoCtl_IDLE n
  let s1 := s.setEo n { s.getEo n with level := idle, flevel := idle, selCount := 0, lastTag := 0, stand := .run }
  if s1.fget F.eoCtl_SRC n = 2 then
    match s1.leaderOf n with
    | some r => s1.followJoin n r.1 r.2
    | none => s1
  else s1

/-- A profile has ended: the engine stops, its action is done. -/
def State.engEnd (s : State) (n : Nat) (id : Nat) : State :=
  let c := s.getEo n
  let tr := match c.engine with
    | some e => trackStop id e.tick c.track
    | none => c.track
  (s.setEo n { c with
    track := tr
    engine := match c.engine with
      | some e => if e.act = id then none else some e
      | none => none
    queue := c.queue.map fun a => if a.id = id then { a with done := true } else a }).eoSettle n

/-- One step of a channel's engine (R84, R85, R88): called in each tick. -/
def State.engTick (s : State) (n : Nat) : State :=
  let c := s.getEo n
  match c.engine with
  | none => s
  | some e0 =>
    if s.time.now + engineAhead ≤ e0.tick then s
    else
      let stop := match cutTick c.cuts e0.act with
        | some k => decide (k ≤ e0.tick)
        | none => false
      let e := e0.load
      if stop || e.ended then s.engEnd n e0.act
      else
        let e1 := e.step
        let f0 := e.x / (2 ^ 64 : Int)
        let f1 := e1.x / (2 ^ 64 : Int)
        let s1 := s.setEo n { c with engine := some e1 }
        if f0 = f1 then s1
        else
          let tau := if f0 < f1 then crossTau e true f1 else crossTau e false f0
          s1.engOutputs n e (profOutputs e.cap e.x) (profOutputs e.cap e1.x) (ofNs e.tick + 4 * tau) false

/-- Discard a PROF at its anchor because nothing runs to continue from (R86). -/
def State.contNone (s : State) (n id : Nat) : State :=
  let s1 := ((s.eoLeave n fun a => decide (a.id = id)).fon F.eoStat_PROF_ERR n).cnt .eoCntRefuse n
  s1.setEo n { s1.getEo n with perr := 5 }

/-- PROF_START (R86): the first queued PROF whose anchor the engine has reached and that no cut discards (R80). -/
def State.profStart (s : State) (n : Nat) : State :=
  let c := s.getEo n
  match c.queue.find? fun a =>
      !a.active && decide (a.kind = .prof) && decide (nsOf a.start ≤ s.time.now + engineAhead) && !cutOff c.cuts a with
  | none => s
  | some a =>
    match a.prof with
    | none => s
    | some cap =>
      match profStartOf c.cuts c.engine a cap with
      | none => s.contNone n a.id
      | some e =>
        let others := (c.queue.filter fun b => b.active && !decide (b.kind = .prof)).length
        if 4 ≤ others then s.actFull n a.id
        else
          let old := c.engine.map Engine.act
          let s1 := s.setEo n { c with queue := markActive a.id c.queue, engine := some e, track := trackStart s.time.now e c.track }
          let s2 := s1.engOutputs n e (s1.engLevels n) (profOutputs cap e.x) a.start false
          match old with
          | some id => s2.engEnd n id
          | none => s2

/-- PROFILE_SEGMENT_END (R86): with no tick of the segment left, the next segment or the end mode. -/
def State.profSegEnd (s : State) (n : Nat) : State :=
  let c := s.getEo n
  match c.engine with
  | none => s
  | some e =>
    if e.left ≠ 0 then s
    else if e.load.ended then s.engEnd n e.act
    else s.setEo n { c with engine := some e.load }

/-- EO_PROF_POS (R105): x at this tick, 0 before the first profile, and the tick. After a backward step it is the profile's x at the earlier
tick, also when the profile has ended. (DESIGN CHOICE, log entry 93.) -/
def State.profPos (s : State) (n : Nat) : Nat :=
  let x := match (s.getEo n).track.find? fun k => decide (k.e.tick ≤ s.time.now) with
    | some k => (k.at s.time.now).x
    | none => 0
  bitsOf 128 x + packT96 s.nowI * 2 ^ 128

/-! ### Cuts and time steps (R80, R82) -/

/-- CANCEL_CUT: at the cut instant, queued actions after it are discarded and trains emit no later pulse; the cut is over. A
profile the cut governs stops in the engine's own tick. (DEDUCED, log entry 35.) -/
def State.cancelCut (s : State) (n : Nat) : State :=
  let c := s.getEo n
  match c.cuts.find? fun k => decide (k.at_ ≤ s.nowI) with
  | none => s
  | some k =>
    let s1 := s.setEo n { c with queue := c.queue.map fun a =>
      if a.id < k.before ∧ a.kind = .train then
        { a with limit := some (match a.limit with
          | none => guardOf k.at_
          | some m => min m (guardOf k.at_)) }
      else a }
    let s2 := s1.eoLeave n fun a => !a.active && cutOff [k] a
    let s3 := match (s2.getEo n).engine with
      | some e => if e.act < k.before then s2.engEnd n e.act else s2
      | none => s2
    (s3.setEo n { s3.getEo n with cuts := (s3.getEo n).cuts.erase k }).eoSettle n

/-- A transition that a forward step has passed: its launch tick is earlier than now (R82). -/
def State.passed (s : State) (n : Nat) (t : Instant) : Bool := decide (s.launchTick n t < (s.time.now : Int))

/-- Count a skipped pulse or edge (R82). -/
def State.skipOne (s : State) (n : Nat) (ts : Instant) (tag : Nat) : State :=
  ((s.fon F.eoStat_LATE n).cnt .eoCntLate n).raiseEv (Prod.eoLate n) ts tag

/-- A falling transition whose rise has launched: no rise of its pulse is left in the channel (R82). -/
def fallOfLaunched (c : Eo) (t : Trans) : Bool :=
  !t.rise && !(c.filter.any fun r => r.rise && decide (r.act = t.act ∧ r.k = t.k)) &&
  !(c.committed.any fun r => r.tr.rise && decide (r.tr.act = t.act ∧ r.tr.k = t.k))

/-- An action's target before policy ASAP moved it (R81). -/
def unshifted (q : List QAct) (act : Option Nat) (t : Instant) : Instant :=
  match q.find? fun a => decide (act = some a.id) with
  | some a => ((t : Int) - a.shift).toNat
  | none => t

/-- A fall that leaves at the next tick, marked L (R82): its target moves to the instant that tick gives. (DEDUCED, log entry 34.) -/
def State.lateFall (s : State) (n : Nat) (t : Trans) : Launch :=
  let tgt := s.tickTarget n (s.time.now + 1)
  let g := toGrid (s.tableNow n) tgt
  ⟨{ t with target := tgt, late := true }, g.tick, g.tap, g.code, g.res⟩

/-- Put a launch in its place by launch tick, after those of the same tick. -/
def insertLaunch (l : Launch) : List Launch → List Launch
  | [] => [l]
  | b :: t => if l.tick < b.tick then l :: b :: t else b :: insertLaunch l t

/-- Take the generator of one action past the next `k` transitions. -/
def advanceGen (id k : Nat) (q : List QAct) : List QAct := q.map fun b => if b.id = id then { b with next := b.next + k } else b

/-- What the generator of a running action still has to make and a forward step has passed (R82): whole pulses are skipped, a fall
whose rise has launched leaves late; `fuel` bounds the transitions looked at. -/
def State.skipPulses : Nat → State → Nat → Nat → State
  | 0, s, _, _ => s
  | fuel + 1, s, n, id =>
    let c := s.getEo n
    match c.queue.find? fun a => decide (a.id = id) with
    | none => s
    | some a =>
      match nextOf c.cuts a with
      | none => s
      | some r =>
        if !s.passed n r.1 then s
        else if a.next % 2 = 1 then
          let l := s.lateFall n ⟨some a.id, r.2.2.1, false, r.1, false, a.tag + 1, true, false⟩
          State.skipPulses fuel ((s.setEo n { c with
            queue := advanceGen id 1 c.queue, committed := insertLaunch l c.committed, flevel := false }).skipOne n r.1 (a.tag + 1)) n id
        else
          State.skipPulses fuel ((s.setEo n { c with
            queue := advanceGen id (if a.kind = .edge then 1 else 2) c.queue }).skipOne n ((r.1 : Int) - a.shift).toNat (a.tag + 1)) n id

/-- A bound on the transitions of an action that a step can have passed. -/
def State.skipFuel (s : State) (a : QAct) : Nat :=
  2 * ((guardOf (s.nowI + 8 * lsbPerNs) - guardOf a.start) / (max 1 (4 * a.period))).toNat + 4

/-- Transitions in the filter and committed that a forward step has passed: pulses whose rise has not launched are skipped whole, a
fall whose rise has launched leaves at the next tick marked L, an EDGE is skipped (R82). -/
def State.skipFlow (s : State) (n : Nat) : State :=
  let c := s.getEo n
  let flow : List Trans := c.committed.map Launch.tr ++ c.filter
  let goneRise := flow.filter fun t => t.rise && t.act.isSome && s.passed n t.target
  let falls := flow.filter fun t => fallOfLaunched c t && s.passed n t.target
  let gone (t : Trans) : Bool := goneRise.any fun r => decide (r.act = t.act ∧ r.k = t.k)
  let com := (falls.map fun t => s.lateFall n t).foldl (fun l x => insertLaunch x l)
    (c.committed.filter fun l => !gone l.tr && !falls.contains l.tr)
  let fil := (c.filter.filter fun t => !gone t && !falls.contains t)
  let removed := c.filter.filter fun t => gone t || falls.contains t
  let q := (removed.foldl (fun l t => unflow t l) c.queue).map fun (a : QAct) =>
    if a.next % 2 = 1 ∧ goneRise.any (fun r => decide (r.act = some a.id ∧ r.k = a.next / 2)) then { a with next := a.next + 1 } else a
  let lvl := ((fil.getLast?.map Trans.level).orElse fun _ => (com.getLast?.map fun l => l.tr.level)).getD c.level
  let s1 := s.setEo n { c with committed := com, filter := fil, queue := q, flevel := lvl }
  let s2 := (goneRise.filter fun t => !t.eng).foldl (fun st t => st.skipOne n (unshifted c.queue t.act t.target) t.tag) s1
  falls.foldl (fun st t => st.skipOne n t.target t.tag) s2

/-- Actions that have not started are judged late with the tick of the step (R82), by the policy in EO_CTL at their acceptance (R94). One that
is dropped has been accepted: it sets no REFUSED and counts in no EO_CNT_REFUSE. (DESIGN CHOICE, log entry 88.) -/
def State.skipQueued (s : State) (n : Nat) (a : QAct) : State :=
  let lim := ofNs (s.time.now + (if a.kind = .prof then profLeadNs else leadNs))
  if a.active ∨ lim ≤ a.first then s
  else
    let s1 := s.eoLate n ((a.first : Int) - a.shift).toNat a.tag
    if a.kind = .prof ∨ ¬ a.asap then s1.eoLeave n fun b => decide (b.id = a.id)
    else
      let c := s1.getEo n
      s1.setEo n { c with queue := insertAct (asapAct a lim) (c.queue.filter fun b => !decide (b.id = a.id)) }

/-- What the engine has made ahead leaves an output again. -/
def dropEng (c : Eo) : Eo :=
  let com := c.committed.filter fun l => !l.tr.eng
  let fil := c.filter.filter fun t => !t.eng
  let gone := (c.filter ++ c.profNext).filter Trans.eng
  { c with
    committed := com, filter := fil, profNext := c.profNext.filter fun t => !t.eng
    queue := gone.foldl (fun q t => unflow t q) c.queue
    flevel := ((fil.getLast?.map Trans.level).orElse fun _ => com.getLast?.map fun l => l.tr.level).getD c.level }

/-- The outputs of leader n: itself and the FOLLOW channels its profile drives. -/
def State.engOuts (s : State) (n : Nat) : List Nat :=
  n :: ([n + 1, n + 2].filter fun m => decide (s.fget F.eoCtl_SRC m = 2) && decide ((s.leaderOf m).map Prod.fst = some n))

/-- A profile's work on an output is not over: its engine runs, or transitions it made wait there. -/
def State.engPending (s : State) (n act : Nat) : Bool :=
  ((s.getEo n).engine.any fun e => decide (e.act = act)) ||
  (s.engOuts n).any fun m =>
    let c := s.getEo m
    (c.committed.map Launch.tr ++ c.filter ++ c.profNext).any fun t => t.eng && decide (t.act = some act)

/-- A running profile integrates straight to the new device time, up to the first tick whose crossings can still launch, and each
output that disagrees with the position there has one transition at the next tick, marked L (R82). What the engine had made ahead, of this
profile and of those yet to start, is made again from there. (DEDUCED, log entry 36.) -/
def State.engForward (s : State) (n : Nat) : State :=
  let c := s.getEo n
  match c.track.find? fun k => decide (k.e.tick ≤ s.time.now) with
  | none => s
  | some k =>
    if !s.engPending n k.e.act then s
    else
      let t := s.tickTarget n (s.time.now + 1)
      let to_ := match cutTick c.cuts k.e.act with
        | some m => min (ceilNs t) m
        | none => ceilNs t
      let e1 := k.at to_
      let s1 := (s.engOuts n).foldl (fun st m => st.setEo m (dropEng (st.getEo m))) s
      let s2 := s1.engOutputs n e1 (s1.engLevels n) (profOutputs e1.cap e1.x) t true
      if c.engine.any fun e => decide (e.act = k.e.act) then
        (List.range engineAhead).foldl (fun st _ => st.engTick n) (s2.setEo n { s2.getEo n with engine := some e1 })
      else
        (c.track.filter fun j => decide (s.time.now < j.e.tick)).reverse.foldl (fun st j => st.engAgain n (fun _ => true) j)
          (s2.engReplay n (fun _ => true) (trackEnd c k) (trackEnd c k - e1.tick) e1)

/-- The transitions of a list that change the level in turn, the null ones (R75), and the level after them. -/
def splitNull {α : Type} (lv : α → Bool) : Bool → List α → List α × List α × Bool
  | l, [] => ([], [], l)
  | l, t :: ts =>
    let r := splitNull lv (lv t) ts
    if lv t = l then (r.1, t :: r.2.1, r.2.2) else (t :: r.1, r.2.1, r.2.2)

/-- Once a step has taken transitions out, those left are judged again: null ones go and count (R75). -/
def State.eoRejudge (s : State) (n : Nat) : State :=
  let c := s.getEo n
  let a := splitNull (fun (l : Launch) => l.tr.level) c.level c.committed
  let held := if c.dropNext then c.filter.take 1 else []
  let b := splitNull Trans.level a.2.2 (c.filter.drop held.length)
  (s.setEo n { c with
    committed := a.1, filter := held ++ b.1, queue := b.2.1.foldl (fun q t => unflow t q) c.queue
    flevel := if c.dropNext && c.filter.isEmpty then !b.2.2 else b.2.2 }).cntAdd .eoCntNull (a.2.1.length + b.2.1.length) n

/-- What a forward time step does to one channel (R82). -/
def State.eoForward (s : State) (n : Nat) : State :=
  let s0 := s.engForward n
  let s1 := s0.skipFlow n
  let s2 := ((s1.getEo n).queue.filter QAct.active).foldl (fun st a => State.skipPulses (s.skipFuel a) st n a.id) s1
  let s3 := ((s2.getEo n).queue.filter fun a => !a.active).foldl (fun st a => st.skipQueued n a) s2
  (s3.eoRejudge n).eoSettle n

/-- An instant of the past after device time has moved by `w` ns. -/
def shiftInstant (t : Instant) (w : Int) : Instant := clampInstant ((t : Int) + w * lsbPerNs)

/-- What every step of `w` ns does to a channel: the instant of its last launch moves with device time, so that the spacing to the next one
stays the real one (R89, R255), and launch ticks gone by no longer count (R76). -/
def Eo.stepped (c : Eo) (w : Int) : Eo :=
  { c with lastTarget := c.lastTarget.map fun t => shiftInstant t w, tickLoad := (c.committed.reverse.map Launch.tick).take 4 }

end Sys2Proof.Machine
end

