-- ==== Sys2Proof/Machine/CalGap.lean ====
section
/-! DEFINITION. The gaps in which CAL holds a channel or a unit, and what CAL does in each tick (R242, R244, R251, R255, R262). -/

namespace Sys2Proof.Machine

/-! ### Gaps and holds (R251) -/

/-- A profile runs on a leader, or starts by an instant. (DEDUCED, log entry 49.) -/
def profBusy (c : Eo) (lim : Instant) : Bool :=
  c.engine.isSome || c.queue.any fun a => decide (a.kind = .prof) && !a.active && !cutOff c.cuts a && decide (a.first ≤ lim)

/-- No transition of a channel is queued or active with a target within CAL_GAP_MIN of now, on its leader's account neither. -/
def State.gapEo (s : State) (n : Nat) : Bool :=
  let lim := s.nowI + s.fget F.calGapMin_GAP * 1000 * lsbPerNs
  let c := s.getEo n
  let led := decide (s.fget F.eoCtl_SRC n = 2) && (profBusy (s.getEo (n - 1)) lim || profBusy (s.getEo (n - 2)) lim)
  (c.queue.all fun a => cutOff c.cuts a || (match nextOf c.cuts a with
    | some x => decide (lim < x.1)
    | none => true)) &&
  !profBusy c lim && !led &&
  (c.filter.all fun t => decide (lim < t.target)) && (c.committed.all fun l => decide (lim < l.tr.target)) &&
  (c.profNext.all fun t => decide (lim < t.target))

/-- A unit has seen no hit on its source for CAL_GAP_MIN. -/
def State.gapTiu (s : State) (u : Nat) : Bool :=
  match (s.getTiu u).seen with
  | none => true
  | some p => decide (p + s.fget F.calGapMin_GAP * 1000 ≤ s.tickNo)

/-- CAL_HOLD: hold a channel with its monitor in a gap, for a tap run or a code-density run of the monitor; of a powered-down bank the
monitor alone (R251, R252). `steps` are the vernier steps the monitor's cores show (R244). (DESIGN CHOICE, log entry 2.) -/
def State.calHoldEo (s : State) (n : Nat) (steps : List (List Nat)) : State :=
  if (s.onDither (32 + n) || (s.calBankOn n && (s.calRun true n).isSome)) && s.gapEo n && !s.calHalted then
    let s1 := if s.calBankOn n then s.setCalEo n { s.getCalEo n with hold := true } else s
    (s1.setTiu (32 + n) { s1.getTiu (32 + n) with calHeld := true }).calTrims (32 + n) steps
  else s

/-- CAL_HOLD of an input unit (R251). -/
def State.calHoldTiu (s : State) (u : Nat) (steps : List (List Nat)) : State :=
  if s.onDither u && s.gapTiu u && !s.calHalted then (s.setTiu u { s.getTiu u with calHeld := true }).calTrims u steps else s

/-! ### A tick of CAL -/

/-- The channels whose monitors CAL holds: what it holds is released once a target comes within CAL_GAP_MIN (R251). -/
def State.calGaps (s : State) : State :=
  ((s.tiu.cells.filter fun c => c.2.calHeld && decide (32 ≤ c.1)).map fun c => c.1 - 32).foldl
    (fun st n => if st.gapEo n then st else st.calRelease n) s

/-- Changes that wait for an idle gap enter where the channel is idle (R255). -/
def State.calIdles (s : State) : State :=
  ((s.cal.eo.cells.filter fun c => c.2.pend.isSome).map fun c => c.1).foldl (fun st n => st.idleTable n) s

/-- What CAL does in a tick: hits of the dither source, steps of a long operation, holds that end, changes that enter. -/
def State.calTick (s : State) (dither : List (Nat × Nat)) (work : Nat) : State :=
  (((dither.foldl (fun st x => st.calDitherHit x.1 x.2) s).calWork work).calGaps).calIdles

end Sys2Proof.Machine
end

