-- ==== Sys2Proof/Machine/TiuHit.lean ====
section
/-! DEFINITION. What a time-interval unit does with its hits: capture, arms, intervals, frequency gates, overflow, timeouts, the
readout queue (R108 to R129). -/

namespace Sys2Proof.Machine

/-- Modes of a unit (R113). -/
def State.tiuMode (s : State) (u : Nat) : Nat := s.fget F.tiuCtl_MODE u
def State.tiuCont (s : State) (u : Nat) : Bool := s.fbit F.tiuCtl_CONT u

/-- The unit takes a start, or a stop, from a transition of a sense at its own input (R117). -/
def State.ownStart (s : State) (u : Nat) (rising : Bool) : Bool :=
  decide (s.fget F.tiuSel_START_SRC u = 0) && senseOk (s.fget F.tiuCtl_EDGES u) rising
def State.ownStop (s : State) (u : Nat) (rising : Bool) : Bool :=
  (decide (s.fget F.tiuSel_STOP_SRC u = 0) || decide (s.fget F.tiuSel_STOP_SRC u = 1 ∧ s.fget F.tiuSel_STOP_UNIT u = u)) &&
  senseOk (s.fget F.tiuSel_STOP_EDGES u) rising

/-- The unit itself selects a transition of a sense (R108, R117). -/
def State.ownSelects (s : State) (u : Nat) (rising : Bool) : Bool :=
  let m := s.tiuMode u
  if m = 0 then false
  else if m = 3 then rising
  else if m = 2 then s.ownStart u rising || s.ownStop u rising
  else senseOk (s.fget F.tiuCtl_EDGES u) rising

/-- The other units that take a stop from unit `v` for a transition of a sense (R117): none while `v` is OFF. A unit whose TIU_SEL holds its
reset value takes its stop from its own input. -/
def State.stopTakers (s : State) (v : Nat) (rising : Bool) : List Nat :=
  (s.listed .tiuSel).filterMap fun c =>
    let w := c.1
    if w ≠ v ∧ s.tiuMode v ≠ 0 ∧ s.tiuMode w = 2 ∧ bits c.2 13 12 = 1 ∧ bits c.2 6 0 = v ∧ senseOk (bits c.2 17 16) rising then some w else none

/-- The tag of a hit on unit u (R167). -/
def State.hitTag (s : State) (u : Nat) : Nat := if u < 32 then 0 else (s.getEo (u - 32)).lastTag

/-- The expiry instant of TIU_TMO counted from an instant (R122). -/
def State.tmoFrom (s : State) (u : Nat) (t : Instant) : Option Instant :=
  if s.fbit F.tiuTmo_EN u then some (min (t + s.fget F.tiuTmo_TMO u * 1000 * lsbPerNs) instantMax) else none

/-- An arm admits a hit (R114, R115): CONT mode, or a timestamp at or after ta and before the expiry. -/
def State.armAdmits (s : State) (u : Nat) (t : Instant) : Bool :=
  s.tiuCont u || (match (s.getTiu u).arm with
    | some a => decide (a.ta ≤ t) && decide (0 < a.left) && (match a.expiry with
      | some e => decide (t < e)
      | none => true)
    | none => false)

/-- The unit's own tag contribution from its arm. -/
def armTag (t : Tiu) : Nat := (t.arm.map Arm.tag).getD 0

/-! ### Records completed -/

/-- An expiry instant's tick is not past: a record completed in it is taken before the timeout (R236). -/
def State.inTime (s : State) (ex : Option Instant) : Bool :=
  match ex with
  | none => true
  | some x => decide (s.nowI < x + lsbPerNs)

/-- Every task waiting in MEAS on a unit since its arrival there takes the record (R236). -/
def State.measGive (s : State) (u : Nat) (r : Rec) (tag : Nat) : State :=
  let give (t : Task) : Task :=
    match t.wait with
    | .meas v td ad tick iss ex none =>
      if v = u ∧ tick ≤ s.tickNo ∧ s.inTime ex = true then { t with wait := .meas v td ad tick iss ex (some (r, tag, s.tickNo)) } else t
    | _ => t
  { s with drv := ⟨s.drv.cells.map fun c =>
      (c.1, { c.2 with tasks := ⟨c.2.tasks.cells.map fun k => (k.1, give k.2)⟩ })⟩ }

/-- A unit completes a record (R123 to R128): sequence, status bits, FIFO, MEAS, the arm's count, TIU_DONE and TIU_ERR. `ends` marks a
timeout that ends the arm (R122). (DEDUCED, log entry 37.) -/
def State.tiuComplete (s : State) (u : Nat) (time : Instant) (value : Int) (f : RecFlags) (aux tag : Nat) (at_ : Instant)
    (ends : Bool) : State :=
  let t := s.getTiu u
  let f1 := { f with close := t.closeNext, gap := t.gapNext }
  let rcd : Rec := ⟨time, value, srcTiu u, f.pack, aux, t.seq⟩
  let cont := s.tiuCont u
  let left := ((t.arm.map Arm.left).getD 0) - 1
  let done := if cont then decide (s.tiuMode u = 2 ∨ s.tiuMode u = 3) else t.arm.isSome && decide (left = 0)
  let arm1 := if cont then t.arm else if ends || left = 0 then none else t.arm.map fun a => { a with left := left }
  let s1 := s.setTiu u { t with arm := arm1, seq := if s.fbit F.tiuCtl_TALLY u then (t.seq + 1) % 2 ^ 32 else t.seq }
  let s2 := (((s1.fonIf f.reversed F.tiuStat_REVERSED u).fonIf f.coincident F.tiuStat_COINCIDENT u).fonIf f.ovf F.tiuStat_OVF
    u).fonIf f.timeout F.tiuStat_TIMEOUT u
  let s3 := (s2.tiuPush u rcd none).measGive u { rcd with flags := f1.pack } (tag + 1)
  (s3.raiseIf done (Prod.tiuDone u) at_ (tag + 1)).raiseIf (f1.ovf || f1.timeout || f1.close || f1.gap) (Prod.tiuErr u) at_ (tag + 1)

/-- The lost hits that lie before a record about to complete flag it CLOSE (R109). -/
def State.closeDue (s : State) (u : Nat) (before : Nat × Nat → Bool) : State :=
  let t := s.getTiu u
  if t.closeLost.any before then
    s.setTiu u { t with closeNext := true, closeLost := t.closeLost.filter fun c => !before c }
  else s

/-- Before a hit; passed by the record path's 28 ticks (R111). -/
def beforeHit (f : Flight) (c : Nat × Nat) : Bool := decide (c.1 < f.tick) || (decide (c.1 = f.tick) && decide (c.2 < f.code))
def pastPath (now : Nat) (c : Nat × Nat) : Bool := decide (c.1 + 28 ≤ now)

/-- VALID and DEG now (R125). -/
def State.recFlags (s : State) (sense : Bool) : RecFlags := { valid := s.time.valid, deg := s.deg, sense := sense }

/-- VALID, DEG, SENSE and EVENT of a record whose TIME is that of a half, or the opening of a gate, which is a rising edge (R125). -/
def Half.flags (h : Half) : RecFlags := { valid := h.valid, deg := h.deg, sense := h.rising, event := h.event }
def Gate.flags (g : Gate) : RecFlags := { valid := g.valid, deg := g.deg, sense := true }

/-- The flags of a pair (R119): REVERSED, COINCIDENT and the arbiter's ORDER. -/
def pairFlags (f : RecFlags) (v : Int) (event order : Bool) : RecFlags :=
  { f with reversed := decide (v < 0), coincident := decide (v.natAbs < 64),
           order := decide (v.natAbs < 64) && order && !event, event := event }

/-- A pair is complete (R118, R119). -/
def State.pairDone (s : State) (u : Nat) (start stop : Half) (at_ : Instant) (arb : Bool) : State :=
  let t := s.getTiu u
  let r := spanBetween stop.ts start.ts
  let ev := start.event || stop.event
  (s.setTiu u { t with half := none }).tiuComplete u start.ts r.val (pairFlags start.flags r.val ev arb) 0
    (max (armTag t) (max start.tag stop.tag)) at_ false

/-! ### Overflow and timeout (R120, R122, R123) -/

/-- The tick count at which the coarse counter of a half ends, and the instant (R120). -/
def Half.ovfTick (h : Half) : Nat := h.tick + 2 ^ 24
def Half.ovfAt (h : Half) : Instant := h.ts + 2 ^ 24 * lsbPerNs

/-- The expiry instant in force: the arm's, or in CONT mode that of the pending half or open gate (R122). -/
def State.tiuExpiry (s : State) (u : Nat) : Option Instant :=
  let t := s.getTiu u
  if s.tiuCont u then (match t.half with
      | some h => h.expiry
      | none => (t.gate.bind Gate.expiry))
  else t.arm.bind Arm.expiry

/-- A pending half ends in overflow (R120). -/
def State.tiuOvf (s : State) (u : Nat) (h : Half) : State :=
  let t := s.getTiu u
  let v : Int := if h.isStart then 2 ^ 40 - 1 else -(2 ^ 40 - 1)
  (((s.setTiu u { t with half := none }).closeDue u (pastPath s.tickNo)).cnt .tiuCntOvf u).tiuComplete u h.ts v
    { h.flags with ovf := true, reversed := !h.isStart } 0 (max (armTag t) h.tag) s.nowI false

/-- The expiry ends what the unit waits for (R122, R125, R167). -/
def State.tiuExpire (s : State) (u : Nat) (e : Instant) : State :=
  let t := s.getTiu u
  let time := match t.half with
    | some h => h.ts
    | none => ((t.gate.map Gate.opened).getD e)
  let f := match t.half with
    | some h => h.flags
    | none => (t.gate.map Gate.flags).getD (s.recFlags false)
  let tag := max (armTag t) (match t.half with
    | some h => h.tag
    | none => (t.gate.map Gate.tag).getD 0)
  (((s.setTiu u { t with half := none, gate := none }).closeDue u (pastPath s.tickNo)).cnt .tiuCntTmo u).tiuComplete u time 0
    { f with timeout := true } 0 tag e true

/-- The coarse counter has ended at or before a tick, and no later than the expiry (R120, R123). -/
def State.ovfBefore (s : State) (u : Nat) (tick : Nat) : Option Half :=
  match (s.getTiu u).half with
  | none => none
  | some h =>
    if h.ovfTick ≤ tick ∧ (s.tiuExpiry u).all (fun e => decide (h.ovfAt ≤ e)) then some h else none

/-- What has ended before an input of an instant and tick count: the pending half by overflow, then whatever the expiry ends (R120, R122, R123). -/
def State.tiuLapse (s : State) (u : Nat) (ts : Instant) (tick : Nat) : State :=
  let s1 := match s.ovfBefore u tick with
    | some h => s.tiuOvf u h
    | none => s
  match s1.tiuExpiry u with
  | some e => if e ≤ ts then s1.tiuExpire u e else s1
  | none => s1

/-! ### Pairing (R118) -/

/-- The other unit whose input gives a unit its stops, if one does (R117). -/
def State.stopUnit (s : State) (u : Nat) : Option Nat :=
  let v := s.fget F.tiuSel_STOP_UNIT u
  if s.tiuMode u = 2 ∧ s.fget F.tiuSel_STOP_SRC u = 1 ∧ v ≠ u ∧ s.tiuMode v ≠ 0 then some v else none

/-- The hits still in flight that a unit will take: its own, and those at the input it takes stops from, each with its timestamp. -/
def State.hitsAhead (s : State) (u : Nat) : List (Instant × Nat) :=
  (((s.getTiu u).flight.filter Flight.own).map fun f => (s.stampOf u f.tk f.code, f.tick)) ++
  (match s.stopUnit u with
   | none => []
   | some v => ((s.getTiu v).flight.filter fun f => senseOk (s.fget F.tiuSel_STOP_EDGES u) f.rising).map fun f => (s.stampOf v f.tk f.code, f.tick))

/-- A hit still in flight has a timestamp before an instant, so it comes first (R118, R123). -/
def State.flightBefore (s : State) (u : Nat) (e : Instant) : Bool := (s.hitsAhead u).any fun f => decide (f.1 < e)

/-- A half as an input makes it. -/
def State.halfOf (s : State) (u : Nat) (x : TiuIn) (h : TiuHalf) (isStart : Bool) : Half :=
  ⟨isStart, x.ts, h.rising, h.event, x.tag, x.tick, if s.tiuCont u then s.tmoFrom u x.ts else none, h.valid, h.deg⟩

/-- An input that no arm admitted is kept while an arm of its instant may still come (R115). -/
def State.tiuMiss (s : State) (u : Nat) (x : TiuIn) : State :=
  let t := s.getTiu u
  s.setTiu u { t with missed := (t.missed.filter fun y => decide (s.nowI ≤ y.ts + 32 * lsbPerNs)) ++ [x] }

/-- An admitted input is offered to the pairing of a unit in INTERVAL mode (R118). -/
def State.offerHalf (s : State) (u : Nat) (x : TiuIn) (h : TiuHalf) : State :=
  let t := s.getTiu u
  let mk := s.halfOf u x h
  match t.half with
  | none =>
    if h.qStart then s.setTiu u { t with half := some (mk true) }
    else if h.qStop ∧ ¬ s.fbit F.tiuSel_STOP_AFTER u then s.setTiu u { t with half := some (mk false) }
    else s
  | some p =>
    if p.isStart then
      if !h.qStop ∨ (s.fbit F.tiuSel_STOP_AFTER u ∧ x.ts < p.ts) then s
      else
        let s1 := s.pairDone u p (mk false) x.ts h.arb
        if s.tiuCont u ∧ h.qStart then s1.setTiu u { s1.getTiu u with half := some (mk true) } else s1
    else if h.qStart then s.pairDone u (mk true) p x.ts h.arb
    else s

/-- A hit or an event is taken by the controller of a unit in TIMESTAMP or INTERVAL mode (R113, R118, R122). -/
def State.tiuTakeHalf (s : State) (u : Nat) (x : TiuIn) (h : TiuHalf) : State :=
  let m := s.tiuMode u
  if m = 1 ∨ m = 2 then
    let s1 := s.tiuLapse u x.ts x.tick
    if !(s1.armAdmits u x.ts) then s1.tiuMiss u x
    else if m = 1 then
      s1.tiuComplete u x.ts 0 { valid := h.valid, deg := h.deg, sense := h.rising } h.code (max (armTag (s1.getTiu u)) x.tag) x.ts false
    else s1.offerHalf u x h
  else s

/-! ### Capture (R109, R117, R121) -/

/-- The dead time: 6 ns in units of 2^-10 ns. -/
def deadTime : Nat := 6 * 1024

/-- A hit lost to dead time in this tick, in a unit that selected it: counted, and CLOSE rides on the unit's next record after it (R109, R117).
(DEDUCED, log entry 37.) -/
def State.closeOn (s0 : State) (u tick code : Nat) : State :=
  let s := (s0.cnt .tiuCntClose u).fon F.tiuStat_CLOSE u
  let t := s.getTiu u
  s.setTiu u { t with closeLost := t.closeLost ++ [(tick, code)] }

/-- Where a hit is captured: tick count, ns of device time, fine code. -/
structure CapPos where
  tick : Nat
  tk : Nat
  code : Nat
  deriving DecidableEq, Repr

/-- A hit is accepted by the front end: in flight, counted and announced if the unit itself selects it (R111, R128). -/
def State.tiuAccept (s : State) (u : Nat) (c : CapPos) (rising own : Bool) (closes : Option Gate) : State :=
  let t := s.getTiu u
  let tag := s.hitTag u
  let s1 := s.setTiu u { t with
    lastHit := some (c.tick * 1024 + c.code)
    flight := t.flight ++ [⟨c.tk, c.tick, c.code, rising, own, tag, closes, s.time.valid, s.deg⟩] }
  if own then (s1.cnt64 .tiuCntHit 1 u).raiseEv (Prod.tiuRaw u) (ofNs c.tk) tag 2 else s1

/-- The front end takes a hit that unit `u` itself, if `own`, and the units `takers` select, or loses it to the dead time (R109, R117). -/
def State.tiuFrontEnd (s : State) (u : Nat) (c : CapPos) (rising own : Bool) (takers : List Nat) (closes : Option Gate) : State × Bool :=
  if (s.getTiu u).lastHit.any fun p => decide (c.tick * 1024 + c.code < p + deadTime) then
    ((if own then takers ++ [u] else takers).foldl (fun st w => st.closeOn w c.tick c.code) s, false)
  else (s.tiuAccept u c rising own closes, true)

/-- What a prescaled edge does to the gate (R121). -/
inductive GateRole where
  | none | open_ | close (g : Gate)
  deriving DecidableEq, Repr

/-- The part a prescaled edge plays: it opens a gate, closes one, or is counted. -/
def State.gateRole (s : State) (u : Nat) (ts : Instant) : GateRole :=
  let len := s.fget F.tiuFreq_GATE u
  match (s.getTiu u).gate with
  | none => if len = 0 ∨ !(s.armAdmits u ts) then .none else .open_
  | some g => if g.edges + 1 < len ∨ ts < g.opened + 6 * lsbPerNs then .none else .close { g with edges := g.edges + 1 }

/-- A gate that opens with an edge (R121, R122). -/
def State.gateAt (s : State) (u : Nat) (ts : Instant) : Gate :=
  ⟨ts, 0, s.hitTag u, if s.tiuCont u then s.tmoFrom u ts else none, s.time.valid, s.deg⟩

/-- The gate after an edge has passed the front end: closed, and the next one open where CONT or the arm's COUNT allows a further record and
GATE is not 0 (R121). -/
def State.gateAfter (s : State) (u : Nat) (ts : Instant) (role : GateRole) : State :=
  let t := s.getTiu u
  match role with
  | .none => s
  | .open_ => s.setTiu u { t with gate := some (s.gateAt u ts) }
  | .close _ =>
    let more := (s.tiuCont u || decide (2 ≤ (t.arm.map Arm.left).getD 0)) && decide (s.fget F.tiuFreq_GATE u ≠ 0)
    s.setTiu u { t with
      arm := if s.tiuCont u then t.arm else t.arm.map fun a => { a with left := a.left - 1 }
      gate := if more then some (s.gateAt u ts) else none }

/-- A rising edge in FREQUENCY mode (R121): prescale and count; an edge of a gate passes the front end, as does one that other units take
stops from (R117). What an expiry before it has ended counts no more (R122), and waits for its record while a hit before the expiry is in flight
(R123). -/
def State.tiuFreqEdge (s : State) (u : Nat) (c : CapPos) (takers : List Nat) : State :=
  let t := s.getTiu u
  let ratio := 2 ^ s.fget F.tiuFreq_PRE u
  let n := if t.preFresh then 0 else t.pre
  let ts := s.stampOf u c.tk c.code
  let s1 := s.setTiu u { t with pre := (n + 1) % ratio, preFresh := false }
  let late : Bool := match s1.tiuExpiry u with
    | some e => decide (e ≤ ts) && s1.flightBefore u e
    | none => false
  let s2 := if late then s1 else s1.tiuLapse u ts c.tick
  let role : GateRole := if n % ratio ≠ 0 ∨ late then .none else s2.gateRole u ts
  let tag := armTag (s2.getTiu u)
  let s3 := if n % ratio ≠ 0 ∨ late then s2
    else
      let t2 := s2.getTiu u
      s2.setTiu u { t2 with gate := t2.gate.map fun g => { g with edges := g.edges + 1 } }
  let closes := match role with
    | .close g => some { g with tag := max g.tag tag }
    | _ => none
  if role = .none ∧ takers.isEmpty then s3
  else
    let r := s3.tiuFrontEnd u c true (decide (role ≠ .none)) takers closes
    if r.2 then r.1.gateAfter u ts role else r.1

/-! ### Arms (R114 to R116) -/

/-- End an arm: the pending half or open gate goes without a record (R116). -/
def State.tiuUnarm (s : State) (u : Nat) : State :=
  s.setTiu u { s.getTiu u with arm := none, half := none, gate := none }

/-- An arm or disarm has no effect in CONT mode, OFF and MONITOR (R114). -/
def State.armIgnored (s : State) (u : Nat) : Bool :=
  s.tiuCont u || decide (s.tiuMode u = 0) || decide (s.tiuMode u = 4)

/-- The instant from which an arm applies: ta, or the arrival when it comes more than 32 ticks later (R115), and whether it is late. -/
def State.armFrom (s : State) (ta : Instant) : Instant × Bool :=
  if ta + 32 * lsbPerNs < s.nowI then (s.nowI, true) else (ta, false)

/-- Put an input in its place by timestamp, after those of the same instant but an arm before the hits of its instant (R115). -/
def insertIn (x : TiuIn) : List TiuIn → List TiuIn
  | [] => [x]
  | y :: t =>
    let before := match x.ask, y.ask with
      | .arm _ _, .half _ => decide (x.ts ≤ y.ts)
      | _, _ => decide (x.ts < y.ts)
    if before then x :: y :: t else y :: insertIn x t

/-- An arm takes effect (R114 to R116, R121, R122): the hits and edges of its instants that came before it are taken now. An arm for no records
is a disarm. -/
def State.tiuSetArm (s0 : State) (u : Nat) (x : TiuIn) (count : Nat) (ta : Instant) : State :=
  let s := s0.tiuLapse u x.ts x.tick
  let t := s.getTiu u
  if count = 0 then (if t.arm.isSome then s.tiuUnarm u else s)
  else
    let arm1 : Arm := match t.arm with
      | some a => { a with left := count, tag := max a.tag x.tag, expiry := s.tmoFrom u ta }
      | none => ⟨x.ts, count, x.tag, s.tmoFrom u ta⟩
    let again := t.missed.filter fun y => decide (x.ts ≤ y.ts)
    let s1 := s.setTiu u { t with
      arm := some arm1, pre := 0, preFresh := true, missed := [], edges := [], ins := again.foldl (fun l y => insertIn y l) t.ins }
    if s.tiuMode u = 3 ∧ t.arm.isNone then
      (t.edges.filter fun c => decide (x.ts ≤ s.stampOf u c.2.1 c.2.2)).foldl
        (fun st c => st.tiuFreqEdge u ⟨c.1, c.2.1, c.2.2⟩ []) s1
    else s1

/-- An input is ready: no hit in flight comes before it; an arm whose instant is still to come waits, but not for a hit behind it. In FREQUENCY
mode edges are judged as they are captured. -/
def State.inReady (s : State) (u : Nat) (by_ : Instant) (x : TiuIn) (rest : List TiuIn) : Bool :=
  (decide (s.tiuMode u = 3) || !s.flightBefore u x.ts) &&
  (match x.ask with
   | .half _ => true
   | .arm _ _ => decide (x.ts ≤ by_) || rest.any fun y => match y.ask with
      | .half _ => true
      | .arm _ _ => false)

/-- The controller takes one input. -/
def State.tiuTake (s : State) (u : Nat) (x : TiuIn) : State :=
  match x.ask with
  | .arm count ta => s.tiuSetArm u x count ta
  | .half h => s.tiuTakeHalf u x h

/-- The controller takes its inputs in timestamp order as far as they are ready (R115, R118); the first argument bounds their number. (DEDUCED,
log entry 37.) -/
def State.tiuSettleBy : Nat → State → Nat → Instant → State
  | 0, s, _, _ => s
  | fuel + 1, s, u, by_ =>
    match (s.getTiu u).ins with
    | [] => s
    | x :: rest =>
      if s.inReady u by_ x rest then State.tiuSettleBy fuel ((s.setTiu u { s.getTiu u with ins := rest }).tiuTake u x) u by_
      else s

def State.tiuSettle (s : State) (u : Nat) (by_ : Instant) : State :=
  let t := s.getTiu u
  State.tiuSettleBy ((t.ins.length + 1) * (t.ins.length + t.missed.length + 1)) s u by_

/-- An input reaches the controller. -/
def State.tiuInput (s : State) (u : Nat) (x : TiuIn) : State :=
  let t := s.getTiu u
  (s.setTiu u { t with ins := insertIn x t.ins }).tiuSettle u s.nowI

/-- An arm reaches a unit (R114 to R116). (DEDUCED, log entry 37.) -/
def State.tiuArmWith (s : State) (u : Nat) (ta : Instant) (tag count : Nat) : State :=
  if s.armIgnored u then s
  else
    let r := s.armFrom ta
    (s.fonIf r.2 F.tiuStat_ARM_LATE u).tiuInput u ⟨r.1, s.tickNo, tag, .arm count ta⟩

/-- A disarm reaches a unit (R115, R116). -/
def State.tiuDisarmWith (s : State) (u : Nat) (ta : Instant) : State := s.tiuArmWith u ta 0 0

/-- A group at TIU_ARM(u), in timestamp order (R128). -/
def State.tiuArmGroup (s : State) (u : Nat) (evs : List Stamp) : State :=
  evs.foldl (fun st e => st.tiuArmWith u e.ts e.tag (st.fget F.tiuArm_COUNT u)) s

/-- The tick count of an instant of device time. -/
def State.tickOf (s : State) (t : Instant) : Nat := ((s.tickNo : Int) + nsOf t - s.time.now).toNat

/-- A group at TIU_START(u) or TIU_STOP(u) (R117, R128). -/
def State.tiuEventHalf (s : State) (u : Nat) (isStart : Bool) (evs : List Stamp) : State :=
  let on := if isStart then decide (s.fget F.tiuSel_START_SRC u = 1) else decide (s.fget F.tiuSel_STOP_SRC u = 2)
  if on ∧ s.tiuMode u = 2 then
    evs.foldl (fun st e =>
      st.tiuInput u ⟨e.ts, st.tickOf e.ts, e.tag, .half ⟨false, true, isStart, !isStart, false, st.time.valid, st.deg, 0⟩⟩)
      (s.closeDue u (pastPath s.tickNo))
  else s

/-- TIU_CTL changed MODE, CONT or EDGES (R116); setting FREQUENCY mode resets the prescaler (R121). -/
def State.tiuModeChanged (s : State) (u : Nat) (was : Nat) : State :=
  let t := s.getTiu u
  let fresh := decide (s.tiuMode u = 3 ∧ was ≠ 3)
  s.setTiu u { t with
    arm := none, half := none, gate := none, ins := [], missed := [], edges := []
    pre := if fresh then 0 else t.pre, preFresh := fresh || t.preFresh }

/-! ### The commands (R108 to R123) -/

/-- A rising edge that finds a unit in FREQUENCY mode without an arm is kept while an arm of its instant may still come (R115). -/
def State.keepEdge (s : State) (u : Nat) (c : CapPos) : State :=
  let t := s.getTiu u
  if s.tiuCont u ∨ t.arm.isSome then s
  else s.setTiu u { t with edges := (t.edges.filter fun e => decide (s.tickNo ≤ e.1 + 32)) ++ [(c.tick, c.tk, c.code)] }

/-- TIU_HIT_CAPTURE: a transition at a unit's source, captured now with a fine code (R108, R109, R117, R129). A monitor unit takes none while its
bank is down or powers up (R67). -/
def State.tiuCapture (s0 : State) (u code : Nat) (rising : Bool) : State :=
  let takers := s0.stopTakers u rising
  let own := s0.ownSelects u rising
  let off := decide (32 ≤ u) && ((s0.getEo (u - 32)).poweringUp || !s0.bankOn (u - 32))
  if s0.tiuMode u = 0 ∨ off ∨ (!own ∧ takers.isEmpty) then s0
  else
    let s := s0.setTiu u { s0.getTiu u with seen := some s0.tickNo }
    let t := s.getTiu u
    let c : CapPos := ⟨s.tickNo, s.time.now, code⟩
    if t.calHeld then
      let s1 := s.cnt .tiuCntCalhold u
      if u < 32 then s1.setTiu u { t with calHeld := false } else s1
    else
      let s := s.calLiveHit u code
      if s.tiuMode u = 3 ∧ rising then
        let s1 := s.tiuSettle u (max s.nowI (s.stampOf u c.tk c.code))
        (s1.keepEdge u c).tiuFreqEdge u c takers
      else (s.tiuFrontEnd u c rising own takers none).1

/-- A unit's own use of a formed timestamp, by its mode (R113). -/
def State.tiuOwnHit (s : State) (u : Nat) (f : Flight) (ts : Instant) (arb : Bool) : State :=
  let m := s.tiuMode u
  if m = 1 ∨ m = 2 then
    s.tiuInput u ⟨ts, f.tick, f.tag, .half ⟨f.rising, false, s.ownStart u f.rising, s.ownStop u f.rising, arb, f.valid, f.deg, f.code⟩⟩
  else if m = 3 then
    match f.closes with
    | none => s
    | some g =>
      let r := spanBetween ts g.opened
      let t := s.getTiu u
      let s1 := s.setTiu u { t with arm := t.arm.map fun a => { a with left := a.left + 1 } }
      s1.tiuComplete u g.opened r.val { g.flags with ovf := r.v } (g.edges * 2 ^ s.fget F.tiuFreq_PRE u % 2 ^ 32)
        (max (armTag t) (max g.tag f.tag)) ts false
  else if m = 4 then s.eoMonitorHit (u - 32) ts f.rising
  else s

/-- A formed timestamp is a stop of another unit (R117). -/
def State.tiuGiveStop (s : State) (w : Nat) (f : Flight) (ts : Instant) (arb : Bool) : State :=
  s.tiuInput w ⟨ts, f.tick, f.tag, .half ⟨f.rising, false, false, true, arb, f.valid, f.deg, f.code⟩⟩

/-- TIU_RECORD_COMPLETE: the oldest hit in flight has its timestamp (R110, R111); `arb` is the arbiter's order (R119). -/
def State.tiuForm (s : State) (u : Nat) (arb : Bool) : State :=
  let t := s.getTiu u
  match t.flight with
  | [] => s
  | f :: rest =>
    if s.tickNo < f.tick + 28 then s
    else
      let ts := s.stampOf u f.tk f.code
      let s0 := (u :: s.stopTakers u f.rising).foldl (fun st w => st.closeDue w (beforeHit f)) s
      let s1 := s0.setTiu u { s0.getTiu u with flight := rest }
      let s2 := if f.own ∧ s.tiuMode u ≠ 0 then
          (s1.raiseEv (Prod.tiuHit u) ts f.tag).tiuOwnHit u f ts arb
        else s1
      (s2.stopTakers u f.rising).foldl (fun st w => st.tiuGiveStop w f ts arb) s2

/-- TIU_OVERFLOW (R120): the coarse counter of a pending half has reached 2^24 ticks, and no hit captured before that is on its way. -/
def State.tiuOverflow (s : State) (u : Nat) : State :=
  match s.ovfBefore u s.tickNo with
  | none => s
  | some h => if (s.hitsAhead u).any fun f => decide (f.2 < h.ovfTick) then s else s.tiuOvf u h

/-- TIU_TIMEOUT (R122, R123): not while a hit before the expiry is on its way, nor where the coarse counter ends no later. -/
def State.tiuTimeout (s : State) (u : Nat) : State :=
  match s.tiuExpiry u with
  | none => s
  | some e => if decide (s.nowI < e) || s.flightBefore u e || (s.ovfBefore u s.tickNo).isSome then s else s.tiuExpire u e

/-- Inputs whose instant has come are taken (R115, R118): called in each tick for the units with inputs that wait. -/
def State.tiuTick (s : State) (u : Nat) : State := s.tiuSettle u s.nowI

/-! ### FIFO and readout queue (R127, R143) -/

/-- A record goes to the readout queue, or is counted when it is full. -/
def State.rdqPut (s : State) (u : Nat) (r : Rec) : State :=
  let t := s.getTiu u
  if 16 ≤ t.rdq.length then (s.cnt .tiuCntRdq u).fon F.tiuStat_RDQ_OVF u
  else s.setTiu u { t with rdq := t.rdq ++ [r] }

/-- TIU_FIFO_DRAIN: one record leaves, no sooner than 12.5 ns after the last (R127). -/
def State.tiuDrain (s : State) (u : Nat) : State :=
  let t := s.getTiu u
  match t.fifo with
  | [] => s
  | r :: rest =>
    if 2 * s.tickNo < t.nextDrain then s
    else
      let from_ := if 2 * s.tickNo < t.nextDrain + 2 then t.nextDrain else 2 * s.tickNo
      let s1 := s.setTiu u { t with fifo := rest, nextDrain := from_ + 25 }
      let s2 := if s.fbit F.tiuCtl_RDQ u then s1.rdqPut u r.rcd else s1
      let tally := match r.eo with
        | some n => s.fbit F.eoCtl_TALLY n
        | none => s.fbit F.tiuCtl_TALLY u
      if tally then s2.offerTally r.rcd else s2

/-- The record an empty readout queue shows: SRC 0b11 (R143). -/
def emptyRec : Nat := 0xC000 * 2 ^ 160

/-- Take the head of the readout queue (R143): its 256 bits and the state without it. -/
def State.rdqPop (s : State) (u : Nat) : Nat × State :=
  let t := s.getTiu u
  match t.rdq with
  | [] => (emptyRec, s)
  | r :: rest => (r.pack, s.setTiu u { t with rdq := rest })

end Sys2Proof.Machine
end

