-- ==== Sys2Proof/Machine/TallyOps.lean ====
section
/-! DEFINITION. The Tally log (R130 to R135, R145 to R148). -/

namespace Sys2Proof.Machine

/-- The ingest buffer holds 8,192 records (R130). -/
def talBufMax : Nat := 8192

/-- Count a lost record (R130). -/
def State.talLose (s : State) : State :=
  let s1 := (s.cnt64 .talCntLost 1).fon F.talStat_LOST
  s1.setTal { s1.tal with lost := min (s1.tal.lost + 1) 16777215 }

/-- A marker record (R124): code and count in AUX. -/
def State.talMarker (s : State) (code count : Nat) (time : Instant) : Rec :=
  ⟨time, 0, srcMark, ({ valid := s.time.valid, deg := s.deg } : RecFlags).pack, code * 2 ^ 24 + count, s.tal.markSeq⟩

/-- Put a marker into the ingest buffer while markers are on; without room it waits for the next free slot. -/
def State.talMark (s : State) (code count : Nat) (time : Instant) : State :=
  if s.fbit F.talCtl_MARK then
    let m : TalIn := ⟨s.talMarker code count time, true⟩
    let t : Tally := { s.tal with markSeq := (s.tal.markSeq + 1) % 2 ^ 32 }
    s.setTal (if t.marks.isEmpty ∧ t.buf.length < talBufMax then { t with buf := t.buf ++ [m] } else { t with marks := t.marks ++ [m] })
  else s

/-- The markers that wait take the free slots of the ingest buffer; then the LOST marker that is due (R130). -/
def State.talMarksIn (s : State) : State :=
  let room := talBufMax - s.tal.buf.length
  let s1 := s.setTal { s.tal with buf := s.tal.buf ++ s.tal.marks.take room, marks := s.tal.marks.drop room }
  if 0 < s1.tal.lost ∧ s1.talActive ∧ s1.fbit F.talCtl_MARK ∧ s1.tal.buf.length < talBufMax ∧ !s1.dramUnavail then
    let s2 := s1.talMark 3 s1.tal.lost s1.nowI
    s2.setTal { s2.tal with lost := 0 }
  else s1

/-- A record taken in is stored, lost, or discarded where Tally has stopped since its offer (R130, R132). -/
def State.talTake (s : State) (r : Rec) : State :=
  if ¬ s.talActive ∨ s.fget F.talSize_SIZE = 0 then s.cnt64 .talCntDisc 1
  else if s.dramUnavail ∨ s.fbit F.glbBlkRst_TAL then s.talLose
  else
    let s2 := s.talMarksIn
    if talBufMax ≤ s2.tal.buf.length then s2.talLose
    else s2.setTal { s2.tal with buf := s2.tal.buf ++ [⟨r, false⟩] }

/-- The number of a record's source, TIU 0 to 95 and EO 96 to 159. -/
def sourceNo (r : Rec) : Nat := if r.src < 0x4000 then r.src else 96 + (r.src - 0x4000)

/-- The next offer: the oldest tick's, in an order of sources that starts one later each tick (R130). -/
def pickTal (l : List TalOffer) : Option TalOffer :=
  l.foldl (fun m o => match m with
    | none => some o
    | some b =>
      if o.tick < b.tick then some o
      else if o.tick = b.tick ∧ (sourceNo o.rcd + 160 - o.tick % 160) % 160 < (sourceNo b.rcd + 160 - b.tick % 160) % 160 then some o
      else some b) none

/-- TALLY_RECORD_IN: at most two records a tick (R130). -/
def State.talIn (s : State) : State :=
  match pickTal s.tal.offers with
  | none => s
  | some o =>
    let used := if s.tal.takenTick = s.tickNo then s.tal.takenCnt else 0
    if 2 ≤ used then s
    else (s.setTal { s.tal with offers := s.tal.offers.erase o, takenTick := s.tickNo, takenCnt := used + 1 }).talTake o.rcd

/-- DRAM address of a ring slot (R131). -/
def State.talAddr (s : State) (i : Nat) : Nat := (s.fget F.talBase_BASE + i) * 32

/-- The next write would land in the reserved pre-trigger records (R133). -/
def State.talBlocked (s : State) : Bool :=
  s.fbit F.talStat_TRIGGERED && decide (0 < s.tal.kept) && decide (s.fget F.talSize_SIZE ≤ s.tal.afterTrig + s.tal.kept)

/-- Write one record at WPTR and advance it, wrapping or filling (R131, R132). -/
def State.talStore (s : State) (r : TalIn) : State :=
  let w := s.fget F.talWptr_WPTR
  let size := s.fget F.talSize_SIZE
  let s1 := s.dramWrite (s.talAddr w) r.rcd.pack 32
  let tt := (unpackT96 (s.fget F.talTrigTime_TT)).getD 0
  let counts := s.fbit F.talStat_TRIGGERED && !r.marker && decide (tt ≤ r.rcd.time)
  let s2 := s1.setTal { s1.tal with
    written := min (s1.tal.written + 1) size
    total := s1.tal.total + 1
    afterTrig := if s.fbit F.talStat_TRIGGERED then s1.tal.afterTrig + 1 else 0
    post := if counts then s1.tal.post + 1 else s1.tal.post }
  if w + 1 < size then s2.fset F.talWptr_WPTR (w + 1)
  else if s.fbit F.talCtl_MODE then (s2.fset F.talWptr_WPTR size).fon F.talStat_FULL
  else (s2.fset F.talWptr_WPTR 0).cnt .talWraps

/-- Freeze (R133): FROZEN, with a FREEZE marker when markers are on and room remains. -/
def State.talFreezeNow (s : State) : State :=
  let s1 := if s.fbit F.talCtl_MARK ∧ ¬ s.talBlocked ∧ ¬ s.fbit F.talStat_FULL ∧ ¬ s.dramUnavail ∧ s.fget F.talSize_SIZE ≠ 0 then
      let s2 := s.talStore ⟨s.talMarker 4 0 s.nowI, true⟩
      s2.setTal { s2.tal with markSeq := (s2.tal.markSeq + 1) % 2 ^ 32 }
    else s
  s1.fon F.talStat_FROZEN

/-- A buffered record that cannot be stored counts as discarded, unless it is a marker. -/
def State.talDrop (s : State) (r : TalIn) : State := if r.marker then s else s.cnt64 .talCntDisc 1

/-- TALLY_WRITE: the oldest buffered record goes to the ring (R131 to R133); the slot it leaves is free. -/
def State.talWrite (s0 : State) : State :=
  let s := s0.talMarksIn
  match s.tal.buf with
  | [] => s
  | r :: rest =>
    let s1 := s.setTal { s.tal with buf := rest }
    if s1.fbit F.talStat_FROZEN ∨ s1.fbit F.talStat_FULL ∨ s1.fget F.talSize_SIZE = 0 then s1.talDrop r
    else if s1.dramUnavail then (if r.marker then s1 else s1.talLose)
    else if s1.talBlocked then ((s1.fon F.talStat_TRUNC).talFreezeNow).talDrop r
    else s1.talStore r

/-- A capture trigger with timestamp tt (R133): the first after EN rises. -/
def State.talTrigger (s : State) (tt : Instant) : State :=
  if ¬ (s.fbit F.talCtl_TRIG_EN ∧ s.fbit F.talCtl_EN) ∨ s.fbit F.talStat_TRIGGERED then s
  else
    let w := s.fget F.talWptr_WPTR
    let s1 := ((s.fon F.talStat_TRIGGERED).fset F.talTrigTime_TT (packT96 tt)).fset F.talTrigPos_POS w
    let s2 := s1.setTal { s1.tal with kept := min (s1.fget F.talPre_PRE) s1.tal.written, afterTrig := 0, post := 0 }
    s2.talMark 2 0 tt

/-- TALLY_FREEZE: POST records written and tt + 3 µs passed (R133). -/
def State.talFreeze (s : State) : State :=
  let tt := (unpackT96 (s.fget F.talTrigTime_TT)).getD 0
  if s.fbit F.talStat_TRIGGERED ∧ ¬ s.fbit F.talStat_FROZEN ∧ s.fget F.talPost_POST ≤ s.tal.post ∧
      tt + 3000 * lsbPerNs ≤ s.nowI then s.talFreezeNow
  else s

/-- The check of a write of EN from 0 to 1 (R134), with the values the same write gives TRIG_EN. -/
def State.talEnableOk (s : State) (trigEn : Bool) : Bool :=
  decide (s.fget F.talBase_BASE + s.fget F.talSize_SIZE ≤ 134217728) &&
  (!trigEn || decide (s.fget F.talPre_PRE + s.fget F.talPost_POST ≤ s.fget F.talSize_SIZE))

/-- The records left in the buffer, and the markers that wait, are written (R134). -/
def State.talFlush (s : State) : State :=
  if s.tal.draining then
    let s1 := (List.range (s.tal.buf.length + s.tal.marks.length)).foldl (fun st _ => st.talWrite) s
    s1.setTal { s1.tal with buf := [], marks := [], draining := false }
  else s

/-- An accepted enable (R134): what an earlier disable has left in the buffer is written first. -/
def State.talStart (s0 : State) : State :=
  let s := s0.talFlush
  let s1 := ((s.fset F.talWptr_WPTR 0).fset F.talWraps_WRAPS 0).fset F.talStat_TRIGGERED 0
  let s2 := ((s1.fset F.talStat_FROZEN 0).fset F.talStat_FULL 0).fset F.talTrigTime_TT 0
  let s3 := (s2.fset F.talTrigPos_POS 0).fset F.talCtl_EN 1
  (s3.setTal { s3.tal with buf := [], marks := [], lost := 0, written := 0, total := 0, gen := s3.tal.gen + 1, kept := 0, afterTrig := 0, post := 0, draining := false }).talMark
    1 0 s.nowI

/-- EN falls (R134): ingest stops and the buffer drains. -/
def State.talStop (s : State) : State :=
  (s.fset F.talCtl_EN 0).setTal { s.tal with draining := true }

/-- TALLY_DRAIN_DONE: the records left in the buffer are written, and TAL_WPTR holds (R134). -/
def State.talDrain (s : State) : State := s.talFlush

/-- Slots that have come free take the markers that wait (R130): in each tick. -/
def State.talTick (s : State) : State := if s.tal.marks.isEmpty ∧ s.tal.lost = 0 then s else s.talMarksIn

end Sys2Proof.Machine
end

