-- ==== Sys2Proof/Machine/DwOps.lean ====
section
/-! DEFINITION. The Droveway (R149 to R178): gates, flocks, channels, timers, pins, enable checks, ownership. -/

namespace Sys2Proof.Machine

/-! ### Levels and gates (R158, R160) -/

/-- Level of an event-input pin at its synchroniser output: a new level is seen two ticks after its capture (R158). -/
def State.evinSeen (s : State) (i : Nat) : Bool :=
  let p := s.dw.evin.get {} i
  if p.tick + 2 ≤ s.tickNo then p.level else p.seen

/-- Logical level of an output as EO_STAT.LEVEL shows it. -/
def State.eoLevel (s : State) (n : Nat) : Bool := (s.getEo n).level

/-- The state of a flock at an instant (R162): that of the latest change at or before it, or of the oldest change kept. A flock
without changes has been enabled since reset. (DEDUCED, log entry 44.) -/
def flockAt (l : List FlockChange) (t : Instant) : Bool :=
  match l.find? fun c => decide (c.at_ ≤ t) with
  | some c => c.state
  | none => (l.getLast?.map FlockChange.state).getD true

/-- The changes a flock keeps; at reset the one that enabled it. -/
def State.flockLog (s : State) (f : Nat) : List FlockChange := s.dw.flocks.get [⟨0, true⟩] f

/-- The state of a flock now. -/
def State.flockNow (s : State) (f : Nat) : Bool := flockAt (s.flockLog f) s.nowI

/-- The level of a gate signal GSEL (R158); `chain` gives the output of an asynchronous channel. -/
def State.gateSig (s : State) (chain : Nat → Bool) (g : Nat) : Bool :=
  if g = 0 then true
  else if g ≤ 0x010 then s.evinSeen (g - 1)
  else if 0x020 ≤ g ∧ g ≤ 0x02F then bit (s.inForce ⟨.dwSwgate, 0, 0, 0⟩) (g - 0x020)
  else if g = 0x040 then decide (s.fget F.bwStat_STATE = 2)
  else if g = 0x041 then !s.deg
  else if g = 0x042 then s.time.valid
  else if 0x080 ≤ g ∧ g ≤ 0x0BF then s.eoLevel (g - 0x080)
  else if 0x100 ≤ g ∧ g ≤ 0x1FF then chain (g - 0x100)
  else false

/-- The source level of an asynchronous channel (R160). -/
def State.asyncSrc (s : State) (chain : Nat → Bool) (a : Nat) : Bool :=
  if a ≤ 0x00F then s.dw.evpin.get false a
  else if 0x010 ≤ a ∧ a ≤ 0x011 then s.dw.ppsin.get false (a - 0x010)
  else if 0x020 ≤ a ∧ a ≤ 0x03F then s.dw.ti.get false (a - 0x020)
  else if 0x100 ≤ a ∧ a ≤ 0x1FF then chain (a - 0x100)
  else false

/-- The output level of an asynchronous channel (R160); at most four channels stand in a chain (R166). -/
def State.asyncOut (s : State) : Nat → Nat → Bool
  | 0, _ => false
  | fuel + 1, c =>
    if ¬ (s.fbit F.dwChCfg_EN c ∧ s.fbit F.dwChCfg_ASYNC c) then false
    else if s.fbit F.dwChCfg_FL_MEM c ∧ ¬ s.flockNow (s.fget F.dwChCfg_FLOCK c) then false
    else s.asyncSrc (s.asyncOut fuel) (s.fget F.dwChSrc_SRC_A c) &&
      (s.gateSig (s.asyncOut fuel) (s.fget F.dwChCfg_GSEL c) != s.fbit F.dwChCfg_GINV c)

/-- The gate of a channel (R158). -/
def State.gateOf (s : State) (c : Nat) : Bool :=
  s.gateSig (s.asyncOut 5) (s.fget F.dwChCfg_GSEL c) != s.fbit F.dwChCfg_GINV c

/-- The level of an EVOUT pin (R155). -/
def State.evoutLevel (s : State) (i : Nat) : Bool :=
  let sel := s.inForce ⟨.dwConSel, Con.evout i, 0, 0⟩
  let m := bits sel 29 28
  if m = 0 then false
  else if m = 2 ∧ s.fbit F.dwChCfg_ASYNC (bits sel 7 0) then s.asyncOut 5 (bits sel 7 0)
  else (s.dw.evout.get {} i).level

/-! ### Channels (R157, R159) -/

/-- An event comes from a channel's SRC_A; from its SRC_B. -/
def State.fromA (s : State) (c : Nat) (e : Ev) : Bool := decide (s.fget F.dwChSrc_SRC_A c = e.prod)
/-- DEDUCED, log entry 37. -/
def State.fromB (s : State) (c : Nat) (e : Ev) : Bool :=
  s.fbit F.dwChCfg_SRCB_EN c && decide (s.fget F.dwChSrc_SRC_B c = e.prod)

/-- Insert an event by timestamp, after those with an equal one. -/
def insertEv (e : Ev) : List Ev → List Ev
  | [] => [e]
  | b :: t => if e.ts < b.ts then e :: b :: t else b :: insertEv e t

/-- Order a group by timestamp; SRC_A before SRC_B on a tie (R149). -/
def State.orderGroup (s : State) (c : Nat) (l : List Ev) : List Ev :=
  (l.filter (s.fromA c) ++ l.filter fun e => !s.fromA c e).foldl (fun acc e => insertEv e acc) []

/-- The events a channel may take now: raised two ticks ago or earlier, not yet taken, all of one tick (R159). -/
def State.channelGroup (s : State) (c : Nat) : List Ev :=
  let l := s.dw.evq.filter fun e =>
    (s.fromA c e || s.fromB c e) && decide (e.tick + 2 ≤ s.tickNo) && !e.taken.contains c
  match (l.map Ev.tick).min? with
  | none => []
  | some t => s.orderGroup c (l.filter fun e => decide (e.tick = t))

/-- The consumers that select a channel (R156). -/
def State.consumersOf (s : State) (c : Nat) : List Nat :=
  s.conSels.filterMap fun x => if bits x.2 29 28 = 2 ∧ bits x.2 7 0 = c then some x.1 else none

/-- DW_CHANNEL_EVENT (R157, R159): a channel judges the group it takes and hands on what passes. (DEDUCED, log entry 44.) -/
def State.channelEvent (s : State) (c : Nat) : State :=
  match s.channelGroup c with
  | [] => s
  | e0 :: rest =>
    let evs := e0 :: rest
    let s1 := s.setDw { s.dw with evq := s.dw.evq.map fun e => if evs.contains e then { e with taken := c :: e.taken } else e }
    if ¬ s.fbit F.dwChCfg_EN c ∨ s.fbit F.dwChCfg_ASYNC c then s1
    else if ¬ s.gateOf c then s1.fon F.dwChStat_GATED c
    else
      let pass := evs.filter fun e =>
        !s.fbit F.dwChCfg_FL_MEM c || flockAt (s.flockLog (s.fget F.dwChCfg_FLOCK c)) e.ts
      let s2 := s1.fonIf (decide (pass.length < evs.length)) F.dwChStat_FLOCKED c
      if pass.isEmpty then s2
      else
        let s3 := s2.cntAdd .dwChCnt pass.length c
        (s3.consumersOf c).foldl (fun st x => st.deliver x (pass.map fun e => ⟨e.ts, e.tag⟩) (e0.tick + 3)) s3

/-! ### Flocks (R162) -/

/-- Insert a change, newest first; at one instant the later one replaces the earlier. -/
def insertChange (c : FlockChange) : List FlockChange → List FlockChange
  | [] => [c]
  | d :: t => if d.at_ < c.at_ then c :: d :: t else if d.at_ = c.at_ then c :: t else d :: insertChange c t

/-- A flock changes state from an instant; changes at one instant resolve to disabled, and no change raises nothing (R162). -/
def State.flockSet (s : State) (f : Nat) (t : Instant) (on : Bool) (tag : Nat) : State :=
  let l := s.flockLog f
  let dis := s.dw.disAt.get [] f
  let clash := on && dis.contains t
  let s := if on then s else s.setDw { s.dw with disAt := s.dw.disAt.put id [] f ((t :: dis).take 8) }
  if flockAt l t = on ∨ clash then s
  else (s.setDw { s.dw with flocks := s.dw.flocks.put id [⟨0, true⟩] f ((insertChange ⟨t, on⟩ l).take 8) }).raiseEv
    (Prod.flock f) t tag

/-- A flock event with timestamp tf (R162): later than 32 ticks it applies from its arrival. -/
def State.flockEvent (s : State) (f : Nat) (on : Bool) (e : Stamp) : State :=
  if e.ts + 32 * lsbPerNs < s.nowI then (s.fon F.dwStat_FL_LATE).flockSet f s.nowI on (e.tag + 1)
  else s.flockSet f e.ts on (e.tag + 1)

/-- A group at a flock consumer, in timestamp order. -/
def State.flockGroup (s : State) (f : Nat) (on : Bool) (evs : List Stamp) : State :=
  evs.foldl (fun st e => st.flockEvent f on e) s

/-! ### Timers (R152) -/

/-- Instant k of timer i as an exact count of T96 LSBs. -/
def State.tmrInstant (s : State) (i k : Nat) : Nat :=
  (unpackT96 (s.fget F.dwTmrAnchor_ANCHOR i)).getD 0 + 4 * k * s.fget F.dwTmrPeriod_PERIOD i

/-- The timer ends: EN clears and DONE sets. -/
def State.tmrEnd (s : State) (i : Nat) : State := (s.fset F.dwTmrCtl_EN 0 i).fon F.dwTmrCtl_DONE i

/-- Instant k is past the timer's last one. -/
def State.tmrOver (s : State) (i k : Nat) : Bool :=
  (!s.fbit F.dwTmrCtl_UNLIM i && decide (s.fget F.dwTmrCount_COUNT i ≤ k)) || decide (instantMax < s.tmrInstant i k)

/-- The number of instants of a timer earlier than a given one. -/
def State.tmrBefore (s : State) (i : Nat) (t : Instant) : Nat :=
  let a := s.tmrInstant i 0
  let p := 4 * s.fget F.dwTmrPeriod_PERIOD i
  if t ≤ a then 0 else (t - a + (p - 1)) / p

/-- The timer moves to instant `k`, skipping those before it, and ends when none is left. -/
def State.tmrMove (s : State) (i k : Nat) : State :=
  let s1 := s.setDw { s.dw with timers := s.dw.timers.put id 0 i k }
  if s1.tmrOver i k then s1.tmrEnd i else s1

/-- EN rises (R152): instants earlier than te + 2 ns are skipped. -/
def State.tmrEnable (s : State) (i : Nat) : State :=
  let k := s.tmrBefore i (s.nowI + 2 * lsbPerNs)
  let kc := if s.fbit F.dwTmrCtl_UNLIM i then k else min k (s.fget F.dwTmrCount_COUNT i)
  (s.fonIf (decide (0 < kc)) F.dwTmrCtl_SKIP i).tmrMove i kc

/-- DW_TMR_INSTANT: device time has reached the timer's next instant (R152). -/
def State.tmrFire (s : State) (i : Nat) : State :=
  let k := s.dw.timers.get 0 i
  if ¬ s.fbit F.dwTmrCtl_EN i then s
  else if s.tmrOver i k then s.tmrEnd i
  else if s.time.now < nsOf (s.tmrInstant i k) then s
  else (s.raiseEv (Prod.dwTmr i) (s.tmrInstant i k) 0).tmrMove i (k + 1)

/-- A forward time step passes instants of a running timer (R152). -/
def State.tmrStep (s : State) (i : Nat) : State :=
  let k := s.dw.timers.get 0 i
  let n := s.tmrBefore i s.nowI
  if s.fbit F.dwTmrCtl_EN i ∧ k < n then
    let kc := if s.fbit F.dwTmrCtl_UNLIM i then n else min n (s.fget F.dwTmrCount_COUNT i)
    (s.fon F.dwTmrCtl_SKIP i).tmrMove i kc
  else s

/-! ### Pins (R151, R155) -/

/-- EVIN_EDGE: the first synchroniser stage captures a new level in this tick (R151). (DEDUCED, log entry 45.) -/
def State.evinEdge (s : State) (i : Nat) (level : Bool) : State :=
  let p := s.dw.evin.get {} i
  if p.level = level then s
  else
    let s1 := s.setDw { s.dw with evpin := s.dw.evpin.put id false i level, evin := s.dw.evin.put id {} i ⟨level, s.evinSeen i, s.tickNo⟩ }
    let e := s.fget F.dwEvinCtl_EDGES i
    s1.raiseIf (decide (e ≠ 3) && senseOk e level) (Prod.evin i) (ofNs (s.time.now - 2)) 0 3

/-- ASYNC_SOURCE_LEVEL_CHANGE (R160): a pin that asynchronous channels may select changes level: EVIN, PPSIN or TI. (DEDUCED, log entry 45.) -/
def State.asyncLevel (s : State) (a : Nat) (level : Bool) : State :=
  if a ≤ 0x00F then s.setDw { s.dw with evpin := s.dw.evpin.put id false a level }
  else if 0x010 ≤ a ∧ a ≤ 0x011 then s.setDw { s.dw with ppsin := s.dw.ppsin.put id false (a - 0x010) level }
  else if 0x020 ≤ a ∧ a ≤ 0x03F then s.setDw { s.dw with ti := s.dw.ti.put id false (a - 0x020) level }
  else s

/-- EVOUT_EVENT: an event group acts on the pin (R155). (DEDUCED, log entry 44.) -/
def State.evoutGroup (s : State) (i : Nat) (evs : List Stamp) : State :=
  let p := s.dw.evout.get {} i
  let sel := s.inForce ⟨.dwConSel, Con.evout i, 0, 0⟩
  let w := s.fget F.dwEvoutCtl_WIDTH i
  let put (q : EvOut) : State := s.setDw { s.dw with evout := s.dw.evout.put id {} i q }
  if bits sel 29 28 = 0 ∨ (bits sel 29 28 = 2 ∧ s.fbit F.dwChCfg_ASYNC (bits sel 7 0)) then s
  else if s.fget F.dwEvoutCtl_MODE i = 1 then put { p with level := p.level != decide (evs.length % 2 = 1) }
  else if w = 0 then s
  else put ⟨true, some (s.tickNo + w)⟩

/-- EVOUT_PULSE_END (R155). -/
def State.evoutEnd (s : State) (i : Nat) : State :=
  let p := s.dw.evout.get {} i
  match p.pulseEnd with
  | none => s
  | some t => if s.tickNo < t then s else s.setDw { s.dw with evout := s.dw.evout.put id {} i ⟨false, none⟩ }

/-! ### Enable checks (R166) -/

/-- The asynchronous channels a channel is joined to upstream: by SRC_A and by GSEL from 0x100 to 0x1FF. -/
def State.joinsUp (s : State) (c : Nat) : List Nat :=
  let a := s.fget F.dwChSrc_SRC_A c
  let g := s.fget F.dwChCfg_GSEL c
  (if 0x100 ≤ a ∧ a ≤ 0x1FF then [a - 0x100] else []) ++ (if 0x100 ≤ g then [g - 0x100] else [])

/-- A channel counts in the check: the one being enabled, or an enabled asynchronous one. -/
def State.inCheck (s : State) (c x : Nat) : Bool := decide (x = c) || (s.fbit F.dwChCfg_EN x && s.fbit F.dwChCfg_ASYNC x)

/-- Longest chain ending at x, counting x; more than 5 shows as 6. -/
def State.chainUp (s : State) (c : Nat) : Nat → Nat → Nat
  | 0, _ => 1
  | fuel + 1, x => 1 + ((s.joinsUp x).filter (s.inCheck c)).foldl (fun m y => max m (s.chainUp c fuel y)) 0

/-- Longest chain starting at x downstream, counting x. -/
def State.chainDown (s : State) (c : Nat) : Nat → Nat → Nat
  | 0, _ => 1
  | fuel + 1, x =>
    1 + (((s.listed .dwChCfg).map Prod.fst).filter fun y => s.inCheck c y && (s.joinsUp y).contains x).foldl
      (fun m y => max m (s.chainDown c fuel y)) 0

/-- Going upstream from x reaches c again within `fuel` joins. -/
def State.reaches (s : State) (c : Nat) : Nat → Nat → Bool
  | 0, _ => false
  | fuel + 1, x => (s.joinsUp x).any fun y => decide (y = c) || (s.inCheck c y && s.reaches c fuel y)

/-- SRC_A lies in the namespace of asynchronous sources (R160). -/
def asyncSrcOk (a : Nat) : Bool :=
  decide (a ≤ 0x011) || decide (0x020 ≤ a ∧ a ≤ 0x03F) || decide (0x100 ≤ a ∧ a ≤ 0x1FF)

/-- The result of an asynchronous enable check (R166, R173). -/
def State.asyncCheck (s : State) (c : Nat) : Nat :=
  if s.reaches c 8 c then 1
  else if 4 < s.chainUp c 6 c + s.chainDown c 6 c - 1 then 2
  else if (s.consumersOf c).any fun x => !(decide (0x3A8 ≤ x) && decide (x ≤ 0x3B7)) then 3
  else if !asyncSrcOk (s.fget F.dwChSrc_SRC_A c) then 4
  else 0

/-- A clocked channel's sources are identifiers of R150; SRC_B may be none. -/
def State.clockedSrcOk (s : State) (c : Nat) : Bool :=
  let b := s.fget F.dwChSrc_SRC_B c
  prodListed (s.fget F.dwChSrc_SRC_A c) && (!s.fbit F.dwChCfg_SRCB_EN c || decide (b = 0x7FF) || prodListed b)

/-- A write sets EN (R166): an asynchronous channel starts its check, a clocked one is checked for BAD_SRC. -/
def State.chEnable (s : State) (c : Nat) : State :=
  if s.fbit F.dwChCfg_ASYNC c then
    (s.fset F.dwChStat_RES 15 c).setDw { s.dw with checking := s.dw.checking.put id false c true }
  else if s.clockedSrcOk c then (s.fset F.dwChStat_RES 0 c).fset F.dwChCfg_EN 1 c
  else s.fset F.dwChStat_RES 4 c

/-- A check is in progress. -/
def State.chBusy (s : State) (c : Nat) : Bool := s.dw.checking.get false c

/-- DW_ENABLE_CHECK_DONE (R166). -/
def State.chCheckDone (s : State) (c : Nat) : State :=
  if s.chBusy c then
    let r := s.asyncCheck c
    let s1 := (s.fset F.dwChStat_RES r c).setDw { s.dw with checking := s.dw.checking.put id false c false }
    if r = 0 then s1.fset F.dwChCfg_EN 1 c else s1
  else s

/-- A write clears EN (R166): a check in progress is abandoned. -/
def State.chDisable (s : State) (c : Nat) : State :=
  if s.chBusy c then
    (s.fset F.dwChStat_RES 5 c).setDw { s.dw with checking := s.dw.checking.put id false c false }
  else s.fset F.dwChCfg_EN 0 c

/-! ### Ownership (R164, R165) -/

/-- DW_CH_OWN(c) in force, and its SEC bit. -/
def State.ownOf (s : State) (c : Nat) : Nat := s.inForce ⟨.dwChOwn, c, 0, 0⟩
def State.isSecure (s : State) (c : Nat) : Bool := bit (s.ownOf c) F.dwChOwn_SEC.lo

/-- A requester is a channel's owner. -/
def State.isOwner (s : State) (q : Requester) (c : Nat) : Bool :=
  match bits (s.ownOf c) F.dwChOwn_OWNER.hi F.dwChOwn_OWNER.lo, q with
  | 0, .pcie => true
  | 0, .smbus => true
  | 0, .jtag => true
  | 1, .fw => true
  | 2, .drv d => decide (bits (s.ownOf c) F.dwChOwn_DRV.hi F.dwChOwn_DRV.lo = d.val)
  | _, _ => false

/-- A requester may write a channel's DW_CH_CFG, DW_CH_SRC and DW_CH_OWN (R164). -/
def State.mayWriteCh (s : State) (q : Requester) (c : Nat) : Bool :=
  s.isOwner q c || (!s.isSecure c && decide (q = .fw))

/-- A requester sees a channel's registers (R164). -/
def State.mayReadCh (s : State) (q : Requester) (c : Nat) : Bool :=
  !s.isSecure c || s.isOwner q c || decide (q = .fw)

/-- A refused access (R164): OWN_ERR, and for a SECURE channel a black-box record. -/
def State.ownRefused (s : State) (q : Requester) (c : Nat) : State :=
  let s1 := s.fon F.dwStat_OWN_ERR
  if s.isSecure c then
    s1.offerBbr { source := srcOf 0x06 c, code := 0x0011, arg0 := c, arg1 := q.order, ts := none }
  else s1

end Sys2Proof.Machine
end

