-- ==== Sys2Proof/Machine/PtOps.lean ====
section
/-! DEFINITION. Lanes, quads, ports, Elber link training and trunk lane loss (R354 to R378). -/

namespace Sys2Proof.Machine

def State.getPt (s : State) (p : Nat) : Pt := s.pt.get {} p
def State.setPt (s : State) (p : Nat) (x : Pt) : State := { s with pt := s.pt.put id {} p x }

/-! ### Elber link messages sent (R362, R363) -/

/-- The type byte of a message. -/
def ElmBody.typ : ElmBody → Nat
  | .hello _ _ => 1
  | .ack _ _ _ _ _ => 2
  | .rate _ _ _ _ => 3
  | .eq _ _ _ _ _ _ _ _ => 4
  | .verify _ _ _ _ _ => 5
  | .echo _ _ _ _ => 6
  | .drop _ _ => 7
  | .dropAck _ _ => 8
  | .add _ _ _ => 9

/-- The fields of bytes 19 to 59: first byte, how many, value. -/
def ElmBody.fields : ElmBody → List (Nat × Nat × Nat)
  | .hello hash port => [(20, 8, hash), (28, 1, port)]
  | .ack hash port r fec trunk => [(20, 8, hash), (28, 1, port), (29, 1, r), (30, 1, bnat fec + 2 * bnat trunk)]
  | .rate r fec form answers => [(20, 1, r), (21, 1, fec), (22, 1, form), (23, 1, bnat answers)]
  | .eq lane ask done limit pre main post answered =>
    [(19, 1, lane), (20, 1, ask.1), (21, 1, ask.2.1), (22, 1, ask.2.2), (23, 1, bnat done + 2 * bnat limit), (24, 1, pre), (25, 1, main),
      (26, 1, post), (28, 2, answered)]
  | .verify lane done pass n errs => [(19, 1, lane), (20, 1, bnat done + 2 * bnat pass), (24, 8, n), (32, 8, errs)]
  | .echo reply idx t2 t3 => [(20, 1, bnat reply), (21, 1, idx)] ++ if reply then [(24, 12, packT96 t2), (36, 12, packT96 t3)] else []
  | .drop lane round => [(19, 1, lane), (20, 4, round)]
  | .dropAck lane round => [(19, 1, lane), (20, 4, round)]
  | .add lane round reply => [(19, 1, lane), (20, 4, round), (24, 1, bnat reply)]

/-- The 60 bytes of a message that port `p` sends under a sequence number (R362). -/
def State.elmPayload (s : State) (p seq : Nat) (b : ElmBody) : List Byte :=
  let wish := bnat (decide (s.fget F.ptCfg_FEC p ≠ 0)) + 2 * bnat (s.fbit F.ptCfg_TRUNK_SPARE p)
  let l := [(0, 4, 0x52424C45), (4, 1, 1), (5, 1, b.typ), (6, 2, seq), (8, 1, s.fget F.ptCfg_MAXRATE p), (9, 1, wish),
    (10, 8, Config.serialHash), (18, 1, p)] ++ b.fields
  (List.range 60).map fun i =>
    match l.find? fun f => decide (f.1 ≤ i) && decide (i < f.1 + f.2.1) with
    | some f => BitVec.ofNat 8 (f.2.2 / 256 ^ (i - f.1))
    | none => 0

/-- A port sends messages, in order, under rising sequence numbers. (DEDUCED, log entry 61.) -/
def State.elmSend (s : State) (p : Nat) (l : List ElmBody) : State :=
  let o := s.elm.get {} p
  { s with elm := s.elm.put id {} p { o with
      seq := (o.seq + l.length) % 65536, sent := l.zipIdx.map fun b => ((o.seq + b.2) % 65536, b.1) } }

/-- A round of a trunk, which the lanes count and the spec ties to nothing else: a free value, kept as the one this end marks. (DEDUCED, log
entry 61.) -/
def State.elmMark (s : State) (p : Nat) : Nat × State :=
  let f := s.fresh
  (f.1 % 2 ^ 32, { f.2 with elm := f.2.elm.put id {} p { f.2.elm.get {} p with round := f.1 % 2 ^ 32 } })

namespace PtSt
def disabled : Nat := 0
def detect : Nat := 1
def base : Nat := 2
def hello : Nat := 3
def rate : Nat := 4
def eq : Nat := 5
def verify : Nat := 6
def rtt : Nat := 7
def upElber : Nat := 8
def standard : Nat := 9
def upStandard : Nat := 10
def listen : Nat := 11
end PtSt

def State.ptState (s : State) (p : Nat) : Nat := s.fget F.ptStat_STATE p
def State.ptGoto (s : State) (p st : Nat) : State :=
  (s.fset F.ptStat_STATE st p).setPt p { s.getPt p with stepAt := s.tickNo }

/-- Every lane of a port as a mask. -/
def allLanes (p : Nat) : Nat := if p < 48 then 1 else 15

/-- A lane is locked (R356). -/
def State.laneLocked (s : State) (j : Nat) : Bool :=
  s.fbit F.lnStat_CDR_LOCK j && s.fbit F.lnStat_BLOCK_LOCK j && s.fbit F.lnStat_ADAPT j
def State.allLocked (s : State) (p : Nat) : Bool := (portLanes p).all fun j => s.laneLocked j
def State.allSignal (s : State) (p : Nat) : Bool := (portLanes p).all fun j => !s.fbit F.lnStat_LOS j

/-- A lane's receiver is unlocked, without counting a loss. -/
def State.laneClear (s : State) (j : Nat) : State :=
  let s1 := ((s.fset F.lnStat_CDR_LOCK 0 j).fset F.lnStat_BLOCK_LOCK 0 j).fset F.lnStat_ADAPT 0 j
  if j = s.timingLane (lanePort j) then s1.ntLaneLost (lanePort j) else s1

/-- Set the rate of every lane of a port: the lanes lock anew. -/
def State.setRate (s : State) (p rate : Nat) : State :=
  (portLanes p).foldl (fun st j => (st.laneClear j).fset F.lnStat_RATE rate j) s

/-- PT_LINK(p) is raised with tag 0 (R370). -/
def State.ptLink (s : State) (p : Nat) : State := s.raiseEv (Prod.ptLink p) s.nowI 0

/-- The lane rate of a standard mode (R354, R358). -/
def modeLaneRate (mode : Nat) : Nat := if mode = 0 then 1 else if mode = 1 ∨ mode = 3 then 2 else 3

/-- The port rate code of a standard mode. -/
def modeRate (mode : Nat) : Nat := if mode = 0 then 1 else if mode = 1 then 2 else if mode = 2 then 3 else if mode = 3 then 4 else 6

/-- A port runs its standard mode (R368). -/
def State.runStandard (s : State) (p : Nat) (fresh : Bool) : State :=
  let s1 := (s.setRate p (modeLaneRate (s.fget F.ptCfg_MODE p))).ptGoto p PtSt.standard
  if fresh then s1.setPt p { s1.getPt p with attAt := s1.tickNo } else s1

/-- DETECT ends once every lane has signal (R364). -/
def State.detectCheck (s : State) (p : Nat) : State :=
  if s.ptState p = PtSt.detect ∧ s.allSignal p then
    let s1 := s.ptGoto p PtSt.base
    s1.setPt p { s1.getPt p with attAt := s1.tickNo }
  else s

/-- A new attempt begins (R364, R368). -/
def State.newAttempt (s : State) (p : Nat) : State :=
  let x := s.getPt p
  let s1 := s.setPt p { pendDown := x.pendDown, pendUp := x.pendUp, retryAt := x.retryAt }
  if s1.glb.limited then (s1.setRate p 0).ptGoto p PtSt.detect
  else if s1.fbit F.ptCfg_ELBER_EN p then ((s1.setRate p 2).ptGoto p PtSt.detect).detectCheck p
  else s1.runStandard p true

/-- The link of a port goes down (R370, R371). -/
def State.linkDown (s : State) (p : Nat) : State :=
  if s.fbit F.ptStat_LINK p then
    let s1 := ((((((s.fset F.ptStat_LINK 0 p).fset F.ptStat_ELBER 0 p).fset F.ptStat_SPARE 0 p).fset F.ptStat_DOWNRATE 0 p).fset
      F.ptStat_RATE 0 p).fset F.ptStat_LANES 0 p).cnt .ptCntLinkDown p
    let s2 := s1.setPt p { s1.getPt p with pendDown := true, drop := none, rejoin := none }
    (s2.ntPortDown p).ptLink p
  else s

/-- The link goes down, or the attempt is given up, and a new attempt begins. -/
def State.restart (s : State) (p : Nat) : State := (s.linkDown p).newAttempt p

/-- The link of a port comes up (R364, R368, R370): FAILS and the back-off clear. -/
def State.linkUp (s : State) (p st rate lanes : Nat) : State :=
  let s1 := (((((s.fset F.ptStat_LINK 1 p).fset F.ptStat_RATE rate p).fset F.ptStat_LANES lanes p).fset F.ptStat_FAILS 0 p).fset
    F.ptBackoff_MS 0 p).ptGoto p st
  let s2 := s1.setPt p { s1.getPt p with pendUp := true }
  s2.ptLink p

/-- An attempt fails (R367, R369). -/
def State.attemptFails (s : State) (p cause : Nat) : State :=
  let n := min 15 (s.fget F.ptStat_FAILS p + 1)
  let s1 := ((s.cnt .ptCntTrainFail p).fset F.ptStat_FAILS n p).fset F.ptStat_LAST_FAIL cause p
  if n < 3 then s1.newAttempt p
  else
    let old := s1.fget F.ptBackoff_MS p
    let ms := if old = 0 then 100 else min 6400 (2 * old)
    let s2 := (s1.fset F.ptBackoff_MS ms p).setRate p 2
    (s2.setPt p { pendDown := (s.getPt p).pendDown, pendUp := (s.getPt p).pendUp }).ptGoto p PtSt.listen

/-! ### Enables (R355, R358, R378) -/

/-- MODE, FEC, ELBER_EN and MAXRATE form a combination the port admits (R354, R358). -/
def cfgCombo (p mode fec : Nat) (elber : Bool) : Bool :=
  (if p < 48 then decide (mode ≤ 2) else decide (mode = 3 ∨ mode = 4)) &&
  (if mode = 0 ∨ mode = 3 then decide (fec = 0) else if mode = 1 then decide (fec ≤ 1) else if mode = 2 then decide (fec ≤ 2)
   else decide (fec = 2)) &&
  !(elber && decide (mode = 0))

/-- The enabled ports of a quad. -/
def State.quadPorts (s : State) (q : Nat) : List Nat := (List.range 52).filter fun p => decide (portQuad p = q) && s.fbit F.ptCfg_EN p

/-- The family a port needs: 1 LOW, 2 HIGH. -/
def State.familyOf (s : State) (p : Nat) : Nat := if s.fget F.ptCfg_MODE p = 0 then 1 else 2

/-- The family a quad holds (R355). -/
def State.quadFamily (s : State) (q : Nat) : Nat :=
  if (s.quadPorts q).any fun p => decide (s.familyOf p = 1) then 1 else 2

/-- Bring a quad to its family; a change relocks the QPLL. -/
def State.setFamily (s : State) (q : Nat) : State :=
  let f := s.quadFamily q
  if s.fget F.lnQuadStat_FAMILY q = f then s else (s.fset F.lnQuadStat_FAMILY f q).fset F.lnQuadStat_QPLL_LOCK 0 q

/-- EN has been written to 1 (R355): the port starts, or the enable is refused. (DEDUCED, log entry 62.) -/
def State.ptEnable (s : State) (p : Nat) : State :=
  let q := portQuad p
  if (s.quadPorts q).any fun o => decide (o ≠ p) && decide (s.familyOf o ≠ s.familyOf p) then
    ((s.fset F.ptCfg_EN 0 p).fon F.ptStat_QUAD_CONFLICT p).fon F.ptStat_WR_ERR p
  else
    let s1 := s.setTime { s.time with rx := s.time.rx.put id none (p + 1) none }
    (s1.setFamily q).newAttempt p

/-- EN has been written to 0 (R376). -/
def State.ptDisable (s : State) (p : Nat) : State :=
  let s1 := ((s.linkDown p).fset F.ptStat_FAILS 0 p).fset F.ptBackoff_MS 0 p
  let s2 := s1.setRate p 0
  ((s2.setPt p { pendDown := (s2.getPt p).pendDown }).fset F.ptStat_STATE PtSt.disabled p).setFamily (portQuad p)

/-! ### Steps of an attempt (R364, R365) -/

/-- Both ends offer the Elber trunk mode. -/
def State.spareAgreed (s : State) (p : Nat) : Bool :=
  decide (48 ≤ p) && s.fbit F.ptCfg_TRUNK_SPARE p && ((s.getPt p).head.map ElmHead.spare).getD false

/-- The RATE message of a port (R363, R364): rate, FEC clause and port form. -/
def State.rateMsg (s : State) (p : Nat) (answers : Bool) : ElmBody :=
  let x := s.getPt p
  let form := if p < 48 then 0 else if x.rate = 2 then 1 else if s.spareAgreed p then 3 else 2
  let fec := if form = 2 then 3 else if form = 1 ∨ !x.fec then 0 else if x.rate = 3 then 2 else 1
  .rate (x.rate - 1) fec form answers

/-- Enter the RATE step. -/
def State.enterRate (s : State) (p rate : Nat) : State :=
  let s1 := s.ptGoto p PtSt.rate
  let s2 := s1.setPt p { s1.getPt p with
    rate := rate, rateRx := false, switched := false, eqMine := 0, eqTheirs := 0, verMine := 0, verMineOk := 0, verTheirs := 0
    verTheirsOk := 0 }
  s2.elmSend p [s2.rateMsg p false]

/-- The rate code of a MAXRATE code. -/
def rateOfMax (m : Nat) : Nat := if m = 2 then 3 else 2

/-- The lane rate agreed with a partner: the lower MAXRATE (R364). -/
def State.agreedRate (s : State) (p : Nat) (h : ElmHead) : Nat := min (rateOfMax h.maxRate) (rateOfMax (s.fget F.ptCfg_MAXRATE p))

/-- FEC is on when either end asks for it (R364). -/
def State.agreedFec (s : State) (p : Nat) (h : ElmHead) : Bool := h.fec || decide (s.fget F.ptCfg_FEC p ≠ 0)

/-- HELLO ends when a partner HELLO has come and the partner has sent ACK. -/
def State.helloCheck (s : State) (p : Nat) : State :=
  let x := s.getPt p
  match x.head with
  | some h => if x.helloSeen && x.acked then (s.setPt p { x with fec := s.agreedFec p h }).enterRate p (s.agreedRate p h) else s
  | none => s

/-- The EQ message of a port on a lane: what its receiver asks for is open (a free value), its own settings are those in force (R363). (DEDUCED,
log entry 61.) -/
def State.eqMsg (s : State) (p i : Nat) (done limit : Bool) (answered : Nat) : ElmBody × State :=
  let j := (portLanes p)[i]?.getD 0
  let f := s.fresh
  (.eq i (f.1 % 4, f.1 / 4 % 4, f.1 / 16 % 4) done limit (s.fget F.lnTxeq_PRE j) (s.fget F.lnTxeq_MAIN j) (s.fget F.lnTxeq_POST j) answered, f.2)

/-- The first requests of the EQ step, on every lane. -/
def State.eqOpen (s : State) (p : Nat) : State :=
  let r := (List.range (portLanes p).length).foldl (fun (a : List ElmBody × State) i =>
    let m := a.2.eqMsg p i false false 0
    (a.1 ++ [m.1], m.2)) ([], s)
  r.2.elmSend p r.1

/-- The lanes of a port lock: BASE or the RATE step may end. -/
def State.lockCheck (s : State) (p : Nat) : State :=
  let x := s.getPt p
  if !s.allLocked p then s
  else if s.ptState p = PtSt.base then s.ptGoto p PtSt.hello
  else if s.ptState p = PtSt.rate ∧ x.switched then (s.ptGoto p PtSt.eq).eqOpen p
  else s

/-- EQ ends when both ends have sent DONE on every lane. -/
def State.eqCheck (s : State) (p : Nat) : State :=
  let x := s.getPt p
  if s.ptState p = PtSt.eq ∧ x.eqMine = allLanes p ∧ x.eqTheirs = allLanes p then s.ptGoto p PtSt.verify else s

/-- The lanes of a mask. -/
def maskBits (m : Nat) : List Nat := (List.range 4).filter fun i => bit m i

/-- VERIFY ends when both ends have reported every lane (R365). -/
def State.verifyCheck (s : State) (p : Nat) : State :=
  let x := s.getPt p
  if s.ptState p = PtSt.verify ∧ x.verMine = allLanes p ∧ x.verTheirs = allLanes p then
    let ok := x.verMineOk &&& x.verTheirsOk
    let bad := (maskBits (allLanes p)).filter fun i => !bit ok i
    let pass (st : State) (b : Option Nat) : State :=
      let s1 := st.ptGoto p PtSt.rtt
      s1.setPt p { s1.getPt p with rs := [], echo := none, echoIdx := 0, badLane := b }
    if bad.isEmpty then pass s none
    else if x.rate = 3 ∧ bad.length = 1 ∧ s.spareAgreed p then pass s bad.head?
    else if x.rate = 3 then
      let s1 := s.setPt p { x with stepped := true }
      s1.enterRate p 2
    else s.attemptFails p 3
  else s

/-- The round trip is formed: the link comes up as an Elber link (R364 to R366). -/
def State.elberUp (s : State) (p : Nat) : State :=
  let x := s.getPt p
  let spare := s.spareAgreed p && decide (x.rate = 3)
  let lanes := match x.badLane with
    | some l => allLanes p - 2 ^ l
    | none => allLanes p
  let rate := if p < 48 then x.rate else if x.rate = 2 then 4 else if x.badLane.isSome then 5 else 6
  let h := x.head.getD ⟨1, 0, false, false, 0, 0⟩
  let s1 := (((s.fset F.ptStat_ELBER 1 p).fset F.ptStat_SPARE (bnat spare) p).fset F.ptStat_DOWNRATE
    (bnat (x.stepped || x.badLane.isSome)) p).fset F.ptPartner_PARTNER (h.hash % 2 ^ 64 + h.port % 256 * 2 ^ 64) p
  s1.linkUp p PtSt.upElber rate lanes

/-! ### Lanes (R356, R371 to R376) -/

/-- LANE_SIGNAL_DETECTED. -/
def State.laneSignal (s : State) (j : Nat) : State := (s.fset F.lnStat_LOS 0 j).detectCheck (lanePort j)

/-- LANE_LOCK (R356): CDR, block lock and adaptation; the latencies measured at this lock (R327). -/
def State.laneLock (s : State) (j : Nat) (tx rx : Int) : State :=
  let p := lanePort j
  if s.fbit F.lnStat_LOS j ∨ s.fget F.lnStat_RATE j = 0 ∨ !s.fbit F.lnQuadStat_QPLL_LOCK (portQuad p) ∨ s.glb.limited then s
  else
    let s1 := ((s.fset F.lnStat_CDR_LOCK 1 j).fset F.lnStat_BLOCK_LOCK 1 j).fset F.lnStat_ADAPT 1 j
    let s2 := if j = s1.timingLane p then s1.ntLaneLock p tx rx else s1
    s2.lockCheck p

/-- A lane of an Elber trunk leaves use (R373, R374). -/
def State.laneOut (s : State) (p i : Nat) : State :=
  let old := s.timingLane p
  let s1 := ((s.fset F.ptStat_LANES (s.fget F.ptStat_LANES p &&& (15 - 2 ^ i)) p).fset F.ptStat_RATE 5 p).ptLink p
  if s1.timingLane p = old then s1 else s1.timingMoves p

/-- The index of a lane within its port. (DEDUCED, log entry 61.) -/
def laneIndex (j : Nat) : Nat := if j < 48 then 0 else j % 4

/-- LANE_LOSS_OF_LOCK (R356, R367, R371, R373): `los` with loss of signal; `cut` frames that had blocks on the lane. -/
def State.laneLoss (s : State) (j : Nat) (los : Bool) (cut : Nat) : State :=
  let p := lanePort j
  let was := s.laneLocked j
  let s0 := s.fset F.lnStat_LOS (bnat (los || s.fbit F.lnStat_LOS j)) j
  let s1 := if was then
      ((((s0.fon F.lnStat_LOL j).cnt .lnCntLol j).report
        { detected := true, cls := 7, source := srcOf 0x0A j, code := 0x2701, arg0 := j, arg1 := 0, ts := none, upstream := true }).laneClear j)
    else s0
  let st := s1.ptState p
  let i := laneIndex j
  if PtSt.base ≤ st ∧ st ≤ PtSt.rtt then (if los then s1.newAttempt p else s1)
  else if st = PtSt.upStandard then s1.restart p
  else if st = PtSt.upElber then
    if s1.fbit F.ptStat_SPARE p then
      if !bit (s1.fget F.ptStat_LANES p) i then s1
      else if s1.fget F.ptStat_LANES p = 15 then
        let m := ((s1.cntAdd .ptCntSpareDisc cut p).laneOut p i).elmMark p
        let s2 := m.2.elmSend p [.drop i m.1]
        s2.setPt p { s2.getPt p with drop := some ⟨i, s2.tickNo, s2.tickNo⟩ }
      else s1.restart p
    else s1.restart p
  else s1

/-- The management lane locks and loses lock by itself (R357). -/
def State.lnmLock (s : State) : State :=
  if s.fbit F.lnStat_LOS 64 then s
  else (((s.fset F.lnStat_CDR_LOCK 1 64).fset F.lnStat_BLOCK_LOCK 1 64).fset F.lnStat_ADAPT 1 64).fset F.lnStat_RATE 1 64
def State.lnmLoss (s : State) (los : Bool) : State :=
  let s0 := s.fset F.lnStat_LOS (bnat (los || s.fbit F.lnStat_LOS 64)) 64
  if s.laneLocked 64 then
    let s1 := ((((s0.fon F.lnStat_LOL 64).cnt .lnCntLol 64).fset F.lnStat_CDR_LOCK 0 64).fset F.lnStat_BLOCK_LOCK 0 64).fset
      F.lnStat_ADAPT 0 64
    s1.report
      { detected := true, cls := 7, source := srcOf 0x0A 64, code := 0x2701, arg0 := 64, arg1 := 0, ts := none, upstream := true }
  else s0

/-- QPLL_RELOCK_DONE (R355, R361). -/
def State.qpllDone (s : State) (q : Nat) : State :=
  if s.fget F.lnQuadStat_FAMILY q = 0 then s else s.fset F.lnQuadStat_QPLL_LOCK 1 q

/-- SYNT has changed (R361): the QPLL relocks and every port of the quad restarts. -/
def State.syntChanged (s : State) (q : Nat) : State :=
  let s1 := s.fset F.lnQuadStat_QPLL_LOCK 0 q
  let ps := (List.range 52).filter fun p => decide (portQuad p = q)
  ps.foldl (fun st p =>
    let s2 := (portLanes p).foldl (fun x j =>
      if x.laneLocked j then (((x.fon F.lnStat_LOL j).cnt .lnCntLol j).laneClear j) else x) st
    if s2.fbit F.ptCfg_EN p then s2.restart p else s2) s1

/-- A lane is reset (R376). -/
def State.laneReset (s : State) (j : Nat) : State :=
  let p := lanePort j
  let s1 := if s.laneLocked j then ((s.fon F.lnStat_LOL j).cnt .lnCntLol j).laneClear j else s
  if s1.fbit F.ptCfg_EN p then s1.restart p else s1

/-! ### Elber link messages (R362 to R366) -/

/-- An ELM on a port that takes none, or of an unknown version, is discarded and counted (R362). -/
def State.elmBad (s : State) (p version : Nat) : Bool := !s.fbit F.ptCfg_ELBER_EN p || decide (version ≠ 1)
def State.elmDiscard (s : State) (p : Nat) : State := s.cnt .ptCntElmDisc p

/-- ELM_HELLO (R363, R364, R369): answered with ACK in the HELLO step. -/
def State.elmHello (s : State) (p : Nat) (h : ElmHead) : State :=
  if s.elmBad p h.version then s.elmDiscard p
  else if s.ptState p = PtSt.hello then
    let s1 := s.setPt p { s.getPt p with helloSeen := true, head := some h }
    (s1.elmSend p [.ack h.hash h.port (s1.agreedRate p h - 1) (s1.agreedFec p h) (s1.spareAgreed p && decide (s1.agreedRate p h = 3))]).helloCheck p
  else if s.ptState p = PtSt.listen then s.newAttempt p
  else s

/-- ELM_ACK (R364): it answers this port's HELLO. -/
def State.elmAck (s : State) (p version hash port : Nat) : State :=
  if s.elmBad p version then s.elmDiscard p
  else if s.ptState p = PtSt.hello ∧ hash = Config.serialHash ∧ port = p then
    (s.setPt p { s.getPt p with acked := true }).helloCheck p
  else s

/-- ELM_RATE (R363, R364): the rate agreed is settled, and the first RATE answered. -/
def State.elmRate (s : State) (p version rate : Nat) : State :=
  if s.elmBad p version then s.elmDiscard p
  else if s.ptState p = PtSt.rate ∧ rateOfMax rate = (s.getPt p).rate then
    let s1 := if (s.getPt p).rateRx then s else s.elmSend p [s.rateMsg p true]
    s1.setPt p { s1.getPt p with rateRx := true }
  else s

/-- RATE_SWITCH (R364): both ends change rate at the 4,096th block after the exchange. -/
def State.rateSwitch (s : State) (p : Nat) : State :=
  let x := s.getPt p
  if s.ptState p = PtSt.rate ∧ x.rateRx ∧ !x.switched then
    let s1 := s.setRate p x.rate
    s1.setPt p { s1.getPt p with switched := true }
  else s

/-- One EQ request on a cursor: 0 hold, 1 up, 2 down, 3 preset; none when it leaves the range. -/
def eqOne (v req preset : Nat) : Option Nat :=
  if req = 1 then (if v < 63 then some (v + 1) else none)
  else if req = 2 then (if 0 < v then some (v - 1) else none)
  else if req = 3 then some preset
  else some v

/-- The settings a lane's transmitter has after an EQ request; none where one leaves the range of R377 (R363). -/
def State.eqNext (s : State) (j pre main post : Nat) : Option (Nat × Nat × Nat) :=
  match eqOne (s.fget F.lnTxeq_PRE j) pre 4, eqOne (s.fget F.lnTxeq_MAIN j) main 51, eqOne (s.fget F.lnTxeq_POST j) post 8 with
  | some a, some b, some c => if a + b + c ≤ 63 then some (a, b, c) else none
  | _, _, _ => none

/-- Apply an EQ request to lane `i` of a port, unless the result leaves the range of R377, and answer it with the settings after it (R363). -/
def State.eqApply (s : State) (p i pre main post seq : Nat) (mine : Bool) : State :=
  let j := (portLanes p)[i]?.getD 0
  let r := s.eqNext j pre main post
  let s1 := match r with
    | some v => ((s.fset F.lnTxeq_PRE v.1 j).fset F.lnTxeq_MAIN v.2.1 j).fset F.lnTxeq_POST v.2.2 j
    | none => s
  let m := s1.eqMsg p i mine r.isNone seq
  m.2.elmSend p [m.1]

/-- ELM_EQ (R363, R364): the request numbered `seq` is applied and answered; `theirs`: the message's DONE; `mine`: the answer carries DONE. -/
def State.elmEq (s : State) (p version i pre main post seq : Nat) (theirs mine : Bool) : State :=
  if s.elmBad p version then s.elmDiscard p
  else
    let x := s.getPt p
    match x.rejoin with
    | some r =>
      if r.lane = i then
        let r1 := { r with eqTheirs := r.eqTheirs || theirs, eqMine := r.eqMine || mine }
        let ends := r1.eqMine && r1.eqTheirs && !(r.eqMine && r.eqTheirs)
        (s.setPt p { x with rejoin := some (if ends then { r1 with stepAt := s.tickNo } else r1) }).eqApply p i pre main post seq mine
      else s
    | none =>
      if s.ptState p = PtSt.eq ∧ i < (portLanes p).length then
        let s1 := s.eqApply p i pre main post seq mine
        (s1.setPt p { x with
          eqTheirs := x.eqTheirs ||| (if theirs then 2 ^ i else 0), eqMine := x.eqMine ||| (if mine then 2 ^ i else 0) }).eqCheck p
      else s

/-- A rejoining lane has passed at one end or has failed (R375); once it has passed at both, this end asks to add it. -/
def State.rejoinResult (s : State) (p : Nat) (r : PtRejoin) (ok : Bool) : State :=
  let x := s.getPt p
  if ok then
    let s1 := s.setPt p { x with rejoin := some r }
    if r.verMine && r.verTheirs then
      let m := s1.elmMark p
      m.2.elmSend p [.add r.lane m.1 false]
    else s1
  else s.setPt p { x with rejoin := none, retryAt := s.tickNo + 1000000000 }

/-- The VERIFY messages of a port on some lanes (R363): how many bits were checked is open (a free value). (DEDUCED, log entry 61.) -/
def State.verifySend (s : State) (p : Nat) (lanes errs : List Nat) : State :=
  let f := s.fresh
  f.2.elmSend p (lanes.map fun i => .verify i true (decide (errs.getD i 0 = 0)) (f.1 % 2 ^ 64) (errs.getD i 0))

/-- ELM_VERIFY (R364): the partner's result on a lane. -/
def State.elmVerify (s : State) (p version i : Nat) (done pass : Bool) : State :=
  if s.elmBad p version then s.elmDiscard p
  else if !done then s
  else
    let x := s.getPt p
    match x.rejoin with
    | some r => if r.lane = i then s.rejoinResult p { r with verTheirs := true } pass else s
    | none =>
      if s.ptState p = PtSt.verify ∧ i < (portLanes p).length then
        (s.setPt p { x with verTheirs := x.verTheirs ||| 2 ^ i, verTheirsOk := x.verTheirsOk ||| (if pass then 2 ^ i else 0) }).verifyCheck p
      else s

/-- VERIFY_END (R364, R375): 10 ms of PRBS31 have ended; the uncorrectable errors of each lane, which the partner is told. -/
def State.verifyEnd (s : State) (p : Nat) (errs : List Nat) : State :=
  let x := s.getPt p
  match x.rejoin with
  | some r =>
    if r.eqMine && r.eqTheirs && decide (r.stepAt + 10000000 ≤ s.tickNo) then
      (s.verifySend p [r.lane] errs).rejoinResult p { r with verMine := true } (decide (errs.getD r.lane 0 = 0))
    else s
  | none =>
    if s.ptState p = PtSt.verify ∧ x.stepAt + 10000000 ≤ s.tickNo then
      let ok := (maskBits (allLanes p)).foldl (fun a i => if errs.getD i 0 = 0 then a + 2 ^ i else a) 0
      ((s.verifySend p (maskBits (allLanes p)) errs).setPt p { x with verMine := allLanes p, verMineOk := ok }).verifyCheck p
    else s

/-- ECHO_TX (R366): a request leaves in the RTT step, or once per second on an Elber link. -/
def State.echoTx (s : State) (p : Nat) (o : EdgeObs) : State :=
  let x := s.getPt p
  let st := s.ptState p
  if st = PtSt.rtt ∨ (st = PtSt.upElber ∧ x.echoTick + 1000000000 ≤ s.tickNo) then
    (s.elmSend p [.echo false x.echoIdx 0 0]).setPt p
      { x with echo := some (x.echoIdx, s.stampTx p o), echoIdx := (x.echoIdx + 1) % 16, echoTick := s.tickNo }
  else s

/-- No SLAVE or PEER session publishes the port's delay (R343). -/
def State.noSession (s : State) (p : Nat) : Bool :=
  !((s.listed .ntSesCfg).any fun c => s.fbit F.ntSesCfg_EN c.1 && decide (s.sesPort c.1 = p) &&
    decide (s.fget F.ntSesCfg_KIND c.1 = Kind.slave ∨ s.fget F.ntSesCfg_KIND c.1 = Kind.peer))

/-- ELM_ECHO (R364, R366): a request is answered with its t2 and t3, the latter from the edge `tx` of the reply; a reply makes one round trip, and
the sixteenth ends the RTT step. An exchange across a step, or one whose spans saturate, is discarded (R339, R340). (DEDUCED, log entry 61.) -/
def State.elmEcho (s : State) (p version : Nat) (reply : Bool) (idx : Nat) (t2 t3 : Instant) (o tx : EdgeObs) : State :=
  if s.elmBad p version then s.elmDiscard p
  else if !reply then
    if s.ptState p = PtSt.rtt ∨ s.ptState p = PtSt.upElber then s.elmSend p [.echo true idx (s.stampRx p o).t (s.stampTx p tx).t] else s
  else
    let x := s.getPt p
    match x.echo with
    | some (k, t1) =>
      if k ≠ idx then s
      else
        let t4 := s.stampRx p o
        let a := dif t4.t t1.t
        let b := dif t3 t2
        let r := satS64 (a.1 - b.1)
        let rs := (r.1 :: x.rs).take 16
        let s1 := s.setPt p { x with echo := none, rs := rs }
        if t1.stepSeq ≠ t4.stepSeq ∨ a.2 || b.2 || r.2 then s.setPt p { x with echo := none }
        else if s1.ptState p = PtSt.rtt ∧ rs.length < 16 then s1
        else
          let d := s1.delayOf p rs
          let s2 := if s1.noSession p then s1.publish p d.1 d.2.1 else s1
          if s2.ptState p = PtSt.rtt then s2.elberUp p else s2
    | none => s

/-- HELLO_TX (R364, R369): every 1 ms in the HELLO step, every 10 ms in LISTEN. -/
def State.helloTx (s : State) (p : Nat) : State :=
  let x := s.getPt p
  let st := s.ptState p
  if (st = PtSt.hello ∧ x.helloTick + 1000000 ≤ s.tickNo) ∨ (st = PtSt.listen ∧ x.helloTick + 10000000 ≤ s.tickNo) then
    (s.elmSend p [.hello ((x.head.map ElmHead.hash).getD 0) ((x.head.map ElmHead.port).getD 0)]).setPt p { x with helloTick := s.tickNo }
  else s

/-! ### Timeouts (R367 to R369, R374, R375) -/

/-- TRAIN_STEP_TIMEOUT. -/
def State.stepTimeout (s : State) (p : Nat) : State :=
  let x := s.getPt p
  let st := s.ptState p
  let lim := s.fget F.ptTrain_STEP_TMO p * 1000000
  match x.rejoin with
  | some r => if r.stepAt + lim ≤ s.tickNo then s.rejoinResult p r false else s
  | none =>
    if PtSt.base ≤ st ∧ st ≤ PtSt.rtt ∧ x.stepAt + lim ≤ s.tickNo then
      if st = PtSt.base ∨ (st = PtSt.hello ∧ !x.helloSeen) then s.runStandard p true else s.attemptFails p 1
    else s

/-- TRAIN_TOTAL_TIMEOUT. -/
def State.totalTimeout (s : State) (p : Nat) : State :=
  let x := s.getPt p
  let st := s.ptState p
  if x.attAt + s.fget F.ptTrain_TOTAL_TMO p * 1000000 ≤ s.tickNo then
    if PtSt.base ≤ st ∧ st ≤ PtSt.rtt then s.attemptFails p 2
    else if st = PtSt.standard then s.attemptFails p 4
    else s
  else s

/-- STANDARD_LINK_UP (R368): the standard mode links up; Clause 37's resolved PAUSE. -/
def State.standardUp (s : State) (p pause : Nat) : State :=
  if s.ptState p = PtSt.standard ∧ s.allLocked p then
    let mode := s.fget F.ptCfg_MODE p
    let s1 := if mode = 0 ∧ s.fbit F.ptCfg_AN_EN p then s.fset F.ptStat_PAUSE_RES pause p else s
    s1.linkUp p PtSt.upStandard (modeRate mode) (allLanes p)
  else s

/-- LISTEN_BACKOFF_EXPIRE (R369). -/
def State.backoffExpire (s : State) (p : Nat) : State :=
  if s.ptState p = PtSt.listen ∧ (s.getPt p).stepAt + s.fget F.ptBackoff_MS p * 1000000 ≤ s.tickNo then s.newAttempt p else s

/-! ### Trunk lane loss and return (R373 to R375) -/

/-- An Elber trunk is up in trunk mode. -/
def State.spareUp (s : State) (p : Nat) : Bool := decide (s.ptState p = PtSt.upElber) && s.fbit F.ptStat_SPARE p

/-- A DROP is acknowledged with the round this end marks (R373). -/
def State.dropAnswer (s : State) (p i : Nat) : State :=
  let m := s.elmMark p
  m.2.elmSend p [.dropAck i m.1]

/-- ELM_DROP (R373, R374): acknowledged; the far end stripes on three lanes. A DROP of the lane this end drops is its DROP_ACK. (DEDUCED, log entry 61.) -/
def State.elmDrop (s : State) (p version i : Nat) : State :=
  if s.elmBad p version then s.elmDiscard p
  else if !s.spareUp p then s
  else
    let x := s.getPt p
    match x.drop with
    | some d => if d.lane = i then s.setPt p { x with drop := none } else s.restart p
    | none =>
      if !bit (s.fget F.ptStat_LANES p) i then s.dropAnswer p i
      else if s.fget F.ptStat_LANES p = 15 then (s.laneOut p i).dropAnswer p i
      else s.restart p

/-- ELM_DROP_ACK. -/
def State.elmDropAck (s : State) (p version i : Nat) : State :=
  if s.elmBad p version then s.elmDiscard p
  else
    let x := s.getPt p
    match x.drop with
    | some d => if d.lane = i then s.setPt p { x with drop := none } else s
    | none => s

/-- DROP_RESEND: every 5 µs, with the round first marked. -/
def State.dropResend (s : State) (p : Nat) : State :=
  let x := s.getPt p
  match x.drop with
  | some d =>
    if d.sent + 5000 ≤ s.tickNo then
      (s.elmSend p [.drop d.lane (s.elm.get {} p).round]).setPt p { x with drop := some { d with sent := s.tickNo } }
    else s
  | none => s

/-- DROP_ACK_TIMEOUT: 50 µs plus the round trip. -/
def State.dropTimeout (s : State) (p : Nat) : State :=
  match (s.getPt p).drop with
  | some d =>
    let rtt := s64Of (s.fget F.ntPortRtt_RM p)
    if ((s.tickNo - d.first - 50000 : Nat) : Int) * 65536 < rtt ∨ s.tickNo < d.first + 50000 then s
    else (s.fset F.ptStat_LAST_FAIL 5 p).restart p
  | none => s

/-- LANE_REJOIN (R375): a lane out of use has regained lock at both ends. -/
def State.laneRejoin (s : State) (p i : Nat) : State :=
  let x := s.getPt p
  if s.spareUp p ∧ i < 4 ∧ !bit (s.fget F.ptStat_LANES p) i ∧ s.laneLocked ((portLanes p)[i]?.getD 0) ∧ x.rejoin = none ∧ x.drop = none ∧
      x.retryAt ≤ s.tickNo then
    s.setPt p { x with rejoin := some { lane := i, stepAt := s.tickNo } }
  else s

/-- LANE_REJOIN_RETRY: 1 s after a failure the lane is tried again. -/
def State.rejoinRetry (s : State) (p i : Nat) : State := s.laneRejoin p i

/-- ELM_ADD (R375): both ends stripe on four lanes from the round after the one marked; a request is answered. (DEDUCED, log entry 61.) -/
def State.elmAdd (s : State) (p version i : Nat) (reply : Bool) : State :=
  if s.elmBad p version then s.elmDiscard p
  else
    let x := s.getPt p
    match x.rejoin with
    | some r =>
      if r.lane = i ∧ r.verMine ∧ r.verTheirs ∧ s.spareUp p then
        let old := s.timingLane p
        let lanes := s.fget F.ptStat_LANES p ||| 2 ^ i
        let s1 := ((s.fset F.ptStat_LANES lanes p).fset F.ptStat_RATE (if lanes = 15 then 6 else 5) p).setPt p { x with rejoin := none }
        let s2 := s1.ptLink p
        let s3 := if s2.timingLane p = old then s2 else s2.timingMoves p
        if reply then s3
        else
          let m := s3.elmMark p
          m.2.elmSend p [.add i m.1 true]
      else s
    | none => s

end Sys2Proof.Machine
end

