-- ==== Sys2Proof/Machine/SwOps.lean ====
section
/-! DEFINITION. The switch core, Paddock and the time-aware egress scheduler (R379 to R404). -/

namespace Sys2Proof.Machine

/-- The link of a port is up: Paddock treats a port that is not as down (R370, R389). -/
def State.linkUpOn (s : State) (p : Nat) : Bool := s.fbit F.ptStat_LINK p

/-- Rate of a port in Gb/s. -/
def State.portGbps (s : State) (p : Nat) : Nat := gbps (s.fget F.ptStat_RATE p)

/-- Ticks that `n` bytes take at a port's rate, rounded up. -/
def State.bytesNs (s : State) (p n : Nat) : Nat :=
  let r := s.portGbps p
  if r = 0 then 0 else (n * 8 + r - 1) / r

/-- Ticks from a frame's start to the end of its IFG: 8 bytes of preamble, the frame, 12 bytes of IFG. (PRESUMED, log entry 66.) -/
def State.frameNs (s : State) (p len : Nat) : Nat := s.bytesNs p (len + 20)

/-- Ticks of pause quanta: 512 bits each at the port's rate. -/
def State.quantaNs (s : State) (p q : Nat) : Nat := s.bytesNs p (64 * q)

/-- Frames leave the list once every copy has gone. -/
def State.sweep (s : State) : State := s.setSw { s.sw with frames := s.sw.frames.filter fun f => f.live s.tickNo }

/-- Replace one frame. -/
def State.setFrame (s : State) (f : PFrame) : State :=
  s.setSw { s.sw with frames := s.sw.frames.map fun g => if g.id = f.id then f else g }

def State.findFrame (s : State) (id : Nat) : Option PFrame := s.sw.frames.find? fun f => decide (f.id = id)

/-! ### Thresholds and back-pressure (R384 to R387) -/

/-- Shared cells of an egress queue. -/
def State.egressShared (s : State) (p c : Nat) : Nat :=
  s.cellSum PFrame.shared fun f => decide (f.cls = c) && f.copies.any fun x => decide (x.port = p) && x.live s.tickNo

/-- Guaranteed, shared and headroom cells of an ingress pair. -/
def inPair (p c : Nat) (f : PFrame) : Bool := decide (f.inPort = p) && decide (f.cls = c)
def State.pairGuar (s : State) (p c : Nat) : Nat := s.cellSum PFrame.guar (inPair p c)
def State.pairShared (s : State) (p c : Nat) : Nat := s.cellSum PFrame.shared (inPair p c)
def State.pairHead (s : State) (p c : Nat) : Nat := s.cellSum PFrame.head (inPair p c)

/-- A use is below the threshold α·F of a class; a drop-eligible frame is judged against half of it (R381, R387). -/
def State.belowT (s : State) (c use : Nat) (half : Bool) : Bool :=
  decide (use * 64 * (if half then 2 else 1) < 2 ^ s.fget F.padClass_ALPHA c * s.padFree)

/-- A pair is lossless (R385). -/
def State.lossless (s : State) (p c : Nat) : Bool := s.fbit F.padClass_LL c && decide (s.fget F.swPortCfg_FC p ≠ 0)

/-- A flow-control frame leaves a port: its class, or every class of the port under PAUSE. (DEDUCED, log entry 65.) -/
def State.fcSend (s : State) (p c quanta : Nat) : State :=
  let x := s.getSwPort p
  s.setSwPort p { x with fcMask := if s.fget F.swPortCfg_FC p = 2 then 255 else 2 ^ c, fcQuanta := quanta }

/-- XOFF of a pair, sent or repeated. -/
def State.xoffSend (s : State) (p c : Nat) : State :=
  let s1 := s.fcSend p c 65535
  s1.setSw { s1.sw with xoff := s1.sw.xoff.put id none (8 * p + c) (some s1.tickNo) }

/-- XON of a pair: another pair of the port may still hold a PAUSE port stopped. -/
def State.xonSend (s : State) (p c : Nat) : State :=
  let s1 := s.setSw { s.sw with xoff := s.sw.xoff.put id none (8 * p + c) none }
  if s1.fget F.swPortCfg_FC p = 2 ∧ s1.sw.xoff.cells.any fun e => decide (e.1 / 8 = p) then s1 else s1.fcSend p c 0

/-- Whether a pair has sent XOFF and not XON. -/
def State.xoffOn (s : State) (p c : Nat) : Bool := (s.sw.xoff.get none (8 * p + c)).isSome

/-- XOFF when a lossless pair's shared use reaches the threshold, XON when it has fallen XON_DELTA below it (R387). (DEDUCED, log entry 65.) -/
def State.xoffCheck (s : State) (p c : Nat) : State :=
  let use := s.pairShared p c
  if s.xoffOn p c then
    if s.lossless p c ∧ !s.belowT c (use + s.fget F.padCtl_XON_DELTA - 1) false then s else s.xonSend p c
  else if s.lossless p c ∧ !s.belowT c use false then s.xoffSend p c
  else s

/-- Every pair that has sent XOFF is judged again. (DEDUCED, log entry 65.) -/
def State.xonScan (s : State) : State := (s.sw.xoff.cells.map fun e => e.1).foldl (fun st k => st.xoffCheck (k / 8) (k % 8)) s

/-- Housekeeping at each command of the block: cells of frames that have left return, and XON follows. -/
def State.swTick (s : State) : State := s.sweep.xonScan

/-! ### Classification and filters (R379 to R381) -/

/-- The PCP of a frame: its outer tag's, or DPCP (R380). -/
def State.pcpOf (s : State) (p : Nat) (h : FrameHead) : Nat :=
  match h.tag with
  | some t => t.1 % 8
  | none => s.fget F.swPortCfg_DPCP p

/-- The class of a frame (R380). -/
def State.classify (s : State) (p : Nat) (h : FrameHead) : Nat :=
  let slot := h.ptp.bind fun k => s.domSlot k.domain k.sdo
  let pcp := s.pcpOf p h
  if h.elm ∨ slot.isSome then 6 else bits (s.fget F.swPcpMap_MAP p) (3 * pcp + 2) (3 * pcp)

/-- The VLAN of a frame: untagged and priority-tagged frames belong to VLAN 1. (PRESUMED, log entry 63.) -/
def vidOf (h : FrameHead) : Nat :=
  match h.tag with
  | some t => if t.2 % 4096 = 0 then 1 else t.2 % 4096
  | none => 1

/-- The enabled stream of a destination and VLAN. -/
def State.streamOf (s : State) (dst vid : Nat) : Option Nat :=
  ((s.listed .swStream).find? fun c =>
    bit c.2 60 && decide (c.2 % 2 ^ 60 = dst % 2 ^ 48 + vid * 2 ^ 48)).map Prod.fst

/-- The colour of a frame. -/
inductive Colour where
  | green | yellow | red
  deriving DecidableEq, Repr

/-- The two-rate meter of a stream (R381): tokens in thousandths of a bit; CIR and EIR in Mb/s are those per ns. (DEDUCED, log entry 65.) -/
def State.meterFrame (s : State) (k len : Nat) : Colour × State :=
  let cir := s.fget F.swStream_CIR k
  let eir := s.fget F.swStream_EIR k
  let cbs := s.fget F.swStream_CBS k * 8000
  let ebs := s.fget F.swStream_EBS k * 8000
  if cir = 0 ∧ eir = 0 then (.red, s)
  else
    let m := match s.sw.meters.get none k with
      | some m => Meter.mk (min cbs (m.c + cir * (s.tickNo - m.tick))) (min ebs (m.e + eir * (s.tickNo - m.tick))) s.tickNo
      | none => ⟨cbs, ebs, s.tickNo⟩
    let need := len * 8000
    let put (x : Meter) : State := s.setSw { s.sw with meters := s.sw.meters.put id none k (some x) }
    if need ≤ m.c then (.green, put { m with c := m.c - need })
    else if need ≤ m.e then (.yellow, put { m with e := m.e - need })
    else (.red, put m)

/-- The stream filter (R381): whether the frame passes and is yellow. (DEDUCED, log entry 65.) -/
def State.streamFilter (s : State) (dst vid len : Nat) : Bool × Bool × State :=
  match s.streamOf dst vid with
  | none => (true, false, s)
  | some k =>
    let drop (st : State) : Bool × Bool × State :=
      (false, false, st.fset F.swStream_DROP (min (st.fget F.swStream_DROP k + 1) 0xFFFFFFFF) k)
    if s.fbit F.swStream_BLOCKED k then drop s
    else if s.fget F.swStream_MAXSDU k < len ∨ s.fget F.swStream_MAXSDU k = 0 then
      drop (s.fonIf (s.fbit F.swStream_BLOCK_OVERSIZE k) F.swStream_BLOCKED k)
    else
      let m := s.meterFrame k len
      if m.1 = .red then drop m.2 else (true, decide (m.1 = .yellow), m.2)

/-! ### Forwarding and learning (R379, R389, R391) -/

/-- The MAC table key of an address in a VLAN. -/
def macKey (mac vid : Nat) : Nat := mac % 2 ^ 48 + vid % 4096 * 2 ^ 48

/-- The valid entry of a key. (DESIGN CHOICE, log entry 64.) -/
def State.macFind (s : State) (key : Nat) : Option Nat :=
  ((s.listed .swMac).find? fun c => bit c.2 70 && decide (c.2 % 2 ^ 64 = key)).map Prod.fst

/-- A frame of an entry's address has come: its age starts anew. -/
def State.macTouch (s : State) (i : Nat) : State := s.setSw { s.sw with macTick := s.sw.macTick.put id 0 i s.tickNo }

/-- Learning from a source address (R379): a known address moves, an unknown one takes a free way of its bucket. (DESIGN CHOICE, log entry 64.) -/
def State.learn (s : State) (p src vid : Nat) : State :=
  if src / 2 ^ 40 % 2 = 1 ∨ vid = 0 ∨ 4095 ≤ vid then s
  else
    let key := macKey src vid
    match s.macFind key with
    | some i => if bit (s.rget ⟨.swMac, i, 0, 0⟩) 71 then s else (s.fset F.swMac_PORT p i).macTouch i
    | none =>
      let b := Config.macHash (src % 2 ^ 48) vid % 32768
      match ([4 * b, 4 * b + 1, 4 * b + 2, 4 * b + 3] : List Nat).find? fun i => !bit (s.rget ⟨.swMac, i, 0, 0⟩) 70 with
      | some i => (s.rset ⟨.swMac, i, 0, 0⟩ (key + p % 64 * 2 ^ 64 + 2 ^ 70)).macTouch i
      | none => s.cnt .swCntLearnFull

/-- An address no bridge forwards: 01-80-C2-00-00-00 to 0F. (PRESUMED, log entry 63.) -/
def reservedMac (dst : Nat) : Bool := decide (dst / 16 % 2 ^ 44 = 0x0180C200000)

/-- Whether a matched time-protocol frame is forwarded (R344). -/
def State.ptpForwarded (s : State) (k : PtpKey) : Bool :=
  match s.domSlot k.domain k.sdo with
  | none => true
  | some d =>
    let mode := s.fget F.ntDomCfg_MODE d
    if mode = 1 then false
    else if mode = 3 then !decide (k.typ = 2 ∨ k.typ = 3 ∨ k.typ = 10)
    else true

/-- The egress ports of a frame (R379). (PRESUMED, log entry 63.) -/
def State.egressOf (s : State) (p : Nat) (h : FrameHead) (vid : Nat) : List Nat :=
  let members := (List.range 52).filter fun q => bit (s.fget F.swVlan_MEMBER vid) q && decide (q ≠ p)
  if h.elm || reservedMac h.dst || decide (4095 ≤ vid) || !((h.ptp.map s.ptpForwarded).getD true) then []
  else if h.dst / 2 ^ 40 % 2 = 1 then members
  else match s.macFind (macKey h.dst vid) with
    | some i => members.filter fun q => decide (q = s.fget F.swMac_PORT i)
    | none => members

/-- One egress port after fast reroute (R391): the port, or none with whether the copy counts as discarded for a down port. -/
def State.reroute (s : State) (ports : List Nat) (q : Nat) : Option Nat × Bool :=
  if (s.getSwPort q).rerouted then
    let alt := s.fget F.swFrr_ALT q
    if alt ∈ ports then (none, false)
    else if s.linkUpOn alt ∧ !(s.getSwPort alt).rerouted then (some alt, false)
    else (none, true)
  else if s.linkUpOn q then (some q, false)
  else (none, true)

/-- The copies of a frame that remain, and the state with the others counted (R389). -/
def State.routeAll (s : State) (ports : List Nat) : List Nat × Bool × State :=
  ports.foldl (fun a q =>
    match s.reroute ports q with
    | (some r, _) => (if r ∈ a.1 then a.1 else a.1 ++ [r], a.2.1, a.2.2)
    | (none, true) => (a.1, true, a.2.2.cnt .padCntDownDisc q)
    | (none, false) => a) (([] : List Nat), false, s)

/-! ### Admission (R382, R384 to R387, R399) -/

/-- Cells of a frame. -/
def cellsOf (len : Nat) : Nat := (len + 255) / 256

/-- A frame may be cut-through (R382). -/
def State.cutOk (s : State) (p cls : Nat) (ports : List Nat) : Bool :=
  match ports with
  | [q] => decide (cls = 7) && s.fbit F.swPortCfg_CT_EN p && decide (s.portGbps q ≤ s.portGbps p)
  | _ => false

/-- The instant a copy is bound to under fixed-latency release (R399). (DEDUCED, log entry 67.) -/
def State.flInstant (s : State) (cls q : Nat) (ts : Instant) : Option Instant :=
  if cls = 7 ∧ s.fbit F.tasFl_EN q then some (addSpan ts (s64Of (s.fget F.tasFl_DELAY q))).1 else none

/-- A frame enters Paddock with its cells. -/
def State.addFrame (s : State) (f : PFrame) : State :=
  s.setSw { s.sw with frames := s.sw.frames ++ [{ f with id := s.sw.nextId }], nextId := s.sw.nextId + 1 }

/-- Admission: the frame's id if it is admitted to some egress port, and the state with the drops counted. (DEDUCED, log entry 65.) -/
def State.padAdmit (s : State) (p cls len : Nat) (yellow : Bool) (ports : List Nat) (f : PFrame) : Option Nat × State :=
  let n := cellsOf len
  let g := min n (s.fget F.padGmin_CELLS p cls - s.pairGuar p cls)
  let rest := n - g
  let enter (st : State) (qs : List Nat) (sh hd : Nat) : Option Nat × State :=
    let s1 := st.addFrame { f with
      guar := g, shared := sh, head := hd, copies := qs.map fun q => { port := q, inst := s.flInstant cls q f.ts.t } }
    (some st.sw.nextId, s1.xoffCheck p cls)
  if ports.isEmpty then (none, s)
  else if rest = 0 then enter s ports 0 0
  else if s.lossless p cls then
    if !s.xoffOn p cls && decide (rest ≤ s.padFree) then enter s ports rest 0
    else if rest ≤ s.fget F.padHr_CELLS p cls - s.pairHead p cls then enter s ports 0 rest
    else (none, (s.fon F.padStat_HR_OVF).cnt .padCntHrDrop p)
  else
    let ok := ports.filter fun q => s.belowT cls (s.egressShared q cls) yellow && decide (rest ≤ s.padFree)
    let s1 := (ports.filter fun q => !(ok.any fun r => decide (r = q))).foldl (fun st q => st.cnt .padCntDrop q) s
    if ok.isEmpty then (none, s1) else enter s1 ok rest 0

/-- Counting of frames for sampling (R402): whether this one is sampled. -/
def State.sampleCount (s : State) (p : Nat) : Bool × State :=
  let n := s.fget F.swSample_N p
  let x := s.getSwPort p
  if n = 0 then (false, s)
  else if n ≤ x.sampCnt + 1 then (true, s.setSwPort p { x with sampCnt := 0 })
  else (false, s.setSwPort p { x with sampCnt := x.sampCnt + 1 })

/-- FRAME_RX (R379 to R389, R399, R402, R403): a frame's first 64 bytes have passed the parser. -/
def State.frameRx (s0 : State) (p : Nat) (h : FrameHead) (len : Nat) (o : EdgeObs) : State :=
  if !s0.linkUpOn p ∨ s0.glb.limited ∨ s0.fbit F.glbBlkRst_SWPAD ∨ (s0.getSwPort p).rx.isSome then s0
  else
    let s := s0.swTick
    let cls := s.classify p h
    let vid := vidOf h
    let ts := s.stampRx p o
    let sm := s.sampleCount p
    let s1 := sm.2.raiseIf (decide (cls = 7)) (Prod.ptRx7 p) ts.t 0
    let fl := s1.streamFilter h.dst vid len
    let s2 := fl.2.2
    let tooLong := s2.lossless p cls && decide (s2.fget F.padLlMtu_MTU < len)
    let s3 := if fl.1 && tooLong then s2.cnt .padCntLlOver p else s2
    let pass := fl.1 && !tooLong
    let ports := if pass then s3.egressOf p h vid else []
    let rt := s3.routeAll ports
    let cut := s3.cutOk p cls rt.1
    let f : PFrame := {
      id := 0, kind := .fwd, inPort := p, cls := cls, len := len, guar := 0, shared := 0, head := 0, copies := [], ts := ts
      dms := s64Of (s3.fget F.ntPortDms_D p)
      ptp := h.ptp.bind fun k => (s3.domSlot k.domain k.sdo).map fun _ => k
      cut := cut, tags := some (h.tag, s.pcpOf p h, vid) }
    let ad := rt.2.2.padAdmit p cls len fl.2.1 rt.1 f
    let s4 := ad.2
    s4.setSwPort p { s4.getSwPort p with rx := some {
      head := h, cls := cls, vid := vid, ts := ts, valid := s.time.valid, deg := s.deg, id := ad.1, cut := cut, sample := sm.1
      dropped := ad.1.isNone && !h.elm, down := rt.2.1 } }

/-! ### The end of a frame (R382, R383, R402) -/

/-- A frame that turned out bad: copies that have started end with an error, the rest are discarded (R382, R383). (DEDUCED, log entry 65.) -/
def State.badFrame (s : State) (id : Nat) : State :=
  match s.findFrame id with
  | none => s
  | some f =>
    let started := f.copies.filter fun c => c.start.isSome
    let s1 := started.foldl (fun st c => st.cnt .tasCntTxBad c.port) s
    s1.setFrame { f with complete := true, copies := started }

/-- The sampled-frames region of DRAM (R27): its first address and its size. -/
def sampleBase : Nat := 0x1C0000000
def sampleRegion : Nat := 536870912

/-- Put bytes into the sampled-frame ring at a place of the region, whose end runs on at its start. (DESIGN CHOICE, log entry 97.) -/
def State.samplePut (s : State) (at_ : Nat) (b : List Byte) : State :=
  let s1 := s.setDram (memWriteBytes dramUnl s.dram (sampleBase + at_) (b.take (sampleRegion - at_)))
  s1.setDram (memWriteBytes dramUnl s1.dram sampleBase (b.drop (sampleRegion - at_)))

/-- The first `n` bytes at a place of the ring. -/
def State.sampleGet (s : State) (at_ n : Nat) : List Byte :=
  let k := min n (sampleRegion - at_)
  memReadBytes dramUnl s.dram (sampleBase + at_) k ++ memReadBytes dramUnl s.dram sampleBase (n - k)

/-- The 32-byte header of a sample (R402). -/
def sampleHeader (p : Nat) (r : RxNow) (bad : Bool) (len stored seq : Nat) : List Byte :=
  let fl := bnat r.valid + 2 * bnat r.deg + 4 * bnat r.ts.fine + 8 * bnat r.cut + 16 * bnat bad + 32 * bnat r.dropped + 64 * bnat r.down
  let w := packT96 r.ts.t + (p + r.cls * 256 + fl * 65536) * 2 ^ 96 + (len % 65536 + stored % 65536 * 65536 + seq % 2 ^ 32 * 2 ^ 32) * 2 ^ 128
  (List.range 32).map fun i => BitVec.ofNat 8 (w / 256 ^ i)

/-- A sample goes to the sampled-frame ring, or is lost and counted (R31, R402). (DEDUCED, log entry 67.) -/
def State.takeSample (s : State) (p : Nat) (r : RxNow) (bad : Bool) (data : List Byte) : State :=
  let x := s.getSwPort p
  let st := min data.length (64 * s.fget F.swSample_TRUNC p)
  let smp := sampleHeader p r bad data.length st x.sampSeq ++ data.take st
  let s1 := s.setSwPort p { x with sampSeq := (x.sampSeq + 1) % 2 ^ 32 }
  let used := s1.sw.samples.foldl (fun a e => a + e.2) 0
  let at_ := s1.sw.sampleAt
  if s1.dramUnavail ∨ s1.flrOn ∨ sampleRegion < used + smp.length then s1.cnt .swCntSampleLost p
  else
    let s2 := s1.samplePut at_ smp
    s2.setSw { s2.sw with samples := s2.sw.samples ++ [(at_, smp.length)], sampleAt := (at_ + smp.length) % sampleRegion }

/-- FRAME_RX_END (R379, R382, R383, R402). `err`: the PCS received an error block within the frame. -/
def State.frameRxEnd (s0 : State) (p : Nat) (data : List Byte) (fcsOk err : Bool) : State :=
  match (s0.getSwPort p).rx with
  | none => s0
  | some r =>
    let s := s0.setSwPort p { s0.getSwPort p with rx := none }
    let bad := !fcsOk || err || decide (data.length < 64) || decide (s.fget F.swPortCfg_MTU p < data.length)
    let s1 := if bad then s.cnt .swCntRxBad p else s
    let s2 := if fcsOk && !r.head.elm then s1.learn p r.head.src r.vid else s1
    let s3 := match r.id with
      | none => s2
      | some id =>
        if bad then s2.badFrame id
        else match s2.findFrame id with
          | some f => s2.setFrame { f with complete := true, data := data }
          | none => s2
    (if r.sample then s3.takeSample p r (!fcsOk) data else s3).swTick

/-! ### Gate lists (R392, R393) -/

/-- The intervals of one cycle: gates, start and end within the cycle. Entries of interval 0 are skipped, the last one extends to the
cycle's end, and one that would pass it is cut. (DEDUCED, log entry 67.) -/
def gclSegs (cycle start : Nat) : List (Nat × Nat) → List (Nat × Nat × Nat)
  | [] => []
  | (g, i) :: t =>
    if i = 0 then gclSegs cycle start t
    else if cycle ≤ start then []
    else if (t.all fun e => decide (e.2 = 0)) || decide (cycle ≤ start + i) then [(g, start, cycle)]
    else (g, start, start + i) :: gclSegs cycle (start + i) t

/-- The place of an instant in the cycle of a list. (DEDUCED, log entry 67.) -/
def cyclePos (base cycle : Nat) (t : Nat) : Nat := (((t : Int) - base) % (cycle : Int)).toNat

/-- The gates at a whole nanosecond of device time. -/
def State.gatesAt (s : State) (p t : Nat) : Nat :=
  let x := s.getSwPort p
  let pos := cyclePos x.base x.cycle t
  match (gclSegs x.cycle 0 x.oper).find? fun g => decide (g.2.1 ≤ pos ∧ pos < g.2.2) with
  | some g => g.1
  | none => s.fget F.tasGateDflt_GATES p

/-- The intervals of the cycle that holds an instant and of the next `n`, as instants. -/
def State.gateSpans (s : State) (p t n : Nat) : List (Nat × Int × Int) :=
  let x := s.getSwPort p
  let c0 : Int := (t : Int) - cyclePos x.base x.cycle t
  let segs := gclSegs x.cycle 0 x.oper
  (List.range (n + 1)).flatMap fun (k : Nat) => segs.map fun g => (g.1, c0 + k * x.cycle + g.2.1, c0 + k * x.cycle + g.2.2)

/-- When the open gate of a class next closes after an instant; none when it does not. -/
def State.nextClose (s : State) (p c t : Nat) : Option Int :=
  ((s.gateSpans p t 2).find? fun g => decide ((t : Int) < g.2.2) && !bit g.1 c).map fun g => g.2.1

/-- The end of the first gate-open interval of a class that began at or after an instant (R390). -/
def openEnd (c : Nat) (t : Int) : List (Nat × Int × Int) → Bool → Option Int
  | [], _ => none
  | (g, a, _) :: rest, wasOpen =>
    if bit g c then
      if !wasOpen && decide (t ≤ a) then ((rest.find? fun x => !bit x.1 c).map fun x => x.2.1)
      else openEnd c t rest true
    else openEnd c t rest false
/-- PRESUMED, log entry 66. -/
def State.windowEnd (s : State) (p c : Nat) (ts : Instant) : Option Int :=
  let t := (ts + lsbPerNs - 1) / lsbPerNs
  let x := s.getSwPort p
  openEnd c t (s.gateSpans p (t - min t x.cycle) 4) true

/-- GCL_ENTRY (R392): the entry in force sets the gates. -/
def State.gclEntry (s : State) (p : Nat) : State :=
  s.setSwPort p { s.getSwPort p with gates := s.gatesAt p s.time.now }

/-- After a time step every list follows device time (R56, R392). -/
def State.gatesFollow (s : State) : State :=
  (s.sw.port.cells.map fun c => c.1).foldl (fun st p => if (st.getSwPort p).oper.isEmpty then st else st.gclEntry p) s

/-- The gates of a port now: a list of no entries holds them at TAS_GATE_DFLT. -/
def State.gatesNow (s : State) (p : Nat) : Nat :=
  let x := s.getSwPort p
  if x.oper.isEmpty then s.fget F.tasGateDflt_GATES p else x.gates

/-- The admin list of a port: its first LEN entries. -/
def State.adminList (s : State) (p : Nat) : List (Nat × Nat) :=
  (List.range (s.fget F.tasGclCtl_LEN p)).map fun e => (s.fget F.tasGcl_GATES p e, s.fget F.tasGcl_INTERVAL p e)

/-- The first cycle start at or after the base that lies 1 µs or more after now (R393). -/
def firstCycle (base cycle now : Nat) : Nat :=
  if now + 1000 ≤ base then base else base + (now + 1000 - base + cycle - 1) / cycle * cycle

/-- GCL_CHANGE (R393). -/
def State.gclChange (s : State) (p : Nat) : State :=
  let cycle := s.fget F.tasCycle_NS p
  let b := (unpackT96 (s.fget F.tasBase_T p)).getD 0
  if cycle < 1000 ∨ 1000000000 < cycle ∨ 256 < s.fget F.tasGclCtl_LEN p then s.fset F.tasGclCtl_RES 1 p
  else if b % lsbPerNs ≠ 0 then s.fset F.tasGclCtl_RES 2 p
  else
    let base := nsOf b
    let s1 := (s.fset F.tasGclCtl_RES 0 p).fset F.tasGclCtl_PENDING 1 p
    s1.setSwPort p { s1.getSwPort p with pend := some ⟨s.adminList p, cycle, base, firstCycle base cycle s.time.now⟩ }

/-- GCL_CHANGE_EFFECT (R393). -/
def State.gclEffect (s : State) (p : Nat) : State :=
  let x := s.getSwPort p
  match x.pend with
  | none => s
  | some g =>
    if s.time.now < g.at_ then s
    else
      let s1 := (s.fset F.tasGclCtl_PENDING 0 p).setSwPort p { x with oper := g.list, cycle := g.cycle, base := g.base, pend := none }
      s1.gclEntry p

/-! ### Egress (R394 to R400) -/

/-- A class is express: 6 and 7 always, the others as EXPRESS selects (R395). -/
def State.express (s : State) (p c : Nat) : Bool := decide (6 ≤ c) || bit (s.fget F.tasPreempt_EXPRESS_LO p) c

/-- A class is stopped by the partner (R386). -/
def State.paused (s : State) (p c : Nat) : Bool := decide (s.tickNo < s.sw.pause.get 0 (8 * p + c))

/-- Copies of a port that wait to start: a frame and its copy. -/
def State.waiting (s : State) (p : Nat) : List (PFrame × FrameCopy) :=
  s.sw.frames.filterMap fun f => (f.copies.find? fun c => decide (c.port = p) && c.start.isNone).map fun c => (f, c)

/-- The preemptable frame in transmission can be cut now (R395): enough of it has left and enough remains. (PRESUMED, log entry 66.) -/
def State.canPreempt (s : State) (p : Nat) : Bool :=
  let x := s.getSwPort p
  let frag := s.bytesNs p (64 * (s.fget F.tasPreempt_ADDFRAG p + 1) - 4)
  s.fbit F.tasPreempt_ACTIVE p && decide (x.preStart + frag ≤ s.tickNo) && decide (s.tickNo + s.bytesNs p 60 ≤ x.preUntil)

/-- A port can start a frame now. -/
def State.canStart (s : State) (p : Nat) (expr : Bool) : Bool :=
  let x := s.getSwPort p
  s.linkUpOn p && decide (x.expUntil ≤ s.tickNo) && (decide (x.preUntil ≤ s.tickNo) || (expr && s.canPreempt p))

/-- The outer tag a frame leaves a port with (R379): none where SW_VLAN has the port untagged; a launched frame leaves as it is. (PRESUMED, log
entry 63.) -/
def State.outTag (s : State) (p : Nat) (f : PFrame) : Option (Nat × Nat) :=
  match f.tags with
  | none => none
  | some (_, pcp, vid) => if bit (s.fget F.swVlan_UNTAG vid) p then none else some (pcp, vid)

/-- The bytes a frame leaves a port with, FCS included: 4 for its tag, and at least 64. (PRESUMED, log entry 63.) -/
def State.outLen (s : State) (p : Nat) (f : PFrame) : Nat :=
  match f.tags with
  | none => max 64 f.len
  | some (came, _) => max 64 (f.len - (if came.isSome then 4 else 0) + (if (s.outTag p f).isSome then 4 else 0))

/-- What a transparent clock writes into a frame in flight: the correction added, or none when the frame must go (R345, R346). -/
def State.residence (s : State) (f : PFrame) (st : NtStamp) : Option Int :=
  match f.ptp with
  | none => some 0
  | some k =>
    match s.domSlot k.domain k.sdo with
    | none => some 0
    | some d =>
      let mode := s.fget F.ntDomCfg_MODE d
      if (mode = 2 ∧ (k.typ = 0 ∨ k.typ = 1)) ∨ (mode = 3 ∧ k.typ = 0) then
        let r := (dif st.t f.ts.t).1
        let add := if mode = 3 then f.dms else 0
        let steps := (st.stepSeq + 16 - f.ts.stepSeq % 16) % 16
        if steps = 0 then some (satS64 (r + add)).1
        else if steps = 1 then some (satS64 (r - s64Of (s.rget ⟨.tbLastStep, 0, 0, 0⟩) + add)).1
        else none
      else some 0

/-- A copy starts: its cells are held until its last byte has left, a preempted frame resumes after it, the egress timestamp of class 7 is
shown, and corrections are written in flight. -/
def State.startCopy (s : State) (p : Nat) (f : PFrame) (expr : Bool) (o : EdgeObs) : State :=
  let st := s.stampTx p o
  match s.residence f st with
  | none =>
    (s.setFrame { f with copies := f.copies.filter fun c => decide (c.port ≠ p) }).cnt .ntCntStepdrop
  | some corr =>
    let dur := s.frameNs p (s.outLen p f)
    let stop := s.tickNo + dur
    let x := s.getSwPort p
    let pre := decide (s.tickNo < x.preUntil)
    let resume := x.preUntil + dur + s.bytesNs p 24
    let s1 := s.setFrame { f with copies := f.copies.map fun c => if c.port = p then { c with start := some s.tickNo, stop := stop } else c }
    let s2 := if expr && pre then
        match s1.findFrame x.preId with
        | some g => s1.setFrame { g with copies := g.copies.map fun c => if c.port = p ∧ c.start.isSome then { c with stop := resume } else c }
        | none => s1
      else s1
    let last : TxLast := ⟨f.id, f.cls, st.t, corr, f.data, s.outTag p f, s.outLen p f⟩
    let y := if expr then { x with expUntil := stop, preUntil := if pre then resume else x.preUntil, last := last }
      else { x with preUntil := stop, preStart := s.tickNo, preId := f.id, last := last }
    let s3 := s2.setSwPort p y
    if f.cls = 7 then s3.fset F.tasLastDep_T (packT96 st.t) p else s3

/-- The copy of a port that is bound to an instant and comes first (R397): the earlier instant, a launch frame at equal instants. -/
def bestTimed : List (PFrame × FrameCopy) → Option (PFrame × Instant)
  | [] => none
  | (f, c) :: t =>
    match c.inst, bestTimed t with
    | none, r => r
    | some i, none => some (f, i)
    | some i, some (g, j) => if i < j ∨ (i = j ∧ (f.kind = FrameKind.launch ∨ g.kind ≠ FrameKind.launch)) then some (f, i) else some (g, j)

/-- A timed frame whose instant has come at a port. -/
def State.timedDue (s : State) (p : Nat) : Option (PFrame × Instant) :=
  match bestTimed (s.waiting p) with
  | some x => if x.2 ≤ s.nowI then some x else none
  | none => none

/-- The gate of a class is open and the frame ends before it closes (R394). -/
def State.gateFits (s : State) (p c len : Nat) : Bool :=
  bit (s.gatesNow p) c &&
  (match s.nextClose p c s.time.now with
   | some t => decide ((s.time.now + s.frameNs p len : Nat) ≤ t)
   | none => true)

/-- The length a frame is judged with (R394). -/
def State.judgedLen (s : State) (p : Nat) (f : PFrame) : Nat :=
  if f.cut && !f.complete then s.fget F.tasQ7Maxlen_BYTES p else s.outLen p f

/-- The frame that queue traffic of a port would start next: strict priority among the classes that may start (R380, R394). -/
def State.nextQueued (s : State) (p : Nat) : Option PFrame :=
  let w := (s.waiting p).filter fun x => x.2.inst.isNone
  let head (c : Nat) : Option PFrame := (w.find? fun x => decide (x.1.cls = c)).map Prod.fst
  ((List.range 8).reverse.filterMap head).find? fun f =>
    (f.complete || f.cut) && !s.paused p f.cls && s.gateFits p f.cls (s.judgedLen p f) && s.canStart p (s.express p f.cls)

/-- FRAME_TX_START (R394): queue traffic, behind launch and fixed-latency frames whose instant has come. -/
def State.frameTxStart (s0 : State) (p : Nat) (o : EdgeObs) : State :=
  let s := s0.swTick
  if s.glb.limited ∨ (s.timedDue p).isSome then s
  else match s.nextQueued p with
    | some f => (s.startCopy p f (s.express p f.cls) o).xonScan
    | none => s

/-- A timed frame that cannot start at its boundary is late, once (R397): it is dropped, or waits for the first opportunity. (DEDUCED, log entry 67.) -/
def State.timedLate (s : State) (p : Nat) (f : PFrame) : State :=
  let mine := f.copies.find? fun c => decide (c.port = p)
  if (mine.map FrameCopy.late).getD true then s
  else
    let s1 := s.cnt .tasCntLate p
    if s1.fbit F.tasLatePol_DROP p then s1.setFrame { f with copies := f.copies.filter fun c => decide (c.port ≠ p) }
    else s1.setFrame { f with copies := f.copies.map fun c => if c.port = p then { c with late := true } else c }

/-- The block of an egress lane in hundredths of a ns (R397). (PRESUMED, log entry 66, for 1000BASE-X.) -/
def State.blockTime (s : State) (p : Nat) : Nat := if s.laneRate p = 3 then 256 else if s.laneRate p = 2 then 640 else 800

/-- The boundary that an instant is bound to has gone: a block or more has passed since (R397). -/
def State.blockGone (s : State) (p : Nat) (i : Instant) : Bool := decide (i * 100 + s.blockTime p * lsbPerNs ≤ s.nowI * 100)

/-- Release of the first timed frame of a port, of one kind: late where it cannot start or its boundary has gone. -/
def State.timedRelease (s0 : State) (p : Nat) (kind : FrameKind) (o : EdgeObs) : State :=
  let s := s0.swTick
  match s.timedDue p with
  | none => s
  | some (f, i) =>
    if f.kind ≠ kind ∨ s.glb.limited ∨ !s.linkUpOn p then s
    else
      let fits := decide (kind = .launch) || (s.gateFits p f.cls (s.judgedLen p f) && (f.complete || f.cut))
      let ready := fits && !s.paused p f.cls && s.canStart p true
      let s1 := if ready && !s.blockGone p i then s else s.timedLate p f
      if ready then
        match s1.waiting p |>.find? fun x => decide (x.1.id = f.id) with
        | some x => s1.startCopy p x.1 true o
        | none => s1
      else s1

/-- Timed frames whose instant a forward step from `was` has skipped are late (R56, R397). -/
def State.timedSkipped (s : State) (was : Instant) : State :=
  s.sw.frames.foldl (fun st f => f.copies.foldl (fun st c =>
    match c.inst with
    | none => st
    | some i =>
      if c.start.isNone ∧ was < i ∧ i < s.nowI then
        match st.findFrame f.id with
        | some g => st.timedLate c.port g
        | none => st
      else st) st) s

/-- LAUNCH_RELEASE and FIXED_LATENCY_RELEASE (R397, R399). (DEDUCED, log entry 67.) -/
def State.launchRelease (s : State) (p : Nat) (o : EdgeObs) : State := s.timedRelease p .launch o
def State.fixedRelease (s : State) (p : Nat) (o : EdgeObs) : State := s.timedRelease p .fwd o

/-! ### Launch queues and templates (R396, R398) -/

/-- Frames in a port's launch queue. -/
def State.launchCount (s : State) (p : Nat) : Nat :=
  ((s.waiting p).filter fun x => decide (x.1.kind = FrameKind.launch)).length

/-! Result codes of a launch (R96, R231). -/
namespace LaunchRes
def accepted : Nat := 0
def lateDrop : Nat := 2
def qfull : Nat := 3
def badArg : Nat := 4
def chOff : Nat := 6
end LaunchRes

/-- A frame's length, FCS excluded, is one the port cannot carry (R379). -/
def State.lenBad (s : State) (p len : Nat) : Bool := decide (len = 0) || decide (s.fget F.swPortCfg_MTU p < len + 4)

/-- A frame is offered to a launch queue (R396): its result and the state. (DEDUCED, log entry 68.) -/
def State.launchOffer (s0 : State) (p cls : Nat) (data : List Byte) (t : Instant) : Nat × State :=
  let s := s0.swTick
  let len := data.length
  if !s.linkUpOn p ∨ s.glb.limited ∨ s.fbit F.glbBlkRst_TAS then (LaunchRes.chOff, s)
  else if s.lenBad p len then (LaunchRes.badArg, s)
  else if t < s.nowI + 500 * lsbPerNs then (LaunchRes.lateDrop, s)
  else
    let n := cellsOf (len + 4)
    let g := min n (s.fget F.padGmin_CELLS p cls - s.pairGuar p cls)
    if 256 ≤ s.launchCount p ∨ s.padFree < n - g ∨ s.fbit F.glbBlkRst_SWPAD then (LaunchRes.qfull, s)
    else
      (LaunchRes.accepted, s.addFrame {
        id := 0, kind := .launch, inPort := p, cls := cls, len := len + 4, guar := g, shared := n - g, head := 0
        copies := [{ port := p, inst := some t }], ts := ⟨s.nowI, s.time.stepSeq, false⟩, complete := true, data := data })

/-- The bytes of a frame in DRAM. -/
def State.dramBytes (s : State) (a n : Nat) : List Byte := memReadBytes dramUnl s.dram a n

/-- LQ_TPL_COMMIT (R398): `w` is the staged register. (DEDUCED, log entry 68.) -/
def State.tplCommit (s : State) (p w : Nat) : State :=
  let addr := bits w 34 0
  let len := bits w 77 64
  let res (c : Nat) : State := s.fset F.tasLqTpl_RES c p
  let x := s.getSwPort p
  let n := cellsOf (len + 4)
  let mine := (x.tpl.map LqTpl.cells).getD 0
  if s.lenBad p len ∨ addr % 8 ≠ 0 ∨ addr < 0x180000000 ∨ 0x1C0000000 < addr + len ∨ s.dramUnavail then res 4
  else if s.padFree + mine < n ∨ s.fbit F.glbBlkRst_SWPAD then res 3
  else
    let s1 := ((((s.fset F.tasLqTpl_ADDR addr p).fset F.tasLqTpl_LEN len p).fset F.tasLqTpl_CLASS (bits w 82 80) p).fset
      F.tasLqTpl_OFFSET (bits w 127 96) p).fset F.tasLqTpl_RES 0 p
    s1.setSwPort p { x with tpl := some ⟨s.dramBytes addr len, bits w 82 80, signedOf 32 (bits w 127 96), n⟩ }

/-- LQ_TRIG (R398): each event of the group enters a copy at its timestamp plus OFFSET. -/
def State.lqTrig (s : State) (p : Nat) : State :=
  s.onGroup (Con.lqTrig p) fun evs s1 =>
    match (s1.getSwPort p).tpl with
    | none => s1
    | some tp => evs.foldl (fun st e => (st.launchOffer p tp.cls tp.data (addSpan e.ts (tp.offset * 65536)).1).2) s1

/-! ### Pause, age and ports that go down and come up (R386 to R391) -/

/-- PFC_RX (R386): the classes named stop for their quanta; under PAUSE they are those of PAUSE_MASK. -/
def State.pfcRx (s : State) (p : Nat) (pauseFrame : Bool) (mask : Nat) (quanta : List Nat) : State :=
  if !s.linkUpOn p then s
  else
    let m := if pauseFrame then s.fget F.swPortCfg_PAUSE_MASK p else mask
    (List.range 8).foldl (fun st c =>
      if bit m c then
        let q := quanta.getD (if pauseFrame then 0 else c) 0 % 65536
        st.setSw { st.sw with pause := st.sw.pause.put id 0 (8 * p + c) (if q = 0 then 0 else st.tickNo + st.quantaNs p q) }
      else st) s

/-- PAUSE_EXPIRE. -/
def State.pauseExpire (s : State) (p c : Nat) : State :=
  if s.paused p c then s else s.setSw { s.sw with pause := s.sw.pause.put id 0 (8 * p + c) 0 }

/-- XOFF_REPEAT (R387). -/
def State.xoffRepeat (s0 : State) (p c : Nat) : State :=
  let s := s0.swTick
  match s.sw.xoff.get none (8 * p + c) with
  | some t => if t + s.quantaNs p 16384 ≤ s.tickNo then s.xoffSend p c else s
  | none => s

/-- MAC_AGE_EXPIRE (R379): a dynamic entry. -/
def State.macAge (s : State) (i : Nat) : State :=
  let w := s.rget ⟨.swMac, i, 0, 0⟩
  if bit w 70 ∧ !bit w 71 ∧ s.sw.macTick.get 0 i + s.fget F.swAge_SEC * nsPerSec ≤ s.tickNo then s.fset F.swMac_FLAGS 0 i else s

/-- Remove the waiting copies of a port that pass a test, counting them in PAD_CNT_FLUSH when told. (DEDUCED, log entry 67.) -/
def State.dropCopies (s : State) (p : Nat) (count : Bool) (t : PFrame → FrameCopy → Bool) : State :=
  let hit (f : PFrame) (c : FrameCopy) : Bool := decide (c.port = p) && c.start.isNone && t f c
  let n := s.sw.frames.foldl (fun a f => a + (f.copies.filter (hit f)).length) 0
  let s1 := s.setSw { s.sw with frames := s.sw.frames.map fun f => { f with copies := f.copies.filter fun c => !hit f c } }
  if count then s1.cntAdd .padCntFlush n p else s1

/-- PORT_DOWN (R383, R389 to R391). -/
def State.portDown (s0 : State) (p : Nat) : State :=
  let x := s0.getPt p
  if !x.pendDown then s0
  else
    let s := (s0.setPt p { x with pendDown := false }).swTick
    let s1 := match (s.getSwPort p).rx with
      | some r =>
        let st := (s.setSwPort p { s.getSwPort p with rx := none }).cnt .swCntRxBad p
        (match r.id with
         | some id => st.badFrame id
         | none => st)
      | none => s
    let cut := s1.setSw { s1.sw with frames := s1.sw.frames.map fun f =>
      { f with copies := f.copies.filter fun c => !(decide (c.port = p) && c.start.isSome) } }
    let s2 := cut.dropCopies p false fun f _ => f.ptp.isSome
    let frr := s2.fbit F.swFrr_EN p && s2.linkUpOn (s2.fget F.swFrr_ALT p)
    let us := s2.fget F.padHold_US p
    let s3 := if frr || decide (us = 0) then s2.dropCopies p true fun _ _ => true else s2
    let y := s3.getSwPort p
    ((s3.setSwPort p { y with
      expUntil := 0, preUntil := 0, rerouted := y.rerouted || frr
      holdUntil := if frr || decide (us = 0) then none else some (s3.tickNo + 1000 * us) }).fset F.tasPreempt_ACTIVE 0 p).swTick

/-- PAD_HOLD_EXPIRE (R390). -/
def State.padHoldExpire (s : State) (p : Nat) : State :=
  let x := s.getSwPort p
  match x.holdUntil with
  | none => s
  | some t => if s.tickNo < t then s else ((s.setSwPort p { x with holdUntil := none }).dropCopies p true fun _ _ => true).swTick

/-- A held frame's instant has passed (R390). -/
def State.instantPast (s : State) (p : Nat) (f : PFrame) (c : FrameCopy) : Bool :=
  match c.inst with
  | some i => decide (i < s.nowI)
  | none =>
    bit (s.fget F.tasQCfg_WINDOW p) f.cls &&
    (match s.windowEnd p f.cls f.ts.t with
     | some e => decide (e < s.time.now)
     | none => false)

/-- Preemption is active at once when verification is skipped (R395). -/
def State.preemptNow (s : State) (p : Nat) : State :=
  let r := s.fget F.ptStat_RATE p
  if s.fbit F.tasPreempt_EN p ∧ s.fbit F.tasPreempt_VERIFY_DIS p ∧ s.linkUpOn p ∧ p < 48 ∧ (r = 2 ∨ r = 3) then
    s.fset F.tasPreempt_ACTIVE 1 p
  else if !s.fbit F.tasPreempt_EN p then s.fset F.tasPreempt_ACTIVE 0 p
  else s

/-- PORT_UP (R388, R390, R391, R395). -/
def State.portUp (s0 : State) (p : Nat) : State :=
  let x := s0.getPt p
  if !x.pendUp ∨ !s0.linkUpOn p then s0
  else
    let s := s0.setPt p { x with pendUp := false }
    let s1 := if (s.getSwPort p).holdUntil.isSome then s.dropCopies p true (fun f c => s.instantPast p f c) else s
    let s2 := s1.setSwPort p { s1.getSwPort p with holdUntil := none, upTick := s1.tickNo }
    ((s2.hrLinkUp p).preemptNow p).swTick

/-- FRR_REVERT (R391). -/
def State.frrRevert (s : State) (p : Nat) : State :=
  let x := s.getSwPort p
  if x.rerouted ∧ s.linkUpOn p ∧ s.fbit F.swFrr_REVERT_EN p ∧ x.upTick + s.fget F.swFrr_REVERT p * 1000000 ≤ s.tickNo then
    s.setSwPort p { x with rerouted := false }
  else s

/-- Software has written SW_FRR: traffic returns when EN is written (R391). -/
def State.frrWritten (s : State) (p : Nat) : State :=
  let x := s.getSwPort p
  if x.rerouted ∧ (!s.fbit F.swFrr_EN p ∨ (!s.fbit F.swFrr_REVERT_EN p ∧ s.linkUpOn p)) then s.setSwPort p { x with rerouted := false }
  else s

/-- PREEMPT_VERIFY_DONE (R395): on ports that run 10GBASE-R or 25GBASE-R. -/
def State.preemptVerified (s : State) (p : Nat) : State :=
  let r := s.fget F.ptStat_RATE p
  if s.fbit F.tasPreempt_EN p ∧ s.linkUpOn p ∧ p < 48 ∧ (r = 2 ∨ r = 3) then s.fset F.tasPreempt_ACTIVE 1 p else s

/-! ### Resets (R33, R404) -/

/-- SWPAD: queued frames are discarded and counted, templates lose their cells, no port is rerouted; tables are kept. (DEDUCED, log entry 21.) -/
def State.swpadClear (s : State) : State :=
  let s1 := (List.range 52).foldl (fun st p => st.dropCopies p true fun _ _ => true) s
  let ps := s1.sw.port.cells.map fun c => c.1
  let s2 := s1.setSw { s1.sw with frames := [], xoff := {}, pause := {} }
  ps.foldl (fun st p => st.setSwPort p { st.getSwPort p with
    rx := none, expUntil := 0, preUntil := 0, holdUntil := none, rerouted := false, tpl := none, sampCnt := 0 }) s2

/-- TAS: launch queues and templates go, gates open, fixed-latency release is disabled. -/
def State.tasClear (s : State) : State :=
  let s1 := s.setSw { s.sw with frames := s.sw.frames.filter fun f => decide (f.kind ≠ FrameKind.launch) }
  (s1.sw.port.cells.map fun c => c.1).foldl (fun st p =>
    st.setSwPort p { st.getSwPort p with gates := 255, oper := [], pend := none, tpl := none }) s1

end Sys2Proof.Machine
end

