-- ==== Sys2Proof/Machine/FltOps.lean ====
section
/-! DEFINITION. The fault monitor and the black-box recorder (R408 to R429). -/

namespace Sys2Proof.Machine

/-- AON cycles in one millisecond. -/
def aonPerMs : Nat := 100000

/-- The AON shadow of device time (R30, R419): device time while the timebase runs, the shadow while it is in reset. -/
def State.aonNow (s : State) : Instant := if s.time.run then s.nowI else s.time.shadow * 10 / 2 ^ 38

/-! ### The black box (R419 to R425) -/

/-- The 256 bits of a record (R419). -/
def BbrRec.pack (r : BbrRec) : Nat :=
  packT96 r.time + r.source % 65536 * 2 ^ 96 + r.code % 65536 * 2 ^ 112 + r.arg0 % 2 ^ 32 * 2 ^ 128 + r.arg1 % 2 ^ 32 * 2 ^ 160 +
  r.seq % 2 ^ 32 * 2 ^ 192 + r.flags % 65536 * 2 ^ 224

/-- VALID, DEG, SHADOW and RC of a record made now (R419, R425). (PRESUMED, log entry 70.) -/
def State.bbrFlags (s : State) (shadow : Bool) : Nat :=
  bnat (s.time.run && s.time.valid) + 2 * bnat s.deg + 4 * bnat shadow + 8 * bnat s.glb.aonRc

/-- The last entry of a SOURCE and CODE. -/
def State.bbrLast (s : State) (source code : Nat) : Option BbrLast :=
  s.bbr.last.find? fun l => decide (l.source = source ∧ l.code = code)

def State.bbrSetLast (s : State) (l : BbrLast) : State :=
  s.setBbr { s.bbr with last := l :: s.bbr.last.filter fun x => !decide (x.source = l.source ∧ x.code = l.code) }

/-- A repeat within 1 ms of the last entered record of its SOURCE and CODE (R422). (DEDUCED, log entry 72.) -/
def State.bbrRepeat (s : State) (source code : Nat) : Bool :=
  match s.bbrLast source code with
  | some l => decide (s.aonNs < l.at_ + 1000000)
  | none => false

/-- A trigger can be taken (R424). -/
def State.bbrCanTrigger (s : State) : Bool := s.fbit F.bbrCtl_TRIG_EN && !s.bbr.frozen && !s.bbr.triggered

/-- A record is offered (R422): its SEQ, or none when it is a repeat that is suppressed. -/
def State.bbrOffer (s : State) (o : BbrOffer) : Option Nat × State :=
  let last := s.bbrLast o.source o.code
  if s.bbrRepeat o.source o.code && !o.trigger then
    let s1 := match last with
      | some l => s.bbrSetLast { l with repeats := min 255 (l.repeats + 1) }
      | none => s
    (none, s1.cnt .fltCntRepeat)
  else
    let n := (last.map BbrLast.repeats).getD 0
    let seq := s.bbr.seq
    let r : BbrRec := ⟨o.ts.getD s.aonNow, o.source, o.code, o.arg0 % 2 ^ 32, o.arg1 % 2 ^ 32, seq, s.bbrFlags o.ts.isNone + n * 256⟩
    let s1 := match last with
      | some l => s.bbrSetLast { l with repeats := 0 }
      | none => s
    let s2 := if o.trigger then s1.setBbr { s1.bbr with triggered := true, trigSeq := seq, after := 0 } else s1
    let s3 := s2.setBbr { s2.bbr with seq := (seq + 1) % 2 ^ 32 }
    if s3.bbr.queue.length < 64 then (some seq, s3.setBbr { s3.bbr with queue := s3.bbr.queue ++ [r] })
    else (some seq, (s3.setBbr { s3.bbr with gap := true }).cnt .bbrCntLost)

/-- The next offer waiting: the oldest tick's, the lowest SOURCE first (R422). -/
def bbrPick : List BbrOffer → Option BbrOffer
  | [] => none
  | o :: t => match bbrPick t with
    | none => some o
    | some p => if p.tick < o.tick ∨ (p.tick = o.tick ∧ p.source < o.source) then some p else some o

/-- Remove the first occurrence of an element. -/
def dropFirst {A : Type} [DecidableEq A] (a : A) : List A → List A
  | [] => []
  | x :: t => if x = a then t else x :: dropFirst a t

/-- BBR_RECORD_OFFER (R422). -/
def State.bbrOfferNext (s : State) : State :=
  match bbrPick s.bbr.offers with
  | none => s
  | some o => ((s.setBbr { s.bbr with offers := dropFirst o s.bbr.offers }).bbrOffer o).2

/-- Records the spill ring holds, and its DRAM address (R423). -/
def spillLen : Nat := 8388608
def spillBase : Nat := 0x1E0000000

/-- A record goes to the spill ring (R423). -/
def State.spillWrite (s : State) (r : BbrRec) : State :=
  if s.dramUnavail then (s.fon F.bbrStat_SPILL_LOST).cnt .bbrCntSpillLost
  else
    let i := s.bbr.spill
    let s1 := s.dramWrite (spillBase + i * 32) r.pack 32
    s1.setBbr { s1.bbr with spill := (i + 1) % spillLen }

/-- The ring freezes once BBR_POST records have followed the trigger record (R424). -/
def State.bbrAfter (s : State) (seq : Nat) : State :=
  if s.bbr.triggered ∧ !s.bbr.frozen ∧ (seq + 2 ^ 32 - s.bbr.trigSeq) % 2 ^ 32 < 2 ^ 31 then
    let n := if seq = s.bbr.trigSeq then 0 else s.bbr.after + 1
    s.setBbr { s.bbr with after := n, frozen := decide (s.fget F.bbrPost_N ≤ n) }
  else s

/-- BBR_RECORD_ENTER (R422, R423, R424): at most one record per AON cycle. (DEDUCED, log entry 71.) -/
def State.bbrEnter (s : State) : State :=
  match s.bbr.queue with
  | [] => s
  | r0 :: q =>
    if s.bbr.enteredCycle = some s.glb.aonCycle then s
    else
      let shadow := bit r0.flags 2
      let gap := s.bbr.gap
      let r : BbrRec := { r0 with
        time := if shadow then s.aonNow else r0.time
        flags := r0.flags / 256 * 256 + (if shadow then s.bbrFlags true else r0.flags % 256) + (if s.bbr.frozen then 0 else 16 * bnat gap) }
      let s1 := s.setBbr { s.bbr with queue := q, enteredCycle := some s.glb.aonCycle }
      if s1.bbr.frozen then
        let s2 := (s1.setBbr { s1.bbr with gap := true }).cnt .bbrCntLost
        if s2.fbit F.bbrCtl_SPILL_EN && !s2.fbit F.bbrCtl_SPILL_FOLLOW then s2.spillWrite r else s2
      else
        let b := s1.bbr
        let s2 := s1.setBbr { b with ring := b.ring.put id ⟨0, 0, 0, 0, 0, 0, 0⟩ b.wptr r, wptr := (b.wptr + 1) % 16384, gap := false }
        let s3 := s2.bbrSetLast ⟨r.source, r.code, s2.aonNs, ((s2.bbrLast r.source r.code).map BbrLast.repeats).getD 0⟩
        let s4 := if s3.fbit F.bbrCtl_SPILL_EN then s3.spillWrite r else s3
        s4.bbrAfter r.seq

/-- A TRIGGER record (R424): `arg` 0 by an event, 1 by FIRE. One that repeats within 1 ms is suppressed (R422) and triggers nothing. (DEDUCED, log entry 72.) -/
def State.bbrTrigger (s : State) (arg : Nat) (ts : Option Instant) : State :=
  if s.bbrCanTrigger then
    let src := srcOf 0x12 0
    (s.bbrOffer { source := src, code := 0x0003, arg0 := arg, arg1 := 0, ts := ts, trigger := !s.bbrRepeat src 0x0003 }).2
  else s

/-- BBR_TRIG (R424). -/
def State.bbrTrigEvent (s : State) : State :=
  match s.takeGroup Con.bbrTrig with
  | none => s
  | some (evs, s1) => s1.bbrTrigger 0 (evs.head?.map Stamp.ts)

/-- PRE + POST exceed 16,383 (R424). -/
def State.bbrOver (s : State) : Bool := decide (16383 < s.fget F.bbrPre_N + s.fget F.bbrPost_N)

/-- BBR_REARM (R424). -/
def State.bbrRearm (s : State) : State :=
  if s.bbrOver then s.fon F.bbrStat_WR_ERR else s.setBbr { s.bbr with frozen := false, triggered := false, after := 0 }

/-! ### Faults (R415 to R418) -/

/-- The record of a fault as it is offered now. -/
def State.faultRec (s : State) (f : FaultRep) (seq : Nat) : BbrRec :=
  ⟨f.ts.getD s.aonNow, f.source, f.code, f.arg0 % 2 ^ 32, f.arg1 % 2 ^ 32, seq, s.bbrFlags f.ts.isNone⟩

/-- The next report of one kind: the oldest tick's, the lowest source first (R418). -/
def faultPick (detected : Bool) : List FaultRep → Option FaultRep
  | [] => none
  | o :: t => match faultPick detected t with
    | none => if o.detected = detected then some o else none
    | some p => if o.detected ≠ detected ∨ p.tick < o.tick ∨ (p.tick = o.tick ∧ p.source < o.source) then some p else some o

/-- FAULT_N is driven low. -/
def State.faultPin (s : State) : State := s.setFlt { s.flt with pinLow := true }

/-- A detected class reacts (R415, R416): FLT_REACT, bit 7 reading 0. -/
def State.reactsOn (s : State) (cls : Nat) : Bool :=
  if cls ≤ 6 then bit (s.fget F.fltReact_CLASS_LO) cls else if 8 ≤ cls then bit (s.fget F.fltReact_CLASS_HI) (cls - 8) else false

/-- A reaction starts (R416): it reaches one flock or all 32, and a REACTION record names the fault's SEQ. -/
def State.startReaction (s : State) (flock : Option Nat) (seq : Nat) : State :=
  let s1 := s.setFlt { s.flt with reacts := s.flt.reacts ++ [flock] }
  let idx := flock.getD 32
  let map := match flock with
    | some f => 2 ^ f
    | none => 2 ^ 32 - 1
  (s1.bbrOffer { source := srcOf 0x0E idx, code := 0x0002, arg0 := map, arg1 := seq, ts := none }).2

/-- The SEQ that a fault's record has: the black box's, or a free one when the record was lost (R424). (DESIGN CHOICE, log entry 5.) -/
def State.faultSeq (s : State) : Option Nat → Nat × State
  | some n => (n, s)
  | none => (s.fresh.1 % 2 ^ 32, s.fresh.2)

/-- A detected fault with the SEQ of its record stands in FLT_LAST and FLT_FIRST and starts a reaction (R415 to R417). -/
def State.faultKept (s : State) (f : FaultRep) (r : BbrRec) (seq : Nat) : State :=
  let s4 := s.setFlt { s.flt with
    lastDet := some (s.glb.aonCycle, r)
    first := some (s.flt.first.getD r)
    firstCycle := if s.flt.first.isNone then s.glb.aonCycle else s.flt.firstCycle }
  if s4.reactsOn f.cls && !f.upstream then s4.startReaction f.flock seq else s4

/-- FAULT_DETECTED (R415 to R418, R424): `f` is a fault found by some mechanism. (DESIGN CHOICE, log entry 5; DEDUCED, log entry 69.) -/
def State.faultDetected (s : State) (f : FaultRep) : State :=
  let s1 := (s.cnt .fltCntDet).fonBit F.fltStat_DET f.cls
  let s2 := (s1.raiseEv Prod.fltDet s1.nowI 0).faultPin
  let trig := s2.bbrCanTrigger && bit (s2.fget F.fltFreeze_CLASS) f.cls
  let of := s2.bbrOffer { source := f.source, code := f.code, arg0 := f.arg0, arg1 := f.arg1, ts := f.ts, trigger := trig }
  let sq := of.2.faultSeq of.1
  sq.2.faultKept f (s2.faultRec f sq.1) sq.1

/-- FAULT_MASKED (R415). (DEDUCED, log entry 69.) -/
def State.faultMasked (s : State) (f : FaultRep) : State :=
  let s1 := (s.cnt .fltCntMask).fonBit F.fltStat_MASKED f.cls
  let s2 := s1.raiseEv Prod.fltMask s1.nowI 0
  let s3 := if s2.fbit F.fltCtl_MASK_PIN then s2.faultPin else s2
  (s3.bbrOffer { source := f.source, code := f.code, arg0 := f.arg0, arg1 := f.arg1, ts := f.ts }).2

/-- The monitor takes the next report of one kind, or a fault that a monitor outside the commands' blocks has found (R411). (DEDUCED, log entry 69.) -/
def State.takeFault (s : State) (detected : Bool) (ext : Option FaultRep) : State :=
  let go (st : State) (f : FaultRep) : State := if detected then st.faultDetected f else st.faultMasked f
  match ext with
  | some f => go s { f with detected := detected, tick := s.tickNo, cls := min f.cls 10 }
  | none => match faultPick detected s.flt.reports with
    | none => s
    | some f => go (s.setFlt { s.flt with reports := dropFirst f s.flt.reports }) f

/-- The release takes effect (R7, R417): FLT_FIRST clears and FAULT_N goes high, unless a fault is detected in this very cycle. (DEDUCED, log entry 69.) -/
def State.releaseNow (s : State) : State :=
  let x := s.flt
  match x.lastDet with
  | some (c, r) =>
    if c = s.glb.aonCycle then s.setFlt { x with first := some r, firstCycle := c, releaseAt := none }
    else s.setFlt { x with first := none, pinLow := false, releaseAt := none }
  | none => s.setFlt { x with first := none, pinLow := false, releaseAt := none }

/-- FAULT_RELEASE (R417): at once, or 1 ms after the first fault. -/
def State.faultRelease (s : State) : State :=
  let x := s.flt
  if x.first.isSome ∧ s.glb.aonCycle < x.firstCycle + aonPerMs then s.setFlt { x with releaseAt := some (x.firstCycle + aonPerMs) }
  else s.releaseNow

/-- FAULT_PIN_RELEASE (R417). -/
def State.faultPinRelease (s : State) : State :=
  match s.flt.releaseAt with
  | none => s
  | some c => if s.glb.aonCycle < c then s else s.releaseNow

/-! ### Watchdog, scan, memories (R411 to R413) -/

/-- The watchdog interval starts anew. -/
def State.wdogRestart (s : State) : State := s.setFlt { s.flt with kickCycle := s.glb.aonCycle }

/-- A write of FLT_WDOG_KICK (R412). -/
def State.wdogKick (s : State) (q : Requester) (key : Nat) : State :=
  if key % 256 = 0x5A ∧ q = .fw then s.wdogRestart else s.fon F.fltStat_WR_ERR

/-- WDOG_EXPIRE (R412). (DEDUCED, log entry 72.) -/
def State.wdogExpire (s : State) : State :=
  let ms := s.fget F.fltCtl_WDOG_MS
  if s.fbit F.fltCtl_WDOG_EN ∧ s.glb.fwRun ∧ s.flt.kickCycle + ms * aonPerMs ≤ s.glb.aonCycle then
    s.wdogRestart.report { detected := true, cls := 10, source := srcOf 0x0F 0, code := 0x2A01, arg0 := ms, arg1 := 0, ts := none }
  else s

/-- CFG_SCAN_GROUP (R413): the group's CRC differs from its reference or not; `blk` is the block the group lies in, TB to SW by the codes of R420. -/
def State.cfgScan (s : State) (group blk : Nat) (bad : Bool) : State :=
  if s.fbit F.fltCtl_SCAN_EN ∧ bad ∧ 1 ≤ blk ∧ blk ≤ 12 then
    (s.fset F.fltScanStat_GROUP group).report
      { detected := true, cls := 6, source := srcOf blk 0, code := 0x2601, arg0 := group, arg1 := 0, ts := none }
  else s

/-- SOURCE and memory identifier of a memory. -/
def MemId.source : MemId → Nat × Nat
  | .drover d => (srcOf 0x07 d.val, 0)
  | .paddock _ => (srcOf 0x0C 0, 0)
  | .dram => (srcOf 0x11 0, 0)
  | .other b i n => (srcOf b.val i.val, n)

/-- MEM_SCRUB (R202, R411): a single-bit error is corrected, a double-bit error detected. -/
def State.memScrub (s : State) (m : MemId) (addr : Nat) (err : Nat) : State :=
  let rep (st : State) (det : Bool) : State := st.report
    { detected := det, cls := 0, source := m.source.1, code := if det then 0x2001 else 0x1001, arg0 := addr, arg1 := m.source.2, ts := none }
  if err = 0 then s
  else if err = 1 then
    match m with
    | .drover d => s.eccCorrected d.val addr
    | _ => rep s false
  else match m with
    | .drover d => s.eccUncorrected d.val addr
    | .paddock id =>
      match s.findFrame id with
      | none => rep s true
      | some f =>
        let s1 := rep (s.cnt .swCntRxBad f.inPort) true
        s1.setFrame { f with copies := f.copies.filter fun c => c.start.isSome, complete := true }
    | .dram => rep (s.setGlb { s.glb with dramFault := true }) true
    | _ => rep s true

end Sys2Proof.Machine
end

