-- ==== Sys2Proof/Machine/TimeOps.lean ====
section
/-! DEFINITION. Device time: the dual counter, time steps, the time bus, the numerical oscillator, TSYN and BPLL (R52 to R59, R270 to
R280). -/

namespace Sys2Proof.Machine

/-! ### The counters (R52, R54) -/

/-- The largest count: 2^48 − 1 s, 999,999,999 ns. -/
def ctrMax : Nat := (2 ^ 48 - 1) * 2 ^ 30 + 999999999

/-- Whole nanoseconds of a counter value: SEC over NS. What an upset leaves in NS beyond a second counts as nanoseconds, into the next
second. (DEDUCED, log entry 86.) -/
def ctrNs (v : Nat) : Nat := v / 2 ^ 30 * nsPerSec + v % 2 ^ 30

/-- The counter value of a whole nanosecond count, held at the largest. -/
def ctrOf (n : Nat) : Nat := min (n / nsPerSec * 2 ^ 30 + n % nsPerSec) ctrMax

/-- A counter value plus 1 ns; the largest holds (R52). -/
def ctrInc (v : Nat) : Nat :=
  if ctrMax ≤ v then v else if v % 2 ^ 30 + 1 = nsPerSec then (v / 2 ^ 30 + 1) * 2 ^ 30 else v + 1

/-- Even parity of the low `n` bits. -/
def parity : Nat → Nat → Bool
  | 0, _ => false
  | n + 1, v => (v % 2 == 1) ^^ parity n (v / 2)

/-- A counter loaded with a value. -/
def ctrLoad (v : Nat) : Ctr := ⟨v, parity 78 v, true⟩

/-- A counter passes its checks: parity, and the predecessor's value plus 1 ns unless a load produced it (R54). -/
def Ctr.passes (c : Ctr) (before : Nat) : Bool :=
  decide (parity 78 c.val = c.par) && (c.exempt || decide (c.val = ctrInc before))

/-- The next value of a counter; its parity is formed from the value it takes, also when an upset has changed the one before. (DEDUCED, log
entry 86.) -/
def Ctr.next (c : Ctr) : Ctr := let v := ctrInc c.val; ⟨v, parity 78 v, false⟩

/-- An upset flips bits of a counter and of its parity. -/
def Ctr.upset (c : Ctr) (mask : Nat) (par : Bool) : Ctr := { c with val := c.val ^^^ (mask % 2 ^ 78), par := c.par ^^ par }

/-- What an evaluation finds (R54): whether A drives, which counter becomes suspect, whether a masked fault is
reported, whether it is TIME_FAULT, whether all is well. -/
structure TimeEval where
  useA : Bool
  badA : Bool := false
  badB : Bool := false
  masked : Bool := false
  fault : Bool := false
  clean : Bool := false
  deriving DecidableEq, Repr

/-- The table of R54. A counter that fails a check while the other passes becomes suspect in every row; the masked fault is that of the
rows in which neither was. (DEDUCED, log entry 86.) -/
def timeEval (eq okA okB suspA suspB : Bool) : TimeEval :=
  let bad : TimeEval := { useA := okA, badA := !okA && okB, badB := okA && !okB }
  if eq then
    if okA && okB then { useA := true, clean := true }
    else if okA || okB then { bad with masked := true }
    else { useA := true, fault := true }
  else if suspA && suspB then { bad with useA := true, fault := true }
  else if suspA then (if okB then { bad with useA := false } else { bad with useA := true, fault := true })
  else if suspB then (if okA then { bad with useA := true } else { bad with useA := true, fault := true })
  else if okA != okB then { bad with masked := true }
  else { useA := true, fault := true }

/-! ### Time steps (R55, R56, R273 to R276) -/

/-- Phase modulo one cycle, in units of 1/(Q · 2^32) (R287). -/
def OsynSt.wrap (o : OsynSt) (p : Int) : Nat := (p % ((max (o.fd * 1000000000 * 2 ^ 32) 1 : Nat) : Int)).toNat

/-- A ramp's segments (DUR, H) from number `k`, `n` of them left, followed for `m` ticks from phase `p` and numerator `fx` (R287). -/
def OsynSt.walk (o : OsynSt) (tbl : Nat → Nat × Int) : Nat → Nat → Int → Int → Nat → OsynSt
  | 0, k, p, fx, m => { o with p := o.wrap (p + m * fx), fx := fx, ramping := false, seg := k, left := 0, h := 0 }
  | n + 1, k, p, fx, m =>
    let d := (tbl k).1
    let h := (tbl k).2
    if d = 0 then o.walk tbl n (k + 1) p fx m
    else if m < d then
      { o with p := o.wrap (p + m * fx + h * m * m), fx := fx + 2 * h * m, ramping := true, seg := k, left := d - m, h := h }
    else o.walk tbl n (k + 1) (p + d * fx + h * d * d) (fx + 2 * h * d) (m - d)

/-- A synthesizer goes `w` ticks of device time on, or back: along its latest ramp, which a step back past its start sets to wait again. -/
def OsynSt.seek (o : OsynSt) (tbl : Nat → Nat × Int) (w : Int) : OsynSt :=
  match o.origin with
  | none => { o with p := o.wrap (o.p + w * o.fx) }
  | some (r, p, fx) =>
    let m : Int := o.gone + w
    if 0 ≤ m then { o.walk tbl o.segs 0 p fx m.toNat with gone := m.toNat }
    else
      { o with
        p := o.wrap (p + m * fx), fx := fx, ramping := false, left := 0, h := 0, origin := none, gone := 0
        rampAt := some (o.rampAt.getD (ofNs r)), rampN := if o.rampAt.isSome then o.rampN else o.segs }

/-- The segments of a channel's ramp profile (R295). -/
def State.osynTable (s : State) (i k : Nat) : Nat × Int := (s.fget F.synOsynSeg_DUR i k, s64Of (s.fget F.synOsynSeg_H i k))

/-- The phase of a running synthesizer follows a step of `w` whole ns, its ramp too. (DEDUCED, log entry 26.) -/
def State.osynShift (s : State) (w : Int) (i : Nat) (o : OsynSt) : OsynSt :=
  if o.started then o.seek (s.osynTable i) w else o

/-- A WAITT whose instant a forward step of `w` ns carries device time past will set L (R232). -/
def Task.passed (t : Task) (was now : Instant) : Task :=
  match t.wait with
  | .instant a l => { t with wait := .instant a (l || (decide (was < a) && decide (a < now))) }
  | _ => t

def State.waitsPassed (s : State) (w : Int) : State :=
  let was := ofNs ((s.time.now : Int) - w).toNat
  { s with drv := ⟨s.drv.cells.map fun c => (c.1, { c.2 with tasks := ⟨c.2.tasks.cells.map fun k => (k.1, k.2.passed was s.nowI)⟩ })⟩ }

/-- What every step does, requested or from a fault, once device time has moved by `w` ns (R55, R56, R276): `span` is shown in
TB_LAST_STEP. (DEDUCED, log entry 25; DEDUCED, log entry 26.) -/
def State.stepped (s : State) (w : Int) (span : Int) : State :=
  let t := s.time
  let s1 := s.setTime { t with
    stepSeq := (t.stepSeq + 1) % 16, stepTick := some s.tickNo, xoPh := (((t.xoPh : Int) + w) % 10).toNat }
  let sp := satS64 span
  let s2 := ((s1.rset ⟨.tbLastStep, 0, 0, 0⟩ (bitsOf 64 sp.1)).cnt .tbCntStep).fonIf sp.2 F.tbStat_STEP_SAT
  let s3 := s2.raiseEv Prod.timeStep s2.nowI 0
  let s4 : State := { s3 with
    osyn := ⟨s3.osyn.cells.map fun c => (c.1, s3.osynShift w c.1 c.2)⟩, eo := ⟨s3.eo.cells.map fun c => (c.1, c.2.stepped w)⟩ }
  let s5 := if 0 < w then
      let a := (s4.eo.cells.map fun c => c.1).foldl (fun st n => st.eoForward n) s4
      (((List.range 8).foldl (fun st i => st.tmrStep i) a).waitsPassed w).timedSkipped (ofNs ((s.time.now : Int) - w).toNat)
    else s4
  s5.gatesFollow

/-- The whole nanoseconds of a step (R273). -/
def stepWhole (span : Int) : Int := (span + 32768) / 65536

/-- The next request to apply: it reached TB in an earlier tick, oldest tick first, in the order of R274. (DEDUCED, log entry 25.) -/
def stepPick (now : Nat) : List StepReq → Option StepReq
  | [] => none
  | r :: t => match stepPick now t with
    | none => if r.tick < now then some r else none
    | some p => if now ≤ r.tick ∨ p.tick < r.tick ∨ (p.tick = r.tick ∧ p.src.order < r.src.order) then some p else some r

/-- Both counters load one value (R55): the instant after device time moved by `w` ns; time-valid becomes 1 (R53). (DEDUCED, log entry 24.) -/
def State.moveTime (s : State) (w : Int) (phi : Int) : State :=
  let t := s.time
  let n := ((t.now : Int) + w).toNat
  let p := ctrOf n
  let c := ctrLoad (ctrInc p)
  s.setTime { t with
    a := c, b := c, pa := p, pb := p, reloadA := false, reloadB := false, now := n, valid := true, subNs := t.subNs + phi }

/-- The request that a tick has yet to apply: at most one step per tick (R274). -/
def State.stepDue (s : State) : Option StepReq :=
  if !s.time.run ∨ s.time.stepTick = some s.tickNo then none else stepPick s.tickNo s.time.reqs

/-- TB_SEC is raised at a tick whose NS is 0 (R290). -/
def State.secTick (s : State) : State := s.raiseIf (decide (s.time.now % nsPerSec = 0)) Prod.tbSec s.nowI 0

/-- A request is applied (R55, R273, R275). (DEDUCED, log entry 25; DEDUCED, log entry 29.) -/
def State.stepApply (s : State) (r : StepReq) : State :=
  let s1 := s.setTime { s.time with reqs := dropFirst r s.time.reqs }
  match r.ask with
  | .by_ d =>
    if d = 0 then s1
    else if (addSpan s1.nowI d).2 then s1.fon F.tbStat_STEP_SAT
    else
      let w := stepWhole d
      let s2 := (s1.moveTime w (d - 65536 * w)).stepped w d
      if r.src = .bw then s2.bwStepped d else s2
  | .to_ v =>
    let d : Int := (v : Int) - (s1.time.now : Int) * 262144
    if d = 0 then s1
    else
      let w := (d + 131072) / 262144
      (s1.moveTime w (rne (d - 262144 * w) 4)).stepped w (rne d 4)

/-- TIME_STEP_APPLY (R55, R273 to R275, R290): the tick's request; once the tick has none left, TB_SEC by the time it has come to. -/
def State.timeStepApply (s : State) : State :=
  match s.stepDue with
  | none => s
  | some r =>
    let s1 := s.stepApply r
    if s1.stepDue.isNone then s1.secTick else s1

/-- A commit of TB_STEP (R275). (DEDUCED, log entry 29.) -/
def State.tbStepCommit (s : State) (q : Requester) (w : Nat) : State :=
  if !s.fbit F.tbCtl_SWSTEP_EN then s.fon F.tbStat_WR_ERR
  else
    let d := s64Of w
    let s1 := s.rset ⟨.tbStep, 0, 0, 0⟩ (w % 2 ^ 64)
    if (addSpan s1.nowI d).2 then s1.fon F.tbStat_STEP_SAT
    else if d = 0 then s1
    else s1.setTime { s1.time with reqs := s1.time.reqs ++ [⟨.sw q, .by_ d, s1.tickNo⟩] }

/-- A commit of TB_SET (R36, R275). -/
def State.tbSetCommit (s : State) (q : Requester) (w : Nat) : State :=
  if !s.fbit F.tbCtl_SWSTEP_EN then s.fon F.tbStat_WR_ERR
  else match unpackT96 (w % 2 ^ 96) with
    | none => s.fon F.tbStat_WR_ERR
    | some t =>
      let s1 := s.rset ⟨.tbSet, 0, 0, 0⟩ (w % 2 ^ 96)
      s1.setTime { s1.time with reqs := s1.time.reqs ++ [⟨.sw q, .to_ t, s1.tickNo⟩] }

/-- A commit of TB_NCO_SW (R43, R272): clamped; it is the word while software steers. -/
def State.ncoSwCommit (s : State) (w : Nat) : State :=
  let c := clampY48 (y48Of w)
  let s1 := (s.rset ⟨.tbNcoSw, 0, 0, 0⟩ (bitsOf 48 c.1)).fonIf c.2 F.tbStat_CLAMP
  if s1.fbit F.tbCtl_NCO_SRC then s1.setTime { s1.time with yNext := some c.1 } else s1

/-- NCO_SRC has changed (R272, R317): the other source's word takes effect at the next XO_IN edge. -/
def State.ncoSrcChanged (s : State) : State :=
  if s.fbit F.tbCtl_NCO_SRC then
    (s.setTime { s.time with yNext := some (y48Of (s.fget F.tbNcoSw_Y)) }).bwSwNco
  else (s.setTime { s.time with yNext := some s.bw.y }).fset F.bwStat_SW_NCO 0

/-! ### The time bus (R57, R58) -/

/-- The word of a tick (R57). -/
def busWord (now seq : Nat) (deg valid : Bool) : Nat :=
  let w := seq % 16 * 2 ^ 59 + bnat deg * 2 ^ 58 + bnat valid * 2 ^ 57 + now / nsPerSec % 65536 * 2 ^ 30 + now % nsPerSec
  w + bnat (parity 63 w) * 2 ^ 63

/-- The word on the bus now. -/
def State.timeBus (s : State) : Nat := busWord s.time.now s.time.stepSeq s.deg s.time.valid

/-- A receiver takes a word (R58): its new copy, and whether it reports an error. `now` is what the T96 FIFO holds. -/
def rxTake (c : BusRx) (w now : Nat) : BusRx × Bool :=
  let adv : BusRx := { c with now := c.now + 1 }
  if parity 64 w then (adv, true)
  else
    let seq := w / 2 ^ 59 % 16
    if seq ≠ c.seq then (⟨now, seq⟩, false)
    else if w % 2 ^ 30 = adv.now % nsPerSec ∧ w / 2 ^ 30 % 65536 = adv.now / nsPerSec % 65536 then (adv, false)
    else (adv, true)

/-- TBUS_ERR of a receiver (R58, R421). (DEDUCED, log entry 30.) -/
def State.tbusErr (s : State) (r : Nat) : State :=
  s.report { detected := true, cls := 3, source := srcOf 0x01 (r - 1), code := 0x2301, arg0 := if r = 0 then 0x100 else r - 1, arg1 := 0
             ts := some s.nowI }

/-- A receiving domain is enabled: the fabric always, a port's lanes while the port is (R58). (DEDUCED, log entry 30.) -/
def State.rxOn (s : State) (r : Nat) : Bool := decide (r = 0) || (decide (r ≤ 52) && s.fbit F.ptCfg_EN (r - 1))

/-- The receivers that the word of this tick does not leave as they are: all of them when it breaks the sequence of those that follow the
bus, else those whose copy differs from the bus and those it reaches corrupted. -/
def State.rxWho (s : State) (was : BusRx) (bad : List (Nat × Nat)) : List Nat :=
  if (rxTake was s.timeBus s.time.now).2 then List.range 53
  else (s.time.rx.cells.map fun c => c.1) ++ (bad.map Prod.fst).filter fun r => (s.time.rx.get none r).isNone

/-- The receivers take the word of this tick: `bad` lists those it reaches corrupted, with the bits flipped; `was` is the copy of a
receiver that follows the bus. (DEDUCED, log entry 30.) -/
def State.busReceive (s : State) (was : BusRx) (bad : List (Nat × Nat)) : State :=
  let w := s.timeBus
  let good : BusRx := ⟨s.time.now, s.time.stepSeq⟩
  ((s.rxWho was bad).filter fun r => s.rxOn r).foldl (fun st r =>
    let c := (st.time.rx.get none r).getD was
    let m := ((bad.find? fun b => decide (b.1 = r)).map Prod.snd).getD 0
    let x := rxTake c (w ^^^ (m % 2 ^ 64)) s.time.now
    let s1 := st.setTime { st.time with rx := st.time.rx.put id none r (if x.1 = good then none else some x.1) }
    if x.2 then s1.tbusErr r else s1) s

/-! ### The numerical oscillator (R270 to R272) -/

/-- The clamped limit of a syntonized quad is passed: lane phases count as not measured (R333, R360). -/
def State.syntClamp (s : State) : State :=
  if s.time.y.natAbs ≤ syntLimit then s
  else s.nt.port.cells.foldl (fun st c =>
    if c.2.measured && st.fbit F.lnQuadCtl_SYNT (portQuad c.1) then st.setNtPort c.1 { st.getNtPort c.1 with measured := false } else st) s

/-- A new word takes effect: clamped, and kept in BW_RESTART_Y (R43, R272, R315). -/
def State.takeWord (s : State) : State :=
  match s.time.yNext with
  | none => s
  | some y =>
    let c := clampY48 y
    let s1 := ((s.setTime { s.time with y := c.1, yNext := none }).fonIf c.2 F.tbStat_CLAMP).rset ⟨.bwRestartY, 0, 0, 0⟩ (bitsOf 48 c.1)
    s1.syntClamp

/-- One XO_IN edge (R44, R270, R271, R273). -/
def State.xoEdge (s0 : State) : State :=
  let s := s0.takeWord
  let t := s.time
  let f := steerIncrement t.y t.carry
  let step := rne (t.subNs * 2 ^ 56) 655360
  let ph : Nat := (((t.phase : Int) + f.1 + step) % (2 ^ 56 : Int)).toNat
  let x : Int := (ph : Int) + t.rotRes
  let pos := rne x (2 ^ 42)
  s.setTime { t with xoAge := 0, phase := ph, carry := f.2, subNs := 0, rotPos := (pos % 2 ^ 14).toNat, rotRes := x - pos * 2 ^ 42 }

/-- An XO_IN edge lies Φ cycles after a steered edge, and ten ticks make a cycle: it falls in this tick if the ticks since the last one
are those from the place of that one to its own, with the word, the carry and the step it will take (R270, R273). -/
def State.xoDue (s : State) : Bool :=
  let t := s.time
  let f := (steerIncrement (clampY48 (t.yNext.getD t.y)).1 t.carry).1
  let place (x : Int) : Int := 10 * x / 2 ^ 56
  s.glb.xo && decide (10 + place (t.phase + f + rne (t.subNs * 2 ^ 56) 655360) - place t.phase ≤ t.xoAge)

/-- The XO_IN edge of a tick, if there is one (R270). -/
def State.xoTick (s : State) : State :=
  let s1 := s.setTime { s.time with xoAge := s.time.xoAge + 1 }
  if s1.xoDue then s1.xoEdge else s1

/-! ### TSYN and BPLL (R276 to R280) -/

/-- 16-bit signed field of 0.1 ps. -/
def sat16 (x : Int) : Int := if x > 32767 then 32767 else if x < -32768 then -32768 else x

/-- One comparison of a steered edge with its tick edge (R277, R280): the error in 0.1 ps; none when the edge failed to arrive. (PRESUMED, log entry 27.) -/
def State.tsynCompare (s : State) (err : Option Int) : State :=
  let t := s.tsyn
  match err with
  | none =>
    (s.fon F.synStat_REF_LOSS).setTsyn { t with locked := false, declared := true, goodSince := none, hist := (true :: t.hist).take 8 }
  | some e =>
    let out := decide (500 < e.natAbs)
    let hist := (out :: t.hist).take 8
    let lost := decide (2500 < e.natAbs) || decide (4 ≤ hist.count true)
    let relock := decide (hist.length = 8) && !hist.contains true
    let t1 : TsynSt := { t with
      perr := sat16 e, hist := hist
      locked := if lost then false else t.locked || relock
      everLocked := t.everLocked || (relock && !lost)
      declared := t.declared || lost
      goodSince := if out then none else some (t.goodSince.getD s.tickNo)
      lockfLow := if out then s.tickNo + 4 else t.lockfLow }
    (if out then s.cnt .synTsynCntExc else s).setTsyn t1

/-- The timebase moves to BPLL (R277, R279): SWAP, CNT_SWAP, TSYN_LOCK, DEG; CAL stops (R252). (DEDUCED, log entry 28.) -/
def State.toBpll (s : State) : State :=
  ((((s.setTsyn { s.tsyn with src := .bpll, declared := false }).fon F.synTsynStat_SWAP).cnt .synCntSwap).raiseEv
    Prod.tsynLock s.nowI 0).calDegOn

/-- TSYN_SWAP (R277): a masked fault with source TSYN. -/
def State.tsynSwap (s : State) : State :=
  if s.tsyn.src = .tsyn ∧ s.tsyn.declared then
    (s.toBpll.report { detected := false, cls := 5, source := srcOf 0x02 0, code := 0x1501, arg0 := 0, arg1 := 0, ts := some s.nowI
                       upstream := true })
  else s

/-- FORCE_BPLL acts at the next tick (R279). (DEDUCED, log entry 28.) -/
def State.forceTick (s : State) : State :=
  if s.fbit F.synTsynCtl_FORCE_BPLL ∧ s.tsyn.src = .tsyn then s.toBpll else s

/-- The conditions of a return to TSYN (R279): RET_HOLD = 0 asks nothing of the comparisons. -/
def State.returnOk (s : State) : Bool :=
  s.fbit F.synTsynCtl_RET_EN && !s.fbit F.synTsynCtl_FORCE_BPLL && decide (s.tsyn.src = .bpll) &&
  decide (s.tsyn.aerr.natAbs ≤ 50) &&
  (decide (s.fget F.synTsynCtl_RET_HOLD = 0) ||
    match s.tsyn.goodSince with
    | some t => decide (t + s.fget F.synTsynCtl_RET_HOLD * 1000000 ≤ s.tickNo)
    | none => false)

/-- TSYN_RETURN (R252, R279). -/
def State.tsynReturn (s : State) : State :=
  if s.returnOk then ((s.setTsyn { s.tsyn with src := .tsyn, declared := false }).raiseEv Prod.tsynLock s.nowI 0).calDegOff else s

/-- LOCKF is low (R280). -/
def State.lockfLow (s : State) : Bool := !s.time.run || !s.tsyn.everLocked || decide (s.tickNo < s.tsyn.lockfLow)

/-- XO_LOSS (R278, R411, R425). (DESIGN CHOICE, log entry 5; PRESUMED, log entry 70.) -/
def State.xoLoss (s : State) : State :=
  if !s.glb.xo then s
  else
    let f := s.fresh
    let s1 := (f.2.setGlb { f.2.glb with xo := false, aonRc := true, xoLost := true }).fon F.synStat_XO_LOSS
    let s2 := if s1.time.run then s1 else s1.setTime { s1.time with rcDuring := true }
    s2.report { detected := true, cls := 5, source := srcOf 0x02 0, code := 0x2502, arg0 := 0, arg1 := f.1 % 2 ^ 32, ts := none, upstream := true }

/-- XO_RETURN (R425): where its edges lie among the ticks is open (a free value, log entry 5). After a loss that was reported the record
CLEARED of R421 is entered. (DEDUCED, log entry 98.) -/
def State.xoReturn (s : State) : State :=
  if s.glb.xo then s
  else
    let f := s.fresh
    let s1 := (f.2.setTime { f.2.time with xoAge := f.1 % 10 }).setGlb { s.glb with xo := true, aonRc := false, xoLost := false }
    if s.glb.xoLost then s1.offerBbr { source := srcOf 0x02 0, code := 0x0001, arg0 := 5, arg1 := 0, ts := none } else s1

/-! ### The tick (R52) -/

/-- The phase after the tick, before it wraps (R285, R287). -/
def OsynSt.ahead (o : OsynSt) : Int := o.p + o.fx + if o.ramping ∧ 0 < o.left then o.h else 0

/-- φ passes a whole number in this tick: the output rises (R285). -/
def OsynSt.rises (o : OsynSt) : Bool := o.started && decide (((o.fd * 1000000000 * 2 ^ 32 : Nat) : Int) ≤ o.ahead)

/-- The output synthesizers advance by one tick (R285, R287): a locked channel whose output is held starts it at a rising edge (R286, R288). -/
def OsynSt.tick (o : OsynSt) : OsynSt :=
  if o.started then
    let run := o.running || (decide (o.st = .locked) && o.rises)
    let gone := if o.origin.isSome then o.gone + 1 else 0
    if o.ramping ∧ 0 < o.left then { o with p := o.wrap o.ahead, fx := o.fx + 2 * o.h, left := o.left - 1, running := run, gone := gone }
    else { o with p := o.wrap o.ahead, running := run, gone := gone }
  else o

/-- The counters advance, are evaluated, and device time goes out (R52, R54, R55): from TIME_FAULT up to the evaluation that finds all well,
that one included, a value that is not the one due is a step. (DEDUCED, log entry 24.) -/
def State.timeAdvance (s : State) (o : TickObs) : State :=
  let t := s.time
  let e := timeEval (decide (t.a.val = t.b.val)) (t.a.passes t.pa) (t.b.passes t.pb) t.suspA t.suspB
  let out := ctrNs (if e.useA then t.a.val else t.b.val)
  let due := ctrNs (ctrInc (ctrOf t.now))
  let eq := decide (t.a.val = t.b.val)
  let a1 := if t.reloadA then { ctrLoad (ctrInc t.b.val) with exempt := true } else t.a.next
  let b1 := if t.reloadB then { ctrLoad (ctrInc t.a.val) with exempt := true } else t.b.next
  let s1 := s.setTime { t with
    a := a1.upset o.upA o.parA, b := b1.upset o.upB o.parB, pa := t.a.val, pb := t.b.val
    suspA := if eq then e.badA else t.suspA || e.badA
    suspB := if eq then e.badB else t.suspB || e.badB
    reloadA := e.badA, reloadB := e.badB
    faultOn := !e.clean && (t.faultOn || e.fault)
    ovf := decide (ctrMax ≤ t.a.val)
    now := out }
  let rep (st : State) (det : Bool) (code arg : Nat) : State :=
    st.report { detected := det, cls := 2, source := srcOf 0x01 0, code := code, arg0 := arg, arg1 := 0, ts := some st.nowI }
  let s2 := if e.masked then rep s1 false 0x1201 (if e.badA then 0 else 1) else s1
  let s3 := if e.fault && !t.faultOn then rep s2 true 0x2202 0 else s2
  let s4 := if decide (ctrMax ≤ t.a.val) && !t.ovf then rep s3 true 0x2203 0 else s3
  let d : Int := (out : Int) - due
  if (t.faultOn || e.fault) && decide (d ≠ 0) then s4.stepped d (d * 65536) else s4

/-- Events leave the Droveway once every channel has had its tick; register values that have gone out of force are forgotten. (DEDUCED, log entry 44.) -/
def State.evqPrune (s : State) : State := s.setDw { s.dw with
  evq := s.dw.evq.filter fun e => decide (s.tickNo < e.tick + 4), late := s.dw.late.filter fun l => decide (s.tickNo < l.from_) }

/-- The period of the spread modulation in ticks: 32 µs (R284). -/
def spreadPeriod : Nat := 32000

/-- TICK (R52 to R58, R270 to R280, R285, R290). -/
def State.tick (s : State) (o : TickObs) : State :=
  if !s.time.run then s
  else
    let was : BusRx := ⟨s.time.now, s.time.stepSeq⟩
    let s0 : State := { s with tickNo := s.tickNo + 1, cyc := {} }
    let s0 := s0.raiseDue.dropHeld
    let s1 := if o.aon then s0.setGlb { s0.glb with aonCycle := s0.glb.aonCycle + 1 } else s0
    let s2 := s1.timeAdvance o
    let steered := decide (s2.time.now % 10 = s2.time.xoPh)
    let s3 := if steered then (s2.setTime { s2.time with yShown := s2.time.y }).tsynCompare o.err else s2
    let s4 := s3.xoTick
    let s5 := if o.guard ∧ s4.tsyn.src = .tsyn then
        (s4.fon F.synTsynStat_GUARD).setTsyn { s4.tsyn with declared := true }
      else s4
    let s6 := s5.setTsyn { s5.tsyn with aerr := if s5.tsyn.locked then sat16 o.aerr else s5.tsyn.aerr }
    let s7 := s6.forceTick
    let s8 := if s7.stepDue.isSome ∨ s7.time.now = was.now then s7 else s7.secTick
    let s9 := s8.busReceive was o.bus
    let s10 := ((s9.eo.cells.filter fun c => c.2.engine.isSome).map fun c => c.1).foldl (fun st n => st.engTick n) s9
    let s10 := ((s10.tiu.cells.filter fun c => !c.2.ins.isEmpty).map fun c => c.1).foldl (fun st u => st.tiuTick u) s10
    let s10 := (s10.talTick.calTick o.dither o.work).mbWork o.work
    let s11 : State := { s10 with osyn := ⟨s10.osyn.cells.map fun c => (c.1, c.2.tick)⟩ }
    let s12 := if s11.tickNo % spreadPeriod = 0 then
        s11.setCsyn { s11.csyn with ssMode := s11.fget F.synCsynCtl_SS_MODE, ssDepth := s11.fget F.synCsynCtl_SS_DEPTH }
      else s11
    s12.evqPrune

end Sys2Proof.Machine
end

