-- ==== Sys2Proof/Machine/SynOps.lean ====
section
/-! DEFINITION. The fabric synthesizer CSYN and the output synthesizers OSYN0 to OSYN3 (R281 to R288). -/

namespace Sys2Proof.Machine

/-! ### CSYN (R281 to R284) -/

/-- First and last frequency of a band in Hz (R282). -/
def csynBand (b : Nat) : Nat × Nat :=
  if b = 0 then (1000000000, 1120000000) else if b = 1 then (1080000000, 1220000000)
  else if b = 2 then (1180000000, 1320000000) else (1280000000, 1350000000)

/-- CSYN's frequency in Hz, without spread: a ramp at RATE kHz/µs, which is RATE Hz per tick, that stops at its target and at the edge of the
band (R281, R282). -/
def State.csynFreq (s : State) : Nat :=
  let c := s.csyn
  if !c.ramp || c.relock || c.onTb then c.from_
  else
    let d := s.fget F.synCsynCtl_RATE * (s.tickNo - c.fromTick)
    let b := csynBand c.band
    if c.from_ ≤ c.target then min (c.from_ + d) (min c.target b.2) else max (c.from_ - d) (max c.target b.1)

/-- Deviation of a triangle of 32 µs in 1/16,000 of its depth: downward from 0 at the start of the period to −16,000 in its middle, centred
from 0 by +16,000 and −16,000. (DESIGN CHOICE, log entry 96.) -/
def spreadTri (mode t : Nat) : Int :=
  if mode = 1 then (if t ≤ 16000 then -(t : Int) else (t : Int) - 32000)
  else if mode = 2 then 2 * (if t ≤ 8000 then (t : Int) else if t ≤ 24000 then 16000 - (t : Int) else (t : Int) - 32000)
  else 0

/-- CSYN's frequency in Hz with spread: SS_DEPTH counts 0.05 %, and spread is suspended during a band change (R284). -/
def State.csynSpread (s : State) : Nat :=
  let f := s.csynFreq
  if s.csyn.relock || s.csyn.onTb then f
  else ((f : Int) + rne (f * s.csyn.ssDepth * spreadTri s.csyn.ssMode (s.tickNo % spreadPeriod)) (2000 * 16000)).toNat

/-- The frequency of the FAB clock in Hz (R282, R284): the timebase's while CSYN relocks. -/
def State.fabFreq (s : State) : Nat := if s.csyn.onTb then 1000000000 else s.csynSpread

/-- A write of SYN_CSYN_CTL that changes the target or the rate (R281); `f` is the frequency before it. -/
def State.csynWritten (s : State) (f : Nat) : State :=
  let t := s.fget F.synCsynCtl_TGT * 1000000
  s.setCsyn { s.csyn with
    from_ := f, fromTick := if s.csyn.relock then s.csyn.fromTick else s.tickNo, target := t, ramp := decide (f ≠ t) }

/-- CSYN_BAND is raised with the tick of the multiplexer switch (R290). -/
def State.csynEv (s : State) : State := s.raiseEv Prod.csynBand s.nowI 0

/-- FAB moves to the timebase while CSYN relocks in band `b` at frequency `f` (R282, R283). -/
def State.csynMove (s : State) (f b : Nat) : State :=
  (s.setCsyn { s.csyn with from_ := f, fromTick := s.tickNo, relock := true, onTb := true, nextBand := b, failed := false }).csynEv

/-- CSYN_BAND_CHANGE (R282): the ramp has reached the edge of its band short of its target. -/
def State.csynBandChange (s : State) : State :=
  let c := s.csyn
  let f := s.csynFreq
  let b := csynBand c.band
  if !c.ramp || c.onTb || !s.time.run then s
  else if c.target > b.2 && decide (f = b.2) && decide (c.band < 3) then s.csynMove f (c.band + 1)
  else if c.target < b.1 && decide (f = b.1) && decide (0 < c.band) then s.csynMove f (c.band - 1)
  else s

/-- CSYN_RELOCK_DONE (R282). -/
def State.csynRelocked (s : State) : State :=
  let c := s.csyn
  if !c.relock then s
  else (s.setCsyn { c with relock := false, onTb := false, failed := false, band := c.nextBand, fromTick := s.tickNo }).csynEv

/-- CSYN_BAND_FAIL (R282): no lock within 20 µs. -/
def State.csynBandFail (s : State) : State :=
  let c := s.csyn
  if c.relock ∧ c.fromTick + 20000 ≤ s.tickNo then
    (s.setCsyn { c with relock := false, failed := true, failTick := s.tickNo }).fon F.synCsynStat_BAND_FAIL
  else s

/-- CSYN_RETRY (R282): 1 ms after a failed relock. -/
def State.csynRetry (s : State) : State :=
  let c := s.csyn
  if c.failed ∧ c.failTick + 1000000 ≤ s.tickNo then s.setCsyn { c with relock := true, failed := false, fromTick := s.tickNo } else s

/-- CSYN_GUARD_MOVE (R283): `n` edges are removed now; `long`: an interval above 1.2 ns. -/
def State.csynGuard (s : State) (n : Nat) (long : Bool) : State :=
  let c := s.csyn
  let rem := (List.replicate (min n 17) s.tickNo ++ c.removed.filter fun t => decide (s.tickNo < t + 1000)).take 17
  let s1 := (((s.setCsyn { c with removed := rem }).cntAdd .synCsynCntGuard n)).fonIf (decide (0 < n)) F.synCsynStat_GUARD
  if !c.onTb && (decide (16 < rem.length) || long) then
    let s2 := s1.csynMove s.csynFreq c.band
    s2.setCsyn { s2.csyn with removed := [] }
  else s1

/-- CSYN_RAMP_DONE (R281). -/
def State.csynRampDone (s : State) : State :=
  let c := s.csyn
  if c.ramp ∧ !c.onTb ∧ s.csynFreq = c.target then s.setCsyn { c with ramp := false, from_ := c.target, fromTick := s.tickNo } else s

/-! ### OSYN (R285 to R288) -/

/-- Result codes of SYN_OSYN_STAT.RES (R294). -/
def State.osynRes (s : State) (i code : Nat) : State := s.fset F.synOsynStat_RES code i

/-- Q = FD · 10^9, scaled by 2^32 (R285, R287). -/
def OsynSt.q (o : OsynSt) : Nat := o.fd * 1000000000 * 2 ^ 32

/-- FN / FD lies between 1 kHz and 1.5 GHz (R285). -/
def freqOk (fn fd : Nat) : Bool := decide (0 < fd) && decide (1000 * fd ≤ fn) && decide (fn ≤ 1500000000 * fd)

/-- The even output divider, from 4 to 2^23, that brings the oscillator to 4.0 GHz or just above. (DESIGN CHOICE, log entry 31.) -/
def osynDiv (fn fd : Nat) : Nat :=
  if fn = 0 then 4
  else
    let d := (4000000000 * fd + fn - 1) / fn
    max 4 (d + d % 2)

/-- The oscillator frequency of a definition lies within a tuning range. -/
def bandHolds (e : BandEnt) (fn fd div : Nat) : Bool := decide (e.lo * fd ≤ fn * div) && decide (fn * div ≤ e.hi * fd)

/-- OSYN_LOCK(i) is raised at each change between locked and not locked (R290). -/
def State.osynGoto (s : State) (i : Nat) (o : OsynSt) : State :=
  let was := decide ((s.getOsyn i).st = .locked)
  (s.setOsyn i o).raiseIf (was != decide (o.st = .locked)) (Prod.osynLock i) s.nowI 0

/-- The phase of a definition at a whole nanosecond of device time (R285): p at the anchor, then FN a tick. -/
def osynPhase (fn fd phase0 anchor now : Nat) : Nat :=
  let q := fd * 1000000000
  let p0 := rne ((phase0 * q : Nat) : Int) (2 ^ 32)
  ((p0 + fn * ((now : Int) - anchor)) % (max q 1 : Nat)).toNat

/-- APPLY (R286). (DEDUCED, log entry 32.) -/
def State.osynApply (s : State) (i : Nat) : State :=
  let fn := s.fget F.synOsynFn_FN i
  let fd := s.fget F.synOsynFd_FD i
  let a := (unpackT96 (s.fget F.synOsynAnchor_A i)).getD 0
  if !freqOk fn fd then s.osynRes i 1
  else if a % lsbPerNs ≠ 0 then s.osynRes i 2
  else if !s.fbit F.synOsynCtl_EN i then s.osynRes i 6
  else
    let o := s.getOsyn i
    let ph := s.fget F.synOsynPhase0_PHASE0 i
    let hit := o.cache.any fun e => bandHolds e fn fd (osynDiv fn fd)
    (s.osynRes i 0).osynGoto i { o with
      st := .hopping, fn := fn, fd := fd, anchor := a, phase0 := ph, p := osynPhase fn fd ph (nsOf a) s.time.now * 2 ^ 32
      fx := fn * 2 ^ 32, running := false, started := true, hit := hit, band := none, rampAt := none, ramping := false, h := 0, left := 0
      origin := none, gone := 0, bypass := 0 }

/-- OSYN_LOCK_DONE (R286): from the cache, or after a search that found the tuning range given; the output starts at the next rising edge. -/
def State.osynLockDone (s : State) (i lo hi : Nat) : State :=
  let o := s.getOsyn i
  if o.st ≠ .hopping then s
  else
    let div := osynDiv o.fn o.fd
    let e := (o.cache.find? fun e => bandHolds e o.fn o.fd div).getD ⟨lo, hi⟩
    s.osynGoto i { o with
      st := .locked, running := false, band := some e, cache := (e :: o.cache.filter fun x => decide (x ≠ e)).take 16 }

/-- The segments of a ramp, from `k`: whether every segment-end frequency is allowed, from numerator `fx` (R287). -/
def State.rampOk (s : State) (i : Nat) (o : OsynSt) : Nat → Nat → Int → Bool
  | 0, _, _ => true
  | n + 1, k, fx =>
    let dur := s.fget F.synOsynSeg_DUR i k
    let h := s64Of (s.fget F.synOsynSeg_H i k)
    let fx1 := fx + 2 * h * dur
    let div := osynDiv o.fn o.fd
    let den : Int := o.fd * 2 ^ 32
    if dur = 0 then s.rampOk i o n (k + 1) fx
    else decide (0 ≤ fx1) && decide (1000 * den ≤ fx1) && decide (fx1 ≤ 1500000000 * den) &&
      (match o.band with
       | some e => decide (e.lo * den ≤ fx1 * div) && decide (fx1 * div ≤ e.hi * den)
       | none => false) && s.rampOk i o n (k + 1) fx1

/-- RAMP (R287): the segments are judged from the frequency the channel will have at RAMPT. (DEDUCED, log entry 32.) -/
def State.osynRamp (s : State) (i : Nat) : State :=
  let o := s.getOsyn i
  let rt := (unpackT96 (s.fget F.synOsynRampt_RT i)).getD 0
  let n := s.fget F.synOsynCtl_RCOUNT i
  let there := o.seek (s.osynTable i) ((nsOf rt : Int) - s.time.now)
  if rt < s.nowI + 1000 * lsbPerNs then s.osynRes i 3
  else if rt % lsbPerNs ≠ 0 then s.osynRes i 2
  else if o.st ≠ .locked then s.osynRes i 5
  else if !s.rampOk i o n 0 there.fx then s.osynRes i 4
  else if n = 0 then s.osynRes i 0
  else (s.osynRes i 0).setOsyn i { o with rampAt := some rt, rampN := n }

/-- The next segment of a ramp whose length is not 0, from `k` (R287). -/
def State.nextSeg (s : State) (i : Nat) : Nat → Nat → Option Nat
  | 0, _ => none
  | n + 1, k => if s.fget F.synOsynSeg_DUR i k = 0 then s.nextSeg i n (k + 1) else some k

/-- Enter a segment, or end the ramp: the frequency then holds. -/
def State.segFrom (s : State) (i k : Nat) : State :=
  let o := s.getOsyn i
  match s.nextSeg i (o.segs - k) k with
  | some j => s.setOsyn i { o with
      ramping := true, seg := j, left := s.fget F.synOsynSeg_DUR i j, h := s64Of (s.fget F.synOsynSeg_H i j) }
  | none => s.setOsyn i { o with ramping := false, h := 0, left := 0 }

/-- OSYN_RAMP_START (R287): from the phase and the frequency at RAMPT, also where a step has carried device time past it. -/
def State.osynRampStart (s : State) (i : Nat) : State :=
  let o := s.getOsyn i
  match o.rampAt with
  | some t =>
    if t ≤ s.nowI then
      let w : Int := (s.time.now : Int) - nsOf t
      let r := o.seek (s.osynTable i) (-w)
      let o1 := { r with rampAt := none, rampN := 0, segs := o.rampN, origin := some (nsOf t, r.p, r.fx), gone := 0 }
      s.setOsyn i (o1.seek (s.osynTable i) w)
    else s
  | none => s

/-- OSYN_SEGMENT_END (R287). -/
def State.osynSegEnd (s : State) (i : Nat) : State :=
  let o := s.getOsyn i
  if o.ramping ∧ o.left = 0 then s.segFrom i (o.seg + 1) else s

/-- OSYN_LOSS_OF_LOCK (R288). (DEDUCED, log entry 32.) -/
def State.osynLol (s : State) (i : Nat) : State :=
  let o := s.getOsyn i
  if o.st ≠ .locked then s
  else
    let b := s.fget F.synOsynCtl_BYPASS i
    (s.fon F.synOsynStat_LOL i).osynGoto i { o with st := .bypass, bypass := b, running := decide (b = 2) }

/-- OSYN_RELOCK (R288): from LOW and DIV the output rejoins at a rising edge. -/
def State.osynRelock (s : State) (i : Nat) : State :=
  let o := s.getOsyn i
  if o.st ≠ .bypass then s else s.osynGoto i { o with st := .locked }

/-- The level of CKOUTi (R285, R286, R288): by φ while the output follows it, else as BYPASS says; open loop, the oscillator's own, none. -/
def State.ckout (s : State) (i : Nat) : Option Bool :=
  let o := s.getOsyn i
  let div := s.fget F.synOsynCtl_BYP_DIV i
  if o.st = .off ∨ o.st = .hopping then some false
  else if o.st = .locked ∧ o.running then some (decide (2 * o.p < o.fd * 1000000000 * 2 ^ 32))
  else if o.bypass = 1 then some (decide (2 * (s.time.now % nsPerSec % div) < div))
  else if o.bypass = 2 then none
  else some false

/-- EN is written to 0 (R294). -/
def State.osynOff (s : State) (i : Nat) : State :=
  let o := s.getOsyn i
  s.osynGoto i { o with st := .off, running := false, started := false, rampAt := none, ramping := false, h := 0, left := 0, origin := none }

/-- A write of SYN_OSYN_CMD (R294): APPLY and RAMP together are out of range. -/
def State.osynCmd (s : State) (i w : Nat) : State :=
  if bit w 0 ∧ bit w 1 then s.fon F.synStat_WR_ERR
  else if bit w 0 then s.osynApply i
  else if bit w 1 then s.osynRamp i
  else s

end Sys2Proof.Machine
end

