-- ==== Sys2Proof/Machine/ResetOps.lean ====
section
/-! DEFINITION. Resets, supplies, the AON shadow and the start of the timebase (R30 to R34, R53, R453, R470 to R472). -/

namespace Sys2Proof.Machine

/-- Something holds the core in reset (R30, R470). (DEDUCED, log entry 16.) -/
def State.rstHeld (s : State) : Bool := s.glb.pinLow || s.glb.por || s.glb.thermal || s.glb.boundary || !s.glb.vaux

/-! ### Registers that survive (R30, R425, R429) -/

/-- Registers that a pin reset leaves untouched; the straps stay until RESET_N next rises (R453). -/
def pinKeeps (k : RegKey) : Bool :=
  match k.r.info.blk with
  | .flt => true
  | .mon => true
  | _ => decide (k.r = .glbRstCause) || decide (k.r = .glbStrap)

/-- Registers that a warm reset leaves untouched: those of the AON domain, and the RWS field of Bellwether. -/
def warmKeeps (k : RegKey) : Bool :=
  pinKeeps k || decide (k.r.info.blk = .bbr) || decide (k.r = .bwRestartY)

/-- The AON shadow takes over from device time (R30). (DEDUCED, log entry 20.) -/
def State.shadowBegin (s : State) (t : TimeSt) : TimeSt :=
  let o := s.time
  if o.run then
    { t with shadow := o.now * 2 ^ 56 / 10, shadowY := o.y, shadowCarry := o.carry, rcDuring := s.glb.aonRc }
  else { t with shadow := o.shadow, shadowY := o.shadowY, shadowCarry := o.shadowCarry, rcDuring := o.rcDuring || s.glb.aonRc }

/-- The pins' levels stay: they belong to the environment. (DEDUCED, log entry 19.) -/
def Dw.pins (d : Dw) : Dw := { evin := d.evin, evpin := d.evpin, ti := d.ti, ppsin := d.ppsin }

/-- What is common to pin and warm reset: every domain of R30 starts anew; the environment, the AON state and the flash stay. (DEDUCED, log entry 19.) -/
def State.coreReset (s : State) (keep : RegKey → Bool) : State :=
  { State.reset with
    regs := s.regs.keep keep
    resp := s.resp, tickNo := s.tickNo, free := s.free
    dw := s.dw.pins
    time := s.shadowBegin {}
    bbr := s.bbr, flt := s.flt
    glb := { s.glb with barReady := false, fwRun := false, limited := false, dramReady := false, dramFault := false }
    host := { smbAddr := s.host.smbAddr, jtag := s.host.jtag, svnRaised := s.host.svnRaised }
    msix := s.msix, hostMem := s.hostMem, flash := s.flash
    pending := s.pending }

/-- Pin reset as R30 gives it; the spill ring starts anew (R425). (DESIGN CHOICE, log entry 3.) -/
def State.pinCore (s : State) : State :=
  let s1 := s.coreReset pinKeeps
  s1.setBbr { s1.bbr with spill := 0 }

/-- A Drover of which only the memories are left (R207). -/
def Drover.memOnly (d : Drover) : Drover := { imem := d.imem, dmem := d.dmem }

/-- Warm reset as R30 gives it: DRAM and the Drover memories stay, the word in force is RESTART_Y, time-valid stays (R53, R207, R318). -/
def State.warmCore (s : State) : State :=
  let s1 := s.coreReset warmKeeps
  let y := (clampY48 (y48Of (s1.fget F.bwRestartY_Y))).1
  let s2 : State := { s1 with
    dram := s.dram
    drv := s.drv.mapVals {} Drover.memOnly }
  (s2.setTime { s2.time with valid := s.time.valid, y := y }).setBw { s2.bw with y := y }

/-- A reset is entered in the black box with its cause, and its GLB_RST_CAUSE bit is set (R34). -/
def State.resetCause (s : State) (cause : Nat) : State :=
  ((s.rset ⟨.glbRstCause, 0, 0, 0⟩ (s.rget ⟨.glbRstCause, 0, 0, 0⟩ ||| 2 ^ cause)).hwMark ⟨.glbRstCause, 0, 0, 0⟩ (2 ^ cause)).offerBbr
    { source := srcOf 0x10 0, code := 0x3001, arg0 := 2 ^ cause, arg1 := 0, ts := none }

/-- A reset of a level starts (R32): absorbed while a broader one is in progress. (DEDUCED, log entry 16.) -/
def State.resetBegin (s : State) (lvl : RstLevel) (cause : Nat) (core : State → State) : State :=
  if s.rstHeld ∧ lvl.rank < s.glb.level.rank then s
  else
    let s1 := core s
    (s1.setGlb { s1.glb with level := if s.glb.level.rank < lvl.rank then lvl else s.glb.level }).resetCause cause

/-- Pin reset from one of its sources (R30): GLB_RST_CAUSE bits 1 POR, 2 PIN, 5 THERMAL, 6 JTAG. -/
def State.pinReset (s : State) (cause : Nat) : State := s.resetBegin .pin cause State.pinCore

/-- PIN_RESET: RESET_N is low for at least 1 µs. -/
def State.pinLow (s : State) : State :=
  if s.glb.pinLow then s
  else
    let s1 := s.pinReset 2
    s1.setGlb { s1.glb with pinLow := true }

/-- PIN_RESET_RELEASE (R453, R470, R471): the straps are sampled: LIMITED over SMB_ADDR. -/
def State.pinRelease (s : State) (straps : Nat) : State :=
  if s.glb.pinLow ∧ s.glb.vaux then
    (s.rset ⟨.glbStrap, 0, 0, 0⟩ (straps % 16)).setGlb { s.glb with pinLow := false }
  else s

/-- AON cycles in 0.5 ms. (DEDUCED, log entry 22.) -/
def porHold : Nat := 50000

/-- MAIN_RAIL_POR (R470): `low` has a bit for each main rail below 90 % of nominal. (DEDUCED, log entry 22.) -/
def State.mainPor (s : State) (low : Nat) : State :=
  let m := low % 1024
  if m ≠ 0 then
    let s1 := if s.glb.por then s else s.pinReset 1
    s1.setGlb { s1.glb with por := true, rails := m, porSince := none }
  else if !s.glb.por then s
  else match s.glb.porSince with
    | none => s.setGlb { s.glb with rails := 0, porSince := some s.glb.aonCycle }
    | some c => if c + porHold ≤ s.glb.aonCycle then s.setGlb { s.glb with por := false, porSince := none } else s

/-- MAIN_RAIL_LOSS (R425, R472): every main rail falls while VAUX is held. -/
def State.mainLoss (s : State) : State := s.mainPor 1023

/-- What an auxiliary power-on leaves of the old state: the environment, the flash, the fuses. (DEDUCED, log entry 19.) -/
def State.auxCore (s : State) : State :=
  { State.reset with
    tickNo := s.tickNo, free := s.free, msix := s.msix, hostMem := s.hostMem, flash := s.flash, pending := s.pending
    host := { svnRaised := s.host.svnRaised } }

/-- VAUX_LOSS (R472): the device is held in full reset. -/
def State.vauxLoss (s : State) : State :=
  let s1 := s.auxCore
  (s1.setGlb { s1.glb with vaux := false }).setBbr {}

/-- AUX_POWER_ON (R30). (DESIGN CHOICE, log entry 17.) -/
def State.auxPowerOn (s : State) : State := s.auxCore

/-- WARM_RESET (R30, R32): the key is 0xD5; the request is ignored while RESET_N is low. -/
def State.warmReset (s : State) (key : Nat) : State :=
  if key % 256 ≠ 0xD5 then s.fon F.glbErr_WR_ERR
  else if s.glb.pinLow then s
  else s.resetBegin .warm 3 State.warmCore

/-! ### The timebase after a reset -/

/-- AON_SHADOW_ADVANCE (R30): one AON cycle while TB is in reset; the shadow advances with XO_IN. (DEDUCED, log entry 20.) -/
def State.shadowAdvance (s : State) : State :=
  if s.time.run ∨ !s.glb.vaux then s
  else
    let s1 := { s with cyc := {} }.setGlb { s.glb with aonCycle := s.glb.aonCycle + 1 }
    if s.glb.xo then
      let f := steerIncrement s.time.shadowY s.time.shadowCarry
      s1.setTime { s1.time with shadow := ((s.time.shadow : Int) + 2 ^ 56 + f.1).toNat, shadowCarry := f.2 }
    else s1

/-- TIMEBASE_READY (R30, R53, R276, R290, R291): the counters start at zero, or from the AON shadow after a warm reset, at a tick that coincides
with a steered edge. (DEDUCED, log entry 20.) -/
def State.timebaseReady (s : State) : State :=
  if s.rstHeld ∨ s.time.run ∨ !s.glb.xo then s
  else
    let warm := decide (s.glb.level = .warm)
    let v := if warm then ctrOf (s.time.shadow * 10 / 2 ^ 56) else 0
    let s1 := s.setTime { s.time with
      run := true, a := ctrLoad (ctrInc v), b := ctrLoad (ctrInc v), pa := v, pb := v, now := ctrNs v, xoPh := ctrNs v % 10
      valid := warm && s.time.valid && !s.time.rcDuring, rcDuring := false }
    ((s1.setTsyn { src := .tsyn, locked := true, bpllLocked := true, everLocked := true }).setGlb { s1.glb with level := .none }).secTick

/-- BAR_ACCESS_READY (R431). -/
def State.barAccess (s : State) : State := if s.rstHeld then s else s.setGlb { s.glb with barReady := true }

/-- DRAM_TRAINED (R453, R454). -/
def State.dramTrained (s : State) : State := if s.rstHeld then s else s.setGlb { s.glb with dramReady := true }

/-! ### Block resets (R33) -/

/-- The registers of a block, but for some of them, return to their reset values, and what was staged for
them goes (R49). (DEDUCED, log entry 15.) -/
def State.blkRegs (s : State) (b : Blk) (stays : Reg → Bool := fun _ => false) : State :=
  { s with
    regs := s.regs.keep fun k => decide (k.r.info.blk ≠ b) || stays k.r
    staging := s.staging.keep fun k => decide (k.key.r.info.blk ≠ b) }

/-- The tables of the switch core, which the SWPAD block reset keeps (R404). (DEDUCED, log entry 21.) -/
def swTable (r : Reg) : Bool := decide (r = .swMac) || decide (r = .swVlan) || decide (r = .swStream)

/-- SWPAD (R33, R404). (DEDUCED, log entry 21.) -/
def State.blkSwpad (s : State) : State := ((s.blkRegs .sw swTable).blkRegs .pad).swpadClear

/-- TAS (R33, R404). -/
def State.blkTas (s : State) : State := (s.blkRegs .tas).tasClear

/-- NT (R33, R348). -/
def State.blkNt (s : State) : State := (s.blkRegs .nt).ntClear

/-- TAL (R33, R135). -/
def State.blkTal (s : State) : State := (s.blkRegs .tal).setTal { gen := s.tal.gen + 1 }

/-- The tables in force stay with a CAL block reset (R265). -/
def calTable (r : Reg) : Bool := decide (r = .calEoTab) || decide (r = .calTiuTab)

/-- CAL (R33, R265). -/
def State.blkCal (s : State) : State := s.calBlockReset.blkRegs .cal calTable

/-- DRV (R33, R207). -/
def State.blkDrv (s : State) : State :=
  let s1 := s.blkRegs .drv
  { s1 with drv := s1.drv.mapVals {} Drover.memOnly }

/-- DW (R33, R164): events under way are discarded; groups already at a consumer's input stay. (DEDUCED, log entry 21.) -/
def State.blkDw (s : State) : State :=
  let s1 := s.blkRegs .dw
  s1.setDw { s1.dw.pins with inbox := s1.dw.inbox.filter fun g => decide (g.due ≤ s.tickNo) }

/-- A block reset starts: its GLB_BLK_RST bit reads 1 and the block's state goes (R33). It has no bit of GLB_RST_CAUSE and is not entered
in the black box (R34; DESIGN CHOICE, log entry 84). It cuts a function-level reset short (R32). (DEDUCED, log entry 15; DEDUCED, log entry 21.) -/
def State.blockReset (s0 : State) (b : Nat) : State :=
  let s : State := { s0 with host := { s0.host with flrTick := none } }
  let s1 := s.rset ⟨.glbBlkRst, 0, 0, 0⟩ (s.rget ⟨.glbBlkRst, 0, 0, 0⟩ ||| 2 ^ b)
  match b with
  | 0 => s1.blkDw
  | 1 => s1.blkDrv
  | 2 => s1.blkCal
  | 3 => s1.blkTal
  | 4 => s1.blkNt
  | 5 => s1.blkTas
  | 6 => s1.blkSwpad
  | _ => s1.setGlb { s1.glb with dramFault := false }

/-- BLOCK_RESET_DONE (R33). -/
def State.blockResetDone (s : State) (b : Nat) : State :=
  let v := s.rget ⟨.glbBlkRst, 0, 0, 0⟩
  if bit v b then (s.rset ⟨.glbBlkRst, 0, 0, 0⟩ (v - 2 ^ b)).hwMark ⟨.glbBlkRst, 0, 0, 0⟩ (2 ^ b) else s

end Sys2Proof.Machine
end

