-- ==== Sys2Proof/Machine/MonOps.lean ====
section
/-! DEFINITION. The temperature and supply monitors (R414, R426, R428). -/

namespace Sys2Proof.Machine

/-- A signed sQ8.8 temperature. -/
def tempOf (w : Nat) : Int := signedOf 16 w

/-- 125 °C and 115 °C in sQ8.8 (R414). -/
def tempShut : Int := 32000
def tempBack : Int := 29440

/-- The end of a condition is entered as an INFO record (R414, R421). -/
def State.cleared (s : State) (cls idx : Nat) : State :=
  s.offerBbr { source := srcOf 0x0D idx, code := 0x0001, arg0 := cls, arg1 := idx, ts := none }

/-- A condition as two successive samples show it (R414): `now` is this sample, `was` the last, `on` what holds. -/
def twoSamples (now was on : Bool) : Bool := if now = was then now else on

/-- One sensor's sample (R414): above MON_TEMP_HI, detected or ended when seen in two successive samples, and the shutdown limit,
detected in the same way. (DEDUCED, log entry 71.) -/
def State.tempOne (s : State) (i w : Nat) : State :=
  let s0 := s.rset ⟨.monTemp, i, 0, 0⟩ (w % 65536)
  let x := s0.flt
  let above := decide (tempOf (s0.fget F.monTempHi_T) < tempOf w)
  let hot := x.hot.get false i
  let now := twoSamples above (x.hotPrev.get false i) hot
  let atShut := decide (tempShut ≤ tempOf w)
  let shut := x.shut.get false i
  let shutNow := twoSamples atShut (x.shutPrev.get false i) shut
  let s1 := s0.setFlt { x with
    hotPrev := x.hotPrev.put id false i above, hot := x.hot.put id false i now
    shutPrev := x.shutPrev.put id false i atShut, shut := x.shut.put id false i shutNow }
  let s2 := if now && !hot then
      s1.report { detected := true, cls := 8, source := srcOf 0x0D i, code := 0x2801, arg0 := i, arg1 := w % 65536, ts := none }
    else if !now && hot then s1.cleared 8 i
    else s1
  if shutNow && !shut && !s2.glb.thermal then
    (s2.setFlt { s2.flt with shutDue := true }).report
      { detected := true, cls := 8, source := srcOf 0x0D i, code := 0x2802, arg0 := i, arg1 := w % 65536, ts := none }
  else s2

/-- The latest measurement of a sensor. -/
def State.tempNow (s : State) (i : Nat) : Int := tempOf (s.fget F.monTemp_T i)

/-- A fault of a code still waits to be taken by the fault monitor or to enter the black box. -/
def State.awaitsRecord (s : State) (code : Nat) : Bool :=
  s.flt.reports.any (fun f => decide (f.code = code)) || s.bbr.queue.any fun r => decide (r.code = code)

/-- Thermal shutdown (R414): the hold begins once TEMP_SHUT is recorded and ends when every sensor reads below 115 °C. (DEDUCED, log entry 71.) -/
def State.thermalCheck (s : State) : State :=
  if s.glb.thermal then
    if (List.range 12).all fun i => decide (s.tempNow i < tempBack) then s.setGlb { s.glb with thermal := false } else s
  else if s.flt.shutDue && !s.awaitsRecord 0x2802 then
    let s1 := (s.setFlt { s.flt with shutDue := false }).pinReset 5
    s1.setGlb { s1.glb with thermal := true }
  else s

/-- MON_TEMP_SAMPLE (R414): the twelve readings. -/
def State.monTemps (s : State) (t : List (BitVec 16)) : State :=
  if !s.glb.vaux then s
  else ((List.range 12).foldl (fun st i => st.tempOne i ((t.getD i 0).toNat)) s).thermalCheck

/-- A rail reads below 90 % of nominal: its POR threshold (R470). -/
def belowPor (r mv : Nat) : Bool := decide (mv * 10 < railNominal r * 9)

/-- One rail's sample against its window (R414). -/
def State.supOne (s : State) (r mv : Nat) : State :=
  let s0 := s.rset ⟨.monSup, r, 0, 0⟩ (mv % 4096)
  let out := decide (mv % 4096 < s0.fget F.monSupWin_LO r) || decide (s0.fget F.monSupWin_HI r < mv % 4096)
  let bad := s.flt.sup.get false r
  let now := twoSamples out (s.flt.supPrev.get false r) bad
  let s1 := s0.setFlt { s0.flt with supPrev := s0.flt.supPrev.put id false r out, sup := s0.flt.sup.put id false r now }
  if now && !bad then
    s1.report { detected := true, cls := 9, source := srcOf 0x0D r, code := 0x2901, arg0 := r, arg1 := mv % 4096, ts := none }
  else if !now && bad then s1.cleared 9 r
  else s1

/-- Main rails whose condition is recorded and that read below their POR threshold. (DEDUCED, log entry 71.) -/
def State.supPor (s : State) : Nat :=
  (List.range 10).foldl (fun m r => if s.flt.sup.get false r && belowPor r (s.fget F.monSup_MV r) then m + 2 ^ r else m) 0

/-- MON_SUPPLY_SAMPLE (R414): the eleven readings in mV; a rail below its POR threshold starts the main-rail POR once
its record has entered the black box. -/
def State.monSupplies (s : State) (mv : List (BitVec 12)) : State :=
  if !s.glb.vaux then s
  else
    let s1 := (List.range 11).foldl (fun st r => st.supOne r ((mv.getD r 0).toNat)) s
    if s1.supPor = 0 ∨ s1.awaitsRecord 0x2901 then s1 else s1.mainPor s1.supPor

end Sys2Proof.Machine
end

