-- ==== Sys2Proof/Machine/HostOps.lean ====
section
/-! DEFINITION. The mailbox, firmware images and the choice of the images (R442 to R453). -/

namespace Sys2Proof.Machine

/-! ### Flash layout and images (R446 to R449) -/

/-- A field of the header of the image in a slot (R447). -/
def State.hdr (s : State) (lnf b : Bool) (off n : Nat) : Nat := s.flashRead (slotBase lnf b + off) n

/-- The version of an image as GLB_FW_VER shows it (R455). -/
def State.imgVer (s : State) (lnf b : Bool) : Nat := s.hdr lnf b 8 1 * 2 ^ 24 + s.hdr lnf b 9 1 * 2 ^ 16 + s.hdr lnf b 10 2

/-- The commit word of a firmware slot (R446). (DESIGN CHOICE, log entry 73.) -/
def fwCommitWord : Nat := 0x46A55AF1

/-- The address of a slot's commit record. (DESIGN CHOICE, log entry 73.) -/
def commitAddr (lnf b : Bool) : Nat := slotBase lnf b + slotSize lnf - 16

/-- Check 1 of R449: the commit record is intact and agrees with the header. (DESIGN CHOICE, log entry 73.) -/
def State.commitOk (s : State) (lnf b : Bool) : Bool :=
  let a := commitAddr lnf b
  decide (s.flashRead a 4 = fwCommitWord) && decide (s.flashRead (a + 8) 4 = 256 + s.hdr lnf b 24 4) &&
  decide (s.flashRead (a + 12) 4 = s.hdr lnf b 28 4)

/-- SVN_MIN in force. (DESIGN CHOICE, log entry 73.) -/
def State.svnMin (s : State) : Nat := max Config.svnMinFused s.host.svnRaised

/-- Checks 2 to 5 of R449, in order. -/
def State.imgJudge (s : State) (lnf b : Bool) : MbCode :=
  let base := slotBase lnf b
  let len := s.hdr lnf b 24 4
  if s.hdr lnf b 0 4 ≠ 0x49574645 ∨ s.hdr lnf b 4 2 ≠ 1 ∨ s.hdr lnf b 6 1 ≠ (if lnf then 2 else 1) ∨ slotSize lnf - 4096 < len then
    .imgFormat
  else if crc32c (s.flashBytes (base + 256) len) ≠ s.hdr lnf b 28 4 then .imgCrc
  else
    let key := memReadBytes flashUnl s.flash (base + 48) 97
    let sig := memReadBytes flashUnl s.flash (base + 160) 96
    let signed := memReadBytes flashUnl s.flash base 160 ++ memReadBytes flashUnl s.flash (base + 256) len
    if !(Config.keyOk key && Config.sigOk key sig signed) then .imgSig
    else if s.hdr lnf b 32 4 < s.svnMin then .imgSvn
    else .ok

/-- The whole judgement of a slot (R449). -/
def State.slotJudge (s : State) (lnf b : Bool) : MbCode := if s.commitOk lnf b then s.imgJudge lnf b else .imgFormat

/-- A slot is valid (R449). -/
def State.slotValid (s : State) (lnf b : Bool) : Bool := decide (s.slotJudge lnf b = .ok)

/-- The bit of the device's stepping in a stepping bitmap (R447). -/
def State.steppingBit (s : State) : Nat := (s.fget F.glbStepping_MAJOR - 1) * 4 + s.fget F.glbStepping_MINOR

/-- An image pair is compatible (R449): MCF slot `m`, LNF slot `l`. -/
def State.compatible (s : State) (m l : Bool) : Bool :=
  let inRange (p lnf b : Bool) (x : Nat) : Bool := p && decide (s.hdr lnf b 14 2 ≤ x) && decide (x ≤ s.hdr lnf b 16 2)
  bit (s.hdr false m 20 4) s.steppingBit && inRange (bit (s.hdr true l 20 4) s.steppingBit) true l (s.hdr false m 12 2) &&
  inRange true false m (s.hdr true l 12 2)

/-! ### The boot record (R446, R450) -/

/-- The address of a copy of the boot record (R446). -/
def bootRecAddr (b : Bool) : Nat := if b then 0x01401000 else 0x01400000

/-- A boot record as a word: the preferred slots, and whether and which slots are forced. (DESIGN CHOICE, log entry 73.) -/
def BootRec.word (r : BootRec) : Nat :=
  bnat r.prefM + 2 * bnat r.prefL + match r.forced with
    | none => 0
    | some p => 4 + 8 * bnat p.1 + 16 * bnat p.2

/-- The boot record a word spells. (DESIGN CHOICE, log entry 73.) -/
def bootRecOf (v : Nat) : BootRec := ⟨bit v 0, bit v 1, if bit v 2 then some (bit v 3, bit v 4) else none⟩

/-- The sequence number of a copy whose CRC is valid: word 0; word 1 has the record, word 2 the CRC-32C of both. (DESIGN CHOICE, log entry 73.) -/
def State.bootSeq (s : State) (b : Bool) : Option Nat :=
  let a := bootRecAddr b
  if s.flashRead (a + 8) 4 = crc32c (s.flashBytes a 8) then some (s.flashRead a 4) else none

/-- The copy with a valid CRC and the higher sequence number, and that number (R450). -/
def State.bootBest (s : State) : Option (Bool × Nat) :=
  match s.bootSeq false, s.bootSeq true with
  | none, none => none
  | some x, none => some (false, x)
  | none, some y => some (true, y)
  | some x, some y => if x < y then some (true, y) else some (false, x)

/-- The boot record in flash: with no valid copy, slot A is preferred and no override is set (R450). -/
def State.bootRead (s : State) : BootRec :=
  match s.bootBest with
  | none => {}
  | some (b, _) => bootRecOf (s.flashRead (bootRecAddr b + 4) 4)

/-- The boot record changes: the copy not in use is written with the next number. (DESIGN CHOICE, log entry 73.) -/
def State.bootStore (s : State) (r : BootRec) : State :=
  let dest : Bool × Nat := match s.bootBest with
    | none => (false, 0)
    | some (b, n) => (!b, (n + 1) % 2 ^ 32)
  let body := leBytes 4 dest.2 ++ leBytes 4 r.word
  ((s.flashErase (bootRecAddr dest.1) 4096).flashWrite (bootRecAddr dest.1) (body ++ leBytes 4 (crc32c body))).setHost { s.host with bootRec := r }

/-! ### Choosing the images (R450 to R452) -/

/-- The record of an override (R452): 0 set, 1 booted with, 2 ended. -/
def State.overRecord (s : State) (idx : Nat) (p : Bool × Bool) : State :=
  s.offerBbr { source := srcOf 0x0F idx, code := 0x4001, arg0 := s.imgVer false p.1, arg1 := s.imgVer true p.2, ts := none }

/-- The pairs in the order they are tried (R450). -/
def BootRec.order (r : BootRec) : List (Bool × Bool) :=
  [(r.prefM, r.prefL), (r.prefM, !r.prefL), (!r.prefM, r.prefL), (!r.prefM, !r.prefL)]

/-- What the boot ROM starts: by the override when both its slots are valid, else the first compatible pair (R450, R452). -/
def State.bootChoice (s : State) : Option Boot :=
  let pick : Option Boot :=
    (s.host.bootRec.order.find? fun p => s.slotValid false p.1 && s.slotValid true p.2 && s.compatible p.1 p.2).map fun p =>
      ⟨p.1, p.2, false⟩
  match s.host.bootRec.forced with
  | some p => if s.slotValid false p.1 && s.slotValid true p.2 then some ⟨p.1, p.2, true⟩ else pick
  | none => pick

/-- Limited mode (R451): outputs at idle with EN 0, OSYN off, Bellwether in FREE_RUN with the word 0, the line ports down. -/
def State.limitedMode (s : State) : State :=
  let s0 := s.setGlb { s.glb with limited := true }
  let s1 := (s0.listed .eoCtl).foldl (fun st c => if bit c.2 0 then (st.fset F.eoCtl_EN 0 c.1).eoDisableCh c.1 else st) s0
  let s2 := (List.range 4).foldl (fun st i => if st.fbit F.synOsynCtl_EN i then (st.fset F.synOsynCtl_EN 0 i).osynOff i else st) s1
  let s3 := (s2.setBw { s2.bw with y := 0 }).setTime { s2.time with yNext := if s2.fbit F.tbCtl_NCO_SRC then s2.time.yNext else some 0 }
  let s4 := if s3.bwState = BwState.freeRun then s3 else s3.bwGoto BwState.freeRun
  (List.range 52).foldl (fun st p => if st.fbit F.ptStat_LINK p then st.linkDown p else st) s4

/-- BOOT_SELECT (R450 to R452). -/
def State.bootSelect (s : State) : State :=
  if s.rstHeld ∨ s.host.selected then s
  else
    let s1 := s.setHost { s.host with selected := true, bootRec := s.bootRead }
    if s.fbit F.glbStrap_LIMITED then s1.limitedMode
    else match s1.bootChoice with
      | none => s1.limitedMode
      | some b =>
        let s2 := s1.setHost { s1.host with boot := some b }
        let s3 := (s2.fset F.glbFwVer_VER (s2.imgVer false b.m)).fset F.glbLnfVer_VER (s2.imgVer true b.l)
        if b.byOver then s3.overRecord 1 (b.m, b.l) else s3

/-- FIRMWARE_START (R412, R453). -/
def State.firmwareStart (s : State) : State :=
  if s.rstHeld ∨ s.host.boot.isNone ∨ s.glb.fwRun then s else (s.setGlb { s.glb with fwRun := true }).wdogRestart

/-! ### The mailbox (R442 to R445) -/

/-- The owner code of a requester (R455). Drovers do not reach the mailbox (R194). -/
def Requester.owner : Requester → Nat
  | .fw => 0
  | .pcie => 1
  | .smbus => 2
  | .jtag => 3
  | .drv _ => 0

/-- A write of MB_ARG(w) (R442). -/
def State.mbArgWrite (s : State) (q : Requester) (w v : Nat) : State :=
  if q = .fw ∧ s.fbit F.mbStatus_BUSY then s.rset ⟨.mbArg, w, 0, 0⟩ (v % 2 ^ 32)
  else s.setMbox { s.host.mbox with stage := s.host.mbox.stage.put id 0 (64 * q.owner + w) v }

/-- A command ends (R442): results, CODE, BUSY, DONE, vector 0; a long one gives its place free. -/
def State.mbEnd (s : State) (code : MbCode) (results : List Nat) (long : Bool) : State :=
  let s1 := results.zipIdx.foldl (fun st x => st.rset ⟨.mbArg, x.2, 0, 0⟩ (x.1 % 2 ^ 32)) s
  let s2 := ((s1.fset F.mbStatus_CODE code.code).fset F.mbStatus_BUSY 0).fset F.mbInt_DONE 1
  let s3 := if long then s2.fset F.mbLong_SRC 0 else s2
  let s4 := if long ∧ code = .ok then (s3.fset F.mbPosDone_N (s3.fget F.mbPosTotal_N)).fset F.mbProgress_P 10000 else s3
  let s5 := s4.setMbox { s4.host.mbox with cmd := none }
  if s5.fbit F.mbInt_EN then s5.sendMsix 0 else s5

/-- GO (R442, R443): accepted when BUSY is 0. (DEDUCED, log entry 75.) -/
def State.mbGo (s : State) (q : Requester) (op : Nat) : State :=
  if s.fbit F.mbStatus_BUSY then s.fon F.mbStatus_WR_ERR
  else
    let m := s.host.mbox
    let words := (List.range 64).map fun w => m.stage.get 0 (64 * q.owner + w) % 2 ^ 32
    let s1 := words.zipIdx.foldl (fun st x => st.rset ⟨.mbArg, x.2, 0, 0⟩ x.1) s
    let s2 := ((s1.fset F.mbStatus_BUSY 1).fset F.mbStatus_OWNER q.owner).fset F.mbStatus_SEQ (s1.fget F.mbStatus_SEQ + 1)
    let c : MbCmd := ⟨op, q.owner, words.take 4⟩
    let s3 := (s2.fset F.mbCmd_OP op).setMbox { m with cmd := some c }
    if !mbLongOp op then s3
    else if s3.fget F.mbLong_SRC ≠ 0 then s3.mbEnd .busy [] false
    else (((s3.fset F.mbLong_SRC 1).fset F.mbPosDone_N 0).fset F.mbPosTotal_N c.total).fset F.mbProgress_P 0

/-- A write of MB_CMD (R455): only one that sets GO does anything. -/
def State.mbCmdWrite (s : State) (q : Requester) (data : Nat) : State := if bit data 31 then s.mbGo q (data % 65536) else s

/-- What a command answers: code, results, state. -/
structure MbAns where
  code : MbCode
  words : List Nat
  st : State

/-- GET_INFO (R444): SB_EN; SVN_MIN; the running slots as GLB_BOOT_STAT shows them; then four words an image. (DESIGN CHOICE, log entry 74.) -/
def State.mbGetInfo (s : State) : MbAns :=
  let img (lnf b : Bool) : List Nat :=
    [s.imgVer lnf b, s.hdr lnf b 12 2, s.hdr lnf b 14 2 + 65536 * s.hdr lnf b 16 2, (s.slotJudge lnf b).code + 65536 * bnat (s.slotRuns lnf b)]
  ⟨.ok, [1, s.svnMin] ++ img false false ++ img false true ++ img true false ++ img true true, s⟩

/-- FW_BEGIN (R444): erases the slot and opens it. -/
def State.mbFwBegin (s : State) (c : MbCmd) (ok : Bool) : MbAns :=
  match s.beginBad c with
  | some e => ⟨e, [], s⟩
  | none =>
    let p := s.updSlot c
    let s1 := s.mbPart c (slotSize p.1)
    if ok then ⟨.ok, [], s1.setMbox { s1.host.mbox with upd := some p }⟩ else ⟨.flash, [], s1⟩

/-- FW_CHUNK (R444): writes to the open slot. -/
def State.mbFwChunk (s : State) (c : MbCmd) (ok : Bool) : MbAns :=
  match s.chunkBad c with
  | some e => ⟨e, [], s⟩
  | none => ⟨if ok then .ok else .flash, [], s.mbPart c (c.arg 1)⟩

/-- The four bytes of a word, lowest first. -/
def wordBytes (v : Nat) : List Nat := leBytes 4 v

/-- The override ends (R452). -/
def State.overEnd (s : State) : State :=
  match s.host.bootRec.forced with
  | none => s
  | some p => (s.bootStore { s.host.bootRec with forced := none }).overRecord 2 p

/-- FW_END (R444, R452): the slot is checked, and only then its commit record is written, the commit word last. (DESIGN CHOICE, log entry 74.) -/
def State.mbFwEnd (s : State) (ok : Bool) : MbAns :=
  match s.host.mbox.upd with
  | none => ⟨.badArg, [], s⟩
  | some p =>
    let s0 := s.setMbox { s.host.mbox with upd := none }
    let j := s0.imgJudge p.1 p.2
    let svn := s0.hdr p.1 p.2 32 4
    if j ≠ .ok then ⟨j, [j.code, svn], s0⟩
    else
      let a := commitAddr p.1 p.2
      let s1 := s0.flashWrite (a + 4) (wordBytes svn ++ wordBytes (256 + s0.hdr p.1 p.2 24 4) ++ wordBytes (s0.hdr p.1 p.2 28 4))
      if !ok then ⟨.flash, [j.code, svn], s1⟩
      else
        let s2 := s1.flashWrite a (wordBytes fwCommitWord)
        let named := match s2.host.bootRec.forced with
          | some o => decide ((if p.1 then o.2 else o.1) = p.2)
          | none => false
        ⟨.ok, [j.code, svn], if named then s2.overEnd else s2⟩

/-- FW_SELECT (R444, R450). -/
def State.mbFwSelect (s : State) (c : MbCmd) (ok : Bool) : MbAns :=
  match c.slot with
  | none => ⟨.badArg, [], s⟩
  | some p =>
    if !ok then ⟨.flash, [], s⟩
    else
      let r := s.host.bootRec
      ⟨.ok, [], s.bootStore (if p.1 then { r with prefL := p.2 } else { r with prefM := p.2 })⟩

/-- FW_VERIFY (R444): the check, then the first twelve words of the header. (DESIGN CHOICE, log entry 74.) -/
def State.mbFwVerify (s : State) (c : MbCmd) : MbAns :=
  match c.slot with
  | none => ⟨.badArg, [], s⟩
  | some p =>
    let j := s.slotJudge p.1 p.2
    ⟨j, j.code :: (List.range 12).map fun i => s.hdr p.1 p.2 (4 * i) 4, s⟩

/-- FLASH_READ (R444). -/
def State.mbFlashRead (s : State) (c : MbCmd) (ok : Bool) : MbAns :=
  match s.flashReadBad c with
  | some e => ⟨e, [], s⟩
  | none => if ok then ⟨.ok, [], s.mbPart c (c.arg 1)⟩ else ⟨.flash, [], s⟩

/-- FLASH_WRITE (R444): the host region alone. -/
def State.mbFlashWrite (s : State) (c : MbCmd) (ok : Bool) : MbAns :=
  match s.flashWriteBad c with
  | some e => ⟨e, [], s⟩
  | none => ⟨if ok then .ok else .flash, [], s.mbPart c (c.arg 1)⟩

/-- The key of the protected commands (R444). -/
def mbKey : Nat := 0xD1A6

/-- OVERRIDE_SET (R444, R452). -/
def State.mbOverSet (s : State) (c : MbCmd) (ok : Bool) : MbAns :=
  if c.owner = 0 ∨ c.arg 0 ≠ mbKey then ⟨.denied, [], s⟩
  else if 1 < c.arg 1 ∨ 1 < c.arg 2 then ⟨.badArg, [], s⟩
  else if !ok then ⟨.flash, [], s⟩
  else
    let p := (decide (c.arg 1 = 1), decide (c.arg 2 = 1))
    ⟨.ok, [], (s.bootStore { s.host.bootRec with forced := some p }).overRecord 0 p⟩

/-- OVERRIDE_CLEAR (R444, R452). -/
def State.mbOverClear (s : State) (c : MbCmd) (ok : Bool) : MbAns :=
  if c.owner = 0 then ⟨.denied, [], s⟩ else if !ok then ⟨.flash, [], s⟩ else ⟨.ok, [], s.overEnd⟩

/-- SVN_COMMIT (R444): SVN_MIN rises to the lower SVN of the running images. -/
def State.mbSvnCommit (s : State) (c : MbCmd) : MbAns :=
  if c.owner = 0 ∨ c.arg 0 ≠ mbKey then ⟨.denied, [], s⟩
  else match s.host.boot with
    | none => ⟨.ok, [s.svnMin], s⟩
    | some b =>
      let n := min (s.hdr false b.m 32 4) (s.hdr true b.l 32 4)
      let s1 := s.setHost { s.host with svnRaised := max s.host.svnRaised n }
      ⟨.ok, [s1.svnMin], s1⟩

/-- ABORT (R444): the long operation that runs ends with ABORTED; an open slot stays uncommitted. (DEDUCED, log entry 75.) -/
def State.mbAbort (s : State) : MbAns :=
  let s1 := s.setMbox { s.host.mbox with upd := none }
  ⟨.ok, [], if s1.cal.long.isSome then s1.calAbort else s1⟩

/-- What a command does (R444). -/
def State.mbDo (s : State) (c : MbCmd) (ok : Bool) : MbAns :=
  if c.op = 0 ∨ 12 < c.op then ⟨.badOp, [], s⟩
  else if s.glb.limited ∧ !mbLimOk c.op then ⟨.limited, [], s⟩
  else if c.op = MbOp.getInfo then s.mbGetInfo
  else if c.op = MbOp.fwBegin then s.mbFwBegin c ok
  else if c.op = MbOp.fwChunk then s.mbFwChunk c ok
  else if c.op = MbOp.fwEnd then s.mbFwEnd ok
  else if c.op = MbOp.fwSelect then s.mbFwSelect c ok
  else if c.op = MbOp.fwVerify then s.mbFwVerify c
  else if c.op = MbOp.flashRead then s.mbFlashRead c ok
  else if c.op = MbOp.flashWrite then s.mbFlashWrite c ok
  else if c.op = MbOp.overrideSet then s.mbOverSet c ok
  else if c.op = MbOp.overrideClear then s.mbOverClear c ok
  else if c.op = MbOp.svnCommit then s.mbSvnCommit c
  else s.mbAbort

/-- MB_COMPLETE (R442): served by the firmware, or by the boot ROM in limited mode; `ok`: the flash took what it was given. (DEDUCED, log entry 75.) -/
def State.mbComplete (s : State) (ok : Bool) : State :=
  match s.host.mbox.cmd with
  | none => s
  | some c =>
    if s.glb.fwRun || s.glb.limited then
      let r := s.mbDo c ok
      r.st.mbEnd r.code r.words (mbLongOp c.op)
    else s

end Sys2Proof.Machine
end

