-- ==== Sys2Proof/Machine/DmaOps.lean ====
section
/-! DEFINITION. The DMA rings and the function-level reset (R12, R30, R31, R433 to R437, R456). -/

namespace Sys2Proof.Machine

def State.getRing (s : State) (i : Nat) : Ring := s.host.ring.get {} i
def State.setRing (s : State) (i : Nat) (r : Ring) : State := s.setHost { s.host with ring := s.host.ring.put id {} i r }

/-! Kinds (R433) and status values (R435). -/
namespace Dma
def h2d : Nat := 0
def d2h : Nat := 1
def sample : Nat := 2
def tally : Nat := 3
def launch : Nat := 4
def ok : Nat := 0x00
def zeroLen : Nat := 0x01
def addr : Nat := 0x02
def unavail : Nat := 0x03
def pcie : Nat := 0x04
def short : Nat := 0x05
def aborted : Nat := 0x06
end Dma

/-- Host memory: the environment's, reached through PCIe. (DESIGN CHOICE, log entry 6.) -/
def State.hostRead (s : State) (a n : Nat) : Nat := memReadLE hostUnl s.hostMem a n
/-- DESIGN CHOICE, log entry 6. -/
def State.hostWrite (s : State) (a v n : Nat) : State := { s with hostMem := memWriteLE hostUnl s.hostMem a v n }
def State.hostPut (s : State) (a : Nat) (b : List Byte) : State := { s with hostMem := memWriteBytes hostUnl s.hostMem a b }
def State.hostGet (s : State) (a n : Nat) : List Byte := memReadBytes hostUnl s.hostMem a n

/-- Descriptors of a ring. -/
def State.ringLen (s : State) (i : Nat) : Nat := 2 ^ s.fget F.dmaRingSize_LOG i

/-- Descriptors produced and not yet taken. -/
def State.ringWaiting (s : State) (i : Nat) : Nat :=
  (s.fget F.dmaRingTail_IDX i + s.ringLen i - s.fget F.dmaRingHead_IDX i) % s.ringLen i

/-- The address of the descriptor at HEAD (R434). -/
def State.descAddr (s : State) (i : Nat) : Nat := s.fget F.dmaRingBase_ADDR i + 32 * s.fget F.dmaRingHead_IDX i

/-- The ring waits for DMA_TRIG events (R437). -/
def State.ringTrig (s : State) (i : Nat) : Bool := s.fbit F.dmaRingCfg_TRIG i && decide (i < 4)

/-- A ring of a kind can take its descriptor at HEAD. -/
def State.ringReady (s : State) (i kind : Nat) : Bool :=
  s.glb.barReady && !s.rstHeld && s.fbit F.dmaRingCfg_EN i && decide (s.fget F.dmaRingCfg_KIND i = kind) &&
  decide (s.ringWaiting i ≠ 0) && !(s.getRing i).stopped && (!s.ringTrig i || decide (0 < (s.getRing i).credits))

/-- OWN of the descriptor at HEAD. -/
def State.descOwn (s : State) (i : Nat) : Bool := bit (s.hostRead (s.descAddr i + 24) 4) 31

/-- OWN was 0 at HEAD: the ring stops (R434). -/
def State.ringStall (s : State) (i : Nat) : State :=
  (s.fon F.dmaRingStat_STALL i).setRing i { s.getRing i with stopped := true }

/-- A descriptor completes (R434): returned length, STATUS with OWN cleared, HEAD, then the vector. -/
def State.descDone (s : State) (i status : Nat) (len : Option Nat) : State :=
  let a := s.descAddr i
  let w := s.hostRead (a + 24) 4
  let s1 := match len with
    | some n => s.hostWrite (a + 20) n 4
    | none => s
  let s2 := s1.hostWrite (a + 24) (setBits (setBits w 15 0 status) 31 31 0) 4
  let s3 := s2.fset F.dmaRingHead_IDX ((s.fget F.dmaRingHead_IDX i + 1) % s.ringLen i) i
  let r := s3.getRing i
  let s4 := s3.setRing i { r with credits := if s.ringTrig i then r.credits - 1 else r.credits, talFrom := none, talGot := 0 }
  if bit w 30 then s4.sendMsix (s4.fget F.dmaRingCfg_VEC i) else s4

/-- Take the descriptor at HEAD of a ring of a kind, or stall on OWN = 0. -/
def State.withDesc (s : State) (i kind : Nat) (f : State → State) : State :=
  if !s.ringReady i kind then s else if s.descOwn i then f s else s.ringStall i

/-- Host address, DRAM address and LENGTH of a descriptor. (DEDUCED, log entry 76.) -/
def State.descHost (s : State) (i : Nat) : Nat := s.hostRead (s.descAddr i) 8
def State.descDram (s : State) (i : Nat) : Nat := s.hostRead (s.descAddr i + 8) 8
def State.descLen (s : State) (i : Nat) : Nat := s.hostRead (s.descAddr i + 16) 4

/-- First address of the firmware region, and one past the last of DRAM (R27). -/
def fwRegion : Nat := 0x1F0000000
def dramEnd : Nat := 0x200000000

/-- The checks of an H2D or D2H descriptor in the order of R435. -/
def State.copyCheck (s : State) (i : Nat) (toDram : Bool) : Nat :=
  let len := s.descLen i
  if len = 0 then Dma.zeroLen
  else if dramEnd < s.descDram i + len ∨ s.descHost i % 8 ≠ 0 ∨ (toDram ∧ fwRegion < s.descDram i + len) then Dma.addr
  else if s.dramUnavail then Dma.unavail
  else Dma.ok

/-- A transfer failed at the host (R435, R456). -/
def State.pcieErr (s : State) : State := s.fon F.dmaStat_PCIE_ERR

/-- DMA_H2D (R433 to R435): `err` gives the bytes moved before a completion error. (DEDUCED, log entry 76.) -/
def State.dmaH2d (s0 : State) (i : Nat) (err : Option Nat) : State :=
  s0.withDesc i Dma.h2d fun s =>
    let c := s.copyCheck i true
    let put (n : Nat) : State := s.setDram (memWriteBytes dramUnl s.dram (s.descDram i) (s.hostGet (s.descHost i) n))
    if c ≠ Dma.ok then s.descDone i c (some 0)
    else match err with
      | none => (put (s.descLen i)).descDone i Dma.ok (some (s.descLen i))
      | some k => (put (min k (s.descLen i))).pcieErr.descDone i Dma.pcie (some (min k (s.descLen i)))

/-- DMA_D2H (R433 to R435). (DEDUCED, log entry 76.) -/
def State.dmaD2h (s0 : State) (i : Nat) (err : Option Nat) : State :=
  s0.withDesc i Dma.d2h fun s =>
    let c := s.copyCheck i false
    let put (n : Nat) : State := s.hostPut (s.descHost i) (s.dramBytes (s.descDram i) n)
    if c ≠ Dma.ok then s.descDone i c (some 0)
    else match err with
      | none => (put (s.descLen i)).descDone i Dma.ok (some (s.descLen i))
      | some k => (put (min k (s.descLen i))).pcieErr.descDone i Dma.pcie (some (min k (s.descLen i)))

/-- The checks of a SAMPLE or TALLY descriptor. -/
def State.bufCheck (s : State) (i : Nat) : Nat :=
  if s.descLen i = 0 then Dma.zeroLen
  else if s.descHost i % 8 ≠ 0 then Dma.addr
  else if s.dramUnavail then Dma.unavail
  else Dma.ok

/-- DMA_SAMPLE (R402, R435, R436). -/
def State.dmaSample (s0 : State) (i : Nat) : State :=
  s0.withDesc i Dma.sample fun s =>
    let c := s.bufCheck i
    if c ≠ Dma.ok then s.descDone i c (some 0)
    else match s.sw.samples with
      | [] => s
      | (at_, len) :: t =>
        let n := min len (s.descLen i)
        (((s.setSw { s.sw with samples := t }).hostPut (s.descHost i) (s.sampleGet at_ n)).descDone i
          (if s.descLen i < len then Dma.short else Dma.ok) (some n))

/-! ### Tally export (R436) -/

/-- Records between the read index and TAL_WPTR. -/
def State.talBehind (s : State) (i : Nat) : Nat :=
  let w := s.fget F.talWptr_WPTR
  let a := s.fget F.dmaRingAux_IDX i
  if a ≤ w then w - a else w + s.fget F.talSize_SIZE - a

/-- Records not yet read, those overwritten meanwhile included. -/
def State.talLag (s : State) (i : Nat) : Nat :=
  let r := s.getRing i
  if r.talGen = some s.tal.gen then r.talLag + (s.tal.total - r.talSeen) else s.talBehind i

/-- Software sets the read index (R436). -/
def State.auxWrite (s : State) (i v : Nat) : State :=
  let s1 := s.fset F.dmaRingAux_IDX v i
  s1.setRing i { s1.getRing i with talLag := s1.talBehind i, talSeen := s1.tal.total, talGen := some s1.tal.gen }

/-- The read index skips records the ring has overwritten (R436). -/
def State.talSkip (s : State) (i : Nat) : State :=
  let size := s.fget F.talSize_SIZE
  let lag := s.talLag i
  let s1 := if size < lag then
      (s.cntAdd .dmaRingCntDrop (lag - size) i).fset F.dmaRingAux_IDX (s.fget F.talWptr_WPTR % max size 1) i
    else s
  s1.setRing i { s1.getRing i with talLag := min lag size, talSeen := s1.tal.total, talGen := some s1.tal.gen }

/-- Copy `n` records into the host buffer, one by one, and move the read index. (DEDUCED, log entry 76.) -/
def State.talCopy (s : State) (i : Nat) : Nat → State
  | 0 => s
  | n + 1 =>
    let s1 := State.talCopy s i n
    let a := s1.fget F.dmaRingAux_IDX i
    let r := s1.getRing i
    let s2 := s1.hostPut (s1.descHost i + 32 * r.talGot) (s1.dramBytes (s1.talAddr a) 32)
    let s3 := s2.fset F.dmaRingAux_IDX (if s2.fget F.talSize_SIZE ≤ a + 1 then 0 else a + 1) i
    s3.setRing i { r with talGot := r.talGot + 1, talLag := r.talLag - 1 }

/-- DMA_TALLY (R436). -/
def State.dmaTally (s0 : State) (i : Nat) : State :=
  s0.withDesc i Dma.tally fun s =>
    let c := s.bufCheck i
    if c ≠ Dma.ok then s.descDone i c (some (32 * (s.getRing i).talGot))
    else
      let cap := s.descLen i / 32
      let s1 := s.talSkip i
      let n := min (s1.talLag i) (cap - (s1.getRing i).talGot)
      let s2 := s1.talCopy i n
      let r := s2.getRing i
      if cap ≤ r.talGot then s2.descDone i Dma.ok (some (32 * r.talGot))
      else if 0 < r.talGot then s2.setRing i { r with talFrom := some (r.talFrom.getD s2.tickNo) }
      else s2

/-- DMA_TALLY_TIMEOUT (R436): 100 µs after the first record. -/
def State.dmaTallyTimeout (s : State) (i : Nat) : State :=
  match (s.getRing i).talFrom with
  | none => s
  | some t => if t + 100000 ≤ s.tickNo then s.descDone i Dma.ok (some (32 * (s.getRing i).talGot)) else s

/-- DMA_LAUNCH (R396, R434, R435). (DEDUCED, log entry 68.) -/
def State.dmaLaunch (s0 : State) (i : Nat) (err : Bool) : State :=
  s0.withDesc i Dma.launch fun s =>
    let a := s.descAddr i
    let len := s.hostRead (a + 20) 2
    let cls := s.hostRead (a + 22) 1
    let res (c : Nat) (st : State) : State := st.descDone i (0x10 + c) none
    if len = 0 ∨ 8 ≤ cls then res LaunchRes.badArg s
    else if s.descHost i % 8 ≠ 0 then s.descDone i Dma.addr none
    else if err then s.pcieErr.descDone i Dma.pcie none
    else match unpackT96 (s.hostRead (a + 8) 12) with
      | none => res LaunchRes.badArg s
      | some t =>
        let o := s.launchOffer (s.fget F.dmaRingCfg_PORT i) cls (s.hostGet (s.descHost i) len) t
        res o.1 o.2

/-- DMA_TRIG (R437): a group of m events starts up to m waiting descriptors. -/
def State.dmaTrig (s : State) (i : Nat) : State :=
  match s.takeGroup (Con.dmaTrig i) with
  | none => s
  | some (evs, s1) =>
    let r := s1.getRing i
    let free := if s1.fbit F.dmaRingCfg_EN i && s1.ringTrig i && !r.stopped then s1.ringWaiting i - r.credits else 0
    let n := min evs.length free
    (s1.setRing i { r with credits := r.credits + n }).cntAdd .dmaRingCntDrop (evs.length - n) i

/-! ### Register writes (R456) -/

/-- EN falls: the descriptor in progress ends with ABORTED. -/
def State.ringDisable (s : State) (i : Nat) : State :=
  let r := s.getRing i
  let s1 := if r.talFrom.isSome then s.descDone i Dma.aborted (some (32 * r.talGot)) else s
  (s1.fset F.dmaRingCfg_EN 0 i).setRing i { s1.getRing i with credits := 0, stopped := false }

/-- EN rises: HEAD is set to 0. -/
def State.ringEnable (s : State) (i : Nat) : State :=
  ((s.fset F.dmaRingCfg_EN 1 i).fset F.dmaRingHead_IDX 0 i).setRing i { s.getRing i with credits := 0, stopped := false, talFrom := none, talGot := 0 }

/-- A write of DMA_RING_TAIL(i) (R434). -/
def State.ringTailWrite (s : State) (i v : Nat) : State :=
  if s.ringLen i ≤ v then s.fon F.dmaStat_WR_ERR
  else (s.fset F.dmaRingTail_IDX v i).setRing i { s.getRing i with stopped := false }

/-! ### Function-level reset (R30, R31, R443) -/

/-- Registers a function-level reset returns: the rings, MSI-X, the host-side doorbells. (DEDUCED, log entry 23.) -/
def flrResets (r : Reg) : Bool :=
  decide (r = .dmaRingCfg ∨ r = .dmaRingStat ∨ r = .dmaRingBase ∨ r = .dmaRingSize ∨ r = .dmaRingHead ∨ r = .dmaRingTail ∨
    r = .dmaRingCntDrop ∨ r = .dmaRingAux ∨ r = .msixTable ∨ r = .msixPba ∨ r = .mbInt)

/-- FUNCTION_LEVEL_RESET (R31): absorbed while a reset of the device or of a block is in progress, which are broader (R32); transfers in
flight are abandoned; Tally records that do not reach the host count as lost (R135). (DEDUCED, log entry 23.) -/
def State.flr (s : State) : State :=
  if s.rstHeld ∨ s.rget ⟨.glbBlkRst, 0, 0, 0⟩ ≠ 0 then s
  else
    let lost := (s.host.ring.cells.map fun c => c.2.talGot).foldl (· + ·) 0
    let s1 : State := { s with regs := s.regs.keep fun k => !flrResets k.r }
    let s2 := s1.setHost { s1.host with ring := {}, flrTick := some s.tickNo }
    (if 0 < lost then s2.cnt64 .talCntLost lost else s2).resetCause 4

end Sys2Proof.Machine
end

