-- ==== Sys2Proof/Machine/BusMap.lean ====
section
/-! DEFINITION. BAR0 as an address space: which register and word an address reaches (R24), which blocks answer (R25, R426), read latches
and write staging (R48, R49). -/

namespace Sys2Proof.Machine

/-- The block whose window holds an address (R24). -/
def blkOf (a : Nat) : Option Blk := Blk.all.find? fun b => decide (b.range.1 ≤ a) && decide (a ≤ b.range.2)

/-- Array indices of an offset within a register's array, and the byte offset left. -/
def dimIdx : List (Nat × Nat) → Nat → Option (List Nat × Nat)
  | [], off => some ([], off)
  | (c, st) :: t, off => if off / st < c then (dimIdx t (off % st)).map fun p => (off / st :: p.1, p.2) else none

/-- Array entries that the spec reserves: VLANs 0 and 4,095 (R405), consumers that R154 does not list. (DEDUCED, log entry 13.) -/
def entryReserved (k : RegKey) : Bool :=
  (decide (k.r = .swVlan) && (decide (k.i = 0) || decide (k.i = 4095))) || (decide (k.r = .dwConSel) && !conListed k.i)

/-- Where an offset of a block falls in a register: the register with its indices, and the word. -/
def regIn (r : Reg) (off : Nat) : Option (RegKey × Nat) :=
  let d := r.info
  if off < d.off then none
  else match dimIdx d.dims (off - d.off) with
    | none => none
    | some (ix, o) =>
      let k : RegKey := ⟨r, ix.getD 0 0, ix.getD 1 0, ix.getD 2 0⟩
      if o < 4 * d.words ∧ entryReserved k = false then some (k, o / 4) else none

/-- The register an aligned address reaches; none for reserved space (R8, R24). -/
def regAt (a : Nat) : Option (RegKey × Nat) :=
  match blkOf a with
  | none => none
  | some b => b.regs.findSome? fun r => regIn r (a - b.range.1)

/-- Address of a word of a register. -/
def addrOf (k : RegKey) (w : Nat) : Nat :=
  let d := k.r.info
  d.blk.range.1 + d.off + ((d.dims.map Prod.snd).zip [k.i, k.j, k.k]).foldl (fun a p => a + p.1 * p.2) 0 + 4 * w

/-- A block is held in reset (R25, R30, R33, R454): before the timebase is ready only GLB, MB, DMA, LN and the AON blocks run (R14, R17). (DEDUCED, log entry 11.) -/
def State.blkHeld (s : State) (b : Blk) : Bool :=
  match b with
  | .flt => !s.glb.vaux
  | .mon => !s.glb.vaux
  | .bbr => !s.glb.vaux
  | .glb => s.rstHeld
  | .mb => s.rstHeld
  | .dma => s.rstHeld
  | .dw => !s.time.run || s.fbit F.glbBlkRst_DW
  | .drv => !s.time.run || s.fbit F.glbBlkRst_DRV
  | .cal => !s.time.run || s.fbit F.glbBlkRst_CAL
  | .tal => !s.time.run || s.fbit F.glbBlkRst_TAL
  | .nt => !s.time.run || s.fbit F.glbBlkRst_NT
  | .tas => !s.time.run || s.fbit F.glbBlkRst_TAS
  | .sw => !s.time.run || s.fbit F.glbBlkRst_SWPAD
  | .pad => !s.time.run || s.fbit F.glbBlkRst_SWPAD
  | .tb => !s.time.run
  | .syn => !s.time.run
  | .bw => !s.time.run
  | .eo => !s.time.run
  | .tiu => !s.time.run
  | .ln => s.rstHeld
  | .pt => !s.time.run

/-- A requester can reach BAR0 at all: PCIe once BAR access is available (R426, R431). (DEDUCED, log entry 11.) -/
def State.reaches0 (s : State) (q : Requester) : Bool :=
  match q with
  | .pcie => s.glb.barReady
  | _ => s.glb.vaux

/-! ### Latches and staging -/

def State.latchOf (s : State) (q : Requester) (k : RegKey) : Nat := s.latches.get 0 ⟨q, k⟩
def State.latchSet (s : State) (q : Requester) (k : RegKey) (v : Nat) : State :=
  { s with latches := s.latches.put ReqKey.code 0 ⟨q, k⟩ v }
/-- DEDUCED, log entry 12. -/
def State.stageOf (s : State) (q : Requester) (k : RegKey) : Nat := s.staging.get 0 ⟨q, k⟩
def State.stageSet (s : State) (q : Requester) (k : RegKey) (v : Nat) : State :=
  { s with staging := s.staging.put ReqKey.code 0 ⟨q, k⟩ v }

/-- Replace one 32-bit word of a number. -/
def putWord (v w x : Nat) : Nat := setBits v (32 * w + 31) (32 * w) x

/-- One 32-bit word of a number. -/
def wordOf (v w : Nat) : Nat := bits v (32 * w + 31) (32 * w)

end Sys2Proof.Machine
end

