-- ==== Sys2Proof/Machine/BusRead.lean ====
section
/-! DEFINITION. Reading a register: what each one returns, and what the read itself does (R6, R8, R48). -/

namespace Sys2Proof.Machine

/-- Registers of two words that hold a Y48, read sign-extended (R51). -/
def isY48 (r : Reg) : Bool :=
  match r with
  | .tbNcoSw => true
  | .tbNcoApplied => true
  | .bwHoAllow => true
  | .bwHoAging => true
  | .bwYOut => true
  | .bwRestartY => true
  | .bwRefFest => true
  | .ntPortPdfreq => true
  | .ntSesRr => true
  | _ => false

/-- GLB_BOOT_STAT (R455); every device has SB_EN blown (R448). -/
def State.bootStat (s : State) : Nat :=
  let slot (b : Boot → Bool) : Nat := match s.host.boot with
    | none => 0
    | some x => if b x then 2 else 1
  let byOver := match s.host.boot with
    | none => false
    | some x => x.byOver
  1024 + bnat byOver * 512 + bnat s.glb.limited * 256 + slot Boot.l * 64 + slot Boot.m * 16 + bnat s.glb.fwRun * 8 +
    bnat (!s.dramUnavail) * 4 + bnat s.time.run * 2

/-- TB_STAT, its RO fields live (R292). -/
def State.tbStatView (s : State) (v : Nat) : Nat :=
  v % 8 + bnat s.time.valid * 8 + bnat s.deg * 16 + s.time.stepSeq % 16 * 256 + s.time.xoPh % 16 * 4096

/-- SYN_TSYN_STAT (R293). -/
def State.tsynView (s : State) (v : Nat) : Nat :=
  s.tsyn.src.code + bnat s.tsyn.locked * 4 + bnat s.tsyn.bpllLocked * 8 + bits v 5 4 * 16 + bitsOf 16 s.tsyn.perr * 65536

/-- SYN_CSYN_STAT (R293). (DEDUCED, log entry 33.) -/
def State.csynView (s : State) (v : Nat) : Nat :=
  (rne (s.csynFreq : Int) 1000000).toNat % 2048 + s.csyn.band % 4 * 4096 + bnat s.csyn.ramp * 16384 + bnat s.csyn.onTb * 32768 + bits v 17 16 * 65536

/-- SYN_OSYN_STAT(i) (R294). (DEDUCED, log entry 32.) -/
def State.osynView (s : State) (i v : Nat) : Nat :=
  let o := s.getOsyn i
  o.st.code + bnat o.ramping * 4 + bnat o.hit * 8 + bits v 4 4 * 16 + bits v 11 8 * 256 + o.cache.length % 16 * 4096

/-- EO_STAT(n) (R95). -/
def State.eoStatView (s : State) (n v : Nat) : Nat :=
  let c := s.getEo n
  let lvl := if s.bankOn n then c.level else s.fbit F.eoCtl_IDLE n
  let run := c.engine.isSome || (c.track.any fun k => k.runs s.time.now) || c.queue.any fun a => decide (a.kind = .train) && a.active
  v % 4096 + bnat (!s.monitorOn n) * 4096 + c.perr % 8 * 2 ^ 19 + bnat run * 2 ^ 22 + bnat lvl * 2 ^ 23 +
    c.queue.length % 128 * 2 ^ 24

/-- TIU_STAT(u) (R137). -/
def State.tiuStatView (s : State) (u v : Nat) : Nat :=
  let t := s.getTiu u
  v % 256 + bnat t.calHeld * 256 + bnat t.arm.isSome * 512 + bits v 10 10 * 1024 + t.rdq.length % 32 * 65536

/-- DRV_TASK_STAT(d, k) (R216). -/
def Task.stat (t : Task) : Nat :=
  t.pc % 16384 + t.fl.pack * 16384 + t.st.code * 2 ^ 20 + t.tag % 16 * 2 ^ 24 + t.sres % 8 * 2 ^ 28

/-- The 64-bit word at an index of a Drover's memory (R213). -/
def Drover.portRead (x : Drover) (data : Bool) (i : Nat) : Nat :=
  if data then (x.dmem.get 0 i).toNat else (x.word (2 * i)).toNat + (x.word (2 * i + 1)).toNat * 2 ^ 32

/-- A task stands still: its registers may be read and written (R206). -/
def State.taskStill (s : State) (d k : Nat) : Bool :=
  let t := s.getTask d k
  decide (t.st = .stopped) || decide (t.st = .trapped)

/-- CAL_STAT (R267). -/
def State.calStatView (s : State) (v : Nat) : Nat :=
  bits v 0 0 + bnat s.cal.long.isSome * 2 + bits v 2 2 * 4 + bnat s.deg * 8 + bits v 5 4 * 16 + s.cal.slot % 4 * 256

/-- CAL_REGION(r) (R267). -/
def State.calRegionView (s : State) (r : Nat) : Nat :=
  let x := s.getCalReg r
  x.tcap % 65536 + bnat x.pending * 65536 + bnat x.running * 131072

/-- CAL_EO_RES(n) (R269). -/
def State.calEoResView (s : State) (n v : Nat) : Nat :=
  let c := s.getCalEo n
  c.code % 32 + bnat c.hold * 32 + bnat c.pend.isSome * 64 + bnat c.blend.isSome * 128 + bits v 8 8 * 256 +
    ((c.inForce.map EoTab.trim).getD 0) % 64 * 65536

/-- CAL_TIU_RES(u) (R269). -/
def State.calTiuResView (s : State) (u : Nat) : Nat :=
  let c := s.getCalTiu u
  c.code % 32 + bnat (s.getTiu u).calHeld * 32 + c.vtrim % 2 ^ 24 * 256

/-- BBR_STAT (R429). -/
def State.bbrStatView (s : State) (v : Nat) : Nat :=
  bits v 0 0 + bnat s.bbr.triggered * 2 + bnat s.bbr.frozen * 4 + bits v 4 4 * 16 + bnat s.glb.aonRc * 32

/-- TAS_GCL_OPER(p, i) (R393, R407). -/
def State.gclOperView (s : State) (p i : Nat) : Nat :=
  match (s.getSwPort p).oper[i]? with
  | some e => e.1 % 256 + e.2 % 2 ^ 32 * 2 ^ 32
  | none => 255

/-- DRV_TASK_A and DRV_TASK_T read 0 unless the task stands still (R206). -/
def State.taskRegView (s : State) (k : RegKey) (t : Bool) : Nat :=
  if s.taskStill k.i k.j then
    (if t then packT96 ((s.getTask k.i k.j).tget k.k) else ((s.getTask k.i k.j).aget k.k).toNat)
  else 0

/-- What a register reads as for a requester, before anything the read itself does. -/
def State.view (s : State) (q : Requester) (k : RegKey) : Nat :=
  let v := s.rget k
  match k.r with
  | .glbBootStat => s.bootStat
  | .fltStat => v % 2 ^ 31 + bnat s.flt.pinLow * 2 ^ 31
  | .fltFirst => (s.flt.first.map BbrRec.pack).getD 0
  | .dmaAperBase => v % 16 + bnat s.dramUnavail * 16
  | .dmaRingStat => bits v 1 1 * 2 + bnat (s.getRing k.i).talFrom.isSome
  | .tbStat => s.tbStatView v
  | .tbNow => packT96 s.nowI
  | .tbNcoApplied => packY48 s.time.yShown
  | .synTsynStat => s.tsynView v
  | .synBpllStat => bitsOf 16 s.tsyn.aerr
  | .synCsynStat => s.csynView v
  | .synOsynStat => s.osynView k.i v
  | .bwHoTe => bitsOf 64 s.hoTe
  | .bwHoElapsed => s.hoElapsed
  | .bwYOut => packY48 s.bw.y
  | .bwPsi => bitsOf 64 s.psiS64
  | .eoStat => s.eoStatView k.i v
  | .eoQres => let r := s.getQres q k.i; r.code % 16 + r.seq % 256 * 256
  | .eoProfPos => s.profPos k.i
  | .tiuStat => s.tiuStatView k.i v
  | .talStat => v % 128 - bits v 1 1 * 2 + bnat s.talActive * 2 + bnat s.dramUnavail * 128
  | .dwChCfg => if s.mayReadCh q k.i then v else 0
  | .dwChSrc => if s.mayReadCh q k.i then v else 0
  | .dwChOwn => if s.mayReadCh q k.i then v else 0
  | .dwFlCtl => setBits v 0 0 (bnat (s.flockNow k.i))
  | .drvStat => setBits v 1 1 (bnat (s.getDrv k.i).faulted)
  | .drvProgStat => (s.getDrv k.i).progRes % 4
  | .drvMemData => (s.getDrv k.i).portRead (s.fbit F.drvMemAddr_SPACE k.i) (s.fget F.drvMemAddr_INDEX k.i)
  | .drvTaskStat => (s.getTask k.i k.j).stat
  | .drvTaskTrap => (s.getTask k.i k.j).trap
  | .drvInStat => ((s.getTask k.i k.j).iget k.k).pack
  | .drvTaskA => s.taskRegView k false
  | .drvTaskT => s.taskRegView k true
  | .calStat => s.calStatView v
  | .calCmdRes => let r := s.getCalRes q; r.code % 32 + bnat r.done * 256 + r.seq % 256 * 65536
  | .calSeq => s.cal.seq % 2 ^ 32
  | .calRegion => s.calRegionView k.i
  | .calEoRes => s.calEoResView k.i v
  | .calTiuRes => s.calTiuResView k.i
  | .calEoTab => s.eoTabWord k.i k.j
  | .calTiuTab => s.tiuTabWord k.i k.j
  | .ntPortStat => setBits (setBits v 3 3 (bnat (s.fineRx k.i))) 2 2 (bnat (s.fineTx k.i))
  | .lnQuadStat => setBits v 3 3 (bnat (s.fbit F.lnQuadCtl_SYNT k.i && decide (syntLimit < s.time.y.natAbs)))
  | .padFree => s.padFree
  | .tasGclOper => s.gclOperView k.i k.j
  | .bbrStat => s.bbrStatView v
  | .bbrSeq => s.bbr.seq % 2 ^ 32
  | .bbrWptr => s.bbr.wptr % 16384
  | .bbrTrigSeq => s.bbr.trigSeq % 2 ^ 32
  | .bbrSpillWptr => s.bbr.spill % 8388608
  | .bbrRec => (s.bbr.ring.get ⟨0, 0, 0, 0, 0, 0, 0⟩ k.i).pack
  | r => if isY48 r then packY48 (y48Of v) else v

/-- The value of a register with its RC fields cleared. -/
def clearRc (fs : List FldDef) (v : Nat) : Nat :=
  fs.foldl (fun a f => if f.acc = .rc then setBits a f.hi f.lo 0 else a) v

/-- The read clears the RC fields (R6). -/
def State.rcClear (s : State) (k : RegKey) : State :=
  if k.r.info.flds.any fun f => decide (f.acc = .rc) then s.rset k (clearRc k.r.info.flds (s.rget k)) else s

/-- DRV_MEM_ADDR.INDEX moves on (R213). -/
def State.memIndexNext (s : State) (d : Nat) : State :=
  if s.fbit F.drvMemAddr_AUTOINC d then
    let size := if s.fbit F.drvMemAddr_SPACE d then 4096 else 8192
    s.fset F.drvMemAddr_INDEX ((s.fget F.drvMemAddr_INDEX d + 1) % size) d
  else s

/-- A read of a whole register, as an access to its lowest word makes it: the value and what the read does. An RC field in a later word
clears with this read, which latches it. (DESIGN CHOICE, log entry 85.) -/
def State.regRead (s : State) (q : Requester) (k : RegKey) : Nat × State :=
  match k.r with
  | .tiuRes => s.rdqPop k.i
  | .ptTsf => s.tsfPop k.i
  | .drvMemData => (s.view q k, s.memIndexNext k.i)
  | _ => (s.view q k, s.rcClear k)

/-- A staged word of EO_QE or EO_TE as it reads: word 8 carries the sign of PERIOD in [31:16] (R71). (DEDUCED, log entry 12.) -/
def entryWord (st w : Nat) : Nat :=
  let v := wordOf st w
  if w = 8 then v % 65536 + (if bit v 15 then 0xFFFF0000 else 0) else v

/-- A read of one word of a register (R48); EO_QE and EO_TE read as staged (R101). (DEDUCED, log entry 10.) -/
def State.wordRead (s : State) (q : Requester) (k : RegKey) (w : Nat) : Nat × State :=
  if k.r = .eoQe ∨ k.r = .eoTe then (entryWord (s.stageOf q k) w, s)
  else if w = 0 then
    let r := s.regRead q k
    (wordOf r.1 0, if k.r.info.words = 1 then r.2 else r.2.latchSet q k (r.1 / 2 ^ 32))
  else (wordOf (s.latchOf q k) (w - 1), s)

/-- A BAR0 read of one word: the data, whether the block was held in reset and answered its reset value (R25), and the state after. -/
def State.busReadWord (s : State) (q : Requester) (a : Nat) : Nat × Bool × State :=
  if !s.reaches0 q then (0, true, s)
  else match blkOf a with
    | none => (0, false, s)
    | some b =>
      match regAt (a / 4 * 4) with
      | none => (0, s.blkHeld b, s)
      | some (k, w) =>
        if s.blkHeld b then (wordOf (regReset k) w, true, s)
        else
          let r := s.wordRead q k w
          (r.1, false, r.2)

/-- A BAR0 read by a requester, its data kept as the last response. -/
def State.busRead (s : State) (q : Requester) (a : Nat) : State :=
  let r := s.busReadWord q a
  r.2.2.setResp { data := r.1, status := bnat r.2.1 }

/-- A read of the lowest word of a register. (DEDUCED, log entry 10.) -/
def State.busFrom (s : State) (q : Requester) (r : Reg) (i : Nat := 0) (j : Nat := 0) (k : Nat := 0) : State :=
  s.busRead q (addrOf ⟨r, i, j, k⟩ 0)

end Sys2Proof.Machine
end

