-- ==== Sys2Proof/Machine/BusField.lean ====
section
/-! DEFINITION. Writing fields under their access codes and range rules (R6, R9, R36, R43, R50), and each block's WR_ERR. -/

namespace Sys2Proof.Machine

/-- A gate selector that R158 lists. -/
def gselOk (g : Nat) : Bool :=
  decide (g ≤ 0x010) || decide (0x020 ≤ g ∧ g ≤ 0x02F) || decide (0x040 ≤ g ∧ g ≤ 0x042) || decide (0x080 ≤ g ∧ g ≤ 0x0BF) ||
  decide (0x100 ≤ g ∧ g ≤ 0x1FF)

/-- A written field value lies in its range (R9). -/
def Rng.ok (r : Rng) (x : Nat) : Bool :=
  match r with
  | .any => true
  | .span lo hi => decide (lo ≤ x ∧ x ≤ hi)
  | .canon => decide (t96Ns x < nsPerSec)
  | .mul32 => decide (x % 32 = 0)
  | .even2 => decide (x % 2 = 0 ∧ 2 ≤ x)
  | .gsel => gselOk x
  | .nonneg => decide (0 ≤ y48Of x)
  | .alpha => let a := s64Of x; decide (-(2 ^ 62) ≤ 100 * a ∧ 100 * a ≤ 2 ^ 62)
  | .logSync => decide (-7 ≤ signedOf 4 x ∧ signedOf 4 x ≤ 4)
  | .logDreq => decide (-7 ≤ signedOf 4 x ∧ signedOf 4 x ≤ 6)

/-- The bits of a number that are not in a mask. -/
def without (x m : Nat) : Nat := x - (x &&& m)

/-- The register value after one field of a write, and whether that field was out of range. `hw` has the bits that a hardware event has
acted on in this cycle, which a write leaves alone (R7). -/
def fieldWrite (lock : Bool) (hw v : Nat) (a : Nat × Bool) (f : FldDef) : Nat × Bool :=
  let x := bits v f.hi f.lo
  let y := without x (bits hw f.hi f.lo)
  let old := bits a.1 f.hi f.lo
  let take : Nat × Bool := if f.rng.ok x then (setBits a.1 f.hi f.lo x, a.2) else (a.1, true)
  match f.acc with
  | .ro => a
  | .wo => a
  | .rc => a
  | .rw => take
  | .rws => take
  | .rwl => if lock then a else take
  | .rw1c => (setBits a.1 f.hi f.lo (old - (old &&& y)), a.2)
  | .rw1s => (setBits a.1 f.hi f.lo (old ||| y), a.2)

/-- All fields of a write: the new value of the register, and whether some field was out of range. -/
def fieldsWrite (fs : List FldDef) (old hw v : Nat) : Nat × Bool :=
  let lock := (fs.any fun f => decide (f.acc = .rwl)) && bit old 31
  fs.foldl (fieldWrite lock hw v) (old, false)

/-- Where an out-of-range or refused write to a register shows (R9): its block's WR_ERR. TAS has none. -/
def State.wrErr (s : State) (k : RegKey) : State :=
  match k.r.info.blk with
  | .glb => s.fon F.glbErr_WR_ERR
  | .flt => s.fon F.fltStat_WR_ERR
  | .mon => s.fon F.fltStat_WR_ERR
  | .mb => s.fon F.mbStatus_WR_ERR
  | .dma => s.fon F.dmaStat_WR_ERR
  | .tb => s.fon F.tbStat_WR_ERR
  | .syn => s.fon F.synStat_WR_ERR
  | .bw => s.fon F.bwStat_WR_ERR
  | .eo => s.fon F.eoStat_WR_ERR (if k.r = .eoBankCtl then 8 * k.i else k.i)
  | .tiu => s.fon F.tiuStat_WR_ERR k.i
  | .tal => s.fon F.talStat_WR_ERR
  | .dw => s.fon F.dwStat_WR_ERR
  | .drv => s.fon F.drvStat_WR_ERR k.i
  | .cal => s.fon F.calStat_WR_ERR
  | .nt => s.fon F.ntStat_WR_ERR
  | .ln => s.fon F.lnStat_WR_ERR (if k.r = .lnQuadCtl then 4 * k.i else k.i)
  | .pt => s.fon F.ptStat_WR_ERR k.i
  | .sw => s.fon F.swStat_WR_ERR
  | .pad => s.fon F.padStat_WR_ERR
  | .tas => s
  | .bbr => s.fon F.bbrStat_WR_ERR

def State.wrErrIf (s : State) (c : Bool) (k : RegKey) : State := if c then s.wrErr k else s

/-- Store a written value by the access codes and ranges of its fields (R6, R9). An out-of-range field keeps its value; a register
of several words keeps all of it (R50). -/
def State.store (s : State) (k : RegKey) (v : Nat) : State :=
  let d := k.r.info
  let r := fieldsWrite d.flds (s.rget k) (s.hwMask k) v
  if r.2 then (if d.words = 1 then s.rset k r.1 else s).wrErr k else s.rset k r.1

/-- A Y48 register takes any value and clamps it (R43); a negative one is refused where the register's table says so. (DEDUCED, log entry 14.) -/
def State.storeY48 (s : State) (k : RegKey) (v : Nat) (neg : Bool) : State :=
  if !neg && decide (y48Of v < 0) then s.wrErr k else s.rset k (bitsOf 48 (clampY48 (y48Of v)).1)

/-- A written value with some fields held at what they are, and whether the write would have changed one of them. -/
def holdFields (old : Nat) : List Fld → Nat → Nat × Bool
  | [], v => (v, false)
  | f :: t, v =>
    let r := holdFields old t v
    (setBits r.1 f.hi f.lo (bits old f.hi f.lo), r.2 || decide (bits v f.hi f.lo ≠ bits old f.hi f.lo))

/-- Store a write whose fields `fs` may not change while `c` holds; the attempt shows in WR_ERR. -/
def State.storeHeld (s : State) (k : RegKey) (v : Nat) (c : Bool) (fs : List Fld) : State :=
  let r := if c then holdFields (s.rget k) fs v else (v, false)
  (s.store k r.1).wrErrIf r.2 k

end Sys2Proof.Machine
end

