-- ==== Sys2Proof/Machine/BusEo.lean ====
section
/-! DEFINITION. What writes of the EO, TIU, TAL, DW, DRV and CAL registers do beyond storing (R94 to R107, R136 to R147, R170 to R178,
R209 to R219, R267 to R269). -/

namespace Sys2Proof.Machine

/-! ### Edge outputs -/

/-- EO_CTL (R69, R93, R94). (DEDUCED, log entry 46.) -/
def State.wrEoCtl (s : State) (n v : Nat) : State :=
  let k : RegKey := ⟨.eoCtl, n, 0, 0⟩
  let was := s.fbit F.eoCtl_EN n
  let idle := s.fbit F.eoCtl_IDLE n
  let s1 := s.storeHeld k v was [F.eoCtl_POL, F.eoCtl_IDLE, F.eoCtl_SRC]
  let s2 := if s.glb.limited then s1.fset F.eoCtl_EN 0 n else s1
  let en := s2.fbit F.eoCtl_EN n
  if was && !en then s2.eoDisableCh n
  else if !was && en then (s2.setEo n { s2.getEo n with reactSeen := s2.flt.reacts.length }).eoEnableCh n
  else if s2.fbit F.eoCtl_IDLE n != idle then
    s2.setEo n { s2.getEo n with level := s2.fbit F.eoCtl_IDLE n, flevel := s2.fbit F.eoCtl_IDLE n, committed := [] }
  else s2

/-- EO_TRIG_CTL (R97): ARMED stays as an event of the same cycle has left it. -/
def State.wrTrigCtl (s : State) (n v : Nat) : State :=
  let k : RegKey := ⟨.eoTrigCtl, n, 0, 0⟩
  let f := F.eoTrigCtl_ARMED
  s.store k (if bit (s.hwMask k) f.lo then setBits v f.hi f.lo (s.fget f n) else v)

/-- EO_BANK_CTL (R67, R107). -/
def State.wrBank (s : State) (b v : Nat) : State :=
  let was := s.fbit F.eoBankCtl_PWR b
  let s1 := s.store ⟨.eoBankCtl, b, 0, 0⟩ v
  if was && !s1.fbit F.eoBankCtl_PWR b then s1.bankDown b
  else if !was && s1.fbit F.eoBankCtl_PWR b then s1.bankUp b
  else s1

/-- EO_SEG: a bank in use takes no write (R87, R106). -/
def State.wrEoSeg (s : State) (k : RegKey) (v : Nat) : State := if s.bankInUse k.i k.j then s.wrErr k else s.store k v

/-! ### Units and Tally -/

/-- TIU_CTL (R113, R116, R136): MONITOR is out of range on TIU0 to TIU31. -/
def State.wrTiuCtl (s : State) (u v : Nat) : State :=
  let k : RegKey := ⟨.tiuCtl, u, 0, 0⟩
  let old := s.rget k
  let s1 := s.storeHeld k v (decide (u < 32) && decide (bits v 2 0 = 4)) [F.tiuCtl_MODE]
  let new := s1.rget k
  if bits old 5 3 = bits new 5 3 ∧ bits old 2 0 = bits new 2 0 then s1 else s1.tiuModeChanged u (bits old 2 0)

/-- TIU_ARM (R115, R116, R138). -/
def State.wrTiuArm (s : State) (u v : Nat) : State :=
  let k : RegKey := ⟨.tiuArm, u, 0, 0⟩
  let s1 := s.store k v
  if bit v 31 ∧ bit v 30 then s1.wrErr k
  else if bit v 31 then s1.tiuArmWith u s1.nowI 0 (s1.fget F.tiuArm_COUNT u)
  else if bit v 30 then s1.tiuDisarmWith u s1.nowI
  else s1

/-- TIU_FREQ (R121, R140): a new PRE starts the prescaler anew. -/
def State.wrTiuFreq (s : State) (u v : Nat) : State :=
  let s1 := s.store ⟨.tiuFreq, u, 0, 0⟩ v
  if s1.fget F.tiuFreq_PRE u = s.fget F.tiuFreq_PRE u then s1
  else s1.setTiu u { s1.getTiu u with pre := 0, preFresh := true }

/-- The bits of word `i` of a shadow half of CAL_EO_TAB that hold something: the others are reserved (R8, R269). -/
def eoShadowBits (i : Nat) : Nat :=
  if i = 2 then 0
  else if i = 4 then 0xFF
  else if i = 5 then 0x3F
  else if i = 9 then 0x1FFFFF
  else if 10 ≤ i ∧ i < 16 then 0
  else if i < 120 then 0xFFFFFFFF
  else 0

/-- TIU_OFS (R142). -/
def State.wrTiuOfs (s : State) (k : RegKey) (v : Nat) : State := if (s.getTiu k.i).calHeld then s.wrErr k else s.store k v

/-- TAL_CTL (R133, R134, R145). -/
def State.wrTalCtl (s : State) (v : Nat) : State :=
  let k : RegKey := ⟨.talCtl, 0, 0, 0⟩
  let was := s.fbit F.talCtl_EN
  let s1 := s.storeHeld k (setBits v 0 0 (bnat was)) was [F.talCtl_MODE, F.talCtl_TRIG_EN]
  let s2 :=
    if bit v 0 && !was then (if s1.talEnableOk (s1.fbit F.talCtl_TRIG_EN) then s1.talStart else s1.wrErr k)
    else if was && !bit v 0 then s1.talStop
    else s1
  if bit v 7 then s2.talTrigger s2.nowI else s2

/-- TAL_BASE, TAL_SIZE, TAL_PRE and TAL_POST (R134). -/
def State.wrTalRing (s : State) (k : RegKey) (v : Nat) : State := if s.fbit F.talCtl_EN then s.wrErr k else s.store k v

/-! ### The Droveway -/

/-- A write of a channel's DW_CH_CFG, DW_CH_SRC or DW_CH_OWN passes its lock and its owner (R164, R165). (DEDUCED, log entry 13.) -/
def State.chGuard (s : State) (q : Requester) (c : Nat) (f : State → State) : State :=
  if s.fbit F.dwChOwn_LOCK c then s.fon F.dwStat_LOCK_ERR
  else if s.mayWriteCh q c then f s
  else s.ownRefused q c

/-- DW_CH_CFG (R166, R170). -/
def State.wrChCfg (s : State) (c v : Nat) : State :=
  let k : RegKey := ⟨.dwChCfg, c, 0, 0⟩
  let en := s.fbit F.dwChCfg_EN c
  let busy := s.chBusy c
  let s1 := s.storeHeld k (setBits v 0 0 (bnat en)) (en || busy)
    [F.dwChCfg_GSEL, F.dwChCfg_FLOCK, F.dwChCfg_FL_MEM, F.dwChCfg_SRCB_EN, F.dwChCfg_GINV, F.dwChCfg_ASYNC]
  if bit v 0 ∧ !en ∧ !busy then s1.chEnable c
  else if !bit v 0 ∧ (en ∨ busy) then s1.chDisable c
  else s1

/-- DW_CH_SRC (R170, R171). -/
def State.wrChSrc (s : State) (c v : Nat) : State :=
  s.storeHeld ⟨.dwChSrc, c, 0, 0⟩ v (s.fbit F.dwChCfg_EN c || s.chBusy c) [F.dwChSrc_SRC_A, F.dwChSrc_SRC_B]

/-- The SECURE channel that a selection names, if it names one (R164). -/
def State.secureOf (s : State) (sel : Nat) : Option Nat :=
  if bits sel 29 28 = 2 ∧ s.isSecure (bits sel 7 0) then some (bits sel 7 0) else none

/-- The ranges of a selection (R178): MODE is not 0b11, nor FIXED without a wire; CH is no asynchronous channel at a consumer other than
EVOUT. -/
def selModeOk (x sel : Nat) : Bool :=
  let m := bits sel 29 28
  decide (m ≠ 3) && !(decide (m = 1) && (fixedWire x).isNone)
def State.selChOk (s : State) (x sel : Nat) : Bool := decide (0x3A8 ≤ x ∧ x ≤ 0x3B7) || !s.fbit F.dwChCfg_ASYNC (bits sel 7 0)

/-- DW_CON_SEL(x) (R156, R164, R165, R178). (DEDUCED, log entry 13.) -/
def State.wrConSel (s : State) (q : Requester) (x v : Nat) : State :=
  let k : RegKey := ⟨.dwConSel, x, 0, 0⟩
  let old := s.rget k
  let foreign := ([s.secureOf v, s.secureOf old].filterMap id).find? fun c => !s.isOwner q c
  if s.fbit F.dwConSel_LOCK x then s.fon F.dwStat_LOCK_ERR
  else match foreign with
    | some c => s.ownRefused q c
    | none =>
      let held := (if selModeOk x v then [] else [F.dwConSel_MODE]) ++ (if s.selChOk x v then [] else [F.dwConSel_CH])
      ((s.defer k).storeHeld k v true held).wrErrIf (!held.isEmpty) k

/-- DW_CTL (R165, R175). -/
def State.wrDwCtl (s : State) (v : Nat) : State :=
  if s.fbit F.dwCtl_LOCK then s.fon F.dwStat_LOCK_ERR else s.store ⟨.dwCtl, 0, 0, 0⟩ v

/-- DW_SWF (R153). -/
def State.wrSwf (s : State) (v : Nat) : State :=
  (List.range 16).foldl (fun st i => if bit v i then st.raiseEv (Prod.swf i) st.nowI 0 else st) s

/-- DW_FL_CTL (R162, R176). -/
def State.wrFlCtl (s : State) (f v : Nat) : State := (s.store ⟨.dwFlCtl, f, 0, 0⟩ v).flockSet f s.nowI (bit v 0) 0

/-- DW_TMR_CTL (R152, R177). -/
def State.wrTmrCtl (s : State) (i v : Nat) : State :=
  let s1 := s.store ⟨.dwTmrCtl, i, 0, 0⟩ v
  if !s.fbit F.dwTmrCtl_EN i && bit v 0 then s1.tmrEnable i else s1

/-- DW_TMR_COUNT, DW_TMR_PERIOD and DW_TMR_ANCHOR (R177). -/
def State.wrTmrPar (s : State) (k : RegKey) (v : Nat) : State := if s.fbit F.dwTmrCtl_EN k.i then s.wrErr k else s.store k v

/-! ### Drovers -/

/-- DRV_CTL (R207, R209). -/
def State.wrDrvCtl (s : State) (d v : Nat) : State :=
  let s1 := s.store ⟨.drvCtl, d, 0, 0⟩ v
  if bit v 0 then s1.resetDrover d else s1

/-- DRV_PROG (R203, R212). -/
def State.wrDrvProg (s : State) (d v : Nat) : State :=
  let k : RegKey := ⟨.drvProg, d, 0, 0⟩
  let len := bits v 14 0
  if s.drvBusy d ∨ 16384 < len then s.wrErr k
  else
    let s1 := s.store k v
    s1.setDrv d { s1.getDrv d with progRes := 1 }

/-- DRV_MEM_ADDR (R213): INDEX is judged in the space that the write selects. -/
def State.wrMemAddr (s : State) (d v : Nat) : State :=
  let k : RegKey := ⟨.drvMemAddr, d, 0, 0⟩
  let size := if bit v 31 then 4096 else 8192
  if bits v 12 0 < size then s.store k v
  else
    let keep := if s.fget F.drvMemAddr_INDEX d < size then [F.drvMemAddr_INDEX] else [F.drvMemAddr_INDEX, F.drvMemAddr_SPACE]
    (s.storeHeld k v true keep).wrErr k

/-- DRV_MEM_DATA (R206, R213). -/
def State.wrMemData (s : State) (d v : Nat) : State :=
  let i := s.fget F.drvMemAddr_INDEX d
  let x := s.getDrv d
  if s.fbit F.drvMemAddr_SPACE d then (s.setDrv d { x with dmem := x.dmem.put id 0 i (BitVec.ofNat 64 v) }).memIndexNext d
  else if s.drvBusy d then s.wrErr ⟨.drvMemData, d, 0, 0⟩
  else
    let m1 := x.imem.put id 0 (2 * i) (BitVec.ofNat 32 v)
    let m2 := m1.put id 0 (2 * i + 1) (BitVec.ofNat 32 (v / 2 ^ 32))
    (s.setDrv d { x with imem := m2, progRes := 0 }).memIndexNext d

/-- DRV_TASK_A and DRV_TASK_T (R36, R206, R219). -/
def State.wrTaskA (s : State) (k : RegKey) (v : Nat) : State :=
  if s.taskStill k.i k.j then s.setTask k.i k.j ((s.getTask k.i k.j).aput k.k (BitVec.ofNat 64 v)) else s.wrErr k

def State.wrTaskT (s : State) (k : RegKey) (v : Nat) : State :=
  match unpackT96 (v % 2 ^ 96) with
  | some t => if s.taskStill k.i k.j then s.setTask k.i k.j ((s.getTask k.i k.j).tput k.k t) else s.wrErr k
  | none => s.wrErr k

/-- DRV_TASK_CTL (R204, R205, R215). -/
def State.wrTaskCtl (s : State) (k : RegKey) (v : Nat) : State := (s.store k v).taskControl k.i k.j v

end Sys2Proof.Machine
end

