-- ==== Sys2Proof/Machine/BusSys.lean ====
section
/-! DEFINITION. What writes of the GLB, FLT, MON, BBR, MB, DMA, SW, PAD and TAS registers do beyond storing (R33, R384 to R407, R417,
R424, R427 to R429, R432, R442, R455, R456). -/

namespace Sys2Proof.Machine

/-! ### Global, faults, sensors, black box -/

/-- GLB_BLK_RST: each bit written as 1 starts the reset of its block (R33). -/
def State.wrBlkRst (s : State) (v : Nat) : State :=
  (List.range 8).foldl (fun st b => if bit v b then st.blockReset b else st) s

/-- FLT_CTL (R412, R427): WDOG_EN becoming 1 and a change of WDOG_MS restart the watchdog. -/
def State.wrFltCtl (s : State) (v : Nat) : State :=
  let s1 := s.store ⟨.fltCtl, 0, 0, 0⟩ v
  if (!s.fbit F.fltCtl_WDOG_EN && s1.fbit F.fltCtl_WDOG_EN) || decide (s.fget F.fltCtl_WDOG_MS ≠ s1.fget F.fltCtl_WDOG_MS) then
    s1.wdogRestart
  else s1

/-- MON_SUP_WIN(r) (R9, R428): LO is at least nominal - 10 %, HI at most nominal + 10 % and above the LO that stands after the write; a
field out of its range keeps its value. (DEDUCED, log entry 13.) -/
def State.wrSupWin (s : State) (k : RegKey) (v : Nat) : State :=
  let n := railNominal k.i
  let badLo := decide (10 * bits v 11 0 < 9 * n)
  let lo := if badLo then s.fget F.monSupWin_LO k.i else bits v 11 0
  let badHi := decide (11 * n < 10 * bits v 27 16) || decide (bits v 27 16 ≤ lo)
  let held := (if badLo then [F.monSupWin_LO] else []) ++ (if badHi then [F.monSupWin_HI] else [])
  (s.storeHeld k v true held).wrErrIf (badLo || badHi) k

/-- BBR_CTL (R424, R429). (DEDUCED, log entry 13.) -/
def State.wrBbrCtl (s : State) (v : Nat) : State :=
  let s1 := s.store ⟨.bbrCtl, 0, 0, 0⟩ v
  let s2 := if bit v 4 then s1.bbrTrigger 1 none else s1
  if bit v 5 then s2.bbrRearm else s2

/-- BBR_PRE and BBR_POST: a sum above 16,383 is refused (R424). -/
def State.wrBbrLen (s : State) (k : RegKey) (v : Nat) : State :=
  let s1 := s.store k v
  if s1.bbrOver then s.wrErr k else s1

/-! ### DMA and MSI-X -/

/-- A ring register written while EN = 1 (R456). -/
def State.wrRingPar (s : State) (k : RegKey) (v : Nat) : State := if s.fbit F.dmaRingCfg_EN k.i then s.wrErr k else s.store k v

/-- A write of DMA_RING_CFG(i) (R456): TRIG is out of range on rings 4 to 15. (DEDUCED, log entry 76.) -/
def State.ringCfgWrite (s : State) (i v : Nat) : State :=
  if s.fbit F.dmaRingCfg_EN i then
    let s1 := s.fon F.dmaStat_WR_ERR
    if bit v 31 then s1 else s1.ringDisable i
  else
    let s1 := s.storeHeld ⟨.dmaRingCfg, i, 0, 0⟩ (setBits v 31 31 0) (decide (4 ≤ i)) [F.dmaRingCfg_TRIG]
    if bit v 31 then s1.ringEnable i else s1

/-- MSI-X table: a pending vector leaves when its mask clears (R432). (DEDUCED, log entry 12.) -/
def State.wrMsix (s : State) (i v : Nat) : State :=
  let s1 := s.store ⟨.msixTable, i, 0, 0⟩ v
  let p := s1.fget F.msixPba_PENDING
  if !s1.fbit F.msixTable_MASK i && bit p i then (s1.fset F.msixPba_PENDING (p - 2 ^ i)).msixMessage i else s1

/-! ### Switch, Paddock, scheduler -/

/-- SW_MAC: software writes an entry (R379, R405). -/
def State.wrMac (s : State) (k : RegKey) (v : Nat) : State := (s.store k v).macTouch k.i

/-- SW_SAMPLE(p): the count restarts (R402). -/
def State.wrSample (s : State) (p v : Nat) : State :=
  let s1 := s.store ⟨.swSample, p, 0, 0⟩ v
  s1.setSwPort p { s1.getSwPort p with sampCnt := 0 }

/-- SW_FRR(p) (R391, R405): a port is not its own alternate. -/
def State.wrFrr (s : State) (p v : Nat) : State :=
  let k : RegKey := ⟨.swFrr, p, 0, 0⟩
  let bad := decide (bits v 5 0 = p)
  ((s.storeHeld k v bad [F.swFrr_ALT]).wrErrIf bad k).frrWritten p

/-- PAD_HR(p, c) (R384, R388): while HR_AUTO, only firmware writes it. -/
def State.wrHr (s : State) (q : Requester) (k : RegKey) (v : Nat) : State :=
  if s.fbit F.padCtl_HR_AUTO ∧ q ≠ .fw then s.wrErr k else s.padReserve .padHr k.i k.j (v % 65536)

/-- TAS_GCL_CTL(p) (R393, R407). -/
def State.wrGclCtl (s : State) (p v : Nat) : State :=
  let s1 := s.store ⟨.tasGclCtl, p, 0, 0⟩ v
  if bit v 31 then s1.gclChange p else s1

/-- The port's mode runs preemption (R395). -/
def State.preemptMode (s : State) (p : Nat) : Bool :=
  decide (p < 48) && (decide (s.fget F.ptCfg_MODE p = 1) || decide (s.fget F.ptCfg_MODE p = 2))

/-- TAS_PREEMPT(p) (R395, R407). -/
def State.wrPreempt (s : State) (p v : Nat) : State :=
  (s.storeHeld ⟨.tasPreempt, p, 0, 0⟩ v (bit v 31 && !s.preemptMode p) [F.tasPreempt_EN]).preemptNow p

/-- TAS_FL(p): EN = 1 is out of range on a 1000BASE-X port (R399, R407). -/
def State.wrFl (s : State) (p v : Nat) : State :=
  if bit v 64 ∧ s.fget F.ptCfg_MODE p = 0 then s else s.store ⟨.tasFl, p, 0, 0⟩ v

end Sys2Proof.Machine
end

