-- ==== Sys2Proof/Machine/BusTime.lean ====
section
/-! DEFINITION. What writes of the TB, SYN, BW, NT, LN and PT registers do beyond storing (R292 to R295, R319 to R321, R349 to R353,
R377, R378). -/

namespace Sys2Proof.Machine

/-! ### Timebase and synthesizers -/

/-- TB_CTL (R272, R292). -/
def State.wrTbCtl (s : State) (v : Nat) : State :=
  let s1 := s.store ⟨.tbCtl, 0, 0, 0⟩ v
  if s.fbit F.tbCtl_NCO_SRC == s1.fbit F.tbCtl_NCO_SRC then s1 else s1.ncoSrcChanged

/-- SS_MODE and SS_DEPTH together lie within R284. (DEDUCED, log entry 33.) -/
def spreadOk (mode depth : Nat) : Bool :=
  if mode = 0 then true
  else if mode = 1 then decide (2 ≤ depth ∧ depth ≤ 10)
  else if mode = 2 then decide (1 ≤ depth ∧ depth ≤ 5)
  else false

/-- SYN_CSYN_CTL (R281, R284, R293). -/
def State.wrCsyn (s : State) (v : Nat) : State :=
  let k : RegKey := ⟨.synCsynCtl, 0, 0, 0⟩
  let bad := !spreadOk (bits v 25 24) (bits v 29 26)
  let f := s.csynFreq
  let s1 := (s.storeHeld k v bad [F.synCsynCtl_SS_MODE, F.synCsynCtl_SS_DEPTH]).wrErrIf bad k
  if s1.fget F.synCsynCtl_TGT = s.fget F.synCsynCtl_TGT ∧ s1.fget F.synCsynCtl_RATE = s.fget F.synCsynCtl_RATE then s1
  else s1.csynWritten f

/-- SYN_OSYN_CTL(i) (R291, R294): limited mode keeps EN at 0. -/
def State.wrOsynCtl (s : State) (i v : Nat) : State :=
  let s1 := s.store ⟨.synOsynCtl, i, 0, 0⟩ v
  let s2 := if s.glb.limited then s1.fset F.synOsynCtl_EN 0 i else s1
  if s.fbit F.synOsynCtl_EN i && !s2.fbit F.synOsynCtl_EN i then s2.osynOff i else s2

/-- SYN_OSYN_SEG(i, s) (R287, R295). -/
def State.wrOsynSeg (s : State) (k : RegKey) (v : Nat) : State := if (s.getOsyn k.i).ramping then s.wrErr k else s.store k v

/-! ### Bellwether -/

/-- BW_CTL (R317, R319). -/
def State.wrBwCtl (s : State) (v : Nat) : State := (s.store ⟨.bwCtl, 0, 0, 0⟩ v).bwForce

/-- BW_REF_CFG(r) (R296, R302, R321). (DEDUCED, log entry 13.) -/
def State.wrRefCfg (s : State) (r v : Nat) : State :=
  let k : RegKey := ⟨.bwRefCfg, r, 0, 0⟩
  let old := s.rget k
  let bad := !indexOk (if bits v 2 0 < 6 then bits v 2 0 else bits old 2 0) (bits v 15 8)
  let s1 := (s.storeHeld k v bad [F.bwRefCfg_TYPE, F.bwRefCfg_INDEX]).wrErrIf bad k
  let new := s1.rget k
  if bits old 2 0 = bits new 2 0 ∧ bits old 15 8 = bits new 15 8 ∧ bit old 19 = bit new 19 then s1 else s1.candConfig r

/-- BW_REF_SW(r): a commit delivers one sample; one that is not accepted leaves the register as it is (R50, R299). -/
def State.wrRefSw (s : State) (r v : Nat) : State :=
  if s.candType r = 5 then (s.store ⟨.bwRefSw, r, 0, 0⟩ v).bwSwCommit r (s64Of v) else s.bwSwCommit r (s64Of v)

/-! ### Network time -/

/-- A session names a domain slot: it is enabled with DOM = m. -/
def State.slotNamed (s : State) (m : Nat) : Bool :=
  (s.listed .ntSesCfg).any fun c => bit c.2 31 && decide (bits c.2 24 21 = m)

/-- Another enabled slot holds the same key (R324). -/
def State.keyShared (s : State) (m v : Nat) : Bool :=
  (List.range 16).any fun o =>
    decide (o ≠ m) && decide (s.fget F.ntDomCfg_MODE o ≠ 0) && decide (bits (s.rget ⟨.ntDomCfg, o, 0, 0⟩) 19 0 = bits v 19 0)

/-- NT_DOM_CFG(m) (R324, R349). -/
def State.wrDomCfg (s : State) (m v : Nat) : State :=
  let k : RegKey := ⟨.ntDomCfg, m, 0, 0⟩
  let bad := decide (bits v 22 20 ≠ 0) && s.keyShared m v
  (s.storeHeld k v (bad || s.slotNamed m) [F.ntDomCfg_MODE, F.ntDomCfg_SDOID, F.ntDomCfg_DOMAIN]).wrErrIf bad k

/-- NT_SES_CFG(i) (R351). -/
def State.wrSesCfg (s : State) (i v : Nat) : State :=
  let k : RegKey := ⟨.ntSesCfg, i, 0, 0⟩
  let en := s.fbit F.ntSesCfg_EN i
  let s1 := s.storeHeld k (setBits v 31 31 (bnat en)) en
    [F.ntSesCfg_KIND, F.ntSesCfg_TWO_STEP, F.ntSesCfg_TRANSPORT, F.ntSesCfg_DOM, F.ntSesCfg_LOG_SYNC, F.ntSesCfg_LOG_DREQ, F.ntSesCfg_DAVG]
  if bit v 31 && !en then (if s.glb.limited then s1 else s1.sesEnable i)
  else if en && !bit v 31 then (s1.fset F.ntSesCfg_EN 0 i).sesDisable i
  else s1

/-- NT_SES_PEERID, NT_SES_LINK and NT_SES_HDR (R351). -/
def State.wrSesPar (s : State) (k : RegKey) (v : Nat) : State := if s.fbit F.ntSesCfg_EN k.i then s.wrErr k else s.store k v

/-! ### Lanes and ports -/

/-- LNM is reset (R376): it loses lock. (DEDUCED, log entry 61.) -/
def State.lnmReset (s : State) : State :=
  if s.laneLocked 64 then
    ((((s.fon F.lnStat_LOL 64).cnt .lnCntLol 64).fset F.lnStat_CDR_LOCK 0 64).fset F.lnStat_BLOCK_LOCK 0 64).fset F.lnStat_ADAPT 0 64
  else s

/-- LN_CTL(j) (R376, R377). -/
def State.wrLnCtl (s : State) (j v : Nat) : State :=
  let s1 := s.store ⟨.lnCtl, j, 0, 0⟩ v
  if bit v 8 then (if j < 64 then s1.laneReset j else s1.lnmReset) else s1

/-- LN_TXEQ(j): three fields that sum above 63 are out of range (R377). -/
def State.wrTxeq (s : State) (k : RegKey) (v : Nat) : State :=
  if 63 < bits v 17 12 + bits v 11 6 + bits v 5 0 then s.wrErr k else s.store k v

/-- LN_QUAD_CTL(q) (R361, R377). -/
def State.wrQuadCtl (s : State) (q v : Nat) : State :=
  let s1 := s.store ⟨.lnQuadCtl, q, 0, 0⟩ v
  if s.fbit F.lnQuadCtl_SYNT q == s1.fbit F.lnQuadCtl_SYNT q then s1 else s1.syntChanged q

/-- An enabled port of the quad holds the other family than a MODE needs (R355). -/
def State.modeClash (s : State) (p mode : Nat) : Bool :=
  (s.quadPorts (portQuad p)).any fun o => decide (o ≠ p) && decide (s.familyOf o ≠ if mode = 0 then 1 else 2)

/-- PT_CFG(p) (R354, R355, R358, R376, R378): a combination the port does not admit, and a MODE of an enabled port that needs the other family,
leaves MODE, FEC and ELBER_EN as they are. (DEDUCED, log entry 13; DEDUCED, log entry 62.) -/
def State.wrPtCfg (s : State) (p v : Nat) : State :=
  let k : RegKey := ⟨.ptCfg, p, 0, 0⟩
  let old := s.rget k
  let clash := bit old 31 && bit v 31 && s.modeClash p (bits v 2 0)
  let bad := clash || !cfgCombo p (bits v 2 0) (bits v 5 4) (bit v 12)
  let s1 := ((s.storeHeld k v bad [F.ptCfg_MODE, F.ptCfg_FEC, F.ptCfg_ELBER_EN]).wrErrIf bad k).fonIf clash F.ptStat_QUAD_CONFLICT p
  let new := s1.rget k
  if bit new 31 && !bit old 31 then (if s.glb.limited then s1.fset F.ptCfg_EN 0 p else s1.ptEnable p)
  else if bit old 31 && !bit new 31 then s1.ptDisable p
  else if bit new 31 && decide (old ≠ new) then (s1.setFamily (portQuad p)).restart p
  else s1

/-- PT_TRAIN(p) (R378). -/
def State.wrPtTrain (s : State) (p v : Nat) : State :=
  let k : RegKey := ⟨.ptTrain, p, 0, 0⟩
  let s1 := s.store k v
  if s.fbit F.ptCfg_EN p && decide (s.rget k ≠ s1.rget k) then s1.restart p else s1

end Sys2Proof.Machine
end

