-- ==== Sys2Proof/Machine/Bus.lean ====
section
/-! DEFINITION. Writing BAR0: one word of a register, staged or committed (R25, R48 to R50), and what each register's commit does. -/

namespace Sys2Proof.Machine

/-- A register takes the value a write gives it: the access codes and ranges of its fields, and whatever its chapter adds. -/
def State.commit (s : State) (q : Requester) (k : RegKey) (v : Nat) : State :=
  match k.r with
  | .glbRstCtl => s.warmReset (v % 256)
  | .glbBlkRst => s.wrBlkRst v
  | .fltCtl => s.wrFltCtl v
  | .fltClr => if bit v 0 then s.faultRelease else s
  | .fltWdogKick => s.wdogKick q (v % 256)
  | .monSupWin => s.wrSupWin k v
  | .bbrCtl => s.wrBbrCtl v
  | .bbrPre => s.wrBbrLen k v
  | .bbrPost => s.wrBbrLen k v
  | .mbCmd => s.mbCmdWrite q v
  | .mbArg => s.mbArgWrite q k.i v
  | .dmaRingCfg => s.ringCfgWrite k.i v
  | .dmaRingBase => s.wrRingPar k v
  | .dmaRingSize => s.wrRingPar k v
  | .dmaRingTail => s.ringTailWrite k.i (v % 65536)
  | .dmaRingAux => s.auxWrite k.i (v % 2 ^ 27)
  | .msixTable => s.wrMsix k.i v
  | .tbCtl => s.wrTbCtl v
  | .tbNcoSw => s.ncoSwCommit v
  | .tbStep => s.tbStepCommit q v
  | .tbSet => s.tbSetCommit q v
  | .synCsynCtl => s.wrCsyn v
  | .synOsynCtl => s.wrOsynCtl k.i v
  | .synOsynCmd => s.osynCmd k.i v
  | .synOsynSeg => s.wrOsynSeg k v
  | .bwCtl => s.wrBwCtl v
  | .bwCmd => if bit v 0 then s.bwRealign else s
  | .bwUnlock => s.bwUnlock q (v % 256)
  | .bwHoAllow => s.storeY48 k v false
  | .bwHoAging => s.storeY48 k v false
  | .bwRestartY => s.storeY48 k v true
  | .bwRefCfg => s.wrRefCfg k.i v
  | .bwRefSw => s.wrRefSw k.i v
  | .eoCtl => s.wrEoCtl k.i v
  | .eoQe => s.qeCommit q k.i v
  | .eoTe => s.teCommit q k.i v
  | .eoTrigCtl => s.wrTrigCtl k.i v
  | .eoBankCtl => s.wrBank k.i v
  | .eoSeg => s.wrEoSeg k v
  | .tiuCtl => s.wrTiuCtl k.i v
  | .tiuArm => s.wrTiuArm k.i v
  | .tiuFreq => s.wrTiuFreq k.i v
  | .tiuOfs => s.wrTiuOfs k v
  | .talCtl => s.wrTalCtl v
  | .talBase => s.wrTalRing k v
  | .talSize => s.wrTalRing k v
  | .talPre => s.wrTalRing k v
  | .talPost => s.wrTalRing k v
  | .dwChCfg => s.chGuard q k.i fun st => st.wrChCfg k.i v
  | .dwChSrc => s.chGuard q k.i fun st => st.wrChSrc k.i v
  | .dwChOwn => s.chGuard q k.i fun st => (st.defer k).store k v
  | .dwSwgate => (s.defer k).store k v
  | .dwConSel => s.wrConSel q k.i v
  | .dwCtl => s.wrDwCtl v
  | .dwSwf => s.wrSwf v
  | .dwFlCtl => s.wrFlCtl k.i v
  | .dwTmrCtl => s.wrTmrCtl k.i v
  | .dwTmrCount => s.wrTmrPar k v
  | .dwTmrPeriod => s.wrTmrPar k v
  | .dwTmrAnchor => s.wrTmrPar k v
  | .drvCtl => s.wrDrvCtl k.i v
  | .drvProg => s.wrDrvProg k.i v
  | .drvMemAddr => s.wrMemAddr k.i v
  | .drvMemData => s.wrMemData k.i v
  | .drvTaskCtl => s.wrTaskCtl k v
  | .drvTaskA => s.wrTaskA k v
  | .drvTaskT => s.wrTaskT k v
  | .calCmd => s.calCommand q (bits v 3 0) (bits v 15 8)
  | .calEoTab => s.wrErr k
  | .calEoShadow => s.store k (v &&& eoShadowBits k.j)
  | .calTiuTab => s.wrErr k
  | .ntDomCfg => s.wrDomCfg k.i v
  | .ntSesCfg => s.wrSesCfg k.i v
  | .ntSesPeerid => s.wrSesPar k v
  | .ntSesLink => s.wrSesPar k v
  | .ntSesHdr => s.wrSesPar k v
  | .lnCtl => s.wrLnCtl k.i v
  | .lnTxeq => s.wrTxeq k v
  | .lnQuadCtl => s.wrQuadCtl k.i v
  | .ptCfg => s.wrPtCfg k.i v
  | .ptTrain => s.wrPtTrain k.i v
  | .swMac => s.wrMac k v
  | .swSample => s.wrSample k.i v
  | .swFrr => s.wrFrr k.i v
  | .padGmin => s.padReserve .padGmin k.i k.j (v % 512)
  | .padHr => s.wrHr q k v
  | .tasGclCtl => s.wrGclCtl k.i v
  | .tasPreempt => s.wrPreempt k.i v
  | .tasFl => s.wrFl k.i v
  | .tasLqTpl => s.tplCommit k.i v
  | _ => s.store k v

/-! ### Writes of several requesters in one cycle (R23) -/

/-- A register whose write makes a request, or fills a memory or a copy of the requester's own, rather than leaving a value to remain. -/
def Reg.asks (r : Reg) : Bool :=
  [Reg.tbStep, .tbSet, .bwRefSw, .eoQe, .eoTe, .mbCmd, .mbArg, .drvMemData, .drvTaskA, .drvTaskT, .tasLqTpl, .calCmd, .dwFlCtl].contains r

/-- A requester that R23 places later has already written the register in this cycle: its value remains. (DEDUCED, log entry 83.) -/
def State.outranked (s : State) (q : Requester) (k : RegKey) : Bool := !k.r.asks && decide (q.order + 1 < s.cyc.wrote.get 0 k)

/-- The requester has written the register in this cycle. -/
def State.wroteBy (s : State) (q : Requester) (k : RegKey) : State :=
  { s with cyc := { s.cyc with wrote := s.cyc.wrote.put RegKey.code 0 k (max (q.order + 1) (s.cyc.wrote.get 0 k)) } }

/-- A written value with the stored fields as they are: the write has already been overwritten; what it clears, sets or starts stays. -/
def keepStored (fs : List FldDef) (old v : Nat) : Nat :=
  fs.foldl (fun a f => match f.acc with
    | .rw => setBits a f.hi f.lo (bits old f.hi f.lo)
    | .rws => setBits a f.hi f.lo (bits old f.hi f.lo)
    | .rwl => setBits a f.hi f.lo (bits old f.hi f.lo)
    | _ => a) v

/-- A register takes a write, in the order of R23 among the writes of the cycle. -/
def State.commitOf (s : State) (q : Requester) (k : RegKey) (v : Nat) : State :=
  (s.wroteBy q k).commit q k (if s.outranked q k then keepStored k.r.info.flds (s.rget k) v else v)

/-- A write of one word of a register (R49): every word but the highest is staged; the highest commits. EO_QE and EO_TE keep the highest
word staged as well, for reading back (R101). (DEDUCED, log entry 12.) -/
def State.wordWrite (s : State) (q : Requester) (k : RegKey) (w x : Nat) : State :=
  let n := k.r.info.words
  if n = 1 then s.commitOf q k x
  else
    let v := putWord (s.stageOf q k) w x
    if w + 1 < n then s.stageSet q k v
    else if k.r = .eoQe ∨ k.r = .eoTe then (s.stageSet q k v).commitOf q k v
    else s.commitOf q k v

/-- A BAR0 write of one word (R8, R24, R25): partial byte enables and blocks held in reset refuse it. (DESIGN CHOICE, log entry 8; DEDUCED, log entry 10.) -/
def State.busWriteBe (s : State) (q : Requester) (a x be : Nat) : State :=
  if !s.reaches0 q then s
  else if be ≠ 15 then s.fon F.glbErr_ACC_ERR
  else match blkOf a with
    | none => s
    | some b =>
      if s.blkHeld b then s.fon F.glbErr_ACC_ERR
      else match regAt (a / 4 * 4) with
        | none => s
        | some (k, w) => s.wordWrite q k w (x % 2 ^ 32)

/-- A BAR0 write of a full word. -/
def State.busWrite (s : State) (q : Requester) (a x : Nat) : State := s.busWriteBe q a x 15

/-- A write to a register of one word, by name. (DESIGN CHOICE, log entry 8.) -/
def State.busTo (s : State) (q : Requester) (r : Reg) (x : Nat) (i : Nat := 0) (j : Nat := 0) (k : Nat := 0) : State :=
  s.busWrite q (addrOf ⟨r, i, j, k⟩ 0) x

/-- The words of a value written in rising order, from word `w`; `n` words are left. -/
def State.busWords (q : Requester) (key : RegKey) (v : Nat) : Nat → Nat → State → State
  | 0, _, s => s
  | n + 1, w, s => State.busWords q key v n (w + 1) (s.busWrite q (addrOf key w) (wordOf v w))

/-- A write of a whole register of several words in ascending order, whose last word commits it (R25, R49). (DESIGN CHOICE, log entry 8; DEDUCED, log entry 14.) -/
def State.busCommit (s : State) (q : Requester) (r : Reg) (i : Nat) (v : Nat) (j : Nat := 0) (k : Nat := 0) : State :=
  State.busWords q ⟨r, i, j, k⟩ v r.info.words 0 s

/-- A write of the lowest word of a register with one field of the data as given. (DEDUCED, log entry 9.) -/
def State.busFld (s : State) (q : Requester) (f : Fld) (data x : Nat) (i : Nat := 0) (j : Nat := 0) : State :=
  s.busTo q f.reg (setBits data f.hi f.lo x) i j

/-- TIU_ARM (R115): a group at TIU_ARM(u), or a write of TIU_ARM.ARM. -/
def State.tiuArmCmd (s : State) (u : Nat) (w : Option (Requester × Nat)) : State :=
  match w with
  | none => s.live (s.onGroup (Con.tiuArm u) fun evs st => st.tiuArmGroup u evs)
  | some (q, data) => s.busFld q F.tiuArm_ARM data 1 u

/-- A mailbox command (R442): its argument words from MB_ARG(0) on, then MB_CMD with GO. -/
def State.mailbox (s : State) (q : Requester) (op : Nat) (args : List Word) : State :=
  (args.zipIdx.foldl (fun st x => st.busTo q .mbArg x.1.toNat x.2) s).busTo q .mbCmd (2 ^ 31 + op)

end Sys2Proof.Machine
end

