-- ==== Sys2Proof/Machine/BarliAct.lean ====
section
/-! DEFINITION. Edge actions, waits, signals, arms, measurements, launches and control words (R185 to R194, R204, R231 to R239), and the
events that end what a task waits for. -/

namespace Sys2Proof.Machine

/-! ### Edge actions (R185, R186, R231) -/

/-- The channel an edge instruction names. -/
def Task.chan (t : Task) : ChSrc → Nat
  | .imm n => n.val
  | .reg ar => (t.aget ar.val).toNat % 64

/-- Bits [31:0] of a register. -/
def Task.alow (t : Task) (r : Nat) : Nat := (t.aget r).toNat % 2 ^ 32

/-- An edge instruction builds its entry and offers it with TAG + 1; the task is BUSY until the result (R185, R231). -/
def State.bAction (s : State) (d : Fin 16) (k : Fin 8) (ch : ChSrc) (entry : Task → Nat) : State :=
  s.inRange d.val k.val fun st =>
    let t := st.getTask d.val k.val
    let n := t.chan ch
    let s1 := st.setTask d.val k.val { t with st := .busy, wait := .action n, offer := entry t }
    s1.eoOffer n { src := .task d k, entry := entry t, tag := t.tag + 1, due := st.tickNo + 2 }

def Task.edgeEntry (t : Task) (ts : Nat) (level : Bool) : Nat := mkEntry 0 level false false false 0 (packT96 (t.tget ts)) 0 0 0

def Task.pulseEntry (t : Task) (ts aw : Nat) : Nat := mkEntry 1 false false false false 0 (packT96 (t.tget ts)) (t.aget aw).toNat 0 0

def Task.trainEntry (t : Task) (ts aw ap ac : Nat) (unlim chain : Bool) : Nat :=
  mkEntry 2 false unlim chain false 0 (packT96 (t.tget ts)) (t.aget aw).toNat
    ((t.aget ap).toNat + (t.aget (ap + 1)).toNat % 65536 * 2 ^ 64) (t.alow ac)

def Task.profEntry (t : Task) (ts ac : Nat) (cont bank : Bool) : Nat :=
  mkEntry 3 false false false cont (bnat bank) (packT96 (t.tget ts)) 0 0 (t.alow ac)

def Task.cancelEntry (t : Task) (ts : Nat) : Nat := mkEntry 4 false false false false 0 (packT96 (t.tget ts)) 0 0 0

/-- WAIT_QUEUE_REOFFER (R186): once in each tick the action goes to the full queue again, with this tick as its acceptance tick. -/
def State.reoffer (s : State) (d : Fin 16) (k : Fin 8) : State :=
  let t := s.getTask d.val k.val
  match t.st, t.wait with
  | .waitQueue, .action n =>
    if s.time.run && decide (t.readyAt ≤ s.tickNo) && !(s.getEo n).offers.any fun o => o.ofTask d.val k.val then
      s.eoOffer n { src := .task d k, entry := t.offer, tag := t.tag + 1, due := s.tickNo }
    else s
  | _, _ => s

/-! ### Waiting (R188 to R191, R232, R233) -/

/-- A task wakes by events on inputs `is` of `v`: an input whose FIFO is empty leaves WTIME open when no other has a head (a free
value, log entry 5). -/
def State.wakeByEvent (s : State) (d k : Nat) (v : Task) (is : List Nat) : State :=
  let t := s.getTask d k
  match v.earliest is with
  | some _ => s.setTask d k (t.wakeEvent v is 0)
  | none =>
    let r := s.fresh
    r.2.setTask d k (t.wakeEvent v is (r.1 % instantEnd))

/-- WAITT (R232). -/
def State.bWaitt (s : State) (d k ta : Nat) : State :=
  s.inRange d k fun st =>
    let t := st.getTask d k
    let a := t.tget ta
    if a ≤ st.nowI then
      let t1 := (t.wakeWith 0 2 0 a).again (t.pc + 1) st.tickNo
      st.setTask d k { t1 with fl := { t1.fl with l := t1.fl.l || decide (a < st.nowI) } }
    else st.holdWait d k .waitTime (.instant a false)

/-- TASK_WAKE_TIME (R190, R232): device time is at or after the instant, or a forward step has carried it past. -/
def State.wakeTime (s : State) (d k : Nat) : State :=
  let t := s.getTask d k
  match t.st, t.wait with
  | .waitTime, .instant a late =>
    if s.time.run && (late || decide (a ≤ s.nowI)) then
      let t1 := (t.wakeWith 0 2 0 a).advance
      s.setTask d k { t1 with fl := { t1.fl with l := t1.fl.l || late }, readyAt := s.tickNo }
    else s
  | _, _ => s

/-- The expiry instant of a wait (R41, R233). -/
def State.expiryOf (s : State) (t : Task) (ao : Nat) : Instant := (addSpan s.nowI (t.aget ao).toInt).1

/-- WAITE (R189, R233). -/
def State.bWaite (s : State) (d k mask : Nat) (e : Bool) (ao : Nat) : State :=
  s.inRange d k fun st =>
    let t := st.getTask d k
    let x := st.expiryOf t ao
    if t.waking mask ≠ [] then
      let s1 := st.wakeByEvent d k t (t.waking mask)
      s1.setTask d k ((s1.getTask d k).again (t.pc + 1) st.tickNo)
    else if e ∧ x ≤ st.nowI then
      let t1 := t.wakeTimeout x st.tickNo
      st.setTask d k (t1.again (t.pc + 1) st.tickNo)
    else st.holdWait d k .waitEvent (.event mask (if e then some x else none))

/-- The last tick in which an expiry instant's tick can be: past it the wait has expired. -/
def State.expired (s : State) (x : Instant) : Bool := decide (x + lsbPerNs ≤ s.nowI)

/-- The inputs of a mask whose first group came by the expiry tick (R233): every one that holds an event when there is no expiry. -/
def State.wakingBy (s : State) (t : Task) (mask : Nat) (expiry : Option Instant) : List Nat :=
  (t.waking mask).filter fun i =>
    match expiry with
    | none => true
    | some x => decide (s.nowI < x + lsbPerNs + ofNs (s.tickNo - (t.iget i).tick))

/-- The inputs that wake a task in WAIT_EVENT in this tick: those a group reached in an earlier one (R191). -/
def State.wakers (s : State) (t : Task) (mask : Nat) (x : Option Instant) : List Nat := s.wakingBy (t.unseen s.tickNo) mask x

/-- TASK_WAKE_EVENT (R188 to R191): evaluated in the tick after the group's, with what had reached the inputs by the end of that one;
READY from the second. (DEDUCED, log entry 40.) -/
def State.wakeOnEvent (s : State) (d k : Nat) : State :=
  let t := s.getTask d k
  match t.st, t.wait with
  | .waitEvent, .event mask x =>
    let v := t.unseen s.tickNo
    let is := s.wakers t mask x
    if s.time.run && !is.isEmpty then
      let s1 := s.wakeByEvent d k v is
      s1.setTask d k { s1.getTask d k with st := .waitEvent, wait := .wakes (max (s.tickNo + 1) (v.firstTick is + 2)) }
    else s
  | _, _ => s

/-- TASK_WAKE_TIMEOUT (R233): the expiry tick has passed without a group. (DEDUCED, log entry 41.) -/
def State.wakeOnTimeout (s : State) (d k : Nat) : State :=
  let t := s.getTask d k
  match t.st, t.wait with
  | .waitEvent, .event mask (some x) =>
    if s.time.run && s.expired x && (s.wakingBy t mask (some x)).isEmpty then
      s.setTask d k { (t.wakeTimeout x s.tickNo).advance with readyAt := s.tickNo }
    else s
  | _, _ => s

/-- YIELD_END (R223). -/
def State.yieldEnd (s : State) (d k : Nat) : State :=
  let t := s.getTask d k
  match t.st, t.wait with
  | .waitTime, .yield u =>
    if s.time.run && decide (u ≤ s.tickNo) then
      s.setTask d k { t.advance with st := .ready, wait := .none, readyAt := s.tickNo }
    else s
  | _, _ => s

/-- Write what a multi-tick instruction leaves. -/
def Task.finish (t : Task) (r : BusyRes) : Task :=
  let t1 := match r.areg with
    | some (a, v) => t.aput a v
    | none => t
  let t2 := match r.flags with
    | some f => { t1 with fl := f }
    | none => t1
  if r.adv then t2.advance else t2

/-- DRV_BUSY_END (R184). -/
def State.busyEnd (s : State) (d k : Nat) : State :=
  let t := s.getTask d k
  match t.st, t.wait with
  | .busy, .busy u r =>
    if s.time.run && decide (u ≤ s.tickNo) then
      s.setTask d k { t.finish r with st := .ready, wait := .none, readyAt := s.tickNo }
    else s
  | _, _ => s

/-! ### Event inputs (R161, R188) -/

/-- DRV_IN_GROUP (R161): the input is updated, whatever the task's state. (DEDUCED, log entry 40.) -/
def State.drvInGroup (s : State) (d k i : Nat) : State :=
  s.onGroup (Con.drvIn d k i) fun evs s1 =>
    let t := s1.getTask d k
    s1.setTask d k (t.iarrive i evs s1.tickNo)

/-! ### Signals, arms and measurements (R234 to R237) -/

/-- SIGNAL (R234). -/
def State.bSignal (s : State) (d k sg : Nat) (ts : Bool) (tt : Nat) : State :=
  s.thenNext d k fun st =>
    let t := st.getTask d k
    st.raiseEv (Prod.drvSig d sg) (if ts then t.tget tt else st.nowI) (t.tag + 1) 2

/-- The timestamp of an ARM (R235). -/
def State.armTs (s : State) (t : Task) (ts : Bool) (tt : Nat) : Instant := if ts then t.tget tt else s.nowI

/-- ARM and ARM.DIS (R235): at the target two ticks after issue. -/
def State.bArmTiu (s : State) (d k u : Nat) (ts : Bool) (tt : Nat) : State :=
  s.thenNext d k fun st =>
    let t := st.getTask d k
    st.sendOut d (st.tickNo + 2) (.arm u (st.armTs t ts tt) (t.tag + 1))

def State.bDisarmTiu (s : State) (d k u : Nat) (ts : Bool) (tt : Nat) : State :=
  s.thenNext d k fun st => st.sendOut d (st.tickNo + 2) (.disarm u (st.armTs (st.getTask d k) ts tt))

/-- DEDUCED, log entry 48. -/
def State.bArmSlot (s : State) (d k n : Nat) (on : Bool) : State :=
  s.thenNext d k fun st => st.sendOut d (st.tickNo + 2) (.slot n on)

/-- MEAS (R236): WAIT_MEAS; it reaches the unit two ticks after issue. -/
def State.bMeas (s : State) (d k td ad u ao : Nat) (e na : Bool) : State :=
  s.inRange d k fun st =>
    let t := st.getTask d k
    let x := if e then some (st.expiryOf t ao) else none
    let s1 := st.holdWait d k .waitMeas (.meas u td ad (st.tickNo + 2) st.nowI x none)
    s1.sendOut d (st.tickNo + 2) (.meas k u (!na) st.nowI (t.tag + 1))

/-- MEAS completes with a record (R236). -/
def Task.measRecord (t : Task) (td ad : Nat) (r : Rec) (tag : Nat) : Task :=
  let t1 := ((t.tput td r.time).aput ad (BitVec.ofInt 64 r.value)).aput ((ad + 1) % 16)
    (BitVec.ofNat 64 (r.flags % 65536 + r.aux % 2 ^ 32 * 65536))
  let t2 := t1.wakeWith tag 1 0 r.time
  { t2 with fl := { t2.fl with z := false, n := bit r.flags 3, c := false, v := t2.fl.v || bit r.flags 6 } }

/-- MEAS completes as a timeout (R236): `x` in Td, `w` in WTIME. -/
def Task.measTimeout (t : Task) (td ad : Nat) (x w : Instant) : Task :=
  let t1 := ((t.tput td x).aput ad 0).aput ((ad + 1) % 16) 0
  let t2 := (t1.wakeWith 0 3 0 w).advance
  { t2 with fl := { t2.fl with z := true, n := false, c := false } }

/-- MEAS_COMPLETE (R236, R237): the record is written two ticks after it was completed, the task READY from the third. -/
def State.measComplete (s : State) (d k : Nat) : State :=
  let t := s.getTask d k
  match t.st, t.wait with
  | .waitMeas, .meas _ td ad _ _ _ (some (r, tag, tick)) =>
    if s.time.run && decide (tick + 2 ≤ s.tickNo) then
      s.setTask d k { t.measRecord td ad r tag with st := .waitMeas, wait := .wakes (max (s.tickNo + 1) (tick + 3)) }
    else s
  | _, _ => s

/-- MEAS_TIMEOUT (R236). (DEDUCED, log entry 41.) -/
def State.measTimeout (s : State) (d k : Nat) : State :=
  let t := s.getTask d k
  match t.st, t.wait with
  | .waitMeas, .meas _ td ad _ _ (some x) none =>
    if s.time.run && s.expired x then s.setTask d k { t.measTimeout td ad x x with readyAt := s.tickNo } else s
  | _, _ => s

/-- A MEAS reaches its unit (R236): nothing can come when MODE is OFF or MONITOR; then Td takes the issue tick and WTIME the expiry
instant, which a MEAS with E = 0 has not (a free value, log entry 5). -/
def State.measReach (s : State) (d k u : Nat) (arms : Bool) (ta : Instant) (tag : Nat) : State :=
  let t := s.getTask d k
  match t.st, t.wait with
  | .waitMeas, .meas v td ad _ iss x none =>
    if v ≠ u then s
    else if s.tiuMode u = 0 ∨ s.tiuMode u = 4 then
      match x with
      | some w => s.setTask d k { t.measTimeout td ad iss w with readyAt := s.tickNo + 1 }
      | none =>
        let r := s.fresh
        r.2.setTask d k { t.measTimeout td ad iss (r.1 % instantEnd) with readyAt := s.tickNo + 1 }
    else if arms then s.tiuArmWith u ta tag (s.fget F.tiuArm_COUNT u)
    else s
  | _, _ => if arms then s.tiuArmWith u ta tag (s.fget F.tiuArm_COUNT u) else s

/-! ### Launch (R238) -/

/-- The description of a frame in Aa is one LAUNCH carries (R238): reserved bits 0, an offset that is a multiple of 8, inside the
window. -/
def launchArgOk (a : Nat) : Bool :=
  decide (bits a 31 27 = 0) && decide (bits a 47 46 = 0) && decide (bits a 63 51 = 0) && decide (bits a 26 0 % 8 = 0) &&
  decide (bits a 26 0 + bits a 45 32 ≤ 0x8000000)

/-- LAUNCH (R238): BUSY until the result. -/
def State.bLaunch (s : State) (d k p tt aa : Nat) : State :=
  let t := s.getTask d k
  let a := (t.aget aa).toNat
  if s.dramUnavail then s.trapTask d k TrapCode.dram (bits a 26 0)
  else s.inRange d k fun st => st.holdWait d k .busy (.launch p a (t.tget tt) st.tickNo)

/-- LAUNCH_COMPLETE (R231, R238): the frame is copied and offered, and the result returns; under QSTALL the task offers it again. (DEDUCED, log entry 40.) -/
def State.launchComplete (s : State) (d k : Nat) : State :=
  let t := s.getTask d k
  match t.wait with
  | .launch p a tt tick =>
    if !s.time.run || s.fbit F.glbBlkRst_DRV || decide (s.tickNo ≤ tick) then s
    else if s.dramUnavail then s.trapTask d k TrapCode.dram (bits a 26 0)
    else if !launchArgOk a then s.actionResult d k p LaunchRes.badArg
    else
      let r := s.launchOffer p (bits a 50 48) (s.dramBytes (windowAddr d (bits a 26 0)) (bits a 45 32)) tt
      r.2.actionResult d k p r.1
  | _ => s

/-! ### Control words (R187, R193, R239) -/

/-- A control word as read: its value, whether it is 96 bits wide, the task after the read. -/
def Task.cwRead (t : Task) (d k n now : Nat) : Option (Nat × Bool × Task) :=
  if n = 0x000 then some (t.tag, false, t)
  else if n = 0x001 then some (t.wake, false, t)
  else if n = 0x002 then some (t.wtime, true, t)
  else if 0x004 ≤ n ∧ n ≤ 0x007 then some ((t.iget (n - 4)).pack, false, t)
  else if 0x008 ≤ n ∧ n ≤ 0x00B then some ((t.ibefore (n - 8) now).pack, false, t.itake (n - 8) now {})
  else if 0x00C ≤ n ∧ n ≤ 0x00F then
    let i := t.ibefore (n - 12) now
    match i.fifo with
    | [] => some (0, true, { t with fl := { t.fl with z := true } })
    | h :: r => some (h, true, { t.itake (n - 12) now { i with fifo := r } with fl := { t.fl with z := false } })
  else if n = 0x010 then some (t.fl.pack, false, t)
  else if n = 0x011 then some (bnat t.lpol + 2 * bnat t.qstall, false, t)
  else if n = 0x012 then some (t.ares, false, t)
  else if n = 0x013 then some (k + 16 * d, false, t)
  else if n = 0x030 then some (1, false, t)
  else none

/-- CSR reads a control word. -/
def State.bCsrRead (s : State) (d k : Nat) (r : CsrReg) (n : Nat) : State :=
  let deny := s.trapTask d k TrapCode.csrDeny n
  match (s.getTask d k).cwRead d k n s.tickNo, r with
  | some (v, false, t'), .a ad => s.goTo d k (t'.pc + 1) (t'.aput ad.val (BitVec.ofNat 64 v))
  | some (v, true, t'), .t td => s.goTo d k (t'.pc + 1) (t'.tput td.val v)
  | _, _ => deny

/-- CSR writes a control word: FLAGS, POL or TCTL. -/
def State.bCsrWrite (s : State) (d k : Nat) (r : CsrReg) (n : Nat) : State :=
  match r with
  | .t _ => s.trapTask d k TrapCode.csrDeny n
  | .a ar =>
    let v := ((s.getTask d k).aget ar.val).toNat
    if n = 0x010 then s.taskDoes d k fun t => { t with fl := .unpack v }
    else if n = 0x011 then s.taskDoes d k fun t => { t with lpol := bit v 0, qstall := bit v 1 }
    else if 0x020 ≤ n ∧ n ≤ 0x027 then
      s.thenNext d k fun st => st.sendOut d (st.tickNo + 1) (.tctl (n - 0x020) (v % 2 ^ 32))
    else s.trapTask d k TrapCode.csrDeny n

/-! ### BAR0 through CSR (R194, R239) -/

/-- The bit of DRV_CSR_PERM that lets a Drover reach a block (R194, R211). -/
def permBit : Blk → Option Nat
  | .tb => some 0
  | .syn => some 1
  | .bw => some 2
  | .eo => some 3
  | .tiu => some 4
  | .dw => some 5
  | .drv => some 6
  | .cal => some 7
  | .tal => some 8
  | _ => none

/-- Drover d may reach a BAR0 address (R194): its own window always. -/
def State.csrReach (s : State) (d a : Nat) : Bool :=
  decide (a % 4 = 0) && decide (a < 0x4000000) &&
  (decide (0x500000 + d * 0x10000 ≤ a ∧ a < 0x500000 + (d + 1) * 0x10000) ||
    match blkOf a with
    | none => false
    | some b =>
      match permBit b with
      | none => false
      | some i => bit (s.rget ⟨.drvCsrPerm, d, 0, 0⟩) i)

/-- The registers no Drover may write (R194). -/
def csrNoWrite (a : Nat) : Bool :=
  match regAt a with
  | none => false
  | some (key, _) =>
    match key.r with
    | .drvCsrPerm => true
    | .drvCtl => true
    | .drvProg => true
    | .drvMemAddr => true
    | .drvMemData => true
    | _ => false

/-- CSR reads BAR0: the value at the issue tick, in the register 3 ticks later. -/
def State.bCsrReadBar (s : State) (d : Fin 16) (k ad aa : Nat) : State :=
  let a := ((s.getTask d.val k).aget aa).toNat
  if !s.csrReach d.val a then s.trapTask d.val k TrapCode.csrDeny a
  else s.inRange d.val k fun st =>
    let r := st.busReadWord (.drv d) a
    r.2.2.holdBusy d.val k 3 { areg := some (ad, BitVec.ofNat 64 r.1) }

/-- CSR writes BAR0: at the block in the next tick. -/
def State.bCsrWriteBar (s : State) (d k ar aa : Nat) : State :=
  let t := s.getTask d k
  let a := (t.aget aa).toNat
  if !s.csrReach d a || csrNoWrite a then s.trapTask d k TrapCode.csrDeny a
  else s.thenNext d k fun st => st.sendOut d (st.tickNo + 1) (.csr a (t.alow ar))

/-! ### What a Drover has sent out acts (R194, R204, R235, R236) -/

/-- One thing sent out acts. -/
def State.outActs (s : State) (d : Fin 16) : DrvOut → State
  | .arm u ta tag => s.tiuArmWith u ta tag (s.fget F.tiuArm_COUNT u)
  | .disarm u ta => s.tiuDisarmWith u ta
  | .slot n on => (s.fset F.eoTrigCtl_ARMED (bnat on) n).hwMark ⟨.eoTrigCtl, n, 0, 0⟩ (2 ^ F.eoTrigCtl_ARMED.lo)
  | .meas k u arms ta tag => s.measReach d.val k u arms ta tag
  | .tctl k w => s.taskControl d.val k w
  | .csr a x => s.busWrite (.drv d) a x
  | .mismatch => s.lockstepFault d.val

/-- What one Drover has sent out for this tick or earlier acts, in the order it was sent. -/
def State.drvOuts (s : State) (d : Fin 16) : State :=
  let x := s.getDrv d.val
  let due := x.outs.filter fun o => decide (o.1 ≤ s.tickNo)
  if due.isEmpty then s
  else
    let s1 := s.setDrv d.val { x with outs := x.outs.filter fun o => !decide (o.1 ≤ s.tickNo) }
    due.foldl (fun st o => st.outActs d o.2) s1

/-- A task whose wake was decided is READY from its tick (R191, R237). -/
def Task.woken (t : Task) (now : Nat) : Task :=
  match t.wait with
  | .wakes u => if u ≤ now then { t.advance with st := .ready, wait := .none, readyAt := now } else t
  | _ => t

/-- Every task whose wake was decided for this tick. -/
def State.drvWakes (s : State) (d : Nat) : State :=
  let x := s.getDrv d
  s.setDrv d { x with tasks := ⟨x.tasks.cells.map fun c => (c.1, c.2.woken s.tickNo)⟩ }

/-- All Drovers, in ascending number (R194). -/
def State.drvDue (s : State) : State := (List.finRange 16).foldl (fun st d => (st.drvWakes d.val).drvOuts d) s

/-- What a task waits for has come, or must have come, by this tick (R184, R186, R191, R198, R223, R232, R233, R236 to R238). -/
def State.taskOwes (s : State) (d k : Nat) : Bool :=
  let t := s.getTask d k
  match t.st, t.wait with
  | .busy, .busy u _ => decide (u ≤ s.tickNo)
  | .busy, .launch _ _ _ tick => decide (tick + 2000 ≤ s.tickNo)
  | .waitTime, .yield u => decide (u ≤ s.tickNo)
  | .waitTime, .instant a late => late || decide (a ≤ s.nowI)
  | .waitEvent, .event mask none => !(s.wakers t mask none).isEmpty
  | .waitEvent, .event mask (some x) => !(s.wakers t mask (some x)).isEmpty || (s.expired x && (s.wakingBy t mask (some x)).isEmpty)
  | .waitMem, .ldx _ _ tick _ => decide (tick + 2000 ≤ s.tickNo)
  | .waitMeas, .meas _ _ _ _ _ _ (some (_, _, tick)) => decide (tick + 2 ≤ s.tickNo)
  | .waitMeas, .meas _ _ _ _ _ (some x) none => s.expired x
  | .waitQueue, .action n => decide (t.readyAt ≤ s.tickNo) && !(s.getEo n).offers.any fun o => o.ofTask d k
  | _, _ => false

/-- A Drover has something left to do in this tick: its next task has not issued (R183), or a task's wait ends in it. -/
def State.drvOwes (s : State) (d : Nat) : Bool :=
  let issue := match s.issuer d with
    | some k => s.mayIssue d && (s.fetchWord d k).isSome
    | none => false
  issue || (!s.fbit F.glbBlkRst_DRV && (List.range 8).any fun k => s.taskOwes d k)

/-- A tick of the device, with what its Drovers have sent out for it. No tick passes while something is left to do in the last: in each
tick a Drover issues from its next READY task (R183), and a step request is applied (R274). (DESIGN CHOICE, log entry 4.) -/
def State.tickAll (s : State) (o : TickObs) : State :=
  if s.time.run && s.stepDue.isNone && !(List.range 16).any fun d => s.drvOwes d then (s.tick o).drvDue else s

/-! ### The program check (R202, R203) -/

/-- DRV_PROG_CHECK_DONE: RES becomes VALID or BAD_CRC; `bad` a double-bit error met during the check. (DEDUCED, log entry 40; DEDUCED, log entry 42.) -/
def State.progCheckDone (s : State) (d : Nat) (bad : Bool) : State :=
  let x := s.getDrv d
  if !s.time.run || x.progRes ≠ 1 then s
  else
    let ok := decide (crc32c (x.progBytes (s.fget F.drvProg_LEN d)) = s.fget F.drvProg_CRC d)
    let s1 := if bad then s.eccUncorrected d 0 else s
    s1.setDrv d { s1.getDrv d with progRes := if ok && !bad then 2 else 3 }

end Sys2Proof.Machine
end

