-- ==== Sys2Proof/Machine/CmdBarli.lean ====
section
/-! DEFINITION. The meanings of the commands of the Barli instructions. -/

namespace Sys2Proof.Machine

/-- NOP (R223): NOP does nothing for one tick. -/
def execNop (d : Fin 16) (k : Fin 8) (e : IssueEnv) (s : State) : Host.Outcome State Fault Refusal :=
  .next (s.issue d.val k.val e (enc 0x00 []) fun st => st.bNop d.val k.val)

/-- HALT (R223): HALT stops its own task with PC at the next instruction. -/
def execHalt (d : Fin 16) (k : Fin 8) (e : IssueEnv) (s : State) : Host.Outcome State Fault Refusal :=
  .next (s.issue d.val k.val e (enc 0x01 []) fun st => st.bHalt d.val k.val)

/-- YIELD (R223): YIELD puts the task in WAIT_TIME for n ticks. -/
def execYield (d : Fin 16) (k : Fin 8) (e : IssueEnv) (n : Fin 1024) (s : State) : Host.Outcome State Fault Refusal :=
  .next (s.issue d.val k.val e (enc 0x02 [(n.val, 0)]) fun st => st.bYield d.val k.val n.val)

/-- TRAP (R223): TRAP traps the task with its immediate in ARG. -/
def execTrap (d : Fin 16) (k : Fin 8) (e : IssueEnv) (imm : BitVec 16) (s : State) : Host.Outcome State Fault Refusal :=
  .next (s.issue d.val k.val e (enc 0x03 [(imm.toNat, 0)]) fun st => st.bTrap d.val k.val imm.toNat)

/-- B (R223): B branches to its target. -/
def execB (d : Fin 16) (k : Fin 8) (e : IssueEnv) (target : BitVec 14) (s : State) : Host.Outcome State Fault Refusal :=
  .next (s.issue d.val k.val e (enc 0x04 [(target.toNat, 0)]) fun st => st.bJump d.val k.val target.toNat)

/-- BC (R224): BC branches to its target when its condition holds. -/
def execBc (d : Fin 16) (k : Fin 8) (e : IssueEnv) (cond : Fin 15) (target : BitVec 14) (s : State) : Host.Outcome State Fault Refusal :=
  .next (s.issue d.val k.val e (enc 0x05 [(cond.val, 22), (target.toNat, 0)]) fun st => st.bBc d.val k.val cond.val target.toNat)

/-- CALL (R182): CALL pushes the return index and branches. -/
def execCall (d : Fin 16) (k : Fin 8) (e : IssueEnv) (target : BitVec 14) (s : State) : Host.Outcome State Fault Refusal :=
  .next (s.issue d.val k.val e (enc 0x06 [(target.toNat, 0)]) fun st => st.bCall d.val k.val target.toNat)

/-- RET (R182): RET pops a return index and branches to it. -/
def execRet (d : Fin 16) (k : Fin 8) (e : IssueEnv) (s : State) : Host.Outcome State Fault Refusal :=
  .next (s.issue d.val k.val e (enc 0x07 []) fun st => st.bRet d.val k.val)

/-- LOOP (R225): LOOP pushes a loop entry, or skips the body when the count is 0. -/
def execLoop (d : Fin 16) (k : Fin 8) (e : IssueEnv) (c : LpSrc) (stop : BitVec 14) (s : State) : Host.Outcome State Fault Refusal :=
  .next (s.issue d.val k.val e (enc 0x08 ([(stop.toNat, 11)] ++ c.fields)) fun st => st.bLoop d.val k.val stop.toNat c)

/-- ENDL (R225): ENDL decrements the innermost loop and repeats or leaves it. -/
def execEndl (d : Fin 16) (k : Fin 8) (e : IssueEnv) (s : State) : Host.Outcome State Fault Refusal :=
  .next (s.issue d.val k.val e (enc 0x09 []) fun st => st.bEndl d.val k.val)

/-- ENDL_POP (R225): ENDL.POP leaves the innermost loop early. -/
def execEndlPop (d : Fin 16) (k : Fin 8) (e : IssueEnv) (s : State) : Host.Outcome State Fault Refusal :=
  .next (s.issue d.val k.val e (enc 0x09 [(1, 25)]) fun st => st.bEndlPop d.val k.val)

/-- ADD (R226): ADD adds modulo 2^64 and sets Z, N and C. -/
def execAdd (d : Fin 16) (k : Fin 8) (e : IssueEnv) (ad aa : Fin 16) (b : BSrc) (s : State) : Host.Outcome State Fault Refusal :=
  .next (s.issue d.val k.val e (encAlu 0x10 ad.val aa.val b) fun st => st.bAlu d.val k.val ad.val aa.val b aluAdd)

/-- SUB (R226): SUB subtracts modulo 2^64 and sets Z, N and C. -/
def execSub (d : Fin 16) (k : Fin 8) (e : IssueEnv) (ad aa : Fin 16) (b : BSrc) (s : State) : Host.Outcome State Fault Refusal :=
  .next (s.issue d.val k.val e (encAlu 0x11 ad.val aa.val b) fun st => st.bAlu d.val k.val ad.val aa.val b aluSub)

/-- ADDS (R226): ADDS adds with saturation and may set V. -/
def execAdds (d : Fin 16) (k : Fin 8) (e : IssueEnv) (ad aa : Fin 16) (b : BSrc) (s : State) : Host.Outcome State Fault Refusal :=
  .next (s.issue d.val k.val e (encAlu 0x12 ad.val aa.val b) fun st => st.bAlu d.val k.val ad.val aa.val b aluAdds)

/-- SUBS (R226): SUBS subtracts with saturation and may set V. -/
def execSubs (d : Fin 16) (k : Fin 8) (e : IssueEnv) (ad aa : Fin 16) (b : BSrc) (s : State) : Host.Outcome State Fault Refusal :=
  .next (s.issue d.val k.val e (encAlu 0x13 ad.val aa.val b) fun st => st.bAlu d.val k.val ad.val aa.val b aluSubs)

/-- MULQ (R227): MULQ multiplies exactly, shifts, rounds and saturates over 4 ticks. -/
def execMulq (d : Fin 16) (k : Fin 8) (e : IssueEnv) (ad aa ab : Fin 16) (rm : Rounding) (u : Bool) (sh : Fin 64)
    (s : State) : Host.Outcome State Fault Refusal :=
  .next (s.issue d.val k.val e (enc 0x14 [(ad.val, 22), (aa.val, 18), (ab.val, 14), (rm.code, 12), (bnat u, 11), (sh.val, 5)])
    fun st => st.bMulq d.val k.val ad.val aa.val ab.val u rm sh.val)

/-- DIVQ (R227): DIVQ divides with a shift, rounds and saturates over 34 ticks, or traps with DIV0. -/
def execDivq (d : Fin 16) (k : Fin 8) (e : IssueEnv) (ad aa ab : Fin 16) (rm : Rounding) (u : Bool) (sh : Fin 64)
    (s : State) : Host.Outcome State Fault Refusal :=
  .next (s.issue d.val k.val e (enc 0x15 [(ad.val, 22), (aa.val, 18), (ab.val, 14), (rm.code, 12), (bnat u, 11), (sh.val, 5)])
    fun st => st.bDivq d.val k.val ad.val aa.val ab.val u rm sh.val)

/-- SHL (R226): SHL shifts left and sets C and V. -/
def execShl (d : Fin 16) (k : Fin 8) (e : IssueEnv) (ad aa : Fin 16) (n : ShSrc) (s : State) : Host.Outcome State Fault Refusal :=
  .next (s.issue d.val k.val e (enc 0x16 ([(ad.val, 22), (aa.val, 18)] ++ n.fields)) fun st => st.bShl d.val k.val ad.val aa.val n)

/-- SHR (R227): SHR shifts right with rounding and sets X. -/
def execShr (d : Fin 16) (k : Fin 8) (e : IssueEnv) (ad aa : Fin 16) (n : ShSrc) (rm : Rounding) (lg : Bool)
    (s : State) : Host.Outcome State Fault Refusal :=
  .next (s.issue d.val k.val e (enc 0x17 ([(ad.val, 22), (aa.val, 18), (rm.code, 9), (bnat lg, 8)] ++ n.fields))
    fun st => st.bShr d.val k.val ad.val aa.val n rm lg)

/-- AND (R226): AND forms the bitwise AND. -/
def execAnd (d : Fin 16) (k : Fin 8) (e : IssueEnv) (ad aa : Fin 16) (b : BSrc) (s : State) : Host.Outcome State Fault Refusal :=
  .next (s.issue d.val k.val e (encAlu 0x18 ad.val aa.val b)
    fun st => st.bAlu d.val k.val ad.val aa.val b fun f x y => aluBits f (x &&& y))

/-- OR (R226): OR forms the bitwise OR. -/
def execOr (d : Fin 16) (k : Fin 8) (e : IssueEnv) (ad aa : Fin 16) (b : BSrc) (s : State) : Host.Outcome State Fault Refusal :=
  .next (s.issue d.val k.val e (encAlu 0x19 ad.val aa.val b)
    fun st => st.bAlu d.val k.val ad.val aa.val b fun f x y => aluBits f (x ||| y))

/-- XOR (R226): XOR forms the bitwise exclusive OR. -/
def execXor (d : Fin 16) (k : Fin 8) (e : IssueEnv) (ad aa : Fin 16) (b : BSrc) (s : State) : Host.Outcome State Fault Refusal :=
  .next (s.issue d.val k.val e (encAlu 0x1A ad.val aa.val b)
    fun st => st.bAlu d.val k.val ad.val aa.val b fun f x y => aluBits f (x ^^^ y))

/-- CMP (R226): CMP compares two values and sets Z, N and C. -/
def execCmp (d : Fin 16) (k : Fin 8) (e : IssueEnv) (aa : Fin 16) (b : BSrc) (s : State) : Host.Outcome State Fault Refusal :=
  .next (s.issue d.val k.val e (encAlu 0x1B 0 aa.val b) fun st => st.bCmp d.val k.val aa.val b)

/-- LDI (R226): LDI loads a sign-extended 22-bit immediate. -/
def execLdi (d : Fin 16) (k : Fin 8) (e : IssueEnv) (ad : Fin 16) (imm : BitVec 22) (s : State) : Host.Outcome State Fault Refusal :=
  .next (s.issue d.val k.val e (enc 0x1C [(ad.val, 22), (imm.toNat, 0)]) fun st => st.bLdi d.val k.val ad.val imm)

/-- LDHI (R226): LDHI replaces one 16-bit lane of a register. -/
def execLdhi (d : Fin 16) (k : Fin 8) (e : IssueEnv) (ad : Fin 16) (h : Fin 4) (imm : BitVec 16)
    (s : State) : Host.Outcome State Fault Refusal :=
  .next (s.issue d.val k.val e (enc 0x1D [(ad.val, 22), (h.val, 20), (imm.toNat, 0)]) fun st => st.bLdhi d.val k.val ad.val h.val imm)

/-- MOV (R226): MOV copies an A register. -/
def execMov (d : Fin 16) (k : Fin 8) (e : IssueEnv) (ad aa : Fin 16) (s : State) : Host.Outcome State Fault Refusal :=
  .next (s.issue d.val k.val e (enc 0x1E [(ad.val, 22), (aa.val, 18)]) fun st => st.bMov d.val k.val ad.val aa.val)

/-- NEG (R226): NEG negates with saturation. -/
def execNeg (d : Fin 16) (k : Fin 8) (e : IssueEnv) (ad aa : Fin 16) (s : State) : Host.Outcome State Fault Refusal :=
  .next (s.issue d.val k.val e (enc 0x1F [(ad.val, 22), (aa.val, 18)]) fun st => st.bNeg d.val k.val ad.val aa.val)

/-- TADD (R228): TADD adds an S64 to a T96 exactly. -/
def execTadd (d : Fin 16) (k : Fin 8) (e : IssueEnv) (td ta : Fin 8) (ab : Fin 16) (s : State) : Host.Outcome State Fault Refusal :=
  .next (s.issue d.val k.val e (enc 0x20 [(td.val, 23), (ta.val, 20), (ab.val, 16)])
    fun st => st.bTadd d.val k.val td.val ta.val ab.val false)

/-- TADD_SUB (R228): TADD.SUB subtracts an S64 from a T96 exactly. -/
def execTaddSub (d : Fin 16) (k : Fin 8) (e : IssueEnv) (td ta : Fin 8) (ab : Fin 16) (s : State) : Host.Outcome State Fault Refusal :=
  .next (s.issue d.val k.val e (enc 0x20 [(td.val, 23), (ta.val, 20), (ab.val, 16), (1, 15)])
    fun st => st.bTadd d.val k.val td.val ta.val ab.val true)

/-- TSUB (R228): TSUB forms the S64 difference of two T96 values with rounding and saturation. -/
def execTsub (d : Fin 16) (k : Fin 8) (e : IssueEnv) (ad : Fin 16) (ta tb : Fin 8) (s : State) : Host.Outcome State Fault Refusal :=
  .next (s.issue d.val k.val e (enc 0x21 [(ad.val, 22), (ta.val, 19), (tb.val, 16)]) fun st => st.bTsub d.val k.val ad.val ta.val tb.val)

/-- TCMP (R228): TCMP compares two T96 values exactly. -/
def execTcmp (d : Fin 16) (k : Fin 8) (e : IssueEnv) (ta tb : Fin 8) (s : State) : Host.Outcome State Fault Refusal :=
  .next (s.issue d.val k.val e (enc 0x22 [(ta.val, 19), (tb.val, 16)]) fun st => st.bTcmp d.val k.val ta.val tb.val)

/-- TNOW (R228): TNOW reads the device time of the issue tick. -/
def execTnow (d : Fin 16) (k : Fin 8) (e : IssueEnv) (td : Fin 8) (s : State) : Host.Outcome State Fault Refusal :=
  .next (s.issue d.val k.val e (enc 0x23 [(td.val, 23)]) fun st => st.bTnow d.val k.val td.val)

/-- TMOV (R229): TMOV copies a T register. -/
def execTmov (d : Fin 16) (k : Fin 8) (e : IssueEnv) (td ta : Fin 8) (s : State) : Host.Outcome State Fault Refusal :=
  .next (s.issue d.val k.val e (enc 0x24 [(td.val, 22), (ta.val, 18)]) fun st => st.bTmov d.val k.val td.val ta.val)

/-- TMOV_SEC (R229): TMOV.SEC extracts the SEC field. -/
def execTmovSec (d : Fin 16) (k : Fin 8) (e : IssueEnv) (ad : Fin 16) (ta : Fin 8) (s : State) : Host.Outcome State Fault Refusal :=
  .next (s.issue d.val k.val e (enc 0x24 [(ad.val, 22), (ta.val, 18), (1, 0)]) fun st => st.bTmovSec d.val k.val ad.val ta.val)

/-- TMOV_NSF (R229): TMOV.NSF extracts the NS and FRAC bits. -/
def execTmovNsf (d : Fin 16) (k : Fin 8) (e : IssueEnv) (ad : Fin 16) (ta : Fin 8) (s : State) : Host.Outcome State Fault Refusal :=
  .next (s.issue d.val k.val e (enc 0x24 [(ad.val, 22), (ta.val, 18), (2, 0)]) fun st => st.bTmovNsf d.val k.val ad.val ta.val)

/-- TMOV_PACK (R229): TMOV.PACK builds a T96 from two A registers, or traps with NONCANON. -/
def execTmovPack (d : Fin 16) (k : Fin 8) (e : IssueEnv) (td : Fin 8) (aa ab : Fin 16) (s : State) : Host.Outcome State Fault Refusal :=
  .next (s.issue d.val k.val e (enc 0x24 [(td.val, 22), (aa.val, 18), (ab.val, 14), (3, 0)])
    fun st => st.bTmovPack d.val k.val td.val aa.val ab.val)

/-- TMOV_ZERO (R229): TMOV.ZERO clears a T register. -/
def execTmovZero (d : Fin 16) (k : Fin 8) (e : IssueEnv) (td : Fin 8) (s : State) : Host.Outcome State Fault Refusal :=
  .next (s.issue d.val k.val e (enc 0x24 [(td.val, 22), (4, 0)]) fun st => st.bTmovZero d.val k.val td.val)

/-- TLD (R228): TLD loads a T96 from data memory. -/
def execTld (d : Fin 16) (k : Fin 8) (e : IssueEnv) (td : Fin 8) (aa : Fin 16) (off : BitVec 14)
    (s : State) : Host.Outcome State Fault Refusal :=
  .next (s.issue d.val k.val e (enc 0x25 [(td.val, 22), (aa.val, 18), (off.toNat, 0)])
    fun st => st.bTld d.val k.val td.val aa.val (off.signExtend 64))

/-- TST (R228): TST stores a T96 to data memory. -/
def execTst (d : Fin 16) (k : Fin 8) (e : IssueEnv) (td : Fin 8) (aa : Fin 16) (off : BitVec 14)
    (s : State) : Host.Outcome State Fault Refusal :=
  .next (s.issue d.val k.val e (enc 0x25 [(1, 25), (td.val, 22), (aa.val, 18), (off.toNat, 0)])
    fun st => st.bTst d.val k.val td.val aa.val (off.signExtend 64))

/-- LD (R230): LD loads 64 bits from data memory. -/
def execLd (d : Fin 16) (k : Fin 8) (e : IssueEnv) (ad aa : Fin 16) (off : BitVec 18) (s : State) : Host.Outcome State Fault Refusal :=
  .next (s.issue d.val k.val e (enc 0x28 [(ad.val, 22), (aa.val, 18), (off.toNat, 0)])
    fun st => st.bLd d.val k.val ad.val aa.val (off.signExtend 64))

/-- ST (R230): ST stores 64 bits to data memory. -/
def execSt (d : Fin 16) (k : Fin 8) (e : IssueEnv) (ad aa : Fin 16) (off : BitVec 18) (s : State) : Host.Outcome State Fault Refusal :=
  .next (s.issue d.val k.val e (enc 0x29 [(ad.val, 22), (aa.val, 18), (off.toNat, 0)])
    fun st => st.bSt d.val k.val ad.val aa.val (off.signExtend 64))

/-- LDX (R230): LDX requests 64 bits from the Drover's DRAM window and enters WAIT_MEM. -/
def execLdx (d : Fin 16) (k : Fin 8) (e : IssueEnv) (ad aa : Fin 16) (off : BitVec 18) (s : State) : Host.Outcome State Fault Refusal :=
  .next (s.issue d.val k.val e (enc 0x2A [(ad.val, 22), (aa.val, 18), (off.toNat, 0)])
    fun st => st.bLdx d.val k.val ad.val aa.val (off.signExtend 64))

/-- STX (R230): STX posts a 64-bit store to the DRAM window. -/
def execStx (d : Fin 16) (k : Fin 8) (e : IssueEnv) (ad aa : Fin 16) (off : BitVec 18) (s : State) : Host.Outcome State Fault Refusal :=
  .next (s.issue d.val k.val e (enc 0x2B [(ad.val, 22), (aa.val, 18), (off.toNat, 0)])
    fun st => st.bStx d.val k.val ad.val aa.val (off.signExtend 64))

/-- EDGE (R231): EDGE offers an EDGE action to a channel and holds the task until its result. -/
def execEdge (d : Fin 16) (k : Fin 8) (e : IssueEnv) (ch : ChSrc) (ts : Fin 8) (level : Bool)
    (s : State) : Host.Outcome State Fault Refusal :=
  .next (s.issue d.val k.val e (enc 0x30 (ch.fields ++ [(ts.val, 16), (bnat level, 15)]))
    fun st => st.bAction d k ch fun t => t.edgeEntry ts.val level)

/-- PULSE (R231): PULSE offers a PULSE action to a channel. -/
def execPulse (d : Fin 16) (k : Fin 8) (e : IssueEnv) (ch : ChSrc) (ts : Fin 8) (aw : Fin 16)
    (s : State) : Host.Outcome State Fault Refusal :=
  .next (s.issue d.val k.val e (enc 0x31 (ch.fields ++ [(ts.val, 16), (aw.val, 12)]))
    fun st => st.bAction d k ch fun t => t.pulseEntry ts.val aw.val)

/-- TRAIN (R231): TRAIN offers a TRAIN action to a channel. -/
def execTrain (d : Fin 16) (k : Fin 8) (e : IssueEnv) (ch : ChSrc) (ts : Fin 8) (aw : Fin 16) (ap : Fin 8) (ac : Fin 16) (unlim chain : Bool)
    (s : State) : Host.Outcome State Fault Refusal :=
  .next (s.issue d.val k.val e (enc 0x32 (ch.fields ++ [(ts.val, 16), (aw.val, 12), (2 * ap.val, 8), (ac.val, 4), (bnat unlim, 3), (bnat chain, 2)]))
    fun st => st.bAction d k ch fun t => t.trainEntry ts.val aw.val (2 * ap.val) ac.val unlim chain)

/-- PROF (R231): PROF offers a PROF action to a channel. -/
def execProf (d : Fin 16) (k : Fin 8) (e : IssueEnv) (ch : ChSrc) (ts : Fin 8) (ac : Fin 16) (cont bank : Bool)
    (s : State) : Host.Outcome State Fault Refusal :=
  .next (s.issue d.val k.val e (enc 0x33 (ch.fields ++ [(ts.val, 16), (ac.val, 12), (bnat cont, 11), (bnat bank, 10)]))
    fun st => st.bAction d k ch fun t => t.profEntry ts.val ac.val cont bank)

/-- CANCEL (R231): CANCEL offers a CANCEL action to a channel. -/
def execCancel (d : Fin 16) (k : Fin 8) (e : IssueEnv) (ch : ChSrc) (ts : Fin 8) (s : State) : Host.Outcome State Fault Refusal :=
  .next (s.issue d.val k.val e (enc 0x34 (ch.fields ++ [(ts.val, 16)])) fun st => st.bAction d k ch fun t => t.cancelEntry ts.val)

/-- WAITT (R232): WAITT waits until device time reaches an instant. -/
def execWaitt (d : Fin 16) (k : Fin 8) (e : IssueEnv) (ta : Fin 8) (s : State) : Host.Outcome State Fault Refusal :=
  .next (s.issue d.val k.val e (enc 0x38 [(ta.val, 23)]) fun st => st.bWaitt d.val k.val ta.val)

/-- WAITE (R233): WAITE waits for events on its masked inputs, with an optional timeout. -/
def execWaite (d : Fin 16) (k : Fin 8) (e : IssueEnv) (mask : BitVec 4) (x : Bool) (ao : Fin 16)
    (s : State) : Host.Outcome State Fault Refusal :=
  .next (s.issue d.val k.val e (enc 0x39 [(mask.toNat, 22), (bnat x, 21), (ao.val, 17)])
    fun st => st.bWaite d.val k.val mask.toNat x ao.val)

/-- SIGNAL (R234): SIGNAL raises DRV_SIG(d, s) with the task tag plus 1. -/
def execSignal (d : Fin 16) (k : Fin 8) (e : IssueEnv) (sg : Fin 8) (ts : Bool) (tt : Fin 8)
    (s : State) : Host.Outcome State Fault Refusal :=
  .next (s.issue d.val k.val e (enc 0x3A [(sg.val, 23), (bnat ts, 22), (tt.val, 19)]) fun st => st.bSignal d.val k.val sg.val ts tt.val)

/-- ARM_TIU (R235): ARM with K = 0 arms a TIU with a timestamp. -/
def execArmTiu (d : Fin 16) (k : Fin 8) (e : IssueEnv) (u : Fin 96) (ts : Bool) (tt : Fin 8)
    (s : State) : Host.Outcome State Fault Refusal :=
  .next (s.issue d.val k.val e (enc 0x3B [(u.val, 17), (bnat ts, 16), (tt.val, 13)]) fun st => st.bArmTiu d.val k.val u.val ts tt.val)

/-- DISARM_TIU (R235): ARM.DIS with K = 0 disarms a TIU. -/
def execDisarmTiu (d : Fin 16) (k : Fin 8) (e : IssueEnv) (u : Fin 96) (ts : Bool) (tt : Fin 8)
    (s : State) : Host.Outcome State Fault Refusal :=
  .next (s.issue d.val k.val e (enc 0x3B [(1, 24), (u.val, 17), (bnat ts, 16), (tt.val, 13)])
    fun st => st.bDisarmTiu d.val k.val u.val ts tt.val)

/-- ARM_EO_SLOT (R235): ARM with K = 1 arms the trigger slot of a channel. -/
def execArmEoSlot (d : Fin 16) (k : Fin 8) (e : IssueEnv) (n : Fin 64) (ts : Bool) (tt : Fin 8)
    (s : State) : Host.Outcome State Fault Refusal :=
  .next (s.issue d.val k.val e (enc 0x3B [(1, 25), (n.val, 17), (bnat ts, 16), (tt.val, 13)])
    fun st => st.bArmSlot d.val k.val n.val true)

/-- DISARM_EO_SLOT (R235): ARM.DIS with K = 1 disarms the trigger slot of a channel. -/
def execDisarmEoSlot (d : Fin 16) (k : Fin 8) (e : IssueEnv) (n : Fin 64) (ts : Bool) (tt : Fin 8)
    (s : State) : Host.Outcome State Fault Refusal :=
  .next (s.issue d.val k.val e (enc 0x3B [(1, 25), (1, 24), (n.val, 17), (bnat ts, 16), (tt.val, 13)])
    fun st => st.bArmSlot d.val k.val n.val false)

/-- MEAS (R236): MEAS arms a TIU unless NA is set and waits for its next record. -/
def execMeas (d : Fin 16) (k : Fin 8) (e : IssueEnv) (td : Fin 8) (ad : Fin 16) (u : Fin 96) (x na : Bool) (ao : Fin 16)
    (s : State) : Host.Outcome State Fault Refusal :=
  .next (s.issue d.val k.val e (enc 0x3C [(td.val, 23), (ad.val, 19), (u.val, 12), (ao.val, 8), (bnat x, 7), (bnat na, 6)])
    fun st => st.bMeas d.val k.val td.val ad.val u.val ao.val x na)

/-- LAUNCH (R238): LAUNCH offers a frame from the DRAM window to a port's launch queue. -/
def execLaunch (d : Fin 16) (k : Fin 8) (e : IssueEnv) (p : Fin 52) (tt : Fin 8) (aa : Fin 16)
    (s : State) : Host.Outcome State Fault Refusal :=
  .next (s.issue d.val k.val e (enc 0x3D [(p.val, 20), (tt.val, 17), (aa.val, 13)]) fun st => st.bLaunch d.val k.val p.val tt.val aa.val)

/-- CSR_READ_CW (R193): CSR reads a task control word, which for INTAKE consumes and for INTS pops an input. -/
def execCsrReadCw (d : Fin 16) (k : Fin 8) (e : IssueEnv) (r : CsrReg) (n : BitVec 12) (s : State) : Host.Outcome State Fault Refusal :=
  .next (s.issue d.val k.val e (enc 0x3E (r.fields ++ [(n.toNat, 0)])) fun st => st.bCsrRead d.val k.val r n.toNat)

/-- CSR_WRITE_CW (R193): CSR writes a task control word such as FLAGS, POL or TCTL. -/
def execCsrWriteCw (d : Fin 16) (k : Fin 8) (e : IssueEnv) (r : CsrReg) (n : BitVec 12) (s : State) : Host.Outcome State Fault Refusal :=
  .next (s.issue d.val k.val e (enc 0x3E ([(1, 24)] ++ r.fields ++ [(n.toNat, 0)])) fun st => st.bCsrWrite d.val k.val r n.toNat)

/-- CSR_READ_BAR0 (R194): CSR reads a BAR0 register permitted by DRV_CSR_PERM. -/
def execCsrReadBar0 (d : Fin 16) (k : Fin 8) (e : IssueEnv) (ad aa : Fin 16) (s : State) : Host.Outcome State Fault Refusal :=
  .next (s.issue d.val k.val e (enc 0x3E [(2, 24), (ad.val, 19), (aa.val, 15)]) fun st => st.bCsrReadBar d k.val ad.val aa.val)

/-- CSR_WRITE_BAR0 (R194): CSR writes a BAR0 register permitted by DRV_CSR_PERM, effective at the next tick. -/
def execCsrWriteBar0 (d : Fin 16) (k : Fin 8) (e : IssueEnv) (ar aa : Fin 16) (s : State) : Host.Outcome State Fault Refusal :=
  .next (s.issue d.val k.val e (enc 0x3E [(3, 24), (ar.val, 19), (aa.val, 15)]) fun st => st.bCsrWriteBar d.val k.val ar.val aa.val)

/-- ILLEGAL (R221): Issue of an instruction word with an unlisted opcode traps the task with ILLEGAL and the word in ARG. -/
def execIllegal (d : Fin 16) (k : Fin 8) (e : IssueEnv) (w : Word) (s : State) : Host.Outcome State Fault Refusal :=
  .next (s.issueIllegal d.val k.val e w)

end Sys2Proof.Machine
end

