-- ==== Sys2Proof/Machine/CmdBellwether.lean ====
section
/-! DEFINITION. The meanings of the commands of Bellwether. -/

namespace Sys2Proof.Machine

/-- PPSIN_PULSE (R298): A rising edge on PPSINi is timestamped and accepted, or ignored within 0.5 s of the previous one. -/
def execPpsinPulse (i : Fin 2) (slot : Fin 32) (s : State) : Host.Outcome State Fault Refusal :=
  .next (if s.time.run then s.ppsinPulse i.val slot.val else s)

/-- BW_REF_SW_COMMIT (R299): A commit of BW_REF_SW delivers one phase sample to a software candidate. -/
def execBwRefSwCommit (q : Port) (r : Fin 8) (theta : BitVec 64) (s : State) : Host.Outcome State Fault Refusal :=
  .next (s.busCommit q.req .bwRefSw r.val theta.toNat)

/-- BW_SECOND (R300): At each whole second Bellwether forms frequency samples, advances qualification, and updates holdover
history and estimates. -/
def execBwSecond (s : State) : Host.Outcome State Fault Refusal :=
  .next (s.bwSecond)

/-- REF_DISQUALIFY (R302): A candidate losing its signal, or failing stability, range or jump, falls to DISQ with a recorded
cause. -/
def execRefDisqualify (r : Fin 8) (s : State) : Host.Outcome State Fault Refusal :=
  .next (s.signalLost r.val)

/-- BW_EVALUATE (R303): Every 1 ms Bellwether chooses its target reference, switches or acquires, and changes state. -/
def execBwEvaluate (ck : List (Option Int)) (s : State) : Host.Outcome State Fault Refusal :=
  .next (s.bwEvaluate ck)

/-- BW_UNLOCK_WRITE (R311): A write of BW_UNLOCK.KEY from a host requester sets or clears STEP_OK. -/
def execBwUnlockWrite (q : Port) (data : BitVec 32) (s : State) : Host.Outcome State Fault Refusal :=
  .next (s.busTo q.req .bwUnlock data.toNat)

/-- REALIGN (R310): BW_CMD.REALIGN starts a pull from the held offset to zero. -/
def execBwRealign (q : Port) (s : State) : Host.Outcome State Fault Refusal :=
  .next (s.busTo q.req .bwCmd 1)

/-- HOLDOVER_LOST (R315): The holdover timer reaching SPEC moves Bellwether from HOLDOVER to LOST. -/
def execHoldoverLost (s : State) : Host.Outcome State Fault Refusal :=
  .next (s.holdoverLost)

/-- BW_CTL_WRITE (R317): A write of BW_CTL may force Bellwether's state through MODE. -/
def execBwCtlWrite (q : Port) (data : BitVec 32) (s : State) : Host.Outcome State Fault Refusal :=
  .next (s.busTo q.req .bwCtl data.toNat)

/-- BW_REF_CFG_WRITE (R302): A write changing a candidate's TYPE, INDEX or CKIN_100M disqualifies it with CONFIG. -/
def execBwRefCfgWrite (q : Port) (r : Fin 8) (data : BitVec 32) (s : State) : Host.Outcome State Fault Refusal :=
  .next (s.busTo q.req .bwRefCfg data.toNat r.val)

end Sys2Proof.Machine
end

