-- ==== Sys2Proof/Machine/CmdCal.lean ====
section
/-! DEFINITION. The meanings of the commands of self-calibration. -/

namespace Sys2Proof.Machine

/-- CAL_TEMP_EVAL (R250): Every 1 ms CAL compares each region's sensor with its capture temperature and schedules runs. -/
def execCalTempEval (s : State) : Host.Outcome State Fault Refusal :=
  .next (s.tempEval)

/-- CAL_HOLD (R251): In a natural gap CAL holds a channel or unit to collect calibration data, releasing it at the next action
or hit. -/
def execCalHold (eo : Bool) (o : HoldObs) (s : State) : Host.Outcome State Fault Refusal :=
  .next (if eo then s.calHoldEo o.idx.val o.steps else if o.idx.val < 32 then s.calHoldTiu o.idx.val o.steps else s)

/-- CD_RUN_DONE (R242): A code-density histogram is complete, judged for plausibility, and its widths come into force or are
rejected. -/
def execCdRunDone (u : Fin 96) (h : List Nat) (vtrim : Nat) (s : State) : Host.Outcome State Fault Refusal :=
  .next (s.cdDone u.val h vtrim)

/-- TAP_RUN_DONE (R245): A tap run completes and its table is judged and brought into force by blend or at a boundary, or
rejected. -/
def execTapRunDone (n : Fin 64) (m : TapMeas) (s : State) : Host.Outcome State Fault Refusal :=
  .next (s.tapDone n.val m)

/-- PIN_RUN_DONE (R246): A pin run completes and sets K_n, or is rejected with LOAD. -/
def execPinRunDone (n : Fin 64) (mon replica : Nat) (load : Bool) (s : State) : Host.Outcome State Fault Refusal :=
  .next (s.pinDone n.val mon replica load)

/-- REGION_RUN_DONE (R247): A region run ends with the TIU_OFS update and a new capture temperature. -/
def execRegionRunDone (r : Fin 12) (s : State) : Host.Outcome State Fault Refusal :=
  .next (s.regionDone r.val)

/-- CAL_RUN_STARVED (R252): A run still incomplete 60 s after scheduling ends with STARVED. -/
def execCalRunStarved (eo : Bool) (i : Fin 96) (s : State) : Host.Outcome State Fault Refusal :=
  .next (s.runStarved eo i.val)

/-- RUN_REGION (R268): CAL command RUN_REGION starts a run of one region. -/
def execRunRegion (q : Port) (arg : BitVec 8) (s : State) : Host.Outcome State Fault Refusal :=
  .next (s.busTo q.req .calCmd (1 + 256 * arg.toNat))

/-- RUN_TIU (R268): CAL command RUN_TIU starts a code-density run of one unit. -/
def execRunTiu (q : Port) (arg : BitVec 8) (s : State) : Host.Outcome State Fault Refusal :=
  .next (s.busTo q.req .calCmd (2 + 256 * arg.toNat))

/-- RUN_EO (R268): CAL command RUN_EO starts a tap run of one channel. -/
def execRunEo (q : Port) (arg : BitVec 8) (s : State) : Host.Outcome State Fault Refusal :=
  .next (s.busTo q.req .calCmd (3 + 256 * arg.toNat))

/-- CAL_PIN (R246): CAL command PIN starts a pin run on an idle channel, or ends with NOT_IDLE. -/
def execCalPin (q : Port) (arg : BitVec 8) (s : State) : Host.Outcome State Fault Refusal :=
  .next (s.busTo q.req .calCmd (4 + 256 * arg.toNat))

/-- CAL_FULL (R253): CAL command FULL starts a full calibration of all twelve regions. -/
def execCalFull (q : Port) (arg : BitVec 8) (s : State) : Host.Outcome State Fault Refusal :=
  .next (s.busTo q.req .calCmd (5 + 256 * arg.toNat))

/-- CAL_APPLY (R255): CAL command APPLY brings a pending discontinuous change into force for a channel. -/
def execCalApply (q : Port) (arg : BitVec 8) (s : State) : Host.Outcome State Fault Refusal :=
  .next (s.busTo q.req .calCmd (6 + 256 * arg.toNat))

/-- LOAD_TIU (R268): CAL command LOAD_TIU checks a unit's shadow table and brings it into force. -/
def execLoadTiu (q : Port) (arg : BitVec 8) (s : State) : Host.Outcome State Fault Refusal :=
  .next (s.busTo q.req .calCmd (7 + 256 * arg.toNat))

/-- LOAD_EO (R268): CAL command LOAD_EO checks a channel's shadow table and brings it into force. -/
def execLoadEo (q : Port) (arg : BitVec 8) (s : State) : Host.Outcome State Fault Refusal :=
  .next (s.busTo q.req .calCmd (8 + 256 * arg.toNat))

/-- EXPORT (R261): CAL command EXPORT starts writing the values in force as an image to DRAM. -/
def execCalExport (q : Port) (arg : BitVec 8) (s : State) : Host.Outcome State Fault Refusal :=
  .next (s.busTo q.req .calCmd (9 + 256 * arg.toNat))

/-- IMPORT (R261): CAL command IMPORT starts reading and checking an image from DRAM. -/
def execCalImport (q : Port) (arg : BitVec 8) (s : State) : Host.Outcome State Fault Refusal :=
  .next (s.busTo q.req .calCmd (10 + 256 * arg.toNat))

/-- SAVE (R262): CAL command SAVE starts writing an image to the older flash slot. -/
def execCalSave (q : Port) (arg : BitVec 8) (s : State) : Host.Outcome State Fault Refusal :=
  .next (s.busTo q.req .calCmd (11 + 256 * arg.toNat))

/-- CAL_ABORT (R268): CAL command ABORT ends the long operation and all runs with ABORTED. -/
def execCalAbort (q : Port) (arg : BitVec 8) (s : State) : Host.Outcome State Fault Refusal :=
  .next (s.busTo q.req .calCmd (12 + 256 * arg.toNat))

/-- EXPORT_DONE (R261): An EXPORT completes with its result code. -/
def execExportDone (s : State) : Host.Outcome State Fault Refusal :=
  .next (s.exportDone)

/-- IMPORT_DONE (R261): An IMPORT completes and the accepted image comes into force, or the image is rejected. -/
def execImportDone (s : State) : Host.Outcome State Fault Refusal :=
  .next (s.importDone)

/-- SAVE_DONE (R262): A SAVE completes after its read-back, or ends with FLASH. -/
def execSaveDone (bad : List (Nat × Nat)) (s : State) : Host.Outcome State Fault Refusal :=
  .next (s.saveDone bad)

/-- CAL_STARTUP_IMPORT (R263): At start-up CAL imports the valid flash slot with the higher sequence number, or runs a full
calibration. -/
def execCalStartupImport (s : State) : Host.Outcome State Fault Refusal :=
  .next (s.calStartup)

end Sys2Proof.Machine
end

