-- ==== Sys2Proof/Machine/CmdDrover.lean ====
section
/-! DEFINITION. The meanings of the commands of the events of the Drovers. -/

namespace Sys2Proof.Machine

/-- DRV_IN_GROUP (R161): An event group at DRV_IN(d, k, i) updates its count, COINCIDENT, timestamp FIFO and tag. -/
def execDrvInGroup (d : Fin 16) (k : Fin 8) (i : Fin 4) (s : State) : Host.Outcome State Fault Refusal :=
  .next (s.live (s.drvInGroup d.val k.val i.val))

/-- TASK_WAKE_EVENT (R191): A group at a masked input of a task in WAIT_EVENT wakes it with TAG, WAKE and WTIME set. -/
def execTaskWakeEvent (d : Fin 16) (k : Fin 8) (s : State) : Host.Outcome State Fault Refusal :=
  .next (s.wakeOnEvent d.val k.val)

/-- TASK_WAKE_TIME (R232): Device time reaching the WAITT instant, or a forward step past it, makes the task READY. -/
def execTaskWakeTime (d : Fin 16) (k : Fin 8) (s : State) : Host.Outcome State Fault Refusal :=
  .next (s.wakeTime d.val k.val)

/-- TASK_WAKE_TIMEOUT (R233): The WAITE expiry instant wakes the task with TIMEOUT and Z = 1. -/
def execTaskWakeTimeout (d : Fin 16) (k : Fin 8) (s : State) : Host.Outcome State Fault Refusal :=
  .next (s.wakeOnTimeout d.val k.val)

/-- YIELD_END (R223): After n ticks in WAIT_TIME a yielding task is READY again. -/
def execYieldEnd (d : Fin 16) (k : Fin 8) (s : State) : Host.Outcome State Fault Refusal :=
  .next (s.yieldEnd d.val k.val)

/-- DRV_BUSY_END (R184): A multi-tick instruction such as MULQ or DIVQ completes and its task is READY. -/
def execDrvBusyEnd (d : Fin 16) (k : Fin 8) (s : State) : Host.Outcome State Fault Refusal :=
  .next (s.busyEnd d.val k.val)

/-- WAIT_QUEUE_REOFFER (R186): A task in WAIT_QUEUE re-offers its action to the full EO queue each tick. -/
def execWaitQueueReoffer (d : Fin 16) (k : Fin 8) (s : State) : Host.Outcome State Fault Refusal :=
  .next (s.reoffer d k)

/-- LDX_RETURN (R197): An LDX returns its data and releases the task from WAIT_MEM. -/
def execLdxReturn (d : Fin 16) (k : Fin 8) (bad : Bool) (s : State) : Host.Outcome State Fault Refusal :=
  .next (s.ldxReturn d.val k.val bad)

/-- LDX_TIMEOUT (R198): An LDX with no data 2 µs after issue traps with DRAM. -/
def execLdxTimeout (d : Fin 16) (k : Fin 8) (s : State) : Host.Outcome State Fault Refusal :=
  .next (s.ldxTimeout d.val k.val)

/-- MEAS_COMPLETE (R236): The first record a unit completes after MEAS arrives is written to Td, Ad and A(d+1). -/
def execMeasComplete (d : Fin 16) (k : Fin 8) (s : State) : Host.Outcome State Fault Refusal :=
  .next (s.measComplete d.val k.val)

/-- MEAS_TIMEOUT (R236): The MEAS expiry instant completes MEAS as a timeout with Z = 1. -/
def execMeasTimeout (d : Fin 16) (k : Fin 8) (s : State) : Host.Outcome State Fault Refusal :=
  .next (s.measTimeout d.val k.val)

/-- LAUNCH_COMPLETE (R238): The launch result returns after the frame is copied into Paddock, and ARES receives it. -/
def execLaunchComplete (d : Fin 16) (k : Fin 8) (s : State) : Host.Outcome State Fault Refusal :=
  .next (s.launchComplete d.val k.val)

/-- TASK_START (R204): DRV_TASK_CTL.START or a TCTL write starts a stopped or trapped task at ENTRY, or refuses with SRES. -/
def execTaskStart (q : Port) (d : Fin 16) (k : Fin 8) (data : BitVec 32) (s : State) : Host.Outcome State Fault Refusal :=
  .next (s.busFld q.req F.drvTaskCtl_START data.toNat 1 d.val k.val)

/-- TASK_STOP (R205): DRV_TASK_CTL.STOP or a TCTL write abandons the task's instruction in progress and stops it. -/
def execTaskStop (q : Port) (d : Fin 16) (k : Fin 8) (data : BitVec 32) (s : State) : Host.Outcome State Fault Refusal :=
  .next (s.busFld q.req F.drvTaskCtl_STOP data.toNat 1 d.val k.val)

/-- DRV_PROG_COMMIT (R203): A commit of DRV_PROG starts a CRC check of the program, or is rejected. -/
def execDrvProgCommit (q : Port) (d : Fin 16) (v : BitVec 96) (s : State) : Host.Outcome State Fault Refusal :=
  .next (s.busCommit q.req .drvProg d.val v.toNat)

/-- DRV_PROG_CHECK_DONE (R203): The program check ends with RES VALID or BAD_CRC. -/
def execDrvProgCheckDone (d : Fin 16) (bad : Bool) (s : State) : Host.Outcome State Fault Refusal :=
  .next (s.progCheckDone d.val bad)

/-- DRV_RESET (R207): Writing DRV_CTL.RST resets one Drover and clears FAULTED, keeping its memories. -/
def execDrvReset (q : Port) (d : Fin 16) (data : BitVec 32) (s : State) : Host.Outcome State Fault Refusal :=
  .next (s.busFld q.req F.drvCtl_RST data.toNat 1 d.val)

/-- DRV_MEM_READ (R213): A read of DRV_MEM_DATA word 0 reads the word at INDEX and may advance INDEX. -/
def execDrvMemRead (q : Port) (d : Fin 16) (s : State) : Host.Outcome State Fault Refusal :=
  .next (s.busFrom q.req .drvMemData d.val)

/-- DRV_MEM_WRITE (R213): A commit of DRV_MEM_DATA writes instruction or data memory at INDEX, or is refused by task state. -/
def execDrvMemWrite (q : Port) (d : Fin 16) (v : BitVec 64) (s : State) : Host.Outcome State Fault Refusal :=
  .next (s.busCommit q.req .drvMemData d.val v.toNat)

end Sys2Proof.Machine
end

