-- ==== Sys2Proof/Machine/CmdDroveway.lean ====
section
/-! DEFINITION. The meanings of the commands of the Droveway. -/

namespace Sys2Proof.Machine

/-- DW_CHANNEL_EVENT (R157): An event taken by a clocked channel passes the tag check, EN, gate and flock and is counted, or is
stopped. -/
def execDwChannelEvent (c : Fin 256) (s : State) : Host.Outcome State Fault Refusal :=
  .next (s.live (s.channelEvent c.val))

/-- EVIN_EDGE (R151): A transition of the selected sense on pin EVINi raises EVIN(i). -/
def execEvinEdge (i : Fin 16) (level : Bool) (s : State) : Host.Outcome State Fault Refusal :=
  .next (s.live (s.evinEdge i.val level))

/-- DW_TMR_ENABLE (R152): Setting DW_TMR_CTL.EN starts the timer, skipping instants already too near. -/
def execDwTmrEnable (q : Port) (i : Fin 8) (data : BitVec 32) (s : State) : Host.Outcome State Fault Refusal :=
  .next (s.busFld q.req F.dwTmrCtl_EN data.toNat 1 i.val)

/-- DW_TMR_INSTANT (R152): Device time reaching a timer instant raises DW_TMR(i), and the last instant ends the timer with DONE.
-/
def execDwTmrInstant (i : Fin 8) (s : State) : Host.Outcome State Fault Refusal :=
  .next (s.live (s.tmrFire i.val))

/-- SWF_FIRE (R153): A write of 1 to a bit of DW_SWF raises SWF(i). -/
def execSwfFire (q : Port) (data : BitVec 16) (s : State) : Host.Outcome State Fault Refusal :=
  .next (s.busTo q.req .dwSwf data.toNat)

/-- EVOUT_EVENT (R155): An event group at EVOUT(i) starts or extends a pulse or toggles the pin. -/
def execEvoutEvent (i : Fin 16) (s : State) : Host.Outcome State Fault Refusal :=
  .next (s.live (s.onGroup (Con.evout i.val) (fun evs st => st.evoutGroup i.val evs) 1))

/-- EVOUT_PULSE_END (R155): An EVOUT pulse ends after WIDTH ticks. -/
def execEvoutPulseEnd (i : Fin 16) (s : State) : Host.Outcome State Fault Refusal :=
  .next (s.live (s.evoutEnd i.val))

/-- FLOCK_EN (R162): A FLOCK_EN(f) event enables the flock from its timestamp. -/
def execFlockEn (f : Fin 32) (s : State) : Host.Outcome State Fault Refusal :=
  .next (s.live (s.onGroup (Con.flockEn f.val) fun evs st => st.flockGroup f.val true evs))

/-- FLOCK_DIS (R162): A FLOCK_DIS(f) event disables the flock from its timestamp. -/
def execFlockDis (f : Fin 32) (s : State) : Host.Outcome State Fault Refusal :=
  .next (s.live (s.onGroup (Con.flockDis f.val) fun evs st => st.flockGroup f.val false evs))

/-- FLOCK_STATE_WRITE (R162): A write of DW_FL_CTL.STATE enables or disables the flock from the tick it reaches TB. -/
def execFlockStateWrite (q : Port) (f : Fin 32) (data : BitVec 32) (s : State) : Host.Outcome State Fault Refusal :=
  .next (s.busTo q.req .dwFlCtl data.toNat f.val)

/-- DW_CHANNEL_ENABLE (R166): A write setting DW_CH_CFG.EN starts the enable check of the channel. -/
def execDwChannelEnable (q : Port) (c : Fin 256) (data : BitVec 32) (s : State) : Host.Outcome State Fault Refusal :=
  .next (s.busFld q.req F.dwChCfg_EN data.toNat 1 c.val)

/-- DW_CHANNEL_DISABLE (R166): A write clearing DW_CH_CFG.EN disables the channel, or abandons a check in progress with ABORTED.
-/
def execDwChannelDisable (q : Port) (c : Fin 256) (data : BitVec 32) (s : State) : Host.Outcome State Fault Refusal :=
  .next (s.busFld q.req F.dwChCfg_EN data.toNat 0 c.val)

/-- DW_ENABLE_CHECK_DONE (R166): The enable check ends and sets EN or refuses it with CYCLE, DEPTH, SEL_MISMATCH or BAD_SRC. -/
def execDwEnableCheckDone (c : Fin 256) (s : State) : Host.Outcome State Fault Refusal :=
  .next (s.live (s.chCheckDone c.val))

/-- DW_CH_OWN_WRITE (R164): A write of DW_CH_OWN hands the channel over or locks it, or is refused by ownership or lock. -/
def execDwChOwnWrite (q : Port) (c : Fin 256) (data : BitVec 32) (s : State) : Host.Outcome State Fault Refusal :=
  .next (s.busTo q.req .dwChOwn data.toNat c.val)

/-- DW_CON_SEL_WRITE (R156): A write of DW_CON_SEL(x) changes how consumer x is fed from the next tick, subject to ownership and
lock. -/
def execDwConSelWrite (q : Port) (x : Fin 1076) (data : BitVec 32) (s : State) : Host.Outcome State Fault Refusal :=
  .next (s.busTo q.req .dwConSel data.toNat x.val)

/-- ASYNC_SOURCE_LEVEL_CHANGE (R160): A level change on an EVIN, PPSIN or TI pin feeding an enabled asynchronous channel
propagates, gated, to the selected EVOUT pins within nanoseconds. -/
def execAsyncSourceLevelChange (a : Fin 64) (level : Bool) (s : State) : Host.Outcome State Fault Refusal :=
  .next (s.asyncLevel a.val level)

end Sys2Proof.Machine
end

