-- ==== Sys2Proof/Machine/SideBus.lean ====
section
/-! DEFINITION. The ways into the device beside a plain BAR0 access: BAR2 (R28, R29), PCIe errors (R430), SMBus (R438), JTAG (R439 to R441);
and the fault reaction as a channel receives it (R92, R416). -/

namespace Sys2Proof.Machine

/-! ### BAR2 -/

/-- The DRAM address a BAR2 offset reaches (R28). (DEDUCED, log entry 77.) -/
def State.bar2Addr (s : State) (x : Nat) : Nat := s.fget F.dmaAperBase_BASE * 2 ^ 30 + x % 2 ^ 30

/-- BAR2_READ: bytes of DRAM, or all ones while DRAM is unavailable (R29). -/
def State.bar2Read (s : State) (x n : Nat) : State :=
  if !s.glb.barReady then s
  else
    let one (i : Nat) : Nat := if s.dramUnavail then 255 else (memRead dramUnl s.dram (s.bar2Addr (x + i))).toNat
    s.setResp { bytes := (List.range n).map one }

/-- One byte of a BAR2 write: the firmware region discards it and sets FW_WR; any other is discarded while DRAM is unavailable (R29).
(DEDUCED, log entry 77.) -/
def State.bar2Byte (s : State) (x : Nat) (b : Byte) : State :=
  let a := s.bar2Addr x
  if fwRegion ≤ a then s.fon F.dmaAperBase_FW_WR
  else if s.dramUnavail then s
  else s.setDram (memWrite dramUnl s.dram a b)

/-- Bytes of a BAR2 write at rising offsets. -/
def State.bar2Bytes (s : State) (x : Nat) : List Byte → State
  | [] => s
  | b :: t => (s.bar2Byte x b).bar2Bytes (x + 1) t

/-- BAR2_WRITE (R29): discarded when it is poisoned (R430). -/
def State.bar2Write (s : State) (x : Nat) (bytes : List Byte) (poison : Bool) : State :=
  if !s.glb.barReady then s
  else if poison then s.pcieErr
  else s.bar2Bytes x bytes

/-- Vendor, device, revision and class code of the PCI Express function (R430). -/
def State.pciId (s : State) : List Nat := [0x1F3A, 0x6452, s.rget ⟨.glbStepping, 0, 0, 0⟩ % 256, 0x118000]

/-- REGISTER_WRITE: a BAR0 write with byte enables; a poisoned one from PCIe is discarded (R25, R430). -/
def State.registerWrite (s : State) (q : Requester) (a x be : Nat) (poison : Bool) : State :=
  if poison ∧ q = .pcie then (if s.glb.barReady then s.pcieErr else s) else s.busWriteBe q a x be

/-- A BAR0 address lies in a block held in reset (R25). -/
def State.addrHeld (s : State) (a : Nat) : Bool :=
  match blkOf a with
  | some b => s.blkHeld b
  | none => false

/-! ### SMBus (R438) -/

/-- A transaction names this device. (DEDUCED, log entry 78.) -/
def State.smbMine (s : State) (dev : Nat) : Bool := s.glb.vaux && decide (dev = 0x58 + s.fget F.glbStrap_SMB_ADDR)

/-- A write whose PEC does not match is discarded and counted. -/
def State.smbPec (s : State) (dev : Nat) (pecOk : Bool) (f : State → State) : State :=
  if !s.smbMine dev then s else if pecOk then f s else s.cnt .glbSmbCntPec

/-- Command 0x10: one register write. -/
def State.smbWrite (s : State) (dev a x : Nat) (pecOk : Bool) : State := s.smbPec dev pecOk fun st => st.busWrite .smbus a x

/-- Command 0x11: the address of the next read. -/
def State.smbSet (s : State) (dev a : Nat) (pecOk : Bool) : State :=
  s.smbPec dev pecOk fun st => st.setHost { st.host with smbAddr := a }

/-- Command 0x12: the data at the last address and the status byte. -/
def State.smbRead (s : State) (dev : Nat) : State :=
  if s.smbMine dev then s.busRead .smbus s.host.smbAddr else s

/-! ### JTAG (R439 to R441) -/

/-- The instructions that hold the core in pin reset (R440). -/
def jtagBoundary (op : Nat) : Bool := decide (3 ≤ op ∧ op ≤ 7)

/-- An opcode R439 lists beside BYPASS. (DEDUCED, log entry 78.) -/
def jtagListed (op : Nat) : Bool := decide (1 ≤ op ∧ op ≤ 7) || decide (op = 0x20)

/-- IDCODE (R439): version, part, manufacturer. -/
def idcode : Nat := 0x1645258F

/-- The data register of the current instruction as Capture-DR loads it (R439, R441): CLAMP and HIGHZ leave BYPASS selected. -/
def State.captureDr (s : State) : Nat :=
  let j := s.host.jtag
  if j.ir = 0x01 then idcode
  else if 2 ≤ j.ir ∧ j.ir ≤ 5 then j.boundary
  else if j.ir = 0x20 then j.status * 2 ^ 64 + j.data
  else 0

def State.setJtag (s : State) (j : Jtag) : State := s.setHost { s.host with jtag := j }

/-- An instruction becomes current (R440): a boundary instruction holds the core in pin reset, any other lets it go. -/
def State.jtagIr (s : State) (op : Nat) : State :=
  if !s.glb.vaux then s
  else
    let s1 := if jtagBoundary op && !s.glb.boundary then s.pinReset 6 else s
    (s1.setGlb { s1.glb with boundary := jtagBoundary op }).setJtag { s1.host.jtag with ir := op }

/-- BYPASS: opcode 0xFF, and every opcode R439 does not list. (DEDUCED, log entry 78.) -/
def State.jtagBypass (s : State) (op : Nat) : State := if jtagListed op then s else s.jtagIr 0xFF

/-- SAMPLE/PRELOAD: the boundary register takes what is sampled or shifted in. -/
def State.jtagSample (s : State) (v : Nat) : State :=
  let s1 := s.jtagIr 0x02
  if s.glb.vaux then s1.setJtag { s1.host.jtag with boundary := v } else s1

/-- A REGACC access leaves its status and data for the next Capture-DR (R441). -/
def State.regaccDone (s : State) (held : Bool) (data : Nat) : State :=
  s.setJtag { s.host.jtag with status := if held then 3 else 0, data := data }

def State.regaccRead (s : State) (a : Nat) : State :=
  if s.glb.vaux ∧ s.host.jtag.ir = 0x20 then
    let s1 := s.busRead .jtag a
    s1.regaccDone (s.addrHeld a) s1.resp.data
  else s

def State.regaccWrite (s : State) (a x : Nat) : State :=
  if s.glb.vaux ∧ s.host.jtag.ir = 0x20 then (s.busWrite .jtag a x).regaccDone (s.addrHeld a) 0 else s

/-! ### Fault reactions (R92, R416) -/

/-- EO_FAULT_REACTION: the channel takes the oldest reaction that it has not seen; one confined to another flock passes it by. -/
def State.eoFaultReaction (s : State) (n : Nat) : State :=
  let c := s.getEo n
  match s.flt.reacts[c.reactSeen]? with
  | none => s
  | some r =>
    let f := s.fget F.eoCtl_FLOCK n
    let s1 := s.setEo n { c with reactSeen := c.reactSeen + 1 }
    if r = none ∨ r = some f then s1.eoReact n (s1.fget F.dwFlCtl_REACT f) else s1

end Sys2Proof.Machine
end

