-- ==== Sys2Proof/Machine/CmdEo.lean ====
section
/-! DEFINITION. The meanings of the commands of the edge outputs. -/

namespace Sys2Proof.Machine

/-- EO_QE_COMMIT (R101): Writing word 9 of EO_QE(n) submits the staged entry as an action to channel n. -/
def execEoQeCommit (q : Port) (n : Fin 64) (v : BitVec 320) (s : State) : Host.Outcome State Fault Refusal :=
  .next (s.busCommit q.req .eoQe n.val v.toNat)

/-- EO_TE_COMMIT (R83): Writing word 9 of EO_TE(n) checks the template and stores it, or keeps the previous one and sets WR_ERR.
-/
def execEoTeCommit (q : Port) (n : Fin 64) (v : BitVec 320) (s : State) : Host.Outcome State Fault Refusal :=
  .next (s.busCommit q.req .eoTe n.val v.toNat)

/-- ACTION_ACCEPT (R72): At its acceptance tick an offered action is checked, judged for lateness and queue room, and queued or
refused with a result code. -/
def execActionAccept (n : Fin 64) (s : State) : Host.Outcome State Fault Refusal :=
  .next (s.live (s.eoAccept n.val))

/-- CANCEL_CUT (R80): At the cut instant of a CANCEL, queued actions after it are discarded, trains and profiles stop, and
levels hold. -/
def execCancelCut (n : Fin 64) (s : State) : Host.Outcome State Fault Refusal :=
  .next (s.live (s.cancelCut n.val))

/-- ACTION_ACTIVATE (R66): A queued action whose first transition is due to enter the filter takes a free generator. -/
def execActionActivate (n : Fin 64) (s : State) : Host.Outcome State Fault Refusal :=
  .next (s.live (s.eoActivate n.val))

/-- TRANSITION_FILTER (R76): A transition enters the filter, where null transitions, runt pairs and pairs beyond the rate limit
are removed. -/
def execTransitionFilter (n : Fin 64) (s : State) : Host.Outcome State Fault Refusal :=
  .next (s.live (s.eoFilter n.val))

/-- TRANSITION_COMMIT (R65): A surviving transition is converted to the grid with the tap table in force and handed to the
launch stage 16 ticks before its launch tick. -/
def execTransitionCommit (n : Fin 64) (s : State) : Host.Outcome State Fault Refusal :=
  .next (s.live (s.eoCommit n.val))

/-- TRANSITION_LAUNCH (R78): A committed transition launches on its tick, tap and vernier code, and is selected for verification
or skipped. -/
def execTransitionLaunch (n : Fin 64) (s : State) : Host.Outcome State Fault Refusal :=
  .next (s.live (s.eoLaunch n.val))

/-- EDGE_VERIFY (R89): The outcome of a checked transition is delivered as VERIFIED, DISPLACED or MISSING to the fault monitor,
Tally and, when verified, CAL. -/
def execEdgeVerify (n : Fin 64) (s : State) : Host.Outcome State Fault Refusal :=
  .next (s.live (s.eoVerify n.val))

/-- EO_ENABLE (R69): EO_CTL.EN changing from 0 to 1 enables the channel at its idle level, or leaves a FOLLOW channel's current
level. -/
def execEoEnable (q : Port) (n : Fin 64) (data : BitVec 32) (s : State) : Host.Outcome State Fault Refusal :=
  .next (s.busFld q.req F.eoCtl_EN data.toNat 1 n.val)

/-- EO_DISABLE (R69): EO_CTL.EN changing from 1 to 0 discards the queue and unlaunched transitions and drives the output to
IDLE. -/
def execEoDisable (q : Port) (n : Fin 64) (data : BitVec 32) (s : State) : Host.Outcome State Fault Refusal :=
  .next (s.busFld q.req F.eoCtl_EN data.toNat 0 n.val)

/-- BANK_POWER_DOWN (R67): Clearing EO_BANK_CTL.PWR powers the bank down and discards every action of its channels. -/
def execBankPowerDown (q : Port) (b : Fin 8) (s : State) : Host.Outcome State Fault Refusal :=
  .next (s.busTo q.req .eoBankCtl 0 b.val)

/-- BANK_POWER_UP (R67): Setting EO_BANK_CTL.PWR powers the bank up and schedules a calibration run. -/
def execBankPowerUp (q : Port) (b : Fin 8) (s : State) : Host.Outcome State Fault Refusal :=
  .next (s.busTo q.req .eoBankCtl 1 b.val)

/-- BANK_POWER_UP_DONE (R67): Within 20 µs of power-up each channel of the bank stands at its idle level. -/
def execBankPowerUpDone (b : Fin 8) (s : State) : Host.Outcome State Fault Refusal :=
  .next (s.live (s.bankUpDone b.val))

/-- EO_ARM (R83): An EO_ARM(n) event sets the trigger slot's ARMED bit. -/
def execEoArm (n : Fin 64) (s : State) : Host.Outcome State Fault Refusal :=
  .next (s.live (s.onGroup (Con.eoArm n.val) fun _ st => st.fon F.eoTrigCtl_ARMED n.val))

/-- EO_TRIG (R83): An EO_TRIG(n) event fires an armed and enabled trigger slot with START = te + OFFSET, or is ignored and
counted. -/
def execEoTrig (n : Fin 64) (s : State) : Host.Outcome State Fault Refusal :=
  .next (s.live (s.onGroup (Con.eoTrig n.val) fun evs st => evs.foldl (fun x e => x.eoTrigOne n.val e) st))

/-- PROF_START (R86): At a PROF anchor the engine starts from X0 and V0 or from the running profile, or discards the PROF with
CONT_NONE. -/
def execProfStart (n : Fin 64) (s : State) : Host.Outcome State Fault Refusal :=
  .next (s.live (s.profStart n.val))

/-- PROFILE_SEGMENT_END (R86): A profile segment ends and the next begins, or the CRUISE or HALT end mode applies. -/
def execProfileSegmentEnd (n : Fin 64) (s : State) : Host.Outcome State Fault Refusal :=
  .next (s.live (s.profSegEnd n.val))

/-- EO_FAULT_REACTION (R92): A fault reaction reaching a channel's flock makes it HOLD, QUIET or FREEZE. -/
def execEoFaultReaction (n : Fin 64) (s : State) : Host.Outcome State Fault Refusal :=
  .next (s.live (s.eoFaultReaction n.val))

end Sys2Proof.Machine
end

