-- ==== Sys2Proof/Machine/CmdFault.lean ====
section
/-! DEFINITION. The meanings of the commands of fault coverage and the black box. -/

namespace Sys2Proof.Machine

/-- FAULT_DETECTED (R415): A detected fault is counted, drives FAULT_N low, may become FLT_FIRST, starts its reaction and is
recorded. -/
def execFaultDetected (ext : Option FaultRep) (s : State) : Host.Outcome State Fault Refusal :=
  .next (s.takeFault true ext)

/-- FAULT_MASKED (R415): A masked fault is counted, its class bit set, and it is recorded. -/
def execFaultMasked (ext : Option FaultRep) (s : State) : Host.Outcome State Fault Refusal :=
  .next (s.takeFault false ext)

/-- WDOG_KICK (R412): Firmware writing 0x5A to FLT_WDOG_KICK restarts the watchdog interval. -/
def execWdogKick (q : Port) (key : BitVec 8) (s : State) : Host.Outcome State Fault Refusal :=
  .next (s.busTo q.req .fltWdogKick key.toNat)

/-- WDOG_EXPIRE (R412): WDOG_MS without a kick is a detected FW_WDOG fault and restarts the watchdog. -/
def execWdogExpire (s : State) : Host.Outcome State Fault Refusal :=
  .next (s.wdogExpire)

/-- CFG_SCAN_GROUP (R413): The background scan checks one group of configuration words against its reference CRC. -/
def execCfgScanGroup (group blk : Nat) (bad : Bool) (s : State) : Host.Outcome State Fault Refusal :=
  .next (s.cfgScan group blk bad)

/-- MON_TEMP_SAMPLE (R414): Every 2 µs each die sensor is compared with MON_TEMP_HI and the shutdown limits. -/
def execMonTempSample (t : List (BitVec 16)) (s : State) : Host.Outcome State Fault Refusal :=
  .next (s.monTemps t)

/-- MON_SUPPLY_SAMPLE (R414): Every 1 µs each rail is compared with its window and POR threshold. -/
def execMonSupplySample (mv : List (BitVec 12)) (s : State) : Host.Outcome State Fault Refusal :=
  .next (s.monSupplies mv)

/-- FAULT_RELEASE (R417): A write of FLT_CLR.RELEASE clears FLT_FIRST and releases FAULT_N, no sooner than 1 ms after the first
fault. -/
def execFaultRelease (q : Port) (s : State) : Host.Outcome State Fault Refusal :=
  .next (s.busTo q.req .fltClr 1)

/-- FAULT_PIN_RELEASE (R417): An early release takes effect 1 ms after the first fault. -/
def execFaultPinRelease (s : State) : Host.Outcome State Fault Refusal :=
  .next (s.faultPinRelease)

/-- BBR_RECORD_OFFER (R422): A record offered to the black box takes a SEQ and enters the entry queue, or is suppressed as a
repeat or lost. -/
def execBbrRecordOffer (s : State) : Host.Outcome State Fault Refusal :=
  .next (s.bbrOfferNext)

/-- BBR_RECORD_ENTER (R422): One queued record per AON cycle enters the on-die ring and the spill ring, and a frozen ring counts
it lost. -/
def execBbrRecordEnter (s : State) : Host.Outcome State Fault Refusal :=
  .next (s.bbrEnter)

/-- BBR_FIRE (R424): A write of BBR_CTL.FIRE triggers the black box with a TRIGGER record. -/
def execBbrFire (q : Port) (data : BitVec 32) (s : State) : Host.Outcome State Fault Refusal :=
  .next (s.busFld q.req F.bbrCtl_FIRE data.toNat 1)

/-- BBR_TRIG (R424): A BBR_TRIG event triggers the black box with a TRIGGER record. -/
def execBbrTrig (s : State) : Host.Outcome State Fault Refusal :=
  .next (s.bbrTrigEvent)

/-- BBR_REARM (R424): A write of BBR_CTL.REARM clears FROZEN and TRIGGERED and resumes entry. -/
def execBbrRearm (q : Port) (data : BitVec 32) (s : State) : Host.Outcome State Fault Refusal :=
  .next (s.busFld q.req F.bbrCtl_REARM data.toNat 1)

/-- MEM_SCRUB (R411): The ECC scrub visits a memory word, correcting a single-bit error or detecting a double-bit one. -/
def execMemScrub (m : MemId) (addr : Nat) (err : Fin 3) (s : State) : Host.Outcome State Fault Refusal :=
  .next (s.memScrub m addr err.val)

end Sys2Proof.Machine
end

