-- ==== Sys2Proof/Machine/CmdHost.lean ====
section
/-! DEFINITION. The meanings of the commands of DMA, SMBus, JTAG, the mailbox and the boot. -/

namespace Sys2Proof.Machine

/-- DMA_RING_ENABLE (R456): Setting DMA_RING_CFG.EN enables a ring with HEAD at 0. -/
def execDmaRingEnable (q : Port) (i : Fin 16) (data : BitVec 32) (s : State) : Host.Outcome State Fault Refusal :=
  .next (s.busFld q.req F.dmaRingCfg_EN data.toNat 1 i.val)

/-- DMA_RING_DISABLE (R456): Clearing DMA_RING_CFG.EN ends the descriptor in progress with ABORTED. -/
def execDmaRingDisable (q : Port) (i : Fin 16) (data : BitVec 32) (s : State) : Host.Outcome State Fault Refusal :=
  .next (s.busFld q.req F.dmaRingCfg_EN data.toNat 0 i.val)

/-- DMA_TAIL_WRITE (R434): A write of DMA_RING_TAIL produces descriptors and restarts a stalled ring. -/
def execDmaTailWrite (q : Port) (i : Fin 16) (data : BitVec 32) (s : State) : Host.Outcome State Fault Refusal :=
  .next (s.busTo q.req .dmaRingTail data.toNat i.val)

/-- DMA_H2D (R434): An H2D descriptor copies bytes from host memory to DRAM and completes with a status. -/
def execDmaH2d (i : Fin 16) (err : Option Nat) (s : State) : Host.Outcome State Fault Refusal :=
  .next (s.dmaH2d i.val err)

/-- DMA_D2H (R434): A D2H descriptor copies bytes from DRAM to host memory and completes with a status. -/
def execDmaD2h (i : Fin 16) (err : Option Nat) (s : State) : Host.Outcome State Fault Refusal :=
  .next (s.dmaD2h i.val err)

/-- DMA_SAMPLE (R436): A SAMPLE descriptor completes when a sampled frame is written into it. -/
def execDmaSample (i : Fin 16) (s : State) : Host.Outcome State Fault Refusal :=
  .next (s.dmaSample i.val)

/-- DMA_TALLY (R436): A TALLY descriptor completes when its buffer is full of Tally records. -/
def execDmaTally (i : Fin 16) (s : State) : Host.Outcome State Fault Refusal :=
  .next (s.dmaTally i.val)

/-- DMA_TALLY_TIMEOUT (R436): A TALLY descriptor completes 100 µs after its first record. -/
def execDmaTallyTimeout (i : Fin 16) (s : State) : Host.Outcome State Fault Refusal :=
  .next (s.dmaTallyTimeout i.val)

/-- DMA_LAUNCH (R435): A LAUNCH descriptor copies a frame into Paddock and offers it to a launch queue. -/
def execDmaLaunch (i : Fin 16) (err : Bool) (s : State) : Host.Outcome State Fault Refusal :=
  .next (s.dmaLaunch i.val err)

/-- DMA_TRIG (R437): A DMA_TRIG(i) event starts the waiting descriptors of a triggered ring, or is counted as a drop. -/
def execDmaTrig (i : Fin 4) (s : State) : Host.Outcome State Fault Refusal :=
  .next (s.dmaTrig i.val)

/-- SMB_REG_WRITE (R438): SMBus command 0x10 writes one BAR0 register, or is discarded on a PEC mismatch. -/
def execSmbRegWrite (dev : BitVec 7) (a x : BitVec 32) (pecOk : Bool) (s : State) : Host.Outcome State Fault Refusal :=
  .next (s.smbWrite dev.toNat a.toNat x.toNat pecOk)

/-- SMB_SET_ADDRESS (R438): SMBus command 0x11 sets the address for the next read. -/
def execSmbSetAddress (dev : BitVec 7) (a : BitVec 32) (pecOk : Bool) (s : State) : Host.Outcome State Fault Refusal :=
  .next (s.smbSet dev.toNat a.toNat pecOk)

/-- SMB_REG_READ (R438): SMBus command 0x12 reads the register at the last address with a status byte. -/
def execSmbRegRead (dev : BitVec 7) (s : State) : Host.Outcome State Fault Refusal :=
  .next (s.smbRead dev.toNat)

/-- BYPASS (R439): JTAG BYPASS selects the bypass register. -/
def execJtagBypass (op : BitVec 8) (s : State) : Host.Outcome State Fault Refusal :=
  .next (s.jtagBypass op.toNat)

/-- IDCODE (R439): JTAG IDCODE selects the identification register. -/
def execJtagIdcode (s : State) : Host.Outcome State Fault Refusal :=
  .next (s.jtagIr 0x01)

/-- SAMPLE_PRELOAD (R439): JTAG SAMPLE/PRELOAD samples or preloads the boundary register. -/
def execJtagSamplePreload (v : Nat) (s : State) : Host.Outcome State Fault Refusal :=
  .next (s.jtagSample v)

/-- EXTEST (R440): JTAG EXTEST drives the pins from the boundary register and holds the core in pin reset. -/
def execJtagExtest (s : State) : Host.Outcome State Fault Refusal :=
  .next (s.jtagIr 0x03)

/-- EXTEST_PULSE (R440): JTAG EXTEST_PULSE tests AC-coupled lanes and holds the core in pin reset. -/
def execJtagExtestPulse (s : State) : Host.Outcome State Fault Refusal :=
  .next (s.jtagIr 0x04)

/-- EXTEST_TRAIN (R440): JTAG EXTEST_TRAIN tests AC-coupled lanes with trains and holds the core in pin reset. -/
def execJtagExtestTrain (s : State) : Host.Outcome State Fault Refusal :=
  .next (s.jtagIr 0x05)

/-- CLAMP (R440): JTAG CLAMP holds the pins and selects bypass, holding the core in pin reset. -/
def execJtagClamp (s : State) : Host.Outcome State Fault Refusal :=
  .next (s.jtagIr 0x06)

/-- HIGHZ (R440): JTAG HIGHZ floats the outputs and holds the core in pin reset. -/
def execJtagHighz (s : State) : Host.Outcome State Fault Refusal :=
  .next (s.jtagIr 0x07)

/-- REGACC (R441): JTAG REGACC selects the 66-bit register access data register. -/
def execJtagRegacc (s : State) : Host.Outcome State Fault Refusal :=
  .next (s.jtagIr 0x20)

/-- REGACC_READ (R441): A REGACC read operation reads a BAR0 register. -/
def execRegaccRead (a : BitVec 32) (s : State) : Host.Outcome State Fault Refusal :=
  .next (s.regaccRead a.toNat)

/-- REGACC_WRITE (R441): A REGACC write operation writes a BAR0 register. -/
def execRegaccWrite (a x : BitVec 32) (s : State) : Host.Outcome State Fault Refusal :=
  .next (s.regaccWrite a.toNat x.toNat)

/-- JTAG_TEST_LOGIC_RESET (R440): The TAP entering Test-Logic-Reset selects IDCODE and releases the core from a boundary reset.
-/
def execJtagTestLogicReset (s : State) : Host.Outcome State Fault Refusal :=
  .next (s.jtagIr 0x01)

/-- GET_INFO (R444): Mailbox GET_INFO returns image versions, slots, interface levels and fuse state. -/
def execMbGetInfo (q : Port) (s : State) : Host.Outcome State Fault Refusal :=
  .next (s.mailbox q.req MbOp.getInfo [])

/-- FW_BEGIN (R444): Mailbox FW_BEGIN erases a firmware slot and opens it for update. -/
def execMbFwBegin (q : Port) (args : List Word) (s : State) : Host.Outcome State Fault Refusal :=
  .next (s.mailbox q.req MbOp.fwBegin args)

/-- FW_CHUNK (R444): Mailbox FW_CHUNK writes a chunk to the open slot. -/
def execMbFwChunk (q : Port) (args : List Word) (s : State) : Host.Outcome State Fault Refusal :=
  .next (s.mailbox q.req MbOp.fwChunk args)

/-- FW_END (R444): Mailbox FW_END checks the slot and writes its commit word. -/
def execMbFwEnd (q : Port) (s : State) : Host.Outcome State Fault Refusal :=
  .next (s.mailbox q.req MbOp.fwEnd [])

/-- FW_SELECT (R444): Mailbox FW_SELECT writes the preferred slot for a type to the boot record. -/
def execMbFwSelect (q : Port) (args : List Word) (s : State) : Host.Outcome State Fault Refusal :=
  .next (s.mailbox q.req MbOp.fwSelect args)

/-- FW_VERIFY (R444): Mailbox FW_VERIFY checks a slot and reports its header and checks. -/
def execMbFwVerify (q : Port) (args : List Word) (s : State) : Host.Outcome State Fault Refusal :=
  .next (s.mailbox q.req MbOp.fwVerify args)

/-- FLASH_READ (R444): Mailbox FLASH_READ copies flash to DRAM or MB_BUF. -/
def execMbFlashRead (q : Port) (args : List Word) (s : State) : Host.Outcome State Fault Refusal :=
  .next (s.mailbox q.req MbOp.flashRead args)

/-- FLASH_WRITE (R444): Mailbox FLASH_WRITE writes the host region of flash. -/
def execMbFlashWrite (q : Port) (args : List Word) (s : State) : Host.Outcome State Fault Refusal :=
  .next (s.mailbox q.req MbOp.flashWrite args)

/-- OVERRIDE_SET (R452): Mailbox OVERRIDE_SET records an image pair that boots without the compatibility checks. -/
def execMbOverrideSet (q : Port) (args : List Word) (s : State) : Host.Outcome State Fault Refusal :=
  .next (s.mailbox q.req MbOp.overrideSet args)

/-- OVERRIDE_CLEAR (R452): Mailbox OVERRIDE_CLEAR removes the override from the boot record. -/
def execMbOverrideClear (q : Port) (args : List Word) (s : State) : Host.Outcome State Fault Refusal :=
  .next (s.mailbox q.req MbOp.overrideClear args)

/-- SVN_COMMIT (R444): Mailbox SVN_COMMIT raises the fused SVN_MIN irreversibly. -/
def execMbSvnCommit (q : Port) (args : List Word) (s : State) : Host.Outcome State Fault Refusal :=
  .next (s.mailbox q.req MbOp.svnCommit args)

/-- MB_ABORT (R444): Mailbox ABORT ends a long operation with ABORTED. -/
def execMbAbort (q : Port) (s : State) : Host.Outcome State Fault Refusal :=
  .next (s.mailbox q.req MbOp.abort [])

/-- MB_COMPLETE (R442): The firmware writes the results and code, clears BUSY, sets DONE and sends vector 0. -/
def execMbComplete (ok : Bool) (s : State) : Host.Outcome State Fault Refusal :=
  .next (s.mbComplete ok)

/-- BOOT_SELECT (R450): The boot ROM selects, checks and loads the first compatible image pair, or enters limited mode. -/
def execBootSelect (s : State) : Host.Outcome State Fault Refusal :=
  .next (s.bootSelect)

/-- DRAM_TRAINED (R453): DRAM training completes and DRAM becomes available. -/
def execDramTrained (s : State) : Host.Outcome State Fault Refusal :=
  .next (s.dramTrained)

/-- FIRMWARE_START (R453): The management firmware starts running and sets FW_RUN. -/
def execFirmwareStart (s : State) : Host.Outcome State Fault Refusal :=
  .next (s.firmwareStart)

end Sys2Proof.Machine
end

