-- ==== Sys2Proof/Machine/CmdLanes.lean ====
section
/-! DEFINITION. The meanings of the commands of lanes, ports and link training. -/

namespace Sys2Proof.Machine

/-- PT_ENABLE (R355): Setting PT_CFG.EN starts the port's first attempt, or is refused for a quad family conflict. -/
def execPtEnable (q : Port) (p : Fin 52) (data : BitVec 32) (s : State) : Host.Outcome State Fault Refusal :=
  .next (s.busFld q.req F.ptCfg_EN data.toNat 1 p.val)

/-- PT_DISABLE (R376): Clearing PT_CFG.EN takes the port down and clears FAILS and the back-off. -/
def execPtDisable (q : Port) (p : Fin 52) (data : BitVec 32) (s : State) : Host.Outcome State Fault Refusal :=
  .next (s.busFld q.req F.ptCfg_EN data.toNat 0 p.val)

/-- PT_CFG_WRITE (R378): A write changing a PT_CFG or PT_TRAIN field while EN is 1 restarts the port as a new attempt. -/
def execPtCfgWrite (q : Port) (train : Bool) (p : Fin 52) (data : BitVec 32) (s : State) : Host.Outcome State Fault Refusal :=
  .next (s.busTo q.req (if train then .ptTrain else .ptCfg) data.toNat p.val)

/-- LANE_LOCK (R356): A lane gains CDR lock, block lock and initial adaptation and becomes locked. -/
def execLaneLock (j : Fin 65) (tx rx : Int) (s : State) : Host.Outcome State Fault Refusal :=
  .next (if j.val < 64 then s.laneLock j.val tx rx else s.lnmLock)

/-- LANE_LOSS_OF_LOCK (R356): A lane loses signal, CDR lock or block lock, aborting training, taking the link down or dropping a
trunk lane. -/
def execLaneLossOfLock (j : Fin 65) (los : Bool) (cut : Nat) (s : State) : Host.Outcome State Fault Refusal :=
  .next (if j.val < 64 then s.laneLoss j.val los cut else s.lnmLoss los)

/-- SYNT_CHANGE (R361): A write changing LN_QUAD_CTL.SYNT relocks the QPLL and takes every port of the quad down. -/
def execSyntChange (q : Port) (k : Fin 16) (data : BitVec 32) (s : State) : Host.Outcome State Fault Refusal :=
  .next (s.busTo q.req .lnQuadCtl data.toNat k.val)

/-- QPLL_RELOCK_DONE (R355): A quad PLL relocks after a family or SYNT change. -/
def execQpllRelockDone (k : Fin 16) (s : State) : Host.Outcome State Fault Refusal :=
  .next (s.qpllDone k.val)

/-- ELM_HELLO (R364): A received HELLO records the partner and is answered with ACK in the HELLO step, or starts an attempt from
LISTEN. -/
def execElmHello (p : Fin 52) (h : ElmHead) (s : State) : Host.Outcome State Fault Refusal :=
  .next (s.elmHello p.val h)

/-- ELM_ACK (R364): A received ACK confirms the agreed rate and FEC and ends the HELLO step. -/
def execElmAck (p : Fin 52) (version hash port : Nat) (s : State) : Host.Outcome State Fault Refusal :=
  .next (s.elmAck p.val version hash port)

/-- ELM_RATE (R364): A received RATE message settles the rate change to the agreed rate and port form. -/
def execElmRate (p : Fin 52) (version rate : Nat) (s : State) : Host.Outcome State Fault Refusal :=
  .next (s.elmRate p.val version rate)

/-- ELM_EQ (R363): A received EQ request adjusts the local transmitter equalizer and is answered within 100 µs. -/
def execElmEq (p : Fin 52) (top : ElmTop) (lane : Fin 4) (pre main post : Fin 4) (theirs mine : Bool)
    (s : State) : Host.Outcome State Fault Refusal :=
  .next (s.elmEq p.val top.version lane.val pre.val main.val post.val top.seq.toNat theirs mine)

/-- ELM_VERIFY (R364): A received VERIFY reports the partner's PRBS result for a lane. -/
def execElmVerify (p : Fin 52) (version : Nat) (lane : Fin 4) (done pass : Bool) (s : State) : Host.Outcome State Fault Refusal :=
  .next (s.elmVerify p.val version lane.val done pass)

/-- ELM_ECHO (R366): A received ECHO request is answered with t2 and t3, or a reply completes one round-trip exchange. -/
def execElmEcho (p : Fin 52) (version : Nat) (reply : Bool) (k : Fin 16) (t2 t3 : Instant) (o : EchoObs)
    (s : State) : Host.Outcome State Fault Refusal :=
  .next (s.elmEcho p.val version reply k.val t2 t3 o.rx o.tx)

/-- ELM_DROP (R373): A received DROP(L) is acknowledged and the trunk stripes on three lanes. -/
def execElmDrop (p : Fin 52) (version : Nat) (lane : Fin 4) (s : State) : Host.Outcome State Fault Refusal :=
  .next (s.elmDrop p.val version lane.val)

/-- ELM_DROP_ACK (R373): A received DROP_ACK(L) ends the DROP handshake. -/
def execElmDropAck (p : Fin 52) (version : Nat) (lane : Fin 4) (s : State) : Host.Outcome State Fault Refusal :=
  .next (s.elmDropAck p.val version lane.val)

/-- ELM_ADD (R375): An ADD exchange returns a retrained lane to use at a marked round. -/
def execElmAdd (p : Fin 52) (version : Nat) (m : ElmAddMsg) (s : State) : Host.Outcome State Fault Refusal :=
  .next (s.elmAdd p.val version m.lane.val m.reply)

/-- HELLO_TX (R364): A HELLO is sent every 1 ms in the HELLO step, or every 10 ms in LISTEN. -/
def execHelloTx (p : Fin 52) (s : State) : Host.Outcome State Fault Refusal :=
  .next (s.helloTx p.val)

/-- RATE_SWITCH (R364): Both ends change rate at the 4,096th block after the RATE exchange. -/
def execRateSwitch (p : Fin 52) (s : State) : Host.Outcome State Fault Refusal :=
  .next (s.rateSwitch p.val)

/-- VERIFY_END (R364): 10 ms of PRBS31 ends and each lane reports its error count. -/
def execVerifyEnd (p : Fin 52) (errs : List Nat) (s : State) : Host.Outcome State Fault Refusal :=
  .next (s.verifyEnd p.val errs)

/-- ECHO_TX (R366): An ECHO request is sent in the RTT step, and once per second while the link is up. -/
def execEchoTx (p : Fin 52) (o : EdgeObs) (s : State) : Host.Outcome State Fault Refusal :=
  .next (s.echoTx p.val o)

/-- TRAIN_STEP_TIMEOUT (R367): A training step that passes STEP_TMO falls back to the standard mode or fails the attempt. -/
def execTrainStepTimeout (p : Fin 52) (s : State) : Host.Outcome State Fault Refusal :=
  .next (s.stepTimeout p.val)

/-- TRAIN_TOTAL_TIMEOUT (R367): An attempt that passes TOTAL_TMO fails. -/
def execTrainTotalTimeout (p : Fin 52) (s : State) : Host.Outcome State Fault Refusal :=
  .next (s.totalTimeout p.val)

/-- STANDARD_LINK_UP (R368): The port's standard mode links up and clears FAILS. -/
def execStandardLinkUp (p : Fin 52) (pause : Fin 4) (s : State) : Host.Outcome State Fault Refusal :=
  .next (s.standardUp p.val pause.val)

/-- LISTEN_BACKOFF_EXPIRE (R369): The LISTEN back-off interval expires and a new attempt starts. -/
def execListenBackoffExpire (p : Fin 52) (s : State) : Host.Outcome State Fault Refusal :=
  .next (s.backoffExpire p.val)

/-- DROP_RESEND (R373): DROP(L) is resent every 5 µs until DROP_ACK arrives. -/
def execDropResend (p : Fin 52) (s : State) : Host.Outcome State Fault Refusal :=
  .next (s.dropResend p.val)

/-- DROP_ACK_TIMEOUT (R374): No DROP_ACK within 50 µs plus the round trip takes the trunk down. -/
def execDropAckTimeout (p : Fin 52) (s : State) : Host.Outcome State Fault Refusal :=
  .next (s.dropTimeout p.val)

/-- LANE_REJOIN (R375): A lane out of use that regains lock trains alone through EQ and VERIFY. -/
def execLaneRejoin (p : Fin 52) (lane : Fin 4) (s : State) : Host.Outcome State Fault Refusal :=
  .next (s.laneRejoin p.val lane.val)

/-- LANE_REJOIN_RETRY (R375): After a failed rejoin the lane is tried again 1 s later. -/
def execLaneRejoinRetry (p : Fin 52) (lane : Fin 4) (s : State) : Host.Outcome State Fault Refusal :=
  .next (s.rejoinRetry p.val lane.val)

/-- LANE_RESET (R376): Writing LN_CTL.RST resets one lane, taking its port down for a new attempt. -/
def execLaneReset (q : Port) (j : Fin 65) (data : BitVec 32) (s : State) : Host.Outcome State Fault Refusal :=
  .next (s.busFld q.req F.lnCtl_RST data.toNat 1 j.val)

/-- LANE_SIGNAL_DETECTED (R364): Signal appearing on a lane (LN_STAT.LOS clearing) ends the DETECT step once every lane of the
port has signal. -/
def execLaneSignalDetected (j : Fin 65) (s : State) : Host.Outcome State Fault Refusal :=
  .next (if j.val < 64 then s.laneSignal j.val else s.fset F.lnStat_LOS 0 64)

end Sys2Proof.Machine
end

