-- ==== Sys2Proof/Machine/CmdNetTime.lean ====
section
/-! DEFINITION. The meanings of the commands of network time. -/

namespace Sys2Proof.Machine

/-- SYNC_RX (R338): A received Sync is accepted by a SLAVE or PSLAVE session and completes an offset exchange, or is discarded.
-/
def execSyncRx (p : Fin 52) (m : PtpMsg) (o : EdgeObs) (s : State) : Host.Outcome State Fault Refusal :=
  .next (s.syncRx p.val m o)

/-- FOLLOW_UP_RX (R338): A Follow_Up completes a two-step Sync of the same sequenceId. -/
def execFollowUpRx (p : Fin 52) (m : PtpMsg) (s : State) : Host.Outcome State Fault Refusal :=
  .next (s.followUpRx p.val m)

/-- DELAY_REQ_RX (R336): A MASTER session answers a received Delay_Req with a Delay_Resp. -/
def execDelayReqRx (p : Fin 52) (m : PtpMsg) (o : EdgeObs) (s : State) : Host.Outcome State Fault Refusal :=
  .next (s.delayReqRx p.val m o)

/-- DELAY_RESP_RX (R340): A Delay_Resp matching the outstanding Delay_Req completes a round trip and the path delay. -/
def execDelayRespRx (p : Fin 52) (m : PtpMsg) (s : State) : Host.Outcome State Fault Refusal :=
  .next (s.delayRespRx p.val m)

/-- PDELAY_REQ_RX (R337): A PEER session answers a received Pdelay_Req within 10 µs. -/
def execPdelayReqRx (p : Fin 52) (m : PtpMsg) (o tx : EdgeObs) (s : State) : Host.Outcome State Fault Refusal :=
  .next (s.pdelayReqRx p.val m o tx)

/-- PDELAY_RESP_RX (R341): A Pdelay_Resp completes a peer round trip and updates the neighbour rate ratio. -/
def execPdelayRespRx (p : Fin 52) (m : PtpMsg) (o : EdgeObs) (s : State) : Host.Outcome State Fault Refusal :=
  .next (s.pdelayRespRx p.val m o)

/-- PDELAY_RESP_FOLLOW_UP_RX (R344): A Pdelay_Resp_Follow_Up completes a two-step peer exchange at the PEER session. -/
def execPdelayRespFollowUpRx (p : Fin 52) (m : PtpMsg) (s : State) : Host.Outcome State Fault Refusal :=
  .next (s.pdelayFuRx p.val m)

/-- SYNC_TX (R337): A MASTER session sends Sync at each whole multiple of 2^LOG_SYNC s. -/
def execSyncTx (i : Fin 256) (o : EdgeObs) (s : State) : Host.Outcome State Fault Refusal :=
  .next (s.syncTx i.val o)

/-- DELAY_REQ_TX (R337): A SLAVE session sends Delay_Req every 2^LOG_DREQ s. -/
def execDelayReqTx (i : Fin 256) (o : EdgeObs) (s : State) : Host.Outcome State Fault Refusal :=
  .next (s.delayReqTx i.val o)

/-- PDELAY_REQ_TX (R337): A PEER session sends Pdelay_Req every 2^LOG_DREQ s. -/
def execPdelayReqTx (i : Fin 256) (o : EdgeObs) (s : State) : Host.Outcome State Fault Refusal :=
  .next (s.pdelayReqTx i.val o)

/-- SES_SYNC_TIMEOUT (R338): No accepted Sync for RX_TMO intervals makes the session lose VALID and sets TMO. -/
def execSesSyncTimeout (i : Fin 256) (s : State) : Host.Outcome State Fault Refusal :=
  .next (s.sesTimeout i.val)

/-- NT_SES_ENABLE (R351): Setting NT_SES_CFG.EN enables a session after the PEER and MODE checks, or refuses it. -/
def execNtSesEnable (q : Port) (i : Fin 256) (data : BitVec 32) (s : State) : Host.Outcome State Fault Refusal :=
  .next (s.busFld q.req F.ntSesCfg_EN data.toNat 1 i.val)

/-- ESMC_RX (R335): An ESMC PDU is passed to firmware and its SSM code stored in QL_RX. -/
def execEsmcRx (p : Fin 52) (code : Fin 16) (s : State) : Host.Outcome State Fault Refusal :=
  .next (s.esmcRx p.val code.val)

/-- ESMC_LOSS (R334): No ESMC PDU for 5 s sets ESMC_LOSS and makes the L1 source lost. -/
def execEsmcLoss (p : Fin 52) (s : State) : Host.Outcome State Fault Refusal :=
  .next (s.esmcLoss p.val)

/-- PD_READING (R331): Each beat period the lane phase detector yields a reading that updates the PD_RX mean and PD_SETTLED. -/
def execPdReading (p : Fin 52) (ph : Int) (s : State) : Host.Outcome State Fault Refusal :=
  .next (s.pdReading p.val ph)

/-- LANE_PHASE_MEASURED (R332): The lane sampling phase measurement ends within 5 ms of lane lock. -/
def execLanePhaseMeasured (p : Fin 52) (s : State) : Host.Outcome State Fault Refusal :=
  .next (s.phaseMeasured p.val)

/-- PT_TSF_READ (R330): A read of PT_TSF word 0 removes the head timestamp entry into the requester's latch. -/
def execPtTsfRead (q : Port) (p : Fin 52) (s : State) : Host.Outcome State Fault Refusal :=
  .next (s.busFrom q.req .ptTsf p.val)

end Sys2Proof.Machine
end

