-- ==== Sys2Proof/Machine/CmdReset.lean ====
section
/-! DEFINITION. The meanings of the commands of register access, resets and the start of the timebase. -/

namespace Sys2Proof.Machine

/-- REGISTER_WRITE (R6): A write to a register that has no row of its own stores, sets, clears, stages or commits its fields
under the access code, range, lock and multi-word rules, or sets the block's error status. -/
def execRegisterWrite (q : Port) (a x : BitVec 32) (be : BitVec 4) (poison : Bool) (s : State) : Host.Outcome State Fault Refusal :=
  .next (s.registerWrite q.req a.toNat x.toNat be.toNat poison)

/-- MULTIWORD_READ_LATCH (R48): A read of the lowest word of a wide register returns it and latches the higher words into the
requester's own latch. -/
def execMultiwordReadLatch (q : Port) (a : BitVec 32) (s : State) : Host.Outcome State Fault Refusal :=
  .next (s.busRead q.req a.toNat)

/-- COUNTER_READ_CLEAR (R6): A read of an RC field returns the stored value and clears it in the same access. -/
def execCounterReadClear (q : Port) (a : BitVec 32) (s : State) : Host.Outcome State Fault Refusal :=
  .next (s.busRead q.req a.toNat)

/-- BAR2_READ (R29): A host read through the BAR2 aperture returns DRAM contents, or all ones while DRAM is unavailable. -/
def execBar2Read (x : BitVec 30) (n : Fin 4097) (s : State) : Host.Outcome State Fault Refusal :=
  .next (s.bar2Read x.toNat n.val)

/-- BAR2_WRITE (R29): A host write through the BAR2 aperture writes DRAM, or is discarded for the firmware region (setting
FW_WR) or while DRAM is unavailable. -/
def execBar2Write (x : BitVec 30) (bytes : List Byte) (poison : Bool) (s : State) : Host.Outcome State Fault Refusal :=
  .next (s.bar2Write x.toNat bytes poison)

/-- AUX_POWER_ON (R30): VAUX rising through its threshold resets everything, including the black-box ring. -/
def execAuxPowerOn (s : State) : Host.Outcome State Fault Refusal :=
  .next (s.auxPowerOn)

/-- PIN_RESET (R30): RESET_N low, a main-rail POR, thermal shutdown or a JTAG boundary instruction resets every domain except
the AON state and stops device time and the outputs. -/
def execPinReset (s : State) : Host.Outcome State Fault Refusal :=
  .next (s.pinLow)

/-- PIN_RESET_RELEASE (R453): RESET_N rising samples the straps and starts the start-up sequence. -/
def execPinResetRelease (straps : BitVec 4) (s : State) : Host.Outcome State Fault Refusal :=
  .next (s.pinRelease straps.toNat)

/-- MAIN_RAIL_POR (R470): A main rail below 90 % of nominal holds the internal POR, which ends 0.5 ms after the last rail passes
90 %. -/
def execMainRailPor (low : BitVec 10) (s : State) : Host.Outcome State Fault Refusal :=
  .next (s.mainPor low.toNat)

/-- MAIN_RAIL_LOSS (R472): An uncontrolled loss of the main rails puts the device into pin reset through its POR while VAUX
keeps the AON domain. -/
def execMainRailLoss (s : State) : Host.Outcome State Fault Refusal :=
  .next (s.mainLoss)

/-- WARM_RESET (R30): Writing the key 0xD5 to GLB_RST_CTL resets TB, FAB, MC, MEM controller, LANE and PCIE logic while keeping
the AON state, RWS fields and DRAM; any other value sets WR_ERR. -/
def execWarmReset (q : Port) (key : BitVec 8) (s : State) : Host.Outcome State Fault Refusal :=
  .next (s.busTo q.req .glbRstCtl key.toNat)

/-- BLOCK_RESET_MEM (R33): GLB_BLK_RST.MEM resets the DRAM controller, losing Tally and spill records while it lasts. -/
def execBlockResetMem (q : Port) (s : State) : Host.Outcome State Fault Refusal :=
  .next (s.busTo q.req .glbBlkRst 0x80)

/-- BLOCK_RESET_SWPAD (R33): GLB_BLK_RST.SWPAD resets the switch core and Paddock, discarding and counting queued frames. -/
def execBlockResetSwpad (q : Port) (s : State) : Host.Outcome State Fault Refusal :=
  .next (s.busTo q.req .glbBlkRst 0x40)

/-- BLOCK_RESET_TAS (R404): GLB_BLK_RST.TAS resets the egress scheduler, discarding launch queues and templates and opening all
gates. -/
def execBlockResetTas (q : Port) (s : State) : Host.Outcome State Fault Refusal :=
  .next (s.busTo q.req .glbBlkRst 0x20)

/-- BLOCK_RESET_NT (R348): GLB_BLK_RST.NT resets the network time engine, disabling sessions and discarding exchanges in
progress. -/
def execBlockResetNt (q : Port) (s : State) : Host.Outcome State Fault Refusal :=
  .next (s.busTo q.req .glbBlkRst 0x10)

/-- BLOCK_RESET_TAL (R135): GLB_BLK_RST.TAL returns the Tally registers to reset values and discards the ingest buffer. -/
def execBlockResetTal (q : Port) (s : State) : Host.Outcome State Fault Refusal :=
  .next (s.busTo q.req .glbBlkRst 0x08)

/-- BLOCK_RESET_CAL (R265): GLB_BLK_RST.CAL abandons runs and long operations while keeping the tables in force. -/
def execBlockResetCal (q : Port) (s : State) : Host.Outcome State Fault Refusal :=
  .next (s.busTo q.req .glbBlkRst 0x04)

/-- BLOCK_RESET_DRV (R207): GLB_BLK_RST.DRV resets all sixteen Drovers, stopping their tasks and keeping their memories. -/
def execBlockResetDrv (q : Port) (s : State) : Host.Outcome State Fault Refusal :=
  .next (s.busTo q.req .glbBlkRst 0x02)

/-- BLOCK_RESET_DW (R33): GLB_BLK_RST.DW resets the Droveway, leaving every channel disabled and its locks cleared. -/
def execBlockResetDw (q : Port) (s : State) : Host.Outcome State Fault Refusal :=
  .next (s.busTo q.req .glbBlkRst 0x01)

/-- BLOCK_RESET_DONE (R33): A block reset ends and its GLB_BLK_RST bit reads 0 again. -/
def execBlockResetDone (b : Fin 8) (s : State) : Host.Outcome State Fault Refusal :=
  .next (s.blockResetDone b.val)

/-- FUNCTION_LEVEL_RESET (R31): A PCIe FLR resets the DMA rings, the MSI-X state and the host-side doorbells, abandoning
transfers in flight without disturbing time, outputs or forwarding. -/
def execFunctionLevelReset (s : State) : Host.Outcome State Fault Refusal :=
  .next (s.flr)

/-- TIMEBASE_READY (R30): After a reset the timebase becomes ready and the time counter starts, from zero or from the AON
shadow. -/
def execTimebaseReady (s : State) : Host.Outcome State Fault Refusal :=
  .next (s.timebaseReady)

/-- VAUX_LOSS (R472): VAUX falling below its threshold holds the whole device in full reset, and the following rise is an
auxiliary power-on that clears the black box. -/
def execVauxLoss (s : State) : Host.Outcome State Fault Refusal :=
  .next (s.vauxLoss)

/-- AON_SHADOW_ADVANCE (R30): While TB is held in reset, the AON shadow advances on each XO_IN cycle by 10 ns scaled by the
steering word in force when the reset began. -/
def execAonShadowAdvance (s : State) : Host.Outcome State Fault Refusal :=
  .next (s.shadowAdvance)

/-- BAR_ACCESS_READY (R431): The PCIe endpoint stops answering with Configuration Request Retry Status and BAR access becomes
available, within 100 ms of RESET_N rising. -/
def execBarAccessReady (s : State) : Host.Outcome State Fault Refusal :=
  .next (s.barAccess)

end Sys2Proof.Machine
end

