-- ==== Sys2Proof/Machine/CmdSwitch.lean ====
section
/-! DEFINITION. The meanings of the commands of the switch, Paddock and time-aware egress. -/

namespace Sys2Proof.Machine

/-- FRAME_RX (R379): A received frame is parsed, classified, filtered, learned and admitted to Paddock or dropped. -/
def execFrameRx (p : Fin 52) (h : FrameHead) (len : Nat) (o : EdgeObs) (s : State) : Host.Outcome State Fault Refusal :=
  .next (s.frameRx p.val h len o)

/-- FRAME_RX_END (R382): A frame's last byte arrives and its FCS, length and MTU are checked, discarding or ending a bad cut-
through frame. -/
def execFrameRxEnd (p : Fin 52) (data : List Byte) (fcsOk err : Bool) (s : State) : Host.Outcome State Fault Refusal :=
  .next (s.frameRxEnd p.val data fcsOk err)

/-- FRAME_TX_START (R394): A queued frame starts at egress when its gate and priority allow, with one-step and transparent-clock
corrections written in flight. -/
def execFrameTxStart (p : Fin 52) (o : EdgeObs) (s : State) : Host.Outcome State Fault Refusal :=
  .next (s.frameTxStart p.val o)

/-- PFC_RX (R386): A received PFC or PAUSE frame stops the classes it names for the signalled quanta. -/
def execPfcRx (p : Fin 52) (pauseFrame : Bool) (mask : BitVec 8) (quanta : List Nat) (s : State) : Host.Outcome State Fault Refusal :=
  .next (s.pfcRx p.val pauseFrame mask.toNat quanta)

/-- PAUSE_EXPIRE (R386): The signalled pause quanta expire and the stopped classes resume. -/
def execPauseExpire (p : Fin 52) (c : Fin 8) (s : State) : Host.Outcome State Fault Refusal :=
  .next (s.pauseExpire p.val c.val)

/-- XOFF_REPEAT (R387): XOFF is repeated every 16,384 quanta while the lossless condition lasts. -/
def execXoffRepeat (p : Fin 52) (c : Fin 8) (s : State) : Host.Outcome State Fault Refusal :=
  .next (s.xoffRepeat p.val c.val)

/-- MAC_AGE_EXPIRE (R379): A dynamic MAC entry without a frame for SW_AGE seconds ages out. -/
def execMacAgeExpire (i : Fin 131072) (s : State) : Host.Outcome State Fault Refusal :=
  .next (s.macAge i.val)

/-- PORT_DOWN (R390): At a port's down decision queued frames are cut, discarded, held or rerouted. -/
def execPortDown (p : Fin 52) (s : State) : Host.Outcome State Fault Refusal :=
  .next (s.portDown p.val)

/-- PAD_HOLD_EXPIRE (R390): The PAD_HOLD interval expires and held frames are flushed. -/
def execPadHoldExpire (p : Fin 52) (s : State) : Host.Outcome State Fault Refusal :=
  .next (s.padHoldExpire p.val)

/-- PORT_UP (R390): A port coming up discards held frames whose instant has passed and resumes transmission. -/
def execPortUp (p : Fin 52) (s : State) : Host.Outcome State Fault Refusal :=
  .next (s.portUp p.val)

/-- FRR_REVERT (R391): REVERT ms after port p comes up, rerouted traffic returns to it. -/
def execFrrRevert (p : Fin 52) (s : State) : Host.Outcome State Fault Refusal :=
  .next (s.frrRevert p.val)

/-- GCL_ENTRY (R392): A gate control list entry begins at its instant and sets the port's gates. -/
def execGclEntry (p : Fin 52) (s : State) : Host.Outcome State Fault Refusal :=
  .next (s.gclEntry p.val)

/-- GCL_CHANGE (R393): TAS_GCL_CTL.CHANGE checks the admin list and schedules it, or refuses it. -/
def execGclChange (q : Port) (p : Fin 52) (data : BitVec 32) (s : State) : Host.Outcome State Fault Refusal :=
  .next (s.busFld q.req F.tasGclCtl_CHANGE data.toNat 1 p.val)

/-- GCL_CHANGE_EFFECT (R393): At the chosen cycle start the admin list replaces the oper list. -/
def execGclChangeEffect (p : Fin 52) (s : State) : Host.Outcome State Fault Refusal :=
  .next (s.gclEffect p.val)

/-- PREEMPT_VERIFY_DONE (R395): The 802.3br verify procedure succeeds and preemption becomes active. -/
def execPreemptVerifyDone (p : Fin 52) (s : State) : Host.Outcome State Fault Refusal :=
  .next (s.preemptVerified p.val)

/-- LAUNCH_RELEASE (R397): A launch-queue frame is released at the first block boundary at or after its instant, or is late. -/
def execLaunchRelease (p : Fin 52) (o : EdgeObs) (s : State) : Host.Outcome State Fault Refusal :=
  .next (s.launchRelease p.val o)

/-- FIXED_LATENCY_RELEASE (R399): A class-7 frame is released at its ingress timestamp plus DELAY. -/
def execFixedLatencyRelease (p : Fin 52) (o : EdgeObs) (s : State) : Host.Outcome State Fault Refusal :=
  .next (s.fixedRelease p.val o)

/-- LQ_TPL_COMMIT (R398): A commit of TAS_LQ_TPL word 3 copies the template frame into reserved Paddock cells, or fails. -/
def execLqTplCommit (q : Port) (p : Fin 52) (v : BitVec 128) (s : State) : Host.Outcome State Fault Refusal :=
  .next (s.busCommit q.req .tasLqTpl p.val v.toNat)

/-- LQ_TRIG (R398): An LQ_TRIG(p) event enters a copy of the template into the launch queue at te + OFFSET. -/
def execLqTrig (p : Fin 52) (s : State) : Host.Outcome State Fault Refusal :=
  .next (s.lqTrig p.val)

end Sys2Proof.Machine
end

