-- ==== Sys2Proof/Machine/CmdSyn.lean ====
section
/-! DEFINITION. The meanings of the commands of the synthesizers. -/

namespace Sys2Proof.Machine

/-- CSYN_TARGET_WRITE (R281): A write of a new CSYN target starts a ramp from the current frequency at RATE. -/
def execCsynTargetWrite (q : Port) (data : BitVec 32) (s : State) : Host.Outcome State Fault Refusal :=
  .next (s.busTo q.req .synCsynCtl data.toNat)

/-- CSYN_BAND_CHANGE (R282): A ramp that reaches its band edge moves FAB to the timebase and relocks CSYN in the next band. -/
def execCsynBandChange (s : State) : Host.Outcome State Fault Refusal :=
  .next (s.live s.csynBandChange)

/-- CSYN_RELOCK_DONE (R282): CSYN locks in its new band, FAB returns to CSYN and the ramp resumes. -/
def execCsynRelockDone (s : State) : Host.Outcome State Fault Refusal :=
  .next (s.live s.csynRelocked)

/-- CSYN_BAND_FAIL (R282): CSYN failing to lock within 20 µs leaves FAB on the timebase and sets BAND_FAIL. -/
def execCsynBandFail (s : State) : Host.Outcome State Fault Refusal :=
  .next (s.live s.csynBandFail)

/-- CSYN_RETRY (R282): Every 1 ms after a failed band change CSYN retries its relock. -/
def execCsynRetry (s : State) : Host.Outcome State Fault Refusal :=
  .next (s.live s.csynRetry)

/-- CSYN_GUARD_MOVE (R283): Too many removed CSYN edges, or a CSYN interval above 1.2 ns, moves FAB to the timebase while CSYN
relocks. -/
def execCsynGuardMove (n : Nat) (long : Bool) (s : State) : Host.Outcome State Fault Refusal :=
  .next (s.live (s.csynGuard n long))

/-- CSYN_RAMP_DONE (R281): The CSYN ramp reaches its target frequency. -/
def execCsynRampDone (s : State) : Host.Outcome State Fault Refusal :=
  .next (s.live s.csynRampDone)

/-- OSYN_APPLY (R286): SYN_OSYN_CMD.APPLY checks the staged definition and, if it passes, starts a hop to it with the output
held low. -/
def execOsynApply (q : Port) (i : Fin 4) (s : State) : Host.Outcome State Fault Refusal :=
  .next (s.busTo q.req .synOsynCmd 1 i.val)

/-- OSYN_LOCK_DONE (R286): An OSYN hop locks, from the band cache or after a band search, and the output starts at the next
rising edge of its phase. -/
def execOsynLockDone (i : Fin 4) (lo hi : Nat) (s : State) : Host.Outcome State Fault Refusal :=
  .next (s.live (s.osynLockDone i.val lo hi))

/-- OSYN_RAMP (R287): SYN_OSYN_CMD.RAMP checks the ramp profile and schedules it for RAMPT, or refuses it. -/
def execOsynRamp (q : Port) (i : Fin 4) (s : State) : Host.Outcome State Fault Refusal :=
  .next (s.busTo q.req .synOsynCmd 2 i.val)

/-- OSYN_RAMP_START (R287): Device time reaching RAMPT starts the OSYN ramp segments. -/
def execOsynRampStart (i : Fin 4) (s : State) : Host.Outcome State Fault Refusal :=
  .next (s.live (s.osynRampStart i.val))

/-- OSYN_SEGMENT_END (R287): An OSYN ramp segment ends after DUR ticks and the next begins, or the frequency then holds. -/
def execOsynSegmentEnd (i : Fin 4) (s : State) : Host.Outcome State Fault Refusal :=
  .next (s.live (s.osynSegEnd i.val))

/-- OSYN_LOSS_OF_LOCK (R288): Eight consecutive phase errors beyond ±100 ps declare OSYN loss of lock and apply the BYPASS
behaviour. -/
def execOsynLossOfLock (i : Fin 4) (s : State) : Host.Outcome State Fault Refusal :=
  .next (s.live (s.osynLol i.val))

/-- OSYN_RELOCK (R288): An unlocked OSYN channel rejoins its defined phase and raises OSYN_LOCK again. -/
def execOsynRelock (i : Fin 4) (s : State) : Host.Outcome State Fault Refusal :=
  .next (s.live (s.osynRelock i.val))

/-- OSYN_DISABLE (R294): Writing SYN_OSYN_CTL.EN to 0 holds CKOUTi low at once and ends any hop or ramp. -/
def execOsynDisable (q : Port) (i : Fin 4) (data : BitVec 32) (s : State) : Host.Outcome State Fault Refusal :=
  .next (s.busFld q.req F.synOsynCtl_EN data.toNat 0 i.val)

end Sys2Proof.Machine
end

