-- ==== Sys2Proof/Machine/CmdTime.lean ====
section
/-! DEFINITION. The meanings of the commands of the tick, time steps and the timebase. -/

namespace Sys2Proof.Machine

/-- TICK (R52): At each 1 GHz tick both time counters advance 1 ns, are compared and checked, and device time goes out on the
time bus. -/
def execTick (o : TickObs) (s : State) : Host.Outcome State Fault Refusal :=
  .next (s.tickAll o)

/-- TB_STEP_COMMIT (R275): A commit of TB_STEP requests a step of device time by its S64 value, or is refused when it would
saturate or SWSTEP_EN is 0. -/
def execTbStepCommit (q : Port) (v : BitVec 64) (s : State) : Host.Outcome State Fault Refusal :=
  .next (s.busCommit q.req .tbStep 0 v.toNat)

/-- TB_SET_COMMIT (R275): A commit of TB_SET requests that device time be set to its T96 value. -/
def execTbSetCommit (q : Port) (v : BitVec 96) (s : State) : Host.Outcome State Fault Refusal :=
  .next (s.busCommit q.req .tbSet 0 v.toNat)

/-- TIME_STEP_APPLY (R55): One pending step request is applied per tick: the counters load the stepped value, the tick grid
takes the sub-nanosecond part, and scheduled actions are judged afresh. -/
def execTimeStepApply (s : State) : Host.Outcome State Fault Refusal :=
  .next (s.timeStepApply)

/-- TB_NCO_SW_WRITE (R272): A commit of TB_NCO_SW supplies a clamped software steering word that takes effect at the next XO_IN
edge. -/
def execTbNcoSwWrite (q : Port) (v : BitVec 64) (s : State) : Host.Outcome State Fault Refusal :=
  .next (s.busCommit q.req .tbNcoSw 0 v.toNat)

/-- XO_LOSS (R278): Loss of XO_IN leaves BPLL open loop, sets XO_LOSS and moves the AON domain to its backup oscillator. -/
def execXoLoss (s : State) : Host.Outcome State Fault Refusal :=
  .next (s.xoLoss)

/-- XO_RETURN (R425): XO_IN returning moves the AON domain back from its backup oscillator and clears AON_RC. -/
def execXoReturn (s : State) : Host.Outcome State Fault Refusal :=
  .next (s.xoReturn)

/-- TSYN_SWAP (R277): On a TSYN unlock declaration or a period-guard trip, the timebase moves to BPLL, DEG goes to 1 and a
masked fault is reported. -/
def execTsynSwap (s : State) : Host.Outcome State Fault Refusal :=
  .next (s.live s.tsynSwap)

/-- TSYN_RETURN (R279): Once TSYN has held lock for RET_HOLD and the BPLL alignment error is small, the timebase returns to TSYN
and DEG goes to 0. -/
def execTsynReturn (s : State) : Host.Outcome State Fault Refusal :=
  .next (s.live s.tsynReturn)

/-- FORCE_BPLL (R279): Setting SYN_TSYN_CTL.FORCE_BPLL moves the timebase to BPLL at the next tick and holds it there. -/
def execForceBpll (q : Port) (data : BitVec 32) (s : State) : Host.Outcome State Fault Refusal :=
  .next (s.busFld q.req F.synTsynCtl_FORCE_BPLL data.toNat 1)

end Sys2Proof.Machine
end

