-- ==== Sys2Proof/Machine/CmdTiu.lean ====
section
/-! DEFINITION. The meanings of the commands of the interval units and Tally. -/

namespace Sys2Proof.Machine

/-- TIU_HIT_CAPTURE (R109): A transition at a unit's source is captured with a slot and a vernier core, or lost to the 6 ns dead
time or a CAL hold. -/
def execTiuHitCapture (u : Fin 96) (code : Fin 1024) (rising : Bool) (s : State) : Host.Outcome State Fault Refusal :=
  .next (s.live (s.tiuCapture u.val code.val rising))

/-- TIU_RECORD_COMPLETE (R111): Vernier coincidence is found, the timestamp is formed, and the hit completes a record under the
unit's mode. -/
def execTiuRecordComplete (u : Fin 96) (arb : Bool) (s : State) : Host.Outcome State Fault Refusal :=
  .next (s.live (s.tiuForm u.val arb))

/-- TIU_OVERFLOW (R120): The 24-bit coarse counter reaching 2^24 ticks ends a pending pair with an OVF record. -/
def execTiuOverflow (u : Fin 96) (s : State) : Host.Outcome State Fault Refusal :=
  .next (s.live (s.tiuOverflow u.val))

/-- TIU_TIMEOUT (R122): The expiry instant of TIU_TMO arriving before completion writes a TIMEOUT record. -/
def execTiuTimeout (u : Fin 96) (s : State) : Host.Outcome State Fault Refusal :=
  .next (s.live (s.tiuTimeout u.val))

/-- TIU_ARM (R115): A TIU_ARM event or a write of TIU_ARM.ARM arms the unit for COUNT records from its timestamp. -/
def execTiuArm (u : Fin 96) (w : Option (Port × BitVec 32)) (s : State) : Host.Outcome State Fault Refusal :=
  .next (s.tiuArmCmd u.val (w.map fun x => (x.1.req, x.2.toNat)))

/-- TIU_DISARM (R116): A write of TIU_ARM.DISARM ends the arm and discards any pending half or open gate. -/
def execTiuDisarm (q : Port) (u : Fin 96) (data : BitVec 32) (s : State) : Host.Outcome State Fault Refusal :=
  .next (s.busFld q.req F.tiuArm_DISARM data.toNat 1 u.val)

/-- TIU_START (R117): A TIU_START(u) event supplies a start half to the interval pairing. -/
def execTiuStart (u : Fin 96) (s : State) : Host.Outcome State Fault Refusal :=
  .next (s.live (s.onGroup (Con.tiuStart u.val) fun evs st => st.tiuEventHalf u.val true evs))

/-- TIU_STOP (R117): A TIU_STOP(u) event supplies a stop half to the interval pairing. -/
def execTiuStop (u : Fin 96) (s : State) : Host.Outcome State Fault Refusal :=
  .next (s.live (s.onGroup (Con.tiuStop u.val) fun evs st => st.tiuEventHalf u.val false evs))

/-- TIU_CTL_WRITE (R116): A write of TIU_CTL that changes MODE, CONT or EDGES takes effect at once and ends any arm and pending
pair. -/
def execTiuCtlWrite (q : Port) (u : Fin 96) (data : BitVec 32) (s : State) : Host.Outcome State Fault Refusal :=
  .next (s.busTo q.req .tiuCtl data.toNat u.val)

/-- TIU_FIFO_DRAIN (R127): One record leaves the unit FIFO every 12.5 ns and is copied to the readout queue and Tally as
enabled. -/
def execTiuFifoDrain (u : Fin 96) (s : State) : Host.Outcome State Fault Refusal :=
  .next (s.live (s.tiuDrain u.val))

/-- TIU_RES_READ (R143): A read of TIU_RES word 0 removes the head record of the readout queue into the requester's latch. -/
def execTiuResRead (q : Port) (u : Fin 96) (s : State) : Host.Outcome State Fault Refusal :=
  .next (s.busFrom q.req .tiuRes u.val)

/-- TALLY_RECORD_IN (R130): A record offered to Tally enters the ingest buffer, or is lost or discarded and counted. -/
def execTallyRecordIn (s : State) : Host.Outcome State Fault Refusal :=
  .next (s.live s.talIn)

/-- TALLY_WRITE (R131): A record from the ingest buffer is written to the DRAM ring and TAL_WPTR advances, wrapping or filling.
-/
def execTallyWrite (s : State) : Host.Outcome State Fault Refusal :=
  .next (s.live s.talWrite)

/-- TAL_TRIG (R133): A TAL_TRIG event is the capture trigger: it records TRIG_TIME and TRIG_POS, writes a marker and reserves
the pre-trigger records. -/
def execTalTrig (s : State) : Host.Outcome State Fault Refusal :=
  .next (s.live (s.onGroup Con.talTrig fun evs st => evs.foldl (fun x e => x.talTrigger e.ts) st))

/-- TAL_FIRE (R133): A write of TAL_CTL.FIRE is a capture trigger like TAL_TRIG. -/
def execTalFire (q : Port) (data : BitVec 32) (s : State) : Host.Outcome State Fault Refusal :=
  .next (s.busFld q.req F.talCtl_FIRE data.toNat 1)

/-- TALLY_FREEZE (R133): Once POST records are written and tt + 3 µs has passed, or a write would reach the reserved records,
Tally freezes. -/
def execTallyFreeze (s : State) : Host.Outcome State Fault Refusal :=
  .next (s.live s.talFreeze)

/-- TALLY_ENABLE (R134): TAL_CTL.EN changing from 0 to 1 is checked, clears the ring state, writes START and begins ingest. -/
def execTallyEnable (q : Port) (data : BitVec 32) (s : State) : Host.Outcome State Fault Refusal :=
  .next (s.busFld q.req F.talCtl_EN data.toNat 1)

/-- TALLY_DISABLE (R134): TAL_CTL.EN changing from 1 to 0 stops ingest while the buffer drains. -/
def execTallyDisable (q : Port) (data : BitVec 32) (s : State) : Host.Outcome State Fault Refusal :=
  .next (s.busFld q.req F.talCtl_EN data.toNat 0)

/-- TALLY_DRAIN_DONE (R134): The records left in the ingest buffer are written and TAL_WPTR holds. -/
def execTallyDrainDone (s : State) : Host.Outcome State Fault Refusal :=
  .next (s.live s.talDrain)

end Sys2Proof.Machine
end

