-- ==== Sys2Proof/Machine/Dispatch.lean ====
section
/-! DEFINITION. The meaning of every command: one arm per constructor. -/

namespace Sys2Proof.Machine

/-- What a command does to everything but the queue. -/
def exec (i : Instr) (s : State) : Host.Outcome State Fault Refusal :=
  match i with
  | .registerWrite q a x be poison => Sys2Proof.Machine.execRegisterWrite q a x be poison s
  | .multiwordReadLatch q a => Sys2Proof.Machine.execMultiwordReadLatch q a s
  | .counterReadClear q a => Sys2Proof.Machine.execCounterReadClear q a s
  | .bar2Read x n => Sys2Proof.Machine.execBar2Read x n s
  | .bar2Write x bytes poison => Sys2Proof.Machine.execBar2Write x bytes poison s
  | .auxPowerOn => Sys2Proof.Machine.execAuxPowerOn s
  | .pinReset => Sys2Proof.Machine.execPinReset s
  | .pinResetRelease straps => Sys2Proof.Machine.execPinResetRelease straps s
  | .mainRailPor low => Sys2Proof.Machine.execMainRailPor low s
  | .mainRailLoss => Sys2Proof.Machine.execMainRailLoss s
  | .warmReset q key => Sys2Proof.Machine.execWarmReset q key s
  | .blockResetMem q => Sys2Proof.Machine.execBlockResetMem q s
  | .blockResetSwpad q => Sys2Proof.Machine.execBlockResetSwpad q s
  | .blockResetTas q => Sys2Proof.Machine.execBlockResetTas q s
  | .blockResetNt q => Sys2Proof.Machine.execBlockResetNt q s
  | .blockResetTal q => Sys2Proof.Machine.execBlockResetTal q s
  | .blockResetCal q => Sys2Proof.Machine.execBlockResetCal q s
  | .blockResetDrv q => Sys2Proof.Machine.execBlockResetDrv q s
  | .blockResetDw q => Sys2Proof.Machine.execBlockResetDw q s
  | .blockResetDone b => Sys2Proof.Machine.execBlockResetDone b s
  | .functionLevelReset => Sys2Proof.Machine.execFunctionLevelReset s
  | .timebaseReady => Sys2Proof.Machine.execTimebaseReady s
  | .tick o => Sys2Proof.Machine.execTick o s
  | .tbStepCommit q v => Sys2Proof.Machine.execTbStepCommit q v s
  | .tbSetCommit q v => Sys2Proof.Machine.execTbSetCommit q v s
  | .timeStepApply => Sys2Proof.Machine.execTimeStepApply s
  | .tbNcoSwWrite q v => Sys2Proof.Machine.execTbNcoSwWrite q v s
  | .xoLoss => Sys2Proof.Machine.execXoLoss s
  | .xoReturn => Sys2Proof.Machine.execXoReturn s
  | .tsynSwap => Sys2Proof.Machine.execTsynSwap s
  | .tsynReturn => Sys2Proof.Machine.execTsynReturn s
  | .forceBpll q data => Sys2Proof.Machine.execForceBpll q data s
  | .csynTargetWrite q data => Sys2Proof.Machine.execCsynTargetWrite q data s
  | .csynBandChange => Sys2Proof.Machine.execCsynBandChange s
  | .csynRelockDone => Sys2Proof.Machine.execCsynRelockDone s
  | .csynBandFail => Sys2Proof.Machine.execCsynBandFail s
  | .csynRetry => Sys2Proof.Machine.execCsynRetry s
  | .csynGuardMove n long => Sys2Proof.Machine.execCsynGuardMove n long s
  | .csynRampDone => Sys2Proof.Machine.execCsynRampDone s
  | .osynApply q i0 => Sys2Proof.Machine.execOsynApply q i0 s
  | .osynLockDone i0 lo hi => Sys2Proof.Machine.execOsynLockDone i0 lo hi s
  | .osynRamp q i0 => Sys2Proof.Machine.execOsynRamp q i0 s
  | .osynRampStart i0 => Sys2Proof.Machine.execOsynRampStart i0 s
  | .osynSegmentEnd i0 => Sys2Proof.Machine.execOsynSegmentEnd i0 s
  | .osynLossOfLock i0 => Sys2Proof.Machine.execOsynLossOfLock i0 s
  | .osynRelock i0 => Sys2Proof.Machine.execOsynRelock i0 s
  | .osynDisable q i0 data => Sys2Proof.Machine.execOsynDisable q i0 data s
  | .eoQeCommit q n v => Sys2Proof.Machine.execEoQeCommit q n v s
  | .eoTeCommit q n v => Sys2Proof.Machine.execEoTeCommit q n v s
  | .actionAccept n => Sys2Proof.Machine.execActionAccept n s
  | .cancelCut n => Sys2Proof.Machine.execCancelCut n s
  | .actionActivate n => Sys2Proof.Machine.execActionActivate n s
  | .transitionFilter n => Sys2Proof.Machine.execTransitionFilter n s
  | .transitionCommit n => Sys2Proof.Machine.execTransitionCommit n s
  | .transitionLaunch n => Sys2Proof.Machine.execTransitionLaunch n s
  | .edgeVerify n => Sys2Proof.Machine.execEdgeVerify n s
  | .eoEnable q n data => Sys2Proof.Machine.execEoEnable q n data s
  | .eoDisable q n data => Sys2Proof.Machine.execEoDisable q n data s
  | .bankPowerDown q b => Sys2Proof.Machine.execBankPowerDown q b s
  | .bankPowerUp q b => Sys2Proof.Machine.execBankPowerUp q b s
  | .bankPowerUpDone b => Sys2Proof.Machine.execBankPowerUpDone b s
  | .eoArm n => Sys2Proof.Machine.execEoArm n s
  | .eoTrig n => Sys2Proof.Machine.execEoTrig n s
  | .profStart n => Sys2Proof.Machine.execProfStart n s
  | .profileSegmentEnd n => Sys2Proof.Machine.execProfileSegmentEnd n s
  | .eoFaultReaction n => Sys2Proof.Machine.execEoFaultReaction n s
  | .tiuHitCapture u code rising => Sys2Proof.Machine.execTiuHitCapture u code rising s
  | .tiuRecordComplete u arb => Sys2Proof.Machine.execTiuRecordComplete u arb s
  | .tiuOverflow u => Sys2Proof.Machine.execTiuOverflow u s
  | .tiuTimeout u => Sys2Proof.Machine.execTiuTimeout u s
  | .tiuArm u w => Sys2Proof.Machine.execTiuArm u w s
  | .tiuDisarm q u data => Sys2Proof.Machine.execTiuDisarm q u data s
  | .tiuStart u => Sys2Proof.Machine.execTiuStart u s
  | .tiuStop u => Sys2Proof.Machine.execTiuStop u s
  | .tiuCtlWrite q u data => Sys2Proof.Machine.execTiuCtlWrite q u data s
  | .tiuFifoDrain u => Sys2Proof.Machine.execTiuFifoDrain u s
  | .tiuResRead q u => Sys2Proof.Machine.execTiuResRead q u s
  | .tallyRecordIn => Sys2Proof.Machine.execTallyRecordIn s
  | .tallyWrite => Sys2Proof.Machine.execTallyWrite s
  | .talTrig => Sys2Proof.Machine.execTalTrig s
  | .talFire q data => Sys2Proof.Machine.execTalFire q data s
  | .tallyFreeze => Sys2Proof.Machine.execTallyFreeze s
  | .tallyEnable q data => Sys2Proof.Machine.execTallyEnable q data s
  | .tallyDisable q data => Sys2Proof.Machine.execTallyDisable q data s
  | .tallyDrainDone => Sys2Proof.Machine.execTallyDrainDone s
  | .dwChannelEvent c => Sys2Proof.Machine.execDwChannelEvent c s
  | .evinEdge i0 level => Sys2Proof.Machine.execEvinEdge i0 level s
  | .dwTmrEnable q i0 data => Sys2Proof.Machine.execDwTmrEnable q i0 data s
  | .dwTmrInstant i0 => Sys2Proof.Machine.execDwTmrInstant i0 s
  | .swfFire q data => Sys2Proof.Machine.execSwfFire q data s
  | .evoutEvent i0 => Sys2Proof.Machine.execEvoutEvent i0 s
  | .evoutPulseEnd i0 => Sys2Proof.Machine.execEvoutPulseEnd i0 s
  | .flockEn f => Sys2Proof.Machine.execFlockEn f s
  | .flockDis f => Sys2Proof.Machine.execFlockDis f s
  | .flockStateWrite q f data => Sys2Proof.Machine.execFlockStateWrite q f data s
  | .dwChannelEnable q c data => Sys2Proof.Machine.execDwChannelEnable q c data s
  | .dwChannelDisable q c data => Sys2Proof.Machine.execDwChannelDisable q c data s
  | .dwEnableCheckDone c => Sys2Proof.Machine.execDwEnableCheckDone c s
  | .dwChOwnWrite q c data => Sys2Proof.Machine.execDwChOwnWrite q c data s
  | .dwConSelWrite q x data => Sys2Proof.Machine.execDwConSelWrite q x data s
  | .drvInGroup d k i0 => Sys2Proof.Machine.execDrvInGroup d k i0 s
  | .taskWakeEvent d k => Sys2Proof.Machine.execTaskWakeEvent d k s
  | .taskWakeTime d k => Sys2Proof.Machine.execTaskWakeTime d k s
  | .taskWakeTimeout d k => Sys2Proof.Machine.execTaskWakeTimeout d k s
  | .yieldEnd d k => Sys2Proof.Machine.execYieldEnd d k s
  | .drvBusyEnd d k => Sys2Proof.Machine.execDrvBusyEnd d k s
  | .waitQueueReoffer d k => Sys2Proof.Machine.execWaitQueueReoffer d k s
  | .ldxReturn d k bad => Sys2Proof.Machine.execLdxReturn d k bad s
  | .ldxTimeout d k => Sys2Proof.Machine.execLdxTimeout d k s
  | .measComplete d k => Sys2Proof.Machine.execMeasComplete d k s
  | .measTimeout d k => Sys2Proof.Machine.execMeasTimeout d k s
  | .launchComplete d k => Sys2Proof.Machine.execLaunchComplete d k s
  | .taskStart q d k data => Sys2Proof.Machine.execTaskStart q d k data s
  | .taskStop q d k data => Sys2Proof.Machine.execTaskStop q d k data s
  | .drvProgCommit q d v => Sys2Proof.Machine.execDrvProgCommit q d v s
  | .drvProgCheckDone d bad => Sys2Proof.Machine.execDrvProgCheckDone d bad s
  | .drvReset q d data => Sys2Proof.Machine.execDrvReset q d data s
  | .drvMemRead q d => Sys2Proof.Machine.execDrvMemRead q d s
  | .drvMemWrite q d v => Sys2Proof.Machine.execDrvMemWrite q d v s
  | .nop d k e => Sys2Proof.Machine.execNop d k e s
  | .halt d k e => Sys2Proof.Machine.execHalt d k e s
  | .yield d k e n => Sys2Proof.Machine.execYield d k e n s
  | .trap d k e imm => Sys2Proof.Machine.execTrap d k e imm s
  | .b d k e target => Sys2Proof.Machine.execB d k e target s
  | .bc d k e cond target => Sys2Proof.Machine.execBc d k e cond target s
  | .call d k e target => Sys2Proof.Machine.execCall d k e target s
  | .ret d k e => Sys2Proof.Machine.execRet d k e s
  | .loop d k e c stop => Sys2Proof.Machine.execLoop d k e c stop s
  | .endl d k e => Sys2Proof.Machine.execEndl d k e s
  | .endlPop d k e => Sys2Proof.Machine.execEndlPop d k e s
  | .add d k e ad aa b => Sys2Proof.Machine.execAdd d k e ad aa b s
  | .sub d k e ad aa b => Sys2Proof.Machine.execSub d k e ad aa b s
  | .adds d k e ad aa b => Sys2Proof.Machine.execAdds d k e ad aa b s
  | .subs d k e ad aa b => Sys2Proof.Machine.execSubs d k e ad aa b s
  | .mulq d k e ad aa ab rm u sh => Sys2Proof.Machine.execMulq d k e ad aa ab rm u sh s
  | .divq d k e ad aa ab rm u sh => Sys2Proof.Machine.execDivq d k e ad aa ab rm u sh s
  | .shl d k e ad aa n => Sys2Proof.Machine.execShl d k e ad aa n s
  | .shr d k e ad aa n rm lg => Sys2Proof.Machine.execShr d k e ad aa n rm lg s
  | .and d k e ad aa b => Sys2Proof.Machine.execAnd d k e ad aa b s
  | .or d k e ad aa b => Sys2Proof.Machine.execOr d k e ad aa b s
  | .xor d k e ad aa b => Sys2Proof.Machine.execXor d k e ad aa b s
  | .cmp d k e aa b => Sys2Proof.Machine.execCmp d k e aa b s
  | .ldi d k e ad imm => Sys2Proof.Machine.execLdi d k e ad imm s
  | .ldhi d k e ad h imm => Sys2Proof.Machine.execLdhi d k e ad h imm s
  | .mov d k e ad aa => Sys2Proof.Machine.execMov d k e ad aa s
  | .neg d k e ad aa => Sys2Proof.Machine.execNeg d k e ad aa s
  | .tadd d k e td ta ab => Sys2Proof.Machine.execTadd d k e td ta ab s
  | .taddSub d k e td ta ab => Sys2Proof.Machine.execTaddSub d k e td ta ab s
  | .tsub d k e ad ta tb => Sys2Proof.Machine.execTsub d k e ad ta tb s
  | .tcmp d k e ta tb => Sys2Proof.Machine.execTcmp d k e ta tb s
  | .tnow d k e td => Sys2Proof.Machine.execTnow d k e td s
  | .tmov d k e td ta => Sys2Proof.Machine.execTmov d k e td ta s
  | .tmovSec d k e ad ta => Sys2Proof.Machine.execTmovSec d k e ad ta s
  | .tmovNsf d k e ad ta => Sys2Proof.Machine.execTmovNsf d k e ad ta s
  | .tmovPack d k e td aa ab => Sys2Proof.Machine.execTmovPack d k e td aa ab s
  | .tmovZero d k e td => Sys2Proof.Machine.execTmovZero d k e td s
  | .tld d k e td aa off => Sys2Proof.Machine.execTld d k e td aa off s
  | .tst d k e td aa off => Sys2Proof.Machine.execTst d k e td aa off s
  | .ld d k e ad aa off => Sys2Proof.Machine.execLd d k e ad aa off s
  | .st d k e ad aa off => Sys2Proof.Machine.execSt d k e ad aa off s
  | .ldx d k e ad aa off => Sys2Proof.Machine.execLdx d k e ad aa off s
  | .stx d k e ad aa off => Sys2Proof.Machine.execStx d k e ad aa off s
  | .edge d k e ch ts level => Sys2Proof.Machine.execEdge d k e ch ts level s
  | .pulse d k e ch ts aw => Sys2Proof.Machine.execPulse d k e ch ts aw s
  | .train d k e ch ts aw ap ac unlim chain => Sys2Proof.Machine.execTrain d k e ch ts aw ap ac unlim chain s
  | .prof d k e ch ts ac cont bank => Sys2Proof.Machine.execProf d k e ch ts ac cont bank s
  | .cancel d k e ch ts => Sys2Proof.Machine.execCancel d k e ch ts s
  | .waitt d k e ta => Sys2Proof.Machine.execWaitt d k e ta s
  | .waite d k e mask x ao => Sys2Proof.Machine.execWaite d k e mask x ao s
  | .signal d k e sg ts tt => Sys2Proof.Machine.execSignal d k e sg ts tt s
  | .armTiu d k e u ts tt => Sys2Proof.Machine.execArmTiu d k e u ts tt s
  | .disarmTiu d k e u ts tt => Sys2Proof.Machine.execDisarmTiu d k e u ts tt s
  | .armEoSlot d k e n ts tt => Sys2Proof.Machine.execArmEoSlot d k e n ts tt s
  | .disarmEoSlot d k e n ts tt => Sys2Proof.Machine.execDisarmEoSlot d k e n ts tt s
  | .meas d k e td ad u x na ao => Sys2Proof.Machine.execMeas d k e td ad u x na ao s
  | .launch d k e p tt aa => Sys2Proof.Machine.execLaunch d k e p tt aa s
  | .csrReadCw d k e r n => Sys2Proof.Machine.execCsrReadCw d k e r n s
  | .csrWriteCw d k e r n => Sys2Proof.Machine.execCsrWriteCw d k e r n s
  | .csrReadBar0 d k e ad aa => Sys2Proof.Machine.execCsrReadBar0 d k e ad aa s
  | .csrWriteBar0 d k e ar aa => Sys2Proof.Machine.execCsrWriteBar0 d k e ar aa s
  | .calTempEval => Sys2Proof.Machine.execCalTempEval s
  | .calHold eo i0 => Sys2Proof.Machine.execCalHold eo i0 s
  | .cdRunDone u h vtrim => Sys2Proof.Machine.execCdRunDone u h vtrim s
  | .tapRunDone n m => Sys2Proof.Machine.execTapRunDone n m s
  | .pinRunDone n mon replica load => Sys2Proof.Machine.execPinRunDone n mon replica load s
  | .regionRunDone r => Sys2Proof.Machine.execRegionRunDone r s
  | .calRunStarved eo i0 => Sys2Proof.Machine.execCalRunStarved eo i0 s
  | .runRegion q arg => Sys2Proof.Machine.execRunRegion q arg s
  | .runTiu q arg => Sys2Proof.Machine.execRunTiu q arg s
  | .runEo q arg => Sys2Proof.Machine.execRunEo q arg s
  | .calPin q arg => Sys2Proof.Machine.execCalPin q arg s
  | .calFull q arg => Sys2Proof.Machine.execCalFull q arg s
  | .calApply q arg => Sys2Proof.Machine.execCalApply q arg s
  | .loadTiu q arg => Sys2Proof.Machine.execLoadTiu q arg s
  | .loadEo q arg => Sys2Proof.Machine.execLoadEo q arg s
  | .calExport q arg => Sys2Proof.Machine.execCalExport q arg s
  | .calImport q arg => Sys2Proof.Machine.execCalImport q arg s
  | .calSave q arg => Sys2Proof.Machine.execCalSave q arg s
  | .calAbort q arg => Sys2Proof.Machine.execCalAbort q arg s
  | .exportDone => Sys2Proof.Machine.execExportDone s
  | .importDone => Sys2Proof.Machine.execImportDone s
  | .saveDone bad => Sys2Proof.Machine.execSaveDone bad s
  | .calStartupImport => Sys2Proof.Machine.execCalStartupImport s
  | .ppsinPulse i0 slot => Sys2Proof.Machine.execPpsinPulse i0 slot s
  | .bwRefSwCommit q r theta => Sys2Proof.Machine.execBwRefSwCommit q r theta s
  | .bwSecond => Sys2Proof.Machine.execBwSecond s
  | .refDisqualify r => Sys2Proof.Machine.execRefDisqualify r s
  | .bwEvaluate ck => Sys2Proof.Machine.execBwEvaluate ck s
  | .bwUnlockWrite q data => Sys2Proof.Machine.execBwUnlockWrite q data s
  | .bwRealign q => Sys2Proof.Machine.execBwRealign q s
  | .holdoverLost => Sys2Proof.Machine.execHoldoverLost s
  | .bwCtlWrite q data => Sys2Proof.Machine.execBwCtlWrite q data s
  | .bwRefCfgWrite q r data => Sys2Proof.Machine.execBwRefCfgWrite q r data s
  | .syncRx p m o => Sys2Proof.Machine.execSyncRx p m o s
  | .followUpRx p m => Sys2Proof.Machine.execFollowUpRx p m s
  | .delayReqRx p m o => Sys2Proof.Machine.execDelayReqRx p m o s
  | .delayRespRx p m => Sys2Proof.Machine.execDelayRespRx p m s
  | .pdelayReqRx p m o tx => Sys2Proof.Machine.execPdelayReqRx p m o tx s
  | .pdelayRespRx p m o => Sys2Proof.Machine.execPdelayRespRx p m o s
  | .pdelayRespFollowUpRx p m => Sys2Proof.Machine.execPdelayRespFollowUpRx p m s
  | .syncTx i0 o => Sys2Proof.Machine.execSyncTx i0 o s
  | .delayReqTx i0 o => Sys2Proof.Machine.execDelayReqTx i0 o s
  | .pdelayReqTx i0 o => Sys2Proof.Machine.execPdelayReqTx i0 o s
  | .sesSyncTimeout i0 => Sys2Proof.Machine.execSesSyncTimeout i0 s
  | .ntSesEnable q i0 data => Sys2Proof.Machine.execNtSesEnable q i0 data s
  | .esmcRx p code => Sys2Proof.Machine.execEsmcRx p code s
  | .esmcLoss p => Sys2Proof.Machine.execEsmcLoss p s
  | .pdReading p ph => Sys2Proof.Machine.execPdReading p ph s
  | .lanePhaseMeasured p => Sys2Proof.Machine.execLanePhaseMeasured p s
  | .ptTsfRead q p => Sys2Proof.Machine.execPtTsfRead q p s
  | .ptEnable q p data => Sys2Proof.Machine.execPtEnable q p data s
  | .ptDisable q p data => Sys2Proof.Machine.execPtDisable q p data s
  | .ptCfgWrite q train p data => Sys2Proof.Machine.execPtCfgWrite q train p data s
  | .laneLock j tx rx => Sys2Proof.Machine.execLaneLock j tx rx s
  | .laneLossOfLock j los cut => Sys2Proof.Machine.execLaneLossOfLock j los cut s
  | .syntChange q k data => Sys2Proof.Machine.execSyntChange q k data s
  | .qpllRelockDone k => Sys2Proof.Machine.execQpllRelockDone k s
  | .elmHello p h => Sys2Proof.Machine.execElmHello p h s
  | .elmAck p version hash port => Sys2Proof.Machine.execElmAck p version hash port s
  | .elmRate p version rate => Sys2Proof.Machine.execElmRate p version rate s
  | .elmEq p top lane pre main post theirs mine => Sys2Proof.Machine.execElmEq p top lane pre main post theirs mine s
  | .elmVerify p version lane done pass => Sys2Proof.Machine.execElmVerify p version lane done pass s
  | .elmEcho p version reply k t2 t3 o => Sys2Proof.Machine.execElmEcho p version reply k t2 t3 o s
  | .elmDrop p version lane => Sys2Proof.Machine.execElmDrop p version lane s
  | .elmDropAck p version lane => Sys2Proof.Machine.execElmDropAck p version lane s
  | .elmAdd p version m => Sys2Proof.Machine.execElmAdd p version m s
  | .helloTx p => Sys2Proof.Machine.execHelloTx p s
  | .rateSwitch p => Sys2Proof.Machine.execRateSwitch p s
  | .verifyEnd p errs => Sys2Proof.Machine.execVerifyEnd p errs s
  | .echoTx p o => Sys2Proof.Machine.execEchoTx p o s
  | .trainStepTimeout p => Sys2Proof.Machine.execTrainStepTimeout p s
  | .trainTotalTimeout p => Sys2Proof.Machine.execTrainTotalTimeout p s
  | .standardLinkUp p pause => Sys2Proof.Machine.execStandardLinkUp p pause s
  | .listenBackoffExpire p => Sys2Proof.Machine.execListenBackoffExpire p s
  | .dropResend p => Sys2Proof.Machine.execDropResend p s
  | .dropAckTimeout p => Sys2Proof.Machine.execDropAckTimeout p s
  | .laneRejoin p lane => Sys2Proof.Machine.execLaneRejoin p lane s
  | .laneRejoinRetry p lane => Sys2Proof.Machine.execLaneRejoinRetry p lane s
  | .laneReset q j data => Sys2Proof.Machine.execLaneReset q j data s
  | .frameRx p h len o => Sys2Proof.Machine.execFrameRx p h len o s
  | .frameRxEnd p data fcsOk err => Sys2Proof.Machine.execFrameRxEnd p data fcsOk err s
  | .frameTxStart p o => Sys2Proof.Machine.execFrameTxStart p o s
  | .pfcRx p pauseFrame mask quanta => Sys2Proof.Machine.execPfcRx p pauseFrame mask quanta s
  | .pauseExpire p c => Sys2Proof.Machine.execPauseExpire p c s
  | .xoffRepeat p c => Sys2Proof.Machine.execXoffRepeat p c s
  | .macAgeExpire i0 => Sys2Proof.Machine.execMacAgeExpire i0 s
  | .portDown p => Sys2Proof.Machine.execPortDown p s
  | .padHoldExpire p => Sys2Proof.Machine.execPadHoldExpire p s
  | .portUp p => Sys2Proof.Machine.execPortUp p s
  | .frrRevert p => Sys2Proof.Machine.execFrrRevert p s
  | .gclEntry p => Sys2Proof.Machine.execGclEntry p s
  | .gclChange q p data => Sys2Proof.Machine.execGclChange q p data s
  | .gclChangeEffect p => Sys2Proof.Machine.execGclChangeEffect p s
  | .preemptVerifyDone p => Sys2Proof.Machine.execPreemptVerifyDone p s
  | .launchRelease p o => Sys2Proof.Machine.execLaunchRelease p o s
  | .fixedLatencyRelease p o => Sys2Proof.Machine.execFixedLatencyRelease p o s
  | .lqTplCommit q p v => Sys2Proof.Machine.execLqTplCommit q p v s
  | .lqTrig p => Sys2Proof.Machine.execLqTrig p s
  | .faultDetected ext => Sys2Proof.Machine.execFaultDetected ext s
  | .faultMasked ext => Sys2Proof.Machine.execFaultMasked ext s
  | .wdogKick q key => Sys2Proof.Machine.execWdogKick q key s
  | .wdogExpire => Sys2Proof.Machine.execWdogExpire s
  | .cfgScanGroup group blk bad => Sys2Proof.Machine.execCfgScanGroup group blk bad s
  | .monTempSample t => Sys2Proof.Machine.execMonTempSample t s
  | .monSupplySample mv => Sys2Proof.Machine.execMonSupplySample mv s
  | .faultRelease q => Sys2Proof.Machine.execFaultRelease q s
  | .faultPinRelease => Sys2Proof.Machine.execFaultPinRelease s
  | .bbrRecordOffer => Sys2Proof.Machine.execBbrRecordOffer s
  | .bbrRecordEnter => Sys2Proof.Machine.execBbrRecordEnter s
  | .bbrFire q data => Sys2Proof.Machine.execBbrFire q data s
  | .bbrTrig => Sys2Proof.Machine.execBbrTrig s
  | .bbrRearm q data => Sys2Proof.Machine.execBbrRearm q data s
  | .memScrub m addr err => Sys2Proof.Machine.execMemScrub m addr err s
  | .dmaRingEnable q i0 data => Sys2Proof.Machine.execDmaRingEnable q i0 data s
  | .dmaRingDisable q i0 data => Sys2Proof.Machine.execDmaRingDisable q i0 data s
  | .dmaTailWrite q i0 data => Sys2Proof.Machine.execDmaTailWrite q i0 data s
  | .dmaH2d i0 err => Sys2Proof.Machine.execDmaH2d i0 err s
  | .dmaD2h i0 err => Sys2Proof.Machine.execDmaD2h i0 err s
  | .dmaSample i0 => Sys2Proof.Machine.execDmaSample i0 s
  | .dmaTally i0 => Sys2Proof.Machine.execDmaTally i0 s
  | .dmaTallyTimeout i0 => Sys2Proof.Machine.execDmaTallyTimeout i0 s
  | .dmaLaunch i0 err => Sys2Proof.Machine.execDmaLaunch i0 err s
  | .dmaTrig i0 => Sys2Proof.Machine.execDmaTrig i0 s
  | .smbRegWrite dev a x pecOk => Sys2Proof.Machine.execSmbRegWrite dev a x pecOk s
  | .smbSetAddress dev a pecOk => Sys2Proof.Machine.execSmbSetAddress dev a pecOk s
  | .smbRegRead dev => Sys2Proof.Machine.execSmbRegRead dev s
  | .jtagBypass op => Sys2Proof.Machine.execJtagBypass op s
  | .jtagIdcode => Sys2Proof.Machine.execJtagIdcode s
  | .jtagSamplePreload v => Sys2Proof.Machine.execJtagSamplePreload v s
  | .jtagExtest => Sys2Proof.Machine.execJtagExtest s
  | .jtagExtestPulse => Sys2Proof.Machine.execJtagExtestPulse s
  | .jtagExtestTrain => Sys2Proof.Machine.execJtagExtestTrain s
  | .jtagClamp => Sys2Proof.Machine.execJtagClamp s
  | .jtagHighz => Sys2Proof.Machine.execJtagHighz s
  | .jtagRegacc => Sys2Proof.Machine.execJtagRegacc s
  | .regaccRead a => Sys2Proof.Machine.execRegaccRead a s
  | .regaccWrite a x => Sys2Proof.Machine.execRegaccWrite a x s
  | .jtagTestLogicReset => Sys2Proof.Machine.execJtagTestLogicReset s
  | .mbGetInfo q => Sys2Proof.Machine.execMbGetInfo q s
  | .mbFwBegin q args => Sys2Proof.Machine.execMbFwBegin q args s
  | .mbFwChunk q args => Sys2Proof.Machine.execMbFwChunk q args s
  | .mbFwEnd q => Sys2Proof.Machine.execMbFwEnd q s
  | .mbFwSelect q args => Sys2Proof.Machine.execMbFwSelect q args s
  | .mbFwVerify q args => Sys2Proof.Machine.execMbFwVerify q args s
  | .mbFlashRead q args => Sys2Proof.Machine.execMbFlashRead q args s
  | .mbFlashWrite q args => Sys2Proof.Machine.execMbFlashWrite q args s
  | .mbOverrideSet q args => Sys2Proof.Machine.execMbOverrideSet q args s
  | .mbOverrideClear q args => Sys2Proof.Machine.execMbOverrideClear q args s
  | .mbSvnCommit q args => Sys2Proof.Machine.execMbSvnCommit q args s
  | .mbAbort q => Sys2Proof.Machine.execMbAbort q s
  | .mbComplete ok => Sys2Proof.Machine.execMbComplete ok s
  | .bootSelect => Sys2Proof.Machine.execBootSelect s
  | .dramTrained => Sys2Proof.Machine.execDramTrained s
  | .firmwareStart => Sys2Proof.Machine.execFirmwareStart s
  | .laneSignalDetected j => Sys2Proof.Machine.execLaneSignalDetected j s
  | .vauxLoss => Sys2Proof.Machine.execVauxLoss s
  | .aonShadowAdvance => Sys2Proof.Machine.execAonShadowAdvance s
  | .barAccessReady => Sys2Proof.Machine.execBarAccessReady s
  | .asyncSourceLevelChange a level => Sys2Proof.Machine.execAsyncSourceLevelChange a level s
  | .illegal d k e w => Sys2Proof.Machine.execIllegal d k e w s

end Sys2Proof.Machine
end

