-- ==== Sys2Proof/Safety.lean ====
section
/-! DEFINITION. The terms in which claims about the device are stated: what it is for a command to complete, when a task of a Drover
issues an instruction, when a register of BAR0 takes a write, what a command leaves alone, and what a well-kept state is. -/

namespace Sys2Proof.Machine

/-- The command completes: `exec` answers a next state, and `P` holds of it. -/
def Completes (i : Instr) (s : State) (P : State → Prop) : Prop := ∃ t, exec i s = .next t ∧ P t

/-- Nothing of the state but its registers and its Drovers differs. -/
def State.sameBesideDrovers (s t : State) : Prop := { t with regs := s.regs, drv := s.drv } = s

/-! ### Ticks -/

/-- Nothing is left to do in the tick that is under way, so that the next may come: no step request to apply (R274), no task of a Drover
to issue (R183) or to wake. -/
def State.tickReady (s : State) : Bool := s.time.run && s.stepDue.isNone && !(List.range 16).any fun d => s.drvOwes d

/-- No Drover has sent anything that acts in the next tick. -/
def State.quietNext (s : State) : Prop := ∀ d x, x ∈ (s.getDrv d).outs → s.tickNo + 1 < x.1

/-! ### Drover tasks -/

/-- Task k of Drover d is the one that issues in this tick, with its inputs holding what has reached them, the word at its PC is `w`,
and `w` is a legal instruction there (R183, R187, R195, R221). -/
def State.fires (s : State) (d k : Nat) (w : Word) : Bool :=
  s.issues d k w && legalWord w.toNat (s.getTask d k).pc

/-- The instruction after the one at a task's PC is still inside the program (R195, R199). -/
def State.nextOk (s : State) (d k : Nat) : Bool := decide ((s.getTask d k).pc + 1 < s.fget F.drvProg_LEN d)

/-- What the issue of an instruction leaves alone beyond its own task and the data memory: every other Drover and task, the
instruction memory, and every register but DRV_CNT_ISSUE, which counts the issue (R183, R214). -/
structure IssueFrame (s t : State) (d k : Nat) : Prop where
  regs : ∀ c, c ≠ ⟨.drvCntIssue, d, 0, 0⟩ → t.rget c = s.rget c
  counted : t.rget ⟨.drvCntIssue, d, 0, 0⟩ = (s.rget ⟨.drvCntIssue, d, 0, 0⟩ + 1) % 2 ^ 64
  drovers : ∀ e, e ≠ d → t.getDrv e = s.getDrv e
  tasks : ∀ j, j ≠ k → t.getTask d j = s.getTask d j
  imem : (t.getDrv d).imem = (s.getDrv d).imem
  check : (t.getDrv d).progRes = (s.getDrv d).progRes ∧ (t.getDrv d).faulted = (s.getDrv d).faulted
  round : (t.getDrv d).last = k ∧ (t.getDrv d).issued = some s.tickNo

/-- What an instruction that acts on its own task alone leaves as it was: all of the above, the data memory, what the Drover has sent
out, and every other part of the state. -/
structure TaskFrame (s t : State) (d k : Nat) : Prop where
  issue : IssueFrame s t d k
  rest : s.sameBesideDrovers t
  dmem : (t.getDrv d).dmem = (s.getDrv d).dmem
  outs : (t.getDrv d).outs = (s.getDrv d).outs

/-- The instruction completes, its task is `T` after it, and nothing else has changed but what every issue changes. -/
def TaskBecomes (i : Instr) (s : State) (d k : Nat) (T : Task) : Prop :=
  Completes i s fun t => t.getTask d k = T ∧ TaskFrame s t d k

/-- The trap record of R216: code, PC, the instruction word there, ARG. -/
def State.trapRecord (s : State) (d k code arg : Nat) : Nat :=
  let t := s.getTask d k
  code * 65536 + t.pc + ((s.getDrv d).word t.pc).toNat * 2 ^ 32 + arg % 2 ^ 32 * 2 ^ 64

/-- The instruction traps with a code and ARG: its task is TRAPPED with nothing else of it changed but the record, and its bit of
DRV_STAT.TRAP is set (R199, R200). -/
def Traps (i : Instr) (s : State) (d k code arg : Nat) : Prop :=
  Completes i s fun t =>
    t.getTask d k = { s.getTask d k with st := .trapped, wait := .none, trap := s.trapRecord d k code arg } ∧
    bit (t.fget F.drvStat_TRAP d) k = true

/-! ### What a command leaves alone -/

/-- No register outside these blocks has changed. -/
def State.regsWithin (s t : State) (bs : List Blk) : Prop := ∀ c : RegKey, c.r.info.blk ∉ bs → t.rget c = s.rget c

/-- What the work of one edge output leaves alone: the other channels, the registers of every block but EO and the Droveway, which
counts and carries its events, and the rest of the state, the black box's offers apart (R168). -/
structure EoFrame (s t : State) (n : Nat) : Prop where
  channels : ∀ m, m ≠ n → t.getEo m = s.getEo m
  regs : s.regsWithin t [.eo, .dw]
  rest : { t with regs := s.regs, cyc := s.cyc, eo := s.eo, dw := s.dw, bbr := s.bbr } = s

/-- An event that a producer has raised stands among those the Droveway has yet to carry: producer, timestamp, tag, and the tick at
which it is raised (R149). -/
def State.raises (t : State) (prod : Nat) (ts : Instant) (tag tick : Nat) : Prop :=
  (⟨prod, ts, tag, tick, []⟩ : Ev) ∈ (if tick = t.tickNo then t.dw.evq else t.dw.soon)

/-- The value a saturating 32-bit counter has after counting n more. -/
def counted (v n : Nat) : Nat := min (v + n) 0xFFFFFFFF

/-! ### BAR0 -/

/-- A requester that R23 places later has written a register of this name in this cycle. -/
def State.outranksAny (s : State) (q : Requester) (r : Reg) : Bool :=
  s.cyc.wrote.cells.any fun c => decide (c.1.r = r) && decide (q.order + 1 < c.2)

/-- A requester reaches BAR0, the block of a register is not held in reset, and no requester of a later place in the order of R23 has
written it in this cycle: the register takes its write and keeps it (R23, R25, R426). -/
def State.writable (s : State) (q : Requester) (r : Reg) : Bool := s.reaches0 q && !s.blkHeld r.info.blk && !s.outranksAny q r

/-- A requester reaches BAR0 and the block of a register is not held in reset: a read of it is answered (R25, R426). -/
def State.readable (s : State) (q : Requester) (r : Reg) : Bool := s.reaches0 q && !s.blkHeld r.info.blk

/-- The registers whose write does more than store its fields: each has rules of its own in its chapter. -/
def Reg.ruled (r : Reg) : Bool :=
  [Reg.glbRstCtl, .glbBlkRst, .fltCtl, .fltClr, .fltWdogKick, .monSupWin, .bbrCtl, .bbrPre, .bbrPost, .mbCmd, .mbArg, .dmaRingCfg,
    .dmaRingBase, .dmaRingSize, .dmaRingTail, .dmaRingAux, .msixTable].contains r ||
  [Reg.tbCtl, .tbNcoSw, .tbStep, .tbSet, .synCsynCtl, .synOsynCtl, .synOsynCmd, .synOsynSeg, .bwCtl, .bwCmd, .bwUnlock, .bwHoAllow,
    .bwHoAging, .bwRestartY, .bwRefCfg, .bwRefSw].contains r ||
  [Reg.eoCtl, .eoQe, .eoTe, .eoTrigCtl, .eoBankCtl, .eoSeg, .tiuCtl, .tiuArm, .tiuFreq, .tiuOfs, .talCtl, .talBase, .talSize, .talPre,
    .talPost].contains r ||
  [Reg.dwChCfg, .dwChSrc, .dwChOwn, .dwSwgate, .dwConSel, .dwCtl, .dwSwf, .dwFlCtl, .dwTmrCtl, .dwTmrCount, .dwTmrPeriod,
    .dwTmrAnchor].contains r ||
  [Reg.drvCtl, .drvProg, .drvMemAddr, .drvMemData, .drvTaskCtl, .drvTaskA, .drvTaskT, .calCmd, .calEoTab, .calEoShadow, .calTiuTab].contains r ||
  [Reg.ntDomCfg, .ntSesCfg, .ntSesPeerid, .ntSesLink, .ntSesHdr, .lnCtl, .lnTxeq, .lnQuadCtl, .ptCfg, .ptTrain].contains r ||
  [Reg.swMac, .swSample, .swFrr, .padGmin, .padHr, .tasGclCtl, .tasPreempt, .tasFl, .tasLqTpl].contains r

/-! ### A well-kept state -/

/-- What every command keeps: each byte memory is in its canonical form, so that equal memories are equal data, and every bit of a
register of BAR0 that lies in none of its fields reads 0 (R6, R24). -/
structure State.Sound (s : State) : Prop where
  dram : Memory.wf dramUnl s.dram = true
  flash : Memory.wf flashUnl s.flash = true
  host : Memory.wf hostUnl s.hostMem = true
  reserved : ∀ (c : RegKey) (b : Nat), regAt (addrOf c 0) = some (c, 0) → (∀ f ∈ c.r.info.flds, b < f.lo ∨ f.hi < b) →
    bit (s.rget c) b = false

end Sys2Proof.Machine
end

