-- ==== Sys2Proof/Certificates/Slice0/Obligations.lean ====
section
/-! DEFINITION. The statements for the provers: what the commands of each family do to the state, from the numbered rules of the spec, and
what holds of the machine as a whole. -/

open Sys2Proof Sys2Proof.Machine

/-! ### Register access, resets and the start of the timebase (R6 to R53) -/

/-- R6, R7, R9, R25: a full-word write of a one-word register that has no further rule of its own gives every field what its access code
and range say: RW and RWS take a value in range, RWL too unless bit 31 locks it, RW1C clears the bits written as 1 that no hardware event
has set in this cycle, RW1S sets them, RO, WO and RC keep what they hold; and while every field is in range no other register changes.
Where the rules leave a reading open the clauses follow the model's own, log entries 82, 83. -/
def Obligations.RegisterWriteFollowsAccessCodes : Prop :=
  ∀ (q : Port) (a x : BitVec 32) (key : RegKey) (s : State),
    regAt (a.toNat / 4 * 4) = some (key, 0) → key.r.info.words = 1 → key.r.ruled = false →
    s.writable q.req key.r = true → blkOf a.toNat = some key.r.info.blk →
    let old := s.rget key
    let lock := (key.r.info.flds.any fun f => decide (f.acc = .rwl)) && bit old 31
    Completes (.registerWrite q a x 15 false) s fun t =>
      (∀ f ∈ key.r.info.flds,
        let was := bits old f.hi f.lo
        let new := bits x.toNat f.hi f.lo
        bits (t.rget key) f.hi f.lo =
          match f.acc with
          | .rw => if f.rng.ok new then new else was
          | .rws => if f.rng.ok new then new else was
          | .rwl => if lock = false ∧ f.rng.ok new then new else was
          | .rw1c => was - (was &&& without new (bits (s.hwMask key) f.hi f.lo))
          | .rw1s => was ||| without new (bits (s.hwMask key) f.hi f.lo)
          | _ => was) ∧
      ((∀ f ∈ key.r.info.flds, f.rng.ok (bits x.toNat f.hi f.lo) = true) → ∀ c, c ≠ key → t.rget c = s.rget c) ∧
      { t with regs := s.regs, cyc := s.cyc } = s

/-- R8, R24, R25: a write with partial byte enables is ignored and sets GLB_ERR.ACC_ERR; one to a block held in reset does the same; one
to reserved space, or from PCIe before BAR access is ready, changes nothing. Where the rules leave a reading open the clauses follow the
model's own, log entry 11. -/
def Obligations.RefusedRegisterWrites : Prop :=
  ∀ (q : Port) (a x : BitVec 32) (be : BitVec 4) (s : State),
    (s.reaches0 q.req = true → be ≠ 15 →
      Completes (.registerWrite q a x be false) s fun t => t.fbit F.glbErr_ACC_ERR = true ∧
        (∀ c, c ≠ ⟨.glbErr, 0, 0, 0⟩ → t.rget c = s.rget c) ∧ { t with regs := s.regs, cyc := s.cyc } = s) ∧
    (∀ b, s.reaches0 q.req = true → blkOf a.toNat = some b → s.blkHeld b = true →
      Completes (.registerWrite q a x 15 false) s fun t => t.fbit F.glbErr_ACC_ERR = true ∧
        (∀ c, c ≠ ⟨.glbErr, 0, 0, 0⟩ → t.rget c = s.rget c) ∧ { t with regs := s.regs, cyc := s.cyc } = s) ∧
    (blkOf a.toNat = none → Completes (.registerWrite q a x 15 false) s fun t => t = s) ∧
    (regAt (a.toNat / 4 * 4) = none → (∀ b, blkOf a.toNat = some b → s.blkHeld b = false) →
      Completes (.registerWrite q a x 15 false) s fun t => t = s) ∧
    (s.glb.barReady = false → ∀ p, Completes (.registerWrite .pcie a x be p) s fun t => t = s)

/-- R6, R48: a read of the lowest word of a register of several words returns that word and latches the higher ones for its requester
alone; a read of a higher word returns the latched one and changes nothing else; a read of an RC counter returns its value and clears it.
Where the rules leave a reading open the clauses follow the model's own, log entry 85. -/
def Obligations.RegisterReadsLatchAndClear : Prop :=
  ∀ (q : Port) (a : BitVec 32) (key : RegKey) (w : Nat) (s : State),
    regAt (a.toNat / 4 * 4) = some (key, w) → blkOf a.toNat = some key.r.info.blk → s.readable q.req key.r = true →
    key.r ≠ .eoQe → key.r ≠ .eoTe →
    (w = 0 → 1 < key.r.info.words → key.r ≠ .tiuRes → key.r ≠ .ptTsf → key.r ≠ .drvMemData →
      (key.r.info.flds.any fun f => decide (f.acc = .rc)) = false →
      Completes (.multiwordReadLatch q a) s fun t =>
        t.resp.data = s.view q.req key % 2 ^ 32 ∧
        t.latchOf q.req key = s.view q.req key / 2 ^ 32 ∧
        (∀ c, c ≠ ⟨q.req, key⟩ → t.latches.get 0 c = s.latches.get 0 c) ∧ { t with latches := s.latches, resp := s.resp } = s) ∧
    (0 < w → Completes (.multiwordReadLatch q a) s fun t =>
      t.resp.data = s.latchOf q.req key / 2 ^ (32 * (w - 1)) % 2 ^ 32 ∧ { t with resp := s.resp } = s) ∧
    (w = 0 → key.r.info.words = 1 → key.r.info.flds = [⟨31, 0, .rc, 0, .any⟩] →
      Completes (.counterReadClear q a) s fun t =>
        t.resp.data = s.rget key % 2 ^ 32 ∧ t.rget key = s.rget key / 2 ^ 32 * 2 ^ 32 ∧
        (∀ c, c ≠ key → t.rget c = s.rget c) ∧ { t with regs := s.regs, resp := s.resp } = s)

/-- R29: BAR2 reads return the bytes of DRAM behind the aperture, or all ones while DRAM is unavailable; BAR2 writes store them, and no
other byte; in the firmware region they set FW_WR and store nothing; while DRAM is unavailable they are discarded. -/
def Obligations.Bar2Aperture : Prop :=
  ∀ (x : BitVec 30) (s : State), s.glb.barReady = true →
    let at_ (y : Nat) : Nat := s.fget F.dmaAperBase_BASE * 2 ^ 30 + y % 2 ^ 30
    (∀ n : Fin 4097, Completes (.bar2Read x n) s fun t =>
      t.resp.bytes.length = n.val ∧
      (∀ i, i < n.val → t.resp.bytes[i]? =
        some (if s.dramUnavail then 255 else (memRead dramUnl s.dram (at_ (x.toNat + i))).toNat)) ∧
      { t with resp := s.resp } = s) ∧
    (∀ bytes : List Byte, s.dramUnavail = true → Completes (.bar2Write x bytes false) s fun t =>
      t.dram = s.dram ∧ { t with regs := s.regs, cyc := s.cyc } = s ∧
      (at_ x.toNat + bytes.length ≤ fwRegion → x.toNat + bytes.length ≤ 2 ^ 30 → t = s)) ∧
    (∀ bytes : List Byte, s.dramUnavail = false → Memory.wf dramUnl s.dram = true → at_ x.toNat + bytes.length ≤ fwRegion →
      x.toNat + bytes.length ≤ 2 ^ 30 →
      Completes (.bar2Write x bytes false) s fun t =>
        (∀ i, i < bytes.length → some (memRead dramUnl t.dram (at_ x.toNat + i)) = bytes[i]?) ∧
        (∀ y, (y < at_ x.toNat ∨ at_ x.toNat + bytes.length ≤ y) → memRead dramUnl t.dram y = memRead dramUnl s.dram y) ∧
        { t with dram := s.dram } = s) ∧
    (∀ bytes : List Byte, bytes ≠ [] → fwRegion ≤ at_ x.toNat → x.toNat + bytes.length ≤ 2 ^ 30 →
      Completes (.bar2Write x bytes false) s fun t => t.fbit F.dmaAperBase_FW_WR = true ∧
        (∀ c, c ≠ ⟨.dmaAperBase, 0, 0, 0⟩ → t.rget c = s.rget c) ∧ { t with regs := s.regs, cyc := s.cyc } = s)

/-- R30, R32, R34, R470, R472: a pin reset, by RESET_N, by a main-rail POR or by the loss of the main rails, stops device time, returns
every register but the FLT and MON ones, GLB_STRAP and GLB_RST_CAUSE to its reset value, sets its cause bit, enters a record with the
cause, and leaves the ring of the black box as it is; DRAM contents are not kept. Where the rules leave a reading open the clauses follow
the model's own, log entries 3, 16, 18, 19. -/
def Obligations.PinResetClearsTheDevice : Prop :=
  ∀ (low : BitVec 10) (s : State), s.glb.level ≠ .aux →
    let cleared (cause : Nat) (t : State) : Prop :=
      t.time.run = false ∧ t.eo = {} ∧ t.dw.evq = [] ∧ t.drv = {} ∧ t.dram = [] ∧ t.flash = s.flash ∧ t.bbr.ring = s.bbr.ring ∧
      t.flt = s.flt ∧ t.staging = {} ∧ t.latches = {} ∧ t.pending = s.pending ∧
      bit (t.rget ⟨.glbRstCause, 0, 0, 0⟩) cause = true ∧
      (∀ c, c.r ≠ .glbRstCause → t.rget c = if c.r.info.blk = .flt ∨ c.r.info.blk = .mon ∨ c.r = .glbStrap then s.rget c else regReset c) ∧
      t.bbr.offers = s.bbr.offers ++ [{ source := 0x10 * 2048, code := 0x3001, arg0 := 2 ^ cause, arg1 := 0, ts := none, tick := s.glb.aonCycle }]
    (s.glb.pinLow = false → Completes .pinReset s fun t => cleared 2 t ∧ t.glb.pinLow = true) ∧
    (s.glb.por = false → low ≠ 0 → Completes (.mainRailPor low) s fun t => cleared 1 t ∧ t.glb.por = true ∧ t.glb.rails = low.toNat) ∧
    (s.glb.por = false → Completes .mainRailLoss s fun t => cleared 1 t ∧ t.glb.por = true ∧ t.glb.rails = 1023)

/-- R30, R472: VAUX_LOSS holds the device with VAUX down and AUX_POWER_ON returns every register to its reset value, GLB_RST_CAUSE among
them, with the black-box ring empty and its first record on offer; flash and host memory are not the device's to clear. Where the rules
leave a reading open the clauses follow the model's own, log entries 17, 18, 19. -/
def Obligations.AuxiliaryPowerOnClearsEverything : Prop :=
  ∀ s : State,
    (Completes .auxPowerOn s fun t =>
      (∀ c, t.rget c = regReset c) ∧ t.bbr.ring = State.reset.bbr.ring ∧ t.bbr.offers = State.reset.bbr.offers ∧ t.time.run = false ∧
      t.flt = {} ∧ t.drv = {} ∧ t.glb = {} ∧ t.flash = s.flash ∧ t.hostMem = s.hostMem ∧ bit (t.rget ⟨.glbRstCause, 0, 0, 0⟩) 0 = true) ∧
    (Completes .vauxLoss s fun t => t.glb.vaux = false ∧ (∀ c, t.rget c = regReset c) ∧ t.bbr = {} ∧ t.time.run = false ∧ t.flash = s.flash)

/-- R30, R32, R34, R53, R207, R318, R454: while no reset is in force the key 0xD5 starts a warm reset: device time stops and the AON
shadow takes over from it with the steering word; BAR access, firmware, limited mode and DRAM wait to start anew; every register returns
to its reset value but those of FLT, MON and BBR, GLB_STRAP, BW_RESTART_Y and GLB_RST_CAUSE, which takes its bit; the reset is entered in
the black box; time-valid, DRAM, flash, the Drover memories and the environment stay; the steering word becomes that of BW_RESTART_Y;
everything else is as after power-on. Another key only sets WR_ERR. Where the rules leave a reading open the clauses follow the model's
own, log entries 16, 19. -/
def Obligations.WarmResetKeepsDramAndAon : Prop :=
  ∀ (q : Port) (key : BitVec 8) (s : State), s.readable q.req .glbRstCtl = true →
    (key = 0xD5 →
      Completes (.warmReset q key) s fun t =>
        let y := (clampY48 (y48Of (s.fget F.bwRestartY_Y))).1
        (∀ c, c ≠ ⟨.glbRstCause, 0, 0, 0⟩ → t.rget c =
          if c.r.info.blk = .flt ∨ c.r.info.blk = .mon ∨ c.r.info.blk = .bbr ∨ c.r = .glbStrap ∨ c.r = .glbRstCause ∨ c.r = .bwRestartY then
            s.rget c else regReset c) ∧
        t.rget ⟨.glbRstCause, 0, 0, 0⟩ = s.rget ⟨.glbRstCause, 0, 0, 0⟩ ||| 8 ∧
        t.bbr = { s.bbr with offers := s.bbr.offers ++
          [{ source := 0x10 * 2048, code := 0x3001, arg0 := 8, arg1 := 0, ts := none, tick := s.glb.aonCycle }] } ∧
        t.glb = { s.glb with level := if s.glb.level = .none then .warm else s.glb.level
                             barReady := false, fwRun := false, limited := false, dramReady := false, dramFault := false } ∧
        t.time = { valid := s.time.valid, y := y
                   shadow := if s.time.run then s.time.now * 2 ^ 56 / 10 else s.time.shadow
                   shadowY := if s.time.run then s.time.y else s.time.shadowY
                   shadowCarry := if s.time.run then s.time.carry else s.time.shadowCarry
                   rcDuring := (!s.time.run && s.time.rcDuring) || s.glb.aonRc } ∧
        t.bw = { y := y } ∧
        t.host = { smbAddr := s.host.smbAddr, jtag := s.host.jtag, svnRaised := s.host.svnRaised } ∧
        (∀ d, t.getDrv d = { imem := (s.getDrv d).imem, dmem := (s.getDrv d).dmem }) ∧
        { State.reset with
          regs := t.regs, cyc := t.cyc, resp := s.resp, tickNo := s.tickNo, free := s.free, time := t.time, bw := t.bw, glb := t.glb
          dw := { evin := s.dw.evin, evpin := s.dw.evpin, ti := s.dw.ti, ppsin := s.dw.ppsin }
          bbr := t.bbr, flt := s.flt, host := t.host, drv := t.drv, msix := s.msix, hostMem := s.hostMem, flash := s.flash
          dram := s.dram, pending := s.pending } = t) ∧
    (key ≠ 0xD5 → Completes (.warmReset q key) s fun t => t.fbit F.glbErr_WR_ERR = true ∧
      (∀ c, c ≠ ⟨.glbErr, 0, 0, 0⟩ → t.rget c = s.rget c) ∧ { t with regs := s.regs, cyc := s.cyc } = s)

/-- R33, R135, R207, R265, R348, R404: a block reset returns the registers of its block alone to their reset values, clears what was
staged for them, and discards the block's work in flight; its bit of GLB_BLK_RST reads 1 until BLOCK_RESET_DONE. MEM makes DRAM
unavailable and keeps its contents; DRV stops every task and keeps the memories; SWPAD keeps the tables and counts the frames it discards;
CAL keeps the tables in force. Where the rules leave a reading open the clauses follow the model's own, log entries 15, 21, 84. -/
def Obligations.BlockResetsClearTheirBlock : Prop :=
  ∀ (q : Port) (s : State), s.readable q.req .glbBlkRst = true →
    let key : RegKey := ⟨.glbBlkRst, 0, 0, 0⟩
    let on (n : Nat) (t : State) : Prop := t.rget key = s.rget key ||| 2 ^ n ∧ t.host = { s.host with flrTick := none }
    let cleared (b : Blk) (t : State) : Prop :=
      (∀ c, c ≠ key → t.rget c = if c.r.info.blk = b then regReset c else s.rget c) ∧
      (∀ p c, t.stageOf p c = if c.r.info.blk = b then 0 else s.stageOf p c)
    (Completes (.blockResetMem q) s fun t => on 7 t ∧ t.dramUnavail = true ∧ t.glb = { s.glb with dramFault := false } ∧
      (∀ c, c ≠ key → t.rget c = s.rget c) ∧ { t with regs := s.regs, cyc := s.cyc, host := s.host, glb := s.glb } = s) ∧
    (Completes (.blockResetTas q) s fun t => on 5 t ∧ cleared .tas t ∧
      t.sw.frames = s.sw.frames.filter (fun f => decide (f.kind ≠ .launch)) ∧
      (∀ p, t.getSwPort p = { s.getSwPort p with gates := 255, oper := [], pend := none, tpl := none }) ∧
      { t.sw with frames := s.sw.frames, port := s.sw.port } = s.sw ∧
      { t with regs := s.regs, staging := s.staging, cyc := s.cyc, host := s.host, sw := s.sw } = s) ∧
    (Completes (.blockResetNt q) s fun t => on 4 t ∧ cleared .nt t ∧ t.nt.ses = {} ∧
      (∀ p, t.getNtPort p = { esmcTick := (s.getNtPort p).esmcTick, ph := (s.getNtPort p).ph, turn := (s.getNtPort p).turn
                              measured := (s.getNtPort p).measured, tsf := (s.getNtPort p).tsf }) ∧
      { t with regs := s.regs, staging := s.staging, cyc := s.cyc, host := s.host, nt := s.nt } = s) ∧
    (Completes (.blockResetTal q) s fun t => on 3 t ∧ cleared .tal t ∧ t.tal = { gen := s.tal.gen + 1 } ∧
      { t with regs := s.regs, staging := s.staging, cyc := s.cyc, host := s.host, tal := s.tal } = s) ∧
    (Completes (.blockResetDrv q) s fun t => on 1 t ∧ cleared .drv t ∧
      (∀ d, t.getDrv d = { imem := (s.getDrv d).imem, dmem := (s.getDrv d).dmem }) ∧
      { t with regs := s.regs, staging := s.staging, cyc := s.cyc, host := s.host, drv := s.drv } = s) ∧
    (Completes (.blockResetDw q) s fun t => on 0 t ∧ cleared .dw t ∧
      t.dw = { evin := s.dw.evin, evpin := s.dw.evpin, ti := s.dw.ti, ppsin := s.dw.ppsin
               inbox := s.dw.inbox.filter fun g => decide (g.due ≤ s.tickNo) } ∧
      { t with regs := s.regs, staging := s.staging, cyc := s.cyc, host := s.host, dw := s.dw } = s) ∧
    (Completes (.blockResetSwpad q) s fun t =>
      let tables : List Reg := [.swMac, .swVlan, .swStream]
      on 6 t ∧ t.sw.frames = [] ∧
      (∀ c, c ≠ key → c.r ≠ .padCntFlush → t.rget c =
        if (c.r.info.blk = .sw ∨ c.r.info.blk = .pad) ∧ c.r ∉ tables then regReset c else s.rget c) ∧
      (∀ p, p < 52 → t.rget ⟨.padCntFlush, p, 0, 0⟩ =
        min (s.sw.frames.map fun f => (f.copies.filter fun c => decide (c.port = p) && c.start.isNone).length).sum 0xFFFFFFFF) ∧
      (∀ p c, t.stageOf p c = if c.r.info.blk = .sw ∨ c.r.info.blk = .pad then 0 else s.stageOf p c) ∧
      (∀ p, (t.getSwPort p).rx = none ∧ (t.getSwPort p).tpl = none ∧ (t.getSwPort p).rerouted = false) ∧
      { t with regs := s.regs, staging := s.staging, cyc := s.cyc, host := s.host, sw := s.sw } = s) ∧
    (Completes (.blockResetCal q) s fun t => on 2 t ∧ t.cal.runs = [] ∧ t.cal.long = none ∧
      (∀ n, n < 64 → (t.getCalEo n).inForce = (s.getCalEo n).inForce ∧ (t.getCalEo n).trk = (s.getCalEo n).trk ∧
        (t.getCalEo n).hold = false) ∧
      (∀ c, c.r.info.blk = .cal → c.r ≠ .calEoTab → c.r ≠ .calTiuTab → t.rget c = regReset c) ∧
      (∀ c, c.r.info.blk ∉ [.cal, .mb, .dw, .dma] → c ≠ key → t.rget c = s.rget c) ∧
      t.time = s.time ∧ t.eo = s.eo ∧ t.drv = s.drv ∧ t.sw = s.sw ∧ t.dram = s.dram ∧ t.flash = s.flash) ∧
    (∀ b : Fin 8,
      (bit (s.rget key) b.val = true →
        Completes (.blockResetDone b) s fun t => bit (t.rget key) b.val = false ∧
          (∀ j, j ≠ b.val → bit (t.rget key) j = bit (s.rget key) j) ∧
          (∀ c, c ≠ key → t.rget c = s.rget c) ∧ { t with regs := s.regs, cyc := s.cyc } = s) ∧
      (bit (s.rget key) b.val = false → Completes (.blockResetDone b) s fun t => t = s))

/-- R30 to R32, R34, R44, R53, R135, R276, R290, R431, R471: releasing RESET_N samples the straps; the timebase starts at zero, or from
the AON shadow after a warm reset, and raises TB_SEC on a whole second; the shadow advances 10 ns scaled by the steering word with each
XO_IN cycle and stands still without XO_IN; BAR access opens; a function-level reset returns the DMA rings, the MSI-X state and the
doorbells, counts the Tally records that do not reach the host, and changes nothing else; it is absorbed by a broader reset. Where the
rules leave a reading open the clauses follow the model's own, log entries 11, 20, 23. -/
def Obligations.StartUpAndFunctionLevelReset : Prop :=
  ∀ (straps : BitVec 4) (s : State),
    (s.glb.pinLow = true → s.glb.vaux = true →
      Completes (.pinResetRelease straps) s fun t => t.rget ⟨.glbStrap, 0, 0, 0⟩ = straps.toNat ∧ t.glb = { s.glb with pinLow := false } ∧
        (∀ c, c ≠ ⟨.glbStrap, 0, 0, 0⟩ → t.rget c = s.rget c) ∧ { t with regs := s.regs, glb := s.glb } = s) ∧
    (s.glb.pinLow = false ∨ s.glb.vaux = false → Completes (.pinResetRelease straps) s fun t => t = s) ∧
    (s.rstHeld = false → s.time.run = false → s.glb.xo = true →
      Completes .timebaseReady s fun t =>
        let v := if s.glb.level = .warm then ctrOf (s.time.shadow * 10 / 2 ^ 56) else 0
        t.time = { s.time with
          run := true, a := ctrLoad (ctrInc v), b := ctrLoad (ctrInc v), pa := v, pb := v, now := ctrNs v, xoPh := ctrNs v % 10
          valid := decide (s.glb.level = .warm) && s.time.valid && !s.time.rcDuring, rcDuring := false } ∧
        t.tsyn = { src := .tsyn, locked := true, bpllLocked := true, everLocked := true } ∧
        t.glb = { s.glb with level := .none } ∧
        (ctrNs v % 1000000000 = 0 → t.raises Prod.tbSec (ofNs (ctrNs v)) 0 s.tickNo) ∧
        (ctrNs v % 1000000000 ≠ 0 → t.dw = s.dw) ∧
        { t with time := s.time, tsyn := s.tsyn, glb := s.glb, dw := s.dw } = s) ∧
    (s.time.run = false → s.glb.vaux = true →
      Completes .aonShadowAdvance s fun t =>
        let f := steerIncrement s.time.shadowY s.time.shadowCarry
        t.glb = { s.glb with aonCycle := s.glb.aonCycle + 1 } ∧ t.cyc = {} ∧
        t.time = (if s.glb.xo then
          { s.time with shadow := ((s.time.shadow : Int) + 2 ^ 56 + f.1).toNat, shadowCarry := f.2 } else s.time) ∧
        { t with glb := s.glb, time := s.time, cyc := s.cyc } = s) ∧
    (s.time.run = true ∨ s.glb.vaux = false → Completes .aonShadowAdvance s fun t => t = s) ∧
    (s.rstHeld = false → Completes .barAccessReady s fun t => t = { s with glb := { s.glb with barReady := true } }) ∧
    (s.rstHeld = true → Completes .barAccessReady s fun t => t = s) ∧
    (s.rstHeld = false → s.rget ⟨.glbBlkRst, 0, 0, 0⟩ = 0 →
      Completes .functionLevelReset s fun t =>
        let gone : List Reg := [.dmaRingCfg, .dmaRingStat, .dmaRingBase, .dmaRingSize, .dmaRingHead, .dmaRingTail, .dmaRingCntDrop,
          .dmaRingAux, .msixTable, .msixPba, .mbInt]
        let lost := (s.host.ring.cells.map fun c => c.2.talGot).sum
        let cause : RegKey := ⟨.glbRstCause, 0, 0, 0⟩
        let count : RegKey := ⟨.talCntLost, 0, 0, 0⟩
        (∀ c, c ≠ cause → c ≠ count → t.rget c = if c.r ∈ gone then regReset c else s.rget c) ∧
        t.rget cause = s.rget cause ||| 16 ∧
        t.rget count = (if lost = 0 then s.rget count else (s.rget count + lost) % 2 ^ 64) ∧
        t.host = { s.host with ring := {}, flrTick := some s.tickNo } ∧
        t.bbr = { s.bbr with offers := s.bbr.offers ++
          [{ source := 0x10 * 2048, code := 0x3001, arg0 := 16, arg1 := 0, ts := none, tick := s.glb.aonCycle }] } ∧
        { t with regs := s.regs, cyc := s.cyc, host := s.host, bbr := s.bbr } = s) ∧
    (s.rstHeld = true ∨ s.rget ⟨.glbBlkRst, 0, 0, 0⟩ ≠ 0 → Completes .functionLevelReset s fun t => t = s)

/-! ### Device time and the timebase (R52 to R58, R270 to R280) -/

/-- R52, R54: while both counters agree and pass their checks, a tick drives out their value as device time, keeps each counter's value
for the next check and advances both by 1 ns; a counter that fails its check against a good one is suspect and the good one drives device
time; two counters that differ and pass or fail alike are TIME_FAULT. A forced BPLL acts at that tick (R279). No tick passes while its
predecessor has work left (R183, R274). Where the rules leave a reading open the clauses follow the model's own, log entries 24, 86. -/
def Obligations.TickAdvancesDeviceTime : Prop :=
  ∀ (o : TickObs) (s : State), (s.tickReady = false → Completes (.tick o) s fun t => t = s) ∧ (s.tickReady = true → s.quietNext →
    s.time.suspA = false → s.time.suspB = false → s.time.reloadA = false → s.time.reloadB = false →
    s.time.faultOn = false → o.upA = 0 → o.upB = 0 → o.parA = false → o.parB = false →
    let okA := s.time.a.passes s.time.pa
    let okB := s.time.b.passes s.time.pb
    (s.time.a.val = s.time.b.val → okA = true → okB = true →
      Completes (.tick o) s fun t =>
        t.tickNo = s.tickNo + 1 ∧ t.time.now = ctrNs s.time.a.val ∧ t.time.pa = s.time.a.val ∧
        t.time.a.val = ctrInc s.time.a.val ∧ t.time.b.val = ctrInc s.time.a.val ∧ t.time.suspA = false ∧ t.time.suspB = false ∧
        (s.fbit F.synTsynCtl_FORCE_BPLL = true → s.tsyn.src = .tsyn → t.tsyn.src = .bpll)) ∧
    (s.time.a.val ≠ s.time.b.val → okA = false → okB = true →
      Completes (.tick o) s fun t => t.tickNo = s.tickNo + 1 ∧ t.time.now = ctrNs s.time.b.val ∧ t.time.suspA = true ∧ t.time.reloadA = true) ∧
    (s.time.a.val ≠ s.time.b.val → okA = true → okB = false →
      Completes (.tick o) s fun t => t.tickNo = s.tickNo + 1 ∧ t.time.now = ctrNs s.time.a.val ∧ t.time.suspB = true ∧ t.time.reloadB = true) ∧
    (s.time.a.val ≠ s.time.b.val → okA = okB →
      Completes (.tick o) s fun t => t.tickNo = s.tickNo + 1 ∧ t.time.faultOn = true ∧
        ∃ f ∈ t.flt.reports, f.detected = true ∧ f.cls = 2 ∧ f.code = 0x2202))

/-- R36, R43, R272, R275: a commit of TB_STEP or TB_SET with SWSTEP_EN requests its step, which waits its turn; with SWSTEP_EN 0 it sets
WR_ERR and requests nothing; a step that would leave T96 sets STEP_SAT; a commit of TB_NCO_SW is clamped and becomes the word to come
while software steers. Where the rules leave a reading open the clauses follow the model's own, log entry 29. -/
def Obligations.SoftwareStepAndSteeringCommits : Prop :=
  ∀ (q : Port) (s : State), s.readable q.req .tbStep = true →
    (∀ v : BitVec 64,
      let x : Int := (s.time.now * lsbPerNs : Nat) + 4 * v.toInt
      (s.fbit F.tbCtl_SWSTEP_EN = true → v.toInt ≠ 0 → 0 ≤ x → x < (2 ^ 48 * lsbPerSec : Nat) →
        Completes (.tbStepCommit q v) s fun t => t.time.reqs = s.time.reqs ++ [⟨.sw q.req, .by_ v.toInt, s.tickNo⟩] ∧
          t.rget ⟨.tbStep, 0, 0, 0⟩ = v.toNat ∧ t.time.now = s.time.now) ∧
      (s.fbit F.tbCtl_SWSTEP_EN = true → v.toInt = 0 →
        Completes (.tbStepCommit q v) s fun t => t.rget ⟨.tbStep, 0, 0, 0⟩ = 0 ∧ t.time = s.time) ∧
      (s.fbit F.tbCtl_SWSTEP_EN = true → v.toInt ≠ 0 → (x < 0 ∨ (2 ^ 48 * lsbPerSec : Nat) ≤ x) →
        Completes (.tbStepCommit q v) s fun t => t.fbit F.tbStat_STEP_SAT = true ∧ t.time = s.time) ∧
      (s.fbit F.tbCtl_SWSTEP_EN = false →
        Completes (.tbStepCommit q v) s fun t => t.fbit F.tbStat_WR_ERR = true ∧ t.time = s.time)) ∧
    (∀ v : BitVec 96,
      (s.fbit F.tbCtl_SWSTEP_EN = true → t96Ns v.toNat < 1000000000 →
        Completes (.tbSetCommit q v) s fun t =>
          t.time.reqs = s.time.reqs ++ [⟨.sw q.req, .to_ (v.toNat / 2 ^ 48 * lsbPerSec + v.toNat % 2 ^ 48), s.tickNo⟩] ∧
          t.rget ⟨.tbSet, 0, 0, 0⟩ = v.toNat) ∧
      ((s.fbit F.tbCtl_SWSTEP_EN = false ∨ 1000000000 ≤ t96Ns v.toNat) →
        Completes (.tbSetCommit q v) s fun t => t.fbit F.tbStat_WR_ERR = true ∧ t.time = s.time)) ∧
    (∀ v : BitVec 64,
      let y := y48Of v.toNat
      let c : Int := max (-500000000000) (min y 500000000000)
      s.outranksAny q.req .tbNcoSw = false → Completes (.tbNcoSwWrite q v) s fun t =>
        y48Of (t.rget ⟨.tbNcoSw, 0, 0, 0⟩) = c ∧ (c ≠ y → t.fbit F.tbStat_CLAMP = true) ∧
        t.time = if s.fbit F.tbCtl_NCO_SRC then { s.time with yNext := some c } else s.time)

/-- R53, R55, R273: at TIME_STEP_APPLY the oldest waiting request of an earlier tick moves device time by the whole nanoseconds of its
span, the rest below a nanosecond goes to the oscillator, time-valid becomes 1, STEP_SEQ counts, and TB_SEC is raised on a whole second
(R290); a step out of range sets STEP_SAT, one of 0 does nothing (R275); one step a tick; a request of the same tick waits. Where the
rules leave a reading open the clauses follow the model's own, log entries 25, 26. -/
def Obligations.TimeStepApplies : Prop :=
  ∀ (r : StepReq) (s : State), s.time.run = true →
    let sec (t : State) : Prop := t.time.now % 1000000000 = 0 → t.raises Prod.tbSec (ofNs t.time.now) 0 s.tickNo
    (s.time.stepTick ≠ some s.tickNo → stepPick s.tickNo s.time.reqs = some r →
      (∀ d : Int, r.ask = .by_ d → d ≠ 0 → ((s.time.now * lsbPerNs : Nat) + 4 * d < 0 ∨
        (2 ^ 48 * lsbPerSec : Nat) ≤ (s.time.now * lsbPerNs : Nat) + 4 * d) →
        Completes .timeStepApply s fun t => t.fbit F.tbStat_STEP_SAT = true ∧ t.time = { s.time with reqs := dropFirst r s.time.reqs }) ∧
      ((r.ask = .by_ 0 ∨ r.ask = .to_ (s.time.now * lsbPerNs)) →
        Completes .timeStepApply s fun t => t.time = { s.time with reqs := dropFirst r s.time.reqs }) ∧
      (∀ d : Int, r.ask = .by_ d → d ≠ 0 → 0 ≤ (s.time.now * lsbPerNs : Nat) + 4 * d →
        (s.time.now * lsbPerNs : Nat) + 4 * d < (2 ^ 48 * lsbPerSec : Nat) →
        Completes .timeStepApply s fun t =>
          t.time.now = ((s.time.now : Int) + (d + 32768) / 65536).toNat ∧ t.time.valid = true ∧
          t.time.stepSeq = (s.time.stepSeq + 1) % 16 ∧ t.time.stepTick = some s.tickNo ∧ t.time.reqs = dropFirst r s.time.reqs ∧
          t.time.subNs = s.time.subNs + (d - 65536 * ((d + 32768) / 65536)) ∧ sec t) ∧
      (∀ v : Instant, r.ask = .to_ v → v ≠ s.time.now * lsbPerNs →
        Completes .timeStepApply s fun t =>
          t.time.now = ((s.time.now : Int) + ((v : Int) - (s.time.now : Int) * 262144 + 131072) / 262144).toNat ∧ t.time.valid = true ∧
          t.time.stepSeq = (s.time.stepSeq + 1) % 16 ∧ t.time.reqs = dropFirst r s.time.reqs ∧ sec t)) ∧
    ((s.time.stepTick = some s.tickNo ∨ stepPick s.tickNo s.time.reqs = none) → Completes .timeStepApply s fun t => t = s) ∧
    (∀ x ∈ s.time.reqs, stepPick s.tickNo s.time.reqs = some r → r.tick < s.tickNo ∧ r ∈ s.time.reqs)

/-- R252, R277 to R279, R425: a declared unlock moves the timebase to BPLL with SWAP set, counted and reported as a masked fault; the
return conditions move it back; FORCE_BPLL is set by its write; losing XO_IN moves AON to its backup oscillator and sets XO_LOSS, its
return moves it back. Where the rules leave a reading open the clauses follow the model's own, log entries 5, 70, 98. -/
def Obligations.TimebaseSourceSwaps : Prop :=
  ∀ (q : Port) (data : BitVec 32) (s : State),
    (s.time.run = true → s.tsyn.src = .tsyn → s.tsyn.declared = true →
      Completes .tsynSwap s fun t =>
        t.tsyn.src = .bpll ∧ t.tsyn.declared = false ∧ t.deg = true ∧ t.fbit F.synTsynStat_SWAP = true ∧
        t.rget ⟨.synCntSwap, 0, 0, 0⟩ = min (s.rget ⟨.synCntSwap, 0, 0, 0⟩ + 1) 0xFFFFFFFF ∧
        (∃ f ∈ t.flt.reports, f.detected = false ∧ f.cls = 5 ∧ f.source = 0x02 * 2048 ∧ f.code = 0x1501) ∧ t.time = s.time) ∧
    (s.time.run = true → s.returnOk = true →
      Completes .tsynReturn s fun t => t.tsyn.src = .tsyn ∧ t.deg = false ∧ t.time = s.time) ∧
    (s.writable q.req .synTsynCtl = true →
      Completes (.forceBpll q data) s fun t => t.fbit F.synTsynCtl_FORCE_BPLL = true ∧
        t.fget F.synTsynCtl_RET_HOLD = bits data.toNat 15 8 ∧
        (∀ c, c ≠ ⟨.synTsynCtl, 0, 0, 0⟩ → t.rget c = s.rget c) ∧ { t with regs := s.regs, cyc := s.cyc } = s) ∧
    (s.glb.xo = true →
      Completes .xoLoss s fun t =>
        t.glb.xo = false ∧ t.glb.aonRc = true ∧ t.fbit F.synStat_XO_LOSS = true ∧
        (∃ f ∈ t.flt.reports, f.detected = true ∧ f.cls = 5 ∧ f.code = 0x2502)) ∧
    (s.glb.xo = true → Completes .xoReturn s fun t => t = s) ∧
    (s.glb.xo = false → Completes .xoReturn s fun t =>
      t.glb = { s.glb with xo := true, aonRc := false, xoLost := false } ∧ t.time.xoAge < 10 ∧
      (s.glb.xoLost = true → ∃ r ∈ t.bbr.offers, r.code = 0x0001 ∧ r.arg0 = 5 ∧ r.source = 0x02 * 2048) ∧
      { t with glb := s.glb, time := { t.time with xoAge := s.time.xoAge }, bbr := s.bbr, free := s.free } = s)

/-! ### The edge outputs (R59 to R107) -/

/-- R70 to R73, R83, R101: a commit of EO_QE offers its entry for the next tick and a commit of EO_TE checks and stores its template; a
group at EO_ARM arms the slot and one at EO_TRIG fires it, or is ignored and counted. Where the rules leave a reading open the clauses
follow the model's own, log entries 34, 48. -/
def Obligations.ActionsAreOffered : Prop :=
  ∀ (q : Port) (n : Fin 64) (v : BitVec 320) (s : State),
    let key (r : Reg) : RegKey := ⟨r, n.val, 0, 0⟩
    let c := s.getEo n.val
    let next (code : Nat) : QRes := ⟨((s.getQres q.req n.val).seq + 1) % 256, code⟩
    (s.writable q.req .eoQe = true →
      Completes (.eoQeCommit q n v) s fun t =>
        (∃ e, e % 2 ^ 320 = v.toNat ∧ t.getEo n.val = { c with offers := c.offers ++ [⟨.reg q.req, e, 0, s.tickNo + 1⟩] }) ∧
        t.getQres q.req n.val = next (s.getQres q.req n.val).code ∧
        (∀ m, m ≠ n.val → t.getEo m = s.getEo m) ∧ { t with eo := s.eo, qres := s.qres, staging := s.staging, cyc := s.cyc } = s) ∧
    (s.writable q.req .eoTe = true →
      (badArgStatic v.toNat = true →
        Completes (.eoTeCommit q n v) s fun t => t.getQres q.req n.val = next 4 ∧ t.fbit F.eoStat_WR_ERR n.val = true ∧ t.eo = s.eo) ∧
      (badArgStatic v.toNat = false → srcErrType (s.fget F.eoCtl_SRC n.val) (eType v.toNat) = true →
        Completes (.eoTeCommit q n v) s fun t => t.getQres q.req n.val = next 7 ∧ t.fbit F.eoStat_WR_ERR n.val = true ∧ t.eo = s.eo) ∧
      (badArgStatic v.toNat = false → srcErrType (s.fget F.eoCtl_SRC n.val) (eType v.toNat) = false →
        Completes (.eoTeCommit q n v) s fun t => t.getQres q.req n.val = next 0 ∧ (t.getEo n.val).slot % 2 ^ 320 = v.toNat ∧
          t.regs = s.regs ∧ (∀ m, m ≠ n.val → t.getEo m = s.getEo m))) ∧
    (s.time.run = true →
      (∀ g, findGroup (Con.eoArm n.val) 0 s.tickNo s.dw.inbox = some g →
        Completes (.eoArm n) s fun t =>
          t.fbit F.eoTrigCtl_ARMED n.val = true ∧ t.dw = { s.dw with inbox := dropGroup (Con.eoArm n.val) 0 s.tickNo s.dw.inbox } ∧
          (∀ x, x ≠ key .eoTrigCtl → t.rget x = s.rget x) ∧ { t with regs := s.regs, dw := s.dw, cyc := s.cyc } = s) ∧
      (∀ g, findGroup (Con.eoTrig n.val) 0 s.tickNo s.dw.inbox = some g →
        let fired (e : Stamp) : Offer := ⟨.slot, fireEntry c.slot e.ts, e.tag, s.tickNo + 2⟩
        let ready := s.fbit F.eoCtl_TRIG_EN n.val && s.fbit F.eoTrigCtl_ARMED n.val
        (ready = true → s.fbit F.eoTrigCtl_ONESHOT n.val = false →
          Completes (.eoTrig n) s fun t => t.getEo n.val = { c with offers := c.offers ++ g.evs.map fired } ∧ t.regs = s.regs ∧
            (∀ m, m ≠ n.val → t.getEo m = s.getEo m)) ∧
        (∀ e rest, ready = true → s.fbit F.eoTrigCtl_ONESHOT n.val = true → g.evs = e :: rest →
          Completes (.eoTrig n) s fun t => t.getEo n.val = { c with offers := c.offers ++ [fired e] } ∧
            t.fbit F.eoTrigCtl_ARMED n.val = false) ∧
        (ready = false → g.evs ≠ [] →
          Completes (.eoTrig n) s fun t => t.eo = s.eo ∧ t.fbit F.eoStat_TRIG_IGN n.val = true ∧
            t.rget (key .eoCntTrigIgn) = counted (s.rget (key .eoCntTrigIgn)) g.evs.length)))

/-- R65, R66, R70, R72, R73, R80, R81: of the offers due, the first in source order is judged, one a tick: each code in the order of R73;
an action on time enters the queue, a late one is dropped or moved under its policy, a CANCEL sets its cut; an accepted action takes a
generator in its turn, and at a cut's instant the queued actions after it go. Where the rules leave a reading open the clauses follow the
model's own, log entries 34, 35, 87, 88. -/
def Obligations.ActionsAreJudgedAndActivated : Prop :=
  ∀ (n : Fin 64) (s : State), s.time.run = true →
    let c := s.getEo n.val
    let key (r : Reg) : RegKey := ⟨r, n.val, 0, 0⟩
    (∀ o : Offer, (∀ d k, o.src ≠ .task d k) → pickOffer s.tickNo c.offers = some o → c.acceptTick ≠ some s.tickNo →
      let e := o.entry
      let bad := badArgStatic e || (decide (eType e = 3) && decide (eStart e % 2 ^ 18 ≠ 0))
      let start := (unpackT96 (eStart e)).getD 0
      let lim := (s.time.now + (if eType e = 3 then 64 else 24)) * lsbPerNs
      let a := s.actOfEntry n.val c.nextAct e o.tag start
      let told (code : Nat) (t : State) : Prop := ∀ q, t.getQres q n.val =
        if o.src = .reg q then { s.getQres q n.val with code := code } else s.getQres q n.val
      let refused (code : Nat) (t : State) : Prop := told code t ∧ t.fbit F.eoStat_REFUSED n.val = true ∧
        t.rget (key .eoCntRefuse) = counted (s.rget (key .eoCntRefuse)) 1 ∧ (t.getEo n.val).queue = c.queue ∧
        (t.getEo n.val).offers = c.offers.erase o ∧ (∀ m, m ≠ n.val → t.getEo m = s.getEo m) ∧ t.drv = s.drv ∧ t.time = s.time
      let good := s.eoCheck n.val e = (0, 0)
      (bad = true → Completes (.actionAccept n) s (refused 4)) ∧
      (bad = false → 1000000000 ≤ t96Ns (eStart e) → Completes (.actionAccept n) s (refused 5)) ∧
      (bad = false → t96Ns (eStart e) < 1000000000 →
        (s.fbit F.eoCtl_EN n.val = false ∨ s.fbit F.eoBankCtl_PWR (n.val / 8) = false ∨ c.stand ≠ .run) →
        Completes (.actionAccept n) s (refused 6)) ∧
      (good → eType e ≤ 3 → lim ≤ start → c.queue.length < 64 → (∀ k ∈ c.cuts, k.before ≤ c.nextAct) →
        Completes (.actionAccept n) s fun t =>
          a ∈ (t.getEo n.val).queue ∧ told 0 t ∧
          (t.getEo n.val).nextAct = c.nextAct + 1 ∧ (t.getEo n.val).offers = c.offers.erase o ∧
          (∀ m, m ≠ n.val → t.getEo m = s.getEo m) ∧ t.drv = s.drv ∧ t.time = s.time) ∧
      (good → eType e ≤ 3 → lim ≤ start → 64 ≤ c.queue.length → Completes (.actionAccept n) s (refused 3)) ∧
      (good → eType e ≤ 3 → start < lim → (eType e = 3 ∨ s.fbit F.eoCtl_LATE n.val = false) → o.tag + 1 ≤ s.fget F.dwCtl_GEN_LIMIT →
        Completes (.actionAccept n) s fun t =>
          refused 2 t ∧ t.fbit F.eoStat_LATE n.val = true ∧ t.raises (Prod.eoLate n.val) start (o.tag + 1) s.tickNo) ∧
      (good → eType e ≤ 1 → start < lim → s.fbit F.eoCtl_LATE n.val = true → c.queue.length < 64 → o.tag + 1 ≤ s.fget F.dwCtl_GEN_LIMIT →
        Completes (.actionAccept n) s fun t =>
          (∃ b ∈ (t.getEo n.val).queue, b.id = c.nextAct ∧ b.kind = a.kind ∧ b.start = lim ∧ b.first = lim ∧ b.late = true ∧ b.width = a.width ∧
            b.level = a.level) ∧
          told 1 t ∧ t.fbit F.eoStat_LATE n.val = true ∧
          t.raises (Prod.eoLate n.val) start (o.tag + 1) s.tickNo) ∧
      (good → eType e = 4 →
        Completes (.actionAccept n) s fun t =>
          (t.getEo n.val).cuts = c.cuts ++ [⟨max start ((s.time.now + 24) * lsbPerNs), c.nextAct⟩] ∧ (t.getEo n.val).queue = c.queue ∧
          told 0 t)) ∧
    (∀ a, s.activationDue n.val = some a →
      (activeCount c.queue < 4 →
        Completes (.actionActivate n) s fun t => t.getEo n.val = { c with queue := markActive a.id c.queue } ∧ { t with eo := s.eo } = s ∧
          (∀ m, m ≠ n.val → t.getEo m = s.getEo m)) ∧
      (4 ≤ activeCount c.queue →
        Completes (.actionActivate n) s fun t =>
          (t.getEo n.val).queue = (c.queue.filter fun b => !decide (b.id = a.id)) ∧ t.fbit F.eoStat_ACT_FULL n.val = true ∧
          t.rget (key .eoCntActFull) = counted (s.rget (key .eoCntActFull)) 1 ∧ EoFrame s t n.val)) ∧
    (∀ k, c.cuts.find? (fun x => decide (x.at_ ≤ s.time.now * lsbPerNs)) = some k →
      Completes (.cancelCut n) s fun t =>
        (t.getEo n.val).cuts = c.cuts.erase k ∧
        (∀ a ∈ (t.getEo n.val).queue, a.id < k.before → (a.active = true ∨ a.first < k.at_) ∧
          (a.kind = .train → ∃ l, a.limit = some l ∧ l ≤ guardOf k.at_)) ∧ EoFrame s t n.val)

/-- R65, R75 to R78, R89, R90: an entering transition to the level that stands is null, one within 250 ps of the last removes both,
another stays in the filter; the head is committed to its grid place, a third in a launch tick and the next one go; a launch sets the
level, counts and raises EO_ISS; an outcome is VERIFIED, DISPLACED or MISSING by the hit and the tolerance. Where the rules leave a
reading open the clauses follow the model's own, log entries 34, 90, 91. -/
def Obligations.TransitionsReachTheOutput : Prop :=
  ∀ (n : Fin 64) (s : State), s.time.run = true →
    let c := s.getEo n.val
    let key (r : Reg) : RegKey := ⟨r, n.val, 0, 0⟩
    (∀ x : Trans, earliestTrans (filterCands c) = some x → s.launchTick n.val x.target ≤ (s.time.now : Int) + 17 →
      (x.level = c.flevel →
        Completes (.transitionFilter n) s fun t =>
          (t.getEo n.val).filter = c.filter ∧ (t.getEo n.val).flevel = c.flevel ∧
          t.rget (key .eoCntNull) = counted (s.rget (key .eoCntNull)) 1 ∧ EoFrame s t n.val) ∧
      (∀ p, x.level ≠ c.flevel → c.filter.getLast? = some p → x.target < p.target + 65536 →
        Completes (.transitionFilter n) s fun t =>
          (t.getEo n.val).filter = c.filter.dropLast ∧ (t.getEo n.val).flevel = x.level ∧ t.fbit F.eoStat_RUNT n.val = true ∧
          t.rget (key .eoCntRunt) = counted (s.rget (key .eoCntRunt)) 1 ∧ EoFrame s t n.val) ∧
      (x.level ≠ c.flevel → (∀ p, c.filter.getLast? = some p → p.target + 65536 ≤ x.target) →
        Completes (.transitionFilter n) s fun t =>
          (t.getEo n.val).filter = c.filter ++ [x] ∧ (t.getEo n.val).flevel = x.level ∧ EoFrame s t n.val)) ∧
    (∀ x rest, c.filter = x :: rest →
      (((s.time.now : Int) + 16 < s.launchTick n.val x.target ∨ s.filterWaits n.val x = true) →
        Completes (.transitionCommit n) s fun t => t = s) ∧
      (s.launchTick n.val x.target ≤ (s.time.now : Int) + 16 → s.filterWaits n.val x = false →
        (c.dropNext = true →
          Completes (.transitionCommit n) s fun t =>
            (t.getEo n.val).filter = rest ∧ (t.getEo n.val).committed = c.committed ∧ (t.getEo n.val).dropNext = false) ∧
        (c.dropNext = false →
          let g := toGrid ((s.calRelease n.val).commitTable n.val x.target).1 x.target
          (loadAt c.tickLoad g.tick < 2 →
            Completes (.transitionCommit n) s fun t =>
              (t.getEo n.val).filter = rest ∧ (t.getEo n.val).committed = c.committed ++ [⟨x, g.tick, g.tap, g.code, g.res⟩] ∧
              (∀ m, m ≠ n.val → t.getEo m = s.getEo m)) ∧
          (2 ≤ loadAt c.tickLoad g.tick →
            Completes (.transitionCommit n) s fun t =>
              (t.getEo n.val).filter = rest ∧ (t.getEo n.val).committed = c.committed ∧ (t.getEo n.val).dropNext = true ∧
              t.fbit F.eoStat_RATE n.val = true ∧ t.rget (key .eoCntRate) = counted (s.rget (key .eoCntRate)) 1)))) ∧
    (∀ l rest, c.committed = l :: rest → l.tick ≤ (s.time.now : Int) → l.tr.tag ≤ s.fget F.dwCtl_GEN_LIMIT →
      Completes (.transitionLaunch n) s fun t =>
        (t.getEo n.val).level = l.tr.level ∧ (t.getEo n.val).committed = rest ∧ (t.getEo n.val).lastTarget = some l.tr.target ∧ (t.getEo n.val).lastTag = l.tr.tag ∧
        t.rget (key .eoCntIss) = (s.rget (key .eoCntIss) + 1) % 2 ^ 64 ∧ t.raises (Prod.eoIss n.val) l.tr.target l.tr.tag s.tickNo ∧
        (s.deg = true → t.fbit F.eoStat_DEGRADED n.val = true) ∧ (t.getEo n.val).queue = c.queue ∧
        (∀ m, m ≠ n.val → t.getEo m = s.getEo m) ∧ s.regsWithin t [.eo, .dw, .tiu] ∧ t.time = s.time ∧ t.drv = s.drv ∧ t.cal = s.cal) ∧
    (∀ w, c.wins.find? (winReady s.tickNo) = some w → w.tag ≤ s.fget F.dwCtl_GEN_LIMIT →
      (∀ m, w.hit = some m →
        let err : Int := (spanBetween m w.target).val
        (err.natAbs * 1000000 ≤ s.verifyTol n.val * 65536 →
          Completes (.edgeVerify n) s fun t =>
            t.rget (key .eoCntVer) = counted (s.rget (key .eoCntVer)) 1 ∧ t.raises (Prod.eoVer n.val) m w.tag s.tickNo ∧ t.flt = s.flt) ∧
        (s.verifyTol n.val * 65536 < err.natAbs * 1000000 →
          Completes (.edgeVerify n) s fun t =>
            t.rget (key .eoCntDisp) = counted (s.rget (key .eoCntDisp)) 1 ∧ t.fbit F.eoStat_DISPLACED n.val = true ∧
            t.raises (Prod.eoErr n.val) m w.tag s.tickNo ∧ (∃ f ∈ t.flt.reports, f.code = 0x2401 ∧ f.arg0 = n.val ∧ f.detected = true))) ∧
      (w.hit = none →
        Completes (.edgeVerify n) s fun t =>
          t.rget (key .eoCntMiss) = counted (s.rget (key .eoCntMiss)) 1 ∧ t.fbit F.eoStat_MISSING n.val = true ∧
          t.raises (Prod.eoErr n.val) w.target w.tag s.tickNo ∧ (∃ f ∈ t.flt.reports, f.code = 0x2402 ∧ f.arg0 = n.val ∧ f.detected = true)))

/-- R67, R69, R84, R86, R92: EN rising starts the channel at IDLE, falling drops its work and leaves it at IDLE; a bank down refuses and
drops, a bank up holds its channels at IDLE until it is done; a fault reaction quiets or freezes the channel; a PROF starts at its anchor
with its own start values, or with those of the profile it continues; a segment used up loads the next or ends the profile. Where the
rules leave a reading open the clauses follow the model's own, log entries 34, 94, 95. -/
def Obligations.ChannelsBanksAndProfiles : Prop :=
  ∀ (q : Port) (n : Fin 64) (b : Fin 8) (data : BitVec 32) (s : State),
    let c := s.getEo n.val
    let idle := s.fbit F.eoCtl_IDLE n.val
    (s.writable q.req .eoCtl = true →
      (s.fbit F.eoCtl_EN n.val = false → s.glb.limited = false →
        Completes (.eoEnable q n data) s fun t =>
          t.fbit F.eoCtl_EN n.val = true ∧ t.fbit F.eoCtl_IDLE n.val = bit data.toNat 2 ∧ (t.getEo n.val).level = bit data.toNat 2 ∧
          (t.getEo n.val).stand = .run ∧ (t.getEo n.val).lastTag = 0 ∧ (∀ m, m ≠ n.val → t.getEo m = s.getEo m) ∧ t.time = s.time) ∧
      (s.fbit F.eoCtl_EN n.val = true → s.bankOn n.val = true →
        Completes (.eoDisable q n data) s fun t =>
          t.fbit F.eoCtl_EN n.val = false ∧ (t.getEo n.val).queue = [] ∧ (t.getEo n.val).filter = [] ∧ (t.getEo n.val).engine = none ∧
          (c.level = idle → (t.getEo n.val).committed = []) ∧
          (c.level ≠ idle → ∃ l, (t.getEo n.val).committed = [l] ∧ l.tr.level = idle ∧ l.tr.tag = 0) ∧
          (∀ m, m ≠ n.val → t.getEo m = s.getEo m) ∧ t.time = s.time)) ∧
    (s.writable q.req .eoBankCtl = true →
      (s.fbit F.eoBankCtl_PWR b.val = true →
        Completes (.bankPowerDown q b) s fun t => t.fbit F.eoBankCtl_PWR b.val = false ∧
          (∀ m, m / 8 = b.val → (t.getEo m).queue = [] ∧ (t.getEo m).filter = [] ∧ (t.getEo m).committed = [] ∧
            (t.getEo m).level = s.fbit F.eoCtl_IDLE m ∧ (t.getEo m).wins = []) ∧ (∀ m, m / 8 ≠ b.val → t.getEo m = s.getEo m)) ∧
      (s.fbit F.eoBankCtl_PWR b.val = false →
        Completes (.bankPowerUp q b) s fun t => t.fbit F.eoBankCtl_PWR b.val = true ∧
          (∀ m, m / 8 = b.val → t.getEo m = { s.getEo m with level := s.fbit F.eoCtl_IDLE m, flevel := s.fbit F.eoCtl_IDLE m, poweringUp := true }) ∧
          (∀ m, m / 8 ≠ b.val → t.getEo m = s.getEo m))) ∧
    (s.time.run = true →
      (Completes (.bankPowerUpDone b) s fun t =>
        (∀ m, m / 8 = b.val → t.getEo m = { s.getEo m with poweringUp := false }) ∧ (∀ m, m / 8 ≠ b.val → t.getEo m = s.getEo m) ∧
        { t with eo := s.eo } = s) ∧
      (∀ r, s.flt.reacts[c.reactSeen]? = some r → (r = none ∨ r = some (s.fget F.eoCtl_FLOCK n.val)) →
        let react := s.fget F.dwFlCtl_REACT (s.fget F.eoCtl_FLOCK n.val)
        (react = 1 → s.fbit F.eoCtl_EN n.val = true → s.bankOn n.val = true →
          Completes (.eoFaultReaction n) s fun t =>
            (t.getEo n.val).stand = .quiet ∧ (t.getEo n.val).queue = [] ∧ (t.getEo n.val).filter = [] ∧
            (c.level = idle → (t.getEo n.val).committed = [] ∧ EoFrame s t n.val) ∧
            (c.level ≠ idle → (∃ l, (t.getEo n.val).committed = [l] ∧ l.tr.level = idle) ∧ EoFrame (s.calRelease n.val) t n.val)) ∧
        (react = 2 →
          Completes (.eoFaultReaction n) s fun t =>
            (t.getEo n.val).stand = .freeze ∧ (t.getEo n.val).queue = [] ∧ (t.getEo n.val).filter = [] ∧
            (t.getEo n.val).committed = c.committed ∧ (t.getEo n.val).level = c.level ∧ EoFrame s t n.val) ∧
        (react = 0 → Completes (.eoFaultReaction n) s fun t => t.getEo n.val = { c with reactSeen := c.reactSeen + 1 } ∧ EoFrame s t n.val)) ∧
      (∀ a cap, c.queue.find? (fun x => !x.active && decide (x.kind = .prof) && decide (nsOf x.start ≤ s.time.now + 24) && !cutOff c.cuts x) = some a →
        a.prof = some cap →
        let free := (c.queue.filter fun x => x.active && !decide (x.kind = .prof)).length < 4
        (c.engine = none → cap.cont = false → free →
          Completes (.profStart n) s fun t =>
            ∃ e, (t.getEo n.val).engine = some e ∧ e.act = a.id ∧ e.x = cap.x0 ∧ e.v = cap.v0 ∧ e.tick = nsOf a.start ∧ e.segs = cap.segs ∧
              e.cap = cap) ∧
        (∀ e0 e1, c.engine = some e0 → e0.act ≠ a.id → cap.cont = true → engineAtTick c.cuts e0 (nsOf a.start) = some e1 → free →
          Completes (.profStart n) s fun t =>
            ∃ e, (t.getEo n.val).engine = some e ∧ e.act = a.id ∧ e.x = e1.x ∧ e.v = e1.v ∧ e.tick = nsOf a.start ∧ e.segs = cap.segs) ∧
        (c.engine = none → cap.cont = true →
          Completes (.profStart n) s fun t => (t.getEo n.val).engine = none ∧ (t.getEo n.val).perr = 5 ∧ t.fbit F.eoStat_PROF_ERR n.val = true ∧
            (∀ x ∈ (t.getEo n.val).queue, x.id ≠ a.id) ∧ EoFrame s t n.val)) ∧
      (∀ e, c.engine = some e → e.left = 0 → e.ended = false →
        (∀ g rest, e.segs = g :: rest → g.dur ≠ 0 →
          Completes (.profileSegmentEnd n) s fun t =>
            t.getEo n.val = { c with engine := some { e with h := g.h, left := g.dur, segs := rest } } ∧ EoFrame s t n.val) ∧
        (e.segs = [] → e.cap.halt = false →
          Completes (.profileSegmentEnd n) s fun t =>
            t.getEo n.val = { c with engine := some { e with h := 0 } } ∧ EoFrame s t n.val) ∧
        (e.segs = [] → e.cap.halt = true →
          Completes (.profileSegmentEnd n) s fun t => (t.getEo n.val).engine = none ∧ EoFrame s t n.val)))

/-! ### Time-interval units and Tally (R108 to R148) -/

/-- R108 to R111, R113, R117 to R123, R128, R129: a hit far enough from the last is captured, counted and announced, a nearer one counts
as CLOSE in every unit that selects it, one on a held unit is not taken and ends an input unit's hold; once its timestamp is formed, and
no earlier hit is on its way, it completes a timestamp record or a pair; a pending half overflows after 2^24 ticks and times out at its
expiry; an event is a half where TIU_SEL says so. Where the rules leave a reading open the clauses follow the model's own, log entry 37.
-/
def Obligations.TiuHitsBecomeRecords : Prop :=
  ∀ (u : Fin 96) (s : State), s.time.run = true →
    let c := s.getTiu u.val
    let key (r : Reg) : RegKey := ⟨r, u.val, 0, 0⟩
    let pos (code : Fin 1024) : Nat := s.tickNo * 1024 + code.val
    let room := c.fifo.length + c.reserved < 64
    let last (t : State) : Option Rec := (t.getTiu u.val).fifo.getLast?.map FifoRec.rcd
    let unexpired (ts : Instant) : Prop := ∀ x, s.tiuExpiry u.val = some x → ts < x
    (∀ (code : Fin 1024) (rising : Bool), s.ownSelects u.val rising = true → s.tiuMode u.val ≠ 3 →
      (32 ≤ u.val → (s.getEo (u.val - 32)).poweringUp = false ∧ s.bankOn (u.val - 32) = true) →
      (c.calHeld = false → (∀ p, c.lastHit = some p → p + 6144 ≤ pos code) →
        Completes (.tiuHitCapture u code rising) s fun t =>
          t.getTiu u.val = { c with
            seen := some s.tickNo, lastHit := some (pos code)
            flight := c.flight ++ [⟨s.time.now, s.tickNo, code.val, rising, true, s.hitTag u.val, none, s.time.valid, s.deg⟩] } ∧
          t.rget (key .tiuCntHit) = (s.rget (key .tiuCntHit) + 1) % 2 ^ 64 ∧
          t.raises (Prod.tiuRaw u.val) (s.time.now * lsbPerNs) (s.hitTag u.val) (s.tickNo + 2) ∧ (∀ w, w ≠ u.val → t.getTiu w = s.getTiu w) ∧
          t.eo = s.eo ∧ t.time = s.time) ∧
      (∀ p, c.calHeld = false → c.lastHit = some p → pos code < p + 6144 →
        Completes (.tiuHitCapture u code rising) s fun t =>
          (t.getTiu u.val).flight = c.flight ∧ t.rget (key .tiuCntClose) = counted (s.rget (key .tiuCntClose)) 1 ∧
          t.fbit F.tiuStat_CLOSE u.val = true ∧ (s.tickNo, code.val) ∈ (t.getTiu u.val).closeLost ∧
          (∀ w ∈ s.stopTakers u.val rising, t.fbit F.tiuStat_CLOSE w = true) ∧ t.dw = s.dw ∧ t.eo = s.eo) ∧
      (c.calHeld = true →
        Completes (.tiuHitCapture u code rising) s fun t =>
          (t.getTiu u.val).flight = c.flight ∧ t.rget (key .tiuCntCalhold) = counted (s.rget (key .tiuCntCalhold)) 1 ∧
          (t.getTiu u.val).calHeld = decide (32 ≤ u.val) ∧ t.dw = s.dw)) ∧
    (∀ (arb : Bool) f rest, c.flight = f :: rest → f.tick + 28 ≤ s.tickNo → f.own = true → f.tag ≤ s.fget F.dwCtl_GEN_LIMIT → room →
      let ts := s.stampOf u.val f.tk f.code
      c.ins = [] → (∀ g ∈ rest, g.own = true → ts ≤ s.stampOf u.val g.tk g.code) → unexpired ts → s.armAdmits u.val ts = true →
      (s.tiuMode u.val = 1 → c.half = none →
        Completes (.tiuRecordComplete u arb) s fun t =>
          (∃ r, last t = some r ∧ r.time = ts ∧ r.value = 0 ∧ r.src = u.val ∧ r.aux = f.code ∧ r.seq = c.seq) ∧
          (t.getTiu u.val).flight = rest ∧ t.raises (Prod.tiuHit u.val) ts f.tag s.tickNo ∧ t.eo = s.eo ∧ t.time = s.time) ∧
      (∀ p, s.tiuMode u.val = 2 → c.half = some p → p.isStart = true → f.tick < p.tick + 2 ^ 24 → s.fget F.tiuSel_STOP_SRC u.val = 0 →
        senseOk (s.fget F.tiuSel_STOP_EDGES u.val) f.rising = true → (s.fbit F.tiuSel_STOP_AFTER u.val = true → p.ts ≤ ts) →
        Completes (.tiuRecordComplete u arb) s fun t =>
          (∃ r, last t = some r ∧ r.time = p.ts ∧ r.value = (spanBetween ts p.ts).val ∧ r.src = u.val ∧ r.seq = c.seq) ∧
          ((spanBetween ts p.ts).val < 0 → t.fbit F.tiuStat_REVERSED u.val = true) ∧ (t.getTiu u.val).flight = rest)) ∧
    (∀ h, c.half = some h → h.tick + 2 ^ 24 ≤ s.tickNo → (∀ x, s.tiuExpiry u.val = some x → h.ts + 2 ^ 24 * lsbPerNs ≤ x) →
      (∀ f ∈ s.hitsAhead u.val, h.tick + 2 ^ 24 ≤ f.2) → room →
      Completes (.tiuOverflow u) s fun t =>
        (∃ r, last t = some r ∧ r.time = h.ts ∧ r.value = (if h.isStart then 2 ^ 40 - 1 else -(2 ^ 40 - 1))) ∧ (t.getTiu u.val).half = none ∧
        t.fbit F.tiuStat_OVF u.val = true ∧ t.rget (key .tiuCntOvf) = counted (s.rget (key .tiuCntOvf)) 1 ∧ t.eo = s.eo) ∧
    (∀ e, s.tiuExpiry u.val = some e → e ≤ s.time.now * lsbPerNs → s.flightBefore u.val e = false →
      (∀ h, c.half = some h → s.tickNo < h.tick + 2 ^ 24 ∨ e < h.ts + 2 ^ 24 * lsbPerNs) → room →
      Completes (.tiuTimeout u) s fun t =>
        (∃ r, last t = some r ∧ r.value = 0 ∧ r.time = ((c.half.map Half.ts).getD ((c.gate.map Gate.opened).getD e))) ∧
        (t.getTiu u.val).half = none ∧ (t.getTiu u.val).gate = none ∧ (s.tiuCont u.val = false → (t.getTiu u.val).arm = none) ∧
        t.fbit F.tiuStat_TIMEOUT u.val = true ∧ t.rget (key .tiuCntTmo) = counted (s.rget (key .tiuCntTmo)) 1) ∧
    (∀ g e, g.evs = [e] → s.tiuMode u.val = 2 → c.ins = [] → s.flightBefore u.val e.ts = false → unexpired e.ts →
      s.armAdmits u.val e.ts = true →
      (findGroup (Con.tiuStart u.val) 0 s.tickNo s.dw.inbox = some g → s.fget F.tiuSel_START_SRC u.val = 1 → c.half = none →
        Completes (.tiuStart u) s fun t =>
          (∃ h, (t.getTiu u.val).half = some h ∧ h.isStart = true ∧ h.ts = e.ts ∧ h.event = true ∧ h.tag = e.tag) ∧ t.regs = s.regs ∧ t.eo = s.eo ∧
          t.dw = { s.dw with inbox := dropGroup (Con.tiuStart u.val) 0 s.tickNo s.dw.inbox }) ∧
      (∀ p, findGroup (Con.tiuStop u.val) 0 s.tickNo s.dw.inbox = some g → s.fget F.tiuSel_STOP_SRC u.val = 2 → c.half = some p → p.isStart = true →
        s.tickOf e.ts < p.tick + 2 ^ 24 → (s.fbit F.tiuSel_STOP_AFTER u.val = true → p.ts ≤ e.ts) → room →
        Completes (.tiuStop u) s fun t =>
          (∃ r, last t = some r ∧ r.time = p.ts ∧ r.value = (spanBetween e.ts p.ts).val) ∧ (t.getTiu u.val).half = none ∧ t.eo = s.eo))

/-- R114 to R116, R122, R127, R143: an arm event or write arms with the COUNT of TIU_ARM from its instant on and an arm of 0 records
disarms; an arm of a later instant waits for it; a disarm or a change of mode ends the arm and drops a pending half or gate; the FIFO
drains one record in 12.5 ns to Tally and the readout queue, and a read of TIU_RES takes the queue's head, or the empty record. Where the
rules leave a reading open the clauses follow the model's own, log entry 37. -/
def Obligations.TiuArmsAndReadout : Prop :=
  ∀ (q : Port) (u : Fin 96) (data : BitVec 32) (s : State),
    let c := s.getTiu u.val
    let now : Instant := s.time.now * lsbPerNs
    let count := s.fget F.tiuArm_COUNT u.val
    let ready (ta : Instant) : Prop := c.ins = [] ∧ (s.tiuMode u.val = 3 ∨ s.flightBefore u.val ta = false) ∧
      (∀ x, s.tiuExpiry u.val = some x → ta < x) ∧ (∀ h, c.half = some h → s.tickNo < h.tick + 2 ^ 24)
    let unseen (ta : Instant) : Prop := (∀ y ∈ c.missed, y.ts < ta) ∧ (∀ e ∈ c.edges, s.stampOf u.val e.2.1 e.2.2 < ta)
    let ends (t : State) : Prop :=
      (t.getTiu u.val).arm = none ∧ (t.getTiu u.val).half = none ∧ (t.getTiu u.val).gate = none ∧ (t.getTiu u.val).fifo = c.fifo ∧
      (∀ w, w ≠ u.val → t.getTiu w = s.getTiu w) ∧ s.regsWithin t [.tiu]
    (s.armIgnored u.val = false →
      (s.writable q.req .tiuArm = true → bit data.toNat 30 = false → c.arm = none → ready now → unseen now →
        (bits data.toNat 23 0 ≠ 0 →
          Completes (.tiuArm u (some (q, data))) s fun t =>
            (t.getTiu u.val).arm = some ⟨now, bits data.toNat 23 0, 0, s.tmoFrom u.val now⟩ ∧
            t.fget F.tiuArm_COUNT u.val = bits data.toNat 23 0 ∧ (∀ w, w ≠ u.val → t.getTiu w = s.getTiu w) ∧ s.regsWithin t [.tiu]) ∧
        (bits data.toNat 23 0 = 0 → Completes (.tiuArm u (some (q, data))) s fun t => ∀ w, t.getTiu w = s.getTiu w)) ∧
      (s.time.run = true → ∀ g e, findGroup (Con.tiuArm u.val) 0 s.tickNo s.dw.inbox = some g → g.evs = [e] →
        (c.arm = none → 0 < count → now ≤ e.ts + 32 * lsbPerNs → e.ts ≤ now → ready e.ts → unseen e.ts →
          Completes (.tiuArm u none) s fun t =>
            (t.getTiu u.val).arm = some ⟨e.ts, count, e.tag, s.tmoFrom u.val e.ts⟩ ∧ t.regs = s.regs ∧ t.eo = s.eo) ∧
        (now < e.ts → c.ins = [] →
          Completes (.tiuArm u none) s fun t =>
            t.getTiu u.val = { c with ins := [⟨e.ts, s.tickNo, e.tag, .arm count e.ts⟩] } ∧ t.regs = s.regs ∧ t.eo = s.eo) ∧
        (c.arm = none → 0 < count → e.ts + 32 * lsbPerNs < now → ready now → unseen now →
          Completes (.tiuArm u none) s fun t =>
            (t.getTiu u.val).arm = some ⟨now, count, e.tag, s.tmoFrom u.val e.ts⟩ ∧ t.fbit F.tiuStat_ARM_LATE u.val = true) ∧
        (c.arm ≠ none → count = 0 → e.ts ≤ now → ready (s.armFrom e.ts).1 → Completes (.tiuArm u none) s ends)) ∧
      (s.writable q.req .tiuArm = true → bit data.toNat 31 = false → ready now → (c.arm = none → c.half = none ∧ c.gate = none) →
        Completes (.tiuDisarm q u data) s ends)) ∧
    (s.writable q.req .tiuArm = true → bit data.toNat 31 = true →
      Completes (.tiuDisarm q u data) s fun t => t.fbit F.tiuStat_WR_ERR u.val = true ∧ t.tiu = s.tiu) ∧
    (s.writable q.req .tiuCtl = true → bits data.toNat 2 0 ≤ 4 → bits data.toNat 5 4 ≤ 2 → ¬ (u.val < 32 ∧ bits data.toNat 2 0 = 4) →
      bits data.toNat 5 0 ≠ bits (s.rget ⟨.tiuCtl, u.val, 0, 0⟩) 5 0 →
      Completes (.tiuCtlWrite q u data) s fun t =>
        ends t ∧ t.fget F.tiuCtl_MODE u.val = bits data.toNat 2 0 ∧ t.fbit F.tiuCtl_CONT u.val = bit data.toNat 3 ∧
        t.fget F.tiuCtl_EDGES u.val = bits data.toNat 5 4) ∧
    (s.writable q.req .tiuCtl = true → u.val < 32 → bits data.toNat 2 0 = 4 → s.fget F.tiuCtl_MODE u.val ≠ 4 →
      Completes (.tiuCtlWrite q u data) s fun t => t.fget F.tiuCtl_MODE u.val = s.fget F.tiuCtl_MODE u.val ∧ t.fbit F.tiuStat_WR_ERR u.val = true) ∧
    (s.time.run = true → ∀ r rest, c.fifo = r :: rest → c.nextDrain ≤ 2 * s.tickNo →
      let tally := match r.eo with
        | some n => s.fbit F.eoCtl_TALLY n
        | none => s.fbit F.tiuCtl_TALLY u.val
      let others (t : State) : Prop := ∀ x : RegKey, x.r.info.blk ≠ .tal → t.rget x = s.rget x
      Completes (.tiuFifoDrain u) s fun t =>
        (t.getTiu u.val).fifo = rest ∧ c.nextDrain + 25 ≤ (t.getTiu u.val).nextDrain ∧
        (tally = true → s.talActive = true → s.fget F.talSize_SIZE ≠ 0 →
          t.tal = { s.tal with offers := s.tal.offers ++ [⟨r.rcd, s.tickNo⟩] } ∧
          t.rget ⟨.talCntIn, 0, 0, 0⟩ = (s.rget ⟨.talCntIn, 0, 0, 0⟩ + 1) % 2 ^ 64) ∧
        ((tally = false ∨ s.fbit F.talCtl_EN = false) → t.tal = s.tal) ∧
        (s.fbit F.tiuCtl_RDQ u.val = false → (t.getTiu u.val).rdq = c.rdq ∧ others t) ∧
        (s.fbit F.tiuCtl_RDQ u.val = true → c.rdq.length < 16 → (t.getTiu u.val).rdq = c.rdq ++ [r.rcd] ∧ others t) ∧
        (s.fbit F.tiuCtl_RDQ u.val = true → 16 ≤ c.rdq.length → (t.getTiu u.val).rdq = c.rdq ∧ t.fbit F.tiuStat_RDQ_OVF u.val = true) ∧
        (∀ w, w ≠ u.val → t.getTiu w = s.getTiu w)) ∧
    (s.readable q.req .tiuRes = true →
      (∀ r rest, c.rdq = r :: rest →
        Completes (.tiuResRead q u) s fun t =>
          t.getTiu u.val = { c with rdq := rest } ∧ t.resp.data = r.pack % 2 ^ 32 ∧ t.latchOf q.req ⟨.tiuRes, u.val, 0, 0⟩ = r.pack / 2 ^ 32 ∧
          t.regs = s.regs) ∧
      (c.rdq = [] →
        Completes (.tiuResRead q u) s fun t =>
          t.tiu = s.tiu ∧ t.resp.data = 0 ∧ t.latchOf q.req ⟨.tiuRes, u.val, 0, 0⟩ = 0xC000 * 2 ^ 128))

/-- R130 to R134: Tally takes the next offered record into its buffer, counts one it cannot keep, writes the oldest at WPTR and wraps or
fills; the first trigger is recorded and reserves PRE records; it freezes when both conditions hold; EN rising clears and marks the start
if the ring fits, EN falling drains. -/
def Obligations.TallyTakesWritesAndFreezes : Prop :=
  ∀ (q : Port) (data : BitVec 32) (s : State),
    let key (r : Reg) : RegKey := ⟨r, 0, 0, 0⟩
    let size := s.fget F.talSize_SIZE
    (s.time.run = true →
      (∀ o, pickTal s.tal.offers = some o → s.tal.takenTick ≠ s.tickNo →
        (s.talActive = true → 0 < size → s.dramUnavail = false → s.fbit F.glbBlkRst_TAL = false → s.tal.lost = 0 → s.tal.marks = [] →
          s.tal.buf.length < 8192 →
          Completes .tallyRecordIn s fun t =>
            t.tal = { s.tal with offers := s.tal.offers.erase o, takenTick := s.tickNo, takenCnt := 1, buf := s.tal.buf ++ [⟨o.rcd, false⟩] } ∧
            { t with tal := s.tal } = s) ∧
        ((s.talActive = false ∨ size = 0) →
          Completes .tallyRecordIn s fun t =>
            t.tal.buf = s.tal.buf ∧ t.rget (key .talCntDisc) = (s.rget (key .talCntDisc) + 1) % 2 ^ 64) ∧
        (s.talActive = true → 0 < size → s.dramUnavail = true →
          Completes .tallyRecordIn s fun t =>
            t.tal.buf = s.tal.buf ∧ t.fbit F.talStat_LOST = true ∧ t.rget (key .talCntLost) = (s.rget (key .talCntLost) + 1) % 2 ^ 64)) ∧
      (∀ r rest, s.tal.buf = r :: rest → s.fbit F.talStat_FROZEN = false → s.fbit F.talStat_FULL = false → 0 < size → s.dramUnavail = false →
        s.talBlocked = false → s.tal.marks = [] → s.tal.lost = 0 → Memory.wf dramUnl s.dram = true →
        let w := s.fget F.talWptr_WPTR
        let a := (s.fget F.talBase_BASE + w) * 32
        Completes .tallyWrite s fun t =>
          memReadLE dramUnl t.dram a 32 = r.rcd.pack % 2 ^ 256 ∧ (∀ y, (y < a ∨ a + 32 ≤ y) → memRead dramUnl t.dram y = memRead dramUnl s.dram y) ∧
          t.tal.buf = rest ∧
          (w + 1 < size → w + 1 < 2 ^ 28 → t.fget F.talWptr_WPTR = w + 1) ∧
          (size ≤ w + 1 → s.fbit F.talCtl_MODE = false →
            t.fget F.talWptr_WPTR = 0 ∧ t.rget (key .talWraps) = counted (s.rget (key .talWraps)) 1) ∧
          (size ≤ w + 1 → s.fbit F.talCtl_MODE = true → t.fbit F.talStat_FULL = true) ∧ t.eo = s.eo ∧ t.tiu = s.tiu) ∧
      (∀ g e, findGroup Con.talTrig 0 s.tickNo s.dw.inbox = some g → g.evs = [e] → s.fbit F.talCtl_TRIG_EN = true → s.fbit F.talCtl_EN = true →
        s.fbit F.talStat_TRIGGERED = false → s.fbit F.glbBlkRst_TAL = false →
        Completes .talTrig s fun t =>
          t.fbit F.talStat_TRIGGERED = true ∧ t.fget F.talTrigTime_TT = packT96 e.ts % 2 ^ 96 ∧ t.fget F.talTrigPos_POS = s.fget F.talWptr_WPTR ∧
          t.tal.kept = min (s.fget F.talPre_PRE) s.tal.written ∧ t.tal.post = 0 ∧ t.dram = s.dram) ∧
      (s.fbit F.talStat_TRIGGERED = true → s.fbit F.talStat_FROZEN = false →
        (s.fget F.talPost_POST ≤ s.tal.post → (unpackT96 (s.fget F.talTrigTime_TT)).getD 0 + 3000 * lsbPerNs ≤ s.time.now * lsbPerNs →
          Completes .tallyFreeze s fun t => t.fbit F.talStat_FROZEN = true) ∧
        (s.tal.post < s.fget F.talPost_POST → Completes .tallyFreeze s fun t => t = s)) ∧
      (s.tal.draining = true →
        Completes .tallyDrainDone s fun t => t.tal.buf = [] ∧ t.tal.marks = [] ∧ t.tal.draining = false ∧ t.fbit F.talCtl_EN = s.fbit F.talCtl_EN)) ∧
    (s.writable q.req .talCtl = true →
      (s.fbit F.talCtl_EN = true → s.fbit F.talCtl_TRIG_EN = true → s.fbit F.talStat_TRIGGERED = false → bit data.toNat 0 = true →
        Completes (.talFire q data) s fun t =>
          t.fbit F.talStat_TRIGGERED = true ∧ t.fget F.talTrigTime_TT = packT96 (s.time.now * lsbPerNs) % 2 ^ 96) ∧
      (s.fbit F.talCtl_EN = false → bit data.toNat 7 = false →
        let fits := s.fget F.talBase_BASE + size ≤ 134217728 ∧ (bit data.toNat 5 = true → s.fget F.talPre_PRE + s.fget F.talPost_POST ≤ size)
        (fits →
          Completes (.tallyEnable q data) s fun t =>
            t.fbit F.talCtl_EN = true ∧ t.fget F.talWptr_WPTR = 0 ∧ t.fget F.talWraps_WRAPS = 0 ∧ t.fbit F.talStat_TRIGGERED = false ∧
            t.fbit F.talStat_FROZEN = false ∧ t.fbit F.talStat_FULL = false ∧ t.fget F.talTrigTime_TT = 0 ∧ t.fget F.talTrigPos_POS = 0 ∧
            t.tal.buf.length = (if bit data.toNat 4 then 1 else 0) ∧ (s.tal.draining = false → t.dram = s.dram)) ∧
        (¬ fits → Completes (.tallyEnable q data) s fun t => t.fbit F.talCtl_EN = false ∧ t.fbit F.talStat_WR_ERR = true ∧ t.tal = s.tal)) ∧
      (s.fbit F.talCtl_EN = true → bit data.toNat 7 = false →
        Completes (.tallyDisable q data) s fun t => t.fbit F.talCtl_EN = false ∧ t.tal = { s.tal with draining := true } ∧ t.dram = s.dram))

/-! ### The Droveway (R149 to R178) -/

/-- R151, R152, R153, R155, R157 to R160: an enabled channel whose gate is open hands the group it takes to each consumer that selects it,
three ticks after the events, counts what passes and leaves out what its flock forbids; a closed gate sets GATED; pins, timers and DW_SWF
raise their events; EVOUT toggles or pulses; an asynchronous source takes its level at once. Where the rules leave a reading open the
clauses follow the model's own, log entries 44, 45. -/
def Obligations.DrovewayCarriesEvents : Prop :=
  ∀ (s : State),
    (s.time.run = true → ∀ (c : Fin 256) e0 rest, s.channelGroup c.val = e0 :: rest →
      let evs := e0 :: rest
      let taken := s.dw.evq.map fun e => if evs.contains e then { e with taken := c.val :: e.taken } else e
      let pass := evs.filter fun e => !s.fbit F.dwChCfg_FL_MEM c.val || flockAt (s.flockLog (s.fget F.dwChCfg_FLOCK c.val)) e.ts
      (s.fbit F.dwChCfg_EN c.val = true → s.fbit F.dwChCfg_ASYNC c.val = false →
        (s.gateOf c.val = false →
          Completes (.dwChannelEvent c) s fun t => t.fbit F.dwChStat_GATED c.val = true ∧ t.dw = { s.dw with evq := taken } ∧ t.eo = s.eo) ∧
        (s.gateOf c.val = true → pass ≠ [] →
          Completes (.dwChannelEvent c) s fun t =>
            t.dw.evq = taken ∧ t.rget ⟨.dwChCnt, c.val, 0, 0⟩ = counted (s.rget ⟨.dwChCnt, c.val, 0, 0⟩) pass.length ∧
            (∀ x ∈ s.consumersOf c.val,
              (∃ g ∈ t.dw.inbox, g.x = x ∧ g.due = e0.tick + 3 ∧ ∀ e ∈ pass, (⟨e.ts, e.tag⟩ : Stamp) ∈ g.evs) ∧
              ((s.consumersOf c.val).Nodup → (∀ g ∈ s.dw.inbox, g.x = x → g.due ≠ e0.tick + 3) →
                (⟨x, pass.map fun e => ⟨e.ts, e.tag⟩, e0.tick + 3⟩ : Group) ∈ t.dw.inbox)) ∧
            (pass.length < evs.length → t.fbit F.dwChStat_FLOCKED c.val = true) ∧ t.eo = s.eo ∧ t.drv = s.drv)) ∧
      (s.fbit F.dwChCfg_EN c.val = false → Completes (.dwChannelEvent c) s fun t => t = { s with dw := { s.dw with evq := taken } })) ∧
    (s.time.run = true → ∀ (i : Fin 16) (level : Bool), (s.dw.evin.get {} i.val).level ≠ level →
      let e := s.fget F.dwEvinCtl_EDGES i.val
      (e ≠ 3 → senseOk e level = true →
        Completes (.evinEdge i level) s fun t =>
          t.raises (Prod.evin i.val) ((s.time.now - 2) * lsbPerNs) 0 (s.tickNo + 3) ∧ (t.dw.evin.get {} i.val).level = level) ∧
      ((e = 3 ∨ senseOk e level = false) →
        Completes (.evinEdge i level) s fun t => t.dw.evq = s.dw.evq ∧ (t.dw.evin.get {} i.val).level = level ∧ t.regs = s.regs)) ∧
    (∀ (q : Port) (i : Fin 8) (data : BitVec 32), s.writable q.req .dwTmrCtl = true → s.fbit F.dwTmrCtl_EN i.val = false →
      (bit data.toNat 1 = true ∨ 0 < s.fget F.dwTmrCount_COUNT i.val) → (s.time.now + 2) * lsbPerNs ≤ s.tmrInstant i.val 0 →
      s.tmrInstant i.val 0 < 2 ^ 48 * lsbPerSec →
      Completes (.dwTmrEnable q i data) s fun t => t.fbit F.dwTmrCtl_EN i.val = true ∧ t.dw.timers.get 0 i.val = 0 ∧ t.eo = s.eo) ∧
    (∀ (q : Port) (i : Fin 8) (data : BitVec 32), s.writable q.req .dwTmrCtl = true → s.fbit F.dwTmrCtl_EN i.val = false →
      bit data.toNat 1 = true → s.tmrInstant i.val 0 < (s.time.now + 2) * lsbPerNs → 0 < s.fget F.dwTmrPeriod_PERIOD i.val →
      Completes (.dwTmrEnable q i data) s fun t => t.fbit F.dwTmrCtl_SKIP i.val = true ∧
        0 < t.dw.timers.get 0 i.val ∧ (s.time.now + 2) * lsbPerNs ≤ s.tmrInstant i.val (t.dw.timers.get 0 i.val)) ∧
    (s.time.run = true → ∀ i : Fin 8, s.fbit F.dwTmrCtl_EN i.val = true →
      let k := s.dw.timers.get 0 i.val
      (s.tmrOver i.val k = false → nsOf (s.tmrInstant i.val k) ≤ s.time.now →
        Completes (.dwTmrInstant i) s fun t =>
          t.raises (Prod.dwTmr i.val) (s.tmrInstant i.val k) 0 s.tickNo ∧ t.dw.timers.get 0 i.val = k + 1 ∧
          (t.fbit F.dwTmrCtl_EN i.val = !s.tmrOver i.val (k + 1)) ∧ (s.tmrOver i.val (k + 1) = true → t.fbit F.dwTmrCtl_DONE i.val = true)) ∧
      (s.time.now < nsOf (s.tmrInstant i.val k) → s.tmrOver i.val k = false → Completes (.dwTmrInstant i) s fun t => t = s)) ∧
    (∀ (q : Port) (data : BitVec 16), s.writable q.req .dwSwf = true →
      Completes (.swfFire q data) s fun t => (∀ i, i < 16 → bit data.toNat i = true → t.raises (Prod.swf i) (s.time.now * lsbPerNs) 0 s.tickNo) ∧
        (∀ e ∈ t.dw.evq, e ∈ s.dw.evq ∨ ∃ i, i < 16 ∧ bit data.toNat i = true ∧ e.prod = Prod.swf i) ∧ t.eo = s.eo) ∧
    (s.time.run = true → s.fbit F.glbBlkRst_DW = false → ∀ (i : Fin 16) g, findGroup (Con.evout i.val) 1 s.tickNo s.dw.inbox = some g →
      let sel := s.inForce ⟨.dwConSel, Con.evout i.val, 0, 0⟩
      let p := s.dw.evout.get {} i.val
      let w := s.fget F.dwEvoutCtl_WIDTH i.val
      bits sel 29 28 ≠ 0 → (bits sel 29 28 = 2 → s.fbit F.dwChCfg_ASYNC (bits sel 7 0) = false) →
      (s.fget F.dwEvoutCtl_MODE i.val = 1 →
        Completes (.evoutEvent i) s fun t =>
          t.dw.evout.get {} i.val = { p with level := p.level != decide (g.evs.length % 2 = 1) } ∧ t.regs = s.regs) ∧
      (s.fget F.dwEvoutCtl_MODE i.val ≠ 1 → w ≠ 0 →
        Completes (.evoutEvent i) s fun t => t.dw.evout.get {} i.val = ⟨true, some (s.tickNo + w)⟩ ∧ t.regs = s.regs)) ∧
    (s.time.run = true → ∀ (i : Fin 16) u, (s.dw.evout.get {} i.val).pulseEnd = some u → u ≤ s.tickNo →
      Completes (.evoutPulseEnd i) s fun t => t.dw.evout.get {} i.val = ⟨false, none⟩ ∧
        (∀ j, j ≠ i.val → t.dw.evout.get {} j = s.dw.evout.get {} j) ∧ { t with dw := { t.dw with evout := s.dw.evout } } = s) ∧
    (∀ (a : Fin 64) (level : Bool),
      Completes (.asyncSourceLevelChange a level) s fun t =>
        (a.val ≤ 0x0F → t.dw.evpin.get false a.val = level) ∧ (0x10 ≤ a.val → a.val ≤ 0x11 → t.dw.ppsin.get false (a.val - 0x10) = level) ∧
        (0x20 ≤ a.val → t.dw.ti.get false (a.val - 0x20) = level) ∧ t.dw.evq = s.dw.evq ∧ { t with dw := s.dw } = s)

/-- R162, R164 to R166, R170 to R173, R176, R178: a flock event changes its flock from the event's instant, or from its arrival when it
comes late; enabling a channel checks its sources, or starts the check of an asynchronous one, whose result decides; disabling clears EN
or abandons the check; ownership and selections take a write only from who may make it, unlocked, and act from the next tick. Where the
rules leave a reading open the clauses follow the model's own, log entries 13, 44. -/
def Obligations.DrovewayConfiguration : Prop :=
  ∀ (q : Port) (s : State),
    (∀ (f : Fin 32) (on : Bool),
      let command : Instr := if on then .flockEn f else .flockDis f
      let con := if on then Con.flockEn f.val else Con.flockDis f.val
      let log := s.flockLog f.val
      let free (at_ : Instant) : Prop := on = true → at_ ∉ s.dw.disAt.get [] f.val
      (s.time.run = true → s.fbit F.glbBlkRst_DW = false → ∀ g e, findGroup con 0 s.tickNo s.dw.inbox = some g → g.evs = [e] → e.tag + 1 ≤ s.fget F.dwCtl_GEN_LIMIT →
        let at_ := if e.ts + 32 * lsbPerNs < s.time.now * lsbPerNs then s.time.now * lsbPerNs else e.ts
        flockAt log at_ = !on → free at_ → (∀ c ∈ log, c.at_ ≠ at_) → (log.filter fun c => decide (at_ < c.at_)).length < 8 →
        Completes command s fun t =>
          flockAt (t.flockLog f.val) at_ = on ∧ t.raises (Prod.flock f.val) at_ (e.tag + 1) s.tickNo ∧
          (at_ ≠ e.ts → t.fbit F.dwStat_FL_LATE = true) ∧ (∀ j, j ≠ f.val → t.flockLog j = s.flockLog j) ∧ t.eo = s.eo ∧ t.time = s.time) ∧
      (∀ data : BitVec 32, s.writable q.req .dwFlCtl = true → bit data.toNat 0 = on → bits data.toNat 5 4 ≤ 2 →
        (s.flockNow f.val = on → Completes (.flockStateWrite q f data) s fun t =>
          { t.dw with disAt := s.dw.disAt } = s.dw ∧ t.fget F.dwFlCtl_REACT f.val = bits data.toNat 5 4) ∧
        (s.flockNow f.val = !on → free (s.time.now * lsbPerNs) → (∀ c ∈ log, c.at_ < s.time.now * lsbPerNs) →
          Completes (.flockStateWrite q f data) s fun t =>
            t.flockNow f.val = on ∧ t.raises (Prod.flock f.val) (s.time.now * lsbPerNs) 0 s.tickNo ∧
            t.fget F.dwFlCtl_REACT f.val = bits data.toNat 5 4))) ∧
    (∀ (c : Fin 256) (data : BitVec 32), s.writable q.req .dwChCfg = true →
      let done (t : State) : Prop := (∀ j, j ≠ c.val → t.rget ⟨.dwChCfg, j, 0, 0⟩ = s.rget ⟨.dwChCfg, j, 0, 0⟩) ∧ t.eo = s.eo ∧ t.dw.evq = s.dw.evq
      (s.fbit F.dwChOwn_LOCK c.val = true →
        Completes (.dwChannelEnable q c data) s fun t => t.fbit F.dwStat_LOCK_ERR = true ∧ t.rget ⟨.dwChCfg, c.val, 0, 0⟩ = s.rget ⟨.dwChCfg, c.val, 0, 0⟩) ∧
      (s.fbit F.dwChOwn_LOCK c.val = false → s.mayWriteCh q.req c.val = true →
        (s.fbit F.dwChCfg_EN c.val = false → s.chBusy c.val = false →
          let listed := prodListed (s.fget F.dwChSrc_SRC_A c.val) = true ∧
            (bit data.toNat 4 = true → s.fget F.dwChSrc_SRC_B c.val = 0x7FF ∨ prodListed (s.fget F.dwChSrc_SRC_B c.val) = true)
          (bit data.toNat 1 = false → listed →
            Completes (.dwChannelEnable q c data) s fun t => t.fbit F.dwChCfg_EN c.val = true ∧ t.fget F.dwChStat_RES c.val = 0 ∧ done t) ∧
          (bit data.toNat 1 = false → ¬ listed →
            Completes (.dwChannelEnable q c data) s fun t => t.fbit F.dwChCfg_EN c.val = false ∧ t.fget F.dwChStat_RES c.val = 4 ∧ done t) ∧
          (bit data.toNat 1 = true →
            Completes (.dwChannelEnable q c data) s fun t =>
              t.fbit F.dwChCfg_EN c.val = false ∧ t.fget F.dwChStat_RES c.val = 15 ∧ t.chBusy c.val = true ∧ done t)) ∧
        (s.fbit F.dwChCfg_EN c.val = true → s.chBusy c.val = false →
          Completes (.dwChannelDisable q c data) s fun t => t.fbit F.dwChCfg_EN c.val = false ∧ done t) ∧
        (s.fbit F.dwChCfg_EN c.val = false → s.chBusy c.val = true →
          Completes (.dwChannelDisable q c data) s fun t => t.chBusy c.val = false ∧ t.fget F.dwChStat_RES c.val = 5 ∧
            t.fbit F.dwChCfg_EN c.val = false ∧ done t))) ∧
    (∀ c : Fin 256, s.time.run = true → s.chBusy c.val = true →
      (s.asyncCheck c.val = 0 →
        Completes (.dwEnableCheckDone c) s fun t => t.fbit F.dwChCfg_EN c.val = true ∧ t.fget F.dwChStat_RES c.val = 0 ∧ t.chBusy c.val = false) ∧
      (s.asyncCheck c.val ≠ 0 → s.fbit F.dwChCfg_EN c.val = false →
        Completes (.dwEnableCheckDone c) s fun t =>
          t.fbit F.dwChCfg_EN c.val = false ∧ t.fget F.dwChStat_RES c.val = s.asyncCheck c.val ∧ t.chBusy c.val = false)) ∧
    (∀ (c : Fin 256) (data : BitVec 32), s.writable q.req .dwChOwn = true → s.fbit F.dwChOwn_LOCK c.val = false →
      (s.mayWriteCh q.req c.val = true → bits data.toNat 1 0 ≤ 2 →
        Completes (.dwChOwnWrite q c data) s fun t =>
          t.fget F.dwChOwn_OWNER c.val = bits data.toNat 1 0 ∧ t.fget F.dwChOwn_DRV c.val = bits data.toNat 7 4 ∧
          t.fbit F.dwChOwn_SEC c.val = bit data.toNat 8 ∧ t.ownOf c.val = s.ownOf c.val ∧
          (∀ k, k ≠ ⟨.dwChOwn, c.val, 0, 0⟩ → t.rget k = s.rget k)) ∧
      (s.mayWriteCh q.req c.val = false →
        Completes (.dwChOwnWrite q c data) s fun t => t.fbit F.dwStat_OWN_ERR = true ∧
          t.rget ⟨.dwChOwn, c.val, 0, 0⟩ = s.rget ⟨.dwChOwn, c.val, 0, 0⟩ ∧ (s.isSecure c.val = true → t.bbr.offers.length = s.bbr.offers.length + 1))) ∧
    (∀ (x : Fin 1076) (data : BitVec 32), s.writable q.req .dwConSel = true →
      let key : RegKey := ⟨.dwConSel, x.val, 0, 0⟩
      (conListed x.val = false → Completes (.dwConSelWrite q x data) s fun t => t = s) ∧
      (conListed x.val = true →
        (s.fbit F.dwConSel_LOCK x.val = true →
          Completes (.dwConSelWrite q x data) s fun t => t.fbit F.dwStat_LOCK_ERR = true ∧ t.rget key = s.rget key) ∧
        (s.fbit F.dwConSel_LOCK x.val = false → s.secureOf data.toNat = none → s.secureOf (s.rget key) = none →
          let mode := selModeOk x.val data.toNat
          let ch := s.selChOk x.val data.toNat
          Completes (.dwConSelWrite q x data) s fun t =>
            t.fget F.dwConSel_MODE x.val = (if mode then bits data.toNat 29 28 else s.fget F.dwConSel_MODE x.val) ∧
            t.fget F.dwConSel_CH x.val = (if ch then bits data.toNat 7 0 else s.fget F.dwConSel_CH x.val) ∧
            t.inForce key = s.inForce key ∧ (mode = false ∨ ch = false → t.fbit F.dwStat_WR_ERR = true)) ∧
        (∀ c, s.fbit F.dwConSel_LOCK x.val = false → s.secureOf data.toNat = some c → s.isOwner q.req c = false →
          Completes (.dwConSelWrite q x data) s fun t => t.fbit F.dwStat_OWN_ERR = true ∧ t.rget key = s.rget key)))

/-! ### What ends a task's wait, and what controls tasks and programs (R180 to R219) -/

/-- R161, R186 to R191, R198, R223, R231 to R233, R236 to R238: a group reaches its input whatever the task does; a task in WAIT_EVENT is
woken two ticks after its group; a waiting task goes on when its instant, expiry, record or yield's end has come, with TAG, WAKE, WTIME
and Z as its row says; a stalled action is offered again, an LDX without data in 2 us traps, a launch returns its result. Where the rules
leave a reading open the clauses follow the model's own, log entries 40, 41, 57. -/
def Obligations.TaskWaitsEnd : Prop :=
  ∀ (d : Fin 16) (k : Fin 8) (s : State), s.time.run = true →
    let t0 := s.getTask d.val k.val
    let alone (t : State) : Prop :=
      (∀ e, e ≠ d.val → t.getDrv e = s.getDrv e) ∧ (∀ j, j ≠ k.val → t.getTask d.val j = s.getTask d.val j) ∧
      { t with drv := s.drv, free := s.free } = s
    let woken (tag reason : Nat) (w : Instant) (z : Bool) (t : State) : Prop :=
      let x := t.getTask d.val k.val
      x.st = .ready ∧ x.wait = .none ∧ x.pc = t0.pc + 1 ∧ x.tag = tag ∧ x.wake / 256 = reason ∧ x.wtime = w ∧ x.fl.z = z ∧
      x.fl.n = t0.fl.n ∧ x.fl.c = t0.fl.c ∧ x.fl.v = t0.fl.v ∧ x.fl.x = t0.fl.x ∧ x.a = t0.a ∧ x.t = t0.t ∧ x.inp = t0.inp ∧ alone t
    (∀ (i : Fin 4) g, findGroup (Con.drvIn d.val k.val i.val) 0 s.tickNo s.dw.inbox = some g → s.fbit F.glbBlkRst_DRV = false → g.evs ≠ [] →
      let was := t0.iget i.val
      Completes (.drvInGroup d k i) s fun t =>
        let now := (t.getTask d.val k.val).iget i.val
        now.count = min (was.count + g.evs.length) 255 ∧ now.coinc = (was.coinc || decide (2 ≤ g.evs.length)) ∧
        now.tag = g.evs.foldl (fun m e => max m e.tag) was.tag ∧ now.fifo = was.fifo ++ (g.evs.take (4 - was.fifo.length)).map Stamp.ts ∧
        (t.getTask d.val k.val).st = t0.st ∧ (t.getTask d.val k.val).pc = t0.pc ∧ t.regs = s.regs ∧
        (∀ j, j ≠ i.val → (t.getTask d.val k.val).iget j = t0.iget j)) ∧
    (∀ mask ex, t0.st = .waitEvent → t0.wait = .event mask ex →
      let seen := t0.unseen s.tickNo
      let is := s.wakers t0 mask ex
      is ≠ [] → ∀ w, seen.earliest is = some w →
        Completes (.taskWakeEvent d k) s fun t =>
          let x := t.getTask d.val k.val
          x.st = .waitEvent ∧ x.wait = .wakes (max (s.tickNo + 1) (seen.firstTick is + 2)) ∧ x.pc = t0.pc ∧
          x.tag = (is.map fun i => (seen.iget i).tag).foldl max 0 ∧ x.wake / 256 = 1 ∧ x.wtime = w ∧ x.fl = { t0.fl with z := false } ∧
          x.a = t0.a ∧ x.t = t0.t ∧ x.inp = t0.inp ∧ alone t) ∧
    (∀ u, t0.wait = .wakes u → u ≤ s.tickNo →
      (s.drvWakes d.val).getTask d.val k.val = { t0 with pc := t0.pc + 1, st := .ready, wait := .none, readyAt := s.tickNo }) ∧
    (∀ a, t0.st = .waitTime → t0.wait = .instant a false → a ≤ s.time.now * lsbPerNs →
      Completes (.taskWakeTime d k) s (woken 0 2 a t0.fl.z)) ∧
    (∀ mask x, t0.st = .waitEvent → t0.wait = .event mask (some x) → x + lsbPerNs ≤ s.time.now * lsbPerNs →
      s.wakingBy t0 mask (some x) = [] →
      Completes (.taskWakeTimeout d k) s (woken 0 3 x true)) ∧
    (∀ u, t0.st = .waitTime → t0.wait = .yield u → u ≤ s.tickNo →
      Completes (.yieldEnd d k) s fun t =>
        t.getTask d.val k.val = { t0 with pc := t0.pc + 1, st := .ready, wait := .none, readyAt := s.tickNo } ∧ alone t) ∧
    (∀ n, t0.st = .waitQueue → t0.wait = .action n → t0.readyAt ≤ s.tickNo → (∀ o ∈ (s.getEo n).offers, o.src ≠ .task d k) →
      Completes (.waitQueueReoffer d k) s fun t =>
        t.getEo n = { s.getEo n with offers := (s.getEo n).offers ++ [⟨.task d k, t0.offer, t0.tag + 1, s.tickNo⟩] } ∧
        (∀ m, m ≠ n → t.getEo m = s.getEo m) ∧ { t with eo := s.eo } = s) ∧
    (∀ r off tick v, t0.st = .waitMem → t0.wait = .ldx r off tick v → tick + 2000 ≤ s.tickNo → Traps (.ldxTimeout d k) s d.val k.val 0x0C off) ∧
    (∀ u td ad tick iss ex r tag done, td < 8 → ad < 16 → t0.st = .waitMeas → t0.wait = .meas u td ad tick iss ex (some (r, tag, done)) → done + 2 ≤ s.tickNo →
      Completes (.measComplete d k) s fun t =>
        let x := t.getTask d.val k.val
        x.st = .waitMeas ∧ x.wait = .wakes (max (s.tickNo + 1) (done + 3)) ∧ x.pc = t0.pc ∧ x.tget td = r.time ∧ x.aget ad = BitVec.ofInt 64 r.value ∧
        x.aget ((ad + 1) % 16) = BitVec.ofNat 64 (r.flags % 65536 + r.aux % 2 ^ 32 * 65536) ∧ x.tag = tag ∧ x.wtime = r.time ∧
        x.fl.z = false ∧ x.fl.n = bit r.flags 3 ∧ x.fl.c = false ∧ x.fl.v = (t0.fl.v || bit r.flags 6) ∧ alone t) ∧
    (∀ u td ad tick iss x, td < 8 → ad < 16 → t0.st = .waitMeas → t0.wait = .meas u td ad tick iss (some x) none → x + lsbPerNs ≤ s.time.now * lsbPerNs →
      Completes (.measTimeout d k) s fun t =>
        let y := t.getTask d.val k.val
        y.st = .ready ∧ y.pc = t0.pc + 1 ∧ y.tget td = x ∧ y.aget ad = 0 ∧ y.aget ((ad + 1) % 16) = 0 ∧ y.tag = 0 ∧ y.wtime = x ∧
        y.fl.z = true ∧ y.fl.n = false ∧ y.fl.c = false ∧ y.fl.v = t0.fl.v ∧ alone t) ∧
    (∀ p a tt tick, t0.wait = .launch p a tt tick → tick < s.tickNo → s.fbit F.glbBlkRst_DRV = false → s.dramUnavail = false → launchArgOk a = true →
      let s1 := s.swTick
      let data := s.dramBytes (windowAddr d.val (bits a 26 0)) (bits a 45 32)
      s1.linkUpOn p = true → s.glb.limited = false → s.fbit F.glbBlkRst_TAS = false → s.fbit F.glbBlkRst_SWPAD = false → s1.lenBad p data.length = false →
      s.time.now * lsbPerNs + 500 * lsbPerNs ≤ tt → s1.launchCount p < 256 → cellsOf (data.length + 4) ≤ s1.padFree →
      Completes (.launchComplete d k) s fun t =>
        t.getTask d.val k.val = { t0 with ares := p * 65536, pc := t0.pc + 1, st := .busy, wait := .busy (s.tickNo + 1) { adv := false } } ∧
        (∃ f ∈ t.sw.frames, f.kind = .launch ∧ f.data = data ∧ f.cls = bits a 50 48 ∧ f.copies.map FrameCopy.port = [p] ∧
          f.copies.map FrameCopy.inst = [some tt]) ∧ t.dram = s.dram)

/-- R202 to R207, R212, R213, R215: a start that passes its checks makes the task READY at its entry with cleared flags, stacks and wake
registers, one that fails leaves its SRES; a stop ends the task; a program is committed while its Drover stands still, checked against LEN
and CRC, and marked; RST keeps both memories; DRV_MEM_DATA reads and writes the addressed word and moves INDEX on. Where the rules leave a
reading open the clauses follow the model's own, log entries 38, 42. -/
def Obligations.TasksAndProgramsAreControlled : Prop :=
  ∀ (q : Port) (d : Fin 16) (k : Fin 8) (s : State),
    let t0 := s.getTask d.val k.val
    let x := s.getDrv d.val
    let others (t : State) : Prop :=
      (∀ e, e ≠ d.val → t.getDrv e = s.getDrv e) ∧ (∀ j, j ≠ k.val → t.getTask d.val j = s.getTask d.val j)
    (∀ data : BitVec 32, s.writable q.req .drvTaskCtl = true →
      (bit data.toNat 30 = false →
        let entry := bits data.toNat 13 0
        let sres (n : Nat) (t : State) : Prop := t.getTask d.val k.val = { t0 with sres := n } ∧ others t
        (t0.st ≠ .stopped → t0.st ≠ .trapped → Completes (.taskStart q d k data) s (sres 1)) ∧
        ((t0.st = .stopped ∨ t0.st = .trapped) →
          (x.progRes ≠ 2 → Completes (.taskStart q d k data) s (sres 2)) ∧
          (x.progRes = 2 → 1 < s.fget F.drvProg_LEVEL d.val → Completes (.taskStart q d k data) s (sres 3)) ∧
          (x.progRes = 2 → s.fget F.drvProg_LEVEL d.val ≤ 1 → s.fget F.drvProg_LEN d.val ≤ entry →
            Completes (.taskStart q d k data) s (sres 4)) ∧
          (x.progRes = 2 → s.fget F.drvProg_LEVEL d.val ≤ 1 → entry < s.fget F.drvProg_LEN d.val → x.faulted = true →
            Completes (.taskStart q d k data) s (sres 5)) ∧
          (x.progRes = 2 → s.fget F.drvProg_LEVEL d.val ≤ 1 → entry < s.fget F.drvProg_LEN d.val → x.faulted = false →
            Completes (.taskStart q d k data) s fun t =>
              let y := t.getTask d.val k.val
              y.st = .ready ∧ y.pc = entry ∧ y.fl = {} ∧ y.cstack = [] ∧ y.lstack = [] ∧ y.tag = 0 ∧ y.wake = 0 ∧ y.a = t0.a ∧ y.t = t0.t ∧
              y.lpol = bit data.toNat 16 ∧ y.qstall = bit data.toNat 17 ∧ y.sres = 0 ∧ y.readyAt = s.tickNo + 1 ∧
              (bit data.toNat 18 = true → y.inp = {} ∧ y.newIn = {}) ∧
              (bit data.toNat 18 = false → y.inp = t0.inp ∧ y.newIn = t0.newIn) ∧ others t))) ∧
      (bit data.toNat 31 = false → t0.st ≠ .stopped →
        Completes (.taskStop q d k data) s fun t =>
          t.getTask d.val k.val = { t0 with st := .stopped, wait := .none } ∧ others t)) ∧
    (∀ v : BitVec 96, s.writable q.req .drvProg = true → s.drvBusy d.val = false →
      (bits v.toNat 14 0 ≤ 16384 →
        Completes (.drvProgCommit q d v) s fun t =>
          (t.getDrv d.val).progRes = 1 ∧ t.fget F.drvProg_LEN d.val = bits v.toNat 14 0 ∧ t.fget F.drvProg_LEVEL d.val = bits v.toNat 35 32 ∧
          t.fget F.drvProg_CRC d.val = bits v.toNat 95 64 ∧ (t.getDrv d.val).imem = x.imem ∧ others t) ∧
      (16384 < bits v.toNat 14 0 →
        Completes (.drvProgCommit q d v) s fun t => t.drv = s.drv ∧ t.fbit F.drvStat_WR_ERR d.val = true)) ∧
    (s.time.run = true → x.progRes = 1 →
      let same := crc32c (x.progBytes (s.fget F.drvProg_LEN d.val)) = s.fget F.drvProg_CRC d.val
      (same → Completes (.drvProgCheckDone d false) s fun t => (t.getDrv d.val).progRes = 2 ∧ t.regs = s.regs ∧ others t) ∧
      (¬ same → Completes (.drvProgCheckDone d false) s fun t => (t.getDrv d.val).progRes = 3 ∧ t.regs = s.regs ∧ others t) ∧
      Completes (.drvProgCheckDone d true) s fun t =>
        (t.getDrv d.val).progRes = 3 ∧ t.fbit F.drvStat_ECC_UNC d.val = true ∧ (∃ f ∈ t.flt.reports, f.code = 0x2001 ∧ f.detected = true)) ∧
    (∀ data : BitVec 32, s.writable q.req .drvCtl = true →
      Completes (.drvReset q d data) s fun t =>
        t.getDrv d.val = { imem := x.imem, dmem := x.dmem } ∧ (∀ e, e ≠ d.val → t.getDrv e = s.getDrv e) ∧
        (∀ c, c.r.info.blk = .drv → c.i = d.val → t.rget c = regReset c) ∧
        (∀ c, ¬ (c.r.info.blk = .drv ∧ c.i = d.val) → t.rget c = s.rget c)) ∧
    (s.writable q.req .drvMemData = true →
      let i := s.fget F.drvMemAddr_INDEX d.val
      let data := s.fbit F.drvMemAddr_SPACE d.val
      let size := if data then 4096 else 8192
      let inc := s.fbit F.drvMemAddr_AUTOINC d.val
      i < size →
      (Completes (.drvMemRead q d) s fun t =>
        let w : Nat := if data then (x.dmem.get 0 i).toNat else (x.word (2 * i)).toNat + (x.word (2 * i + 1)).toNat * 2 ^ 32
        t.resp.data = w % 2 ^ 32 ∧ t.latchOf q.req ⟨.drvMemData, d.val, 0, 0⟩ = w / 2 ^ 32 ∧ t.drv = s.drv ∧
        t.fget F.drvMemAddr_INDEX d.val = if inc then (i + 1) % size else i) ∧
      (∀ v : BitVec 64,
        (data = true →
          Completes (.drvMemWrite q d v) s fun t =>
            (t.getDrv d.val).dmem.get 0 i = v ∧ (∀ j, j ≠ i → (t.getDrv d.val).dmem.get 0 j = x.dmem.get 0 j) ∧ (t.getDrv d.val).imem = x.imem ∧
            t.fget F.drvMemAddr_INDEX d.val = (if inc then (i + 1) % size else i) ∧ others t) ∧
        (data = false → s.drvBusy d.val = false →
          Completes (.drvMemWrite q d v) s fun t =>
            ((t.getDrv d.val).word (2 * i)).toNat = v.toNat % 2 ^ 32 ∧ ((t.getDrv d.val).word (2 * i + 1)).toNat = v.toNat / 2 ^ 32 ∧
            (t.getDrv d.val).progRes = 0 ∧ (∀ j, j / 2 ≠ i → (t.getDrv d.val).word j = x.word j) ∧
            t.fget F.drvMemAddr_INDEX d.val = (if inc then (i + 1) % size else i) ∧ others t) ∧
        (data = false → s.drvBusy d.val = true →
          Completes (.drvMemWrite q d v) s fun t => t.drv = s.drv ∧ t.fbit F.drvStat_WR_ERR d.val = true)))

/-! ### Barli (R179 to R239) -/

/-- R226: ADD, SUB, ADDS, SUBS, AND, OR, XOR and CMP give the result and the flags of their rows, for a register and for an immediate
second operand, in one tick, and change nothing else. -/
def Obligations.TwoOperandIntegerResults : Prop :=
  ∀ (d : Fin 16) (k : Fin 8) (ad aa : Fin 16) (b : BSrc) (s : State), s.nextOk d.val k.val = true →
    let t0 := s.getTask d.val k.val
    let x := t0.aget aa.val
    let y : W64 := match b with
      | .reg ab => t0.aget ab.val
      | .imm n => n.signExtend 64
    let f := t0.fl
    let clamp (z : Int) : Int := max (-2 ^ 63) (min z (2 ^ 63 - 1))
    let zn (r : W64) : TFlags := { f with z := decide (r = 0), n := r.msb }
    let after (t : Task) : Task := { t with pc := t0.pc + 1, readyAt := s.tickNo + 1 }
    let put (r : W64) (g : TFlags) : Task := after { t0.aput ad.val r with fl := g }
    let sat (z : Int) : Task :=
      put (BitVec.ofInt 64 (clamp z)) { zn (BitVec.ofInt 64 (clamp z)) with v := f.v || decide (clamp z ≠ z) }
    (s.fires d.val k.val (encAlu 0x10 ad.val aa.val b) = true →
      TaskBecomes (.add d k {} ad aa b) s d.val k.val (put (x + y) { zn (x + y) with c := decide (2 ^ 64 ≤ x.toNat + y.toNat) })) ∧
    (s.fires d.val k.val (encAlu 0x11 ad.val aa.val b) = true →
      TaskBecomes (.sub d k {} ad aa b) s d.val k.val (put (x - y) { zn (x - y) with c := decide (x.toNat < y.toNat) })) ∧
    (s.fires d.val k.val (encAlu 0x12 ad.val aa.val b) = true →
      TaskBecomes (.adds d k {} ad aa b) s d.val k.val (sat (x.toInt + y.toInt))) ∧
    (s.fires d.val k.val (encAlu 0x13 ad.val aa.val b) = true →
      TaskBecomes (.subs d k {} ad aa b) s d.val k.val (sat (x.toInt - y.toInt))) ∧
    (s.fires d.val k.val (encAlu 0x18 ad.val aa.val b) = true →
      TaskBecomes (.and d k {} ad aa b) s d.val k.val (put (x &&& y) (zn (x &&& y)))) ∧
    (s.fires d.val k.val (encAlu 0x19 ad.val aa.val b) = true →
      TaskBecomes (.or d k {} ad aa b) s d.val k.val (put (x ||| y) (zn (x ||| y)))) ∧
    (s.fires d.val k.val (encAlu 0x1A ad.val aa.val b) = true →
      TaskBecomes (.xor d k {} ad aa b) s d.val k.val (put (x ^^^ y) (zn (x ^^^ y)))) ∧
    (s.fires d.val k.val (encAlu 0x1B 0 aa.val b) = true →
      TaskBecomes (.cmp d k {} aa b) s d.val k.val
        (after { t0 with fl := { f with z := decide (x = y), n := decide (x.toInt < y.toInt), c := decide (x.toNat < y.toNat) } }))

/-- R226: SHL, LDI, LDHI, MOV and NEG give the result and the flags of their rows in one tick, and change nothing else. A shift count
above 64 is taken as 64. -/
def Obligations.ShiftAndMoveResults : Prop :=
  ∀ (d : Fin 16) (k : Fin 8) (ad aa : Fin 16) (n : ShSrc) (s : State), s.nextOk d.val k.val = true →
    let t0 := s.getTask d.val k.val
    let x := t0.aget aa.val
    let m : Nat := min 64 (match n with
      | .reg ab => (t0.aget ab.val).toNat
      | .imm i => i.val)
    let f := t0.fl
    let zn (r : W64) : TFlags := { f with z := decide (r = 0), n := r.msb }
    let after (t : Task) : Task := { t with pc := t0.pc + 1, readyAt := s.tickNo + 1 }
    let put (r : W64) (g : TFlags) : Task := after { t0.aput ad.val r with fl := g }
    (s.fires d.val k.val (enc 0x16 ([(ad.val, 22), (aa.val, 18)] ++ n.fields)) = true →
      let r := BitVec.ofNat 64 (x.toNat * 2 ^ m)
      TaskBecomes (.shl d k {} ad aa n) s d.val k.val
        (put r { zn r with c := decide (0 < m) && x.getLsbD (64 - m)
                           v := f.v || decide (∃ i, i < m ∧ x.getLsbD (63 - i) ≠ x.msb) || decide (r.msb ≠ x.msb) })) ∧
    (∀ imm : BitVec 22, s.fires d.val k.val (enc 0x1C [(ad.val, 22), (imm.toNat, 0)]) = true →
      TaskBecomes (.ldi d k {} ad imm) s d.val k.val (put (imm.signExtend 64) f)) ∧
    (∀ (h : Fin 4) (imm : BitVec 16), s.fires d.val k.val (enc 0x1D [(ad.val, 22), (h.val, 20), (imm.toNat, 0)]) = true →
      TaskBecomes (.ldhi d k {} ad h imm) s d.val k.val
        (put (BitVec.ofNat 64 (setBits (t0.aget ad.val).toNat (16 * h.val + 15) (16 * h.val) imm.toNat)) f)) ∧
    (s.fires d.val k.val (enc 0x1E [(ad.val, 22), (aa.val, 18)]) = true →
      TaskBecomes (.mov d k {} ad aa) s d.val k.val (put x f)) ∧
    (s.fires d.val k.val (enc 0x1F [(ad.val, 22), (aa.val, 18)]) = true →
      let r := BitVec.ofInt 64 (min (-x.toInt) (2 ^ 63 - 1))
      TaskBecomes (.neg d k {} ad aa) s d.val k.val (put r { zn r with v := f.v || decide (x.toInt = -2 ^ 63) }))

/-- R227: MULQ, DIVQ and SHR form the exact product, quotient or shifted value, rounded with their mode and saturated, with Z, N and the
sticky X and V, signed or unsigned; DIVQ by zero traps. MULQ and DIVQ hold their task BUSY for 4 and 34 ticks, until which nothing of the
task changes but its state, and the PC moves on then; SHR takes one tick. -/
def Obligations.MultiplyDivideAndShiftRightResults : Prop :=
  ∀ (d : Fin 16) (k : Fin 8) (ad aa ab : Fin 16) (rm : Rounding) (u : Bool) (sh : Fin 64) (n : ShSrc) (s : State), s.nextOk d.val k.val = true →
    let t0 := s.getTask d.val k.val
    let f := t0.fl
    let m : Nat := min 64 (match n with
      | .reg ar => (t0.aget ar.val).toNat
      | .imm i => i.val)
    let val (r : W64) : Int := if u then (r.toNat : Int) else r.toInt
    let lo : Int := if u then 0 else -2 ^ 63
    let hi : Int := if u then 2 ^ 64 - 1 else 2 ^ 63 - 1
    let left (num : Int) (den : Nat) : BusyRes :=
      let q := roundDiv rm num den
      let r := BitVec.ofInt 64 (max lo (min q hi))
      { areg := some (ad.val, r)
        flags := some { t0.fl with z := decide (r = 0), n := r.msb, x := t0.fl.x || decide (¬ (den : Int) ∣ num)
                                   v := t0.fl.v || decide (q < lo ∨ hi < q) } }
    let held (n : Nat) (r : BusyRes) : Task := { t0 with st := .busy, wait := .busy (s.tickNo + n) r }
    let fields := [(ad.val, 22), (aa.val, 18), (ab.val, 14), (rm.code, 12), (bnat u, 11), (sh.val, 5)]
    (s.fires d.val k.val (enc 0x14 fields) = true →
      TaskBecomes (.mulq d k {} ad aa ab rm u sh) s d.val k.val
        (held 4 (left (val (t0.aget aa.val) * val (t0.aget ab.val)) (2 ^ sh.val)))) ∧
    (s.fires d.val k.val (enc 0x15 fields) = true → t0.aget ab.val ≠ 0 →
      TaskBecomes (.divq d k {} ad aa ab rm u sh) s d.val k.val
        (held 34 (left (val (t0.aget aa.val) * 2 ^ sh.val * (val (t0.aget ab.val)).sign) (val (t0.aget ab.val)).natAbs))) ∧
    (s.fires d.val k.val (enc 0x15 fields) = true → t0.aget ab.val = 0 → Traps (.divq d k {} ad aa ab rm u sh) s d.val k.val 0x08 0) ∧
    (s.fires d.val k.val (enc 0x17 ([(ad.val, 22), (aa.val, 18), (rm.code, 9), (bnat u, 8)] ++ n.fields)) = true →
      let v : Int := val (t0.aget aa.val)
      let r := BitVec.ofInt 64 (roundDiv rm v (2 ^ m))
      TaskBecomes (.shr d k {} ad aa n rm u) s d.val k.val
        { t0.aput ad.val r with
          pc := t0.pc + 1, readyAt := s.tickNo + 1
          fl := { f with z := decide (r = 0), n := r.msb, x := f.x || decide (¬ ((2 ^ m : Nat) : Int) ∣ v) } }) ∧
    (∀ (until_ : Nat) (r : BusyRes), t0.st = .busy → t0.wait = .busy until_ r → s.time.run = true → until_ ≤ s.tickNo →
      Completes (.drvBusyEnd d k) s fun t =>
        t.getTask d.val k.val =
          { (match r.areg with
             | some p => t0.aput p.1 p.2
             | none => t0) with
            fl := r.flags.getD t0.fl, pc := if r.adv then t0.pc + 1 else t0.pc
            st := .ready, wait := .none, readyAt := s.tickNo })

/-- R229 and the rows of R228 for TADD, TADD.SUB, TSUB, TCMP and TNOW: these and the five TMOVs give their results and flags in one tick
and change nothing else; TMOV.PACK of a non-canonical value traps with NONCANON. -/
def Obligations.TimeInstructionResults : Prop :=
  ∀ (d : Fin 16) (k : Fin 8) (td ta tb : Fin 8) (ad aa ab : Fin 16) (s : State), s.nextOk d.val k.val = true →
    let t0 := s.getTask d.val k.val
    let f := t0.fl
    let after (t : Task) : Task := { t with pc := t0.pc + 1, readyAt := s.tickNo + 1 }
    let held (z : Int) : Nat := (max 0 (min z ((2 ^ 48 * lsbPerSec : Nat) - 1))).toNat
    let moved (z : Int) : Task := after { t0.tput td.val (held z) with fl := { f with v := f.v || decide ((held z : Int) ≠ z) } }
    (s.fires d.val k.val (enc 0x20 [(td.val, 23), (ta.val, 20), (ab.val, 16)]) = true →
      TaskBecomes (.tadd d k {} td ta ab) s d.val k.val (moved (t0.tget ta.val + 4 * (t0.aget ab.val).toInt))) ∧
    (s.fires d.val k.val (enc 0x20 [(td.val, 23), (ta.val, 20), (ab.val, 16), (1, 15)]) = true →
      TaskBecomes (.taddSub d k {} td ta ab) s d.val k.val (moved (t0.tget ta.val - 4 * (t0.aget ab.val).toInt))) ∧
    (s.fires d.val k.val (enc 0x21 [(ad.val, 22), (ta.val, 19), (tb.val, 16)]) = true →
      let dif : Int := (t0.tget ta.val : Int) - t0.tget tb.val
      let q := roundDiv .nearestEven dif 4
      let r := BitVec.ofInt 64 (max (-2 ^ 63) (min q (2 ^ 63 - 1)))
      TaskBecomes (.tsub d k {} ad ta tb) s d.val k.val
        (after { t0.aput ad.val r with
          fl := { f with z := decide (r = 0), n := r.msb, x := f.x || decide (¬ (4 : Int) ∣ dif)
                         v := f.v || decide (q < -2 ^ 63 ∨ 2 ^ 63 - 1 < q) } })) ∧
    (s.fires d.val k.val (enc 0x22 [(ta.val, 19), (tb.val, 16)]) = true →
      let e := decide (t0.tget ta.val < t0.tget tb.val)
      TaskBecomes (.tcmp d k {} ta tb) s d.val k.val
        (after { t0 with fl := { f with z := decide (t0.tget ta.val = t0.tget tb.val), n := e, c := e } })) ∧
    (s.fires d.val k.val (enc 0x23 [(td.val, 23)]) = true →
      TaskBecomes (.tnow d k {} td) s d.val k.val (after (t0.tput td.val (s.time.now * lsbPerNs)))) ∧
    (s.fires d.val k.val (enc 0x24 [(td.val, 22), (ta.val, 18)]) = true →
      TaskBecomes (.tmov d k {} td ta) s d.val k.val (after (t0.tput td.val (t0.tget ta.val)))) ∧
    (s.fires d.val k.val (enc 0x24 [(ad.val, 22), (ta.val, 18), (1, 0)]) = true →
      TaskBecomes (.tmovSec d k {} ad ta) s d.val k.val
        (after (t0.aput ad.val (BitVec.ofNat 64 (t0.tget ta.val / lsbPerSec))))) ∧
    (s.fires d.val k.val (enc 0x24 [(ad.val, 22), (ta.val, 18), (2, 0)]) = true →
      TaskBecomes (.tmovNsf d k {} ad ta) s d.val k.val
        (after (t0.aput ad.val (BitVec.ofNat 64 (t0.tget ta.val % lsbPerSec))))) ∧
    (s.fires d.val k.val (enc 0x24 [(td.val, 22), (aa.val, 18), (ab.val, 14), (3, 0)]) = true →
      (t0.aget ab.val).toNat / 2 ^ 18 % 2 ^ 30 < 1000000000 →
      TaskBecomes (.tmovPack d k {} td aa ab) s d.val k.val
        (after (t0.tput td.val ((t0.aget aa.val).toNat % 2 ^ 48 * lsbPerSec + (t0.aget ab.val).toNat % 2 ^ 48)))) ∧
    (s.fires d.val k.val (enc 0x24 [(td.val, 22), (4, 0)]) = true →
      TaskBecomes (.tmovZero d k {} td) s d.val k.val (after (t0.tput td.val 0))) ∧
    (s.fires d.val k.val (enc 0x24 [(td.val, 22), (aa.val, 18), (ab.val, 14), (3, 0)]) = true →
      1000000000 ≤ (t0.aget ab.val).toNat / 2 ^ 18 % 2 ^ 30 → Traps (.tmovPack d k {} td aa ab) s d.val k.val 0x03 0xFFFFFFFF)

/-- R196, R230: LD, ST, TLD and TST at an aligned address inside the data memory move 64 bits or the 12 bytes of a T96, and every other
word of the data memory keeps its value. -/
def Obligations.DataMemoryInstructions : Prop :=
  ∀ (d : Fin 16) (k : Fin 8) (ad aa : Fin 16) (td : Fin 8) (s : State), s.nextOk d.val k.val = true →
    let t0 := s.getTask d.val k.val
    let x0 := s.getDrv d.val
    let ea (off : W64) : Nat := (t0.aget aa.val + off).toNat
    let after (t : Task) : Task := { t with pc := t0.pc + 1, readyAt := s.tickNo + 1 }
    (∀ off : BitVec 18, let a := ea (off.signExtend 64)
      a % 8 = 0 → a + 8 ≤ 32768 →
      (s.fires d.val k.val (enc 0x28 [(ad.val, 22), (aa.val, 18), (off.toNat, 0)]) = true →
        TaskBecomes (.ld d k {} ad aa off) s d.val k.val (after (t0.aput ad.val (x0.dmem.get 0 (a / 8))))) ∧
      (s.fires d.val k.val (enc 0x29 [(ad.val, 22), (aa.val, 18), (off.toNat, 0)]) = true →
        Completes (.st d k {} ad aa off) s fun t =>
          t.getTask d.val k.val = after t0 ∧
          (∀ i, (t.getDrv d.val).dmem.get 0 i = if i = a / 8 then t0.aget ad.val else x0.dmem.get 0 i) ∧
          IssueFrame s t d.val k.val ∧ s.sameBesideDrovers t ∧ (t.getDrv d.val).outs = x0.outs)) ∧
    (∀ off : BitVec 14, let a := ea (off.signExtend 64)
      a % 4 = 0 → a + 12 ≤ 32768 →
      (s.fires d.val k.val (enc 0x25 [(td.val, 22), (aa.val, 18), (off.toNat, 0)]) = true →
        t96Ns (x0.tword a) < 1000000000 →
        TaskBecomes (.tld d k {} td aa off) s d.val k.val
          (after (t0.tput td.val (x0.tword a / 2 ^ 48 % 2 ^ 48 * lsbPerSec + x0.tword a % 2 ^ 48)))) ∧
      (s.fires d.val k.val (enc 0x25 [(1, 25), (td.val, 22), (aa.val, 18), (off.toNat, 0)]) = true →
        Completes (.tst d k {} td aa off) s fun t =>
          t.getTask d.val k.val = after t0 ∧
          (t.getDrv d.val).tword a = packT96 (t0.tget td.val) % 2 ^ 96 ∧
          (∀ i, i ≠ a / 4 → i ≠ a / 4 + 1 → i ≠ a / 4 + 2 → (t.getDrv d.val).dword i = x0.dword i) ∧
          IssueFrame s t d.val k.val ∧ s.sameBesideDrovers t ∧ (t.getDrv d.val).outs = x0.outs))

/-- R197, R198, R230: LDX at an aligned offset of the window, while DRAM is available, puts the task in WAIT_MEM with the 8 bytes that
DRAM holds at the issue, and LDX_RETURN gives it those; STX stores the 8 bytes of its register at the DRAM address of the window offset
and no other byte of DRAM changes; while DRAM is unavailable STX is discarded, counted and shown in DRAM_LOST. Where the rules leave a
reading open the clauses follow the model's own, log entry 40. -/
def Obligations.DramWindowInstructions : Prop :=
  ∀ (d : Fin 16) (k : Fin 8) (ad aa : Fin 16) (off : BitVec 18) (s : State), s.nextOk d.val k.val = true →
    let t0 := s.getTask d.val k.val
    let a : Nat := (t0.aget aa.val + off.signExtend 64).toNat
    let base : Nat := 0x100000000 + d.val * 0x8000000 + a
    a % 8 = 0 → a < 0x8000000 →
    (s.fires d.val k.val (enc 0x2A [(ad.val, 22), (aa.val, 18), (off.toNat, 0)]) = true → s.dramUnavail = false →
      TaskBecomes (.ldx d k {} ad aa off) s d.val k.val { t0 with st := .waitMem, wait := .ldx ad.val a s.tickNo (BitVec.ofNat 64 (memReadLE dramUnl s.dram base 8)) }) ∧
    (∀ tick v, t0.st = .waitMem → t0.wait = .ldx ad.val a tick v → s.time.run = true → s.fbit F.glbBlkRst_DRV = false →
      tick < s.tickNo → s.tickNo ≤ tick + 2000 → s.dramUnavail = false →
      Completes (.ldxReturn d k false) s fun t =>
        t.getTask d.val k.val =
          { t0.aput ad.val v with
            pc := t0.pc + 1, st := .ready, wait := .none, readyAt := s.tickNo } ∧
        t.dram = s.dram) ∧
    (s.fires d.val k.val (enc 0x2B [(ad.val, 22), (aa.val, 18), (off.toNat, 0)]) = true →
      (s.dramUnavail = false → Memory.wf dramUnl s.dram = true →
        Completes (.stx d k {} ad aa off) s fun t =>
          t.getTask d.val k.val = { t0 with pc := t0.pc + 1, readyAt := s.tickNo + 1 } ∧
          (∀ i, i < 8 → memRead dramUnl t.dram (base + i) = BitVec.ofNat 8 ((t0.aget ad.val).toNat / 2 ^ (8 * i))) ∧
          (∀ x, (x < base ∨ base + 8 ≤ x) → memRead dramUnl t.dram x = memRead dramUnl s.dram x) ∧
          IssueFrame s t d.val k.val) ∧
      (s.dramUnavail = true →
        Completes (.stx d k {} ad aa off) s fun t =>
          t.getTask d.val k.val = { t0 with pc := t0.pc + 1, readyAt := s.tickNo + 1 } ∧
          t.dram = s.dram ∧ t.fbit F.drvStat_DRAM_LOST d.val = true ∧
          t.rget ⟨.drvCntDramLost, d.val, 0, 0⟩ = min (s.rget ⟨.drvCntDramLost, d.val, 0, 0⟩ + 1) 0xFFFFFFFF))

/-- R182, R223 to R225: NOP, B, BC, CALL, RET, LOOP, ENDL and ENDL.POP move the PC and the two stacks as their rows say, in one tick,
while the index they go to is inside the program and the stacks admit them; YIELD waits its ticks; HALT stops its task at the instruction
after it. Where the rules leave a reading open the clauses follow the model's own, log entry 39. -/
def Obligations.ControlFlowResults : Prop :=
  ∀ (d : Fin 16) (k : Fin 8) (target : BitVec 14) (s : State),
    let t0 := s.getTask d.val k.val
    let len := s.fget F.drvProg_LEN d.val
    let on (p : Nat) (t : Task) : Task := { t with pc := p, readyAt := s.tickNo + 1 }
    let next := t0.pc + 1
    (s.fires d.val k.val (enc 0x00 []) = true → next < len → TaskBecomes (.nop d k {}) s d.val k.val (on next t0)) ∧
    (s.fires d.val k.val (enc 0x01 []) = true → next < 16384 →
      TaskBecomes (.halt d k {}) s d.val k.val { t0 with st := .stopped, wait := .none, pc := next }) ∧
    (∀ n : Fin 1024, s.fires d.val k.val (enc 0x02 [(n.val, 0)]) = true → next < len →
      TaskBecomes (.yield d k {} n) s d.val k.val
        (if n.val = 0 then on next t0 else { t0 with st := .waitTime, wait := .yield (s.tickNo + n.val + 1) })) ∧
    (s.fires d.val k.val (enc 0x04 [(target.toNat, 0)]) = true → target.toNat < len →
      TaskBecomes (.b d k {} target) s d.val k.val (on target.toNat t0)) ∧
    (∀ cond : Fin 15, s.fires d.val k.val (enc 0x05 [(cond.val, 22), (target.toNat, 0)]) = true → target.toNat < len → next < len →
      let f := t0.fl
      let holds : List Bool := [true, f.z, !f.z, f.n, !f.n, !f.n && !f.z, f.n || f.z, f.c, !f.c, f.v, !f.v, f.x, !f.x, f.l, !f.l]
      TaskBecomes (.bc d k {} cond target) s d.val k.val (on (if holds.getD cond.val false then target.toNat else next) t0)) ∧
    (s.fires d.val k.val (enc 0x06 [(target.toNat, 0)]) = true → target.toNat < len → t0.cstack.length < 16 →
      TaskBecomes (.call d k {} target) s d.val k.val (on target.toNat { t0 with cstack := next :: t0.cstack })) ∧
    (∀ (a : Nat) (r : List Nat), s.fires d.val k.val (enc 0x07 []) = true → t0.cstack = a :: r → a < len →
      TaskBecomes (.ret d k {}) s d.val k.val (on a { t0 with cstack := r })) ∧
    (∀ c : LpSrc, s.fires d.val k.val (enc 0x08 ([(target.toNat, 11)] ++ c.fields)) = true →
      let n : Nat := match c with
        | .imm m => m.val
        | .reg aa => (t0.aget aa.val).toNat % 2 ^ 32
      (n = 0 → target.toNat + 1 < len → TaskBecomes (.loop d k {} c target) s d.val k.val (on (target.toNat + 1) t0)) ∧
      (n ≠ 0 → next < len → t0.lstack.length < 4 →
        TaskBecomes (.loop d k {} c target) s d.val k.val (on next { t0 with lstack := ⟨next, target.toNat, n⟩ :: t0.lstack }))) ∧
    (∀ (l : LoopEnt) (r : List LoopEnt), s.fires d.val k.val (enc 0x09 []) = true → t0.lstack = l :: r → l.stop = t0.pc →
      (1 < l.left → l.start < len →
        TaskBecomes (.endl d k {}) s d.val k.val (on l.start { t0 with lstack := { l with left := l.left - 1 } :: r })) ∧
      (l.left ≤ 1 → next < len → TaskBecomes (.endl d k {}) s d.val k.val (on next { t0 with lstack := r }))) ∧
    (∀ (l : LoopEnt) (r : List LoopEnt), s.fires d.val k.val (enc 0x09 [(1, 25)]) = true → t0.lstack = l :: r → next < len →
      TaskBecomes (.endlPop d k {}) s d.val k.val (on next { t0 with lstack := r }))

/-- R195, R199, R200, R221: TRAP and every illegal word trap as their own effect; CALL onto a full stack and RET from an empty one trap
with STACK; LOOP onto a full loop stack and an ENDL with no open loop, or one that does not end the open loop, trap with LOOP; a
misaligned LD, ST, TLD, TST, LDX and STX or one out of range, and a branch past the end of the program trap with their codes. A trap
leaves the task's registers, flags, stacks and PC as they were. Where the rules leave a reading open the clauses follow the model's own,
log entry 39. -/
def Obligations.TrapsArePrecise : Prop :=
  ∀ (d : Fin 16) (k : Fin 8) (target : BitVec 14) (ad aa : Fin 16) (td : Fin 8) (s : State),
    let t0 := s.getTask d.val k.val
    let ea (off : W64) : Nat := (t0.aget aa.val + off).toNat
    (∀ imm : BitVec 16, s.fires d.val k.val (enc 0x03 [(imm.toNat, 0)]) = true → Traps (.trap d k {} imm) s d.val k.val 0x02 imm.toNat) ∧
    (∀ w : Word, s.issues d.val k.val w = true → legalWord w.toNat t0.pc = false → Traps (.illegal d k {} w) s d.val k.val 0x01 w.toNat) ∧
    (s.fires d.val k.val (enc 0x04 [(target.toNat, 0)]) = true → s.fget F.drvProg_LEN d.val ≤ target.toNat →
      Traps (.b d k {} target) s d.val k.val 0x05 target.toNat) ∧
    (s.fires d.val k.val (enc 0x06 [(target.toNat, 0)]) = true → t0.cstack.length = 16 →
      Traps (.call d k {} target) s d.val k.val 0x06 16) ∧
    (s.fires d.val k.val (enc 0x07 []) = true → t0.cstack = [] → Traps (.ret d k {}) s d.val k.val 0x06 0) ∧
    (∀ n : Fin 2048, s.fires d.val k.val (enc 0x08 ([(target.toNat, 11)] ++ (LpSrc.imm n).fields)) = true → n.val ≠ 0 →
      t0.lstack.length = 4 → Traps (.loop d k {} (.imm n) target) s d.val k.val 0x07 4) ∧
    (s.fires d.val k.val (enc 0x09 []) = true → t0.lstack = [] → Traps (.endl d k {}) s d.val k.val 0x07 0) ∧
    (∀ (l : LoopEnt) (r : List LoopEnt), s.fires d.val k.val (enc 0x09 []) = true → t0.lstack = l :: r → l.stop ≠ t0.pc →
      Traps (.endl d k {}) s d.val k.val 0x07 (r.length + 1)) ∧
    (s.fires d.val k.val (enc 0x09 [(1, 25)]) = true → t0.lstack = [] → Traps (.endlPop d k {}) s d.val k.val 0x07 0) ∧
    (∀ off : BitVec 18, let a := ea (off.signExtend 64)
      (a % 8 ≠ 0 ∨ 32768 < a + 8) →
      (s.fires d.val k.val (enc 0x28 [(ad.val, 22), (aa.val, 18), (off.toNat, 0)]) = true → Traps (.ld d k {} ad aa off) s d.val k.val 0x04 a) ∧
      (s.fires d.val k.val (enc 0x29 [(ad.val, 22), (aa.val, 18), (off.toNat, 0)]) = true → Traps (.st d k {} ad aa off) s d.val k.val 0x04 a)) ∧
    (∀ off : BitVec 14, let a := ea (off.signExtend 64)
      (a % 4 ≠ 0 ∨ 32768 < a + 12) →
      (s.fires d.val k.val (enc 0x25 [(td.val, 22), (aa.val, 18), (off.toNat, 0)]) = true → Traps (.tld d k {} td aa off) s d.val k.val 0x04 a) ∧
      (s.fires d.val k.val (enc 0x25 [(1, 25), (td.val, 22), (aa.val, 18), (off.toNat, 0)]) = true →
        Traps (.tst d k {} td aa off) s d.val k.val 0x04 a)) ∧
    (∀ off : BitVec 18, let a := ea (off.signExtend 64)
      (a % 8 ≠ 0 ∨ 0x8000000 ≤ a) →
      (s.fires d.val k.val (enc 0x2A [(ad.val, 22), (aa.val, 18), (off.toNat, 0)]) = true → Traps (.ldx d k {} ad aa off) s d.val k.val 0x0C a) ∧
      (s.fires d.val k.val (enc 0x2B [(ad.val, 22), (aa.val, 18), (off.toNat, 0)]) = true → Traps (.stx d k {} ad aa off) s d.val k.val 0x0C a))

/-- R71, R185, R231: EDGE, PULSE, TRAIN, PROF and CANCEL offer to the channel they name, with TAG + 1 and for acceptance two ticks after
the issue, the entry that the task's registers and the encoded bits spell, and hold the task BUSY until its result; only the offers of
that channel, the task and what every issue changes differ. -/
def Obligations.EdgeInstructionsOffer : Prop :=
  ∀ (d : Fin 16) (k : Fin 8) (ch : ChSrc) (ts : Fin 8) (s : State), s.nextOk d.val k.val = true →
    let t0 := s.getTask d.val k.val
    let n : Nat := match ch with
      | .imm c => c.val
      | .reg ar => (t0.aget ar.val).toNat % 64
    let start := packT96 (t0.tget ts.val) * 2 ^ 32
    let width (aw : Fin 16) : Nat := (t0.aget aw.val).toNat * 2 ^ 128
    let count (ac : Fin 16) : Nat := (t0.aget ac.val).toNat % 2 ^ 32 * 2 ^ 288
    let offers (i : Instr) (entry : Nat) : Prop :=
      Completes i s fun t =>
        t.getTask d.val k.val = { t0 with st := .busy, wait := .action n, offer := entry } ∧
        (t.getEo n).offers = (s.getEo n).offers ++ [{ src := .task d k, entry := entry, tag := t0.tag + 1, due := s.tickNo + 2 }] ∧
        { t.getEo n with offers := (s.getEo n).offers } = s.getEo n ∧ (∀ m, m ≠ n → t.getEo m = s.getEo m) ∧
        IssueFrame s t d.val k.val ∧ { t with regs := s.regs, drv := s.drv, eo := s.eo } = s
    (∀ level : Bool, s.fires d.val k.val (enc 0x30 (ch.fields ++ [(ts.val, 16), (bnat level, 15)])) = true →
      offers (.edge d k {} ch ts level) (16 * bnat level + start)) ∧
    (∀ aw : Fin 16, s.fires d.val k.val (enc 0x31 (ch.fields ++ [(ts.val, 16), (aw.val, 12)])) = true →
      offers (.pulse d k {} ch ts aw) (1 + start + width aw)) ∧
    (∀ (aw : Fin 16) (ap : Fin 8) (ac : Fin 16) (unlim chain : Bool),
      s.fires d.val k.val (enc 0x32 (ch.fields ++
        [(ts.val, 16), (aw.val, 12), (2 * ap.val, 8), (ac.val, 4), (bnat unlim, 3), (bnat chain, 2)])) = true →
      offers (.train d k {} ch ts aw ap ac unlim chain)
        (2 + 32 * bnat unlim + 64 * bnat chain + start + width aw +
          ((t0.aget (2 * ap.val)).toNat + (t0.aget (2 * ap.val + 1)).toNat % 2 ^ 16 * 2 ^ 64) * 2 ^ 192 + count ac)) ∧
    (∀ (ac : Fin 16) (cont bank : Bool),
      s.fires d.val k.val (enc 0x33 (ch.fields ++ [(ts.val, 16), (ac.val, 12), (bnat cont, 11), (bnat bank, 10)])) = true →
      offers (.prof d k {} ch ts ac cont bank) (3 + 128 * bnat cont + 256 * bnat bank + start + count ac)) ∧
    (s.fires d.val k.val (enc 0x34 (ch.fields ++ [(ts.val, 16)])) = true → offers (.cancel d k {} ch ts) (4 + start))

/-- R185, R189, R190, R232, R233: WAITT and WAITE complete at once or put the task in its wait, as the device time, the inputs of the mask
and the expiry say: the wake sets TAG, WAKE, WTIME, Z and L. Where the rules leave a reading open the clauses follow the model's own, log
entry 5. -/
def Obligations.WaitInstructions : Prop :=
  ∀ (d : Fin 16) (k : Fin 8) (ta : Fin 8) (mask : BitVec 4) (x : Bool) (ao : Fin 16) (s : State), s.nextOk d.val k.val = true →
    let t0 := s.getTask d.val k.val
    let now : Instant := s.time.now * lsbPerNs
    let at_ := t0.tget ta.val
    let expiry : Instant := (max 0 (min ((now : Int) + 4 * (t0.aget ao.val).toInt) ((2 ^ 48 * lsbPerSec : Nat) - 1))).toNat
    (s.fires d.val k.val (enc 0x38 [(ta.val, 23)]) = true →
      TaskBecomes (.waitt d k {} ta) s d.val k.val
        (if at_ ≤ now then
          { t0 with st := .ready, wait := .none, tag := 0, wake := 0x200, wtime := at_, pc := t0.pc + 1, readyAt := s.tickNo + 1
                    fl := { t0.fl with l := t0.fl.l || decide (at_ < now) } }
         else { t0 with st := .waitTime, wait := .instant at_ false })) ∧
    (s.fires d.val k.val (enc 0x39 [(mask.toNat, 22), (bnat x, 21), (ao.val, 17)]) = true →
      ((∀ i, i < 4 → bit mask.toNat i = true → (t0.iget i).count = 0) →
        TaskBecomes (.waite d k {} mask x ao) s d.val k.val
          (if x = true ∧ expiry ≤ now then
            { t0 with st := .ready, wait := .none, tag := 0, wake := 0x300, wtime := expiry, pc := t0.pc + 1, readyAt := s.tickNo + 1
                      fl := { t0.fl with z := true } }
           else { t0 with st := .waitEvent, wait := .event mask.toNat (if x then some expiry else none) })) ∧
      (∀ i, i < 4 → bit mask.toNat i = true → 0 < (t0.iget i).count → (t0.iget i).fifo ≠ [] →
        Completes (.waite d k {} mask x ao) s fun t =>
          let t1 := t.getTask d.val k.val
          t1.st = .ready ∧ t1.wait = .none ∧ t1.pc = t0.pc + 1 ∧ t1.readyAt = s.tickNo + 1 ∧ t1.fl = { t0.fl with z := false } ∧
          t1.wake / 0x100 = 1 ∧ bit t1.wake i = true ∧ (t0.iget i).tag ≤ t1.tag ∧
          (∀ h r, (t0.iget i).fifo = h :: r → t1.wtime ≤ h) ∧ t1.inp = t0.inp ∧ t1.a = t0.a ∧ t1.t = t0.t ∧ TaskFrame s t d.val k.val))

/-- R234 to R238: SIGNAL raises its event two ticks on with TAG + 1, in tick issue + 2; ARM, ARM.DIS, both for a unit and for a trigger
slot, and MEAS send what reaches their target in tick issue + 2; LAUNCH holds its task BUSY with the frame it describes. SIGNAL and the
ARMs take one tick. Where the rules leave a reading open the clauses follow the model's own, log entries 5, 41. -/
def Obligations.SignalArmMeasureLaunch : Prop :=
  ∀ (d : Fin 16) (k : Fin 8) (ts : Bool) (tt : Fin 8) (s : State), s.nextOk d.val k.val = true →
    let t0 := s.getTask d.val k.val
    let now : Instant := s.time.now * lsbPerNs
    let stamp : Instant := if ts then t0.tget tt.val else now
    let after : Task := { t0 with pc := t0.pc + 1, readyAt := s.tickNo + 1 }
    let sends (i : Instr) (T : Task) (o : DrvOut) : Prop :=
      Completes i s fun t =>
        t.getTask d.val k.val = T ∧ (t.getDrv d.val).outs = (s.getDrv d.val).outs ++ [(s.tickNo + 2, o)] ∧
        (t.getDrv d.val).dmem = (s.getDrv d.val).dmem ∧ IssueFrame s t d.val k.val ∧ s.sameBesideDrovers t
    (∀ sg : Fin 8, s.fires d.val k.val (enc 0x3A [(sg.val, 23), (bnat ts, 22), (tt.val, 19)]) = true →
      Completes (.signal d k {} sg ts tt) s fun t =>
        t.getTask d.val k.val = after ∧ IssueFrame s t d.val k.val ∧
        t.dw = { s.dw with soon := s.dw.soon ++ [⟨0x2C0 + 8 * d.val + sg.val, stamp, t0.tag + 1, s.tickNo + 2, []⟩] } ∧
        { t with regs := s.regs, drv := s.drv, dw := s.dw } = s) ∧
    (∀ u : Fin 96,
      (s.fires d.val k.val (enc 0x3B [(u.val, 17), (bnat ts, 16), (tt.val, 13)]) = true →
        sends (.armTiu d k {} u ts tt) after (.arm u.val stamp (t0.tag + 1))) ∧
      (s.fires d.val k.val (enc 0x3B [(1, 24), (u.val, 17), (bnat ts, 16), (tt.val, 13)]) = true →
        sends (.disarmTiu d k {} u ts tt) after (.disarm u.val stamp))) ∧
    (∀ n : Fin 64,
      (s.fires d.val k.val (enc 0x3B [(1, 25), (n.val, 17), (bnat ts, 16), (tt.val, 13)]) = true →
        sends (.armEoSlot d k {} n ts tt) after (.slot n.val true)) ∧
      (s.fires d.val k.val (enc 0x3B [(1, 25), (1, 24), (n.val, 17), (bnat ts, 16), (tt.val, 13)]) = true →
        sends (.disarmEoSlot d k {} n ts tt) after (.slot n.val false))) ∧
    (∀ (td : Fin 8) (ad : Fin 16) (u : Fin 96) (x na : Bool) (ao : Fin 16),
      s.fires d.val k.val (enc 0x3C [(td.val, 23), (ad.val, 19), (u.val, 12), (ao.val, 8), (bnat x, 7), (bnat na, 6)]) = true →
      let expiry : Instant := (max 0 (min ((now : Int) + 4 * (t0.aget ao.val).toInt) ((2 ^ 48 * lsbPerSec : Nat) - 1))).toNat
      sends (.meas d k {} td ad u x na ao)
        { t0 with st := .waitMeas, wait := .meas u.val td.val ad.val (s.tickNo + 2) now (if x then some expiry else none) none }
        (.meas k.val u.val (!na) now (t0.tag + 1))) ∧
    (∀ (p : Fin 52) (aa : Fin 16), s.fires d.val k.val (enc 0x3D [(p.val, 20), (tt.val, 17), (aa.val, 13)]) = true →
      s.dramUnavail = false →
      TaskBecomes (.launch d k {} p tt aa) s d.val k.val
        { t0 with st := .busy, wait := .launch p.val (t0.aget aa.val).toNat (t0.tget tt.val) s.tickNo })

/-- R187, R193, R194, R239: CSR reads a control word into the register of its width (INTAKE consumes what the input held before the group
of this tick, INTS pops its FIFO and writes Z), writes FLAGS, POL and TCTL, reads the BAR0 word at the issue tick into its register 3
ticks on, and sends a BAR0 write that acts in the next tick; a word that is not listed, a register of the wrong width, an address outside
the permission of the Drover trap with CSR_DENY. -/
def Obligations.ControlWordAccess : Prop :=
  ∀ (d : Fin 16) (k : Fin 8) (ad aa : Fin 16) (td : Fin 8) (i : Fin 4) (s : State), s.nextOk d.val k.val = true →
    let t0 := s.getTask d.val k.val
    let after (t : Task) : Task := { t with pc := t0.pc + 1, readyAt := s.tickNo + 1 }
    let inp := t0.iget i.val
    let before := t0.ibefore i.val s.tickNo
    let take (v : TaskIn) : Task := t0.itake i.val s.tickNo v
    let rdA (n : BitVec 12) (T : Task) : Prop :=
      s.fires d.val k.val (enc 0x3E ((CsrReg.a ad).fields ++ [(n.toNat, 0)])) = true →
      TaskBecomes (.csrReadCw d k {} (.a ad) n) s d.val k.val (after T)
    let rdT (n : BitVec 12) (T : Task) : Prop :=
      s.fires d.val k.val (enc 0x3E ((CsrReg.t td).fields ++ [(n.toNat, 0)])) = true →
      TaskBecomes (.csrReadCw d k {} (.t td) n) s d.val k.val (after T)
    let wr (n : BitVec 12) : Word := enc 0x3E ([(1, 24)] ++ (CsrReg.a aa).fields ++ [(n.toNat, 0)])
    let v := (t0.aget aa.val).toNat
    rdA 0x000 (t0.aput ad.val (BitVec.ofNat 64 t0.tag)) ∧
    rdA 0x001 (t0.aput ad.val (BitVec.ofNat 64 t0.wake)) ∧
    rdT 0x002 (t0.tput td.val t0.wtime) ∧
    rdA (4 + BitVec.ofNat 12 i.val) (t0.aput ad.val (BitVec.ofNat 64 inp.pack)) ∧
    rdA (8 + BitVec.ofNat 12 i.val) ((take {}).aput ad.val (BitVec.ofNat 64 before.pack)) ∧
    (before.fifo = [] → rdT (12 + BitVec.ofNat 12 i.val) ({ t0 with fl := { t0.fl with z := true } }.tput td.val 0)) ∧
    (∀ h r, before.fifo = h :: r →
      rdT (12 + BitVec.ofNat 12 i.val)
        ({ take { before with fifo := r } with fl := { t0.fl with z := false } }.tput td.val h)) ∧
    rdA 0x012 (t0.aput ad.val (BitVec.ofNat 64 t0.ares)) ∧
    (s.fires d.val k.val (enc 0x3E ((CsrReg.t td).fields ++ [(0, 0)])) = true →
      Traps (.csrReadCw d k {} (.t td) 0x000) s d.val k.val 0x0B 0) ∧
    (s.fires d.val k.val (wr 0x010) = true →
      TaskBecomes (.csrWriteCw d k {} (.a aa) 0x010) s d.val k.val
        (after { t0 with fl := ⟨bit v 0, bit v 1, bit v 2, bit v 3, bit v 4, bit v 5⟩ })) ∧
    (s.fires d.val k.val (wr 0x011) = true →
      TaskBecomes (.csrWriteCw d k {} (.a aa) 0x011) s d.val k.val (after { t0 with lpol := bit v 0, qstall := bit v 1 })) ∧
    (∀ j : Fin 8, s.fires d.val k.val (wr (0x020 + BitVec.ofNat 12 j.val)) = true →
      Completes (.csrWriteCw d k {} (.a aa) (0x020 + BitVec.ofNat 12 j.val)) s fun t =>
        t.getTask d.val k.val = after t0 ∧
        (t.getDrv d.val).outs = (s.getDrv d.val).outs ++ [(s.tickNo + 1, .tctl j.val (v % 2 ^ 32))] ∧
        IssueFrame s t d.val k.val ∧ s.sameBesideDrovers t) ∧
    (s.fires d.val k.val (wr 0x000) = true → Traps (.csrWriteCw d k {} (.a aa) 0x000) s d.val k.val 0x0B 0) ∧
    (s.fires d.val k.val (enc 0x3E [(2, 24), (ad.val, 19), (aa.val, 15)]) = true →
      (s.csrReach d.val v = true →
        Completes (.csrReadBar0 d k {} ad aa) s fun t =>
          ∃ w, (t.getTask d.val k.val).st = .busy ∧
            (t.getTask d.val k.val).wait = .busy (s.tickNo + 3) { areg := some (ad.val, BitVec.ofNat 64 w) } ∧
            w = ((s.markIssue d.val k.val).busReadWord (.drv d) v).1) ∧
      (s.csrReach d.val v = false → Traps (.csrReadBar0 d k {} ad aa) s d.val k.val 0x0B v)) ∧
    (s.fires d.val k.val (enc 0x3E [(3, 24), (ad.val, 19), (aa.val, 15)]) = true →
      (s.csrReach d.val v = true → csrNoWrite v = false →
        Completes (.csrWriteBar0 d k {} ad aa) s fun t =>
          t.getTask d.val k.val = after t0 ∧
          (t.getDrv d.val).outs = (s.getDrv d.val).outs ++ [(s.tickNo + 1, .csr v ((t0.aget ad.val).toNat % 2 ^ 32))] ∧
          IssueFrame s t d.val k.val ∧ s.sameBesideDrovers t) ∧
      ((s.csrReach d.val v = false ∨ csrNoWrite v = true) → Traps (.csrWriteBar0 d k {} ad aa) s d.val k.val 0x0B v))

/-! ### Self-calibration (R240 to R269) -/

/-- R242 to R252, R254 to R257: a region whose sensor has moved is scheduled; a channel or unit is held only in a gap, and its trims are
set; a complete code-density histogram brings its widths into force or is rejected with its code; a tap run of a held channel that fails
leaves the table, a first one waits for its boundary or enters an idle channel, one that keeps the selection blends; a pin run sets the
ball term; a region's end takes its temperature, updates the offsets and raises CAL_DONE; a run not done in 60 s is starved. Where the
rules leave a reading open the clauses follow the model's own, log entries 49, 51. -/
def Obligations.CalibrationRunsEnd : Prop :=
  ∀ (s : State),
    (∀ r : Fin 12, s.glb.limited = false →
      let x := s.getCalReg r.val
      let moved := s.fbit F.calCtl_TEMP_EN = true ∧ s.tempMoved r.val x.tcap = true ∧ s.calWaits r.val = false
      x.running = false → x.pending = false →
      (moved →
        Completes .calTempEval s fun t =>
          (s.deg = false → t.getCalReg r.val = { x with running := true, byTemp := true, t0 := s.regionTemp r.val, rej := 0, did := [] }) ∧
          (s.deg = true → t.getCalReg r.val = { x with pending := true, byTemp := true, rej := 0, did := [] }) ∧ { t with cal := s.cal } = s) ∧
      (¬ moved → Completes .calTempEval s fun t => t.getCalReg r.val = x ∧ { t with cal := s.cal } = s)) ∧
    (∀ (n : Fin 64) (steps : List (List Nat)),
      (s.calHalted = false → s.gapEo n.val = true → s.calBankOn n.val = true → (s.calRun true n.val).isSome = true →
        Completes (.calHold true ⟨n, steps⟩) s fun t =>
          (t.getCalEo n.val).hold = true ∧ t.getTiu (32 + n.val) = { s.getTiu (32 + n.val) with calHeld := true } ∧ t.regs = s.regs ∧ t.eo = s.eo) ∧
      (s.calHalted = false → s.gapEo n.val = true → s.calBankOn n.val = false → s.onDither (32 + n.val) = true →
        Completes (.calHold true ⟨n, steps⟩) s fun t =>
          t.getCalEo n.val = s.getCalEo n.val ∧ t.getTiu (32 + n.val) = { s.getTiu (32 + n.val) with calHeld := true } ∧ t.eo = s.eo) ∧
      ((s.calHalted = true ∨ s.gapEo n.val = false) → Completes (.calHold true ⟨n, steps⟩) s fun t => t = s) ∧
      (∀ run, n.val < 32 → s.calHalted = false → s.gapTiu n.val = true → s.calRun false n.val = some run → s.onDither n.val = true →
        Completes (.calHold false ⟨n, steps⟩) s fun t =>
          t.getTiu n.val = { s.getTiu n.val with calHeld := true } ∧ { t with tiu := s.tiu, cal := s.cal } = s ∧
          (run.trim = none →
            t.calRun false n.val = some { run with trim := some (chooseTrims (s.getCalTiu n.val).vtrim steps), h := [] }))) ∧
    (∀ (u : Fin 96) (run : CalRun), s.calRun false u.val = some run →
      let trims := run.trim.getD (s.getCalTiu u.val).vtrim
      (s.calHalted = false → run.complete = true → (s.judgeCd u.val run.h run.log).1 = 0 →
        Completes (.cdRunDone u run.h trims) s fun t =>
          (t.getCalTiu u.val).w = some (run.h.map fun c => c * 2 ^ (24 - run.log)) ∧
          (t.getCalTiu u.val).vtrim = trims ∧
          (t.getCalTiu u.val).code = 0 ∧ t.calRun false u.val = none ∧ t.eo = s.eo ∧ t.time = s.time) ∧
      (s.calHalted = false → run.complete = true → (∃ x ∈ run.h, x < 64) →
        Completes (.cdRunDone u run.h trims) s fun t =>
          (t.getCalTiu u.val).w = (s.getCalTiu u.val).w ∧ (t.getCalTiu u.val).code = 2 ∧ t.fbit F.calStat_REJECT = true ∧
          t.calRun false u.val = none ∧ t.eo = s.eo ∧ t.time = s.time) ∧
      (∀ h vtrim, (s.calHalted = true ∨ run.complete = false ∨ run.h ≠ h ∨ trims ≠ vtrim) → Completes (.cdRunDone u h vtrim) s fun t => t = s)) ∧
    (∀ (n : Fin 64) (m : TapMeas) tab code, s.calHalted = false → (s.calRun true n.val).isSome = true → s.cdFirst n.val = false →
      s.calBankOn n.val = true → (s.getCalEo n.val).hold = true → s.judgeTap n.val m = some (tab, code) →
      let c := s.getCalEo n.val
      let slew := s.fget F.calSlew_SLEW
      ((tapSelect (c.inForce.map EoTab.mask) m).1.length < 32 → code = 5) ∧
      (code ≠ 0 →
        Completes (.tapRunDone n m) s fun t =>
          (t.getCalEo n.val).tab = c.tab ∧ (t.getCalEo n.val).pend = c.pend ∧ (t.getCalEo n.val).code = code ∧
          t.fbit F.calStat_REJECT = true ∧ t.calRun true n.val = none ∧ (t.getCalEo n.val).hold = false) ∧
      (code = 0 → c.inForce = none →
        (s.fbit F.calEoPol_B_IDLE n.val = true → s.fbit F.eoCtl_EN n.val = false →
          Completes (.tapRunDone n m) s fun t =>
            (t.getCalEo n.val).tab = some tab ∧ (t.getCalEo n.val).code = 0 ∧ (t.getCalEo n.val).hold = false ∧ t.calRun true n.val = none) ∧
        (s.fbit F.calEoPol_B_IDLE n.val = false →
          Completes (.tapRunDone n m) s fun t =>
            (t.getCalEo n.val).pend = some tab ∧ (t.getCalEo n.val).tab = c.tab ∧ (t.getCalEo n.val).code = 0)) ∧
      (∀ o, code = 0 → c.inForce = some o → c.pend = none → o.mask = tab.mask → o.trim = tab.trim → slew ≠ 0 →
        Completes (.tapRunDone n m) s fun t =>
          (t.getCalEo n.val).tab = some tab ∧
          (t.getCalEo n.val).blend = (if blendM o tab = 0 then none else some ⟨o, tab, 0, blendM o tab, slew⟩))) ∧
    (∀ (n : Fin 64) (mon replica : Nat) (l : CalLong), s.cal.long = some l → l.op = .pin n.val → 4096 ≤ l.pos → s.calHalted = false →
      s.calBankOn n.val = true → mon < 2 ^ 26 →
      (Completes (.pinRunDone n mon replica false) s fun t =>
        (t.getCalEo n.val).k = some ((mon : Int) - replica) ∧ (t.getCalEo n.val).pin = true ∧ (t.getCalEo n.val).code = 0 ∧
        (s.fbit F.calCtl_AUTOSAVE = false → t.cal.long = none) ∧ t.raises Prod.calDone (s.time.now * lsbPerNs) 0 s.tickNo) ∧
      Completes (.pinRunDone n mon replica true) s fun t =>
        (t.getCalEo n.val).k = (s.getCalEo n.val).k ∧ (t.getCalEo n.val).code = 9 ∧ t.cal.long = none ∧ t.fbit F.calStat_REJECT = true) ∧
    (∀ r : Fin 12,
      let x := s.getCalReg r.val
      x.running = true → s.regionIdle r.val = true → s.calHalted = false →
        Completes (.regionRunDone r) s fun t =>
          (t.getCalReg r.val).running = false ∧ (x.rej = 0 → (t.getCalReg r.val).tcap = x.t0) ∧
          (x.rej ≠ 0 → (t.getCalReg r.val).tcap = x.tcap) ∧
          (∀ u ∈ regionUnits r.val, let c := s.getCalTiu u
            t.fget F.tiuOfs_OFS u = bitsOf 32 (c.ofs25.getD (Config.fusedOfs25 u) +
              roundDiv .nearestEven (c.tc.getD (Config.fusedTc u) * (signedOf 16 x.t0 - 25 * 256)) 1000000)) ∧
          t.raises Prod.calDone (s.time.now * lsbPerNs) 0 s.tickNo ∧ t.eo = s.eo ∧ t.time = s.time) ∧
    (∀ (eo : Bool) (i : Fin 96) (run : CalRun), s.calRun eo i.val = some run →
      (run.sched + 60000000000 ≤ s.tickNo →
        Completes (.calRunStarved eo i) s fun t =>
          t.fbit F.calStat_STARVED = true ∧ t.calRun eo i.val = none ∧ (∃ y ∈ t.cal.retries, y.eo = eo ∧ y.idx = i.val) ∧
          (if eo then (t.getCalEo i.val).code else (t.getCalTiu i.val).code) = 0x0A) ∧
      (s.tickNo < run.sched + 60000000000 → Completes (.calRunStarved eo i) s fun t => t = s))

/-- R253, R255, R258, R261 to R264, R266, R268: each command answers its requester with the code of R266 or waits for its run or long
operation; APPLY and the loads bring a table in; ABORT ends all runs and keeps the values; EXPORT and SAVE form the image of the values
now and write it as they go on, SAVE to the slot not preferred with its commit word; IMPORT judges it, and start-up takes the better slot
or calibrates. Where the rules leave a reading open the clauses follow the model's own, log entries 50, 51. -/
def Obligations.CalibrationCommandsAndImages : Prop :=
  ∀ (s : State),
    (∀ (q : Port) (arg : BitVec 8), s.writable q.req .calCmd = true →
      let a := arg.toNat
      let seq := ((s.getCalRes q.req).seq + 1) % 256
      let answers (i : Instr) (code : Nat) (P : State → Prop) : Prop :=
        Completes i s fun t => t.getCalRes q.req = ⟨seq, true, code⟩ ∧ P t
      let waits (i : Instr) (P : State → Prop) : Prop :=
        Completes i s fun t => t.getCalRes q.req = ⟨seq, false, 1⟩ ∧ P t
      let waitsFor (w : CalWhat) (t : State) : Prop := (⟨q.req, seq, w⟩ : CalWaiter) ∈ t.cal.waits ∧ t.regs = s.regs
      let starts (op : CalOp) (t : State) : Prop := t.fget F.mbLong_SRC = 2 ∧ ∃ l, t.cal.long = some l ∧ l.op = op ∧
        l.by_ = some (q.req, seq) ∧ l.rej = 0 ∧ l.since = s.tickNo ∧ l.pos = 0 ∧
        (op = .exportImg → l.img = s.image s.cal.seq ∧ l.base = s.imgAddr) ∧
        (op = .save → l.img = s.image s.saveSlot.2 ∧ l.base = calSlotAddr s.saveSlot.1)
      let free := s.fget F.mbLong_SRC = 0
      let same (t : State) : Prop := t.regs = s.regs ∧ t.cal.eo = s.cal.eo ∧ t.cal.tiu = s.cal.tiu ∧ t.cal.long = s.cal.long
      (s.glb.limited = false → a < 12 →
        waits (.runRegion q arg) fun t => waitsFor (.region a) t ∧ (s.deg = false → (t.getCalReg a).running = true) ∧
          ((s.getCalReg a).running = false → ∀ u ∈ regionUnits a, (t.calRun false u).isSome = true)) ∧
      (s.glb.limited = false → a < 96 → waits (.runTiu q arg) fun t => waitsFor (.unit a) t ∧ (t.calRun false a).isSome = true) ∧
      (s.glb.limited = false → a < 64 → waits (.runEo q arg) fun t => waitsFor (.chan a) t ∧ (t.calRun true a).isSome = true) ∧
      (12 ≤ a → answers (.runRegion q arg) 0x0D same) ∧ (96 ≤ a → answers (.runTiu q arg) 0x0D same) ∧
      (64 ≤ a → answers (.runEo q arg) 0x0D same) ∧ (64 ≤ a → answers (.calPin q arg) 0x0D same) ∧
      (64 ≤ a → answers (.calApply q arg) 0x0D same) ∧ (96 ≤ a → answers (.loadTiu q arg) 0x0D same) ∧
      (64 ≤ a → answers (.loadEo q arg) 0x0D same) ∧
      (a < 64 → s.glb.limited = false →
        (s.fbit F.eoCtl_EN a = true → answers (.calPin q arg) 0x0C fun t => t.cal.long = s.cal.long) ∧
        (s.fbit F.eoCtl_EN a = false → free → waits (.calPin q arg) (starts (.pin a))) ∧
        (s.fbit F.eoCtl_EN a = false → ¬ free → answers (.calPin q arg) 1 same)) ∧
      (s.glb.limited = false →
        (free → waits (.calFull q arg) fun t => starts .full t ∧ (s.deg = false → ∀ r, r < 12 → (t.getCalReg r).running = true)) ∧
        (¬ free → answers (.calFull q arg) 1 same)) ∧
      (∀ p, a < 64 → (s.getCalEo a).pend = some p →
        (s.eoIdle a = true →
          answers (.calApply q arg) 0 fun t => (t.getCalEo a).tab = some p ∧ (t.getCalEo a).pend = none ∧ s.regsWithin t [.cal]) ∧
        (s.eoIdle a = false → answers (.calApply q arg) 0 fun t =>
          (t.getCalEo a).pendApply = true ∧ (t.getCalEo a).pend = some p ∧ (t.getCalEo a).tab = (s.getCalEo a).tab ∧ s.regsWithin t [.cal])) ∧
      (a < 96 →
        let w := (List.range 1024).map fun c => s.rget ⟨.calTiuShadow, a, c / 2, 0⟩ / (if c % 2 = 0 then 1 else 2 ^ 16) % 2 ^ 16
        (widthsOk w = true → answers (.loadTiu q arg) 0 fun t => t.getCalTiu a = { s.getCalTiu a with w := some w } ∧ t.regs = s.regs) ∧
        (widthsOk w = false → answers (.loadTiu q arg) 0x13 same)) ∧
      (a < 64 →
        let tab := tabOfWords fun i => s.rget ⟨.calEoShadow, a, i, 0⟩
        let now := s.fbit F.calEoPol_B_IDLE a && s.eoIdle a
        (tab.loadOk = true → now = true → answers (.loadEo q arg) 0 fun t =>
          (t.getCalEo a).tab = some tab ∧ (t.getCalEo a).k = some tab.k ∧ (t.getCalEo a).pin = false ∧ s.regsWithin t [.cal]) ∧
        (tab.loadOk = true → now = false → answers (.loadEo q arg) 0 fun t =>
          (t.getCalEo a).pend = some tab ∧ (t.getCalEo a).tab = (s.getCalEo a).tab ∧ (t.getCalEo a).k = (s.getCalEo a).k ∧ t.regs = s.regs) ∧
        (tab.loadOk = false → answers (.loadEo q arg) 0x13 same)) ∧
      (s.dramUnavail = false → free → waits (.calExport q arg) (starts .exportImg)) ∧
      (s.dramUnavail = false → free → waits (.calImport q arg) (starts .importImg)) ∧
      (s.dramUnavail = true → answers (.calExport q arg) 0x15 same ∧ answers (.calImport q arg) 0x15 same) ∧
      (s.glb.limited = false → free → waits (.calSave q arg) (starts .save)) ∧
      answers (.calAbort q arg) 0 fun t => t.cal.runs = [] ∧ t.cal.long = none ∧ (∀ n, n < 64 → (t.getCalEo n).tab = (s.getCalEo n).tab) ∧
        (∀ u, u < 96 → (t.getCalTiu u).w = (s.getCalTiu u).w)) ∧
    (∀ l, s.cal.long = some l →
      (l.op = .exportImg → s.dramUnavail = false →
        (∀ n, l.pos = 0 → l.img.length ≤ n → (s.calWork n).dram = memWriteBytes dramUnl s.dram l.base (toBytes l.img)) ∧
        (l.img.length ≤ l.pos →
          Completes .exportDone s fun t => t.dram = s.dram ∧ t.cal.long = none ∧ t.raises Prod.calDone (s.time.now * lsbPerNs) 0 s.tickNo) ∧
        (l.pos < l.img.length → Completes .exportDone s fun t => t = s)) ∧
      (l.op = .importImg → s.dramUnavail = false → 268548 ≤ l.pos →
        let b := (memReadBytes dramUnl s.dram s.imgAddr 268548).map BitVec.toNat
        (judgeImage b = 0 → Completes .importDone s fun t => t.cal.seq = leAt b 16 4 ∧ t.cal.long = none ∧
          (∀ u, u < 96 → (t.getCalTiu u).w = some (imgWidths b u)) ∧
          (∀ n, n < 64 → s.fbit F.eoCtl_EN n = false → (t.getCalEo n).tab = some (imgTab b n))) ∧
        (judgeImage b ≠ 0 → Completes .importDone s fun t => t.cal.eo = s.cal.eo ∧ t.cal.tiu = s.cal.tiu ∧ t.cal.long = none)) ∧
      (l.op = .save → Memory.wf flashUnl s.flash = true → l.img.length ≤ 0x7FFF0 →
        (∀ n, l.pos = 0 → l.img.length + 17 ≤ n →
          let f := (s.calWork n).flash
          memReadLE flashUnl f (l.base + 0x7FFF0) 4 = 0x6C5AA5C6 ∧ memReadLE flashUnl f (l.base + 0x7FFF4) 4 = leAt l.img 16 4 % 2 ^ 32 ∧
          (∀ i, i < l.img.length → memRead flashUnl f (l.base + i) = BitVec.ofNat 8 (l.img.getD i 0)) ∧
          (∀ y, (y < l.base ∨ l.base + 0x80000 ≤ y) → memRead flashUnl f y = memRead flashUnl s.flash y)) ∧
        (l.img.length + 17 ≤ l.pos →
          (Completes (.saveDone []) s fun t =>
            t.cal.seq = leAt l.img 16 4 ∧ t.cal.long = none ∧ t.flash = s.flash ∧ t.dram = s.dram ∧
            t.raises Prod.calDone (s.time.now * lsbPerNs) 0 s.tickNo) ∧
          (∀ o v, v < 256 → memRead flashUnl s.flash (l.base + o % 0x80000) ≠ BitVec.ofNat 8 v →
            Completes (.saveDone [(o, v)]) s fun t => t.cal.seq = s.cal.seq ∧ t.cal.long = none ∧ t.dram = s.dram)))) ∧
    (s.cal.started = false → s.glb.limited = false → s.glb.fwRun = true → s.time.run = true →
      (s.bestSlot = none →
        Completes .calStartupImport s fun t => t.cal.started = true ∧ t.cal.slot = 0 ∧
          (s.fget F.mbLong_SRC = 0 → ∃ l, t.cal.long = some l ∧ l.op = .full ∧ l.by_ = none) ∧ (s.deg = false → ∀ r, r < 12 → (t.getCalReg r).running = true)) ∧
      (∀ b n, s.bestSlot = some (b, n) →
        let img := s.flashBytes (calSlotAddr b) 268548
        (judgeImage img = 0 → Completes .calStartupImport s fun t => t.cal.started = true ∧ t.cal.slot = (if b then 2 else 1) ∧ t.cal.seq = leAt img 16 4) ∧
        (judgeImage img ≠ 0 → Completes .calStartupImport s fun t => t.cal.started = true ∧ t.cal.slot = 3)))

/-! ### The synthesizers (R281 to R295) -/

/-- R281 to R283: a write of a new CSYN target starts a ramp from the frequency of the moment; a ramp at the edge of its band moves FAB to
the timebase and relocks in the next band; the lock moves FAB back; a relock not done in 20 µs fails and is retried after 1 ms; removed
edges are counted and a long interval moves FAB; the ramp ends at its target. Where the rules leave a reading open the clauses follow the
model's own, log entry 33. -/
def Obligations.FabricSynthesizerBands : Prop :=
  ∀ (s : State), s.time.run = true →
    let c := s.csyn
    let f := s.csynFreq
    (∀ (q : Port) (data : BitVec 32), s.writable q.req .synCsynCtl = true → spreadOk (bits data.toNat 25 24) (bits data.toNat 29 26) = true →
      1 ≤ bits data.toNat 23 12 → bits data.toNat 23 12 ≤ 1000 → 1000 ≤ bits data.toNat 10 0 → bits data.toNat 10 0 ≤ 1350 →
      bits data.toNat 10 0 ≠ s.fget F.synCsynCtl_TGT →
      Completes (.csynTargetWrite q data) s fun t =>
        t.csyn.target = bits data.toNat 10 0 * 1000000 ∧ t.csyn.from_ = f ∧ t.csyn.ramp = decide (f ≠ bits data.toNat 10 0 * 1000000) ∧
        t.csyn.band = c.band ∧ { t with regs := s.regs, cyc := s.cyc, csyn := s.csyn } = s) ∧
    (c.ramp = true → c.onTb = false → c.band < 3 → (csynBand c.band).2 < c.target → f = (csynBand c.band).2 →
      Completes .csynBandChange s fun t =>
        t.csyn = { c with from_ := f, fromTick := s.tickNo, relock := true, onTb := true, nextBand := c.band + 1, failed := false }) ∧
    (c.ramp = true → c.onTb = false → 0 < c.band → c.target < (csynBand c.band).1 → f = (csynBand c.band).1 →
      Completes .csynBandChange s fun t =>
        t.csyn = { c with from_ := f, fromTick := s.tickNo, relock := true, onTb := true, nextBand := c.band - 1, failed := false }) ∧
    (c.relock = true →
      Completes .csynRelockDone s fun t =>
        t.csyn = { c with relock := false, onTb := false, failed := false, band := c.nextBand, fromTick := s.tickNo }) ∧
    (c.relock = true → c.fromTick + 20000 ≤ s.tickNo →
      Completes .csynBandFail s fun t =>
        t.csyn = { c with relock := false, failed := true, failTick := s.tickNo } ∧ t.fbit F.synCsynStat_BAND_FAIL = true) ∧
    (c.failed = true → c.failTick + 1000000 ≤ s.tickNo →
      Completes .csynRetry s fun t => t = { s with csyn := { c with relock := true, failed := false, fromTick := s.tickNo } }) ∧
    (∀ n : Nat,
      Completes (.csynGuardMove n true) s fun t =>
        t.rget ⟨.synCsynCntGuard, 0, 0, 0⟩ = min (s.rget ⟨.synCsynCntGuard, 0, 0, 0⟩ + n) 0xFFFFFFFF ∧ t.csyn.onTb = true ∧
        (c.onTb = false → t.csyn.relock = true ∧ t.csyn.nextBand = c.band ∧ t.csyn.from_ = f ∧ t.csyn.removed = [])) ∧
    (c.ramp = true → c.onTb = false → f = c.target →
      Completes .csynRampDone s fun t => t = { s with csyn := { c with ramp := false, from_ := c.target, fromTick := s.tickNo } })

/-- R285 to R288, R294: APPLY of a good definition starts a hop with the output held low, and a bad one leaves its RES code; the lock
keeps the band in the cache; RAMP checks and schedules; RAMPT starts the first segment that has a length, with its phase and frequency `w`
ticks later those of the rule's recursion; a segment end enters the next, and the last leaves the frequency standing; loss of lock and
relock follow BYPASS; EN 0 turns the channel off. Where the rules leave a reading open the clauses follow the model's own, log entries 26,
31, 32. -/
def Obligations.OutputSynthesizerHopAndRamp : Prop :=
  ∀ (q : Port) (i : Fin 4) (s : State),
    let o := s.getOsyn i.val
    let fn := s.fget F.synOsynFn_FN i.val
    let fd := s.fget F.synOsynFd_FD i.val
    let a := (unpackT96 (s.fget F.synOsynAnchor_A i.val)).getD 0
    let at_ := fun rt : Nat => o.seek (s.osynTable i.val) ((nsOf rt : Int) - s.time.now)
    let cycle : Int := (max (o.fd * 1000000000 * 2 ^ 32) 1 : Nat)
    let good := 0 < fd ∧ 1000 * fd ≤ fn ∧ fn ≤ 1500000000 * fd
    (s.writable q.req .synOsynCmd = true →
      (good → a % lsbPerNs = 0 → s.fbit F.synOsynCtl_EN i.val = true →
        Completes (.osynApply q i) s fun t =>
          (t.getOsyn i.val).st = .hopping ∧ (t.getOsyn i.val).fn = fn ∧ (t.getOsyn i.val).fd = fd ∧ (t.getOsyn i.val).anchor = a ∧
          (t.getOsyn i.val).running = false ∧ t.ckout i.val = some false ∧ t.fget F.synOsynStat_RES i.val = 0) ∧
      (¬ good → Completes (.osynApply q i) s fun t => t.fget F.synOsynStat_RES i.val = 1 ∧ t.osyn = s.osyn) ∧
      (good → a % lsbPerNs ≠ 0 → Completes (.osynApply q i) s fun t => t.fget F.synOsynStat_RES i.val = 2 ∧ t.osyn = s.osyn) ∧
      (good → a % lsbPerNs = 0 → s.fbit F.synOsynCtl_EN i.val = false →
        Completes (.osynApply q i) s fun t => t.fget F.synOsynStat_RES i.val = 6 ∧ t.osyn = s.osyn) ∧
      (let rt := (unpackT96 (s.fget F.synOsynRampt_RT i.val)).getD 0
       (rt < s.time.now * lsbPerNs + 1000 * lsbPerNs →
         Completes (.osynRamp q i) s fun t => t.fget F.synOsynStat_RES i.val = 3 ∧ t.osyn = s.osyn) ∧
       (s.time.now * lsbPerNs + 1000 * lsbPerNs ≤ rt → rt % lsbPerNs = 0 → o.st = .locked → 0 < s.fget F.synOsynCtl_RCOUNT i.val →
         (s.rampOk i.val o (s.fget F.synOsynCtl_RCOUNT i.val) 0 (at_ rt).fx = true →
           Completes (.osynRamp q i) s fun t =>
             t.getOsyn i.val = { o with rampAt := some rt, rampN := s.fget F.synOsynCtl_RCOUNT i.val } ∧
             t.fget F.synOsynStat_RES i.val = 0) ∧
         (s.rampOk i.val o (s.fget F.synOsynCtl_RCOUNT i.val) 0 (at_ rt).fx = false →
           Completes (.osynRamp q i) s fun t => t.fget F.synOsynStat_RES i.val = 4 ∧ t.osyn = s.osyn)) ∧
       (s.time.now * lsbPerNs + 1000 * lsbPerNs ≤ rt → rt % lsbPerNs = 0 → o.st ≠ .locked →
         Completes (.osynRamp q i) s fun t => t.fget F.synOsynStat_RES i.val = 5 ∧ t.osyn = s.osyn))) ∧
    (s.time.run = true →
      (∀ lo hi, o.st = .hopping →
        Completes (.osynLockDone i lo hi) s fun t =>
          (t.getOsyn i.val).st = .locked ∧ (t.getOsyn i.val).running = false ∧ (t.getOsyn i.val).cache.length ≤ 16 ∧
          (t.getOsyn i.val).cache.head? = (t.getOsyn i.val).band ∧ (t.getOsyn i.val).band ≠ none) ∧
      (∀ rt, o.rampAt = some rt → rt ≤ s.time.now * lsbPerNs → o.origin = none →
        let w : Nat := s.time.now - nsOf rt
        (s.nextSeg i.val o.rampN 0 = none →
          Completes (.osynRampStart i) s fun t =>
            (t.getOsyn i.val).ramping = false ∧ (t.getOsyn i.val).rampAt = none ∧ (t.getOsyn i.val).fx = o.fx ∧
            ((t.getOsyn i.val).p : Int) = o.p % cycle) ∧
        (∀ j, s.nextSeg i.val o.rampN 0 = some j → w < s.fget F.synOsynSeg_DUR i.val j →
          let h := s64Of (s.fget F.synOsynSeg_H i.val j)
          Completes (.osynRampStart i) s fun t =>
            (t.getOsyn i.val).ramping = true ∧ (t.getOsyn i.val).rampAt = none ∧ (t.getOsyn i.val).seg = j ∧ (t.getOsyn i.val).h = h ∧
            (t.getOsyn i.val).left = s.fget F.synOsynSeg_DUR i.val j - w ∧ (t.getOsyn i.val).segs = o.rampN ∧
            (t.getOsyn i.val).fx = o.fx + 2 * h * w ∧ ((t.getOsyn i.val).p : Int) = (o.p + h * w * w) % cycle)) ∧
      (o.ramping = true → o.left = 0 →
        (s.nextSeg i.val (o.segs - (o.seg + 1)) (o.seg + 1) = none →
          Completes (.osynSegmentEnd i) s fun t =>
            (t.getOsyn i.val).ramping = false ∧ (t.getOsyn i.val).fx = o.fx ∧ (t.getOsyn i.val).p = o.p) ∧
        (∀ j, s.nextSeg i.val (o.segs - (o.seg + 1)) (o.seg + 1) = some j →
          Completes (.osynSegmentEnd i) s fun t =>
            t.getOsyn i.val = { o with
              seg := j, left := s.fget F.synOsynSeg_DUR i.val j, h := s64Of (s.fget F.synOsynSeg_H i.val j) })) ∧
      (o.st = .locked →
        let b := s.fget F.synOsynCtl_BYPASS i.val
        let div := s.fget F.synOsynCtl_BYP_DIV i.val
        Completes (.osynLossOfLock i) s fun t =>
          (t.getOsyn i.val).st = .bypass ∧ t.fbit F.synOsynStat_LOL i.val = true ∧
          (b = 0 → t.ckout i.val = some false) ∧
          (b = 1 → t.ckout i.val = some (decide (2 * (s.time.now % 1000000000 % div) < div))) ∧
          ((t.getOsyn i.val).running = true ↔ b = 2)) ∧
      (o.st = .bypass →
        Completes (.osynRelock i) s fun t => t.getOsyn i.val = { o with st := .locked } ∧ t.time = s.time)) ∧
    (∀ data : BitVec 32, s.writable q.req .synOsynCtl = true → s.fbit F.synOsynCtl_EN i.val = true →
      Completes (.osynDisable q i data) s fun t =>
        (t.getOsyn i.val).st = .off ∧ t.ckout i.val = some false ∧ (t.getOsyn i.val).running = false ∧ (t.getOsyn i.val).ramping = false ∧
        t.fbit F.synOsynCtl_EN i.val = false)

/-! ### Bellwether (R296 to R321) -/

/-- R297 to R302: an accepted PPSIN pulse is timestamped, recorded and raised as an event, one within 0.5 s of the last is ignored; a
software sample reaches its candidate, and one to a candidate of another type sets WR_ERR and leaves the register; a second counts
qualification down and forms FEST as the mean of the last ten samples, by which a qualified candidate is judged; a candidate whose source
is gone falls to DISQ with its cause; a write that changes TYPE clears the candidate. Where the rules leave a reading open the clauses
follow the model's own, log entry 55. -/
def Obligations.ReferenceCandidates : Prop :=
  ∀ (q : Port) (r : Fin 8) (s : State),
    (∀ (i : Fin 2) (slot : Fin 32), s.time.run = true →
      let te : Instant := (rne ((s.time.now : Int) * finePerNs + (2 * slot.val + 1) * 262144 - Config.ppsDelay i.val) finePerLsb).toNat
      let edge := s.tickNo * finePerNs + (2 * slot.val + 1) * 262144
      ((∀ x ∈ s.bw.pulse.cells, x.1 = i.val → x.2 + 500000000 * finePerNs ≤ edge) →
        Completes (.ppsinPulse i slot) s fun t =>
          t.dw = { s.dw with soon := s.dw.soon ++ [⟨0x368 + i.val, te, 0, s.tickNo + 4, []⟩] } ∧ (i.val, edge) ∈ t.bw.pulse.cells) ∧
      (∀ last, s.bw.pulse.cells = [(i.val, last)] → edge < last + 500000000 * finePerNs →
        Completes (.ppsinPulse i slot) s fun t => t.dw = s.dw ∧ t.bw = s.bw ∧
          (s.candType r.val = 2 → s.candIndex r.val = i.val → t.fbit F.bwRefStat_IGN r.val = true))) ∧
    (∀ v : BitVec 64, s.writable q.req .bwRefSw = true →
      (s.candType r.val = 5 →
        Completes (.bwRefSwCommit q r v) s fun t =>
          (t.getCand r.val).last = some ⟨max (-2 ^ 63) (min (v.toInt - s64Of (s.fget F.bwRefDelay_DELAY r.val)) (2 ^ 63 - 1)), s.time.now * lsbPerNs⟩ ∧
          (t.getCand r.val).lastTick = s.tickNo) ∧
      (s.candType r.val ≠ 5 →
        Completes (.bwRefSwCommit q r v) s fun t =>
          t.fbit F.bwStat_WR_ERR = true ∧ t.bw = s.bw ∧ t.rget ⟨.bwRefSw, r.val, 0, 0⟩ = s.rget ⟨.bwRefSw, r.val, 0, 0⟩)) ∧
    (s.time.run = true → s.time.now % 1000000000 = 0 → s.glb.limited = false → s.bw.secTick ≠ some s.tickNo →
      (∀ f, s.secSample r.val = some f →
        let mean := meanOf ((f :: (s.getCand r.val).freqs).take 10)
        Completes .bwSecond s fun t =>
          t.fget F.bwRefFest_FEST r.val = bitsOf 48 mean ∧
          (s.fget F.bwRefStat_QSTATE r.val = 2 → (f > 20000000000 ∨ f < -20000000000) →
            t.fget F.bwRefStat_QSTATE r.val = 0 ∧ t.fget F.bwRefStat_FCAUSE r.val = 3) ∧
          (s.fget F.bwRefStat_QSTATE r.val = 2 → f ≤ 20000000000 → -20000000000 ≤ f →
            t.fget F.bwRefStat_QSTATE r.val =
              if (f - y48Of (bitsOf 48 mean)).natAbs ≤ s.fget F.bwQual_QSTAB * 100000 then 2 else 0)) ∧
      (s.secSample r.val = none → s.fget F.bwRefStat_QSTATE r.val = 1 → 0 < s.fget F.bwRefStat_QLEFT r.val →
        Completes .bwSecond s fun t =>
          t.fget F.bwRefStat_QLEFT r.val = s.fget F.bwRefStat_QLEFT r.val - 1 ∧
          t.fget F.bwRefStat_QSTATE r.val = (if s.fget F.bwRefStat_QLEFT r.val = 1 then 2 else 1)) ∧
      (s.secSample r.val = none → s.fget F.bwRefStat_QSTATE r.val = 0 → s.present r.val = true →
        Completes .bwSecond s fun t =>
          t.fget F.bwRefStat_QSTATE r.val = 1 ∧ t.fget F.bwRefStat_QLEFT r.val = s.fget F.bwQual_QTIME)) ∧
    (s.present r.val = false → s.fget F.bwRefStat_QSTATE r.val ≠ 0 →
      Completes (.refDisqualify r) s fun t =>
        t.fget F.bwRefStat_QSTATE r.val = 0 ∧ t.fget F.bwRefStat_FCAUSE r.val = 1 ∧ t.fbit F.bwRefStat_FAULT r.val = true ∧
        t.fget F.bwRefStat_DQ r.val = min 15 (s.fget F.bwRefStat_DQ r.val + 1) ∧
        (∀ x, x ≠ r.val → t.fget F.bwRefStat_QSTATE x = s.fget F.bwRefStat_QSTATE x) ∧ t.time = s.time) ∧
    (∀ data : BitVec 32, s.writable q.req .bwRefCfg = true → bits data.toNat 2 0 ≤ 5 → indexOk (bits data.toNat 2 0) (bits data.toNat 15 8) = true →
      bits data.toNat 2 0 ≠ s.candType r.val →
      Completes (.bwRefCfgWrite q r data) s fun t =>
        t.getCand r.val = {} ∧ t.candType r.val = bits data.toNat 2 0 ∧ t.fget F.bwRefStat_QSTATE r.val = 0 ∧
        (s.fget F.bwRefStat_QSTATE r.val ≠ 0 → t.fget F.bwRefStat_FCAUSE r.val = 5))

/-- R303 to R317: the evaluation after the active reference fell makes a new target active and counts the switch: from ACQUIRING or LOCKED
a pull starts at the reference's phase, else an acquisition; a CKIN comparison and a PD_RX phase reach their candidates; BW_UNLOCK answers
the host requesters alone; REALIGN starts a pull to zero; the holdover timer reaching SPEC leads to LOST; MODE 2 forces holdover. Where
the rules leave a reading open the clauses follow the model's own, log entries 52, 54, 55, 56. -/
def Obligations.BellwetherStates : Prop :=
  ∀ (q : Port) (s : State),
    (s.time.run = true → s.glb.limited = false → s.bw.evalTick ≠ some s.tickNo →
      (∀ fell r, s.bw.fell = some fell → fell < s.tickNo → s.time.now % 1000000 ≠ 0 → s.fbit F.tbCtl_NCO_SRC = false →
        s.bwTarget = some r → s.bwActive ≠ some r →
        let th := ((s.getCand r).last.map PhSample.theta).getD 0
        Completes (.bwEvaluate []) s fun t =>
          t.bwActive = some r ∧ t.bwState = 1 ∧ t.bw.fell = none ∧ t.bw.realign = false ∧
          t.rget ⟨.bwCntSwitch, 0, 0, 0⟩ = min (s.rget ⟨.bwCntSwitch, 0, 0, 0⟩ + 1) 0xFFFFFFFF ∧
          (isTime (s.candType r) = true → (s.bwState = 1 ∨ s.bwState = 2) →
            t.fbit F.bwStat_PULLING = true ∧ t.bw.psi = th * 1000000000 ∧ t.bw.goal = s.heldOffset ∧ t.bw.acq = false) ∧
          (isTime (s.candType r) = true → s.bwState ≠ 1 → s.bwState ≠ 2 → t.bw.acq = true)) ∧
      (∀ (r : Fin 8) (ck : List (Option Int)) (y : Int), s.time.now % 1000000 = 0 → s.candType r.val = 3 →
        ck.getD (s.candIndex r.val) none = some y →
        Completes (.bwEvaluate ck) s fun t =>
          (t.getCand r.val).fnow = y ∧ (t.getCand r.val).present = true ∧
          (t.getCand r.val).acc = (s.getCand r.val).acc + y * 1000000 * 16384 ∧
          (t.getCand r.val).accN = (s.getCand r.val).accN + 1000000) ∧
      (∀ (r : Fin 8) a b, s.time.now % 1000000 = 0 → s.candType r.val = 4 → s.l1Ok (s.candIndex r.val) = true →
        (s.getCand r.val).ph = some a → (s.nt.port.get {} (s.candIndex r.val)).ph = some b → a.2 < b.2 →
        Completes (.bwEvaluate []) s fun t =>
          (t.getCand r.val).ph = some ((s.nt.port.get {} (s.candIndex r.val)).turn, b.2) ∧
          (t.getCand r.val).acc = (s.getCand r.val).acc + ((s.nt.port.get {} (s.candIndex r.val)).turn - a.1) * 1000000000000000 ∧
          (t.getCand r.val).accN = (s.getCand r.val).accN + (b.2 - a.2))) ∧
    (s.writable q.req .bwUnlock = true →
      (q ≠ .fw →
        (Completes (.bwUnlockWrite q 0xA7) s fun t => t.fbit F.bwStat_STEP_OK = true ∧ { t with regs := s.regs, cyc := s.cyc } = s) ∧
        (Completes (.bwUnlockWrite q 0) s fun t => t.fbit F.bwStat_STEP_OK = false ∧ { t with regs := s.regs, cyc := s.cyc } = s)) ∧
      (q = .fw → ∀ data, Completes (.bwUnlockWrite q data) s fun t =>
        t.fbit F.bwStat_WR_ERR = true ∧ t.fbit F.bwStat_STEP_OK = s.fbit F.bwStat_STEP_OK)) ∧
    (s.writable q.req .bwCmd = true → ∀ r, s.bwActive = some r → (s.candType r = 1 ∨ s.candType r = 2 ∨ s.candType r = 5) → s.bw.acq = false →
      Completes (.bwRealign q) s fun t => t.fbit F.bwStat_PULLING = true ∧ t.bw = { s.bw with goal := 0, realign := true, fixed := false, good := 0 }) ∧
    (s.bwState = 3 → s.fbit F.bwHoSpec_EN = true → s.fget F.bwHoSpec_SPEC ≤ s.hoElapsed →
      Completes .holdoverLost s fun t => t.bwState = 4 ∧ t.time = s.time ∧ (∃ e ∈ t.dw.evq, e.prod = 0x372 ∧ e.tag = 0)) ∧
    (∀ data : BitVec 32, s.writable q.req .bwCtl = true → bits data.toNat 5 4 ≤ 2 →
      (bits data.toNat 1 0 ≤ 1 →
        Completes (.bwCtlWrite q data) s fun t => t.fget F.bwCtl_MODE = bits data.toNat 1 0 ∧ t.fget F.bwCtl_POLICY = bits data.toNat 5 4 ∧
          { t with regs := s.regs, cyc := s.cyc } = s) ∧
      (bits data.toNat 1 0 = 2 → s.bwState = 2 →
        Completes (.bwCtlWrite q data) s fun t => t.fget F.bwCtl_MODE = 2 ∧ t.bwState = 3))

/-! ### Network time (R322 to R353) -/

/-- R338 to R340: a slave session takes a Sync of its master once, forms the offset with its delay, waits for the Follow_Up of a two-step
one, discards and counts every other; an answered Delay_Req gives a round trip and a new delay; requests leave at their interval; a
session without a Sync for RX_TMO intervals loses VALID. Where the rules leave a reading open the clauses follow the model's own, log
entry 57. -/
def Obligations.SlaveSessionsExchange : Prop :=
  ∀ (p : Fin 52) (i : Fin 256) (m : PtpMsg) (o : EdgeObs) (s : State),
    let e := s.getSes i.val
    let key (r : Reg) : RegKey := ⟨r, i.val, 0, 0⟩
    let st := s.stampRx p.val o
    let fits (x : Int) : Prop := -2 ^ 63 ≤ x ∧ x < 2 ^ 63
    let alone (t : State) : Prop := (∀ j, j ≠ i.val → t.getSes j = s.getSes j) ∧ (s.bw.acq = false → t.time = s.time) ∧ t.eo = s.eo ∧ t.dram = s.dram
    let discards (t : State) : Prop :=
      t.fbit F.ntSesStat_DISC i.val = true ∧ t.rget (key .ntSesCntDisc) = counted (s.rget (key .ntSesCntDisc)) 1 ∧ t.getSes i.val = e ∧ alone t
    let mine := m.spid = s.fget F.ntSesPeerid_ID i.val
    (∀ d, s.domSlot m.domain m.sdo = some d → s.sessions p.val d [0, 3] = [i.val] →
      (mine → e.lastSeq ≠ some m.seq →
        (m.twoStep = true →
          Completes (.syncRx p m o) s fun t =>
            (∃ y, (t.getSes i.val).wait = some y ∧ y.seq = m.seq ∧ y.t1 = m.ts ∧ y.t2 = st ∧ y.corr = m.corr) ∧
            (t.getSes i.val).lastSeq = some m.seq ∧ (t.getSes i.val).syncAt = s.tickNo ∧
            t.rget (key .ntSesCntRx) = counted (s.rget (key .ntSesCntRx)) 1 ∧ alone t) ∧
        (∀ dl, m.twoStep = false → s.sesDelay i.val = some dl → (dif m.ts st.t).2 = false →
          let a := (dif m.ts st.t).1
          fits (a + m.corr) → fits (a + m.corr + dl) →
          Completes (.syncRx p m o) s fun t =>
            s64Of (t.fget F.ntSesOfs_THETA i.val) = a + m.corr + dl ∧ t.fbit F.ntSesStat_VALID i.val = true ∧
            (t.getSes i.val).lastSeq = some m.seq ∧ (t.getSes i.val).wait = none ∧ (∃ y, (t.getSes i.val).sync = some y ∧ y.t1 = m.ts ∧ y.t2 = st) ∧
            alone t)) ∧
      ((¬ mine ∨ e.lastSeq = some m.seq) → Completes (.syncRx p m o) s discards) ∧
      (∀ y, e.wait = some y → y.seq = m.seq → mine → s.tickNo ≤ y.until_ → fits (y.corr + m.corr) →
        Completes (.followUpRx p m) s fun t =>
          (t.getSes i.val).wait = none ∧ (t.getSes i.val).sync = some { y with t1 := m.ts, corr := y.corr + m.corr, fine1 := m.fine } ∧
          t.rget (key .ntSesCntRx) = counted (s.rget (key .ntSesCntRx)) 1 ∧ alone t) ∧
      (e.wait = none → Completes (.followUpRx p m) s discards)) ∧
    (∀ d, s.domSlot m.domain m.sdo = some d → s.sessions p.val d [0] = [i.val] →
      (∀ r y, e.req = some r → r.seq = m.seq → mine → m.reqPid / 65536 = s.fget F.ntClockId_ID → e.sync = some y → y.t2.stepSeq = r.sent.stepSeq →
        let a := (dif y.t2.t y.t1).1
        let b := (dif m.ts r.sent.t).1
        let rt := a - y.corr + b - m.corr
        let rs := (rt :: e.rs).take (2 ^ s.fget F.ntSesCfg_DAVG i.val)
        (dif y.t2.t y.t1).2 = false → (dif m.ts r.sent.t).2 = false → fits (a - y.corr) → fits (a - y.corr + b) → fits rt →
        (s.delayOf p.val rs).2.2 = false →
        Completes (.delayRespRx p m) s fun t =>
          (t.getSes i.val).rs = rs ∧ (t.getSes i.val).req = none ∧ (t.getSes i.val).delayAt = some s.tickNo ∧
          t.fget F.ntSesDms_D i.val = bitsOf 64 (s.delayOf p.val rs).2.1 ∧ alone t) ∧
      (e.req = none → Completes (.delayRespRx p m) s discards)) ∧
    (∀ kind, kind = 0 ∨ kind = 2 →
      let command : Instr := if kind = 0 then .delayReqTx i o else .pdelayReqTx i o
      (s.reqDue i.val kind = true →
        Completes command s fun t =>
          (t.getSes i.val).req = some ⟨e.seq, s.stampTx (s.sesPort i.val) o⟩ ∧ (t.getSes i.val).seq = (e.seq + 1) % 65536 ∧
          (t.getSes i.val).next = e.next + s.dreqNs i.val ∧ (t.getSes i.val).tx.typ = (if kind = 0 then 1 else 2) ∧
          (t.getSes i.val).tx.seq = e.seq ∧ t.rget (key .ntSesCntTx) = counted (s.rget (key .ntSesCntTx)) 1 ∧ alone t) ∧
      (s.reqDue i.val kind = false → Completes command s fun t => t = s)) ∧
    (s.fbit F.ntSesStat_VALID i.val = true → (s.fget F.ntSesCfg_KIND i.val = 0 ∨ s.fget F.ntSesCfg_KIND i.val = 3) →
      e.syncAt + s.fget F.ntSesLink_RX_TMO i.val * s.syncNs i.val ≤ s.tickNo →
      Completes (.sesSyncTimeout i) s fun t =>
        t.fbit F.ntSesStat_VALID i.val = false ∧ t.fbit F.ntSesStat_TMO i.val = true ∧ t.bbr.offers.length = s.bbr.offers.length + 1 ∧ t.nt = s.nt)

/-- R336, R337, R340, R341, R344, R351: a master session answers a Delay_Req and sends Sync while time is valid, or sets HELD; a peer
session answers a Pdelay_Req, and forms its round trip and rate ratio from the answers to its own; a session is enabled after its checks,
or refused with its code. Where the rules leave a reading open the clauses follow the model's own, log entries 57, 58. -/
def Obligations.MasterAndPeerSessionsAnswer : Prop :=
  ∀ (p : Fin 52) (i : Fin 256) (m : PtpMsg) (o tx : EdgeObs) (s : State),
    let e := s.getSes i.val
    let key (r : Reg) : RegKey := ⟨r, i.val, 0, 0⟩
    let st := s.stampRx p.val o
    let fits (x : Int) : Prop := -2 ^ 63 ≤ x ∧ x < 2 ^ 63
    let held (x : Int) : Int := max (-2 ^ 63) (min x (2 ^ 63 - 1))
    let alone (t : State) : Prop := (∀ j, j ≠ i.val → t.getSes j = s.getSes j) ∧ t.time = s.time ∧ t.eo = s.eo ∧ t.dram = s.dram
    let count (r : Reg) (n : Nat) (t : State) : Prop := t.rget (key r) = counted (s.rget (key r)) n
    (∀ d, s.domSlot m.domain m.sdo = some d →
      (s.sessions p.val d [1] = [i.val] →
        (s.time.valid = true →
          Completes (.delayReqRx p m o) s fun t =>
            (t.getSes i.val).tx = ⟨9, m.seq, held (m.corr - subNs st.t), wholeNs st.t⟩ ∧ t.fbit F.ntSesStat_HELD i.val = false ∧
            count .ntSesCntRx 1 t ∧ count .ntSesCntTx 1 t ∧ alone t) ∧
        (s.time.valid = false →
          Completes (.delayReqRx p m o) s fun t =>
            t.getSes i.val = e ∧ t.fbit F.ntSesStat_HELD i.val = true ∧ count .ntSesCntRx 1 t ∧ t.rget (key .ntSesCntTx) = s.rget (key .ntSesCntTx) ∧ alone t)) ∧
      (s.sessions p.val d [2] = [i.val] →
        (let t3 := s.stampTx p.val tx
         (s.fbit F.ntSesCfg_TWO_STEP i.val = false →
           Completes (.pdelayReqRx p m o tx) s fun t =>
             (t.getSes i.val).tx = ⟨3, m.seq, held (m.corr + (dif t3.t st.t).1), 0⟩ ∧ count .ntSesCntRx 1 t ∧ count .ntSesCntTx 1 t ∧ alone t) ∧
         (s.fbit F.ntSesCfg_TWO_STEP i.val = true →
           Completes (.pdelayReqRx p m o tx) s fun t =>
             (t.getSes i.val).tx = ⟨10, m.seq, subNs t3.t, wholeNs t3.t⟩ ∧ count .ntSesCntRx 1 t ∧ count .ntSesCntTx 2 t ∧ alone t)) ∧
        (∀ r, e.req = some r → r.seq = m.seq → m.reqPid / 65536 = s.fget F.ntClockId_ID →
          (m.twoStep = true →
            Completes (.pdelayRespRx p m o) s fun t =>
              t.getSes i.val = { e with presp := some ⟨m.seq, m.ts, st, m.corr, m.fine⟩ } ∧ count .ntSesCntRx 1 t ∧ alone t) ∧
          (let rt := (dif st.t r.sent.t).1 - m.corr
           let rs := (rt :: e.rs).take (2 ^ s.fget F.ntSesCfg_DAVG i.val)
           m.twoStep = false → r.sent.stepSeq = st.stepSeq → (dif st.t r.sent.t).2 = false → fits rt → (s.delayOf p.val rs).2.2 = false →
             Completes (.pdelayRespRx p m o) s fun t =>
               (t.getSes i.val).rs = rs ∧ (t.getSes i.val).req = none ∧ t.fget F.ntSesDms_D i.val = bitsOf 64 (s.delayOf p.val rs).2.1 ∧
               t.fbit F.ntSesStat_VALID i.val = true ∧ count .ntSesCntRx 1 t ∧ alone t)) ∧
        (∀ r w, e.req = some r → e.presp = some w → r.seq = m.seq → w.seq = m.seq → fits (w.corr + m.corr) →
          let rp := ((m.ts, w.t4.t) :: e.resps).take (2 ^ s.fget F.ntSesCfg_DAVG i.val + 1)
          let y := ratioOf rp
          (r.sent.stepSeq = w.t4.stepSeq →
            Completes (.pdelayRespFollowUpRx p m) s fun t =>
              (t.getSes i.val).req = none ∧ (t.getSes i.val).presp = none ∧ (t.getSes i.val).resps = rp ∧
              t.fget F.ntSesRr_Y i.val = bitsOf 48 y ∧ count .ntSesCntRx 1 t ∧ alone t) ∧
          (r.sent.stepSeq ≠ w.t4.stepSeq →
            Completes (.pdelayRespFollowUpRx p m) s fun t =>
              (t.getSes i.val).rs = e.rs ∧ t.fbit F.ntSesStat_STEPDROP i.val = true ∧ count .ntSesCntDisc 1 t ∧ alone t)))) ∧
    (let k := s.time.now / s.syncNs i.val
     let at_ := (s.stampTx (s.sesPort i.val) o).t
     s.fbit F.ntSesCfg_EN i.val = true → s.fget F.ntSesCfg_KIND i.val = 1 → s.glb.limited = false → e.next < k →
       (s.time.valid = true →
         Completes (.syncTx i o) s fun t =>
           (t.getSes i.val).tx = ⟨if s.fbit F.ntSesCfg_TWO_STEP i.val then 8 else 0, e.seq, subNs at_, wholeNs at_⟩ ∧
           (t.getSes i.val).seq = (e.seq + 1) % 65536 ∧ (t.getSes i.val).next = k ∧
           count .ntSesCntTx (if s.fbit F.ntSesCfg_TWO_STEP i.val then 2 else 1) t ∧ t.fbit F.ntSesStat_HELD i.val = false ∧ alone t) ∧
       (s.time.valid = false →
         Completes (.syncTx i o) s fun t => t.getSes i.val = { e with next := k } ∧ t.fbit F.ntSesStat_HELD i.val = true ∧ t.rget (key .ntSesCntTx) = s.rget (key .ntSesCntTx) ∧ alone t)) ∧
    (∀ (q : Port) (data : BitVec 32), s.writable q.req .ntSesCfg = true → s.fbit F.ntSesCfg_EN i.val = false → s.glb.limited = false →
      let kind := bits data.toNat 30 28
      let peer := s.fget F.ntSesLink_PEER i.val
      let peerOk := s.fbit F.ntSesCfg_EN peer = true ∧ s.fget F.ntSesCfg_KIND peer = 2 ∧ s.sesPort peer = s.sesPort i.val
      let mode := s.fget F.ntDomCfg_MODE (bits data.toNat 24 21)
      (kind ≤ 3 → (kind = 3 → peerOk) → (kind = 1 → mode < 2) →
        Completes (.ntSesEnable q i data) s fun t =>
          t.fbit F.ntSesCfg_EN i.val = true ∧ t.fget F.ntSesStat_RES i.val = 0 ∧ (t.getSes i.val).syncAt = s.tickNo ∧
          (t.getSes i.val).req = none ∧ (t.getSes i.val).wait = none ∧ (t.getSes i.val).rs = [] ∧ alone t) ∧
      (kind = 1 → 2 ≤ mode →
        Completes (.ntSesEnable q i data) s fun t => t.fbit F.ntSesCfg_EN i.val = false ∧ t.fget F.ntSesStat_RES i.val = 2 ∧ t.nt = s.nt) ∧
      (kind = 3 → ¬ peerOk →
        Completes (.ntSesEnable q i data) s fun t => t.fbit F.ntSesCfg_EN i.val = false ∧ t.fget F.ntSesStat_RES i.val = 1 ∧ t.nt = s.nt))

/-- R330 to R335: an ESMC PDU shows its quality level, and 5 s without one sets ESMC_LOSS and disqualifies the port's line candidates;
phase readings on a lane with its recovered clock are unwrapped, give the frequency since the reading before and are averaged, and eight
close means settle the detector; a sampling phase is kept only within a syntonized quad on a locked fast lane; a read of PT_TSF takes the
oldest timestamp. Where the rules leave a reading open the clauses follow the model's own, log entry 60. -/
def Obligations.PortTimeInputs : Prop :=
  ∀ (p : Fin 52) (s : State),
    let x := s.getNtPort p.val
    let alone (t : State) : Prop := (∀ j, j ≠ p.val → t.getNtPort j = s.getNtPort j) ∧ t.nt.ses = s.nt.ses ∧ t.time = s.time ∧ t.eo = s.eo
    (∀ code : Fin 16,
      Completes (.esmcRx p code) s fun t =>
        t.fget F.ntPortStat_QL_RX p.val = code.val ∧ t.fbit F.ntPortStat_DNU p.val = decide (code.val = 15) ∧
        t.getNtPort p.val = { x with esmcTick := s.tickNo } ∧ alone t) ∧
    (s.fbit F.ntPortCfg_ESMC_EN p.val = true →
      (x.esmcTick + 5000000000 ≤ s.tickNo →
        Completes (.esmcLoss p) s fun t =>
          t.fbit F.ntPortStat_ESMC_LOSS p.val = true ∧
          (∀ r, r < 8 → s.candType r = 4 → s.candIndex r = p.val → t.fget F.bwRefStat_QSTATE r = 0) ∧ t.nt = s.nt ∧ alone t) ∧
      (s.tickNo < x.esmcTick + 5000000000 → Completes (.esmcLoss p) s fun t => t = s)) ∧
    (∀ ph : Int,
      let n := 2 ^ s.fget F.ntPortCfg_PD_AVG p.val
      let rate := s.laneRate p.val
      let turn : Int := match x.ph with
        | some o => x.turn + unwrapPh rate (ph - o.1)
        | none => ph
      let mean := rne ((x.sum + turn) * 4) (x.cnt + 1)
      let y := { x with turn := turn, ph := some (ph, s.tickNo) }
      (s.fbit F.lnStat_CDR_LOCK (s.timingLane p.val) = false → Completes (.pdReading p ph) s fun t => t = s) ∧
      (s.fbit F.lnStat_CDR_LOCK (s.timingLane p.val) = true →
        (∀ o, x.ph = some o → o.2 < s.tickNo →
          Completes (.pdReading p ph) s fun t =>
            t.fget F.ntPortPdfreq_Y p.val =
              bitsOf 48 (satY48 (rne ((turn - x.turn) * 1000000000000000) (16384 * (s.tickNo - o.2)))) ∧ alone t) ∧
        (x.cnt + 1 < n →
          Completes (.pdReading p ph) s fun t => t.getNtPort p.val = { y with sum := x.sum + turn, cnt := x.cnt + 1 } ∧ alone t) ∧
        (n ≤ x.cnt + 1 →
          Completes (.pdReading p ph) s fun t =>
            t.fget F.ntPortPdph_PH p.val = bitsOf 64 (modWord rate mean) ∧ (t.getNtPort p.val).mean = some mean ∧ (t.getNtPort p.val).cnt = 0 ∧
            (∀ was, x.mean = some was → (mean - was).natAbs * 1000 ≤ 65536 → 7 ≤ x.close → t.fbit F.ntPortStat_PD_SETTLED p.val = true) ∧
            (∀ was, x.mean = some was → 5 * 65536 < (mean - was).natAbs * 1000 → t.fbit F.ntPortStat_PD_SETTLED p.val = false) ∧ alone t))) ∧
    ((s.syntonized (portQuad p.val) = true ∧ 2 ≤ s.laneRate p.val ∧ s.fbit F.lnStat_BLOCK_LOCK (s.timingLane p.val) = true →
        Completes (.lanePhaseMeasured p) s fun t => t.getNtPort p.val = { x with measured := true } ∧ t.regs = s.regs ∧ alone t) ∧
      (s.syntonized (portQuad p.val) = false → Completes (.lanePhaseMeasured p) s fun t => t = s)) ∧
    (∀ q : Port, s.readable q.req .ptTsf = true →
      let latch (t : State) : Nat := t.latchOf q.req ⟨.ptTsf, p.val, 0, 0⟩
      (∀ w rest, x.tsf = w :: rest →
        Completes (.ptTsfRead q p) s fun t =>
          t.resp.data = w % 2 ^ 32 ∧ latch t = w / 2 ^ 32 ∧ t.getNtPort p.val = { x with tsf := rest } ∧ t.regs = s.regs ∧ alone t) ∧
      (x.tsf = [] → Completes (.ptTsfRead q p) s fun t => t.resp.data = 0 ∧ latch t = 0 ∧ t.nt = s.nt))

/-! ### Lanes, ports and Elber link training (R354 to R378) -/

/-- R355, R356, R362 to R366: an enabled port starts its attempt, or its standard mode, or is refused beside the other family; signal,
lock, HELLO and ACK, RATE, EQ, VERIFY and sixteen exchanges carry the attempt from step to step until the Elber link is up with its round
trip published; a message the port does not take is counted. Where the rules leave a reading open the clauses follow the model's own, log
entries 5, 61, 62. -/
def Obligations.LinkTrainingRunsItsSteps : Prop :=
  ∀ (p : Fin 52) (s : State),
    let x := s.getPt p.val
    let st := s.fget F.ptStat_STATE p.val
    let lanes := portLanes p.val
    let full := allLanes p.val
    let others (t : State) : Prop := (∀ o, o ≠ p.val → t.getPt o = s.getPt o) ∧ t.time = s.time ∧ t.eo = s.eo ∧ t.dram = s.dram
    let enters (n : Nat) (t : State) : Prop := t.fget F.ptStat_STATE p.val = n ∧ (t.getPt p.val).stepAt = s.tickNo ∧ others t
    let starts (n : Nat) (t : State) : Prop :=
      t.fget F.ptStat_STATE p.val = n ∧ (t.getPt p.val).stepAt = s.tickNo ∧ (∀ o, o ≠ p.val → t.getPt o = s.getPt o) ∧
      { t.time with rx := s.time.rx } = s.time ∧ t.time.rx.get none (p.val + 1) = none ∧ t.eo = s.eo ∧ t.dram = s.dram
    let becomes (y : Pt) (t : State) : Prop := t.getPt p.val = y ∧ others t ∧ t.regs = s.regs
    let sends (b : ElmBody) (t : State) : Prop := (t.elm.get {} p.val).sent = [((s.elm.get {} p.val).seq % 65536, b)]
    (∀ (q : Port) (data : BitVec 32), s.writable q.req .ptCfg = true → s.glb.limited = false →
      let mode := bits data.toNat 2 0
      let clash := ∃ o : Fin 52, o ≠ p ∧ portQuad o.val = portQuad p.val ∧ s.fbit F.ptCfg_EN o.val = true ∧
        (mode = 0 ↔ s.fget F.ptCfg_MODE o.val ≠ 0)
      (s.fbit F.ptCfg_EN p.val = false → cfgCombo p.val mode (bits data.toNat 5 4) (bit data.toNat 12) = true →
        (clash → Completes (.ptEnable q p data) s fun t =>
          t.fbit F.ptCfg_EN p.val = false ∧ t.fbit F.ptStat_QUAD_CONFLICT p.val = true ∧ t.fbit F.ptStat_WR_ERR p.val = true ∧ t.pt = s.pt) ∧
        (¬ clash → Completes (.ptEnable q p data) s fun t =>
          t.fbit F.ptCfg_EN p.val = true ∧ t.fget F.lnQuadStat_FAMILY (portQuad p.val) = (if mode = 0 then 1 else 2) ∧
          (bit data.toNat 12 = false → starts 9 t ∧ ∀ j ∈ lanes, t.fget F.lnStat_RATE j = modeLaneRate mode) ∧
          (bit data.toNat 12 = true → (∀ j ∈ lanes, t.fget F.lnStat_RATE j = 2) ∧
            ((∃ j ∈ lanes, s.fbit F.lnStat_LOS j = true) → starts 1 t) ∧ ((∀ j ∈ lanes, s.fbit F.lnStat_LOS j = false) → starts 2 t)))) ∧
      (s.fbit F.ptCfg_EN p.val = true → Completes (.ptDisable q p data) s fun t =>
        t.fbit F.ptCfg_EN p.val = false ∧ t.fget F.ptStat_STATE p.val = 0 ∧ t.fget F.ptStat_FAILS p.val = 0 ∧ t.fget F.ptBackoff_MS p.val = 0 ∧
        t.fbit F.ptStat_LINK p.val = false ∧ (s.fbit F.ptStat_LINK p.val = true → t.raises (Prod.ptLink p.val) s.nowI 0 s.tickNo) ∧ others t)) ∧
    (∀ j : Fin 65, j.val < 64 → lanePort j.val = p.val →
      (Completes (.laneSignalDetected j) s fun t =>
        t.fbit F.lnStat_LOS j.val = false ∧
        (st = 1 → (∀ i ∈ lanes, i ≠ j.val → s.fbit F.lnStat_LOS i = false) → enters 2 t ∧ (t.getPt p.val).attAt = s.tickNo) ∧
        (st ≠ 1 → t.pt = s.pt ∧ ∀ c, c ≠ ⟨.lnStat, j.val, 0, 0⟩ → t.rget c = s.rget c)) ∧
      (∀ tx rx : Int,
        (s.fbit F.lnStat_LOS j.val = false → s.fget F.lnStat_RATE j.val ≠ 0 → s.fbit F.lnQuadStat_QPLL_LOCK (portQuad p.val) = true →
          s.glb.limited = false →
          Completes (.laneLock j tx rx) s fun t =>
            t.laneLocked j.val = true ∧
            (j.val = s.timingLane p.val → t.fget F.ntPortIlatTx_LAT p.val = bitsOf 64 tx ∧ t.fget F.ntPortIlatRx_LAT p.val = bitsOf 64 rx) ∧
            ((∀ i ∈ lanes, i ≠ j.val → s.laneLocked i = true) → (st = 2 → enters 3 t) ∧ (st = 4 → x.switched = true → enters 5 t)) ∧
            ((∃ i ∈ lanes, i ≠ j.val ∧ s.laneLocked i = false) → t.pt = s.pt ∧ t.fget F.ptStat_STATE p.val = st)) ∧
        (s.fbit F.lnStat_LOS j.val = true → Completes (.laneLock j tx rx) s fun t => t = s))) ∧
    (∀ tx rx : Int, s.fbit F.lnStat_LOS 64 = false →
      Completes (.laneLock 64 tx rx) s fun t => t.laneLocked 64 = true ∧ t.fget F.lnStat_RATE 64 = 1 ∧ { t with regs := s.regs } = s ∧
        ∀ c, c ≠ ⟨.lnStat, 64, 0, 0⟩ → t.rget c = s.rget c) ∧
    (Completes (.laneSignalDetected 64) s fun t => t.fbit F.lnStat_LOS 64 = false ∧ { t with regs := s.regs } = s ∧
        ∀ c, c ≠ ⟨.lnStat, 64, 0, 0⟩ → t.rget c = s.rget c) ∧
    (∀ (h : ElmHead) (hash port rate : Nat) (i : Fin 4) (pre main post : Fin 4) (seq : BitVec 16) (theirs mine done pass reply : Bool) (k : Fin 16) (t2 t3 : Instant)
        (o tx : EdgeObs),
      (s.fbit F.ptCfg_ELBER_EN p.val = false ∨ h.version ≠ 1 →
        ∀ m ∈ [Instr.elmHello p h, .elmAck p h.version hash port, .elmRate p h.version rate, .elmEq p ⟨h.version, seq⟩ i pre main post theirs mine,
            .elmVerify p h.version i done pass, .elmEcho p h.version reply k t2 t3 ⟨o, tx⟩, .elmDrop p h.version i, .elmDropAck p h.version i,
            .elmAdd p h.version ⟨i, reply⟩],
          Completes m s fun t =>
            t.rget ⟨.ptCntElmDisc, p.val, 0, 0⟩ = counted (s.rget ⟨.ptCntElmDisc, p.val, 0, 0⟩) 1 ∧ { t with regs := s.regs } = s ∧
            ∀ c, c ≠ ⟨.ptCntElmDisc, p.val, 0, 0⟩ → t.rget c = s.rget c) ∧
      (s.fbit F.ptCfg_ELBER_EN p.val = true → h.version = 1 →
        let agreed (h : ElmHead) : Nat := min (rateOfMax h.maxRate) (rateOfMax (s.fget F.ptCfg_MAXRATE p.val))
        (st = 3 → x.acked = false → Completes (.elmHello p h) s fun t =>
          becomes { x with helloSeen := true, head := some h } t ∧
          sends (.ack h.hash h.port (agreed h - 1) (h.fec || decide (s.fget F.ptCfg_FEC p.val ≠ 0))
            (decide (48 ≤ p.val) && s.fbit F.ptCfg_TRUNK_SPARE p.val && h.spare && decide (agreed h = 3))) t) ∧
        (st = 3 → x.acked = true → Completes (.elmHello p h) s fun t => enters 4 t ∧ (t.getPt p.val).rate = agreed h ∧ (t.getPt p.val).head = some h) ∧
        (st = 3 → hash = Config.serialHash → port = p.val →
          (x.head = none → Completes (.elmAck p 1 hash port) s (becomes { x with acked := true })) ∧
          (∀ h0, x.head = some h0 → x.helloSeen = true → Completes (.elmAck p 1 hash port) s fun t => enters 4 t ∧ (t.getPt p.val).rate = agreed h0)) ∧
        (st = 4 → rateOfMax rate = x.rate → Completes (.elmRate p 1 rate) s (becomes { x with rateRx := true })) ∧
        (st = 4 → x.rateRx = true → x.switched = false → x.rate < 4 →
          Completes (.rateSwitch p) s fun t =>
            (t.getPt p.val).switched = true ∧ (∀ j ∈ lanes, t.fget F.lnStat_RATE j = x.rate ∧ t.laneLocked j = false) ∧
            t.fget F.ptStat_STATE p.val = 4 ∧ others t) ∧
        (∀ j, lanes[i.val]? = some j → x.rejoin = none → st = 5 →
          let a := eqOne (s.fget F.lnTxeq_PRE j) pre.val 4
          let b := eqOne (s.fget F.lnTxeq_MAIN j) main.val 51
          let c := eqOne (s.fget F.lnTxeq_POST j) post.val 8
          Completes (.elmEq p ⟨1, seq⟩ i pre main post theirs mine) s fun t =>
            let eqT := x.eqTheirs ||| (if theirs then 2 ^ i.val else 0)
            let eqM := x.eqMine ||| (if mine then 2 ^ i.val else 0)
            (t.getPt p.val).eqTheirs = eqT ∧ (t.getPt p.val).eqMine = eqM ∧
            (∀ a' b' c', a = some a' → b = some b' → c = some c' → a' + b' + c' ≤ 63 →
              t.fget F.lnTxeq_PRE j = a' ∧ t.fget F.lnTxeq_MAIN j = b' ∧ t.fget F.lnTxeq_POST j = c') ∧
            (a = none ∨ b = none ∨ c = none → t.rget ⟨.lnTxeq, j, 0, 0⟩ = s.rget ⟨.lnTxeq, j, 0, 0⟩) ∧
            (∀ a' b' c', a = some a' → b = some b' → c = some c' → 63 < a' + b' + c' → t.rget ⟨.lnTxeq, j, 0, 0⟩ = s.rget ⟨.lnTxeq, j, 0, 0⟩) ∧
            (∃ ask limit, sends (.eq i.val ask mine limit (t.fget F.lnTxeq_PRE j) (t.fget F.lnTxeq_MAIN j) (t.fget F.lnTxeq_POST j) seq.toNat) t) ∧
            (eqT = full → eqM = full → enters 6 t) ∧ (eqT ≠ full ∨ eqM ≠ full → t.fget F.ptStat_STATE p.val = 5) ∧ others t) ∧
        (i.val < lanes.length → x.rejoin = none → st = 6 →
          let theirs := x.verTheirs ||| 2 ^ i.val
          let ok := x.verTheirsOk ||| (if pass then 2 ^ i.val else 0)
          (x.verMine ≠ full ∨ theirs ≠ full → Completes (.elmVerify p 1 i true pass) s (becomes { x with verTheirs := theirs, verTheirsOk := ok })) ∧
          (x.verMine = full → x.verMineOk = full → theirs = full → ok = full → Completes (.elmVerify p 1 i true pass) s (enters 7)) ∧
          Completes (.elmVerify p 1 i false pass) s fun t => t = s) ∧
        (∀ errs : List Nat, x.rejoin = none → st = 6 →
          (s.tickNo < x.stepAt + 10000000 → Completes (.verifyEnd p errs) s fun t => t = s) ∧
          (x.stepAt + 10000000 ≤ s.tickNo → (∀ e ∈ errs, e = 0) →
            (x.verTheirs = full → x.verTheirsOk = full → Completes (.verifyEnd p errs) s fun t => enters 7 t ∧ (t.getPt p.val).rs = []) ∧
            (x.verTheirs ≠ full → Completes (.verifyEnd p errs) s (becomes { x with verMine := full, verMineOk := full }))) ∧
          (p.val < 48 → x.stepAt + 10000000 ≤ s.tickNo → errs.headD 0 ≠ 0 → x.verTheirs = full → x.rate = 3 →
            Completes (.verifyEnd p errs) s fun t => enters 4 t ∧ (t.getPt p.val).rate = 2 ∧ (t.getPt p.val).stepped = true)) ∧
        (Completes (.helloTx p) s fun t =>
          t.getPt p.val = (if (st = 3 ∧ x.helloTick + 1000000 ≤ s.tickNo) ∨ (st = 11 ∧ x.helloTick + 10000000 ≤ s.tickNo)
            then { x with helloTick := s.tickNo } else x) ∧ others t ∧ t.regs = s.regs) ∧
        (st = 7 ∨ (st = 8 ∧ x.echoTick + 1000000000 ≤ s.tickNo) →
          Completes (.echoTx p o) s (becomes { x with
            echo := some (x.echoIdx, s.stampTx p.val o), echoIdx := (x.echoIdx + 1) % 16, echoTick := s.tickNo })) ∧
        (st = 7 ∨ st = 8 → Completes (.elmEcho p 1 false k t2 t3 ⟨o, tx⟩) s fun t =>
          becomes x t ∧ sends (.echo true k.val (s.stampRx p.val o).t (s.stampTx p.val tx).t) t) ∧
        (∀ t1 : NtStamp, x.echo = some (k.val, t1) → (dif (s.stampRx p.val o).t t1.t).2 = false → (dif t3 t2).2 = false →
          (t1.stepSeq ≠ (s.stampRx p.val o).stepSeq → Completes (.elmEcho p 1 true k t2 t3 ⟨o, tx⟩) s (becomes { x with echo := none })) ∧
          let r := (dif (s.stampRx p.val o).t t1.t).1 - (dif t3 t2).1
          let rs := (r :: x.rs).take 16
          t1.stepSeq = (s.stampRx p.val o).stepSeq → r < 2 ^ 63 → -2 ^ 63 ≤ r →
          (st = 7 → x.rs.length < 15 → Completes (.elmEcho p 1 true k t2 t3 ⟨o, tx⟩) s (becomes { x with echo := none, rs := rs })) ∧
          (st = 7 → 15 ≤ x.rs.length → x.rate = 2 ∨ x.rate = 3 → x.head = some h →
            Completes (.elmEcho p 1 true k t2 t3 ⟨o, tx⟩) s fun t =>
              enters 8 t ∧ t.fbit F.ptStat_LINK p.val = true ∧ t.fbit F.ptStat_ELBER p.val = true ∧ t.fget F.ptStat_FAILS p.val = 0 ∧
              t.fget F.ptStat_RATE p.val = (if p.val < 48 then x.rate else if x.rate = 2 then 4 else if x.badLane = none then 6 else 5) ∧
              t.fget F.ptPartner_PARTNER p.val = h.hash % 2 ^ 64 + h.port % 256 * 2 ^ 64 ∧
              (s.noSession p.val = true → t.fget F.ntPortRtt_RM p.val = bitsOf 64 (s.delayOf p.val rs).1 ∧
                t.fget F.ntPortDms_D p.val = bitsOf 64 (s.delayOf p.val rs).2.1) ∧
              t.raises (Prod.ptLink p.val) s.nowI 0 s.tickNo) ∧
          (st = 8 → Completes (.elmEcho p 1 true k t2 t3 ⟨o, tx⟩) s fun t => t.getPt p.val = { x with echo := none, rs := rs } ∧
            (s.noSession p.val = true → t.fget F.ntPortRtt_RM p.val = bitsOf 64 (s.delayOf p.val rs).1) ∧ others t))))

/-- R361, R367 to R369, R371, R376, R378: a step without an Elber answer falls back to the standard mode, any other timeout counts a
failure with its cause, the third failure listens for a doubling interval; the standard link comes up; loss of a lane, a lane reset, a
change of SYNT or of a field of PT_CFG or PT_TRAIN takes the port down into a new attempt. Where the rules leave a reading open the
clauses follow the model's own, log entry 61. -/
def Obligations.AttemptsFailFallBackAndRestart : Prop :=
  ∀ (p : Fin 52) (s : State), s.glb.limited = false →
    let x := s.getPt p.val
    let st := s.fget F.ptStat_STATE p.val
    let lanes := portLanes p.val
    let others (t : State) : Prop := (∀ o, o ≠ p.val → t.getPt o = s.getPt o) ∧ t.time = s.time ∧ t.eo = s.eo ∧ t.dram = s.dram
    let dark := ∃ j ∈ lanes, s.fbit F.lnStat_LOS j = true
    let again (t : State) : Prop :=
      (s.fbit F.ptCfg_ELBER_EN p.val = false → t.fget F.ptStat_STATE p.val = 9) ∧
      (s.fbit F.ptCfg_ELBER_EN p.val = true → (dark → t.fget F.ptStat_STATE p.val = 1) ∧ (¬ dark → t.fget F.ptStat_STATE p.val = 2)) ∧ others t
    let down (t : State) : Prop :=
      t.fbit F.ptStat_LINK p.val = false ∧ t.raises (Prod.ptLink p.val) s.nowI 0 s.tickNo ∧
      t.rget ⟨.ptCntLinkDown, p.val, 0, 0⟩ = counted (s.rget ⟨.ptCntLinkDown, p.val, 0, 0⟩) 1
    let fails (cause : Nat) (t : State) : Prop :=
      let n := min 15 (s.fget F.ptStat_FAILS p.val + 1)
      let old := s.fget F.ptBackoff_MS p.val
      t.fget F.ptStat_FAILS p.val = n ∧ t.fget F.ptStat_LAST_FAIL p.val = cause ∧
      t.rget ⟨.ptCntTrainFail, p.val, 0, 0⟩ = counted (s.rget ⟨.ptCntTrainFail, p.val, 0, 0⟩) 1 ∧
      (n < 3 → again t) ∧
      (3 ≤ n → t.fget F.ptStat_STATE p.val = 11 ∧ t.fget F.ptBackoff_MS p.val = (if old = 0 then 100 else min 6400 (2 * old)) ∧ others t)
    let stepMs := s.fget F.ptTrain_STEP_TMO p.val * 1000000
    let totalMs := s.fget F.ptTrain_TOTAL_TMO p.val * 1000000
    (x.rejoin = none →
      (x.stepAt + stepMs ≤ s.tickNo →
        (st = 2 ∨ (st = 3 ∧ x.helloSeen = false) →
          Completes (.trainStepTimeout p) s fun t =>
            t.fget F.ptStat_STATE p.val = 9 ∧ t.fget F.ptStat_FAILS p.val = s.fget F.ptStat_FAILS p.val ∧
            (∀ j ∈ lanes, t.fget F.lnStat_RATE j = modeLaneRate (s.fget F.ptCfg_MODE p.val)) ∧ others t) ∧
        ((st = 3 ∧ x.helloSeen = true) ∨ (4 ≤ st ∧ st ≤ 7) → Completes (.trainStepTimeout p) s (fails 1))) ∧
      (s.tickNo < x.stepAt + stepMs → Completes (.trainStepTimeout p) s fun t => t = s)) ∧
    (x.attAt + totalMs ≤ s.tickNo →
      (2 ≤ st → st ≤ 7 → Completes (.trainTotalTimeout p) s (fails 2)) ∧ (st = 9 → Completes (.trainTotalTimeout p) s (fails 4))) ∧
    (s.tickNo < x.attAt + totalMs → Completes (.trainTotalTimeout p) s fun t => t = s) ∧
    (p.val < 48 → st = 6 → x.rejoin = none → x.stepAt + 10000000 ≤ s.tickNo → x.verTheirs = 1 → x.rate = 2 →
      Completes (.verifyEnd p [1]) s (fails 3)) ∧
    (∀ pause : Fin 4, st = 9 →
      (s.allLocked p.val = true →
        let mode := s.fget F.ptCfg_MODE p.val
        Completes (.standardLinkUp p pause) s fun t =>
          t.fget F.ptStat_STATE p.val = 10 ∧ t.fbit F.ptStat_LINK p.val = true ∧ t.fget F.ptStat_RATE p.val = modeRate mode ∧
          t.fget F.ptStat_LANES p.val = allLanes p.val ∧ t.fget F.ptStat_FAILS p.val = 0 ∧ t.fget F.ptBackoff_MS p.val = 0 ∧
          (mode = 0 → s.fbit F.ptCfg_AN_EN p.val = true → t.fget F.ptStat_PAUSE_RES p.val = pause.val) ∧
          t.raises (Prod.ptLink p.val) s.nowI 0 s.tickNo ∧ others t) ∧
      (s.allLocked p.val = false → Completes (.standardLinkUp p pause) s fun t => t = s)) ∧
    (st = 11 →
      (x.stepAt + s.fget F.ptBackoff_MS p.val * 1000000 ≤ s.tickNo →
        Completes (.listenBackoffExpire p) s fun t => again t ∧ t.fget F.ptBackoff_MS p.val = s.fget F.ptBackoff_MS p.val) ∧
      (s.tickNo < x.stepAt + s.fget F.ptBackoff_MS p.val * 1000000 → Completes (.listenBackoffExpire p) s fun t => t = s)) ∧
    (∀ (j : Fin 65) (cut : Nat), j.val < 64 → lanePort j.val = p.val →
      (s.laneLocked j.val = true →
        let lost (t : State) : Prop :=
          t.fbit F.lnStat_LOL j.val = true ∧ t.rget ⟨.lnCntLol, j.val, 0, 0⟩ = counted (s.rget ⟨.lnCntLol, j.val, 0, 0⟩) 1 ∧
          t.laneLocked j.val = false
        (st = 10 → s.fbit F.ptStat_LINK p.val = true →
          Completes (.laneLossOfLock j false cut) s fun t => lost t ∧ down t ∧ again t ∧ t.flt.reports.length = s.flt.reports.length + 1) ∧
        (2 ≤ st → st ≤ 7 →
          Completes (.laneLossOfLock j true cut) s fun t =>
            lost t ∧ t.fbit F.lnStat_LOS j.val = true ∧ t.fget F.ptStat_FAILS p.val = s.fget F.ptStat_FAILS p.val ∧
            (s.fbit F.ptCfg_ELBER_EN p.val = true → t.fget F.ptStat_STATE p.val = 1) ∧ others t) ∧
        (∀ (q : Port) (data : BitVec 32), s.writable q.req .lnCtl = true → s.fbit F.ptCfg_EN p.val = true → s.fbit F.ptStat_LINK p.val = true →
          Completes (.laneReset q j data) s fun t => lost t ∧ down t ∧ again t))) ∧
    (s.laneLocked 64 = true →
      Completes (.laneLossOfLock 64 true 0) s fun t =>
        t.laneLocked 64 = false ∧ t.fbit F.lnStat_LOL 64 = true ∧ t.rget ⟨.lnCntLol, 64, 0, 0⟩ = counted (s.rget ⟨.lnCntLol, 64, 0, 0⟩) 1 ∧
        t.flt.reports.length = s.flt.reports.length + 1 ∧ t.pt = s.pt) ∧
    (∀ (q : Port) (data : BitVec 32),
      (s.writable q.req .ptTrain = true → 1 ≤ bits data.toNat 15 0 → bits data.toNat 15 0 ≤ 1000 → 1 ≤ bits data.toNat 31 16 →
        bits data.toNat 31 16 ≤ 10000 →
        Completes (.ptCfgWrite q true p data) s fun t =>
          t.fget F.ptTrain_STEP_TMO p.val = bits data.toNat 15 0 ∧ t.fget F.ptTrain_TOTAL_TMO p.val = bits data.toNat 31 16 ∧
          (s.fbit F.ptCfg_EN p.val = false → { t with regs := s.regs, cyc := s.cyc } = s ∧ ∀ c, c ≠ ⟨.ptTrain, p.val, 0, 0⟩ → t.rget c = s.rget c) ∧
          (s.fbit F.ptCfg_EN p.val = true → s.fbit F.ptStat_LINK p.val = true →
            bits data.toNat 15 0 ≠ s.fget F.ptTrain_STEP_TMO p.val → down t ∧ again t)) ∧
      (s.writable q.req .ptCfg = true →
        let mode := bits data.toNat 2 0
        let combo := cfgCombo p.val mode (bits data.toNat 5 4) (bit data.toNat 12)
        let clash := ∃ o : Fin 52, o ≠ p ∧ portQuad o.val = portQuad p.val ∧ s.fbit F.ptCfg_EN o.val = true ∧
          (mode = 0 ↔ s.fget F.ptCfg_MODE o.val ≠ 0)
        (s.fbit F.ptCfg_EN p.val = true → bit data.toNat 31 = true → clash →
          Completes (.ptCfgWrite q false p data) s fun t =>
            t.fget F.ptCfg_MODE p.val = s.fget F.ptCfg_MODE p.val ∧ t.fget F.ptCfg_FEC p.val = s.fget F.ptCfg_FEC p.val ∧
            t.fbit F.ptCfg_ELBER_EN p.val = s.fbit F.ptCfg_ELBER_EN p.val ∧
            t.fbit F.ptStat_QUAD_CONFLICT p.val = true ∧ t.fbit F.ptStat_WR_ERR p.val = true) ∧
        (combo = true → bit data.toNat 31 = s.fbit F.ptCfg_EN p.val → (s.fbit F.ptCfg_EN p.val = true → ¬ clash) →
          Completes (.ptCfgWrite q false p data) s fun t =>
            t.fget F.ptCfg_MODE p.val = mode ∧ t.fget F.ptCfg_FEC p.val = bits data.toNat 5 4 ∧ t.fbit F.ptCfg_ELBER_EN p.val = bit data.toNat 12 ∧
            t.fbit F.ptCfg_EN p.val = s.fbit F.ptCfg_EN p.val ∧
            (s.fbit F.ptCfg_EN p.val = false → t.pt = s.pt ∧ t.fget F.ptStat_STATE p.val = st) ∧
            (s.fbit F.ptCfg_EN p.val = true → s.fbit F.ptStat_LINK p.val = true → mode ≠ s.fget F.ptCfg_MODE p.val → down t ∧ others t)) ∧
        (combo = false → s.fbit F.ptCfg_EN p.val = false → bit data.toNat 31 = false →
          Completes (.ptCfgWrite q false p data) s fun t =>
            t.fget F.ptCfg_MODE p.val = s.fget F.ptCfg_MODE p.val ∧ t.fget F.ptCfg_FEC p.val = s.fget F.ptCfg_FEC p.val ∧
            t.fbit F.ptCfg_ELBER_EN p.val = s.fbit F.ptCfg_ELBER_EN p.val ∧ t.fbit F.ptStat_WR_ERR p.val = true ∧ t.pt = s.pt))) ∧
    (∀ (q : Port) (k : Fin 16) (data : BitVec 32), s.writable q.req .lnQuadCtl = true →
      (bit data.toNat 0 ≠ s.fbit F.lnQuadCtl_SYNT k.val →
        Completes (.syntChange q k data) s fun t =>
          t.fbit F.lnQuadCtl_SYNT k.val = bit data.toNat 0 ∧ t.fbit F.lnQuadStat_QPLL_LOCK k.val = false ∧
          (∀ o : Fin 52, portQuad o.val = k.val →
            (∀ j ∈ portLanes o.val, t.laneLocked j = false ∧ (s.laneLocked j = true → t.fbit F.lnStat_LOL j = true)) ∧
            (s.fbit F.ptCfg_EN o.val = true → t.fbit F.ptStat_LINK o.val = false ∧ (t.getPt o.val).stepAt = s.tickNo)) ∧
          (∀ o : Fin 52, portQuad o.val ≠ k.val → t.getPt o.val = s.getPt o.val ∧ t.fget F.ptStat_STATE o.val = s.fget F.ptStat_STATE o.val)) ∧
      (bit data.toNat 0 = s.fbit F.lnQuadCtl_SYNT k.val →
        Completes (.syntChange q k data) s fun t => { t with regs := s.regs, cyc := s.cyc } = s ∧ ∀ c, t.rget c = s.rget c)) ∧
    (∀ k : Fin 16,
      (s.fget F.lnQuadStat_FAMILY k.val ≠ 0 →
        Completes (.qpllRelockDone k) s fun t =>
          t.fbit F.lnQuadStat_QPLL_LOCK k.val = true ∧ { t with regs := s.regs } = s ∧ ∀ c, c ≠ ⟨.lnQuadStat, k.val, 0, 0⟩ → t.rget c = s.rget c) ∧
      (s.fget F.lnQuadStat_FAMILY k.val = 0 → Completes (.qpllRelockDone k) s fun t => t = s))

/-- R373 to R375: an Elber trunk that loses one lane runs on the other three and asks the far end to drop it, which acknowledges; a second
lane lost, a DROP of another lane or no acknowledgement in time takes the link down; a lane that trains again rejoins, and one that fails
is tried after 1 s. Where the rules leave a reading open the clauses follow the model's own, log entries 5, 61. -/
def Obligations.TrunkLanesLeaveAndReturn : Prop :=
  ∀ (p : Fin 52) (i : Fin 4) (s : State), 48 ≤ p.val → s.glb.limited = false → s.fget F.ptStat_STATE p.val = 8 → s.fbit F.ptStat_SPARE p.val = true →
    s.fbit F.ptStat_LINK p.val = true → s.fbit F.ptCfg_ELBER_EN p.val = true →
    let x := s.getPt p.val
    let use := s.fget F.ptStat_LANES p.val
    let lane := 4 * p.val - 144 + i.val
    let others (t : State) : Prop := (∀ o, o ≠ p.val → t.getPt o = s.getPt o) ∧ t.time = s.time ∧ t.eo = s.eo ∧ t.dram = s.dram
    let becomes (y : Pt) (t : State) : Prop := t.getPt p.val = y ∧ others t ∧ t.regs = s.regs
    let sends (b : ElmBody) (t : State) : Prop := (t.elm.get {} p.val).sent = [((s.elm.get {} p.val).seq % 65536, b)]
    let tells (t : State) : Prop := t.raises (Prod.ptLink p.val) s.nowI 0 s.tickNo
    let threeLanes (t : State) : Prop :=
      t.fget F.ptStat_LANES p.val = 15 - 2 ^ i.val ∧ t.fget F.ptStat_RATE p.val = 5 ∧ t.fbit F.ptStat_LINK p.val = true ∧
      t.fget F.ptStat_STATE p.val = 8 ∧ tells t ∧ others t
    let down (t : State) : Prop :=
      t.fbit F.ptStat_LINK p.val = false ∧ t.fget F.ptStat_LANES p.val = 0 ∧ tells t ∧
      t.rget ⟨.ptCntLinkDown, p.val, 0, 0⟩ = counted (s.rget ⟨.ptCntLinkDown, p.val, 0, 0⟩) 1 ∧ others t
    (∀ (j : Fin 65) (los : Bool) (cut : Nat), j.val = lane → s.laneLocked lane = true →
      (use = 15 → Completes (.laneLossOfLock j los cut) s fun t =>
        threeLanes t ∧ (t.getPt p.val).drop = some ⟨i.val, s.tickNo, s.tickNo⟩ ∧
        t.rget ⟨.ptCntSpareDisc, p.val, 0, 0⟩ = counted (s.rget ⟨.ptCntSpareDisc, p.val, 0, 0⟩) cut ∧
        ∃ round, sends (.drop i.val round) t) ∧
      (use ≠ 15 → bit use i.val = true → Completes (.laneLossOfLock j los cut) s down)) ∧
    (x.drop = none →
      (use = 15 → Completes (.elmDrop p 1 i) s fun t => threeLanes t ∧ t.getPt p.val = x ∧ ∃ round, sends (.dropAck i.val round) t) ∧
      (use ≠ 15 → bit use i.val = true → Completes (.elmDrop p 1 i) s down) ∧
      (bit use i.val = false → Completes (.elmDrop p 1 i) s fun t => becomes x t ∧ ∃ round, sends (.dropAck i.val round) t) ∧
      Completes (.elmDropAck p 1 i) s (fun t => t = s) ∧ Completes (.dropResend p) s (fun t => t = s) ∧
      Completes (.dropAckTimeout p) s fun t => t = s) ∧
    (∀ d, x.drop = some d →
      (d.lane = i.val → Completes (.elmDrop p 1 i) s (becomes { x with drop := none }) ∧
        Completes (.elmDropAck p 1 i) s (becomes { x with drop := none })) ∧
      (d.lane ≠ i.val → Completes (.elmDrop p 1 i) s down ∧ Completes (.elmDropAck p 1 i) s fun t => t = s) ∧
      (d.sent + 5000 ≤ s.tickNo → Completes (.dropResend p) s (becomes { x with drop := some { d with sent := s.tickNo } })) ∧
      (s.tickNo < d.sent + 5000 → Completes (.dropResend p) s fun t => t = s) ∧
      (let rtt := s64Of (s.fget F.ntPortRtt_RM p.val)
       (rtt ≤ (s.tickNo - d.first - 50000 : Nat) * 65536 → d.first + 50000 ≤ s.tickNo →
         Completes (.dropAckTimeout p) s fun t => down t ∧ t.fget F.ptStat_LAST_FAIL p.val = 5) ∧
       (s.tickNo < d.first + 50000 → Completes (.dropAckTimeout p) s fun t => t = s))) ∧
    (∀ command ∈ [Instr.laneRejoin p i, .laneRejoinRetry p i],
      (bit use i.val = false → s.laneLocked lane = true → x.rejoin = none → x.drop = none → x.retryAt ≤ s.tickNo →
        Completes command s (becomes { x with rejoin := some { lane := i.val, stepAt := s.tickNo } })) ∧
      (bit use i.val = true ∨ s.tickNo < x.retryAt → Completes command s fun t => t = s)) ∧
    (∀ (r : PtRejoin) (pass : Bool), x.rejoin = some r → r.lane = i.val →
      let again : Pt := { x with rejoin := none, retryAt := s.tickNo + 1000000000 }
      (r.verMine = true → r.verTheirs = true →
        ∀ reply, Completes (.elmAdd p 1 ⟨i, reply⟩) s fun t =>
          (reply = false → ∃ round, sends (.add i.val round true) t) ∧ t.fget F.ptStat_LANES p.val = use ||| 2 ^ i.val ∧ t.fget F.ptStat_RATE p.val = (if use ||| 2 ^ i.val = 15 then 6 else 5) ∧
          t.getPt p.val = { x with rejoin := none } ∧ tells t ∧ others t) ∧
      (r.verMine = false ∨ r.verTheirs = false → ∀ reply, Completes (.elmAdd p 1 ⟨i, reply⟩) s fun t => t = s) ∧
      Completes (.elmVerify p 1 i true pass) s (becomes (if pass then { x with rejoin := some { r with verTheirs := true } } else again)) ∧
      (∀ (pre main post : Fin 4) (seq : BitVec 16), r.eqMine = false → r.eqTheirs = true →
        Completes (.elmEq p ⟨1, seq⟩ i pre main post true true) s fun t =>
          t.getPt p.val = { x with rejoin := some { r with eqMine := true, stepAt := s.tickNo } } ∧ others t) ∧
      (∀ errs : List Nat, r.eqMine = true → r.eqTheirs = true →
        (s.tickNo < r.stepAt + 10000000 → Completes (.verifyEnd p errs) s fun t => t = s) ∧
        (r.stepAt + 10000000 ≤ s.tickNo → Completes (.verifyEnd p errs) s (becomes (if errs.getD i.val 0 = 0 then { x with rejoin := some { r with verMine := true } } else again)))) ∧
      (r.stepAt + s.fget F.ptTrain_STEP_TMO p.val * 1000000 ≤ s.tickNo → Completes (.trainStepTimeout p) s (becomes again)))

/-! ### The switch core, Paddock and the egress scheduler (R379 to R403) -/

/-- R379 to R381, R384 to R387, R389, R391, R402, R403: a frame received on an up port gets its class, its stream's verdict, its egress
ports and its cells, guaranteed first, then shared below the threshold, or headroom on a lossless pair, which sends XOFF at the threshold;
what is dropped is counted where the rules say. Where the rules leave a reading open the clauses follow the model's own, log entries 63,
64, 65. -/
def Obligations.ReceivedFramesAreAdmittedOrDropped : Prop :=
  ∀ (p : Fin 52) (h : FrameHead) (len : Nat) (o : EdgeObs) (s : State),
    let x := s.getSwPort p.val
    let up := s.fbit F.ptStat_LINK p.val = true ∧ s.glb.limited = false ∧ s.fbit F.glbBlkRst_SWPAD = false ∧ x.rx = none
    (¬ up → Completes (.frameRx p h len o) s fun t => t = s) ∧
    (up → (∀ f ∈ s.sw.frames, f.live s.tickNo = true) → s.sw.xoff.cells = [] →
      let vid := vidOf h
      let ts := s.stampRx p.val o
      let pcp := (h.tag.map Prod.fst).getD (s.fget F.swPortCfg_DPCP p.val) % 8
      let cls := if h.elm then 6 else bits (s.fget F.swPcpMap_MAP p.val) (3 * pcp + 2) (3 * pcp)
      let n := cellsOf len
      let g := min n (s.fget F.padGmin_CELLS p.val cls - s.pairGuar p.val cls)
      let rest := n - g
      let sample := decide (s.fget F.swSample_N p.val ≠ 0) && decide (s.fget F.swSample_N p.val ≤ x.sampCnt + 1)
      let now (t : State) (id : Option Nat) (cut down : Bool) : Prop :=
        (t.getSwPort p.val).rx = some ⟨h, cls, vid, ts, s.time.valid, s.deg, id, cut, sample, id.isNone && !h.elm, down⟩ ∧
        (cls = 7 → t.raises (Prod.ptRx7 p.val) ts.t 0 s.tickNo) ∧ t.time = s.time ∧ t.eo = s.eo ∧ t.dram = s.dram ∧ t.pt = s.pt
      let loses (t : State) (c : RegKey) : Prop := t.sw.frames = s.sw.frames ∧ t.rget c = counted (s.rget c) 1
      let plain := h.elm = false ∧ h.ptp = none ∧ h.dst / 2 ^ 40 % 2 = 0 ∧ vid < 4095
      (h.elm = true → s.streamOf h.dst vid = none → s.lossless p.val 6 = false →
        Completes (.frameRx p h len o) s fun t => t.sw.frames = s.sw.frames ∧ now t none false false) ∧
      (h.ptp = none → ∀ k, s.streamOf h.dst vid = some k →
        let dropped (t : State) : Prop :=
          t.sw.frames = s.sw.frames ∧ t.fget F.swStream_DROP k = min (s.fget F.swStream_DROP k + 1) 0xFFFFFFFF ∧ now t none false false
        (s.fbit F.swStream_BLOCKED k = false → s.fget F.swStream_MAXSDU k < len ∨ s.fget F.swStream_MAXSDU k = 0 →
          Completes (.frameRx p h len o) s fun t => dropped t ∧
            (s.fbit F.swStream_BLOCK_OVERSIZE k = true → t.fbit F.swStream_BLOCKED k = true)) ∧
        (s.fbit F.swStream_BLOCKED k = true → Completes (.frameRx p h len o) s dropped) ∧
        (s.fget F.swStream_CIR k = 0 → s.fget F.swStream_EIR k = 0 → Completes (.frameRx p h len o) s dropped)) ∧
      (h.elm = false → h.ptp = none → s.streamOf h.dst vid = none → s.lossless p.val cls = true → s.fget F.padLlMtu_MTU < len →
        Completes (.frameRx p h len o) s fun t => loses t ⟨.padCntLlOver, p.val, 0, 0⟩ ∧ now t none false false) ∧
      (plain → s.streamOf h.dst vid = none → (s.lossless p.val cls = true → len ≤ s.fget F.padLlMtu_MTU) →
        (∀ (i : Nat) (q : Fin 52), s.macFind (macKey h.dst vid) = some i → s.fget F.swMac_PORT i = q.val → q ≠ p →
          bit (s.fget F.swVlan_MEMBER vid) q.val = true →
          let y := s.getSwPort q.val
          let alt := s.fget F.swFrr_ALT q.val
          let cutTo (e : Nat) : Bool := decide (cls = 7) && s.fbit F.swPortCfg_CT_EN p.val && decide (s.portGbps e ≤ s.portGbps p.val)
          let frame (e guar shared head : Nat) : PFrame :=
            { id := s.sw.nextId, kind := .fwd, inPort := p.val, cls := cls, len := len, guar := guar, shared := shared, head := head,
              copies := [{ port := e, inst := if cls = 7 ∧ s.fbit F.tasFl_EN e = true then some (addSpan ts.t (s64Of (s.fget F.tasFl_DELAY e))).1 else none }],
              ts := ts, dms := s64Of (s.fget F.ntPortDms_D p.val), cut := cutTo e, tags := some (h.tag, pcp, vid) }
          let takes (e guar shared head : Nat) : Prop :=
            Completes (.frameRx p h len o) s fun t =>
              t.sw.frames = s.sw.frames ++ [frame e guar shared head] ∧ now t (some s.sw.nextId) (cutTo e) false ∧
              (s.lossless p.val cls = true → (t.xoffOn p.val cls = true ↔ t.belowT cls (t.pairShared p.val cls) false = false))
          (s.fbit F.ptStat_LINK q.val = true → y.rerouted = false →
            (rest = 0 → takes q.val n 0 0) ∧
            (0 < rest → s.lossless p.val cls = false → rest ≤ s.padFree → s.belowT cls (s.egressShared q.val cls) false = true → takes q.val g rest 0) ∧
            (0 < rest → s.lossless p.val cls = false → s.belowT cls (s.egressShared q.val cls) false = false →
              Completes (.frameRx p h len o) s fun t => loses t ⟨.padCntDrop, q.val, 0, 0⟩ ∧ now t none (cutTo q.val) false) ∧
            (0 < rest → s.lossless p.val cls = true → rest ≤ s.padFree → takes q.val g rest 0) ∧
            (s.padFree < rest → s.lossless p.val cls = true → 0 < rest →
              let room := s.fget F.padHr_CELLS p.val cls - s.pairHead p.val cls
              (rest ≤ room → takes q.val g 0 rest) ∧
              (room < rest → Completes (.frameRx p h len o) s fun t =>
                loses t ⟨.padCntHrDrop, p.val, 0, 0⟩ ∧ t.fbit F.padStat_HR_OVF = true ∧ now t none (cutTo q.val) false))) ∧
          (s.fbit F.ptStat_LINK q.val = false → y.rerouted = false →
            Completes (.frameRx p h len o) s fun t => loses t ⟨.padCntDownDisc, q.val, 0, 0⟩ ∧ now t none false true) ∧
          (y.rerouted = true → alt ≠ q.val → s.fbit F.ptStat_LINK alt = true → (s.getSwPort alt).rerouted = false → rest = 0 → takes alt n 0 0) ∧
          (y.rerouted = true → alt ≠ q.val → (s.fbit F.ptStat_LINK alt = false ∨ (s.getSwPort alt).rerouted = true) →
            Completes (.frameRx p h len o) s fun t => loses t ⟨.padCntDownDisc, q.val, 0, 0⟩ ∧ now t none false true)) ∧
        (s.macFind (macKey h.dst vid) = none → (∀ e, (s.getSwPort e).rerouted = false) → rest = 0 →
          (∃ e : Fin 52, e ≠ p ∧ bit (s.fget F.swVlan_MEMBER vid) e.val = true ∧ s.fbit F.ptStat_LINK e.val = true) →
          Completes (.frameRx p h len o) s fun t =>
            ∃ f : PFrame, t.sw.frames = s.sw.frames ++ [f] ∧ f.id = s.sw.nextId ∧ f.cls = cls ∧ f.guar = n ∧
              (∀ e, (∃ c ∈ f.copies, c.port = e) ↔
                e < 52 ∧ e ≠ p.val ∧ bit (s.fget F.swVlan_MEMBER vid) e = true ∧ s.fbit F.ptStat_LINK e = true))))

/-- R379, R382, R383, R386, R387, R389 to R391, R395, R402: a frame whose end is good waits whole and teaches its source; a bad one is
counted and ends its copies; pause and XOFF run by their quanta; MAC entries age; a port that goes down holds, flushes or reroutes its
frames, and one that comes up sends what is not past. Where the rules leave a reading open the clauses follow the model's own, log entries
65, 67, 97. -/
def Obligations.FramesEndAndPortsGoDownAndUp : Prop :=
  ∀ (p : Fin 52) (s : State), (∀ f ∈ s.sw.frames, f.live s.tickNo = true) → s.sw.xoff.cells = [] →
    let x := s.getSwPort p.val
    let apart (t : State) : Prop := (∀ e, e ≠ p.val → t.getSwPort e = s.getSwPort e) ∧ t.time = s.time ∧ t.eo = s.eo ∧ t.dram = s.dram
    let count (t : State) (r : Reg) (e n : Nat) : Prop := t.rget ⟨r, e, 0, 0⟩ = counted (s.rget ⟨r, e, 0, 0⟩) n
    (∀ (data : List Byte) (err : Bool),
      (x.rx = none → Completes (.frameRxEnd p data true err) s fun t => t = s) ∧
      (∀ r, x.rx = some r → r.head.elm = false → 64 ≤ data.length → data.length ≤ s.fget F.swPortCfg_MTU p.val →
        let key := macKey r.head.src r.vid
        let b := Config.macHash (r.head.src % 2 ^ 48) r.vid % 32768
        let ends (t : State) : Prop := (t.getSwPort p.val).rx = none ∧ apart t
        (r.head.src / 2 ^ 40 % 2 = 0 → 0 < r.vid → r.vid < 4095 → r.sample = false → r.id = none →
          (∀ i, s.macFind key = none → (s.fget F.swMac_FLAGS (4 * b) % 2 = 0 → i = 4 * b) →
            (s.fget F.swMac_FLAGS (4 * b) % 2 = 1 → i = 4 * b + 1 ∧ s.fget F.swMac_FLAGS (4 * b + 1) % 2 = 0) →
            Completes (.frameRxEnd p data true false) s fun t =>
              t.rget ⟨.swMac, i, 0, 0⟩ = key + p.val * 2 ^ 64 + 2 ^ 70 ∧ t.sw.macTick.get 0 i = s.tickNo ∧ t.sw.frames = s.sw.frames ∧ ends t) ∧
          (s.macFind key = none → (∀ w, w < 4 → s.fget F.swMac_FLAGS (4 * b + w) % 2 = 1) →
            Completes (.frameRxEnd p data true false) s fun t => count t .swCntLearnFull 0 1 ∧ t.sw.frames = s.sw.frames ∧ ends t) ∧
          (∀ i, s.macFind key = some i → s.fget F.swMac_FLAGS i < 2 →
            Completes (.frameRxEnd p data true false) s fun t => t.fget F.swMac_PORT i = p.val ∧ t.sw.macTick.get 0 i = s.tickNo ∧ ends t) ∧
          (∀ i, s.macFind key = some i → 2 ≤ s.fget F.swMac_FLAGS i →
            Completes (.frameRxEnd p data true false) s fun t => t.regs = s.regs ∧ ends t)) ∧
        (∀ f c, s.sw.frames = [f] → r.id = some f.id → f.copies = [c] → r.sample = false → r.head.src / 2 ^ 40 % 2 = 1 →
          (c.live s.tickNo = true → Completes (.frameRxEnd p data true false) s fun t =>
            t.sw.frames = [{ f with complete := true, data := data }] ∧ t.regs = s.regs ∧ ends t) ∧
          (∀ fcs, fcs = false ∨ err = true →
            (c.start = none → Completes (.frameRxEnd p data fcs err) s fun t => t.sw.frames = [] ∧ count t .swCntRxBad p.val 1 ∧ ends t) ∧
            (c.start.isSome = true → s.tickNo < c.stop → Completes (.frameRxEnd p data fcs err) s fun t =>
              t.sw.frames = [{ f with complete := true, copies := [c] }] ∧ count t .swCntRxBad p.val 1 ∧ count t .tasCntTxBad c.port 1 ∧ ends t))) ∧
        (r.sample = true → r.id = none → r.head.src / 2 ^ 40 % 2 = 1 →
          let stored := min data.length (64 * s.fget F.swSample_TRUNC p.val)
          let one := sampleHeader p.val r false data.length stored x.sampSeq ++ data.take stored
          let used := s.sw.samples.foldl (fun a e => a + e.2) 0
          let at_ := s.sw.sampleAt
          let place := 0x1C0000000 + at_
          (s.dramUnavail = false → s.flrOn = false → used + one.length ≤ 536870912 → Completes (.frameRxEnd p data true false) s fun t =>
            t.sw.samples = s.sw.samples ++ [(at_, one.length)] ∧ t.sw.sampleAt = (at_ + one.length) % 536870912 ∧ t.regs = s.regs ∧
            (t.getSwPort p.val).rx = none ∧ t.time = s.time ∧ t.eo = s.eo ∧
            (Memory.wf dramUnl s.dram = true → at_ + one.length ≤ 536870912 →
              memReadBytes dramUnl t.dram place one.length = one ∧
              ∀ a, (a < place ∨ place + one.length ≤ a) → memRead dramUnl t.dram a = memRead dramUnl s.dram a)) ∧
          ((s.dramUnavail = true ∨ s.flrOn = true ∨ 536870912 < used + one.length) → Completes (.frameRxEnd p data true false) s fun t =>
            t.sw.samples = s.sw.samples ∧ count t .swCntSampleLost p.val 1 ∧ ends t)))) ∧
    (∀ (pauseFrame : Bool) (mask : BitVec 8) (quanta : List Nat), s.fbit F.ptStat_LINK p.val = true →
      Completes (.pfcRx p pauseFrame mask quanta) s fun t =>
        { t with sw := { t.sw with pause := s.sw.pause } } = s ∧
        ∀ c, c < 8 →
          let named := bit (if pauseFrame then s.fget F.swPortCfg_PAUSE_MASK p.val else mask.toNat) c
          let q := quanta.getD (if pauseFrame then 0 else c) 0 % 65536
          (named = true → t.sw.pause.get 0 (8 * p.val + c) = (if q = 0 then 0 else s.tickNo + s.bytesNs p.val (64 * q))) ∧
          (named = false → t.sw.pause.get 0 (8 * p.val + c) = s.sw.pause.get 0 (8 * p.val + c))) ∧
    (∀ c : Fin 8,
      (s.paused p.val c.val = true → Completes (.pauseExpire p c) s fun t => t = s) ∧
      (s.paused p.val c.val = false → Completes (.pauseExpire p c) s fun t =>
        t.sw.pause.get 0 (8 * p.val + c.val) = 0 ∧ t.paused p.val c.val = false ∧ { t with sw := s.sw } = s ∧ t.sw.frames = s.sw.frames) ∧
      Completes (.xoffRepeat p c) s fun t => t = s) ∧
    (∀ i : Fin 131072,
      let due := s.sw.macTick.get 0 i.val + s.fget F.swAge_SEC * 1000000000 ≤ s.tickNo
      (s.fget F.swMac_FLAGS i.val = 1 → due → Completes (.macAgeExpire i) s fun t =>
        t.fget F.swMac_FLAGS i.val = 0 ∧ { t with regs := s.regs } = s ∧ ∀ c, c ≠ ⟨.swMac, i.val, 0, 0⟩ → t.rget c = s.rget c) ∧
      (s.fget F.swMac_FLAGS i.val ≠ 1 ∨ ¬ due → Completes (.macAgeExpire i) s fun t => t = s)) ∧
    (let y := s.getPt p.val
     (y.pendDown = false → Completes (.portDown p) s fun t => t = s) ∧
     (∀ f c, y.pendDown = true → x.rx = none → s.sw.frames = [f] → f.copies = [c] → c.port = p.val → f.complete = true →
       let us := s.fget F.padHold_US p.val
       let frr := s.fbit F.swFrr_EN p.val = true ∧ s.fbit F.ptStat_LINK (s.fget F.swFrr_ALT p.val) = true
       let acts (t : State) : Prop := t.getPt p.val = { y with pendDown := false } ∧ (t.getSwPort p.val).expUntil = 0 ∧ apart t
       (c.start.isSome = true ∨ f.ptp.isSome = true → Completes (.portDown p) s fun t => t.sw.frames = [] ∧ acts t) ∧
       (c.start = none → f.ptp = none → ¬ frr → us ≠ 0 → Completes (.portDown p) s fun t =>
         t.sw.frames = [f] ∧ (t.getSwPort p.val).holdUntil = some (s.tickNo + 1000 * us) ∧ acts t) ∧
       (c.start = none → f.ptp = none → frr ∨ us = 0 → Completes (.portDown p) s fun t =>
         t.sw.frames = [] ∧ count t .padCntFlush p.val 1 ∧ (t.getSwPort p.val).holdUntil = none ∧
         (frr → (t.getSwPort p.val).rerouted = true) ∧ (¬ frr → (t.getSwPort p.val).rerouted = x.rerouted) ∧ acts t)) ∧
     (∀ f c until_, x.holdUntil = some until_ → s.sw.frames = [f] → f.copies = [c] → c.port = p.val → c.start = none → f.complete = true →
       (until_ ≤ s.tickNo → Completes (.padHoldExpire p) s fun t =>
         t.sw.frames = [] ∧ (t.getSwPort p.val).holdUntil = none ∧ count t .padCntFlush p.val 1 ∧ t.pt = s.pt ∧ apart t) ∧
       (s.tickNo < until_ → Completes (.padHoldExpire p) s fun t => t = s) ∧
       (∀ i, c.inst = some i → y.pendUp = true → s.fbit F.ptStat_LINK p.val = true →
         Completes (.portUp p) s fun t =>
           t.sw.frames = (if i < s.nowI then [] else [f]) ∧ (i < s.nowI → count t .padCntFlush p.val 1) ∧
           (t.getSwPort p.val).holdUntil = none ∧ (t.getSwPort p.val).upTick = s.tickNo ∧ t.getPt p.val = { y with pendUp := false } ∧ apart t ∧
           (∀ (c : Fin 8) hr, s.fbit F.padCtl_HR_AUTO = true → s.glb.fwRun = true → s.glb.limited = false → s.fget F.swPortCfg_FC p.val ≠ 0 →
             s.fbit F.padClass_LL c.val = true → s.fget F.ptStat_RATE p.val = 5 ∨ s.fget F.ptStat_RATE p.val = 6 →
             hr = min 65535 (hrCells 100 (s.hrRtt p.val) (s.fget F.padHrTd_TD)) →
             t.fget F.padHr_CELLS p.val c.val = hr ∨ t.fbit F.padStat_HR_SHORT = true) ∧
           (s.fbit F.tasPreempt_EN p.val = true → s.fbit F.tasPreempt_VERIFY_DIS p.val = true → p.val < 48 →
             s.fget F.ptStat_RATE p.val = 2 ∨ s.fget F.ptStat_RATE p.val = 3 → t.fbit F.tasPreempt_ACTIVE p.val = true))) ∧
     (y.pendUp = false → Completes (.portUp p) s fun t => t = s)) ∧
    (let due := s.fbit F.swFrr_REVERT_EN p.val = true ∧ x.upTick + s.fget F.swFrr_REVERT p.val * 1000000 ≤ s.tickNo
     x.rerouted = true → s.fbit F.ptStat_LINK p.val = true →
       (due → Completes (.frrRevert p) s fun t => t.getSwPort p.val = { x with rerouted := false } ∧ t.regs = s.regs ∧ t.sw.frames = s.sw.frames ∧ apart t) ∧
       (¬ due → Completes (.frrRevert p) s fun t => t = s)) ∧
    (s.fbit F.tasPreempt_EN p.val = true → s.fbit F.ptStat_LINK p.val = true → p.val < 48 → s.fget F.ptStat_RATE p.val = 2 ∨ s.fget F.ptStat_RATE p.val = 3 →
      Completes (.preemptVerifyDone p) s fun t =>
        t.fbit F.tasPreempt_ACTIVE p.val = true ∧ { t with regs := s.regs } = s ∧ ∀ c, c ≠ ⟨.tasPreempt, p.val, 0, 0⟩ → t.rget c = s.rget c) ∧
    (48 ≤ p.val → Completes (.preemptVerifyDone p) s fun t => t = s)

/-- R392 to R400: gates change with their list, and a list changes at its cycle start; a frame starts when its gate is open to its end and
nothing goes first; launch and fixed-latency frames start at their instants or are late, also where their boundary has gone; XOFF is
repeated; a template's event enters a copy of it at its timestamp plus OFFSET. Where the rules leave a reading open the clauses follow the
model's own, log entries 66, 67, 68. -/
def Obligations.GatesLaunchesAndEgress : Prop :=
  ∀ (p : Fin 52) (o : EdgeObs) (s : State),
    let x := s.getSwPort p.val
    let apart (t : State) : Prop := (∀ e, e ≠ p.val → t.getSwPort e = s.getSwPort e) ∧ t.time = s.time ∧ t.eo = s.eo ∧ t.dram = s.dram
    (Completes (.gclEntry p) s fun t =>
      t.getSwPort p.val = { x with gates := s.gatesAt p.val s.time.now } ∧ t.regs = s.regs ∧ t.sw.frames = s.sw.frames ∧ apart t) ∧
    (∀ (q : Port) (data : BitVec 32), s.writable q.req .tasGclCtl = true →
      let len := bits data.toNat 8 0
      let cycle := s.fget F.tasCycle_NS p.val
      let base := s.fget F.tasBase_T p.val
      let list := (List.range len).map fun e => (s.fget F.tasGcl_GATES p.val e, s.fget F.tasGcl_INTERVAL p.val e)
      (len ≤ 256 → ∀ b, unpackT96 base = some b →
        (cycle < 1000 ∨ 1000000000 < cycle → Completes (.gclChange q p data) s fun t => t.fget F.tasGclCtl_RES p.val = 1 ∧ t.sw = s.sw ∧ apart t) ∧
        (1000 ≤ cycle → cycle ≤ 1000000000 →
          (b % lsbPerNs ≠ 0 → Completes (.gclChange q p data) s fun t => t.fget F.tasGclCtl_RES p.val = 2 ∧ t.sw = s.sw ∧ apart t) ∧
          (b % lsbPerNs = 0 → Completes (.gclChange q p data) s fun t =>
            t.fget F.tasGclCtl_RES p.val = 0 ∧ t.fbit F.tasGclCtl_PENDING p.val = true ∧ t.sw.frames = s.sw.frames ∧ apart t ∧
            ∃ at_, t.getSwPort p.val = { x with pend := some ⟨list, cycle, b / lsbPerNs, at_⟩ } ∧ b / lsbPerNs ≤ at_ ∧ s.time.now + 1000 ≤ at_ ∧
              (at_ - b / lsbPerNs) % cycle = 0 ∧ (at_ < b / lsbPerNs + cycle ∨ at_ < s.time.now + 1000 + cycle))))) ∧
    (∀ g, x.pend = some g →
      (g.at_ ≤ s.time.now → Completes (.gclChangeEffect p) s fun t =>
        t.fbit F.tasGclCtl_PENDING p.val = false ∧ (t.getSwPort p.val).oper = g.list ∧ (t.getSwPort p.val).cycle = g.cycle ∧
        (t.getSwPort p.val).base = g.base ∧ (t.getSwPort p.val).pend = none ∧ (t.getSwPort p.val).gates = t.gatesAt p.val s.time.now ∧
        t.sw.frames = s.sw.frames ∧ apart t) ∧
      (s.time.now < g.at_ → Completes (.gclChangeEffect p) s fun t => t = s)) ∧
    (∀ f c, s.sw.frames = [f] → f.live s.tickNo = true → s.sw.xoff.cells = [] → s.glb.limited = false → s.fbit F.ptStat_LINK p.val = true →
      f.copies = [c] → c.port = p.val → c.start = none → f.ptp = none → f.complete = true → x.preUntil ≤ s.tickNo →
      let tag : Option (Nat × Nat) := match f.tags with
        | none => none
        | some (_, pcp, vid) => if bit (s.fget F.swVlan_UNTAG vid) p.val then none else some (pcp, vid)
      let out : Nat := match f.tags with
        | none => max 64 f.len
        | some (came, _) => max 64 (f.len - (if came.isSome then 4 else 0) + (if tag.isSome then 4 else 0))
      let stop := s.tickNo + s.bytesNs p.val (out + 20)
      let st := s.stampTx p.val o
      let idle := x.expUntil ≤ s.tickNo
      let stopped := s.paused p.val f.cls = true
      let starts (express : Bool) (t : State) : Prop :=
        t.sw.frames = [{ f with copies := [{ c with start := some s.tickNo, stop := stop }] }] ∧
        t.getSwPort p.val = (if express then { x with expUntil := stop, last := ⟨f.id, f.cls, st.t, 0, f.data, tag, out⟩ }
          else { x with preUntil := stop, preStart := s.tickNo, preId := f.id, last := ⟨f.id, f.cls, st.t, 0, f.data, tag, out⟩ }) ∧
        (f.cls = 7 → t.fget F.tasLastDep_T p.val = packT96 st.t) ∧ (f.cls ≠ 7 → t.regs = s.regs) ∧ apart t
      let late (t : State) : Prop :=
        t.rget ⟨.tasCntLate, p.val, 0, 0⟩ = counted (s.rget ⟨.tasCntLate, p.val, 0, 0⟩) 1 ∧
        t.sw.frames = [{ f with copies := if s.fbit F.tasLatePol_DROP p.val then [] else [{ c with late := true }] }] ∧
        t.getSwPort p.val = x ∧ apart t
      (c.inst = none → f.cls < 8 →
        (s.gateFits p.val f.cls out = true → ¬ stopped → idle →
          Completes (.frameTxStart p o) s (starts (decide (6 ≤ f.cls) || bit (s.fget F.tasPreempt_EXPRESS_LO p.val) f.cls))) ∧
        (s.gateFits p.val f.cls out = false ∨ stopped ∨ ¬ idle → Completes (.frameTxStart p o) s fun t => t = s)) ∧
      (∀ i, c.inst = some i → ∀ command, (f.kind = .launch ∧ command = Instr.launchRelease p o) ∨
          (f.kind = .fwd ∧ command = Instr.fixedLatencyRelease p o ∧ s.gateFits p.val f.cls out = true) →
        (s.nowI < i → Completes command s fun t => t = s) ∧
        (i ≤ s.nowI →
          let gone := i * 100 + s.blockTime p.val * lsbPerNs ≤ s.nowI * 100
          (¬ stopped → idle → ¬ gone ∨ c.late = true → Completes command s (starts true)) ∧
          (¬ stopped → idle → gone → c.late = false →
            (s.fbit F.tasLatePol_DROP p.val = true → Completes command s late) ∧
            (s.fbit F.tasLatePol_DROP p.val = false → Completes command s fun t =>
              t.rget ⟨.tasCntLate, p.val, 0, 0⟩ = counted (s.rget ⟨.tasCntLate, p.val, 0, 0⟩) 1 ∧
              t.sw.frames = [{ f with copies := [{ c with late := true, start := some s.tickNo, stop := stop }] }] ∧ apart t)) ∧
          (stopped ∨ ¬ idle → c.late = false → Completes command s late) ∧
          (stopped ∨ ¬ idle → c.late = true → Completes command s fun t => t = s) ∧
          Completes (.frameTxStart p o) s fun t => t = s))) ∧
    (∀ f g c d i, s.sw.frames = [f, g] → f.live s.tickNo = true → g.live s.tickNo = true → s.sw.xoff.cells = [] → s.glb.limited = false →
      s.fbit F.ptStat_LINK p.val = true → f.copies = [c] → g.copies = [d] → c.port = p.val → d.port = p.val → c.start = none → d.start = none →
      f.ptp = none → g.ptp = none → f.id ≠ g.id → x.preUntil ≤ s.tickNo → x.expUntil ≤ s.tickNo →
      (f.kind = .fwd → g.kind = .launch → c.inst = some i → d.inst = some i → i ≤ s.nowI → s.blockGone p.val i = false → s.paused p.val g.cls = false →
        Completes (.launchRelease p o) s fun t => (∃ e, t.sw.frames = [f, { g with copies := [e] }] ∧ e.start = some s.tickNo) ∧ apart t) ∧
      (f.complete = true → g.complete = true → c.inst = none → d.inst = none → f.cls < g.cls → g.cls < 8 → s.paused p.val g.cls = false →
        s.gateFits p.val g.cls (s.outLen p.val g) = true →
        Completes (.frameTxStart p o) s fun t => (∃ e, t.sw.frames = [f, { g with copies := [e] }] ∧ e.start = some s.tickNo) ∧ apart t)) ∧
    (∀ (q : Port) (v : BitVec 128), s.writable q.req .tasLqTpl = true →
      let addr := bits v.toNat 34 0
      let len := bits v.toNat 77 64
      let n := cellsOf (len + 4)
      let held := (x.tpl.map LqTpl.cells).getD 0
      let good := 0 < len ∧ len + 4 ≤ s.fget F.swPortCfg_MTU p.val ∧ addr % 8 = 0 ∧ 0x180000000 ≤ addr ∧ addr + len ≤ 0x1C0000000 ∧
        s.dramUnavail = false
      let up := s.fbit F.glbBlkRst_SWPAD = false
      (good → up → n ≤ s.padFree + held → Completes (.lqTplCommit q p v) s fun t =>
        t.getSwPort p.val = { x with tpl := some ⟨memReadBytes dramUnl s.dram addr len, bits v.toNat 82 80, signedOf 32 (bits v.toNat 127 96), n⟩ } ∧
        t.fget F.tasLqTpl_RES p.val = 0 ∧ t.sw.frames = s.sw.frames ∧ apart t) ∧
      (good → s.padFree + held < n ∨ ¬ up → Completes (.lqTplCommit q p v) s fun t => t.fget F.tasLqTpl_RES p.val = 3 ∧ t.sw = s.sw ∧ apart t) ∧
      (¬ good → Completes (.lqTplCommit q p v) s fun t => t.fget F.tasLqTpl_RES p.val = 4 ∧ t.sw = s.sw ∧ apart t)) ∧
    (∀ (c : Fin 8) (at_ : Nat), s.swTick = s → s.sw.xoff.get none (8 * p.val + c.val) = some at_ →
      let due := at_ + s.bytesNs p.val (64 * 16384) ≤ s.tickNo
      (due → Completes (.xoffRepeat p c) s fun t =>
        t.sw.xoff.get none (8 * p.val + c.val) = some s.tickNo ∧ t.regs = s.regs ∧ t.sw.frames = s.sw.frames ∧ apart t ∧
        t.getSwPort p.val = { x with fcMask := if s.fget F.swPortCfg_FC p.val = 2 then 255 else 2 ^ c.val, fcQuanta := 65535 }) ∧
      (¬ due → Completes (.xoffRepeat p c) s fun t => t = s)) ∧
    (∀ g e tp, findGroup (Con.lqTrig p.val) 0 s.tickNo s.dw.inbox = some g → g.evs = [e] →
      (s.fbit F.glbBlkRst_TAS = true → Completes (.lqTrig p) s fun t =>
        t.rget ⟨.dwCntDrop, 0, 0, 0⟩ = counted (s.rget ⟨.dwCntDrop, 0, 0, 0⟩) 1 ∧ t.sw = s.sw ∧ apart t) ∧
      (s.fbit F.glbBlkRst_TAS = false → x.tpl = none → Completes (.lqTrig p) s fun t => t = { s with dw := { s.dw with inbox := dropGroup (Con.lqTrig p.val) 0 s.tickNo s.dw.inbox } }) ∧
      (x.tpl = some tp → s.sw.frames = [] → s.sw.xoff.cells = [] → s.glb.limited = false → s.fbit F.ptStat_LINK p.val = true →
        s.fbit F.glbBlkRst_TAS = false → s.fbit F.glbBlkRst_SWPAD = false → 0 < tp.data.length → tp.data.length + 4 ≤ s.fget F.swPortCfg_MTU p.val →
        let i := (addSpan e.ts (tp.offset * 65536)).1
        let n := cellsOf (tp.data.length + 4)
        (s.nowI + 500 * lsbPerNs ≤ i → n ≤ s.fget F.padGmin_CELLS p.val tp.cls → Completes (.lqTrig p) s fun t =>
          t.sw.frames = [
            { id := s.sw.nextId, kind := .launch, inPort := p.val, cls := tp.cls, len := tp.data.length + 4, guar := n, shared := 0, head := 0,
              copies := [{ port := p.val, inst := some i }], ts := ⟨s.nowI, s.time.stepSeq, false⟩, complete := true, data := tp.data }] ∧
          t.getSwPort p.val = x ∧ t.regs = s.regs ∧ apart t) ∧
        (i < s.nowI + 500 * lsbPerNs → Completes (.lqTrig p) s fun t => t.sw = s.sw ∧ t.regs = s.regs ∧ apart t)))

/-! ### Faults, monitors and the black box (R408 to R425) -/

/-- R411, R412, R413, R415 to R418: a detected fault counts, sets its class, raises FLT_DET, drives FAULT_N, is first if none is, is
recorded and starts its reaction unless it came from upstream; a masked one counts and is recorded; the watchdog restarts on its key and
reports when not kicked; the scan and the memories report what they find; a release acts 1 ms after the first fault or later. Where the
rules leave a reading open the clauses follow the model's own, log entries 69, 70, 72. -/
def Obligations.FaultsAreReportedAndReleased : Prop :=
  ∀ (s : State),
    let cycle := s.glb.aonCycle
    let apart (t : State) : Prop := t.time = s.time ∧ t.eo = s.eo ∧ t.dram = s.dram ∧ t.pt = s.pt ∧ t.sw = s.sw
    let count (t : State) (c : RegKey) : Prop := t.rget c = counted (s.rget c) 1
    let reports (t : State) (f : FaultRep) : Prop := t.flt.reports = s.flt.reports ++ [{ f with tick := s.tickNo }]
    (∀ f : FaultRep, f.cls ≤ 10 → s.bbrLast f.source f.code = none → s.bbr.queue.length < 63 →
      let shadow := decide (f.ts = none)
      let rec_ : BbrRec := ⟨f.ts.getD s.aonNow, f.source, f.code, f.arg0 % 2 ^ 32, f.arg1 % 2 ^ 32, s.bbr.seq, s.bbrFlags shadow⟩
      let reacts := s.reactsOn f.cls = true ∧ f.upstream = false
      let triggers := s.fbit F.bbrCtl_TRIG_EN = true ∧ s.bbr.frozen = false ∧ s.bbr.triggered = false ∧ bit (s.fget F.fltFreeze_CLASS) f.cls = true
      let detects (i : Instr) (rest : List FaultRep) : Prop :=
        Completes i s fun t =>
          t.fget F.fltStat_DET = s.fget F.fltStat_DET ||| 2 ^ f.cls ∧ count t ⟨.fltCntDet, 0, 0, 0⟩ ∧
          t.raises Prod.fltDet s.nowI 0 s.tickNo ∧ t.flt.pinLow = true ∧ t.flt.reports = rest ∧
          t.flt.first = some (s.flt.first.getD rec_) ∧
          (∃ l, t.bbr.queue = s.bbr.queue ++ rec_ :: l ∧ (¬ reacts → l = [])) ∧
          (reacts → t.flt.reacts = s.flt.reacts ++ [f.flock]) ∧ (¬ reacts → t.flt.reacts = s.flt.reacts) ∧
          (triggers → t.bbr.triggered = true ∧ t.bbr.trigSeq = s.bbr.seq) ∧ (¬ triggers → t.bbr.triggered = s.bbr.triggered) ∧ apart t
      let masks (i : Instr) (rest : List FaultRep) : Prop :=
        Completes i s fun t =>
          t.fget F.fltStat_MASKED = s.fget F.fltStat_MASKED ||| 2 ^ f.cls ∧ count t ⟨.fltCntMask, 0, 0, 0⟩ ∧
          t.raises Prod.fltMask s.nowI 0 s.tickNo ∧ t.flt = { s.flt with reports := rest, pinLow := s.flt.pinLow || s.fbit F.fltCtl_MASK_PIN } ∧
          t.bbr.queue = s.bbr.queue ++ [rec_] ∧ t.bbr.triggered = s.bbr.triggered ∧ apart t
      (s.flt.reports = [f] → (f.detected = true → detects (.faultDetected none) []) ∧ (f.detected = false → masks (.faultMasked none) [])) ∧
      detects (.faultDetected (some f)) s.flt.reports ∧ masks (.faultMasked (some f)) s.flt.reports) ∧
    (s.flt.reports = [] → Completes (.faultDetected none) s (fun t => t = s) ∧ Completes (.faultMasked none) s fun t => t = s) ∧
    (∀ (q : Port) (key : BitVec 8), s.writable q.req .fltWdogKick = true →
      (key.toNat = 0x5A → q = .fw → Completes (.wdogKick q key) s fun t =>
        t.flt = { s.flt with kickCycle := cycle } ∧ { t with flt := s.flt, cyc := s.cyc } = s) ∧
      (key.toNat ≠ 0x5A ∨ q ≠ .fw → Completes (.wdogKick q key) s fun t => t.fbit F.fltStat_WR_ERR = true ∧ t.flt = s.flt ∧ apart t)) ∧
    (let ms := s.fget F.fltCtl_WDOG_MS
     let due := s.fbit F.fltCtl_WDOG_EN = true ∧ s.glb.fwRun = true ∧ s.flt.kickCycle + ms * 100000 ≤ cycle
     (due → Completes .wdogExpire s fun t =>
       t.flt.kickCycle = cycle ∧ t.regs = s.regs ∧ apart t ∧
       reports t { detected := true, cls := 10, source := 0x0F * 2048, code := 0x2A01, arg0 := ms, arg1 := 0, ts := none }) ∧
     (¬ due → Completes .wdogExpire s fun t => t = s)) ∧
    (∀ group blk : Nat, group < 65536 →
      (s.fbit F.fltCtl_SCAN_EN = true → 1 ≤ blk → blk ≤ 12 → Completes (.cfgScanGroup group blk true) s fun t =>
        t.fget F.fltScanStat_GROUP = group ∧ apart t ∧
        reports t { detected := true, cls := 6, source := blk * 2048, code := 0x2601, arg0 := group, arg1 := 0, ts := none }) ∧
      (s.fbit F.fltCtl_SCAN_EN = false → Completes (.cfgScanGroup group blk true) s fun t => t = s) ∧
      Completes (.cfgScanGroup group blk false) s fun t => t = s) ∧
    (∀ (d : Fin 16) (addr : Nat),
      let source := 0x07 * 2048 + d.val
      (Completes (.memScrub (.drover d) addr 1) s fun t =>
        t.fbit F.drvStat_ECC_CORR d.val = true ∧ count t ⟨.drvCntEcc, d.val, 0, 0⟩ ∧ t.drv = s.drv ∧ apart t ∧
        reports t { detected := false, cls := 0, source := source, code := 0x1001, arg0 := addr, arg1 := 0, ts := some s.nowI }) ∧
      (Completes (.memScrub (.drover d) addr 2) s fun t =>
        t.fbit F.drvStat_ECC_UNC d.val = true ∧ apart t ∧
        reports t { detected := true, cls := 0, source := source, code := 0x2001, arg0 := addr, arg1 := 0, ts := some s.nowI }) ∧
      (Completes (.memScrub .dram addr 2) s fun t =>
        t.glb = { s.glb with dramFault := true } ∧ t.dramUnavail = true ∧ t.regs = s.regs ∧ apart t ∧
        reports t { detected := true, cls := 0, source := 0x11 * 2048, code := 0x2001, arg0 := addr, arg1 := 0, ts := none }) ∧
      (∀ f c, s.sw.frames = [f] → f.copies = [c] → c.start = none → Completes (.memScrub (.paddock f.id) addr 2) s fun t =>
        t.sw.frames = [{ f with copies := [], complete := true }] ∧ count t ⟨.swCntRxBad, f.inPort, 0, 0⟩ ∧
        reports t { detected := true, cls := 0, source := 0x0C * 2048, code := 0x2001, arg0 := addr, arg1 := 0, ts := none }) ∧
      (∀ m : MemId, Completes (.memScrub m addr 0) s fun t => t = s)) ∧
    (let early := ∃ r, s.flt.first = some r ∧ cycle < s.flt.firstCycle + 100000
     let again := ∃ r, s.flt.lastDet = some (cycle, r)
     let released (t : State) : Prop :=
       (¬ again → t.flt = { s.flt with first := none, pinLow := false, releaseAt := none }) ∧
       (∀ r, s.flt.lastDet = some (cycle, r) → t.flt = { s.flt with first := some r, firstCycle := cycle, releaseAt := none }) ∧
       { t with flt := s.flt, cyc := s.cyc } = s
     (∀ q : Port, s.writable q.req .fltClr = true →
       (¬ early → Completes (.faultRelease q) s released) ∧
       (early → Completes (.faultRelease q) s fun t =>
         t.flt = { s.flt with releaseAt := some (s.flt.firstCycle + 100000) } ∧ { t with flt := s.flt, cyc := s.cyc } = s)) ∧
     (∀ c, s.flt.releaseAt = some c →
       (c ≤ cycle → Completes .faultPinRelease s released) ∧ (cycle < c → Completes .faultPinRelease s fun t => t = s)))

/-- R414, R419, R422 to R424, R428: a write of a rail's window changes the fields within their ranges; a temperature or a rail out of its
limit in two successive samples is reported, and its end recorded; 125 °C holds the device in pin reset until all sensors read below 115
°C, a rail below its POR threshold starts the main-rail POR; records are offered, suppressed, lost and entered one an AON cycle, spilled,
and the ring triggers, freezes and is armed anew. Where the rules leave a reading open the clauses follow the model's own, log entries 13,
71, 72. -/
def Obligations.MonitorsAndTheBlackBox : Prop :=
  ∀ (s : State),
    let count (t : State) (c : RegKey) : Prop := t.rget c = counted (s.rget c) 1
    (∀ temps : List (BitVec 16), s.glb.vaux = true →
      let at_ (i : Nat) : Int := signedOf 16 (temps.getD i 0).toNat
      let above (i : Nat) : Prop := signedOf 16 (s.fget F.monTempHi_T) < at_ i
      let finds (t : State) : Prop :=
        ∃ l, t.flt.reports = s.flt.reports ++ l ∧ ∀ i, i < 12 →
          (t.rget ⟨.monTemp, i, 0, 0⟩ = (temps.getD i 0).toNat ∧
           ((∃ f ∈ l, f.code = 0x2801 ∧ f.arg0 = i ∧ f.cls = 8 ∧ f.detected = true) ↔
             above i ∧ s.flt.hotPrev.get false i = true ∧ s.flt.hot.get false i = false) ∧
           ((t.flt.hot.get false i = false ∧ s.flt.hot.get false i = true) ↔
             ¬ above i ∧ s.flt.hotPrev.get false i = false ∧ s.flt.hot.get false i = true))
      (s.glb.thermal = false → s.flt.shutDue = false → (∀ i, i < 12 → at_ i < 125 * 256) →
        Completes (.monTempSample temps) s fun t => finds t ∧ t.glb = s.glb ∧ t.time = s.time ∧ t.eo = s.eo) ∧
      (∀ i, i < 12 → s.glb.thermal = false → s.flt.shutDue = false → 125 * 256 ≤ at_ i → s.flt.shutPrev.get false i = true →
        s.flt.shut.get false i = false →
        Completes (.monTempSample temps) s fun t =>
          t.flt.shutDue = true ∧ (∃ f ∈ t.flt.reports, f.code = 0x2802 ∧ f.arg0 = i ∧ f.detected = true) ∧ t.glb = s.glb ∧ t.time = s.time) ∧
      (s.glb.thermal = false → s.flt.shutDue = true → s.awaitsRecord 0x2802 = false → s.rstHeld = false → (∀ i, i < 12 → at_ i < 125 * 256) →
        Completes (.monTempSample temps) s fun t =>
          t.glb.thermal = true ∧ t.time.run = false ∧ bit (t.rget ⟨.glbRstCause, 0, 0, 0⟩) 5 = true ∧ t.bbr.ring = s.bbr.ring ∧
          t.flt.pinLow = s.flt.pinLow ∧ t.flt.first = s.flt.first) ∧
      (s.glb.thermal = true →
        ((∀ i, i < 12 → at_ i < 115 * 256) → Completes (.monTempSample temps) s fun t => t.glb = { s.glb with thermal := false } ∧ t.time = s.time) ∧
        ((∃ i, i < 12 ∧ 115 * 256 ≤ at_ i) → Completes (.monTempSample temps) s fun t => t.glb = s.glb ∧ t.time = s.time))) ∧
    (∀ mvs : List (BitVec 12), s.glb.vaux = true →
      let mv (r : Nat) : Nat := (mvs.getD r 0).toNat
      let out (r : Nat) : Prop := mv r < s.fget F.monSupWin_LO r ∨ s.fget F.monSupWin_HI r < mv r
      let low (r : Nat) : Prop := mv r * 10 < railNominal r * 9
      ((∀ r, r < 10 → ¬ low r) → Completes (.monSupplySample mvs) s fun t =>
        t.glb = s.glb ∧ t.time = s.time ∧ ∃ l, t.flt.reports = s.flt.reports ++ l ∧ ∀ r, r < 11 →
          t.rget ⟨.monSup, r, 0, 0⟩ = mv r ∧
          ((∃ f ∈ l, f.code = 0x2901 ∧ f.arg0 = r ∧ f.arg1 = mv r ∧ f.cls = 9) ↔
            out r ∧ s.flt.supPrev.get false r = true ∧ s.flt.sup.get false r = false)) ∧
      (∀ r, r < 10 → low r → out r → s.flt.sup.get false r = true → s.awaitsRecord 0x2901 = false → s.glb.por = false →
        (∀ i, i < 11 → i ≠ r → ¬ out i) →
        Completes (.monSupplySample mvs) s fun t => t.glb.por = true ∧ bit t.glb.rails r = true ∧ t.bbr.ring = s.bbr.ring)) ∧
    (∀ (q : Port) (a x : BitVec 32) (r : Fin 11), regAt (a.toNat / 4 * 4) = some (⟨.monSupWin, r.val, 0, 0⟩, 0) →
      blkOf a.toNat = some .mon → s.writable q.req .monSupWin = true →
      let n := railNominal r.val
      let lo := bits x.toNat 11 0
      let hi := bits x.toNat 27 16
      let loWas := s.fget F.monSupWin_LO r.val
      let hiWas := s.fget F.monSupWin_HI r.val
      let loOk := 9 * n ≤ 10 * lo
      let hiOk (l : Nat) : Prop := 10 * hi ≤ 11 * n ∧ l < hi
      let writes (l h : Nat) (err : Prop) : Prop :=
        Completes (.registerWrite q a x 15 false) s fun t =>
          t.fget F.monSupWin_LO r.val = l ∧ t.fget F.monSupWin_HI r.val = h ∧ (err → t.fbit F.fltStat_WR_ERR = true) ∧
          { t with regs := s.regs, cyc := s.cyc } = s
      (loOk → hiOk lo → writes lo hi False) ∧ (¬ loOk → hiOk loWas → writes loWas hi True) ∧
      (loOk → ¬ hiOk lo → writes lo hiWas True) ∧ (¬ loOk → ¬ hiOk loWas → writes loWas hiWas True)) ∧
    (∀ o : BbrOffer, s.bbr.offers = [o] →
      let seq := s.bbr.seq
      let kept := s.bbrLast o.source o.code
      (s.bbrRepeat o.source o.code = false → kept = none →
        (s.bbr.queue.length < 64 → o.trigger = false → Completes .bbrRecordOffer s fun t =>
          t.bbr = { s.bbr with
            offers := [], seq := (seq + 1) % 2 ^ 32,
            queue := s.bbr.queue ++ [⟨o.ts.getD s.aonNow, o.source, o.code, o.arg0 % 2 ^ 32, o.arg1 % 2 ^ 32, seq, s.bbrFlags (decide (o.ts = none))⟩] } ∧
          { t with bbr := s.bbr } = s) ∧
        (64 ≤ s.bbr.queue.length → o.trigger = false → Completes .bbrRecordOffer s fun t =>
          t.bbr = { s.bbr with offers := [], seq := (seq + 1) % 2 ^ 32, gap := true } ∧ count t ⟨.bbrCntLost, 0, 0, 0⟩ ∧
          ∀ c, c ≠ ⟨.bbrCntLost, 0, 0, 0⟩ → t.rget c = s.rget c)) ∧
      (s.bbrRepeat o.source o.code = true → o.trigger = false → Completes .bbrRecordOffer s fun t =>
        t.bbr.seq = seq ∧ t.bbr.queue = s.bbr.queue ∧ t.bbr.offers = [] ∧ count t ⟨.fltCntRepeat, 0, 0, 0⟩ ∧
        (t.bbrLast o.source o.code).map BbrLast.repeats = kept.map fun l => min 255 (l.repeats + 1))) ∧
    (∀ r q, s.bbr.queue = r :: q →
      (s.bbr.enteredCycle = some s.glb.aonCycle → Completes .bbrRecordEnter s fun t => t = s) ∧
      (s.bbr.enteredCycle ≠ some s.glb.aonCycle →
        (s.bbr.frozen = false → bit r.flags 2 = false → s.bbr.gap = false → Completes .bbrRecordEnter s fun t =>
          (∃ w, t.bbr.ring = s.bbr.ring.put id ⟨0, 0, 0, 0, 0, 0, 0⟩ s.bbr.wptr w ∧ w.time = r.time ∧ w.source = r.source ∧ w.code = r.code ∧
            w.seq = r.seq ∧ w.flags = r.flags) ∧
          t.bbr.wptr = (s.bbr.wptr + 1) % 16384 ∧ t.bbr.queue = q ∧ t.bbr.gap = false ∧
          (s.fbit F.bbrCtl_SPILL_EN = true → s.dramUnavail = false → t.dram = memWriteLE dramUnl s.dram (0x1E0000000 + s.bbr.spill * 32) r.pack 32) ∧
          (s.fbit F.bbrCtl_SPILL_EN = true → s.dramUnavail = true →
            count t ⟨.bbrCntSpillLost, 0, 0, 0⟩ ∧ t.fbit F.bbrStat_SPILL_LOST = true ∧ t.dram = s.dram) ∧
          (s.fbit F.bbrCtl_SPILL_EN = false → t.dram = s.dram ∧ t.regs = s.regs) ∧
          (s.bbr.triggered = false → t.bbr.frozen = false) ∧
          (s.bbr.triggered = true → r.seq = s.bbr.trigSeq + s.bbr.after + 1 → r.seq < 2 ^ 31 →
            (t.bbr.frozen = true ↔ s.fget F.bbrPost_N ≤ s.bbr.after + 1)) ∧ t.time = s.time) ∧
        (s.bbr.frozen = true → Completes .bbrRecordEnter s fun t =>
          t.bbr.ring = s.bbr.ring ∧ t.bbr.wptr = s.bbr.wptr ∧ t.bbr.queue = q ∧ count t ⟨.bbrCntLost, 0, 0, 0⟩ ∧
          (s.fbit F.bbrCtl_SPILL_FOLLOW = true → t.dram = s.dram)))) ∧
    (let idle := s.bbr.frozen = false ∧ s.bbr.triggered = false
     let fires (i : Instr) (arg : Nat) (ts : Option Instant) : Prop :=
       s.bbrLast (0x12 * 2048) 0x0003 = none → s.bbr.queue.length < 64 →
         Completes i s fun t =>
           t.bbr.triggered = true ∧ t.bbr.trigSeq = s.bbr.seq ∧ t.bbr.frozen = false ∧ t.bbr.ring = s.bbr.ring ∧ t.time = s.time ∧ t.eo = s.eo ∧
           t.bbr.queue = s.bbr.queue ++ [⟨ts.getD s.aonNow, 0x12 * 2048, 0x0003, arg, 0, s.bbr.seq, s.bbrFlags (decide (ts = none))⟩]
     (∀ (q : Port) (data : BitVec 32), s.writable q.req .bbrCtl = true →
       (idle → bit data.toNat 0 = true → bit data.toNat 5 = false → fires (.bbrFire q data) 1 none) ∧
       (bit data.toNat 4 = false →
         (s.fget F.bbrPre_N + s.fget F.bbrPost_N ≤ 16383 → Completes (.bbrRearm q data) s fun t =>
           t.bbr = { s.bbr with frozen := false, triggered := false, after := 0 } ∧ t.time = s.time ∧ t.dram = s.dram) ∧
         (16383 < s.fget F.bbrPre_N + s.fget F.bbrPost_N → Completes (.bbrRearm q data) s fun t =>
           t.fbit F.bbrStat_WR_ERR = true ∧ t.bbr = s.bbr))) ∧
     (∀ g e l, findGroup Con.bbrTrig 0 s.tickNo s.dw.inbox = some g → g.evs = e :: l → idle → s.fbit F.bbrCtl_TRIG_EN = true →
       fires .bbrTrig 0 (some e.ts)) ∧
     (∀ g, findGroup Con.bbrTrig 0 s.tickNo s.dw.inbox = some g → s.bbr.frozen = true → Completes .bbrTrig s fun t =>
       t = { s with dw := { s.dw with inbox := dropGroup Con.bbrTrig 0 s.tickNo s.dw.inbox } }))

/-! ### The host interface (R430 to R456) -/

/-- R433 to R437, R456: a ring takes the descriptor at HEAD that the host owns to the device, moves its data, writes length and STATUS,
clears OWN and advances HEAD; one without OWN stops the ring until TAIL is written; samples and Tally records go to the host's buffers,
launches to their queue; a DMA_TRIG event starts one waiting descriptor; EN starts a ring at HEAD 0 and ends a descriptor in progress with
ABORTED. Where the rules leave a reading open the clauses follow the model's own, log entries 76, 97. -/
def Obligations.DmaRingsMoveDescriptors : Prop :=
  ∀ (i : Fin 16) (s : State), Memory.wf hostUnl s.hostMem = true → Memory.wf dramUnl s.dram = true → s.fget F.dmaRingSize_LOG i.val ≤ 16 →
    let n := 2 ^ s.fget F.dmaRingSize_LOG i.val
    let headIdx := s.fget F.dmaRingHead_IDX i.val
    let desc := s.fget F.dmaRingBase_ADDR i.val + 32 * headIdx
    let rd (a w : Nat) : Nat := memReadLE hostUnl s.hostMem (desc + a) w
    let ring := s.getRing i.val
    let ready (kind : Nat) : Prop :=
      s.glb.barReady = true ∧ s.rstHeld = false ∧ s.fbit F.dmaRingCfg_EN i.val = true ∧ s.fget F.dmaRingCfg_KIND i.val = kind ∧
      (s.fget F.dmaRingTail_IDX i.val + n - headIdx) % n ≠ 0 ∧ ring.stopped = false ∧ s.fbit F.dmaRingCfg_TRIG i.val = false
    let mine := bit (rd 24 4) 31 = true ∧ bit (rd 24 4) 30 = false
    let apart (t : State) : Prop :=
      t.time = s.time ∧ t.eo = s.eo ∧ t.tiu = s.tiu ∧ t.pt = s.pt ∧ t.flash = s.flash ∧ ∀ j, j ≠ i.val → t.getRing j = s.getRing j
    let done (status : Nat) (ret : Option Nat) (t : State) : Prop :=
      memReadLE hostUnl t.hostMem (desc + 24) 2 = status ∧ bit (memReadLE hostUnl t.hostMem (desc + 24) 4) 31 = false ∧
      (∀ x, ret = some x → memReadLE hostUnl t.hostMem (desc + 20) 4 = x) ∧ t.fget F.dmaRingHead_IDX i.val = (headIdx + 1) % n ∧
      (t.getRing i.val).talFrom = none ∧ (t.getRing i.val).talGot = 0 ∧ apart t
    let host := rd 0 8
    let dram := rd 8 8
    let len := rd 16 4
    let away := host + len ≤ desc ∨ desc + 32 ≤ host
    let hostOnly (buf : Nat) (t : State) : Prop :=
      ∀ y, (y < desc + 20 ∨ desc + 28 ≤ y) → (y < host ∨ host + buf ≤ y) → memRead hostUnl t.hostMem y = memRead hostUnl s.hostMem y
    (∀ (command : Instr) (kind : Nat), (command, kind) ∈ [(Instr.dmaH2d i none, 0), (.dmaD2h i none, 1), (.dmaSample i, 2), (.dmaTally i, 3), (.dmaLaunch i false, 4)] →
      (ready kind → bit (rd 24 4) 31 = false → Completes command s fun t =>
        t.fbit F.dmaRingStat_STALL i.val = true ∧ t.getRing i.val = { ring with stopped := true } ∧ t.hostMem = s.hostMem ∧ t.dram = s.dram ∧ apart t) ∧
      (s.fbit F.dmaRingCfg_EN i.val = false → Completes command s fun t => t = s) ∧
      (kind < 4 → ready kind → mine → len = 0 → ring.talGot = 0 → Completes command s fun t => done 1 (some 0) t ∧ t.dram = s.dram ∧ hostOnly 0 t) ∧
      (kind < 4 → ready kind → mine → 0 < len → host % 8 ≠ 0 → ring.talGot = 0 → Completes command s fun t => done 2 (some 0) t ∧ t.dram = s.dram ∧ hostOnly 0 t) ∧
      (kind < 4 → ready kind → mine → 0 < len → host % 8 = 0 → dram + len ≤ 0x1F0000000 → s.dramUnavail = true → ring.talGot = 0 →
        Completes command s fun t => done 3 (some 0) t ∧ t.dram = s.dram ∧ hostOnly 0 t)) ∧
    (mine → 0 < len → host % 8 = 0 → s.dramUnavail = false →
      (ready 0 →
        (dram + len ≤ 0x1F0000000 → Completes (.dmaH2d i none) s fun t =>
          done 0 (some len) t ∧ t.dram = memWriteBytes dramUnl s.dram dram (memReadBytes hostUnl s.hostMem host len) ∧ hostOnly 0 t) ∧
        (∀ k, dram + len ≤ 0x1F0000000 → k ≤ len → Completes (.dmaH2d i (some k)) s fun t =>
          done 4 (some k) t ∧ t.fbit F.dmaStat_PCIE_ERR = true ∧ t.dram = memWriteBytes dramUnl s.dram dram (memReadBytes hostUnl s.hostMem host k)) ∧
        (0x1F0000000 < dram + len → Completes (.dmaH2d i none) s fun t => done 2 (some 0) t ∧ t.dram = s.dram)) ∧
      (ready 1 → away →
        (dram + len ≤ 0x200000000 → Completes (.dmaD2h i none) s fun t =>
          done 0 (some len) t ∧ t.dram = s.dram ∧ hostOnly len t ∧
          ∀ k, k < len → memRead hostUnl t.hostMem (host + k) = memRead dramUnl s.dram (dram + k)) ∧
        (∀ k, dram + len ≤ 0x200000000 → k ≤ len → Completes (.dmaD2h i (some k)) s fun t =>
          done 4 (some k) t ∧ t.fbit F.dmaStat_PCIE_ERR = true ∧ t.dram = s.dram ∧ hostOnly k t) ∧
        (0x200000000 < dram + len → Completes (.dmaD2h i none) s fun t => done 2 (some 0) t ∧ t.dram = s.dram)) ∧
      (ready 2 → away →
        (s.sw.samples = [] → Completes (.dmaSample i) s fun t => t = s) ∧
        (∀ at_ size rest, s.sw.samples = (at_, size) :: rest → at_ < 536870912 → size ≤ 536870912 → Completes (.dmaSample i) s fun t =>
          done (if len < size then 5 else 0) (some (min size len)) t ∧ t.sw = { s.sw with samples := rest } ∧ t.dram = s.dram ∧ hostOnly len t ∧
          ∀ k, k < min size len → memRead hostUnl t.hostMem (host + k) = memRead dramUnl s.dram (0x1C0000000 + (at_ + k) % 536870912))) ∧
      (ready 3 → away → 32 ≤ len → ring.talGen = some s.tal.gen → ring.talSeen = s.tal.total → ring.talLag = 1 → ring.talGot = 0 →
        let size := s.fget F.talSize_SIZE
        let at_ := s.fget F.dmaRingAux_IDX i.val
        0 < size → size ≤ 2 ^ 27 → at_ < size →
          let copied (t : State) : Prop :=
            t.fget F.dmaRingAux_IDX i.val = (if at_ + 1 = size then 0 else at_ + 1) ∧ t.dram = s.dram ∧
            ∀ k, k < 32 → memRead hostUnl t.hostMem (host + k) = memRead dramUnl s.dram (s.talAddr at_ + k)
          (len < 64 → Completes (.dmaTally i) s fun t => done 0 (some 32) t ∧ copied t ∧ hostOnly 32 t) ∧
          (64 ≤ len → ring.talFrom = none → Completes (.dmaTally i) s fun t =>
            copied t ∧ (t.getRing i.val).talFrom = some s.tickNo ∧ (t.getRing i.val).talGot = 1 ∧ t.fget F.dmaRingHead_IDX i.val = headIdx ∧ apart t))) ∧
    (∀ since, ring.talFrom = some since → mine → ring.talGot < 2 ^ 27 →
      (since + 100000 ≤ s.tickNo → Completes (.dmaTallyTimeout i) s fun t => done 0 (some (32 * ring.talGot)) t ∧ t.dram = s.dram) ∧
      (s.tickNo < since + 100000 → Completes (.dmaTallyTimeout i) s fun t => t = s)) ∧
    (ready 4 → mine →
      let size := rd 20 2
      let cls := rd 22 1
      let p := s.fget F.dmaRingCfg_PORT i.val
      (size = 0 ∨ 8 ≤ cls → Completes (.dmaLaunch i false) s fun t => done 0x14 none t ∧ t.sw = s.sw) ∧
      (0 < size → cls < 8 → host % 8 = 0 →
        (Completes (.dmaLaunch i true) s fun t => done 4 none t ∧ t.fbit F.dmaStat_PCIE_ERR = true ∧ t.sw = s.sw) ∧
        (∀ at_, unpackT96 (rd 8 12) = some at_ → s.sw.frames = [] → s.sw.xoff.cells = [] →
          (s.fbit F.ptStat_LINK p = false → Completes (.dmaLaunch i false) s fun t => done 0x16 none t ∧ t.sw = s.sw) ∧
          (s.fbit F.ptStat_LINK p = true → s.glb.limited = false → s.fbit F.glbBlkRst_TAS = false →
            size + 4 ≤ s.fget F.swPortCfg_MTU p → cellsOf (size + 4) ≤ s.fget F.padGmin_CELLS p cls →
            (at_ < s.nowI + 500 * lsbPerNs → Completes (.dmaLaunch i false) s fun t => done 0x12 none t ∧ t.sw = s.sw) ∧
            (s.nowI + 500 * lsbPerNs ≤ at_ → Completes (.dmaLaunch i false) s fun t =>
              done 0x10 none t ∧ ∃ f, t.sw.frames = [f] ∧ f.kind = .launch ∧ f.cls = cls ∧ f.data = memReadBytes hostUnl s.hostMem host size ∧
                f.copies = [{ port := p, inst := some at_ }]))))) ∧
    (∀ (j : Fin 4) g, j.val = i.val → findGroup (Con.dmaTrig i.val) 0 s.tickNo s.dw.inbox = some g →
      let waiting := (s.fget F.dmaRingTail_IDX i.val + n - headIdx) % n
      let starts := min g.evs.length (waiting - ring.credits)
      s.fbit F.dmaRingCfg_EN i.val = true → s.fbit F.dmaRingCfg_TRIG i.val = true → ring.stopped = false →
        Completes (.dmaTrig j) s fun t =>
          t.getRing i.val = { ring with credits := ring.credits + starts } ∧
          t.rget ⟨.dmaRingCntDrop, i.val, 0, 0⟩ = counted (s.rget ⟨.dmaRingCntDrop, i.val, 0, 0⟩) (g.evs.length - starts) ∧
          t.hostMem = s.hostMem ∧ t.dram = s.dram ∧ apart t) ∧
    (∀ (q : Port) (data : BitVec 32), s.writable q.req .dmaRingCfg = true →
      (s.fbit F.dmaRingCfg_EN i.val = false → Completes (.dmaRingEnable q i data) s fun t =>
        t.fbit F.dmaRingCfg_EN i.val = true ∧ t.fget F.dmaRingHead_IDX i.val = 0 ∧
        (t.getRing i.val).credits = 0 ∧ (t.getRing i.val).stopped = false ∧ (t.getRing i.val).talFrom = none ∧
        (bits data.toNat 2 0 ≤ 4 → t.fget F.dmaRingCfg_KIND i.val = bits data.toNat 2 0) ∧
        (4 < bits data.toNat 2 0 → t.fget F.dmaRingCfg_KIND i.val = s.fget F.dmaRingCfg_KIND i.val ∧ t.fbit F.dmaStat_WR_ERR = true) ∧ apart t) ∧
      (s.fbit F.dmaRingCfg_EN i.val = true →
        (ring.talFrom = none → Completes (.dmaRingDisable q i data) s fun t =>
          t.fbit F.dmaRingCfg_EN i.val = false ∧ t.fget F.dmaRingCfg_KIND i.val = s.fget F.dmaRingCfg_KIND i.val ∧
          t.fget F.dmaRingHead_IDX i.val = headIdx ∧ t.hostMem = s.hostMem ∧ apart t) ∧
        (∀ since, ring.talFrom = some since → mine → ring.talGot < 2 ^ 27 → Completes (.dmaRingDisable q i data) s fun t =>
          t.fbit F.dmaRingCfg_EN i.val = false ∧ done 6 (some (32 * ring.talGot)) t)) ∧
      (let tail := data.toNat % 65536
       (tail < n → Completes (.dmaTailWrite q i data) s fun t =>
         t.fget F.dmaRingTail_IDX i.val = tail ∧ t.getRing i.val = { ring with stopped := false } ∧
         (∀ c, c ≠ ⟨.dmaRingTail, i.val, 0, 0⟩ → t.rget c = s.rget c) ∧ apart t) ∧
       (n ≤ tail → Completes (.dmaTailWrite q i data) s fun t =>
         t.fbit F.dmaStat_WR_ERR = true ∧ t.fget F.dmaRingTail_IDX i.val = s.fget F.dmaRingTail_IDX i.val ∧ t.getRing i.val = ring)))

/-- R438 to R441: SMBus transactions that name this device write a register, set the address of the next read and read it, and a wrong PEC
is discarded and counted; a boundary instruction of JTAG holds the core in pin reset until another becomes current; REGACC reaches BAR0
and keeps its status. Where the rules leave a reading open the clauses follow the model's own, log entry 78. -/
def Obligations.SideBusesReachTheDevice : Prop :=
  ∀ (dev : BitVec 7) (a x : BitVec 32) (s : State), s.glb.vaux = true →
    let named := dev.toNat = 0x58 + s.fget F.glbStrap_SMB_ADDR
    let free (r : Reg) : Bool := !s.blkHeld r.info.blk
    let sets (op : Nat) (t : State) : Prop := t.host.jtag.ir = op ∧ t.glb.boundary = decide (3 ≤ op ∧ op ≤ 7)
    (¬ named →
      ∀ command ∈ [Instr.smbRegWrite dev a x true, .smbSetAddress dev a true, .smbRegRead dev], Completes command s fun t => t = s) ∧
    (named →
      (∀ command ∈ [Instr.smbRegWrite dev a x false, .smbSetAddress dev a false], Completes command s fun t =>
        t.rget ⟨.glbSmbCntPec, 0, 0, 0⟩ = counted (s.rget ⟨.glbSmbCntPec, 0, 0, 0⟩) 1 ∧ { t with regs := s.regs } = s ∧
        ∀ c, c ≠ ⟨.glbSmbCntPec, 0, 0, 0⟩ → t.rget c = s.rget c) ∧
      (Completes (.smbSetAddress dev a true) s fun t => t = { s with host := { s.host with smbAddr := a.toNat } }) ∧
      (∀ i : Fin 16, a.toNat = 0x41018 + 0x40 * i.val → s.writable .smbus .dmaRingTail = true →
        x.toNat % 65536 < 2 ^ s.fget F.dmaRingSize_LOG i.val →
        Completes (.smbRegWrite dev a x true) s fun t =>
          t.fget F.dmaRingTail_IDX i.val = x.toNat % 65536 ∧ t.host.smbAddr = s.host.smbAddr ∧ t.time = s.time ∧ t.eo = s.eo) ∧
      (s.host.smbAddr = 0x10000 → free .fltCtl = true → Completes (.smbRegRead dev) s fun t =>
        t.resp.data = s.rget ⟨.fltCtl, 0, 0, 0⟩ % 2 ^ 32 ∧ t.resp.status = 0 ∧ { t with resp := s.resp } = s) ∧
      (s.host.smbAddr = 0x200000 → free .eoCtl = false → Completes (.smbRegRead dev) s fun t =>
        t.resp.status = 1 ∧ { t with resp := s.resp } = s)) ∧
    (∀ command op, (command, op) ∈ [(Instr.jtagIdcode, 0x01), (.jtagRegacc, 0x20), (.jtagTestLogicReset, 0x01), (.jtagBypass 0xFF, 0xFF)] →
      Completes command s fun t =>
        sets op t ∧ t.host.jtag.boundary = s.host.jtag.boundary ∧ t.regs = s.regs ∧ t.time = s.time ∧ t.bbr = s.bbr ∧ t.hostMem = s.hostMem) ∧
    (∀ command op, (command, op) ∈ [(Instr.jtagExtest, 0x03), (.jtagExtestPulse, 0x04), (.jtagExtestTrain, 0x05), (.jtagClamp, 0x06), (.jtagHighz, 0x07)] →
      (s.glb.boundary = true → Completes command s fun t => sets op t ∧ t.regs = s.regs ∧ t.time = s.time) ∧
      (s.glb.boundary = false → s.rstHeld = false → Completes command s fun t =>
        sets op t ∧ t.time.run = false ∧ t.rstHeld = true ∧ bit (t.rget ⟨.glbRstCause, 0, 0, 0⟩) 6 = true ∧ t.bbr.ring = s.bbr.ring ∧
        (∃ o ∈ t.bbr.offers, o.code = 0x3001 ∧ o.arg0 = 2 ^ 6) ∧ t.eo.cells = [] ∧ t.host.jtag.boundary = s.host.jtag.boundary)) ∧
    (∀ v : Nat, Completes (.jtagSamplePreload v) s fun t => sets 0x02 t ∧ t.host.jtag.boundary = v ∧ t.regs = s.regs ∧ t.time = s.time) ∧
    (s.host.jtag.ir = 0x20 →
      (a.toNat = 0x10000 → free .fltCtl = true → Completes (.regaccRead a) s fun t =>
        t.host.jtag.data = s.rget ⟨.fltCtl, 0, 0, 0⟩ % 2 ^ 32 ∧ t.host.jtag.status = 0 ∧ t.regs = s.regs ∧ t.time = s.time) ∧
      (a.toNat = 0x200000 → free .eoCtl = false → Completes (.regaccRead a) s fun t => t.host.jtag.status = 3 ∧ t.regs = s.regs) ∧
      (∀ i : Fin 16, a.toNat = 0x41018 + 0x40 * i.val → s.writable .jtag .dmaRingTail = true →
        x.toNat % 65536 < 2 ^ s.fget F.dmaRingSize_LOG i.val →
        Completes (.regaccWrite a x) s fun t =>
          t.fget F.dmaRingTail_IDX i.val = x.toNat % 65536 ∧ t.host.jtag.status = 0 ∧ t.time = s.time ∧ t.eo = s.eo)) ∧
    (s.host.jtag.ir ≠ 0x20 → Completes (.regaccRead a) s (fun t => t = s) ∧ Completes (.regaccWrite a x) s fun t => t = s)

/-- R442 to R446, R450 to R453: a GO that finds BUSY 0 takes the requester's arguments, OWNER and SEQ, one that finds BUSY 1 sets WR_ERR,
and a long command ends with BUSY beside another; MB_COMPLETE gives each command its effect and its code, clears BUSY and sets DONE;
FW_SELECT and the overrides write a boot record that is read back; the boot ROM reads it and starts the first compatible pair or enters
limited mode; DRAM trains and the firmware starts. Where the rules leave a reading open the clauses follow the model's own, log entries
73, 74, 75. -/
def Obligations.MailboxAndStartUp : Prop :=
  ∀ (s : State),
    let apart (t : State) : Prop := t.time = s.time ∧ t.eo = s.eo ∧ t.tiu = s.tiu ∧ t.pt = s.pt
    (∀ (q : Port) (args : List Word) (command : Instr) (op : Nat) (given : List Word),
      (command, op, given) ∈ [(Instr.mbGetInfo q, 1, []), (.mbFwBegin q args, 2, args), (.mbFwChunk q args, 3, args), (.mbFwEnd q, 4, []),
        (.mbFwSelect q args, 5, args), (.mbFwVerify q args, 6, args), (.mbFlashRead q args, 7, args), (.mbFlashWrite q args, 8, args),
        (.mbOverrideSet q args, 9, args), (.mbOverrideClear q args, 10, args), (.mbSvnCommit q args, 11, args), (.mbAbort q, 12, [])] →
      s.writable q.req .mbCmd = true → given.length ≤ 64 →
      let long := op ∈ [2, 3, 4, 6, 7, 8]
      (s.fbit F.mbStatus_BUSY = false →
        (long → s.fget F.mbLong_SRC ≠ 0 → Completes command s fun t =>
          t.fbit F.mbStatus_BUSY = false ∧ t.fget F.mbStatus_CODE = 1 ∧ t.fbit F.mbInt_DONE = true ∧ t.host.mbox.cmd = none ∧
          t.fget F.mbLong_SRC = s.fget F.mbLong_SRC ∧ t.flash = s.flash ∧ apart t) ∧
        (¬ long ∨ s.fget F.mbLong_SRC = 0 → Completes command s fun t =>
          t.fbit F.mbStatus_BUSY = true ∧ t.fget F.mbStatus_OWNER = q.req.owner ∧ t.fget F.mbStatus_SEQ = (s.fget F.mbStatus_SEQ + 1) % 256 ∧
          t.fget F.mbCmd_OP = op ∧ (∃ c, t.host.mbox.cmd = some c ∧ c.op = op ∧ c.owner = q.req.owner ∧ ∀ w, w < 4 → w < given.length → c.arg w = (given.getD w 0).toNat) ∧
          (∀ w, w < given.length → t.rget ⟨.mbArg, w, 0, 0⟩ = (given.getD w 0).toNat) ∧
          (long → t.fget F.mbLong_SRC = 1 ∧ t.fget F.mbProgress_P = 0) ∧ (¬ long → t.fget F.mbLong_SRC = s.fget F.mbLong_SRC) ∧
          t.flash = s.flash ∧ t.dram = s.dram ∧ apart t)) ∧
      (s.fbit F.mbStatus_BUSY = true → Completes command s fun t =>
        t.fbit F.mbStatus_WR_ERR = true ∧ t.fbit F.mbStatus_BUSY = true ∧ t.host.mbox.cmd = s.host.mbox.cmd ∧ t.flash = s.flash ∧ apart t)) ∧
    (s.host.mbox.cmd = none → Completes (.mbComplete true) s fun t => t = s) ∧
    (∀ c, s.host.mbox.cmd = some c →
      (s.glb.fwRun = false → s.glb.limited = false → Completes (.mbComplete true) s fun t => t = s) ∧
      (s.glb.fwRun = true → s.glb.limited = false → Memory.wf flashUnl s.flash = true → Memory.wf dramUnl s.dram = true →
        let ends (code : Nat) (P : State → Prop) : Prop :=
          Completes (.mbComplete true) s fun t =>
            t.fget F.mbStatus_CODE = code ∧ t.fbit F.mbStatus_BUSY = false ∧ t.fbit F.mbInt_DONE = true ∧ t.host.mbox.cmd = none ∧
            (c.op ∈ [2, 3, 4, 6, 7, 8] → t.fget F.mbLong_SRC = 0) ∧ apart t ∧ P t
        let same (t : State) : Prop := t.flash = s.flash ∧ t.host.bootRec = s.host.bootRec ∧ t.dram = s.dram
        let reads (t : State) (y : Nat) : Byte := memRead flashUnl t.flash y
        let keeps (t : State) : Prop :=
          (∀ y, (y < 0x01400000 ∨ 0x01402000 ≤ y) → reads t y = reads s y) ∧
          ((∀ copy n, s.bootBest = some (copy, n) → n + 1 < 2 ^ 32) → t.bootRead = t.host.bootRec)
        let type := c.arg 0
        let slot := c.arg 1
        let named := (type = 1 ∨ type = 2) ∧ slot ≤ 1
        let lnf := decide (type = 2)
        let b := decide (slot = 1)
        let base := slotBase lnf b
        let place := c.arg 2 + c.arg 3 * 2 ^ 32
        let key := c.owner ≠ 0 ∧ type = 0xD1A6
        (c.op = 0 ∨ 12 < c.op → ends 2 same) ∧
        (c.op = 1 → ends 0 same) ∧
        (c.op = 2 →
          (¬ named → ends 3 same) ∧ (named → s.slotRuns lnf b = true → ends 8 same) ∧
          (named → s.slotRuns lnf b = false → ends 0 fun t =>
            (∀ y, reads t y = (if base ≤ y ∧ y < base + slotSize lnf then 0xFF#8 else reads s y)) ∧ t.host.mbox.upd = some (lnf, b) ∧ t.dram = s.dram)) ∧
        (c.op = 3 → c.arg 2 < 2 ^ 32 → c.arg 3 < 2 ^ 32 →
          (s.host.mbox.upd = none → ends 3 same) ∧
          (∀ p, s.host.mbox.upd = some p → c.arg 1 ≤ 32768 → c.arg 0 + c.arg 1 ≤ slotSize p.1 - 16 → place + c.arg 1 ≤ 2 ^ 33 →
            (s.dramUnavail = true → ends 10 same) ∧
            (s.dramUnavail = false → ends 0 fun t =>
              t.flash = memWriteBytes flashUnl s.flash (slotBase p.1 p.2 + c.arg 0) (memReadBytes dramUnl s.dram place (c.arg 1)) ∧ t.dram = s.dram))) ∧
        (c.op = 4 →
          (s.host.mbox.upd = none → ends 3 same) ∧
          (∀ p, s.host.mbox.upd = some p →
            (∀ code, s.imgJudge p.1 p.2 = code → code ≠ .ok → ends code.code fun t => same t ∧ t.host.mbox.upd = none) ∧
            (s.imgJudge p.1 p.2 = .ok → ends 0 fun t =>
              memReadLE flashUnl t.flash (slotBase p.1 p.2 + slotSize p.1 - 16) 4 = 0x46A55AF1 ∧
              (∀ y, y < slotBase p.1 p.2 + slotSize p.1 - 16 → reads t y = reads s y) ∧ t.host.mbox.upd = none ∧ t.dram = s.dram))) ∧
        (c.op = 5 →
          (¬ named → ends 3 same) ∧
          (named → ends 0 fun t => keeps t ∧ t.host.bootRec.forced = s.host.bootRec.forced ∧
            (lnf = true → t.host.bootRec.prefL = b ∧ t.host.bootRec.prefM = s.host.bootRec.prefM) ∧
            (lnf = false → t.host.bootRec.prefM = b ∧ t.host.bootRec.prefL = s.host.bootRec.prefL))) ∧
        (c.op = 6 → (¬ named → ends 3 same) ∧ (named → ends (s.slotJudge lnf b).code same)) ∧
        (c.op = 7 → c.arg 0 + c.arg 1 ≤ 0x4000000 → c.arg 2 < 2 ^ 32 → c.arg 3 < 2 ^ 32 → place + c.arg 1 ≤ 2 ^ 33 →
          (s.dramUnavail = true → ends 10 same) ∧
          (s.dramUnavail = false → ends 0 fun t => t.flash = s.flash ∧
            t.dram = memWriteBytes dramUnl s.dram place (memReadBytes flashUnl s.flash (c.arg 0) (c.arg 1)))) ∧
        (c.op = 8 → c.arg 2 < 2 ^ 32 → c.arg 3 < 2 ^ 32 →
          (c.arg 0 < 0x2000000 ∨ 0x3000000 < c.arg 0 + c.arg 1 → ends 3 same) ∧
          (0x2000000 ≤ c.arg 0 → c.arg 0 + c.arg 1 ≤ 0x3000000 → place + c.arg 1 ≤ 2 ^ 33 → s.dramUnavail = false → ends 0 fun t =>
            t.flash = memWriteBytes flashUnl s.flash (c.arg 0) (memReadBytes dramUnl s.dram place (c.arg 1)) ∧ t.dram = s.dram)) ∧
        (c.op = 9 →
          (¬ key → ends 12 same) ∧
          (key → c.arg 1 ≤ 1 → c.arg 2 ≤ 1 → ends 0 fun t =>
            t.host.bootRec = { s.host.bootRec with forced := some (decide (c.arg 1 = 1), decide (c.arg 2 = 1)) } ∧ keeps t ∧ (∃ o ∈ t.bbr.offers, o.code = 0x4001 ∧ o.source = 0x0F * 2048))) ∧
        (c.op = 10 →
          (c.owner = 0 → ends 12 same) ∧
          (c.owner ≠ 0 → ends 0 fun t => t.host.bootRec = { s.host.bootRec with forced := none } ∧
            (s.host.bootRec.forced.isSome = true → keeps t ∧ ∃ o ∈ t.bbr.offers, o.code = 0x4001 ∧ o.source = 0x0F * 2048 + 2))) ∧
        (c.op = 11 →
          (¬ key → ends 12 same) ∧
          (∀ x, key → s.host.boot = some x → ends 0 fun t =>
            t.svnMin = max s.svnMin (min (s.hdr false x.m 32 4) (s.hdr true x.l 32 4)) ∧ t.flash = s.flash)) ∧
        (c.op = 12 → s.cal.long = none → ends 0 fun t => t.host.mbox.upd = none ∧ t.flash = s.flash)) ∧
      (s.glb.limited = true → c.op = 8 ∨ c.op = 11 → Completes (.mbComplete true) s fun t =>
        t.fget F.mbStatus_CODE = 13 ∧ t.fbit F.mbStatus_BUSY = false ∧ t.flash = s.flash ∧ t.host.svnRaised = s.host.svnRaised)) ∧
    (let read : State := { s with host := { s.host with bootRec := s.bootRead } }
     s.rstHeld = false → s.host.selected = false →
      (s.fbit F.glbStrap_LIMITED = true ∨ read.bootChoice = none → Completes .bootSelect s fun t =>
        t.glb.limited = true ∧ t.host.selected = true ∧ t.host.bootRec = s.bootRead ∧ (∀ n, t.fbit F.eoCtl_EN n = false) ∧ (∀ k, k < 4 → t.fbit F.synOsynCtl_EN k = false) ∧
        (∀ p, p < 52 → t.fbit F.ptStat_LINK p = false) ∧ t.flash = s.flash ∧ t.dram = s.dram) ∧
      (∀ x, s.fbit F.glbStrap_LIMITED = false → read.bootChoice = some x →
        Completes .bootSelect s fun t =>
          t.host.boot = some x ∧ t.host.selected = true ∧ t.host.bootRec = s.bootRead ∧ t.fget F.glbFwVer_VER = s.imgVer false x.m % 2 ^ 32 ∧
          t.fget F.glbLnfVer_VER = s.imgVer true x.l % 2 ^ 32 ∧ t.glb = s.glb ∧ t.flash = s.flash ∧ apart t ∧
          (x.byOver = true → ∃ o ∈ t.bbr.offers, o.code = 0x4001 ∧ o.source = 0x0F * 2048 + 1) ∧ (x.byOver = false → t.bbr = s.bbr))) ∧
    (s.host.selected = true → Completes .bootSelect s fun t => t = s) ∧
    (s.rstHeld = false → Completes .dramTrained s fun t => t = { s with glb := { s.glb with dramReady := true } }) ∧
    (s.rstHeld = true → Completes .dramTrained s fun t => t = s) ∧
    (∀ x, s.rstHeld = false → s.host.boot = some x → s.glb.fwRun = false →
      Completes .firmwareStart s fun t =>
        t = { s with glb := { s.glb with fwRun := true }, flt := { s.flt with kickCycle := s.glb.aonCycle } }) ∧
    (s.host.boot = none → Completes .firmwareStart s fun t => t = s)

/-! ### The machine as a whole -/

/-- A step runs the command at the front of the queue on the state with the rest of the queue; on an empty queue the block idles, which is
the model's own choice (log entry 1). -/
def Obligations.StepRunsTheFrontCommand : Prop :=
  ∀ (c : Instr) (rest : List Instr) (s : State),
    step (s.withQueue (c :: rest)) = exec c (s.withQueue rest) ∧ step (s.withQueue []) = .next (s.withQueue [])

/-- Every command answers a next state, whatever its operands and the state, and leaves the queue as it was: the model stops on none.
Where the rules leave a reading open the clauses follow the model's own, log entry 2. -/
def Obligations.EveryCommandAnswersANextState : Prop :=
  ∀ (c : Instr) (s : State), ∃ t, exec c s = .next t ∧ t.pending = s.pending

/-- R6, R8, R24: the reset state is sound: its memories are canonical and every bit of a register outside its fields reads 0. -/
def Obligations.TheResetStateIsSound : Prop := State.reset.Sound

/-- R6, R8, R24: every step keeps the state sound: memories stay canonical, and no register ever shows a bit outside its fields. Where the
rules leave a reading open the clauses follow the model's own, log entry 80. -/
def Obligations.EveryStepKeepsTheStateSound : Prop := ∀ (s t : State), s.Sound → step s = .next t → t.Sound
end

