-- ==== Sys2Proof/Laws/Sparse.lean ====
section
/-! SUPPORT. Laws of sparse maps and byte memories: a read after a write, and the canonical form kept by every operation. -/

namespace Sys2Proof.Machine

section Maps
variable {K V : Type} [DecidableEq K]

theorem lookupCell_eraseCell_same (k : K) (l : List (K × V)) : lookupCell k (eraseCell k l) = none := by
  induction l with
  | nil => rfl
  | cons c t ih =>
    obtain ⟨k', v⟩ := c
    by_cases h : k' = k <;> simp [eraseCell, lookupCell, h, ih]

theorem lookupCell_eraseCell_other (k k2 : K) (hk : k2 ≠ k) (l : List (K × V)) :
    lookupCell k2 (eraseCell k l) = lookupCell k2 l := by
  induction l with
  | nil => rfl
  | cons c t ih =>
    obtain ⟨k', v⟩ := c
    by_cases h : k' = k
    · subst h
      simp [eraseCell, lookupCell, ih, hk.symm]
    · simp only [eraseCell, h, if_false, lookupCell, ih]

theorem lookupCell_insertCell_same (code : K → Nat) (k : K) (v : V) (l : List (K × V)) (hl : lookupCell k l = none) :
    lookupCell k (insertCell code k v l) = some v := by
  induction l with
  | nil => simp [insertCell, lookupCell]
  | cons c t ih =>
    obtain ⟨k', v'⟩ := c
    by_cases h : k' = k
    · simp [lookupCell, h] at hl
    · simp only [lookupCell, h, if_false] at hl
      by_cases hc : code k < code k' <;> simp [insertCell, lookupCell, hc, h, ih hl]

theorem lookupCell_insertCell_other (code : K → Nat) (k k2 : K) (hk : k2 ≠ k) (v : V) (l : List (K × V)) :
    lookupCell k2 (insertCell code k v l) = lookupCell k2 l := by
  induction l with
  | nil => simp [insertCell, lookupCell, hk.symm]
  | cons c t ih =>
    obtain ⟨k', v'⟩ := c
    by_cases hc : code k < code k'
    · simp [insertCell, hc, lookupCell, hk.symm]
    · simp only [insertCell, hc, if_false, lookupCell, ih]

/-- A read of the key that was written gives the value written. -/
@[simp] theorem SMap.get_put_same [DecidableEq V] (code : K → Nat) (m : SMap K V) (d : V) (k : K) (v : V) :
    (m.put code d k v).get d k = v := by
  by_cases h : v = d
  · simp [SMap.put, SMap.get, h, lookupCell_eraseCell_same]
  · simp [SMap.put, SMap.get, h, lookupCell_insertCell_same, lookupCell_eraseCell_same]

/-- A write leaves every other key alone. -/
theorem SMap.get_put_other [DecidableEq V] (code : K → Nat) (m : SMap K V) (d d2 : V) (k k2 : K) (v : V) (hk : k2 ≠ k) :
    (m.put code d k v).get d2 k2 = m.get d2 k2 := by
  by_cases h : v = d <;>
    simp [SMap.put, SMap.get, h, lookupCell_insertCell_other, lookupCell_eraseCell_other, hk]

theorem SMap.get_put [DecidableEq V] (code : K → Nat) (m : SMap K V) (d : V) (k k2 : K) (v : V) :
    (m.put code d k v).get d k2 = if k2 = k then v else m.get d k2 := by
  by_cases h : k2 = k
  · subst h; simp
  · simp [h, SMap.get_put_other]

theorem lookupCell_mapCells [DecidableEq V] (d : V) (f : V → V) (hf : f d = d) (k : K) (l : List (K × V)) :
    (lookupCell k (mapCells d f l)).getD d = f ((lookupCell k l).getD d) := by
  induction l with
  | nil => simp [mapCells, lookupCell, hf]
  | cons c t ih =>
    obtain ⟨k', v⟩ := c
    by_cases hk : k' = k
    · subst hk
      by_cases hv : f v = d <;> simp [mapCells, lookupCell, hv, lookupCell_eraseCell_same]
    · have hk2 : k ≠ k' := fun h => hk h.symm
      by_cases hv : f v = d <;> simp [mapCells, lookupCell, hv, hk, lookupCell_eraseCell_other k' k hk2, ih]

/-- A function that keeps the default acts on the value of every key. -/
theorem SMap.get_mapVals [DecidableEq V] (d : V) (f : V → V) (hf : f d = d) (m : SMap K V) (k : K) :
    (m.mapVals d f).get d k = f (m.get d k) :=
  lookupCell_mapCells d f hf k m.cells

/-- An unlisted key reads the default. -/
@[simp] theorem SMap.get_empty (d : V) (k : K) : (⟨[]⟩ : SMap K V).get d k = d := rfl

end Maps

/-! ### Byte memories -/

theorem memWfFrom_mono (unl : Byte) (m : Memory) (lo lo2 : Nat) (h : memWfFrom unl lo m = true) (hl : lo2 ≤ lo) :
    memWfFrom unl lo2 m = true := by
  cases m with
  | nil => rfl
  | cons c t =>
    simp only [memWfFrom, Bool.and_eq_true, decide_eq_true_eq] at h ⊢
    exact ⟨⟨Nat.le_trans hl h.1.1, h.1.2⟩, h.2⟩

theorem memWfFrom_memWrite (unl : Byte) (a : Nat) (b : Byte) (m : Memory) (lo : Nat) (hl : lo ≤ a)
    (h : memWfFrom unl lo m = true) : memWfFrom unl lo (memWrite unl m a b) = true := by
  induction m generalizing lo with
  | nil =>
    by_cases hb : b = unl <;> simp [memWrite, memWfFrom, hb, hl]
  | cons c t ih =>
    obtain ⟨x, y⟩ := c
    simp only [memWfFrom, Bool.and_eq_true, decide_eq_true_eq] at h
    obtain ⟨⟨hx, hy⟩, ht⟩ := h
    unfold memWrite
    split
    · split
      · simp [memWfFrom, hx, hy, ht]
      · rename_i hax hb
        simp only [memWfFrom, Bool.and_eq_true, decide_eq_true_eq]
        exact ⟨⟨hl, hb⟩, ⟨⟨by omega, hy⟩, ht⟩⟩
    · split
      · split
        · exact memWfFrom_mono unl t (x + 1) lo ht (by omega)
        · rename_i hax hb
          simp only [memWfFrom, Bool.and_eq_true, decide_eq_true_eq]
          exact ⟨⟨hl, hb⟩, hax ▸ ht⟩
      · simp only [memWfFrom, Bool.and_eq_true, decide_eq_true_eq]
        exact ⟨⟨hx, hy⟩, ih (x + 1) (by omega) ht⟩

/-- A store of one byte keeps the canonical form. -/
theorem memWrite_wf (unl : Byte) (m : Memory) (a : Nat) (b : Byte) (h : Memory.wf unl m = true) :
    Memory.wf unl (memWrite unl m a b) = true :=
  memWfFrom_memWrite unl a b m 0 (Nat.zero_le a) h

/-- A store of several bytes keeps the canonical form. -/
theorem memWriteLE_wf (unl : Byte) (n : Nat) (m : Memory) (a v : Nat) (h : Memory.wf unl m = true) :
    Memory.wf unl (memWriteLE unl m a v n) = true := by
  induction n generalizing m a v with
  | zero => exact h
  | succ n ih => exact ih _ _ _ (memWrite_wf unl m a _ h)

/-- A store of a list of bytes keeps the canonical form. -/
theorem memWriteBytes_wf (unl : Byte) (bs : List Byte) (m : Memory) (a : Nat) (h : Memory.wf unl m = true) :
    Memory.wf unl (memWriteBytes unl m a bs) = true := by
  induction bs generalizing m a with
  | nil => exact h
  | cons b t ih => exact ih _ _ (memWrite_wf unl m a b h)

/-- Reading below the first listed address gives what an unlisted address reads. -/
theorem memRead_below (unl : Byte) (m : Memory) (lo a : Nat) (h : memWfFrom unl lo m = true) (ha : a < lo) :
    memRead unl m a = unl := by
  cases m with
  | nil => rfl
  | cons c t =>
    obtain ⟨x, y⟩ := c
    simp only [memWfFrom, Bool.and_eq_true, decide_eq_true_eq] at h
    have hx : x ≠ a := by omega
    have hlt : a < x := by omega
    simp [memRead, hx, hlt]

theorem memRead_memWrite_same_from (unl : Byte) (a : Nat) (b : Byte) (m : Memory) (lo : Nat) (h : memWfFrom unl lo m = true) :
    memRead unl (memWrite unl m a b) a = b := by
  induction m generalizing lo with
  | nil => by_cases hb : b = unl <;> simp [memWrite, memRead, hb]
  | cons c t ih =>
    obtain ⟨x, y⟩ := c
    simp only [memWfFrom, Bool.and_eq_true, decide_eq_true_eq] at h
    unfold memWrite
    split
    · rename_i hax
      split
      · rename_i hb
        have hx : x ≠ a := by omega
        simp [memRead, hx, hax, hb]
      · simp [memRead]
    · split
      · rename_i he
        split
        · rename_i hb
          rw [hb]
          exact memRead_below unl t (x + 1) a h.2 (by omega)
        · simp [memRead]
      · rename_i h1 h2
        have hx : x ≠ a := fun e => h2 e.symm
        simp only [memRead, hx, if_false, h1]
        exact ih (x + 1) h.2

/-- A read of the byte that was stored gives it. -/
theorem memRead_memWrite_same (unl : Byte) (m : Memory) (a : Nat) (b : Byte) (h : Memory.wf unl m = true) :
    memRead unl (memWrite unl m a b) a = b :=
  memRead_memWrite_same_from unl a b m 0 h

theorem memRead_memWrite_other_from (unl : Byte) (a a2 : Nat) (b : Byte) (hne : a2 ≠ a) (m : Memory) (lo : Nat)
    (h : memWfFrom unl lo m = true) : memRead unl (memWrite unl m a b) a2 = memRead unl m a2 := by
  induction m generalizing lo with
  | nil =>
    by_cases hb : b = unl
    · simp [memWrite, hb]
    · simp [memWrite, memRead, hb, hne.symm]
  | cons c t ih =>
    obtain ⟨x, y⟩ := c
    simp only [memWfFrom, Bool.and_eq_true, decide_eq_true_eq] at h
    unfold memWrite
    split
    · rename_i hax
      split
      · rfl
      · by_cases h2 : a2 < a
        · have hx : x ≠ a2 := by omega
          have hlt : a2 < x := by omega
          simp [memRead, hne.symm, h2, hx, hlt]
        · simp [memRead, hne.symm, h2]
    · split
      · rename_i he
        split
        · by_cases h2 : a2 < x
          · have hx : x ≠ a2 := by omega
            simp only [memRead, hx, if_false, h2, if_true]
            exact memRead_below unl t (x + 1) a2 h.2 (by omega)
          · have hx : x ≠ a2 := by omega
            simp [memRead, hx, h2]
        · subst he
          simp [memRead, hne.symm]
      · simp only [memRead]
        rw [ih (x + 1) h.2]

/-- A store leaves every other byte alone. -/
theorem memRead_memWrite_other (unl : Byte) (m : Memory) (a a2 : Nat) (b : Byte) (hne : a2 ≠ a) (h : Memory.wf unl m = true) :
    memRead unl (memWrite unl m a b) a2 = memRead unl m a2 :=
  memRead_memWrite_other_from unl a a2 b hne m 0 h

end Sys2Proof.Machine
end

