-- ==== Sys2Proof/Laws/State.lean ====
section
/-! SUPPORT. What each update of the state changes: one lemma for each field and update, so that no proof unfolds a record update. -/

namespace Sys2Proof.Machine

variable (s : State)

/-! ### rset -/

@[simp] theorem State.rset_regs (k : RegKey) (v : Nat) : (s.rset k v).regs = s.regs.put RegKey.code (regReset k) k v := rfl
@[simp] theorem State.rset_latches (k : RegKey) (v : Nat) : (s.rset k v).latches = s.latches := rfl
@[simp] theorem State.rset_staging (k : RegKey) (v : Nat) : (s.rset k v).staging = s.staging := rfl
@[simp] theorem State.rset_cyc (k : RegKey) (v : Nat) : (s.rset k v).cyc = s.cyc := rfl
@[simp] theorem State.rset_resp (k : RegKey) (v : Nat) : (s.rset k v).resp = s.resp := rfl
@[simp] theorem State.rset_tickNo (k : RegKey) (v : Nat) : (s.rset k v).tickNo = s.tickNo := rfl
@[simp] theorem State.rset_free (k : RegKey) (v : Nat) : (s.rset k v).free = s.free := rfl
@[simp] theorem State.rset_glb (k : RegKey) (v : Nat) : (s.rset k v).glb = s.glb := rfl
@[simp] theorem State.rset_time (k : RegKey) (v : Nat) : (s.rset k v).time = s.time := rfl
@[simp] theorem State.rset_tsyn (k : RegKey) (v : Nat) : (s.rset k v).tsyn = s.tsyn := rfl
@[simp] theorem State.rset_csyn (k : RegKey) (v : Nat) : (s.rset k v).csyn = s.csyn := rfl
@[simp] theorem State.rset_osyn (k : RegKey) (v : Nat) : (s.rset k v).osyn = s.osyn := rfl
@[simp] theorem State.rset_eo (k : RegKey) (v : Nat) : (s.rset k v).eo = s.eo := rfl
@[simp] theorem State.rset_qres (k : RegKey) (v : Nat) : (s.rset k v).qres = s.qres := rfl
@[simp] theorem State.rset_tiu (k : RegKey) (v : Nat) : (s.rset k v).tiu = s.tiu := rfl
@[simp] theorem State.rset_tal (k : RegKey) (v : Nat) : (s.rset k v).tal = s.tal := rfl
@[simp] theorem State.rset_dw (k : RegKey) (v : Nat) : (s.rset k v).dw = s.dw := rfl
@[simp] theorem State.rset_drv (k : RegKey) (v : Nat) : (s.rset k v).drv = s.drv := rfl
@[simp] theorem State.rset_bbr (k : RegKey) (v : Nat) : (s.rset k v).bbr = s.bbr := rfl
@[simp] theorem State.rset_flt (k : RegKey) (v : Nat) : (s.rset k v).flt = s.flt := rfl
@[simp] theorem State.rset_cal (k : RegKey) (v : Nat) : (s.rset k v).cal = s.cal := rfl
@[simp] theorem State.rset_bw (k : RegKey) (v : Nat) : (s.rset k v).bw = s.bw := rfl
@[simp] theorem State.rset_nt (k : RegKey) (v : Nat) : (s.rset k v).nt = s.nt := rfl
@[simp] theorem State.rset_pt (k : RegKey) (v : Nat) : (s.rset k v).pt = s.pt := rfl
@[simp] theorem State.rset_elm (k : RegKey) (v : Nat) : (s.rset k v).elm = s.elm := rfl
@[simp] theorem State.rset_sw (k : RegKey) (v : Nat) : (s.rset k v).sw = s.sw := rfl
@[simp] theorem State.rset_host (k : RegKey) (v : Nat) : (s.rset k v).host = s.host := rfl
@[simp] theorem State.rset_msix (k : RegKey) (v : Nat) : (s.rset k v).msix = s.msix := rfl
@[simp] theorem State.rset_hostMem (k : RegKey) (v : Nat) : (s.rset k v).hostMem = s.hostMem := rfl
@[simp] theorem State.rset_flash (k : RegKey) (v : Nat) : (s.rset k v).flash = s.flash := rfl
@[simp] theorem State.rset_dram (k : RegKey) (v : Nat) : (s.rset k v).dram = s.dram := rfl
@[simp] theorem State.rset_pending (k : RegKey) (v : Nat) : (s.rset k v).pending = s.pending := rfl

/-! ### latchSet -/

@[simp] theorem State.latchSet_regs (q : Requester) (k : RegKey) (v : Nat) : (s.latchSet q k v).regs = s.regs := rfl
@[simp] theorem State.latchSet_latches (q : Requester) (k : RegKey) (v : Nat) : (s.latchSet q k v).latches = s.latches.put ReqKey.code 0 ⟨q, k⟩ v := rfl
@[simp] theorem State.latchSet_staging (q : Requester) (k : RegKey) (v : Nat) : (s.latchSet q k v).staging = s.staging := rfl
@[simp] theorem State.latchSet_cyc (q : Requester) (k : RegKey) (v : Nat) : (s.latchSet q k v).cyc = s.cyc := rfl
@[simp] theorem State.latchSet_resp (q : Requester) (k : RegKey) (v : Nat) : (s.latchSet q k v).resp = s.resp := rfl
@[simp] theorem State.latchSet_tickNo (q : Requester) (k : RegKey) (v : Nat) : (s.latchSet q k v).tickNo = s.tickNo := rfl
@[simp] theorem State.latchSet_free (q : Requester) (k : RegKey) (v : Nat) : (s.latchSet q k v).free = s.free := rfl
@[simp] theorem State.latchSet_glb (q : Requester) (k : RegKey) (v : Nat) : (s.latchSet q k v).glb = s.glb := rfl
@[simp] theorem State.latchSet_time (q : Requester) (k : RegKey) (v : Nat) : (s.latchSet q k v).time = s.time := rfl
@[simp] theorem State.latchSet_tsyn (q : Requester) (k : RegKey) (v : Nat) : (s.latchSet q k v).tsyn = s.tsyn := rfl
@[simp] theorem State.latchSet_csyn (q : Requester) (k : RegKey) (v : Nat) : (s.latchSet q k v).csyn = s.csyn := rfl
@[simp] theorem State.latchSet_osyn (q : Requester) (k : RegKey) (v : Nat) : (s.latchSet q k v).osyn = s.osyn := rfl
@[simp] theorem State.latchSet_eo (q : Requester) (k : RegKey) (v : Nat) : (s.latchSet q k v).eo = s.eo := rfl
@[simp] theorem State.latchSet_qres (q : Requester) (k : RegKey) (v : Nat) : (s.latchSet q k v).qres = s.qres := rfl
@[simp] theorem State.latchSet_tiu (q : Requester) (k : RegKey) (v : Nat) : (s.latchSet q k v).tiu = s.tiu := rfl
@[simp] theorem State.latchSet_tal (q : Requester) (k : RegKey) (v : Nat) : (s.latchSet q k v).tal = s.tal := rfl
@[simp] theorem State.latchSet_dw (q : Requester) (k : RegKey) (v : Nat) : (s.latchSet q k v).dw = s.dw := rfl
@[simp] theorem State.latchSet_drv (q : Requester) (k : RegKey) (v : Nat) : (s.latchSet q k v).drv = s.drv := rfl
@[simp] theorem State.latchSet_bbr (q : Requester) (k : RegKey) (v : Nat) : (s.latchSet q k v).bbr = s.bbr := rfl
@[simp] theorem State.latchSet_flt (q : Requester) (k : RegKey) (v : Nat) : (s.latchSet q k v).flt = s.flt := rfl
@[simp] theorem State.latchSet_cal (q : Requester) (k : RegKey) (v : Nat) : (s.latchSet q k v).cal = s.cal := rfl
@[simp] theorem State.latchSet_bw (q : Requester) (k : RegKey) (v : Nat) : (s.latchSet q k v).bw = s.bw := rfl
@[simp] theorem State.latchSet_nt (q : Requester) (k : RegKey) (v : Nat) : (s.latchSet q k v).nt = s.nt := rfl
@[simp] theorem State.latchSet_pt (q : Requester) (k : RegKey) (v : Nat) : (s.latchSet q k v).pt = s.pt := rfl
@[simp] theorem State.latchSet_elm (q : Requester) (k : RegKey) (v : Nat) : (s.latchSet q k v).elm = s.elm := rfl
@[simp] theorem State.latchSet_sw (q : Requester) (k : RegKey) (v : Nat) : (s.latchSet q k v).sw = s.sw := rfl
@[simp] theorem State.latchSet_host (q : Requester) (k : RegKey) (v : Nat) : (s.latchSet q k v).host = s.host := rfl
@[simp] theorem State.latchSet_msix (q : Requester) (k : RegKey) (v : Nat) : (s.latchSet q k v).msix = s.msix := rfl
@[simp] theorem State.latchSet_hostMem (q : Requester) (k : RegKey) (v : Nat) : (s.latchSet q k v).hostMem = s.hostMem := rfl
@[simp] theorem State.latchSet_flash (q : Requester) (k : RegKey) (v : Nat) : (s.latchSet q k v).flash = s.flash := rfl
@[simp] theorem State.latchSet_dram (q : Requester) (k : RegKey) (v : Nat) : (s.latchSet q k v).dram = s.dram := rfl
@[simp] theorem State.latchSet_pending (q : Requester) (k : RegKey) (v : Nat) : (s.latchSet q k v).pending = s.pending := rfl
@[simp] theorem State.latchSet_rget (q : Requester) (k : RegKey) (v : Nat) (c : RegKey) : (s.latchSet q k v).rget c = s.rget c := rfl
@[simp] theorem State.latchSet_fget (q : Requester) (k : RegKey) (v : Nat) (f : Fld) (i j l : Nat) : (s.latchSet q k v).fget f i j l = s.fget f i j l := rfl
@[simp] theorem State.latchSet_fbit (q : Requester) (k : RegKey) (v : Nat) (f : Fld) (i j l : Nat) : (s.latchSet q k v).fbit f i j l = s.fbit f i j l := rfl

/-! ### stageSet -/

@[simp] theorem State.stageSet_regs (q : Requester) (k : RegKey) (v : Nat) : (s.stageSet q k v).regs = s.regs := rfl
@[simp] theorem State.stageSet_latches (q : Requester) (k : RegKey) (v : Nat) : (s.stageSet q k v).latches = s.latches := rfl
@[simp] theorem State.stageSet_staging (q : Requester) (k : RegKey) (v : Nat) : (s.stageSet q k v).staging = s.staging.put ReqKey.code 0 ⟨q, k⟩ v := rfl
@[simp] theorem State.stageSet_cyc (q : Requester) (k : RegKey) (v : Nat) : (s.stageSet q k v).cyc = s.cyc := rfl
@[simp] theorem State.stageSet_resp (q : Requester) (k : RegKey) (v : Nat) : (s.stageSet q k v).resp = s.resp := rfl
@[simp] theorem State.stageSet_tickNo (q : Requester) (k : RegKey) (v : Nat) : (s.stageSet q k v).tickNo = s.tickNo := rfl
@[simp] theorem State.stageSet_free (q : Requester) (k : RegKey) (v : Nat) : (s.stageSet q k v).free = s.free := rfl
@[simp] theorem State.stageSet_glb (q : Requester) (k : RegKey) (v : Nat) : (s.stageSet q k v).glb = s.glb := rfl
@[simp] theorem State.stageSet_time (q : Requester) (k : RegKey) (v : Nat) : (s.stageSet q k v).time = s.time := rfl
@[simp] theorem State.stageSet_tsyn (q : Requester) (k : RegKey) (v : Nat) : (s.stageSet q k v).tsyn = s.tsyn := rfl
@[simp] theorem State.stageSet_csyn (q : Requester) (k : RegKey) (v : Nat) : (s.stageSet q k v).csyn = s.csyn := rfl
@[simp] theorem State.stageSet_osyn (q : Requester) (k : RegKey) (v : Nat) : (s.stageSet q k v).osyn = s.osyn := rfl
@[simp] theorem State.stageSet_eo (q : Requester) (k : RegKey) (v : Nat) : (s.stageSet q k v).eo = s.eo := rfl
@[simp] theorem State.stageSet_qres (q : Requester) (k : RegKey) (v : Nat) : (s.stageSet q k v).qres = s.qres := rfl
@[simp] theorem State.stageSet_tiu (q : Requester) (k : RegKey) (v : Nat) : (s.stageSet q k v).tiu = s.tiu := rfl
@[simp] theorem State.stageSet_tal (q : Requester) (k : RegKey) (v : Nat) : (s.stageSet q k v).tal = s.tal := rfl
@[simp] theorem State.stageSet_dw (q : Requester) (k : RegKey) (v : Nat) : (s.stageSet q k v).dw = s.dw := rfl
@[simp] theorem State.stageSet_drv (q : Requester) (k : RegKey) (v : Nat) : (s.stageSet q k v).drv = s.drv := rfl
@[simp] theorem State.stageSet_bbr (q : Requester) (k : RegKey) (v : Nat) : (s.stageSet q k v).bbr = s.bbr := rfl
@[simp] theorem State.stageSet_flt (q : Requester) (k : RegKey) (v : Nat) : (s.stageSet q k v).flt = s.flt := rfl
@[simp] theorem State.stageSet_cal (q : Requester) (k : RegKey) (v : Nat) : (s.stageSet q k v).cal = s.cal := rfl
@[simp] theorem State.stageSet_bw (q : Requester) (k : RegKey) (v : Nat) : (s.stageSet q k v).bw = s.bw := rfl
@[simp] theorem State.stageSet_nt (q : Requester) (k : RegKey) (v : Nat) : (s.stageSet q k v).nt = s.nt := rfl
@[simp] theorem State.stageSet_pt (q : Requester) (k : RegKey) (v : Nat) : (s.stageSet q k v).pt = s.pt := rfl
@[simp] theorem State.stageSet_elm (q : Requester) (k : RegKey) (v : Nat) : (s.stageSet q k v).elm = s.elm := rfl
@[simp] theorem State.stageSet_sw (q : Requester) (k : RegKey) (v : Nat) : (s.stageSet q k v).sw = s.sw := rfl
@[simp] theorem State.stageSet_host (q : Requester) (k : RegKey) (v : Nat) : (s.stageSet q k v).host = s.host := rfl
@[simp] theorem State.stageSet_msix (q : Requester) (k : RegKey) (v : Nat) : (s.stageSet q k v).msix = s.msix := rfl
@[simp] theorem State.stageSet_hostMem (q : Requester) (k : RegKey) (v : Nat) : (s.stageSet q k v).hostMem = s.hostMem := rfl
@[simp] theorem State.stageSet_flash (q : Requester) (k : RegKey) (v : Nat) : (s.stageSet q k v).flash = s.flash := rfl
@[simp] theorem State.stageSet_dram (q : Requester) (k : RegKey) (v : Nat) : (s.stageSet q k v).dram = s.dram := rfl
@[simp] theorem State.stageSet_pending (q : Requester) (k : RegKey) (v : Nat) : (s.stageSet q k v).pending = s.pending := rfl
@[simp] theorem State.stageSet_rget (q : Requester) (k : RegKey) (v : Nat) (c : RegKey) : (s.stageSet q k v).rget c = s.rget c := rfl
@[simp] theorem State.stageSet_fget (q : Requester) (k : RegKey) (v : Nat) (f : Fld) (i j l : Nat) : (s.stageSet q k v).fget f i j l = s.fget f i j l := rfl
@[simp] theorem State.stageSet_fbit (q : Requester) (k : RegKey) (v : Nat) (f : Fld) (i j l : Nat) : (s.stageSet q k v).fbit f i j l = s.fbit f i j l := rfl

/-! ### setResp -/

@[simp] theorem State.setResp_regs (r : Resp) : (s.setResp r).regs = s.regs := rfl
@[simp] theorem State.setResp_latches (r : Resp) : (s.setResp r).latches = s.latches := rfl
@[simp] theorem State.setResp_staging (r : Resp) : (s.setResp r).staging = s.staging := rfl
@[simp] theorem State.setResp_cyc (r : Resp) : (s.setResp r).cyc = s.cyc := rfl
@[simp] theorem State.setResp_resp (r : Resp) : (s.setResp r).resp = r := rfl
@[simp] theorem State.setResp_tickNo (r : Resp) : (s.setResp r).tickNo = s.tickNo := rfl
@[simp] theorem State.setResp_free (r : Resp) : (s.setResp r).free = s.free := rfl
@[simp] theorem State.setResp_glb (r : Resp) : (s.setResp r).glb = s.glb := rfl
@[simp] theorem State.setResp_time (r : Resp) : (s.setResp r).time = s.time := rfl
@[simp] theorem State.setResp_tsyn (r : Resp) : (s.setResp r).tsyn = s.tsyn := rfl
@[simp] theorem State.setResp_csyn (r : Resp) : (s.setResp r).csyn = s.csyn := rfl
@[simp] theorem State.setResp_osyn (r : Resp) : (s.setResp r).osyn = s.osyn := rfl
@[simp] theorem State.setResp_eo (r : Resp) : (s.setResp r).eo = s.eo := rfl
@[simp] theorem State.setResp_qres (r : Resp) : (s.setResp r).qres = s.qres := rfl
@[simp] theorem State.setResp_tiu (r : Resp) : (s.setResp r).tiu = s.tiu := rfl
@[simp] theorem State.setResp_tal (r : Resp) : (s.setResp r).tal = s.tal := rfl
@[simp] theorem State.setResp_dw (r : Resp) : (s.setResp r).dw = s.dw := rfl
@[simp] theorem State.setResp_drv (r : Resp) : (s.setResp r).drv = s.drv := rfl
@[simp] theorem State.setResp_bbr (r : Resp) : (s.setResp r).bbr = s.bbr := rfl
@[simp] theorem State.setResp_flt (r : Resp) : (s.setResp r).flt = s.flt := rfl
@[simp] theorem State.setResp_cal (r : Resp) : (s.setResp r).cal = s.cal := rfl
@[simp] theorem State.setResp_bw (r : Resp) : (s.setResp r).bw = s.bw := rfl
@[simp] theorem State.setResp_nt (r : Resp) : (s.setResp r).nt = s.nt := rfl
@[simp] theorem State.setResp_pt (r : Resp) : (s.setResp r).pt = s.pt := rfl
@[simp] theorem State.setResp_elm (r : Resp) : (s.setResp r).elm = s.elm := rfl
@[simp] theorem State.setResp_sw (r : Resp) : (s.setResp r).sw = s.sw := rfl
@[simp] theorem State.setResp_host (r : Resp) : (s.setResp r).host = s.host := rfl
@[simp] theorem State.setResp_msix (r : Resp) : (s.setResp r).msix = s.msix := rfl
@[simp] theorem State.setResp_hostMem (r : Resp) : (s.setResp r).hostMem = s.hostMem := rfl
@[simp] theorem State.setResp_flash (r : Resp) : (s.setResp r).flash = s.flash := rfl
@[simp] theorem State.setResp_dram (r : Resp) : (s.setResp r).dram = s.dram := rfl
@[simp] theorem State.setResp_pending (r : Resp) : (s.setResp r).pending = s.pending := rfl
@[simp] theorem State.setResp_rget (r : Resp) (c : RegKey) : (s.setResp r).rget c = s.rget c := rfl
@[simp] theorem State.setResp_fget (r : Resp) (f : Fld) (i j l : Nat) : (s.setResp r).fget f i j l = s.fget f i j l := rfl
@[simp] theorem State.setResp_fbit (r : Resp) (f : Fld) (i j l : Nat) : (s.setResp r).fbit f i j l = s.fbit f i j l := rfl

/-! ### setGlb -/

@[simp] theorem State.setGlb_regs (x : GlbSt) : (s.setGlb x).regs = s.regs := rfl
@[simp] theorem State.setGlb_latches (x : GlbSt) : (s.setGlb x).latches = s.latches := rfl
@[simp] theorem State.setGlb_staging (x : GlbSt) : (s.setGlb x).staging = s.staging := rfl
@[simp] theorem State.setGlb_cyc (x : GlbSt) : (s.setGlb x).cyc = s.cyc := rfl
@[simp] theorem State.setGlb_resp (x : GlbSt) : (s.setGlb x).resp = s.resp := rfl
@[simp] theorem State.setGlb_tickNo (x : GlbSt) : (s.setGlb x).tickNo = s.tickNo := rfl
@[simp] theorem State.setGlb_free (x : GlbSt) : (s.setGlb x).free = s.free := rfl
@[simp] theorem State.setGlb_glb (x : GlbSt) : (s.setGlb x).glb = x := rfl
@[simp] theorem State.setGlb_time (x : GlbSt) : (s.setGlb x).time = s.time := rfl
@[simp] theorem State.setGlb_tsyn (x : GlbSt) : (s.setGlb x).tsyn = s.tsyn := rfl
@[simp] theorem State.setGlb_csyn (x : GlbSt) : (s.setGlb x).csyn = s.csyn := rfl
@[simp] theorem State.setGlb_osyn (x : GlbSt) : (s.setGlb x).osyn = s.osyn := rfl
@[simp] theorem State.setGlb_eo (x : GlbSt) : (s.setGlb x).eo = s.eo := rfl
@[simp] theorem State.setGlb_qres (x : GlbSt) : (s.setGlb x).qres = s.qres := rfl
@[simp] theorem State.setGlb_tiu (x : GlbSt) : (s.setGlb x).tiu = s.tiu := rfl
@[simp] theorem State.setGlb_tal (x : GlbSt) : (s.setGlb x).tal = s.tal := rfl
@[simp] theorem State.setGlb_dw (x : GlbSt) : (s.setGlb x).dw = s.dw := rfl
@[simp] theorem State.setGlb_drv (x : GlbSt) : (s.setGlb x).drv = s.drv := rfl
@[simp] theorem State.setGlb_bbr (x : GlbSt) : (s.setGlb x).bbr = s.bbr := rfl
@[simp] theorem State.setGlb_flt (x : GlbSt) : (s.setGlb x).flt = s.flt := rfl
@[simp] theorem State.setGlb_cal (x : GlbSt) : (s.setGlb x).cal = s.cal := rfl
@[simp] theorem State.setGlb_bw (x : GlbSt) : (s.setGlb x).bw = s.bw := rfl
@[simp] theorem State.setGlb_nt (x : GlbSt) : (s.setGlb x).nt = s.nt := rfl
@[simp] theorem State.setGlb_pt (x : GlbSt) : (s.setGlb x).pt = s.pt := rfl
@[simp] theorem State.setGlb_elm (x : GlbSt) : (s.setGlb x).elm = s.elm := rfl
@[simp] theorem State.setGlb_sw (x : GlbSt) : (s.setGlb x).sw = s.sw := rfl
@[simp] theorem State.setGlb_host (x : GlbSt) : (s.setGlb x).host = s.host := rfl
@[simp] theorem State.setGlb_msix (x : GlbSt) : (s.setGlb x).msix = s.msix := rfl
@[simp] theorem State.setGlb_hostMem (x : GlbSt) : (s.setGlb x).hostMem = s.hostMem := rfl
@[simp] theorem State.setGlb_flash (x : GlbSt) : (s.setGlb x).flash = s.flash := rfl
@[simp] theorem State.setGlb_dram (x : GlbSt) : (s.setGlb x).dram = s.dram := rfl
@[simp] theorem State.setGlb_pending (x : GlbSt) : (s.setGlb x).pending = s.pending := rfl
@[simp] theorem State.setGlb_rget (x : GlbSt) (c : RegKey) : (s.setGlb x).rget c = s.rget c := rfl
@[simp] theorem State.setGlb_fget (x : GlbSt) (f : Fld) (i j l : Nat) : (s.setGlb x).fget f i j l = s.fget f i j l := rfl
@[simp] theorem State.setGlb_fbit (x : GlbSt) (f : Fld) (i j l : Nat) : (s.setGlb x).fbit f i j l = s.fbit f i j l := rfl

/-! ### setTime -/

@[simp] theorem State.setTime_regs (x : TimeSt) : (s.setTime x).regs = s.regs := rfl
@[simp] theorem State.setTime_latches (x : TimeSt) : (s.setTime x).latches = s.latches := rfl
@[simp] theorem State.setTime_staging (x : TimeSt) : (s.setTime x).staging = s.staging := rfl
@[simp] theorem State.setTime_cyc (x : TimeSt) : (s.setTime x).cyc = s.cyc := rfl
@[simp] theorem State.setTime_resp (x : TimeSt) : (s.setTime x).resp = s.resp := rfl
@[simp] theorem State.setTime_tickNo (x : TimeSt) : (s.setTime x).tickNo = s.tickNo := rfl
@[simp] theorem State.setTime_free (x : TimeSt) : (s.setTime x).free = s.free := rfl
@[simp] theorem State.setTime_glb (x : TimeSt) : (s.setTime x).glb = s.glb := rfl
@[simp] theorem State.setTime_time (x : TimeSt) : (s.setTime x).time = x := rfl
@[simp] theorem State.setTime_tsyn (x : TimeSt) : (s.setTime x).tsyn = s.tsyn := rfl
@[simp] theorem State.setTime_csyn (x : TimeSt) : (s.setTime x).csyn = s.csyn := rfl
@[simp] theorem State.setTime_osyn (x : TimeSt) : (s.setTime x).osyn = s.osyn := rfl
@[simp] theorem State.setTime_eo (x : TimeSt) : (s.setTime x).eo = s.eo := rfl
@[simp] theorem State.setTime_qres (x : TimeSt) : (s.setTime x).qres = s.qres := rfl
@[simp] theorem State.setTime_tiu (x : TimeSt) : (s.setTime x).tiu = s.tiu := rfl
@[simp] theorem State.setTime_tal (x : TimeSt) : (s.setTime x).tal = s.tal := rfl
@[simp] theorem State.setTime_dw (x : TimeSt) : (s.setTime x).dw = s.dw := rfl
@[simp] theorem State.setTime_drv (x : TimeSt) : (s.setTime x).drv = s.drv := rfl
@[simp] theorem State.setTime_bbr (x : TimeSt) : (s.setTime x).bbr = s.bbr := rfl
@[simp] theorem State.setTime_flt (x : TimeSt) : (s.setTime x).flt = s.flt := rfl
@[simp] theorem State.setTime_cal (x : TimeSt) : (s.setTime x).cal = s.cal := rfl
@[simp] theorem State.setTime_bw (x : TimeSt) : (s.setTime x).bw = s.bw := rfl
@[simp] theorem State.setTime_nt (x : TimeSt) : (s.setTime x).nt = s.nt := rfl
@[simp] theorem State.setTime_pt (x : TimeSt) : (s.setTime x).pt = s.pt := rfl
@[simp] theorem State.setTime_elm (x : TimeSt) : (s.setTime x).elm = s.elm := rfl
@[simp] theorem State.setTime_sw (x : TimeSt) : (s.setTime x).sw = s.sw := rfl
@[simp] theorem State.setTime_host (x : TimeSt) : (s.setTime x).host = s.host := rfl
@[simp] theorem State.setTime_msix (x : TimeSt) : (s.setTime x).msix = s.msix := rfl
@[simp] theorem State.setTime_hostMem (x : TimeSt) : (s.setTime x).hostMem = s.hostMem := rfl
@[simp] theorem State.setTime_flash (x : TimeSt) : (s.setTime x).flash = s.flash := rfl
@[simp] theorem State.setTime_dram (x : TimeSt) : (s.setTime x).dram = s.dram := rfl
@[simp] theorem State.setTime_pending (x : TimeSt) : (s.setTime x).pending = s.pending := rfl
@[simp] theorem State.setTime_rget (x : TimeSt) (c : RegKey) : (s.setTime x).rget c = s.rget c := rfl
@[simp] theorem State.setTime_fget (x : TimeSt) (f : Fld) (i j l : Nat) : (s.setTime x).fget f i j l = s.fget f i j l := rfl
@[simp] theorem State.setTime_fbit (x : TimeSt) (f : Fld) (i j l : Nat) : (s.setTime x).fbit f i j l = s.fbit f i j l := rfl

/-! ### setTsyn -/

@[simp] theorem State.setTsyn_regs (x : TsynSt) : (s.setTsyn x).regs = s.regs := rfl
@[simp] theorem State.setTsyn_latches (x : TsynSt) : (s.setTsyn x).latches = s.latches := rfl
@[simp] theorem State.setTsyn_staging (x : TsynSt) : (s.setTsyn x).staging = s.staging := rfl
@[simp] theorem State.setTsyn_cyc (x : TsynSt) : (s.setTsyn x).cyc = s.cyc := rfl
@[simp] theorem State.setTsyn_resp (x : TsynSt) : (s.setTsyn x).resp = s.resp := rfl
@[simp] theorem State.setTsyn_tickNo (x : TsynSt) : (s.setTsyn x).tickNo = s.tickNo := rfl
@[simp] theorem State.setTsyn_free (x : TsynSt) : (s.setTsyn x).free = s.free := rfl
@[simp] theorem State.setTsyn_glb (x : TsynSt) : (s.setTsyn x).glb = s.glb := rfl
@[simp] theorem State.setTsyn_time (x : TsynSt) : (s.setTsyn x).time = s.time := rfl
@[simp] theorem State.setTsyn_tsyn (x : TsynSt) : (s.setTsyn x).tsyn = x := rfl
@[simp] theorem State.setTsyn_csyn (x : TsynSt) : (s.setTsyn x).csyn = s.csyn := rfl
@[simp] theorem State.setTsyn_osyn (x : TsynSt) : (s.setTsyn x).osyn = s.osyn := rfl
@[simp] theorem State.setTsyn_eo (x : TsynSt) : (s.setTsyn x).eo = s.eo := rfl
@[simp] theorem State.setTsyn_qres (x : TsynSt) : (s.setTsyn x).qres = s.qres := rfl
@[simp] theorem State.setTsyn_tiu (x : TsynSt) : (s.setTsyn x).tiu = s.tiu := rfl
@[simp] theorem State.setTsyn_tal (x : TsynSt) : (s.setTsyn x).tal = s.tal := rfl
@[simp] theorem State.setTsyn_dw (x : TsynSt) : (s.setTsyn x).dw = s.dw := rfl
@[simp] theorem State.setTsyn_drv (x : TsynSt) : (s.setTsyn x).drv = s.drv := rfl
@[simp] theorem State.setTsyn_bbr (x : TsynSt) : (s.setTsyn x).bbr = s.bbr := rfl
@[simp] theorem State.setTsyn_flt (x : TsynSt) : (s.setTsyn x).flt = s.flt := rfl
@[simp] theorem State.setTsyn_cal (x : TsynSt) : (s.setTsyn x).cal = s.cal := rfl
@[simp] theorem State.setTsyn_bw (x : TsynSt) : (s.setTsyn x).bw = s.bw := rfl
@[simp] theorem State.setTsyn_nt (x : TsynSt) : (s.setTsyn x).nt = s.nt := rfl
@[simp] theorem State.setTsyn_pt (x : TsynSt) : (s.setTsyn x).pt = s.pt := rfl
@[simp] theorem State.setTsyn_elm (x : TsynSt) : (s.setTsyn x).elm = s.elm := rfl
@[simp] theorem State.setTsyn_sw (x : TsynSt) : (s.setTsyn x).sw = s.sw := rfl
@[simp] theorem State.setTsyn_host (x : TsynSt) : (s.setTsyn x).host = s.host := rfl
@[simp] theorem State.setTsyn_msix (x : TsynSt) : (s.setTsyn x).msix = s.msix := rfl
@[simp] theorem State.setTsyn_hostMem (x : TsynSt) : (s.setTsyn x).hostMem = s.hostMem := rfl
@[simp] theorem State.setTsyn_flash (x : TsynSt) : (s.setTsyn x).flash = s.flash := rfl
@[simp] theorem State.setTsyn_dram (x : TsynSt) : (s.setTsyn x).dram = s.dram := rfl
@[simp] theorem State.setTsyn_pending (x : TsynSt) : (s.setTsyn x).pending = s.pending := rfl
@[simp] theorem State.setTsyn_rget (x : TsynSt) (c : RegKey) : (s.setTsyn x).rget c = s.rget c := rfl
@[simp] theorem State.setTsyn_fget (x : TsynSt) (f : Fld) (i j l : Nat) : (s.setTsyn x).fget f i j l = s.fget f i j l := rfl
@[simp] theorem State.setTsyn_fbit (x : TsynSt) (f : Fld) (i j l : Nat) : (s.setTsyn x).fbit f i j l = s.fbit f i j l := rfl

/-! ### setCsyn -/

@[simp] theorem State.setCsyn_regs (x : CsynSt) : (s.setCsyn x).regs = s.regs := rfl
@[simp] theorem State.setCsyn_latches (x : CsynSt) : (s.setCsyn x).latches = s.latches := rfl
@[simp] theorem State.setCsyn_staging (x : CsynSt) : (s.setCsyn x).staging = s.staging := rfl
@[simp] theorem State.setCsyn_cyc (x : CsynSt) : (s.setCsyn x).cyc = s.cyc := rfl
@[simp] theorem State.setCsyn_resp (x : CsynSt) : (s.setCsyn x).resp = s.resp := rfl
@[simp] theorem State.setCsyn_tickNo (x : CsynSt) : (s.setCsyn x).tickNo = s.tickNo := rfl
@[simp] theorem State.setCsyn_free (x : CsynSt) : (s.setCsyn x).free = s.free := rfl
@[simp] theorem State.setCsyn_glb (x : CsynSt) : (s.setCsyn x).glb = s.glb := rfl
@[simp] theorem State.setCsyn_time (x : CsynSt) : (s.setCsyn x).time = s.time := rfl
@[simp] theorem State.setCsyn_tsyn (x : CsynSt) : (s.setCsyn x).tsyn = s.tsyn := rfl
@[simp] theorem State.setCsyn_csyn (x : CsynSt) : (s.setCsyn x).csyn = x := rfl
@[simp] theorem State.setCsyn_osyn (x : CsynSt) : (s.setCsyn x).osyn = s.osyn := rfl
@[simp] theorem State.setCsyn_eo (x : CsynSt) : (s.setCsyn x).eo = s.eo := rfl
@[simp] theorem State.setCsyn_qres (x : CsynSt) : (s.setCsyn x).qres = s.qres := rfl
@[simp] theorem State.setCsyn_tiu (x : CsynSt) : (s.setCsyn x).tiu = s.tiu := rfl
@[simp] theorem State.setCsyn_tal (x : CsynSt) : (s.setCsyn x).tal = s.tal := rfl
@[simp] theorem State.setCsyn_dw (x : CsynSt) : (s.setCsyn x).dw = s.dw := rfl
@[simp] theorem State.setCsyn_drv (x : CsynSt) : (s.setCsyn x).drv = s.drv := rfl
@[simp] theorem State.setCsyn_bbr (x : CsynSt) : (s.setCsyn x).bbr = s.bbr := rfl
@[simp] theorem State.setCsyn_flt (x : CsynSt) : (s.setCsyn x).flt = s.flt := rfl
@[simp] theorem State.setCsyn_cal (x : CsynSt) : (s.setCsyn x).cal = s.cal := rfl
@[simp] theorem State.setCsyn_bw (x : CsynSt) : (s.setCsyn x).bw = s.bw := rfl
@[simp] theorem State.setCsyn_nt (x : CsynSt) : (s.setCsyn x).nt = s.nt := rfl
@[simp] theorem State.setCsyn_pt (x : CsynSt) : (s.setCsyn x).pt = s.pt := rfl
@[simp] theorem State.setCsyn_elm (x : CsynSt) : (s.setCsyn x).elm = s.elm := rfl
@[simp] theorem State.setCsyn_sw (x : CsynSt) : (s.setCsyn x).sw = s.sw := rfl
@[simp] theorem State.setCsyn_host (x : CsynSt) : (s.setCsyn x).host = s.host := rfl
@[simp] theorem State.setCsyn_msix (x : CsynSt) : (s.setCsyn x).msix = s.msix := rfl
@[simp] theorem State.setCsyn_hostMem (x : CsynSt) : (s.setCsyn x).hostMem = s.hostMem := rfl
@[simp] theorem State.setCsyn_flash (x : CsynSt) : (s.setCsyn x).flash = s.flash := rfl
@[simp] theorem State.setCsyn_dram (x : CsynSt) : (s.setCsyn x).dram = s.dram := rfl
@[simp] theorem State.setCsyn_pending (x : CsynSt) : (s.setCsyn x).pending = s.pending := rfl
@[simp] theorem State.setCsyn_rget (x : CsynSt) (c : RegKey) : (s.setCsyn x).rget c = s.rget c := rfl
@[simp] theorem State.setCsyn_fget (x : CsynSt) (f : Fld) (i j l : Nat) : (s.setCsyn x).fget f i j l = s.fget f i j l := rfl
@[simp] theorem State.setCsyn_fbit (x : CsynSt) (f : Fld) (i j l : Nat) : (s.setCsyn x).fbit f i j l = s.fbit f i j l := rfl

/-! ### setOsyn -/

@[simp] theorem State.setOsyn_regs (n : Nat) (x : OsynSt) : (s.setOsyn n x).regs = s.regs := rfl
@[simp] theorem State.setOsyn_latches (n : Nat) (x : OsynSt) : (s.setOsyn n x).latches = s.latches := rfl
@[simp] theorem State.setOsyn_staging (n : Nat) (x : OsynSt) : (s.setOsyn n x).staging = s.staging := rfl
@[simp] theorem State.setOsyn_cyc (n : Nat) (x : OsynSt) : (s.setOsyn n x).cyc = s.cyc := rfl
@[simp] theorem State.setOsyn_resp (n : Nat) (x : OsynSt) : (s.setOsyn n x).resp = s.resp := rfl
@[simp] theorem State.setOsyn_tickNo (n : Nat) (x : OsynSt) : (s.setOsyn n x).tickNo = s.tickNo := rfl
@[simp] theorem State.setOsyn_free (n : Nat) (x : OsynSt) : (s.setOsyn n x).free = s.free := rfl
@[simp] theorem State.setOsyn_glb (n : Nat) (x : OsynSt) : (s.setOsyn n x).glb = s.glb := rfl
@[simp] theorem State.setOsyn_time (n : Nat) (x : OsynSt) : (s.setOsyn n x).time = s.time := rfl
@[simp] theorem State.setOsyn_tsyn (n : Nat) (x : OsynSt) : (s.setOsyn n x).tsyn = s.tsyn := rfl
@[simp] theorem State.setOsyn_csyn (n : Nat) (x : OsynSt) : (s.setOsyn n x).csyn = s.csyn := rfl
@[simp] theorem State.setOsyn_osyn (n : Nat) (x : OsynSt) : (s.setOsyn n x).osyn = s.osyn.put id {} n x := rfl
@[simp] theorem State.setOsyn_eo (n : Nat) (x : OsynSt) : (s.setOsyn n x).eo = s.eo := rfl
@[simp] theorem State.setOsyn_qres (n : Nat) (x : OsynSt) : (s.setOsyn n x).qres = s.qres := rfl
@[simp] theorem State.setOsyn_tiu (n : Nat) (x : OsynSt) : (s.setOsyn n x).tiu = s.tiu := rfl
@[simp] theorem State.setOsyn_tal (n : Nat) (x : OsynSt) : (s.setOsyn n x).tal = s.tal := rfl
@[simp] theorem State.setOsyn_dw (n : Nat) (x : OsynSt) : (s.setOsyn n x).dw = s.dw := rfl
@[simp] theorem State.setOsyn_drv (n : Nat) (x : OsynSt) : (s.setOsyn n x).drv = s.drv := rfl
@[simp] theorem State.setOsyn_bbr (n : Nat) (x : OsynSt) : (s.setOsyn n x).bbr = s.bbr := rfl
@[simp] theorem State.setOsyn_flt (n : Nat) (x : OsynSt) : (s.setOsyn n x).flt = s.flt := rfl
@[simp] theorem State.setOsyn_cal (n : Nat) (x : OsynSt) : (s.setOsyn n x).cal = s.cal := rfl
@[simp] theorem State.setOsyn_bw (n : Nat) (x : OsynSt) : (s.setOsyn n x).bw = s.bw := rfl
@[simp] theorem State.setOsyn_nt (n : Nat) (x : OsynSt) : (s.setOsyn n x).nt = s.nt := rfl
@[simp] theorem State.setOsyn_pt (n : Nat) (x : OsynSt) : (s.setOsyn n x).pt = s.pt := rfl
@[simp] theorem State.setOsyn_elm (n : Nat) (x : OsynSt) : (s.setOsyn n x).elm = s.elm := rfl
@[simp] theorem State.setOsyn_sw (n : Nat) (x : OsynSt) : (s.setOsyn n x).sw = s.sw := rfl
@[simp] theorem State.setOsyn_host (n : Nat) (x : OsynSt) : (s.setOsyn n x).host = s.host := rfl
@[simp] theorem State.setOsyn_msix (n : Nat) (x : OsynSt) : (s.setOsyn n x).msix = s.msix := rfl
@[simp] theorem State.setOsyn_hostMem (n : Nat) (x : OsynSt) : (s.setOsyn n x).hostMem = s.hostMem := rfl
@[simp] theorem State.setOsyn_flash (n : Nat) (x : OsynSt) : (s.setOsyn n x).flash = s.flash := rfl
@[simp] theorem State.setOsyn_dram (n : Nat) (x : OsynSt) : (s.setOsyn n x).dram = s.dram := rfl
@[simp] theorem State.setOsyn_pending (n : Nat) (x : OsynSt) : (s.setOsyn n x).pending = s.pending := rfl
@[simp] theorem State.setOsyn_rget (n : Nat) (x : OsynSt) (c : RegKey) : (s.setOsyn n x).rget c = s.rget c := rfl
@[simp] theorem State.setOsyn_fget (n : Nat) (x : OsynSt) (f : Fld) (i j l : Nat) : (s.setOsyn n x).fget f i j l = s.fget f i j l := rfl
@[simp] theorem State.setOsyn_fbit (n : Nat) (x : OsynSt) (f : Fld) (i j l : Nat) : (s.setOsyn n x).fbit f i j l = s.fbit f i j l := rfl

/-! ### setEo -/

@[simp] theorem State.setEo_regs (n : Nat) (x : Eo) : (s.setEo n x).regs = s.regs := rfl
@[simp] theorem State.setEo_latches (n : Nat) (x : Eo) : (s.setEo n x).latches = s.latches := rfl
@[simp] theorem State.setEo_staging (n : Nat) (x : Eo) : (s.setEo n x).staging = s.staging := rfl
@[simp] theorem State.setEo_cyc (n : Nat) (x : Eo) : (s.setEo n x).cyc = s.cyc := rfl
@[simp] theorem State.setEo_resp (n : Nat) (x : Eo) : (s.setEo n x).resp = s.resp := rfl
@[simp] theorem State.setEo_tickNo (n : Nat) (x : Eo) : (s.setEo n x).tickNo = s.tickNo := rfl
@[simp] theorem State.setEo_free (n : Nat) (x : Eo) : (s.setEo n x).free = s.free := rfl
@[simp] theorem State.setEo_glb (n : Nat) (x : Eo) : (s.setEo n x).glb = s.glb := rfl
@[simp] theorem State.setEo_time (n : Nat) (x : Eo) : (s.setEo n x).time = s.time := rfl
@[simp] theorem State.setEo_tsyn (n : Nat) (x : Eo) : (s.setEo n x).tsyn = s.tsyn := rfl
@[simp] theorem State.setEo_csyn (n : Nat) (x : Eo) : (s.setEo n x).csyn = s.csyn := rfl
@[simp] theorem State.setEo_osyn (n : Nat) (x : Eo) : (s.setEo n x).osyn = s.osyn := rfl
@[simp] theorem State.setEo_eo (n : Nat) (x : Eo) : (s.setEo n x).eo = s.eo.put id {} n x := rfl
@[simp] theorem State.setEo_qres (n : Nat) (x : Eo) : (s.setEo n x).qres = s.qres := rfl
@[simp] theorem State.setEo_tiu (n : Nat) (x : Eo) : (s.setEo n x).tiu = s.tiu := rfl
@[simp] theorem State.setEo_tal (n : Nat) (x : Eo) : (s.setEo n x).tal = s.tal := rfl
@[simp] theorem State.setEo_dw (n : Nat) (x : Eo) : (s.setEo n x).dw = s.dw := rfl
@[simp] theorem State.setEo_drv (n : Nat) (x : Eo) : (s.setEo n x).drv = s.drv := rfl
@[simp] theorem State.setEo_bbr (n : Nat) (x : Eo) : (s.setEo n x).bbr = s.bbr := rfl
@[simp] theorem State.setEo_flt (n : Nat) (x : Eo) : (s.setEo n x).flt = s.flt := rfl
@[simp] theorem State.setEo_cal (n : Nat) (x : Eo) : (s.setEo n x).cal = s.cal := rfl
@[simp] theorem State.setEo_bw (n : Nat) (x : Eo) : (s.setEo n x).bw = s.bw := rfl
@[simp] theorem State.setEo_nt (n : Nat) (x : Eo) : (s.setEo n x).nt = s.nt := rfl
@[simp] theorem State.setEo_pt (n : Nat) (x : Eo) : (s.setEo n x).pt = s.pt := rfl
@[simp] theorem State.setEo_elm (n : Nat) (x : Eo) : (s.setEo n x).elm = s.elm := rfl
@[simp] theorem State.setEo_sw (n : Nat) (x : Eo) : (s.setEo n x).sw = s.sw := rfl
@[simp] theorem State.setEo_host (n : Nat) (x : Eo) : (s.setEo n x).host = s.host := rfl
@[simp] theorem State.setEo_msix (n : Nat) (x : Eo) : (s.setEo n x).msix = s.msix := rfl
@[simp] theorem State.setEo_hostMem (n : Nat) (x : Eo) : (s.setEo n x).hostMem = s.hostMem := rfl
@[simp] theorem State.setEo_flash (n : Nat) (x : Eo) : (s.setEo n x).flash = s.flash := rfl
@[simp] theorem State.setEo_dram (n : Nat) (x : Eo) : (s.setEo n x).dram = s.dram := rfl
@[simp] theorem State.setEo_pending (n : Nat) (x : Eo) : (s.setEo n x).pending = s.pending := rfl
@[simp] theorem State.setEo_rget (n : Nat) (x : Eo) (c : RegKey) : (s.setEo n x).rget c = s.rget c := rfl
@[simp] theorem State.setEo_fget (n : Nat) (x : Eo) (f : Fld) (i j l : Nat) : (s.setEo n x).fget f i j l = s.fget f i j l := rfl
@[simp] theorem State.setEo_fbit (n : Nat) (x : Eo) (f : Fld) (i j l : Nat) : (s.setEo n x).fbit f i j l = s.fbit f i j l := rfl

/-! ### setTiu -/

@[simp] theorem State.setTiu_regs (u : Nat) (x : Tiu) : (s.setTiu u x).regs = s.regs := rfl
@[simp] theorem State.setTiu_latches (u : Nat) (x : Tiu) : (s.setTiu u x).latches = s.latches := rfl
@[simp] theorem State.setTiu_staging (u : Nat) (x : Tiu) : (s.setTiu u x).staging = s.staging := rfl
@[simp] theorem State.setTiu_cyc (u : Nat) (x : Tiu) : (s.setTiu u x).cyc = s.cyc := rfl
@[simp] theorem State.setTiu_resp (u : Nat) (x : Tiu) : (s.setTiu u x).resp = s.resp := rfl
@[simp] theorem State.setTiu_tickNo (u : Nat) (x : Tiu) : (s.setTiu u x).tickNo = s.tickNo := rfl
@[simp] theorem State.setTiu_free (u : Nat) (x : Tiu) : (s.setTiu u x).free = s.free := rfl
@[simp] theorem State.setTiu_glb (u : Nat) (x : Tiu) : (s.setTiu u x).glb = s.glb := rfl
@[simp] theorem State.setTiu_time (u : Nat) (x : Tiu) : (s.setTiu u x).time = s.time := rfl
@[simp] theorem State.setTiu_tsyn (u : Nat) (x : Tiu) : (s.setTiu u x).tsyn = s.tsyn := rfl
@[simp] theorem State.setTiu_csyn (u : Nat) (x : Tiu) : (s.setTiu u x).csyn = s.csyn := rfl
@[simp] theorem State.setTiu_osyn (u : Nat) (x : Tiu) : (s.setTiu u x).osyn = s.osyn := rfl
@[simp] theorem State.setTiu_eo (u : Nat) (x : Tiu) : (s.setTiu u x).eo = s.eo := rfl
@[simp] theorem State.setTiu_qres (u : Nat) (x : Tiu) : (s.setTiu u x).qres = s.qres := rfl
@[simp] theorem State.setTiu_tiu (u : Nat) (x : Tiu) : (s.setTiu u x).tiu = s.tiu.put id {} u x := rfl
@[simp] theorem State.setTiu_tal (u : Nat) (x : Tiu) : (s.setTiu u x).tal = s.tal := rfl
@[simp] theorem State.setTiu_dw (u : Nat) (x : Tiu) : (s.setTiu u x).dw = s.dw := rfl
@[simp] theorem State.setTiu_drv (u : Nat) (x : Tiu) : (s.setTiu u x).drv = s.drv := rfl
@[simp] theorem State.setTiu_bbr (u : Nat) (x : Tiu) : (s.setTiu u x).bbr = s.bbr := rfl
@[simp] theorem State.setTiu_flt (u : Nat) (x : Tiu) : (s.setTiu u x).flt = s.flt := rfl
@[simp] theorem State.setTiu_cal (u : Nat) (x : Tiu) : (s.setTiu u x).cal = s.cal := rfl
@[simp] theorem State.setTiu_bw (u : Nat) (x : Tiu) : (s.setTiu u x).bw = s.bw := rfl
@[simp] theorem State.setTiu_nt (u : Nat) (x : Tiu) : (s.setTiu u x).nt = s.nt := rfl
@[simp] theorem State.setTiu_pt (u : Nat) (x : Tiu) : (s.setTiu u x).pt = s.pt := rfl
@[simp] theorem State.setTiu_elm (u : Nat) (x : Tiu) : (s.setTiu u x).elm = s.elm := rfl
@[simp] theorem State.setTiu_sw (u : Nat) (x : Tiu) : (s.setTiu u x).sw = s.sw := rfl
@[simp] theorem State.setTiu_host (u : Nat) (x : Tiu) : (s.setTiu u x).host = s.host := rfl
@[simp] theorem State.setTiu_msix (u : Nat) (x : Tiu) : (s.setTiu u x).msix = s.msix := rfl
@[simp] theorem State.setTiu_hostMem (u : Nat) (x : Tiu) : (s.setTiu u x).hostMem = s.hostMem := rfl
@[simp] theorem State.setTiu_flash (u : Nat) (x : Tiu) : (s.setTiu u x).flash = s.flash := rfl
@[simp] theorem State.setTiu_dram (u : Nat) (x : Tiu) : (s.setTiu u x).dram = s.dram := rfl
@[simp] theorem State.setTiu_pending (u : Nat) (x : Tiu) : (s.setTiu u x).pending = s.pending := rfl
@[simp] theorem State.setTiu_rget (u : Nat) (x : Tiu) (c : RegKey) : (s.setTiu u x).rget c = s.rget c := rfl
@[simp] theorem State.setTiu_fget (u : Nat) (x : Tiu) (f : Fld) (i j l : Nat) : (s.setTiu u x).fget f i j l = s.fget f i j l := rfl
@[simp] theorem State.setTiu_fbit (u : Nat) (x : Tiu) (f : Fld) (i j l : Nat) : (s.setTiu u x).fbit f i j l = s.fbit f i j l := rfl

/-! ### setTal -/

@[simp] theorem State.setTal_regs (x : Tally) : (s.setTal x).regs = s.regs := rfl
@[simp] theorem State.setTal_latches (x : Tally) : (s.setTal x).latches = s.latches := rfl
@[simp] theorem State.setTal_staging (x : Tally) : (s.setTal x).staging = s.staging := rfl
@[simp] theorem State.setTal_cyc (x : Tally) : (s.setTal x).cyc = s.cyc := rfl
@[simp] theorem State.setTal_resp (x : Tally) : (s.setTal x).resp = s.resp := rfl
@[simp] theorem State.setTal_tickNo (x : Tally) : (s.setTal x).tickNo = s.tickNo := rfl
@[simp] theorem State.setTal_free (x : Tally) : (s.setTal x).free = s.free := rfl
@[simp] theorem State.setTal_glb (x : Tally) : (s.setTal x).glb = s.glb := rfl
@[simp] theorem State.setTal_time (x : Tally) : (s.setTal x).time = s.time := rfl
@[simp] theorem State.setTal_tsyn (x : Tally) : (s.setTal x).tsyn = s.tsyn := rfl
@[simp] theorem State.setTal_csyn (x : Tally) : (s.setTal x).csyn = s.csyn := rfl
@[simp] theorem State.setTal_osyn (x : Tally) : (s.setTal x).osyn = s.osyn := rfl
@[simp] theorem State.setTal_eo (x : Tally) : (s.setTal x).eo = s.eo := rfl
@[simp] theorem State.setTal_qres (x : Tally) : (s.setTal x).qres = s.qres := rfl
@[simp] theorem State.setTal_tiu (x : Tally) : (s.setTal x).tiu = s.tiu := rfl
@[simp] theorem State.setTal_tal (x : Tally) : (s.setTal x).tal = x := rfl
@[simp] theorem State.setTal_dw (x : Tally) : (s.setTal x).dw = s.dw := rfl
@[simp] theorem State.setTal_drv (x : Tally) : (s.setTal x).drv = s.drv := rfl
@[simp] theorem State.setTal_bbr (x : Tally) : (s.setTal x).bbr = s.bbr := rfl
@[simp] theorem State.setTal_flt (x : Tally) : (s.setTal x).flt = s.flt := rfl
@[simp] theorem State.setTal_cal (x : Tally) : (s.setTal x).cal = s.cal := rfl
@[simp] theorem State.setTal_bw (x : Tally) : (s.setTal x).bw = s.bw := rfl
@[simp] theorem State.setTal_nt (x : Tally) : (s.setTal x).nt = s.nt := rfl
@[simp] theorem State.setTal_pt (x : Tally) : (s.setTal x).pt = s.pt := rfl
@[simp] theorem State.setTal_elm (x : Tally) : (s.setTal x).elm = s.elm := rfl
@[simp] theorem State.setTal_sw (x : Tally) : (s.setTal x).sw = s.sw := rfl
@[simp] theorem State.setTal_host (x : Tally) : (s.setTal x).host = s.host := rfl
@[simp] theorem State.setTal_msix (x : Tally) : (s.setTal x).msix = s.msix := rfl
@[simp] theorem State.setTal_hostMem (x : Tally) : (s.setTal x).hostMem = s.hostMem := rfl
@[simp] theorem State.setTal_flash (x : Tally) : (s.setTal x).flash = s.flash := rfl
@[simp] theorem State.setTal_dram (x : Tally) : (s.setTal x).dram = s.dram := rfl
@[simp] theorem State.setTal_pending (x : Tally) : (s.setTal x).pending = s.pending := rfl
@[simp] theorem State.setTal_rget (x : Tally) (c : RegKey) : (s.setTal x).rget c = s.rget c := rfl
@[simp] theorem State.setTal_fget (x : Tally) (f : Fld) (i j l : Nat) : (s.setTal x).fget f i j l = s.fget f i j l := rfl
@[simp] theorem State.setTal_fbit (x : Tally) (f : Fld) (i j l : Nat) : (s.setTal x).fbit f i j l = s.fbit f i j l := rfl

/-! ### setDw -/

@[simp] theorem State.setDw_regs (x : Dw) : (s.setDw x).regs = s.regs := rfl
@[simp] theorem State.setDw_latches (x : Dw) : (s.setDw x).latches = s.latches := rfl
@[simp] theorem State.setDw_staging (x : Dw) : (s.setDw x).staging = s.staging := rfl
@[simp] theorem State.setDw_cyc (x : Dw) : (s.setDw x).cyc = s.cyc := rfl
@[simp] theorem State.setDw_resp (x : Dw) : (s.setDw x).resp = s.resp := rfl
@[simp] theorem State.setDw_tickNo (x : Dw) : (s.setDw x).tickNo = s.tickNo := rfl
@[simp] theorem State.setDw_free (x : Dw) : (s.setDw x).free = s.free := rfl
@[simp] theorem State.setDw_glb (x : Dw) : (s.setDw x).glb = s.glb := rfl
@[simp] theorem State.setDw_time (x : Dw) : (s.setDw x).time = s.time := rfl
@[simp] theorem State.setDw_tsyn (x : Dw) : (s.setDw x).tsyn = s.tsyn := rfl
@[simp] theorem State.setDw_csyn (x : Dw) : (s.setDw x).csyn = s.csyn := rfl
@[simp] theorem State.setDw_osyn (x : Dw) : (s.setDw x).osyn = s.osyn := rfl
@[simp] theorem State.setDw_eo (x : Dw) : (s.setDw x).eo = s.eo := rfl
@[simp] theorem State.setDw_qres (x : Dw) : (s.setDw x).qres = s.qres := rfl
@[simp] theorem State.setDw_tiu (x : Dw) : (s.setDw x).tiu = s.tiu := rfl
@[simp] theorem State.setDw_tal (x : Dw) : (s.setDw x).tal = s.tal := rfl
@[simp] theorem State.setDw_dw (x : Dw) : (s.setDw x).dw = x := rfl
@[simp] theorem State.setDw_drv (x : Dw) : (s.setDw x).drv = s.drv := rfl
@[simp] theorem State.setDw_bbr (x : Dw) : (s.setDw x).bbr = s.bbr := rfl
@[simp] theorem State.setDw_flt (x : Dw) : (s.setDw x).flt = s.flt := rfl
@[simp] theorem State.setDw_cal (x : Dw) : (s.setDw x).cal = s.cal := rfl
@[simp] theorem State.setDw_bw (x : Dw) : (s.setDw x).bw = s.bw := rfl
@[simp] theorem State.setDw_nt (x : Dw) : (s.setDw x).nt = s.nt := rfl
@[simp] theorem State.setDw_pt (x : Dw) : (s.setDw x).pt = s.pt := rfl
@[simp] theorem State.setDw_elm (x : Dw) : (s.setDw x).elm = s.elm := rfl
@[simp] theorem State.setDw_sw (x : Dw) : (s.setDw x).sw = s.sw := rfl
@[simp] theorem State.setDw_host (x : Dw) : (s.setDw x).host = s.host := rfl
@[simp] theorem State.setDw_msix (x : Dw) : (s.setDw x).msix = s.msix := rfl
@[simp] theorem State.setDw_hostMem (x : Dw) : (s.setDw x).hostMem = s.hostMem := rfl
@[simp] theorem State.setDw_flash (x : Dw) : (s.setDw x).flash = s.flash := rfl
@[simp] theorem State.setDw_dram (x : Dw) : (s.setDw x).dram = s.dram := rfl
@[simp] theorem State.setDw_pending (x : Dw) : (s.setDw x).pending = s.pending := rfl
@[simp] theorem State.setDw_rget (x : Dw) (c : RegKey) : (s.setDw x).rget c = s.rget c := rfl
@[simp] theorem State.setDw_fget (x : Dw) (f : Fld) (i j l : Nat) : (s.setDw x).fget f i j l = s.fget f i j l := rfl
@[simp] theorem State.setDw_fbit (x : Dw) (f : Fld) (i j l : Nat) : (s.setDw x).fbit f i j l = s.fbit f i j l := rfl

/-! ### setDrv -/

@[simp] theorem State.setDrv_regs (d : Nat) (x : Drover) : (s.setDrv d x).regs = s.regs := rfl
@[simp] theorem State.setDrv_latches (d : Nat) (x : Drover) : (s.setDrv d x).latches = s.latches := rfl
@[simp] theorem State.setDrv_staging (d : Nat) (x : Drover) : (s.setDrv d x).staging = s.staging := rfl
@[simp] theorem State.setDrv_cyc (d : Nat) (x : Drover) : (s.setDrv d x).cyc = s.cyc := rfl
@[simp] theorem State.setDrv_resp (d : Nat) (x : Drover) : (s.setDrv d x).resp = s.resp := rfl
@[simp] theorem State.setDrv_tickNo (d : Nat) (x : Drover) : (s.setDrv d x).tickNo = s.tickNo := rfl
@[simp] theorem State.setDrv_free (d : Nat) (x : Drover) : (s.setDrv d x).free = s.free := rfl
@[simp] theorem State.setDrv_glb (d : Nat) (x : Drover) : (s.setDrv d x).glb = s.glb := rfl
@[simp] theorem State.setDrv_time (d : Nat) (x : Drover) : (s.setDrv d x).time = s.time := rfl
@[simp] theorem State.setDrv_tsyn (d : Nat) (x : Drover) : (s.setDrv d x).tsyn = s.tsyn := rfl
@[simp] theorem State.setDrv_csyn (d : Nat) (x : Drover) : (s.setDrv d x).csyn = s.csyn := rfl
@[simp] theorem State.setDrv_osyn (d : Nat) (x : Drover) : (s.setDrv d x).osyn = s.osyn := rfl
@[simp] theorem State.setDrv_eo (d : Nat) (x : Drover) : (s.setDrv d x).eo = s.eo := rfl
@[simp] theorem State.setDrv_qres (d : Nat) (x : Drover) : (s.setDrv d x).qres = s.qres := rfl
@[simp] theorem State.setDrv_tiu (d : Nat) (x : Drover) : (s.setDrv d x).tiu = s.tiu := rfl
@[simp] theorem State.setDrv_tal (d : Nat) (x : Drover) : (s.setDrv d x).tal = s.tal := rfl
@[simp] theorem State.setDrv_dw (d : Nat) (x : Drover) : (s.setDrv d x).dw = s.dw := rfl
@[simp] theorem State.setDrv_drv (d : Nat) (x : Drover) : (s.setDrv d x).drv = s.drv.put id {} d x := rfl
@[simp] theorem State.setDrv_bbr (d : Nat) (x : Drover) : (s.setDrv d x).bbr = s.bbr := rfl
@[simp] theorem State.setDrv_flt (d : Nat) (x : Drover) : (s.setDrv d x).flt = s.flt := rfl
@[simp] theorem State.setDrv_cal (d : Nat) (x : Drover) : (s.setDrv d x).cal = s.cal := rfl
@[simp] theorem State.setDrv_bw (d : Nat) (x : Drover) : (s.setDrv d x).bw = s.bw := rfl
@[simp] theorem State.setDrv_nt (d : Nat) (x : Drover) : (s.setDrv d x).nt = s.nt := rfl
@[simp] theorem State.setDrv_pt (d : Nat) (x : Drover) : (s.setDrv d x).pt = s.pt := rfl
@[simp] theorem State.setDrv_elm (d : Nat) (x : Drover) : (s.setDrv d x).elm = s.elm := rfl
@[simp] theorem State.setDrv_sw (d : Nat) (x : Drover) : (s.setDrv d x).sw = s.sw := rfl
@[simp] theorem State.setDrv_host (d : Nat) (x : Drover) : (s.setDrv d x).host = s.host := rfl
@[simp] theorem State.setDrv_msix (d : Nat) (x : Drover) : (s.setDrv d x).msix = s.msix := rfl
@[simp] theorem State.setDrv_hostMem (d : Nat) (x : Drover) : (s.setDrv d x).hostMem = s.hostMem := rfl
@[simp] theorem State.setDrv_flash (d : Nat) (x : Drover) : (s.setDrv d x).flash = s.flash := rfl
@[simp] theorem State.setDrv_dram (d : Nat) (x : Drover) : (s.setDrv d x).dram = s.dram := rfl
@[simp] theorem State.setDrv_pending (d : Nat) (x : Drover) : (s.setDrv d x).pending = s.pending := rfl
@[simp] theorem State.setDrv_rget (d : Nat) (x : Drover) (c : RegKey) : (s.setDrv d x).rget c = s.rget c := rfl
@[simp] theorem State.setDrv_fget (d : Nat) (x : Drover) (f : Fld) (i j l : Nat) : (s.setDrv d x).fget f i j l = s.fget f i j l := rfl
@[simp] theorem State.setDrv_fbit (d : Nat) (x : Drover) (f : Fld) (i j l : Nat) : (s.setDrv d x).fbit f i j l = s.fbit f i j l := rfl

/-! ### setTask -/

@[simp] theorem State.setTask_regs (d k : Nat) (x : Task) : (s.setTask d k x).regs = s.regs := rfl
@[simp] theorem State.setTask_latches (d k : Nat) (x : Task) : (s.setTask d k x).latches = s.latches := rfl
@[simp] theorem State.setTask_staging (d k : Nat) (x : Task) : (s.setTask d k x).staging = s.staging := rfl
@[simp] theorem State.setTask_cyc (d k : Nat) (x : Task) : (s.setTask d k x).cyc = s.cyc := rfl
@[simp] theorem State.setTask_resp (d k : Nat) (x : Task) : (s.setTask d k x).resp = s.resp := rfl
@[simp] theorem State.setTask_tickNo (d k : Nat) (x : Task) : (s.setTask d k x).tickNo = s.tickNo := rfl
@[simp] theorem State.setTask_free (d k : Nat) (x : Task) : (s.setTask d k x).free = s.free := rfl
@[simp] theorem State.setTask_glb (d k : Nat) (x : Task) : (s.setTask d k x).glb = s.glb := rfl
@[simp] theorem State.setTask_time (d k : Nat) (x : Task) : (s.setTask d k x).time = s.time := rfl
@[simp] theorem State.setTask_tsyn (d k : Nat) (x : Task) : (s.setTask d k x).tsyn = s.tsyn := rfl
@[simp] theorem State.setTask_csyn (d k : Nat) (x : Task) : (s.setTask d k x).csyn = s.csyn := rfl
@[simp] theorem State.setTask_osyn (d k : Nat) (x : Task) : (s.setTask d k x).osyn = s.osyn := rfl
@[simp] theorem State.setTask_eo (d k : Nat) (x : Task) : (s.setTask d k x).eo = s.eo := rfl
@[simp] theorem State.setTask_qres (d k : Nat) (x : Task) : (s.setTask d k x).qres = s.qres := rfl
@[simp] theorem State.setTask_tiu (d k : Nat) (x : Task) : (s.setTask d k x).tiu = s.tiu := rfl
@[simp] theorem State.setTask_tal (d k : Nat) (x : Task) : (s.setTask d k x).tal = s.tal := rfl
@[simp] theorem State.setTask_dw (d k : Nat) (x : Task) : (s.setTask d k x).dw = s.dw := rfl
@[simp] theorem State.setTask_bbr (d k : Nat) (x : Task) : (s.setTask d k x).bbr = s.bbr := rfl
@[simp] theorem State.setTask_flt (d k : Nat) (x : Task) : (s.setTask d k x).flt = s.flt := rfl
@[simp] theorem State.setTask_cal (d k : Nat) (x : Task) : (s.setTask d k x).cal = s.cal := rfl
@[simp] theorem State.setTask_bw (d k : Nat) (x : Task) : (s.setTask d k x).bw = s.bw := rfl
@[simp] theorem State.setTask_nt (d k : Nat) (x : Task) : (s.setTask d k x).nt = s.nt := rfl
@[simp] theorem State.setTask_pt (d k : Nat) (x : Task) : (s.setTask d k x).pt = s.pt := rfl
@[simp] theorem State.setTask_elm (d k : Nat) (x : Task) : (s.setTask d k x).elm = s.elm := rfl
@[simp] theorem State.setTask_sw (d k : Nat) (x : Task) : (s.setTask d k x).sw = s.sw := rfl
@[simp] theorem State.setTask_host (d k : Nat) (x : Task) : (s.setTask d k x).host = s.host := rfl
@[simp] theorem State.setTask_msix (d k : Nat) (x : Task) : (s.setTask d k x).msix = s.msix := rfl
@[simp] theorem State.setTask_hostMem (d k : Nat) (x : Task) : (s.setTask d k x).hostMem = s.hostMem := rfl
@[simp] theorem State.setTask_flash (d k : Nat) (x : Task) : (s.setTask d k x).flash = s.flash := rfl
@[simp] theorem State.setTask_dram (d k : Nat) (x : Task) : (s.setTask d k x).dram = s.dram := rfl
@[simp] theorem State.setTask_pending (d k : Nat) (x : Task) : (s.setTask d k x).pending = s.pending := rfl
@[simp] theorem State.setTask_rget (d k : Nat) (x : Task) (c : RegKey) : (s.setTask d k x).rget c = s.rget c := rfl
@[simp] theorem State.setTask_fget (d k : Nat) (x : Task) (f : Fld) (i j l : Nat) : (s.setTask d k x).fget f i j l = s.fget f i j l := rfl
@[simp] theorem State.setTask_fbit (d k : Nat) (x : Task) (f : Fld) (i j l : Nat) : (s.setTask d k x).fbit f i j l = s.fbit f i j l := rfl

/-! ### setBbr -/

@[simp] theorem State.setBbr_regs (x : BbrSt) : (s.setBbr x).regs = s.regs := rfl
@[simp] theorem State.setBbr_latches (x : BbrSt) : (s.setBbr x).latches = s.latches := rfl
@[simp] theorem State.setBbr_staging (x : BbrSt) : (s.setBbr x).staging = s.staging := rfl
@[simp] theorem State.setBbr_cyc (x : BbrSt) : (s.setBbr x).cyc = s.cyc := rfl
@[simp] theorem State.setBbr_resp (x : BbrSt) : (s.setBbr x).resp = s.resp := rfl
@[simp] theorem State.setBbr_tickNo (x : BbrSt) : (s.setBbr x).tickNo = s.tickNo := rfl
@[simp] theorem State.setBbr_free (x : BbrSt) : (s.setBbr x).free = s.free := rfl
@[simp] theorem State.setBbr_glb (x : BbrSt) : (s.setBbr x).glb = s.glb := rfl
@[simp] theorem State.setBbr_time (x : BbrSt) : (s.setBbr x).time = s.time := rfl
@[simp] theorem State.setBbr_tsyn (x : BbrSt) : (s.setBbr x).tsyn = s.tsyn := rfl
@[simp] theorem State.setBbr_csyn (x : BbrSt) : (s.setBbr x).csyn = s.csyn := rfl
@[simp] theorem State.setBbr_osyn (x : BbrSt) : (s.setBbr x).osyn = s.osyn := rfl
@[simp] theorem State.setBbr_eo (x : BbrSt) : (s.setBbr x).eo = s.eo := rfl
@[simp] theorem State.setBbr_qres (x : BbrSt) : (s.setBbr x).qres = s.qres := rfl
@[simp] theorem State.setBbr_tiu (x : BbrSt) : (s.setBbr x).tiu = s.tiu := rfl
@[simp] theorem State.setBbr_tal (x : BbrSt) : (s.setBbr x).tal = s.tal := rfl
@[simp] theorem State.setBbr_dw (x : BbrSt) : (s.setBbr x).dw = s.dw := rfl
@[simp] theorem State.setBbr_drv (x : BbrSt) : (s.setBbr x).drv = s.drv := rfl
@[simp] theorem State.setBbr_bbr (x : BbrSt) : (s.setBbr x).bbr = x := rfl
@[simp] theorem State.setBbr_flt (x : BbrSt) : (s.setBbr x).flt = s.flt := rfl
@[simp] theorem State.setBbr_cal (x : BbrSt) : (s.setBbr x).cal = s.cal := rfl
@[simp] theorem State.setBbr_bw (x : BbrSt) : (s.setBbr x).bw = s.bw := rfl
@[simp] theorem State.setBbr_nt (x : BbrSt) : (s.setBbr x).nt = s.nt := rfl
@[simp] theorem State.setBbr_pt (x : BbrSt) : (s.setBbr x).pt = s.pt := rfl
@[simp] theorem State.setBbr_elm (x : BbrSt) : (s.setBbr x).elm = s.elm := rfl
@[simp] theorem State.setBbr_sw (x : BbrSt) : (s.setBbr x).sw = s.sw := rfl
@[simp] theorem State.setBbr_host (x : BbrSt) : (s.setBbr x).host = s.host := rfl
@[simp] theorem State.setBbr_msix (x : BbrSt) : (s.setBbr x).msix = s.msix := rfl
@[simp] theorem State.setBbr_hostMem (x : BbrSt) : (s.setBbr x).hostMem = s.hostMem := rfl
@[simp] theorem State.setBbr_flash (x : BbrSt) : (s.setBbr x).flash = s.flash := rfl
@[simp] theorem State.setBbr_dram (x : BbrSt) : (s.setBbr x).dram = s.dram := rfl
@[simp] theorem State.setBbr_pending (x : BbrSt) : (s.setBbr x).pending = s.pending := rfl
@[simp] theorem State.setBbr_rget (x : BbrSt) (c : RegKey) : (s.setBbr x).rget c = s.rget c := rfl
@[simp] theorem State.setBbr_fget (x : BbrSt) (f : Fld) (i j l : Nat) : (s.setBbr x).fget f i j l = s.fget f i j l := rfl
@[simp] theorem State.setBbr_fbit (x : BbrSt) (f : Fld) (i j l : Nat) : (s.setBbr x).fbit f i j l = s.fbit f i j l := rfl

/-! ### setFlt -/

@[simp] theorem State.setFlt_regs (x : FltSt) : (s.setFlt x).regs = s.regs := rfl
@[simp] theorem State.setFlt_latches (x : FltSt) : (s.setFlt x).latches = s.latches := rfl
@[simp] theorem State.setFlt_staging (x : FltSt) : (s.setFlt x).staging = s.staging := rfl
@[simp] theorem State.setFlt_cyc (x : FltSt) : (s.setFlt x).cyc = s.cyc := rfl
@[simp] theorem State.setFlt_resp (x : FltSt) : (s.setFlt x).resp = s.resp := rfl
@[simp] theorem State.setFlt_tickNo (x : FltSt) : (s.setFlt x).tickNo = s.tickNo := rfl
@[simp] theorem State.setFlt_free (x : FltSt) : (s.setFlt x).free = s.free := rfl
@[simp] theorem State.setFlt_glb (x : FltSt) : (s.setFlt x).glb = s.glb := rfl
@[simp] theorem State.setFlt_time (x : FltSt) : (s.setFlt x).time = s.time := rfl
@[simp] theorem State.setFlt_tsyn (x : FltSt) : (s.setFlt x).tsyn = s.tsyn := rfl
@[simp] theorem State.setFlt_csyn (x : FltSt) : (s.setFlt x).csyn = s.csyn := rfl
@[simp] theorem State.setFlt_osyn (x : FltSt) : (s.setFlt x).osyn = s.osyn := rfl
@[simp] theorem State.setFlt_eo (x : FltSt) : (s.setFlt x).eo = s.eo := rfl
@[simp] theorem State.setFlt_qres (x : FltSt) : (s.setFlt x).qres = s.qres := rfl
@[simp] theorem State.setFlt_tiu (x : FltSt) : (s.setFlt x).tiu = s.tiu := rfl
@[simp] theorem State.setFlt_tal (x : FltSt) : (s.setFlt x).tal = s.tal := rfl
@[simp] theorem State.setFlt_dw (x : FltSt) : (s.setFlt x).dw = s.dw := rfl
@[simp] theorem State.setFlt_drv (x : FltSt) : (s.setFlt x).drv = s.drv := rfl
@[simp] theorem State.setFlt_bbr (x : FltSt) : (s.setFlt x).bbr = s.bbr := rfl
@[simp] theorem State.setFlt_flt (x : FltSt) : (s.setFlt x).flt = x := rfl
@[simp] theorem State.setFlt_cal (x : FltSt) : (s.setFlt x).cal = s.cal := rfl
@[simp] theorem State.setFlt_bw (x : FltSt) : (s.setFlt x).bw = s.bw := rfl
@[simp] theorem State.setFlt_nt (x : FltSt) : (s.setFlt x).nt = s.nt := rfl
@[simp] theorem State.setFlt_pt (x : FltSt) : (s.setFlt x).pt = s.pt := rfl
@[simp] theorem State.setFlt_elm (x : FltSt) : (s.setFlt x).elm = s.elm := rfl
@[simp] theorem State.setFlt_sw (x : FltSt) : (s.setFlt x).sw = s.sw := rfl
@[simp] theorem State.setFlt_host (x : FltSt) : (s.setFlt x).host = s.host := rfl
@[simp] theorem State.setFlt_msix (x : FltSt) : (s.setFlt x).msix = s.msix := rfl
@[simp] theorem State.setFlt_hostMem (x : FltSt) : (s.setFlt x).hostMem = s.hostMem := rfl
@[simp] theorem State.setFlt_flash (x : FltSt) : (s.setFlt x).flash = s.flash := rfl
@[simp] theorem State.setFlt_dram (x : FltSt) : (s.setFlt x).dram = s.dram := rfl
@[simp] theorem State.setFlt_pending (x : FltSt) : (s.setFlt x).pending = s.pending := rfl
@[simp] theorem State.setFlt_rget (x : FltSt) (c : RegKey) : (s.setFlt x).rget c = s.rget c := rfl
@[simp] theorem State.setFlt_fget (x : FltSt) (f : Fld) (i j l : Nat) : (s.setFlt x).fget f i j l = s.fget f i j l := rfl
@[simp] theorem State.setFlt_fbit (x : FltSt) (f : Fld) (i j l : Nat) : (s.setFlt x).fbit f i j l = s.fbit f i j l := rfl

/-! ### setCal -/

@[simp] theorem State.setCal_regs (x : Cal) : (s.setCal x).regs = s.regs := rfl
@[simp] theorem State.setCal_latches (x : Cal) : (s.setCal x).latches = s.latches := rfl
@[simp] theorem State.setCal_staging (x : Cal) : (s.setCal x).staging = s.staging := rfl
@[simp] theorem State.setCal_cyc (x : Cal) : (s.setCal x).cyc = s.cyc := rfl
@[simp] theorem State.setCal_resp (x : Cal) : (s.setCal x).resp = s.resp := rfl
@[simp] theorem State.setCal_tickNo (x : Cal) : (s.setCal x).tickNo = s.tickNo := rfl
@[simp] theorem State.setCal_free (x : Cal) : (s.setCal x).free = s.free := rfl
@[simp] theorem State.setCal_glb (x : Cal) : (s.setCal x).glb = s.glb := rfl
@[simp] theorem State.setCal_time (x : Cal) : (s.setCal x).time = s.time := rfl
@[simp] theorem State.setCal_tsyn (x : Cal) : (s.setCal x).tsyn = s.tsyn := rfl
@[simp] theorem State.setCal_csyn (x : Cal) : (s.setCal x).csyn = s.csyn := rfl
@[simp] theorem State.setCal_osyn (x : Cal) : (s.setCal x).osyn = s.osyn := rfl
@[simp] theorem State.setCal_eo (x : Cal) : (s.setCal x).eo = s.eo := rfl
@[simp] theorem State.setCal_qres (x : Cal) : (s.setCal x).qres = s.qres := rfl
@[simp] theorem State.setCal_tiu (x : Cal) : (s.setCal x).tiu = s.tiu := rfl
@[simp] theorem State.setCal_tal (x : Cal) : (s.setCal x).tal = s.tal := rfl
@[simp] theorem State.setCal_dw (x : Cal) : (s.setCal x).dw = s.dw := rfl
@[simp] theorem State.setCal_drv (x : Cal) : (s.setCal x).drv = s.drv := rfl
@[simp] theorem State.setCal_bbr (x : Cal) : (s.setCal x).bbr = s.bbr := rfl
@[simp] theorem State.setCal_flt (x : Cal) : (s.setCal x).flt = s.flt := rfl
@[simp] theorem State.setCal_cal (x : Cal) : (s.setCal x).cal = x := rfl
@[simp] theorem State.setCal_bw (x : Cal) : (s.setCal x).bw = s.bw := rfl
@[simp] theorem State.setCal_nt (x : Cal) : (s.setCal x).nt = s.nt := rfl
@[simp] theorem State.setCal_pt (x : Cal) : (s.setCal x).pt = s.pt := rfl
@[simp] theorem State.setCal_elm (x : Cal) : (s.setCal x).elm = s.elm := rfl
@[simp] theorem State.setCal_sw (x : Cal) : (s.setCal x).sw = s.sw := rfl
@[simp] theorem State.setCal_host (x : Cal) : (s.setCal x).host = s.host := rfl
@[simp] theorem State.setCal_msix (x : Cal) : (s.setCal x).msix = s.msix := rfl
@[simp] theorem State.setCal_hostMem (x : Cal) : (s.setCal x).hostMem = s.hostMem := rfl
@[simp] theorem State.setCal_flash (x : Cal) : (s.setCal x).flash = s.flash := rfl
@[simp] theorem State.setCal_dram (x : Cal) : (s.setCal x).dram = s.dram := rfl
@[simp] theorem State.setCal_pending (x : Cal) : (s.setCal x).pending = s.pending := rfl
@[simp] theorem State.setCal_rget (x : Cal) (c : RegKey) : (s.setCal x).rget c = s.rget c := rfl
@[simp] theorem State.setCal_fget (x : Cal) (f : Fld) (i j l : Nat) : (s.setCal x).fget f i j l = s.fget f i j l := rfl
@[simp] theorem State.setCal_fbit (x : Cal) (f : Fld) (i j l : Nat) : (s.setCal x).fbit f i j l = s.fbit f i j l := rfl

/-! ### setBw -/

@[simp] theorem State.setBw_regs (x : Bw) : (s.setBw x).regs = s.regs := rfl
@[simp] theorem State.setBw_latches (x : Bw) : (s.setBw x).latches = s.latches := rfl
@[simp] theorem State.setBw_staging (x : Bw) : (s.setBw x).staging = s.staging := rfl
@[simp] theorem State.setBw_cyc (x : Bw) : (s.setBw x).cyc = s.cyc := rfl
@[simp] theorem State.setBw_resp (x : Bw) : (s.setBw x).resp = s.resp := rfl
@[simp] theorem State.setBw_tickNo (x : Bw) : (s.setBw x).tickNo = s.tickNo := rfl
@[simp] theorem State.setBw_free (x : Bw) : (s.setBw x).free = s.free := rfl
@[simp] theorem State.setBw_glb (x : Bw) : (s.setBw x).glb = s.glb := rfl
@[simp] theorem State.setBw_time (x : Bw) : (s.setBw x).time = s.time := rfl
@[simp] theorem State.setBw_tsyn (x : Bw) : (s.setBw x).tsyn = s.tsyn := rfl
@[simp] theorem State.setBw_csyn (x : Bw) : (s.setBw x).csyn = s.csyn := rfl
@[simp] theorem State.setBw_osyn (x : Bw) : (s.setBw x).osyn = s.osyn := rfl
@[simp] theorem State.setBw_eo (x : Bw) : (s.setBw x).eo = s.eo := rfl
@[simp] theorem State.setBw_qres (x : Bw) : (s.setBw x).qres = s.qres := rfl
@[simp] theorem State.setBw_tiu (x : Bw) : (s.setBw x).tiu = s.tiu := rfl
@[simp] theorem State.setBw_tal (x : Bw) : (s.setBw x).tal = s.tal := rfl
@[simp] theorem State.setBw_dw (x : Bw) : (s.setBw x).dw = s.dw := rfl
@[simp] theorem State.setBw_drv (x : Bw) : (s.setBw x).drv = s.drv := rfl
@[simp] theorem State.setBw_bbr (x : Bw) : (s.setBw x).bbr = s.bbr := rfl
@[simp] theorem State.setBw_flt (x : Bw) : (s.setBw x).flt = s.flt := rfl
@[simp] theorem State.setBw_cal (x : Bw) : (s.setBw x).cal = s.cal := rfl
@[simp] theorem State.setBw_bw (x : Bw) : (s.setBw x).bw = x := rfl
@[simp] theorem State.setBw_nt (x : Bw) : (s.setBw x).nt = s.nt := rfl
@[simp] theorem State.setBw_pt (x : Bw) : (s.setBw x).pt = s.pt := rfl
@[simp] theorem State.setBw_elm (x : Bw) : (s.setBw x).elm = s.elm := rfl
@[simp] theorem State.setBw_sw (x : Bw) : (s.setBw x).sw = s.sw := rfl
@[simp] theorem State.setBw_host (x : Bw) : (s.setBw x).host = s.host := rfl
@[simp] theorem State.setBw_msix (x : Bw) : (s.setBw x).msix = s.msix := rfl
@[simp] theorem State.setBw_hostMem (x : Bw) : (s.setBw x).hostMem = s.hostMem := rfl
@[simp] theorem State.setBw_flash (x : Bw) : (s.setBw x).flash = s.flash := rfl
@[simp] theorem State.setBw_dram (x : Bw) : (s.setBw x).dram = s.dram := rfl
@[simp] theorem State.setBw_pending (x : Bw) : (s.setBw x).pending = s.pending := rfl
@[simp] theorem State.setBw_rget (x : Bw) (c : RegKey) : (s.setBw x).rget c = s.rget c := rfl
@[simp] theorem State.setBw_fget (x : Bw) (f : Fld) (i j l : Nat) : (s.setBw x).fget f i j l = s.fget f i j l := rfl
@[simp] theorem State.setBw_fbit (x : Bw) (f : Fld) (i j l : Nat) : (s.setBw x).fbit f i j l = s.fbit f i j l := rfl

/-! ### setCand -/

@[simp] theorem State.setCand_regs (r : Nat) (x : BwCand) : (s.setCand r x).regs = s.regs := rfl
@[simp] theorem State.setCand_latches (r : Nat) (x : BwCand) : (s.setCand r x).latches = s.latches := rfl
@[simp] theorem State.setCand_staging (r : Nat) (x : BwCand) : (s.setCand r x).staging = s.staging := rfl
@[simp] theorem State.setCand_cyc (r : Nat) (x : BwCand) : (s.setCand r x).cyc = s.cyc := rfl
@[simp] theorem State.setCand_resp (r : Nat) (x : BwCand) : (s.setCand r x).resp = s.resp := rfl
@[simp] theorem State.setCand_tickNo (r : Nat) (x : BwCand) : (s.setCand r x).tickNo = s.tickNo := rfl
@[simp] theorem State.setCand_free (r : Nat) (x : BwCand) : (s.setCand r x).free = s.free := rfl
@[simp] theorem State.setCand_glb (r : Nat) (x : BwCand) : (s.setCand r x).glb = s.glb := rfl
@[simp] theorem State.setCand_time (r : Nat) (x : BwCand) : (s.setCand r x).time = s.time := rfl
@[simp] theorem State.setCand_tsyn (r : Nat) (x : BwCand) : (s.setCand r x).tsyn = s.tsyn := rfl
@[simp] theorem State.setCand_csyn (r : Nat) (x : BwCand) : (s.setCand r x).csyn = s.csyn := rfl
@[simp] theorem State.setCand_osyn (r : Nat) (x : BwCand) : (s.setCand r x).osyn = s.osyn := rfl
@[simp] theorem State.setCand_eo (r : Nat) (x : BwCand) : (s.setCand r x).eo = s.eo := rfl
@[simp] theorem State.setCand_qres (r : Nat) (x : BwCand) : (s.setCand r x).qres = s.qres := rfl
@[simp] theorem State.setCand_tiu (r : Nat) (x : BwCand) : (s.setCand r x).tiu = s.tiu := rfl
@[simp] theorem State.setCand_tal (r : Nat) (x : BwCand) : (s.setCand r x).tal = s.tal := rfl
@[simp] theorem State.setCand_dw (r : Nat) (x : BwCand) : (s.setCand r x).dw = s.dw := rfl
@[simp] theorem State.setCand_drv (r : Nat) (x : BwCand) : (s.setCand r x).drv = s.drv := rfl
@[simp] theorem State.setCand_bbr (r : Nat) (x : BwCand) : (s.setCand r x).bbr = s.bbr := rfl
@[simp] theorem State.setCand_flt (r : Nat) (x : BwCand) : (s.setCand r x).flt = s.flt := rfl
@[simp] theorem State.setCand_cal (r : Nat) (x : BwCand) : (s.setCand r x).cal = s.cal := rfl
@[simp] theorem State.setCand_nt (r : Nat) (x : BwCand) : (s.setCand r x).nt = s.nt := rfl
@[simp] theorem State.setCand_pt (r : Nat) (x : BwCand) : (s.setCand r x).pt = s.pt := rfl
@[simp] theorem State.setCand_elm (r : Nat) (x : BwCand) : (s.setCand r x).elm = s.elm := rfl
@[simp] theorem State.setCand_sw (r : Nat) (x : BwCand) : (s.setCand r x).sw = s.sw := rfl
@[simp] theorem State.setCand_host (r : Nat) (x : BwCand) : (s.setCand r x).host = s.host := rfl
@[simp] theorem State.setCand_msix (r : Nat) (x : BwCand) : (s.setCand r x).msix = s.msix := rfl
@[simp] theorem State.setCand_hostMem (r : Nat) (x : BwCand) : (s.setCand r x).hostMem = s.hostMem := rfl
@[simp] theorem State.setCand_flash (r : Nat) (x : BwCand) : (s.setCand r x).flash = s.flash := rfl
@[simp] theorem State.setCand_dram (r : Nat) (x : BwCand) : (s.setCand r x).dram = s.dram := rfl
@[simp] theorem State.setCand_pending (r : Nat) (x : BwCand) : (s.setCand r x).pending = s.pending := rfl
@[simp] theorem State.setCand_rget (r : Nat) (x : BwCand) (c : RegKey) : (s.setCand r x).rget c = s.rget c := rfl
@[simp] theorem State.setCand_fget (r : Nat) (x : BwCand) (f : Fld) (i j l : Nat) : (s.setCand r x).fget f i j l = s.fget f i j l := rfl
@[simp] theorem State.setCand_fbit (r : Nat) (x : BwCand) (f : Fld) (i j l : Nat) : (s.setCand r x).fbit f i j l = s.fbit f i j l := rfl

/-! ### setSes -/

@[simp] theorem State.setSes_regs (n : Nat) (x : NtSes) : (s.setSes n x).regs = s.regs := rfl
@[simp] theorem State.setSes_latches (n : Nat) (x : NtSes) : (s.setSes n x).latches = s.latches := rfl
@[simp] theorem State.setSes_staging (n : Nat) (x : NtSes) : (s.setSes n x).staging = s.staging := rfl
@[simp] theorem State.setSes_cyc (n : Nat) (x : NtSes) : (s.setSes n x).cyc = s.cyc := rfl
@[simp] theorem State.setSes_resp (n : Nat) (x : NtSes) : (s.setSes n x).resp = s.resp := rfl
@[simp] theorem State.setSes_tickNo (n : Nat) (x : NtSes) : (s.setSes n x).tickNo = s.tickNo := rfl
@[simp] theorem State.setSes_free (n : Nat) (x : NtSes) : (s.setSes n x).free = s.free := rfl
@[simp] theorem State.setSes_glb (n : Nat) (x : NtSes) : (s.setSes n x).glb = s.glb := rfl
@[simp] theorem State.setSes_time (n : Nat) (x : NtSes) : (s.setSes n x).time = s.time := rfl
@[simp] theorem State.setSes_tsyn (n : Nat) (x : NtSes) : (s.setSes n x).tsyn = s.tsyn := rfl
@[simp] theorem State.setSes_csyn (n : Nat) (x : NtSes) : (s.setSes n x).csyn = s.csyn := rfl
@[simp] theorem State.setSes_osyn (n : Nat) (x : NtSes) : (s.setSes n x).osyn = s.osyn := rfl
@[simp] theorem State.setSes_eo (n : Nat) (x : NtSes) : (s.setSes n x).eo = s.eo := rfl
@[simp] theorem State.setSes_qres (n : Nat) (x : NtSes) : (s.setSes n x).qres = s.qres := rfl
@[simp] theorem State.setSes_tiu (n : Nat) (x : NtSes) : (s.setSes n x).tiu = s.tiu := rfl
@[simp] theorem State.setSes_tal (n : Nat) (x : NtSes) : (s.setSes n x).tal = s.tal := rfl
@[simp] theorem State.setSes_dw (n : Nat) (x : NtSes) : (s.setSes n x).dw = s.dw := rfl
@[simp] theorem State.setSes_drv (n : Nat) (x : NtSes) : (s.setSes n x).drv = s.drv := rfl
@[simp] theorem State.setSes_bbr (n : Nat) (x : NtSes) : (s.setSes n x).bbr = s.bbr := rfl
@[simp] theorem State.setSes_flt (n : Nat) (x : NtSes) : (s.setSes n x).flt = s.flt := rfl
@[simp] theorem State.setSes_cal (n : Nat) (x : NtSes) : (s.setSes n x).cal = s.cal := rfl
@[simp] theorem State.setSes_bw (n : Nat) (x : NtSes) : (s.setSes n x).bw = s.bw := rfl
@[simp] theorem State.setSes_pt (n : Nat) (x : NtSes) : (s.setSes n x).pt = s.pt := rfl
@[simp] theorem State.setSes_elm (n : Nat) (x : NtSes) : (s.setSes n x).elm = s.elm := rfl
@[simp] theorem State.setSes_sw (n : Nat) (x : NtSes) : (s.setSes n x).sw = s.sw := rfl
@[simp] theorem State.setSes_host (n : Nat) (x : NtSes) : (s.setSes n x).host = s.host := rfl
@[simp] theorem State.setSes_msix (n : Nat) (x : NtSes) : (s.setSes n x).msix = s.msix := rfl
@[simp] theorem State.setSes_hostMem (n : Nat) (x : NtSes) : (s.setSes n x).hostMem = s.hostMem := rfl
@[simp] theorem State.setSes_flash (n : Nat) (x : NtSes) : (s.setSes n x).flash = s.flash := rfl
@[simp] theorem State.setSes_dram (n : Nat) (x : NtSes) : (s.setSes n x).dram = s.dram := rfl
@[simp] theorem State.setSes_pending (n : Nat) (x : NtSes) : (s.setSes n x).pending = s.pending := rfl
@[simp] theorem State.setSes_rget (n : Nat) (x : NtSes) (c : RegKey) : (s.setSes n x).rget c = s.rget c := rfl
@[simp] theorem State.setSes_fget (n : Nat) (x : NtSes) (f : Fld) (i j l : Nat) : (s.setSes n x).fget f i j l = s.fget f i j l := rfl
@[simp] theorem State.setSes_fbit (n : Nat) (x : NtSes) (f : Fld) (i j l : Nat) : (s.setSes n x).fbit f i j l = s.fbit f i j l := rfl

/-! ### setNtPort -/

@[simp] theorem State.setNtPort_regs (p : Nat) (x : NtPort) : (s.setNtPort p x).regs = s.regs := rfl
@[simp] theorem State.setNtPort_latches (p : Nat) (x : NtPort) : (s.setNtPort p x).latches = s.latches := rfl
@[simp] theorem State.setNtPort_staging (p : Nat) (x : NtPort) : (s.setNtPort p x).staging = s.staging := rfl
@[simp] theorem State.setNtPort_cyc (p : Nat) (x : NtPort) : (s.setNtPort p x).cyc = s.cyc := rfl
@[simp] theorem State.setNtPort_resp (p : Nat) (x : NtPort) : (s.setNtPort p x).resp = s.resp := rfl
@[simp] theorem State.setNtPort_tickNo (p : Nat) (x : NtPort) : (s.setNtPort p x).tickNo = s.tickNo := rfl
@[simp] theorem State.setNtPort_free (p : Nat) (x : NtPort) : (s.setNtPort p x).free = s.free := rfl
@[simp] theorem State.setNtPort_glb (p : Nat) (x : NtPort) : (s.setNtPort p x).glb = s.glb := rfl
@[simp] theorem State.setNtPort_time (p : Nat) (x : NtPort) : (s.setNtPort p x).time = s.time := rfl
@[simp] theorem State.setNtPort_tsyn (p : Nat) (x : NtPort) : (s.setNtPort p x).tsyn = s.tsyn := rfl
@[simp] theorem State.setNtPort_csyn (p : Nat) (x : NtPort) : (s.setNtPort p x).csyn = s.csyn := rfl
@[simp] theorem State.setNtPort_osyn (p : Nat) (x : NtPort) : (s.setNtPort p x).osyn = s.osyn := rfl
@[simp] theorem State.setNtPort_eo (p : Nat) (x : NtPort) : (s.setNtPort p x).eo = s.eo := rfl
@[simp] theorem State.setNtPort_qres (p : Nat) (x : NtPort) : (s.setNtPort p x).qres = s.qres := rfl
@[simp] theorem State.setNtPort_tiu (p : Nat) (x : NtPort) : (s.setNtPort p x).tiu = s.tiu := rfl
@[simp] theorem State.setNtPort_tal (p : Nat) (x : NtPort) : (s.setNtPort p x).tal = s.tal := rfl
@[simp] theorem State.setNtPort_dw (p : Nat) (x : NtPort) : (s.setNtPort p x).dw = s.dw := rfl
@[simp] theorem State.setNtPort_drv (p : Nat) (x : NtPort) : (s.setNtPort p x).drv = s.drv := rfl
@[simp] theorem State.setNtPort_bbr (p : Nat) (x : NtPort) : (s.setNtPort p x).bbr = s.bbr := rfl
@[simp] theorem State.setNtPort_flt (p : Nat) (x : NtPort) : (s.setNtPort p x).flt = s.flt := rfl
@[simp] theorem State.setNtPort_cal (p : Nat) (x : NtPort) : (s.setNtPort p x).cal = s.cal := rfl
@[simp] theorem State.setNtPort_bw (p : Nat) (x : NtPort) : (s.setNtPort p x).bw = s.bw := rfl
@[simp] theorem State.setNtPort_pt (p : Nat) (x : NtPort) : (s.setNtPort p x).pt = s.pt := rfl
@[simp] theorem State.setNtPort_elm (p : Nat) (x : NtPort) : (s.setNtPort p x).elm = s.elm := rfl
@[simp] theorem State.setNtPort_sw (p : Nat) (x : NtPort) : (s.setNtPort p x).sw = s.sw := rfl
@[simp] theorem State.setNtPort_host (p : Nat) (x : NtPort) : (s.setNtPort p x).host = s.host := rfl
@[simp] theorem State.setNtPort_msix (p : Nat) (x : NtPort) : (s.setNtPort p x).msix = s.msix := rfl
@[simp] theorem State.setNtPort_hostMem (p : Nat) (x : NtPort) : (s.setNtPort p x).hostMem = s.hostMem := rfl
@[simp] theorem State.setNtPort_flash (p : Nat) (x : NtPort) : (s.setNtPort p x).flash = s.flash := rfl
@[simp] theorem State.setNtPort_dram (p : Nat) (x : NtPort) : (s.setNtPort p x).dram = s.dram := rfl
@[simp] theorem State.setNtPort_pending (p : Nat) (x : NtPort) : (s.setNtPort p x).pending = s.pending := rfl
@[simp] theorem State.setNtPort_rget (p : Nat) (x : NtPort) (c : RegKey) : (s.setNtPort p x).rget c = s.rget c := rfl
@[simp] theorem State.setNtPort_fget (p : Nat) (x : NtPort) (f : Fld) (i j l : Nat) : (s.setNtPort p x).fget f i j l = s.fget f i j l := rfl
@[simp] theorem State.setNtPort_fbit (p : Nat) (x : NtPort) (f : Fld) (i j l : Nat) : (s.setNtPort p x).fbit f i j l = s.fbit f i j l := rfl

/-! ### setPt -/

@[simp] theorem State.setPt_regs (p : Nat) (x : Pt) : (s.setPt p x).regs = s.regs := rfl
@[simp] theorem State.setPt_latches (p : Nat) (x : Pt) : (s.setPt p x).latches = s.latches := rfl
@[simp] theorem State.setPt_staging (p : Nat) (x : Pt) : (s.setPt p x).staging = s.staging := rfl
@[simp] theorem State.setPt_cyc (p : Nat) (x : Pt) : (s.setPt p x).cyc = s.cyc := rfl
@[simp] theorem State.setPt_resp (p : Nat) (x : Pt) : (s.setPt p x).resp = s.resp := rfl
@[simp] theorem State.setPt_tickNo (p : Nat) (x : Pt) : (s.setPt p x).tickNo = s.tickNo := rfl
@[simp] theorem State.setPt_free (p : Nat) (x : Pt) : (s.setPt p x).free = s.free := rfl
@[simp] theorem State.setPt_glb (p : Nat) (x : Pt) : (s.setPt p x).glb = s.glb := rfl
@[simp] theorem State.setPt_time (p : Nat) (x : Pt) : (s.setPt p x).time = s.time := rfl
@[simp] theorem State.setPt_tsyn (p : Nat) (x : Pt) : (s.setPt p x).tsyn = s.tsyn := rfl
@[simp] theorem State.setPt_csyn (p : Nat) (x : Pt) : (s.setPt p x).csyn = s.csyn := rfl
@[simp] theorem State.setPt_osyn (p : Nat) (x : Pt) : (s.setPt p x).osyn = s.osyn := rfl
@[simp] theorem State.setPt_eo (p : Nat) (x : Pt) : (s.setPt p x).eo = s.eo := rfl
@[simp] theorem State.setPt_qres (p : Nat) (x : Pt) : (s.setPt p x).qres = s.qres := rfl
@[simp] theorem State.setPt_tiu (p : Nat) (x : Pt) : (s.setPt p x).tiu = s.tiu := rfl
@[simp] theorem State.setPt_tal (p : Nat) (x : Pt) : (s.setPt p x).tal = s.tal := rfl
@[simp] theorem State.setPt_dw (p : Nat) (x : Pt) : (s.setPt p x).dw = s.dw := rfl
@[simp] theorem State.setPt_drv (p : Nat) (x : Pt) : (s.setPt p x).drv = s.drv := rfl
@[simp] theorem State.setPt_bbr (p : Nat) (x : Pt) : (s.setPt p x).bbr = s.bbr := rfl
@[simp] theorem State.setPt_flt (p : Nat) (x : Pt) : (s.setPt p x).flt = s.flt := rfl
@[simp] theorem State.setPt_cal (p : Nat) (x : Pt) : (s.setPt p x).cal = s.cal := rfl
@[simp] theorem State.setPt_bw (p : Nat) (x : Pt) : (s.setPt p x).bw = s.bw := rfl
@[simp] theorem State.setPt_nt (p : Nat) (x : Pt) : (s.setPt p x).nt = s.nt := rfl
@[simp] theorem State.setPt_pt (p : Nat) (x : Pt) : (s.setPt p x).pt = s.pt.put id {} p x := rfl
@[simp] theorem State.setPt_elm (p : Nat) (x : Pt) : (s.setPt p x).elm = s.elm := rfl
@[simp] theorem State.setPt_sw (p : Nat) (x : Pt) : (s.setPt p x).sw = s.sw := rfl
@[simp] theorem State.setPt_host (p : Nat) (x : Pt) : (s.setPt p x).host = s.host := rfl
@[simp] theorem State.setPt_msix (p : Nat) (x : Pt) : (s.setPt p x).msix = s.msix := rfl
@[simp] theorem State.setPt_hostMem (p : Nat) (x : Pt) : (s.setPt p x).hostMem = s.hostMem := rfl
@[simp] theorem State.setPt_flash (p : Nat) (x : Pt) : (s.setPt p x).flash = s.flash := rfl
@[simp] theorem State.setPt_dram (p : Nat) (x : Pt) : (s.setPt p x).dram = s.dram := rfl
@[simp] theorem State.setPt_pending (p : Nat) (x : Pt) : (s.setPt p x).pending = s.pending := rfl
@[simp] theorem State.setPt_rget (p : Nat) (x : Pt) (c : RegKey) : (s.setPt p x).rget c = s.rget c := rfl
@[simp] theorem State.setPt_fget (p : Nat) (x : Pt) (f : Fld) (i j l : Nat) : (s.setPt p x).fget f i j l = s.fget f i j l := rfl
@[simp] theorem State.setPt_fbit (p : Nat) (x : Pt) (f : Fld) (i j l : Nat) : (s.setPt p x).fbit f i j l = s.fbit f i j l := rfl

/-! ### setSw -/

@[simp] theorem State.setSw_regs (x : Sw) : (s.setSw x).regs = s.regs := rfl
@[simp] theorem State.setSw_latches (x : Sw) : (s.setSw x).latches = s.latches := rfl
@[simp] theorem State.setSw_staging (x : Sw) : (s.setSw x).staging = s.staging := rfl
@[simp] theorem State.setSw_cyc (x : Sw) : (s.setSw x).cyc = s.cyc := rfl
@[simp] theorem State.setSw_resp (x : Sw) : (s.setSw x).resp = s.resp := rfl
@[simp] theorem State.setSw_tickNo (x : Sw) : (s.setSw x).tickNo = s.tickNo := rfl
@[simp] theorem State.setSw_free (x : Sw) : (s.setSw x).free = s.free := rfl
@[simp] theorem State.setSw_glb (x : Sw) : (s.setSw x).glb = s.glb := rfl
@[simp] theorem State.setSw_time (x : Sw) : (s.setSw x).time = s.time := rfl
@[simp] theorem State.setSw_tsyn (x : Sw) : (s.setSw x).tsyn = s.tsyn := rfl
@[simp] theorem State.setSw_csyn (x : Sw) : (s.setSw x).csyn = s.csyn := rfl
@[simp] theorem State.setSw_osyn (x : Sw) : (s.setSw x).osyn = s.osyn := rfl
@[simp] theorem State.setSw_eo (x : Sw) : (s.setSw x).eo = s.eo := rfl
@[simp] theorem State.setSw_qres (x : Sw) : (s.setSw x).qres = s.qres := rfl
@[simp] theorem State.setSw_tiu (x : Sw) : (s.setSw x).tiu = s.tiu := rfl
@[simp] theorem State.setSw_tal (x : Sw) : (s.setSw x).tal = s.tal := rfl
@[simp] theorem State.setSw_dw (x : Sw) : (s.setSw x).dw = s.dw := rfl
@[simp] theorem State.setSw_drv (x : Sw) : (s.setSw x).drv = s.drv := rfl
@[simp] theorem State.setSw_bbr (x : Sw) : (s.setSw x).bbr = s.bbr := rfl
@[simp] theorem State.setSw_flt (x : Sw) : (s.setSw x).flt = s.flt := rfl
@[simp] theorem State.setSw_cal (x : Sw) : (s.setSw x).cal = s.cal := rfl
@[simp] theorem State.setSw_bw (x : Sw) : (s.setSw x).bw = s.bw := rfl
@[simp] theorem State.setSw_nt (x : Sw) : (s.setSw x).nt = s.nt := rfl
@[simp] theorem State.setSw_pt (x : Sw) : (s.setSw x).pt = s.pt := rfl
@[simp] theorem State.setSw_elm (x : Sw) : (s.setSw x).elm = s.elm := rfl
@[simp] theorem State.setSw_sw (x : Sw) : (s.setSw x).sw = x := rfl
@[simp] theorem State.setSw_host (x : Sw) : (s.setSw x).host = s.host := rfl
@[simp] theorem State.setSw_msix (x : Sw) : (s.setSw x).msix = s.msix := rfl
@[simp] theorem State.setSw_hostMem (x : Sw) : (s.setSw x).hostMem = s.hostMem := rfl
@[simp] theorem State.setSw_flash (x : Sw) : (s.setSw x).flash = s.flash := rfl
@[simp] theorem State.setSw_dram (x : Sw) : (s.setSw x).dram = s.dram := rfl
@[simp] theorem State.setSw_pending (x : Sw) : (s.setSw x).pending = s.pending := rfl
@[simp] theorem State.setSw_rget (x : Sw) (c : RegKey) : (s.setSw x).rget c = s.rget c := rfl
@[simp] theorem State.setSw_fget (x : Sw) (f : Fld) (i j l : Nat) : (s.setSw x).fget f i j l = s.fget f i j l := rfl
@[simp] theorem State.setSw_fbit (x : Sw) (f : Fld) (i j l : Nat) : (s.setSw x).fbit f i j l = s.fbit f i j l := rfl

/-! ### setSwPort -/

@[simp] theorem State.setSwPort_regs (p : Nat) (x : SwPort) : (s.setSwPort p x).regs = s.regs := rfl
@[simp] theorem State.setSwPort_latches (p : Nat) (x : SwPort) : (s.setSwPort p x).latches = s.latches := rfl
@[simp] theorem State.setSwPort_staging (p : Nat) (x : SwPort) : (s.setSwPort p x).staging = s.staging := rfl
@[simp] theorem State.setSwPort_cyc (p : Nat) (x : SwPort) : (s.setSwPort p x).cyc = s.cyc := rfl
@[simp] theorem State.setSwPort_resp (p : Nat) (x : SwPort) : (s.setSwPort p x).resp = s.resp := rfl
@[simp] theorem State.setSwPort_tickNo (p : Nat) (x : SwPort) : (s.setSwPort p x).tickNo = s.tickNo := rfl
@[simp] theorem State.setSwPort_free (p : Nat) (x : SwPort) : (s.setSwPort p x).free = s.free := rfl
@[simp] theorem State.setSwPort_glb (p : Nat) (x : SwPort) : (s.setSwPort p x).glb = s.glb := rfl
@[simp] theorem State.setSwPort_time (p : Nat) (x : SwPort) : (s.setSwPort p x).time = s.time := rfl
@[simp] theorem State.setSwPort_tsyn (p : Nat) (x : SwPort) : (s.setSwPort p x).tsyn = s.tsyn := rfl
@[simp] theorem State.setSwPort_csyn (p : Nat) (x : SwPort) : (s.setSwPort p x).csyn = s.csyn := rfl
@[simp] theorem State.setSwPort_osyn (p : Nat) (x : SwPort) : (s.setSwPort p x).osyn = s.osyn := rfl
@[simp] theorem State.setSwPort_eo (p : Nat) (x : SwPort) : (s.setSwPort p x).eo = s.eo := rfl
@[simp] theorem State.setSwPort_qres (p : Nat) (x : SwPort) : (s.setSwPort p x).qres = s.qres := rfl
@[simp] theorem State.setSwPort_tiu (p : Nat) (x : SwPort) : (s.setSwPort p x).tiu = s.tiu := rfl
@[simp] theorem State.setSwPort_tal (p : Nat) (x : SwPort) : (s.setSwPort p x).tal = s.tal := rfl
@[simp] theorem State.setSwPort_dw (p : Nat) (x : SwPort) : (s.setSwPort p x).dw = s.dw := rfl
@[simp] theorem State.setSwPort_drv (p : Nat) (x : SwPort) : (s.setSwPort p x).drv = s.drv := rfl
@[simp] theorem State.setSwPort_bbr (p : Nat) (x : SwPort) : (s.setSwPort p x).bbr = s.bbr := rfl
@[simp] theorem State.setSwPort_flt (p : Nat) (x : SwPort) : (s.setSwPort p x).flt = s.flt := rfl
@[simp] theorem State.setSwPort_cal (p : Nat) (x : SwPort) : (s.setSwPort p x).cal = s.cal := rfl
@[simp] theorem State.setSwPort_bw (p : Nat) (x : SwPort) : (s.setSwPort p x).bw = s.bw := rfl
@[simp] theorem State.setSwPort_nt (p : Nat) (x : SwPort) : (s.setSwPort p x).nt = s.nt := rfl
@[simp] theorem State.setSwPort_pt (p : Nat) (x : SwPort) : (s.setSwPort p x).pt = s.pt := rfl
@[simp] theorem State.setSwPort_elm (p : Nat) (x : SwPort) : (s.setSwPort p x).elm = s.elm := rfl
@[simp] theorem State.setSwPort_host (p : Nat) (x : SwPort) : (s.setSwPort p x).host = s.host := rfl
@[simp] theorem State.setSwPort_msix (p : Nat) (x : SwPort) : (s.setSwPort p x).msix = s.msix := rfl
@[simp] theorem State.setSwPort_hostMem (p : Nat) (x : SwPort) : (s.setSwPort p x).hostMem = s.hostMem := rfl
@[simp] theorem State.setSwPort_flash (p : Nat) (x : SwPort) : (s.setSwPort p x).flash = s.flash := rfl
@[simp] theorem State.setSwPort_dram (p : Nat) (x : SwPort) : (s.setSwPort p x).dram = s.dram := rfl
@[simp] theorem State.setSwPort_pending (p : Nat) (x : SwPort) : (s.setSwPort p x).pending = s.pending := rfl
@[simp] theorem State.setSwPort_rget (p : Nat) (x : SwPort) (c : RegKey) : (s.setSwPort p x).rget c = s.rget c := rfl
@[simp] theorem State.setSwPort_fget (p : Nat) (x : SwPort) (f : Fld) (i j l : Nat) : (s.setSwPort p x).fget f i j l = s.fget f i j l := rfl
@[simp] theorem State.setSwPort_fbit (p : Nat) (x : SwPort) (f : Fld) (i j l : Nat) : (s.setSwPort p x).fbit f i j l = s.fbit f i j l := rfl

/-! ### setHost -/

@[simp] theorem State.setHost_regs (x : HostIf) : (s.setHost x).regs = s.regs := rfl
@[simp] theorem State.setHost_latches (x : HostIf) : (s.setHost x).latches = s.latches := rfl
@[simp] theorem State.setHost_staging (x : HostIf) : (s.setHost x).staging = s.staging := rfl
@[simp] theorem State.setHost_cyc (x : HostIf) : (s.setHost x).cyc = s.cyc := rfl
@[simp] theorem State.setHost_resp (x : HostIf) : (s.setHost x).resp = s.resp := rfl
@[simp] theorem State.setHost_tickNo (x : HostIf) : (s.setHost x).tickNo = s.tickNo := rfl
@[simp] theorem State.setHost_free (x : HostIf) : (s.setHost x).free = s.free := rfl
@[simp] theorem State.setHost_glb (x : HostIf) : (s.setHost x).glb = s.glb := rfl
@[simp] theorem State.setHost_time (x : HostIf) : (s.setHost x).time = s.time := rfl
@[simp] theorem State.setHost_tsyn (x : HostIf) : (s.setHost x).tsyn = s.tsyn := rfl
@[simp] theorem State.setHost_csyn (x : HostIf) : (s.setHost x).csyn = s.csyn := rfl
@[simp] theorem State.setHost_osyn (x : HostIf) : (s.setHost x).osyn = s.osyn := rfl
@[simp] theorem State.setHost_eo (x : HostIf) : (s.setHost x).eo = s.eo := rfl
@[simp] theorem State.setHost_qres (x : HostIf) : (s.setHost x).qres = s.qres := rfl
@[simp] theorem State.setHost_tiu (x : HostIf) : (s.setHost x).tiu = s.tiu := rfl
@[simp] theorem State.setHost_tal (x : HostIf) : (s.setHost x).tal = s.tal := rfl
@[simp] theorem State.setHost_dw (x : HostIf) : (s.setHost x).dw = s.dw := rfl
@[simp] theorem State.setHost_drv (x : HostIf) : (s.setHost x).drv = s.drv := rfl
@[simp] theorem State.setHost_bbr (x : HostIf) : (s.setHost x).bbr = s.bbr := rfl
@[simp] theorem State.setHost_flt (x : HostIf) : (s.setHost x).flt = s.flt := rfl
@[simp] theorem State.setHost_cal (x : HostIf) : (s.setHost x).cal = s.cal := rfl
@[simp] theorem State.setHost_bw (x : HostIf) : (s.setHost x).bw = s.bw := rfl
@[simp] theorem State.setHost_nt (x : HostIf) : (s.setHost x).nt = s.nt := rfl
@[simp] theorem State.setHost_pt (x : HostIf) : (s.setHost x).pt = s.pt := rfl
@[simp] theorem State.setHost_elm (x : HostIf) : (s.setHost x).elm = s.elm := rfl
@[simp] theorem State.setHost_sw (x : HostIf) : (s.setHost x).sw = s.sw := rfl
@[simp] theorem State.setHost_host (x : HostIf) : (s.setHost x).host = x := rfl
@[simp] theorem State.setHost_msix (x : HostIf) : (s.setHost x).msix = s.msix := rfl
@[simp] theorem State.setHost_hostMem (x : HostIf) : (s.setHost x).hostMem = s.hostMem := rfl
@[simp] theorem State.setHost_flash (x : HostIf) : (s.setHost x).flash = s.flash := rfl
@[simp] theorem State.setHost_dram (x : HostIf) : (s.setHost x).dram = s.dram := rfl
@[simp] theorem State.setHost_pending (x : HostIf) : (s.setHost x).pending = s.pending := rfl
@[simp] theorem State.setHost_rget (x : HostIf) (c : RegKey) : (s.setHost x).rget c = s.rget c := rfl
@[simp] theorem State.setHost_fget (x : HostIf) (f : Fld) (i j l : Nat) : (s.setHost x).fget f i j l = s.fget f i j l := rfl
@[simp] theorem State.setHost_fbit (x : HostIf) (f : Fld) (i j l : Nat) : (s.setHost x).fbit f i j l = s.fbit f i j l := rfl

/-! ### setMbox -/

@[simp] theorem State.setMbox_regs (x : Mbox) : (s.setMbox x).regs = s.regs := rfl
@[simp] theorem State.setMbox_latches (x : Mbox) : (s.setMbox x).latches = s.latches := rfl
@[simp] theorem State.setMbox_staging (x : Mbox) : (s.setMbox x).staging = s.staging := rfl
@[simp] theorem State.setMbox_cyc (x : Mbox) : (s.setMbox x).cyc = s.cyc := rfl
@[simp] theorem State.setMbox_resp (x : Mbox) : (s.setMbox x).resp = s.resp := rfl
@[simp] theorem State.setMbox_tickNo (x : Mbox) : (s.setMbox x).tickNo = s.tickNo := rfl
@[simp] theorem State.setMbox_free (x : Mbox) : (s.setMbox x).free = s.free := rfl
@[simp] theorem State.setMbox_glb (x : Mbox) : (s.setMbox x).glb = s.glb := rfl
@[simp] theorem State.setMbox_time (x : Mbox) : (s.setMbox x).time = s.time := rfl
@[simp] theorem State.setMbox_tsyn (x : Mbox) : (s.setMbox x).tsyn = s.tsyn := rfl
@[simp] theorem State.setMbox_csyn (x : Mbox) : (s.setMbox x).csyn = s.csyn := rfl
@[simp] theorem State.setMbox_osyn (x : Mbox) : (s.setMbox x).osyn = s.osyn := rfl
@[simp] theorem State.setMbox_eo (x : Mbox) : (s.setMbox x).eo = s.eo := rfl
@[simp] theorem State.setMbox_qres (x : Mbox) : (s.setMbox x).qres = s.qres := rfl
@[simp] theorem State.setMbox_tiu (x : Mbox) : (s.setMbox x).tiu = s.tiu := rfl
@[simp] theorem State.setMbox_tal (x : Mbox) : (s.setMbox x).tal = s.tal := rfl
@[simp] theorem State.setMbox_dw (x : Mbox) : (s.setMbox x).dw = s.dw := rfl
@[simp] theorem State.setMbox_drv (x : Mbox) : (s.setMbox x).drv = s.drv := rfl
@[simp] theorem State.setMbox_bbr (x : Mbox) : (s.setMbox x).bbr = s.bbr := rfl
@[simp] theorem State.setMbox_flt (x : Mbox) : (s.setMbox x).flt = s.flt := rfl
@[simp] theorem State.setMbox_cal (x : Mbox) : (s.setMbox x).cal = s.cal := rfl
@[simp] theorem State.setMbox_bw (x : Mbox) : (s.setMbox x).bw = s.bw := rfl
@[simp] theorem State.setMbox_nt (x : Mbox) : (s.setMbox x).nt = s.nt := rfl
@[simp] theorem State.setMbox_pt (x : Mbox) : (s.setMbox x).pt = s.pt := rfl
@[simp] theorem State.setMbox_elm (x : Mbox) : (s.setMbox x).elm = s.elm := rfl
@[simp] theorem State.setMbox_sw (x : Mbox) : (s.setMbox x).sw = s.sw := rfl
@[simp] theorem State.setMbox_msix (x : Mbox) : (s.setMbox x).msix = s.msix := rfl
@[simp] theorem State.setMbox_hostMem (x : Mbox) : (s.setMbox x).hostMem = s.hostMem := rfl
@[simp] theorem State.setMbox_flash (x : Mbox) : (s.setMbox x).flash = s.flash := rfl
@[simp] theorem State.setMbox_dram (x : Mbox) : (s.setMbox x).dram = s.dram := rfl
@[simp] theorem State.setMbox_pending (x : Mbox) : (s.setMbox x).pending = s.pending := rfl
@[simp] theorem State.setMbox_rget (x : Mbox) (c : RegKey) : (s.setMbox x).rget c = s.rget c := rfl
@[simp] theorem State.setMbox_fget (x : Mbox) (f : Fld) (i j l : Nat) : (s.setMbox x).fget f i j l = s.fget f i j l := rfl
@[simp] theorem State.setMbox_fbit (x : Mbox) (f : Fld) (i j l : Nat) : (s.setMbox x).fbit f i j l = s.fbit f i j l := rfl

/-! ### setRing -/

@[simp] theorem State.setRing_regs (n : Nat) (x : Ring) : (s.setRing n x).regs = s.regs := rfl
@[simp] theorem State.setRing_latches (n : Nat) (x : Ring) : (s.setRing n x).latches = s.latches := rfl
@[simp] theorem State.setRing_staging (n : Nat) (x : Ring) : (s.setRing n x).staging = s.staging := rfl
@[simp] theorem State.setRing_cyc (n : Nat) (x : Ring) : (s.setRing n x).cyc = s.cyc := rfl
@[simp] theorem State.setRing_resp (n : Nat) (x : Ring) : (s.setRing n x).resp = s.resp := rfl
@[simp] theorem State.setRing_tickNo (n : Nat) (x : Ring) : (s.setRing n x).tickNo = s.tickNo := rfl
@[simp] theorem State.setRing_free (n : Nat) (x : Ring) : (s.setRing n x).free = s.free := rfl
@[simp] theorem State.setRing_glb (n : Nat) (x : Ring) : (s.setRing n x).glb = s.glb := rfl
@[simp] theorem State.setRing_time (n : Nat) (x : Ring) : (s.setRing n x).time = s.time := rfl
@[simp] theorem State.setRing_tsyn (n : Nat) (x : Ring) : (s.setRing n x).tsyn = s.tsyn := rfl
@[simp] theorem State.setRing_csyn (n : Nat) (x : Ring) : (s.setRing n x).csyn = s.csyn := rfl
@[simp] theorem State.setRing_osyn (n : Nat) (x : Ring) : (s.setRing n x).osyn = s.osyn := rfl
@[simp] theorem State.setRing_eo (n : Nat) (x : Ring) : (s.setRing n x).eo = s.eo := rfl
@[simp] theorem State.setRing_qres (n : Nat) (x : Ring) : (s.setRing n x).qres = s.qres := rfl
@[simp] theorem State.setRing_tiu (n : Nat) (x : Ring) : (s.setRing n x).tiu = s.tiu := rfl
@[simp] theorem State.setRing_tal (n : Nat) (x : Ring) : (s.setRing n x).tal = s.tal := rfl
@[simp] theorem State.setRing_dw (n : Nat) (x : Ring) : (s.setRing n x).dw = s.dw := rfl
@[simp] theorem State.setRing_drv (n : Nat) (x : Ring) : (s.setRing n x).drv = s.drv := rfl
@[simp] theorem State.setRing_bbr (n : Nat) (x : Ring) : (s.setRing n x).bbr = s.bbr := rfl
@[simp] theorem State.setRing_flt (n : Nat) (x : Ring) : (s.setRing n x).flt = s.flt := rfl
@[simp] theorem State.setRing_cal (n : Nat) (x : Ring) : (s.setRing n x).cal = s.cal := rfl
@[simp] theorem State.setRing_bw (n : Nat) (x : Ring) : (s.setRing n x).bw = s.bw := rfl
@[simp] theorem State.setRing_nt (n : Nat) (x : Ring) : (s.setRing n x).nt = s.nt := rfl
@[simp] theorem State.setRing_pt (n : Nat) (x : Ring) : (s.setRing n x).pt = s.pt := rfl
@[simp] theorem State.setRing_elm (n : Nat) (x : Ring) : (s.setRing n x).elm = s.elm := rfl
@[simp] theorem State.setRing_sw (n : Nat) (x : Ring) : (s.setRing n x).sw = s.sw := rfl
@[simp] theorem State.setRing_msix (n : Nat) (x : Ring) : (s.setRing n x).msix = s.msix := rfl
@[simp] theorem State.setRing_hostMem (n : Nat) (x : Ring) : (s.setRing n x).hostMem = s.hostMem := rfl
@[simp] theorem State.setRing_flash (n : Nat) (x : Ring) : (s.setRing n x).flash = s.flash := rfl
@[simp] theorem State.setRing_dram (n : Nat) (x : Ring) : (s.setRing n x).dram = s.dram := rfl
@[simp] theorem State.setRing_pending (n : Nat) (x : Ring) : (s.setRing n x).pending = s.pending := rfl
@[simp] theorem State.setRing_rget (n : Nat) (x : Ring) (c : RegKey) : (s.setRing n x).rget c = s.rget c := rfl
@[simp] theorem State.setRing_fget (n : Nat) (x : Ring) (f : Fld) (i j l : Nat) : (s.setRing n x).fget f i j l = s.fget f i j l := rfl
@[simp] theorem State.setRing_fbit (n : Nat) (x : Ring) (f : Fld) (i j l : Nat) : (s.setRing n x).fbit f i j l = s.fbit f i j l := rfl

/-! ### setJtag -/

@[simp] theorem State.setJtag_regs (x : Jtag) : (s.setJtag x).regs = s.regs := rfl
@[simp] theorem State.setJtag_latches (x : Jtag) : (s.setJtag x).latches = s.latches := rfl
@[simp] theorem State.setJtag_staging (x : Jtag) : (s.setJtag x).staging = s.staging := rfl
@[simp] theorem State.setJtag_cyc (x : Jtag) : (s.setJtag x).cyc = s.cyc := rfl
@[simp] theorem State.setJtag_resp (x : Jtag) : (s.setJtag x).resp = s.resp := rfl
@[simp] theorem State.setJtag_tickNo (x : Jtag) : (s.setJtag x).tickNo = s.tickNo := rfl
@[simp] theorem State.setJtag_free (x : Jtag) : (s.setJtag x).free = s.free := rfl
@[simp] theorem State.setJtag_glb (x : Jtag) : (s.setJtag x).glb = s.glb := rfl
@[simp] theorem State.setJtag_time (x : Jtag) : (s.setJtag x).time = s.time := rfl
@[simp] theorem State.setJtag_tsyn (x : Jtag) : (s.setJtag x).tsyn = s.tsyn := rfl
@[simp] theorem State.setJtag_csyn (x : Jtag) : (s.setJtag x).csyn = s.csyn := rfl
@[simp] theorem State.setJtag_osyn (x : Jtag) : (s.setJtag x).osyn = s.osyn := rfl
@[simp] theorem State.setJtag_eo (x : Jtag) : (s.setJtag x).eo = s.eo := rfl
@[simp] theorem State.setJtag_qres (x : Jtag) : (s.setJtag x).qres = s.qres := rfl
@[simp] theorem State.setJtag_tiu (x : Jtag) : (s.setJtag x).tiu = s.tiu := rfl
@[simp] theorem State.setJtag_tal (x : Jtag) : (s.setJtag x).tal = s.tal := rfl
@[simp] theorem State.setJtag_dw (x : Jtag) : (s.setJtag x).dw = s.dw := rfl
@[simp] theorem State.setJtag_drv (x : Jtag) : (s.setJtag x).drv = s.drv := rfl
@[simp] theorem State.setJtag_bbr (x : Jtag) : (s.setJtag x).bbr = s.bbr := rfl
@[simp] theorem State.setJtag_flt (x : Jtag) : (s.setJtag x).flt = s.flt := rfl
@[simp] theorem State.setJtag_cal (x : Jtag) : (s.setJtag x).cal = s.cal := rfl
@[simp] theorem State.setJtag_bw (x : Jtag) : (s.setJtag x).bw = s.bw := rfl
@[simp] theorem State.setJtag_nt (x : Jtag) : (s.setJtag x).nt = s.nt := rfl
@[simp] theorem State.setJtag_pt (x : Jtag) : (s.setJtag x).pt = s.pt := rfl
@[simp] theorem State.setJtag_elm (x : Jtag) : (s.setJtag x).elm = s.elm := rfl
@[simp] theorem State.setJtag_sw (x : Jtag) : (s.setJtag x).sw = s.sw := rfl
@[simp] theorem State.setJtag_msix (x : Jtag) : (s.setJtag x).msix = s.msix := rfl
@[simp] theorem State.setJtag_hostMem (x : Jtag) : (s.setJtag x).hostMem = s.hostMem := rfl
@[simp] theorem State.setJtag_flash (x : Jtag) : (s.setJtag x).flash = s.flash := rfl
@[simp] theorem State.setJtag_dram (x : Jtag) : (s.setJtag x).dram = s.dram := rfl
@[simp] theorem State.setJtag_pending (x : Jtag) : (s.setJtag x).pending = s.pending := rfl
@[simp] theorem State.setJtag_rget (x : Jtag) (c : RegKey) : (s.setJtag x).rget c = s.rget c := rfl
@[simp] theorem State.setJtag_fget (x : Jtag) (f : Fld) (i j l : Nat) : (s.setJtag x).fget f i j l = s.fget f i j l := rfl
@[simp] theorem State.setJtag_fbit (x : Jtag) (f : Fld) (i j l : Nat) : (s.setJtag x).fbit f i j l = s.fbit f i j l := rfl

/-! ### setDram -/

@[simp] theorem State.setDram_regs (m : Memory) : (s.setDram m).regs = s.regs := rfl
@[simp] theorem State.setDram_latches (m : Memory) : (s.setDram m).latches = s.latches := rfl
@[simp] theorem State.setDram_staging (m : Memory) : (s.setDram m).staging = s.staging := rfl
@[simp] theorem State.setDram_cyc (m : Memory) : (s.setDram m).cyc = s.cyc := rfl
@[simp] theorem State.setDram_resp (m : Memory) : (s.setDram m).resp = s.resp := rfl
@[simp] theorem State.setDram_tickNo (m : Memory) : (s.setDram m).tickNo = s.tickNo := rfl
@[simp] theorem State.setDram_free (m : Memory) : (s.setDram m).free = s.free := rfl
@[simp] theorem State.setDram_glb (m : Memory) : (s.setDram m).glb = s.glb := rfl
@[simp] theorem State.setDram_time (m : Memory) : (s.setDram m).time = s.time := rfl
@[simp] theorem State.setDram_tsyn (m : Memory) : (s.setDram m).tsyn = s.tsyn := rfl
@[simp] theorem State.setDram_csyn (m : Memory) : (s.setDram m).csyn = s.csyn := rfl
@[simp] theorem State.setDram_osyn (m : Memory) : (s.setDram m).osyn = s.osyn := rfl
@[simp] theorem State.setDram_eo (m : Memory) : (s.setDram m).eo = s.eo := rfl
@[simp] theorem State.setDram_qres (m : Memory) : (s.setDram m).qres = s.qres := rfl
@[simp] theorem State.setDram_tiu (m : Memory) : (s.setDram m).tiu = s.tiu := rfl
@[simp] theorem State.setDram_tal (m : Memory) : (s.setDram m).tal = s.tal := rfl
@[simp] theorem State.setDram_dw (m : Memory) : (s.setDram m).dw = s.dw := rfl
@[simp] theorem State.setDram_drv (m : Memory) : (s.setDram m).drv = s.drv := rfl
@[simp] theorem State.setDram_bbr (m : Memory) : (s.setDram m).bbr = s.bbr := rfl
@[simp] theorem State.setDram_flt (m : Memory) : (s.setDram m).flt = s.flt := rfl
@[simp] theorem State.setDram_cal (m : Memory) : (s.setDram m).cal = s.cal := rfl
@[simp] theorem State.setDram_bw (m : Memory) : (s.setDram m).bw = s.bw := rfl
@[simp] theorem State.setDram_nt (m : Memory) : (s.setDram m).nt = s.nt := rfl
@[simp] theorem State.setDram_pt (m : Memory) : (s.setDram m).pt = s.pt := rfl
@[simp] theorem State.setDram_elm (m : Memory) : (s.setDram m).elm = s.elm := rfl
@[simp] theorem State.setDram_sw (m : Memory) : (s.setDram m).sw = s.sw := rfl
@[simp] theorem State.setDram_host (m : Memory) : (s.setDram m).host = s.host := rfl
@[simp] theorem State.setDram_msix (m : Memory) : (s.setDram m).msix = s.msix := rfl
@[simp] theorem State.setDram_hostMem (m : Memory) : (s.setDram m).hostMem = s.hostMem := rfl
@[simp] theorem State.setDram_flash (m : Memory) : (s.setDram m).flash = s.flash := rfl
@[simp] theorem State.setDram_dram (m : Memory) : (s.setDram m).dram = m := rfl
@[simp] theorem State.setDram_pending (m : Memory) : (s.setDram m).pending = s.pending := rfl
@[simp] theorem State.setDram_rget (m : Memory) (c : RegKey) : (s.setDram m).rget c = s.rget c := rfl
@[simp] theorem State.setDram_fget (m : Memory) (f : Fld) (i j l : Nat) : (s.setDram m).fget f i j l = s.fget f i j l := rfl
@[simp] theorem State.setDram_fbit (m : Memory) (f : Fld) (i j l : Nat) : (s.setDram m).fbit f i j l = s.fbit f i j l := rfl

/-! ### withQueue -/

@[simp] theorem State.withQueue_regs (x : List Instr) : (s.withQueue x).regs = s.regs := rfl
@[simp] theorem State.withQueue_latches (x : List Instr) : (s.withQueue x).latches = s.latches := rfl
@[simp] theorem State.withQueue_staging (x : List Instr) : (s.withQueue x).staging = s.staging := rfl
@[simp] theorem State.withQueue_cyc (x : List Instr) : (s.withQueue x).cyc = s.cyc := rfl
@[simp] theorem State.withQueue_resp (x : List Instr) : (s.withQueue x).resp = s.resp := rfl
@[simp] theorem State.withQueue_tickNo (x : List Instr) : (s.withQueue x).tickNo = s.tickNo := rfl
@[simp] theorem State.withQueue_free (x : List Instr) : (s.withQueue x).free = s.free := rfl
@[simp] theorem State.withQueue_glb (x : List Instr) : (s.withQueue x).glb = s.glb := rfl
@[simp] theorem State.withQueue_time (x : List Instr) : (s.withQueue x).time = s.time := rfl
@[simp] theorem State.withQueue_tsyn (x : List Instr) : (s.withQueue x).tsyn = s.tsyn := rfl
@[simp] theorem State.withQueue_csyn (x : List Instr) : (s.withQueue x).csyn = s.csyn := rfl
@[simp] theorem State.withQueue_osyn (x : List Instr) : (s.withQueue x).osyn = s.osyn := rfl
@[simp] theorem State.withQueue_eo (x : List Instr) : (s.withQueue x).eo = s.eo := rfl
@[simp] theorem State.withQueue_qres (x : List Instr) : (s.withQueue x).qres = s.qres := rfl
@[simp] theorem State.withQueue_tiu (x : List Instr) : (s.withQueue x).tiu = s.tiu := rfl
@[simp] theorem State.withQueue_tal (x : List Instr) : (s.withQueue x).tal = s.tal := rfl
@[simp] theorem State.withQueue_dw (x : List Instr) : (s.withQueue x).dw = s.dw := rfl
@[simp] theorem State.withQueue_drv (x : List Instr) : (s.withQueue x).drv = s.drv := rfl
@[simp] theorem State.withQueue_bbr (x : List Instr) : (s.withQueue x).bbr = s.bbr := rfl
@[simp] theorem State.withQueue_flt (x : List Instr) : (s.withQueue x).flt = s.flt := rfl
@[simp] theorem State.withQueue_cal (x : List Instr) : (s.withQueue x).cal = s.cal := rfl
@[simp] theorem State.withQueue_bw (x : List Instr) : (s.withQueue x).bw = s.bw := rfl
@[simp] theorem State.withQueue_nt (x : List Instr) : (s.withQueue x).nt = s.nt := rfl
@[simp] theorem State.withQueue_pt (x : List Instr) : (s.withQueue x).pt = s.pt := rfl
@[simp] theorem State.withQueue_elm (x : List Instr) : (s.withQueue x).elm = s.elm := rfl
@[simp] theorem State.withQueue_sw (x : List Instr) : (s.withQueue x).sw = s.sw := rfl
@[simp] theorem State.withQueue_host (x : List Instr) : (s.withQueue x).host = s.host := rfl
@[simp] theorem State.withQueue_msix (x : List Instr) : (s.withQueue x).msix = s.msix := rfl
@[simp] theorem State.withQueue_hostMem (x : List Instr) : (s.withQueue x).hostMem = s.hostMem := rfl
@[simp] theorem State.withQueue_flash (x : List Instr) : (s.withQueue x).flash = s.flash := rfl
@[simp] theorem State.withQueue_dram (x : List Instr) : (s.withQueue x).dram = s.dram := rfl
@[simp] theorem State.withQueue_pending (x : List Instr) : (s.withQueue x).pending = x := rfl
@[simp] theorem State.withQueue_rget (x : List Instr) (c : RegKey) : (s.withQueue x).rget c = s.rget c := rfl
@[simp] theorem State.withQueue_fget (x : List Instr) (f : Fld) (i j l : Nat) : (s.withQueue x).fget f i j l = s.fget f i j l := rfl
@[simp] theorem State.withQueue_fbit (x : List Instr) (f : Fld) (i j l : Nat) : (s.withQueue x).fbit f i j l = s.fbit f i j l := rfl

end Sys2Proof.Machine
end

