-- ==== Sys2Proof/Laws/Regs.lean ====
section
/-! SUPPORT. Laws of bit fields and of the register file: what a read of a register or field gives after a write of one. -/

namespace Sys2Proof.Machine

/-! ### Bit fields -/

/-- A field just written reads the low bits of what was written. -/
@[simp] theorem bits_setBits_same (v hi lo x : Nat) (h : lo ≤ hi) : bits (setBits v hi lo x) hi lo = x % 2 ^ (hi + 1 - lo) := by
  have e : 2 ^ (hi + 1) = 2 ^ (hi + 1 - lo) * 2 ^ lo := by rw [← pow_add]; congr 1; omega
  have hlo : v % 2 ^ lo < 2 ^ lo := Nat.mod_lt _ (by positivity)
  unfold bits setBits
  rw [e]
  have e2 : v / (2 ^ (hi + 1 - lo) * 2 ^ lo) * (2 ^ (hi + 1 - lo) * 2 ^ lo) + x % 2 ^ (hi + 1 - lo) * 2 ^ lo + v % 2 ^ lo
      = v % 2 ^ lo + (v / (2 ^ (hi + 1 - lo) * 2 ^ lo) * 2 ^ (hi + 1 - lo) + x % 2 ^ (hi + 1 - lo)) * 2 ^ lo := by ring
  rw [e2, Nat.add_mul_div_right _ _ (by positivity), Nat.div_eq_of_lt hlo, zero_add, Nat.mul_add_mod_self_right, Nat.mod_mod]

/-- A field above the one written keeps its value. -/
theorem bits_setBits_above (v hi lo x hi2 lo2 : Nat) (h : lo ≤ hi) (ho : hi < lo2) :
    bits (setBits v hi lo x) hi2 lo2 = bits v hi2 lo2 := by
  have e : 2 ^ lo2 = 2 ^ (hi + 1) * 2 ^ (lo2 - (hi + 1)) := by rw [← pow_add]; congr 1; omega
  have e1 : 2 ^ (hi + 1) = 2 ^ (hi + 1 - lo) * 2 ^ lo := by rw [← pow_add]; congr 1; omega
  have hx : x % 2 ^ (hi + 1 - lo) * 2 ^ lo + v % 2 ^ lo < 2 ^ (hi + 1) := by
    have a : x % 2 ^ (hi + 1 - lo) < 2 ^ (hi + 1 - lo) := Nat.mod_lt _ (by positivity)
    have b : v % 2 ^ lo < 2 ^ lo := Nat.mod_lt _ (by positivity)
    have c : (x % 2 ^ (hi + 1 - lo) + 1) * 2 ^ lo ≤ 2 ^ (hi + 1 - lo) * 2 ^ lo := Nat.mul_le_mul_right _ a
    rw [Nat.add_mul, one_mul] at c
    omega
  unfold bits setBits
  congr 1
  rw [e, ← Nat.div_div_eq_div_mul, ← Nat.div_div_eq_div_mul, add_assoc, add_comm, Nat.add_mul_div_right _ _ (by positivity),
    Nat.div_eq_of_lt hx, zero_add]

/-- A field below the one written keeps its value. -/
theorem bits_setBits_below (v hi lo x hi2 lo2 : Nat) (h : lo ≤ hi) (ho : hi2 < lo) :
    bits (setBits v hi lo x) hi2 lo2 = bits v hi2 lo2 := by
  by_cases hl : hi2 + 1 ≤ lo2
  · have z : hi2 + 1 - lo2 = 0 := by omega
    simp [bits, z, Nat.mod_one]
  have e1 : 2 ^ (hi + 1) = 2 ^ (hi + 1 - lo) * 2 ^ lo := by rw [← pow_add]; congr 1; omega
  have m : setBits v hi lo x % 2 ^ lo = v % 2 ^ lo := by
    unfold setBits
    rw [e1, show v / (2 ^ (hi + 1 - lo) * 2 ^ lo) * (2 ^ (hi + 1 - lo) * 2 ^ lo) + x % 2 ^ (hi + 1 - lo) * 2 ^ lo + v % 2 ^ lo
      = v % 2 ^ lo + (v / (2 ^ (hi + 1 - lo) * 2 ^ lo) * 2 ^ (hi + 1 - lo) + x % 2 ^ (hi + 1 - lo)) * 2 ^ lo from by ring,
      Nat.add_mul_mod_self_right, Nat.mod_mod]
  have key : ∀ w : Nat, bits w hi2 lo2 = bits (w % 2 ^ lo) hi2 lo2 := by
    intro w
    unfold bits
    have e : 2 ^ lo = 2 ^ lo2 * 2 ^ (lo - lo2) := by rw [← pow_add]; congr 1; omega
    rw [e, Nat.mod_mul_right_div_self, Nat.mod_mod_of_dvd]
    exact pow_dvd_pow 2 (by omega)
  rw [key, m, ← key]

/-- One bit as a field of width 1. -/
theorem bit_eq_bits (v i : Nat) : bit v i = decide (bits v i i = 1) := by
  simp [bit, bits]

/-! ### The register file -/

/-- A register just written reads what was written. -/
@[simp] theorem State.rget_rset_same (s : State) (k : RegKey) (v : Nat) : (s.rset k v).rget k = v := by
  simp [State.rget, State.rset]

/-- A write leaves every other register alone. -/
theorem State.rget_rset_other (s : State) (k k2 : RegKey) (v : Nat) (h : k2 ≠ k) : (s.rset k v).rget k2 = s.rget k2 := by
  simp [State.rget, State.rset, SMap.get_put_other, h]

/-- Noting a hardware event changes no register. -/
@[simp] theorem State.rget_hwMark (s : State) (k c : RegKey) (m : Nat) : (s.hwMark k m).rget c = s.rget c := rfl

/-- A read after a write of a register. -/
theorem State.rget_rset (s : State) (k k2 : RegKey) (v : Nat) : (s.rset k v).rget k2 = if k2 = k then v else s.rget k2 := by
  by_cases h : k2 = k
  · subst h; simp
  · simp [h, State.rget_rset_other]

/-- A field just written reads the low bits of what was written. -/
theorem State.fget_fset_same (s : State) (f : Fld) (v i j k : Nat) (h : f.lo ≤ f.hi) :
    (s.fset f v i j k).fget f i j k = v % 2 ^ (f.hi + 1 - f.lo) := by
  simp [State.fget, State.fset, h]

/-- A status bit just set reads 1. -/
theorem State.fbit_fon_same (s : State) (f : Fld) (i j k : Nat) (h : f.hi = f.lo) : (s.fon f i j k).fbit f i j k = true := by
  have hb := State.fget_fset_same s f 1 i j k (by omega)
  simp only [State.fget, h, Nat.add_sub_cancel_left, pow_one] at hb
  simp [State.fon, State.rget_hwMark, State.fbit, bit_eq_bits, hb]

/-- Writing a field of one register leaves every other register alone. -/
theorem State.rget_fset_other (s : State) (f : Fld) (v i j k : Nat) (c : RegKey) (h : c ≠ ⟨f.reg, i, j, k⟩) :
    (s.fset f v i j k).rget c = s.rget c := by
  simp [State.fset, State.rget_rset_other, h]

end Sys2Proof.Machine
end

