-- ==== Sys2Proof/Laws/Barli.lean ====
section
/-! SUPPORT. Laws of the issue of a Barli instruction: what an issue and an instruction of one tick do to the state. -/

namespace Sys2Proof.Machine

/-! ### Drovers and tasks -/

@[simp] theorem State.getDrv_setDrv_same (s : State) (d : Nat) (x : Drover) : (s.setDrv d x).getDrv d = x := by
  simp [State.getDrv]

theorem State.getDrv_setDrv_other (s : State) (d e : Nat) (x : Drover) (h : e ≠ d) : (s.setDrv d x).getDrv e = s.getDrv e := by
  simp [State.getDrv, SMap.get_put_other, h]

@[simp] theorem State.getTask_setTask_same (s : State) (d k : Nat) (x : Task) : (s.setTask d k x).getTask d k = x := by
  simp [State.getTask, State.setTask]

theorem State.getTask_setTask_other (s : State) (d k j : Nat) (x : Task) (h : j ≠ k) :
    (s.setTask d k x).getTask d j = s.getTask d j := by
  simp [State.getTask, State.setTask, SMap.get_put_other, h]

theorem State.getDrv_setTask_other (s : State) (d k e : Nat) (x : Task) (h : e ≠ d) : (s.setTask d k x).getDrv e = s.getDrv e := by
  simp [State.setTask, State.getDrv_setDrv_other, h]

/-- Writing a task changes its Drover only in that task. -/
theorem State.getDrv_setTask (s : State) (d k : Nat) (x : Task) :
    (s.setTask d k x).getDrv d = { s.getDrv d with tasks := (s.getDrv d).tasks.put id {} k x } := by
  simp [State.setTask]

/-! ### The issue -/

@[simp] theorem State.markIssue_tickNo (s : State) (d k : Nat) : (s.markIssue d k).tickNo = s.tickNo := rfl
@[simp] theorem State.markIssue_time (s : State) (d k : Nat) : (s.markIssue d k).time = s.time := rfl
@[simp] theorem State.markIssue_dram (s : State) (d k : Nat) : (s.markIssue d k).dram = s.dram := rfl
@[simp] theorem State.markIssue_glb (s : State) (d k : Nat) : (s.markIssue d k).glb = s.glb := rfl
@[simp] theorem State.markIssue_eo (s : State) (d k : Nat) : (s.markIssue d k).eo = s.eo := rfl
@[simp] theorem State.markIssue_dw (s : State) (d k : Nat) : (s.markIssue d k).dw = s.dw := rfl

theorem State.markIssue_drv (s : State) (d k : Nat) :
    (s.markIssue d k).getDrv d = { s.getDrv d with last := k, issued := some s.tickNo } := by
  simp [State.markIssue, State.cnt64, State.getDrv]

@[simp] theorem State.markIssue_getTask (s : State) (d k j : Nat) : (s.markIssue d k).getTask d j = s.getTask d j := by
  simp [State.getTask, State.markIssue_drv]

theorem State.markIssue_rget (s : State) (d k : Nat) (c : RegKey) (h : c ≠ ⟨.drvCntIssue, d, 0, 0⟩) :
    (s.markIssue d k).rget c = s.rget c := by
  simp [State.markIssue, State.cnt64, State.rget_rset_other, h]

/-- A field of any register but DRV_CNT_ISSUE is as it was. -/
theorem State.markIssue_fget (s : State) (d k : Nat) (f : Fld) (i j l : Nat) (h : f.reg ≠ .drvCntIssue) :
    (s.markIssue d k).fget f i j l = s.fget f i j l := by
  unfold State.fget
  rw [State.markIssue_rget]
  intro e
  exact h (congrArg RegKey.r e)

theorem State.markIssue_fbit (s : State) (d k : Nat) (f : Fld) (i j l : Nat) (h : f.reg ≠ .drvCntIssue) :
    (s.markIssue d k).fbit f i j l = s.fbit f i j l := by
  unfold State.fbit
  rw [State.markIssue_rget]
  intro e
  exact h (congrArg RegKey.r e)

/-- A task that fires runs the effect of its instruction on the state in which the issue has counted. -/
theorem State.issue_of_fires (s : State) (d k : Nat) (w : Word) (f : State → State) (h : s.fires d k w = true) :
    s.issue d k {} w f = f (s.markIssue d k) := by
  unfold State.fires at h
  simp [State.issue, h, State.underEnv]

/-! ### What an instruction leaves alone -/

/-- The issue itself, and a write of the task that issued, are within the frame of an instruction. -/
theorem taskFrame_markIssue_setTask (s : State) (d k : Nat) (T : Task) : TaskFrame s ((s.markIssue d k).setTask d k T) d k where
  issue := {
    regs := fun c h => by simp [State.markIssue_rget, h]
    counted := by simp [State.markIssue, State.cnt64]
    drovers := fun e h => by
      rw [State.getDrv_setTask_other _ _ _ _ _ h]
      simp [State.markIssue, State.cnt64, State.getDrv, SMap.get_put_other, h]
    tasks := fun j h => by rw [State.getTask_setTask_other _ _ _ _ _ h, State.markIssue_getTask]
    imem := by rw [State.getDrv_setTask, State.markIssue_drv]
    check := by rw [State.getDrv_setTask, State.markIssue_drv]; exact ⟨rfl, rfl⟩
    round := by rw [State.getDrv_setTask, State.markIssue_drv]; exact ⟨rfl, rfl⟩ }
  rest := rfl
  dmem := by rw [State.getDrv_setTask, State.markIssue_drv]
  outs := by rw [State.getDrv_setTask, State.markIssue_drv]

/-- An instruction whose whole effect is a write of its task completes with that task and the frame. -/
theorem taskBecomes_of_exec (i : Instr) (s : State) (d k : Nat) (T : Task)
    (h : exec i s = .next ((s.markIssue d k).setTask d k T)) : TaskBecomes i s d k T :=
  ⟨_, h, State.getTask_setTask_same _ _ _ _, taskFrame_markIssue_setTask s d k T⟩

/-- A jump inside the program. -/
theorem State.goTo_inside (s : State) (d k target : Nat) (t : Task) (h : target < s.fget F.drvProg_LEN d) :
    s.goTo d k target t = s.setTask d k (t.again target s.tickNo) := by
  simp [State.goTo, h]

/-- A one-tick instruction of a task that fires, with the next index inside the program. -/
theorem State.taskDoes_issued (s : State) (d k : Nat) (f : Task → Task) (h : s.nextOk d k = true) :
    (s.markIssue d k).taskDoes d k f =
      (s.markIssue d k).setTask d k ((f (s.getTask d k)).again ((s.getTask d k).pc + 1) s.tickNo) := by
  simp only [State.nextOk, decide_eq_true_eq] at h
  simp only [State.taskDoes, State.markIssue_getTask]
  rw [State.goTo_inside _ _ _ _ _ (by rw [State.markIssue_fget _ _ _ _ _ _ _ (by decide)]; exact h)]
  rfl

/-- An instruction with an effect beyond its task, with the next index inside the program. -/
theorem State.inRange_issued (s : State) (d k : Nat) (f : State → State) (h : s.nextOk d k = true) :
    (s.markIssue d k).inRange d k f = f (s.markIssue d k) := by
  simp only [State.nextOk, decide_eq_true_eq] at h
  simp only [State.inRange, State.markIssue_getTask]
  rw [if_pos (by rw [State.markIssue_fget _ _ _ _ _ _ _ (by decide)]; exact h)]

/-- A one-tick register instruction that fires completes with its task changed and nothing else. -/
theorem taskBecomes_of_taskDoes (i : Instr) (s : State) (d k : Nat) (w : Word) (f : Task → Task) (T : Task)
    (he : exec i s = .next (s.issue d k {} w fun st => st.taskDoes d k f)) (hf : s.fires d k w = true) (hn : s.nextOk d k = true)
    (hT : (f (s.getTask d k)).again ((s.getTask d k).pc + 1) s.tickNo = T) : TaskBecomes i s d k T := by
  apply taskBecomes_of_exec
  rw [he, State.issue_of_fires _ _ _ _ _ hf, State.taskDoes_issued _ _ _ _ hn, hT]

end Sys2Proof.Machine
end

