-- ==== Sys2Proof/Laws/Image.lean ====
section
/-! SUPPORT. Laws of byte ranges and of the calibration image: what is stored reads back, where each part of an image lies, and that the
image of good values is accepted. -/

namespace Sys2Proof.Machine

/-! ### Byte ranges of a memory -/

/-- Storing a list of bytes leaves every byte outside it alone. -/
theorem memRead_memWriteBytes_other (unl : Byte) (bs : List Byte) (m : Memory) (a x : Nat) (h : Memory.wf unl m = true)
    (hx : x < a ∨ a + bs.length ≤ x) : memRead unl (memWriteBytes unl m a bs) x = memRead unl m x := by
  induction bs generalizing m a with
  | nil => rfl
  | cons b t ih =>
    simp only [List.length_cons] at hx
    rw [memWriteBytes, ih _ _ (memWrite_wf unl m a b h) (by omega)]
    exact memRead_memWrite_other unl m a x b (by omega) h

/-- A list of bytes stored reads back. -/
theorem memReadBytes_memWriteBytes (unl : Byte) (bs : List Byte) (m : Memory) (a : Nat) (h : Memory.wf unl m = true) :
    memReadBytes unl (memWriteBytes unl m a bs) a bs.length = bs := by
  induction bs generalizing m a with
  | nil => rfl
  | cons b t ih =>
    have hw := memWrite_wf unl m a b h
    rw [List.length_cons, memReadBytes, memWriteBytes, ih _ _ hw, memRead_memWriteBytes_other unl t _ _ a hw (by omega),
      memRead_memWrite_same unl m a b h]

/-- A range of bytes that a store does not touch reads as before. -/
theorem memReadBytes_congr (unl : Byte) (m m2 : Memory) (n a : Nat) (h : ∀ x, a ≤ x → x < a + n → memRead unl m x = memRead unl m2 x) :
    memReadBytes unl m a n = memReadBytes unl m2 a n := by
  induction n generalizing a with
  | zero => rfl
  | succ n ih =>
    rw [memReadBytes, memReadBytes, h a (by omega) (by omega), ih (a + 1) fun x h1 h2 => h x (by omega) (by omega)]

/-- The bytes of a part of a range. -/
theorem memReadBytes_part (unl : Byte) (m : Memory) (a k n l : Nat) (h : k + n ≤ l) :
    ((memReadBytes unl m a l).drop k).take n = memReadBytes unl m (a + k) n := by
  induction k generalizing a l with
  | zero =>
    simp only [List.drop_zero, Nat.add_zero]
    induction n generalizing a l with
    | zero => rfl
    | succ n ih =>
      obtain ⟨l, rfl⟩ : ∃ j, l = j + 1 := ⟨l - 1, by omega⟩
      rw [memReadBytes, memReadBytes, List.take_succ_cons, ih (a + 1) l (by omega)]
  | succ k ih =>
    obtain ⟨l, rfl⟩ : ∃ j, l = j + 1 := ⟨l - 1, by omega⟩
    rw [memReadBytes, List.drop_succ_cons, ih (a + 1) l (by omega)]
    congr 1
    omega

/-- A little-endian read is that of its bytes. -/
theorem memReadLE_bytes (unl : Byte) (m : Memory) (a n : Nat) :
    memReadLE unl m a n = ((memReadBytes unl m a n).map BitVec.toNat).foldr (fun x y => x + 256 * y) 0 := by
  induction n generalizing a with
  | zero => rfl
  | succ n ih => rw [memReadLE, memReadBytes, List.map_cons, List.foldr_cons, ih]

/-- A little-endian read inside a range whose bytes are known. -/
theorem memReadLE_at (unl : Byte) (m : Memory) (a k n l : Nat) (h : k + n ≤ l) :
    memReadLE unl m (a + k) n = leAt ((memReadBytes unl m a l).map BitVec.toNat) k n := by
  rw [memReadLE_bytes, ← memReadBytes_part unl m a k n l h, leAt, List.map_take, List.map_drop]

theorem map_toNat_toBytes (l : List Nat) (h : ∀ x ∈ l, x < 256) : (toBytes l).map BitVec.toNat = l := by
  induction l with
  | nil => rfl
  | cons x t ih =>
    have e : toBytes (x :: t) = BitVec.ofNat 8 x :: toBytes t := rfl
    rw [e, List.map_cons, ih fun y hy => h y (by simp [hy]), BitVec.toNat_ofNat, Nat.mod_eq_of_lt (h x (by simp))]

/-! ### Little-endian numbers in a list of bytes -/

theorem length_leBytes (n v : Nat) : (leBytes n v).length = n := by
  induction n generalizing v with
  | zero => rfl
  | succ n ih => simp [leBytes, ih]

theorem leBytes_lt (n v x : Nat) (h : x ∈ leBytes n v) : x < 256 := by
  induction n generalizing v with
  | zero => simp [leBytes] at h
  | succ n ih =>
    rcases List.mem_cons.mp h with rfl | h
    · exact Nat.mod_lt _ (by decide)
    · exact ih _ h

/-- A number written as bytes reads back, reduced to its width. -/
theorem leAt_leBytes (n v : Nat) (r : List Nat) : leAt (leBytes n v ++ r) 0 n = v % 256 ^ n := by
  induction n generalizing v with
  | zero => simp [leAt, Nat.mod_one]
  | succ n ih =>
    have h := ih (v / 256)
    simp only [leAt, List.drop_zero] at h ⊢
    rw [leBytes, List.cons_append, List.take_succ_cons, List.foldr_cons, h, Nat.pow_succ, Nat.mul_comm (256 ^ n), Nat.mod_mul]

/-- A number behind a list. -/
theorem leAt_append_right (a b : List Nat) (k n : Nat) : leAt (a ++ b) (a.length + k) n = leAt b k n := by
  simp [leAt, List.drop_append, List.drop_eq_nil_of_le]

/-- A number inside the first of two lists. -/
theorem leAt_append_left (a b : List Nat) (k n : Nat) (h : k + n ≤ a.length) : leAt (a ++ b) k n = leAt a k n := by
  simp only [leAt]
  rw [List.drop_append_of_le_length (by omega), List.take_append_of_le_length (by simp; omega)]

theorem length_flatMap_range (f : Nat → List Nat) (l : Nat) (h : ∀ j, (f j).length = l) (m : Nat) :
    ((List.range m).flatMap f).length = m * l := by
  induction m with
  | zero => simp
  | succ m ih => simp [List.range_succ, ih, h, Nat.succ_mul]

/-- A number inside the j-th of parts of one length. -/
theorem leAt_flatMap (f : Nat → List Nat) (l : Nat) (h : ∀ j, (f j).length = l) (m j k n : Nat) (hj : j < m) (hk : k + n ≤ l) :
    leAt ((List.range m).flatMap f) (j * l + k) n = leAt (f j) k n := by
  induction m with
  | zero => omega
  | succ m ih =>
    have hl := length_flatMap_range f l h m
    rw [List.range_succ, List.flatMap_append, List.flatMap_singleton]
    rcases Nat.lt_or_ge j m with hm | hm
    · rw [leAt_append_left, ih hm]
      have : (j + 1) * l ≤ m * l := Nat.mul_le_mul_right l hm
      rw [hl]
      rw [Nat.succ_mul] at this
      omega
    · have : j = m := by omega
      subst this
      rw [← hl, leAt_append_right]

/-- A number split at 16 bits: its two halves as numbers of two bytes. -/
theorem leAt_half (v : Nat) (r : List Nat) (b : Bool) :
    leAt (leBytes 4 v ++ r) (if b then 2 else 0) 2 = v / (if b then 2 ^ 16 else 1) % 2 ^ 16 := by
  cases b
  · simp only [Bool.false_eq_true, if_false, leAt, leBytes, List.drop_zero, List.cons_append, List.take_succ_cons, List.take_zero,
      List.foldr_cons, List.foldr_nil]
    omega
  · simp only [if_true, leAt, leBytes, List.drop_succ_cons, List.drop_zero, List.cons_append, List.take_succ_cons, List.take_zero,
      List.foldr_cons, List.foldr_nil]
    omega

/-! ### CRC-32C -/

theorem crcShift_lt (n c : Nat) (h : c < 2 ^ 32) : crcShift n c < 2 ^ 32 := by
  induction n generalizing c with
  | zero => exact h
  | succ n ih =>
    rw [crcShift]
    apply ih
    split
    · exact Nat.xor_lt_two_pow (n := 32) (by omega) (by decide)
    · omega

theorem crcBytes_nil (c : Nat) : crcBytes c [] = c := rfl
theorem crcBytes_cons (c b : Nat) (t : List Nat) : crcBytes c (b :: t) = crcBytes (crcShift 8 (c ^^^ b)) t := rfl

theorem crcBytes_lt (l : List Nat) (c : Nat) (hc : c < 2 ^ 32) (hl : ∀ x ∈ l, x < 256) : crcBytes c l < 2 ^ 32 := by
  induction l generalizing c with
  | nil => rw [crcBytes_nil]; exact hc
  | cons b t ih =>
    rw [crcBytes_cons]
    exact ih _ (crcShift_lt _ _ (Nat.xor_lt_two_pow (n := 32) hc (Nat.lt_trans (hl b (by simp)) (by decide)))) fun x h => hl x (by simp [h])

theorem crc32c_lt (l : List Nat) (hl : ∀ x ∈ l, x < 256) : crc32c l < 2 ^ 32 :=
  Nat.xor_lt_two_pow (n := 32) (crcBytes_lt l _ (by decide) hl) (by decide)

/-! ### The parts of an image (R258) -/

theorem State.length_imgHeader (s : State) (seq : Nat) : (s.imgHeader seq).length = 0x40 := by
  simp [State.imgHeader, length_leBytes]

theorem State.length_imgTiu (s : State) (u : Nat) : (s.imgTiu u).length = 64 := by
  have v : ((List.range 4).flatMap fun i => [(s.getCalTiu u).vtrim / 2 ^ (6 * i) % 64]).length = 4 := rfl
  simp only [State.imgTiu, List.length_append, length_leBytes, v, List.length_cons, List.length_nil]

/-- The five parts of an image's body, the history and the CRC. -/
def State.imgRegions (s : State) : List Nat :=
  (List.range 12).flatMap (fun r => let x := s.getCalReg r; leBytes 2 x.tcap ++ leBytes 12 x.at96 ++ leBytes 2 0)
def State.imgTius (s : State) : List Nat := (List.range 96).flatMap (fun u => s.imgTiu u)
def State.imgWidthPart (s : State) : List Nat :=
  (List.range 96).flatMap (fun u => (List.range 512).flatMap fun i => leBytes 4 (s.tiuTabWord u i))
def State.imgTablePart (s : State) : List Nat :=
  (List.range 64).flatMap (fun n => (List.range 128).flatMap fun i => leBytes 4 (s.eoTabWord n i))
def State.imgHistory (s : State) : List Nat :=
  (List.range 1024).flatMap (fun i => match s.cal.hist[i]? with
    | some h => leBytes 12 h.at96 ++ leBytes 2 h.temp ++ [h.kind, h.idx, h.code] ++ leBytes 15 0
    | none => leBytes 32 0)

theorem State.imgBody_parts (s : State) (seq : Nat) :
    s.imgBody seq = s.imgHeader seq ++ (s.imgRegions ++ (s.imgTius ++ (s.imgWidthPart ++ (s.imgTablePart ++ s.imgHistory)))) := by
  simp only [State.imgBody, State.imgRegions, State.imgTius, State.imgWidthPart, State.imgTablePart, State.imgHistory, List.append_assoc]
  all_goals rfl

theorem State.length_imgRegions (s : State) : s.imgRegions.length = 192 :=
  length_flatMap_range _ 16 (fun r => by simp [length_leBytes]) 12

theorem State.length_imgTius (s : State) : s.imgTius.length = 6144 := length_flatMap_range _ 64 (s.length_imgTiu) 96

theorem State.length_widthsPart (s : State) (u : Nat) : ((List.range 512).flatMap fun i => leBytes 4 (s.tiuTabWord u i)).length = 2048 :=
  length_flatMap_range _ 4 (fun _ => length_leBytes 4 _) 512

theorem State.length_imgWidthPart (s : State) : s.imgWidthPart.length = 196608 := length_flatMap_range _ 2048 s.length_widthsPart 96

theorem State.length_tablePart (s : State) (n : Nat) : ((List.range 128).flatMap fun i => leBytes 4 (s.eoTabWord n i)).length = 512 :=
  length_flatMap_range _ 4 (fun _ => length_leBytes 4 _) 128

theorem State.length_imgTablePart (s : State) : s.imgTablePart.length = 32768 := length_flatMap_range _ 512 s.length_tablePart 64

theorem State.length_imgHistory (s : State) : s.imgHistory.length = 32768 :=
  length_flatMap_range _ 32 (fun i => by split <;> simp [length_leBytes]) 1024

theorem State.length_imgBody (s : State) (seq : Nat) : (s.imgBody seq).length = 0x41900 := by
  simp [s.imgBody_parts, s.length_imgHeader, s.length_imgRegions, s.length_imgTius, s.length_imgWidthPart, s.length_imgTablePart,
    s.length_imgHistory]

theorem State.length_image (s : State) (seq : Nat) : (s.image seq).length = imgLen := by
  simp [State.image, s.length_imgBody, length_leBytes, imgLen]

/-- A number of an image behind its header, regions and units. -/
theorem State.leAt_image_widths (s : State) (seq k n : Nat) (h : k + n ≤ 196608) :
    leAt (s.image seq) (0x1900 + k) n = leAt s.imgWidthPart k n := by
  have e : 0x1900 + k = (s.imgHeader seq ++ (s.imgRegions ++ s.imgTius)).length + k := by
    simp [s.length_imgHeader, s.length_imgRegions, s.length_imgTius]
  have p : s.image seq = (s.imgHeader seq ++ (s.imgRegions ++ s.imgTius)) ++
      (s.imgWidthPart ++ (s.imgTablePart ++ (s.imgHistory ++ leBytes 4 (crc32c (s.imgBody seq))))) := by
    simp only [State.image]
    rw [s.imgBody_parts]
    simp only [List.append_assoc]
  rw [p, e, leAt_append_right, leAt_append_left _ _ _ _ (by rw [s.length_imgWidthPart]; omega)]

theorem State.leAt_image_tables (s : State) (seq k n : Nat) (h : k + n ≤ 32768) :
    leAt (s.image seq) (0x31900 + k) n = leAt s.imgTablePart k n := by
  have e : 0x31900 + k = (s.imgHeader seq ++ (s.imgRegions ++ (s.imgTius ++ s.imgWidthPart))).length + k := by
    simp [s.length_imgHeader, s.length_imgRegions, s.length_imgTius, s.length_imgWidthPart]
  have p : s.image seq = (s.imgHeader seq ++ (s.imgRegions ++ (s.imgTius ++ s.imgWidthPart))) ++
      (s.imgTablePart ++ (s.imgHistory ++ leBytes 4 (crc32c (s.imgBody seq)))) := by
    simp only [State.image]
    rw [s.imgBody_parts]
    simp only [List.append_assoc]
  rw [p, e, leAt_append_right, leAt_append_left _ _ _ _ (by rw [s.length_imgTablePart]; omega)]

/-- Word `i` of the table of a channel in an image. -/
theorem State.leAt_image_table (s : State) (seq n i : Nat) (hn : n < 64) (hi : i < 128) :
    leAt (s.image seq) (0x31900 + n * 512 + 4 * i) 4 = s.eoTabWord n i % 2 ^ 32 := by
  rw [Nat.add_assoc, s.leAt_image_tables seq (n * 512 + 4 * i) 4 (by omega), State.imgTablePart,
    leAt_flatMap _ 512 s.length_tablePart 64 n (4 * i) 4 hn (by omega)]
  have := leAt_flatMap (fun i => leBytes 4 (s.eoTabWord n i)) 4 (fun j => length_leBytes 4 _) 128 i 0 4 hi (by omega)
  rw [Nat.add_zero, Nat.mul_comm] at this
  rw [this]
  simpa using leAt_leBytes 4 (s.eoTabWord n i) []

/-- Width `c` of a unit in an image. -/
theorem State.leAt_image_width (s : State) (seq u c : Nat) (hu : u < 96) (hc : c < 1024) :
    leAt (s.image seq) (0x1900 + u * 2048 + 2 * c) 2 = s.tiuTabWord u (c / 2) / (if c % 2 = 0 then 1 else 2 ^ 16) % 2 ^ 16 := by
  rw [Nat.add_assoc, s.leAt_image_widths seq (u * 2048 + 2 * c) 2 (by omega), State.imgWidthPart,
    leAt_flatMap _ 2048 s.length_widthsPart 96 u (2 * c) 2 hu (by omega)]
  have e : 2 * c = (c / 2) * 4 + (if decide (c % 2 = 1) then 2 else 0) := by
    by_cases h : c % 2 = 1 <;> simp [h] <;> omega
  have := leAt_flatMap (fun i => leBytes 4 (s.tiuTabWord u i)) 4 (fun j => length_leBytes 4 _) 512 (c / 2)
    (if decide (c % 2 = 1) then 2 else 0) 2 (by omega) (by split <;> omega)
  rw [← e] at this
  rw [this]
  have h2 := leAt_half (s.tiuTabWord u (c / 2)) [] (decide (c % 2 = 1))
  rw [List.append_nil] at h2
  rw [h2]
  by_cases h : c % 2 = 1
  · simp [h]
  · have : c % 2 = 0 := by omega
    simp [this]

/-- A table is the same when its 120 words are. -/
theorem tabOfWords_congr (f g : Nat → Nat) (h : ∀ i, i < 120 → f i = g i) : tabOfWords f = tabOfWords g := by
  have part (a n : Nat) (hn : a + n ≤ 120) : ((List.range n).map fun i => f (a + i)) = (List.range n).map fun i => g (a + i) :=
    List.map_congr_left fun i hi => h _ (by have := List.mem_range.mp hi; omega)
  simp only [tabOfWords, part 16 32 (by decide), part 48 32 (by decide), part 80 40 (by decide), h 0 (by decide), h 1 (by decide), h 3 (by decide),
    h 4 (by decide), h 5 (by decide), h 6 (by decide), h 7 (by decide), h 8 (by decide), h 9 (by decide)]

/-! ### An image of good values is accepted (R261) -/

theorem State.image_format (s : State) (seq : Nat) : imgFormatOk (s.image seq) = true := by
  have p : s.image seq = s.imgHeader seq ++ (s.image seq).drop 0x40 := by
    rw [← s.length_imgHeader seq]
    simp only [State.image, s.imgBody_parts, List.append_assoc, List.drop_left]
  have h (k n : Nat) (hk : k + n ≤ 0x40) : leAt (s.image seq) k n = leAt (s.imgHeader seq) k n := by
    rw [p, leAt_append_left _ _ _ _ (by rw [s.length_imgHeader]; omega)]
  simp only [imgFormatOk, h 0 4 (by decide), h 4 2 (by decide), h 20 4 (by decide)]
  rfl

theorem State.image_device (s : State) (seq : Nat) : imgDeviceOk (s.image seq) = true := by
  have p : ∃ r, s.image seq = ([0x45, 0x43, 0x41, 0x4C] ++ leBytes 2 1 ++ leBytes 2 0x20) ++ (leBytes 8 Config.serialHash ++ r) := by
    simp only [State.image, State.imgBody, State.imgHeader, List.append_assoc]
    exact ⟨_, rfl⟩
  obtain ⟨r, p⟩ := p
  have h := leAt_append_right ([0x45, 0x43, 0x41, 0x4C] ++ leBytes 2 1 ++ leBytes 2 0x20) (leBytes 8 Config.serialHash ++ r) 0 8
  rw [← p, leAt_leBytes] at h
  simp only [imgDeviceOk, decide_eq_true_eq]
  exact h

theorem State.image_crc (s : State) (seq : Nat) (h : ∀ x ∈ s.imgBody seq, x < 256) : imgCrcOk (s.image seq) = true := by
  have e : (0x41900 : Nat) = (s.imgBody seq).length + 0 := by rw [s.length_imgBody]
  have t : (s.image seq).take 0x41900 = s.imgBody seq := by
    conv => lhs; rw [e]
    simp [State.image]
  simp only [imgCrcOk, t, decide_eq_true_eq]
  rw [State.image]
  conv => lhs; rw [e]
  rw [leAt_append_right, show leBytes 4 (crc32c (s.imgBody seq)) = leBytes 4 (crc32c (s.imgBody seq)) ++ [] by simp, leAt_leBytes]
  exact Nat.mod_eq_of_lt (crc32c_lt _ h)

/-- Every byte of the body is one, when what the engine keeps in single bytes is. -/
theorem State.imgBody_lt (s : State) (seq : Nat) (hu : ∀ u, u < 96 → (s.getCalTiu u).code < 256 ∧ (s.getCalTiu u).cdLog < 256)
    (hh : ∀ h ∈ s.cal.hist, h.kind < 256 ∧ h.idx < 256 ∧ h.code < 256) (x : Nat) (hx : x ∈ s.imgBody seq) : x < 256 := by
  rw [s.imgBody_parts] at hx
  simp only [List.mem_append] at hx
  rcases hx with hx | hx | hx | hx | hx | hx
  · simp only [State.imgHeader, List.mem_append] at hx
    rcases hx with ((((((((hx | hx) | hx) | hx) | hx) | hx) | hx) | hx) | hx) | hx
    · revert x
      decide
    all_goals exact leBytes_lt _ _ _ hx
  · simp only [State.imgRegions, List.mem_flatMap, List.mem_append] at hx
    obtain ⟨r, _, hx⟩ := hx
    rcases hx with (hx | hx) | hx <;> exact leBytes_lt _ _ _ hx
  · simp only [State.imgTius, List.mem_flatMap, State.imgTiu, List.mem_append, List.mem_range] at hx
    obtain ⟨u, hlt, hx⟩ := hx
    rcases hx with (((((hx | hx) | hx) | hx) | hx) | hx) | hx
    · exact leBytes_lt _ _ _ hx
    · exact leBytes_lt _ _ _ hx
    · exact leBytes_lt _ _ _ hx
    · obtain ⟨i, _, hx⟩ := hx
      rw [List.mem_singleton.mp hx]
      exact Nat.lt_trans (Nat.mod_lt _ (by decide)) (by decide)
    · have := hu u hlt
      simp only [List.mem_cons, List.not_mem_nil, or_false] at hx
      omega
    · exact leBytes_lt _ _ _ hx
    · exact leBytes_lt _ _ _ hx
  · simp only [State.imgWidthPart, List.mem_flatMap] at hx
    obtain ⟨_, _, _, _, hx⟩ := hx
    exact leBytes_lt _ _ _ hx
  · simp only [State.imgTablePart, List.mem_flatMap] at hx
    obtain ⟨_, _, _, _, hx⟩ := hx
    exact leBytes_lt _ _ _ hx
  · simp only [State.imgHistory, List.mem_flatMap] at hx
    obtain ⟨i, _, hx⟩ := hx
    split at hx
    · rename_i h e
      have := hh h (List.mem_of_getElem? e)
      simp only [List.mem_append] at hx
      rcases hx with ((hx | hx) | hx) | hx
      · exact leBytes_lt _ _ _ hx
      · exact leBytes_lt _ _ _ hx
      · simp only [List.mem_cons, List.not_mem_nil, or_false] at hx
        omega
      · exact leBytes_lt _ _ _ hx
    · exact leBytes_lt _ _ _ hx

/-- The header's numbers in an image. -/
theorem State.leAt_image_header (s : State) (seq k n : Nat) (hk : k + n ≤ 0x40) : leAt (s.image seq) k n = leAt (s.imgHeader seq) k n := by
  have p : s.image seq = s.imgHeader seq ++ (s.image seq).drop 0x40 := by
    rw [← s.length_imgHeader seq]
    simp only [State.image, s.imgBody_parts, List.append_assoc, List.drop_left]
  rw [p, leAt_append_left _ _ _ _ (by rw [s.length_imgHeader]; omega)]

/-- The image of a device whose bytes are bytes, with a table that may be loaded in force on every channel and widths that may be on every
unit, passes every check. -/
theorem State.image_accepted (s : State) (seq : Nat) (hb : ∀ x ∈ s.imgBody seq, x < 256)
    (ht : ∀ n, n < 64 → (tabOfWords fun i => s.eoTabWord n i % 2 ^ 32).loadOk = true)
    (hw : ∀ u, u < 96 →
      widthsOk ((List.range 1024).map fun c => s.tiuTabWord u (c / 2) / (if c % 2 = 0 then 1 else 2 ^ 16) % 2 ^ 16) = true) :
    judgeImage (s.image seq) = 0 := by
  have hv : imgValuesOk (s.image seq) = true := by
    simp only [imgValuesOk, Bool.and_eq_true, List.all_eq_true, List.mem_range]
    constructor
    · intro n hn
      rw [imgTab, tabOfWords_congr _ (fun i => s.eoTabWord n i % 2 ^ 32) fun i hi => s.leAt_image_table seq n i hn (by omega)]
      exact ht n hn
    · intro u hu
      rw [imgWidths, List.map_congr_left fun c hc => s.leAt_image_width seq u c hu (List.mem_range.mp hc)]
      exact hw u hu
  simp [judgeImage, s.image_format, s.image_device, s.image_crc seq hb, hv, CalCode.ok]

end Sys2Proof.Machine
end

