-- ==== Sys2Proof/Laws/Sound.lean ====
section
/-! SUPPORT. What every operation keeps: a sound state stays sound and the queue stays as it is. Here the register file, the memories and
the ways a state is put together; the files Sound… hold one law for each operation. -/

namespace Sys2Proof.Machine

/-- The state is sound and its queue is the one given. -/
structure Good (q : List Instr) (s : State) : Prop where
  sound : s.Sound
  queue : s.pending = q

/-- Registers, memories and the queue are all that matters. -/
theorem Good.same {q : List Instr} {s t : State} (h : Good q s) (hr : t.regs = s.regs) (hd : t.dram = s.dram) (hf : t.flash = s.flash)
    (hm : t.hostMem = s.hostMem) (hq : t.pending = s.pending) : Good q t := by
  refine ⟨⟨hd ▸ h.sound.dram, hf ▸ h.sound.flash, hm ▸ h.sound.host, fun c b v n => ?_⟩, hq.trans h.queue⟩
  have := h.sound.reserved c b v n
  rwa [State.rget, ← hr] at this

theorem Good.dramWf {q : List Instr} {s : State} (h : Good q s) : Memory.wf dramUnl s.dram = true := h.sound.dram
theorem Good.flashWf {q : List Instr} {s : State} (h : Good q s) : Memory.wf flashUnl s.flash = true := h.sound.flash
theorem Good.hostWf {q : List Instr} {s : State} (h : Good q s) : Memory.wf hostUnl s.hostMem = true := h.sound.host

/-- A state put together from another with its registers, memories and queue. -/
theorem good_mk {q : List Instr} {s : State} {latches_ : SMap ReqKey Nat} {staging_ : SMap ReqKey Nat} {resp_ : Resp} {tickNo_ : Nat} {free_
    : Nat} {glb_ : GlbSt} {time_ : TimeSt} {tsyn_ : TsynSt} {csyn_ : CsynSt} {osyn_ : SMap Nat OsynSt} {eo_ : SMap Nat Eo} {qres_ : SMap
    ReqKey QRes} {tiu_ : SMap Nat Tiu} {tal_ : Tally} {dw_ : Dw} {drv_ : SMap Nat Drover} {bbr_ : BbrSt} {flt_ : FltSt} {cal_ : Cal} {bw_ :
    Bw} {nt_ : Nt} {pt_ : SMap Nat Pt} {sw_ : Sw} {host_ : HostIf} {msix_ : List Nat} {cyc_ : Cyc} {elm_ : SMap Nat ElmOut}
    (h : Good q s) : Good q ⟨s.regs, latches_, staging_, cyc_, resp_, tickNo_, free_, glb_, time_, tsyn_, csyn_, osyn_, eo_, qres_, tiu_, tal_,
    dw_, drv_, bbr_, flt_, cal_, bw_, nt_, pt_, elm_, sw_, host_, msix_, s.hostMem, s.flash, s.dram, s.pending⟩ :=
  h.same rfl rfl rfl rfl rfl

/-- Both branches of a choice. -/
theorem good_ite {q : List Instr} {c : Prop} [Decidable c] {a b : State} (ha : Good q a) (hb : Good q b) : Good q (if c then a else b) := by
  split <;> assumption

theorem good_ite_snd {q : List Instr} {A : Type} {c : Prop} [Decidable c] {a b : A × State} (ha : Good q a.2) (hb : Good q b.2) :
    Good q (if c then a else b).2 := by
  split <;> assumption

/-- A fold of an operation. -/
theorem good_foldl {q : List Instr} {A : Type} {f : State → A → State} {s : State} {l : List A} (h : Good q s)
    (hf : ∀ st a, Good q st → Good q (f st a)) : Good q (l.foldl f s) := by
  induction l generalizing s with
  | nil => exact h
  | cons a t ih => exact ih (hf s a h)

/-- A fold of an operation that answers beside the state. -/
theorem good_foldl_snd {q : List Instr} {A B : Type} {f : B × State → A → B × State} {a : B × State} {l : List A} (h : Good q a.2)
    (hf : ∀ b x, Good q b.2 → Good q (f b x).2) : Good q (l.foldl f a).2 := by
  induction l generalizing a with
  | nil => exact h
  | cons x t ih => exact ih (hf a x h)

/-! ### Memories -/

theorem good_setDram {q : List Instr} {s : State} {m : Memory} (h : Good q s) (hm : Memory.wf dramUnl m = true) : Good q (s.setDram m) :=
  ⟨⟨hm, h.sound.flash, h.sound.host, h.sound.reserved⟩, h.queue⟩

theorem good_setFlash {q : List Instr} {s : State} {m : Memory} (h : Good q s) (hm : Memory.wf flashUnl m = true) : Good q { s with flash := m } :=
  ⟨⟨h.sound.dram, hm, h.sound.host, h.sound.reserved⟩, h.queue⟩

theorem good_setHostMem {q : List Instr} {s : State} {m : Memory} (h : Good q s) (hm : Memory.wf hostUnl m = true) : Good q { s with hostMem := m } :=
  ⟨⟨h.sound.dram, h.sound.flash, hm, h.sound.reserved⟩, h.queue⟩

theorem memWfFrom_filter (unl : Byte) (p : Host.Cell → Bool) (m : Memory) (lo : Nat) (h : memWfFrom unl lo m = true) :
    memWfFrom unl lo (m.filter p) = true := by
  induction m generalizing lo with
  | nil => rfl
  | cons c t ih =>
    obtain ⟨a, b⟩ := c
    simp only [memWfFrom, Bool.and_eq_true, decide_eq_true_eq] at h
    rw [List.filter_cons]
    split
    · simp only [memWfFrom, Bool.and_eq_true, decide_eq_true_eq]
      exact ⟨h.1, ih _ h.2⟩
    · exact ih _ (memWfFrom_mono _ _ _ _ h.2 (by omega))

/-! ### Registers -/

/-- A bit of a register lies in none of its fields. -/
def Reg.gap (r : Reg) (b : Nat) : Prop := ∀ f ∈ r.info.flds, b < f.lo ∨ f.hi < b

/-- A field of the model lies within one field of its register. -/
def Fld.inside (f : Fld) : Bool := decide (f.lo ≤ f.hi) && f.reg.info.flds.any fun d => decide (d.lo ≤ f.lo) && decide (f.hi ≤ d.hi)

/-- The low n bits of a register lie in its fields. -/
def Reg.covers (r : Reg) (n : Nat) : Bool := (List.range n).all fun b => r.info.flds.any fun d => decide (d.lo ≤ b) && decide (b ≤ d.hi)

theorem bit_low {v n b : Nat} (hv : v < 2 ^ n) (hb : n ≤ b) : bit v b = false := by
  have : v / 2 ^ b = 0 := Nat.div_eq_of_lt (lt_of_lt_of_le hv (Nat.pow_le_pow_right (by decide) hb))
  simp [bit, this]

theorem Reg.covers_gap {r : Reg} {n b : Nat} (hc : r.covers n = true) (hb : r.gap b) : n ≤ b := by
  by_contra hlt
  simp only [Reg.covers, List.all_eq_true, List.mem_range, List.any_eq_true, Bool.and_eq_true, decide_eq_true_eq] at hc
  obtain ⟨d, hd, h1, h2⟩ := hc b (by omega)
  have := hb d hd
  omega

/-- A number of the width that a register's fields cover. -/
theorem Reg.covers_bit {r : Reg} {n v b : Nat} (hc : r.covers n = true) (hv : v < 2 ^ n) (hb : r.gap b) : bit v b = false :=
  bit_low hv (Reg.covers_gap hc hb)

/-- The bit a field is written at. -/
theorem bit_setBits_out {v hi lo x b : Nat} (h : lo ≤ hi) (hb : b < lo ∨ hi < b) : bit (setBits v hi lo x) b = bit v b := by
  rw [bit_eq_bits, bit_eq_bits]
  rcases hb with hb | hb
  · rw [bits_setBits_below v hi lo x b b h hb]
  · rw [bits_setBits_above v hi lo x b b h hb]

theorem good_rset {q : List Instr} {s : State} {k : RegKey} {v : Nat} (h : Good q s)
    (hv : regAt (addrOf k 0) = some (k, 0) → ∀ b, k.r.gap b → bit v b = false) : Good q (s.rset k v) := by
  refine ⟨⟨h.sound.dram, h.sound.flash, h.sound.host, fun c b a n => ?_⟩, h.queue⟩
  rw [State.rget_rset]
  split
  · rename_i e; subst e; exact hv a b n
  · exact h.sound.reserved c b a n

/-- A register written with a number of the width that its fields cover. -/
theorem good_rset_low {q : List Instr} {s : State} {k : RegKey} {v : Nat} (n : Nat) (h : Good q s) (hc : k.r.covers n = true) (hv : v < 2 ^ n) :
    Good q (s.rset k v) := good_rset h fun _ _ hb => Reg.covers_bit hc hv hb

theorem good_fset {q : List Instr} {s : State} {f : Fld} {v i j k : Nat} (h : Good q s) (hf : f.inside = true) : Good q (s.fset f v i j k) := by
  refine good_rset h fun a b hb => ?_
  simp only [Fld.inside, Bool.and_eq_true, decide_eq_true_eq, List.any_eq_true] at hf
  obtain ⟨hl, d, hd, h1, h2⟩ := hf
  have := hb d hd
  rw [bit_setBits_out hl (by omega)]
  exact h.sound.reserved _ b a hb

/-- Noting a hardware event. -/
theorem State.hwMark_good {q : List Instr} {s : State} {k : RegKey} {m : Nat} (h : Good q s) : Good q (s.hwMark k m) :=
  h.same rfl rfl rfl rfl rfl

theorem good_fon {q : List Instr} {s : State} {f : Fld} {i j k : Nat} (h : Good q s) (hf : f.inside = true) : Good q (s.fon f i j k) :=
  State.hwMark_good (good_fset h hf)

theorem good_fonBit {q : List Instr} {s : State} {f : Fld} {b i j k : Nat} (h : Good q s) (hf : f.inside = true) :
    Good q (s.fonBit f b i j k) := State.hwMark_good (good_fset h hf)

theorem good_fonIf {q : List Instr} {s : State} {c : Bool} {f : Fld} {i j k : Nat} (h : Good q s) (hf : f.inside = true) :
    Good q (s.fonIf c f i j k) := by
  rw [State.fonIf]
  exact good_ite (good_fon h hf) h

theorem good_cntAdd {q : List Instr} {s : State} {r : Reg} {n i : Nat} (h : Good q s) (hr : r.covers 32 = true) : Good q (s.cntAdd r n i) :=
  good_rset_low 32 h hr (by omega)

theorem good_cnt {q : List Instr} {s : State} {r : Reg} {i : Nat} (h : Good q s) (hr : r.covers 32 = true) : Good q (s.cnt r i) := good_cntAdd h hr

theorem good_cnt64 {q : List Instr} {s : State} {r : Reg} {n i : Nat} (h : Good q s) (hr : r.covers 64 = true) : Good q (s.cnt64 r n i) :=
  good_rset_low 64 h hr (Nat.mod_lt _ (by decide))

/-! ### Reset values -/

/-- A number whose set bits all lie in fields of a register. -/
def Reg.fits (r : Reg) (v : Nat) : Bool :=
  decide (v < 2 ^ 256) && (List.range 256).all fun b => !bit v b || r.info.flds.any fun d => decide (d.lo ≤ b) && decide (b ≤ d.hi)

theorem Reg.fits_gap {r : Reg} {v b : Nat} (h : r.fits v = true) (hb : r.gap b) : bit v b = false := by
  simp only [Reg.fits, Bool.and_eq_true, decide_eq_true_eq, List.all_eq_true, List.mem_range, Bool.or_eq_true, Bool.not_eq_true',
    List.any_eq_true] at h
  by_cases hl : b < 256
  · rcases h.2 b hl with h1 | ⟨d, hd, h1, h2⟩
    · exact h1
    · have := hb d hd; omega
  · exact bit_low h.1 (by omega)

theorem bit_zero (b : Nat) : bit 0 b = false := by simp [bit]

theorem Reg.reset_fits (r : Reg) : (decide (resetOfFields r.info.flds = 0) || r.fits (resetOfFields r.info.flds)) = true := by
  cases r <;> decide +kernel

theorem Reg.reset_gap {r : Reg} {b : Nat} (hb : r.gap b) : bit (resetOfFields r.info.flds) b = false := by
  have h := Reg.reset_fits r
  rw [Bool.or_eq_true, decide_eq_true_eq] at h
  rcases h with h | h
  · rw [h]; exact bit_zero b
  · exact Reg.fits_gap h hb

theorem dimIdx_head {c st off o : Nat} {t : List (Nat × Nat)} {ix : List Nat} (h : dimIdx ((c, st) :: t) off = some (ix, o)) :
    ix.getD 0 0 < c := by
  rw [dimIdx] at h
  split at h
  · rename_i hl
    cases e : dimIdx t (off % st) <;> rw [e] at h <;> simp at h
    rw [← h.1]; simpa using hl
  · cases h

/-- The first index of a register at an address is below the register's count. -/
theorem regAt_first {a w c st : Nat} {k : RegKey} {t : List (Nat × Nat)} (h : regAt a = some (k, w)) (hd : k.r.info.dims = (c, st) :: t) :
    k.i < c := by
  simp only [regAt] at h
  split at h
  · cases h
  · obtain ⟨l, r, _, _, h1, _⟩ := List.findSome?_eq_some_iff.mp h
    simp only [regIn] at h1
    split at h1
    · cases h1
    · split at h1
      · cases h1
      · rename_i ix o e
        split at h1
        · simp only [Option.some.injEq, Prod.mk.injEq] at h1
          obtain ⟨rfl, _⟩ := h1
          simp only at hd
          rw [hd] at e
          exact dimIdx_head e
        · cases h1

theorem railWindow_fits (i : Nat) (h : i < 11) : Reg.monSupWin.fits (regReset ⟨.monSupWin, i, 0, 0⟩) = true := by
  revert i; decide +kernel

theorem drvInfo_fits (i : Nat) (h : i < 16) : Reg.drvInfo.fits (regReset ⟨.drvInfo, i, 0, 0⟩) = true := by
  revert i; decide +kernel

/-- A reset value has no bit outside the fields of its register. -/
theorem regReset_gap {k : RegKey} {a w b : Nat} (h : regAt a = some (k, w)) (hb : k.r.gap b) : bit (regReset k) b = false := by
  obtain ⟨r, i, j, l⟩ := k
  cases r
  case drvInfo => exact Reg.fits_gap (drvInfo_fits i (regAt_first h rfl)) hb
  case monSupWin => exact Reg.fits_gap (railWindow_fits i (regAt_first h rfl)) hb
  case tiuCtl =>
    show bit (if i < 32 then 0 else 4) b = false
    split
    · exact bit_zero b
    · exact Reg.fits_gap (r := .tiuCtl) (by decide +kernel) hb
  case ptCfg =>
    show bit (if i < 48 then _ else _) b = false
    split
    · exact Reg.reset_gap hb
    · exact Reg.fits_gap (r := .ptCfg) (by decide +kernel) hb
  all_goals exact Reg.reset_gap hb

theorem lookupCell_filter {K V : Type} [DecidableEq K] (p : K → Bool) (k : K) (l : List (K × V)) :
    lookupCell k (l.filter fun c => p c.1) = if p k then lookupCell k l else none := by
  induction l with
  | nil => simp [lookupCell]
  | cons c t ih =>
    obtain ⟨k2, v⟩ := c
    rw [List.filter_cons]
    by_cases hk : k2 = k
    · subst hk
      by_cases hp : p k2 <;> simp [hp, lookupCell, ih]
    · by_cases hp : p k2 <;> simp [hp, lookupCell, hk, ih]

theorem bitsOf_lt (n : Nat) (x : Int) : bitsOf n x < 2 ^ n := by
  have h1 := Int.emod_nonneg x (b := ((2 ^ n : Nat) : Int)) (by positivity)
  have h2 := Int.emod_lt_of_pos x (b := ((2 ^ n : Nat) : Int)) (by positivity)
  unfold bitsOf
  omega

/-- Registers put back to their reset values. -/
theorem good_keep {q : List Instr} {s t : State} (p : RegKey → Bool) (h : Good q s) (hr : t.regs = s.regs.keep p) (hd : t.dram = s.dram)
    (hf : t.flash = s.flash) (hm : t.hostMem = s.hostMem) (hq : t.pending = s.pending) : Good q t := by
  refine ⟨⟨hd ▸ h.sound.dram, hf ▸ h.sound.flash, hm ▸ h.sound.host, fun c b v n => ?_⟩, hq.trans h.queue⟩
  have e : t.rget c = if p c then s.rget c else regReset c := by
    simp only [State.rget, hr, SMap.get, SMap.keep, lookupCell_filter]
    split <;> rfl
  rw [e]
  split
  · exact h.sound.reserved c b v n
  · exact regReset_gap v n

theorem bit_testBit (v b : Nat) : bit v b = v.testBit b := by
  rw [Nat.testBit_eq_decide_div_mod_eq, bit]

/-- A register is below the power of two above its fields. -/
theorem Good.below {q : List Instr} {s : State} {k : RegKey} {n : Nat} (h : Good q s) (ha : regAt (addrOf k 0) = some (k, 0))
    (ht : (k.r.info.flds.all fun f => decide (f.hi < n)) = true) : s.rget k < 2 ^ n := by
  refine Nat.lt_pow_two_of_testBit _ fun b hb => ?_
  rw [← bit_testBit]
  refine h.sound.reserved k b ha fun f hf => Or.inr ?_
  have := List.all_eq_true.mp ht f hf
  simp only [decide_eq_true_eq] at this
  omega

/-- A register that takes a number no wider than its fields, made from what it holds. -/
theorem good_rset_of {q : List Instr} {s : State} {k : RegKey} {v : Nat} (n : Nat) (h : Good q s) (hc : k.r.covers n = true)
    (ht : (k.r.info.flds.all fun f => decide (f.hi < n)) = true) (hv : s.rget k < 2 ^ n → v < 2 ^ n) : Good q (s.rset k v) :=
  good_rset h fun ha _ hb => Reg.covers_bit hc (hv (h.below ha ht)) hb

theorem or_pow_lt {v n b : Nat} (hb : b < n) (hv : v < 2 ^ n) : v ||| 2 ^ b < 2 ^ n :=
  Nat.or_lt_two_pow hv (Nat.pow_lt_pow_right (by decide) hb)

/-- A fold whose every element keeps the state sound. -/
theorem good_foldl_mem {q : List Instr} {A : Type} {f : State → A → State} {s : State} {l : List A} (h : Good q s)
    (hf : ∀ st a, a ∈ l → Good q st → Good q (f st a)) : Good q (l.foldl f s) := by
  induction l generalizing s with
  | nil => exact h
  | cons a t ih => exact ih (hf s a (by simp) h) fun st b hb => hf st b (by simp [hb])

end Sys2Proof.Machine
end

