-- ==== Sys2Proof/Laws/SoundOps.lean ====
section
/-! SUPPORT. Each operation of Ops keeps a state sound and its queue. -/

namespace Sys2Proof.Machine

theorem State.setEo_good {q : List Instr} {s : State} {n : Nat} {e : Eo} (h : Good q s) :
    Good q (State.setEo s n e) := by
  exact h.same rfl rfl rfl rfl rfl

theorem State.setTiu_good {q : List Instr} {s : State} {u : Nat} {t : Tiu} (h : Good q s) :
    Good q (State.setTiu s u t) := by
  exact h.same rfl rfl rfl rfl rfl

theorem State.setDrv_good {q : List Instr} {s : State} {d : Nat} {x : Drover} (h : Good q s) :
    Good q (State.setDrv s d x) := by
  exact h.same rfl rfl rfl rfl rfl

theorem State.setTask_good {q : List Instr} {s : State} {d : Nat} {k : Nat} {t : Task} (h : Good q s) :
    Good q (State.setTask s d k t) := by
  unfold State.setTask
  repeat'
    first
      | with_reducible assumption
      | (intro _)
      | (with_reducible apply State.setDrv_good)

theorem State.setOsyn_good {q : List Instr} {s : State} {i : Nat} {o : OsynSt} (h : Good q s) :
    Good q (State.setOsyn s i o) := by
  exact h.same rfl rfl rfl rfl rfl

theorem State.setTime_good {q : List Instr} {s : State} {t : TimeSt} (h : Good q s) :
    Good q (State.setTime s t) := by
  exact h.same rfl rfl rfl rfl rfl

theorem State.setTsyn_good {q : List Instr} {s : State} {t : TsynSt} (h : Good q s) :
    Good q (State.setTsyn s t) := by
  exact h.same rfl rfl rfl rfl rfl

theorem State.setCsyn_good {q : List Instr} {s : State} {t : CsynSt} (h : Good q s) :
    Good q (State.setCsyn s t) := by
  exact h.same rfl rfl rfl rfl rfl

theorem State.setDw_good {q : List Instr} {s : State} {d : Dw} (h : Good q s) :
    Good q (State.setDw s d) := by
  exact h.same rfl rfl rfl rfl rfl

theorem State.setTal_good {q : List Instr} {s : State} {t : Tally} (h : Good q s) :
    Good q (State.setTal s t) := by
  exact h.same rfl rfl rfl rfl rfl

theorem State.setBbr_good {q : List Instr} {s : State} {b : BbrSt} (h : Good q s) :
    Good q (State.setBbr s b) := by
  exact h.same rfl rfl rfl rfl rfl

theorem State.setFlt_good {q : List Instr} {s : State} {f : FltSt} (h : Good q s) :
    Good q (State.setFlt s f) := by
  exact h.same rfl rfl rfl rfl rfl

theorem State.setGlb_good {q : List Instr} {s : State} {g : GlbSt} (h : Good q s) :
    Good q (State.setGlb s g) := by
  exact h.same rfl rfl rfl rfl rfl

theorem State.setResp_good {q : List Instr} {s : State} {r : Resp} (h : Good q s) :
    Good q (State.setResp s r) := by
  exact h.same rfl rfl rfl rfl rfl

theorem State.dramWrite_good {q : List Instr} {s : State} {a : Nat} {v : Nat} {n : Nat} (h : Good q s) :
    Good q (State.dramWrite s a v n) := by
  unfold State.dramWrite
  repeat'
    first
      | with_reducible assumption
      | (intro _)
      | (with_reducible apply memWriteLE_wf)
      | (with_reducible apply memWriteBytes_wf)
      | (with_reducible apply memWrite_wf)
      | (with_reducible apply Good.dramWf)
      | (with_reducible apply Good.flashWf)
      | (with_reducible apply Good.hostWf)
      | (with_reducible apply good_setDram)

theorem State.offerBbr_good {q : List Instr} {s : State} {o : BbrOffer} (h : Good q s) :
    Good q (State.offerBbr s o) := by
  unfold State.offerBbr
  repeat'
    first
      | with_reducible assumption
      | (intro _)
      | (with_reducible apply State.setBbr_good)

theorem State.report_good {q : List Instr} {s : State} {f : FaultRep} (h : Good q s) :
    Good q (State.report s f) := by
  unfold State.report
  repeat'
    first
      | with_reducible assumption
      | (intro _)
      | (with_reducible apply State.setFlt_good)

theorem State.offerTally_good {q : List Instr} {s : State} {r : Rec} (h : Good q s) :
    Good q (State.offerTally s r) := by
  unfold State.offerTally
  repeat'
    first
      | with_reducible assumption
      | (intro _)
      | (with_reducible apply State.setTal_good)
      | (with_reducible apply good_cnt64)
      | (with_reducible apply good_ite)
      | (with_reducible apply good_ite_snd)
      | (with_reducible apply good_foldl)
      | rfl

theorem State.msixMessage_good {q : List Instr} {s : State} {v : Nat} (h : Good q s) :
    Good q (State.msixMessage s v) := by
  unfold State.msixMessage
  exact ⟨⟨h.dramWf, h.flashWf, memWriteLE_wf _ _ _ _ _ h.hostWf, h.sound.reserved⟩, h.queue⟩

theorem State.sendMsix_good {q : List Instr} {s : State} {v : Nat} (h : Good q s) :
    Good q (State.sendMsix s v) := by
  unfold State.sendMsix
  repeat'
    first
      | with_reducible assumption
      | (intro _)
      | (with_reducible apply State.msixMessage_good)
      | (with_reducible apply good_fonBit)
      | (with_reducible apply good_ite)
      | (with_reducible apply good_ite_snd)
      | (with_reducible apply good_foldl)
      | rfl

theorem State.deliver_good {q : List Instr} {s : State} {x : Nat} {evs : List Stamp} {due : Nat} (h : Good q s) :
    Good q (State.deliver s x evs due) := by
  unfold State.deliver
  repeat'
    first
      | with_reducible assumption
      | (intro _)
      | (with_reducible apply State.setDw_good)

theorem State.dropHeld_good {q : List Instr} {s : State} (h : Good q s) :
    Good q (State.dropHeld s) := by
  unfold State.dropHeld
  repeat'
    first
      | with_reducible assumption
      | (intro _)
      | (with_reducible apply State.setDw_good)
      | (with_reducible apply good_cntAdd)
      | (with_reducible apply good_ite)
      | (with_reducible apply good_ite_snd)
      | (with_reducible apply good_foldl)
      | rfl

theorem State.defer_good {q : List Instr} {s : State} {k : RegKey} (h : Good q s) :
    Good q (State.defer s k) := by
  unfold State.defer
  repeat'
    first
      | with_reducible assumption
      | (intro _)
      | (with_reducible apply State.setDw_good)
      | (with_reducible apply good_ite)

theorem State.loopIn_good {q : List Instr} {s : State} {prod : Nat} {c : Nat} (h : Good q s) :
    Good q (State.loopIn s prod c) := by
  unfold State.loopIn
  repeat'
    first
      | with_reducible assumption
      | (intro _)
      | (with_reducible apply State.offerBbr_good)
      | (with_reducible apply good_fon)
      | (with_reducible apply good_ite)
      | (with_reducible apply good_ite_snd)
      | (with_reducible apply good_foldl)
      | rfl

theorem State.sendVector_good {q : List Instr} {s : State} {prod : Nat} (h : Good q s) :
    Good q (State.sendVector s prod) := by
  unfold State.sendVector
  repeat'
    first
      | with_reducible assumption
      | (intro _)
      | (with_reducible apply State.sendMsix_good)
      | (with_reducible apply good_ite)
      | (with_reducible apply good_ite_snd)
      | (with_reducible apply good_foldl)
      | rfl
      | dsimp only
      | split

theorem State.raiseNow_good {q : List Instr} {s : State} {prod : Nat} {ts : Instant} {tag : Nat} (h : Good q s) :
    Good q (State.raiseNow s prod ts tag) := by
  unfold State.raiseNow
  repeat'
    first
      | with_reducible assumption
      | (intro _)
      | (with_reducible apply State.loopIn_good)
      | (with_reducible apply State.setDw_good)
      | (with_reducible apply State.sendVector_good)
      | (with_reducible apply State.deliver_good)
      | (with_reducible apply good_fon)
      | (with_reducible apply good_cnt)
      | (with_reducible apply good_ite)
      | (with_reducible apply good_ite_snd)
      | (with_reducible apply good_foldl)
      | rfl

theorem State.raiseEv_good {q : List Instr} {s : State} {prod : Nat} {ts : Instant} {tag : Nat} {delay : Nat} (h : Good q s) :
    Good q (State.raiseEv s prod ts tag delay) := by
  unfold State.raiseEv
  repeat'
    first
      | with_reducible assumption
      | (intro _)
      | (with_reducible apply State.raiseNow_good)
      | (with_reducible apply State.setDw_good)
      | (with_reducible apply good_ite)

theorem State.raiseDue_good {q : List Instr} {s : State} (h : Good q s) :
    Good q (State.raiseDue s) := by
  unfold State.raiseDue
  repeat'
    first
      | with_reducible assumption
      | (intro _)
      | (with_reducible apply State.raiseNow_good)
      | (with_reducible apply State.setDw_good)
      | (with_reducible apply good_ite)
      | (with_reducible apply good_ite_snd)
      | (with_reducible apply good_foldl)

theorem State.raiseIf_good {q : List Instr} {s : State} {c : Bool} {prod : Nat} {ts : Instant} {tag : Nat} {delay : Nat} (h : Good q s) :
    Good q (State.raiseIf s c prod ts tag delay) := by
  unfold State.raiseIf
  repeat'
    first
      | with_reducible assumption
      | (intro _)
      | (with_reducible apply State.raiseEv_good)
      | (with_reducible apply good_ite)

theorem State.takeGroup_good {q : List Instr} {s : State} {x : Nat} {lag : Nat} {e : _} {t : State} (he : State.takeGroup s x lag = some (e, t)) (h : Good q s) :
    Good q t := by
  unfold State.takeGroup at he
  split at he
  · cases he
  · cases he
    exact h.same rfl rfl rfl rfl rfl

theorem State.onGroup_good {q : List Instr} {s : State} {x : Nat} {f : List Stamp → State → State} {lag : Nat} (h : Good q s) (hf : ∀ a st, Good q st → Good q (f a st)) :
    Good q (State.onGroup s x f lag) := by
  unfold State.onGroup
  repeat'
    first
      | with_reducible assumption
      | (intro _)
      | (with_reducible apply hf)
      | (with_reducible refine State.takeGroup_good (by with_reducible assumption) ?_)
      | (with_reducible apply good_cntAdd)
      | (with_reducible apply good_ite)
      | (with_reducible apply good_ite_snd)
      | (with_reducible apply good_foldl)
      | rfl
      | dsimp only
      | split

theorem State.live_good {q : List Instr} {s : State} {t : State} (h : Good q s) (h2 : Good q t) :
    Good q (State.live s t) := by
  unfold State.live
  repeat'
    first
      | with_reducible assumption
      | (intro _)
      | (with_reducible apply good_ite)

theorem State.fresh_good {q : List Instr} {s : State} (h : Good q s) :
    Good q (State.fresh s).2 := by
  unfold State.fresh
  repeat'
    first
      | with_reducible assumption
      | (intro _)
      | (with_reducible apply good_ite)
      | (with_reducible apply good_ite_snd)
      | (with_reducible apply good_foldl)
      | rfl
      | dsimp only
      | split
      | omega
      | (with_reducible apply good_mk)

theorem State.fresh_good_eq {q : List Instr} {s : State} {a_ : _} {t_ : State} (he : State.fresh s = (a_, t_)) (h : Good q s) : Good q t_ := by
  have : Good q (State.fresh s).2 := State.fresh_good h
  rw [he] at this
  exact this

end Sys2Proof.Machine
end

