-- ==== Sys2Proof/Laws/SoundDrvOps.lean ====
section
/-! SUPPORT. Each operation of DrvOps keeps a state sound and its queue. -/

namespace Sys2Proof.Machine

theorem State.dropOffers_good {q : List Instr} {s : State} {d : Nat} {k : Nat} (h : Good q s) :
    Good q (State.dropOffers s d k) := by
  unfold State.dropOffers
  repeat'
    first
      | with_reducible assumption
      | (intro _)
      | (with_reducible apply State.setEo_good)
      | (with_reducible apply good_ite)
      | (with_reducible apply good_ite_snd)
      | (with_reducible apply good_foldl)
      | rfl
      | dsimp only
      | split

theorem State.trapOne_good {q : List Instr} {s : State} {d : Nat} {k : Nat} {code : Nat} {arg : Nat} (h : Good q s) :
    Good q (State.trapOne s d k code arg) := by
  unfold State.trapOne
  repeat'
    first
      | with_reducible assumption
      | (intro _)
      | (with_reducible apply State.setTask_good)
      | (with_reducible apply State.dropOffers_good)
      | (with_reducible apply State.sendMsix_good)
      | (with_reducible apply State.offerBbr_good)
      | (with_reducible apply good_fonBit)
      | (with_reducible apply good_ite)
      | (with_reducible apply good_ite_snd)
      | (with_reducible apply good_foldl)
      | rfl

theorem State.trapTask_good {q : List Instr} {s : State} {d : Nat} {k : Nat} {code : Nat} {arg : Nat} (h : Good q s) :
    Good q (State.trapTask s d k code arg) := by
  unfold State.trapTask
  repeat'
    first
      | with_reducible assumption
      | (intro _)
      | (with_reducible apply State.trapOne_good)
      | (with_reducible apply good_ite)
      | (with_reducible apply good_ite_snd)
      | (with_reducible apply good_foldl)

theorem State.lockstepFault_good {q : List Instr} {s : State} {d : Nat} (h : Good q s) :
    Good q (State.lockstepFault s d) := by
  unfold State.lockstepFault
  repeat'
    first
      | with_reducible assumption
      | (intro _)
      | (with_reducible apply State.trapOne_good)
      | (with_reducible apply State.setDrv_good)
      | (with_reducible apply State.report_good)
      | (with_reducible apply good_fon)
      | (with_reducible apply good_ite)
      | (with_reducible apply good_ite_snd)
      | (with_reducible apply good_foldl)
      | rfl

theorem State.eccCorrected_good {q : List Instr} {s : State} {d : Nat} {addr : Nat} (h : Good q s) :
    Good q (State.eccCorrected s d addr) := by
  unfold State.eccCorrected
  repeat'
    first
      | with_reducible assumption
      | (intro _)
      | (with_reducible apply State.report_good)
      | (with_reducible apply good_fon)
      | (with_reducible apply good_cnt)
      | (with_reducible apply good_ite)
      | (with_reducible apply good_ite_snd)
      | (with_reducible apply good_foldl)
      | rfl

theorem State.eccUncorrected_good {q : List Instr} {s : State} {d : Nat} {addr : Nat} (h : Good q s) :
    Good q (State.eccUncorrected s d addr) := by
  unfold State.eccUncorrected
  repeat'
    first
      | with_reducible assumption
      | (intro _)
      | (with_reducible apply State.report_good)
      | (with_reducible apply good_fon)
      | (with_reducible apply good_ite)
      | (with_reducible apply good_ite_snd)
      | (with_reducible apply good_foldl)
      | rfl

theorem State.actionResult_good {q : List Instr} {s : State} {d : Nat} {k : Nat} {ch : Nat} {code : Nat} (h : Good q s) :
    Good q (State.actionResult s d k ch code) := by
  unfold State.actionResult
  repeat'
    first
      | with_reducible assumption
      | (intro _)
      | (with_reducible apply State.trapTask_good)
      | (with_reducible apply State.setTask_good)
      | (with_reducible apply good_ite)

theorem State.startTask_good {q : List Instr} {s : State} {d : Nat} {k : Nat} {w : Nat} (h : Good q s) :
    Good q (State.startTask s d k w) := by
  unfold State.startTask
  repeat'
    first
      | with_reducible assumption
      | (intro _)
      | (with_reducible apply State.setTask_good)
      | (with_reducible apply good_ite)

theorem State.stopTask_good {q : List Instr} {s : State} {d : Nat} {k : Nat} (h : Good q s) :
    Good q (State.stopTask s d k) := by
  unfold State.stopTask
  repeat'
    first
      | with_reducible assumption
      | (intro _)
      | (with_reducible apply State.setTask_good)
      | (with_reducible apply State.dropOffers_good)
      | (with_reducible apply good_ite)

theorem State.taskControl_good {q : List Instr} {s : State} {d : Nat} {k : Nat} {w : Nat} (h : Good q s) :
    Good q (State.taskControl s d k w) := by
  unfold State.taskControl
  repeat'
    first
      | with_reducible assumption
      | (intro _)
      | (with_reducible apply State.startTask_good)
      | (with_reducible apply State.stopTask_good)
      | (with_reducible apply good_fon)
      | (with_reducible apply good_ite)
      | (with_reducible apply good_ite_snd)
      | (with_reducible apply good_foldl)
      | rfl

theorem State.resetDrvRegs_good {q : List Instr} {s : State} {d : Nat} (h : Good q s) :
    Good q (State.resetDrvRegs s d) := by
  unfold State.resetDrvRegs
  exact good_keep (fun k => !(k.r.info.blk == .drv && k.i == d)) h rfl rfl rfl rfl rfl

theorem State.resetDrover_good {q : List Instr} {s : State} {d : Nat} (h : Good q s) :
    Good q (State.resetDrover s d) := by
  unfold State.resetDrover
  repeat'
    first
      | with_reducible assumption
      | (intro _)
      | (with_reducible apply State.resetDrvRegs_good)
      | (with_reducible apply State.setDrv_good)

end Sys2Proof.Machine
end

