-- ==== Sys2Proof/Laws/SoundBarliOps.lean ====
section
/-! SUPPORT. Each operation of BarliOps keeps a state sound and its queue. -/

namespace Sys2Proof.Machine

theorem State.markIssue_good {q : List Instr} {s : State} {d : Nat} {k : Nat} (h : Good q s) :
    Good q (State.markIssue s d k) := by
  unfold State.markIssue
  repeat'
    first
      | with_reducible assumption
      | (intro _)
      | (with_reducible apply State.setDrv_good)
      | (with_reducible apply good_cnt64)
      | (with_reducible apply good_ite)
      | (with_reducible apply good_ite_snd)
      | (with_reducible apply good_foldl)
      | rfl

theorem State.sendOut_good {q : List Instr} {s : State} {d : Nat} {tick : Nat} {o : DrvOut} (h : Good q s) :
    Good q (State.sendOut s d tick o) := by
  unfold State.sendOut
  repeat'
    first
      | with_reducible assumption
      | (intro _)
      | (with_reducible apply State.setDrv_good)

theorem State.underEnv_good {q : List Instr} {s : State} {d : Nat} {k : Nat} {e : IssueEnv} {f : State → State} (h : Good q s) (hf : ∀ st, Good q st → Good q (f st)) :
    Good q (State.underEnv s d k e f) := by
  unfold State.underEnv
  repeat'
    first
      | with_reducible assumption
      | (intro _)
      | (with_reducible apply hf)
      | (with_reducible apply State.sendOut_good)
      | (with_reducible apply State.trapTask_good)
      | (with_reducible apply State.eccUncorrected_good)
      | (with_reducible apply State.eccCorrected_good)
      | (with_reducible apply good_ite)
      | (with_reducible apply good_ite_snd)
      | (with_reducible apply good_foldl)
      | (with_reducible apply good_foldl_snd)
      | rfl
      | dsimp only
      | split

theorem State.issue_good {q : List Instr} {s : State} {d : Nat} {k : Nat} {e : IssueEnv} {w : Sys2Proof.Word} {f : State → State} (h : Good q s) (hf : ∀ st, Good q st → Good q (f st)) :
    Good q (State.issue s d k e w f) := by
  unfold State.issue
  repeat'
    first
      | with_reducible assumption
      | (intro _)
      | (with_reducible apply hf)
      | (with_reducible apply State.underEnv_good)
      | (with_reducible apply State.markIssue_good)
      | (with_reducible apply good_ite)

theorem State.issueIllegal_good {q : List Instr} {s : State} {d : Nat} {k : Nat} {e : IssueEnv} {w : Sys2Proof.Word} (h : Good q s) :
    Good q (State.issueIllegal s d k e w) := by
  unfold State.issueIllegal
  repeat'
    first
      | with_reducible assumption
      | (intro _)
      | (with_reducible apply State.underEnv_good)
      | (with_reducible apply State.markIssue_good)
      | (with_reducible apply State.trapTask_good)
      | (with_reducible apply good_ite)

theorem State.goTo_good {q : List Instr} {s : State} {d : Nat} {k : Nat} {target : Nat} {t : Task} (h : Good q s) :
    Good q (State.goTo s d k target t) := by
  unfold State.goTo
  repeat'
    first
      | with_reducible assumption
      | (intro _)
      | (with_reducible apply State.setTask_good)
      | (with_reducible apply State.trapTask_good)
      | (with_reducible apply good_ite)

theorem State.taskDoes_good {q : List Instr} {s : State} {d : Nat} {k : Nat} {f : Task → Task} (h : Good q s) :
    Good q (State.taskDoes s d k f) := by
  unfold State.taskDoes
  repeat'
    first
      | with_reducible assumption
      | (intro _)
      | (with_reducible apply State.goTo_good)

theorem State.inRange_good {q : List Instr} {s : State} {d : Nat} {k : Nat} {f : State → State} (h : Good q s) (hf : ∀ st, Good q st → Good q (f st)) :
    Good q (State.inRange s d k f) := by
  unfold State.inRange
  repeat'
    first
      | with_reducible assumption
      | (intro _)
      | (with_reducible apply hf)
      | (with_reducible apply State.trapTask_good)
      | (with_reducible apply good_ite)

theorem State.thenNext_good {q : List Instr} {s : State} {d : Nat} {k : Nat} {f : State → State} (h : Good q s) (hf : ∀ st, Good q st → Good q (f st)) :
    Good q (State.thenNext s d k f) := by
  unfold State.thenNext
  repeat'
    first
      | with_reducible assumption
      | (intro _)
      | (with_reducible apply hf)
      | (with_reducible apply State.inRange_good)
      | (with_reducible apply State.setTask_good)

theorem State.holdBusy_good {q : List Instr} {s : State} {d : Nat} {k : Nat} {ticks : Nat} {r : BusyRes} (h : Good q s) :
    Good q (State.holdBusy s d k ticks r) := by
  unfold State.holdBusy
  repeat'
    first
      | with_reducible assumption
      | (intro _)
      | (with_reducible apply State.inRange_good)
      | (with_reducible apply State.setTask_good)

theorem State.holdWait_good {q : List Instr} {s : State} {d : Nat} {k : Nat} {st : TaskSt} {w : Wait} (h : Good q s) :
    Good q (State.holdWait s d k st w) := by
  unfold State.holdWait
  repeat'
    first
      | with_reducible assumption
      | (intro _)
      | (with_reducible apply State.setTask_good)

theorem State.bNop_good {q : List Instr} {s : State} {d : Nat} {k : Nat} (h : Good q s) :
    Good q (State.bNop s d k) := by
  unfold State.bNop
  repeat'
    first
      | with_reducible assumption
      | (intro _)
      | (with_reducible apply State.taskDoes_good)

theorem State.bHalt_good {q : List Instr} {s : State} {d : Nat} {k : Nat} (h : Good q s) :
    Good q (State.bHalt s d k) := by
  unfold State.bHalt
  repeat'
    first
      | with_reducible assumption
      | (intro _)
      | (with_reducible apply State.setTask_good)

theorem State.bYield_good {q : List Instr} {s : State} {d : Nat} {k : Nat} {n : Nat} (h : Good q s) :
    Good q (State.bYield s d k n) := by
  unfold State.bYield
  repeat'
    first
      | with_reducible assumption
      | (intro _)
      | (with_reducible apply State.bNop_good)
      | (with_reducible apply State.inRange_good)
      | (with_reducible apply State.holdWait_good)
      | (with_reducible apply good_ite)

theorem State.bTrap_good {q : List Instr} {s : State} {d : Nat} {k : Nat} {imm : Nat} (h : Good q s) :
    Good q (State.bTrap s d k imm) := by
  unfold State.bTrap
  repeat'
    first
      | with_reducible assumption
      | (intro _)
      | (with_reducible apply State.trapTask_good)

theorem State.bJump_good {q : List Instr} {s : State} {d : Nat} {k : Nat} {target : Nat} (h : Good q s) :
    Good q (State.bJump s d k target) := by
  unfold State.bJump
  repeat'
    first
      | with_reducible assumption
      | (intro _)
      | (with_reducible apply State.goTo_good)

theorem State.bBc_good {q : List Instr} {s : State} {d : Nat} {k : Nat} {cond : Nat} {target : Nat} (h : Good q s) :
    Good q (State.bBc s d k cond target) := by
  unfold State.bBc
  repeat'
    first
      | with_reducible assumption
      | (intro _)
      | (with_reducible apply State.bJump_good)
      | (with_reducible apply State.bNop_good)
      | (with_reducible apply good_ite)

theorem State.bCall_good {q : List Instr} {s : State} {d : Nat} {k : Nat} {target : Nat} (h : Good q s) :
    Good q (State.bCall s d k target) := by
  unfold State.bCall
  repeat'
    first
      | with_reducible assumption
      | (intro _)
      | (with_reducible apply State.trapTask_good)
      | (with_reducible apply State.goTo_good)
      | (with_reducible apply good_ite)

theorem State.bRet_good {q : List Instr} {s : State} {d : Nat} {k : Nat} (h : Good q s) :
    Good q (State.bRet s d k) := by
  unfold State.bRet
  repeat'
    first
      | with_reducible assumption
      | (intro _)
      | (with_reducible apply State.trapTask_good)
      | (with_reducible apply State.goTo_good)
      | (with_reducible apply good_ite)
      | (with_reducible apply good_ite_snd)
      | (with_reducible apply good_foldl)
      | rfl
      | dsimp only
      | split

theorem State.bLoop_good {q : List Instr} {s : State} {d : Nat} {k : Nat} {stop : Nat} {c : LpSrc} (h : Good q s) :
    Good q (State.bLoop s d k stop c) := by
  unfold State.bLoop
  repeat'
    first
      | with_reducible assumption
      | (intro _)
      | (with_reducible apply State.goTo_good)
      | (with_reducible apply State.trapTask_good)
      | (with_reducible apply good_ite)

theorem State.bEndl_good {q : List Instr} {s : State} {d : Nat} {k : Nat} (h : Good q s) :
    Good q (State.bEndl s d k) := by
  unfold State.bEndl
  repeat'
    first
      | with_reducible assumption
      | (intro _)
      | (with_reducible apply State.trapTask_good)
      | (with_reducible apply State.goTo_good)
      | (with_reducible apply good_ite)
      | (with_reducible apply good_ite_snd)
      | (with_reducible apply good_foldl)
      | rfl
      | dsimp only
      | split

theorem State.bEndlPop_good {q : List Instr} {s : State} {d : Nat} {k : Nat} (h : Good q s) :
    Good q (State.bEndlPop s d k) := by
  unfold State.bEndlPop
  repeat'
    first
      | with_reducible assumption
      | (intro _)
      | (with_reducible apply State.trapTask_good)
      | (with_reducible apply State.goTo_good)
      | (with_reducible apply good_ite)
      | (with_reducible apply good_ite_snd)
      | (with_reducible apply good_foldl)
      | rfl
      | dsimp only
      | split

theorem State.bAlu_good {q : List Instr} {s : State} {d : Nat} {k : Nat} {ad : Nat} {aa : Nat} {b : BSrc} {f : TFlags → Sys2Proof.W64 → Sys2Proof.W64 → AluOut} (h : Good q s) :
    Good q (State.bAlu s d k ad aa b f) := by
  unfold State.bAlu
  repeat'
    first
      | with_reducible assumption
      | (intro _)
      | (with_reducible apply State.taskDoes_good)

theorem State.bCmp_good {q : List Instr} {s : State} {d : Nat} {k : Nat} {aa : Nat} {b : BSrc} (h : Good q s) :
    Good q (State.bCmp s d k aa b) := by
  unfold State.bCmp
  repeat'
    first
      | with_reducible assumption
      | (intro _)
      | (with_reducible apply State.taskDoes_good)

theorem State.bMulq_good {q : List Instr} {s : State} {d : Nat} {k : Nat} {ad : Nat} {aa : Nat} {ab : Nat} {u : Bool} {rm : Rounding} {sh : Nat} (h : Good q s) :
    Good q (State.bMulq s d k ad aa ab u rm sh) := by
  unfold State.bMulq
  repeat'
    first
      | with_reducible assumption
      | (intro _)
      | (with_reducible apply State.holdBusy_good)

theorem State.bDivq_good {q : List Instr} {s : State} {d : Nat} {k : Nat} {ad : Nat} {aa : Nat} {ab : Nat} {u : Bool} {rm : Rounding} {sh : Nat} (h : Good q s) :
    Good q (State.bDivq s d k ad aa ab u rm sh) := by
  unfold State.bDivq
  repeat'
    first
      | with_reducible assumption
      | (intro _)
      | (with_reducible apply State.trapTask_good)
      | (with_reducible apply State.holdBusy_good)
      | (with_reducible apply good_ite)

theorem State.bShl_good {q : List Instr} {s : State} {d : Nat} {k : Nat} {ad : Nat} {aa : Nat} {n : ShSrc} (h : Good q s) :
    Good q (State.bShl s d k ad aa n) := by
  unfold State.bShl
  repeat'
    first
      | with_reducible assumption
      | (intro _)
      | (with_reducible apply State.taskDoes_good)

theorem State.bShr_good {q : List Instr} {s : State} {d : Nat} {k : Nat} {ad : Nat} {aa : Nat} {n : ShSrc} {rm : Rounding} {lg : Bool} (h : Good q s) :
    Good q (State.bShr s d k ad aa n rm lg) := by
  unfold State.bShr
  repeat'
    first
      | with_reducible assumption
      | (intro _)
      | (with_reducible apply State.taskDoes_good)

theorem State.bLdi_good {q : List Instr} {s : State} {d : Nat} {k : Nat} {ad : Nat} {imm : BitVec 22} (h : Good q s) :
    Good q (State.bLdi s d k ad imm) := by
  unfold State.bLdi
  repeat'
    first
      | with_reducible assumption
      | (intro _)
      | (with_reducible apply State.taskDoes_good)

theorem State.bLdhi_good {q : List Instr} {s : State} {d : Nat} {k : Nat} {ad : Nat} {x4 : Nat} {imm : BitVec 16} (h : Good q s) :
    Good q (State.bLdhi s d k ad x4 imm) := by
  unfold State.bLdhi
  repeat'
    first
      | with_reducible assumption
      | (intro _)
      | (with_reducible apply State.taskDoes_good)

theorem State.bMov_good {q : List Instr} {s : State} {d : Nat} {k : Nat} {ad : Nat} {aa : Nat} (h : Good q s) :
    Good q (State.bMov s d k ad aa) := by
  unfold State.bMov
  repeat'
    first
      | with_reducible assumption
      | (intro _)
      | (with_reducible apply State.taskDoes_good)

theorem State.bNeg_good {q : List Instr} {s : State} {d : Nat} {k : Nat} {ad : Nat} {aa : Nat} (h : Good q s) :
    Good q (State.bNeg s d k ad aa) := by
  unfold State.bNeg
  repeat'
    first
      | with_reducible assumption
      | (intro _)
      | (with_reducible apply State.taskDoes_good)

theorem State.bTadd_good {q : List Instr} {s : State} {d : Nat} {k : Nat} {td : Nat} {ta : Nat} {ab : Nat} {sub : Bool} (h : Good q s) :
    Good q (State.bTadd s d k td ta ab sub) := by
  unfold State.bTadd
  repeat'
    first
      | with_reducible assumption
      | (intro _)
      | (with_reducible apply State.taskDoes_good)

theorem State.bTsub_good {q : List Instr} {s : State} {d : Nat} {k : Nat} {ad : Nat} {ta : Nat} {tb : Nat} (h : Good q s) :
    Good q (State.bTsub s d k ad ta tb) := by
  unfold State.bTsub
  repeat'
    first
      | with_reducible assumption
      | (intro _)
      | (with_reducible apply State.taskDoes_good)

theorem State.bTcmp_good {q : List Instr} {s : State} {d : Nat} {k : Nat} {ta : Nat} {tb : Nat} (h : Good q s) :
    Good q (State.bTcmp s d k ta tb) := by
  unfold State.bTcmp
  repeat'
    first
      | with_reducible assumption
      | (intro _)
      | (with_reducible apply State.taskDoes_good)

theorem State.bTnow_good {q : List Instr} {s : State} {d : Nat} {k : Nat} {td : Nat} (h : Good q s) :
    Good q (State.bTnow s d k td) := by
  unfold State.bTnow
  repeat'
    first
      | with_reducible assumption
      | (intro _)
      | (with_reducible apply State.taskDoes_good)

theorem State.bTmov_good {q : List Instr} {s : State} {d : Nat} {k : Nat} {td : Nat} {ta : Nat} (h : Good q s) :
    Good q (State.bTmov s d k td ta) := by
  unfold State.bTmov
  repeat'
    first
      | with_reducible assumption
      | (intro _)
      | (with_reducible apply State.taskDoes_good)

theorem State.bTmovSec_good {q : List Instr} {s : State} {d : Nat} {k : Nat} {ad : Nat} {ta : Nat} (h : Good q s) :
    Good q (State.bTmovSec s d k ad ta) := by
  unfold State.bTmovSec
  repeat'
    first
      | with_reducible assumption
      | (intro _)
      | (with_reducible apply State.taskDoes_good)

theorem State.bTmovNsf_good {q : List Instr} {s : State} {d : Nat} {k : Nat} {ad : Nat} {ta : Nat} (h : Good q s) :
    Good q (State.bTmovNsf s d k ad ta) := by
  unfold State.bTmovNsf
  repeat'
    first
      | with_reducible assumption
      | (intro _)
      | (with_reducible apply State.taskDoes_good)

theorem State.tmovPut_good {q : List Instr} {s : State} {d : Nat} {k : Nat} {td : Nat} {x4 : Option Instant} (h : Good q s) :
    Good q (State.tmovPut s d k td x4) := by
  unfold State.tmovPut
  repeat'
    first
      | with_reducible assumption
      | (intro _)
      | (with_reducible apply State.trapTask_good)
      | (with_reducible apply State.taskDoes_good)
      | (with_reducible apply good_ite)
      | (with_reducible apply good_ite_snd)
      | (with_reducible apply good_foldl)
      | rfl
      | dsimp only
      | split

theorem State.bTmovPack_good {q : List Instr} {s : State} {d : Nat} {k : Nat} {td : Nat} {aa : Nat} {ab : Nat} (h : Good q s) :
    Good q (State.bTmovPack s d k td aa ab) := by
  unfold State.bTmovPack
  repeat'
    first
      | with_reducible assumption
      | (intro _)
      | (with_reducible apply State.tmovPut_good)

theorem State.bTmovZero_good {q : List Instr} {s : State} {d : Nat} {k : Nat} {td : Nat} (h : Good q s) :
    Good q (State.bTmovZero s d k td) := by
  unfold State.bTmovZero
  repeat'
    first
      | with_reducible assumption
      | (intro _)
      | (with_reducible apply State.taskDoes_good)

theorem State.bLd_good {q : List Instr} {s : State} {d : Nat} {k : Nat} {ad : Nat} {aa : Nat} {off : Sys2Proof.W64} (h : Good q s) :
    Good q (State.bLd s d k ad aa off) := by
  unfold State.bLd
  repeat'
    first
      | with_reducible assumption
      | (intro _)
      | (with_reducible apply State.taskDoes_good)
      | (with_reducible apply State.trapTask_good)
      | (with_reducible apply good_ite)

theorem State.bSt_good {q : List Instr} {s : State} {d : Nat} {k : Nat} {ad : Nat} {aa : Nat} {off : Sys2Proof.W64} (h : Good q s) :
    Good q (State.bSt s d k ad aa off) := by
  unfold State.bSt
  repeat'
    first
      | with_reducible assumption
      | (intro _)
      | (with_reducible apply State.thenNext_good)
      | (with_reducible apply State.setDrv_good)
      | (with_reducible apply State.trapTask_good)
      | (with_reducible apply good_ite)

theorem State.bTld_good {q : List Instr} {s : State} {d : Nat} {k : Nat} {td : Nat} {aa : Nat} {off : Sys2Proof.W64} (h : Good q s) :
    Good q (State.bTld s d k td aa off) := by
  unfold State.bTld
  repeat'
    first
      | with_reducible assumption
      | (intro _)
      | (with_reducible apply State.trapTask_good)
      | (with_reducible apply State.taskDoes_good)
      | (with_reducible apply good_ite)
      | (with_reducible apply good_ite_snd)
      | (with_reducible apply good_foldl)
      | rfl
      | dsimp only
      | split

theorem State.bTst_good {q : List Instr} {s : State} {d : Nat} {k : Nat} {td : Nat} {aa : Nat} {off : Sys2Proof.W64} (h : Good q s) :
    Good q (State.bTst s d k td aa off) := by
  unfold State.bTst
  repeat'
    first
      | with_reducible assumption
      | (intro _)
      | (with_reducible apply State.thenNext_good)
      | (with_reducible apply State.setDrv_good)
      | (with_reducible apply State.trapTask_good)
      | (with_reducible apply good_ite)

theorem State.bLdx_good {q : List Instr} {s : State} {d : Nat} {k : Nat} {ad : Nat} {aa : Nat} {off : Sys2Proof.W64} (h : Good q s) :
    Good q (State.bLdx s d k ad aa off) := by
  unfold State.bLdx
  repeat'
    first
      | with_reducible assumption
      | (intro _)
      | (with_reducible apply State.trapTask_good)
      | (with_reducible apply State.inRange_good)
      | (with_reducible apply State.holdWait_good)
      | (with_reducible apply good_ite)

theorem State.bStx_good {q : List Instr} {s : State} {d : Nat} {k : Nat} {ad : Nat} {aa : Nat} {off : Sys2Proof.W64} (h : Good q s) :
    Good q (State.bStx s d k ad aa off) := by
  unfold State.bStx
  repeat'
    first
      | with_reducible assumption
      | (intro _)
      | (with_reducible apply State.trapTask_good)
      | (with_reducible apply State.thenNext_good)
      | (with_reducible apply State.dramWrite_good)
      | (with_reducible apply good_fon)
      | (with_reducible apply good_cnt)
      | (with_reducible apply good_ite)
      | (with_reducible apply good_ite_snd)
      | (with_reducible apply good_foldl)
      | rfl

theorem State.ldxReturn_good {q : List Instr} {s : State} {d : Nat} {k : Nat} {bad : Bool} (h : Good q s) :
    Good q (State.ldxReturn s d k bad) := by
  unfold State.ldxReturn
  repeat'
    first
      | with_reducible assumption
      | (intro _)
      | (with_reducible apply State.trapTask_good)
      | (with_reducible apply State.setTask_good)
      | (with_reducible apply good_ite)
      | (with_reducible apply good_ite_snd)
      | (with_reducible apply good_foldl)
      | rfl
      | dsimp only
      | split

theorem State.ldxTimeout_good {q : List Instr} {s : State} {d : Nat} {k : Nat} (h : Good q s) :
    Good q (State.ldxTimeout s d k) := by
  unfold State.ldxTimeout
  repeat'
    first
      | with_reducible assumption
      | (intro _)
      | (with_reducible apply State.trapTask_good)
      | (with_reducible apply good_ite)
      | (with_reducible apply good_ite_snd)
      | (with_reducible apply good_foldl)
      | rfl
      | dsimp only
      | split

end Sys2Proof.Machine
end

