-- ==== Sys2Proof/Laws/SoundCalTab.lean ====
section
/-! SUPPORT. Each operation of CalTab keeps a state sound and its queue. -/

namespace Sys2Proof.Machine

theorem State.setCalEo_good {q : List Instr} {s : State} {n : Nat} {e : CalEo} (h : Good q s) :
    Good q (State.setCalEo s n e) := by
  exact h.same rfl rfl rfl rfl rfl

theorem State.setCalTiu_good {q : List Instr} {s : State} {u : Nat} {t : CalTiu} (h : Good q s) :
    Good q (State.setCalTiu s u t) := by
  exact h.same rfl rfl rfl rfl rfl

theorem State.setCalReg_good {q : List Instr} {s : State} {r : Nat} {x : CalReg} (h : Good q s) :
    Good q (State.setCalReg s r x) := by
  exact h.same rfl rfl rfl rfl rfl

theorem State.setCal_good {q : List Instr} {s : State} {c : Cal} (h : Good q s) :
    Good q (State.setCal s c) := by
  exact h.same rfl rfl rfl rfl rfl

theorem State.addRun_good {q : List Instr} {s : State} {eo : Bool} {idx : Nat} {dither : Bool} (h : Good q s) :
    Good q (State.addRun s eo idx dither) := by
  unfold State.addRun
  repeat'
    first
      | with_reducible assumption
      | (intro _)
      | (with_reducible apply State.setCal_good)
      | (with_reducible apply good_ite)

theorem State.scheduleRegion_good {q : List Instr} {s : State} {r : Nat} {temp : Bool} {dither : Bool} (h : Good q s) :
    Good q (State.scheduleRegion s r temp dither) := by
  unfold State.scheduleRegion
  repeat'
    first
      | with_reducible assumption
      | (intro _)
      | (with_reducible apply State.addRun_good)
      | (with_reducible apply State.setCalReg_good)
      | (with_reducible apply good_ite)
      | (with_reducible apply good_ite_snd)
      | (with_reducible apply good_foldl)

theorem State.calBankUp_good {q : List Instr} {s : State} {b : Nat} (h : Good q s) :
    Good q (State.calBankUp s b) := by
  unfold State.calBankUp
  repeat'
    first
      | with_reducible assumption
      | (intro _)
      | (with_reducible apply State.scheduleRegion_good)

theorem State.trkFit_good {q : List Instr} {s : State} {n : Nat} (h : Good q s) :
    Good q (State.trkFit s n) := by
  unfold State.trkFit
  repeat'
    first
      | with_reducible assumption
      | (intro _)
      | (with_reducible apply State.scheduleRegion_good)
      | (with_reducible apply State.setCalEo_good)
      | (with_reducible apply good_fon)
      | (with_reducible apply good_ite)
      | (with_reducible apply good_ite_snd)
      | (with_reducible apply good_foldl)
      | rfl

theorem State.calCommit_good {q : List Instr} {s : State} {n : Nat} {target : Instant} (h : Good q s) :
    Good q (State.calCommit s n target) := by
  unfold State.calCommit
  repeat'
    first
      | with_reducible assumption
      | (intro _)
      | (with_reducible apply State.trkFit_good)
      | (with_reducible apply State.setCalEo_good)

theorem State.commitTable_good {q : List Instr} {s : State} {n : Nat} {target : Instant} (h : Good q s) :
    Good q (State.commitTable s n target).2 := by
  unfold State.commitTable
  repeat'
    first
      | with_reducible assumption
      | (intro _)
      | (with_reducible apply State.calCommit_good)

theorem State.commitTable_good_eq {q : List Instr} {s : State} {n : Nat} {target : Instant} {a_ : _} {t_ : State} (he : State.commitTable s n target = (a_, t_)) (h : Good q s) : Good q t_ := by
  have : Good q (State.commitTable s n target).2 := State.commitTable_good h
  rw [he] at this
  exact this

theorem State.pendTable_good {q : List Instr} {s : State} {n : Nat} {t : EoTab} {trk : Option Int} {pin : Option Bool} {force : Bool} (h : Good q s) :
    Good q (State.pendTable s n t trk pin force) := by
  unfold State.pendTable
  repeat'
    first
      | with_reducible assumption
      | (intro _)
      | (with_reducible apply State.trkFit_good)
      | (with_reducible apply State.setCalEo_good)
      | (with_reducible apply good_ite)

theorem State.newTable_good {q : List Instr} {s : State} {n : Nat} {t : EoTab} (h : Good q s) :
    Good q (State.newTable s n t) := by
  unfold State.newTable
  repeat'
    first
      | with_reducible assumption
      | (intro _)
      | (with_reducible apply State.pendTable_good)
      | (with_reducible apply State.trkFit_good)
      | (with_reducible apply State.setCalEo_good)
      | (with_reducible apply good_ite)
      | (with_reducible apply good_ite_snd)
      | (with_reducible apply good_foldl)
      | rfl
      | dsimp only
      | split

theorem State.idleTable_good {q : List Instr} {s : State} {n : Nat} (h : Good q s) :
    Good q (State.idleTable s n) := by
  unfold State.idleTable
  repeat'
    first
      | with_reducible assumption
      | (intro _)
      | (with_reducible apply State.trkFit_good)
      | (with_reducible apply State.setCalEo_good)
      | (with_reducible apply good_ite)

theorem State.calRelease_good {q : List Instr} {s : State} {n : Nat} (h : Good q s) :
    Good q (State.calRelease s n) := by
  unfold State.calRelease
  repeat'
    first
      | with_reducible assumption
      | (intro _)
      | (with_reducible apply State.setCalEo_good)
      | (with_reducible apply State.setTiu_good)
      | (with_reducible apply good_ite)

theorem State.calTrack_good {q : List Instr} {s : State} {n : Nat} {e : Int} (h : Good q s) :
    Good q (State.calTrack s n e) := by
  unfold State.calTrack
  repeat'
    first
      | with_reducible assumption
      | (intro _)
      | (with_reducible apply State.setCalEo_good)
      | (with_reducible apply State.scheduleRegion_good)
      | (with_reducible apply good_fon)
      | (with_reducible apply good_ite)
      | (with_reducible apply good_ite_snd)
      | (with_reducible apply good_foldl)
      | rfl

end Sys2Proof.Machine
end

