-- ==== Sys2Proof/Laws/SoundCalOps.lean ====
section
/-! SUPPORT. Each operation of CalOps keeps a state sound and its queue. -/

namespace Sys2Proof.Machine

theorem State.calDone_good {q : List Instr} {s : State} (h : Good q s) :
    Good q (State.calDone s) := by
  unfold State.calDone
  repeat'
    first
      | with_reducible assumption
      | (intro _)
      | (with_reducible apply State.raiseEv_good)

theorem State.setCalRes_good {q : List Instr} {s : State} {x1 : Requester} {r : CalRes} (h : Good q s) :
    Good q (State.setCalRes s x1 r) := by
  unfold State.setCalRes
  repeat'
    first
      | with_reducible assumption
      | (intro _)
      | (with_reducible apply State.setCal_good)

theorem State.calAnswer_good {q : List Instr} {s : State} {x1 : Requester} {seq : Nat} {code : Nat} (h : Good q s) :
    Good q (State.calAnswer s x1 seq code) := by
  unfold State.calAnswer
  repeat'
    first
      | with_reducible assumption
      | (intro _)
      | (with_reducible apply State.setCalRes_good)
      | (with_reducible apply good_ite)

theorem State.calWake_good {q : List Instr} {s : State} {w : CalWhat} {code : Nat} (h : Good q s) :
    Good q (State.calWake s w code) := by
  unfold State.calWake
  repeat'
    first
      | with_reducible assumption
      | (intro _)
      | (with_reducible apply State.setCal_good)
      | (with_reducible apply State.calDone_good)
      | (with_reducible apply State.calAnswer_good)
      | (with_reducible apply good_ite)
      | (with_reducible apply good_ite_snd)
      | (with_reducible apply good_foldl)

theorem State.calProgress_good {q : List Instr} {s : State} {done : Nat} {total : Nat} (h : Good q s) :
    Good q (State.calProgress s done total) := by
  unfold State.calProgress
  repeat'
    first
      | with_reducible assumption
      | (intro _)
      | (with_reducible apply good_fset)
      | (with_reducible apply good_ite)
      | (with_reducible apply good_ite_snd)
      | (with_reducible apply good_foldl)
      | rfl

theorem State.calHistory_good {q : List Instr} {s : State} {kind : Nat} {idx : Nat} {region : Nat} {code : Nat} (h : Good q s) :
    Good q (State.calHistory s kind idx region code) := by
  unfold State.calHistory
  repeat'
    first
      | with_reducible assumption
      | (intro _)
      | (with_reducible apply State.setCal_good)

theorem State.calReject_good {q : List Instr} {s : State} {eo : Bool} {idx : Nat} {code : Nat} {retry : Bool} (h : Good q s) :
    Good q (State.calReject s eo idx code retry) := by
  unfold State.calReject
  repeat'
    first
      | with_reducible assumption
      | (intro _)
      | (with_reducible apply State.offerBbr_good)
      | (with_reducible apply State.setCal_good)
      | (with_reducible apply good_fon)
      | (with_reducible apply good_ite)
      | (with_reducible apply good_ite_snd)
      | (with_reducible apply good_foldl)
      | rfl

theorem State.unitRelease_good {q : List Instr} {s : State} {u : Nat} (h : Good q s) :
    Good q (State.unitRelease s u) := by
  unfold State.unitRelease
  repeat'
    first
      | with_reducible assumption
      | (intro _)
      | (with_reducible apply State.calRelease_good)
      | (with_reducible apply State.setTiu_good)
      | (with_reducible apply good_ite)

theorem State.itemEnd_good {q : List Instr} {s : State} {eo : Bool} {idx : Nat} {code : Nat} (h : Good q s) :
    Good q (State.itemEnd s eo idx code) := by
  unfold State.itemEnd
  repeat'
    first
      | with_reducible assumption
      | (intro _)
      | (with_reducible apply State.calRelease_good)
      | (with_reducible apply State.setCalEo_good)
      | (with_reducible apply State.unitRelease_good)
      | (with_reducible apply State.setCalTiu_good)
      | (with_reducible apply State.setCal_good)
      | (with_reducible apply State.calHistory_good)
      | (with_reducible apply State.setCalReg_good)
      | (with_reducible apply State.calWake_good)
      | (with_reducible apply State.calProgress_good)
      | (with_reducible apply good_ite)

theorem State.onRun_good {q : List Instr} {s : State} {u : Nat} {f : CalRun → CalRun} (h : Good q s) :
    Good q (State.onRun s u f) := by
  unfold State.onRun
  repeat'
    first
      | with_reducible assumption
      | (intro _)
      | (with_reducible apply State.setCal_good)

theorem State.calLiveHit_good {q : List Instr} {s : State} {u : Nat} {code : Nat} (h : Good q s) :
    Good q (State.calLiveHit s u code) := by
  unfold State.calLiveHit
  repeat'
    first
      | with_reducible assumption
      | (intro _)
      | (with_reducible apply State.onRun_good)
      | (with_reducible apply good_ite)

theorem State.calDitherHit_good {q : List Instr} {s : State} {u : Nat} {code : Nat} (h : Good q s) :
    Good q (State.calDitherHit s u code) := by
  unfold State.calDitherHit
  repeat'
    first
      | with_reducible assumption
      | (intro _)
      | (with_reducible apply State.onRun_good)
      | (with_reducible apply good_ite)

theorem State.calTrims_good {q : List Instr} {s : State} {u : Nat} {steps : List (List Nat)} (h : Good q s) :
    Good q (State.calTrims s u steps) := by
  unfold State.calTrims
  repeat'
    first
      | with_reducible assumption
      | (intro _)
      | (with_reducible apply State.onRun_good)
      | (with_reducible apply good_ite)

theorem State.calTrimChange_good {q : List Instr} {s : State} {u : Nat} {vtrim : Nat} (h : Good q s) :
    Good q (State.calTrimChange s u vtrim) := by
  unfold State.calTrimChange
  repeat'
    first
      | with_reducible assumption
      | (intro _)
      | (with_reducible apply State.onRun_good)
      | (with_reducible apply good_ite)

theorem State.calDiscard_good {q : List Instr} {s : State} {p : Bool → Nat → Bool} (h : Good q s) :
    Good q (State.calDiscard s p) := by
  unfold State.calDiscard
  repeat'
    first
      | with_reducible assumption
      | (intro _)
      | (with_reducible apply State.setCal_good)

theorem State.calNotFull_good {q : List Instr} {s : State} (h : Good q s) :
    Good q (State.calNotFull s) := by
  unfold State.calNotFull
  repeat'
    first
      | with_reducible assumption
      | (intro _)
      | (with_reducible apply State.setCal_good)
      | (with_reducible apply good_ite)

theorem State.cdDone_good {q : List Instr} {s : State} {u : Nat} {l : List Nat} {vtrim : Nat} (h : Good q s) :
    Good q (State.cdDone s u l vtrim) := by
  unfold State.cdDone
  repeat'
    first
      | with_reducible assumption
      | (intro _)
      | (with_reducible apply State.calNotFull_good)
      | (with_reducible apply State.setCalTiu_good)
      | (with_reducible apply State.calReject_good)
      | (with_reducible apply State.itemEnd_good)
      | (with_reducible apply good_ite)
      | (with_reducible apply good_ite_snd)
      | (with_reducible apply good_foldl)
      | rfl
      | dsimp only
      | split

theorem State.tapDone_good {q : List Instr} {s : State} {n : Nat} {m : TapMeas} (h : Good q s) :
    Good q (State.tapDone s n m) := by
  unfold State.tapDone
  repeat'
    first
      | with_reducible assumption
      | (intro _)
      | (with_reducible apply State.itemEnd_good)
      | (with_reducible apply State.calNotFull_good)
      | (with_reducible apply State.newTable_good)
      | (with_reducible apply State.calReject_good)
      | (with_reducible apply good_ite)
      | (with_reducible apply good_ite_snd)
      | (with_reducible apply good_foldl)
      | rfl
      | dsimp only
      | split

theorem State.flashErase_good {q : List Instr} {s : State} {a : Nat} {n : Nat} (h : Good q s) :
    Good q (State.flashErase s a n) := by
  unfold State.flashErase
  exact good_setFlash h (memWfFrom_filter _ _ _ _ h.flashWf)

theorem State.flashWrite_good {q : List Instr} {s : State} {a : Nat} {b : List Nat} (h : Good q s) :
    Good q (State.flashWrite s a b) := by
  unfold State.flashWrite
  exact good_setFlash h (memWriteBytes_wf _ _ _ _ h.flashWf)

theorem State.ofsUpdate_good {q : List Instr} {s : State} {r : Nat} {temp : Nat} (h : Good q s) :
    Good q (State.ofsUpdate s r temp) := by
  unfold State.ofsUpdate
  repeat'
    first
      | with_reducible assumption
      | (intro _)
      | (with_reducible apply good_fset)
      | (with_reducible apply good_ite)
      | (with_reducible apply good_ite_snd)
      | (with_reducible apply good_foldl)
      | rfl

theorem State.longStart_good {q : List Instr} {s : State} {op : CalOp} {by_ : Option (Requester × Nat)} {total : Nat} (h : Good q s) :
    Good q (State.longStart s op by_ total) := by
  unfold State.longStart
  repeat'
    first
      | with_reducible assumption
      | (intro _)
      | (with_reducible apply State.calProgress_good)
      | (with_reducible apply State.setCal_good)
      | (with_reducible apply good_fset)
      | (with_reducible apply good_ite)
      | (with_reducible apply good_ite_snd)
      | (with_reducible apply good_foldl)
      | rfl

theorem State.longEnd_good {q : List Instr} {s : State} {code : Nat} (h : Good q s) :
    Good q (State.longEnd s code) := by
  unfold State.longEnd
  repeat'
    first
      | with_reducible assumption
      | (intro _)
      | (with_reducible apply State.setCal_good)
      | (with_reducible apply State.calAnswer_good)
      | (with_reducible apply State.calDone_good)
      | (with_reducible apply State.longStart_good)
      | (with_reducible apply good_fset)
      | (with_reducible apply good_ite)
      | (with_reducible apply good_ite_snd)
      | (with_reducible apply good_foldl)
      | rfl
      | dsimp only
      | split

theorem State.fullCheck_good {q : List Instr} {s : State} (h : Good q s) :
    Good q (State.fullCheck s) := by
  unfold State.fullCheck
  repeat'
    first
      | with_reducible assumption
      | (intro _)
      | (with_reducible apply State.setCal_good)
      | (with_reducible apply State.longEnd_good)
      | (with_reducible apply good_fon)
      | (with_reducible apply good_ite)
      | (with_reducible apply good_ite_snd)
      | (with_reducible apply good_foldl)
      | rfl
      | dsimp only
      | split

theorem State.regionEnd_good {q : List Instr} {s : State} {r : Nat} {code : Nat} (h : Good q s) :
    Good q (State.regionEnd s r code) := by
  unfold State.regionEnd
  repeat'
    first
      | with_reducible assumption
      | (intro _)
      | (with_reducible apply State.setCalReg_good)
      | (with_reducible apply State.setCal_good)
      | (with_reducible apply State.fullCheck_good)
      | (with_reducible apply State.calWake_good)
      | (with_reducible apply State.calDone_good)
      | (with_reducible apply good_ite)
      | (with_reducible apply good_ite_snd)
      | (with_reducible apply good_foldl)
      | rfl
      | dsimp only
      | split

theorem State.regionDone_good {q : List Instr} {s : State} {r : Nat} (h : Good q s) :
    Good q (State.regionDone s r) := by
  unfold State.regionDone
  repeat'
    first
      | with_reducible assumption
      | (intro _)
      | (with_reducible apply State.ofsUpdate_good)
      | (with_reducible apply State.calNotFull_good)
      | (with_reducible apply State.setCalReg_good)
      | (with_reducible apply State.regionEnd_good)
      | (with_reducible apply good_ite)

theorem State.itemStarved_good {q : List Instr} {s : State} {eo : Bool} {idx : Nat} (h : Good q s) :
    Good q (State.itemStarved s eo idx) := by
  unfold State.itemStarved
  repeat'
    first
      | with_reducible assumption
      | (intro _)
      | (with_reducible apply State.itemEnd_good)
      | (with_reducible apply State.setCal_good)
      | (with_reducible apply State.regionEnd_good)
      | (with_reducible apply State.ofsUpdate_good)
      | (with_reducible apply good_fon)
      | (with_reducible apply good_ite)
      | (with_reducible apply good_ite_snd)
      | (with_reducible apply good_foldl)
      | rfl

theorem State.pinStarved_good {q : List Instr} {s : State} {n : Nat} (h : Good q s) :
    Good q (State.pinStarved s n) := by
  unfold State.pinStarved
  repeat'
    first
      | with_reducible assumption
      | (intro _)
      | (with_reducible apply State.longEnd_good)
      | (with_reducible apply State.calHistory_good)
      | (with_reducible apply State.setCalEo_good)
      | (with_reducible apply good_fon)
      | (with_reducible apply good_ite)
      | (with_reducible apply good_ite_snd)
      | (with_reducible apply good_foldl)
      | rfl

theorem State.runStarved_good {q : List Instr} {s : State} {eo : Bool} {idx : Nat} (h : Good q s) :
    Good q (State.runStarved s eo idx) := by
  unfold State.runStarved
  repeat'
    first
      | with_reducible assumption
      | (intro _)
      | (with_reducible apply State.itemStarved_good)
      | (with_reducible apply State.pinStarved_good)
      | (with_reducible apply good_ite)
      | (with_reducible apply good_ite_snd)
      | (with_reducible apply good_foldl)
      | rfl
      | dsimp only
      | split

theorem State.tempEvalOne_good {q : List Instr} {s : State} {r : Nat} (h : Good q s) :
    Good q (State.tempEvalOne s r) := by
  unfold State.tempEvalOne
  repeat'
    first
      | with_reducible assumption
      | (intro _)
      | (with_reducible apply State.scheduleRegion_good)
      | (with_reducible apply State.calDiscard_good)
      | (with_reducible apply State.setCalReg_good)
      | (with_reducible apply good_ite)

theorem State.tempEval_good {q : List Instr} {s : State} (h : Good q s) :
    Good q (State.tempEval s) := by
  unfold State.tempEval
  repeat'
    first
      | with_reducible assumption
      | (intro _)
      | (with_reducible apply State.tempEvalOne_good)
      | (with_reducible apply State.setCal_good)
      | (with_reducible apply State.addRun_good)
      | (with_reducible apply good_ite)
      | (with_reducible apply good_ite_snd)
      | (with_reducible apply good_foldl)

theorem State.calDegOn_good {q : List Instr} {s : State} (h : Good q s) :
    Good q (State.calDegOn s) := by
  unfold State.calDegOn
  extract_lets s1 s3 c0 s4
  have h1 : Good q s1 := good_foldl h fun st n hst =>
    good_ite (State.calRelease_good hst) (State.setCalEo_good (State.calRelease_good hst))
  clear_value s1
  have h3 : Good q s3 := good_foldl h1 fun st u hst => good_ite (State.setTiu_good hst) hst
  clear_value s3
  have h4 : Good q s4 := by
    simp only [s4, c0]
    split
    · split
      · exact State.calProgress_good (State.setCal_good h3)
      · exact h3
    · exact h3
  clear_value s4
  exact good_foldl (State.calDiscard_good h4) fun st r hst => good_ite (State.setCalReg_good hst) hst

theorem State.calDegOff_good {q : List Instr} {s : State} (h : Good q s) :
    Good q (State.calDegOff s) := by
  unfold State.calDegOff
  repeat'
    first
      | with_reducible assumption
      | (intro _)
      | (with_reducible apply State.setCalReg_good)
      | (with_reducible apply good_ite)
      | (with_reducible apply good_ite_snd)
      | (with_reducible apply good_foldl)

theorem State.pinEnabled_good {q : List Instr} {s : State} {n : Nat} (h : Good q s) :
    Good q (State.pinEnabled s n) := by
  unfold State.pinEnabled
  repeat'
    first
      | with_reducible assumption
      | (intro _)
      | (with_reducible apply State.longEnd_good)
      | (with_reducible apply State.calHistory_good)
      | (with_reducible apply State.setCalEo_good)
      | (with_reducible apply good_ite)
      | (with_reducible apply good_ite_snd)
      | (with_reducible apply good_foldl)
      | rfl
      | dsimp only
      | split

theorem State.pinTable_good {q : List Instr} {s : State} {n : Nat} {mon : Nat} {k : Int} (h : Good q s) :
    Good q (State.pinTable s n mon k) := by
  unfold State.pinTable
  repeat'
    first
      | with_reducible assumption
      | (intro _)
      | (with_reducible apply State.setCalEo_good)
      | (with_reducible apply State.newTable_good)
      | (with_reducible apply good_ite)
      | (with_reducible apply good_ite_snd)
      | (with_reducible apply good_foldl)
      | rfl
      | dsimp only
      | split

theorem State.pinDone_good {q : List Instr} {s : State} {n : Nat} {mon : Nat} {replica : Nat} {load : Bool} (h : Good q s) :
    Good q (State.pinDone s n mon replica load) := by
  unfold State.pinDone
  repeat'
    first
      | with_reducible assumption
      | (intro _)
      | (with_reducible apply State.calHistory_good)
      | (with_reducible apply State.calReject_good)
      | (with_reducible apply State.longEnd_good)
      | (with_reducible apply State.setCalEo_good)
      | (with_reducible apply State.pinTable_good)
      | (with_reducible apply good_ite)
      | (with_reducible apply good_ite_snd)
      | (with_reducible apply good_foldl)
      | rfl
      | dsimp only
      | split

theorem State.loadTiu_good {q : List Instr} {s : State} {u : Nat} (h : Good q s) :
    Good q (State.loadTiu s u).2 := by
  unfold State.loadTiu
  repeat'
    first
      | with_reducible assumption
      | (intro _)
      | (with_reducible apply State.calNotFull_good)
      | (with_reducible apply State.setCalTiu_good)
      | (with_reducible apply good_ite)
      | (with_reducible apply good_ite_snd)

theorem State.loadTiu_good_eq {q : List Instr} {s : State} {u : Nat} {a_ : _} {t_ : State} (he : State.loadTiu s u = (a_, t_)) (h : Good q s) : Good q t_ := by
  have : Good q (State.loadTiu s u).2 := State.loadTiu_good h
  rw [he] at this
  exact this

theorem State.loadEo_good {q : List Instr} {s : State} {n : Nat} (h : Good q s) :
    Good q (State.loadEo s n).2 := by
  unfold State.loadEo
  repeat'
    first
      | with_reducible assumption
      | (intro _)
      | (with_reducible apply State.calNotFull_good)
      | (with_reducible apply State.pendTable_good)
      | (with_reducible apply good_ite)
      | (with_reducible apply good_ite_snd)

theorem State.loadEo_good_eq {q : List Instr} {s : State} {n : Nat} {a_ : _} {t_ : State} (he : State.loadEo s n = (a_, t_)) (h : Good q s) : Good q t_ := by
  have : Good q (State.loadEo s n).2 := State.loadEo_good h
  rw [he] at this
  exact this

theorem State.takeImage_good {q : List Instr} {s : State} {b : List Nat} (h : Good q s) :
    Good q (State.takeImage s b) := by
  unfold State.takeImage
  repeat'
    first
      | with_reducible assumption
      | (intro _)
      | (with_reducible apply State.setCalTiu_good)
      | (with_reducible apply State.calTrimChange_good)
      | (with_reducible apply State.pendTable_good)
      | (with_reducible apply State.setCalEo_good)
      | (with_reducible apply State.setCalReg_good)
      | (with_reducible apply State.setCal_good)
      | (with_reducible apply good_fset)
      | (with_reducible apply good_ite)
      | (with_reducible apply good_ite_snd)
      | (with_reducible apply good_foldl)
      | rfl

theorem State.saveSteps_good {q : List Instr} {s : State} {l : CalLong} {lo : Nat} {hi : Nat} (h : Good q s) :
    Good q (State.saveSteps s l lo hi) := by
  unfold State.saveSteps
  repeat'
    first
      | with_reducible assumption
      | (intro _)
      | (with_reducible apply State.flashWrite_good)
      | (with_reducible apply State.flashErase_good)
      | (with_reducible apply good_ite)

theorem State.calWork_good {q : List Instr} {s : State} {n : Nat} (h : Good q s) :
    Good q (State.calWork s n) := by
  unfold State.calWork
  repeat'
    first
      | with_reducible assumption
      | (intro _)
      | (with_reducible apply State.saveSteps_good)
      | (with_reducible apply State.calProgress_good)
      | (with_reducible apply State.setCal_good)
      | (with_reducible apply memWriteLE_wf)
      | (with_reducible apply memWriteBytes_wf)
      | (with_reducible apply memWrite_wf)
      | (with_reducible apply Good.dramWf)
      | (with_reducible apply Good.flashWf)
      | (with_reducible apply Good.hostWf)
      | (with_reducible apply good_setDram)
      | (with_reducible apply good_ite)
      | (with_reducible apply good_ite_snd)
      | (with_reducible apply good_foldl)
      | rfl
      | dsimp only
      | split

theorem State.exportDone_good {q : List Instr} {s : State} (h : Good q s) :
    Good q (State.exportDone s) := by
  unfold State.exportDone
  repeat'
    first
      | with_reducible assumption
      | (intro _)
      | (with_reducible apply State.longEnd_good)
      | (with_reducible apply memWriteLE_wf)
      | (with_reducible apply memWriteBytes_wf)
      | (with_reducible apply memWrite_wf)
      | (with_reducible apply Good.dramWf)
      | (with_reducible apply Good.flashWf)
      | (with_reducible apply Good.hostWf)
      | (with_reducible apply good_setDram)
      | (with_reducible apply good_ite)
      | (with_reducible apply good_ite_snd)
      | (with_reducible apply good_foldl)
      | rfl
      | dsimp only
      | split

theorem State.importDone_good {q : List Instr} {s : State} (h : Good q s) :
    Good q (State.importDone s) := by
  unfold State.importDone
  repeat'
    first
      | with_reducible assumption
      | (intro _)
      | (with_reducible apply State.longEnd_good)
      | (with_reducible apply State.takeImage_good)
      | (with_reducible apply good_ite)
      | (with_reducible apply good_ite_snd)
      | (with_reducible apply good_foldl)
      | rfl
      | dsimp only
      | split

theorem State.saveDone_good {q : List Instr} {s : State} {bad : List (Nat × Nat)} (h : Good q s) :
    Good q (State.saveDone s bad) := by
  unfold State.saveDone
  repeat'
    first
      | with_reducible assumption
      | (intro _)
      | (with_reducible apply State.flashWrite_good)
      | (with_reducible apply State.flashErase_good)
      | (with_reducible apply State.longEnd_good)
      | (with_reducible apply State.setCal_good)
      | (with_reducible apply good_ite)
      | (with_reducible apply good_ite_snd)
      | (with_reducible apply good_foldl)
      | rfl
      | dsimp only
      | split

theorem State.calStartup_good {q : List Instr} {s : State} (h : Good q s) :
    Good q (State.calStartup s) := by
  unfold State.calStartup
  repeat'
    first
      | with_reducible assumption
      | (intro _)
      | (with_reducible apply State.setCal_good)
      | (with_reducible apply State.ofsUpdate_good)
      | (with_reducible apply State.longStart_good)
      | (with_reducible apply State.scheduleRegion_good)
      | (with_reducible apply State.takeImage_good)
      | (with_reducible apply good_ite)
      | (with_reducible apply good_ite_snd)
      | (with_reducible apply good_foldl)
      | rfl
      | dsimp only
      | split

theorem State.longAsk_good {q : List Instr} {s : State} {x1 : Requester} {seq : Nat} {op : CalOp} {total : Nat} (h : Good q s) :
    Good q (State.longAsk s x1 seq op total) := by
  unfold State.longAsk
  repeat'
    first
      | with_reducible assumption
      | (intro _)
      | (with_reducible apply State.calAnswer_good)
      | (with_reducible apply State.longStart_good)
      | (with_reducible apply good_ite)

theorem State.calWait_good {q : List Instr} {s : State} {x1 : Requester} {seq : Nat} {w : CalWhat} (h : Good q s) :
    Good q (State.calWait s x1 seq w) := by
  unfold State.calWait
  repeat'
    first
      | with_reducible assumption
      | (intro _)
      | (with_reducible apply State.setCal_good)

theorem State.calAbort_good {q : List Instr} {s : State} (h : Good q s) :
    Good q (State.calAbort s) := by
  unfold State.calAbort
  repeat'
    first
      | with_reducible assumption
      | (intro _)
      | (with_reducible apply State.itemEnd_good)
      | (with_reducible apply State.calWake_good)
      | (with_reducible apply State.calDone_good)
      | (with_reducible apply State.setCalReg_good)
      | (with_reducible apply State.longEnd_good)
      | (with_reducible apply good_ite)
      | (with_reducible apply good_ite_snd)
      | (with_reducible apply good_foldl)

theorem State.calCommand_good {q : List Instr} {s : State} {x1 : Requester} {op : Nat} {arg : Nat} (h : Good q s) :
    Good q (State.calCommand s x1 op arg) := by
  unfold State.calCommand
  repeat'
    first
      | with_reducible assumption
      | (intro _)
      | (with_reducible apply State.setCalRes_good)
      | (with_reducible apply State.calAnswer_good)
      | (with_reducible apply State.calAbort_good)
      | (with_reducible apply State.calWait_good)
      | (with_reducible apply State.scheduleRegion_good)
      | (with_reducible apply State.addRun_good)
      | (with_reducible apply State.calDone_good)
      | (with_reducible apply State.longAsk_good)
      | (with_reducible apply State.longStart_good)
      | (with_reducible apply State.trkFit_good)
      | (with_reducible apply State.setCalEo_good)
      | (with_reducible apply State.loadTiu_good)
      | (with_reducible refine State.loadTiu_good_eq (by with_reducible assumption) ?_)
      | (with_reducible apply State.loadEo_good)
      | (with_reducible refine State.loadEo_good_eq (by with_reducible assumption) ?_)
      | (with_reducible apply good_fon)
      | (with_reducible apply good_ite)
      | (with_reducible apply good_ite_snd)
      | (with_reducible apply good_foldl)
      | rfl

theorem State.setLongNone_good {q : List Instr} {s : State} (h : Good q s) :
    Good q (State.setLongNone s) := by
  unfold State.setLongNone
  repeat'
    first
      | with_reducible assumption
      | (intro _)
      | (with_reducible apply State.setCal_good)
      | (with_reducible apply good_fset)
      | (with_reducible apply good_ite)
      | (with_reducible apply good_ite_snd)
      | (with_reducible apply good_foldl)
      | rfl

theorem State.calBlockReset_good {q : List Instr} {s : State} (h : Good q s) :
    Good q (State.calBlockReset s) := by
  unfold State.calBlockReset
  repeat'
    first
      | with_reducible assumption
      | (intro _)
      | (with_reducible apply State.itemEnd_good)
      | (with_reducible apply State.setLongNone_good)
      | (with_reducible apply State.longEnd_good)
      | (with_reducible apply State.setCal_good)
      | (with_reducible apply State.calRelease_good)
      | (with_reducible apply State.setCalEo_good)
      | (with_reducible apply good_ite)
      | (with_reducible apply good_ite_snd)
      | (with_reducible apply good_foldl)
      | rfl
      | dsimp only
      | split

end Sys2Proof.Machine
end

