-- ==== Sys2Proof/Laws/SoundTiuOps.lean ====
section
/-! SUPPORT. Each operation of TiuOps keeps a state sound and its queue. -/

namespace Sys2Proof.Machine

theorem State.tiuPush_good {q : List Instr} {s : State} {u : Nat} {r : Rec} {eo : Option Nat} (h : Good q s) :
    Good q (State.tiuPush s u r eo) := by
  unfold State.tiuPush
  repeat'
    first
      | with_reducible assumption
      | (intro _)
      | (with_reducible apply State.setTiu_good)
      | (with_reducible apply good_fon)
      | (with_reducible apply good_cnt)
      | (with_reducible apply good_ite)
      | (with_reducible apply good_ite_snd)
      | (with_reducible apply good_foldl)
      | rfl

theorem State.tiuPushReserved_good {q : List Instr} {s : State} {u : Nat} {r : Rec} {eo : Option Nat} (h : Good q s) :
    Good q (State.tiuPushReserved s u r eo) := by
  unfold State.tiuPushReserved
  repeat'
    first
      | with_reducible assumption
      | (intro _)
      | (with_reducible apply State.tiuPush_good)
      | (with_reducible apply State.setTiu_good)

end Sys2Proof.Machine
end

