-- ==== Sys2Proof/Laws/SoundEoOps.lean ====
section
/-! SUPPORT. Each operation of EoOps keeps a state sound and its queue. -/

namespace Sys2Proof.Machine

theorem State.eoLeave_good {q : List Instr} {s : State} {n : Nat} {p : QAct → Bool} (h : Good q s) :
    Good q (State.eoLeave s n p) := by
  unfold State.eoLeave
  repeat'
    first
      | with_reducible assumption
      | (intro _)
      | (with_reducible apply State.setEo_good)
      | (with_reducible apply State.raiseIf_good)
      | (with_reducible apply good_ite)

theorem State.eoSettle_good {q : List Instr} {s : State} {n : Nat} (h : Good q s) :
    Good q (State.eoSettle s n) := by
  unfold State.eoSettle
  repeat'
    first
      | with_reducible assumption
      | (intro _)
      | (with_reducible apply State.eoLeave_good)

theorem State.setQres_good {q : List Instr} {s : State} {x1 : Requester} {n : Nat} {r : QRes} (h : Good q s) :
    Good q (State.setQres s x1 n r) := by
  exact h.same rfl rfl rfl rfl rfl

theorem State.eoResult_good {q : List Instr} {s : State} {n : Nat} {src : ActSrc} {code : Nat} (h : Good q s) :
    Good q (State.eoResult s n src code) := by
  unfold State.eoResult
  repeat'
    first
      | with_reducible assumption
      | (intro _)
      | (with_reducible apply State.setQres_good)
      | (with_reducible apply State.actionResult_good)
      | (with_reducible apply good_fon)
      | (with_reducible apply good_cnt)
      | (with_reducible apply good_ite)
      | (with_reducible apply good_ite_snd)
      | (with_reducible apply good_foldl)
      | rfl
      | dsimp only
      | split

theorem State.eoLate_good {q : List Instr} {s : State} {n : Nat} {ts : Instant} {tag : Nat} (h : Good q s) :
    Good q (State.eoLate s n ts tag) := by
  unfold State.eoLate
  repeat'
    first
      | with_reducible assumption
      | (intro _)
      | (with_reducible apply State.raiseEv_good)
      | (with_reducible apply good_fon)
      | (with_reducible apply good_cnt)
      | (with_reducible apply good_ite)
      | (with_reducible apply good_ite_snd)
      | (with_reducible apply good_foldl)
      | rfl

theorem State.eoEnqueue_good {q : List Instr} {s : State} {n : Nat} {a : QAct} {chain : Bool} (h : Good q s) :
    Good q (State.eoEnqueue s n a chain) := by
  unfold State.eoEnqueue
  repeat'
    first
      | with_reducible assumption
      | (intro _)
      | (with_reducible apply State.eoSettle_good)
      | (with_reducible apply State.setEo_good)

theorem State.eoJudge_good {q : List Instr} {s : State} {n : Nat} {o : Offer} (h : Good q s) :
    Good q (State.eoJudge s n o).1 := by
  unfold State.eoJudge
  repeat'
    first
      | with_reducible assumption
      | (intro _)
      | (with_reducible apply State.setEo_good)
      | (with_reducible apply State.eoLate_good)
      | (with_reducible apply State.eoEnqueue_good)
      | (with_reducible apply good_fon)
      | (with_reducible apply good_ite)
      | (with_reducible apply good_ite_snd)
      | (with_reducible apply good_foldl)
      | rfl
      | dsimp only
      | split

theorem State.eoOffer_good {q : List Instr} {s : State} {n : Nat} {o : Offer} (h : Good q s) :
    Good q (State.eoOffer s n o) := by
  unfold State.eoOffer
  repeat'
    first
      | with_reducible assumption
      | (intro _)
      | (with_reducible apply State.setEo_good)

theorem State.eoAccept_good {q : List Instr} {s : State} {n : Nat} (h : Good q s) :
    Good q (State.eoAccept s n) := by
  unfold State.eoAccept
  repeat'
    first
      | with_reducible assumption
      | (intro _)
      | (with_reducible apply State.setEo_good)
      | (with_reducible apply State.eoJudge_good)
      | (with_reducible apply State.calRelease_good)
      | (with_reducible apply State.eoResult_good)
      | (with_reducible apply good_ite)
      | (with_reducible apply good_ite_snd)
      | (with_reducible apply good_foldl)
      | rfl
      | dsimp only
      | split

theorem State.actFull_good {q : List Instr} {s : State} {n : Nat} {id : Nat} (h : Good q s) :
    Good q (State.actFull s n id) := by
  unfold State.actFull
  repeat'
    first
      | with_reducible assumption
      | (intro _)
      | (with_reducible apply State.eoLeave_good)
      | (with_reducible apply good_fon)
      | (with_reducible apply good_cnt)
      | (with_reducible apply good_ite)
      | (with_reducible apply good_ite_snd)
      | (with_reducible apply good_foldl)
      | rfl

theorem State.eoActivate_good {q : List Instr} {s : State} {n : Nat} (h : Good q s) :
    Good q (State.eoActivate s n) := by
  unfold State.eoActivate
  repeat'
    first
      | with_reducible assumption
      | (intro _)
      | (with_reducible apply State.actFull_good)
      | (with_reducible apply State.setEo_good)
      | (with_reducible apply good_ite)
      | (with_reducible apply good_ite_snd)
      | (with_reducible apply good_foldl)
      | rfl
      | dsimp only
      | split

theorem State.filterJudge_good {q : List Instr} {s : State} {n : Nat} {t : Trans} (h : Good q s) :
    Good q (State.filterJudge s n t) := by
  unfold State.filterJudge
  repeat'
    first
      | with_reducible assumption
      | (intro _)
      | (with_reducible apply State.setEo_good)
      | (with_reducible apply good_fon)
      | (with_reducible apply good_cnt)
      | (with_reducible apply good_ite)
      | (with_reducible apply good_ite_snd)
      | (with_reducible apply good_foldl)
      | rfl
      | dsimp only
      | split

theorem State.eoFilter_good {q : List Instr} {s : State} {n : Nat} (h : Good q s) :
    Good q (State.eoFilter s n) := by
  unfold State.eoFilter
  repeat'
    first
      | with_reducible assumption
      | (intro _)
      | (with_reducible apply State.eoSettle_good)
      | (with_reducible apply State.filterJudge_good)
      | (with_reducible apply State.setEo_good)
      | (with_reducible apply good_ite)
      | (with_reducible apply good_ite_snd)
      | (with_reducible apply good_foldl)
      | rfl
      | dsimp only
      | split

theorem State.eoCommit_good {q : List Instr} {s0 : State} {n : Nat} (h : Good q s0) :
    Good q (State.eoCommit s0 n) := by
  unfold State.eoCommit
  repeat'
    first
      | with_reducible assumption
      | (intro _)
      | (with_reducible apply State.calRelease_good)
      | (with_reducible apply State.setEo_good)
      | (with_reducible apply State.eoSettle_good)
      | (with_reducible apply State.commitTable_good)
      | (with_reducible refine State.commitTable_good_eq (by with_reducible assumption) ?_)
      | (with_reducible apply good_fon)
      | (with_reducible apply good_cnt)
      | (with_reducible apply good_ite)
      | (with_reducible apply good_ite_snd)
      | (with_reducible apply good_foldl)
      | (with_reducible apply good_foldl_snd)
      | rfl
      | dsimp only
      | split

theorem State.eoRec_good {q : List Instr} {s : State} {n : Nat} {time : Instant} {value : Int} {flags : Nat} {outcome : Nat} {res : Int} (h : Good q s) :
    Good q (State.eoRec s n time value flags outcome res).2 := by
  unfold State.eoRec
  repeat'
    first
      | with_reducible assumption
      | (intro _)
      | (with_reducible apply State.setEo_good)
      | (with_reducible apply good_ite)

theorem State.eoRec_good_eq {q : List Instr} {s : State} {n : Nat} {time : Instant} {value : Int} {flags : Nat} {outcome : Nat} {res : Int} {a_ : _} {t_ : State} (he : State.eoRec s n time value flags outcome res = (a_, t_)) (h : Good q s) : Good q t_ := by
  have : Good q (State.eoRec s n time value flags outcome res).2 := State.eoRec_good h
  rw [he] at this
  exact this

theorem State.eoSelect_good {q : List Instr} {s : State} {n : Nat} {w : Win} {prev : Option Instant} (h : Good q s) :
    Good q (State.eoSelect s n w prev) := by
  unfold State.eoSelect
  repeat'
    first
      | with_reducible assumption
      | (intro _)
      | (with_reducible apply State.setEo_good)
      | (with_reducible apply State.setTiu_good)
      | (with_reducible apply State.eoRec_good)
      | (with_reducible refine State.eoRec_good_eq (by with_reducible assumption) ?_)
      | (with_reducible apply State.tiuPush_good)
      | (with_reducible apply good_cnt)
      | (with_reducible apply good_ite)
      | (with_reducible apply good_ite_snd)
      | (with_reducible apply good_foldl)
      | rfl

theorem State.eoLaunch_good {q : List Instr} {s : State} {n : Nat} (h : Good q s) :
    Good q (State.eoLaunch s n) := by
  unfold State.eoLaunch
  repeat'
    first
      | with_reducible assumption
      | (intro _)
      | (with_reducible apply State.setEo_good)
      | (with_reducible apply State.raiseEv_good)
      | (with_reducible apply State.eoSelect_good)
      | (with_reducible apply good_fonIf)
      | (with_reducible apply good_cnt64)
      | (with_reducible apply good_ite)
      | (with_reducible apply good_ite_snd)
      | (with_reducible apply good_foldl)
      | rfl
      | dsimp only
      | split

theorem State.eoExtra_good {q : List Instr} {s : State} {n : Nat} {t : Instant} {rising : Bool} (h : Good q s) :
    Good q (State.eoExtra s n t rising) := by
  unfold State.eoExtra
  repeat'
    first
      | with_reducible assumption
      | (intro _)
      | (with_reducible apply State.raiseEv_good)
      | (with_reducible apply State.report_good)
      | (with_reducible apply State.eoRec_good)
      | (with_reducible refine State.eoRec_good_eq (by with_reducible assumption) ?_)
      | (with_reducible apply State.tiuPush_good)
      | (with_reducible apply good_fon)
      | (with_reducible apply good_cnt)
      | (with_reducible apply good_ite)
      | (with_reducible apply good_ite_snd)
      | (with_reducible apply good_foldl)
      | rfl

theorem State.eoMonitorHit_good {q : List Instr} {s : State} {n : Nat} {t : Instant} {rising : Bool} (h : Good q s) :
    Good q (State.eoMonitorHit s n t rising) := by
  unfold State.eoMonitorHit
  repeat'
    first
      | with_reducible assumption
      | (intro _)
      | (with_reducible apply State.setEo_good)
      | (with_reducible apply State.eoExtra_good)
      | (with_reducible apply good_ite)

theorem State.eoOutcome_good {q : List Instr} {s : State} {n : Nat} {w : Win} (h : Good q s) :
    Good q (State.eoOutcome s n w) := by
  unfold State.eoOutcome
  repeat'
    first
      | with_reducible assumption
      | (intro _)
      | (with_reducible apply State.eoRec_good)
      | (with_reducible refine State.eoRec_good_eq (by with_reducible assumption) ?_)
      | (with_reducible apply State.raiseEv_good)
      | (with_reducible apply State.calTrack_good)
      | (with_reducible apply State.tiuPushReserved_good)
      | (with_reducible apply State.report_good)
      | (with_reducible apply good_fon)
      | (with_reducible apply good_cnt)
      | (with_reducible apply good_ite)
      | (with_reducible apply good_ite_snd)
      | (with_reducible apply good_foldl)
      | rfl
      | dsimp only
      | split

theorem State.eoVerify_good {q : List Instr} {s : State} {n : Nat} (h : Good q s) :
    Good q (State.eoVerify s n) := by
  unfold State.eoVerify
  repeat'
    first
      | with_reducible assumption
      | (intro _)
      | (with_reducible apply State.eoOutcome_good)
      | (with_reducible apply State.setEo_good)
      | (with_reducible apply good_ite)
      | (with_reducible apply good_ite_snd)
      | (with_reducible apply good_foldl)
      | rfl
      | dsimp only
      | split

theorem State.eoClear_good {q : List Instr} {s : State} {n : Nat} {keepCommitted : Bool} (h : Good q s) :
    Good q (State.eoClear s n keepCommitted) := by
  unfold State.eoClear
  repeat'
    first
      | with_reducible assumption
      | (intro _)
      | (with_reducible apply State.eoLeave_good)
      | (with_reducible apply State.setEo_good)

theorem State.eoForce_good {q : List Instr} {s0 : State} {n : Nat} {lvl : Bool} {tag : Nat} (h : Good q s0) :
    Good q (State.eoForce s0 n lvl tag) := by
  unfold State.eoForce
  repeat'
    first
      | with_reducible assumption
      | (intro _)
      | (with_reducible apply State.calRelease_good)
      | (with_reducible apply State.setEo_good)
      | (with_reducible apply good_ite)

theorem State.eoDisableCh_good {q : List Instr} {s : State} {n : Nat} (h : Good q s) :
    Good q (State.eoDisableCh s n) := by
  unfold State.eoDisableCh
  repeat'
    first
      | with_reducible assumption
      | (intro _)
      | (with_reducible apply State.eoClear_good)
      | (with_reducible apply State.setEo_good)
      | (with_reducible apply State.idleTable_good)
      | (with_reducible apply State.eoForce_good)
      | (with_reducible apply good_ite)

theorem State.closeWins_good {q : List Instr} {s : State} {n : Nat} (h : Good q s) :
    Good q (State.closeWins s n) := by
  unfold State.closeWins
  repeat'
    first
      | with_reducible assumption
      | (intro _)
      | (with_reducible apply State.setEo_good)
      | (with_reducible apply State.setTiu_good)

theorem State.bankDown_good {q : List Instr} {s : State} {b : Nat} (h : Good q s) :
    Good q (State.bankDown s b) := by
  unfold State.bankDown
  repeat'
    first
      | with_reducible assumption
      | (intro _)
      | (with_reducible apply State.calRelease_good)
      | (with_reducible apply State.closeWins_good)
      | (with_reducible apply State.eoClear_good)
      | (with_reducible apply State.setEo_good)
      | (with_reducible apply good_ite)
      | (with_reducible apply good_ite_snd)
      | (with_reducible apply good_foldl)

theorem State.bankUp_good {q : List Instr} {s : State} {b : Nat} (h : Good q s) :
    Good q (State.bankUp s b) := by
  unfold State.bankUp
  repeat'
    first
      | with_reducible assumption
      | (intro _)
      | (with_reducible apply State.calBankUp_good)
      | (with_reducible apply State.setEo_good)
      | (with_reducible apply good_ite)
      | (with_reducible apply good_ite_snd)
      | (with_reducible apply good_foldl)

theorem State.bankUpDone_good {q : List Instr} {s : State} {b : Nat} (h : Good q s) :
    Good q (State.bankUpDone s b) := by
  unfold State.bankUpDone
  repeat'
    first
      | with_reducible assumption
      | (intro _)
      | (with_reducible apply State.setEo_good)
      | (with_reducible apply good_ite)
      | (with_reducible apply good_ite_snd)
      | (with_reducible apply good_foldl)

theorem State.eoReact_good {q : List Instr} {s : State} {n : Nat} {react : Nat} (h : Good q s) :
    Good q (State.eoReact s n react) := by
  unfold State.eoReact
  repeat'
    first
      | with_reducible assumption
      | (intro _)
      | (with_reducible apply State.eoClear_good)
      | (with_reducible apply State.setEo_good)
      | (with_reducible apply State.eoForce_good)
      | (with_reducible apply good_ite)

theorem State.eoTrigOne_good {q : List Instr} {s : State} {n : Nat} {ev : Stamp} (h : Good q s) :
    Good q (State.eoTrigOne s n ev) := by
  unfold State.eoTrigOne
  repeat'
    first
      | with_reducible assumption
      | (intro _)
      | (with_reducible apply State.eoOffer_good)
      | (with_reducible apply good_fset)
      | (with_reducible apply good_fon)
      | (with_reducible apply good_cnt)
      | (with_reducible apply State.hwMark_good)
      | (with_reducible apply good_ite)
      | (with_reducible apply good_ite_snd)
      | (with_reducible apply good_foldl)
      | (with_reducible apply good_foldl_snd)
      | rfl

theorem State.teCommit_good {q : List Instr} {s : State} {x1 : Requester} {n : Nat} {e : Nat} (h : Good q s) :
    Good q (State.teCommit s x1 n e) := by
  unfold State.teCommit
  repeat'
    first
      | with_reducible assumption
      | (intro _)
      | (with_reducible apply State.setQres_good)
      | (with_reducible apply State.setEo_good)
      | (with_reducible apply good_fon)
      | (with_reducible apply good_ite)
      | (with_reducible apply good_ite_snd)
      | (with_reducible apply good_foldl)
      | rfl

theorem State.qeCommit_good {q : List Instr} {s : State} {x1 : Requester} {n : Nat} {e : Nat} (h : Good q s) :
    Good q (State.qeCommit s x1 n e) := by
  unfold State.qeCommit
  repeat'
    first
      | with_reducible assumption
      | (intro _)
      | (with_reducible apply State.eoOffer_good)
      | (with_reducible apply State.setQres_good)

theorem State.engPut_good {q : List Instr} {s0 : State} {ch : Nat} {act : Nat} {k : Nat} {t : Instant} {lvl : Bool} {tag : Nat} {late : Bool} (h : Good q s0) :
    Good q (State.engPut s0 ch act k t lvl tag late) := by
  unfold State.engPut
  repeat'
    first
      | with_reducible assumption
      | (intro _)
      | (with_reducible apply State.calRelease_good)
      | (with_reducible apply State.setEo_good)
      | (with_reducible apply good_ite)

theorem State.engOutputs_good {q : List Instr} {s : State} {n : Nat} {e : Engine} {o0 : Bool × Bool × Bool} {o1 : Bool × Bool × Bool} {t : Instant} {late : Bool} {out : (Nat → Bool)} (h : Good q s) :
    Good q (State.engOutputs s n e o0 o1 t late out) := by
  unfold State.engOutputs
  repeat'
    first
      | with_reducible assumption
      | (intro _)
      | (with_reducible apply State.engPut_good)
      | (with_reducible apply good_ite)

theorem State.engCross_good {q : List Instr} {s : State} {n : Nat} {e : Engine} {e1 : Engine} {out : (Nat → Bool)} (h : Good q s) :
    Good q (State.engCross s n e e1 out) := by
  unfold State.engCross
  repeat'
    first
      | with_reducible assumption
      | (intro _)
      | (with_reducible apply State.engOutputs_good)
      | (with_reducible apply good_ite)

theorem State.engReplay_good {q : List Instr} {s : State} {n upto : Nat} {out : Nat → Bool} {fuel : Nat} {e : Engine} (h : Good q s) :
    Good q (State.engReplay s n out upto fuel e) := by
  induction fuel generalizing s e with
  | zero => exact h
  | succ k ih =>
    rw [State.engReplay]
    exact good_ite h (ih (State.engCross_good h))

theorem State.engAgain_good {q : List Instr} {s : State} {n : Nat} {out : Nat → Bool} {k : Track} (h : Good q s) :
    Good q (State.engAgain s n out k) := by
  unfold State.engAgain
  repeat'
    first
      | with_reducible assumption
      | (intro _)
      | (with_reducible apply State.engReplay_good)
      | (with_reducible apply State.engOutputs_good)

theorem State.followJoin_good {q : List Instr} {s : State} {n : Nat} {m : Nat} {out : Nat} (h : Good q s) :
    Good q (State.followJoin s n m out) := by
  unfold State.followJoin
  repeat'
    first
      | with_reducible assumption
      | (intro _)
      | (with_reducible apply State.engReplay_good)
      | (with_reducible apply State.eoForce_good)
      | (with_reducible apply State.engAgain_good)
      | (with_reducible apply good_ite)
      | (with_reducible apply good_ite_snd)
      | (with_reducible apply good_foldl)

theorem State.eoEnableCh_good {q : List Instr} {s0 : State} {n : Nat} (h : Good q s0) :
    Good q (State.eoEnableCh s0 n) := by
  unfold State.eoEnableCh
  repeat'
    first
      | with_reducible assumption
      | (intro _)
      | (with_reducible apply State.pinEnabled_good)
      | (with_reducible apply State.setEo_good)
      | (with_reducible apply State.followJoin_good)
      | (with_reducible apply good_ite)
      | (with_reducible apply good_ite_snd)
      | (with_reducible apply good_foldl)
      | (with_reducible apply good_foldl_snd)
      | rfl
      | dsimp only
      | split

theorem State.engEnd_good {q : List Instr} {s : State} {n : Nat} {id : Nat} (h : Good q s) :
    Good q (State.engEnd s n id) := by
  unfold State.engEnd
  repeat'
    first
      | with_reducible assumption
      | (intro _)
      | (with_reducible apply State.eoSettle_good)
      | (with_reducible apply State.setEo_good)

theorem State.engTick_good {q : List Instr} {s : State} {n : Nat} (h : Good q s) :
    Good q (State.engTick s n) := by
  unfold State.engTick
  repeat'
    first
      | with_reducible assumption
      | (intro _)
      | (with_reducible apply State.engEnd_good)
      | (with_reducible apply State.setEo_good)
      | (with_reducible apply State.engOutputs_good)
      | (with_reducible apply good_ite)
      | (with_reducible apply good_ite_snd)
      | (with_reducible apply good_foldl)
      | rfl
      | dsimp only
      | split

theorem State.contNone_good {q : List Instr} {s : State} {n : Nat} {id : Nat} (h : Good q s) :
    Good q (State.contNone s n id) := by
  unfold State.contNone
  repeat'
    first
      | with_reducible assumption
      | (intro _)
      | (with_reducible apply State.eoLeave_good)
      | (with_reducible apply State.setEo_good)
      | (with_reducible apply good_fon)
      | (with_reducible apply good_cnt)
      | (with_reducible apply good_ite)
      | (with_reducible apply good_ite_snd)
      | (with_reducible apply good_foldl)
      | rfl

theorem State.profStart_good {q : List Instr} {s : State} {n : Nat} (h : Good q s) :
    Good q (State.profStart s n) := by
  unfold State.profStart
  repeat'
    first
      | with_reducible assumption
      | (intro _)
      | (with_reducible apply State.contNone_good)
      | (with_reducible apply State.actFull_good)
      | (with_reducible apply State.setEo_good)
      | (with_reducible apply State.engOutputs_good)
      | (with_reducible apply State.engEnd_good)
      | (with_reducible apply good_ite)
      | (with_reducible apply good_ite_snd)
      | (with_reducible apply good_foldl)
      | rfl
      | dsimp only
      | split

theorem State.profSegEnd_good {q : List Instr} {s : State} {n : Nat} (h : Good q s) :
    Good q (State.profSegEnd s n) := by
  unfold State.profSegEnd
  repeat'
    first
      | with_reducible assumption
      | (intro _)
      | (with_reducible apply State.engEnd_good)
      | (with_reducible apply State.setEo_good)
      | (with_reducible apply good_ite)
      | (with_reducible apply good_ite_snd)
      | (with_reducible apply good_foldl)
      | rfl
      | dsimp only
      | split

theorem State.cancelCut_good {q : List Instr} {s : State} {n : Nat} (h : Good q s) :
    Good q (State.cancelCut s n) := by
  unfold State.cancelCut
  repeat'
    first
      | with_reducible assumption
      | (intro _)
      | (with_reducible apply State.setEo_good)
      | (with_reducible apply State.eoLeave_good)
      | (with_reducible apply State.engEnd_good)
      | (with_reducible apply State.eoSettle_good)
      | (with_reducible apply good_ite)
      | (with_reducible apply good_ite_snd)
      | (with_reducible apply good_foldl)
      | rfl
      | dsimp only
      | split

theorem State.skipOne_good {q : List Instr} {s : State} {n : Nat} {ts : Instant} {tag : Nat} (h : Good q s) :
    Good q (State.skipOne s n ts tag) := by
  unfold State.skipOne
  repeat'
    first
      | with_reducible assumption
      | (intro _)
      | (with_reducible apply State.raiseEv_good)
      | (with_reducible apply good_fon)
      | (with_reducible apply good_cnt)
      | (with_reducible apply good_ite)
      | (with_reducible apply good_ite_snd)
      | (with_reducible apply good_foldl)
      | rfl

theorem State.skipPulses_good {q : List Instr} {fuel : Nat} {s : State} {n id : Nat} (h : Good q s) :
    Good q (State.skipPulses fuel s n id) := by
  induction fuel generalizing s with
  | zero => exact h
  | succ k ih =>
    rw [State.skipPulses]
    repeat'
      first
        | with_reducible assumption
        | (with_reducible apply ih)
        | (with_reducible apply State.skipOne_good)
        | (with_reducible apply State.setEo_good)
        | (with_reducible apply good_ite)
        | dsimp only
        | split

theorem State.skipFlow_good {q : List Instr} {s : State} {n : Nat} (h : Good q s) :
    Good q (State.skipFlow s n) := by
  unfold State.skipFlow
  repeat'
    first
      | with_reducible assumption
      | (intro _)
      | (with_reducible apply State.setEo_good)
      | (with_reducible apply State.skipOne_good)
      | (with_reducible apply good_ite)
      | (with_reducible apply good_ite_snd)
      | (with_reducible apply good_foldl)

theorem State.skipQueued_good {q : List Instr} {s : State} {n : Nat} {a : QAct} (h : Good q s) :
    Good q (State.skipQueued s n a) := by
  unfold State.skipQueued
  repeat'
    first
      | with_reducible assumption
      | (intro _)
      | (with_reducible apply State.eoLate_good)
      | (with_reducible apply State.eoLeave_good)
      | (with_reducible apply State.setEo_good)
      | (with_reducible apply good_ite)

theorem State.engForward_good {q : List Instr} {s : State} {n : Nat} (h : Good q s) :
    Good q (State.engForward s n) := by
  unfold State.engForward
  repeat'
    first
      | with_reducible assumption
      | (intro _)
      | (with_reducible apply State.setEo_good)
      | (with_reducible apply State.engOutputs_good)
      | (with_reducible apply State.engTick_good)
      | (with_reducible apply State.engAgain_good)
      | (with_reducible apply State.engReplay_good)
      | (with_reducible apply good_ite)
      | (with_reducible apply good_ite_snd)
      | (with_reducible apply good_foldl)
      | (with_reducible apply good_foldl_snd)
      | rfl
      | dsimp only
      | split

theorem State.eoRejudge_good {q : List Instr} {s : State} {n : Nat} (h : Good q s) :
    Good q (State.eoRejudge s n) := by
  unfold State.eoRejudge
  repeat'
    first
      | with_reducible assumption
      | (intro _)
      | (with_reducible apply State.setEo_good)
      | (with_reducible apply good_cntAdd)
      | (with_reducible apply good_ite)
      | (with_reducible apply good_ite_snd)
      | (with_reducible apply good_foldl)
      | (with_reducible apply good_foldl_snd)
      | rfl

theorem State.eoForward_good {q : List Instr} {s : State} {n : Nat} (h : Good q s) :
    Good q (State.eoForward s n) := by
  unfold State.eoForward
  repeat'
    first
      | with_reducible assumption
      | (intro _)
      | (with_reducible apply State.engForward_good)
      | (with_reducible apply State.skipFlow_good)
      | (with_reducible apply State.skipPulses_good)
      | (with_reducible apply State.skipQueued_good)
      | (with_reducible apply State.eoSettle_good)
      | (with_reducible apply State.eoRejudge_good)
      | (with_reducible apply good_ite)
      | (with_reducible apply good_ite_snd)
      | (with_reducible apply good_foldl)

end Sys2Proof.Machine
end

