-- ==== Sys2Proof/Laws/SoundCalGap.lean ====
section
/-! SUPPORT. Each operation of CalGap keeps a state sound and its queue. -/

namespace Sys2Proof.Machine

theorem State.calHoldEo_good {q : List Instr} {s : State} {n : Nat} {steps : List (List Nat)} (h : Good q s) :
    Good q (State.calHoldEo s n steps) := by
  unfold State.calHoldEo
  repeat'
    first
      | with_reducible assumption
      | (intro _)
      | (with_reducible apply State.setCalEo_good)
      | (with_reducible apply State.calTrims_good)
      | (with_reducible apply State.setTiu_good)
      | (with_reducible apply good_ite)

theorem State.calHoldTiu_good {q : List Instr} {s : State} {u : Nat} {steps : List (List Nat)} (h : Good q s) :
    Good q (State.calHoldTiu s u steps) := by
  unfold State.calHoldTiu
  repeat'
    first
      | with_reducible assumption
      | (intro _)
      | (with_reducible apply State.calTrims_good)
      | (with_reducible apply State.setTiu_good)
      | (with_reducible apply good_ite)

theorem State.calGaps_good {q : List Instr} {s : State} (h : Good q s) :
    Good q (State.calGaps s) := by
  unfold State.calGaps
  repeat'
    first
      | with_reducible assumption
      | (intro _)
      | (with_reducible apply State.calRelease_good)
      | (with_reducible apply good_ite)
      | (with_reducible apply good_ite_snd)
      | (with_reducible apply good_foldl)

theorem State.calIdles_good {q : List Instr} {s : State} (h : Good q s) :
    Good q (State.calIdles s) := by
  unfold State.calIdles
  repeat'
    first
      | with_reducible assumption
      | (intro _)
      | (with_reducible apply State.idleTable_good)
      | (with_reducible apply good_ite)
      | (with_reducible apply good_ite_snd)
      | (with_reducible apply good_foldl)

theorem State.calTick_good {q : List Instr} {s : State} {dither : List (Nat × Nat)} {work : Nat} (h : Good q s) :
    Good q (State.calTick s dither work) := by
  unfold State.calTick
  repeat'
    first
      | with_reducible assumption
      | (intro _)
      | (with_reducible apply State.calIdles_good)
      | (with_reducible apply State.calGaps_good)
      | (with_reducible apply State.calWork_good)
      | (with_reducible apply State.calDitherHit_good)
      | (with_reducible apply good_ite)
      | (with_reducible apply good_ite_snd)
      | (with_reducible apply good_foldl)

end Sys2Proof.Machine
end

