-- ==== Sys2Proof/Laws/SoundTiuHit.lean ====
section
/-! SUPPORT. Each operation of TiuHit keeps a state sound and its queue. -/

namespace Sys2Proof.Machine

theorem State.measGive_good {q : List Instr} {s : State} {u : Nat} {r : Rec} {tag : Nat} (h : Good q s) :
    Good q (State.measGive s u r tag) := by
  unfold State.measGive
  repeat'
    first
      | with_reducible assumption
      | (intro _)
      | (with_reducible apply good_ite)
      | (with_reducible apply good_ite_snd)
      | (with_reducible apply good_foldl)
      | rfl
      | dsimp only
      | split
      | omega
      | (with_reducible apply good_mk)

theorem State.tiuComplete_good {q : List Instr} {s : State} {u : Nat} {time : Instant} {value : Int} {f : RecFlags} {aux : Nat} {tag : Nat} {at_ : Instant} {ends : Bool} (h : Good q s) :
    Good q (State.tiuComplete s u time value f aux tag at_ ends) := by
  unfold State.tiuComplete
  repeat'
    first
      | with_reducible assumption
      | (intro _)
      | (with_reducible apply State.setTiu_good)
      | (with_reducible apply State.measGive_good)
      | (with_reducible apply State.tiuPush_good)
      | (with_reducible apply State.raiseIf_good)
      | (with_reducible apply good_fonIf)
      | (with_reducible apply good_ite)
      | (with_reducible apply good_ite_snd)
      | (with_reducible apply good_foldl)
      | rfl

theorem State.closeDue_good {q : List Instr} {s : State} {u : Nat} {before : Nat × Nat → Bool} (h : Good q s) :
    Good q (State.closeDue s u before) := by
  unfold State.closeDue
  repeat'
    first
      | with_reducible assumption
      | (intro _)
      | (with_reducible apply State.setTiu_good)
      | (with_reducible apply good_ite)

theorem State.pairDone_good {q : List Instr} {s : State} {u : Nat} {start : Half} {stop : Half} {at_ : Instant} {arb : Bool} (h : Good q s) :
    Good q (State.pairDone s u start stop at_ arb) := by
  unfold State.pairDone
  repeat'
    first
      | with_reducible assumption
      | (intro _)
      | (with_reducible apply State.tiuComplete_good)
      | (with_reducible apply State.setTiu_good)

theorem State.tiuOvf_good {q : List Instr} {s : State} {u : Nat} {x2 : Half} (h : Good q s) :
    Good q (State.tiuOvf s u x2) := by
  unfold State.tiuOvf
  repeat'
    first
      | with_reducible assumption
      | (intro _)
      | (with_reducible apply State.tiuComplete_good)
      | (with_reducible apply State.closeDue_good)
      | (with_reducible apply State.setTiu_good)
      | (with_reducible apply good_cnt)
      | (with_reducible apply good_ite)
      | (with_reducible apply good_ite_snd)
      | (with_reducible apply good_foldl)
      | (with_reducible apply good_foldl_snd)
      | rfl

theorem State.tiuExpire_good {q : List Instr} {s : State} {u : Nat} {e : Instant} (h : Good q s) :
    Good q (State.tiuExpire s u e) := by
  unfold State.tiuExpire
  repeat'
    first
      | with_reducible assumption
      | (intro _)
      | (with_reducible apply State.tiuComplete_good)
      | (with_reducible apply State.closeDue_good)
      | (with_reducible apply State.setTiu_good)
      | (with_reducible apply good_cnt)
      | (with_reducible apply good_ite)
      | (with_reducible apply good_ite_snd)
      | (with_reducible apply good_foldl)
      | (with_reducible apply good_foldl_snd)
      | rfl

theorem State.tiuLapse_good {q : List Instr} {s : State} {u : Nat} {ts : Instant} {tick : Nat} (h : Good q s) :
    Good q (State.tiuLapse s u ts tick) := by
  unfold State.tiuLapse
  repeat'
    first
      | with_reducible assumption
      | (intro _)
      | (with_reducible apply State.tiuOvf_good)
      | (with_reducible apply State.tiuExpire_good)
      | (with_reducible apply good_ite)
      | (with_reducible apply good_ite_snd)
      | (with_reducible apply good_foldl)
      | (with_reducible apply good_foldl_snd)
      | rfl
      | dsimp only
      | split

theorem State.tiuMiss_good {q : List Instr} {s : State} {u : Nat} {x : TiuIn} (h : Good q s) :
    Good q (State.tiuMiss s u x) := by
  unfold State.tiuMiss
  repeat'
    first
      | with_reducible assumption
      | (intro _)
      | (with_reducible apply State.setTiu_good)

theorem State.offerHalf_good {q : List Instr} {s : State} {u : Nat} {x : TiuIn} {x3 : TiuHalf} (h : Good q s) :
    Good q (State.offerHalf s u x x3) := by
  unfold State.offerHalf
  repeat'
    first
      | with_reducible assumption
      | (intro _)
      | (with_reducible apply State.setTiu_good)
      | (with_reducible apply State.pairDone_good)
      | (with_reducible apply good_ite)
      | (with_reducible apply good_ite_snd)
      | (with_reducible apply good_foldl)
      | (with_reducible apply good_foldl_snd)
      | rfl
      | dsimp only
      | split

theorem State.tiuTakeHalf_good {q : List Instr} {s : State} {u : Nat} {x : TiuIn} {x3 : TiuHalf} (h : Good q s) :
    Good q (State.tiuTakeHalf s u x x3) := by
  unfold State.tiuTakeHalf
  repeat'
    first
      | with_reducible assumption
      | (intro _)
      | (with_reducible apply State.tiuLapse_good)
      | (with_reducible apply State.tiuMiss_good)
      | (with_reducible apply State.tiuComplete_good)
      | (with_reducible apply State.offerHalf_good)
      | (with_reducible apply good_ite)

theorem State.closeOn_good {q : List Instr} {s0 : State} {u : Nat} {tick : Nat} {code : Nat} (h : Good q s0) :
    Good q (State.closeOn s0 u tick code) := by
  unfold State.closeOn
  repeat'
    first
      | with_reducible assumption
      | (intro _)
      | (with_reducible apply State.setTiu_good)
      | (with_reducible apply good_fon)
      | (with_reducible apply good_cnt)
      | (with_reducible apply good_ite)
      | (with_reducible apply good_ite_snd)
      | (with_reducible apply good_foldl)
      | (with_reducible apply good_foldl_snd)
      | rfl

theorem State.tiuAccept_good {q : List Instr} {s : State} {u : Nat} {c : CapPos} {rising : Bool} {own : Bool} {closes : Option Gate} (h : Good q s) :
    Good q (State.tiuAccept s u c rising own closes) := by
  unfold State.tiuAccept
  repeat'
    first
      | with_reducible assumption
      | (intro _)
      | (with_reducible apply State.setTiu_good)
      | (with_reducible apply State.raiseEv_good)
      | (with_reducible apply good_cnt64)
      | (with_reducible apply good_ite)
      | (with_reducible apply good_ite_snd)
      | (with_reducible apply good_foldl)
      | (with_reducible apply good_foldl_snd)
      | rfl

theorem State.tiuFrontEnd_good {q : List Instr} {s : State} {u : Nat} {c : CapPos} {rising : Bool} {own : Bool} {takers : List Nat} {closes : Option Gate} (h : Good q s) :
    Good q (State.tiuFrontEnd s u c rising own takers closes).1 := by
  unfold State.tiuFrontEnd
  repeat'
    first
      | with_reducible assumption
      | (intro _)
      | (with_reducible apply State.closeOn_good)
      | (with_reducible apply State.tiuAccept_good)
      | (with_reducible apply good_ite)
      | (with_reducible apply good_ite_snd)
      | (with_reducible apply good_foldl)
      | (with_reducible apply good_foldl_snd)
      | rfl
      | dsimp only
      | split

theorem State.gateAfter_good {q : List Instr} {s : State} {u : Nat} {ts : Instant} {role : GateRole} (h : Good q s) :
    Good q (State.gateAfter s u ts role) := by
  unfold State.gateAfter
  repeat'
    first
      | with_reducible assumption
      | (intro _)
      | (with_reducible apply State.setTiu_good)
      | (with_reducible apply good_ite)
      | (with_reducible apply good_ite_snd)
      | (with_reducible apply good_foldl)
      | (with_reducible apply good_foldl_snd)
      | rfl
      | dsimp only
      | split

theorem State.tiuFreqEdge_good {q : List Instr} {s : State} {u : Nat} {c : CapPos} {takers : List Nat} (h : Good q s) :
    Good q (State.tiuFreqEdge s u c takers) := by
  unfold State.tiuFreqEdge
  repeat'
    first
      | with_reducible assumption
      | (intro _)
      | (with_reducible apply State.setTiu_good)
      | (with_reducible apply State.tiuLapse_good)
      | (with_reducible apply State.tiuFrontEnd_good)
      | (with_reducible apply State.gateAfter_good)
      | (with_reducible apply good_ite)

theorem State.tiuUnarm_good {q : List Instr} {s : State} {u : Nat} (h : Good q s) :
    Good q (State.tiuUnarm s u) := by
  unfold State.tiuUnarm
  repeat'
    first
      | with_reducible assumption
      | (intro _)
      | (with_reducible apply State.setTiu_good)

theorem State.tiuSetArm_good {q : List Instr} {s0 : State} {u : Nat} {x : TiuIn} {count : Nat} {ta : Instant} (h : Good q s0) :
    Good q (State.tiuSetArm s0 u x count ta) := by
  unfold State.tiuSetArm
  repeat'
    first
      | with_reducible assumption
      | (intro _)
      | (with_reducible apply State.tiuLapse_good)
      | (with_reducible apply State.tiuUnarm_good)
      | (with_reducible apply State.setTiu_good)
      | (with_reducible apply State.tiuFreqEdge_good)
      | (with_reducible apply good_ite)
      | (with_reducible apply good_ite_snd)
      | (with_reducible apply good_foldl)

theorem State.tiuTake_good {q : List Instr} {s : State} {u : Nat} {x : TiuIn} (h : Good q s) :
    Good q (State.tiuTake s u x) := by
  unfold State.tiuTake
  repeat'
    first
      | with_reducible assumption
      | (intro _)
      | (with_reducible apply State.tiuSetArm_good)
      | (with_reducible apply State.tiuTakeHalf_good)
      | (with_reducible apply good_ite)
      | (with_reducible apply good_ite_snd)
      | (with_reducible apply good_foldl)
      | (with_reducible apply good_foldl_snd)
      | rfl
      | dsimp only
      | split

theorem State.tiuSettleBy_good {q : List Instr} {fuel : Nat} {s : State} {u : Nat} {by_ : Instant} (h : Good q s) :
    Good q (State.tiuSettleBy fuel s u by_) := by
  induction fuel generalizing s with
  | zero => exact h
  | succ k ih =>
    rw [State.tiuSettleBy]
    split
    · exact h
    · exact good_ite (ih (State.tiuTake_good (State.setTiu_good h))) h

theorem State.tiuSettle_good {q : List Instr} {s : State} {u : Nat} {by_ : Instant} (h : Good q s) :
    Good q (State.tiuSettle s u by_) := by
  unfold State.tiuSettle
  repeat'
    first
      | with_reducible assumption
      | (intro _)
      | (with_reducible apply State.tiuSettleBy_good)

theorem State.tiuInput_good {q : List Instr} {s : State} {u : Nat} {x : TiuIn} (h : Good q s) :
    Good q (State.tiuInput s u x) := by
  unfold State.tiuInput
  repeat'
    first
      | with_reducible assumption
      | (intro _)
      | (with_reducible apply State.tiuSettle_good)
      | (with_reducible apply State.setTiu_good)

theorem State.tiuArmWith_good {q : List Instr} {s : State} {u : Nat} {ta : Instant} {tag : Nat} {count : Nat} (h : Good q s) :
    Good q (State.tiuArmWith s u ta tag count) := by
  unfold State.tiuArmWith
  repeat'
    first
      | with_reducible assumption
      | (intro _)
      | (with_reducible apply State.tiuInput_good)
      | (with_reducible apply good_fonIf)
      | (with_reducible apply good_ite)
      | (with_reducible apply good_ite_snd)
      | (with_reducible apply good_foldl)
      | (with_reducible apply good_foldl_snd)
      | rfl

theorem State.tiuDisarmWith_good {q : List Instr} {s : State} {u : Nat} {ta : Instant} (h : Good q s) :
    Good q (State.tiuDisarmWith s u ta) := by
  unfold State.tiuDisarmWith
  repeat'
    first
      | with_reducible assumption
      | (intro _)
      | (with_reducible apply State.tiuArmWith_good)

theorem State.tiuArmGroup_good {q : List Instr} {s : State} {u : Nat} {evs : List Stamp} (h : Good q s) :
    Good q (State.tiuArmGroup s u evs) := by
  unfold State.tiuArmGroup
  repeat'
    first
      | with_reducible assumption
      | (intro _)
      | (with_reducible apply State.tiuArmWith_good)
      | (with_reducible apply good_ite)
      | (with_reducible apply good_ite_snd)
      | (with_reducible apply good_foldl)

theorem State.tiuEventHalf_good {q : List Instr} {s : State} {u : Nat} {isStart : Bool} {evs : List Stamp} (h : Good q s) :
    Good q (State.tiuEventHalf s u isStart evs) := by
  unfold State.tiuEventHalf
  repeat'
    first
      | with_reducible assumption
      | (intro _)
      | (with_reducible apply State.tiuInput_good)
      | (with_reducible apply State.closeDue_good)
      | (with_reducible apply good_ite)
      | (with_reducible apply good_ite_snd)
      | (with_reducible apply good_foldl)

theorem State.tiuModeChanged_good {q : List Instr} {s : State} {u : Nat} {was : Nat} (h : Good q s) :
    Good q (State.tiuModeChanged s u was) := by
  unfold State.tiuModeChanged
  repeat'
    first
      | with_reducible assumption
      | (intro _)
      | (with_reducible apply State.setTiu_good)

theorem State.keepEdge_good {q : List Instr} {s : State} {u : Nat} {c : CapPos} (h : Good q s) :
    Good q (State.keepEdge s u c) := by
  unfold State.keepEdge
  repeat'
    first
      | with_reducible assumption
      | (intro _)
      | (with_reducible apply State.setTiu_good)
      | (with_reducible apply good_ite)

theorem State.tiuCapture_good {q : List Instr} {s0 : State} {u : Nat} {code : Nat} {rising : Bool} (h : Good q s0) :
    Good q (State.tiuCapture s0 u code rising) := by
  unfold State.tiuCapture
  repeat'
    first
      | with_reducible assumption
      | (intro _)
      | (with_reducible apply State.setTiu_good)
      | (with_reducible apply State.calLiveHit_good)
      | (with_reducible apply State.tiuSettle_good)
      | (with_reducible apply State.tiuFreqEdge_good)
      | (with_reducible apply State.keepEdge_good)
      | (with_reducible apply State.tiuFrontEnd_good)
      | (with_reducible apply good_cnt)
      | (with_reducible apply good_ite)
      | (with_reducible apply good_ite_snd)
      | (with_reducible apply good_foldl)
      | (with_reducible apply good_foldl_snd)
      | rfl

theorem State.tiuOwnHit_good {q : List Instr} {s : State} {u : Nat} {f : Flight} {ts : Instant} {arb : Bool} (h : Good q s) :
    Good q (State.tiuOwnHit s u f ts arb) := by
  unfold State.tiuOwnHit
  repeat'
    first
      | with_reducible assumption
      | (intro _)
      | (with_reducible apply State.tiuInput_good)
      | (with_reducible apply State.setTiu_good)
      | (with_reducible apply State.tiuComplete_good)
      | (with_reducible apply State.eoMonitorHit_good)
      | (with_reducible apply good_ite)
      | (with_reducible apply good_ite_snd)
      | (with_reducible apply good_foldl)
      | (with_reducible apply good_foldl_snd)
      | rfl
      | dsimp only
      | split

theorem State.tiuGiveStop_good {q : List Instr} {s : State} {w : Nat} {f : Flight} {ts : Instant} {arb : Bool} (h : Good q s) :
    Good q (State.tiuGiveStop s w f ts arb) := by
  unfold State.tiuGiveStop
  repeat'
    first
      | with_reducible assumption
      | (intro _)
      | (with_reducible apply State.tiuInput_good)

theorem State.tiuForm_good {q : List Instr} {s : State} {u : Nat} {arb : Bool} (h : Good q s) :
    Good q (State.tiuForm s u arb) := by
  unfold State.tiuForm
  repeat'
    first
      | with_reducible assumption
      | (intro _)
      | (with_reducible apply State.closeDue_good)
      | (with_reducible apply State.setTiu_good)
      | (with_reducible apply State.tiuOwnHit_good)
      | (with_reducible apply State.raiseEv_good)
      | (with_reducible apply State.tiuGiveStop_good)
      | (with_reducible apply good_ite)
      | (with_reducible apply good_ite_snd)
      | (with_reducible apply good_foldl)
      | (with_reducible apply good_foldl_snd)
      | rfl
      | dsimp only
      | split

theorem State.tiuOverflow_good {q : List Instr} {s : State} {u : Nat} (h : Good q s) :
    Good q (State.tiuOverflow s u) := by
  unfold State.tiuOverflow
  repeat'
    first
      | with_reducible assumption
      | (intro _)
      | (with_reducible apply State.tiuOvf_good)
      | (with_reducible apply good_ite)
      | (with_reducible apply good_ite_snd)
      | (with_reducible apply good_foldl)
      | (with_reducible apply good_foldl_snd)
      | rfl
      | dsimp only
      | split

theorem State.tiuTimeout_good {q : List Instr} {s : State} {u : Nat} (h : Good q s) :
    Good q (State.tiuTimeout s u) := by
  unfold State.tiuTimeout
  repeat'
    first
      | with_reducible assumption
      | (intro _)
      | (with_reducible apply State.tiuExpire_good)
      | (with_reducible apply good_ite)
      | (with_reducible apply good_ite_snd)
      | (with_reducible apply good_foldl)
      | (with_reducible apply good_foldl_snd)
      | rfl
      | dsimp only
      | split

theorem State.tiuTick_good {q : List Instr} {s : State} {u : Nat} (h : Good q s) :
    Good q (State.tiuTick s u) := by
  unfold State.tiuTick
  repeat'
    first
      | with_reducible assumption
      | (intro _)
      | (with_reducible apply State.tiuSettle_good)

theorem State.rdqPut_good {q : List Instr} {s : State} {u : Nat} {r : Rec} (h : Good q s) :
    Good q (State.rdqPut s u r) := by
  unfold State.rdqPut
  repeat'
    first
      | with_reducible assumption
      | (intro _)
      | (with_reducible apply State.setTiu_good)
      | (with_reducible apply good_fon)
      | (with_reducible apply good_cnt)
      | (with_reducible apply good_ite)
      | (with_reducible apply good_ite_snd)
      | (with_reducible apply good_foldl)
      | rfl

theorem State.tiuDrain_good {q : List Instr} {s : State} {u : Nat} (h : Good q s) :
    Good q (State.tiuDrain s u) := by
  unfold State.tiuDrain
  repeat'
    first
      | with_reducible assumption
      | (intro _)
      | (with_reducible apply State.setTiu_good)
      | (with_reducible apply State.rdqPut_good)
      | (with_reducible apply State.offerTally_good)
      | (with_reducible apply good_ite)
      | (with_reducible apply good_ite_snd)
      | (with_reducible apply good_foldl)
      | rfl
      | dsimp only
      | split

theorem State.rdqPop_good {q : List Instr} {s : State} {u : Nat} (h : Good q s) :
    Good q (State.rdqPop s u).2 := by
  unfold State.rdqPop
  repeat'
    first
      | with_reducible assumption
      | (intro _)
      | (with_reducible apply State.setTiu_good)
      | (with_reducible apply good_ite)
      | (with_reducible apply good_ite_snd)
      | (with_reducible apply good_foldl)
      | rfl
      | dsimp only
      | split

theorem State.rdqPop_good_eq {q : List Instr} {s : State} {u : Nat} {a_ : _} {t_ : State} (he : State.rdqPop s u = (a_, t_)) (h : Good q s) : Good q t_ := by
  have : Good q (State.rdqPop s u).2 := State.rdqPop_good h
  rw [he] at this
  exact this

end Sys2Proof.Machine
end

