-- ==== Sys2Proof/Laws/SoundTallyOps.lean ====
section
/-! SUPPORT. Each operation of TallyOps keeps a state sound and its queue. -/

namespace Sys2Proof.Machine

theorem State.talLose_good {q : List Instr} {s : State} (h : Good q s) :
    Good q (State.talLose s) := by
  unfold State.talLose
  repeat'
    first
      | with_reducible assumption
      | (intro _)
      | (with_reducible apply State.setTal_good)
      | (with_reducible apply good_fon)
      | (with_reducible apply good_cnt64)
      | (with_reducible apply good_ite)
      | (with_reducible apply good_ite_snd)
      | (with_reducible apply good_foldl)
      | rfl

theorem State.talMark_good {q : List Instr} {s : State} {code : Nat} {count : Nat} {time : Instant} (h : Good q s) :
    Good q (State.talMark s code count time) := by
  unfold State.talMark
  repeat'
    first
      | with_reducible assumption
      | (intro _)
      | (with_reducible apply State.setTal_good)
      | (with_reducible apply good_ite)

theorem State.talMarksIn_good {q : List Instr} {s : State} (h : Good q s) :
    Good q (State.talMarksIn s) := by
  unfold State.talMarksIn
  repeat'
    first
      | with_reducible assumption
      | (intro _)
      | (with_reducible apply State.setTal_good)
      | (with_reducible apply State.talMark_good)
      | (with_reducible apply good_ite)

theorem State.talTake_good {q : List Instr} {s : State} {r : Rec} (h : Good q s) :
    Good q (State.talTake s r) := by
  unfold State.talTake
  repeat'
    first
      | with_reducible assumption
      | (intro _)
      | (with_reducible apply State.talLose_good)
      | (with_reducible apply State.talMarksIn_good)
      | (with_reducible apply State.setTal_good)
      | (with_reducible apply good_cnt64)
      | (with_reducible apply good_ite)
      | (with_reducible apply good_ite_snd)
      | (with_reducible apply good_foldl)
      | (with_reducible apply good_foldl_snd)
      | rfl

theorem State.talIn_good {q : List Instr} {s : State} (h : Good q s) :
    Good q (State.talIn s) := by
  unfold State.talIn
  repeat'
    first
      | with_reducible assumption
      | (intro _)
      | (with_reducible apply State.talTake_good)
      | (with_reducible apply State.setTal_good)
      | (with_reducible apply good_ite)
      | (with_reducible apply good_ite_snd)
      | (with_reducible apply good_foldl)
      | rfl
      | dsimp only
      | split

theorem State.talStore_good {q : List Instr} {s : State} {r : TalIn} (h : Good q s) :
    Good q (State.talStore s r) := by
  unfold State.talStore
  repeat'
    first
      | with_reducible assumption
      | (intro _)
      | (with_reducible apply State.dramWrite_good)
      | (with_reducible apply State.setTal_good)
      | (with_reducible apply good_fset)
      | (with_reducible apply good_fon)
      | (with_reducible apply good_cnt)
      | (with_reducible apply good_ite)
      | (with_reducible apply good_ite_snd)
      | (with_reducible apply good_foldl)
      | rfl

theorem State.talFreezeNow_good {q : List Instr} {s : State} (h : Good q s) :
    Good q (State.talFreezeNow s) := by
  unfold State.talFreezeNow
  repeat'
    first
      | with_reducible assumption
      | (intro _)
      | (with_reducible apply State.talStore_good)
      | (with_reducible apply State.setTal_good)
      | (with_reducible apply good_fon)
      | (with_reducible apply good_ite)
      | (with_reducible apply good_ite_snd)
      | (with_reducible apply good_foldl)
      | rfl

theorem State.talDrop_good {q : List Instr} {s : State} {r : TalIn} (h : Good q s) :
    Good q (State.talDrop s r) := by
  unfold State.talDrop
  repeat'
    first
      | with_reducible assumption
      | (intro _)
      | (with_reducible apply good_cnt64)
      | (with_reducible apply good_ite)
      | (with_reducible apply good_ite_snd)
      | (with_reducible apply good_foldl)
      | rfl

theorem State.talWrite_good {q : List Instr} {s0 : State} (h : Good q s0) :
    Good q (State.talWrite s0) := by
  unfold State.talWrite
  repeat'
    first
      | with_reducible assumption
      | (intro _)
      | (with_reducible apply State.talMarksIn_good)
      | (with_reducible apply State.setTal_good)
      | (with_reducible apply State.talDrop_good)
      | (with_reducible apply State.talLose_good)
      | (with_reducible apply State.talFreezeNow_good)
      | (with_reducible apply State.talStore_good)
      | (with_reducible apply good_fon)
      | (with_reducible apply good_ite)
      | (with_reducible apply good_ite_snd)
      | (with_reducible apply good_foldl)
      | (with_reducible apply good_foldl_snd)
      | rfl
      | dsimp only
      | split

theorem State.talTrigger_good {q : List Instr} {s : State} {tt : Instant} (h : Good q s) :
    Good q (State.talTrigger s tt) := by
  unfold State.talTrigger
  repeat'
    first
      | with_reducible assumption
      | (intro _)
      | (with_reducible apply State.setTal_good)
      | (with_reducible apply State.talMark_good)
      | (with_reducible apply good_fset)
      | (with_reducible apply good_fon)
      | (with_reducible apply good_ite)
      | (with_reducible apply good_ite_snd)
      | (with_reducible apply good_foldl)
      | rfl

theorem State.talFreeze_good {q : List Instr} {s : State} (h : Good q s) :
    Good q (State.talFreeze s) := by
  unfold State.talFreeze
  repeat'
    first
      | with_reducible assumption
      | (intro _)
      | (with_reducible apply State.talFreezeNow_good)
      | (with_reducible apply good_ite)

theorem State.talFlush_good {q : List Instr} {s : State} (h : Good q s) :
    Good q (State.talFlush s) := by
  unfold State.talFlush
  repeat'
    first
      | with_reducible assumption
      | (intro _)
      | (with_reducible apply State.talWrite_good)
      | (with_reducible apply State.setTal_good)
      | (with_reducible apply good_ite)
      | (with_reducible apply good_ite_snd)
      | (with_reducible apply good_foldl)

theorem State.talStart_good {q : List Instr} {s0 : State} (h : Good q s0) :
    Good q (State.talStart s0) := by
  unfold State.talStart
  repeat'
    first
      | with_reducible assumption
      | (intro _)
      | (with_reducible apply State.talFlush_good)
      | (with_reducible apply State.talMark_good)
      | (with_reducible apply State.setTal_good)
      | (with_reducible apply good_fset)
      | (with_reducible apply good_ite)
      | (with_reducible apply good_ite_snd)
      | (with_reducible apply good_foldl)
      | (with_reducible apply good_foldl_snd)
      | rfl

theorem State.talStop_good {q : List Instr} {s : State} (h : Good q s) :
    Good q (State.talStop s) := by
  unfold State.talStop
  repeat'
    first
      | with_reducible assumption
      | (intro _)
      | (with_reducible apply State.setTal_good)
      | (with_reducible apply good_fset)
      | (with_reducible apply good_ite)
      | (with_reducible apply good_ite_snd)
      | (with_reducible apply good_foldl)
      | rfl

theorem State.talDrain_good {q : List Instr} {s : State} (h : Good q s) :
    Good q (State.talDrain s) := by
  unfold State.talDrain
  repeat'
    first
      | with_reducible assumption
      | (intro _)
      | (with_reducible apply State.talFlush_good)

theorem State.talTick_good {q : List Instr} {s : State} (h : Good q s) :
    Good q (State.talTick s) := by
  unfold State.talTick
  repeat'
    first
      | with_reducible assumption
      | (intro _)
      | (with_reducible apply State.talMarksIn_good)
      | (with_reducible apply good_ite)

end Sys2Proof.Machine
end

