-- ==== Sys2Proof/Laws/SoundDwOps.lean ====
section
/-! SUPPORT. Each operation of DwOps keeps a state sound and its queue. -/

namespace Sys2Proof.Machine

theorem State.channelEvent_good {q : List Instr} {s : State} {c : Nat} (h : Good q s) :
    Good q (State.channelEvent s c) := by
  unfold State.channelEvent
  repeat'
    first
      | with_reducible assumption
      | (intro _)
      | (with_reducible apply State.setDw_good)
      | (with_reducible apply State.deliver_good)
      | (with_reducible apply good_fon)
      | (with_reducible apply good_fonIf)
      | (with_reducible apply good_cntAdd)
      | (with_reducible apply good_ite)
      | (with_reducible apply good_ite_snd)
      | (with_reducible apply good_foldl)
      | rfl
      | dsimp only
      | split

theorem State.flockSet_good {q : List Instr} {s : State} {f : Nat} {t : Instant} {on : Bool} {tag : Nat} (h : Good q s) :
    Good q (State.flockSet s f t on tag) := by
  unfold State.flockSet
  repeat'
    first
      | with_reducible assumption
      | (intro _)
      | (with_reducible apply State.raiseEv_good)
      | (with_reducible apply State.setDw_good)
      | (with_reducible apply good_ite)

theorem State.flockEvent_good {q : List Instr} {s : State} {f : Nat} {on : Bool} {e : Stamp} (h : Good q s) :
    Good q (State.flockEvent s f on e) := by
  unfold State.flockEvent
  repeat'
    first
      | with_reducible assumption
      | (intro _)
      | (with_reducible apply State.flockSet_good)
      | (with_reducible apply good_fon)
      | (with_reducible apply good_ite)
      | (with_reducible apply good_ite_snd)
      | (with_reducible apply good_foldl)
      | rfl

theorem State.flockGroup_good {q : List Instr} {s : State} {f : Nat} {on : Bool} {evs : List Stamp} (h : Good q s) :
    Good q (State.flockGroup s f on evs) := by
  unfold State.flockGroup
  repeat'
    first
      | with_reducible assumption
      | (intro _)
      | (with_reducible apply State.flockEvent_good)
      | (with_reducible apply good_ite)
      | (with_reducible apply good_ite_snd)
      | (with_reducible apply good_foldl)

theorem State.tmrEnd_good {q : List Instr} {s : State} {i : Nat} (h : Good q s) :
    Good q (State.tmrEnd s i) := by
  unfold State.tmrEnd
  repeat'
    first
      | with_reducible assumption
      | (intro _)
      | (with_reducible apply good_fset)
      | (with_reducible apply good_fon)
      | (with_reducible apply good_ite)
      | (with_reducible apply good_ite_snd)
      | (with_reducible apply good_foldl)
      | rfl

theorem State.tmrMove_good {q : List Instr} {s : State} {i : Nat} {k : Nat} (h : Good q s) :
    Good q (State.tmrMove s i k) := by
  unfold State.tmrMove
  repeat'
    first
      | with_reducible assumption
      | (intro _)
      | (with_reducible apply State.setDw_good)
      | (with_reducible apply State.tmrEnd_good)
      | (with_reducible apply good_ite)

theorem State.tmrEnable_good {q : List Instr} {s : State} {i : Nat} (h : Good q s) :
    Good q (State.tmrEnable s i) := by
  unfold State.tmrEnable
  repeat'
    first
      | with_reducible assumption
      | (intro _)
      | (with_reducible apply State.tmrMove_good)
      | (with_reducible apply good_fonIf)
      | (with_reducible apply good_ite)
      | (with_reducible apply good_ite_snd)
      | (with_reducible apply good_foldl)
      | rfl

theorem State.tmrFire_good {q : List Instr} {s : State} {i : Nat} (h : Good q s) :
    Good q (State.tmrFire s i) := by
  unfold State.tmrFire
  repeat'
    first
      | with_reducible assumption
      | (intro _)
      | (with_reducible apply State.tmrEnd_good)
      | (with_reducible apply State.tmrMove_good)
      | (with_reducible apply State.raiseEv_good)
      | (with_reducible apply good_ite)

theorem State.tmrStep_good {q : List Instr} {s : State} {i : Nat} (h : Good q s) :
    Good q (State.tmrStep s i) := by
  unfold State.tmrStep
  repeat'
    first
      | with_reducible assumption
      | (intro _)
      | (with_reducible apply State.tmrMove_good)
      | (with_reducible apply good_fon)
      | (with_reducible apply good_ite)
      | (with_reducible apply good_ite_snd)
      | (with_reducible apply good_foldl)
      | rfl

theorem State.evinEdge_good {q : List Instr} {s : State} {i : Nat} {level : Bool} (h : Good q s) :
    Good q (State.evinEdge s i level) := by
  unfold State.evinEdge
  repeat'
    first
      | with_reducible assumption
      | (intro _)
      | (with_reducible apply State.setDw_good)
      | (with_reducible apply State.raiseIf_good)
      | (with_reducible apply good_ite)

theorem State.asyncLevel_good {q : List Instr} {s : State} {a : Nat} {level : Bool} (h : Good q s) :
    Good q (State.asyncLevel s a level) := by
  unfold State.asyncLevel
  repeat'
    first
      | with_reducible assumption
      | (intro _)
      | (with_reducible apply State.setDw_good)
      | (with_reducible apply good_ite)

theorem State.evoutGroup_good {q : List Instr} {s : State} {i : Nat} {evs : List Stamp} (h : Good q s) :
    Good q (State.evoutGroup s i evs) := by
  unfold State.evoutGroup
  repeat'
    first
      | with_reducible assumption
      | (intro _)
      | (with_reducible apply State.setDw_good)
      | (with_reducible apply good_ite)

theorem State.evoutEnd_good {q : List Instr} {s : State} {i : Nat} (h : Good q s) :
    Good q (State.evoutEnd s i) := by
  unfold State.evoutEnd
  repeat'
    first
      | with_reducible assumption
      | (intro _)
      | (with_reducible apply State.setDw_good)
      | (with_reducible apply good_ite)
      | (with_reducible apply good_ite_snd)
      | (with_reducible apply good_foldl)
      | rfl
      | dsimp only
      | split

theorem State.chEnable_good {q : List Instr} {s : State} {c : Nat} (h : Good q s) :
    Good q (State.chEnable s c) := by
  unfold State.chEnable
  repeat'
    first
      | with_reducible assumption
      | (intro _)
      | (with_reducible apply State.setDw_good)
      | (with_reducible apply good_fset)
      | (with_reducible apply good_ite)
      | (with_reducible apply good_ite_snd)
      | (with_reducible apply good_foldl)
      | rfl

theorem State.chCheckDone_good {q : List Instr} {s : State} {c : Nat} (h : Good q s) :
    Good q (State.chCheckDone s c) := by
  unfold State.chCheckDone
  repeat'
    first
      | with_reducible assumption
      | (intro _)
      | (with_reducible apply State.setDw_good)
      | (with_reducible apply good_fset)
      | (with_reducible apply good_ite)
      | (with_reducible apply good_ite_snd)
      | (with_reducible apply good_foldl)
      | rfl

theorem State.chDisable_good {q : List Instr} {s : State} {c : Nat} (h : Good q s) :
    Good q (State.chDisable s c) := by
  unfold State.chDisable
  repeat'
    first
      | with_reducible assumption
      | (intro _)
      | (with_reducible apply State.setDw_good)
      | (with_reducible apply good_fset)
      | (with_reducible apply good_ite)
      | (with_reducible apply good_ite_snd)
      | (with_reducible apply good_foldl)
      | rfl

theorem State.ownRefused_good {q : List Instr} {s : State} {x1 : Requester} {c : Nat} (h : Good q s) :
    Good q (State.ownRefused s x1 c) := by
  unfold State.ownRefused
  repeat'
    first
      | with_reducible assumption
      | (intro _)
      | (with_reducible apply State.offerBbr_good)
      | (with_reducible apply good_fon)
      | (with_reducible apply good_ite)
      | (with_reducible apply good_ite_snd)
      | (with_reducible apply good_foldl)
      | rfl

end Sys2Proof.Machine
end

