-- ==== Sys2Proof/Laws/SoundBwOps.lean ====
section
/-! SUPPORT. Each operation of BwOps keeps a state sound and its queue. -/

namespace Sys2Proof.Machine

theorem State.setCand_good {q : List Instr} {s : State} {r : Nat} {c : BwCand} (h : Good q s) :
    Good q (State.setCand s r c) := by
  exact h.same rfl rfl rfl rfl rfl

theorem State.setBw_good {q : List Instr} {s : State} {b : Bw} (h : Good q s) :
    Good q (State.setBw s b) := by
  exact h.same rfl rfl rfl rfl rfl

theorem State.disqualify_good {q : List Instr} {s : State} {r : Nat} {cause : Nat} (h : Good q s) :
    Good q (State.disqualify s r cause) := by
  unfold State.disqualify
  repeat'
    first
      | with_reducible assumption
      | (intro _)
      | (with_reducible apply State.setCand_good)
      | (with_reducible apply State.setBw_good)
      | (with_reducible apply good_fset)
      | (with_reducible apply good_fon)
      | (with_reducible apply good_ite)
      | (with_reducible apply good_ite_snd)
      | (with_reducible apply good_foldl)
      | rfl

theorem State.signalLost_good {q : List Instr} {s : State} {r : Nat} (h : Good q s) :
    Good q (State.signalLost s r) := by
  unfold State.signalLost
  repeat'
    first
      | with_reducible assumption
      | (intro _)
      | (with_reducible apply State.disqualify_good)
      | (with_reducible apply good_ite)

theorem State.setPsi_good {q : List Instr} {s : State} {theta : Int} {vel : Int} (h : Good q s) :
    Good q (State.setPsi s theta vel) := by
  unfold State.setPsi
  repeat'
    first
      | with_reducible assumption
      | (intro _)
      | (with_reducible apply State.setBw_good)

theorem State.startPull_good {q : List Instr} {s : State} {theta : Int} {vel : Int} {goal : Int} (h : Good q s) :
    Good q (State.startPull s theta vel goal) := by
  unfold State.startPull
  repeat'
    first
      | with_reducible assumption
      | (intro _)
      | (with_reducible apply State.setPsi_good)
      | (with_reducible apply State.setBw_good)
      | (with_reducible apply good_fset)
      | (with_reducible apply good_ite)
      | (with_reducible apply good_ite_snd)
      | (with_reducible apply good_foldl)
      | rfl

theorem State.holdPsi_good {q : List Instr} {s : State} {theta : Int} {goal : Int} {fixed : Bool} (h : Good q s) :
    Good q (State.holdPsi s theta goal fixed) := by
  unfold State.holdPsi
  repeat'
    first
      | with_reducible assumption
      | (intro _)
      | (with_reducible apply State.setPsi_good)
      | (with_reducible apply State.setBw_good)
      | (with_reducible apply good_fset)
      | (with_reducible apply good_ite)
      | (with_reducible apply good_ite_snd)
      | (with_reducible apply good_foldl)
      | rfl

theorem State.setHeld_good {q : List Instr} {s : State} {o : Option Int} (h : Good q s) :
    Good q (State.setHeld s o) := by
  unfold State.setHeld
  repeat'
    first
      | with_reducible assumption
      | (intro _)
      | (with_reducible apply good_fset)
      | (with_reducible apply good_ite)
      | (with_reducible apply good_ite_snd)
      | (with_reducible apply good_foldl)
      | rfl
      | dsimp only
      | split

theorem State.bwStep_good {q : List Instr} {s : State} {span : Int} (h : Good q s) :
    Good q (State.bwStep s span) := by
  unfold State.bwStep
  repeat'
    first
      | with_reducible assumption
      | (intro _)
      | (with_reducible apply State.setTime_good)
      | (with_reducible apply good_ite)

theorem State.holdPhase_good {q : List Instr} {s : State} {t0 : Int} (h : Good q s) :
    Good q (State.holdPhase s t0) := by
  unfold State.holdPhase
  repeat'
    first
      | with_reducible assumption
      | (intro _)
      | (with_reducible apply State.setHeld_good)
      | (with_reducible apply State.holdPsi_good)

theorem State.acquire_good {q : List Instr} {s : State} {r : Nat} {t0 : Int} (h : Good q s) :
    Good q (State.acquire s r t0) := by
  unfold State.acquire
  repeat'
    first
      | with_reducible assumption
      | (intro _)
      | (with_reducible apply State.setBw_good)
      | (with_reducible apply State.setHeld_good)
      | (with_reducible apply State.bwStep_good)
      | (with_reducible apply State.startPull_good)
      | (with_reducible apply State.holdPsi_good)
      | (with_reducible apply State.offerBbr_good)
      | (with_reducible apply State.holdPhase_good)
      | (with_reducible apply good_fon)
      | (with_reducible apply good_ite)
      | (with_reducible apply good_ite_snd)
      | (with_reducible apply good_foldl)
      | rfl
      | dsimp only
      | split
      | omega
      | (with_reducible apply good_mk)

theorem State.bwStepped_good {q : List Instr} {s : State} {span : Int} (h : Good q s) :
    Good q (State.bwStepped s span) := by
  unfold State.bwStepped
  repeat'
    first
      | with_reducible assumption
      | (intro _)
      | (with_reducible apply State.setCand_good)
      | (with_reducible apply good_ite)
      | (with_reducible apply good_ite_snd)
      | (with_reducible apply good_foldl)

theorem State.bwSample_good {q : List Instr} {s : State} {r : Nat} {raw : Int} {at_ : Instant} (h : Good q s) :
    Good q (State.bwSample s r raw at_) := by
  unfold State.bwSample
  repeat'
    first
      | with_reducible assumption
      | (intro _)
      | (with_reducible apply State.setCand_good)
      | (with_reducible apply State.disqualify_good)
      | (with_reducible apply State.acquire_good)
      | (with_reducible apply good_ite)

theorem State.bwDeliver_good {q : List Instr} {s : State} {typ : Nat} {index : Nat} {theta : Int} {at_ : Instant} (h : Good q s) :
    Good q (State.bwDeliver s typ index theta at_) := by
  unfold State.bwDeliver
  repeat'
    first
      | with_reducible assumption
      | (intro _)
      | (with_reducible apply State.bwSample_good)
      | (with_reducible apply good_ite)
      | (with_reducible apply good_ite_snd)
      | (with_reducible apply good_foldl)

theorem State.ppsinPulse_good {q : List Instr} {s : State} {i : Nat} {slot : Nat} (h : Good q s) :
    Good q (State.ppsinPulse s i slot) := by
  unfold State.ppsinPulse
  repeat'
    first
      | with_reducible assumption
      | (intro _)
      | (with_reducible apply State.setBw_good)
      | (with_reducible apply State.raiseEv_good)
      | (with_reducible apply State.bwDeliver_good)
      | (with_reducible apply good_fon)
      | (with_reducible apply good_ite)
      | (with_reducible apply good_ite_snd)
      | (with_reducible apply good_foldl)
      | rfl

theorem State.bwSwCommit_good {q : List Instr} {s : State} {r : Nat} {theta : Int} (h : Good q s) :
    Good q (State.bwSwCommit s r theta) := by
  unfold State.bwSwCommit
  repeat'
    first
      | with_reducible assumption
      | (intro _)
      | (with_reducible apply State.bwSample_good)
      | (with_reducible apply good_fon)
      | (with_reducible apply good_ite)
      | (with_reducible apply good_ite_snd)
      | (with_reducible apply good_foldl)
      | rfl

theorem State.addFreq_good {q : List Instr} {s : State} {r : Nat} {f : Int} (h : Good q s) :
    Good q (State.addFreq s r f) := by
  unfold State.addFreq
  repeat'
    first
      | with_reducible assumption
      | (intro _)
      | (with_reducible apply State.setCand_good)
      | (with_reducible apply good_fset)
      | (with_reducible apply good_ite)
      | (with_reducible apply good_ite_snd)
      | (with_reducible apply good_foldl)
      | rfl

theorem State.candSecond_good {q : List Instr} {s : State} {r : Nat} (h : Good q s) :
    Good q (State.candSecond s r) := by
  unfold State.candSecond
  repeat'
    first
      | with_reducible assumption
      | (intro _)
      | (with_reducible apply State.setCand_good)
      | (with_reducible apply State.addFreq_good)
      | (with_reducible apply State.disqualify_good)
      | (with_reducible apply good_fset)
      | (with_reducible apply good_ite)
      | (with_reducible apply good_ite_snd)
      | (with_reducible apply good_foldl)
      | rfl
      | dsimp only
      | split

theorem State.bwSecond_good {q : List Instr} {s : State} (h : Good q s) :
    Good q (State.bwSecond s) := by
  unfold State.bwSecond
  repeat'
    first
      | with_reducible assumption
      | (intro _)
      | (with_reducible apply State.candSecond_good)
      | (with_reducible apply State.setBw_good)
      | (with_reducible apply good_ite)
      | (with_reducible apply good_ite_snd)
      | (with_reducible apply good_foldl)

theorem State.bwWord_good {q : List Instr} {s : State} {y : Int} (h : Good q s) :
    Good q (State.bwWord s y) := by
  unfold State.bwWord
  repeat'
    first
      | with_reducible assumption
      | (intro _)
      | (with_reducible apply State.setBw_good)
      | (with_reducible apply State.setTime_good)
      | (with_reducible apply good_fset)
      | (with_reducible apply good_ite)
      | (with_reducible apply good_ite_snd)
      | (with_reducible apply good_foldl)
      | rfl

theorem State.bwGoto_good {q : List Instr} {s : State} {st : Nat} (h : Good q s) :
    Good q (State.bwGoto s st) := by
  unfold State.bwGoto
  repeat'
    first
      | with_reducible assumption
      | (intro _)
      | (with_reducible apply State.setBw_good)
      | (with_reducible apply State.raiseEv_good)
      | (with_reducible apply good_fset)
      | (with_reducible apply good_ite)
      | (with_reducible apply good_ite_snd)
      | (with_reducible apply good_foldl)
      | rfl

theorem State.enterHoldover_good {q : List Instr} {s : State} {freqRef : Bool} (h : Good q s) :
    Good q (State.enterHoldover s freqRef) := by
  unfold State.enterHoldover
  repeat'
    first
      | with_reducible assumption
      | (intro _)
      | (with_reducible apply State.bwWord_good)
      | (with_reducible apply State.setBw_good)
      | (with_reducible apply State.bwGoto_good)
      | (with_reducible apply good_fset)
      | (with_reducible apply good_fonIf)
      | (with_reducible apply good_ite)
      | (with_reducible apply good_ite_snd)
      | (with_reducible apply good_foldl)
      | rfl

theorem State.setActive_good {q : List Instr} {s : State} {t : Option Nat} (h : Good q s) :
    Good q (State.setActive s t) := by
  unfold State.setActive
  repeat'
    first
      | with_reducible assumption
      | (intro _)
      | (with_reducible apply State.setBw_good)
      | (with_reducible apply State.raiseEv_good)
      | (with_reducible apply good_fset)
      | (with_reducible apply good_cnt)
      | (with_reducible apply good_ite)
      | (with_reducible apply good_ite_snd)
      | (with_reducible apply good_foldl)
      | rfl
      | dsimp only
      | split

theorem State.noTarget_good {q : List Instr} {s : State} (h : Good q s) :
    Good q (State.noTarget s) := by
  unfold State.noTarget
  repeat'
    first
      | with_reducible assumption
      | (intro _)
      | (with_reducible apply State.setActive_good)
      | (with_reducible apply State.enterHoldover_good)
      | (with_reducible apply State.bwGoto_good)
      | (with_reducible apply State.setBw_good)
      | (with_reducible apply good_fset)
      | (with_reducible apply good_ite)
      | (with_reducible apply good_ite_snd)
      | (with_reducible apply good_foldl)
      | rfl

theorem State.setAcq_good {q : List Instr} {s : State} {a : Bool} (h : Good q s) :
    Good q (State.setAcq s a) := by
  unfold State.setAcq
  repeat'
    first
      | with_reducible assumption
      | (intro _)
      | (with_reducible apply State.setBw_good)

theorem State.bwSwitch_good {q : List Instr} {s : State} {r : Nat} (h : Good q s) :
    Good q (State.bwSwitch s r) := by
  unfold State.bwSwitch
  repeat'
    first
      | with_reducible assumption
      | (intro _)
      | (with_reducible apply State.setActive_good)
      | (with_reducible apply State.startPull_good)
      | (with_reducible apply State.holdPsi_good)
      | (with_reducible apply State.bwGoto_good)
      | (with_reducible apply State.setBw_good)
      | (with_reducible apply State.setAcq_good)
      | (with_reducible apply good_ite)

theorem State.pull_good {q : List Instr} {s : State} (h : Good q s) :
    Good q (State.pull s) := by
  unfold State.pull
  repeat'
    first
      | with_reducible assumption
      | (intro _)
      | (with_reducible apply State.setBw_good)
      | (with_reducible apply State.setHeld_good)
      | (with_reducible apply good_fset)
      | (with_reducible apply good_ite)
      | (with_reducible apply good_ite_snd)
      | (with_reducible apply good_foldl)
      | rfl

theorem State.loopUpdate_good {q : List Instr} {s : State} {r : Nat} (h : Good q s) :
    Good q (State.loopUpdate s r) := by
  unfold State.loopUpdate
  repeat'
    first
      | with_reducible assumption
      | (intro _)
      | (with_reducible apply State.pull_good)
      | (with_reducible apply State.setBw_good)
      | (with_reducible apply State.bwWord_good)
      | (with_reducible apply State.bwGoto_good)
      | (with_reducible apply good_fset)
      | (with_reducible apply good_ite)
      | (with_reducible apply good_ite_snd)
      | (with_reducible apply good_foldl)
      | rfl

theorem State.bwSwNco_good {q : List Instr} {s : State} (h : Good q s) :
    Good q (State.bwSwNco s) := by
  unfold State.bwSwNco
  repeat'
    first
      | with_reducible assumption
      | (intro _)
      | (with_reducible apply State.setActive_good)
      | (with_reducible apply State.bwGoto_good)
      | (with_reducible apply State.setBw_good)
      | (with_reducible apply good_fset)
      | (with_reducible apply good_ite)
      | (with_reducible apply good_ite_snd)
      | (with_reducible apply good_foldl)
      | rfl

theorem State.freqCompare_good {q : List Instr} {s : State} {ck : List (Option Int)} {r : Nat} (h : Good q s) :
    Good q (State.freqCompare s ck r) := by
  unfold State.freqCompare
  repeat'
    first
      | with_reducible assumption
      | (intro _)
      | (with_reducible apply State.setCand_good)
      | (with_reducible apply good_ite)
      | (with_reducible apply good_ite_snd)
      | (with_reducible apply good_foldl)
      | rfl
      | dsimp only
      | split

theorem State.bwEvaluate_good {q : List Instr} {s : State} {ck : List (Option Int)} (h : Good q s) :
    Good q (State.bwEvaluate s ck) := by
  unfold State.bwEvaluate
  repeat'
    first
      | with_reducible assumption
      | (intro _)
      | (with_reducible apply State.setBw_good)
      | (with_reducible apply State.freqCompare_good)
      | (with_reducible apply State.signalLost_good)
      | (with_reducible apply State.bwSwNco_good)
      | (with_reducible apply State.noTarget_good)
      | (with_reducible apply State.bwSwitch_good)
      | (with_reducible apply State.offerBbr_good)
      | (with_reducible apply State.loopUpdate_good)
      | (with_reducible apply good_fon)
      | (with_reducible apply good_ite)
      | (with_reducible apply good_ite_snd)
      | (with_reducible apply good_foldl)
      | rfl
      | dsimp only
      | split

theorem State.holdoverLost_good {q : List Instr} {s : State} (h : Good q s) :
    Good q (State.holdoverLost s) := by
  unfold State.holdoverLost
  repeat'
    first
      | with_reducible assumption
      | (intro _)
      | (with_reducible apply State.bwGoto_good)
      | (with_reducible apply good_ite)

theorem State.bwForce_good {q : List Instr} {s : State} (h : Good q s) :
    Good q (State.bwForce s) := by
  unfold State.bwForce
  repeat'
    first
      | with_reducible assumption
      | (intro _)
      | (with_reducible apply State.noTarget_good)
      | (with_reducible apply good_ite)

theorem State.bwRealign_good {q : List Instr} {s : State} (h : Good q s) :
    Good q (State.bwRealign s) := by
  unfold State.bwRealign
  repeat'
    first
      | with_reducible assumption
      | (intro _)
      | (with_reducible apply State.setBw_good)
      | (with_reducible apply good_fset)
      | (with_reducible apply good_ite)
      | (with_reducible apply good_ite_snd)
      | (with_reducible apply good_foldl)
      | rfl
      | dsimp only
      | split

theorem State.bwUnlock_good {q : List Instr} {s : State} {x1 : Requester} {key : Nat} (h : Good q s) :
    Good q (State.bwUnlock s x1 key) := by
  unfold State.bwUnlock
  repeat'
    first
      | with_reducible assumption
      | (intro _)
      | (with_reducible apply good_fset)
      | (with_reducible apply good_fon)
      | (with_reducible apply good_ite)
      | (with_reducible apply good_ite_snd)
      | (with_reducible apply good_foldl)
      | rfl

theorem State.candConfig_good {q : List Instr} {s : State} {r : Nat} (h : Good q s) :
    Good q (State.candConfig s r) := by
  unfold State.candConfig
  repeat'
    first
      | with_reducible assumption
      | (intro _)
      | (with_reducible apply State.setCand_good)
      | (with_reducible apply State.disqualify_good)
      | (with_reducible apply good_fset)
      | (with_reducible apply good_ite)
      | (with_reducible apply good_ite_snd)
      | (with_reducible apply good_foldl)
      | rfl

end Sys2Proof.Machine
end

