-- ==== Sys2Proof/Laws/SoundPadHr.lean ====
section
/-! SUPPORT. Each operation of PadHr keeps a state sound and its queue. -/

namespace Sys2Proof.Machine

theorem State.setSw_good {q : List Instr} {s : State} {x : Sw} (h : Good q s) :
    Good q (State.setSw s x) := by
  exact h.same rfl rfl rfl rfl rfl

theorem State.setSwPort_good {q : List Instr} {s : State} {p : Nat} {x : SwPort} (h : Good q s) :
    Good q (State.setSwPort s p x) := by
  unfold State.setSwPort
  repeat'
    first
      | with_reducible assumption
      | (intro _)
      | (with_reducible apply State.setSw_good)

/-- A reservation of the width of its register. -/
theorem State.padReserve_keeps {q : List Instr} {s : State} {r : Reg} {p c cells : Nat} (n : Nat) (h : Good q s) (hr : r.covers n = true)
    (hv : cells < 2 ^ n) : Good q (s.padReserve r p c cells) := by
  unfold State.padReserve
  exact good_ite (good_fon (good_fon h rfl) rfl) (good_rset_low n h hr hv)

theorem State.padReserve_hr_good {q : List Instr} {s : State} {p c cells : Nat} (h : Good q s) (hv : cells < 65536) :
    Good q (s.padReserve .padHr p c cells) := State.padReserve_keeps 16 h rfl hv

theorem State.padReserve_gmin_good {q : List Instr} {s : State} {p c cells : Nat} (h : Good q s) (hv : cells < 512) :
    Good q (s.padReserve .padGmin p c cells) := State.padReserve_keeps 9 h rfl hv

theorem State.hrWrite_good {q : List Instr} {s : State} {p : Nat} (h : Good q s) :
    Good q (State.hrWrite s p) := by
  unfold State.hrWrite
  repeat'
    first
      | with_reducible assumption
      | (intro _)
      | (with_reducible apply State.padReserve_hr_good)
      | (with_reducible apply State.padReserve_gmin_good)
      | (with_reducible apply State.setSwPort_good)
      | (with_reducible apply good_ite)
      | (with_reducible apply good_ite_snd)
      | (with_reducible apply good_foldl)
      | rfl
      | dsimp only
      | split
      | omega

theorem State.hrLinkUp_good {q : List Instr} {s : State} {p : Nat} (h : Good q s) :
    Good q (State.hrLinkUp s p) := by
  unfold State.hrLinkUp
  repeat'
    first
      | with_reducible assumption
      | (intro _)
      | (with_reducible apply State.hrWrite_good)
      | (with_reducible apply good_ite)

theorem State.hrRttChange_good {q : List Instr} {s : State} {p : Nat} (h : Good q s) :
    Good q (State.hrRttChange s p) := by
  unfold State.hrRttChange
  repeat'
    first
      | with_reducible assumption
      | (intro _)
      | (with_reducible apply State.hrWrite_good)
      | (with_reducible apply good_ite)
      | (with_reducible apply good_ite_snd)
      | (with_reducible apply good_foldl)
      | rfl
      | dsimp only
      | split

end Sys2Proof.Machine
end

