-- ==== Sys2Proof/Laws/SoundNtOps.lean ====
section
/-! SUPPORT. Each operation of NtOps keeps a state sound and its queue. -/

namespace Sys2Proof.Machine

theorem State.setSes_good {q : List Instr} {s : State} {i : Nat} {x : NtSes} (h : Good q s) :
    Good q (State.setSes s i x) := by
  exact h.same rfl rfl rfl rfl rfl

theorem State.setNtPort_good {q : List Instr} {s : State} {p : Nat} {x : NtPort} (h : Good q s) :
    Good q (State.setNtPort s p x) := by
  exact h.same rfl rfl rfl rfl rfl

theorem State.tsfPush_good {q : List Instr} {s : State} {p : Nat} {m : PtpMsg} {typ : Nat} {st : NtStamp} {dirTx : Bool} (h : Good q s) :
    Good q (State.tsfPush s p m typ st dirTx) := by
  unfold State.tsfPush
  repeat'
    first
      | with_reducible assumption
      | (intro _)
      | (with_reducible apply State.setNtPort_good)
      | (with_reducible apply good_fon)
      | (with_reducible apply good_cnt)
      | (with_reducible apply good_ite)
      | (with_reducible apply good_ite_snd)
      | (with_reducible apply good_foldl)
      | rfl

theorem State.tsfPop_good {q : List Instr} {s : State} {p : Nat} (h : Good q s) :
    Good q (State.tsfPop s p).2 := by
  unfold State.tsfPop
  repeat'
    first
      | with_reducible assumption
      | (intro _)
      | (with_reducible apply State.setNtPort_good)
      | (with_reducible apply good_ite)
      | (with_reducible apply good_ite_snd)
      | (with_reducible apply good_foldl)
      | rfl
      | dsimp only
      | split

theorem State.tsfPop_good_eq {q : List Instr} {s : State} {p : Nat} {a_ : _} {t_ : State} (he : State.tsfPop s p = (a_, t_)) (h : Good q s) : Good q t_ := by
  have : Good q (State.tsfPop s p).2 := State.tsfPop_good h
  rw [he] at this
  exact this

theorem State.sesDiscard_good {q : List Instr} {s : State} {i : Nat} (h : Good q s) :
    Good q (State.sesDiscard s i) := by
  unfold State.sesDiscard
  repeat'
    first
      | with_reducible assumption
      | (intro _)
      | (with_reducible apply good_fon)
      | (with_reducible apply good_cnt)
      | (with_reducible apply good_ite)
      | (with_reducible apply good_ite_snd)
      | (with_reducible apply good_foldl)
      | rfl

theorem State.stepDrop_good {q : List Instr} {s : State} {i : Nat} (h : Good q s) :
    Good q (State.stepDrop s i) := by
  unfold State.stepDrop
  repeat'
    first
      | with_reducible assumption
      | (intro _)
      | (with_reducible apply good_fon)
      | (with_reducible apply good_cnt)
      | (with_reducible apply good_ite)
      | (with_reducible apply good_ite_snd)
      | (with_reducible apply good_foldl)
      | rfl

theorem State.sesInvalid_good {q : List Instr} {s : State} {i : Nat} {cause : Nat} (h : Good q s) :
    Good q (State.sesInvalid s i cause) := by
  unfold State.sesInvalid
  repeat'
    first
      | with_reducible assumption
      | (intro _)
      | (with_reducible apply State.offerBbr_good)
      | (with_reducible apply good_fset)
      | (with_reducible apply good_ite)
      | (with_reducible apply good_ite_snd)
      | (with_reducible apply good_foldl)
      | rfl

theorem State.pslavesOf_good {q : List Instr} {s : State} {peer : Nat} (h : Good q s) :
    Good q (State.pslavesOf s peer) := by
  unfold State.pslavesOf
  repeat'
    first
      | with_reducible assumption
      | (intro _)
      | (with_reducible apply State.sesInvalid_good)
      | (with_reducible apply good_ite)
      | (with_reducible apply good_ite_snd)
      | (with_reducible apply good_foldl)

theorem State.sesLost_good {q : List Instr} {s : State} {i : Nat} {cause : Nat} (h : Good q s) :
    Good q (State.sesLost s i cause) := by
  unfold State.sesLost
  repeat'
    first
      | with_reducible assumption
      | (intro _)
      | (with_reducible apply State.sesInvalid_good)
      | (with_reducible apply State.pslavesOf_good)
      | (with_reducible apply good_ite)

theorem State.publish_good {q : List Instr} {s : State} {p : Nat} {rm : Int} {d : Int} (h : Good q s) :
    Good q (State.publish s p rm d) := by
  unfold State.publish
  repeat'
    first
      | with_reducible assumption
      | (intro _)
      | (with_reducible apply State.hrRttChange_good)
      | (with_reducible apply good_fset)
      | (with_reducible apply good_ite)
      | (with_reducible apply good_ite_snd)
      | (with_reducible apply good_foldl)
      | rfl

theorem State.roundTrip_good {q : List Instr} {s : State} {i : Nat} {r : Int} {fine : Bool} (h : Good q s) :
    Good q (State.roundTrip s i r fine) := by
  unfold State.roundTrip
  repeat'
    first
      | with_reducible assumption
      | (intro _)
      | (with_reducible apply State.sesDiscard_good)
      | (with_reducible apply State.setSes_good)
      | (with_reducible apply State.publish_good)
      | (with_reducible apply good_fset)
      | (with_reducible apply good_ite)
      | (with_reducible apply good_ite_snd)
      | (with_reducible apply good_foldl)
      | rfl

theorem State.showT_good {q : List Instr} {s : State} {i : Nat} {k : Nat} {t : Instant} (h : Good q s) :
    Good q (State.showT s i k t) := by
  unfold State.showT
  repeat'
    first
      | with_reducible assumption
      | (intro _)
      | ((with_reducible refine good_rset_low 96 ?_ ?_ ?_); (on_goal 2 => rfl); (on_goal 2 => omega))

theorem State.syncOffset_good {q : List Instr} {s : State} {i : Nat} {y : NtSync} {x3 : Option Int} (h : Good q s) :
    Good q (State.syncOffset s i y x3) := by
  unfold State.syncOffset
  repeat'
    first
      | with_reducible assumption
      | (intro _)
      | (with_reducible apply State.sesDiscard_good)
      | (with_reducible apply State.bwDeliver_good)
      | (with_reducible apply good_fset)
      | (with_reducible apply good_ite)
      | (with_reducible apply good_ite_snd)
      | (with_reducible apply good_foldl)
      | rfl
      | dsimp only
      | split

theorem State.syncDone_good {q : List Instr} {s : State} {i : Nat} {y : NtSync} (h : Good q s) :
    Good q (State.syncDone s i y) := by
  unfold State.syncDone
  repeat'
    first
      | with_reducible assumption
      | (intro _)
      | (with_reducible apply State.showT_good)
      | (with_reducible apply State.setSes_good)
      | (with_reducible apply State.syncOffset_good)

theorem State.syncTo_good {q : List Instr} {s : State} {m : PtpMsg} {st : NtStamp} {i : Nat} (h : Good q s) :
    Good q (State.syncTo s m st i) := by
  unfold State.syncTo
  repeat'
    first
      | with_reducible assumption
      | (intro _)
      | (with_reducible apply State.setSes_good)
      | (with_reducible apply State.syncDone_good)
      | (with_reducible apply State.sesDiscard_good)
      | (with_reducible apply good_cnt)
      | (with_reducible apply good_ite)
      | (with_reducible apply good_ite_snd)
      | (with_reducible apply good_foldl)
      | rfl

theorem State.toSessions_good {q : List Instr} {s : State} {l : List Nat} {f : State → Nat → State} (h : Good q s) (hf : ∀ st a, Good q st → Good q (f st a)) :
    Good q (State.toSessions s l f) := by
  unfold State.toSessions
  repeat'
    first
      | with_reducible assumption
      | (intro _)
      | (with_reducible apply hf)
      | (with_reducible apply good_ite)
      | (with_reducible apply good_ite_snd)
      | (with_reducible apply good_foldl)

theorem State.syncRx_good {q : List Instr} {s : State} {p : Nat} {m : PtpMsg} {o : EdgeObs} (h : Good q s) :
    Good q (State.syncRx s p m o) := by
  unfold State.syncRx
  repeat'
    first
      | with_reducible assumption
      | (intro _)
      | (with_reducible apply State.toSessions_good)
      | (with_reducible apply State.syncTo_good)
      | (with_reducible apply State.tsfPush_good)
      | (with_reducible apply good_ite)
      | (with_reducible apply good_ite_snd)
      | (with_reducible apply good_foldl)
      | rfl
      | dsimp only
      | split

theorem State.followUpRx_good {q : List Instr} {s : State} {p : Nat} {m : PtpMsg} (h : Good q s) :
    Good q (State.followUpRx s p m) := by
  unfold State.followUpRx
  repeat'
    first
      | with_reducible assumption
      | (intro _)
      | (with_reducible apply State.toSessions_good)
      | (with_reducible apply State.sesDiscard_good)
      | (with_reducible apply State.syncDone_good)
      | (with_reducible apply good_cnt)
      | (with_reducible apply good_ite)
      | (with_reducible apply good_ite_snd)
      | (with_reducible apply good_foldl)
      | rfl
      | dsimp only
      | split

theorem State.sesSend_good {q : List Instr} {s : State} {i : Nat} {typ : Nat} {seq : Nat} {corr : Int} {ts : Instant} (h : Good q s) :
    Good q (State.sesSend s i typ seq corr ts) := by
  unfold State.sesSend
  repeat'
    first
      | with_reducible assumption
      | (intro _)
      | (with_reducible apply State.setSes_good)
      | (with_reducible apply good_cnt)
      | (with_reducible apply good_ite)
      | (with_reducible apply good_ite_snd)
      | (with_reducible apply good_foldl)
      | rfl

theorem State.masterHeld_good {q : List Instr} {s : State} {i : Nat} (h : Good q s) :
    Good q (State.masterHeld s i) := by
  unfold State.masterHeld
  repeat'
    first
      | with_reducible assumption
      | (intro _)
      | (with_reducible apply good_fset)
      | (with_reducible apply good_ite)
      | (with_reducible apply good_ite_snd)
      | (with_reducible apply good_foldl)
      | rfl

theorem State.delayReqRx_good {q : List Instr} {s : State} {p : Nat} {m : PtpMsg} {o : EdgeObs} (h : Good q s) :
    Good q (State.delayReqRx s p m o) := by
  unfold State.delayReqRx
  repeat'
    first
      | with_reducible assumption
      | (intro _)
      | (with_reducible apply State.toSessions_good)
      | (with_reducible apply State.masterHeld_good)
      | (with_reducible apply State.sesSend_good)
      | (with_reducible apply State.tsfPush_good)
      | (with_reducible apply good_cnt)
      | (with_reducible apply good_ite)
      | (with_reducible apply good_ite_snd)
      | (with_reducible apply good_foldl)
      | rfl
      | dsimp only
      | split

theorem State.delayRespRx_good {q : List Instr} {s : State} {p : Nat} {m : PtpMsg} (h : Good q s) :
    Good q (State.delayRespRx s p m) := by
  unfold State.delayRespRx
  repeat'
    first
      | with_reducible assumption
      | (intro _)
      | (with_reducible apply State.toSessions_good)
      | (with_reducible apply State.setSes_good)
      | (with_reducible apply State.stepDrop_good)
      | (with_reducible apply State.sesDiscard_good)
      | (with_reducible apply State.roundTrip_good)
      | (with_reducible apply State.showT_good)
      | (with_reducible apply good_cnt)
      | (with_reducible apply good_ite)
      | (with_reducible apply good_ite_snd)
      | (with_reducible apply good_foldl)
      | rfl
      | dsimp only
      | split

theorem State.pdelayReqRx_good {q : List Instr} {s : State} {p : Nat} {m : PtpMsg} {o : EdgeObs} {tx : EdgeObs} (h : Good q s) :
    Good q (State.pdelayReqRx s p m o tx) := by
  unfold State.pdelayReqRx
  repeat'
    first
      | with_reducible assumption
      | (intro _)
      | (with_reducible apply State.toSessions_good)
      | (with_reducible apply State.sesSend_good)
      | (with_reducible apply State.tsfPush_good)
      | (with_reducible apply good_cnt)
      | (with_reducible apply good_ite)
      | (with_reducible apply good_ite_snd)
      | (with_reducible apply good_foldl)
      | rfl
      | dsimp only
      | split

theorem State.peerDone_good {q : List Instr} {s : State} {i : Nat} {t1 : NtStamp} {t4 : NtStamp} {t2 : Instant} {t3 : Instant} {c : Int} {two : Bool} {fine : Bool} (h : Good q s) :
    Good q (State.peerDone s i t1 t4 t2 t3 c two fine) := by
  unfold State.peerDone
  repeat'
    first
      | with_reducible assumption
      | (intro _)
      | (with_reducible apply State.stepDrop_good)
      | (with_reducible apply State.setSes_good)
      | (with_reducible apply State.sesDiscard_good)
      | (with_reducible apply State.showT_good)
      | (with_reducible apply State.roundTrip_good)
      | (with_reducible apply good_fset)
      | (with_reducible apply good_ite)
      | (with_reducible apply good_ite_snd)
      | (with_reducible apply good_foldl)
      | rfl

theorem State.pdelayRespRx_good {q : List Instr} {s : State} {p : Nat} {m : PtpMsg} {o : EdgeObs} (h : Good q s) :
    Good q (State.pdelayRespRx s p m o) := by
  unfold State.pdelayRespRx
  repeat'
    first
      | with_reducible assumption
      | (intro _)
      | (with_reducible apply State.toSessions_good)
      | (with_reducible apply State.setSes_good)
      | (with_reducible apply State.peerDone_good)
      | (with_reducible apply State.sesDiscard_good)
      | (with_reducible apply State.tsfPush_good)
      | (with_reducible apply good_cnt)
      | (with_reducible apply good_ite)
      | (with_reducible apply good_ite_snd)
      | (with_reducible apply good_foldl)
      | rfl
      | dsimp only
      | split

theorem State.pdelayFuRx_good {q : List Instr} {s : State} {p : Nat} {m : PtpMsg} (h : Good q s) :
    Good q (State.pdelayFuRx s p m) := by
  unfold State.pdelayFuRx
  repeat'
    first
      | with_reducible assumption
      | (intro _)
      | (with_reducible apply State.toSessions_good)
      | (with_reducible apply State.setSes_good)
      | (with_reducible apply State.sesDiscard_good)
      | (with_reducible apply State.peerDone_good)
      | (with_reducible apply good_cnt)
      | (with_reducible apply good_ite)
      | (with_reducible apply good_ite_snd)
      | (with_reducible apply good_foldl)
      | rfl
      | dsimp only
      | split

theorem State.syncTx_good {q : List Instr} {s : State} {i : Nat} {o : EdgeObs} (h : Good q s) :
    Good q (State.syncTx s i o) := by
  unfold State.syncTx
  repeat'
    first
      | with_reducible assumption
      | (intro _)
      | (with_reducible apply State.masterHeld_good)
      | (with_reducible apply State.setSes_good)
      | (with_reducible apply State.sesSend_good)
      | (with_reducible apply good_ite)

theorem State.reqTx_good {q : List Instr} {s : State} {i : Nat} {typ : Nat} {o : EdgeObs} (h : Good q s) :
    Good q (State.reqTx s i typ o) := by
  unfold State.reqTx
  repeat'
    first
      | with_reducible assumption
      | (intro _)
      | (with_reducible apply State.setSes_good)
      | (with_reducible apply State.sesSend_good)

theorem State.delayReqTx_good {q : List Instr} {s : State} {i : Nat} {o : EdgeObs} (h : Good q s) :
    Good q (State.delayReqTx s i o) := by
  unfold State.delayReqTx
  repeat'
    first
      | with_reducible assumption
      | (intro _)
      | (with_reducible apply State.reqTx_good)
      | (with_reducible apply good_ite)

theorem State.pdelayReqTx_good {q : List Instr} {s : State} {i : Nat} {o : EdgeObs} (h : Good q s) :
    Good q (State.pdelayReqTx s i o) := by
  unfold State.pdelayReqTx
  repeat'
    first
      | with_reducible assumption
      | (intro _)
      | (with_reducible apply State.reqTx_good)
      | (with_reducible apply good_ite)

theorem State.sesTimeout_good {q : List Instr} {s : State} {i : Nat} (h : Good q s) :
    Good q (State.sesTimeout s i) := by
  unfold State.sesTimeout
  repeat'
    first
      | with_reducible assumption
      | (intro _)
      | (with_reducible apply State.sesInvalid_good)
      | (with_reducible apply good_fon)
      | (with_reducible apply good_ite)
      | (with_reducible apply good_ite_snd)
      | (with_reducible apply good_foldl)
      | rfl
      | dsimp only
      | split

theorem State.sesEnable_good {q : List Instr} {s : State} {i : Nat} (h : Good q s) :
    Good q (State.sesEnable s i) := by
  unfold State.sesEnable
  repeat'
    first
      | with_reducible assumption
      | (intro _)
      | (with_reducible apply State.fresh_good)
      | (with_reducible refine State.fresh_good_eq (by with_reducible assumption) ?_)
      | (with_reducible apply State.setSes_good)
      | (with_reducible apply good_fset)
      | (with_reducible apply good_ite)
      | (with_reducible apply good_ite_snd)
      | (with_reducible apply good_foldl)
      | rfl

theorem State.sesDisable_good {q : List Instr} {s : State} {i : Nat} (h : Good q s) :
    Good q (State.sesDisable s i) := by
  unfold State.sesDisable
  repeat'
    first
      | with_reducible assumption
      | (intro _)
      | (with_reducible apply State.setSes_good)
      | (with_reducible apply State.sesLost_good)
      | (with_reducible apply good_fset)
      | (with_reducible apply good_ite)
      | (with_reducible apply good_ite_snd)
      | (with_reducible apply good_foldl)
      | rfl

theorem State.ntPortDown_good {q : List Instr} {s : State} {p : Nat} (h : Good q s) :
    Good q (State.ntPortDown s p) := by
  unfold State.ntPortDown
  repeat'
    first
      | with_reducible assumption
      | (intro _)
      | (with_reducible apply State.sesLost_good)
      | (with_reducible apply good_fset)
      | (with_reducible apply good_ite)
      | (with_reducible apply good_ite_snd)
      | (with_reducible apply good_foldl)
      | rfl

theorem State.timingMoves_good {q : List Instr} {s : State} {p : Nat} (h : Good q s) :
    Good q (State.timingMoves s p) := by
  unfold State.timingMoves
  repeat'
    first
      | with_reducible assumption
      | (intro _)
      | (with_reducible apply State.setSes_good)
      | (with_reducible apply good_cnt)
      | (with_reducible apply good_ite)
      | (with_reducible apply good_ite_snd)
      | (with_reducible apply good_foldl)
      | rfl

theorem State.ntLaneLost_good {q : List Instr} {s : State} {p : Nat} (h : Good q s) :
    Good q (State.ntLaneLost s p) := by
  unfold State.ntLaneLost
  repeat'
    first
      | with_reducible assumption
      | (intro _)
      | (with_reducible apply State.setNtPort_good)
      | (with_reducible apply good_fset)
      | (with_reducible apply good_ite)
      | (with_reducible apply good_ite_snd)
      | (with_reducible apply good_foldl)
      | rfl

theorem State.ntLaneLock_good {q : List Instr} {s : State} {p : Nat} {tx : Int} {rx : Int} (h : Good q s) :
    Good q (State.ntLaneLock s p tx rx) := by
  unfold State.ntLaneLock
  repeat'
    first
      | with_reducible assumption
      | (intro _)
      | (with_reducible apply good_fset)
      | (with_reducible apply good_ite)
      | (with_reducible apply good_ite_snd)
      | (with_reducible apply good_foldl)
      | rfl

theorem State.pdReading_good {q : List Instr} {s : State} {p : Nat} {ph : Int} (h : Good q s) :
    Good q (State.pdReading s p ph) := by
  unfold State.pdReading
  repeat'
    first
      | with_reducible assumption
      | (intro _)
      | (with_reducible apply State.setNtPort_good)
      | (with_reducible apply good_fset)
      | (with_reducible apply good_ite)
      | (with_reducible apply good_ite_snd)
      | (with_reducible apply good_foldl)
      | rfl
      | dsimp only
      | split

theorem State.phaseMeasured_good {q : List Instr} {s : State} {p : Nat} (h : Good q s) :
    Good q (State.phaseMeasured s p) := by
  unfold State.phaseMeasured
  repeat'
    first
      | with_reducible assumption
      | (intro _)
      | (with_reducible apply State.setNtPort_good)
      | (with_reducible apply good_ite)

theorem State.esmcRx_good {q : List Instr} {s : State} {p : Nat} {code : Nat} (h : Good q s) :
    Good q (State.esmcRx s p code) := by
  unfold State.esmcRx
  repeat'
    first
      | with_reducible assumption
      | (intro _)
      | (with_reducible apply State.setNtPort_good)
      | (with_reducible apply good_fset)
      | (with_reducible apply good_ite)
      | (with_reducible apply good_ite_snd)
      | (with_reducible apply good_foldl)
      | rfl

theorem State.esmcLoss_good {q : List Instr} {s : State} {p : Nat} (h : Good q s) :
    Good q (State.esmcLoss s p) := by
  unfold State.esmcLoss
  repeat'
    first
      | with_reducible assumption
      | (intro _)
      | (with_reducible apply State.disqualify_good)
      | (with_reducible apply good_fon)
      | (with_reducible apply good_ite)
      | (with_reducible apply good_ite_snd)
      | (with_reducible apply good_foldl)
      | rfl

theorem State.ntClear_good {q : List Instr} {s : State} (h : Good q s) :
    Good q (State.ntClear s) := by
  exact h.same rfl rfl rfl rfl rfl

end Sys2Proof.Machine
end

