-- ==== Sys2Proof/Laws/SoundPtOps.lean ====
section
/-! SUPPORT. Each operation of PtOps keeps a state sound and its queue. -/

namespace Sys2Proof.Machine

theorem State.setPt_good {q : List Instr} {s : State} {p : Nat} {x : Pt} (h : Good q s) :
    Good q (State.setPt s p x) := by
  exact h.same rfl rfl rfl rfl rfl

theorem State.elmSend_good {q : List Instr} {s : State} {p : Nat} {l : List ElmBody} (h : Good q s) :
    Good q (State.elmSend s p l) := by
  unfold State.elmSend
  repeat'
    first
      | with_reducible assumption
      | (intro _)
      | (with_reducible apply good_ite)
      | (with_reducible apply good_ite_snd)
      | (with_reducible apply good_foldl)
      | rfl
      | dsimp only
      | split
      | omega
      | (with_reducible apply good_mk)

theorem State.elmMark_good {q : List Instr} {s : State} {p : Nat} (h : Good q s) :
    Good q (State.elmMark s p).2 := by
  unfold State.elmMark
  repeat'
    first
      | with_reducible assumption
      | (intro _)
      | (with_reducible apply State.fresh_good)
      | (with_reducible refine State.fresh_good_eq (by with_reducible assumption) ?_)
      | (with_reducible apply good_ite)
      | (with_reducible apply good_ite_snd)
      | (with_reducible apply good_foldl)
      | rfl
      | dsimp only
      | split
      | omega
      | (with_reducible apply good_mk)

theorem State.elmMark_good_eq {q : List Instr} {s : State} {p : Nat} {a_ : _} {t_ : State} (he : State.elmMark s p = (a_, t_)) (h : Good q s) : Good q t_ := by
  have : Good q (State.elmMark s p).2 := State.elmMark_good h
  rw [he] at this
  exact this

theorem State.ptGoto_good {q : List Instr} {s : State} {p : Nat} {st : Nat} (h : Good q s) :
    Good q (State.ptGoto s p st) := by
  unfold State.ptGoto
  repeat'
    first
      | with_reducible assumption
      | (intro _)
      | (with_reducible apply State.setPt_good)
      | (with_reducible apply good_fset)
      | (with_reducible apply good_ite)
      | (with_reducible apply good_ite_snd)
      | (with_reducible apply good_foldl)
      | rfl

theorem State.laneClear_good {q : List Instr} {s : State} {j : Nat} (h : Good q s) :
    Good q (State.laneClear s j) := by
  unfold State.laneClear
  repeat'
    first
      | with_reducible assumption
      | (intro _)
      | (with_reducible apply State.ntLaneLost_good)
      | (with_reducible apply good_fset)
      | (with_reducible apply good_ite)
      | (with_reducible apply good_ite_snd)
      | (with_reducible apply good_foldl)
      | rfl

theorem State.setRate_good {q : List Instr} {s : State} {p : Nat} {rate : Nat} (h : Good q s) :
    Good q (State.setRate s p rate) := by
  unfold State.setRate
  repeat'
    first
      | with_reducible assumption
      | (intro _)
      | (with_reducible apply State.laneClear_good)
      | (with_reducible apply good_fset)
      | (with_reducible apply good_ite)
      | (with_reducible apply good_ite_snd)
      | (with_reducible apply good_foldl)
      | rfl

theorem State.ptLink_good {q : List Instr} {s : State} {p : Nat} (h : Good q s) :
    Good q (State.ptLink s p) := by
  unfold State.ptLink
  repeat'
    first
      | with_reducible assumption
      | (intro _)
      | (with_reducible apply State.raiseEv_good)

theorem State.runStandard_good {q : List Instr} {s : State} {p : Nat} {fresh : Bool} (h : Good q s) :
    Good q (State.runStandard s p fresh) := by
  unfold State.runStandard
  repeat'
    first
      | with_reducible assumption
      | (intro _)
      | (with_reducible apply State.ptGoto_good)
      | (with_reducible apply State.setRate_good)
      | (with_reducible apply State.setPt_good)
      | (with_reducible apply good_ite)

theorem State.detectCheck_good {q : List Instr} {s : State} {p : Nat} (h : Good q s) :
    Good q (State.detectCheck s p) := by
  unfold State.detectCheck
  repeat'
    first
      | with_reducible assumption
      | (intro _)
      | (with_reducible apply State.ptGoto_good)
      | (with_reducible apply State.setPt_good)
      | (with_reducible apply good_ite)

theorem State.newAttempt_good {q : List Instr} {s : State} {p : Nat} (h : Good q s) :
    Good q (State.newAttempt s p) := by
  unfold State.newAttempt
  repeat'
    first
      | with_reducible assumption
      | (intro _)
      | (with_reducible apply State.setPt_good)
      | (with_reducible apply State.ptGoto_good)
      | (with_reducible apply State.setRate_good)
      | (with_reducible apply State.detectCheck_good)
      | (with_reducible apply State.runStandard_good)
      | (with_reducible apply good_ite)

theorem State.linkDown_good {q : List Instr} {s : State} {p : Nat} (h : Good q s) :
    Good q (State.linkDown s p) := by
  unfold State.linkDown
  repeat'
    first
      | with_reducible assumption
      | (intro _)
      | (with_reducible apply State.setPt_good)
      | (with_reducible apply State.ptLink_good)
      | (with_reducible apply State.ntPortDown_good)
      | (with_reducible apply good_fset)
      | (with_reducible apply good_cnt)
      | (with_reducible apply good_ite)
      | (with_reducible apply good_ite_snd)
      | (with_reducible apply good_foldl)
      | rfl

theorem State.restart_good {q : List Instr} {s : State} {p : Nat} (h : Good q s) :
    Good q (State.restart s p) := by
  unfold State.restart
  repeat'
    first
      | with_reducible assumption
      | (intro _)
      | (with_reducible apply State.newAttempt_good)
      | (with_reducible apply State.linkDown_good)

theorem State.linkUp_good {q : List Instr} {s : State} {p : Nat} {st : Nat} {rate : Nat} {lanes : Nat} (h : Good q s) :
    Good q (State.linkUp s p st rate lanes) := by
  unfold State.linkUp
  repeat'
    first
      | with_reducible assumption
      | (intro _)
      | (with_reducible apply State.ptGoto_good)
      | (with_reducible apply State.setPt_good)
      | (with_reducible apply State.ptLink_good)
      | (with_reducible apply good_fset)
      | (with_reducible apply good_ite)
      | (with_reducible apply good_ite_snd)
      | (with_reducible apply good_foldl)
      | rfl

theorem State.attemptFails_good {q : List Instr} {s : State} {p : Nat} {cause : Nat} (h : Good q s) :
    Good q (State.attemptFails s p cause) := by
  unfold State.attemptFails
  repeat'
    first
      | with_reducible assumption
      | (intro _)
      | (with_reducible apply State.newAttempt_good)
      | (with_reducible apply State.setRate_good)
      | (with_reducible apply State.ptGoto_good)
      | (with_reducible apply State.setPt_good)
      | (with_reducible apply good_fset)
      | (with_reducible apply good_cnt)
      | (with_reducible apply good_ite)
      | (with_reducible apply good_ite_snd)
      | (with_reducible apply good_foldl)
      | rfl

theorem State.setFamily_good {q : List Instr} {s : State} {x1 : Nat} (h : Good q s) :
    Good q (State.setFamily s x1) := by
  unfold State.setFamily
  repeat'
    first
      | with_reducible assumption
      | (intro _)
      | (with_reducible apply good_fset)
      | (with_reducible apply good_ite)
      | (with_reducible apply good_ite_snd)
      | (with_reducible apply good_foldl)
      | rfl

theorem State.ptEnable_good {q : List Instr} {s : State} {p : Nat} (h : Good q s) :
    Good q (State.ptEnable s p) := by
  unfold State.ptEnable
  repeat'
    first
      | with_reducible assumption
      | (intro _)
      | (with_reducible apply State.setTime_good)
      | (with_reducible apply State.newAttempt_good)
      | (with_reducible apply State.setFamily_good)
      | (with_reducible apply good_fset)
      | (with_reducible apply good_fon)
      | (with_reducible apply good_ite)
      | (with_reducible apply good_ite_snd)
      | (with_reducible apply good_foldl)
      | rfl

theorem State.ptDisable_good {q : List Instr} {s : State} {p : Nat} (h : Good q s) :
    Good q (State.ptDisable s p) := by
  unfold State.ptDisable
  repeat'
    first
      | with_reducible assumption
      | (intro _)
      | (with_reducible apply State.linkDown_good)
      | (with_reducible apply State.setRate_good)
      | (with_reducible apply State.setFamily_good)
      | (with_reducible apply State.setPt_good)
      | (with_reducible apply good_fset)
      | (with_reducible apply good_ite)
      | (with_reducible apply good_ite_snd)
      | (with_reducible apply good_foldl)
      | rfl

theorem State.enterRate_good {q : List Instr} {s : State} {p : Nat} {rate : Nat} (h : Good q s) :
    Good q (State.enterRate s p rate) := by
  unfold State.enterRate
  repeat'
    first
      | with_reducible assumption
      | (intro _)
      | (with_reducible apply State.ptGoto_good)
      | (with_reducible apply State.setPt_good)
      | (with_reducible apply State.elmSend_good)

theorem State.helloCheck_good {q : List Instr} {s : State} {p : Nat} (h : Good q s) :
    Good q (State.helloCheck s p) := by
  unfold State.helloCheck
  repeat'
    first
      | with_reducible assumption
      | (intro _)
      | (with_reducible apply State.enterRate_good)
      | (with_reducible apply State.setPt_good)
      | (with_reducible apply good_ite)
      | (with_reducible apply good_ite_snd)
      | (with_reducible apply good_foldl)
      | rfl
      | dsimp only
      | split

theorem State.eqMsg_good {q : List Instr} {s : State} {p : Nat} {i : Nat} {done : Bool} {limit : Bool} {answered : Nat} (h : Good q s) :
    Good q (State.eqMsg s p i done limit answered).2 := by
  unfold State.eqMsg
  repeat'
    first
      | with_reducible assumption
      | (intro _)
      | (with_reducible apply State.fresh_good)

theorem State.eqMsg_good_eq {q : List Instr} {s : State} {p : Nat} {i : Nat} {done : Bool} {limit : Bool} {answered : Nat} {a_ : _} {t_ : State} (he : State.eqMsg s p i done limit answered = (a_, t_)) (h : Good q s) : Good q t_ := by
  have : Good q (State.eqMsg s p i done limit answered).2 := State.eqMsg_good h
  rw [he] at this
  exact this

theorem State.eqOpen_good {q : List Instr} {s : State} {p : Nat} (h : Good q s) :
    Good q (State.eqOpen s p) := by
  unfold State.eqOpen
  repeat'
    first
      | with_reducible assumption
      | (intro _)
      | (with_reducible apply State.eqMsg_good)
      | (with_reducible refine State.eqMsg_good_eq (by with_reducible assumption) ?_)
      | (with_reducible apply State.elmSend_good)
      | (with_reducible apply good_ite)
      | (with_reducible apply good_ite_snd)
      | (with_reducible apply good_foldl)
      | (with_reducible apply good_foldl_snd)

theorem State.lockCheck_good {q : List Instr} {s : State} {p : Nat} (h : Good q s) :
    Good q (State.lockCheck s p) := by
  unfold State.lockCheck
  repeat'
    first
      | with_reducible assumption
      | (intro _)
      | (with_reducible apply State.ptGoto_good)
      | (with_reducible apply State.eqOpen_good)
      | (with_reducible apply good_ite)

theorem State.eqCheck_good {q : List Instr} {s : State} {p : Nat} (h : Good q s) :
    Good q (State.eqCheck s p) := by
  unfold State.eqCheck
  repeat'
    first
      | with_reducible assumption
      | (intro _)
      | (with_reducible apply State.ptGoto_good)
      | (with_reducible apply good_ite)

theorem State.verifyCheck_good {q : List Instr} {s : State} {p : Nat} (h : Good q s) :
    Good q (State.verifyCheck s p) := by
  unfold State.verifyCheck
  repeat'
    first
      | with_reducible assumption
      | (intro _)
      | (with_reducible apply State.ptGoto_good)
      | (with_reducible apply State.setPt_good)
      | (with_reducible apply State.enterRate_good)
      | (with_reducible apply State.attemptFails_good)
      | (with_reducible apply good_ite)

theorem State.elberUp_good {q : List Instr} {s : State} {p : Nat} (h : Good q s) :
    Good q (State.elberUp s p) := by
  unfold State.elberUp
  repeat'
    first
      | with_reducible assumption
      | (intro _)
      | (with_reducible apply State.linkUp_good)
      | (with_reducible apply good_fset)
      | (with_reducible apply good_ite)
      | (with_reducible apply good_ite_snd)
      | (with_reducible apply good_foldl)
      | rfl

theorem State.laneSignal_good {q : List Instr} {s : State} {j : Nat} (h : Good q s) :
    Good q (State.laneSignal s j) := by
  unfold State.laneSignal
  repeat'
    first
      | with_reducible assumption
      | (intro _)
      | (with_reducible apply State.detectCheck_good)
      | (with_reducible apply good_fset)
      | (with_reducible apply good_ite)
      | (with_reducible apply good_ite_snd)
      | (with_reducible apply good_foldl)
      | rfl

theorem State.laneLock_good {q : List Instr} {s : State} {j : Nat} {tx : Int} {rx : Int} (h : Good q s) :
    Good q (State.laneLock s j tx rx) := by
  unfold State.laneLock
  repeat'
    first
      | with_reducible assumption
      | (intro _)
      | (with_reducible apply State.ntLaneLock_good)
      | (with_reducible apply State.lockCheck_good)
      | (with_reducible apply good_fset)
      | (with_reducible apply good_ite)
      | (with_reducible apply good_ite_snd)
      | (with_reducible apply good_foldl)
      | rfl

theorem State.laneOut_good {q : List Instr} {s : State} {p : Nat} {i : Nat} (h : Good q s) :
    Good q (State.laneOut s p i) := by
  unfold State.laneOut
  repeat'
    first
      | with_reducible assumption
      | (intro _)
      | (with_reducible apply State.ptLink_good)
      | (with_reducible apply State.timingMoves_good)
      | (with_reducible apply good_fset)
      | (with_reducible apply good_ite)
      | (with_reducible apply good_ite_snd)
      | (with_reducible apply good_foldl)
      | rfl

theorem State.laneLoss_good {q : List Instr} {s : State} {j : Nat} {los : Bool} {cut : Nat} (h : Good q s) :
    Good q (State.laneLoss s j los cut) := by
  unfold State.laneLoss
  repeat'
    first
      | with_reducible assumption
      | (intro _)
      | (with_reducible apply State.laneClear_good)
      | (with_reducible apply State.report_good)
      | (with_reducible apply State.newAttempt_good)
      | (with_reducible apply State.restart_good)
      | (with_reducible apply State.elmMark_good)
      | (with_reducible refine State.elmMark_good_eq (by with_reducible assumption) ?_)
      | (with_reducible apply State.laneOut_good)
      | (with_reducible apply State.elmSend_good)
      | (with_reducible apply State.setPt_good)
      | (with_reducible apply good_fset)
      | (with_reducible apply good_fon)
      | (with_reducible apply good_cnt)
      | (with_reducible apply good_cntAdd)
      | (with_reducible apply good_ite)
      | (with_reducible apply good_ite_snd)
      | (with_reducible apply good_foldl)
      | rfl

theorem State.lnmLock_good {q : List Instr} {s : State} (h : Good q s) :
    Good q (State.lnmLock s) := by
  unfold State.lnmLock
  repeat'
    first
      | with_reducible assumption
      | (intro _)
      | (with_reducible apply good_fset)
      | (with_reducible apply good_ite)
      | (with_reducible apply good_ite_snd)
      | (with_reducible apply good_foldl)
      | rfl

theorem State.lnmLoss_good {q : List Instr} {s : State} {los : Bool} (h : Good q s) :
    Good q (State.lnmLoss s los) := by
  unfold State.lnmLoss
  repeat'
    first
      | with_reducible assumption
      | (intro _)
      | (with_reducible apply State.report_good)
      | (with_reducible apply good_fset)
      | (with_reducible apply good_fon)
      | (with_reducible apply good_cnt)
      | (with_reducible apply good_ite)
      | (with_reducible apply good_ite_snd)
      | (with_reducible apply good_foldl)
      | rfl

theorem State.qpllDone_good {q : List Instr} {s : State} {x1 : Nat} (h : Good q s) :
    Good q (State.qpllDone s x1) := by
  unfold State.qpllDone
  repeat'
    first
      | with_reducible assumption
      | (intro _)
      | (with_reducible apply good_fset)
      | (with_reducible apply good_ite)
      | (with_reducible apply good_ite_snd)
      | (with_reducible apply good_foldl)
      | rfl

theorem State.syntChanged_good {q : List Instr} {s : State} {x1 : Nat} (h : Good q s) :
    Good q (State.syntChanged s x1) := by
  unfold State.syntChanged
  repeat'
    first
      | with_reducible assumption
      | (intro _)
      | (with_reducible apply State.laneClear_good)
      | (with_reducible apply State.restart_good)
      | (with_reducible apply good_fset)
      | (with_reducible apply good_fon)
      | (with_reducible apply good_cnt)
      | (with_reducible apply good_ite)
      | (with_reducible apply good_ite_snd)
      | (with_reducible apply good_foldl)
      | rfl

theorem State.laneReset_good {q : List Instr} {s : State} {j : Nat} (h : Good q s) :
    Good q (State.laneReset s j) := by
  unfold State.laneReset
  repeat'
    first
      | with_reducible assumption
      | (intro _)
      | (with_reducible apply State.laneClear_good)
      | (with_reducible apply State.restart_good)
      | (with_reducible apply good_fon)
      | (with_reducible apply good_cnt)
      | (with_reducible apply good_ite)
      | (with_reducible apply good_ite_snd)
      | (with_reducible apply good_foldl)
      | rfl

theorem State.elmDiscard_good {q : List Instr} {s : State} {p : Nat} (h : Good q s) :
    Good q (State.elmDiscard s p) := by
  unfold State.elmDiscard
  repeat'
    first
      | with_reducible assumption
      | (intro _)
      | (with_reducible apply good_cnt)
      | (with_reducible apply good_ite)
      | (with_reducible apply good_ite_snd)
      | (with_reducible apply good_foldl)
      | rfl

theorem State.elmHello_good {q : List Instr} {s : State} {p : Nat} {x2 : ElmHead} (h : Good q s) :
    Good q (State.elmHello s p x2) := by
  unfold State.elmHello
  repeat'
    first
      | with_reducible assumption
      | (intro _)
      | (with_reducible apply State.elmDiscard_good)
      | (with_reducible apply State.setPt_good)
      | (with_reducible apply State.helloCheck_good)
      | (with_reducible apply State.elmSend_good)
      | (with_reducible apply State.newAttempt_good)
      | (with_reducible apply good_ite)

theorem State.elmAck_good {q : List Instr} {s : State} {p : Nat} {version : Nat} {hash : Nat} {port : Nat} (h : Good q s) :
    Good q (State.elmAck s p version hash port) := by
  unfold State.elmAck
  repeat'
    first
      | with_reducible assumption
      | (intro _)
      | (with_reducible apply State.elmDiscard_good)
      | (with_reducible apply State.helloCheck_good)
      | (with_reducible apply State.setPt_good)
      | (with_reducible apply good_ite)

theorem State.elmRate_good {q : List Instr} {s : State} {p : Nat} {version : Nat} {rate : Nat} (h : Good q s) :
    Good q (State.elmRate s p version rate) := by
  unfold State.elmRate
  repeat'
    first
      | with_reducible assumption
      | (intro _)
      | (with_reducible apply State.elmDiscard_good)
      | (with_reducible apply State.elmSend_good)
      | (with_reducible apply State.setPt_good)
      | (with_reducible apply good_ite)

theorem State.rateSwitch_good {q : List Instr} {s : State} {p : Nat} (h : Good q s) :
    Good q (State.rateSwitch s p) := by
  unfold State.rateSwitch
  repeat'
    first
      | with_reducible assumption
      | (intro _)
      | (with_reducible apply State.setRate_good)
      | (with_reducible apply State.setPt_good)
      | (with_reducible apply good_ite)

theorem State.eqApply_good {q : List Instr} {s : State} {p : Nat} {i : Nat} {pre : Nat} {main : Nat} {post : Nat} {seq : Nat} {mine : Bool} (h : Good q s) :
    Good q (State.eqApply s p i pre main post seq mine) := by
  unfold State.eqApply
  repeat'
    first
      | with_reducible assumption
      | (intro _)
      | (with_reducible apply State.eqMsg_good)
      | (with_reducible refine State.eqMsg_good_eq (by with_reducible assumption) ?_)
      | (with_reducible apply State.elmSend_good)
      | (with_reducible apply good_fset)
      | (with_reducible apply good_ite)
      | (with_reducible apply good_ite_snd)
      | (with_reducible apply good_foldl)
      | rfl
      | dsimp only
      | split

theorem State.elmEq_good {q : List Instr} {s : State} {p : Nat} {version : Nat} {i : Nat} {pre : Nat} {main : Nat} {post : Nat} {seq : Nat} {theirs : Bool} {mine : Bool} (h : Good q s) :
    Good q (State.elmEq s p version i pre main post seq theirs mine) := by
  unfold State.elmEq
  repeat'
    first
      | with_reducible assumption
      | (intro _)
      | (with_reducible apply State.elmDiscard_good)
      | (with_reducible apply State.eqApply_good)
      | (with_reducible apply State.setPt_good)
      | (with_reducible apply State.eqCheck_good)
      | (with_reducible apply good_ite)
      | (with_reducible apply good_ite_snd)
      | (with_reducible apply good_foldl)
      | rfl
      | dsimp only
      | split

theorem State.rejoinResult_good {q : List Instr} {s : State} {p : Nat} {r : PtRejoin} {ok : Bool} (h : Good q s) :
    Good q (State.rejoinResult s p r ok) := by
  unfold State.rejoinResult
  repeat'
    first
      | with_reducible assumption
      | (intro _)
      | (with_reducible apply State.setPt_good)
      | (with_reducible apply State.elmMark_good)
      | (with_reducible refine State.elmMark_good_eq (by with_reducible assumption) ?_)
      | (with_reducible apply State.elmSend_good)
      | (with_reducible apply good_ite)

theorem State.verifySend_good {q : List Instr} {s : State} {p : Nat} {lanes : List Nat} {errs : List Nat} (h : Good q s) :
    Good q (State.verifySend s p lanes errs) := by
  unfold State.verifySend
  repeat'
    first
      | with_reducible assumption
      | (intro _)
      | (with_reducible apply State.fresh_good)
      | (with_reducible refine State.fresh_good_eq (by with_reducible assumption) ?_)
      | (with_reducible apply State.elmSend_good)

theorem State.elmVerify_good {q : List Instr} {s : State} {p : Nat} {version : Nat} {i : Nat} {done : Bool} {pass : Bool} (h : Good q s) :
    Good q (State.elmVerify s p version i done pass) := by
  unfold State.elmVerify
  repeat'
    first
      | with_reducible assumption
      | (intro _)
      | (with_reducible apply State.elmDiscard_good)
      | (with_reducible apply State.rejoinResult_good)
      | (with_reducible apply State.verifyCheck_good)
      | (with_reducible apply State.setPt_good)
      | (with_reducible apply good_ite)
      | (with_reducible apply good_ite_snd)
      | (with_reducible apply good_foldl)
      | rfl
      | dsimp only
      | split

theorem State.verifyEnd_good {q : List Instr} {s : State} {p : Nat} {errs : List Nat} (h : Good q s) :
    Good q (State.verifyEnd s p errs) := by
  unfold State.verifyEnd
  repeat'
    first
      | with_reducible assumption
      | (intro _)
      | (with_reducible apply State.rejoinResult_good)
      | (with_reducible apply State.verifySend_good)
      | (with_reducible apply State.verifyCheck_good)
      | (with_reducible apply State.setPt_good)
      | (with_reducible apply good_ite)
      | (with_reducible apply good_ite_snd)
      | (with_reducible apply good_foldl)
      | rfl
      | dsimp only
      | split

theorem State.echoTx_good {q : List Instr} {s : State} {p : Nat} {o : EdgeObs} (h : Good q s) :
    Good q (State.echoTx s p o) := by
  unfold State.echoTx
  repeat'
    first
      | with_reducible assumption
      | (intro _)
      | (with_reducible apply State.setPt_good)
      | (with_reducible apply State.elmSend_good)
      | (with_reducible apply good_ite)

theorem State.elmEcho_good {q : List Instr} {s : State} {p : Nat} {version : Nat} {reply : Bool} {idx : Nat} {t2 : Instant} {t3 : Instant} {o : EdgeObs} {tx : EdgeObs} (h : Good q s) :
    Good q (State.elmEcho s p version reply idx t2 t3 o tx) := by
  unfold State.elmEcho
  repeat'
    first
      | with_reducible assumption
      | (intro _)
      | (with_reducible apply State.elmDiscard_good)
      | (with_reducible apply State.elmSend_good)
      | (with_reducible apply State.setPt_good)
      | (with_reducible apply State.publish_good)
      | (with_reducible apply State.elberUp_good)
      | (with_reducible apply good_ite)
      | (with_reducible apply good_ite_snd)
      | (with_reducible apply good_foldl)
      | rfl
      | dsimp only
      | split

theorem State.helloTx_good {q : List Instr} {s : State} {p : Nat} (h : Good q s) :
    Good q (State.helloTx s p) := by
  unfold State.helloTx
  repeat'
    first
      | with_reducible assumption
      | (intro _)
      | (with_reducible apply State.setPt_good)
      | (with_reducible apply State.elmSend_good)
      | (with_reducible apply good_ite)

theorem State.stepTimeout_good {q : List Instr} {s : State} {p : Nat} (h : Good q s) :
    Good q (State.stepTimeout s p) := by
  unfold State.stepTimeout
  repeat'
    first
      | with_reducible assumption
      | (intro _)
      | (with_reducible apply State.rejoinResult_good)
      | (with_reducible apply State.runStandard_good)
      | (with_reducible apply State.attemptFails_good)
      | (with_reducible apply good_ite)
      | (with_reducible apply good_ite_snd)
      | (with_reducible apply good_foldl)
      | rfl
      | dsimp only
      | split

theorem State.totalTimeout_good {q : List Instr} {s : State} {p : Nat} (h : Good q s) :
    Good q (State.totalTimeout s p) := by
  unfold State.totalTimeout
  repeat'
    first
      | with_reducible assumption
      | (intro _)
      | (with_reducible apply State.attemptFails_good)
      | (with_reducible apply good_ite)

theorem State.standardUp_good {q : List Instr} {s : State} {p : Nat} {pause : Nat} (h : Good q s) :
    Good q (State.standardUp s p pause) := by
  unfold State.standardUp
  repeat'
    first
      | with_reducible assumption
      | (intro _)
      | (with_reducible apply State.linkUp_good)
      | (with_reducible apply good_fset)
      | (with_reducible apply good_ite)
      | (with_reducible apply good_ite_snd)
      | (with_reducible apply good_foldl)
      | rfl

theorem State.backoffExpire_good {q : List Instr} {s : State} {p : Nat} (h : Good q s) :
    Good q (State.backoffExpire s p) := by
  unfold State.backoffExpire
  repeat'
    first
      | with_reducible assumption
      | (intro _)
      | (with_reducible apply State.newAttempt_good)
      | (with_reducible apply good_ite)

theorem State.dropAnswer_good {q : List Instr} {s : State} {p : Nat} {i : Nat} (h : Good q s) :
    Good q (State.dropAnswer s p i) := by
  unfold State.dropAnswer
  repeat'
    first
      | with_reducible assumption
      | (intro _)
      | (with_reducible apply State.elmMark_good)
      | (with_reducible refine State.elmMark_good_eq (by with_reducible assumption) ?_)
      | (with_reducible apply State.elmSend_good)

theorem State.elmDrop_good {q : List Instr} {s : State} {p : Nat} {version : Nat} {i : Nat} (h : Good q s) :
    Good q (State.elmDrop s p version i) := by
  unfold State.elmDrop
  repeat'
    first
      | with_reducible assumption
      | (intro _)
      | (with_reducible apply State.elmDiscard_good)
      | (with_reducible apply State.setPt_good)
      | (with_reducible apply State.restart_good)
      | (with_reducible apply State.dropAnswer_good)
      | (with_reducible apply State.laneOut_good)
      | (with_reducible apply good_ite)
      | (with_reducible apply good_ite_snd)
      | (with_reducible apply good_foldl)
      | rfl
      | dsimp only
      | split

theorem State.elmDropAck_good {q : List Instr} {s : State} {p : Nat} {version : Nat} {i : Nat} (h : Good q s) :
    Good q (State.elmDropAck s p version i) := by
  unfold State.elmDropAck
  repeat'
    first
      | with_reducible assumption
      | (intro _)
      | (with_reducible apply State.elmDiscard_good)
      | (with_reducible apply State.setPt_good)
      | (with_reducible apply good_ite)
      | (with_reducible apply good_ite_snd)
      | (with_reducible apply good_foldl)
      | rfl
      | dsimp only
      | split

theorem State.dropResend_good {q : List Instr} {s : State} {p : Nat} (h : Good q s) :
    Good q (State.dropResend s p) := by
  unfold State.dropResend
  repeat'
    first
      | with_reducible assumption
      | (intro _)
      | (with_reducible apply State.setPt_good)
      | (with_reducible apply State.elmSend_good)
      | (with_reducible apply good_ite)
      | (with_reducible apply good_ite_snd)
      | (with_reducible apply good_foldl)
      | rfl
      | dsimp only
      | split

theorem State.dropTimeout_good {q : List Instr} {s : State} {p : Nat} (h : Good q s) :
    Good q (State.dropTimeout s p) := by
  unfold State.dropTimeout
  repeat'
    first
      | with_reducible assumption
      | (intro _)
      | (with_reducible apply State.restart_good)
      | (with_reducible apply good_fset)
      | (with_reducible apply good_ite)
      | (with_reducible apply good_ite_snd)
      | (with_reducible apply good_foldl)
      | rfl
      | dsimp only
      | split

theorem State.laneRejoin_good {q : List Instr} {s : State} {p : Nat} {i : Nat} (h : Good q s) :
    Good q (State.laneRejoin s p i) := by
  unfold State.laneRejoin
  repeat'
    first
      | with_reducible assumption
      | (intro _)
      | (with_reducible apply State.setPt_good)
      | (with_reducible apply good_ite)

theorem State.rejoinRetry_good {q : List Instr} {s : State} {p : Nat} {i : Nat} (h : Good q s) :
    Good q (State.rejoinRetry s p i) := by
  unfold State.rejoinRetry
  repeat'
    first
      | with_reducible assumption
      | (intro _)
      | (with_reducible apply State.laneRejoin_good)

theorem State.elmAdd_good {q : List Instr} {s : State} {p : Nat} {version : Nat} {i : Nat} {reply : Bool} (h : Good q s) :
    Good q (State.elmAdd s p version i reply) := by
  unfold State.elmAdd
  repeat'
    first
      | with_reducible assumption
      | (intro _)
      | (with_reducible apply State.elmDiscard_good)
      | (with_reducible apply State.setPt_good)
      | (with_reducible apply State.ptLink_good)
      | (with_reducible apply State.timingMoves_good)
      | (with_reducible apply State.elmMark_good)
      | (with_reducible refine State.elmMark_good_eq (by with_reducible assumption) ?_)
      | (with_reducible apply State.elmSend_good)
      | (with_reducible apply good_fset)
      | (with_reducible apply good_ite)
      | (with_reducible apply good_ite_snd)
      | (with_reducible apply good_foldl)
      | rfl
      | dsimp only
      | split

end Sys2Proof.Machine
end

