-- ==== Sys2Proof/Laws/SoundSwOps.lean ====
section
/-! SUPPORT. Each operation of SwOps keeps a state sound and its queue. -/

namespace Sys2Proof.Machine

theorem State.sweep_good {q : List Instr} {s : State} (h : Good q s) :
    Good q (State.sweep s) := by
  unfold State.sweep
  repeat'
    first
      | with_reducible assumption
      | (intro _)
      | (with_reducible apply State.setSw_good)

theorem State.setFrame_good {q : List Instr} {s : State} {f : PFrame} (h : Good q s) :
    Good q (State.setFrame s f) := by
  unfold State.setFrame
  repeat'
    first
      | with_reducible assumption
      | (intro _)
      | (with_reducible apply State.setSw_good)

theorem State.fcSend_good {q : List Instr} {s : State} {p : Nat} {c : Nat} {quanta : Nat} (h : Good q s) :
    Good q (State.fcSend s p c quanta) := by
  unfold State.fcSend
  repeat'
    first
      | with_reducible assumption
      | (intro _)
      | (with_reducible apply State.setSwPort_good)

theorem State.xoffSend_good {q : List Instr} {s : State} {p : Nat} {c : Nat} (h : Good q s) :
    Good q (State.xoffSend s p c) := by
  unfold State.xoffSend
  repeat'
    first
      | with_reducible assumption
      | (intro _)
      | (with_reducible apply State.fcSend_good)
      | (with_reducible apply State.setSw_good)

theorem State.xonSend_good {q : List Instr} {s : State} {p : Nat} {c : Nat} (h : Good q s) :
    Good q (State.xonSend s p c) := by
  unfold State.xonSend
  repeat'
    first
      | with_reducible assumption
      | (intro _)
      | (with_reducible apply State.setSw_good)
      | (with_reducible apply State.fcSend_good)
      | (with_reducible apply good_ite)

theorem State.xoffCheck_good {q : List Instr} {s : State} {p : Nat} {c : Nat} (h : Good q s) :
    Good q (State.xoffCheck s p c) := by
  unfold State.xoffCheck
  repeat'
    first
      | with_reducible assumption
      | (intro _)
      | (with_reducible apply State.xonSend_good)
      | (with_reducible apply State.xoffSend_good)
      | (with_reducible apply good_ite)

theorem State.xonScan_good {q : List Instr} {s : State} (h : Good q s) :
    Good q (State.xonScan s) := by
  unfold State.xonScan
  repeat'
    first
      | with_reducible assumption
      | (intro _)
      | (with_reducible apply State.xoffCheck_good)
      | (with_reducible apply good_ite)
      | (with_reducible apply good_ite_snd)
      | (with_reducible apply good_foldl)

theorem State.swTick_good {q : List Instr} {s : State} (h : Good q s) :
    Good q (State.swTick s) := by
  unfold State.swTick
  repeat'
    first
      | with_reducible assumption
      | (intro _)
      | (with_reducible apply State.xonScan_good)
      | (with_reducible apply State.sweep_good)

theorem State.meterFrame_good {q : List Instr} {s : State} {k : Nat} {len : Nat} (h : Good q s) :
    Good q (State.meterFrame s k len).2 := by
  unfold State.meterFrame
  repeat'
    first
      | with_reducible assumption
      | (intro _)
      | (with_reducible apply State.setSw_good)
      | (with_reducible apply good_ite)
      | (with_reducible apply good_ite_snd)

theorem State.meterFrame_good_eq {q : List Instr} {s : State} {k : Nat} {len : Nat} {a_ : _} {t_ : State} (he : State.meterFrame s k len = (a_, t_)) (h : Good q s) : Good q t_ := by
  have : Good q (State.meterFrame s k len).2 := State.meterFrame_good h
  rw [he] at this
  exact this

theorem State.streamFilter_good {q : List Instr} {s : State} {dst : Nat} {vid : Nat} {len : Nat} (h : Good q s) :
    Good q (State.streamFilter s dst vid len).2.2 := by
  unfold State.streamFilter
  repeat'
    first
      | with_reducible assumption
      | (intro _)
      | (with_reducible apply State.meterFrame_good)
      | (with_reducible refine State.meterFrame_good_eq (by with_reducible assumption) ?_)
      | (with_reducible apply good_fset)
      | (with_reducible apply good_fonIf)
      | (with_reducible apply good_ite)
      | (with_reducible apply good_ite_snd)
      | (with_reducible apply good_foldl)
      | rfl
      | dsimp only
      | split

theorem State.macTouch_good {q : List Instr} {s : State} {i : Nat} (h : Good q s) :
    Good q (State.macTouch s i) := by
  unfold State.macTouch
  repeat'
    first
      | with_reducible assumption
      | (intro _)
      | (with_reducible apply State.setSw_good)

theorem State.learn_good {q : List Instr} {s : State} {p : Nat} {src : Nat} {vid : Nat} (h : Good q s) :
    Good q (State.learn s p src vid) := by
  unfold State.learn
  refine good_ite h ?_
  dsimp only
  split
  · exact good_ite h (State.macTouch_good (good_fset h rfl))
  · split
    · refine State.macTouch_good (good_rset_low 72 h (show Reg.swMac.covers 72 = true by decide +kernel) ?_)
      unfold macKey
      omega
    · exact good_cnt h rfl

theorem State.routeAll_good {q : List Instr} {s : State} {ports : List Nat} (h : Good q s) :
    Good q (State.routeAll s ports).2.2 := by
  have key : ∀ (f : List Nat × Bool × State → Nat → List Nat × Bool × State) (l : List Nat) (a : List Nat × Bool × State),
      (∀ b x, Good q b.2.2 → Good q (f b x).2.2) → Good q a.2.2 → Good q (l.foldl f a).2.2 := by
    intro f l
    induction l with
    | nil => exact fun _ _ ha => ha
    | cons x t ih => exact fun a hf ha => ih _ hf (hf a x ha)
  unfold State.routeAll
  refine key _ _ _ (fun b x hb => ?_) h
  split
  · exact hb
  · exact good_cnt hb rfl
  · exact hb

theorem State.addFrame_good {q : List Instr} {s : State} {f : PFrame} (h : Good q s) :
    Good q (State.addFrame s f) := by
  unfold State.addFrame
  repeat'
    first
      | with_reducible assumption
      | (intro _)
      | (with_reducible apply State.setSw_good)

theorem State.padAdmit_good {q : List Instr} {s : State} {p : Nat} {cls : Nat} {len : Nat} {yellow : Bool} {ports : List Nat} {f : PFrame} (h : Good q s) :
    Good q (State.padAdmit s p cls len yellow ports f).2 := by
  unfold State.padAdmit
  repeat'
    first
      | with_reducible assumption
      | (intro _)
      | (with_reducible apply State.addFrame_good)
      | (with_reducible apply State.xoffCheck_good)
      | (with_reducible apply good_fon)
      | (with_reducible apply good_cnt)
      | (with_reducible apply good_ite)
      | (with_reducible apply good_ite_snd)
      | (with_reducible apply good_foldl)
      | rfl

theorem State.padAdmit_good_eq {q : List Instr} {s : State} {p : Nat} {cls : Nat} {len : Nat} {yellow : Bool} {ports : List Nat} {f : PFrame} {a_ : _} {t_ : State} (he : State.padAdmit s p cls len yellow ports f = (a_, t_)) (h : Good q s) : Good q t_ := by
  have : Good q (State.padAdmit s p cls len yellow ports f).2 := State.padAdmit_good h
  rw [he] at this
  exact this

theorem State.sampleCount_good {q : List Instr} {s : State} {p : Nat} (h : Good q s) :
    Good q (State.sampleCount s p).2 := by
  unfold State.sampleCount
  repeat'
    first
      | with_reducible assumption
      | (intro _)
      | (with_reducible apply State.setSwPort_good)
      | (with_reducible apply good_ite)
      | (with_reducible apply good_ite_snd)

theorem State.sampleCount_good_eq {q : List Instr} {s : State} {p : Nat} {a_ : _} {t_ : State} (he : State.sampleCount s p = (a_, t_)) (h : Good q s) : Good q t_ := by
  have : Good q (State.sampleCount s p).2 := State.sampleCount_good h
  rw [he] at this
  exact this

theorem State.frameRx_good {q : List Instr} {s0 : State} {p : Nat} {x2 : FrameHead} {len : Nat} {o : EdgeObs} (h : Good q s0) :
    Good q (State.frameRx s0 p x2 len o) := by
  unfold State.frameRx
  repeat'
    first
      | with_reducible assumption
      | (intro _)
      | (with_reducible apply State.swTick_good)
      | (with_reducible apply State.sampleCount_good)
      | (with_reducible refine State.sampleCount_good_eq (by with_reducible assumption) ?_)
      | (with_reducible apply State.raiseIf_good)
      | (with_reducible apply State.streamFilter_good)
      | (with_reducible apply State.routeAll_good)
      | (with_reducible apply State.padAdmit_good)
      | (with_reducible refine State.padAdmit_good_eq (by with_reducible assumption) ?_)
      | (with_reducible apply State.setSwPort_good)
      | (with_reducible apply good_cnt)
      | (with_reducible apply good_ite)
      | (with_reducible apply good_ite_snd)
      | (with_reducible apply good_foldl)
      | rfl

theorem State.badFrame_good {q : List Instr} {s : State} {id : Nat} (h : Good q s) :
    Good q (State.badFrame s id) := by
  unfold State.badFrame
  repeat'
    first
      | with_reducible assumption
      | (intro _)
      | (with_reducible apply State.setFrame_good)
      | (with_reducible apply good_cnt)
      | (with_reducible apply good_ite)
      | (with_reducible apply good_ite_snd)
      | (with_reducible apply good_foldl)
      | rfl
      | dsimp only
      | split

theorem State.samplePut_good {q : List Instr} {s : State} {at_ : Nat} {b : List Sys2Proof.Byte} (h : Good q s) :
    Good q (State.samplePut s at_ b) := by
  unfold State.samplePut
  repeat'
    first
      | with_reducible assumption
      | (intro _)
      | (with_reducible apply memWriteLE_wf)
      | (with_reducible apply memWriteBytes_wf)
      | (with_reducible apply memWrite_wf)
      | (with_reducible apply Good.dramWf)
      | (with_reducible apply Good.flashWf)
      | (with_reducible apply Good.hostWf)
      | (with_reducible apply good_setDram)

theorem State.takeSample_good {q : List Instr} {s : State} {p : Nat} {r : RxNow} {bad : Bool} {data : List Sys2Proof.Byte} (h : Good q s) :
    Good q (State.takeSample s p r bad data) := by
  unfold State.takeSample
  repeat'
    first
      | with_reducible assumption
      | (intro _)
      | (with_reducible apply State.setSwPort_good)
      | (with_reducible apply State.samplePut_good)
      | (with_reducible apply State.setSw_good)
      | (with_reducible apply good_cnt)
      | (with_reducible apply good_ite)
      | (with_reducible apply good_ite_snd)
      | (with_reducible apply good_foldl)
      | (with_reducible apply good_foldl_snd)
      | rfl

theorem State.frameRxEnd_good {q : List Instr} {s0 : State} {p : Nat} {data : List Sys2Proof.Byte} {fcsOk : Bool} {err : Bool} (h : Good q s0) :
    Good q (State.frameRxEnd s0 p data fcsOk err) := by
  unfold State.frameRxEnd
  repeat'
    first
      | with_reducible assumption
      | (intro _)
      | (with_reducible apply State.setSwPort_good)
      | (with_reducible apply State.learn_good)
      | (with_reducible apply State.badFrame_good)
      | (with_reducible apply State.setFrame_good)
      | (with_reducible apply State.swTick_good)
      | (with_reducible apply State.takeSample_good)
      | (with_reducible apply good_cnt)
      | (with_reducible apply good_ite)
      | (with_reducible apply good_ite_snd)
      | (with_reducible apply good_foldl)
      | rfl
      | dsimp only
      | split

theorem State.gclEntry_good {q : List Instr} {s : State} {p : Nat} (h : Good q s) :
    Good q (State.gclEntry s p) := by
  unfold State.gclEntry
  repeat'
    first
      | with_reducible assumption
      | (intro _)
      | (with_reducible apply State.setSwPort_good)

theorem State.gatesFollow_good {q : List Instr} {s : State} (h : Good q s) :
    Good q (State.gatesFollow s) := by
  unfold State.gatesFollow
  repeat'
    first
      | with_reducible assumption
      | (intro _)
      | (with_reducible apply State.gclEntry_good)
      | (with_reducible apply good_ite)
      | (with_reducible apply good_ite_snd)
      | (with_reducible apply good_foldl)

theorem State.gclChange_good {q : List Instr} {s : State} {p : Nat} (h : Good q s) :
    Good q (State.gclChange s p) := by
  unfold State.gclChange
  repeat'
    first
      | with_reducible assumption
      | (intro _)
      | (with_reducible apply State.setSwPort_good)
      | (with_reducible apply good_fset)
      | (with_reducible apply good_ite)
      | (with_reducible apply good_ite_snd)
      | (with_reducible apply good_foldl)
      | rfl

theorem State.gclEffect_good {q : List Instr} {s : State} {p : Nat} (h : Good q s) :
    Good q (State.gclEffect s p) := by
  unfold State.gclEffect
  repeat'
    first
      | with_reducible assumption
      | (intro _)
      | (with_reducible apply State.setSwPort_good)
      | (with_reducible apply State.gclEntry_good)
      | (with_reducible apply good_fset)
      | (with_reducible apply good_ite)
      | (with_reducible apply good_ite_snd)
      | (with_reducible apply good_foldl)
      | rfl
      | dsimp only
      | split

theorem State.startCopy_good {q : List Instr} {s : State} {p : Nat} {f : PFrame} {expr : Bool} {o : EdgeObs} (h : Good q s) :
    Good q (State.startCopy s p f expr o) := by
  unfold State.startCopy
  repeat'
    first
      | with_reducible assumption
      | (intro _)
      | (with_reducible apply State.setFrame_good)
      | (with_reducible apply State.setSwPort_good)
      | (with_reducible apply good_fset)
      | (with_reducible apply good_cnt)
      | (with_reducible apply good_ite)
      | (with_reducible apply good_ite_snd)
      | (with_reducible apply good_foldl)
      | rfl
      | dsimp only
      | split

theorem State.frameTxStart_good {q : List Instr} {s0 : State} {p : Nat} {o : EdgeObs} (h : Good q s0) :
    Good q (State.frameTxStart s0 p o) := by
  unfold State.frameTxStart
  repeat'
    first
      | with_reducible assumption
      | (intro _)
      | (with_reducible apply State.swTick_good)
      | (with_reducible apply State.xonScan_good)
      | (with_reducible apply State.startCopy_good)
      | (with_reducible apply good_ite)
      | (with_reducible apply good_ite_snd)
      | (with_reducible apply good_foldl)
      | rfl
      | dsimp only
      | split

theorem State.timedLate_good {q : List Instr} {s : State} {p : Nat} {f : PFrame} (h : Good q s) :
    Good q (State.timedLate s p f) := by
  unfold State.timedLate
  repeat'
    first
      | with_reducible assumption
      | (intro _)
      | (with_reducible apply State.setFrame_good)
      | (with_reducible apply good_cnt)
      | (with_reducible apply good_ite)
      | (with_reducible apply good_ite_snd)
      | (with_reducible apply good_foldl)
      | rfl

theorem State.timedRelease_good {q : List Instr} {s0 : State} {p : Nat} {kind : FrameKind} {o : EdgeObs} (h : Good q s0) :
    Good q (State.timedRelease s0 p kind o) := by
  unfold State.timedRelease
  repeat'
    first
      | with_reducible assumption
      | (intro _)
      | (with_reducible apply State.swTick_good)
      | (with_reducible apply State.startCopy_good)
      | (with_reducible apply State.timedLate_good)
      | (with_reducible apply good_ite)
      | (with_reducible apply good_ite_snd)
      | (with_reducible apply good_foldl)
      | rfl
      | dsimp only
      | split

theorem State.timedSkipped_good {q : List Instr} {s : State} {was : Instant} (h : Good q s) :
    Good q (State.timedSkipped s was) := by
  unfold State.timedSkipped
  repeat'
    first
      | with_reducible assumption
      | (intro _)
      | (with_reducible apply State.timedLate_good)
      | (with_reducible apply good_ite)
      | (with_reducible apply good_ite_snd)
      | (with_reducible apply good_foldl)
      | (with_reducible apply good_foldl_snd)
      | rfl
      | dsimp only
      | split

theorem State.launchRelease_good {q : List Instr} {s : State} {p : Nat} {o : EdgeObs} (h : Good q s) :
    Good q (State.launchRelease s p o) := by
  unfold State.launchRelease
  repeat'
    first
      | with_reducible assumption
      | (intro _)
      | (with_reducible apply State.timedRelease_good)

theorem State.fixedRelease_good {q : List Instr} {s : State} {p : Nat} {o : EdgeObs} (h : Good q s) :
    Good q (State.fixedRelease s p o) := by
  unfold State.fixedRelease
  repeat'
    first
      | with_reducible assumption
      | (intro _)
      | (with_reducible apply State.timedRelease_good)

theorem State.launchOffer_good {q : List Instr} {s0 : State} {p : Nat} {cls : Nat} {data : List Sys2Proof.Byte} {t : Instant} (h : Good q s0) :
    Good q (State.launchOffer s0 p cls data t).2 := by
  unfold State.launchOffer
  repeat'
    first
      | with_reducible assumption
      | (intro _)
      | (with_reducible apply State.swTick_good)
      | (with_reducible apply State.addFrame_good)
      | (with_reducible apply good_ite)
      | (with_reducible apply good_ite_snd)

theorem State.launchOffer_good_eq {q : List Instr} {s0 : State} {p : Nat} {cls : Nat} {data : List Sys2Proof.Byte} {t : Instant} {a_ : _} {t_ : State} (he : State.launchOffer s0 p cls data t = (a_, t_)) (h : Good q s0) : Good q t_ := by
  have : Good q (State.launchOffer s0 p cls data t).2 := State.launchOffer_good h
  rw [he] at this
  exact this

theorem State.tplCommit_good {q : List Instr} {s : State} {p : Nat} {w : Nat} (h : Good q s) :
    Good q (State.tplCommit s p w) := by
  unfold State.tplCommit
  repeat'
    first
      | with_reducible assumption
      | (intro _)
      | (with_reducible apply State.setSwPort_good)
      | (with_reducible apply good_fset)
      | (with_reducible apply good_ite)
      | (with_reducible apply good_ite_snd)
      | (with_reducible apply good_foldl)
      | rfl

theorem State.lqTrig_good {q : List Instr} {s : State} {p : Nat} (h : Good q s) :
    Good q (State.lqTrig s p) := by
  unfold State.lqTrig
  repeat'
    first
      | with_reducible assumption
      | (intro _)
      | (with_reducible apply State.onGroup_good)
      | (with_reducible apply State.launchOffer_good)
      | (with_reducible refine State.launchOffer_good_eq (by with_reducible assumption) ?_)
      | (with_reducible apply good_ite)
      | (with_reducible apply good_ite_snd)
      | (with_reducible apply good_foldl)
      | (with_reducible apply good_foldl_snd)
      | rfl
      | dsimp only
      | split

theorem State.pfcRx_good {q : List Instr} {s : State} {p : Nat} {pauseFrame : Bool} {mask : Nat} {quanta : List Nat} (h : Good q s) :
    Good q (State.pfcRx s p pauseFrame mask quanta) := by
  unfold State.pfcRx
  repeat'
    first
      | with_reducible assumption
      | (intro _)
      | (with_reducible apply State.setSw_good)
      | (with_reducible apply good_ite)
      | (with_reducible apply good_ite_snd)
      | (with_reducible apply good_foldl)

theorem State.pauseExpire_good {q : List Instr} {s : State} {p : Nat} {c : Nat} (h : Good q s) :
    Good q (State.pauseExpire s p c) := by
  unfold State.pauseExpire
  repeat'
    first
      | with_reducible assumption
      | (intro _)
      | (with_reducible apply State.setSw_good)
      | (with_reducible apply good_ite)

theorem State.xoffRepeat_good {q : List Instr} {s0 : State} {p : Nat} {c : Nat} (h : Good q s0) :
    Good q (State.xoffRepeat s0 p c) := by
  unfold State.xoffRepeat
  repeat'
    first
      | with_reducible assumption
      | (intro _)
      | (with_reducible apply State.swTick_good)
      | (with_reducible apply State.xoffSend_good)
      | (with_reducible apply good_ite)
      | (with_reducible apply good_ite_snd)
      | (with_reducible apply good_foldl)
      | rfl
      | dsimp only
      | split

theorem State.macAge_good {q : List Instr} {s : State} {i : Nat} (h : Good q s) :
    Good q (State.macAge s i) := by
  unfold State.macAge
  repeat'
    first
      | with_reducible assumption
      | (intro _)
      | (with_reducible apply good_fset)
      | (with_reducible apply good_ite)
      | (with_reducible apply good_ite_snd)
      | (with_reducible apply good_foldl)
      | rfl

theorem State.dropCopies_good {q : List Instr} {s : State} {p : Nat} {count : Bool} {t : PFrame → FrameCopy → Bool} (h : Good q s) :
    Good q (State.dropCopies s p count t) := by
  unfold State.dropCopies
  repeat'
    first
      | with_reducible assumption
      | (intro _)
      | (with_reducible apply State.setSw_good)
      | (with_reducible apply good_cntAdd)
      | (with_reducible apply good_ite)
      | (with_reducible apply good_ite_snd)
      | (with_reducible apply good_foldl)
      | rfl

theorem State.portDown_good {q : List Instr} {s0 : State} {p : Nat} (h : Good q s0) :
    Good q (State.portDown s0 p) := by
  unfold State.portDown
  repeat'
    first
      | with_reducible assumption
      | (intro _)
      | (with_reducible apply State.swTick_good)
      | (with_reducible apply State.setPt_good)
      | (with_reducible apply State.setSwPort_good)
      | (with_reducible apply State.badFrame_good)
      | (with_reducible apply State.setSw_good)
      | (with_reducible apply State.dropCopies_good)
      | (with_reducible apply good_fset)
      | (with_reducible apply good_cnt)
      | (with_reducible apply good_ite)
      | (with_reducible apply good_ite_snd)
      | (with_reducible apply good_foldl)
      | rfl
      | dsimp only
      | split

theorem State.padHoldExpire_good {q : List Instr} {s : State} {p : Nat} (h : Good q s) :
    Good q (State.padHoldExpire s p) := by
  unfold State.padHoldExpire
  repeat'
    first
      | with_reducible assumption
      | (intro _)
      | (with_reducible apply State.swTick_good)
      | (with_reducible apply State.dropCopies_good)
      | (with_reducible apply State.setSwPort_good)
      | (with_reducible apply good_ite)
      | (with_reducible apply good_ite_snd)
      | (with_reducible apply good_foldl)
      | rfl
      | dsimp only
      | split

theorem State.preemptNow_good {q : List Instr} {s : State} {p : Nat} (h : Good q s) :
    Good q (State.preemptNow s p) := by
  unfold State.preemptNow
  repeat'
    first
      | with_reducible assumption
      | (intro _)
      | (with_reducible apply good_fset)
      | (with_reducible apply good_ite)
      | (with_reducible apply good_ite_snd)
      | (with_reducible apply good_foldl)
      | rfl

theorem State.portUp_good {q : List Instr} {s0 : State} {p : Nat} (h : Good q s0) :
    Good q (State.portUp s0 p) := by
  unfold State.portUp
  repeat'
    first
      | with_reducible assumption
      | (intro _)
      | (with_reducible apply State.setPt_good)
      | (with_reducible apply State.dropCopies_good)
      | (with_reducible apply State.setSwPort_good)
      | (with_reducible apply State.swTick_good)
      | (with_reducible apply State.preemptNow_good)
      | (with_reducible apply State.hrLinkUp_good)
      | (with_reducible apply good_ite)

theorem State.frrRevert_good {q : List Instr} {s : State} {p : Nat} (h : Good q s) :
    Good q (State.frrRevert s p) := by
  unfold State.frrRevert
  repeat'
    first
      | with_reducible assumption
      | (intro _)
      | (with_reducible apply State.setSwPort_good)
      | (with_reducible apply good_ite)

theorem State.frrWritten_good {q : List Instr} {s : State} {p : Nat} (h : Good q s) :
    Good q (State.frrWritten s p) := by
  unfold State.frrWritten
  repeat'
    first
      | with_reducible assumption
      | (intro _)
      | (with_reducible apply State.setSwPort_good)
      | (with_reducible apply good_ite)

theorem State.preemptVerified_good {q : List Instr} {s : State} {p : Nat} (h : Good q s) :
    Good q (State.preemptVerified s p) := by
  unfold State.preemptVerified
  repeat'
    first
      | with_reducible assumption
      | (intro _)
      | (with_reducible apply good_fset)
      | (with_reducible apply good_ite)
      | (with_reducible apply good_ite_snd)
      | (with_reducible apply good_foldl)
      | rfl

theorem State.swpadClear_good {q : List Instr} {s : State} (h : Good q s) :
    Good q (State.swpadClear s) := by
  unfold State.swpadClear
  repeat'
    first
      | with_reducible assumption
      | (intro _)
      | (with_reducible apply State.dropCopies_good)
      | (with_reducible apply State.setSw_good)
      | (with_reducible apply State.setSwPort_good)
      | (with_reducible apply good_ite)
      | (with_reducible apply good_ite_snd)
      | (with_reducible apply good_foldl)

theorem State.tasClear_good {q : List Instr} {s : State} (h : Good q s) :
    Good q (State.tasClear s) := by
  unfold State.tasClear
  repeat'
    first
      | with_reducible assumption
      | (intro _)
      | (with_reducible apply State.setSw_good)
      | (with_reducible apply State.setSwPort_good)
      | (with_reducible apply good_ite)
      | (with_reducible apply good_ite_snd)
      | (with_reducible apply good_foldl)

end Sys2Proof.Machine
end

