-- ==== Sys2Proof/Laws/SoundFltOps.lean ====
section
/-! SUPPORT. Each operation of FltOps keeps a state sound and its queue. -/

namespace Sys2Proof.Machine

theorem State.bbrSetLast_good {q : List Instr} {s : State} {l : BbrLast} (h : Good q s) :
    Good q (State.bbrSetLast s l) := by
  unfold State.bbrSetLast
  repeat'
    first
      | with_reducible assumption
      | (intro _)
      | (with_reducible apply State.setBbr_good)

theorem State.bbrOffer_good {q : List Instr} {s : State} {o : BbrOffer} (h : Good q s) :
    Good q (State.bbrOffer s o).2 := by
  unfold State.bbrOffer
  repeat'
    first
      | with_reducible assumption
      | (intro _)
      | (with_reducible apply State.bbrSetLast_good)
      | (with_reducible apply State.setBbr_good)
      | (with_reducible apply good_cnt)
      | (with_reducible apply good_ite)
      | (with_reducible apply good_ite_snd)
      | (with_reducible apply good_foldl)
      | rfl
      | dsimp only
      | split

theorem State.bbrOffer_good_eq {q : List Instr} {s : State} {o : BbrOffer} {a_ : _} {t_ : State} (he : State.bbrOffer s o = (a_, t_)) (h : Good q s) : Good q t_ := by
  have : Good q (State.bbrOffer s o).2 := State.bbrOffer_good h
  rw [he] at this
  exact this

theorem State.bbrOfferNext_good {q : List Instr} {s : State} (h : Good q s) :
    Good q (State.bbrOfferNext s) := by
  unfold State.bbrOfferNext
  repeat'
    first
      | with_reducible assumption
      | (intro _)
      | (with_reducible apply State.bbrOffer_good)
      | (with_reducible refine State.bbrOffer_good_eq (by with_reducible assumption) ?_)
      | (with_reducible apply State.setBbr_good)
      | (with_reducible apply good_ite)
      | (with_reducible apply good_ite_snd)
      | (with_reducible apply good_foldl)
      | rfl
      | dsimp only
      | split

theorem State.spillWrite_good {q : List Instr} {s : State} {r : BbrRec} (h : Good q s) :
    Good q (State.spillWrite s r) := by
  unfold State.spillWrite
  repeat'
    first
      | with_reducible assumption
      | (intro _)
      | (with_reducible apply State.dramWrite_good)
      | (with_reducible apply State.setBbr_good)
      | (with_reducible apply good_fon)
      | (with_reducible apply good_cnt)
      | (with_reducible apply good_ite)
      | (with_reducible apply good_ite_snd)
      | (with_reducible apply good_foldl)
      | rfl

theorem State.bbrAfter_good {q : List Instr} {s : State} {seq : Nat} (h : Good q s) :
    Good q (State.bbrAfter s seq) := by
  unfold State.bbrAfter
  repeat'
    first
      | with_reducible assumption
      | (intro _)
      | (with_reducible apply State.setBbr_good)
      | (with_reducible apply good_ite)

theorem State.bbrEnter_good {q : List Instr} {s : State} (h : Good q s) :
    Good q (State.bbrEnter s) := by
  unfold State.bbrEnter
  repeat'
    first
      | with_reducible assumption
      | (intro _)
      | (with_reducible apply State.setBbr_good)
      | (with_reducible apply State.spillWrite_good)
      | (with_reducible apply State.bbrSetLast_good)
      | (with_reducible apply State.bbrAfter_good)
      | (with_reducible apply good_cnt)
      | (with_reducible apply good_ite)
      | (with_reducible apply good_ite_snd)
      | (with_reducible apply good_foldl)
      | rfl
      | dsimp only
      | split

theorem State.bbrTrigger_good {q : List Instr} {s : State} {arg : Nat} {ts : Option Instant} (h : Good q s) :
    Good q (State.bbrTrigger s arg ts) := by
  unfold State.bbrTrigger
  repeat'
    first
      | with_reducible assumption
      | (intro _)
      | (with_reducible apply State.bbrOffer_good)
      | (with_reducible refine State.bbrOffer_good_eq (by with_reducible assumption) ?_)
      | (with_reducible apply good_ite)

theorem State.bbrTrigEvent_good {q : List Instr} {s : State} (h : Good q s) :
    Good q (State.bbrTrigEvent s) := by
  unfold State.bbrTrigEvent
  repeat'
    first
      | with_reducible assumption
      | (intro _)
      | (with_reducible refine State.takeGroup_good (by with_reducible assumption) ?_)
      | (with_reducible apply State.bbrTrigger_good)
      | (with_reducible apply good_ite)
      | (with_reducible apply good_ite_snd)
      | (with_reducible apply good_foldl)
      | rfl
      | dsimp only
      | split

theorem State.bbrRearm_good {q : List Instr} {s : State} (h : Good q s) :
    Good q (State.bbrRearm s) := by
  unfold State.bbrRearm
  repeat'
    first
      | with_reducible assumption
      | (intro _)
      | (with_reducible apply State.setBbr_good)
      | (with_reducible apply good_fon)
      | (with_reducible apply good_ite)
      | (with_reducible apply good_ite_snd)
      | (with_reducible apply good_foldl)
      | rfl

theorem State.faultPin_good {q : List Instr} {s : State} (h : Good q s) :
    Good q (State.faultPin s) := by
  unfold State.faultPin
  repeat'
    first
      | with_reducible assumption
      | (intro _)
      | (with_reducible apply State.setFlt_good)

theorem State.startReaction_good {q : List Instr} {s : State} {flock : Option Nat} {seq : Nat} (h : Good q s) :
    Good q (State.startReaction s flock seq) := by
  unfold State.startReaction
  repeat'
    first
      | with_reducible assumption
      | (intro _)
      | (with_reducible apply State.setFlt_good)
      | (with_reducible apply State.bbrOffer_good)

theorem State.faultSeq_good {q : List Instr} {s : State} {x1 : Option Nat} (h : Good q s) :
    Good q (State.faultSeq s x1).2 := by
  unfold State.faultSeq
  repeat'
    first
      | with_reducible assumption
      | (intro _)
      | (with_reducible apply State.fresh_good)
      | (with_reducible refine State.fresh_good_eq (by with_reducible assumption) ?_)
      | (with_reducible apply good_ite)
      | (with_reducible apply good_ite_snd)
      | (with_reducible apply good_foldl)
      | rfl
      | dsimp only
      | split

theorem State.faultSeq_good_eq {q : List Instr} {s : State} {x1 : Option Nat} {a_ : _} {t_ : State} (he : State.faultSeq s x1 = (a_, t_)) (h : Good q s) : Good q t_ := by
  have : Good q (State.faultSeq s x1).2 := State.faultSeq_good h
  rw [he] at this
  exact this

theorem State.faultKept_good {q : List Instr} {s : State} {f : FaultRep} {r : BbrRec} {seq : Nat} (h : Good q s) :
    Good q (State.faultKept s f r seq) := by
  unfold State.faultKept
  repeat'
    first
      | with_reducible assumption
      | (intro _)
      | (with_reducible apply State.setFlt_good)
      | (with_reducible apply State.startReaction_good)
      | (with_reducible apply good_ite)

theorem State.faultDetected_good {q : List Instr} {s : State} {f : FaultRep} (h : Good q s) :
    Good q (State.faultDetected s f) := by
  unfold State.faultDetected
  repeat'
    first
      | with_reducible assumption
      | (intro _)
      | (with_reducible apply State.faultPin_good)
      | (with_reducible apply State.raiseEv_good)
      | (with_reducible apply State.bbrOffer_good)
      | (with_reducible refine State.bbrOffer_good_eq (by with_reducible assumption) ?_)
      | (with_reducible apply State.faultSeq_good)
      | (with_reducible refine State.faultSeq_good_eq (by with_reducible assumption) ?_)
      | (with_reducible apply State.faultKept_good)
      | (with_reducible apply good_fonBit)
      | (with_reducible apply good_cnt)
      | (with_reducible apply good_ite)
      | (with_reducible apply good_ite_snd)
      | (with_reducible apply good_foldl)
      | (with_reducible apply good_foldl_snd)
      | rfl

theorem State.faultMasked_good {q : List Instr} {s : State} {f : FaultRep} (h : Good q s) :
    Good q (State.faultMasked s f) := by
  unfold State.faultMasked
  repeat'
    first
      | with_reducible assumption
      | (intro _)
      | (with_reducible apply State.raiseEv_good)
      | (with_reducible apply State.faultPin_good)
      | (with_reducible apply State.bbrOffer_good)
      | (with_reducible refine State.bbrOffer_good_eq (by with_reducible assumption) ?_)
      | (with_reducible apply good_fonBit)
      | (with_reducible apply good_cnt)
      | (with_reducible apply good_ite)
      | (with_reducible apply good_ite_snd)
      | (with_reducible apply good_foldl)
      | (with_reducible apply good_foldl_snd)
      | rfl

theorem State.takeFault_good {q : List Instr} {s : State} {detected : Bool} {ext : Option FaultRep} (h : Good q s) :
    Good q (State.takeFault s detected ext) := by
  unfold State.takeFault
  repeat'
    first
      | with_reducible assumption
      | (intro _)
      | (with_reducible apply State.faultDetected_good)
      | (with_reducible apply State.faultMasked_good)
      | (with_reducible apply State.setFlt_good)
      | (with_reducible apply good_ite)
      | (with_reducible apply good_ite_snd)
      | (with_reducible apply good_foldl)
      | rfl
      | dsimp only
      | split

theorem State.releaseNow_good {q : List Instr} {s : State} (h : Good q s) :
    Good q (State.releaseNow s) := by
  unfold State.releaseNow
  repeat'
    first
      | with_reducible assumption
      | (intro _)
      | (with_reducible apply State.setFlt_good)
      | (with_reducible apply good_ite)
      | (with_reducible apply good_ite_snd)
      | (with_reducible apply good_foldl)
      | rfl
      | dsimp only
      | split

theorem State.faultRelease_good {q : List Instr} {s : State} (h : Good q s) :
    Good q (State.faultRelease s) := by
  unfold State.faultRelease
  repeat'
    first
      | with_reducible assumption
      | (intro _)
      | (with_reducible apply State.setFlt_good)
      | (with_reducible apply State.releaseNow_good)
      | (with_reducible apply good_ite)

theorem State.faultPinRelease_good {q : List Instr} {s : State} (h : Good q s) :
    Good q (State.faultPinRelease s) := by
  unfold State.faultPinRelease
  repeat'
    first
      | with_reducible assumption
      | (intro _)
      | (with_reducible apply State.releaseNow_good)
      | (with_reducible apply good_ite)
      | (with_reducible apply good_ite_snd)
      | (with_reducible apply good_foldl)
      | rfl
      | dsimp only
      | split

theorem State.wdogRestart_good {q : List Instr} {s : State} (h : Good q s) :
    Good q (State.wdogRestart s) := by
  unfold State.wdogRestart
  repeat'
    first
      | with_reducible assumption
      | (intro _)
      | (with_reducible apply State.setFlt_good)

theorem State.wdogKick_good {q : List Instr} {s : State} {x1 : Requester} {key : Nat} (h : Good q s) :
    Good q (State.wdogKick s x1 key) := by
  unfold State.wdogKick
  repeat'
    first
      | with_reducible assumption
      | (intro _)
      | (with_reducible apply State.wdogRestart_good)
      | (with_reducible apply good_fon)
      | (with_reducible apply good_ite)
      | (with_reducible apply good_ite_snd)
      | (with_reducible apply good_foldl)
      | rfl

theorem State.wdogExpire_good {q : List Instr} {s : State} (h : Good q s) :
    Good q (State.wdogExpire s) := by
  unfold State.wdogExpire
  repeat'
    first
      | with_reducible assumption
      | (intro _)
      | (with_reducible apply State.report_good)
      | (with_reducible apply State.wdogRestart_good)
      | (with_reducible apply good_ite)

theorem State.cfgScan_good {q : List Instr} {s : State} {group : Nat} {blk : Nat} {bad : Bool} (h : Good q s) :
    Good q (State.cfgScan s group blk bad) := by
  unfold State.cfgScan
  repeat'
    first
      | with_reducible assumption
      | (intro _)
      | (with_reducible apply State.report_good)
      | (with_reducible apply good_fset)
      | (with_reducible apply good_ite)
      | (with_reducible apply good_ite_snd)
      | (with_reducible apply good_foldl)
      | rfl

theorem State.memScrub_good {q : List Instr} {s : State} {m : MemId} {addr : Nat} {err : Nat} (h : Good q s) :
    Good q (State.memScrub s m addr err) := by
  unfold State.memScrub
  repeat'
    first
      | with_reducible assumption
      | (intro _)
      | (with_reducible apply State.report_good)
      | (with_reducible apply State.eccCorrected_good)
      | (with_reducible apply State.eccUncorrected_good)
      | (with_reducible apply State.setFrame_good)
      | (with_reducible apply State.setGlb_good)
      | (with_reducible apply good_cnt)
      | (with_reducible apply good_ite)
      | (with_reducible apply good_ite_snd)
      | (with_reducible apply good_foldl)
      | rfl
      | dsimp only
      | split

end Sys2Proof.Machine
end

