-- ==== Sys2Proof/Laws/SoundMbOps.lean ====
section
/-! SUPPORT. Each operation of MbOps keeps a state sound and its queue. -/

namespace Sys2Proof.Machine

theorem State.setHost_good {q : List Instr} {s : State} {x1 : HostIf} (h : Good q s) :
    Good q (State.setHost s x1) := by
  exact h.same rfl rfl rfl rfl rfl

theorem State.setMbox_good {q : List Instr} {s : State} {m : Mbox} (h : Good q s) :
    Good q (State.setMbox s m) := by
  unfold State.setMbox
  repeat'
    first
      | with_reducible assumption
      | (intro _)
      | (with_reducible apply State.setHost_good)

theorem State.bufPut_good {q : List Instr} {s : State} {b : List Sys2Proof.Byte} (h : Good q s) :
    Good q (State.bufPut s b) := by
  unfold State.bufPut
  refine good_foldl h fun st a hst => good_rset hst fun ha n hn => ?_
  have hb : 32 ≤ n := Reg.covers_gap (r := .mbBuf) (n := 32) rfl hn
  rw [bit_setBits_out (by omega) (Or.inr (by omega))]
  exact hst.sound.reserved _ n ha hn

theorem State.placePut_good {q : List Instr} {s : State} {b : List Sys2Proof.Byte} {x2 : Option Nat} (h : Good q s) :
    Good q (State.placePut s b x2) := by
  unfold State.placePut
  repeat'
    first
      | with_reducible assumption
      | (intro _)
      | (with_reducible apply State.bufPut_good)
      | (with_reducible apply memWriteLE_wf)
      | (with_reducible apply memWriteBytes_wf)
      | (with_reducible apply memWrite_wf)
      | (with_reducible apply Good.dramWf)
      | (with_reducible apply Good.flashWf)
      | (with_reducible apply Good.hostWf)
      | (with_reducible apply good_setDram)
      | (with_reducible apply good_ite)
      | (with_reducible apply good_ite_snd)
      | (with_reducible apply good_foldl)
      | rfl
      | dsimp only
      | split

theorem State.mbPart_good {q : List Instr} {s : State} {c : MbCmd} {n : Nat} (h : Good q s) :
    Good q (State.mbPart s c n) := by
  unfold State.mbPart
  repeat'
    first
      | with_reducible assumption
      | (intro _)
      | (with_reducible apply State.flashErase_good)
      | (with_reducible apply State.flashWrite_good)
      | (with_reducible apply State.placePut_good)
      | (with_reducible apply good_ite)

theorem State.mbWork_good {q : List Instr} {s : State} {n : Nat} (h : Good q s) :
    Good q (State.mbWork s n) := by
  unfold State.mbWork
  repeat'
    first
      | with_reducible assumption
      | (intro _)
      | (with_reducible apply State.mbPart_good)
      | (with_reducible apply good_fset)
      | (with_reducible apply good_ite)
      | (with_reducible apply good_ite_snd)
      | (with_reducible apply good_foldl)
      | rfl
      | dsimp only
      | split

end Sys2Proof.Machine
end

