-- ==== Sys2Proof/Laws/SoundTimeOps.lean ====
section
/-! SUPPORT. Each operation of TimeOps keeps a state sound and its queue. -/

namespace Sys2Proof.Machine

theorem State.waitsPassed_good {q : List Instr} {s : State} {w : Int} (h : Good q s) :
    Good q (State.waitsPassed s w) := by
  unfold State.waitsPassed
  repeat'
    first
      | with_reducible assumption
      | (intro _)
      | (with_reducible apply good_ite)
      | (with_reducible apply good_ite_snd)
      | (with_reducible apply good_foldl)
      | rfl
      | dsimp only
      | split
      | omega
      | (with_reducible apply good_mk)

theorem State.stepped_good {q : List Instr} {s : State} {w : Int} {span : Int} (h : Good q s) :
    Good q (State.stepped s w span) := by
  unfold State.stepped
  repeat'
    first
      | with_reducible assumption
      | (intro _)
      | (with_reducible apply State.setTime_good)
      | (with_reducible apply State.raiseEv_good)
      | (with_reducible apply State.eoForward_good)
      | (with_reducible apply State.timedSkipped_good)
      | (with_reducible apply State.waitsPassed_good)
      | (with_reducible apply State.tmrStep_good)
      | (with_reducible apply State.gatesFollow_good)
      | (with_reducible apply good_fonIf)
      | (with_reducible apply good_cnt)
      | ((with_reducible refine good_rset_low 32 ?_ ?_ ?_); (on_goal 2 => rfl); (on_goal 2 => first | omega | exact Nat.mod_lt _ (by decide) | exact bitsOf_lt _ _))
      | ((with_reducible refine good_rset_low 64 ?_ ?_ ?_); (on_goal 2 => rfl); (on_goal 2 => first | omega | exact Nat.mod_lt _ (by decide) | exact bitsOf_lt _ _))
      | (with_reducible apply good_ite)
      | (with_reducible apply good_ite_snd)
      | (with_reducible apply good_foldl)
      | (with_reducible apply good_foldl_snd)
      | rfl
      | dsimp only
      | split
      | omega
      | (with_reducible apply good_mk)

theorem State.moveTime_good {q : List Instr} {s : State} {w : Int} {phi : Int} (h : Good q s) :
    Good q (State.moveTime s w phi) := by
  unfold State.moveTime
  repeat'
    first
      | with_reducible assumption
      | (intro _)
      | (with_reducible apply State.setTime_good)

theorem State.secTick_good {q : List Instr} {s : State} (h : Good q s) :
    Good q (State.secTick s) := by
  unfold State.secTick
  repeat'
    first
      | with_reducible assumption
      | (intro _)
      | (with_reducible apply State.raiseIf_good)

theorem State.stepApply_good {q : List Instr} {s : State} {r : StepReq} (h : Good q s) :
    Good q (State.stepApply s r) := by
  unfold State.stepApply
  repeat'
    first
      | with_reducible assumption
      | (intro _)
      | (with_reducible apply State.setTime_good)
      | (with_reducible apply State.stepped_good)
      | (with_reducible apply State.moveTime_good)
      | (with_reducible apply State.bwStepped_good)
      | (with_reducible apply good_fon)
      | (with_reducible apply good_ite)
      | (with_reducible apply good_ite_snd)
      | (with_reducible apply good_foldl)
      | (with_reducible apply good_foldl_snd)
      | rfl
      | dsimp only
      | split

theorem State.timeStepApply_good {q : List Instr} {s : State} (h : Good q s) :
    Good q (State.timeStepApply s) := by
  unfold State.timeStepApply
  repeat'
    first
      | with_reducible assumption
      | (intro _)
      | (with_reducible apply State.stepApply_good)
      | (with_reducible apply State.secTick_good)
      | (with_reducible apply good_ite)
      | (with_reducible apply good_ite_snd)
      | (with_reducible apply good_foldl)
      | (with_reducible apply good_foldl_snd)
      | rfl
      | dsimp only
      | split

theorem State.tbStepCommit_good {q : List Instr} {s : State} {x1 : Requester} {w : Nat} (h : Good q s) :
    Good q (State.tbStepCommit s x1 w) := by
  unfold State.tbStepCommit
  repeat'
    first
      | with_reducible assumption
      | (intro _)
      | (with_reducible apply State.setTime_good)
      | (with_reducible apply good_fon)
      | ((with_reducible refine good_rset_low 64 ?_ ?_ ?_); (on_goal 2 => rfl); (on_goal 2 => omega))
      | (with_reducible apply good_ite)
      | (with_reducible apply good_ite_snd)
      | (with_reducible apply good_foldl)
      | rfl

theorem State.tbSetCommit_good {q : List Instr} {s : State} {x1 : Requester} {w : Nat} (h : Good q s) :
    Good q (State.tbSetCommit s x1 w) := by
  unfold State.tbSetCommit
  repeat'
    first
      | with_reducible assumption
      | (intro _)
      | (with_reducible apply State.setTime_good)
      | (with_reducible apply good_fon)
      | ((with_reducible refine good_rset_low 96 ?_ ?_ ?_); (on_goal 2 => rfl); (on_goal 2 => omega))
      | (with_reducible apply good_ite)
      | (with_reducible apply good_ite_snd)
      | (with_reducible apply good_foldl)
      | rfl
      | dsimp only
      | split

theorem State.ncoSwCommit_good {q : List Instr} {s : State} {w : Nat} (h : Good q s) :
    Good q (State.ncoSwCommit s w) := by
  unfold State.ncoSwCommit
  repeat'
    first
      | with_reducible assumption
      | (intro _)
      | (with_reducible apply State.setTime_good)
      | (with_reducible apply good_fonIf)
      | ((with_reducible refine good_rset_low 48 ?_ ?_ ?_); (on_goal 2 => rfl); (on_goal 2 => first | exact Nat.mod_lt _ (by decide) | exact bitsOf_lt _ _))
      | (with_reducible apply good_ite)
      | (with_reducible apply good_ite_snd)
      | (with_reducible apply good_foldl)
      | rfl

theorem State.ncoSrcChanged_good {q : List Instr} {s : State} (h : Good q s) :
    Good q (State.ncoSrcChanged s) := by
  unfold State.ncoSrcChanged
  repeat'
    first
      | with_reducible assumption
      | (intro _)
      | (with_reducible apply State.bwSwNco_good)
      | (with_reducible apply State.setTime_good)
      | (with_reducible apply good_fset)
      | (with_reducible apply good_ite)
      | (with_reducible apply good_ite_snd)
      | (with_reducible apply good_foldl)
      | rfl

theorem State.tbusErr_good {q : List Instr} {s : State} {r : Nat} (h : Good q s) :
    Good q (State.tbusErr s r) := by
  unfold State.tbusErr
  repeat'
    first
      | with_reducible assumption
      | (intro _)
      | (with_reducible apply State.report_good)

theorem State.busReceive_good {q : List Instr} {s : State} {was : BusRx} {bad : List (Nat × Nat)} (h : Good q s) :
    Good q (State.busReceive s was bad) := by
  unfold State.busReceive
  repeat'
    first
      | with_reducible assumption
      | (intro _)
      | (with_reducible apply State.setTime_good)
      | (with_reducible apply State.tbusErr_good)
      | (with_reducible apply good_ite)
      | (with_reducible apply good_ite_snd)
      | (with_reducible apply good_foldl)

theorem State.syntClamp_good {q : List Instr} {s : State} (h : Good q s) :
    Good q (State.syntClamp s) := by
  unfold State.syntClamp
  repeat'
    first
      | with_reducible assumption
      | (intro _)
      | (with_reducible apply State.setNtPort_good)
      | (with_reducible apply good_ite)
      | (with_reducible apply good_ite_snd)
      | (with_reducible apply good_foldl)

theorem State.takeWord_good {q : List Instr} {s : State} (h : Good q s) :
    Good q (State.takeWord s) := by
  unfold State.takeWord
  repeat'
    first
      | with_reducible assumption
      | (intro _)
      | (with_reducible apply State.setTime_good)
      | (with_reducible apply State.syntClamp_good)
      | (with_reducible apply good_fonIf)
      | ((with_reducible refine good_rset_low 48 ?_ ?_ ?_); (on_goal 2 => rfl); (on_goal 2 => first | exact Nat.mod_lt _ (by decide) | exact bitsOf_lt _ _))
      | (with_reducible apply good_ite)
      | (with_reducible apply good_ite_snd)
      | (with_reducible apply good_foldl)
      | rfl
      | dsimp only
      | split

theorem State.xoEdge_good {q : List Instr} {s0 : State} (h : Good q s0) :
    Good q (State.xoEdge s0) := by
  unfold State.xoEdge
  repeat'
    first
      | with_reducible assumption
      | (intro _)
      | (with_reducible apply State.takeWord_good)
      | (with_reducible apply State.setTime_good)

theorem State.xoTick_good {q : List Instr} {s : State} (h : Good q s) :
    Good q (State.xoTick s) := by
  unfold State.xoTick
  repeat'
    first
      | with_reducible assumption
      | (intro _)
      | (with_reducible apply State.setTime_good)
      | (with_reducible apply State.xoEdge_good)
      | (with_reducible apply good_ite)

theorem State.tsynCompare_good {q : List Instr} {s : State} {err : Option Int} (h : Good q s) :
    Good q (State.tsynCompare s err) := by
  unfold State.tsynCompare
  repeat'
    first
      | with_reducible assumption
      | (intro _)
      | (with_reducible apply State.setTsyn_good)
      | (with_reducible apply good_fon)
      | (with_reducible apply good_cnt)
      | (with_reducible apply good_ite)
      | (with_reducible apply good_ite_snd)
      | (with_reducible apply good_foldl)
      | rfl
      | dsimp only
      | split

theorem State.toBpll_good {q : List Instr} {s : State} (h : Good q s) :
    Good q (State.toBpll s) := by
  unfold State.toBpll
  repeat'
    first
      | with_reducible assumption
      | (intro _)
      | (with_reducible apply State.calDegOn_good)
      | (with_reducible apply State.raiseEv_good)
      | (with_reducible apply State.setTsyn_good)
      | (with_reducible apply good_fon)
      | (with_reducible apply good_cnt)
      | (with_reducible apply good_ite)
      | (with_reducible apply good_ite_snd)
      | (with_reducible apply good_foldl)
      | rfl

theorem State.tsynSwap_good {q : List Instr} {s : State} (h : Good q s) :
    Good q (State.tsynSwap s) := by
  unfold State.tsynSwap
  repeat'
    first
      | with_reducible assumption
      | (intro _)
      | (with_reducible apply State.report_good)
      | (with_reducible apply State.toBpll_good)
      | (with_reducible apply good_ite)

theorem State.forceTick_good {q : List Instr} {s : State} (h : Good q s) :
    Good q (State.forceTick s) := by
  unfold State.forceTick
  repeat'
    first
      | with_reducible assumption
      | (intro _)
      | (with_reducible apply State.toBpll_good)
      | (with_reducible apply good_ite)

theorem State.tsynReturn_good {q : List Instr} {s : State} (h : Good q s) :
    Good q (State.tsynReturn s) := by
  unfold State.tsynReturn
  repeat'
    first
      | with_reducible assumption
      | (intro _)
      | (with_reducible apply State.calDegOff_good)
      | (with_reducible apply State.raiseEv_good)
      | (with_reducible apply State.setTsyn_good)
      | (with_reducible apply good_ite)

theorem State.xoLoss_good {q : List Instr} {s : State} (h : Good q s) :
    Good q (State.xoLoss s) := by
  unfold State.xoLoss
  repeat'
    first
      | with_reducible assumption
      | (intro _)
      | (with_reducible apply State.fresh_good)
      | (with_reducible refine State.fresh_good_eq (by with_reducible assumption) ?_)
      | (with_reducible apply State.setGlb_good)
      | (with_reducible apply State.setTime_good)
      | (with_reducible apply State.report_good)
      | (with_reducible apply good_fon)
      | (with_reducible apply good_ite)
      | (with_reducible apply good_ite_snd)
      | (with_reducible apply good_foldl)
      | rfl

theorem State.xoReturn_good {q : List Instr} {s : State} (h : Good q s) :
    Good q (State.xoReturn s) := by
  unfold State.xoReturn
  repeat'
    first
      | with_reducible assumption
      | (intro _)
      | (with_reducible apply State.fresh_good)
      | (with_reducible refine State.fresh_good_eq (by with_reducible assumption) ?_)
      | (with_reducible apply State.setGlb_good)
      | (with_reducible apply State.setTime_good)
      | (with_reducible apply State.offerBbr_good)
      | (with_reducible apply good_ite)

theorem State.timeAdvance_good {q : List Instr} {s : State} {o : TickObs} (h : Good q s) :
    Good q (State.timeAdvance s o) := by
  unfold State.timeAdvance
  repeat'
    first
      | with_reducible assumption
      | (intro _)
      | (with_reducible apply State.setTime_good)
      | (with_reducible apply State.report_good)
      | (with_reducible apply State.stepped_good)
      | (with_reducible apply good_ite)

theorem State.evqPrune_good {q : List Instr} {s : State} (h : Good q s) :
    Good q (State.evqPrune s) := by
  unfold State.evqPrune
  repeat'
    first
      | with_reducible assumption
      | (intro _)
      | (with_reducible apply State.setDw_good)

theorem State.tick_good {q : List Instr} {s : State} {o : TickObs} (h : Good q s) :
    Good q (State.tick s o) := by
  unfold State.tick
  repeat'
    first
      | with_reducible assumption
      | (intro _)
      | (with_reducible apply State.dropHeld_good)
      | (with_reducible apply State.raiseDue_good)
      | (with_reducible apply State.setGlb_good)
      | (with_reducible apply State.timeAdvance_good)
      | (with_reducible apply State.tsynCompare_good)
      | (with_reducible apply State.setTime_good)
      | (with_reducible apply State.xoTick_good)
      | (with_reducible apply State.setTsyn_good)
      | (with_reducible apply State.forceTick_good)
      | (with_reducible apply State.secTick_good)
      | (with_reducible apply State.busReceive_good)
      | (with_reducible apply State.engTick_good)
      | (with_reducible apply State.tiuTick_good)
      | (with_reducible apply State.mbWork_good)
      | (with_reducible apply State.calTick_good)
      | (with_reducible apply State.talTick_good)
      | (with_reducible apply State.setCsyn_good)
      | (with_reducible apply State.evqPrune_good)
      | (with_reducible apply good_fon)
      | (with_reducible apply good_ite)
      | (with_reducible apply good_ite_snd)
      | (with_reducible apply good_foldl)
      | (with_reducible apply good_foldl_snd)
      | rfl
      | dsimp only
      | split
      | omega
      | (with_reducible apply good_mk)

end Sys2Proof.Machine
end

