-- ==== Sys2Proof/Laws/SoundSynOps.lean ====
section
/-! SUPPORT. Each operation of SynOps keeps a state sound and its queue. -/

namespace Sys2Proof.Machine

theorem State.csynWritten_good {q : List Instr} {s : State} {f : Nat} (h : Good q s) :
    Good q (State.csynWritten s f) := by
  unfold State.csynWritten
  repeat'
    first
      | with_reducible assumption
      | (intro _)
      | (with_reducible apply State.setCsyn_good)

theorem State.csynEv_good {q : List Instr} {s : State} (h : Good q s) :
    Good q (State.csynEv s) := by
  unfold State.csynEv
  repeat'
    first
      | with_reducible assumption
      | (intro _)
      | (with_reducible apply State.raiseEv_good)

theorem State.csynMove_good {q : List Instr} {s : State} {f : Nat} {b : Nat} (h : Good q s) :
    Good q (State.csynMove s f b) := by
  unfold State.csynMove
  repeat'
    first
      | with_reducible assumption
      | (intro _)
      | (with_reducible apply State.csynEv_good)
      | (with_reducible apply State.setCsyn_good)

theorem State.csynBandChange_good {q : List Instr} {s : State} (h : Good q s) :
    Good q (State.csynBandChange s) := by
  unfold State.csynBandChange
  repeat'
    first
      | with_reducible assumption
      | (intro _)
      | (with_reducible apply State.csynMove_good)
      | (with_reducible apply good_ite)

theorem State.csynRelocked_good {q : List Instr} {s : State} (h : Good q s) :
    Good q (State.csynRelocked s) := by
  unfold State.csynRelocked
  repeat'
    first
      | with_reducible assumption
      | (intro _)
      | (with_reducible apply State.csynEv_good)
      | (with_reducible apply State.setCsyn_good)
      | (with_reducible apply good_ite)

theorem State.csynBandFail_good {q : List Instr} {s : State} (h : Good q s) :
    Good q (State.csynBandFail s) := by
  unfold State.csynBandFail
  repeat'
    first
      | with_reducible assumption
      | (intro _)
      | (with_reducible apply State.setCsyn_good)
      | (with_reducible apply good_fon)
      | (with_reducible apply good_ite)
      | (with_reducible apply good_ite_snd)
      | (with_reducible apply good_foldl)
      | rfl

theorem State.csynRetry_good {q : List Instr} {s : State} (h : Good q s) :
    Good q (State.csynRetry s) := by
  unfold State.csynRetry
  repeat'
    first
      | with_reducible assumption
      | (intro _)
      | (with_reducible apply State.setCsyn_good)
      | (with_reducible apply good_ite)

theorem State.csynGuard_good {q : List Instr} {s : State} {n : Nat} {long : Bool} (h : Good q s) :
    Good q (State.csynGuard s n long) := by
  unfold State.csynGuard
  repeat'
    first
      | with_reducible assumption
      | (intro _)
      | (with_reducible apply State.setCsyn_good)
      | (with_reducible apply State.csynMove_good)
      | (with_reducible apply good_fonIf)
      | (with_reducible apply good_cntAdd)
      | (with_reducible apply good_ite)
      | (with_reducible apply good_ite_snd)
      | (with_reducible apply good_foldl)
      | rfl

theorem State.csynRampDone_good {q : List Instr} {s : State} (h : Good q s) :
    Good q (State.csynRampDone s) := by
  unfold State.csynRampDone
  repeat'
    first
      | with_reducible assumption
      | (intro _)
      | (with_reducible apply State.setCsyn_good)
      | (with_reducible apply good_ite)

theorem State.osynRes_good {q : List Instr} {s : State} {i : Nat} {code : Nat} (h : Good q s) :
    Good q (State.osynRes s i code) := by
  unfold State.osynRes
  repeat'
    first
      | with_reducible assumption
      | (intro _)
      | (with_reducible apply good_fset)
      | (with_reducible apply good_ite)
      | (with_reducible apply good_ite_snd)
      | (with_reducible apply good_foldl)
      | rfl

theorem State.osynGoto_good {q : List Instr} {s : State} {i : Nat} {o : OsynSt} (h : Good q s) :
    Good q (State.osynGoto s i o) := by
  unfold State.osynGoto
  repeat'
    first
      | with_reducible assumption
      | (intro _)
      | (with_reducible apply State.raiseIf_good)
      | (with_reducible apply State.setOsyn_good)

theorem State.osynApply_good {q : List Instr} {s : State} {i : Nat} (h : Good q s) :
    Good q (State.osynApply s i) := by
  unfold State.osynApply
  repeat'
    first
      | with_reducible assumption
      | (intro _)
      | (with_reducible apply State.osynRes_good)
      | (with_reducible apply State.osynGoto_good)
      | (with_reducible apply good_ite)

theorem State.osynLockDone_good {q : List Instr} {s : State} {i : Nat} {lo : Nat} {hi : Nat} (h : Good q s) :
    Good q (State.osynLockDone s i lo hi) := by
  unfold State.osynLockDone
  repeat'
    first
      | with_reducible assumption
      | (intro _)
      | (with_reducible apply State.osynGoto_good)
      | (with_reducible apply good_ite)

theorem State.osynRamp_good {q : List Instr} {s : State} {i : Nat} (h : Good q s) :
    Good q (State.osynRamp s i) := by
  unfold State.osynRamp
  repeat'
    first
      | with_reducible assumption
      | (intro _)
      | (with_reducible apply State.osynRes_good)
      | (with_reducible apply State.setOsyn_good)
      | (with_reducible apply good_ite)

theorem State.segFrom_good {q : List Instr} {s : State} {i : Nat} {k : Nat} (h : Good q s) :
    Good q (State.segFrom s i k) := by
  unfold State.segFrom
  repeat'
    first
      | with_reducible assumption
      | (intro _)
      | (with_reducible apply State.setOsyn_good)
      | (with_reducible apply good_ite)
      | (with_reducible apply good_ite_snd)
      | (with_reducible apply good_foldl)
      | rfl
      | dsimp only
      | split

theorem State.osynRampStart_good {q : List Instr} {s : State} {i : Nat} (h : Good q s) :
    Good q (State.osynRampStart s i) := by
  unfold State.osynRampStart
  repeat'
    first
      | with_reducible assumption
      | (intro _)
      | (with_reducible apply State.setOsyn_good)
      | (with_reducible apply good_ite)
      | (with_reducible apply good_ite_snd)
      | (with_reducible apply good_foldl)
      | (with_reducible apply good_foldl_snd)
      | rfl
      | dsimp only
      | split

theorem State.osynSegEnd_good {q : List Instr} {s : State} {i : Nat} (h : Good q s) :
    Good q (State.osynSegEnd s i) := by
  unfold State.osynSegEnd
  repeat'
    first
      | with_reducible assumption
      | (intro _)
      | (with_reducible apply State.segFrom_good)
      | (with_reducible apply good_ite)

theorem State.osynLol_good {q : List Instr} {s : State} {i : Nat} (h : Good q s) :
    Good q (State.osynLol s i) := by
  unfold State.osynLol
  repeat'
    first
      | with_reducible assumption
      | (intro _)
      | (with_reducible apply State.osynGoto_good)
      | (with_reducible apply good_fon)
      | (with_reducible apply good_ite)
      | (with_reducible apply good_ite_snd)
      | (with_reducible apply good_foldl)
      | rfl

theorem State.osynRelock_good {q : List Instr} {s : State} {i : Nat} (h : Good q s) :
    Good q (State.osynRelock s i) := by
  unfold State.osynRelock
  repeat'
    first
      | with_reducible assumption
      | (intro _)
      | (with_reducible apply State.osynGoto_good)
      | (with_reducible apply good_ite)

theorem State.osynOff_good {q : List Instr} {s : State} {i : Nat} (h : Good q s) :
    Good q (State.osynOff s i) := by
  unfold State.osynOff
  repeat'
    first
      | with_reducible assumption
      | (intro _)
      | (with_reducible apply State.osynGoto_good)

theorem State.osynCmd_good {q : List Instr} {s : State} {i : Nat} {w : Nat} (h : Good q s) :
    Good q (State.osynCmd s i w) := by
  unfold State.osynCmd
  repeat'
    first
      | with_reducible assumption
      | (intro _)
      | (with_reducible apply State.osynApply_good)
      | (with_reducible apply State.osynRamp_good)
      | (with_reducible apply good_fon)
      | (with_reducible apply good_ite)
      | (with_reducible apply good_ite_snd)
      | (with_reducible apply good_foldl)
      | rfl

end Sys2Proof.Machine
end

