-- ==== Sys2Proof/Laws/SoundResetOps.lean ====
section
/-! SUPPORT. Each operation of ResetOps keeps a state sound and its queue. -/

namespace Sys2Proof.Machine

theorem State.coreReset_good {q : List Instr} {s : State} {keep : RegKey → Bool} (h : Good q s) :
    Good q (State.coreReset s keep) := by
  unfold State.coreReset
  exact ⟨⟨rfl, h.flashWf, h.hostWf, (good_keep (t := { s with regs := s.regs.keep keep }) keep h rfl rfl rfl rfl rfl).sound.reserved⟩, h.queue⟩

theorem State.pinCore_good {q : List Instr} {s : State} (h : Good q s) :
    Good q (State.pinCore s) := by
  unfold State.pinCore
  repeat'
    first
      | with_reducible assumption
      | (intro _)
      | (with_reducible apply State.coreReset_good)
      | (with_reducible apply State.setBbr_good)

theorem State.warmCore_good {q : List Instr} {s : State} (h : Good q s) :
    Good q (State.warmCore s) := by
  have h1 : Good q (s.coreReset warmKeeps) := State.coreReset_good h
  unfold State.warmCore
  dsimp only
  exact State.setBw_good (State.setTime_good ⟨⟨h.dramWf, h1.flashWf, h1.hostWf, h1.sound.reserved⟩, h1.queue⟩)

/-- A cause of GLB_RST_CAUSE. -/
theorem State.resetCause_good {q : List Instr} {s : State} {cause : Nat} (h : Good q s) (hc : cause < 7) : Good q (s.resetCause cause) := by
  unfold State.resetCause
  exact State.offerBbr_good (State.hwMark_good (good_rset_of 7 h rfl rfl (or_pow_lt hc)))

theorem State.resetBegin_good {q : List Instr} {s : State} {lvl : RstLevel} {cause : Nat} {core : State → State} (h : Good q s)
    (hcore : ∀ st, Good q st → Good q (core st)) (hc : cause < 7) : Good q (s.resetBegin lvl cause core) := by
  unfold State.resetBegin
  exact good_ite h (State.resetCause_good (State.setGlb_good (hcore s h)) hc)

theorem State.pinReset_good {q : List Instr} {s : State} {cause : Nat} (h : Good q s) (hc : cause < 7) : Good q (s.pinReset cause) :=
  State.resetBegin_good h (fun _ => State.pinCore_good) hc

theorem State.pinLow_good {q : List Instr} {s : State} (h : Good q s) :
    Good q (State.pinLow s) := by
  unfold State.pinLow
  repeat'
    first
      | with_reducible assumption
      | (intro _)
      | (with_reducible apply State.pinReset_good)
      | (with_reducible apply State.setGlb_good)
      | (with_reducible apply good_ite)
      | (with_reducible apply good_ite_snd)
      | (with_reducible apply good_foldl)
      | rfl
      | dsimp only
      | split
      | omega

theorem State.pinRelease_good {q : List Instr} {s : State} {straps : Nat} (h : Good q s) :
    Good q (State.pinRelease s straps) := by
  unfold State.pinRelease
  repeat'
    first
      | with_reducible assumption
      | (intro _)
      | (with_reducible apply State.setGlb_good)
      | ((with_reducible refine good_rset_low 4 ?_ ?_ ?_); (on_goal 2 => rfl); (on_goal 2 => omega))
      | (with_reducible apply good_ite)

theorem State.mainPor_good {q : List Instr} {s : State} {low : Nat} (h : Good q s) :
    Good q (State.mainPor s low) := by
  unfold State.mainPor
  repeat'
    first
      | with_reducible assumption
      | (intro _)
      | (with_reducible apply State.pinReset_good)
      | (with_reducible apply State.setGlb_good)
      | (with_reducible apply good_ite)
      | (with_reducible apply good_ite_snd)
      | (with_reducible apply good_foldl)
      | rfl
      | dsimp only
      | split
      | omega

theorem State.mainLoss_good {q : List Instr} {s : State} (h : Good q s) :
    Good q (State.mainLoss s) := by
  unfold State.mainLoss
  repeat'
    first
      | with_reducible assumption
      | (intro _)
      | (with_reducible apply State.mainPor_good)

theorem State.auxCore_good {q : List Instr} {s : State} (h : Good q s) :
    Good q (State.auxCore s) := by
  unfold State.auxCore
  refine ⟨⟨rfl, h.flashWf, h.hostWf, fun c b v n => ?_⟩, h.queue⟩
  exact regReset_gap v n

theorem State.vauxLoss_good {q : List Instr} {s : State} (h : Good q s) :
    Good q (State.vauxLoss s) := by
  unfold State.vauxLoss
  repeat'
    first
      | with_reducible assumption
      | (intro _)
      | (with_reducible apply State.auxCore_good)
      | (with_reducible apply State.setBbr_good)
      | (with_reducible apply State.setGlb_good)

theorem State.auxPowerOn_good {q : List Instr} {s : State} (h : Good q s) :
    Good q (State.auxPowerOn s) := by
  unfold State.auxPowerOn
  repeat'
    first
      | with_reducible assumption
      | (intro _)
      | (with_reducible apply State.auxCore_good)

theorem State.warmReset_good {q : List Instr} {s : State} {key : Nat} (h : Good q s) :
    Good q (State.warmReset s key) := by
  unfold State.warmReset
  repeat'
    first
      | with_reducible assumption
      | (intro _)
      | (with_reducible apply State.resetBegin_good)
      | (with_reducible apply State.warmCore_good)
      | (with_reducible apply good_fon)
      | (with_reducible apply good_ite)
      | (with_reducible apply good_ite_snd)
      | (with_reducible apply good_foldl)
      | rfl
      | dsimp only
      | split
      | omega

theorem State.shadowAdvance_good {q : List Instr} {s : State} (h : Good q s) :
    Good q (State.shadowAdvance s) := by
  unfold State.shadowAdvance
  repeat'
    first
      | with_reducible assumption
      | (intro _)
      | (with_reducible apply State.setGlb_good)
      | (with_reducible apply State.setTime_good)
      | (with_reducible apply good_ite)
      | (with_reducible apply good_ite_snd)
      | (with_reducible apply good_foldl)
      | (with_reducible apply good_foldl_snd)
      | rfl
      | dsimp only
      | split
      | omega
      | (with_reducible apply good_mk)

theorem State.timebaseReady_good {q : List Instr} {s : State} (h : Good q s) :
    Good q (State.timebaseReady s) := by
  unfold State.timebaseReady
  repeat'
    first
      | with_reducible assumption
      | (intro _)
      | (with_reducible apply State.setTime_good)
      | (with_reducible apply State.secTick_good)
      | (with_reducible apply State.setGlb_good)
      | (with_reducible apply State.setTsyn_good)
      | (with_reducible apply good_ite)

theorem State.barAccess_good {q : List Instr} {s : State} (h : Good q s) :
    Good q (State.barAccess s) := by
  unfold State.barAccess
  repeat'
    first
      | with_reducible assumption
      | (intro _)
      | (with_reducible apply State.setGlb_good)
      | (with_reducible apply good_ite)

theorem State.dramTrained_good {q : List Instr} {s : State} (h : Good q s) :
    Good q (State.dramTrained s) := by
  unfold State.dramTrained
  repeat'
    first
      | with_reducible assumption
      | (intro _)
      | (with_reducible apply State.setGlb_good)
      | (with_reducible apply good_ite)

theorem State.blkRegs_good {q : List Instr} {s : State} {b : Blk} {stays : (Reg → Bool)} (h : Good q s) :
    Good q (State.blkRegs s b stays) := by
  unfold State.blkRegs
  exact good_keep (fun k => decide (k.r.info.blk ≠ b) || stays k.r) h rfl rfl rfl rfl rfl

theorem State.blkSwpad_good {q : List Instr} {s : State} (h : Good q s) :
    Good q (State.blkSwpad s) := by
  unfold State.blkSwpad
  repeat'
    first
      | with_reducible assumption
      | (intro _)
      | (with_reducible apply State.swpadClear_good)
      | (with_reducible apply State.blkRegs_good)

theorem State.blkTas_good {q : List Instr} {s : State} (h : Good q s) :
    Good q (State.blkTas s) := by
  unfold State.blkTas
  repeat'
    first
      | with_reducible assumption
      | (intro _)
      | (with_reducible apply State.tasClear_good)
      | (with_reducible apply State.blkRegs_good)

theorem State.blkNt_good {q : List Instr} {s : State} (h : Good q s) :
    Good q (State.blkNt s) := by
  unfold State.blkNt
  repeat'
    first
      | with_reducible assumption
      | (intro _)
      | (with_reducible apply State.ntClear_good)
      | (with_reducible apply State.blkRegs_good)

theorem State.blkTal_good {q : List Instr} {s : State} (h : Good q s) :
    Good q (State.blkTal s) := by
  unfold State.blkTal
  repeat'
    first
      | with_reducible assumption
      | (intro _)
      | (with_reducible apply State.setTal_good)
      | (with_reducible apply State.blkRegs_good)

theorem State.blkCal_good {q : List Instr} {s : State} (h : Good q s) :
    Good q (State.blkCal s) := by
  unfold State.blkCal
  repeat'
    first
      | with_reducible assumption
      | (intro _)
      | (with_reducible apply State.blkRegs_good)
      | (with_reducible apply State.calBlockReset_good)

theorem State.blkDrv_good {q : List Instr} {s : State} (h : Good q s) :
    Good q (State.blkDrv s) := by
  unfold State.blkDrv
  repeat'
    first
      | with_reducible assumption
      | (intro _)
      | (with_reducible apply State.blkRegs_good)
      | (with_reducible apply good_ite)
      | (with_reducible apply good_ite_snd)
      | (with_reducible apply good_foldl)
      | rfl
      | dsimp only
      | split
      | omega
      | (with_reducible apply good_mk)

theorem State.blkDw_good {q : List Instr} {s : State} (h : Good q s) :
    Good q (State.blkDw s) := by
  unfold State.blkDw
  repeat'
    first
      | with_reducible assumption
      | (intro _)
      | (with_reducible apply State.blkRegs_good)
      | (with_reducible apply State.setDw_good)

theorem State.blockReset_good {q : List Instr} {s : State} {b : Nat} (h : Good q s) (hb : b < 8) : Good q (s.blockReset b) := by
  unfold State.blockReset
  extract_lets x0 s0 s1
  have h0 : Good q s0 := h.same rfl rfl rfl rfl rfl
  have h1 : Good q s1 := good_rset_of 8 h0 rfl rfl (or_pow_lt hb)
  clear_value s1
  split
  · exact State.blkDw_good h1
  · exact State.blkDrv_good h1
  · exact State.blkCal_good h1
  · exact State.blkTal_good h1
  · exact State.blkNt_good h1
  · exact State.blkTas_good h1
  · exact State.blkSwpad_good h1
  · exact State.setGlb_good h1

theorem State.blockResetDone_good {q : List Instr} {s : State} {b : Nat} (h : Good q s) :
    Good q (State.blockResetDone s b) := by
  unfold State.blockResetDone
  exact good_ite (State.hwMark_good (good_rset_of 8 h rfl rfl fun hv => lt_of_le_of_lt (Nat.sub_le _ _) hv)) h

end Sys2Proof.Machine
end

