-- ==== Sys2Proof/Laws/SoundMonOps.lean ====
section
/-! SUPPORT. Each operation of MonOps keeps a state sound and its queue. -/

namespace Sys2Proof.Machine

theorem State.cleared_good {q : List Instr} {s : State} {cls : Nat} {idx : Nat} (h : Good q s) :
    Good q (State.cleared s cls idx) := by
  unfold State.cleared
  repeat'
    first
      | with_reducible assumption
      | (intro _)
      | (with_reducible apply State.offerBbr_good)

theorem State.tempOne_good {q : List Instr} {s : State} {i : Nat} {w : Nat} (h : Good q s) :
    Good q (State.tempOne s i w) := by
  unfold State.tempOne
  repeat'
    first
      | with_reducible assumption
      | (intro _)
      | (with_reducible apply State.setFlt_good)
      | (with_reducible apply State.report_good)
      | (with_reducible apply State.cleared_good)
      | ((with_reducible refine good_rset_low 16 ?_ ?_ ?_); (on_goal 2 => rfl); (on_goal 2 => omega))
      | (with_reducible apply good_ite)

theorem State.thermalCheck_good {q : List Instr} {s : State} (h : Good q s) :
    Good q (State.thermalCheck s) := by
  unfold State.thermalCheck
  repeat'
    first
      | with_reducible assumption
      | (intro _)
      | (with_reducible apply State.setGlb_good)
      | (with_reducible apply State.pinReset_good)
      | (with_reducible apply State.setFlt_good)
      | (with_reducible apply good_ite)
      | (with_reducible apply good_ite_snd)
      | (with_reducible apply good_foldl)
      | rfl
      | dsimp only
      | split
      | omega

theorem State.monTemps_good {q : List Instr} {s : State} {t : List (BitVec 16)} (h : Good q s) :
    Good q (State.monTemps s t) := by
  unfold State.monTemps
  repeat'
    first
      | with_reducible assumption
      | (intro _)
      | (with_reducible apply State.thermalCheck_good)
      | (with_reducible apply State.tempOne_good)
      | (with_reducible apply good_ite)
      | (with_reducible apply good_ite_snd)
      | (with_reducible apply good_foldl)

theorem State.supOne_good {q : List Instr} {s : State} {r : Nat} {mv : Nat} (h : Good q s) :
    Good q (State.supOne s r mv) := by
  unfold State.supOne
  repeat'
    first
      | with_reducible assumption
      | (intro _)
      | (with_reducible apply State.setFlt_good)
      | (with_reducible apply State.report_good)
      | (with_reducible apply State.cleared_good)
      | ((with_reducible refine good_rset_low 12 ?_ ?_ ?_); (on_goal 2 => rfl); (on_goal 2 => omega))
      | (with_reducible apply good_ite)

theorem State.monSupplies_good {q : List Instr} {s : State} {mv : List (BitVec 12)} (h : Good q s) :
    Good q (State.monSupplies s mv) := by
  unfold State.monSupplies
  repeat'
    first
      | with_reducible assumption
      | (intro _)
      | (with_reducible apply State.supOne_good)
      | (with_reducible apply State.mainPor_good)
      | (with_reducible apply good_ite)
      | (with_reducible apply good_ite_snd)
      | (with_reducible apply good_foldl)

end Sys2Proof.Machine
end

