-- ==== Sys2Proof/Laws/SoundHostOps.lean ====
section
/-! SUPPORT. Each operation of HostOps keeps a state sound and its queue. -/

namespace Sys2Proof.Machine

theorem State.bootStore_good {q : List Instr} {s : State} {r : BootRec} (h : Good q s) :
    Good q (State.bootStore s r) := by
  unfold State.bootStore
  repeat'
    first
      | with_reducible assumption
      | (intro _)
      | (with_reducible apply State.setHost_good)
      | (with_reducible apply State.flashWrite_good)
      | (with_reducible apply State.flashErase_good)

theorem State.overRecord_good {q : List Instr} {s : State} {idx : Nat} {p : Bool × Bool} (h : Good q s) :
    Good q (State.overRecord s idx p) := by
  unfold State.overRecord
  repeat'
    first
      | with_reducible assumption
      | (intro _)
      | (with_reducible apply State.offerBbr_good)

theorem State.limitedMode_good {q : List Instr} {s : State} (h : Good q s) :
    Good q (State.limitedMode s) := by
  unfold State.limitedMode
  repeat'
    first
      | with_reducible assumption
      | (intro _)
      | (with_reducible apply State.setGlb_good)
      | (with_reducible apply State.eoDisableCh_good)
      | (with_reducible apply State.osynOff_good)
      | (with_reducible apply State.setTime_good)
      | (with_reducible apply State.setBw_good)
      | (with_reducible apply State.bwGoto_good)
      | (with_reducible apply State.linkDown_good)
      | (with_reducible apply good_fset)
      | (with_reducible apply good_ite)
      | (with_reducible apply good_ite_snd)
      | (with_reducible apply good_foldl)
      | rfl

theorem State.bootSelect_good {q : List Instr} {s : State} (h : Good q s) :
    Good q (State.bootSelect s) := by
  unfold State.bootSelect
  repeat'
    first
      | with_reducible assumption
      | (intro _)
      | (with_reducible apply State.setHost_good)
      | (with_reducible apply State.limitedMode_good)
      | (with_reducible apply State.overRecord_good)
      | (with_reducible apply good_fset)
      | (with_reducible apply good_ite)
      | (with_reducible apply good_ite_snd)
      | (with_reducible apply good_foldl)
      | rfl
      | dsimp only
      | split

theorem State.firmwareStart_good {q : List Instr} {s : State} (h : Good q s) :
    Good q (State.firmwareStart s) := by
  unfold State.firmwareStart
  repeat'
    first
      | with_reducible assumption
      | (intro _)
      | (with_reducible apply State.wdogRestart_good)
      | (with_reducible apply State.setGlb_good)
      | (with_reducible apply good_ite)

theorem State.mbArgWrite_good {q : List Instr} {s : State} {x1 : Requester} {w : Nat} {v : Nat} (h : Good q s) :
    Good q (State.mbArgWrite s x1 w v) := by
  unfold State.mbArgWrite
  repeat'
    first
      | with_reducible assumption
      | (intro _)
      | (with_reducible apply State.setMbox_good)
      | ((with_reducible refine good_rset_low 32 ?_ ?_ ?_); (on_goal 2 => rfl); (on_goal 2 => omega))
      | (with_reducible apply good_ite)

theorem State.mbEnd_good {q : List Instr} {s : State} {code : MbCode} {results : List Nat} {long : Bool} (h : Good q s) :
    Good q (State.mbEnd s code results long) := by
  unfold State.mbEnd
  repeat'
    first
      | with_reducible assumption
      | (intro _)
      | (with_reducible apply State.setMbox_good)
      | (with_reducible apply State.sendMsix_good)
      | (with_reducible apply good_fset)
      | ((with_reducible refine good_rset_low 32 ?_ ?_ ?_); (on_goal 2 => rfl); (on_goal 2 => omega))
      | (with_reducible apply good_ite)
      | (with_reducible apply good_ite_snd)
      | (with_reducible apply good_foldl)
      | rfl

theorem State.mbGo_good {q : List Instr} {s : State} {x1 : Requester} {op : Nat} (h : Good q s) :
    Good q (State.mbGo s x1 op) := by
  have key : Good q (((List.range 64).map fun w => s.host.mbox.stage.get 0 (64 * x1.owner + w) % 2 ^ 32).zipIdx.foldl
      (fun st x => st.rset ⟨.mbArg, x.2, 0, 0⟩ x.1) s) := by
    refine good_foldl_mem h fun st a ha hst => good_rset_low 32 hst rfl ?_
    obtain ⟨w, _, e⟩ := List.mem_map.mp (List.fst_mem_of_mem_zipIdx ha)
    rw [← e]
    exact Nat.mod_lt _ (by decide)
  unfold State.mbGo
  refine good_ite (good_fon h rfl) ?_
  dsimp only
  revert key
  generalize List.foldl (fun (st : State) (x : Nat × Nat) => st.rset ⟨.mbArg, x.2, 0, 0⟩ x.1) s _ = s1
  intro key
  have h2 : ∀ {o : Nat} {m : Mbox}, Good q ((((((s1.fset F.mbStatus_BUSY 1).fset F.mbStatus_OWNER x1.owner).fset F.mbStatus_SEQ
      (s1.fget F.mbStatus_SEQ + 1)).fset F.mbCmd_OP o).setMbox m)) :=
    State.setMbox_good (good_fset (good_fset (good_fset (good_fset key rfl) rfl) rfl) rfl)
  exact good_ite h2 (good_ite (State.mbEnd_good h2) (good_fset (good_fset (good_fset (good_fset h2 rfl) rfl) rfl) rfl))

theorem State.mbCmdWrite_good {q : List Instr} {s : State} {x1 : Requester} {data : Nat} (h : Good q s) :
    Good q (State.mbCmdWrite s x1 data) := by
  unfold State.mbCmdWrite
  repeat'
    first
      | with_reducible assumption
      | (intro _)
      | (with_reducible apply State.mbGo_good)
      | (with_reducible apply good_ite)

theorem good_ite_st {q : List Instr} {c : Prop} [Decidable c] {a b : MbAns} (ha : Good q a.st) (hb : Good q b.st) :
    Good q (if c then a else b).st := by
  split <;> assumption

theorem State.mbGetInfo_good {q : List Instr} {s : State} (h : Good q s) : Good q (s.mbGetInfo).st := h

theorem State.mbFwBegin_good {q : List Instr} {s : State} {c : MbCmd} {ok : Bool} (h : Good q s) :
    Good q (State.mbFwBegin s c ok).st := by
  unfold State.mbFwBegin
  repeat'
    first
      | with_reducible assumption
      | (intro _)
      | (with_reducible apply State.mbPart_good)
      | (with_reducible apply State.setMbox_good)
      | (with_reducible apply good_ite_st)
      | (with_reducible apply good_ite)
      | (with_reducible apply good_ite_snd)
      | (with_reducible apply good_foldl)
      | (with_reducible apply good_foldl_snd)
      | rfl
      | dsimp only
      | split

theorem State.mbFwChunk_good {q : List Instr} {s : State} {c : MbCmd} {ok : Bool} (h : Good q s) :
    Good q (State.mbFwChunk s c ok).st := by
  unfold State.mbFwChunk
  repeat'
    first
      | with_reducible assumption
      | (intro _)
      | (with_reducible apply State.mbPart_good)
      | (with_reducible apply good_ite_st)
      | (with_reducible apply good_ite)
      | (with_reducible apply good_ite_snd)
      | (with_reducible apply good_foldl)
      | (with_reducible apply good_foldl_snd)
      | rfl
      | dsimp only
      | split

theorem State.overEnd_good {q : List Instr} {s : State} (h : Good q s) :
    Good q (State.overEnd s) := by
  unfold State.overEnd
  repeat'
    first
      | with_reducible assumption
      | (intro _)
      | (with_reducible apply State.overRecord_good)
      | (with_reducible apply State.bootStore_good)
      | (with_reducible apply good_ite)
      | (with_reducible apply good_ite_snd)
      | (with_reducible apply good_foldl)
      | (with_reducible apply good_foldl_snd)
      | rfl
      | dsimp only
      | split

theorem State.mbFwEnd_good {q : List Instr} {s : State} {ok : Bool} (h : Good q s) :
    Good q (State.mbFwEnd s ok).st := by
  unfold State.mbFwEnd
  repeat'
    first
      | with_reducible assumption
      | (intro _)
      | (with_reducible apply State.setMbox_good)
      | (with_reducible apply State.flashWrite_good)
      | (with_reducible apply State.overEnd_good)
      | (with_reducible apply good_ite_st)
      | (with_reducible apply good_ite)
      | (with_reducible apply good_ite_snd)
      | (with_reducible apply good_foldl)
      | rfl
      | dsimp only
      | split

theorem State.mbFwSelect_good {q : List Instr} {s : State} {c : MbCmd} {ok : Bool} (h : Good q s) :
    Good q (State.mbFwSelect s c ok).st := by
  unfold State.mbFwSelect
  repeat'
    first
      | with_reducible assumption
      | (intro _)
      | (with_reducible apply State.bootStore_good)
      | (with_reducible apply good_ite_st)
      | (with_reducible apply good_ite)
      | (with_reducible apply good_ite_snd)
      | (with_reducible apply good_foldl)
      | (with_reducible apply good_foldl_snd)
      | rfl
      | dsimp only
      | split

theorem State.mbFwVerify_good {q : List Instr} {s : State} {c : MbCmd} (h : Good q s) :
    Good q (State.mbFwVerify s c).st := by
  unfold State.mbFwVerify
  repeat'
    first
      | with_reducible assumption
      | (intro _)
      | (with_reducible apply good_ite_st)
      | (with_reducible apply good_ite)
      | (with_reducible apply good_ite_snd)
      | (with_reducible apply good_foldl)
      | rfl
      | dsimp only
      | split

theorem State.mbFlashRead_good {q : List Instr} {s : State} {c : MbCmd} {ok : Bool} (h : Good q s) :
    Good q (State.mbFlashRead s c ok).st := by
  unfold State.mbFlashRead
  repeat'
    first
      | with_reducible assumption
      | (intro _)
      | (with_reducible apply State.mbPart_good)
      | (with_reducible apply good_ite_st)
      | (with_reducible apply good_ite)
      | (with_reducible apply good_ite_snd)
      | (with_reducible apply good_foldl)
      | (with_reducible apply good_foldl_snd)
      | rfl
      | dsimp only
      | split

theorem State.mbFlashWrite_good {q : List Instr} {s : State} {c : MbCmd} {ok : Bool} (h : Good q s) :
    Good q (State.mbFlashWrite s c ok).st := by
  unfold State.mbFlashWrite
  repeat'
    first
      | with_reducible assumption
      | (intro _)
      | (with_reducible apply State.mbPart_good)
      | (with_reducible apply good_ite_st)
      | (with_reducible apply good_ite)
      | (with_reducible apply good_ite_snd)
      | (with_reducible apply good_foldl)
      | (with_reducible apply good_foldl_snd)
      | rfl
      | dsimp only
      | split

theorem State.mbOverSet_good {q : List Instr} {s : State} {c : MbCmd} {ok : Bool} (h : Good q s) :
    Good q (State.mbOverSet s c ok).st := by
  unfold State.mbOverSet
  repeat'
    first
      | with_reducible assumption
      | (intro _)
      | (with_reducible apply State.overRecord_good)
      | (with_reducible apply State.bootStore_good)
      | (with_reducible apply good_ite_st)

theorem State.mbOverClear_good {q : List Instr} {s : State} {c : MbCmd} {ok : Bool} (h : Good q s) :
    Good q (State.mbOverClear s c ok).st := by
  unfold State.mbOverClear
  repeat'
    first
      | with_reducible assumption
      | (intro _)
      | (with_reducible apply State.overEnd_good)
      | (with_reducible apply good_ite_st)

theorem State.mbSvnCommit_good {q : List Instr} {s : State} {c : MbCmd} (h : Good q s) :
    Good q (State.mbSvnCommit s c).st := by
  unfold State.mbSvnCommit
  repeat'
    first
      | with_reducible assumption
      | (intro _)
      | (with_reducible apply State.setHost_good)
      | (with_reducible apply good_ite_st)
      | (with_reducible apply good_ite)
      | (with_reducible apply good_ite_snd)
      | (with_reducible apply good_foldl)
      | rfl
      | dsimp only
      | split

theorem State.mbAbort_good {q : List Instr} {s : State} (h : Good q s) :
    Good q (State.mbAbort s).st := by
  unfold State.mbAbort
  repeat'
    first
      | with_reducible assumption
      | (intro _)
      | (with_reducible apply State.setMbox_good)
      | (with_reducible apply State.calAbort_good)
      | (with_reducible apply good_ite_st)
      | (with_reducible apply good_ite)

theorem State.mbDo_good {q : List Instr} {s : State} {c : MbCmd} {ok : Bool} (h : Good q s) :
    Good q (State.mbDo s c ok).st := by
  unfold State.mbDo
  repeat'
    first
      | with_reducible assumption
      | (intro _)
      | (with_reducible apply State.mbGetInfo_good)
      | (with_reducible apply State.mbFwBegin_good)
      | (with_reducible apply State.mbFwChunk_good)
      | (with_reducible apply State.mbFwEnd_good)
      | (with_reducible apply State.mbFwSelect_good)
      | (with_reducible apply State.mbFwVerify_good)
      | (with_reducible apply State.mbFlashRead_good)
      | (with_reducible apply State.mbFlashWrite_good)
      | (with_reducible apply State.mbOverSet_good)
      | (with_reducible apply State.mbOverClear_good)
      | (with_reducible apply State.mbSvnCommit_good)
      | (with_reducible apply State.mbAbort_good)
      | (with_reducible apply good_ite_st)

theorem State.mbComplete_good {q : List Instr} {s : State} {ok : Bool} (h : Good q s) :
    Good q (State.mbComplete s ok) := by
  unfold State.mbComplete
  repeat'
    first
      | with_reducible assumption
      | (intro _)
      | (with_reducible apply State.mbDo_good)
      | (with_reducible apply State.mbEnd_good)
      | (with_reducible apply good_ite)
      | (with_reducible apply good_ite_snd)
      | (with_reducible apply good_foldl)
      | rfl
      | dsimp only
      | split

end Sys2Proof.Machine
end

