-- ==== Sys2Proof/Laws/SoundDmaOps.lean ====
section
/-! SUPPORT. Each operation of DmaOps keeps a state sound and its queue. -/

namespace Sys2Proof.Machine

theorem State.setRing_good {q : List Instr} {s : State} {i : Nat} {r : Ring} (h : Good q s) :
    Good q (State.setRing s i r) := by
  unfold State.setRing
  repeat'
    first
      | with_reducible assumption
      | (intro _)
      | (with_reducible apply State.setHost_good)

theorem State.hostWrite_good {q : List Instr} {s : State} {a : Nat} {v : Nat} {n : Nat} (h : Good q s) :
    Good q (State.hostWrite s a v n) := by
  unfold State.hostWrite
  exact good_setHostMem h (memWriteLE_wf _ _ _ _ _ h.hostWf)

theorem State.hostPut_good {q : List Instr} {s : State} {a : Nat} {b : List Sys2Proof.Byte} (h : Good q s) :
    Good q (State.hostPut s a b) := by
  unfold State.hostPut
  exact good_setHostMem h (memWriteBytes_wf _ _ _ _ h.hostWf)

theorem State.ringStall_good {q : List Instr} {s : State} {i : Nat} (h : Good q s) :
    Good q (State.ringStall s i) := by
  unfold State.ringStall
  repeat'
    first
      | with_reducible assumption
      | (intro _)
      | (with_reducible apply State.setRing_good)
      | (with_reducible apply good_fon)
      | (with_reducible apply good_ite)
      | (with_reducible apply good_ite_snd)
      | (with_reducible apply good_foldl)
      | rfl

theorem State.descDone_good {q : List Instr} {s : State} {i : Nat} {status : Nat} {len : Option Nat} (h : Good q s) :
    Good q (State.descDone s i status len) := by
  unfold State.descDone
  repeat'
    first
      | with_reducible assumption
      | (intro _)
      | (with_reducible apply State.hostWrite_good)
      | (with_reducible apply State.setRing_good)
      | (with_reducible apply State.sendMsix_good)
      | (with_reducible apply good_fset)
      | (with_reducible apply good_ite)
      | (with_reducible apply good_ite_snd)
      | (with_reducible apply good_foldl)
      | rfl
      | dsimp only
      | split

theorem State.withDesc_good {q : List Instr} {s : State} {i : Nat} {kind : Nat} {f : State → State} (h : Good q s) (hf : ∀ st, Good q st → Good q (f st)) :
    Good q (State.withDesc s i kind f) := by
  unfold State.withDesc
  repeat'
    first
      | with_reducible assumption
      | (intro _)
      | (with_reducible apply hf)
      | (with_reducible apply State.ringStall_good)
      | (with_reducible apply good_ite)

theorem State.pcieErr_good {q : List Instr} {s : State} (h : Good q s) :
    Good q (State.pcieErr s) := by
  unfold State.pcieErr
  repeat'
    first
      | with_reducible assumption
      | (intro _)
      | (with_reducible apply good_fon)
      | (with_reducible apply good_ite)
      | (with_reducible apply good_ite_snd)
      | (with_reducible apply good_foldl)
      | rfl

theorem State.dmaH2d_good {q : List Instr} {s0 : State} {i : Nat} {err : Option Nat} (h : Good q s0) :
    Good q (State.dmaH2d s0 i err) := by
  unfold State.dmaH2d
  repeat'
    first
      | with_reducible assumption
      | (intro _)
      | (with_reducible apply State.withDesc_good)
      | (with_reducible apply State.descDone_good)
      | (with_reducible apply State.pcieErr_good)
      | (with_reducible apply memWriteLE_wf)
      | (with_reducible apply memWriteBytes_wf)
      | (with_reducible apply memWrite_wf)
      | (with_reducible apply Good.dramWf)
      | (with_reducible apply Good.flashWf)
      | (with_reducible apply Good.hostWf)
      | (with_reducible apply good_setDram)
      | (with_reducible apply good_ite)
      | (with_reducible apply good_ite_snd)
      | (with_reducible apply good_foldl)
      | rfl
      | dsimp only
      | split

theorem State.dmaD2h_good {q : List Instr} {s0 : State} {i : Nat} {err : Option Nat} (h : Good q s0) :
    Good q (State.dmaD2h s0 i err) := by
  unfold State.dmaD2h
  repeat'
    first
      | with_reducible assumption
      | (intro _)
      | (with_reducible apply State.withDesc_good)
      | (with_reducible apply State.hostPut_good)
      | (with_reducible apply State.descDone_good)
      | (with_reducible apply State.pcieErr_good)
      | (with_reducible apply good_ite)
      | (with_reducible apply good_ite_snd)
      | (with_reducible apply good_foldl)
      | rfl
      | dsimp only
      | split

theorem State.dmaSample_good {q : List Instr} {s0 : State} {i : Nat} (h : Good q s0) :
    Good q (State.dmaSample s0 i) := by
  unfold State.dmaSample
  repeat'
    first
      | with_reducible assumption
      | (intro _)
      | (with_reducible apply State.withDesc_good)
      | (with_reducible apply State.descDone_good)
      | (with_reducible apply State.hostPut_good)
      | (with_reducible apply State.setSw_good)
      | (with_reducible apply good_ite)
      | (with_reducible apply good_ite_snd)
      | (with_reducible apply good_foldl)
      | rfl
      | dsimp only
      | split

theorem State.auxWrite_good {q : List Instr} {s : State} {i : Nat} {v : Nat} (h : Good q s) :
    Good q (State.auxWrite s i v) := by
  unfold State.auxWrite
  repeat'
    first
      | with_reducible assumption
      | (intro _)
      | (with_reducible apply State.setRing_good)
      | (with_reducible apply good_fset)
      | (with_reducible apply good_ite)
      | (with_reducible apply good_ite_snd)
      | (with_reducible apply good_foldl)
      | rfl

theorem State.talSkip_good {q : List Instr} {s : State} {i : Nat} (h : Good q s) :
    Good q (State.talSkip s i) := by
  unfold State.talSkip
  repeat'
    first
      | with_reducible assumption
      | (intro _)
      | (with_reducible apply State.setRing_good)
      | (with_reducible apply good_fset)
      | (with_reducible apply good_cntAdd)
      | (with_reducible apply good_ite)
      | (with_reducible apply good_ite_snd)
      | (with_reducible apply good_foldl)
      | rfl

theorem State.talCopy_good {q : List Instr} {s : State} {i n : Nat} (h : Good q s) : Good q (s.talCopy i n) := by
  induction n with
  | zero => exact h
  | succ k ih =>
    rw [State.talCopy]
    exact State.setRing_good (good_fset (State.hostPut_good ih) rfl)

theorem State.dmaTally_good {q : List Instr} {s0 : State} {i : Nat} (h : Good q s0) :
    Good q (State.dmaTally s0 i) := by
  unfold State.dmaTally
  repeat'
    first
      | with_reducible assumption
      | (intro _)
      | (with_reducible apply State.withDesc_good)
      | (with_reducible apply State.descDone_good)
      | (with_reducible apply State.talSkip_good)
      | (with_reducible apply State.talCopy_good)
      | (with_reducible apply State.setRing_good)
      | (with_reducible apply good_ite)

theorem State.dmaTallyTimeout_good {q : List Instr} {s : State} {i : Nat} (h : Good q s) :
    Good q (State.dmaTallyTimeout s i) := by
  unfold State.dmaTallyTimeout
  repeat'
    first
      | with_reducible assumption
      | (intro _)
      | (with_reducible apply State.descDone_good)
      | (with_reducible apply good_ite)
      | (with_reducible apply good_ite_snd)
      | (with_reducible apply good_foldl)
      | rfl
      | dsimp only
      | split

theorem State.dmaLaunch_good {q : List Instr} {s0 : State} {i : Nat} {err : Bool} (h : Good q s0) :
    Good q (State.dmaLaunch s0 i err) := by
  unfold State.dmaLaunch
  repeat'
    first
      | with_reducible assumption
      | (intro _)
      | (with_reducible apply State.withDesc_good)
      | (with_reducible apply State.descDone_good)
      | (with_reducible apply State.pcieErr_good)
      | (with_reducible apply State.launchOffer_good)
      | (with_reducible refine State.launchOffer_good_eq (by with_reducible assumption) ?_)
      | (with_reducible apply good_ite)
      | (with_reducible apply good_ite_snd)
      | (with_reducible apply good_foldl)
      | rfl
      | dsimp only
      | split

theorem State.dmaTrig_good {q : List Instr} {s : State} {i : Nat} (h : Good q s) :
    Good q (State.dmaTrig s i) := by
  unfold State.dmaTrig
  repeat'
    first
      | with_reducible assumption
      | (intro _)
      | (with_reducible refine State.takeGroup_good (by with_reducible assumption) ?_)
      | (with_reducible apply State.setRing_good)
      | (with_reducible apply good_cntAdd)
      | (with_reducible apply good_ite)
      | (with_reducible apply good_ite_snd)
      | (with_reducible apply good_foldl)
      | rfl
      | dsimp only
      | split

theorem State.ringDisable_good {q : List Instr} {s : State} {i : Nat} (h : Good q s) :
    Good q (State.ringDisable s i) := by
  unfold State.ringDisable
  repeat'
    first
      | with_reducible assumption
      | (intro _)
      | (with_reducible apply State.descDone_good)
      | (with_reducible apply State.setRing_good)
      | (with_reducible apply good_fset)
      | (with_reducible apply good_ite)
      | (with_reducible apply good_ite_snd)
      | (with_reducible apply good_foldl)
      | rfl

theorem State.ringEnable_good {q : List Instr} {s : State} {i : Nat} (h : Good q s) :
    Good q (State.ringEnable s i) := by
  unfold State.ringEnable
  repeat'
    first
      | with_reducible assumption
      | (intro _)
      | (with_reducible apply State.setRing_good)
      | (with_reducible apply good_fset)
      | (with_reducible apply good_ite)
      | (with_reducible apply good_ite_snd)
      | (with_reducible apply good_foldl)
      | rfl

theorem State.ringTailWrite_good {q : List Instr} {s : State} {i : Nat} {v : Nat} (h : Good q s) :
    Good q (State.ringTailWrite s i v) := by
  unfold State.ringTailWrite
  repeat'
    first
      | with_reducible assumption
      | (intro _)
      | (with_reducible apply State.setRing_good)
      | (with_reducible apply good_fset)
      | (with_reducible apply good_fon)
      | (with_reducible apply good_ite)
      | (with_reducible apply good_ite_snd)
      | (with_reducible apply good_foldl)
      | rfl

theorem State.flr_good {q : List Instr} {s : State} (h : Good q s) :
    Good q (State.flr s) := by
  have h1 : Good q { s with regs := s.regs.keep fun k => !flrResets k.r } := good_keep (fun k => !flrResets k.r) h rfl rfl rfl rfl rfl
  unfold State.flr
  refine good_ite h ?_
  dsimp only
  exact State.resetCause_good (good_ite (good_cnt64 (State.setHost_good h1) rfl) (State.setHost_good h1)) (by decide)

end Sys2Proof.Machine
end

