-- ==== Sys2Proof/Laws/SoundBusMap.lean ====
section
/-! SUPPORT. Each operation of BusMap keeps a state sound and its queue. -/

namespace Sys2Proof.Machine

theorem State.latchSet_good {q : List Instr} {s : State} {x1 : Requester} {k : RegKey} {v : Nat} (h : Good q s) :
    Good q (State.latchSet s x1 k v) := by
  exact h.same rfl rfl rfl rfl rfl

theorem State.stageSet_good {q : List Instr} {s : State} {x1 : Requester} {k : RegKey} {v : Nat} (h : Good q s) :
    Good q (State.stageSet s x1 k v) := by
  exact h.same rfl rfl rfl rfl rfl

end Sys2Proof.Machine
end

