-- ==== Sys2Proof/Laws/SoundBusRead.lean ====
section
/-! SUPPORT. Each operation of BusRead keeps a state sound and its queue. -/

namespace Sys2Proof.Machine

theorem Reg.ordered (r : Reg) : (r.info.flds.all fun f => decide (f.lo ≤ f.hi)) = true := by
  cases r <;> decide +kernel

theorem Reg.ordered_mem {r : Reg} {f : FldDef} (h : f ∈ r.info.flds) : f.lo ≤ f.hi := by
  simpa using List.all_eq_true.mp (Reg.ordered r) f h

theorem clearRc_bit {fs : List FldDef} {v b : Nat} (h : ∀ f ∈ fs, f.lo ≤ f.hi ∧ (b < f.lo ∨ f.hi < b)) : bit (clearRc fs v) b = bit v b := by
  unfold clearRc
  induction fs generalizing v with
  | nil => rfl
  | cons f t ih =>
    obtain ⟨h1, h2⟩ := h f (by simp)
    rw [List.foldl_cons, ih fun g hg => h g (by simp [hg])]
    split
    · exact bit_setBits_out h1 h2
    · rfl

theorem State.rcClear_good {q : List Instr} {s : State} {k : RegKey} (h : Good q s) : Good q (s.rcClear k) := by
  unfold State.rcClear
  refine good_ite (good_rset h fun ha b hb => ?_) h
  rw [clearRc_bit fun f hf => ⟨Reg.ordered_mem hf, hb f hf⟩]
  exact h.sound.reserved k b ha hb

theorem State.memIndexNext_good {q : List Instr} {s : State} {d : Nat} (h : Good q s) :
    Good q (State.memIndexNext s d) := by
  unfold State.memIndexNext
  repeat'
    first
      | with_reducible assumption
      | (intro _)
      | (with_reducible apply good_fset)
      | (with_reducible apply good_ite)
      | (with_reducible apply good_ite_snd)
      | (with_reducible apply good_foldl)
      | rfl

theorem State.regRead_good {q : List Instr} {s : State} {x1 : Requester} {k : RegKey} (h : Good q s) :
    Good q (State.regRead s x1 k).2 := by
  unfold State.regRead
  repeat'
    first
      | with_reducible assumption
      | (intro _)
      | (with_reducible apply State.rdqPop_good)
      | (with_reducible refine State.rdqPop_good_eq (by with_reducible assumption) ?_)
      | (with_reducible apply State.tsfPop_good)
      | (with_reducible refine State.tsfPop_good_eq (by with_reducible assumption) ?_)
      | (with_reducible apply State.memIndexNext_good)
      | (with_reducible apply State.rcClear_good)
      | (with_reducible apply good_ite)
      | (with_reducible apply good_ite_snd)
      | (with_reducible apply good_foldl)
      | rfl
      | dsimp only
      | split

theorem State.regRead_good_eq {q : List Instr} {s : State} {x1 : Requester} {k : RegKey} {a_ : _} {t_ : State} (he : State.regRead s x1 k = (a_, t_)) (h : Good q s) : Good q t_ := by
  have : Good q (State.regRead s x1 k).2 := State.regRead_good h
  rw [he] at this
  exact this

theorem State.wordRead_good {q : List Instr} {s : State} {x1 : Requester} {k : RegKey} {w : Nat} (h : Good q s) :
    Good q (State.wordRead s x1 k w).2 := by
  unfold State.wordRead
  repeat'
    first
      | with_reducible assumption
      | (intro _)
      | (with_reducible apply State.regRead_good)
      | (with_reducible refine State.regRead_good_eq (by with_reducible assumption) ?_)
      | (with_reducible apply State.latchSet_good)
      | (with_reducible apply good_ite)
      | (with_reducible apply good_ite_snd)

theorem State.wordRead_good_eq {q : List Instr} {s : State} {x1 : Requester} {k : RegKey} {w : Nat} {a_ : _} {t_ : State} (he : State.wordRead s x1 k w = (a_, t_)) (h : Good q s) : Good q t_ := by
  have : Good q (State.wordRead s x1 k w).2 := State.wordRead_good h
  rw [he] at this
  exact this

theorem State.busReadWord_good {q : List Instr} {s : State} {x1 : Requester} {a : Nat} (h : Good q s) :
    Good q (State.busReadWord s x1 a).2.2 := by
  unfold State.busReadWord
  repeat'
    first
      | with_reducible assumption
      | (intro _)
      | (with_reducible apply State.wordRead_good)
      | (with_reducible refine State.wordRead_good_eq (by with_reducible assumption) ?_)
      | (with_reducible apply good_ite)
      | (with_reducible apply good_ite_snd)
      | (with_reducible apply good_foldl)
      | rfl
      | dsimp only
      | split

theorem State.busRead_good {q : List Instr} {s : State} {x1 : Requester} {a : Nat} (h : Good q s) :
    Good q (State.busRead s x1 a) := by
  unfold State.busRead
  repeat'
    first
      | with_reducible assumption
      | (intro _)
      | (with_reducible apply State.busReadWord_good)
      | (with_reducible apply State.setResp_good)

theorem State.busFrom_good {q : List Instr} {s : State} {x1 : Requester} {r : Reg} {i : Nat} {j : Nat} {k : Nat} (h : Good q s) :
    Good q (State.busFrom s x1 r i j k) := by
  unfold State.busFrom
  repeat'
    first
      | with_reducible assumption
      | (intro _)
      | (with_reducible apply State.busRead_good)

end Sys2Proof.Machine
end

