-- ==== Sys2Proof/Laws/SoundBusField.lean ====
section
/-! SUPPORT. Each operation of BusField keeps a state sound and its queue. -/

namespace Sys2Proof.Machine

theorem State.wrErr_good {q : List Instr} {s : State} {k : RegKey} (h : Good q s) :
    Good q (State.wrErr s k) := by
  unfold State.wrErr
  repeat'
    first
      | with_reducible assumption
      | (intro _)
      | (with_reducible apply good_fon)
      | (with_reducible apply good_ite)
      | (with_reducible apply good_ite_snd)
      | (with_reducible apply good_foldl)
      | rfl
      | dsimp only
      | split

theorem State.wrErrIf_good {q : List Instr} {s : State} {c : Bool} {k : RegKey} (h : Good q s) :
    Good q (State.wrErrIf s c k) := by
  unfold State.wrErrIf
  repeat'
    first
      | with_reducible assumption
      | (intro _)
      | (with_reducible apply State.wrErr_good)
      | (with_reducible apply good_ite)

theorem fieldWrite_bit {lock : Bool} {hw v b : Nat} {a : Nat × Bool} {f : FldDef} (h1 : f.lo ≤ f.hi) (h2 : b < f.lo ∨ f.hi < b) :
    bit (fieldWrite lock hw v a f).1 b = bit a.1 b := by
  unfold fieldWrite
  cases f.acc <;> dsimp only <;> (try split) <;> (try split) <;> first | rfl | exact bit_setBits_out h1 h2

theorem fieldsWrite_bit {fs : List FldDef} {old hw v b : Nat} (h : ∀ f ∈ fs, f.lo ≤ f.hi ∧ (b < f.lo ∨ f.hi < b)) :
    bit (fieldsWrite fs old hw v).1 b = bit old b := by
  unfold fieldsWrite
  generalize ((fs.any fun f => decide (f.acc = .rwl)) && bit old 31) = lock
  have key : ∀ (l : List FldDef) (a : Nat × Bool), (∀ f ∈ l, f.lo ≤ f.hi ∧ (b < f.lo ∨ f.hi < b)) →
      bit (l.foldl (fieldWrite lock hw v) a).1 b = bit a.1 b := by
    intro l
    induction l with
    | nil => intro a _; rfl
    | cons f t ih =>
      intro a hl
      obtain ⟨h1, h2⟩ := hl f (by simp)
      rw [List.foldl_cons, ih _ fun g hg => hl g (by simp [hg])]
      exact fieldWrite_bit h1 h2
  exact key fs _ h

theorem State.store_good {q : List Instr} {s : State} {k : RegKey} {v : Nat} (h : Good q s) : Good q (s.store k v) := by
  have key : Good q (s.rset k (fieldsWrite k.r.info.flds (s.rget k) (s.hwMask k) v).1) := by
    refine good_rset h fun ha b hb => ?_
    rw [fieldsWrite_bit fun f hf => ⟨Reg.ordered_mem hf, hb f hf⟩]
    exact h.sound.reserved k b ha hb
  unfold State.store
  exact good_ite (State.wrErr_good (good_ite key h)) key

theorem State.storeY48_good {q : List Instr} {s : State} {k : RegKey} {v : Nat} {neg : Bool} (h : Good q s) (hc : k.r.covers 48 = true) :
    Good q (s.storeY48 k v neg) := by
  unfold State.storeY48
  exact good_ite (State.wrErr_good h) (good_rset_low 48 h hc (bitsOf_lt _ _))

theorem State.storeHeld_good {q : List Instr} {s : State} {k : RegKey} {v : Nat} {c : Bool} {fs : List Fld} (h : Good q s) :
    Good q (State.storeHeld s k v c fs) := by
  unfold State.storeHeld
  repeat'
    first
      | with_reducible assumption
      | (intro _)
      | (with_reducible apply State.wrErrIf_good)
      | (with_reducible apply State.store_good)

end Sys2Proof.Machine
end

