-- ==== Sys2Proof/Laws/SoundBusEo.lean ====
section
/-! SUPPORT. Each operation of BusEo keeps a state sound and its queue. -/

namespace Sys2Proof.Machine

theorem State.wrEoCtl_good {q : List Instr} {s : State} {n : Nat} {v : Nat} (h : Good q s) :
    Good q (State.wrEoCtl s n v) := by
  unfold State.wrEoCtl
  repeat'
    first
      | with_reducible assumption
      | (intro _)
      | (with_reducible apply State.storeHeld_good)
      | (with_reducible apply State.eoDisableCh_good)
      | (with_reducible apply State.eoEnableCh_good)
      | (with_reducible apply State.setEo_good)
      | (with_reducible apply good_fset)
      | (with_reducible apply good_ite)
      | (with_reducible apply good_ite_snd)
      | (with_reducible apply good_foldl)
      | rfl

theorem State.wrTrigCtl_good {q : List Instr} {s : State} {n : Nat} {v : Nat} (h : Good q s) :
    Good q (State.wrTrigCtl s n v) := by
  unfold State.wrTrigCtl
  repeat'
    first
      | with_reducible assumption
      | (intro _)
      | (with_reducible apply State.store_good)

theorem State.wrBank_good {q : List Instr} {s : State} {b : Nat} {v : Nat} (h : Good q s) :
    Good q (State.wrBank s b v) := by
  unfold State.wrBank
  repeat'
    first
      | with_reducible assumption
      | (intro _)
      | (with_reducible apply State.store_good)
      | (with_reducible apply State.bankDown_good)
      | (with_reducible apply State.bankUp_good)
      | (with_reducible apply good_ite)

theorem State.wrEoSeg_good {q : List Instr} {s : State} {k : RegKey} {v : Nat} (h : Good q s) :
    Good q (State.wrEoSeg s k v) := by
  unfold State.wrEoSeg
  repeat'
    first
      | with_reducible assumption
      | (intro _)
      | (with_reducible apply State.wrErr_good)
      | (with_reducible apply State.store_good)
      | (with_reducible apply good_ite)

theorem State.wrTiuCtl_good {q : List Instr} {s : State} {u : Nat} {v : Nat} (h : Good q s) :
    Good q (State.wrTiuCtl s u v) := by
  unfold State.wrTiuCtl
  repeat'
    first
      | with_reducible assumption
      | (intro _)
      | (with_reducible apply State.storeHeld_good)
      | (with_reducible apply State.tiuModeChanged_good)
      | (with_reducible apply good_ite)

theorem State.wrTiuArm_good {q : List Instr} {s : State} {u : Nat} {v : Nat} (h : Good q s) :
    Good q (State.wrTiuArm s u v) := by
  unfold State.wrTiuArm
  repeat'
    first
      | with_reducible assumption
      | (intro _)
      | (with_reducible apply State.store_good)
      | (with_reducible apply State.wrErr_good)
      | (with_reducible apply State.tiuArmWith_good)
      | (with_reducible apply State.tiuDisarmWith_good)
      | (with_reducible apply good_ite)

theorem State.wrTiuFreq_good {q : List Instr} {s : State} {u : Nat} {v : Nat} (h : Good q s) :
    Good q (State.wrTiuFreq s u v) := by
  unfold State.wrTiuFreq
  repeat'
    first
      | with_reducible assumption
      | (intro _)
      | (with_reducible apply State.store_good)
      | (with_reducible apply State.setTiu_good)
      | (with_reducible apply good_ite)

theorem State.wrTiuOfs_good {q : List Instr} {s : State} {k : RegKey} {v : Nat} (h : Good q s) :
    Good q (State.wrTiuOfs s k v) := by
  unfold State.wrTiuOfs
  repeat'
    first
      | with_reducible assumption
      | (intro _)
      | (with_reducible apply State.wrErr_good)
      | (with_reducible apply State.store_good)
      | (with_reducible apply good_ite)

theorem State.wrTalCtl_good {q : List Instr} {s : State} {v : Nat} (h : Good q s) :
    Good q (State.wrTalCtl s v) := by
  unfold State.wrTalCtl
  repeat'
    first
      | with_reducible assumption
      | (intro _)
      | (with_reducible apply State.storeHeld_good)
      | (with_reducible apply State.talStart_good)
      | (with_reducible apply State.wrErr_good)
      | (with_reducible apply State.talStop_good)
      | (with_reducible apply State.talTrigger_good)
      | (with_reducible apply good_ite)

theorem State.wrTalRing_good {q : List Instr} {s : State} {k : RegKey} {v : Nat} (h : Good q s) :
    Good q (State.wrTalRing s k v) := by
  unfold State.wrTalRing
  repeat'
    first
      | with_reducible assumption
      | (intro _)
      | (with_reducible apply State.wrErr_good)
      | (with_reducible apply State.store_good)
      | (with_reducible apply good_ite)

theorem State.chGuard_good {q : List Instr} {s : State} {x1 : Requester} {c : Nat} {f : State → State} (h : Good q s) (hf : ∀ st, Good q st → Good q (f st)) :
    Good q (State.chGuard s x1 c f) := by
  unfold State.chGuard
  repeat'
    first
      | with_reducible assumption
      | (intro _)
      | (with_reducible apply hf)
      | (with_reducible apply State.ownRefused_good)
      | (with_reducible apply good_fon)
      | (with_reducible apply good_ite)
      | (with_reducible apply good_ite_snd)
      | (with_reducible apply good_foldl)
      | rfl

theorem State.wrChCfg_good {q : List Instr} {s : State} {c : Nat} {v : Nat} (h : Good q s) :
    Good q (State.wrChCfg s c v) := by
  unfold State.wrChCfg
  repeat'
    first
      | with_reducible assumption
      | (intro _)
      | (with_reducible apply State.storeHeld_good)
      | (with_reducible apply State.chEnable_good)
      | (with_reducible apply State.chDisable_good)
      | (with_reducible apply good_ite)

theorem State.wrChSrc_good {q : List Instr} {s : State} {c : Nat} {v : Nat} (h : Good q s) :
    Good q (State.wrChSrc s c v) := by
  unfold State.wrChSrc
  repeat'
    first
      | with_reducible assumption
      | (intro _)
      | (with_reducible apply State.storeHeld_good)

theorem State.wrConSel_good {q : List Instr} {s : State} {x1 : Requester} {x : Nat} {v : Nat} (h : Good q s) :
    Good q (State.wrConSel s x1 x v) := by
  unfold State.wrConSel
  repeat'
    first
      | with_reducible assumption
      | (intro _)
      | (with_reducible apply State.ownRefused_good)
      | (with_reducible apply State.wrErrIf_good)
      | (with_reducible apply State.storeHeld_good)
      | (with_reducible apply State.defer_good)
      | (with_reducible apply good_fon)
      | (with_reducible apply good_ite)
      | (with_reducible apply good_ite_snd)
      | (with_reducible apply good_foldl)
      | rfl
      | dsimp only
      | split

theorem State.wrDwCtl_good {q : List Instr} {s : State} {v : Nat} (h : Good q s) :
    Good q (State.wrDwCtl s v) := by
  unfold State.wrDwCtl
  repeat'
    first
      | with_reducible assumption
      | (intro _)
      | (with_reducible apply State.store_good)
      | (with_reducible apply good_fon)
      | (with_reducible apply good_ite)
      | (with_reducible apply good_ite_snd)
      | (with_reducible apply good_foldl)
      | rfl

theorem State.wrSwf_good {q : List Instr} {s : State} {v : Nat} (h : Good q s) :
    Good q (State.wrSwf s v) := by
  unfold State.wrSwf
  repeat'
    first
      | with_reducible assumption
      | (intro _)
      | (with_reducible apply State.raiseEv_good)
      | (with_reducible apply good_ite)
      | (with_reducible apply good_ite_snd)
      | (with_reducible apply good_foldl)

theorem State.wrFlCtl_good {q : List Instr} {s : State} {f : Nat} {v : Nat} (h : Good q s) :
    Good q (State.wrFlCtl s f v) := by
  unfold State.wrFlCtl
  repeat'
    first
      | with_reducible assumption
      | (intro _)
      | (with_reducible apply State.flockSet_good)
      | (with_reducible apply State.store_good)

theorem State.wrTmrCtl_good {q : List Instr} {s : State} {i : Nat} {v : Nat} (h : Good q s) :
    Good q (State.wrTmrCtl s i v) := by
  unfold State.wrTmrCtl
  repeat'
    first
      | with_reducible assumption
      | (intro _)
      | (with_reducible apply State.store_good)
      | (with_reducible apply State.tmrEnable_good)
      | (with_reducible apply good_ite)

theorem State.wrTmrPar_good {q : List Instr} {s : State} {k : RegKey} {v : Nat} (h : Good q s) :
    Good q (State.wrTmrPar s k v) := by
  unfold State.wrTmrPar
  repeat'
    first
      | with_reducible assumption
      | (intro _)
      | (with_reducible apply State.wrErr_good)
      | (with_reducible apply State.store_good)
      | (with_reducible apply good_ite)

theorem State.wrDrvCtl_good {q : List Instr} {s : State} {d : Nat} {v : Nat} (h : Good q s) :
    Good q (State.wrDrvCtl s d v) := by
  unfold State.wrDrvCtl
  repeat'
    first
      | with_reducible assumption
      | (intro _)
      | (with_reducible apply State.store_good)
      | (with_reducible apply State.resetDrover_good)
      | (with_reducible apply good_ite)

theorem State.wrDrvProg_good {q : List Instr} {s : State} {d : Nat} {v : Nat} (h : Good q s) :
    Good q (State.wrDrvProg s d v) := by
  unfold State.wrDrvProg
  repeat'
    first
      | with_reducible assumption
      | (intro _)
      | (with_reducible apply State.wrErr_good)
      | (with_reducible apply State.store_good)
      | (with_reducible apply State.setDrv_good)
      | (with_reducible apply good_ite)

theorem State.wrMemAddr_good {q : List Instr} {s : State} {d : Nat} {v : Nat} (h : Good q s) :
    Good q (State.wrMemAddr s d v) := by
  unfold State.wrMemAddr
  repeat'
    first
      | with_reducible assumption
      | (intro _)
      | (with_reducible apply State.store_good)
      | (with_reducible apply State.wrErr_good)
      | (with_reducible apply State.storeHeld_good)
      | (with_reducible apply good_ite)

theorem State.wrMemData_good {q : List Instr} {s : State} {d : Nat} {v : Nat} (h : Good q s) :
    Good q (State.wrMemData s d v) := by
  unfold State.wrMemData
  repeat'
    first
      | with_reducible assumption
      | (intro _)
      | (with_reducible apply State.memIndexNext_good)
      | (with_reducible apply State.setDrv_good)
      | (with_reducible apply State.wrErr_good)
      | (with_reducible apply good_ite)

theorem State.wrTaskA_good {q : List Instr} {s : State} {k : RegKey} {v : Nat} (h : Good q s) :
    Good q (State.wrTaskA s k v) := by
  unfold State.wrTaskA
  repeat'
    first
      | with_reducible assumption
      | (intro _)
      | (with_reducible apply State.setTask_good)
      | (with_reducible apply State.wrErr_good)
      | (with_reducible apply good_ite)

theorem State.wrTaskT_good {q : List Instr} {s : State} {k : RegKey} {v : Nat} (h : Good q s) :
    Good q (State.wrTaskT s k v) := by
  unfold State.wrTaskT
  repeat'
    first
      | with_reducible assumption
      | (intro _)
      | (with_reducible apply State.setTask_good)
      | (with_reducible apply State.wrErr_good)
      | (with_reducible apply good_ite)
      | (with_reducible apply good_ite_snd)
      | (with_reducible apply good_foldl)
      | rfl
      | dsimp only
      | split

theorem State.wrTaskCtl_good {q : List Instr} {s : State} {k : RegKey} {v : Nat} (h : Good q s) :
    Good q (State.wrTaskCtl s k v) := by
  unfold State.wrTaskCtl
  repeat'
    first
      | with_reducible assumption
      | (intro _)
      | (with_reducible apply State.taskControl_good)
      | (with_reducible apply State.store_good)

end Sys2Proof.Machine
end

