-- ==== Sys2Proof/Laws/SoundBusSys.lean ====
section
/-! SUPPORT. Each operation of BusSys keeps a state sound and its queue. -/

namespace Sys2Proof.Machine

theorem State.wrBlkRst_good {q : List Instr} {s : State} {v : Nat} (h : Good q s) :
    Good q (State.wrBlkRst s v) := by
  unfold State.wrBlkRst
  exact good_foldl_mem h fun st b hb hst => good_ite (State.blockReset_good hst (List.mem_range.mp hb)) hst

theorem State.wrFltCtl_good {q : List Instr} {s : State} {v : Nat} (h : Good q s) :
    Good q (State.wrFltCtl s v) := by
  unfold State.wrFltCtl
  repeat'
    first
      | with_reducible assumption
      | (intro _)
      | (with_reducible apply State.store_good)
      | (with_reducible apply State.wdogRestart_good)
      | (with_reducible apply good_ite)

theorem State.wrSupWin_good {q : List Instr} {s : State} {k : RegKey} {v : Nat} (h : Good q s) :
    Good q (State.wrSupWin s k v) := by
  unfold State.wrSupWin
  repeat'
    first
      | with_reducible assumption
      | (intro _)
      | (with_reducible apply State.wrErrIf_good)
      | (with_reducible apply State.storeHeld_good)

theorem State.wrBbrCtl_good {q : List Instr} {s : State} {v : Nat} (h : Good q s) :
    Good q (State.wrBbrCtl s v) := by
  unfold State.wrBbrCtl
  repeat'
    first
      | with_reducible assumption
      | (intro _)
      | (with_reducible apply State.store_good)
      | (with_reducible apply State.bbrTrigger_good)
      | (with_reducible apply State.bbrRearm_good)
      | (with_reducible apply good_ite)

theorem State.wrBbrLen_good {q : List Instr} {s : State} {k : RegKey} {v : Nat} (h : Good q s) :
    Good q (State.wrBbrLen s k v) := by
  unfold State.wrBbrLen
  repeat'
    first
      | with_reducible assumption
      | (intro _)
      | (with_reducible apply State.store_good)
      | (with_reducible apply State.wrErr_good)
      | (with_reducible apply good_ite)

theorem State.wrRingPar_good {q : List Instr} {s : State} {k : RegKey} {v : Nat} (h : Good q s) :
    Good q (State.wrRingPar s k v) := by
  unfold State.wrRingPar
  repeat'
    first
      | with_reducible assumption
      | (intro _)
      | (with_reducible apply State.wrErr_good)
      | (with_reducible apply State.store_good)
      | (with_reducible apply good_ite)

theorem State.ringCfgWrite_good {q : List Instr} {s : State} {i : Nat} {v : Nat} (h : Good q s) :
    Good q (State.ringCfgWrite s i v) := by
  unfold State.ringCfgWrite
  repeat'
    first
      | with_reducible assumption
      | (intro _)
      | (with_reducible apply State.ringDisable_good)
      | (with_reducible apply State.storeHeld_good)
      | (with_reducible apply State.ringEnable_good)
      | (with_reducible apply good_fon)
      | (with_reducible apply good_ite)
      | (with_reducible apply good_ite_snd)
      | (with_reducible apply good_foldl)
      | rfl

theorem State.wrMsix_good {q : List Instr} {s : State} {i : Nat} {v : Nat} (h : Good q s) :
    Good q (State.wrMsix s i v) := by
  unfold State.wrMsix
  repeat'
    first
      | with_reducible assumption
      | (intro _)
      | (with_reducible apply State.store_good)
      | (with_reducible apply State.msixMessage_good)
      | (with_reducible apply good_fset)
      | (with_reducible apply good_ite)
      | (with_reducible apply good_ite_snd)
      | (with_reducible apply good_foldl)
      | rfl

theorem State.wrMac_good {q : List Instr} {s : State} {k : RegKey} {v : Nat} (h : Good q s) :
    Good q (State.wrMac s k v) := by
  unfold State.wrMac
  repeat'
    first
      | with_reducible assumption
      | (intro _)
      | (with_reducible apply State.macTouch_good)
      | (with_reducible apply State.store_good)

theorem State.wrSample_good {q : List Instr} {s : State} {p : Nat} {v : Nat} (h : Good q s) :
    Good q (State.wrSample s p v) := by
  unfold State.wrSample
  repeat'
    first
      | with_reducible assumption
      | (intro _)
      | (with_reducible apply State.store_good)
      | (with_reducible apply State.setSwPort_good)

theorem State.wrFrr_good {q : List Instr} {s : State} {p : Nat} {v : Nat} (h : Good q s) :
    Good q (State.wrFrr s p v) := by
  unfold State.wrFrr
  repeat'
    first
      | with_reducible assumption
      | (intro _)
      | (with_reducible apply State.frrWritten_good)
      | (with_reducible apply State.wrErrIf_good)
      | (with_reducible apply State.storeHeld_good)

theorem State.wrHr_good {q : List Instr} {s : State} {x1 : Requester} {k : RegKey} {v : Nat} (h : Good q s) :
    Good q (State.wrHr s x1 k v) := by
  unfold State.wrHr
  repeat'
    first
      | with_reducible assumption
      | (intro _)
      | (with_reducible apply State.wrErr_good)
      | (with_reducible apply State.padReserve_hr_good)
      | (with_reducible apply State.padReserve_gmin_good)
      | (with_reducible apply good_ite)
      | (with_reducible apply good_ite_snd)
      | (with_reducible apply good_foldl)
      | rfl
      | dsimp only
      | split
      | omega

theorem State.wrGclCtl_good {q : List Instr} {s : State} {p : Nat} {v : Nat} (h : Good q s) :
    Good q (State.wrGclCtl s p v) := by
  unfold State.wrGclCtl
  repeat'
    first
      | with_reducible assumption
      | (intro _)
      | (with_reducible apply State.store_good)
      | (with_reducible apply State.gclChange_good)
      | (with_reducible apply good_ite)

theorem State.wrPreempt_good {q : List Instr} {s : State} {p : Nat} {v : Nat} (h : Good q s) :
    Good q (State.wrPreempt s p v) := by
  unfold State.wrPreempt
  repeat'
    first
      | with_reducible assumption
      | (intro _)
      | (with_reducible apply State.preemptNow_good)
      | (with_reducible apply State.storeHeld_good)

theorem State.wrFl_good {q : List Instr} {s : State} {p : Nat} {v : Nat} (h : Good q s) :
    Good q (State.wrFl s p v) := by
  unfold State.wrFl
  repeat'
    first
      | with_reducible assumption
      | (intro _)
      | (with_reducible apply State.store_good)
      | (with_reducible apply good_ite)

end Sys2Proof.Machine
end

