-- ==== Sys2Proof/Laws/SoundBusTime.lean ====
section
/-! SUPPORT. Each operation of BusTime keeps a state sound and its queue. -/

namespace Sys2Proof.Machine

theorem State.wrTbCtl_good {q : List Instr} {s : State} {v : Nat} (h : Good q s) :
    Good q (State.wrTbCtl s v) := by
  unfold State.wrTbCtl
  repeat'
    first
      | with_reducible assumption
      | (intro _)
      | (with_reducible apply State.store_good)
      | (with_reducible apply State.ncoSrcChanged_good)
      | (with_reducible apply good_ite)

theorem State.wrCsyn_good {q : List Instr} {s : State} {v : Nat} (h : Good q s) :
    Good q (State.wrCsyn s v) := by
  unfold State.wrCsyn
  repeat'
    first
      | with_reducible assumption
      | (intro _)
      | (with_reducible apply State.wrErrIf_good)
      | (with_reducible apply State.storeHeld_good)
      | (with_reducible apply State.csynWritten_good)
      | (with_reducible apply good_ite)

theorem State.wrOsynCtl_good {q : List Instr} {s : State} {i : Nat} {v : Nat} (h : Good q s) :
    Good q (State.wrOsynCtl s i v) := by
  unfold State.wrOsynCtl
  repeat'
    first
      | with_reducible assumption
      | (intro _)
      | (with_reducible apply State.store_good)
      | (with_reducible apply State.osynOff_good)
      | (with_reducible apply good_fset)
      | (with_reducible apply good_ite)
      | (with_reducible apply good_ite_snd)
      | (with_reducible apply good_foldl)
      | rfl

theorem State.wrOsynSeg_good {q : List Instr} {s : State} {k : RegKey} {v : Nat} (h : Good q s) :
    Good q (State.wrOsynSeg s k v) := by
  unfold State.wrOsynSeg
  repeat'
    first
      | with_reducible assumption
      | (intro _)
      | (with_reducible apply State.wrErr_good)
      | (with_reducible apply State.store_good)
      | (with_reducible apply good_ite)

theorem State.wrBwCtl_good {q : List Instr} {s : State} {v : Nat} (h : Good q s) :
    Good q (State.wrBwCtl s v) := by
  unfold State.wrBwCtl
  repeat'
    first
      | with_reducible assumption
      | (intro _)
      | (with_reducible apply State.bwForce_good)
      | (with_reducible apply State.store_good)

theorem State.wrRefCfg_good {q : List Instr} {s : State} {r : Nat} {v : Nat} (h : Good q s) :
    Good q (State.wrRefCfg s r v) := by
  unfold State.wrRefCfg
  repeat'
    first
      | with_reducible assumption
      | (intro _)
      | (with_reducible apply State.wrErrIf_good)
      | (with_reducible apply State.storeHeld_good)
      | (with_reducible apply State.candConfig_good)
      | (with_reducible apply good_ite)

theorem State.wrRefSw_good {q : List Instr} {s : State} {r : Nat} {v : Nat} (h : Good q s) :
    Good q (State.wrRefSw s r v) := by
  unfold State.wrRefSw
  repeat'
    first
      | with_reducible assumption
      | (intro _)
      | (with_reducible apply State.bwSwCommit_good)
      | (with_reducible apply State.store_good)
      | (with_reducible apply good_ite)

theorem State.wrDomCfg_good {q : List Instr} {s : State} {m : Nat} {v : Nat} (h : Good q s) :
    Good q (State.wrDomCfg s m v) := by
  unfold State.wrDomCfg
  repeat'
    first
      | with_reducible assumption
      | (intro _)
      | (with_reducible apply State.wrErrIf_good)
      | (with_reducible apply State.storeHeld_good)

theorem State.wrSesCfg_good {q : List Instr} {s : State} {i : Nat} {v : Nat} (h : Good q s) :
    Good q (State.wrSesCfg s i v) := by
  unfold State.wrSesCfg
  repeat'
    first
      | with_reducible assumption
      | (intro _)
      | (with_reducible apply State.storeHeld_good)
      | (with_reducible apply State.sesEnable_good)
      | (with_reducible apply State.sesDisable_good)
      | (with_reducible apply good_fset)
      | (with_reducible apply good_ite)
      | (with_reducible apply good_ite_snd)
      | (with_reducible apply good_foldl)
      | rfl

theorem State.wrSesPar_good {q : List Instr} {s : State} {k : RegKey} {v : Nat} (h : Good q s) :
    Good q (State.wrSesPar s k v) := by
  unfold State.wrSesPar
  repeat'
    first
      | with_reducible assumption
      | (intro _)
      | (with_reducible apply State.wrErr_good)
      | (with_reducible apply State.store_good)
      | (with_reducible apply good_ite)

theorem State.lnmReset_good {q : List Instr} {s : State} (h : Good q s) :
    Good q (State.lnmReset s) := by
  unfold State.lnmReset
  repeat'
    first
      | with_reducible assumption
      | (intro _)
      | (with_reducible apply good_fset)
      | (with_reducible apply good_fon)
      | (with_reducible apply good_cnt)
      | (with_reducible apply good_ite)
      | (with_reducible apply good_ite_snd)
      | (with_reducible apply good_foldl)
      | rfl

theorem State.wrLnCtl_good {q : List Instr} {s : State} {j : Nat} {v : Nat} (h : Good q s) :
    Good q (State.wrLnCtl s j v) := by
  unfold State.wrLnCtl
  repeat'
    first
      | with_reducible assumption
      | (intro _)
      | (with_reducible apply State.store_good)
      | (with_reducible apply State.laneReset_good)
      | (with_reducible apply State.lnmReset_good)
      | (with_reducible apply good_ite)

theorem State.wrTxeq_good {q : List Instr} {s : State} {k : RegKey} {v : Nat} (h : Good q s) :
    Good q (State.wrTxeq s k v) := by
  unfold State.wrTxeq
  repeat'
    first
      | with_reducible assumption
      | (intro _)
      | (with_reducible apply State.wrErr_good)
      | (with_reducible apply State.store_good)
      | (with_reducible apply good_ite)

theorem State.wrQuadCtl_good {q : List Instr} {s : State} {x1 : Nat} {v : Nat} (h : Good q s) :
    Good q (State.wrQuadCtl s x1 v) := by
  unfold State.wrQuadCtl
  repeat'
    first
      | with_reducible assumption
      | (intro _)
      | (with_reducible apply State.store_good)
      | (with_reducible apply State.syntChanged_good)
      | (with_reducible apply good_ite)

theorem State.wrPtCfg_good {q : List Instr} {s : State} {p : Nat} {v : Nat} (h : Good q s) :
    Good q (State.wrPtCfg s p v) := by
  unfold State.wrPtCfg
  repeat'
    first
      | with_reducible assumption
      | (intro _)
      | (with_reducible apply State.wrErrIf_good)
      | (with_reducible apply State.storeHeld_good)
      | (with_reducible apply State.ptEnable_good)
      | (with_reducible apply State.ptDisable_good)
      | (with_reducible apply State.restart_good)
      | (with_reducible apply State.setFamily_good)
      | (with_reducible apply good_fset)
      | (with_reducible apply good_fonIf)
      | (with_reducible apply good_ite)
      | (with_reducible apply good_ite_snd)
      | (with_reducible apply good_foldl)
      | (with_reducible apply good_foldl_snd)
      | rfl

theorem State.wrPtTrain_good {q : List Instr} {s : State} {p : Nat} {v : Nat} (h : Good q s) :
    Good q (State.wrPtTrain s p v) := by
  unfold State.wrPtTrain
  repeat'
    first
      | with_reducible assumption
      | (intro _)
      | (with_reducible apply State.store_good)
      | (with_reducible apply State.restart_good)
      | (with_reducible apply good_ite)

end Sys2Proof.Machine
end

