-- ==== Sys2Proof/Laws/SoundBus.lean ====
section
/-! SUPPORT. Each operation of Bus keeps a state sound and its queue. -/

namespace Sys2Proof.Machine

theorem State.commit_good {q : List Instr} {s : State} {x1 : Requester} {k : RegKey} {v : Nat} (h : Good q s) :
    Good q (State.commit s x1 k v) := by
  unfold State.commit
  repeat'
    first
      | with_reducible assumption
      | (intro _)
      | (with_reducible apply State.warmReset_good)
      | (with_reducible apply State.wrBlkRst_good)
      | (with_reducible apply State.wrFltCtl_good)
      | (with_reducible apply State.faultRelease_good)
      | (with_reducible apply State.wdogKick_good)
      | (with_reducible apply State.wrSupWin_good)
      | (with_reducible apply State.wrBbrCtl_good)
      | (with_reducible apply State.wrBbrLen_good)
      | (with_reducible apply State.mbCmdWrite_good)
      | (with_reducible apply State.mbArgWrite_good)
      | (with_reducible apply State.ringCfgWrite_good)
      | (with_reducible apply State.wrRingPar_good)
      | (with_reducible apply State.ringTailWrite_good)
      | (with_reducible apply State.auxWrite_good)
      | (with_reducible apply State.wrMsix_good)
      | (with_reducible apply State.wrTbCtl_good)
      | (with_reducible apply State.ncoSwCommit_good)
      | (with_reducible apply State.tbStepCommit_good)
      | (with_reducible apply State.tbSetCommit_good)
      | (with_reducible apply State.wrCsyn_good)
      | (with_reducible apply State.wrOsynCtl_good)
      | (with_reducible apply State.osynCmd_good)
      | (with_reducible apply State.wrOsynSeg_good)
      | (with_reducible apply State.wrBwCtl_good)
      | (with_reducible apply State.bwRealign_good)
      | (with_reducible apply State.bwUnlock_good)
      | (with_reducible apply State.storeY48_good)
      | (with_reducible apply State.wrRefCfg_good)
      | (with_reducible apply State.wrRefSw_good)
      | (with_reducible apply State.wrEoCtl_good)
      | (with_reducible apply State.qeCommit_good)
      | (with_reducible apply State.teCommit_good)
      | (with_reducible apply State.wrTrigCtl_good)
      | (with_reducible apply State.wrBank_good)
      | (with_reducible apply State.wrEoSeg_good)
      | (with_reducible apply State.wrTiuCtl_good)
      | (with_reducible apply State.wrTiuArm_good)
      | (with_reducible apply State.wrTiuFreq_good)
      | (with_reducible apply State.wrTiuOfs_good)
      | (with_reducible apply State.wrTalCtl_good)
      | (with_reducible apply State.wrTalRing_good)
      | (with_reducible apply State.chGuard_good)
      | (with_reducible apply State.wrChCfg_good)
      | (with_reducible apply State.wrChSrc_good)
      | (with_reducible apply State.store_good)
      | (with_reducible apply State.defer_good)
      | (with_reducible apply State.wrConSel_good)
      | (with_reducible apply State.wrDwCtl_good)
      | (with_reducible apply State.wrSwf_good)
      | (with_reducible apply State.wrFlCtl_good)
      | (with_reducible apply State.wrTmrCtl_good)
      | (with_reducible apply State.wrTmrPar_good)
      | (with_reducible apply State.wrDrvCtl_good)
      | (with_reducible apply State.wrDrvProg_good)
      | (with_reducible apply State.wrMemAddr_good)
      | (with_reducible apply State.wrMemData_good)
      | (with_reducible apply State.wrTaskCtl_good)
      | (with_reducible apply State.wrTaskA_good)
      | (with_reducible apply State.wrTaskT_good)
      | (with_reducible apply State.calCommand_good)
      | (with_reducible apply State.wrErr_good)
      | (with_reducible apply State.wrDomCfg_good)
      | (with_reducible apply State.wrSesCfg_good)
      | (with_reducible apply State.wrSesPar_good)
      | (with_reducible apply State.wrLnCtl_good)
      | (with_reducible apply State.wrTxeq_good)
      | (with_reducible apply State.wrQuadCtl_good)
      | (with_reducible apply State.wrPtCfg_good)
      | (with_reducible apply State.wrPtTrain_good)
      | (with_reducible apply State.wrMac_good)
      | (with_reducible apply State.wrSample_good)
      | (with_reducible apply State.wrFrr_good)
      | (with_reducible apply State.padReserve_hr_good)
      | (with_reducible apply State.padReserve_gmin_good)
      | (with_reducible apply State.wrHr_good)
      | (with_reducible apply State.wrGclCtl_good)
      | (with_reducible apply State.wrPreempt_good)
      | (with_reducible apply State.wrFl_good)
      | (with_reducible apply State.tplCommit_good)
      | (with_reducible apply good_ite)
      | (with_reducible apply good_ite_snd)
      | (with_reducible apply good_foldl)
      | (with_reducible apply good_foldl_snd)
      | rfl
      | dsimp only
      | split
      | omega
      | (rename_i e; rw [e]; rfl)

theorem State.wroteBy_good {q : List Instr} {s : State} {x1 : Requester} {k : RegKey} (h : Good q s) :
    Good q (State.wroteBy s x1 k) := by
  exact h.same rfl rfl rfl rfl rfl

theorem State.commitOf_good {q : List Instr} {s : State} {x1 : Requester} {k : RegKey} {v : Nat} (h : Good q s) :
    Good q (State.commitOf s x1 k v) := by
  unfold State.commitOf
  repeat'
    first
      | with_reducible assumption
      | (intro _)
      | (with_reducible apply State.commit_good)
      | (with_reducible apply State.wroteBy_good)

theorem State.wordWrite_good {q : List Instr} {s : State} {x1 : Requester} {k : RegKey} {w : Nat} {x : Nat} (h : Good q s) :
    Good q (State.wordWrite s x1 k w x) := by
  unfold State.wordWrite
  repeat'
    first
      | with_reducible assumption
      | (intro _)
      | (with_reducible apply State.commitOf_good)
      | (with_reducible apply State.stageSet_good)
      | (with_reducible apply good_ite)

theorem State.busWriteBe_good {q : List Instr} {s : State} {x1 : Requester} {a : Nat} {x : Nat} {be : Nat} (h : Good q s) :
    Good q (State.busWriteBe s x1 a x be) := by
  unfold State.busWriteBe
  repeat'
    first
      | with_reducible assumption
      | (intro _)
      | (with_reducible apply State.wordWrite_good)
      | (with_reducible apply good_fon)
      | (with_reducible apply good_ite)
      | (with_reducible apply good_ite_snd)
      | (with_reducible apply good_foldl)
      | rfl
      | dsimp only
      | split

theorem State.busWrite_good {q : List Instr} {s : State} {x1 : Requester} {a : Nat} {x : Nat} (h : Good q s) :
    Good q (State.busWrite s x1 a x) := by
  unfold State.busWrite
  repeat'
    first
      | with_reducible assumption
      | (intro _)
      | (with_reducible apply State.busWriteBe_good)

theorem State.busTo_good {q : List Instr} {s : State} {x1 : Requester} {r : Reg} {x : Nat} {i : Nat} {j : Nat} {k : Nat} (h : Good q s) :
    Good q (State.busTo s x1 r x i j k) := by
  unfold State.busTo
  repeat'
    first
      | with_reducible assumption
      | (intro _)
      | (with_reducible apply State.busWrite_good)

theorem State.busWords_good {q : List Instr} {x : Requester} {key : RegKey} {v n w : Nat} {s : State} (h : Good q s) :
    Good q (State.busWords x key v n w s) := by
  induction n generalizing w s with
  | zero => exact h
  | succ k ih => exact ih (State.busWrite_good h)

theorem State.busCommit_good {q : List Instr} {s : State} {x1 : Requester} {r : Reg} {i : Nat} {v : Nat} {j : Nat} {k : Nat} (h : Good q s) :
    Good q (State.busCommit s x1 r i v j k) := by
  unfold State.busCommit
  repeat'
    first
      | with_reducible assumption
      | (intro _)
      | (with_reducible apply State.busWords_good)

theorem State.busFld_good {q : List Instr} {s : State} {x1 : Requester} {f : Fld} {data : Nat} {x : Nat} {i : Nat} {j : Nat} (h : Good q s) (hf : f.inside = true) :
    Good q (State.busFld s x1 f data x i j) := by
  unfold State.busFld
  repeat'
    first
      | with_reducible assumption
      | (intro _)
      | (with_reducible apply State.busTo_good)

theorem State.tiuArmCmd_good {q : List Instr} {s : State} {u : Nat} {w : Option (Requester × Nat)} (h : Good q s) :
    Good q (State.tiuArmCmd s u w) := by
  unfold State.tiuArmCmd
  repeat'
    first
      | with_reducible assumption
      | (intro _)
      | (with_reducible apply State.live_good)
      | (with_reducible apply State.onGroup_good)
      | (with_reducible apply State.tiuArmGroup_good)
      | (with_reducible apply State.busFld_good)
      | (with_reducible apply good_ite)
      | (with_reducible apply good_ite_snd)
      | (with_reducible apply good_foldl)
      | rfl
      | dsimp only
      | split

theorem State.mailbox_good {q : List Instr} {s : State} {x1 : Requester} {op : Nat} {args : List Sys2Proof.Word} (h : Good q s) :
    Good q (State.mailbox s x1 op args) := by
  unfold State.mailbox
  repeat'
    first
      | with_reducible assumption
      | (intro _)
      | (with_reducible apply State.busTo_good)
      | (with_reducible apply good_ite)
      | (with_reducible apply good_ite_snd)
      | (with_reducible apply good_foldl)

end Sys2Proof.Machine
end

