-- ==== Sys2Proof/Laws/SoundBarliAct.lean ====
section
/-! SUPPORT. Each operation of BarliAct keeps a state sound and its queue. -/

namespace Sys2Proof.Machine

theorem State.bAction_good {q : List Instr} {s : State} {d : Fin 16} {k : Fin 8} {ch : ChSrc} {entry : Task → Nat} (h : Good q s) :
    Good q (State.bAction s d k ch entry) := by
  unfold State.bAction
  repeat'
    first
      | with_reducible assumption
      | (intro _)
      | (with_reducible apply State.inRange_good)
      | (with_reducible apply State.setTask_good)
      | (with_reducible apply State.eoOffer_good)

theorem State.reoffer_good {q : List Instr} {s : State} {d : Fin 16} {k : Fin 8} (h : Good q s) :
    Good q (State.reoffer s d k) := by
  unfold State.reoffer
  repeat'
    first
      | with_reducible assumption
      | (intro _)
      | (with_reducible apply State.eoOffer_good)
      | (with_reducible apply good_ite)
      | (with_reducible apply good_ite_snd)
      | (with_reducible apply good_foldl)
      | rfl
      | dsimp only
      | split

theorem State.wakeByEvent_good {q : List Instr} {s : State} {d : Nat} {k : Nat} {v : Task} {is : List Nat} (h : Good q s) :
    Good q (State.wakeByEvent s d k v is) := by
  unfold State.wakeByEvent
  repeat'
    first
      | with_reducible assumption
      | (intro _)
      | (with_reducible apply State.setTask_good)
      | (with_reducible apply State.fresh_good)
      | (with_reducible refine State.fresh_good_eq (by with_reducible assumption) ?_)
      | (with_reducible apply good_ite)
      | (with_reducible apply good_ite_snd)
      | (with_reducible apply good_foldl)
      | (with_reducible apply good_foldl_snd)
      | rfl
      | dsimp only
      | split

theorem State.bWaitt_good {q : List Instr} {s : State} {d : Nat} {k : Nat} {ta : Nat} (h : Good q s) :
    Good q (State.bWaitt s d k ta) := by
  unfold State.bWaitt
  repeat'
    first
      | with_reducible assumption
      | (intro _)
      | (with_reducible apply State.inRange_good)
      | (with_reducible apply State.setTask_good)
      | (with_reducible apply State.holdWait_good)
      | (with_reducible apply good_ite)

theorem State.wakeTime_good {q : List Instr} {s : State} {d : Nat} {k : Nat} (h : Good q s) :
    Good q (State.wakeTime s d k) := by
  unfold State.wakeTime
  repeat'
    first
      | with_reducible assumption
      | (intro _)
      | (with_reducible apply State.setTask_good)
      | (with_reducible apply good_ite)
      | (with_reducible apply good_ite_snd)
      | (with_reducible apply good_foldl)
      | rfl
      | dsimp only
      | split

theorem State.bWaite_good {q : List Instr} {s : State} {d : Nat} {k : Nat} {mask : Nat} {e : Bool} {ao : Nat} (h : Good q s) :
    Good q (State.bWaite s d k mask e ao) := by
  unfold State.bWaite
  repeat'
    first
      | with_reducible assumption
      | (intro _)
      | (with_reducible apply State.inRange_good)
      | (with_reducible apply State.wakeByEvent_good)
      | (with_reducible apply State.setTask_good)
      | (with_reducible apply State.holdWait_good)
      | (with_reducible apply good_ite)

theorem State.wakeOnEvent_good {q : List Instr} {s : State} {d : Nat} {k : Nat} (h : Good q s) :
    Good q (State.wakeOnEvent s d k) := by
  unfold State.wakeOnEvent
  repeat'
    first
      | with_reducible assumption
      | (intro _)
      | (with_reducible apply State.wakeByEvent_good)
      | (with_reducible apply State.setTask_good)
      | (with_reducible apply good_ite)
      | (with_reducible apply good_ite_snd)
      | (with_reducible apply good_foldl)
      | (with_reducible apply good_foldl_snd)
      | rfl
      | dsimp only
      | split

theorem State.wakeOnTimeout_good {q : List Instr} {s : State} {d : Nat} {k : Nat} (h : Good q s) :
    Good q (State.wakeOnTimeout s d k) := by
  unfold State.wakeOnTimeout
  repeat'
    first
      | with_reducible assumption
      | (intro _)
      | (with_reducible apply State.setTask_good)
      | (with_reducible apply good_ite)
      | (with_reducible apply good_ite_snd)
      | (with_reducible apply good_foldl)
      | rfl
      | dsimp only
      | split

theorem State.yieldEnd_good {q : List Instr} {s : State} {d : Nat} {k : Nat} (h : Good q s) :
    Good q (State.yieldEnd s d k) := by
  unfold State.yieldEnd
  repeat'
    first
      | with_reducible assumption
      | (intro _)
      | (with_reducible apply State.setTask_good)
      | (with_reducible apply good_ite)
      | (with_reducible apply good_ite_snd)
      | (with_reducible apply good_foldl)
      | rfl
      | dsimp only
      | split

theorem State.busyEnd_good {q : List Instr} {s : State} {d : Nat} {k : Nat} (h : Good q s) :
    Good q (State.busyEnd s d k) := by
  unfold State.busyEnd
  repeat'
    first
      | with_reducible assumption
      | (intro _)
      | (with_reducible apply State.setTask_good)
      | (with_reducible apply good_ite)
      | (with_reducible apply good_ite_snd)
      | (with_reducible apply good_foldl)
      | rfl
      | dsimp only
      | split

theorem State.drvInGroup_good {q : List Instr} {s : State} {d : Nat} {k : Nat} {i : Nat} (h : Good q s) :
    Good q (State.drvInGroup s d k i) := by
  unfold State.drvInGroup
  repeat'
    first
      | with_reducible assumption
      | (intro _)
      | (with_reducible apply State.onGroup_good)
      | (with_reducible apply State.setTask_good)

theorem State.bSignal_good {q : List Instr} {s : State} {d : Nat} {k : Nat} {sg : Nat} {ts : Bool} {tt : Nat} (h : Good q s) :
    Good q (State.bSignal s d k sg ts tt) := by
  unfold State.bSignal
  repeat'
    first
      | with_reducible assumption
      | (intro _)
      | (with_reducible apply State.thenNext_good)
      | (with_reducible apply State.raiseEv_good)

theorem State.bArmTiu_good {q : List Instr} {s : State} {d : Nat} {k : Nat} {u : Nat} {ts : Bool} {tt : Nat} (h : Good q s) :
    Good q (State.bArmTiu s d k u ts tt) := by
  unfold State.bArmTiu
  repeat'
    first
      | with_reducible assumption
      | (intro _)
      | (with_reducible apply State.thenNext_good)
      | (with_reducible apply State.sendOut_good)

theorem State.bDisarmTiu_good {q : List Instr} {s : State} {d : Nat} {k : Nat} {u : Nat} {ts : Bool} {tt : Nat} (h : Good q s) :
    Good q (State.bDisarmTiu s d k u ts tt) := by
  unfold State.bDisarmTiu
  repeat'
    first
      | with_reducible assumption
      | (intro _)
      | (with_reducible apply State.thenNext_good)
      | (with_reducible apply State.sendOut_good)

theorem State.bArmSlot_good {q : List Instr} {s : State} {d : Nat} {k : Nat} {n : Nat} {on : Bool} (h : Good q s) :
    Good q (State.bArmSlot s d k n on) := by
  unfold State.bArmSlot
  repeat'
    first
      | with_reducible assumption
      | (intro _)
      | (with_reducible apply State.thenNext_good)
      | (with_reducible apply State.sendOut_good)

theorem State.bMeas_good {q : List Instr} {s : State} {d : Nat} {k : Nat} {td : Nat} {ad : Nat} {u : Nat} {ao : Nat} {e : Bool} {na : Bool} (h : Good q s) :
    Good q (State.bMeas s d k td ad u ao e na) := by
  unfold State.bMeas
  repeat'
    first
      | with_reducible assumption
      | (intro _)
      | (with_reducible apply State.inRange_good)
      | (with_reducible apply State.holdWait_good)
      | (with_reducible apply State.sendOut_good)

theorem State.measComplete_good {q : List Instr} {s : State} {d : Nat} {k : Nat} (h : Good q s) :
    Good q (State.measComplete s d k) := by
  unfold State.measComplete
  repeat'
    first
      | with_reducible assumption
      | (intro _)
      | (with_reducible apply State.setTask_good)
      | (with_reducible apply good_ite)
      | (with_reducible apply good_ite_snd)
      | (with_reducible apply good_foldl)
      | rfl
      | dsimp only
      | split

theorem State.measTimeout_good {q : List Instr} {s : State} {d : Nat} {k : Nat} (h : Good q s) :
    Good q (State.measTimeout s d k) := by
  unfold State.measTimeout
  repeat'
    first
      | with_reducible assumption
      | (intro _)
      | (with_reducible apply State.setTask_good)
      | (with_reducible apply good_ite)
      | (with_reducible apply good_ite_snd)
      | (with_reducible apply good_foldl)
      | rfl
      | dsimp only
      | split

theorem State.measReach_good {q : List Instr} {s : State} {d : Nat} {k : Nat} {u : Nat} {arms : Bool} {ta : Instant} {tag : Nat} (h : Good q s) :
    Good q (State.measReach s d k u arms ta tag) := by
  unfold State.measReach
  repeat'
    first
      | with_reducible assumption
      | (intro _)
      | (with_reducible apply State.setTask_good)
      | (with_reducible apply State.fresh_good)
      | (with_reducible refine State.fresh_good_eq (by with_reducible assumption) ?_)
      | (with_reducible apply State.tiuArmWith_good)
      | (with_reducible apply good_ite)
      | (with_reducible apply good_ite_snd)
      | (with_reducible apply good_foldl)
      | (with_reducible apply good_foldl_snd)
      | rfl
      | dsimp only
      | split

theorem State.bLaunch_good {q : List Instr} {s : State} {d : Nat} {k : Nat} {p : Nat} {tt : Nat} {aa : Nat} (h : Good q s) :
    Good q (State.bLaunch s d k p tt aa) := by
  unfold State.bLaunch
  repeat'
    first
      | with_reducible assumption
      | (intro _)
      | (with_reducible apply State.trapTask_good)
      | (with_reducible apply State.inRange_good)
      | (with_reducible apply State.holdWait_good)
      | (with_reducible apply good_ite)

theorem State.launchComplete_good {q : List Instr} {s : State} {d : Nat} {k : Nat} (h : Good q s) :
    Good q (State.launchComplete s d k) := by
  unfold State.launchComplete
  repeat'
    first
      | with_reducible assumption
      | (intro _)
      | (with_reducible apply State.trapTask_good)
      | (with_reducible apply State.actionResult_good)
      | (with_reducible apply State.launchOffer_good)
      | (with_reducible refine State.launchOffer_good_eq (by with_reducible assumption) ?_)
      | (with_reducible apply good_ite)
      | (with_reducible apply good_ite_snd)
      | (with_reducible apply good_foldl)
      | rfl
      | dsimp only
      | split

theorem State.bCsrRead_good {q : List Instr} {s : State} {d : Nat} {k : Nat} {r : CsrReg} {n : Nat} (h : Good q s) :
    Good q (State.bCsrRead s d k r n) := by
  unfold State.bCsrRead
  repeat'
    first
      | with_reducible assumption
      | (intro _)
      | (with_reducible apply State.trapTask_good)
      | (with_reducible apply State.goTo_good)
      | (with_reducible apply good_ite)
      | (with_reducible apply good_ite_snd)
      | (with_reducible apply good_foldl)
      | rfl
      | dsimp only
      | split

theorem State.bCsrWrite_good {q : List Instr} {s : State} {d : Nat} {k : Nat} {r : CsrReg} {n : Nat} (h : Good q s) :
    Good q (State.bCsrWrite s d k r n) := by
  unfold State.bCsrWrite
  repeat'
    first
      | with_reducible assumption
      | (intro _)
      | (with_reducible apply State.trapTask_good)
      | (with_reducible apply State.taskDoes_good)
      | (with_reducible apply State.thenNext_good)
      | (with_reducible apply State.sendOut_good)
      | (with_reducible apply good_ite)
      | (with_reducible apply good_ite_snd)
      | (with_reducible apply good_foldl)
      | rfl
      | dsimp only
      | split

theorem State.bCsrReadBar_good {q : List Instr} {s : State} {d : Fin 16} {k : Nat} {ad : Nat} {aa : Nat} (h : Good q s) :
    Good q (State.bCsrReadBar s d k ad aa) := by
  unfold State.bCsrReadBar
  repeat'
    first
      | with_reducible assumption
      | (intro _)
      | (with_reducible apply State.trapTask_good)
      | (with_reducible apply State.inRange_good)
      | (with_reducible apply State.busReadWord_good)
      | (with_reducible apply State.holdBusy_good)
      | (with_reducible apply good_ite)

theorem State.bCsrWriteBar_good {q : List Instr} {s : State} {d : Nat} {k : Nat} {ar : Nat} {aa : Nat} (h : Good q s) :
    Good q (State.bCsrWriteBar s d k ar aa) := by
  unfold State.bCsrWriteBar
  repeat'
    first
      | with_reducible assumption
      | (intro _)
      | (with_reducible apply State.trapTask_good)
      | (with_reducible apply State.thenNext_good)
      | (with_reducible apply State.sendOut_good)
      | (with_reducible apply good_ite)

theorem State.outActs_good {q : List Instr} {s : State} {d : Fin 16} {x2 : DrvOut} (h : Good q s) :
    Good q (State.outActs s d x2) := by
  unfold State.outActs
  repeat'
    first
      | with_reducible assumption
      | (intro _)
      | (with_reducible apply State.tiuArmWith_good)
      | (with_reducible apply State.tiuDisarmWith_good)
      | (with_reducible apply State.measReach_good)
      | (with_reducible apply State.taskControl_good)
      | (with_reducible apply State.busWrite_good)
      | (with_reducible apply State.lockstepFault_good)
      | (with_reducible apply good_fset)
      | (with_reducible apply State.hwMark_good)
      | (with_reducible apply good_ite)
      | (with_reducible apply good_ite_snd)
      | (with_reducible apply good_foldl)
      | (with_reducible apply good_foldl_snd)
      | rfl
      | dsimp only
      | split

theorem State.drvOuts_good {q : List Instr} {s : State} {d : Fin 16} (h : Good q s) :
    Good q (State.drvOuts s d) := by
  unfold State.drvOuts
  repeat'
    first
      | with_reducible assumption
      | (intro _)
      | (with_reducible apply State.setDrv_good)
      | (with_reducible apply State.outActs_good)
      | (with_reducible apply good_ite)
      | (with_reducible apply good_ite_snd)
      | (with_reducible apply good_foldl)

theorem State.drvWakes_good {q : List Instr} {s : State} {d : Nat} (h : Good q s) :
    Good q (State.drvWakes s d) := by
  unfold State.drvWakes
  repeat'
    first
      | with_reducible assumption
      | (intro _)
      | (with_reducible apply State.setDrv_good)

theorem State.drvDue_good {q : List Instr} {s : State} (h : Good q s) :
    Good q (State.drvDue s) := by
  unfold State.drvDue
  repeat'
    first
      | with_reducible assumption
      | (intro _)
      | (with_reducible apply State.drvOuts_good)
      | (with_reducible apply State.drvWakes_good)
      | (with_reducible apply good_ite)
      | (with_reducible apply good_ite_snd)
      | (with_reducible apply good_foldl)

theorem State.tickAll_good {q : List Instr} {s : State} {o : TickObs} (h : Good q s) :
    Good q (State.tickAll s o) := by
  unfold State.tickAll
  repeat'
    first
      | with_reducible assumption
      | (intro _)
      | (with_reducible apply State.drvDue_good)
      | (with_reducible apply State.tick_good)
      | (with_reducible apply good_ite)

theorem State.progCheckDone_good {q : List Instr} {s : State} {d : Nat} {bad : Bool} (h : Good q s) :
    Good q (State.progCheckDone s d bad) := by
  unfold State.progCheckDone
  repeat'
    first
      | with_reducible assumption
      | (intro _)
      | (with_reducible apply State.eccUncorrected_good)
      | (with_reducible apply State.setDrv_good)
      | (with_reducible apply good_ite)

end Sys2Proof.Machine
end

