-- ==== Sys2Proof/Laws/SoundSideBus.lean ====
section
/-! SUPPORT. Each operation of SideBus keeps a state sound and its queue. -/

namespace Sys2Proof.Machine

theorem State.bar2Read_good {q : List Instr} {s : State} {x : Nat} {n : Nat} (h : Good q s) :
    Good q (State.bar2Read s x n) := by
  unfold State.bar2Read
  repeat'
    first
      | with_reducible assumption
      | (intro _)
      | (with_reducible apply State.setResp_good)
      | (with_reducible apply good_ite)

theorem State.bar2Byte_good {q : List Instr} {s : State} {x : Nat} {b : Sys2Proof.Byte} (h : Good q s) :
    Good q (State.bar2Byte s x b) := by
  unfold State.bar2Byte
  repeat'
    first
      | with_reducible assumption
      | (intro _)
      | (with_reducible apply memWriteLE_wf)
      | (with_reducible apply memWriteBytes_wf)
      | (with_reducible apply memWrite_wf)
      | (with_reducible apply Good.dramWf)
      | (with_reducible apply Good.flashWf)
      | (with_reducible apply Good.hostWf)
      | (with_reducible apply good_fon)
      | (with_reducible apply good_setDram)
      | (with_reducible apply good_ite)
      | (with_reducible apply good_ite_snd)
      | (with_reducible apply good_foldl)
      | rfl

theorem State.bar2Bytes_good {q : List Instr} {s : State} {x : Nat} {b : List Byte} (h : Good q s) : Good q (State.bar2Bytes s x b) := by
  induction b generalizing s x with
  | nil => exact h
  | cons a t ih => exact ih (State.bar2Byte_good h)

theorem State.bar2Write_good {q : List Instr} {s : State} {x : Nat} {bytes : List Sys2Proof.Byte} {poison : Bool} (h : Good q s) :
    Good q (State.bar2Write s x bytes poison) := by
  unfold State.bar2Write
  repeat'
    first
      | with_reducible assumption
      | (intro _)
      | (with_reducible apply State.pcieErr_good)
      | (with_reducible apply State.bar2Bytes_good)
      | (with_reducible apply good_ite)

theorem State.registerWrite_good {q : List Instr} {s : State} {x1 : Requester} {a : Nat} {x : Nat} {be : Nat} {poison : Bool} (h : Good q s) :
    Good q (State.registerWrite s x1 a x be poison) := by
  unfold State.registerWrite
  repeat'
    first
      | with_reducible assumption
      | (intro _)
      | (with_reducible apply State.pcieErr_good)
      | (with_reducible apply State.busWriteBe_good)
      | (with_reducible apply good_ite)

theorem State.smbPec_good {q : List Instr} {s : State} {dev : Nat} {pecOk : Bool} {f : State → State} (h : Good q s) (hf : ∀ st, Good q st → Good q (f st)) :
    Good q (State.smbPec s dev pecOk f) := by
  unfold State.smbPec
  repeat'
    first
      | with_reducible assumption
      | (intro _)
      | (with_reducible apply hf)
      | (with_reducible apply good_cnt)
      | (with_reducible apply good_ite)
      | (with_reducible apply good_ite_snd)
      | (with_reducible apply good_foldl)
      | rfl

theorem State.smbWrite_good {q : List Instr} {s : State} {dev : Nat} {a : Nat} {x : Nat} {pecOk : Bool} (h : Good q s) :
    Good q (State.smbWrite s dev a x pecOk) := by
  unfold State.smbWrite
  repeat'
    first
      | with_reducible assumption
      | (intro _)
      | (with_reducible apply State.smbPec_good)
      | (with_reducible apply State.busWrite_good)

theorem State.smbSet_good {q : List Instr} {s : State} {dev : Nat} {a : Nat} {pecOk : Bool} (h : Good q s) :
    Good q (State.smbSet s dev a pecOk) := by
  unfold State.smbSet
  repeat'
    first
      | with_reducible assumption
      | (intro _)
      | (with_reducible apply State.smbPec_good)
      | (with_reducible apply State.setHost_good)

theorem State.smbRead_good {q : List Instr} {s : State} {dev : Nat} (h : Good q s) :
    Good q (State.smbRead s dev) := by
  unfold State.smbRead
  repeat'
    first
      | with_reducible assumption
      | (intro _)
      | (with_reducible apply State.busRead_good)
      | (with_reducible apply good_ite)

theorem State.setJtag_good {q : List Instr} {s : State} {j : Jtag} (h : Good q s) :
    Good q (State.setJtag s j) := by
  unfold State.setJtag
  repeat'
    first
      | with_reducible assumption
      | (intro _)
      | (with_reducible apply State.setHost_good)

theorem State.jtagIr_good {q : List Instr} {s : State} {op : Nat} (h : Good q s) :
    Good q (State.jtagIr s op) := by
  unfold State.jtagIr
  repeat'
    first
      | with_reducible assumption
      | (intro _)
      | (with_reducible apply State.pinReset_good)
      | (with_reducible apply State.setJtag_good)
      | (with_reducible apply State.setGlb_good)
      | (with_reducible apply good_ite)
      | (with_reducible apply good_ite_snd)
      | (with_reducible apply good_foldl)
      | rfl
      | dsimp only
      | split
      | omega

theorem State.jtagBypass_good {q : List Instr} {s : State} {op : Nat} (h : Good q s) :
    Good q (State.jtagBypass s op) := by
  unfold State.jtagBypass
  repeat'
    first
      | with_reducible assumption
      | (intro _)
      | (with_reducible apply State.jtagIr_good)
      | (with_reducible apply good_ite)

theorem State.jtagSample_good {q : List Instr} {s : State} {v : Nat} (h : Good q s) :
    Good q (State.jtagSample s v) := by
  unfold State.jtagSample
  repeat'
    first
      | with_reducible assumption
      | (intro _)
      | (with_reducible apply State.jtagIr_good)
      | (with_reducible apply State.setJtag_good)
      | (with_reducible apply good_ite)

theorem State.regaccDone_good {q : List Instr} {s : State} {held : Bool} {data : Nat} (h : Good q s) :
    Good q (State.regaccDone s held data) := by
  unfold State.regaccDone
  repeat'
    first
      | with_reducible assumption
      | (intro _)
      | (with_reducible apply State.setJtag_good)

theorem State.regaccRead_good {q : List Instr} {s : State} {a : Nat} (h : Good q s) :
    Good q (State.regaccRead s a) := by
  unfold State.regaccRead
  repeat'
    first
      | with_reducible assumption
      | (intro _)
      | (with_reducible apply State.busRead_good)
      | (with_reducible apply State.regaccDone_good)
      | (with_reducible apply good_ite)

theorem State.regaccWrite_good {q : List Instr} {s : State} {a : Nat} {x : Nat} (h : Good q s) :
    Good q (State.regaccWrite s a x) := by
  unfold State.regaccWrite
  repeat'
    first
      | with_reducible assumption
      | (intro _)
      | (with_reducible apply State.regaccDone_good)
      | (with_reducible apply State.busWrite_good)
      | (with_reducible apply good_ite)

theorem State.eoFaultReaction_good {q : List Instr} {s : State} {n : Nat} (h : Good q s) :
    Good q (State.eoFaultReaction s n) := by
  unfold State.eoFaultReaction
  repeat'
    first
      | with_reducible assumption
      | (intro _)
      | (with_reducible apply State.setEo_good)
      | (with_reducible apply State.eoReact_good)
      | (with_reducible apply good_ite)
      | (with_reducible apply good_ite_snd)
      | (with_reducible apply good_foldl)
      | rfl
      | dsimp only
      | split

end Sys2Proof.Machine
end

