-- ==== Sys2Proof/WellFormed.lean ====
section
/-! DEFINITION. What a well-formed command is: the conditions on operands that their types do not say. -/

namespace Sys2Proof

/-- A command is well-formed. -/
def Instr.wf (i : Instr) : Bool :=
  match i with
  | .registerWrite _ _ _ _ _ => true
  | .multiwordReadLatch _ _ => true
  | .counterReadClear _ _ => true
  | .bar2Read _ _ => true
  | .bar2Write _ _ _ => true
  | .auxPowerOn => true
  | .pinReset => true
  | .pinResetRelease _ => true
  | .mainRailPor _ => true
  | .mainRailLoss => true
  | .warmReset _ _ => true
  | .blockResetMem _ => true
  | .blockResetSwpad _ => true
  | .blockResetTas _ => true
  | .blockResetNt _ => true
  | .blockResetTal _ => true
  | .blockResetCal _ => true
  | .blockResetDrv _ => true
  | .blockResetDw _ => true
  | .blockResetDone _ => true
  | .functionLevelReset => true
  | .timebaseReady => true
  | .tick _ => true
  | .tbStepCommit _ _ => true
  | .tbSetCommit _ _ => true
  | .timeStepApply => true
  | .tbNcoSwWrite _ _ => true
  | .xoLoss => true
  | .xoReturn => true
  | .tsynSwap => true
  | .tsynReturn => true
  | .forceBpll _ _ => true
  | .csynTargetWrite _ _ => true
  | .csynBandChange => true
  | .csynRelockDone => true
  | .csynBandFail => true
  | .csynRetry => true
  | .csynGuardMove _ _ => true
  | .csynRampDone => true
  | .osynApply _ _ => true
  | .osynLockDone _ lo hi => decide (lo ≤ hi)
  | .osynRamp _ _ => true
  | .osynRampStart _ => true
  | .osynSegmentEnd _ => true
  | .osynLossOfLock _ => true
  | .osynRelock _ => true
  | .osynDisable _ _ _ => true
  | .eoQeCommit _ _ _ => true
  | .eoTeCommit _ _ _ => true
  | .actionAccept _ => true
  | .cancelCut _ => true
  | .actionActivate _ => true
  | .transitionFilter _ => true
  | .transitionCommit _ => true
  | .transitionLaunch _ => true
  | .edgeVerify _ => true
  | .eoEnable _ _ _ => true
  | .eoDisable _ _ _ => true
  | .bankPowerDown _ _ => true
  | .bankPowerUp _ _ => true
  | .bankPowerUpDone _ => true
  | .eoArm _ => true
  | .eoTrig _ => true
  | .profStart _ => true
  | .profileSegmentEnd _ => true
  | .eoFaultReaction _ => true
  | .tiuHitCapture _ _ _ => true
  | .tiuRecordComplete _ _ => true
  | .tiuOverflow _ => true
  | .tiuTimeout _ => true
  | .tiuArm _ _ => true
  | .tiuDisarm _ _ _ => true
  | .tiuStart _ => true
  | .tiuStop _ => true
  | .tiuCtlWrite _ _ _ => true
  | .tiuFifoDrain _ => true
  | .tiuResRead _ _ => true
  | .tallyRecordIn => true
  | .tallyWrite => true
  | .talTrig => true
  | .talFire _ _ => true
  | .tallyFreeze => true
  | .tallyEnable _ _ => true
  | .tallyDisable _ _ => true
  | .tallyDrainDone => true
  | .dwChannelEvent _ => true
  | .evinEdge _ _ => true
  | .dwTmrEnable _ _ _ => true
  | .dwTmrInstant _ => true
  | .swfFire _ _ => true
  | .evoutEvent _ => true
  | .evoutPulseEnd _ => true
  | .flockEn _ => true
  | .flockDis _ => true
  | .flockStateWrite _ _ _ => true
  | .dwChannelEnable _ _ _ => true
  | .dwChannelDisable _ _ _ => true
  | .dwEnableCheckDone _ => true
  | .dwChOwnWrite _ _ _ => true
  | .dwConSelWrite _ _ _ => true
  | .drvInGroup _ _ _ => true
  | .taskWakeEvent _ _ => true
  | .taskWakeTime _ _ => true
  | .taskWakeTimeout _ _ => true
  | .yieldEnd _ _ => true
  | .drvBusyEnd _ _ => true
  | .waitQueueReoffer _ _ => true
  | .ldxReturn _ _ _ => true
  | .ldxTimeout _ _ => true
  | .measComplete _ _ => true
  | .measTimeout _ _ => true
  | .launchComplete _ _ => true
  | .taskStart _ _ _ _ => true
  | .taskStop _ _ _ _ => true
  | .drvProgCommit _ _ _ => true
  | .drvProgCheckDone _ _ => true
  | .drvReset _ _ _ => true
  | .drvMemRead _ _ => true
  | .drvMemWrite _ _ _ => true
  | .nop _ _ _ => true
  | .halt _ _ _ => true
  | .yield _ _ _ _ => true
  | .trap _ _ _ _ => true
  | .b _ _ _ _ => true
  | .bc _ _ _ _ _ => true
  | .call _ _ _ _ => true
  | .ret _ _ _ => true
  | .loop _ _ _ _ _ => true
  | .endl _ _ _ => true
  | .endlPop _ _ _ => true
  | .add _ _ _ _ _ _ => true
  | .sub _ _ _ _ _ _ => true
  | .adds _ _ _ _ _ _ => true
  | .subs _ _ _ _ _ _ => true
  | .mulq _ _ _ _ _ _ _ _ _ => true
  | .divq _ _ _ _ _ _ _ _ _ => true
  | .shl _ _ _ _ _ _ => true
  | .shr _ _ _ _ _ _ _ _ => true
  | .and _ _ _ _ _ _ => true
  | .or _ _ _ _ _ _ => true
  | .xor _ _ _ _ _ _ => true
  | .cmp _ _ _ _ _ => true
  | .ldi _ _ _ _ _ => true
  | .ldhi _ _ _ _ _ _ => true
  | .mov _ _ _ _ _ => true
  | .neg _ _ _ _ _ => true
  | .tadd _ _ _ _ _ _ => true
  | .taddSub _ _ _ _ _ _ => true
  | .tsub _ _ _ _ _ _ => true
  | .tcmp _ _ _ _ _ => true
  | .tnow _ _ _ _ => true
  | .tmov _ _ _ _ _ => true
  | .tmovSec _ _ _ _ _ => true
  | .tmovNsf _ _ _ _ _ => true
  | .tmovPack _ _ _ _ _ _ => true
  | .tmovZero _ _ _ _ => true
  | .tld _ _ _ _ _ _ => true
  | .tst _ _ _ _ _ _ => true
  | .ld _ _ _ _ _ _ => true
  | .st _ _ _ _ _ _ => true
  | .ldx _ _ _ _ _ _ => true
  | .stx _ _ _ _ _ _ => true
  | .edge _ _ _ _ _ _ => true
  | .pulse _ _ _ _ _ _ => true
  | .train _ _ _ _ _ _ _ _ _ _ => true
  | .prof _ _ _ _ _ _ _ _ => true
  | .cancel _ _ _ _ _ => true
  | .waitt _ _ _ _ => true
  | .waite _ _ _ mask x _ => decide (mask ≠ 0) || x
  | .signal _ _ _ _ _ _ => true
  | .armTiu _ _ _ _ _ _ => true
  | .disarmTiu _ _ _ _ _ _ => true
  | .armEoSlot _ _ _ _ _ _ => true
  | .disarmEoSlot _ _ _ _ _ _ => true
  | .meas _ _ _ _ _ _ _ _ _ => true
  | .launch _ _ _ _ _ _ => true
  | .csrReadCw _ _ _ _ _ => true
  | .csrWriteCw _ _ _ _ _ => true
  | .csrReadBar0 _ _ _ _ _ => true
  | .csrWriteBar0 _ _ _ _ _ => true
  | .calTempEval => true
  | .calHold _ _ => true
  | .cdRunDone _ _ _ => true
  | .tapRunDone _ m => decide (m.widths.length = 40) && decide (m.again.length = 40) && decide (m.vern.length ≤ 64) && m.vern.all fun v => decide (v.length = 32)
  | .pinRunDone _ _ _ _ => true
  | .regionRunDone _ => true
  | .calRunStarved _ _ => true
  | .runRegion _ _ => true
  | .runTiu _ _ => true
  | .runEo _ _ => true
  | .calPin _ _ => true
  | .calFull _ _ => true
  | .calApply _ _ => true
  | .loadTiu _ _ => true
  | .loadEo _ _ => true
  | .calExport _ _ => true
  | .calImport _ _ => true
  | .calSave _ _ => true
  | .calAbort _ _ => true
  | .exportDone => true
  | .importDone => true
  | .saveDone _ => true
  | .calStartupImport => true
  | .ppsinPulse _ _ => true
  | .bwRefSwCommit _ _ _ => true
  | .bwSecond => true
  | .refDisqualify _ => true
  | .bwEvaluate _ => true
  | .bwUnlockWrite _ _ => true
  | .bwRealign _ => true
  | .holdoverLost => true
  | .bwCtlWrite _ _ => true
  | .bwRefCfgWrite _ _ _ => true
  | .syncRx _ _ _ => true
  | .followUpRx _ _ => true
  | .delayReqRx _ _ _ => true
  | .delayRespRx _ _ => true
  | .pdelayReqRx _ _ _ _ => true
  | .pdelayRespRx _ _ _ => true
  | .pdelayRespFollowUpRx _ _ => true
  | .syncTx _ _ => true
  | .delayReqTx _ _ => true
  | .pdelayReqTx _ _ => true
  | .sesSyncTimeout _ => true
  | .ntSesEnable _ _ _ => true
  | .esmcRx _ _ => true
  | .esmcLoss _ => true
  | .pdReading _ _ => true
  | .lanePhaseMeasured _ => true
  | .ptTsfRead _ _ => true
  | .ptEnable _ _ _ => true
  | .ptDisable _ _ _ => true
  | .ptCfgWrite _ _ _ _ => true
  | .laneLock _ _ _ => true
  | .laneLossOfLock _ _ _ => true
  | .syntChange _ _ _ => true
  | .qpllRelockDone _ => true
  | .elmHello _ _ => true
  | .elmAck _ _ _ _ => true
  | .elmRate _ _ _ => true
  | .elmEq _ _ _ _ _ _ _ _ => true
  | .elmVerify _ _ _ _ _ => true
  | .elmEcho _ _ _ _ _ _ _ => true
  | .elmDrop _ _ _ => true
  | .elmDropAck _ _ _ => true
  | .elmAdd _ _ _ => true
  | .helloTx _ => true
  | .rateSwitch _ => true
  | .verifyEnd _ _ => true
  | .echoTx _ _ => true
  | .trainStepTimeout _ => true
  | .trainTotalTimeout _ => true
  | .standardLinkUp _ _ => true
  | .listenBackoffExpire _ => true
  | .dropResend _ => true
  | .dropAckTimeout _ => true
  | .laneRejoin _ _ => true
  | .laneRejoinRetry _ _ => true
  | .laneReset _ _ _ => true
  | .frameRx _ _ _ _ => true
  | .frameRxEnd _ _ _ _ => true
  | .frameTxStart _ _ => true
  | .pfcRx _ _ _ quanta => decide (quanta.length = 8) && quanta.all fun n => decide (n < 65536)
  | .pauseExpire _ _ => true
  | .xoffRepeat _ _ => true
  | .macAgeExpire _ => true
  | .portDown _ => true
  | .padHoldExpire _ => true
  | .portUp _ => true
  | .frrRevert _ => true
  | .gclEntry _ => true
  | .gclChange _ _ _ => true
  | .gclChangeEffect _ => true
  | .preemptVerifyDone _ => true
  | .launchRelease _ _ => true
  | .fixedLatencyRelease _ _ => true
  | .lqTplCommit _ _ _ => true
  | .lqTrig _ => true
  | .faultDetected _ => true
  | .faultMasked _ => true
  | .wdogKick _ _ => true
  | .wdogExpire => true
  | .cfgScanGroup _ _ _ => true
  | .monTempSample t => decide (t.length = 12)
  | .monSupplySample mv => decide (mv.length = 11)
  | .faultRelease _ => true
  | .faultPinRelease => true
  | .bbrRecordOffer => true
  | .bbrRecordEnter => true
  | .bbrFire _ _ => true
  | .bbrTrig => true
  | .bbrRearm _ _ => true
  | .memScrub _ _ _ => true
  | .dmaRingEnable _ _ _ => true
  | .dmaRingDisable _ _ _ => true
  | .dmaTailWrite _ _ _ => true
  | .dmaH2d _ _ => true
  | .dmaD2h _ _ => true
  | .dmaSample _ => true
  | .dmaTally _ => true
  | .dmaTallyTimeout _ => true
  | .dmaLaunch _ _ => true
  | .dmaTrig _ => true
  | .smbRegWrite _ _ _ _ => true
  | .smbSetAddress _ _ _ => true
  | .smbRegRead _ => true
  | .jtagBypass _ => true
  | .jtagIdcode => true
  | .jtagSamplePreload _ => true
  | .jtagExtest => true
  | .jtagExtestPulse => true
  | .jtagExtestTrain => true
  | .jtagClamp => true
  | .jtagHighz => true
  | .jtagRegacc => true
  | .regaccRead _ => true
  | .regaccWrite _ _ => true
  | .jtagTestLogicReset => true
  | .mbGetInfo _ => true
  | .mbFwBegin _ args => decide (args.length ≤ 64)
  | .mbFwChunk _ args => decide (args.length ≤ 64)
  | .mbFwEnd _ => true
  | .mbFwSelect _ args => decide (args.length ≤ 64)
  | .mbFwVerify _ args => decide (args.length ≤ 64)
  | .mbFlashRead _ args => decide (args.length ≤ 64)
  | .mbFlashWrite _ args => decide (args.length ≤ 64)
  | .mbOverrideSet _ args => decide (args.length ≤ 64)
  | .mbOverrideClear _ args => decide (args.length ≤ 64)
  | .mbSvnCommit _ args => decide (args.length ≤ 64)
  | .mbAbort _ => true
  | .mbComplete _ => true
  | .bootSelect => true
  | .dramTrained => true
  | .firmwareStart => true
  | .laneSignalDetected _ => true
  | .vauxLoss => true
  | .aonShadowAdvance => true
  | .barAccessReady => true
  | .asyncSourceLevelChange _ _ => true
  | .illegal _ _ _ _ => true

end Sys2Proof
end

