-- ==== Sys2Proof/Tests/Slice0.lean ====
section
/-! SUPPORT. Small tests: an ill-formed command for each check of `WellFormed`, the worked instruction words of the spec, and for each
obligation with hypotheses one theorem that meets them on a concrete state, clause by clause, and looks at what one step gives. -/

namespace Sys2Proof.Tests

open Sys2Proof Sys2Proof.Machine

set_option Elab.async false

/-- What a command leads to. -/
def goes (i : Instr) (s : State) (P : State → Bool) : Bool :=
  match exec i s with
  | .next t => P t
  | _ => false

/-- A device at work: out of reset, with its timebase, firmware, DRAM and BAR access up. -/
def base : State := { State.reset with
  glb := { level := .none, pinLow := false, por := false, rails := 0, xo := true, aonRc := false, dramReady := true, barReady := true, fwRun := true }
  time := { run := true, a := ctrLoad 5005, b := ctrLoad 5005, pa := 5004, pb := 5004, now := 5004, valid := true }
  tickNo := 6000, bbr := {} }

/-- A register key of one index, and one of two. -/
def key (r : Reg) (a : Nat := 0) (b : Nat := 0) : RegKey := ⟨r, a, b, 0⟩

/-! ### Ill-formed commands are refused by `Instr.wf` -/

theorem test_wf_temperatures : (Instr.monTempSample (List.replicate 12 0)).wf = true ∧ (Instr.monTempSample (List.replicate 11 0)).wf = false := by decide +kernel
theorem test_wf_supplies : (Instr.monSupplySample (List.replicate 11 0)).wf = true ∧ (Instr.monSupplySample (List.replicate 12 0)).wf = false := by decide +kernel
theorem test_wf_waite : (Instr.waite 0 0 {} 0 true 0).wf = true ∧ (Instr.waite 0 0 {} 0 false 0).wf = false := by decide +kernel
theorem test_wf_pfc : (Instr.pfcRx 0 false 1 [65535, 0, 0, 0, 0, 0, 0, 0]).wf = true ∧ (Instr.pfcRx 0 false 1 [65536, 0, 0, 0, 0, 0, 0, 0]).wf = false ∧
    (Instr.pfcRx 0 false 1 [0]).wf = false := by decide +kernel
theorem test_wf_band : (Instr.osynLockDone 0 5 5).wf = true ∧ (Instr.osynLockDone 0 6 5).wf = false := by decide +kernel
theorem test_wf_tap_run :
    let w := List.replicate 40 1
    let v := List.replicate 32 1
    (Instr.tapRunDone 0 ⟨w, w, [v, v], 0⟩).wf = true ∧ (Instr.tapRunDone 0 ⟨List.replicate 39 1, w, [v], 0⟩).wf = false ∧
    (Instr.tapRunDone 0 ⟨w, List.replicate 41 1, [v], 0⟩).wf = false ∧ (Instr.tapRunDone 0 ⟨w, w, [v, []], 0⟩).wf = false ∧
    (Instr.tapRunDone 0 ⟨w, w, List.replicate 65 v, 0⟩).wf = false := by decide +kernel
theorem test_wf_mailbox : ∀ i ∈ ([.mbFwBegin .pcie (List.replicate 65 0), .mbFwChunk .pcie (List.replicate 65 0), .mbFwSelect .pcie (List.replicate 65 0),
    .mbFwVerify .pcie (List.replicate 65 0), .mbFlashRead .pcie (List.replicate 65 0), .mbFlashWrite .pcie (List.replicate 65 0),
    .mbOverrideSet .pcie (List.replicate 65 0), .mbOverrideClear .pcie (List.replicate 65 0), .mbSvnCommit .pcie (List.replicate 65 0)] : List Instr),
    i.wf = false := by decide +kernel
theorem test_wf_mailbox_full : (Instr.mbFwChunk .pcie (List.replicate 64 0)).wf = true := by decide +kernel

/-- The table gives no row a bit, so no word spells a command. -/
theorem test_no_word : decodeTableWord 0 0 = none ∧ decodeTableWord 32 0x74502710 = none := by decide

/-! ### Registers and resets -/

theorem witness_RegisterWriteFollowsAccessCodes :
    regAt 0x41000 ≠ none ∧
    (let k := key .monTempHi
     let a := addrOf k 0
     regAt (a / 4 * 4) = some (k, 0) ∧ k.r.info.words = 1 ∧ k.r.ruled = false ∧ base.writable .pcie k.r = true ∧ blkOf a = some k.r.info.blk ∧
     goes (.registerWrite .pcie (BitVec.ofNat 32 a) 40 15 false) base (fun t => t.rget k % 256 == 40) = true) ∧
    (let k := key .glbErr
     let a := addrOf k 0
     let bad := Instr.registerWrite .jtag 0x20000 1 3 false
     let clear := Instr.registerWrite .pcie (BitVec.ofNat 32 a) 3 15 false
     regAt (a / 4 * 4) = some (k, 0) ∧ k.r.info.words = 1 ∧ k.r.ruled = false ∧
     goes bad base (fun t => t.writable .pcie k.r && goes clear t (fun u => u.fbit F.glbErr_ACC_ERR) &&
       goes clear { t with cyc := {} } (fun u => !u.fbit F.glbErr_ACC_ERR)) = true) := by decide +kernel

theorem witness_RefusedRegisterWrites :
    (base.reaches0 .jtag = true ∧ (3 : BitVec 4) ≠ 15 ∧
      goes (.registerWrite .jtag 0x20000 1 3 false) base (fun t => t.fbit F.glbErr_ACC_ERR) = true) ∧
    (let s := base.rset (key .glbBlkRst) 1
     s.reaches0 .jtag = true ∧ blkOf 0x400000 = some .dw ∧ s.blkHeld .dw = true ∧
      goes (.registerWrite .jtag 0x400000 1 15 false) s (fun t => t.fbit F.glbErr_ACC_ERR) = true) ∧
    (blkOf 0x03FFFFFC = none ∧ goes (.registerWrite .pcie 0x03FFFFFC 1 15 false) base (fun t => decide (t = base)) = true) ∧
    (regAt 0x0000FFFC = none ∧ blkOf 0x0000FFFC = some .glb ∧ base.blkHeld .glb = false ∧
      goes (.registerWrite .pcie 0x0000FFFC 1 15 false) base (fun t => decide (t = base)) = true) ∧
    (State.reset.glb.barReady = false ∧ goes (.registerWrite .pcie 0x10000 1 15 false) State.reset (fun t => decide (t = State.reset)) = true) := by
  decide +kernel

theorem witness_RegisterReadsLatchAndClear :
    (let k := key .eoCntIss 63
     let a := addrOf k 0
     let s := base.rset k 0x500000007
     regAt (a / 4 * 4) = some (k, 0) ∧ regAt (addrOf k 1 / 4 * 4) = some (k, 1) ∧ blkOf a = some k.r.info.blk ∧ s.writable .pcie k.r = true ∧
     1 < k.r.info.words ∧ (k.r.info.flds.any fun f => decide (f.acc = .rc)) = false ∧
     goes (.multiwordReadLatch .pcie (BitVec.ofNat 32 a)) s (fun t => t.resp.data == 7 && t.latchOf .pcie k == 5 &&
       goes (.multiwordReadLatch .pcie (BitVec.ofNat 32 (addrOf k 1))) t (fun u => u.resp.data == 5)) = true) ∧
    (let k := key .eoCntMiss 5
     let a := addrOf k 0
     let s := base.rset k 9
     regAt (a / 4 * 4) = some (k, 0) ∧ k.r.info.words = 1 ∧ k.r.info.flds = [⟨31, 0, .rc, 0, .any⟩] ∧
     goes (.counterReadClear .pcie (BitVec.ofNat 32 a)) s (fun t => t.resp.data == 9 && t.rget k == 0) = true) := by decide +kernel

theorem witness_Bar2Aperture :
    (base.glb.barReady = true ∧ base.dramUnavail = false ∧ Memory.wf dramUnl base.dram = true ∧
      base.fget F.dmaAperBase_BASE * 2 ^ 30 + 0x10 + 2 ≤ fwRegion ∧
      goes (.bar2Write 0x10 [7, 8] false) base (fun t => goes (.bar2Read 0x10 2) t (fun u => u.resp.bytes == [7, 8])) = true) ∧
    (let s := base.fset F.dmaAperBase_BASE 7
     fwRegion ≤ s.fget F.dmaAperBase_BASE * 2 ^ 30 + 0x3FFFFFFF % 2 ^ 30 ∧
     goes (.bar2Write 0x3FFFFFFF [1] false) s (fun t => t.fbit F.dmaAperBase_FW_WR && t.dram == []) = true) ∧
    (let s := base.setGlb { base.glb with dramReady := false }
     s.glb.barReady = true ∧ s.dramUnavail = true ∧ goes (.bar2Write 0 [1] false) s (fun t => decide (t = s)) = true ∧
     goes (.bar2Read 0 1) s (fun t => t.resp.bytes == [255]) = true) ∧
    (let s := (base.fset F.dmaAperBase_BASE 7).setGlb { base.glb with dramReady := false }
     s.glb.barReady = true ∧ s.dramUnavail = true ∧
     goes (.bar2Write 0x3FFFFFFF [1] false) s (fun t => t.fbit F.dmaAperBase_FW_WR && t.dram == []) = true) := by decide +kernel

theorem witness_PinResetClearsTheDevice :
    base.glb.level ≠ .aux ∧ base.glb.pinLow = false ∧ base.glb.por = false ∧ (512 : BitVec 10) ≠ 0 ∧
    goes .pinReset base (fun t => !t.time.run && bit (t.rget (key .glbRstCause)) 2) = true ∧
    goes (.mainRailPor 512) base (fun t => bit (t.rget (key .glbRstCause)) 1) = true ∧
    goes .mainRailLoss base (fun t => t.glb.rails == 1023) = true := by decide +kernel

theorem witness_WarmResetKeepsDramAndAon :
    base.reaches0 .smbus = true ∧ base.rstHeld = false ∧ base.glb.level ≠ .aux ∧ base.glb.level ≠ .pin ∧
    goes (.warmReset .smbus 0xD5) base (fun t => !t.time.run && t.time.valid && bit (t.rget (key .glbRstCause)) 3) = true ∧
    (0xD4 : BitVec 8) ≠ 0xD5 ∧ goes (.warmReset .smbus 0xD4) base (fun t => t.fbit F.glbErr_WR_ERR && t.time.run) = true := by decide +kernel

def resetFrame (kind : FrameKind) (port : Nat) : PFrame :=
  { id := port, kind, inPort := 5, cls := 0, len := 64, guar := 0, shared := 1, ts := ⟨0, 0, false⟩
    head := 0, copies := [{ port }] }

/-- A device with work in every block that a block reset clears. -/
def busyDevice : State :=
  let s := (((base.rset (key .dwCtl) 0).rset (key .tasCycle 3) 77).rset (key .swFrr 2) 1).rset (key .swVlan 9) 5
  let s := ((s.setSwPort 1 { gates := 3, rerouted := true }).setNtPort 1 { esmcTick := 8 }).setSes 5 { next := 4 }
  { s with tal := { draining := true, gen := 4 }, dw := { s.dw with soon := [⟨5, 5, 0, 7000, []⟩] }
           sw := { s.sw with frames := [resetFrame .launch 1, resetFrame .fwd 2] } }

theorem witness_BlockResetsClearTheirBlock :
    let s := busyDevice
    let k := key .glbBlkRst
    let on (n : Nat) (t : State) : Bool := t.rget k == 2 ^ n && t.host.flrTick.isNone
    s.readable .pcie .glbBlkRst = true ∧
    goes (.blockResetDw .pcie) s (fun t => on 0 t && t.rget (key .dwCtl) == regReset (key .dwCtl) && t.dw.soon.isEmpty) = true ∧
    goes (.blockResetDrv .pcie) s (fun t => on 1 t && decide (t.getDrv 3 = {}) && t.rget (key .dwCtl) == 0) = true ∧
    goes (.blockResetCal .pcie) s (fun t => on 2 t && t.cal.runs.isEmpty && t.cal.long.isNone && decide (t.eo = s.eo)) = true ∧
    goes (.blockResetTal .pcie) s (fun t => on 3 t && decide (t.tal = { gen := 5 })) = true ∧
    goes (.blockResetNt .pcie) s (fun t => on 4 t && decide (t.nt.ses = {}) && (t.getNtPort 1).esmcTick == 8) = true ∧
    goes (.blockResetTas .pcie) s (fun t => on 5 t && t.sw.frames.length == 1 && (t.getSwPort 1).gates == 255 && t.rget (key .tasCycle 3) == regReset (key .tasCycle 3)) = true ∧
    goes (.blockResetSwpad .pcie) s (fun t => on 6 t && t.sw.frames.isEmpty && !(t.getSwPort 1).rerouted && t.rget (key .swFrr 2) == regReset (key .swFrr 2) &&
      t.rget (key .swVlan 9) == 5 && t.rget (key .padCntFlush 2) == 1) = true ∧
    goes (.blockResetMem .pcie) s (fun t => on 7 t && t.dramUnavail && decide (t.dram = s.dram)) = true ∧
    (let s := base.rset k 0x80
     bit (s.rget k) 7 = true ∧ goes (.blockResetDone 7) s (fun t => t.rget k == 0) = true ∧
     bit (s.rget k) 3 = false ∧ goes (.blockResetDone 3) s (fun t => decide (t = s)) = true) := by decide +kernel

theorem witness_StartUpAndFunctionLevelReset :
    (State.reset.glb.pinLow = true ∧ State.reset.glb.vaux = true ∧
      goes (.pinResetRelease 9) State.reset (fun t => t.rget (key .glbStrap) == 9 && !t.glb.pinLow) = true) ∧
    (let s := { base with time := {}, glb := { base.glb with level := .pin } }
     s.rstHeld = false ∧ s.time.run = false ∧ s.glb.xo = true ∧ s.glb.level ≠ .warm ∧ s.glb.vaux = true ∧
     goes .timebaseReady s (fun t => t.time.run && t.time.now == 0 && !t.time.valid) = true ∧
     goes .aonShadowAdvance s (fun t => t.time.shadow == 2 ^ 56) = true) ∧
    (let s := { base with time := { base.time with run := false }, glb := { base.glb with level := .warm } }
     s.rstHeld = false ∧ s.glb.level = .warm ∧ goes .timebaseReady s (fun t => t.time.valid) = true) ∧
    (base.rstHeld = false ∧ goes .barAccessReady base (fun t => t.glb.barReady) = true ∧
      base.rget (key .glbBlkRst) = 0 ∧ goes .functionLevelReset base (fun t => bit (t.rget (key .glbRstCause)) 4 && t.time.run && t.host.flrTick == some 6000) = true) ∧
    (State.reset.rstHeld = true ∧ goes .barAccessReady State.reset (fun t => decide (t = State.reset)) = true ∧
      goes .functionLevelReset State.reset (fun t => decide (t = State.reset)) = true) ∧
    (let s := base.rset (key .glbBlkRst) 4
     s.rget (key .glbBlkRst) ≠ 0 ∧ goes .functionLevelReset s (fun t => decide (t = s)) = true) ∧
    (base.time.run = true ∧ goes .aonShadowAdvance base (fun t => decide (t = base)) = true) ∧
    (base.glb.pinLow = false ∧ goes (.pinResetRelease 9) base (fun t => decide (t = base)) = true) := by decide +kernel

/-! ### Device time -/

theorem base_quietNext : base.quietNext := fun _ _ h => nomatch (h : _ ∈ ([] : List (Nat × DrvOut)))

theorem witness_TickAdvancesDeviceTime :
    (base.time.run = true ∧ (base.getDrv 0).outs = [] ∧ base.drv.cells = [] ∧ base.time.suspA = false ∧ base.time.suspB = false ∧
      base.time.reloadA = false ∧ base.time.reloadB = false ∧ base.time.faultOn = false ∧
      base.time.a.val = base.time.b.val ∧ base.time.a.passes base.time.pa = true ∧ base.time.b.passes base.time.pb = true ∧
      goes (.tick {}) base (fun t => t.time.now == 5005 && t.time.a.val == 5006) = true) ∧
    (let s := base.setTime { base.time with a := (ctrLoad 5005).upset 1 false }
     s.time.a.val ≠ s.time.b.val ∧ s.time.a.passes s.time.pa = false ∧ s.time.b.passes s.time.pb = true ∧
     goes (.tick {}) s (fun t => t.time.now == 5005 && t.time.suspA && t.time.reloadA) = true) ∧
    (let s := base.setTime { base.time with b := (ctrLoad 5005).upset 4 false }
     s.time.a.val ≠ s.time.b.val ∧ s.time.a.passes s.time.pa = true ∧ s.time.b.passes s.time.pb = false ∧
     goes (.tick {}) s (fun t => t.time.now == 5005 && t.time.suspB) = true) ∧
    (let s := base.setTime { base.time with a := (ctrLoad 5005).upset 1 false, b := (ctrLoad 5005).upset 4 false }
     s.time.a.val ≠ s.time.b.val ∧ s.time.a.passes s.time.pa = s.time.b.passes s.time.pb ∧
     goes (.tick {}) s (fun t => t.time.faultOn && t.flt.reports.any fun f => f.code == 0x2202) = true) ∧
    (base.tickReady = true ∧ State.reset.tickReady = false ∧
      goes (.tick {}) State.reset (fun t => decide (t = State.reset)) = true) ∧
    (let s := base.setTime { base.time with now := 999999999, pa := 999999999, pb := 999999999, a := ctrLoad (2 ^ 30), b := ctrLoad (2 ^ 30) }
     goes (.tick {}) s (fun t => t.time.now == 1000000000) = true) := by decide +kernel

theorem witness_SoftwareStepAndSteeringCommits :
    (let s := base.fset F.tbCtl_SWSTEP_EN 1
     s.writable .pcie .tbStep = true ∧ s.fbit F.tbCtl_SWSTEP_EN = true ∧ (65536 : BitVec 64).toInt ≠ 0 ∧
     goes (.tbStepCommit .pcie 65536) s (fun t => t.time.reqs == [⟨.sw .pcie, .by_ 65536, 6000⟩]) = true ∧
     (s.time.now * lsbPerNs : Nat) + 4 * (BitVec.ofInt 64 (-2 ^ 40)).toInt < 0 ∧
     goes (.tbStepCommit .pcie (BitVec.ofInt 64 (-2 ^ 40))) s (fun t => t.fbit F.tbStat_STEP_SAT && t.time.reqs == []) = true ∧
     t96Ns (2 ^ 48 : BitVec 96).toNat < 1000000000 ∧
     goes (.tbSetCommit .pcie (2 ^ 48 : BitVec 96)) s (fun t => t.time.reqs == [⟨.sw .pcie, .to_ lsbPerSec, 6000⟩]) = true ∧
     1000000000 ≤ t96Ns (2 ^ 48 - 1 : BitVec 96).toNat ∧
     goes (.tbSetCommit .pcie (2 ^ 48 - 1 : BitVec 96)) s (fun t => t.fbit F.tbStat_WR_ERR) = true) ∧
    (let s := base.fset F.tbCtl_SWSTEP_EN 0
     s.fbit F.tbCtl_SWSTEP_EN = false ∧ goes (.tbStepCommit .pcie 65536) s (fun t => t.fbit F.tbStat_WR_ERR) = true) ∧
    (let s := base.fset F.tbCtl_NCO_SRC 1
     goes (.tbNcoSwWrite .pcie (600000000000 : BitVec 64)) s (fun t => t.fbit F.tbStat_CLAMP && decide (t.time.yNext = some 500000000000)) = true) := by
  decide +kernel

theorem witness_TimeStepApplies :
    (let r : StepReq := ⟨.sw .fw, .by_ 196608, 5000⟩
     let s := base.setTime { base.time with reqs := [r] }
     s.time.run = true ∧ s.time.stepTick ≠ some s.tickNo ∧ stepPick s.tickNo s.time.reqs = some r ∧ r.src ≠ .bw ∧
     goes .timeStepApply s (fun t => t.time.now == 5007 && t.time.reqs == [] && t.time.stepSeq == 1) = true) ∧
    (let r : StepReq := ⟨.sw .fw, .to_ (2 * lsbPerSec), 5999⟩
     let s := base.setTime { base.time with reqs := [r] }
     stepPick s.tickNo s.time.reqs = some r ∧ 2 * lsbPerSec ≠ s.time.now * lsbPerNs ∧
     goes .timeStepApply s (fun t => t.time.now == 2000000000) = true) ∧
    (let s := base.setTime { base.time with reqs := [⟨.sw .fw, .by_ 65536, 6000⟩] }
     stepPick s.tickNo s.time.reqs = none ∧ goes .timeStepApply s (fun t => decide (t = s)) = true) ∧
    (let s := base.setTime { base.time with reqs := [⟨.sw .fw, .to_ lsbPerSec, 5999⟩] }
     goes .timeStepApply s (fun t => t.time.now == 1000000000 && t.dw.evq.any fun e => e.prod == 0x36B) = true) ∧
    (let s := base.setTime { base.time with reqs := [⟨.sw .fw, .by_ (-2 ^ 40), 5999⟩] }
     goes .timeStepApply s (fun t => t.fbit F.tbStat_STEP_SAT && t.time.now == 5004 && t.time.reqs.isEmpty) = true) := by decide +kernel

theorem witness_TimebaseSourceSwaps :
    (let s := base.setTsyn { base.tsyn with src := .tsyn, declared := true }
     s.time.run = true ∧ s.tsyn.src = .tsyn ∧ s.tsyn.declared = true ∧
     goes .tsynSwap s (fun t => decide (t.tsyn.src = .bpll) && t.deg && t.fbit F.synTsynStat_SWAP && t.rget (key .synCntSwap) == 1) = true) ∧
    (let s := (base.fset F.synTsynCtl_RET_EN 1).setTsyn { base.tsyn with src := .bpll, locked := true, aerr := 0, goodSince := some 0 }
     let s := s.fset F.synTsynCtl_RET_HOLD 0
     s.returnOk = true ∧ goes .tsynReturn s (fun t => decide (t.tsyn.src = .tsyn) && !t.deg) = true) ∧
    (base.writable .fw .synTsynCtl = true ∧ goes (.forceBpll .fw 0x0A01) base (fun t => t.fbit F.synTsynCtl_FORCE_BPLL) = true) ∧
    (base.glb.xo = true ∧ goes .xoLoss base (fun t => !t.glb.xo && t.glb.aonRc && t.fbit F.synStat_XO_LOSS &&
      goes .xoReturn t fun u => u.glb.xo && !u.glb.aonRc) = true ∧ goes .xoReturn base (fun t => decide (t = base)) = true) := by decide +kernel

/-! ### Edge outputs -/

/-- A calibrated table with 1 ns of delay. -/
def tab1 : EoTab := { d := 2 ^ 24, p := (List.range 32).map (· * 524288), g := List.replicate 32 131200 }

/-- The running device with one calibrated channel put as given, on. -/
def withEo (n : Nat) (c : Eo) (s : State := base) : State :=
  ((s.fset F.eoCtl_EN 1 n).setEo n c).setCalEo n { tab := some tab1, k := some 0 }

/-- An entry of EO_QE: type, level, start, width, count. -/
def entry (typ : Nat) (level : Bool) (start : Instant) (width : Nat := 0) : Nat := mkEntry typ level false false false 0 (packT96 start) width 0 0

/-- A group that has come to a consumer. -/
def groupAt (x : Nat) (evs : List Stamp) (d : Nat := 0) (s : State := base) : State := s.setDw { s.dw with inbox := [⟨x, evs, s.tickNo - d⟩] }

theorem witness_ActionsAreOffered :
    (base.writable .pcie .eoQe = true ∧
      goes (.eoQeCommit .pcie 63 (BitVec.ofNat 320 (entry 0 true 0))) base (fun t =>
        (t.getEo 63).offers.length == 1 && (t.getQres .pcie 63).seq == 1) = true) ∧
    (base.writable .jtag .eoTe = true ∧ badArgStatic 7 = true ∧
      goes (.eoTeCommit .jtag 0 7) base (fun t => (t.getQres .jtag 0).code == 4 && t.fbit F.eoStat_WR_ERR 0) = true) ∧
    (let s := base.fset F.eoCtl_SRC 1 5
     badArgStatic (entry 0 true 0) = false ∧ srcErrType (s.fget F.eoCtl_SRC 5) 0 = true ∧
      goes (.eoTeCommit .jtag 5 (BitVec.ofNat 320 (entry 0 true 0))) s (fun t => (t.getQres .jtag 5).code == 7) = true) ∧
    (srcErrType (base.fget F.eoCtl_SRC 5) 0 = false ∧
      goes (.eoTeCommit .jtag 5 (BitVec.ofNat 320 (entry 0 true 0))) base (fun t => (t.getQres .jtag 5).code == 0 && (t.getEo 5).slot == 16) = true) ∧
    (let s := groupAt (Con.eoArm 3) [⟨7, 0⟩]
     (findGroup (Con.eoArm 3) 0 s.tickNo s.dw.inbox).isSome = true ∧ goes (.eoArm 3) s (fun t => t.fbit F.eoTrigCtl_ARMED 3) = true) ∧
    (let s := (groupAt (Con.eoTrig 3) [⟨7, 0⟩, ⟨9, 1⟩]).fset F.eoCtl_TRIG_EN 1 3
     s.fbit F.eoTrigCtl_ARMED 3 = false ∧ goes (.eoTrig 3) s (fun t => t.rget (key .eoCntTrigIgn 3) == 2) = true ∧
     (let s := (s.fset F.eoTrigCtl_ARMED 1 3).fset F.eoTrigCtl_ONESHOT 0 3
      s.fbit F.eoTrigCtl_ONESHOT 3 = false ∧ goes (.eoTrig 3) s (fun t => (t.getEo 3).offers.length == 2) = true ∧
      (let s := s.fset F.eoTrigCtl_ONESHOT 1 3
       goes (.eoTrig 3) s (fun t => (t.getEo 3).offers.length == 1 && !t.fbit F.eoTrigCtl_ARMED 3) = true))) := by decide +kernel

/-- A channel with one offer due from PCIe. -/
def offered (e : Nat) (c : Eo := {}) (s : State := base) : State := withEo 0 { c with offers := [⟨.reg .pcie, e, 0, 6000⟩] } s

theorem witness_ActionsAreJudgedAndActivated :
    (let s := offered (entry 9 false 0)
     (pickOffer s.tickNo (s.getEo 0).offers).isSome = true ∧ badArgStatic (entry 9 false 0) = true ∧
     goes (.actionAccept 0) s (fun t => (t.getQres .pcie 0).code == 4 && t.rget (key .eoCntRefuse) == 1) = true) ∧
    (let e := (2 ^ 30 - 1) * 2 ^ 50
     badArgStatic e = false ∧ 1000000000 ≤ t96Ns (eStart e) ∧ goes (.actionAccept 0) (offered e) (fun t => (t.getQres .pcie 0).code == 5) = true) ∧
    (let s := (offered (entry 0 true 0)).fset F.eoCtl_EN 0
     s.fbit F.eoCtl_EN 0 = false ∧ goes (.actionAccept 0) s (fun t => (t.getQres .pcie 0).code == 6) = true) ∧
    (let e := entry 1 false (5028 * lsbPerNs) (10 * 65536)
     let s := offered e
     s.eoCheck 0 e = (0, 0) ∧ (unpackT96 (eStart e)).getD 0 = (s.time.now + 24) * lsbPerNs ∧ (s.getEo 0).cuts = [] ∧
     goes (.actionAccept 0) s (fun t => (t.getEo 0).queue.length == 1 && (t.getQres .pcie 0).code == 0) = true) ∧
    (let e := entry 1 false (5028 * lsbPerNs) (10 * 65536)
     let a : QAct := { id := 0, kind := .pulse, tag := 0, start := 2 ^ 40, first := 2 ^ 40 }
     let s := offered e { queue := List.replicate 64 a }
     s.eoCheck 0 e = (0, 0) ∧ goes (.actionAccept 0) s (fun t => (t.getQres .pcie 0).code == 3) = true) ∧
    (let e := entry 1 false (5028 * lsbPerNs - 1) (10 * 65536)
     let s := offered e
     s.eoCheck 0 e = (0, 0) ∧ (unpackT96 (eStart e)).getD 0 < (s.time.now + 24) * lsbPerNs ∧ s.fbit F.eoCtl_LATE 0 = false ∧ 0 + 1 ≤ s.fget F.dwCtl_GEN_LIMIT ∧
     goes (.actionAccept 0) s (fun t => (t.getQres .pcie 0).code == 2 && t.fbit F.eoStat_LATE 0) = true ∧
     goes (.actionAccept 0) (s.fset F.eoCtl_LATE 1) (fun t => (t.getQres .pcie 0).code == 1 && (t.getEo 0).queue.length == 1) = true) ∧
    (let e := entry 4 false (6000 * lsbPerNs)
     let s := offered e
     s.eoCheck 0 e = (0, 0) ∧ goes (.actionAccept 0) s (fun t => (t.getEo 0).cuts == [⟨6000 * lsbPerNs, 0⟩]) = true) ∧
    (let a (i : Nat) (act : Bool) : QAct := { id := i, kind := .edge, tag := 0, start := 5010 * lsbPerNs, first := 5010 * lsbPerNs, active := act }
     let s := withEo 0 { queue := [a 0 false] }
     (s.activationDue 0).isSome = true ∧ activeCount (s.getEo 0).queue < 4 ∧
     goes (.actionActivate 0) s (fun t => activeCount (t.getEo 0).queue == 1) = true ∧
     (let s := withEo 0 { queue := [a 0 true, a 1 true, a 2 true, a 3 true, a 4 false] }
      (s.activationDue 0).isSome = true ∧ 4 ≤ activeCount (s.getEo 0).queue ∧
      goes (.actionActivate 0) s (fun t => t.fbit F.eoStat_ACT_FULL 0 && (t.getEo 0).queue.length == 4) = true)) ∧
    (let s := withEo 0 { cuts := [⟨5004 * lsbPerNs, 1⟩], queue := [{ id := 0, kind := .edge, tag := 0, start := 2 ^ 40, first := 2 ^ 40 }] }
     ((s.getEo 0).cuts.find? fun x => decide (x.at_ ≤ s.time.now * lsbPerNs)).isSome = true ∧
     goes (.cancelCut 0) s (fun t => (t.getEo 0).queue == [] && (t.getEo 0).cuts == []) = true) ∧
    (let a : QAct := { id := 0, kind := .train, tag := 0, start := 2 ^ 30, first := 2 ^ 30, period := 10 * 2 ^ 34, unlim := true, active := true }
     let s := withEo 0 { cuts := [⟨5004 * lsbPerNs, 1⟩], queue := [a] }
     goes (.cancelCut 0) s (fun t => (t.getEo 0).queue.map (fun b => b.limit) == [some (guardOf (5004 * lsbPerNs))]) = true) := by decide +kernel

/-- A transition of an edge action. -/
def trans (target : Instant) (level : Bool) : Trans := ⟨none, 0, true, target, level, 0, false, true⟩

theorem witness_TransitionsReachTheOutput :
    (let x := trans (5020 * lsbPerNs) true
     let s := withEo 0 { profNext := [x] }
     earliestTrans (filterCands (s.getEo 0)) = some x ∧ s.launchTick 0 x.target ≤ (s.time.now : Int) + 17 ∧ x.level ≠ (s.getEo 0).flevel ∧
     goes (.transitionFilter 0) s (fun t => (t.getEo 0).filter == [x]) = true ∧
     (let s := withEo 0 { profNext := [x], flevel := true }
      goes (.transitionFilter 0) s (fun t => t.rget (key .eoCntNull) == 1) = true) ∧
     (let p := trans (5020 * lsbPerNs - 65535) false
      let s := withEo 0 { profNext := [x], filter := [p] }
      (s.getEo 0).filter.getLast? = some p ∧ x.target < p.target + 65536 ∧
      goes (.transitionFilter 0) s (fun t => t.rget (key .eoCntRunt) == 1 && (t.getEo 0).filter == []) = true) ∧
     (let s := withEo 0 { filter := [x] }
      s.launchTick 0 x.target ≤ (s.time.now : Int) + 16 ∧ s.filterWaits 0 x = false ∧
      goes (.transitionCommit 0) s (fun t => (t.getEo 0).committed.length == 1 && (t.getEo 0).filter == []) = true ∧
      goes (.transitionCommit 0) (withEo 0 { filter := [x], dropNext := true }) (fun t => (t.getEo 0).committed == [] && (t.getEo 0).filter == []) = true ∧
      (let k := (toGrid ((s.calRelease 0).commitTable 0 x.target).1 x.target).tick
       2 ≤ loadAt [k, k] k ∧
       goes (.transitionCommit 0) (withEo 0 { filter := [x], tickLoad := [k, k] }) (fun t => (t.getEo 0).dropNext && t.fbit F.eoStat_RATE 0) = true)) ∧
     (let s := withEo 0 { filter := [x], profNext := [trans (5020 * lsbPerNs + 65535) false] }
      s.filterWaits 0 x = true ∧ goes (.transitionCommit 0) s (fun t => decide (t = s)) = true) ∧
     (let s := withEo 0 { filter := [trans (9000 * lsbPerNs) true] }
      goes (.transitionCommit 0) s (fun t => decide (t = s)) = true)) ∧
    (let l : Launch := ⟨trans (5004 * lsbPerNs) true, 5004, 0, 0, 0⟩
     let s := withEo 0 { committed := [l] }
     l.tick ≤ (s.time.now : Int) ∧ l.tr.tag ≤ s.fget F.dwCtl_GEN_LIMIT ∧
     goes (.transitionLaunch 0) s (fun t => (t.getEo 0).level && t.rget (key .eoCntIss) == 1 && t.dw.evq.length == 1) = true) ∧
    (let w (hit : Option Instant) : Win := ⟨4000 * lsbPerNs, true, 0, false, false, true, 0, true, hit, false, 5000⟩
     let s (hit : Option Instant) := withEo 0 { wins := [w hit] }
     let good := 4000 * lsbPerNs + 4
     let bad := 4005 * lsbPerNs
     (((s (some good)).getEo 0).wins.find? (winReady (s none).tickNo)).isSome = true ∧
     (spanBetween good (4000 * lsbPerNs)).val.natAbs * 1000000 ≤ base.verifyTol 0 * 65536 ∧
     goes (.edgeVerify 0) (s (some good)) (fun t => t.rget (key .eoCntVer) == 1) = true ∧
     base.verifyTol 0 * 65536 < (spanBetween bad (4000 * lsbPerNs)).val.natAbs * 1000000 ∧
     goes (.edgeVerify 0) (s (some bad)) (fun t => t.rget (key .eoCntDisp) == 1) = true ∧
     goes (.edgeVerify 0) (s none) (fun t => t.rget (key .eoCntMiss) == 1) = true) := by decide +kernel

/-- A profile with no wait. -/
def cap (cont halt : Bool) : ProfCap := ⟨false, 1, halt, true, 100, 0, 0, 5, cont, 0, [⟨10, 1⟩]⟩

theorem witness_ChannelsBanksAndProfiles :
    (base.writable .pcie .eoCtl = true ∧ base.fbit F.eoCtl_EN 0 = false ∧ base.glb.limited = false ∧
      goes (.eoEnable .pcie 0 5) base (fun t => t.fbit F.eoCtl_EN 0 && (t.getEo 0).level) = true) ∧
    (let s := withEo 0 { level := true, queue := [{ id := 0, kind := .edge, tag := 0, start := 2 ^ 40, first := 2 ^ 40 }] }
     s.fbit F.eoCtl_EN 0 = true ∧ s.bankOn 0 = true ∧ s.fbit F.eoCtl_IDLE 0 = false ∧
     goes (.eoDisable .pcie 0 0) s (fun t => !t.fbit F.eoCtl_EN 0 && (t.getEo 0).queue == [] && (t.getEo 0).committed.length == 1) = true) ∧
    (base.writable .pcie .eoBankCtl = true ∧ base.fbit F.eoBankCtl_PWR 7 = true ∧
      goes (.bankPowerDown .pcie 7) base (fun t => !t.fbit F.eoBankCtl_PWR 7 &&
        goes (.bankPowerUp .pcie 7) t (fun u => u.fbit F.eoBankCtl_PWR 7 && (u.getEo 56).poweringUp &&
          goes (.bankPowerUpDone 7) u (fun v => !(v.getEo 56).poweringUp))) = true) ∧
    (let s0 : State := (withEo 0 { level := true }).setFlt { base.flt with reacts := [none] }
     s0.flt.reacts[(s0.getEo 0).reactSeen]? = some none ∧
     goes (.eoFaultReaction 0) (s0.fset F.dwFlCtl_REACT 1) (fun t => decide ((t.getEo 0).stand = .quiet)) = true ∧
     goes (.eoFaultReaction 0) (s0.fset F.dwFlCtl_REACT 2) (fun t => decide ((t.getEo 0).stand = .freeze)) = true ∧
     goes (.eoFaultReaction 0) (s0.fset F.dwFlCtl_REACT 0) (fun t => (t.getEo 0).reactSeen == 1) = true) ∧
    (let a (c : ProfCap) : QAct := { id := 4, kind := .prof, tag := 0, start := 5028 * lsbPerNs, first := 5028 * lsbPerNs, prof := some c }
     let s (c : ProfCap) := withEo 0 { queue := [a c] }
     (((s (cap false false)).getEo 0).queue.find? fun x =>
       !x.active && decide (x.kind = .prof) && decide (nsOf x.start ≤ base.time.now + 24)).isSome = true ∧
     goes (.profStart 0) (s (cap false false)) (fun t => (t.getEo 0).engine.isSome) = true ∧
     goes (.profStart 0) (s (cap true false)) (fun t => (t.getEo 0).engine.isNone && t.fbit F.eoStat_PROF_ERR 0) = true ∧
     (let e0 : Engine := { act := 3, tag := 0, x := 7, v := 5, h := 0, left := 100, segs := [], tick := 5020, cap := cap false false }
      let s := withEo 0 { queue := [a (cap true false)], engine := some e0 }
      (engineAtTick [] e0 5028).isSome = true ∧
      goes (.profStart 0) s (fun t => (t.getEo 0).engine.any fun e => e.act == 4 && e.x == 47 && e.v == 5 && e.tick == 5028) = true) ∧
     (let s := withEo 0 { queue := [a (cap false false)], cuts := [⟨5028 * lsbPerNs, 9⟩] }
      goes (.profStart 0) s (fun t => (t.getEo 0).engine.isNone) = true)) ∧
    (let e (segs : List Seg) (c : ProfCap) : Engine := { act := 0, tag := 0, x := 0, v := 5, segs := segs, tick := 5020, cap := c }
     goes (.profileSegmentEnd 0) (withEo 0 { engine := some (e [⟨10, 1⟩] (cap false false)) }) (fun t =>
       decide ((t.getEo 0).engine.map Engine.left = some 10)) = true ∧
     goes (.profileSegmentEnd 0) (withEo 0 { engine := some { e [] (cap false false) with h := 3 } }) (fun t =>
       decide ((t.getEo 0).engine.map Engine.h = some 0)) = true ∧
     goes (.profileSegmentEnd 0) (withEo 0 { engine := some (e [] (cap false true)) }) (fun t => (t.getEo 0).engine.isNone) = true) := by decide +kernel

/-! ### Time-interval units and Tally -/

/-- The running device with one unit put as given, in a mode (1 TIMESTAMP, 2 INTERVAL), both edges, measuring without end. -/
def withTiu (u mode : Nat) (c : Tiu) (s : State := base) : State :=
  (((s.fset F.tiuCtl_MODE mode u).fset F.tiuCtl_EDGES 0 u).fset F.tiuCtl_CONT 1 u).setTiu u c

theorem witness_TiuHitsBecomeRecords :
    (let s := withTiu 0 1 {}
     s.ownSelects 0 true = true ∧ s.tiuMode 0 ≠ 3 ∧ (s.getTiu 0).calHeld = false ∧ (s.getTiu 0).lastHit = none ∧ s.hitTag 0 ≤ s.fget F.dwCtl_GEN_LIMIT ∧
     goes (.tiuHitCapture 0 1023 true) s (fun t => (t.getTiu 0).flight.length == 1 && t.rget (key .tiuCntHit) == 1 && t.dw.soon.length == 1) = true) ∧
    (let s := withTiu 95 1 {}
     s.ownSelects 95 false = true ∧ (s.getEo 63).poweringUp = false ∧ goes (.tiuHitCapture 95 0 false) s (fun t => (t.getTiu 95).flight.length == 1) = true) ∧
    (let p := 6000 * 1024 + 7 - 6143
     let s := withTiu 0 1 { lastHit := some p }
     6000 * 1024 + 7 < p + 6144 ∧ goes (.tiuHitCapture 0 7 true) s (fun t => t.rget (key .tiuCntClose) == 1 && t.fbit F.tiuStat_CLOSE 0) = true ∧
     p + 6144 ≤ 6000 * 1024 + 8 ∧ goes (.tiuHitCapture 0 8 true) s (fun t => t.rget (key .tiuCntHit) == 1) = true ∧
     (let s := ((s.fset F.tiuCtl_MODE 2 5).fset F.tiuSel_STOP_SRC 1 5).fset F.tiuSel_STOP_EDGES 0 5
      s.stopTakers 0 true = [5] ∧ goes (.tiuHitCapture 0 7 true) s (fun t => t.fbit F.tiuStat_CLOSE 5) = true)) ∧
    (let s := withTiu 0 1 { calHeld := true }
     s.ownSelects 0 true = true ∧ goes (.tiuHitCapture 0 7 true) s (fun t => t.rget (key .tiuCntCalhold) == 1 && !(t.getTiu 0).calHeld) = true) ∧
    (let f : Flight := ⟨4976, 5972, 3, true, true, 0, none, true, false⟩
     let s := withTiu 0 1 { flight := [f] }
     f.tick + 28 ≤ s.tickNo ∧ s.armAdmits 0 (s.stampOf 0 f.tk f.code) = true ∧ s.tiuMode 0 = 1 ∧
     goes (.tiuRecordComplete 0 false) s (fun t => (t.getTiu 0).fifo.length == 1 && (t.getTiu 0).flight == []) = true ∧
     (let s := (withTiu 0 2 { flight := [f], half := some ⟨true, 4000 * lsbPerNs, true, true, 0, 5000, none, true, false⟩ }).fset F.tiuSel_STOP_EDGES 0 0
      let s := s.fset F.tiuSel_STOP_SRC 0 0
      s.tiuMode 0 = 2 ∧ senseOk (s.fget F.tiuSel_STOP_EDGES 0) true = true ∧ s.armAdmits 0 (s.stampOf 0 f.tk f.code) = true ∧
      goes (.tiuRecordComplete 0 false) s (fun t => ((t.getTiu 0).fifo.map fun r => r.rcd.time) == [4000 * lsbPerNs]) = true)) ∧
    (let s := { withTiu 0 2 { half := some ⟨true, 7, true, true, 0, 5, none, true, false⟩ } with tickNo := 5 + 2 ^ 24 }
     goes (.tiuOverflow 0) s (fun t => t.fbit F.tiuStat_OVF 0 && (t.getTiu 0).half.isNone) = true) ∧
    (let s := withTiu 0 2 { half := some ⟨true, 7, true, true, 0, 5990, some (5004 * lsbPerNs), true, false⟩ }
     s.tiuExpiry 0 = some (5004 * lsbPerNs) ∧ s.flightBefore 0 (5004 * lsbPerNs) = false ∧ goes (.tiuTimeout 0) s (fun t => t.fbit F.tiuStat_TIMEOUT 0 && (t.getTiu 0).half.isNone) = true) ∧
    (let s := groupAt (Con.tiuStart 0) [⟨5000 * lsbPerNs, 2⟩] 0 ((withTiu 0 2 {}).fset F.tiuSel_START_SRC 1 0)
     s.armAdmits 0 (5000 * lsbPerNs) = true ∧ s.fget F.tiuSel_START_SRC 0 = 1 ∧ goes (.tiuStart 0) s (fun t => (t.getTiu 0).half.isSome) = true) ∧
    (let s := groupAt (Con.tiuStop 0) [⟨5000 * lsbPerNs, 2⟩] 0
       ((withTiu 0 2 { half := some ⟨true, 4000 * lsbPerNs, true, true, 0, 5000, none, true, false⟩ }).fset F.tiuSel_STOP_SRC 2 0)
     s.fget F.tiuSel_STOP_SRC 0 = 2 ∧ goes (.tiuStop 0) s (fun t => (t.getTiu 0).fifo.length == 1 && (t.getTiu 0).half.isNone) = true) := by decide +kernel

/-- The running device with Tally enabled on a ring of some records. -/
def talOn (size : Nat) (x : Tally) (s : State := base) : State := ((s.fset F.talCtl_EN 1).fset F.talSize_SIZE size).setTal x

theorem witness_TiuArmsAndReadout :
    (let s := (withTiu 0 1 {}).fset F.tiuCtl_CONT 0 0
     s.armIgnored 0 = false ∧ s.writable .pcie .tiuArm = true ∧ bit (0x80000005 : BitVec 32).toNat 30 = false ∧
     (let g := groupAt (Con.tiuArm 0) [⟨5005 * lsbPerNs, 2⟩] 0 (s.fset F.tiuArm_COUNT 3 0)
      goes (.tiuArm 0 none) g (fun t => (t.getTiu 0).arm.isNone && (t.getTiu 0).ins.length == 1) = true) ∧
     goes (.tiuArm 0 (some (.pcie, 0x80000005))) s (fun t => decide ((t.getTiu 0).arm.map Arm.left = some 5)) = true ∧
     goes (.tiuArm 0 (some (.pcie, 0x80000000))) s (fun t => (t.getTiu 0).arm.isNone) = true ∧
     (let g := groupAt (Con.tiuArm 0) [⟨5004 * lsbPerNs - 32 * lsbPerNs, 2⟩] 0 (s.fset F.tiuArm_COUNT 3 0)
      0 < g.fget F.tiuArm_COUNT 0 ∧ goes (.tiuArm 0 none) g (fun t => decide ((t.getTiu 0).arm.map Arm.tag = some 2)) = true) ∧
     (let g := groupAt (Con.tiuArm 0) [⟨5004 * lsbPerNs - 32 * lsbPerNs - 1, 2⟩] 0 (s.fset F.tiuArm_COUNT 3 0)
      goes (.tiuArm 0 none) g (fun t => t.fbit F.tiuStat_ARM_LATE 0) = true) ∧
     (let a := s.setTiu 0 { arm := some ⟨0, 5, 0, none⟩ }
      let g := groupAt (Con.tiuArm 0) [⟨5004 * lsbPerNs, 2⟩] 0 (a.fset F.tiuArm_COUNT 0 0)
      g.armIgnored 0 = false ∧ goes (.tiuArm 0 none) g (fun t => (t.getTiu 0).arm.isNone) = true ∧
      goes (.tiuDisarm .pcie 0 0x40000000) a (fun t => (t.getTiu 0).arm.isNone) = true ∧
      goes (.tiuDisarm .pcie 0 0xC0000000) a (fun t => (t.getTiu 0).arm.isSome && t.fbit F.tiuStat_WR_ERR 0) = true)) ∧
    (let s := withTiu 31 1 { half := some ⟨true, 7, true, true, 0, 5990, none, true, false⟩ }
     s.writable .fw .tiuCtl = true ∧ bits (2 : Nat) 5 0 ≠ bits (s.rget (key .tiuCtl 31)) 5 0 ∧
     goes (.tiuCtlWrite .fw 31 2) s (fun t => (t.getTiu 31).half.isNone && t.fget F.tiuCtl_MODE 31 == 2) = true ∧
     s.fget F.tiuCtl_MODE 31 ≠ 4 ∧ goes (.tiuCtlWrite .fw 31 4) s (fun t => t.fget F.tiuCtl_MODE 31 == 1 && t.fbit F.tiuStat_WR_ERR 31) = true) ∧
    (let r : Rec := ⟨1, 2, 0, 0, 0, 0⟩
     let s := (withTiu 0 1 { fifo := [⟨r, none⟩] }).fset F.tiuCtl_RDQ 1 0
     (s.getTiu 0).nextDrain ≤ 2 * s.tickNo ∧ goes (.tiuFifoDrain 0) s (fun t => (t.getTiu 0).rdq == [r] && (t.getTiu 0).nextDrain == 12025) = true ∧
     (let s := talOn 64 {} (s.fset F.tiuCtl_TALLY 1 0)
      s.talActive = true ∧ goes (.tiuFifoDrain 0) s (fun t => t.tal.offers.length == 1 && t.rget (key .talCntIn) == 1) = true) ∧
     goes (.tiuFifoDrain 0) (s.fset F.tiuCtl_RDQ 0 0) (fun t => (t.getTiu 0).rdq == []) = true ∧
     goes (.tiuFifoDrain 0) (s.setTiu 0 { fifo := [⟨r, none⟩], rdq := List.replicate 16 r }) (fun t => t.fbit F.tiuStat_RDQ_OVF 0) = true ∧
     goes (.tiuResRead .fw 0) (s.setTiu 0 { rdq := [r] }) (fun t => (t.getTiu 0).rdq == [] && t.resp.data == r.pack % 2 ^ 32) = true ∧
     goes (.tiuResRead .fw 0) s (fun t => t.latchOf .fw (key .tiuRes) == 0xC000 * 2 ^ 128) = true) := by decide +kernel

theorem witness_TallyTakesWritesAndFreezes :
    (let r : Rec := ⟨1, 2, 0, 0, 0, 0⟩
     let s := talOn 64 { offers := [⟨r, 5999⟩] }
     (pickTal s.tal.offers).isSome = true ∧ s.tal.takenTick ≠ s.tickNo ∧ s.talActive = true ∧ s.dramUnavail = false ∧ s.fbit F.glbBlkRst_TAL = false ∧
     s.tal.lost = 0 ∧ s.tal.marks = [] ∧ goes .tallyRecordIn s (fun t => t.tal.buf.length == 1 && t.rget (key .talCntIn) == 0) = true ∧
     (let s := talOn 0 { offers := [⟨r, 5999⟩] }
      goes .tallyRecordIn s (fun t => t.rget (key .talCntDisc) == 1) = true) ∧
     (let s := s.setGlb { s.glb with dramReady := false }
      s.dramUnavail = true ∧ goes .tallyRecordIn s (fun t => t.rget (key .talCntLost) == 1 && t.fbit F.talStat_LOST) = true) ∧
     (let s := talOn 64 { buf := [⟨r, false⟩] }
      s.fbit F.talStat_FROZEN = false ∧ s.fbit F.talStat_FULL = false ∧ s.talBlocked = false ∧ Memory.wf dramUnl s.dram = true ∧
      goes .tallyWrite s (fun t => t.fget F.talWptr_WPTR == 1 && t.tal.buf == []) = true ∧
      goes .tallyWrite (s.fset F.talWptr_WPTR 63) (fun t => t.fget F.talWptr_WPTR == 0 && t.rget (key .talWraps) == 1) = true ∧
      goes .tallyWrite ((s.fset F.talWptr_WPTR 63).fset F.talCtl_MODE 1) (fun t => t.fbit F.talStat_FULL) = true) ∧
     (let s := groupAt Con.talTrig [⟨9, 0⟩] 0 ((talOn 64 {}).fset F.talCtl_TRIG_EN 1)
      s.fbit F.talStat_TRIGGERED = false ∧ goes .talTrig s (fun t => t.fbit F.talStat_TRIGGERED && t.fget F.talTrigTime_TT == 9) = true ∧
      goes (.talFire .pcie 0x31) s (fun t => t.fbit F.talStat_TRIGGERED) = true)) ∧
    (let s := (talOn 64 {}).fset F.talStat_TRIGGERED 1
     s.fget F.talPost_POST ≤ s.tal.post ∧ (unpackT96 (s.fget F.talTrigTime_TT)).getD 0 + 3000 * lsbPerNs ≤ s.time.now * lsbPerNs ∧
     goes .tallyFreeze s (fun t => t.fbit F.talStat_FROZEN) = true ∧
     goes .tallyFreeze (s.fset F.talPost_POST 1) (fun t => !t.fbit F.talStat_FROZEN) = true) ∧
    (goes .tallyDrainDone (base.setTal { draining := true }) (fun t => !t.tal.draining) = true) ∧
    (let s := base.fset F.talSize_SIZE 134217728
     s.writable .pcie .talCtl = true ∧ s.fbit F.talCtl_EN = false ∧ bit 0x11 7 = false ∧ s.fget F.talBase_BASE + s.fget F.talSize_SIZE ≤ 134217728 ∧
     goes (.tallyEnable .pcie 0x11) s (fun t => t.fbit F.talCtl_EN && t.tal.buf.length == 1) = true ∧
     (let s := s.fset F.talBase_BASE 32
      ¬ s.fget F.talBase_BASE + s.fget F.talSize_SIZE ≤ 134217728 ∧
      goes (.tallyEnable .pcie 0x01) s (fun t => !t.fbit F.talCtl_EN && t.fbit F.talStat_WR_ERR) = true)) ∧
    (goes (.tallyDisable .pcie 0) (talOn 64 {}) (fun t => !t.fbit F.talCtl_EN && t.tal.draining) = true) := by decide +kernel

/-! ### The Droveway -/

/-- Channel 255 takes DW_SWF 0 and feeds Tally's trigger; one such event has been raised two ticks ago. -/
def chan (s : State := base) : State :=
  let e : Ev := ⟨Prod.swf 0, 5000 * lsbPerNs, 3, 5998, []⟩
  let s1 := ((s.fset F.dwChCfg_EN 1 255).fset F.dwChSrc_SRC_A (Prod.swf 0) 255).setDw { s.dw with evq := [e] }
  (s1.fset F.dwConSel_MODE 2 Con.talTrig).fset F.dwConSel_CH 255 Con.talTrig

/-- The event-output pin 15 fed by channel 0. -/
def pinned (mode width : Nat) : State :=
  let s := groupAt (Con.evout 15) [⟨5000 * lsbPerNs, 2⟩] 1
  ((s.fset F.dwConSel_MODE 2 (Con.evout 15)).fset F.dwEvoutCtl_MODE mode 15).fset F.dwEvoutCtl_WIDTH width 15

theorem witness_DrovewayCarriesEvents :
    (base.time.run = true) ∧
    (let s := chan
     s.channelGroup 255 ≠ [] ∧ s.fbit F.dwChCfg_ASYNC 255 = false ∧ s.gateOf 255 = true ∧ s.consumersOf 255 = [Con.talTrig] ∧
     s.conHeld Con.talTrig = false ∧
     goes (.dwChannelEvent 255) s (fun t => t.rget (key .dwChCnt 255) == 1 && t.dw.inbox.length == 1) = true ∧
     (let s := s.fset F.dwChCfg_GINV 1 255
      s.gateOf 255 = false ∧ goes (.dwChannelEvent 255) s (fun t => t.fbit F.dwChStat_GATED 255 && t.dw.inbox.isEmpty) = true) ∧
     goes (.dwChannelEvent 255) (s.fset F.dwChCfg_EN 0 255) (fun t => t.rget (key .dwChCnt 255) == 0) = true) ∧
    (((base.dw.evin.get {} 15).level ≠ true) ∧ (base.fset F.dwEvinCtl_EDGES 3 15).fget F.dwEvinCtl_EDGES 15 = 3 ∧
     goes (.evinEdge 15 true) (base.fset F.dwEvinCtl_EDGES 3 15) (fun t => t.dw.evq == []) = true ∧
     (let s := base.fset F.dwEvinCtl_EDGES 0 15
      senseOk 0 true = true ∧ goes (.evinEdge 15 true) s (fun t => t.dw.soon == [⟨Prod.evin 15, 5002 * lsbPerNs, 0, 6003, []⟩]) = true)) ∧
    (let s := (base.fset F.dwTmrPeriod_PERIOD (1000 * lsbPerNs / 4) 7).fset F.dwTmrAnchor_ANCHOR (packT96 (5006 * lsbPerNs)) 7
     s.writable .pcie .dwTmrCtl = true ∧ s.tmrInstant 7 0 = (s.time.now + 2) * lsbPerNs ∧
     goes (.dwTmrEnable .pcie 7 3) s (fun t => t.fbit F.dwTmrCtl_EN 7 && !t.fbit F.dwTmrCtl_SKIP 7) = true ∧
     (let s := s.fset F.dwTmrAnchor_ANCHOR (packT96 (5006 * lsbPerNs - 1)) 7
      s.tmrInstant 7 0 < (s.time.now + 2) * lsbPerNs ∧ 0 < s.fget F.dwTmrPeriod_PERIOD 7 ∧
      goes (.dwTmrEnable .pcie 7 3) s (fun t => t.fbit F.dwTmrCtl_SKIP 7 && t.dw.timers.get 0 7 == 1) = true) ∧
     (let s := ((s.fset F.dwTmrCtl_EN 1 7).fset F.dwTmrCount_COUNT 1 7).fset F.dwTmrAnchor_ANCHOR (packT96 (5004 * lsbPerNs)) 7
      s.tmrOver 7 0 = false ∧ nsOf (s.tmrInstant 7 0) ≤ s.time.now ∧
      goes (.dwTmrInstant 7) s (fun t => t.fbit F.dwTmrCtl_DONE 7 && !t.fbit F.dwTmrCtl_EN 7 && t.dw.evq.length == 1) = true ∧
      (let s := s.fset F.dwTmrAnchor_ANCHOR (packT96 (5005 * lsbPerNs)) 7
       s.time.now < nsOf (s.tmrInstant 7 0) ∧ s.tmrOver 7 0 = false ∧ goes (.dwTmrInstant 7) s (fun t => t.dw.evq == []) = true))) ∧
    (base.writable .fw .dwSwf = true ∧ goes (.swfFire .fw 0x8001) base (fun t => t.dw.evq.map Ev.prod == [Prod.swf 0, Prod.swf 15]) = true) ∧
    (let s := pinned 1 0
     (findGroup (Con.evout 15) 1 s.tickNo s.dw.inbox).isSome = true ∧ bits (s.inForce (key .dwConSel (Con.evout 15))) 29 28 = 2 ∧ s.fbit F.dwChCfg_ASYNC 0 = false ∧
     goes (.evoutEvent 15) s (fun t => (t.dw.evout.get {} 15).level) = true ∧
     goes (.evoutEvent 15) (pinned 0 9) (fun t => decide (t.dw.evout.get {} 15 = ⟨true, some 6009⟩)) = true) ∧
    (let s := base.setDw { base.dw with evout := base.dw.evout.put id {} 15 ⟨true, some 6000⟩ }
     (s.dw.evout.get {} 15).pulseEnd = some 6000 ∧ goes (.evoutPulseEnd 15) s (fun t => t.dw.evout == {}) = true) ∧
    (goes (.asyncSourceLevelChange 0x0F true) base (fun t => t.dw.evpin.get false 15) = true ∧
     goes (.asyncSourceLevelChange 0x11 true) base (fun t => t.dw.ppsin.get false 1) = true ∧
     goes (.asyncSourceLevelChange 0x3F true) base (fun t => t.dw.ti.get false 31) = true) := by decide +kernel

theorem witness_DrovewayConfiguration :
    (let s := groupAt (Con.flockDis 31) [⟨5004 * lsbPerNs - 32 * lsbPerNs, 2⟩]
     (findGroup (Con.flockDis 31) 0 s.tickNo s.dw.inbox).isSome = true ∧ 3 ≤ s.fget F.dwCtl_GEN_LIMIT ∧ flockAt (s.flockLog 31) (4972 * lsbPerNs) = true ∧
     (∀ c ∈ s.flockLog 31, c.at_ ≠ 4972 * lsbPerNs) ∧ ((s.flockLog 31).filter fun c => decide (4972 * lsbPerNs < c.at_)).length < 8 ∧
     goes (.flockDis 31) s (fun t => !flockAt (t.flockLog 31) (4972 * lsbPerNs) && t.dw.evq.length == 1 && !t.fbit F.dwStat_FL_LATE) = true ∧
     goes (.flockDis 31) (groupAt (Con.flockDis 31) [⟨4972 * lsbPerNs - 1, 2⟩])
       (fun t => flockAt (t.flockLog 31) (5003 * lsbPerNs) && !t.flockNow 31 && t.fbit F.dwStat_FL_LATE) = true) ∧
    (base.writable .pcie .dwFlCtl = true ∧ base.flockNow 0 = true ∧ (∀ c ∈ base.flockLog 0, c.at_ < base.time.now * lsbPerNs) ∧
     goes (.flockStateWrite .pcie 0 0x20) base (fun t => !t.flockNow 0 && t.fget F.dwFlCtl_REACT 0 == 2 && t.dw.evq.length == 1) = true ∧
     (let s := groupAt (Con.flockEn 0) [⟨5004 * lsbPerNs, 2⟩] 0 (base.setDw { base.dw with disAt := base.dw.disAt.put id [] 0 [5004 * lsbPerNs] })
      5004 * lsbPerNs ∈ s.dw.disAt.get [] 0 ∧ goes (.flockEn 0) s (fun t => t.dw.flocks == s.dw.flocks) = true) ∧
     goes (.flockStateWrite .pcie 0 0x11) base (fun t => t.dw.evq == [] && t.fget F.dwFlCtl_REACT 0 == 1) = true) ∧
    (base.writable .pcie .dwChCfg = true ∧ base.mayWriteCh .pcie 255 = true ∧ base.fbit F.dwChOwn_LOCK 255 = false ∧ base.chBusy 255 = false ∧
     goes (.dwChannelEnable .pcie 255 1) (base.fset F.dwChOwn_LOCK 1 255) (fun t => t.fbit F.dwStat_LOCK_ERR && !t.fbit F.dwChCfg_EN 255) = true ∧
     (let s := base.fset F.dwChSrc_SRC_A 0x433 255
      prodListed 0x433 = true ∧ goes (.dwChannelEnable .pcie 255 1) s (fun t => t.fbit F.dwChCfg_EN 255) = true) ∧
     (let s := base.fset F.dwChSrc_SRC_A 0x434 255
      prodListed 0x434 = false ∧ goes (.dwChannelEnable .pcie 255 1) s (fun t => t.fget F.dwChStat_RES 255 == 4 && !t.fbit F.dwChCfg_EN 255) = true) ∧
     goes (.dwChannelEnable .pcie 255 3) base (fun t => t.chBusy 255 && t.fget F.dwChStat_RES 255 == 15) = true ∧
     (let s := base.fset F.dwChCfg_EN 1 255
      s.fbit F.dwChCfg_EN 255 = true ∧ goes (.dwChannelDisable .pcie 255 0) s (fun t => !t.fbit F.dwChCfg_EN 255) = true)) ∧
    (let s := ((base.fset F.dwChCfg_ASYNC 1 255).fset F.dwChSrc_SRC_A 0 255).setDw { base.dw with checking := base.dw.checking.put id false 255 true }
     s.chBusy 255 = true ∧ s.fbit F.dwChCfg_EN 255 = false ∧ s.asyncCheck 255 = 0 ∧
     goes (.dwChannelDisable .pcie 255 2) s (fun t => !t.chBusy 255 && t.fget F.dwChStat_RES 255 == 5) = true ∧
     goes (.dwEnableCheckDone 255) s (fun t => t.fbit F.dwChCfg_EN 255 && t.fget F.dwChStat_RES 255 == 0) = true ∧
     (let s := s.fset F.dwChSrc_SRC_A 0x1FF 255
      s.asyncCheck 255 = 1 ∧ goes (.dwEnableCheckDone 255) s (fun t => !t.fbit F.dwChCfg_EN 255 && t.fget F.dwChStat_RES 255 == 1) = true)) ∧
    (base.writable .smbus .dwChOwn = true ∧ base.mayWriteCh .smbus 0 = true ∧
     goes (.dwChOwnWrite .smbus 0 0x152) base (fun t => t.fget F.dwChOwn_OWNER 0 == 2 && t.fget F.dwChOwn_DRV 0 == 5 && t.fbit F.dwChOwn_SEC 0 && t.ownOf 0 == 0) = true ∧
     (let s := (base.fset F.dwChOwn_OWNER 1 0).fset F.dwChOwn_SEC 1 0
      s.mayWriteCh .smbus 0 = false ∧ s.isSecure 0 = true ∧
      goes (.dwChOwnWrite .smbus 0 0) s (fun t => t.fbit F.dwStat_OWN_ERR && t.bbr.offers.length == 1) = true)) ∧
    (base.writable .jtag .dwConSel = true ∧ conListed 0x3A6 = false ∧ goes (.dwConSelWrite .jtag 0x3A6 0x20000000) base (fun t => decide (t = base)) = true ∧
     conListed 1075 = true ∧ selModeOk 1075 0x200000FF = true ∧ base.selChOk 1075 0x200000FF = true ∧ base.secureOf 0x200000FF = none ∧ base.secureOf (base.rget (key .dwConSel 1075)) = none ∧
     goes (.dwConSelWrite .jtag 1075 0x200000FF) base (fun t => t.fget F.dwConSel_CH 1075 == 255 && t.inForce (key .dwConSel 1075) == 0) = true ∧
     goes (.dwConSelWrite .jtag 1075 0x200000FF) (base.fset F.dwConSel_LOCK 1 1075) (fun t => t.fbit F.dwStat_LOCK_ERR && t.fget F.dwConSel_CH 1075 == 0) = true ∧
     selModeOk 1075 0x300000FF = false ∧ goes (.dwConSelWrite .jtag 1075 0x300000FF) base (fun t =>
       t.fbit F.dwStat_WR_ERR && t.fget F.dwConSel_MODE 1075 == base.fget F.dwConSel_MODE 1075 && t.fget F.dwConSel_CH 1075 == 255) = true ∧
     (let s := (base.fset F.dwChOwn_OWNER 1 255).fset F.dwChOwn_SEC 1 255
      s.secureOf 0x200000FF = some 255 ∧ s.isOwner .jtag 255 = false ∧ goes (.dwConSelWrite .jtag 1075 0x200000FF) s (fun t => t.fbit F.dwStat_OWN_ERR) = true)) := by decide +kernel

/-! ### Drover tasks -/

/-- The device with one task put as given, and one with a Drover put as given. -/
def withTask (d k : Nat) (t : Task) (s : State := base) : State := s.setTask d k t

/-- A condition on one task after a command. -/
def taskGoes (i : Instr) (s : State) (d k : Nat) (P : Task → Bool) : Bool := goes i s fun t => P (t.getTask d k)

theorem witness_TaskWaitsEnd :
    (let s := groupAt (Con.drvIn 15 7 3) [⟨4999 * lsbPerNs, 2⟩, ⟨5000 * lsbPerNs, 5⟩]
     (findGroup (Con.drvIn 15 7 3) 0 s.tickNo s.dw.inbox).isSome = true ∧ s.fbit F.glbBlkRst_DRV = false ∧
     taskGoes (.drvInGroup 15 7 3) s 15 7 (fun t => (t.iget 3).count == 2 && (t.iget 3).tag == 5 && (t.iget 3).coinc) = true) ∧
    (let inp : SMap Nat TaskIn := ⟨[(1, { count := 1, tag := 4, fifo := [9], tick := 5998 })]⟩
     let s := withTask 15 7 { st := .waitEvent, wait := .event 2 none, inp := inp }
     s.wakingBy (s.getTask 15 7) 2 none = [1] ∧ (s.getTask 15 7).earliest [1] = some 9 ∧
     s.wakers (s.getTask 15 7) 2 none = [1] ∧
     taskGoes (.taskWakeEvent 15 7) s 15 7 (fun t => decide (t.wait = .wakes 6001) && t.tag == 4 && t.wake == 256 + 2 && t.wtime == 9 && t.pc == 0) = true) ∧
    (let s := withTask 15 7 { st := .waitEvent, wait := .wakes 6000 }
     decide ((s.drvWakes 15).getTask 15 7 = { st := .ready, pc := 1, readyAt := 6000 }) = true) ∧
    (let s := withTask 0 0 { st := .waitTime, wait := .instant (5004 * lsbPerNs) false }
     5004 * lsbPerNs ≤ s.time.now * lsbPerNs ∧ taskGoes (.taskWakeTime 0 0) s 0 0 (fun t => decide (t.st = .ready) && t.wake == 512 && t.wtime == 5004 * lsbPerNs) = true) ∧
    (let s := withTask 0 0 { st := .waitEvent, wait := .event 15 (some (5003 * lsbPerNs)) }
     s.wakingBy (s.getTask 0 0) 15 (some (5003 * lsbPerNs)) = [] ∧ taskGoes (.taskWakeTimeout 0 0) s 0 0 (fun t => decide (t.st = .ready) && t.wake == 768 && t.fl.z) = true) ∧
    (let s := withTask 0 0 { st := .waitTime, wait := .yield 6000 }
     taskGoes (.yieldEnd 0 0) s 0 0 (fun t => decide (t.st = .ready) && t.pc == 1) = true) ∧
    (let s := withTask 0 0 { st := .waitQueue, wait := .action 63, tag := 3, readyAt := 6000 }
     (∀ o ∈ (s.getEo 63).offers, o.src ≠ .task 0 0) ∧ goes (.waitQueueReoffer 0 0) s (fun t => (t.getEo 63).offers.map Offer.tag == [4]) = true) ∧
    (let s := withTask 0 0 { st := .waitMem, wait := .ldx 3 64 4000 0 }
     taskGoes (.ldxTimeout 0 0) s 0 0 (fun t => decide (t.st = .trapped) && t.trap == 0xC0000 + 64 * 2 ^ 64) = true) ∧
    (let r : Rec := ⟨4000, -5, 77, 0, 8, 7⟩
     let s := withTask 0 0 { st := .waitMeas, wait := .meas 95 7 15 5000 0 none (some (r, 3, 5997)) }
     taskGoes (.measComplete 0 0) s 0 0 (fun t => decide (t.wait = .wakes 6001) && t.tag == 3 && t.tget 7 == r.time && (t.aget 15).toInt == r.value) = true) ∧
    (let s := withTask 0 0 { st := .waitMeas, wait := .meas 95 7 15 5000 0 (some (5003 * lsbPerNs)) none }
     taskGoes (.measTimeout 0 0) s 0 0 (fun t => decide (t.st = .ready) && t.fl.z && t.tget 7 == 5003 * lsbPerNs) = true) ∧
    (let a := 8 + 60 * 2 ^ 32
     let s := (withTask 0 0 { st := .busy, wait := .launch 51 a (6004 * lsbPerNs) 5999 }).fset F.ptStat_LINK 1 51
     s.fbit F.glbBlkRst_DRV = false ∧ s.dramUnavail = false ∧ launchArgOk a = true ∧ (s.dramBytes (windowAddr 0 8) 60).length = 60 ∧
     s.swTick.linkUpOn 51 = true ∧ s.glb.limited = false ∧ s.fbit F.glbBlkRst_TAS = false ∧ s.swTick.lenBad 51 60 = false ∧
     s.swTick.launchCount 51 < 256 ∧ cellsOf 64 ≤ s.swTick.padFree ∧
     goes (.launchComplete 0 0) s (fun t => t.sw.frames.length == 1 && (t.getTask 0 0).ares == 51 * 65536) = true) := by decide +kernel

/-- Drover 15 with a program that has passed its check. -/
def programmed (level len : Nat) (s : State := base) : State :=
  ((s.fset F.drvProg_LEVEL level 15).fset F.drvProg_LEN len 15).setDrv 15 { s.getDrv 15 with progRes := 2 }

theorem witness_TasksAndProgramsAreControlled :
    (base.writable .pcie .drvTaskCtl = true ∧
     (let run := withTask 15 7 { st := .ready }
      (run.getTask 15 7).st ≠ .stopped ∧ taskGoes (.taskStart .pcie 15 7 0x80000000) run 15 7 (fun t => t.sres == 1) = true ∧
      taskGoes (.taskStop .pcie 15 7 0x40000000) run 15 7 (fun t => decide (t.st = .stopped)) = true) ∧
     (base.getDrv 15).progRes ≠ 2 ∧ taskGoes (.taskStart .pcie 15 7 0x80000000) base 15 7 (fun t => t.sres == 2) = true ∧
     taskGoes (.taskStart .pcie 15 7 0x80000000) (programmed 2 4) 15 7 (fun t => t.sres == 3) = true ∧
     taskGoes (.taskStart .pcie 15 7 0x80000004) (programmed 1 4) 15 7 (fun t => t.sres == 4) = true ∧
     (let s := (programmed 1 4).setDrv 15 { (programmed 1 4).getDrv 15 with faulted := true }
      (s.getDrv 15).faulted = true ∧ taskGoes (.taskStart .pcie 15 7 0x80000003) s 15 7 (fun t => t.sres == 5) = true) ∧
     taskGoes (.taskStart .pcie 15 7 0x80070003) (programmed 1 4) 15 7
       (fun t => decide (t.st = .ready) && t.pc == 3 && t.lpol && t.qstall && t.readyAt == 6001) = true) ∧
    (base.writable .pcie .drvProg = true ∧ base.drvBusy 15 = false ∧
     (let v : BitVec 96 := BitVec.ofNat 96 (16384 + 2 ^ 32 + 0xABCD * 2 ^ 64)
      bits v.toNat 14 0 ≤ 16384 ∧ goes (.drvProgCommit .pcie 15 v) base (fun t => (t.getDrv 15).progRes == 1 && t.fget F.drvProg_CRC 15 == 0xABCD) = true) ∧
     goes (.drvProgCommit .pcie 15 16385) base (fun t => (t.getDrv 15).progRes == 0 && t.fbit F.drvStat_WR_ERR 15) = true) ∧
    (let s := (base.fset F.drvProg_LEN 1 15).setDrv 15 { progRes := 1 }
     let right := crc32c ((s.getDrv 15).progBytes 1)
     (s.getDrv 15).progRes = 1 ∧ right ≠ s.fget F.drvProg_CRC 15 ∧ goes (.drvProgCheckDone 15 false) s (fun t => (t.getDrv 15).progRes == 3) = true ∧
     goes (.drvProgCheckDone 15 false) (s.fset F.drvProg_CRC right 15) (fun t => (t.getDrv 15).progRes == 2) = true ∧
     goes (.drvProgCheckDone 15 true) s (fun t => (t.getDrv 15).progRes == 3 && t.flt.reports.length == 1) = true) ∧
    (let s := withTask 15 7 { st := .ready, pc := 5 } (programmed 1 4)
     s.writable .jtag .drvCtl = true ∧ goes (.drvReset .jtag 15 1) s (fun t => t.getDrv 15 == {} && t.fget F.drvProg_LEN 15 == 0) = true) ∧
    (let s := base.fset F.drvMemAddr_AUTOINC 1 15
     s.writable .pcie .drvMemData = true ∧
     (let i := s.fset F.drvMemAddr_INDEX 8191 15
      i.fget F.drvMemAddr_INDEX 15 < 8192 ∧ i.drvBusy 15 = false ∧
      goes (.drvMemWrite .pcie 15 0x00000001F8000008) i (fun t => ((t.getDrv 15).word 16383) == 1 && t.fget F.drvMemAddr_INDEX 15 == 0) = true ∧
      goes (.drvMemRead .pcie 15) (i.setDrv 15 { imem := ⟨[(16382, 7), (16383, 9)]⟩ }) (fun t => t.resp.data == 7 && t.latchOf .pcie (key .drvMemData 15) == 9) = true ∧
      (let b := i.setTask 15 7 { st := .ready }
       b.drvBusy 15 = true ∧ goes (.drvMemWrite .pcie 15 5) b (fun t => t.fbit F.drvStat_WR_ERR 15) = true)) ∧
     (let i := (s.fset F.drvMemAddr_INDEX 4095 15).fset F.drvMemAddr_SPACE 1 15
      i.fget F.drvMemAddr_INDEX 15 < 4096 ∧ goes (.drvMemWrite .pcie 15 5) i (fun t => (t.getDrv 15).dmem.get 0 4095 == 5 && t.fget F.drvMemAddr_INDEX 15 == 0) = true)) := by decide +kernel

/-! ### Barli -/

/-- Task 7 of Drover 15 is READY at instruction 2, a given word, of a program of 16. -/
def oneTask (w : Word) (t : Task) (s : State := base) : State :=
  (s.fset F.drvProg_LEN 16 15).setDrv 15 { s.getDrv 15 with imem := ⟨[(2, w)]⟩, tasks := ⟨[(7, { t with st := .ready, pc := 2 })]⟩ }

/-- That task issues its instruction, with room for the next one, and then a condition on it holds. -/
def fit (w : Word) (i : Instr) (t : Task) (P : Task → Bool) (s : State := base) : Bool :=
  let s := oneTask w t s
  s.fires 15 7 w && s.nextOk 15 7 && goes i s fun u => P (u.getTask 15 7)

/-- That task issues its instruction and traps with a code and an argument. -/
def fitTrap (w : Word) (i : Instr) (t : Task) (code arg : Nat) (s : State := base) : Bool :=
  let s := oneTask w t s
  s.fires 15 7 w && goes i s fun u => decide ((u.getTask 15 7).st = .trapped) && decide ((u.getTask 15 7).trap = s.trapRecord 15 7 code arg) &&
    bit (u.fget F.drvStat_TRAP 15) 7

/-- A task with three A registers, and one with two T registers. -/
def aTask (x y z : W64) : Task := { a := ⟨[(1, x), (2, y), (3, z)]⟩ }
def tTask (x y : Instant) (z : W64 := 0) : Task := { t := ⟨[(6, x), (7, y)]⟩, a := ⟨[(1, z), (2, z)]⟩ }

/-- What a two-operand instruction leaves in A15 and its Z, N, C and V. -/
def lands (r : W64) (z n c v : Bool) (t : Task) : Bool :=
  t.aget 15 == r && t.pc == 3 && t.fl.z == z && t.fl.n == n && t.fl.c == c && t.fl.v == v

theorem witness_TwoOperandIntegerResults :
    fit (encAlu 0x10 15 1 (.reg 2)) (.add 15 7 {} 15 1 (.reg 2)) (aTask (-1) 1 0) (lands 0 true false true false) = true ∧
    fit (encAlu 0x11 15 1 (.imm (-1))) (.sub 15 7 {} 15 1 (.imm (-1))) (aTask 5 0 0) (lands 6 false false true false) = true ∧
    fit (encAlu 0x12 15 1 (.reg 2)) (.adds 15 7 {} 15 1 (.reg 2)) (aTask 0x7FFFFFFFFFFFFFFF 1 0) (lands 0x7FFFFFFFFFFFFFFF false false false true) = true ∧
    fit (encAlu 0x13 15 1 (.reg 2)) (.subs 15 7 {} 15 1 (.reg 2)) (aTask 0x8000000000000000 1 0) (lands 0x8000000000000000 false true false true) = true ∧
    fit (encAlu 0x18 15 1 (.reg 2)) (.and 15 7 {} 15 1 (.reg 2)) (aTask 12 10 0) (lands 8 false false false false) = true ∧
    fit (encAlu 0x19 15 1 (.reg 2)) (.or 15 7 {} 15 1 (.reg 2)) (aTask 12 10 0) (lands 14 false false false false) = true ∧
    fit (encAlu 0x1A 15 1 (.imm 65536)) (.xor 15 7 {} 15 1 (.imm 65536)) (aTask 12 10 0) (lands 0xFFFFFFFFFFFF000C false true false false) = true ∧
    fit (encAlu 0x1B 0 1 (.reg 2)) (.cmp 15 7 {} 1 (.reg 2)) (aTask (-1) 1 0) (fun t => !t.fl.z && t.fl.n && !t.fl.c) = true := by decide +kernel

theorem witness_ShiftAndMoveResults :
    fit (enc 0x16 ([(15, 22), (1, 18)] ++ (ShSrc.imm 1).fields)) (.shl 15 7 {} 15 1 (.imm 1)) (aTask 0xC000000000000000 0 0)
      (lands 0x8000000000000000 false true true false) = true ∧
    fit (enc 0x16 ([(15, 22), (1, 18)] ++ (ShSrc.reg 2).fields)) (.shl 15 7 {} 15 1 (.reg 2)) (aTask 1 65 0) (lands 0 true false true true) = true ∧
    fit (enc 0x1C [(15, 22), (0x3FFFFF, 0)]) (.ldi 15 7 {} 15 0x3FFFFF) {} (lands (-1) false false false false) = true ∧
    fit (enc 0x1D [(1, 22), (3, 20), (0xABCD, 0)]) (.ldhi 15 7 {} 1 3 0xABCD) (aTask 5 0 0) (fun t => t.aget 1 == 0xABCD000000000005) = true ∧
    fit (enc 0x1E [(15, 22), (1, 18)]) (.mov 15 7 {} 15 1) (aTask 9 0 0) (lands 9 false false false false) = true ∧
    fit (enc 0x1F [(15, 22), (1, 18)]) (.neg 15 7 {} 15 1) (aTask 0x8000000000000000 0 0) (lands 0x7FFFFFFFFFFFFFFF false false false true) = true := by
  decide +kernel

/-- A task that is BUSY until a tick with a value for A15. -/
def busyWith (u : Nat) (r : W64) (t : Task) : Bool :=
  match t.wait with
  | .busy v b => decide (t.st = .busy) && v == u && decide (b.areg = some (15, r)) && t.pc == 2
  | _ => false

theorem witness_MultiplyDivideAndShiftRightResults :
    fit (enc 0x14 [(15, 22), (1, 18), (2, 14), (0, 12), (0, 11), (1, 5)]) (.mulq 15 7 {} 15 1 2 .nearestEven false 1) (aTask 3 5 0) (busyWith 6004 8) = true ∧
    fit (enc 0x15 [(15, 22), (1, 18), (2, 14), (2, 12), (0, 11), (63, 5)]) (.divq 15 7 {} 15 1 2 .floor false 63) (aTask 1 (-2) 0)
      (busyWith 6034 0xC000000000000000) = true ∧
    fitTrap (enc 0x15 [(15, 22), (1, 18), (2, 14), (0, 12), (1, 11), (0, 5)]) (.divq 15 7 {} 15 1 2 .nearestEven true 0) (aTask 1 0 0) 8 0 = true ∧
    fit (enc 0x17 ([(15, 22), (1, 18), (3, 9), (1, 8)] ++ (ShSrc.imm 63).fields)) (.shr 15 7 {} 15 1 (.imm 63) .ceiling true) (aTask (-1) 0 0)
      (fun t => lands 2 false false false false t && t.fl.x) = true ∧
    (let s := withTask 15 7 { st := .busy, pc := 2, wait := .busy 6000 { areg := some (15, 8) } }
     taskGoes (.drvBusyEnd 15 7) s 15 7 (lands 8 false false false false) = true) := by decide +kernel

theorem witness_TimeInstructionResults :
    fit (enc 0x20 [(5, 23), (6, 20), (1, 16)]) (.tadd 15 7 {} 5 6 1) (tTask 100 9 (-26)) (fun t => t.tget 5 == 0 && t.fl.v) = true ∧
    fit (enc 0x20 [(5, 23), (6, 20), (1, 16), (1, 15)]) (.taddSub 15 7 {} 5 6 1) (tTask 100 9 25) (fun t => t.tget 5 == 0 && !t.fl.v) = true ∧
    fit (enc 0x21 [(15, 22), (7, 19), (6, 16)]) (.tsub 15 7 {} 15 7 6) (tTask 10 0) (fun t => lands (-2) false true false false t && t.fl.x) = true ∧
    fit (enc 0x22 [(7, 19), (6, 16)]) (.tcmp 15 7 {} 7 6) (tTask 1 0) (fun t => !t.fl.z && t.fl.n && t.fl.c) = true ∧
    fit (enc 0x23 [(5, 23)]) (.tnow 15 7 {} 5) {} (fun t => t.tget 5 == 5004 * lsbPerNs) = true ∧
    fit (enc 0x24 [(5, 22), (6, 18)]) (.tmov 15 7 {} 5 6) (tTask 7 0) (fun t => t.tget 5 == 7) = true ∧
    fit (enc 0x24 [(15, 22), (6, 18), (1, 0)]) (.tmovSec 15 7 {} 15 6) (tTask (3 * lsbPerSec + 9) 0) (fun t => t.aget 15 == 3) = true ∧
    fit (enc 0x24 [(15, 22), (6, 18), (2, 0)]) (.tmovNsf 15 7 {} 15 6) (tTask (3 * lsbPerSec + 9) 0) (fun t => t.aget 15 == 9) = true ∧
    fit (enc 0x24 [(5, 22), (1, 18), (2, 14), (3, 0)]) (.tmovPack 15 7 {} 5 1 2) (tTask 0 0 (BitVec.ofNat 64 (999999999 * 2 ^ 18))) (fun t => t.tget 5 != 0) = true ∧
    fit (enc 0x24 [(6, 22), (4, 0)]) (.tmovZero 15 7 {} 6) (tTask 7 0) (fun t => t.tget 6 == 0) = true ∧
    fitTrap (enc 0x24 [(5, 22), (1, 18), (2, 14), (3, 0)]) (.tmovPack 15 7 {} 5 1 2) (tTask 0 0 (BitVec.ofNat 64 (1000000000 * 2 ^ 18))) 3 0xFFFFFFFF = true := by
  decide +kernel

/-- Drover 15 after a command. -/
def drvGoes (w : Word) (i : Instr) (t : Task) (P : Drover → Bool) (s : State := base) : Bool :=
  let s := oneTask w t s
  s.fires 15 7 w && s.nextOk 15 7 && goes i s fun u => P (u.getDrv 15)

theorem witness_DataMemoryInstructions :
    (let s := base.setDrv 15 { dmem := ⟨[(4095, 77)]⟩ }
     ((aTask 32752 0 0).aget 1 + (8 : BitVec 18).signExtend 64).toNat % 8 = 0 ∧ ((aTask 32752 0 0).aget 1 + (8 : BitVec 18).signExtend 64).toNat + 8 ≤ 32768 ∧
     fit (enc 0x28 [(15, 22), (1, 18), (8, 0)]) (.ld 15 7 {} 15 1 8) (aTask 32752 0 0) (fun t => t.aget 15 == 77) s = true ∧
     drvGoes (enc 0x29 [(2, 22), (1, 18), (8, 0)]) (.st 15 7 {} 2 1 8) (aTask 32752 5 0) (fun x => x.dmem.get 0 4095 == 5) s = true ∧
     drvGoes (enc 0x25 [(1, 25), (6, 22), (1, 18), (0x3FFC, 0)]) (.tst 15 7 {} 6 1 0x3FFC) { tTask (5 * lsbPerSec + 9) 0 with a := ⟨[(1, 32760)]⟩ }
       (fun x => x.tword 32756 == packT96 (5 * lsbPerSec + 9)) s = true ∧
     t96Ns ((s.getDrv 15).tword 32756) < 1000000000 ∧
     fit (enc 0x25 [(6, 22), (1, 18), (0, 0)]) (.tld 15 7 {} 6 1 0) (aTask 32756 0 0) (fun t => t.tget 6 == 77 * 2 ^ 32) s = true) := by
  decide +kernel

theorem witness_DramWindowInstructions :
    base.dramUnavail = false ∧ Memory.wf dramUnl base.dram = true ∧
    fit (enc 0x2A [(15, 22), (1, 18), (0, 0)]) (.ldx 15 7 {} 15 1 0) (aTask 0x7FFFFF8 0 0) (fun t => decide (t.wait = .ldx 15 0x7FFFFF8 6000 0)) = true ∧
    (let s := { withTask 15 7 { st := .waitMem, wait := .ldx 15 8 5999 9 } with dram := [(0x100000000 + 15 * 0x8000000 + 8, 7)] }
     s.fbit F.glbBlkRst_DRV = false ∧ taskGoes (.ldxReturn 15 7 false) s 15 7 (fun t => t.aget 15 == 9 && decide (t.st = .ready)) = true) ∧
    (let w := enc 0x2B [(2, 22), (1, 18), (0, 0)]
     let s := oneTask w (aTask 8 0x0102 0)
     s.fires 15 7 w = true ∧ s.nextOk 15 7 = true ∧
     goes (.stx 15 7 {} 2 1 0) s (fun t => t.dram == [(0x100000000 + 15 * 0x8000000 + 8, 2), (0x100000000 + 15 * 0x8000000 + 9, 1)]) = true ∧
     (let s := s.setGlb { s.glb with dramReady := false }
      s.dramUnavail = true ∧ goes (.stx 15 7 {} 2 1 0) s (fun t => t.dram == [] && t.fbit F.drvStat_DRAM_LOST 15) = true)) := by decide +kernel

theorem witness_ControlFlowResults :
    fit (enc 0x00 []) (.nop 15 7 {}) {} (fun t => t.pc == 3) = true ∧
    fit (enc 0x01 []) (.halt 15 7 {}) {} (fun t => t.pc == 3 && decide (t.st = .stopped)) = true ∧
    fit (enc 0x02 [(1023, 0)]) (.yield 15 7 {} 1023) {} (fun t => decide (t.wait = .yield 7024)) = true ∧
    fit (enc 0x02 [(0, 0)]) (.yield 15 7 {} 0) {} (fun t => t.pc == 3) = true ∧
    fit (enc 0x04 [(15, 0)]) (.b 15 7 {} 15) {} (fun t => t.pc == 15) = true ∧
    fit (enc 0x05 [(14, 22), (15, 0)]) (.bc 15 7 {} 14 15) {} (fun t => t.pc == 15) = true ∧
    fit (enc 0x05 [(13, 22), (15, 0)]) (.bc 15 7 {} 13 15) {} (fun t => t.pc == 3) = true ∧
    fit (enc 0x06 [(15, 0)]) (.call 15 7 {} 15) { cstack := List.replicate 15 1 } (fun t => t.pc == 15 && t.cstack.head? == some 3) = true ∧
    fit (enc 0x07 []) (.ret 15 7 {}) { cstack := [15] } (fun t => t.pc == 15 && t.cstack.isEmpty) = true ∧
    fit (enc 0x08 ([(14, 11)] ++ (LpSrc.imm 0).fields)) (.loop 15 7 {} (.imm 0) 14) {} (fun t => t.pc == 15) = true ∧
    fit (enc 0x08 ([(14, 11)] ++ (LpSrc.reg 1).fields)) (.loop 15 7 {} (.reg 1) 14) (aTask 0x1000000FF 0 0) (fun t => t.pc == 3 && t.lstack == [⟨3, 14, 255⟩]) = true ∧
    fit (enc 0x09 []) (.endl 15 7 {}) { lstack := [⟨1, 2, 2⟩] } (fun t => t.pc == 1 && t.lstack == [⟨1, 2, 1⟩]) = true ∧
    fit (enc 0x09 []) (.endl 15 7 {}) { lstack := [⟨1, 2, 1⟩] } (fun t => t.pc == 3 && t.lstack == []) = true ∧
    fit (enc 0x09 [(1, 25)]) (.endlPop 15 7 {}) { lstack := [⟨1, 9, 5⟩] } (fun t => t.pc == 3 && t.lstack == []) = true := by decide +kernel

theorem witness_TrapsArePrecise :
    fitTrap (enc 0x03 [(0xFFFF, 0)]) (.trap 15 7 {} 0xFFFF) {} 2 0xFFFF = true ∧
    (let s := oneTask 0x04000001 {}
     s.mayIssue 15 = true ∧ s.issuer 15 = some 7 ∧ s.fetchWord 15 7 = some 0x04000001 ∧ legalWord 0x04000001 2 = false ∧
     goes (.illegal 15 7 {} 0x04000001) s (fun t => decide ((t.getTask 15 7).trap = s.trapRecord 15 7 1 0x04000001)) = true) ∧
    fitTrap (enc 0x04 [(16, 0)]) (.b 15 7 {} 16) {} 5 16 = true ∧
    fitTrap (enc 0x06 [(5, 0)]) (.call 15 7 {} 5) { cstack := List.replicate 16 1 } 6 16 = true ∧
    fitTrap (enc 0x07 []) (.ret 15 7 {}) {} 6 0 = true ∧
    fitTrap (enc 0x08 ([(5, 11)] ++ (LpSrc.imm 1).fields)) (.loop 15 7 {} (.imm 1) 5) { lstack := List.replicate 4 ⟨1, 2, 3⟩ } 7 4 = true ∧
    fitTrap (enc 0x09 []) (.endl 15 7 {}) {} 7 0 = true ∧
    fitTrap (enc 0x09 []) (.endl 15 7 {}) { lstack := [⟨1, 9, 5⟩] } 7 1 = true ∧
    fitTrap (enc 0x09 [(1, 25)]) (.endlPop 15 7 {}) {} 7 0 = true ∧
    fitTrap (enc 0x28 [(15, 22), (1, 18), (1, 0)]) (.ld 15 7 {} 15 1 1) {} 4 1 = true ∧
    fitTrap (enc 0x29 [(15, 22), (1, 18), (0, 0)]) (.st 15 7 {} 15 1 0) (aTask 32768 0 0) 4 32768 = true ∧
    fitTrap (enc 0x25 [(6, 22), (1, 18), (0, 0)]) (.tld 15 7 {} 6 1 0) (aTask 32760 0 0) 4 32760 = true ∧
    fitTrap (enc 0x25 [(1, 25), (6, 22), (1, 18), (2, 0)]) (.tst 15 7 {} 6 1 2) {} 4 2 = true ∧
    fitTrap (enc 0x2A [(15, 22), (1, 18), (4, 0)]) (.ldx 15 7 {} 15 1 4) {} 0xC 4 = true ∧
    fitTrap (enc 0x2B [(15, 22), (1, 18), (0, 0)]) (.stx 15 7 {} 15 1 0) (aTask 0x8000000 0 0) 0xC 0x8000000 = true := by decide +kernel

/-- The issue offers an entry to a channel. -/
def offersTo (n : Nat) (e : Nat) (t : State) : Bool := (t.getEo n).offers == [⟨.task 15 7, e, 4, 6002⟩]

/-- What an issue leads to. -/
def fitAll (w : Word) (i : Instr) (t : Task) (P : State → Bool) (s : State := base) : Bool :=
  let s := oneTask w t s
  s.fires 15 7 w && s.nextOk 15 7 && goes i s P

theorem witness_EdgeInstructionsOffer :
    (let t : Task := { tTask (5 * lsbPerSec + 7) 0 with tag := 3, a := ⟨[(1, 0x45), (2, 0x1000), (14, 9), (15, 8)]⟩ }
     let st := packT96 (5 * lsbPerSec + 7) * 2 ^ 32
     fitAll (enc 0x30 ((ChSrc.imm 63).fields ++ [(6, 16), (1, 15)])) (.edge 15 7 {} (.imm 63) 6 true) t (offersTo 63 (16 + st)) = true ∧
     fitAll (enc 0x31 ((ChSrc.reg 1).fields ++ [(6, 16), (2, 12)])) (.pulse 15 7 {} (.reg 1) 6 2) t (offersTo 5 (1 + st + 0x1000 * 2 ^ 128)) = true ∧
     fitAll (enc 0x32 ((ChSrc.imm 0).fields ++ [(6, 16), (2, 12), (14, 8), (2, 4), (1, 3), (1, 2)])) (.train 15 7 {} (.imm 0) 6 2 7 2 true true) t
       (offersTo 0 (2 + 32 + 64 + st + 0x1000 * 2 ^ 128 + (9 + 8 * 2 ^ 64) * 2 ^ 192 + 0x1000 * 2 ^ 288)) = true ∧
     fitAll (enc 0x33 ((ChSrc.imm 0).fields ++ [(6, 16), (2, 12), (1, 11), (1, 10)])) (.prof 15 7 {} (.imm 0) 6 2 true true) t
       (offersTo 0 (3 + 128 + 256 + st + 0x1000 * 2 ^ 288)) = true ∧
     fitAll (enc 0x34 ((ChSrc.imm 0).fields ++ [(6, 16)])) (.cancel 15 7 {} (.imm 0) 6) t (offersTo 0 (4 + st)) = true) := by decide +kernel

theorem witness_WaitInstructions :
    fit (enc 0x38 [(6, 23)]) (.waitt 15 7 {} 6) (tTask (5003 * lsbPerNs) 0) (fun t => t.wake == 0x200 && t.fl.l && t.pc == 3) = true ∧
    fit (enc 0x38 [(6, 23)]) (.waitt 15 7 {} 6) (tTask (5005 * lsbPerNs) 0) (fun t => decide (t.wait = .instant (5005 * lsbPerNs) false)) = true ∧
    fit (enc 0x39 [(15, 22), (1, 21), (1, 17)]) (.waite 15 7 {} 15 true 1) {} (fun t => t.wake == 0x300 && t.fl.z && t.pc == 3) = true ∧
    fit (enc 0x39 [(0, 22), (1, 21), (1, 17)]) (.waite 15 7 {} 0 true 1) (aTask 1 0 0)
      (fun t => decide (t.wait = .event 0 (some (5004 * lsbPerNs + 4)))) = true ∧
    fit (enc 0x39 [(8, 22), (0, 21), (0, 17)]) (.waite 15 7 {} 8 false 0) { inp := ⟨[(3, { count := 1, tag := 4, fifo := [9], tick := 5998 })]⟩ }
      (fun t => t.wake == 0x108 && t.wtime == 9 && t.tag == 4) = true := by decide +kernel

theorem witness_SignalArmMeasureLaunch :
    (3 + 1 ≤ base.fget F.dwCtl_GEN_LIMIT) ∧
    (let t : Task := { tTask (5 * lsbPerSec + 7) 0 with tag := 3, a := ⟨[(1, 8 + 60 * 2 ^ 32)]⟩ }
     let now := 5004 * lsbPerNs
     let sent (o : DrvOut) (u : State) : Bool := decide ((u.getDrv 15).outs = [(6002, o)])
     fitAll (enc 0x3A [(7, 23), (1, 22), (6, 19)]) (.signal 15 7 {} 7 true 6) t (fun u => u.dw.soon == [⟨0x2C0 + 127, 5 * lsbPerSec + 7, 4, 6002, []⟩]) = true ∧
     fitAll (enc 0x3B [(95, 17), (0, 16), (0, 13)]) (.armTiu 15 7 {} 95 false 0) t (sent (.arm 95 now 4)) = true ∧
     fitAll (enc 0x3B [(1, 24), (95, 17), (1, 16), (6, 13)]) (.disarmTiu 15 7 {} 95 true 6) t (sent (.disarm 95 (5 * lsbPerSec + 7))) = true ∧
     fitAll (enc 0x3B [(1, 25), (63, 17), (0, 16), (0, 13)]) (.armEoSlot 15 7 {} 63 false 0) t (sent (.slot 63 true)) = true ∧
     fitAll (enc 0x3B [(1, 25), (1, 24), (63, 17), (0, 16), (0, 13)]) (.disarmEoSlot 15 7 {} 63 false 0) t (sent (.slot 63 false)) = true ∧
     fitAll (enc 0x3C [(7, 23), (15, 19), (95, 12), (0, 8), (1, 7), (1, 6)]) (.meas 15 7 {} 7 15 95 true true 0) t
       (fun u => sent (.meas 7 95 false now 4) u && decide ((u.getTask 15 7).wait = .meas 95 7 15 6002 now (some now) none)) = true ∧
     base.dramUnavail = false ∧
     fitAll (enc 0x3D [(51, 20), (6, 17), (1, 13)]) (.launch 15 7 {} 51 6 1) t
       (fun u => decide ((u.getTask 15 7).wait = .launch 51 (8 + 60 * 2 ^ 32) (5 * lsbPerSec + 7) 6000)) = true) := by decide +kernel

theorem witness_ControlWordAccess :
    (let t : Task := { tag := 3, wake := 0x101, wtime := 9, ares := 0x50001, inp := ⟨[(3, { count := 2, tag := 1, fifo := [7, 8] })]⟩, a := ⟨[(1, 0x5F0008), (2, 0x3F)]⟩ }
     let rd (f : List (Nat × Nat)) (n : Nat) : Word := enc 0x3E (f ++ [(n, 0)])
     let wr (n : Nat) : Word := enc 0x3E ([(1, 24)] ++ (CsrReg.a 2).fields ++ [(n, 0)])
     fit (rd (CsrReg.a 15).fields 0) (.csrReadCw 15 7 {} (.a 15) 0) t (fun u => u.aget 15 == 3) = true ∧
     fit (rd (CsrReg.a 15).fields 1) (.csrReadCw 15 7 {} (.a 15) 1) t (fun u => u.aget 15 == 0x101) = true ∧
     fit (rd (CsrReg.t 7).fields 2) (.csrReadCw 15 7 {} (.t 7) 2) t (fun u => u.tget 7 == 9) = true ∧
     fit (rd (CsrReg.a 15).fields 7) (.csrReadCw 15 7 {} (.a 15) 7) t (fun u => u.aget 15 == 2 + 1024 + 2 * 16384) = true ∧
     fit (rd (CsrReg.a 15).fields 11) (.csrReadCw 15 7 {} (.a 15) 11) t (fun u => u.aget 15 == 2 + 1024 + 2 * 16384 && u.iget 3 == {}) = true ∧
     fit (rd (CsrReg.t 7).fields 12) (.csrReadCw 15 7 {} (.t 7) 12) t (fun u => u.fl.z && u.tget 7 == 0) = true ∧
     fit (rd (CsrReg.t 7).fields 15) (.csrReadCw 15 7 {} (.t 7) 15) t (fun u => !u.fl.z && u.tget 7 == 7 && (u.iget 3).fifo == [8]) = true ∧
     fit (rd (CsrReg.a 15).fields 0x12) (.csrReadCw 15 7 {} (.a 15) 0x12) t (fun u => u.aget 15 == 0x50001) = true ∧
     fitTrap (rd (CsrReg.t 7).fields 0) (.csrReadCw 15 7 {} (.t 7) 0) t 0xB 0 = true ∧
     fit (wr 0x10) (.csrWriteCw 15 7 {} (.a 2) 0x10) t (fun u => u.fl.z && u.fl.n && u.fl.c && u.fl.v && u.fl.x && u.fl.l) = true ∧
     fit (wr 0x11) (.csrWriteCw 15 7 {} (.a 2) 0x11) t (fun u => u.lpol && u.qstall) = true ∧
     drvGoes (wr 0x27) (.csrWriteCw 15 7 {} (.a 2) 0x27) t (fun x => decide (x.outs = [(6001, .tctl 7 0x3F)])) = true ∧
     fitTrap (wr 0) (.csrWriteCw 15 7 {} (.a 2) 0) t 0xB 0 = true ∧
     base.csrReach 15 0x5F0008 = true ∧ csrNoWrite 0x5F0008 = false ∧ base.csrReach 15 0x3F = false ∧ csrNoWrite 0x5F0010 = true ∧
     fit (enc 0x3E [(2, 24), (15, 19), (1, 15)]) (.csrReadBar0 15 7 {} 15 1) t (busyWith 6003 0) = true ∧
     fitTrap (enc 0x3E [(2, 24), (15, 19), (2, 15)]) (.csrReadBar0 15 7 {} 15 2) t 0xB 0x3F = true ∧
     drvGoes (enc 0x3E [(3, 24), (2, 19), (1, 15)]) (.csrWriteBar0 15 7 {} 2 1) t (fun x => decide (x.outs = [(6001, .csr 0x5F0008 0x3F)])) = true ∧
     fitTrap (enc 0x3E [(3, 24), (2, 19), (3, 15)]) (.csrWriteBar0 15 7 {} 2 3) { t with a := ⟨[(3, 0x5F0010)]⟩ } 0xB 0x5F0010 = true) := by decide +kernel

/-- A task whose next word is this issues that instruction, and one whose next word differs in a bit does not. -/
def readsAs (w : Word) (i : Instr) : Bool :=
  goes i (oneTask w {}) (fun t => t != oneTask w {}) && goes i (oneTask (w ^^^ 1) {}) (fun t => t == oneTask (w ^^^ 1) {})

/-- The words that the instruction chapter works out. -/
theorem test_worked_words :
    readsAs 0x74502710 (.ldhi 15 7 {} 1 1 0x2710) = true ∧
    readsAs 0xC4616000 (.pulse 15 7 {} (.imm 12) 1 6) = true ∧
    readsAs 0xE4400000 (.waite 15 7 {} 1 false 0) = true ∧
    readsAs 0x70400000 (.ldi 15 7 {} 1 0) = true ∧
    readsAs 0xF8000008 (.csrReadCw 15 7 {} (.a 0) 8) = true ∧
    readsAs 0x94040000 (.tld 15 7 {} 0 1 0) = true ∧
    readsAs 0xA0C40010 (.ld 15 7 {} 3 1 16) = true ∧
    readsAs 0xCC803000 (.prof 15 7 {} (.imm 16) 0 3 false false) = true ∧
    readsAs 0xCC803C00 (.prof 15 7 {} (.imm 16) 0 3 true true) = true ∧
    readsAs 0xEA000000 (.signal 15 7 {} 4 false 0) = true ∧
    readsAs 0x10000007 (.b 15 7 {} 7) = true := by decide +kernel

/-! ### Self-calibration -/

/-- The device with the calibration engine put as given. -/
def withCal (c : Cal) (s : State := base) : State := s.setCal c

/-- What a tap run measures on a channel whose 40 elements have the width of a tap. -/
def evenTaps : TapMeas := ⟨List.replicate 40 524288, List.replicate 40 524288, [List.replicate 32 524800], 2 ^ 24⟩

/-- A code-density run whose histogram of 2^20 hits is complete. -/
def evenRun (u : Nat) : CalRun := { eo := false, idx := u, sched := 0, dither := false, trim := some 0xABCDEF, log := 20, h := List.replicate 1024 1024 }

/-- A channel's values with a ball term, so that no fused value is read. -/
def calChan (n : Nat) (c : Cal := {}) : Cal := { c with eo := ⟨[(n, { k := some 0 })]⟩ }

theorem witness_CalibrationRunsEnd :
    base.glb.limited = false ∧ base.deg = false ∧ base.calHalted = false ∧
    (let s := (base.fset F.calCtl_TEMP_EN 1).fset F.monTemp_T 0x0201 11
     s.tempMoved 11 (s.getCalReg 11).tcap = true ∧ s.tempMoved 10 (s.getCalReg 10).tcap = false ∧
     goes .calTempEval s (fun t => (t.getCalReg 11).running && !(t.getCalReg 10).running) = true) ∧
    (let s := (withCal (calChan 63 { runs := [{ eo := true, idx := 63, sched := 0, dither := false }, { eo := false, idx := 31, sched := 0, dither := true }] })).fset F.eoBankCtl_PWR 1 7
     s.gapEo 63 = true ∧ s.calBankOn 63 = true ∧ (s.calRun true 63).isSome = true ∧ s.gapTiu 31 = true ∧ s.onDither 31 = true ∧
     goes (.calHold true ⟨63, []⟩) s (fun t => (t.getCalEo 63).hold && (t.getTiu 95).calHeld) = true ∧
     goes (.calHold false ⟨31, [[5, 2 ^ 24]]⟩) s (fun t => (t.getTiu 31).calHeld && decide ((t.calRun false 31).map CalRun.trim = some (some 1))) = true ∧
     (let s := s.setEo 63 { filter := [trans (9 * lsbPerSec) true] }
      s.gapEo 63 = true ∧ goes (.calHold true ⟨63, []⟩) s (fun t => (t.getCalEo 63).hold) = true) ∧
     (let s := s.setEo 63 { filter := [trans (s.time.now * lsbPerNs) true] }
      s.gapEo 63 = false ∧ goes (.calHold true ⟨63, []⟩) s (fun t => decide (t = s)) = true) ∧
     (let s := (s.setCal { s.cal with runs := [{ eo := false, idx := 95, sched := 0, dither := true }] }).fset F.eoBankCtl_PWR 0 7
      s.calBankOn 63 = false ∧ s.onDither 95 = true ∧ goes (.calHold true ⟨63, []⟩) s (fun t => !(t.getCalEo 63).hold && (t.getTiu 95).calHeld) = true) ∧
     (let s := s.setCalEo 63 { k := some 0, hold := true }
      s.cdFirst 63 = false ∧ (s.judgeTap 63 evenTaps).map Prod.snd = some 0 ∧ (s.getCalEo 63).inForce = none ∧
      (let s := (s.fset F.calEoPol_B_IDLE 1 63).fset F.eoCtl_EN 0 63
       goes (.tapRunDone 63 evenTaps) s (fun t => decide ((t.getCalEo 63).tab.map EoTab.d = some (2 ^ 24)) && (t.calRun true 63).isNone && !(t.getCalEo 63).hold) = true) ∧
      goes (.tapRunDone 63 evenTaps) (s.fset F.calEoPol_B_IDLE 0 63) (fun t => (t.getCalEo 63).pend.isSome && (t.getCalEo 63).tab.isNone) = true ∧
      (let m : TapMeas := { evenTaps with widths := List.replicate 31 524288 }
       (tapSelect none m).1.length < 32 ∧ goes (.tapRunDone 63 m) s (fun t => (t.getCalEo 63).code == 5 && t.fbit F.calStat_REJECT) = true) ∧
      (let o : EoTab := { (tabOfWords fun _ => 0) with d := 2 ^ 24, mask := 0xFFFFFFFF, p := (List.range 32).map (· * 524288), g := List.replicate 32 131200 }
       let s := (s.setCalEo 63 { k := some 0, hold := true, tab := some o }).fset F.calSlew_SLEW 100
       (s.getCalEo 63).inForce = some o ∧ (s.judgeTap 63 evenTaps).map (fun x => (x.1.mask, x.1.trim, x.2)) = some (o.mask, o.trim, 0) ∧
       goes (.tapRunDone 63 evenTaps) s (fun t => (t.getCalEo 63).blend.isSome && decide ((t.getCalEo 63).tab.map EoTab.g = some (List.replicate 32 131328))) = true))) ∧
    (let s := withCal { runs := [evenRun 95] }
     (evenRun 95).complete = true ∧ (s.judgeCd 95 (evenRun 95).h 20).1 = 0 ∧
     goes (.cdRunDone 95 (evenRun 95).h 0xABCDEF) s (fun t => (t.getCalTiu 95).w == some nominalWidths && (t.getCalTiu 95).vtrim == 0xABCDEF) = true ∧
     (let bad : CalRun := { evenRun 95 with h := 63 :: 1985 :: List.replicate 1022 1024 }
      bad.complete = true ∧ (∃ x ∈ bad.h, x < 64) ∧
      goes (.cdRunDone 95 bad.h 0xABCDEF) (withCal { runs := [bad] }) (fun t => (t.getCalTiu 95).code == 2 && (t.getCalTiu 95).w.isNone) = true) ∧
     (let s := withCal { runs := [{ evenRun 95 with h := List.replicate 1024 1 }] }
      goes (.cdRunDone 95 (List.replicate 1024 1) 0xABCDEF) s (fun t => decide (t = s)) = true) ∧
     goes (.cdRunDone 95 [] 0xABCDEF) s (fun t => decide (t = s)) = true ∧ goes (.cdRunDone 95 (evenRun 95).h 0) s (fun t => decide (t = s)) = true) ∧
    (let s := withCal (calChan 0 { long := some { op := .pin 0, by_ := none, pos := 4096 } })
     s.calBankOn 0 = true ∧
     goes (.pinRunDone 0 (2 ^ 26 - 1) 5 false) (s.fset F.calCtl_AUTOSAVE 0) (fun t => (t.getCalEo 0).k == some (2 ^ 26 - 6) && t.cal.long.isNone) = true ∧
     goes (.pinRunDone 0 9 5 true) s (fun t => (t.getCalEo 0).code == 9 && (t.getCalEo 0).k == some 0) = true) ∧
    (let s := withCal { reg := ⟨[(8, { running := true, t0 := 0x300 })]⟩, tiu := ⟨(List.range 8).map fun u => (u, { ofs25 := some 0, tc := some 0 })⟩ }
     s.regionIdle 8 = true ∧ goes (.regionRunDone 8) s (fun t => (t.getCalReg 8).tcap == 0x300 && t.dw.evq.length == 1) = true ∧
     goes (.regionRunDone 8) (withCal { s.cal with reg := ⟨[(8, { running := true, t0 := 0x300, rej := 2 })]⟩ })
       (fun t => (t.getCalReg 8).tcap == 0 && !(t.getCalReg 8).running) = true) ∧
    (let s := { withCal { runs := [{ eo := true, idx := 5, sched := 0, dither := false }] } with tickNo := 60000000000 }
     (s.calRun true 5).isSome = true ∧ goes (.calRunStarved true 5) s (fun t => t.fbit F.calStat_STARVED && (t.getCalEo 5).code == 0x0A && (t.calRun true 5).isNone) = true ∧
     goes (.calRunStarved true 5) { s with tickNo := 59999999999 } (fun t => (t.calRun true 5).isSome) = true) := by decide +kernel

/-- PCIe's command ends with a code; it waits. -/
def answered (i : Instr) (s : State) (c : Nat) : Bool := goes i s fun t => decide (t.getCalRes .pcie = ⟨1, true, c⟩)
def waiting (i : Instr) (s : State) : Bool := goes i s fun t => decide (t.getCalRes .pcie = ⟨1, false, 1⟩)

/-- A shadow half: the words of a register array. -/
def shadowed (r : Reg) (n : Nat) (w : Nat → Nat) : State := { base with regs := ⟨((List.range n).map fun i => (key r 0 i, w i)).filter fun c => c.2 != 0⟩ }

/-- The words of a table that may be loaded: 32 even taps. -/
def tabWord (i : Nat) : Nat :=
  if i = 0 then 2 ^ 24 else if i = 3 then 0xFFFFFFFF else if 16 ≤ i ∧ i < 48 then (i - 16) * 524288 else if 48 ≤ i ∧ i < 80 then 131200
  else if 80 ≤ i ∧ i < 112 then 524288 else 0

theorem witness_CalibrationCommandsAndImages :
    (base.writable .pcie .calCmd = true ∧ base.glb.limited = false ∧ base.deg = false ∧ base.dramUnavail = false ∧ base.fget F.mbLong_SRC = 0 ∧
     waiting (.runRegion .pcie 11) base = true ∧ waiting (.runTiu .pcie 95) base = true ∧ waiting (.runEo .pcie 63) base = true ∧
     answered (.runRegion .pcie 12) base 0xD = true ∧ answered (.runTiu .pcie 96) base 0xD = true ∧ answered (.runEo .pcie 64) base 0xD = true ∧
     answered (.calPin .pcie 64) base 0xD = true ∧ answered (.calApply .pcie 64) base 0xD = true ∧ answered (.loadTiu .pcie 96) base 0xD = true ∧
     answered (.loadEo .pcie 64) base 0xD = true ∧
     waiting (.calPin .pcie 63) base = true ∧ answered (.calPin .pcie 63) (base.fset F.eoCtl_EN 1 63) 0xC = true ∧
     answered (.calPin .pcie 63) (base.fset F.mbLong_SRC 1) 1 = true ∧ waiting (.calFull .pcie 0) base = true ∧ answered (.calFull .pcie 0) (base.fset F.mbLong_SRC 1) 1 = true ∧
     (let s := withCal { eo := ⟨[(63, { k := some 0, tab := some tab1, pend := some { tab1 with mask := 1 } })]⟩ }
      (s.getCalEo 63).pend.isSome = true ∧ s.eoIdle 63 = true ∧ answered (.calApply .pcie 63) s 0 = true ∧
      (let s := (s.fset F.eoCtl_EN 1 63).setEo 63 { filter := [trans (9 * lsbPerSec) true] }
       s.eoIdle 63 = false ∧ goes (.calApply .pcie 63) s (fun t => (t.getCalEo 63).pendApply) = true)) ∧
     answered (.loadTiu .pcie 0) base 0x13 = true ∧
     answered (.loadEo .pcie 0) (shadowed .calEoShadow 128 tabWord) 0 = true ∧ answered (.loadEo .pcie 0) base 0x13 = true ∧
     waiting (.calExport .pcie 0) base = true ∧ waiting (.calImport .pcie 0) base = true ∧ waiting (.calSave .pcie 0) base = true ∧
     (let s := base.setGlb { base.glb with dramReady := false }
      s.dramUnavail = true ∧ answered (.calExport .pcie 0) s 0x15 = true ∧ answered (.calImport .pcie 0) s 0x15 = true) ∧
     (let s := withCal { runs := [{ eo := true, idx := 5, sched := 0, dither := false }], long := some { op := .save, by_ := none } }
      goes (.calAbort .pcie 0) s (fun t => t.cal.runs == [] && t.cal.long.isNone) = true)) ∧
    (base.cal.started = false ∧ base.glb.fwRun = true ∧ base.bestSlot = none) := by decide +kernel

theorem witness_ImagesLeave :
    (let img : List Nat := List.replicate 16 7 ++ [9, 0, 0, 0]
     let long (op : CalOp) (at_ pos : Nat) (img : List Nat := img) : State := withCal { long := some { op, by_ := none, base := at_, img, pos } }
     (let s := long .exportImg 0x1F0000000 0
      img.length ≤ 20 ∧ s.dramUnavail = false ∧ memReadLE dramUnl (s.calWork 20).dram 0x1F0000010 4 = 9) ∧
     goes .exportDone (long .exportImg 0 20) (fun t => t.cal.long.isNone) = true ∧
     goes .exportDone (long .exportImg 0 19) (fun t => decide (t = long .exportImg 0 19)) = true ∧
     (let s := long .save 0x03000000 0
      Memory.wf flashUnl s.flash = true ∧ img.length ≤ 0x7FFF0 ∧ img.length + 17 ≤ 37 ∧
      memReadLE flashUnl (s.calWork 37).flash 0x0307FFF0 4 = 0x6C5AA5C6 ∧ memReadLE flashUnl (s.calWork 37).flash 0x0307FFF4 4 = 9 ∧
      memReadLE flashUnl (s.calWork 37).flash 0x03000010 4 = 9) ∧
     (let s := long .save 0x03000000 37
      goes (.saveDone []) s (fun t => t.cal.seq == 9 && t.cal.long.isNone) = true ∧
      memRead flashUnl s.flash (0x03000000 + 3 % 0x80000) ≠ BitVec.ofNat 8 0 ∧
      goes (.saveDone [(3, 0)]) s (fun t => t.cal.seq == s.cal.seq && t.cal.long.isNone) = true)) := by decide +kernel

/-! The image of a device with good values on every channel and unit: what LOAD_TIU takes, what an import and a start-up take. -/

/-- Every unit with nominal widths and every channel with a table of even taps in force. -/
def calGood : State := withCal
  { eo := ⟨(List.range 64).map fun n => (n, { k := some 0, tab := some (tabOfWords tabWord) })⟩
    tiu := ⟨(List.range 96).map fun u => (u, { w := some nominalWidths, ofs25 := some 0, tc := some 0 })⟩ }

theorem calGood_tiu : ∀ u, u < 96 → calGood.getCalTiu u = { w := some nominalWidths, ofs25 := some 0, tc := some 0 } := by decide +kernel
theorem calGood_eo : ∀ n, n < 64 → calGood.getCalEo n = { k := some 0, tab := some (tabOfWords tabWord) } := by decide +kernel

theorem calGood_bytes (x : Nat) (h : x ∈ calGood.imgBody 1) : x < 256 :=
  calGood.imgBody_lt 1 (fun u hu => by rw [calGood_tiu u hu]; decide) (fun h hh => by cases hh) x h

theorem getD_same (n v i : Nat) (h : i < n) : (List.replicate n v).getD i 0 = v := by
  simp [List.getD_eq_getElem?_getD, h]

theorem nominal_word (i : Nat) (h : i < 512) : nominalWidths.getD (2 * i) 0 + nominalWidths.getD (2 * i + 1) 0 * 2 ^ 16 = 0x40004000 := by
  rw [nominalWidths, getD_same 1024 16384 (2 * i) (by omega), getD_same 1024 16384 (2 * i + 1) (by omega)]
  all_goals rfl

theorem halves (c : Nat) : 0x40004000 / (if c % 2 = 0 then 1 else 2 ^ 16) % 2 ^ 16 = 16384 := by split <;> rfl

theorem nominal_ok (f : Nat → Nat) (h : ∀ i, i < 512 → f i = 0x40004000) :
    widthsOk ((List.range 1024).map fun c => f (c / 2) / (if c % 2 = 0 then 1 else 2 ^ 16) % 2 ^ 16) = true := by
  rw [List.map_congr_left (g := fun _ => 16384) fun c hc => by rw [h (c / 2) (by have := List.mem_range.mp hc; omega), halves]]
  decide +kernel

theorem image_good : judgeImage (calGood.image 1) = 0 := by
  apply calGood.image_accepted 1 calGood_bytes
  · intro n hn
    have e : ∀ i, calGood.eoTabWord n i = (tabOfWords tabWord).word 0 i := by
      intro i
      simp only [State.eoTabWord, calGood_eo n hn]
      rfl
    simp only [e]
    decide +kernel
  · intro u hu
    apply nominal_ok
    intro i hi
    simp only [State.tiuTabWord, calGood_tiu u hu]
    exact nominal_word i hi

/-- The image of the running device itself: its bytes are bytes, but its channels have no table. -/
theorem base_bytes (x : Nat) (h : x ∈ base.imgBody 1) : x < 256 :=
  base.imgBody_lt 1 (fun _ _ => ⟨Nat.succ_pos 255, Nat.succ_pos 255⟩) (fun h hh => by cases hh) x h

theorem image_bad : judgeImage (base.image 1) ≠ 0 := by
  have v : imgValuesOk (base.image 1) = false := by
    rw [Bool.eq_false_iff]
    intro h
    simp only [imgValuesOk, Bool.and_eq_true, List.all_eq_true, List.mem_range] at h
    have h0 := h.1 0 (by decide)
    rw [imgTab, tabOfWords_congr _ (fun _ => 0) fun i hi => (base.leAt_image_table 1 0 i (by decide) (by omega)).trans rfl] at h0
    revert h0
    decide
  simp [judgeImage, base.image_format, base.image_device, base.image_crc 1 base_bytes, v, CalCode.imgValues]

/-- The running device with a flash. -/
def flashed (m : Memory) : State := { base with flash := m }
theorem flashed_flash (m : Memory) : (flashed m).flash = m := rfl

/-- An image and its commit record in flash slot A, all else unwritten. -/
def slotA (img : List Nat) : Memory :=
  memWriteBytes flashUnl (memWriteBytes flashUnl [] 0x03000000 (toBytes img)) 0x0307FFF0
    (toBytes (leBytes 4 0x6C5AA5C6 ++ leBytes 4 1 ++ leBytes 4 imgLen ++ leBytes 4 (leAt img 0x41900 4)))

theorem slotA_reads (s : State) (hb : ∀ x ∈ s.imgBody 1, x < 256) (t : State) (ht : t.flash = slotA (s.image 1)) :
    t.flashBytes 0x03000000 imgLen = s.image 1 ∧ t.bestSlot = some (false, 1) := by
  have hi : ∀ x ∈ s.image 1, x < 256 := by
    intro x hx
    rcases List.mem_append.mp hx with hx | hx
    · exact hb x hx
    · exact leBytes_lt _ _ _ hx
  have li : (toBytes (s.image 1)).length = 268548 := by rw [toBytes, List.length_map]; exact s.length_image 1
  have w0 : Memory.wf flashUnl [] = true := rfl
  have w1 : Memory.wf flashUnl (memWriteBytes flashUnl [] 0x03000000 (toBytes (s.image 1))) = true := memWriteBytes_wf _ _ _ _ w0
  have fb : t.flashBytes 0x03000000 imgLen = s.image 1 := by
    rw [State.flashBytes, ht, slotA, memReadBytes_congr flashUnl _ (memWriteBytes flashUnl [] 0x03000000 (toBytes (s.image 1)))]
    · rw [show imgLen = (toBytes (s.image 1)).length from li.symm, memReadBytes_memWriteBytes _ _ _ _ w0, map_toNat_toBytes _ hi]
    · intro x _ h2
      exact memRead_memWriteBytes_other _ _ _ _ _ w1 (.inl (by simp only [imgLen] at h2; omega))
  have hr : ∀ x ∈ leBytes 4 0x6C5AA5C6 ++ leBytes 4 1 ++ leBytes 4 imgLen ++ leBytes 4 (leAt (s.image 1) 0x41900 4), x < 256 := by
    intro x hx
    simp only [List.mem_append] at hx
    rcases hx with ((hx | hx) | hx) | hx <;> exact leBytes_lt _ _ _ hx
  have fr (k : Nat) (hk : k + 4 ≤ 16) : t.flashRead (0x0307FFF0 + k) 4 =
      leAt (leBytes 4 0x6C5AA5C6 ++ leBytes 4 1 ++ leBytes 4 imgLen ++ leBytes 4 (leAt (s.image 1) 0x41900 4)) k 4 := by
    rw [State.flashRead, memReadLE_at flashUnl _ _ k 4 16 hk, ht, slotA,
      show 16 = (toBytes (leBytes 4 0x6C5AA5C6 ++ leBytes 4 1 ++ leBytes 4 imgLen ++ leBytes 4 (leAt (s.image 1) 0x41900 4))).length from rfl,
      memReadBytes_memWriteBytes _ _ _ _ w1, map_toNat_toBytes _ hr]
  have crc : leAt (s.image 1) 0x41900 4 = crc32c (s.imgBody 1) := by
    have := s.image_crc 1 hb
    simp only [imgCrcOk, decide_eq_true_eq] at this
    refine this.trans (congrArg crc32c ?_)
    rw [State.image, List.take_append_of_le_length (by rw [s.length_imgBody] <;> decide), List.take_of_length_le (by rw [s.length_imgBody] <;> decide)]
  have a : t.slotSeq false = some 1 := by
    have f0 := fr 0 (by decide)
    have f4 := fr 4 (by decide)
    have f8 := fr 8 (by decide)
    have f12 := fr 12 (by decide)
    have h16 := s.leAt_image_header 1 16 4 (by decide)
    have h20 := s.leAt_image_header 1 20 4 (by decide)
    have h0 := s.leAt_image_header 1 0 4 (by decide)
    have h4 := s.leAt_image_header 1 4 2 (by decide)
    have c : leAt (leBytes 4 0x6C5AA5C6 ++ leBytes 4 1 ++ leBytes 4 imgLen ++ leBytes 4 (leAt (s.image 1) 0x41900 4)) 12 4 = leAt (s.image 1) 0x41900 4 := by
      have e := leAt_append_right (leBytes 4 0x6C5AA5C6 ++ leBytes 4 1 ++ leBytes 4 imgLen) (leBytes 4 (leAt (s.image 1) 0x41900 4) ++ []) 0 4
      rw [leAt_leBytes, List.append_nil] at e
      refine e.trans (Nat.mod_eq_of_lt ?_)
      rw [crc]
      exact crc32c_lt _ hb
    have fb' : t.flashBytes (calSlotAddr false) imgLen = s.image 1 := fb
    simp only [State.slotSeq, fb', s.image_crc 1 hb, s.image_device, h16, h20, h0, h4]
    rw [show t.flashRead (calSlotAddr false + 0x7FFF0) 4 = _ from f0, show t.flashRead (calSlotAddr false + 0x7FFF0 + 4) 4 = _ from f4,
      show t.flashRead (calSlotAddr false + 0x7FFF0 + 8) 4 = _ from f8, show t.flashRead (calSlotAddr false + 0x7FFF0 + 12) 4 = _ from f12, c]
    simp only [decide_true, Bool.and_true]
    rfl
  have b : t.slotSeq true = none := by
    have r : t.flashRead (calSlotAddr true + 0x7FFF0) 4 = 0xFFFFFFFF := by
      rw [State.flashRead, memReadLE_bytes, ht, slotA, memReadBytes_congr flashUnl _ []]
      · rfl
      · intro x h1 _
        have h1 : 0x030FFFF0 ≤ x := h1
        rw [memRead_memWriteBytes_other _ _ _ _ _ w1 (.inr (by
          rw [show (toBytes (leBytes 4 0x6C5AA5C6 ++ leBytes 4 1 ++ leBytes 4 imgLen ++ leBytes 4 (leAt (s.image 1) 0x41900 4))).length = 16 from rfl]
          omega)), memRead_memWriteBytes_other _ _ _ _ _ w0 (.inr (by rw [li]; omega))]
    simp only [State.slotSeq, r]
    rfl
  refine ⟨fb, ?_⟩
  simp only [State.bestSlot, a, b]

theorem witness_ImagesComeBack :
    (let s := { withCal { long := some { op := .importImg, by_ := none, pos := 268548 } } with dram := memWriteBytes dramUnl [] base.imgAddr (toBytes (calGood.image 1)) }
     s.cal.long.map CalLong.op = some .importImg ∧ s.dramUnavail = false ∧
     judgeImage ((memReadBytes dramUnl s.dram s.imgAddr 268548).map BitVec.toNat) = 0) ∧
    (let s := flashed (slotA (calGood.image 1))
     s.cal.started = false ∧ s.bestSlot = some (false, 1) ∧ judgeImage (s.flashBytes (calSlotAddr false) 268548) = 0) ∧
    (let s := flashed (slotA (base.image 1))
     s.cal.started = false ∧ s.bestSlot = some (false, 1) ∧ judgeImage (s.flashBytes (calSlotAddr false) 268548) ≠ 0) := by
  have g := slotA_reads calGood calGood_bytes (flashed (slotA (calGood.image 1))) (flashed_flash _)
  have b := slotA_reads base base_bytes (flashed (slotA (base.image 1))) (flashed_flash _)
  refine ⟨⟨rfl, rfl, ?_⟩, ⟨rfl, g.2, ?_⟩, rfl, b.2, ?_⟩
  · have l : (toBytes (calGood.image 1)).length = 268548 := by rw [toBytes, List.length_map]; exact calGood.length_image 1
    have hi : ∀ x ∈ calGood.image 1, x < 256 := by
      intro x hx
      rcases List.mem_append.mp hx with hx | hx
      · exact calGood_bytes x hx
      · exact leBytes_lt _ _ _ hx
    have e := memReadBytes_memWriteBytes dramUnl (toBytes (calGood.image 1)) [] base.imgAddr rfl
    rw [l] at e
    show judgeImage ((memReadBytes dramUnl _ base.imgAddr 268548).map BitVec.toNat) = 0
    rw [e, map_toNat_toBytes _ hi]
    exact image_good
  · exact (congrArg judgeImage g.1).trans image_good
  · exact fun h => image_bad ((congrArg judgeImage b.1).symm.trans h)

/-- The shadow half of unit 0 with nominal widths. -/
def shadowTiu : State := shadowed .calTiuShadow 512 fun _ => 0x40004000

theorem lookup_same (v : Nat) (k : RegKey) (l : List (RegKey × Nat)) (hv : ∀ c ∈ l, c.2 = v) (hk : ∃ c ∈ l, c.1 = k) : lookupCell k l = some v := by
  induction l with
  | nil => obtain ⟨c, h, _⟩ := hk; cases h
  | cons c t ih =>
    rw [lookupCell]
    split
    · rw [← hv c (by simp)]
    · rename_i hne
      apply ih fun c h => hv c (by simp [h])
      obtain ⟨d, hd, e⟩ := hk
      rcases List.mem_cons.mp hd with rfl | hd
      · exact absurd e hne
      · exact ⟨d, hd, e⟩

theorem witness_LoadTiu :
    shadowTiu.writable .pcie .calCmd = true ∧
    widthsOk ((List.range 1024).map fun c => shadowTiu.rget ⟨.calTiuShadow, 0, c / 2, 0⟩ / (if c % 2 = 0 then 1 else 2 ^ 16) % 2 ^ 16) = true := by
  refine ⟨by decide +kernel, nominal_ok (fun i => shadowTiu.rget ⟨.calTiuShadow, 0, i, 0⟩) fun i hi => ?_⟩
  have e : shadowTiu.regs.cells = (List.range 512).map fun j => (key .calTiuShadow 0 j, 0x40004000) := by
    simp only [shadowTiu, shadowed]
    apply List.filter_eq_self.mpr
    intro c hc
    obtain ⟨_, _, rfl⟩ := List.mem_map.mp hc
    rfl
  have := lookup_same 0x40004000 ⟨.calTiuShadow, 0, i, 0⟩ shadowTiu.regs.cells
    (by rw [e]; intro c hc; obtain ⟨_, _, rfl⟩ := List.mem_map.mp hc; rfl)
    (by rw [e]; exact ⟨_, List.mem_map.mpr ⟨i, List.mem_range.mpr hi, rfl⟩, rfl⟩)
  rw [State.rget, SMap.get, this, Option.getD_some]

/-! ### The synthesizers -/

theorem witness_FabricSynthesizerBands :
    base.time.run = true ∧ base.writable .pcie .synCsynCtl = true ∧
    (let data : BitVec 32 := BitVec.ofNat 32 (1000 + 100 * 2 ^ 12)
     bits data.toNat 10 0 ≠ base.fget F.synCsynCtl_TGT ∧ bits data.toNat 23 12 = 100 ∧
     goes (.csynTargetWrite .pcie data) base (fun t => t.csyn.target == 1000000000 && t.csyn.ramp) = true) ∧
    (let s := base.setCsyn { from_ := 1120000000, fromTick := 6000, target := 1350000000, band := 0, ramp := true }
     s.csynFreq = (csynBand 0).2 ∧ (csynBand 0).2 < s.csyn.target ∧
     goes .csynBandChange s (fun t => t.csyn.relock && t.csyn.onTb && t.csyn.nextBand == 1 && t.dw.evq.length == 1) = true) ∧
    (let s := base.setCsyn { from_ := 1280000000, fromTick := 6000, target := 1000000000, band := 3, ramp := true }
     s.csynFreq = (csynBand 3).1 ∧ s.csyn.target < (csynBand 3).1 ∧ goes .csynBandChange s (fun t => t.csyn.relock && t.csyn.nextBand == 2) = true) ∧
    (let s := { base.setCsyn { relock := true, onTb := true, nextBand := 1 } with tickNo := 20000 }
     goes .csynRelockDone s (fun t => t.csyn.band == 1 && !t.csyn.onTb) = true ∧
     goes .csynBandFail s (fun t => t.csyn.failed && t.fbit F.synCsynStat_BAND_FAIL) = true ∧
     goes .csynBandFail { s with tickNo := 19999 } (fun t => t.csyn.relock) = true) ∧
    (let s := { base.setCsyn { failed := true } with tickNo := 1000000 }
     goes .csynRetry s (fun t => t.csyn.relock) = true) ∧
    (goes (.csynGuardMove 3 true) base (fun t => t.rget (key .synCsynCntGuard) == 3 && t.csyn.onTb && t.csyn.relock) = true) ∧
    (let s := base.setCsyn { from_ := 1200000000, fromTick := 6000, target := 1200000000, band := 1, ramp := true }
     s.csynFreq = s.csyn.target ∧ goes .csynRampDone s (fun t => !t.csyn.ramp) = true) := by decide +kernel

/-- Output synthesizer 3 put as given, on, with 10 MHz defined. -/
def osynWith (o : OsynSt) (s : State := base) : State :=
  ((((s.fset F.synOsynCtl_EN 1 3).fset F.synOsynFn_FN 10000000 3).fset F.synOsynFd_FD 1 3)).setOsyn 3 o

theorem witness_OutputSynthesizerHopAndRamp :
    (let s := osynWith {}
     s.writable .fw .synOsynCmd = true ∧ s.fget F.synOsynFd_FD 3 = 1 ∧ 1000 * 1 ≤ s.fget F.synOsynFn_FN 3 ∧ s.fget F.synOsynFn_FN 3 ≤ 1500000000 * 1 ∧
     (unpackT96 (s.fget F.synOsynAnchor_A 3)).getD 0 % lsbPerNs = 0 ∧ s.fbit F.synOsynCtl_EN 3 = true ∧
     goes (.osynApply .fw 3) s (fun t => decide ((t.getOsyn 3).st = .hopping) && t.fget F.synOsynStat_RES 3 == 0) = true ∧
     goes (.osynApply .fw 3) (s.fset F.synOsynFn_FN 999 3) (fun t => t.fget F.synOsynStat_RES 3 == 1) = true ∧
     goes (.osynApply .fw 3) (s.fset F.synOsynAnchor_A 1 3) (fun t => t.fget F.synOsynStat_RES 3 == 2) = true ∧
     goes (.osynApply .fw 3) (s.fset F.synOsynCtl_EN 0 3) (fun t => t.fget F.synOsynStat_RES 3 == 6) = true ∧
     goes (.osynRamp .fw 3) (s.fset F.synOsynRampt_RT (packT96 (6004 * lsbPerNs - 1)) 3) (fun t => t.fget F.synOsynStat_RES 3 == 3) = true) ∧
    (let e : BandEnt := ⟨3900000000, 4100000000⟩
     let s := osynWith { st := .locked, running := true, fn := 10000000, fd := 1, fx := 10000000 * 2 ^ 32, band := some e, cache := [e] }
     let s := ((s.fset F.synOsynRampt_RT (packT96 (6004 * lsbPerNs)) 3).fset F.synOsynCtl_RCOUNT 2 3).fset F.synOsynSeg_DUR 1000 3 1
     (s.getOsyn 3).st = .locked ∧ 0 < s.fget F.synOsynCtl_RCOUNT 3 ∧ s.rampOk 3 (s.getOsyn 3) 2 0 (s.getOsyn 3).fx = true ∧
     goes (.osynRamp .fw 3) s (fun t => decide ((t.getOsyn 3).rampAt = some (6004 * lsbPerNs)) && (t.getOsyn 3).rampN == 2) = true ∧
     goes (.osynLossOfLock 3) s (fun t => decide ((t.getOsyn 3).st = .bypass) && t.fbit F.synOsynStat_LOL 3) = true ∧
     s.writable .fw .synOsynCtl = true ∧ goes (.osynDisable .fw 3 0) s (fun t => decide ((t.getOsyn 3).st = .off) && !t.fbit F.synOsynCtl_EN 3) = true ∧
     (let o : OsynSt := { s.getOsyn 3 with rampAt := some (5004 * lsbPerNs), rampN := 2 }
      let s := s.setOsyn 3 o
      s.nextSeg 3 2 0 = some 1 ∧ goes (.osynRampStart 3) s (fun t => (t.getOsyn 3).ramping && (t.getOsyn 3).left == 1000) = true ∧
      goes (.osynRampStart 3) (s.setOsyn 3 { o with rampAt := some (4005 * lsbPerNs) }) (fun t => (t.getOsyn 3).left == 1) = true ∧
      (let s := s.fset F.synOsynSeg_DUR 0 3 1
       s.nextSeg 3 2 0 = none ∧ goes (.osynRampStart 3) s (fun t => (t.getOsyn 3).rampAt.isNone && !(t.getOsyn 3).ramping) = true)) ∧
     (let s := s.setOsyn 3 { s.getOsyn 3 with ramping := true, left := 0, seg := 1, segs := 2 }
      s.nextSeg 3 (2 - (1 + 1)) (1 + 1) = none ∧ goes (.osynSegmentEnd 3) s (fun t => !(t.getOsyn 3).ramping) = true) ∧
     (let s := (s.fset F.synOsynSeg_DUR 9 3 2).setOsyn 3 { s.getOsyn 3 with ramping := true, left := 0, seg := 1, segs := 3 }
      s.nextSeg 3 (3 - (1 + 1)) (1 + 1) = some 2 ∧ goes (.osynSegmentEnd 3) s (fun t => (t.getOsyn 3).seg == 2 && (t.getOsyn 3).left == 9) = true) ∧
     goes (.osynRamp .fw 3) (s.fset F.synOsynSeg_H (2 ^ 62) 3 1) (fun t => t.fget F.synOsynStat_RES 3 == 4) = true ∧
     goes (.osynRamp .fw 3) (s.setOsyn 3 {}) (fun t => t.fget F.synOsynStat_RES 3 == 5) = true) ∧
    (let s := osynWith { st := .hopping, fn := 10000000, fd := 1 }
     goes (.osynLockDone 3 3900000000 4100000000) s (fun t => decide ((t.getOsyn 3).st = .locked) && (t.getOsyn 3).cache.length == 1 && !(t.getOsyn 3).running) = true) ∧
    (goes (.osynRelock 3) (osynWith { st := .bypass }) (fun t => decide ((t.getOsyn 3).st = .locked) && !(t.getOsyn 3).running) = true) := by decide +kernel

/-! ### Bellwether -/

/-- The device with a candidate of a type and index. -/
def cand (r typ index : Nat) (c : BwCand := {}) (s : State := base) : State :=
  ((s.fset F.bwRefCfg_TYPE typ r).fset F.bwRefCfg_INDEX index r).setCand r c

/-- Device time a whole second. -/
def onSecond (s : State) : State := s.setTime { s.time with now := 7000000000 }

theorem witness_PpsinPulses :
    (base.time.run = true ∧ base.bw.pulse.cells = []) ∧
    (let edge := base.tickNo * finePerNs + (2 * 31 + 1) * 262144
     let s := (cand 7 2 1).setBw { base.bw with pulse := ⟨[(1, edge)]⟩ }
     s.bw.pulse.cells = [(1, edge)] ∧ s.candType 7 = 2 ∧ s.candIndex 7 = 1 ∧ edge < edge + 500000000 * finePerNs ∧
     goes (.ppsinPulse 1 31) s (fun t => t.fbit F.bwRefStat_IGN 7 && t.dw.soon == []) = true) := by
  exact ⟨⟨rfl, rfl⟩, by decide +kernel⟩

theorem witness_ReferenceCandidates :
    (let s := cand 7 5 0
     s.writable .fw .bwRefSw = true ∧ s.candType 7 = 5 ∧
     goes (.bwRefSwCommit .fw 7 (-5)) s (fun t => decide ((t.getCand 7).last = some ⟨-5, 5004 * lsbPerNs⟩)) = true ∧
     base.candType 7 ≠ 5 ∧ goes (.bwRefSwCommit .fw 7 1) base (fun t => t.fbit F.bwStat_WR_ERR && t.rget (key .bwRefSw 7) == 0) = true) ∧
    (let s (y : Int) (fs : List Int) := onSecond ((cand 7 3 0 { present := true, acc := y * 1000000000 * 16384, accN := 1000000000, freqs := fs }).fset F.bwRefStat_QSTATE 2 7)
     (s 20000000001 []).secSample 7 = some 20000000001 ∧
     goes .bwSecond (s 20000000001 []) (fun t => t.fget F.bwRefStat_QSTATE 7 == 0 && t.fget F.bwRefStat_FCAUSE 7 == 3) = true ∧
     (s 20000000000 []).fget F.bwQual_QSTAB * 100000 < 20000000000 / 2 ∧
     goes .bwSecond (s 20000000000 []) (fun t => t.fget F.bwRefStat_QSTATE 7 == 2 && t.fget F.bwRefFest_FEST 7 == 20000000000) = true ∧
     goes .bwSecond (s 20000000000 [0]) (fun t => t.fget F.bwRefStat_QSTATE 7 == 0 && t.fget F.bwRefFest_FEST 7 == 10000000000) = true) ∧
    (let s := onSecond (((cand 7 3 0 { present := true }).fset F.bwRefStat_QSTATE 1 7).fset F.bwRefStat_QLEFT 1 7)
     s.time.now % 1000000000 = 0 ∧ s.glb.limited = false ∧ s.bw.secTick ≠ some s.tickNo ∧ s.secSample 7 = none ∧ s.present 7 = true ∧
     goes .bwSecond s (fun t => t.fget F.bwRefStat_QSTATE 7 == 2 && t.fget F.bwRefStat_QLEFT 7 == 0) = true ∧
     goes .bwSecond (s.fset F.bwRefStat_QLEFT 2 7) (fun t => t.fget F.bwRefStat_QSTATE 7 == 1) = true ∧
     goes .bwSecond (s.fset F.bwRefStat_QSTATE 0 7) (fun t => t.fget F.bwRefStat_QSTATE 7 == 1 && t.fget F.bwRefStat_QLEFT 7 == t.fget F.bwQual_QTIME) = true ∧
     (let s := s.setCand 7 {}
      s.present 7 = false ∧ s.fget F.bwRefStat_QSTATE 7 ≠ 0 ∧
      goes (.refDisqualify 7) s (fun t => t.fget F.bwRefStat_QSTATE 7 == 0 && t.fget F.bwRefStat_FCAUSE 7 == 1 && t.fbit F.bwRefStat_FAULT 7) = true)) ∧
    (let s := (cand 7 3 0 { present := true }).fset F.bwRefStat_QSTATE 2 7
     s.writable .pcie .bwRefCfg = true ∧ indexOk 2 1 = true ∧ 2 ≠ s.candType 7 ∧
     goes (.bwRefCfgWrite .pcie 7 0x0102) s (fun t => t.getCand 7 == {} && t.candType 7 == 2 && t.fget F.bwRefStat_FCAUSE 7 == 5) = true) := by decide +kernel

theorem witness_BellwetherStates :
    (base.time.run = true ∧ base.glb.limited = false ∧ base.bw.evalTick ≠ some base.tickNo ∧ base.fbit F.tbCtl_NCO_SRC = false ∧
     (let s := (cand 7 3 1 { present := true }).fset F.bwRefStat_QSTATE 2 7
      let s := s.setBw { s.bw with fell := some 5999 }
      s.time.now % 1000000 ≠ 0 ∧ s.bwTarget = some 7 ∧ s.bwActive ≠ some 7 ∧
      goes (.bwEvaluate []) s (fun t => decide (t.bwActive = some 7) && t.bwState == 1 && t.rget (key .bwCntSwitch) == 1 && t.bw.fell.isNone) = true) ∧
     (let s (st : Nat) := ((cand 7 5 0 { last := some ⟨9, 0⟩, lastTick := 6000 }).fset F.bwRefStat_QSTATE 2 7).fset F.bwStat_STATE st
      let s (st : Nat) := (s st).setBw { (s st).bw with fell := some 5999 }
      (s 2).bwTarget = some 7 ∧ isTime ((s 2).candType 7) = true ∧
      goes (.bwEvaluate []) (s 2) (fun t => t.fbit F.bwStat_PULLING && t.bw.psi == 9000000000 && !t.bw.acq) = true ∧
      goes (.bwEvaluate []) (s 0) (fun t => t.bw.acq) = true) ∧
     (let n : NtPort := { turn := 77, ph := some (5, 5990) }
      let s := { onSecond ((cand 7 4 3 { ph := some (70, 5000) }).setNtPort 3 n) with tickNo := 6000 }
      s.candType 7 = 4 ∧ s.l1Ok 3 = true ∧
      goes (.bwEvaluate []) s (fun t => (t.getCand 7).acc == 7000000000000000 && (t.getCand 7).accN == 990 && decide ((t.getCand 7).ph = some (77, 5990))) = true) ∧
     (let s := onSecond (cand 7 3 1)
      s.time.now % 1000000 = 0 ∧ s.candType 7 = 3 ∧ ([none, some (-7)] : List (Option Int)).getD (s.candIndex 7) none = some (-7) ∧
      goes (.bwEvaluate [none, some (-7)]) s (fun t => (t.getCand 7).fnow == -7 && (t.getCand 7).accN == 1000000 && (t.getCand 7).present) = true)) ∧
    (base.writable .jtag .bwUnlock = true ∧ goes (.bwUnlockWrite .jtag 0xA7) base (fun t => t.fbit F.bwStat_STEP_OK) = true ∧
     goes (.bwUnlockWrite .jtag 0) (base.fset F.bwStat_STEP_OK 1) (fun t => !t.fbit F.bwStat_STEP_OK) = true ∧
     goes (.bwUnlockWrite .fw 0xA7) base (fun t => t.fbit F.bwStat_WR_ERR && !t.fbit F.bwStat_STEP_OK) = true) ∧
    (let s := ((cand 2 1 0).fset F.bwStat_ACTIVE_V 1).fset F.bwStat_ACTIVE 2
     s.writable .fw .bwCmd = true ∧ s.bwActive = some 2 ∧ s.candType 2 = 1 ∧ s.bw.acq = false ∧ goes (.bwRealign .fw) s (fun t => t.fbit F.bwStat_PULLING && t.bw.realign) = true) ∧
    (let s := ((base.fset F.bwStat_STATE 3).fset F.bwHoSpec_EN 1).fset F.bwHoSpec_SPEC 5
     let s := { s with tickNo := 5000000000 }
     s.bwState = 3 ∧ s.fget F.bwHoSpec_SPEC ≤ s.hoElapsed ∧ goes .holdoverLost s (fun t => t.bwState == 4 && t.dw.evq.length == 1) = true) ∧
    (base.writable .pcie .bwCtl = true ∧ goes (.bwCtlWrite .pcie 0x21) base (fun t => t.fget F.bwCtl_MODE == 1 && t.fget F.bwCtl_POLICY == 2) = true ∧
     (let s := base.fset F.bwStat_STATE 2
      s.bwState = 2 ∧ goes (.bwCtlWrite .pcie 0x02) s (fun t => t.bwState == 3) = true)) := by decide +kernel

/-! ### Network time -/

/-- Domain 24, sdoId 5 in slot 15 at HARDWARE; session 255 of a kind on port 51, put as given; time is valid. -/
def session (kind : Nat) (x : NtSes) (s : State := base) : State :=
  let s1 := ((s.fset F.ntDomCfg_MODE 1 15).fset F.ntDomCfg_DOMAIN 24 15).fset F.ntDomCfg_SDOID 5 15
  let s2 := ((s1.fset F.ntSesCfg_EN 1 255).fset F.ntSesCfg_KIND kind 255).fset F.ntSesCfg_DOM 15 255
  (((s2.fset F.ntSesLink_PORT 51 255).fset F.ntSesPeerid_ID 0xABCD 255).setSes 255 x).rset (key .ntClockId) 7

/-- A message to that session; the edge that carried it. -/
def msg (seq : Nat) (two : Bool) (ts : Instant) (corr : Int := 0) : PtpMsg := ⟨24, 5, 0xABCD, seq, two, corr, ts, 7 * 65536 + 1, false⟩
def edge : EdgeObs := ⟨2, 3, 0, 0⟩

/-- Session 255 after a command. -/
def sesGoes (i : Instr) (s : State) (P : NtSes → Bool) : Bool := goes i s fun t => P (t.getSes 255)

theorem witness_SlaveSessionsExchange :
    (let s := session 0 { lastSeq := some 8, delayAt := some 6000 }
     s.domSlot 24 5 = some 15 ∧ s.sessions 51 15 [0, 3] = [255] ∧ s.sessions 51 15 [0] = [255] ∧ (msg 9 false 0).spid = s.fget F.ntSesPeerid_ID 255 ∧
     sesGoes (.syncRx 51 (msg 9 true 7) edge) s (fun x => (x.wait.map NtSync.seq) == some 9 && x.lastSeq == some 9) = true ∧
     s.sesDelay 255 = some 0 ∧
     goes (.syncRx 51 (msg 8 true 7) edge) s (fun t => t.fbit F.ntSesStat_DISC 255 && t.rget (key .ntSesCntDisc 255) == 1) = true ∧
     goes (.followUpRx 51 (msg 9 false 7)) s (fun t => t.fbit F.ntSesStat_DISC 255) = true) ∧
    (let y : NtSync := ⟨9, 0, ⟨5000 * lsbPerNs, 0, false⟩, 2, false, 6000⟩
     let s := session 0 { wait := some y }
     s.tickNo ≤ y.until_ ∧ sesGoes (.followUpRx 51 (msg 9 false 7 3)) s (fun x => x.wait.isNone && decide (x.sync.map NtSync.corr = some 5)) = true) ∧
    (let y : NtSync := ⟨9, 4900 * lsbPerNs, ⟨5000 * lsbPerNs, 0, false⟩, 2, false, 0⟩
     let s := session 0 { req := some ⟨4, ⟨5001 * lsbPerNs, 0, false⟩⟩, sync := some y }
     let m := msg 4 false (5101 * lsbPerNs)
     let rt := (dif y.t2.t y.t1).1 - y.corr + (dif m.ts (5001 * lsbPerNs)).1 - m.corr
     m.reqPid / 65536 = s.fget F.ntClockId_ID ∧ (dif y.t2.t y.t1).2 = false ∧ (dif m.ts (5001 * lsbPerNs)).2 = false ∧ rt = 13107198 ∧
     (s.delayOf 51 [rt]).2.2 = false ∧
     sesGoes (.delayRespRx 51 m) s (fun x => x.rs == [rt] && x.req.isNone && x.delayAt == some 6000) = true ∧
     goes (.delayRespRx 51 m) (session 0 {}) (fun t => t.fbit F.ntSesStat_DISC 255) = true) ∧
    (let s := session 0 { next := 6000, seq := 65535 }
     s.reqDue 255 0 = true ∧ sesGoes (.delayReqTx 255 edge) s (fun x => x.seq == 0 && x.tx.typ == 1 && x.req.isSome) = true ∧
     (session 0 { next := 6001 }).reqDue 255 0 = false ∧
     (session 2 {}).reqDue 255 2 = true ∧ sesGoes (.pdelayReqTx 255 edge) (session 2 {}) (fun x => x.tx.typ == 2) = true) ∧
    (let s := (session 3 {}).fset F.ntSesStat_VALID 1 255
     let s := { s with tickNo := 3 * s.syncNs 255 }
     0 + s.fget F.ntSesLink_RX_TMO 255 * s.syncNs 255 ≤ s.tickNo ∧ s.fget F.ntSesCfg_KIND 255 = 3 ∧
     goes (.sesSyncTimeout 255) s (fun t => !t.fbit F.ntSesStat_VALID 255 && t.fbit F.ntSesStat_TMO 255) = true) := by decide +kernel

theorem dif_self (a : Instant) : dif a a = (0, false) := by
  have h : roundDiv .nearestEven 0 4 = 0 := by decide
  simp [dif, spanBetween, rne, h, satS64, s64Max, s64Min]

/-- Whatever the delay to the lane domain is: a message sent at the instant it is stamped on receipt. -/
theorem witness_StampedOnReceipt :
    (∃ m : PtpMsg, let s := session 0 { lastSeq := some 8, delayAt := some 6000 }
      m.spid = s.fget F.ntSesPeerid_ID 255 ∧ m.twoStep = false ∧ m.seq = 9 ∧ s.domSlot m.domain m.sdo = some 15 ∧
      dif m.ts (s.stampRx 51 edge).t = (0, false)) ∧
    (∃ r : NtReq, let s := session 2 { req := some r }
      (s.getSes 255).req = some r ∧ r.seq = 9 ∧ r.sent.stepSeq = (s.stampRx 51 edge).stepSeq ∧
      dif (s.stampRx 51 edge).t r.sent.t = (0, false) ∧ (s.delayOf 51 [0]).2.2 = false) :=
  ⟨⟨{ msg 9 false 0 with ts := ((session 0 {}).stampRx 51 edge).t }, by decide +kernel, rfl, rfl, by decide +kernel, dif_self _⟩,
   ⟨⟨9, ⟨((session 2 {}).stampRx 51 edge).t, 0, false⟩⟩, rfl, rfl, rfl, dif_self _, by decide +kernel⟩⟩

theorem witness_MasterAndPeerSessionsAnswer :
    (let s := session 1 {}
     s.sessions 51 15 [1] = [255] ∧ s.time.valid = true ∧ sesGoes (.delayReqRx 51 (msg 9 false 0) edge) s (fun x => x.tx.typ == 9 && x.tx.seq == 9) = true ∧
     (let h := s.setTime { s.time with valid := false }
      h.time.valid = false ∧ goes (.delayReqRx 51 (msg 9 false 0) edge) h (fun t => t.fbit F.ntSesStat_HELD 255) = true)) ∧
    (let s := session 2 { req := some ⟨9, ⟨4000 * lsbPerNs, 0, false⟩⟩ }
     let m := msg 9 false 0
     s.sessions 51 15 [2] = [255] ∧ s.fbit F.ntSesCfg_TWO_STEP 255 = false ∧
     sesGoes (.pdelayReqRx 51 m edge { edge with ago := 0 }) s (fun x => x.tx.typ == 3 && x.tx.seq == 9) = true ∧
     goes (.pdelayReqRx 51 m edge edge) (s.fset F.ntSesCfg_TWO_STEP 1 255) (fun t => (t.getSes 255).tx.typ == 10 && t.rget (key .ntSesCntTx 255) == 2) = true ∧
     sesGoes (.pdelayRespRx 51 (msg 9 true 7) edge) s (fun x => x.presp.isSome) = true) ∧
    (let w : NtPresp := ⟨9, 4500 * lsbPerNs, ⟨5000 * lsbPerNs, 0, false⟩, 0, false⟩
     let s := session 2 { req := some ⟨9, ⟨4000 * lsbPerNs, 0, false⟩⟩, presp := some w }
     sesGoes (.pdelayRespFollowUpRx 51 (msg 9 false (4600 * lsbPerNs))) s (fun x => x.req.isNone && x.presp.isNone && x.resps.length == 1) = true ∧
     goes (.pdelayRespFollowUpRx 51 (msg 9 false 0)) (s.setSes 255 { s.getSes 255 with presp := some { w with t4 := { w.t4 with stepSeq := 1 } } })
       (fun t => t.fbit F.ntSesStat_STEPDROP 255) = true) ∧
    (let s := onSecond (session 1 { seq := 65535 })
     s.fbit F.ntSesCfg_EN 255 = true ∧ s.fget F.ntSesCfg_KIND 255 = 1 ∧ s.glb.limited = false ∧ 0 < s.time.now / s.syncNs 255 ∧
     sesGoes (.syncTx 255 edge) s (fun x => x.seq == 0 && x.tx.typ == 0 && x.next == 56) = true ∧
     sesGoes (.syncTx 255 edge) (s.setTime { s.time with valid := false }) (fun x => x.seq == 65535 && x.next == 56) = true) ∧
    (let s := ((base.fset F.ntSesCfg_EN 1 0).fset F.ntSesCfg_KIND 2 0).fset F.ntDomCfg_MODE 2 15
     let cfg (kind dom : Nat) : BitVec 32 := BitVec.ofNat 32 (2 ^ 31 + kind * 2 ^ 28 + dom * 2 ^ 21 + 0xD * 2 ^ 17 + 0xD * 2 ^ 13)
     s.writable .pcie .ntSesCfg = true ∧ s.fbit F.ntSesCfg_EN 255 = false ∧ s.sesPort 0 = s.sesPort 255 ∧ s.fget F.ntSesLink_PEER 255 = 0 ∧
     goes (.ntSesEnable .pcie 255 (cfg 3 0)) s (fun t => t.fbit F.ntSesCfg_EN 255 && t.fget F.ntSesStat_RES 255 == 0) = true ∧
     s.fget F.ntDomCfg_MODE 15 = 2 ∧ goes (.ntSesEnable .pcie 255 (cfg 1 15)) s (fun t => !t.fbit F.ntSesCfg_EN 255 && t.fget F.ntSesStat_RES 255 == 2) = true ∧
     goes (.ntSesEnable .pcie 255 (cfg 1 0)) s (fun t => t.fbit F.ntSesCfg_EN 255) = true ∧
     goes (.ntSesEnable .pcie 255 (cfg 3 0)) base (fun t => !t.fbit F.ntSesCfg_EN 255 && t.fget F.ntSesStat_RES 255 == 1) = true) := by decide +kernel

/-- Port 51 as NT keeps it. -/
def ntPort (x : NtPort) (s : State := base) : State := s.setNtPort 51 x

theorem witness_PortTimeInputs :
    (goes (.esmcRx 51 15) base (fun t => t.fget F.ntPortStat_QL_RX 51 == 15 && t.fbit F.ntPortStat_DNU 51 && (t.getNtPort 51).esmcTick == 6000) = true) ∧
    (let s := { (cand 7 4 51).fset F.bwRefStat_QSTATE 2 7 with tickNo := 5000000000 }
     let s := s.fset F.ntPortCfg_ESMC_EN 1 51
     s.candType 7 = 4 ∧ s.candIndex 7 = 51 ∧ (s.getNtPort 51).esmcTick + 5000000000 ≤ s.tickNo ∧
     goes (.esmcLoss 51) s (fun t => t.fbit F.ntPortStat_ESMC_LOSS 51 && t.fget F.bwRefStat_QSTATE 7 == 0) = true ∧
     goes (.esmcLoss 51) { s with tickNo := 4999999999 } (fun t => !t.fbit F.ntPortStat_ESMC_LOSS 51) = true) ∧
    (let s := ((ntPort { mean := some 65, close := 7, ph := some (32, 5000) }).fset F.ntPortCfg_PD_AVG 0 51).fset F.lnStat_CDR_LOCK 1 60
     let r := ((ntPort { mean := some 65, close := 7 }).fset F.ntPortCfg_PD_AVG 0 51).fset F.lnStat_CDR_LOCK 1 60
     (0 : Nat) + 1 ≥ 2 ^ s.fget F.ntPortCfg_PD_AVG 51 ∧ (rne ((0 + 32) * 4) (0 + 1) - 65).natAbs * 1000 ≤ 65536 ∧
     s.timingLane 51 = 60 ∧ goes (.pdReading 51 32) base (fun t => decide (t = base)) = true ∧
     goes (.pdReading 51 33) s (fun t => (t.getNtPort 51).turn == 1 && t.fget F.ntPortPdfreq_Y 51 == 61035156) = true ∧
     goes (.pdReading 51 32) r (fun t => t.fbit F.ntPortStat_PD_SETTLED 51 && (t.getNtPort 51).mean == some 128) = true ∧
     5 * 65536 < (rne ((0 + 100) * 4) (0 + 1) - 65).natAbs * 1000 ∧
     goes (.pdReading 51 100) (r.fset F.ntPortStat_PD_SETTLED 1 51) (fun t => !t.fbit F.ntPortStat_PD_SETTLED 51) = true ∧
     (let s := base.fset F.lnStat_CDR_LOCK 1 60
      (0 : Nat) + 1 < 2 ^ s.fget F.ntPortCfg_PD_AVG 51 ∧ goes (.pdReading 51 100) s (fun t => (t.getNtPort 51).cnt == 1 && (t.getNtPort 51).sum == 100) = true)) ∧
    (let s := (base.fset F.lnQuadCtl_SYNT 1 15).fset F.lnStat_RATE 3 60
     let s := s.fset F.lnStat_BLOCK_LOCK 1 60
     s.syntonized (portQuad 51) = true ∧ 2 ≤ s.laneRate 51 ∧ s.fbit F.lnStat_BLOCK_LOCK (s.timingLane 51) = true ∧
     goes (.lanePhaseMeasured 51) s (fun t => (t.getNtPort 51).measured) = true ∧
     base.syntonized (portQuad 51) = false ∧ goes (.lanePhaseMeasured 51) base (fun t => !(t.getNtPort 51).measured) = true) ∧
    (let s := ntPort { tsf := [5 + 9 * 2 ^ 32, 6] }
     s.writable .smbus .ptTsf = true ∧
     goes (.ptTsfRead .smbus 51) s (fun t => t.resp.data == 5 && t.latchOf .smbus (key .ptTsf 51) == 9 && (t.getNtPort 51).tsf == [6]) = true ∧
     goes (.ptTsfRead .smbus 51) base (fun t => t.resp.data == 0) = true) := by decide +kernel

/-! ### Lanes and ports -/

/-- A port in a state of R364, enabled, taking Elber messages, put as given. -/
def portAt (p st : Nat) (x : Pt) (s : State := base) : State :=
  (((s.fset F.ptCfg_EN 1 p).fset F.ptCfg_ELBER_EN 1 p).fset F.ptStat_STATE st p).setPt p x

/-- A lane with signal, its QPLL locked, at a rate; and locked. -/
def lit (j rate : Nat) (s : State) : State := (((s.fset F.lnStat_LOS 0 j).fset F.lnStat_RATE rate j).fset F.lnQuadStat_QPLL_LOCK 1 (portQuad (lanePort j)))
def lockedLane (j rate : Nat) (s : State) : State := (((lit j rate s).fset F.lnStat_CDR_LOCK 1 j).fset F.lnStat_BLOCK_LOCK 1 j).fset F.lnStat_ADAPT 1 j

/-- A port after a command: its state and what it keeps. -/
def portGoes (i : Instr) (s : State) (p : Nat) (P : Nat → Pt → Bool) : Bool := goes i s fun t => P (t.fget F.ptStat_STATE p) (t.getPt p)

def partner (max : Nat) : ElmHead := ⟨1, max, false, true, 0x1234, 5⟩

theorem witness_LinkTrainingRunsItsSteps :
    (let cfg : BitVec 32 := 0x80000002
     base.writable .pcie .ptCfg = true ∧ base.glb.limited = false ∧ base.fbit F.ptCfg_EN 47 = false ∧ cfgCombo 47 2 0 false = true ∧
     goes (.ptEnable .pcie 47 cfg) base (fun t => t.fbit F.ptCfg_EN 47 && t.fget F.ptStat_STATE 47 == 9 && t.fget F.lnStat_RATE 47 == 3) = true ∧
     goes (.ptEnable .pcie 47 0x80001002) base (fun t => t.fget F.ptStat_STATE 47 == 1 && t.fget F.lnStat_RATE 47 == 2) = true ∧
     goes (.ptEnable .pcie 47 0x80001002) (lit 47 0 base) (fun t => t.fget F.ptStat_STATE 47 == 2) = true ∧
     cfgCombo 47 0 0 false = true ∧ (base.fset F.ptCfg_EN 1 44).fget F.ptCfg_MODE 44 ≠ 0 ∧
     goes (.ptEnable .pcie 47 0x80000000) (base.fset F.ptCfg_EN 1 44) (fun t => !t.fbit F.ptCfg_EN 47 && t.fbit F.ptStat_QUAD_CONFLICT 47) = true ∧
     goes (.ptDisable .pcie 47 0) ((portAt 47 8 {}).fset F.ptStat_LINK 1 47) (fun t => !t.fbit F.ptStat_LINK 47 && t.fget F.ptStat_STATE 47 == 0 && t.dw.evq.length == 1) = true) ∧
    (let s := portAt 47 1 {}
     portGoes (.laneSignalDetected 47) s 47 (fun st x => st == 2 && x.attAt == 6000) = true ∧
     goes (.laneSignalDetected 47) base (fun t => !t.fbit F.lnStat_LOS 47 && t.fget F.ptStat_STATE 47 == 0) = true ∧
     goes (.laneSignalDetected 64) base (fun t => !t.fbit F.lnStat_LOS 64) = true ∧ goes (.laneLock 64 1 2) (lit 64 0 base) (fun t => t.laneLocked 64) = true) ∧
    (let s := lit 47 2 (portAt 47 2 {})
     s.fget F.lnStat_RATE 47 ≠ 0 ∧ s.timingLane 47 = 47 ∧ goes (.laneLock 47 5 6) s (fun t => t.laneLocked 47 && t.fget F.ptStat_STATE 47 == 3 && t.fget F.ntPortIlatRx_LAT 47 == 6) = true ∧
     portGoes (.laneLock 47 5 6) (lit 47 2 (portAt 47 4 { switched := true })) 47 (fun st _ => st == 5) = true ∧
     goes (.laneLock 47 5 6) (s.fset F.lnStat_LOS 1 47) (fun t => !t.laneLocked 47) = true ∧
     goes (.laneLock 60 5 6) (lit 60 2 (portAt 51 2 {})) (fun t => t.laneLocked 60 && t.fget F.ptStat_STATE 51 == 2) = true) ∧
    (goes (.elmRate 47 2 0) (portAt 47 4 {}) (fun t => t.rget (key .ptCntElmDisc 47) == 1) = true ∧
     portGoes (.elmHello 47 (partner 2)) (portAt 47 3 {}) 47 (fun st x => st == 3 && x.helloSeen) = true ∧
     portGoes (.elmHello 47 (partner 2)) ((portAt 47 3 { acked := true }).fset F.ptCfg_MAXRATE 2 47) 47 (fun st x => st == 4 && x.rate == 3) = true ∧
     portGoes (.elmRate 47 1 2) (portAt 47 4 { rate := 3 }) 47 (fun _ x => x.rateRx) = true ∧
     goes (.rateSwitch 47) (lockedLane 47 2 (portAt 47 4 { rate := 3, rateRx := true })) (fun t => (t.getPt 47).switched && t.fget F.lnStat_RATE 47 == 3 && !t.laneLocked 47) = true) ∧
    (let s := portAt 51 5 { eqTheirs := 7, eqMine := 15 }
     (portLanes 51)[(3 : Nat)]? = some 63 ∧ eqOne (s.fget F.lnTxeq_PRE 63) 3 4 = some 4 ∧ eqOne (s.fget F.lnTxeq_MAIN 63) 0 51 ≠ none ∧ eqOne (s.fget F.lnTxeq_POST 63) 0 8 ≠ none ∧
     goes (.elmEq 51 ⟨1, 0⟩ 3 3 0 0 true true) s (fun t => t.fget F.ptStat_STATE 51 == 6 && t.fget F.lnTxeq_PRE 63 == 4) = true ∧
     eqOne ((s.fset F.lnTxeq_PRE 63 63).fget F.lnTxeq_PRE 63) 1 4 = none ∧
     goes (.elmEq 51 ⟨1, 0⟩ 3 1 0 0 false false) (s.fset F.lnTxeq_PRE 63 63) (fun t => t.fget F.ptStat_STATE 51 == 5 && t.fget F.lnTxeq_PRE 63 == 63) = true) ∧
    (let s := portAt 47 6 { rate := 3, verMine := 1, verMineOk := 1 }
     portGoes (.elmVerify 47 1 0 true true) s 47 (fun st _ => st == 7) = true ∧
     portGoes (.elmVerify 51 1 3 true true) (portAt 51 6 {}) 51 (fun st x => st == 6 && x.verTheirs == 8) = true ∧
     (let s := { portAt 47 6 { rate := 3, verTheirs := 1, verTheirsOk := 1 } with tickNo := 10000000 }
      portGoes (.verifyEnd 47 [0]) s 47 (fun st _ => st == 7) = true ∧ portGoes (.verifyEnd 47 [1]) s 47 (fun st x => st == 4 && x.rate == 2 && x.stepped) = true ∧
      portGoes (.verifyEnd 47 [0]) { s with tickNo := 9999999 } 47 (fun st _ => st == 6) = true ∧
      portGoes (.verifyEnd 47 [0]) { portAt 47 6 { rate := 3 } with tickNo := 10000000 } 47 (fun st x => st == 6 && x.verMineOk == 1) = true)) ∧
    (portGoes (.helloTx 47) { portAt 47 3 {} with tickNo := 1000000 } 47 (fun _ x => x.helloTick == 1000000) = true ∧
     portGoes (.helloTx 47) { portAt 47 11 {} with tickNo := 1000000 } 47 (fun _ x => x.helloTick == 0) = true ∧
     portGoes (.echoTx 47 edge) (portAt 47 7 { echoIdx := 15 }) 47 (fun _ x => x.echoIdx == 0 && x.echo.map Prod.fst == some 15) = true) ∧
    (goes (.elmHello 47 (partner 2)) (portAt 47 3 {}) (fun t => (t.elm.get {} 47).sent.any fun m => match m.2 with | .ack h p _ _ tr => h == 0x1234 && p == 5 && !tr | _ => false) = true ∧
     goes (.elmEq 51 ⟨1, 7⟩ 3 3 0 0 true true) (portAt 51 5 { eqTheirs := 7, eqMine := 15 })
       (fun t => (t.elm.get {} 51).sent.any fun m => match m.2 with | .eq i _ done _ pre _ _ n => i == 3 && done && pre == 4 && n == 7 | _ => false) = true ∧
     portGoes (.elmEcho 47 1 false 15 0 0 ⟨edge, edge⟩) (portAt 47 7 {}) 47 (fun st x => st == 7 && x.rs.length == 0) = true) := by decide +kernel

/-- Port 47 in a state, an exchange answered at the very instant the probe left. -/
def echoed (st seq n : Nat) : State :=
  portAt 47 st { rate := 3, echo := some (15, ⟨((portAt 47 st {}).stampRx 47 edge).t, seq, false⟩), rs := List.replicate n 7, head := some (partner 2) }

/-- Whatever the delay to the lane domain is: the sixteenth exchange, one of the first, one on the link in use, and one over a time step. -/
theorem witness_EchoesAreAnswered :
    ∀ c ∈ [(7, 0, 15), (7, 0, 1), (8, 0, 16), (7, 1, 15)], let s := echoed c.1 c.2.1 c.2.2
      ∃ t1 : NtStamp, (s.getPt 47).echo = some (15, t1) ∧ s.fget F.ptStat_STATE 47 = c.1 ∧ (s.getPt 47).rs.length = c.2.2 ∧ (s.getPt 47).rate = 3 ∧
        (s.getPt 47).head = some (partner 2) ∧ s.noSession 47 = true ∧ t1.stepSeq = c.2.1 ∧ (s.stampRx 47 edge).stepSeq = 0 ∧
        (dif (s.stampRx 47 edge).t t1.t) = (0, false) ∧ (dif (5 * lsbPerNs) 0).2 = false ∧
        (0 : Int) - (dif (5 * lsbPerNs) 0).1 < 2 ^ 63 ∧ -2 ^ 63 ≤ (0 : Int) - (dif (5 * lsbPerNs) 0).1 := by
  intro c hc
  simp only [List.mem_cons, List.not_mem_nil, or_false] at hc
  rcases hc with rfl | rfl | rfl | rfl <;>
    exact ⟨_, rfl, by decide +kernel, by decide +kernel, rfl, rfl, by decide +kernel, rfl, by decide +kernel, dif_self _, by decide +kernel,
      by decide +kernel, by decide +kernel⟩

/-- An ACK names this device by its serial hash, whatever that is. -/
theorem witness_AckIsTaken :
    ∃ hash, hash = Config.serialHash ∧ (let s := portAt 47 3 {}
      s.fbit F.ptCfg_ELBER_EN 47 = true ∧ s.fget F.ptStat_STATE 47 = 3 ∧ (s.getPt 47).head = none ∧
      ((portAt 47 3 { helloSeen := true, head := some (partner 2) }).getPt 47).head = some (partner 2)) :=
  ⟨_, rfl, by decide +kernel⟩

/-- Port 51 as an Elber trunk on lanes of a mask, its lanes locked. -/
def trunk (use : Nat) (x : Pt) : State :=
  let s := (((portAt 51 8 x).fset F.ptStat_SPARE 1 51).fset F.ptStat_LINK 1 51).fset F.ptStat_LANES use 51
  lockedLane 63 3 (lockedLane 62 3 (lockedLane 61 3 (lockedLane 60 3 s)))

theorem witness_AttemptsFailFallBackAndRestart :
    (let s := portAt 47 3 {}
     let late (s : State) : State := { s with tickNo := s.fget F.ptTrain_STEP_TMO 47 * 1000000 }
     (late s).glb.limited = false ∧ ((late s).getPt 47).rejoin = none ∧ portGoes (.trainStepTimeout 47) (late s) 47 (fun st _ => st == 9) = true ∧
     portGoes (.trainStepTimeout 47) s 47 (fun st _ => st == 3) = true ∧
     goes (.trainStepTimeout 47) (late (portAt 47 7 {})) (fun t => t.fget F.ptStat_FAILS 47 == 1 && t.fget F.ptStat_LAST_FAIL 47 == 1 && t.fget F.ptStat_STATE 47 == 1) = true ∧
     goes (.trainStepTimeout 47) (late ((portAt 47 7 {}).fset F.ptStat_FAILS 2 47)) (fun t => t.fget F.ptStat_FAILS 47 == 3 && t.fget F.ptStat_STATE 47 == 11 && t.fget F.ptBackoff_MS 47 == 100) = true) ∧
    (let late (s : State) : State := { s with tickNo := s.fget F.ptTrain_TOTAL_TMO 47 * 1000000 }
     goes (.trainTotalTimeout 47) (late (portAt 47 2 {})) (fun t => t.fget F.ptStat_LAST_FAIL 47 == 2) = true ∧
     goes (.trainTotalTimeout 47) (late (portAt 47 9 {})) (fun t => t.fget F.ptStat_LAST_FAIL 47 == 4) = true ∧
     goes (.trainTotalTimeout 47) (portAt 47 9 {}) (fun t => t.fget F.ptStat_FAILS 47 == 0) = true) ∧
    (goes (.verifyEnd 47 [1]) { portAt 47 6 { verTheirs := 1, rate := 2 } with tickNo := 10000000 } (fun t => t.fget F.ptStat_LAST_FAIL 47 == 3) = true) ∧
    (let s := lockedLane 47 2 (portAt 47 9 {})
     s.allLocked 47 = true ∧ goes (.standardLinkUp 47 3) s (fun t => t.fget F.ptStat_STATE 47 == 10 && t.fbit F.ptStat_LINK 47 && t.dw.evq.length == 1) = true ∧
     (portAt 47 9 {}).allLocked 47 = false) ∧
    (let s := (portAt 47 11 {}).fset F.ptBackoff_MS 100 47
     portGoes (.listenBackoffExpire 47) { s with tickNo := 100000000 } 47 (fun st _ => st == 1) = true ∧
     portGoes (.listenBackoffExpire 47) { s with tickNo := 99999999 } 47 (fun st _ => st == 11) = true) ∧
    (let s := (lockedLane 47 3 (portAt 47 10 {})).fset F.ptStat_LINK 1 47
     s.laneLocked 47 = true ∧ goes (.laneLossOfLock 47 false 0) s (fun t => !t.fbit F.ptStat_LINK 47 && t.fbit F.lnStat_LOL 47 && t.fget F.ptStat_STATE 47 == 2 && t.flt.reports.length == 1) = true ∧
     portGoes (.laneLossOfLock 47 true 0) (lockedLane 47 3 (portAt 47 7 {})) 47 (fun st _ => st == 1) = true ∧
     s.writable .fw .lnCtl = true ∧ goes (.laneReset .fw 47 1) s (fun t => !t.fbit F.ptStat_LINK 47 && t.fbit F.lnStat_LOL 47) = true ∧
     (lockedLane 64 1 base).laneLocked 64 = true ∧ goes (.laneLossOfLock 64 true 0) (lockedLane 64 1 base) (fun t => t.fbit F.lnStat_LOL 64 && t.flt.reports.length == 1) = true ∧
     s.writable .pcie .ptTrain = true ∧ goes (.ptCfgWrite .pcie true 47 0x00C80033) s (fun t => t.fget F.ptTrain_STEP_TMO 47 == 0x33 && !t.fbit F.ptStat_LINK 47) = true ∧
     s.fget F.ptTrain_STEP_TMO 47 ≠ 0x33 ∧
     goes (.ptCfgWrite .pcie true 47 0x00C80033) base (fun t => t.fget F.ptTrain_TOTAL_TMO 47 == 200) = true ∧
     cfgCombo 47 1 1 true = true ∧ 1 ≠ s.fget F.ptCfg_MODE 47 ∧
     goes (.ptCfgWrite .pcie false 47 0x80001011) s (fun t => t.fget F.ptCfg_MODE 47 == 1 && !t.fbit F.ptStat_LINK 47) = true ∧
     goes (.ptCfgWrite .pcie false 47 0x80000000) (((base.fset F.ptCfg_EN 1 47).fset F.ptCfg_EN 1 44)) (fun t => t.fbit F.ptStat_QUAD_CONFLICT 47 && t.fget F.ptCfg_MODE 47 != 0) = true ∧
     cfgCombo 47 3 0 false = false ∧ goes (.ptCfgWrite .pcie false 47 0x00000003) base (fun t => t.fbit F.ptStat_WR_ERR 47 && t.fget F.ptCfg_MODE 47 != 3) = true) ∧
    (let s := (lockedLane 60 3 ((portAt 51 10 {}).fset F.ptStat_LINK 1 51))
     s.writable .jtag .lnQuadCtl = true ∧ true ≠ s.fbit F.lnQuadCtl_SYNT 15 ∧ portQuad 51 = 15 ∧ s.laneLocked 60 = true ∧
     goes (.syntChange .jtag 15 1) s (fun t => t.fbit F.lnQuadCtl_SYNT 15 && t.fbit F.lnStat_LOL 60 && !t.fbit F.ptStat_LINK 51 && !t.fbit F.lnQuadStat_QPLL_LOCK 15) = true ∧
     goes (.syntChange .jtag 15 0) s (fun t => t.laneLocked 60) = true) ∧
    (goes (.qpllRelockDone 15) (base.fset F.lnQuadStat_FAMILY 2 15) (fun t => t.fbit F.lnQuadStat_QPLL_LOCK 15) = true ∧ base.fget F.lnQuadStat_FAMILY 15 = 0) := by
  decide +kernel

theorem witness_TrunkLanesLeaveAndReturn :
    (let s := trunk 15 {}
     s.glb.limited = false ∧ s.fget F.ptStat_STATE 51 = 8 ∧ s.fbit F.ptStat_SPARE 51 = true ∧ s.fbit F.ptStat_LINK 51 = true ∧ s.fbit F.ptCfg_ELBER_EN 51 = true ∧
     s.laneLocked 63 = true ∧ (s.getPt 51).drop = none ∧
     goes (.laneLossOfLock 63 false 9) s (fun t => t.fget F.ptStat_LANES 51 == 7 && decide ((t.getPt 51).drop = some ⟨3, 6000, 6000⟩) && t.rget (key .ptCntSpareDisc 51) == 9) = true ∧
     goes (.elmDrop 51 1 3) s (fun t => t.fget F.ptStat_LANES 51 == 7 && t.fget F.ptStat_RATE 51 == 5) = true ∧
     goes (.elmDropAck 51 1 3) s (fun t => decide (t = s)) = true ∧ goes (.dropResend 51) s (fun t => decide (t = s)) = true) ∧
    (let s := trunk 7 {}
     bit 7 2 = true ∧ bit 7 3 = false ∧ goes (.laneLossOfLock 62 false 0) s (fun t => !t.fbit F.ptStat_LINK 51) = true ∧
     goes (.elmDrop 51 1 2) s (fun t => !t.fbit F.ptStat_LINK 51) = true ∧ goes (.elmDrop 51 1 3) s (fun t => t.fbit F.ptStat_LINK 51) = true ∧
     (s.getPt 51).rejoin = none ∧ (s.getPt 51).retryAt ≤ s.tickNo ∧
     portGoes (.laneRejoin 51 3) s 51 (fun _ x => decide (x.rejoin.map PtRejoin.lane = some 3)) = true ∧
     portGoes (.laneRejoinRetry 51 2) s 51 (fun _ x => x.rejoin.isNone) = true) ∧
    (let s := trunk 7 { drop := some ⟨3, 500, 1000⟩ }
     portGoes (.elmDropAck 51 1 3) s 51 (fun _ x => x.drop.isNone) = true ∧ portGoes (.elmDrop 51 1 3) s 51 (fun _ x => x.drop.isNone) = true ∧
     goes (.elmDrop 51 1 2) s (fun t => !t.fbit F.ptStat_LINK 51) = true ∧ portGoes (.elmDropAck 51 1 2) s 51 (fun _ x => x.drop.isSome) = true ∧
     portGoes (.dropResend 51) s 51 (fun _ x => decide (x.drop = some ⟨3, 500, 6000⟩)) = true ∧
     portGoes (.dropResend 51) { s with tickNo := 5999 } 51 (fun _ x => decide (x.drop = some ⟨3, 500, 1000⟩)) = true ∧
     s64Of (s.fget F.ntPortRtt_RM 51) ≤ (50500 - 500 - 50000 : Nat) * 65536 ∧
     goes (.dropAckTimeout 51) { s with tickNo := 50500 } (fun t => !t.fbit F.ptStat_LINK 51 && t.fget F.ptStat_LAST_FAIL 51 == 5) = true ∧
     goes (.dropAckTimeout 51) { s with tickNo := 50499 } (fun t => t.fbit F.ptStat_LINK 51) = true) ∧
    (let r : PtRejoin := { lane := 3, stepAt := 0, eqMine := true, eqTheirs := true }
     let s := trunk 7 { rejoin := some r }
     portGoes (.elmVerify 51 1 3 true true) s 51 (fun _ x => decide (x.rejoin.map PtRejoin.verTheirs = some true)) = true ∧
     portGoes (.elmVerify 51 1 3 true false) s 51 (fun _ x => x.rejoin.isNone && x.retryAt == 1000006000) = true ∧
     portGoes (.verifyEnd 51 [1, 1, 1, 0]) { s with tickNo := 10000000 } 51 (fun _ x => decide (x.rejoin.map PtRejoin.verMine = some true)) = true ∧
     portGoes (.verifyEnd 51 [1, 1, 1, 1]) { s with tickNo := 10000000 } 51 (fun _ x => x.rejoin.isNone) = true ∧
     goes (.verifyEnd 51 [1, 1, 1, 0]) { s with tickNo := 9999999 } (fun t => decide (t = { s with tickNo := 9999999 })) = true ∧
     portGoes (.elmEq 51 ⟨1, 7⟩ 3 0 0 0 true true) (trunk 7 { rejoin := some { r with eqMine := false } }) 51
       (fun _ x => decide (x.rejoin = some { r with stepAt := 6000 })) = true ∧
     (trunk 7 { rejoin := some r }).fget F.ptStat_STATE 51 = 8 ∧
     portGoes (.elmAdd 51 1 ⟨3, true⟩) s 51 (fun _ x => x.rejoin.isSome) = true ∧
     portGoes (.trainStepTimeout 51) { s with tickNo := s.fget F.ptTrain_STEP_TMO 51 * 1000000 } 51 (fun _ x => x.rejoin.isNone) = true ∧
     goes (.elmAdd 51 1 ⟨3, false⟩) (trunk 7 { rejoin := some { r with verMine := true, verTheirs := true } })
       (fun t => t.fget F.ptStat_LANES 51 == 15 && t.fget F.ptStat_RATE 51 == 6 && t.dw.evq.length == 1) = true) := by decide +kernel

/-! ### The switch, Paddock and egress -/

/-- Ports 0, 5 and 51 up at 25 Gb/s, members of VLAN 1. -/
def net (s : State := base) : State :=
  ([0, 5, 51] : List Nat).foldl (fun t p => (t.fset F.ptStat_LINK 1 p).fset F.ptStat_RATE 3 p) (s.fset F.swVlan_MEMBER (1 + 32 + 2 ^ 51) 1)

/-- A MAC entry of VLAN 1. -/
def macAt (i mac port : Nat) (flags : Nat := 1) (s : State := net) : State := s.rset (key .swMac i) (macKey mac 1 + port * 2 ^ 64 + flags * 2 ^ 70)

/-- A tagged frame's head to 02-…-01 in VLAN 1; a port's switch part put; a filler of shared cells at port 51. -/
def fh (pcp : Nat) : FrameHead := ⟨0x020000000001, 0x020000000002, some (pcp, 1), none, false⟩
def swAt (p : Nat) (x : SwPort) (s : State := net) : State := s.setSwPort p x
def aFrame (p cls shared : Nat) (c : FrameCopy) : PFrame :=
  { id := 3, kind := .fwd, inPort := p, cls := cls, len := 100, guar := 0, shared := shared, head := 0, copies := [c], ts := ⟨0, 0, false⟩, complete := true }
def holding (f : PFrame) (s : State := net) : State := s.setSw { s.sw with frames := [f], nextId := 4 }
def filled (n : Nat) (s : State := net) : State := holding (aFrame 5 0 n { port := 51 }) s

/-- A port after a command: what arrives there, the frames held. -/
def rxGoes (i : Instr) (s : State) (p : Nat) (P : State → RxNow → List PFrame → Bool) : Bool :=
  goes i s fun t => match (t.getSwPort p).rx with
    | some r => P t r t.sw.frames
    | none => false

theorem witness_FramesAreFiltered :
    (goes (.frameRx 0 (fh 0) 100 edge) base (fun t => t == base) = true ∧
     (let s := net.fset F.glbBlkRst_SWPAD 1
      s.fbit F.glbBlkRst_SWPAD = true ∧ goes (.frameRx 0 (fh 0) 100 edge) s (fun t => t == s) = true)) ∧
    (let s := net
     s.fbit F.ptStat_LINK 0 = true ∧ s.glb.limited = false ∧ (s.getSwPort 0).rx = none ∧ s.sw.frames = [] ∧ s.sw.xoff.cells = [] ∧
     s.streamOf 1 1 = none ∧ s.lossless 0 6 = false ∧
     rxGoes (.frameRx 0 ⟨1, 2, none, none, true⟩ 100 edge) s 0 (fun _ r fs => r.id == none && r.cls == 6 && !r.dropped && fs.isEmpty) = true) ∧
    (let k := 0x020000000001 + 2 ^ 48 + 2 ^ 60
     let s (x : Nat) := net.rset (key .swStream 4) (k + x)
     (s 0).streamOf 0x020000000001 1 = some 4 ∧ (s 0).fbit F.swStream_BLOCKED 4 = false ∧
     (s (99 * 2 ^ 64 + 2 ^ 61)).fget F.swStream_MAXSDU 4 < 100 ∧
     rxGoes (.frameRx 0 (fh 0) 100 edge) (s (99 * 2 ^ 64 + 2 ^ 61)) 0 (fun t r _ => r.id == none && r.dropped && t.fbit F.swStream_BLOCKED 4 && t.fget F.swStream_DROP 4 == 1) = true ∧
     (s 0).fget F.swStream_MAXSDU 4 = 0 ∧ rxGoes (.frameRx 0 (fh 0) 100 edge) (s 0) 0 (fun t r _ => r.dropped && t.fget F.swStream_DROP 4 == 1) = true ∧
     rxGoes (.frameRx 0 (fh 0) 100 edge) (s (2 ^ 62 + 0xFFFFFFFF * 2 ^ 224)) 0 (fun t r _ => r.dropped && t.fget F.swStream_DROP 4 == 0xFFFFFFFF) = true ∧
     (s (200 * 2 ^ 64)).fget F.swStream_CIR 4 = 0 ∧ (s (200 * 2 ^ 64)).fget F.swStream_EIR 4 = 0 ∧
     rxGoes (.frameRx 0 (fh 0) 100 edge) (s (200 * 2 ^ 64)) 0 (fun t r _ => r.dropped && t.fget F.swStream_DROP 4 == 1) = true) ∧
    (let s := ((net.fset F.padClass_LL 1 3).fset F.swPortCfg_FC 1 0)
     s.lossless 0 3 = true ∧ s.fget F.padLlMtu_MTU < 2049 ∧
     rxGoes (.frameRx 0 (fh 3) 2049 edge) s 0 (fun t r fs => r.dropped && fs.isEmpty && t.rget (key .padCntLlOver) == 1) = true) := by decide +kernel

theorem witness_FramesAreAdmitted :
    (let s := macAt 9 0x020000000001 51
     s.macFind (macKey 0x020000000001 1) = some 9 ∧ s.fget F.swMac_PORT 9 = 51 ∧ bit (s.fget F.swVlan_MEMBER 1) 51 = true ∧ vidOf (fh 7) = 1 ∧ vidOf (fh 7) < 4095 ∧
     s.fbit F.ptStat_LINK 51 = true ∧ (s.getSwPort 51).rerouted = false ∧ s.streamOf 0x020000000001 1 = none ∧ s.lossless 0 7 = false ∧
     rxGoes (.frameRx 0 (fh 7) (48 * 256) edge) ((s.fset F.swPortCfg_CT_EN 1 0).fset F.tasFl_EN 1 51) 0 (fun t r fs =>
       r.id == some 0 && r.cls == 7 && r.cut && t.dw.evq.length == 1 && fs.map (fun f => (f.guar, f.shared, f.copies.map FrameCopy.port)) == [(48, 0, [51])]) = true ∧
     rxGoes (.frameRx 0 (fh 0) (48 * 256 + 1) edge) s 0 (fun _ r fs => r.id == some 0 && fs.map (fun f => (f.guar, f.shared)) == [(48, 1)]) = true ∧
     1 ≤ s.padFree ∧ s.belowT 0 (s.egressShared 51 0) false = true) ∧
    (let s := macAt 9 0x020000000001 51 1 (filled 200000)
     (∀ f ∈ s.sw.frames, f.live s.tickNo = true) ∧ s.lossless 0 0 = false ∧ s.belowT 0 (s.egressShared 51 0) false = false ∧
     rxGoes (.frameRx 0 (fh 0) (48 * 256 + 1) edge) s 0 (fun t r fs => r.dropped && fs.length == 1 && t.rget (key .padCntDrop 51) == 1) = true) ∧
    (let s (n : Nat) := (((macAt 9 0x020000000001 51 1 (filled n)).fset F.padClass_LL 1 3).fset F.swPortCfg_FC 1 0).fset F.padGmin_CELLS 0 0 3
     (s 0).lossless 0 3 = true ∧ 1 ≤ (s 0).padFree ∧
     rxGoes (.frameRx 0 (fh 3) 256 edge) (s 0) 0 (fun t r fs => r.id == some 4 && fs.map PFrame.shared == [0, 1] && !t.xoffOn 0 3) = true ∧
     rxGoes (.frameRx 0 (fh 3) 256 edge) ((s 0).fset F.padClass_ALPHA 0 3) 0 (fun t _ _ => !t.xoffOn 0 3) = true ∧
     rxGoes (.frameRx 0 (fh 3) 256 edge) (s 242223) 0 (fun t _ fs => fs.map PFrame.shared == [242223, 1] && t.xoffOn 0 3 && (t.getSwPort 0).fcQuanta == 65535) = true ∧
     (s 242224).padFree < 1 ∧ (s 242224).fget F.padHr_CELLS 0 3 - (s 242224).pairHead 0 3 < 1 ∧
     rxGoes (.frameRx 0 (fh 3) 256 edge) (s 242224) 0 (fun t r fs => r.dropped && fs.length == 1 && t.fbit F.padStat_HR_OVF && t.rget (key .padCntHrDrop) == 1) = true ∧
     (let r := (s 242223).fset F.padHr_CELLS 1 0 3
      r.padFree < 1 ∧ 1 ≤ r.fget F.padHr_CELLS 0 3 - r.pairHead 0 3 ∧
      rxGoes (.frameRx 0 (fh 3) 256 edge) r 0 (fun t _ fs => fs.map PFrame.head == [0, 1] && t.xoffOn 0 3) = true)) := by decide +kernel

theorem witness_FramesAreRouted :
    (let s := (macAt 9 0x020000000001 51).fset F.ptStat_LINK 0 51
     s.fbit F.ptStat_LINK 51 = false ∧ rxGoes (.frameRx 0 (fh 0) 100 edge) s 0 (fun t r fs => r.dropped && r.down && fs.isEmpty && t.rget (key .padCntDownDisc 51) == 1) = true) ∧
    (let s := swAt 51 { rerouted := true } ((macAt 9 0x020000000001 51).fset F.swFrr_ALT 5 51)
     s.fget F.swFrr_ALT 51 ≠ 51 ∧ s.fbit F.ptStat_LINK 5 = true ∧ (s.getSwPort 5).rerouted = false ∧
     rxGoes (.frameRx 0 (fh 0) 100 edge) s 0 (fun _ _ fs => fs.map (fun f => f.copies.map FrameCopy.port) == [[5]]) = true ∧
     (s.fset F.ptStat_LINK 0 5).fbit F.ptStat_LINK 5 = false ∧
     rxGoes (.frameRx 0 (fh 0) 100 edge) (s.fset F.ptStat_LINK 0 5) 0 (fun t r fs => r.down && fs.isEmpty && t.rget (key .padCntDownDisc 51) == 1) = true) ∧
    (net.macFind (macKey 0x020000000001 1) = none ∧ (∀ c ∈ net.sw.port.cells, c.2.rerouted = false) ∧
     rxGoes (.frameRx 0 (fh 0) 100 edge) net 0 (fun _ _ fs => fs.map (fun f => f.copies.map FrameCopy.port) == [[5, 51]]) = true) := by decide +kernel

/-- A frame that arrives at port 0. -/
def arriving (id : Option Nat) (sample : Bool) (src : Nat) (s : State := net) : State :=
  swAt 0 { (s.getSwPort 0) with rx := some ⟨{ fh 0 with src := src }, 0, 1, ⟨0, 0, false⟩, true, false, id, false, sample, id.isNone, false⟩ } s
def octets (n : Nat) : List Byte := List.replicate n 0x55

theorem witness_FrameEnds :
    goes (.frameRxEnd 0 (octets 64) true false) net (fun t => t == net) = true ∧
    64 ≤ (octets 64).length ∧ (octets 64).length ≤ net.fget F.swPortCfg_MTU 0 ∧
    (let s := macAt 9 0x020000000002 51 1 (arriving none false 0x020000000002)
     s.macFind (macKey 0x020000000002 1) = some 9 ∧ s.fget F.swMac_FLAGS 9 = 1 ∧
     goes (.frameRxEnd 0 (octets 64) true false) s (fun t => t.fget F.swMac_PORT 9 == 0 && t.sw.macTick.get 0 9 == 6000 && (t.getSwPort 0).rx == none) = true) ∧
    (let s := macAt 9 0x020000000002 51 3 (arriving none false 0x020000000002)
     s.macFind (macKey 0x020000000002 1) = some 9 ∧ s.fget F.swMac_FLAGS 9 = 3 ∧
     goes (.frameRxEnd 0 (octets 64) true false) s (fun t => t.fget F.swMac_PORT 9 == 51) = true) ∧
    (let s := arriving (some 3) false 0x010000000002 (holding { aFrame 0 0 0 { port := 5 } with complete := false })
     s.sw.frames.map PFrame.id = [3] ∧
     goes (.frameRxEnd 0 (octets 64) true false) s (fun t => t.sw.frames.map (fun f => (f.complete, f.data.length)) == [(true, 64)]) = true ∧
     goes (.frameRxEnd 0 (octets 64) false false) s (fun t => t.sw.frames.isEmpty && t.rget (key .swCntRxBad) == 1) = true) ∧
    (let s := arriving (some 3) false 0x010000000002 (holding { aFrame 0 0 0 { port := 5, start := some 5990, stop := 6001 } with complete := false })
     goes (.frameRxEnd 0 (octets 64) true true) s (fun t => t.sw.frames.length == 1 && t.rget (key .swCntRxBad) == 1 && t.rget (key .tasCntTxBad 5) == 1) = true) ∧
    (let s := arriving none true 0x010000000002
     s.dramUnavail = false ∧ (s.fset F.swSample_TRUNC 1 0).fget F.swSample_TRUNC 0 = 1 ∧
     goes (.frameRxEnd 0 (octets 70) true false) (s.fset F.swSample_TRUNC 1 0) (fun t => decide (t.sw.samples = [(0, 96)]) && t.sw.sampleAt == 96 && decide (memReadBytes dramUnl t.dram (0x1C0000000 + 32) 64 = octets 64)) = true ∧
     goes (.frameRxEnd 0 (octets 70) true false) (let r := s.fset F.swSample_TRUNC 1 0; r.setSw { r.sw with samples := [(96, 536870816)], sampleAt := 0 })
       (fun t => t.sw.samples.length == 2 && t.sw.sampleAt == 96) = true ∧
     goes (.frameRxEnd 0 (octets 70) true false) (let r := s.fset F.swSample_TRUNC 1 0; r.setSw { r.sw with samples := [(96, 536870817)], sampleAt := 0 })
       (fun t => t.sw.samples.length == 1 && t.rget (key .swCntSampleLost) == 1) = true ∧
     (let r := { s with host := { s.host with flrTick := some 6000 } }
      r.flrOn = true ∧ goes (.frameRxEnd 0 (octets 70) true false) r (fun t => t.sw.samples.isEmpty && t.rget (key .swCntSampleLost) == 1) = true) ∧
     goes (.frameRxEnd 0 (octets 70) true false) { s with glb := { s.glb with dramReady := false } } (fun t => t.sw.samples.isEmpty && t.rget (key .swCntSampleLost) == 1) = true) := by decide +kernel

/-- The four ways of a bucket written. -/
def fourWays (s : State) (b v : Nat) : State :=
  (((s.rset (key .swMac (4 * b)) v).rset (key .swMac (4 * b + 1)) v).rset (key .swMac (4 * b + 2)) v).rset (key .swMac (4 * b + 3)) v

theorem fourWays_rget (s : State) (b v w : Nat) (h : w < 4) : (fourWays s b v).rget ⟨.swMac, 4 * b + w, 0, 0⟩ = v := by
  have : w = 0 ∨ w = 1 ∨ w = 2 ∨ w = 3 := by omega
  rcases this with rfl | rfl | rfl | rfl <;> simp [fourWays, key, State.rget_rset]

theorem fourWays_sw (s : State) (b v : Nat) : (fourWays s b v).sw = s.sw := rfl

/-- Wherever the hash of an address points, a free way there takes it, and a bucket with no free way counts. -/
theorem witness_Learning :
    (let s := arriving none false 0x020000000002
     s.macFind (macKey 0x020000000002 1) = none ∧
     ∀ i, (s.sw.macTick.get 0 i = 0 ∧ ((s.rset (key .swMac i) (2 ^ 70)).fget F.swMac_FLAGS i % 2 = 1))) ∧
    ∀ b : Nat, ∃ s : State, (s.getSwPort 0).rx = ((arriving none false 0x020000000002).getSwPort 0).rx ∧ s.sw = (arriving none false 0x020000000002).sw ∧
      ∀ w, w < 4 → s.fget F.swMac_FLAGS (4 * b + w) % 2 = 1 := by
  refine ⟨⟨by decide +kernel, fun i => ⟨rfl, ?_⟩⟩, fun b => ?_⟩
  · simp only [State.fget, key, F.swMac_FLAGS, State.rget_rset_same]; decide +kernel
  · have e := fourWays_sw (arriving none false 0x020000000002) b (2 ^ 70)
    refine ⟨fourWays (arriving none false 0x020000000002) b (2 ^ 70), by rw [State.getSwPort, e, State.getSwPort], e, fun w hw => ?_⟩
    rw [State.fget, F.swMac_FLAGS, fourWays_rget _ _ _ _ hw]
    decide +kernel

theorem witness_PortsGoDownAndUp :
    (goes (.pfcRx 5 false 3 [10, 0]) net (fun t => t.sw.pause.get 0 40 == 6000 + 205 && t.sw.pause.get 0 41 == 0 && t.paused 5 0) = true ∧
     goes (.pfcRx 5 true 0 [10]) (net.fset F.swPortCfg_PAUSE_MASK 128 5) (fun t => t.paused 5 7 && !t.paused 5 0) = true) ∧
    (let s := net.setSw { net.sw with pause := net.sw.pause.put id 0 40 6001 }
     s.paused 5 0 = true ∧ net.paused 5 0 = false ∧ goes (.pauseExpire 5 0) { s with tickNo := 6001 } (fun t => t.sw.pause.get 0 40 == 0) = true) ∧
    (let s := macAt 9 1 51
     s.fget F.swMac_FLAGS 9 = 1 ∧ goes (.macAgeExpire 9) { s with tickNo := 300000000000 } (fun t => t.fget F.swMac_FLAGS 9 == 0) = true ∧
     ¬ s.sw.macTick.get 0 9 + s.fget F.swAge_SEC * 1000000000 ≤ s.tickNo ∧ (macAt 9 1 51 3).fget F.swMac_FLAGS 9 ≠ 1) ∧
    (let s (c : FrameCopy) := (holding (aFrame 5 0 1 c)).setPt 0 { pendDown := true }
     ((s { port := 0 }).getPt 0).pendDown = true ∧ (net.getPt 0).pendDown = false ∧
     goes (.portDown 0) (s { port := 0, start := some 5990, stop := 6001 }) (fun t => t.sw.frames.isEmpty && (t.getSwPort 0).holdUntil.isSome) = true ∧
     (s { port := 0 }).fbit F.swFrr_EN 0 = false ∧ (s { port := 0 }).fget F.padHold_US 0 ≠ 0 ∧
     goes (.portDown 0) (s { port := 0 }) (fun t => t.sw.frames.length == 1 && (t.getSwPort 0).holdUntil == some 2006000 && !(t.getPt 0).pendDown) = true ∧
     goes (.portDown 0) ((s { port := 0 }).fset F.padHold_US 0 0) (fun t => t.sw.frames.isEmpty && t.rget (key .padCntFlush) == 1 && !(t.getSwPort 0).rerouted) = true ∧
     goes (.portDown 0) (((s { port := 0 }).fset F.swFrr_EN 1 0).fset F.swFrr_ALT 51 0) (fun t => t.sw.frames.isEmpty && (t.getSwPort 0).rerouted) = true) ∧
    (let s := swAt 0 { holdUntil := some 6000 } (holding (aFrame 5 0 1 { port := 0 }))
     goes (.padHoldExpire 0) s (fun t => t.sw.frames.isEmpty && t.rget (key .padCntFlush) == 1) = true ∧
     goes (.padHoldExpire 0) { s with tickNo := 5999 } (fun t => t.sw.frames.length == 1) = true) ∧
    (let s (i : Nat) := (swAt 0 { holdUntil := some 9000 } (holding (aFrame 5 0 1 { port := 0, inst := some i }))).setPt 0 { pendUp := true }
     (∀ f ∈ (s 0).sw.frames, f.live 6000 = true) ∧ 1 < (s 0).nowI ∧
     goes (.portUp 0) (s 1) (fun t => t.sw.frames.isEmpty && t.rget (key .padCntFlush) == 1 && (t.getSwPort 0).upTick == 6000 && !(t.getPt 0).pendUp) = true ∧
     goes (.portUp 0) (s (5004 * lsbPerNs)) (fun t => t.sw.frames.length == 1 && (t.getSwPort 0).holdUntil == none) = true ∧ (net.getPt 0).pendUp = false ∧
     (let r := (((s 1).fset F.swPortCfg_FC 1 0).fset F.padClass_LL 1 3).fset F.ptStat_RATE 6 0
      r.fbit F.padCtl_HR_AUTO = true ∧ r.glb.fwRun = true ∧ r.glb.limited = false ∧
      r.fget F.swPortCfg_FC 0 ≠ 0 ∧ r.fbit F.padClass_LL 3 = true ∧ r.fget F.ptStat_RATE 0 = 6 ∧
      goes (.portUp 0) r (fun t => t.fget F.padHr_CELLS 0 3 == min 65535 (hrCells 100 (r.hrRtt 0) (r.fget F.padHrTd_TD)) || t.fbit F.padStat_HR_SHORT) = true) ∧
     goes (.portUp 0) (((s 1).fset F.tasPreempt_EN 1 0).fset F.tasPreempt_VERIFY_DIS 1 0) (fun t => t.fbit F.tasPreempt_ACTIVE 0) = true) ∧
    (let s := swAt 0 { rerouted := true, upTick := 5 } ((net.fset F.swFrr_REVERT_EN 1 0).fset F.swFrr_REVERT 2 0)
     goes (.frrRevert 0) { s with tickNo := 2000005 } (fun t => !(t.getSwPort 0).rerouted) = true ∧ goes (.frrRevert 0) s (fun t => t == s) = true) ∧
    (goes (.preemptVerifyDone 5) (net.fset F.tasPreempt_EN 1 5) (fun t => t.fbit F.tasPreempt_ACTIVE 5) = true ∧
     goes (.preemptVerifyDone 51) (net.fset F.tasPreempt_EN 1 51) (fun t => !t.fbit F.tasPreempt_ACTIVE 51) = true) := by decide +kernel

/-- A frame of class 3 that waits at port 0. -/
def queued (c : FrameCopy) (cls : Nat := 3) : State := holding (aFrame 5 cls 1 c)
def started (i : Instr) (s : State) : Bool := goes i s fun t => t.sw.frames.all fun f => f.copies.all fun c => c.start == some s.tickNo

theorem witness_GatesAndEgress :
    (goes (.gclEntry 0) (swAt 0 { oper := [(3, 500), (4, 500)], cycle := 1000 }) (fun t => (t.getSwPort 0).gates == 3) = true) ∧
    (net.writable .pcie .tasGclCtl = true ∧ unpackT96 (net.fget F.tasBase_T 0) = some 0 ∧ bits (0x80000101 : BitVec 32).toNat 8 0 = 257 ∧
     (let s (cyc base_ : Nat) := (net.fset F.tasCycle_NS cyc 0).fset F.tasBase_T base_ 0
      goes (.gclChange .pcie 0 0x80000002) (s 999 0) (fun t => t.fget F.tasGclCtl_RES 0 == 1) = true ∧
      goes (.gclChange .pcie 0 0x80000002) (s 1000 1) (fun t => t.fget F.tasGclCtl_RES 0 == 2) = true ∧ unpackT96 1 = some 1 ∧ 1 % lsbPerNs ≠ 0 ∧
      goes (.gclChange .pcie 0 0x80000002) (s 1000000000 0) (fun t => t.fget F.tasGclCtl_RES 0 == 0 && t.fbit F.tasGclCtl_PENDING 0 &&
        ((t.getSwPort 0).pend.map fun g => (g.list, g.at_)) == some ([(0xFF, 0), (0xFF, 0)], 1000000000)) = true)) ∧
    (let s := swAt 0 { pend := some ⟨[(1, 1000)], 1000, 0, 5004⟩ }
     goes (.gclChangeEffect 0) s (fun t => (t.getSwPort 0).gates == 1 && (t.getSwPort 0).pend == none) = true ∧
     goes (.gclChangeEffect 0) (swAt 0 { pend := some ⟨[(1, 1000)], 1000, 0, 5005⟩ }) (fun t => (t.getSwPort 0).pend.isSome) = true) ∧
    (let s := queued { port := 0 }
     (aFrame 5 3 1 { port := 0 }).live 6000 = true ∧ s.paused 0 3 = false ∧ s.gateFits 0 3 100 = true ∧ started (.frameTxStart 0 edge) s = true ∧
     started (.frameTxStart 0 edge) (queued { port := 0 } 7) = true ∧
     (s.fset F.tasGateDflt_GATES 0 0).gateFits 0 3 100 = false ∧ (swAt 0 { expUntil := 6001 } s).canStart 0 false = false ∧
     started (.frameTxStart 0 edge) (swAt 0 { expUntil := 6001 } s) = false) ∧
    (let i := 5004 * lsbPerNs
     let f (k : FrameKind) : PFrame := { aFrame 5 7 1 { port := 0, inst := some i } with kind := k }
     i ≤ (holding (f .launch)).nowI ∧ started (.launchRelease 0 edge) (holding (f .launch)) = true ∧
     (holding (f .fwd)).gateFits 0 7 100 = true ∧ started (.fixedLatencyRelease 0 edge) (holding (f .fwd)) = true ∧
     started (.fixedLatencyRelease 0 edge) (queued { port := 0, inst := some (i + 1) } 7) = false ∧
     (let tagged (came : Option (Nat × Nat)) : State := holding { aFrame 5 3 1 { port := 0 } with tags := some (came, 3, 1) }
      (tagged none).fget F.swVlan_UNTAG 1 = 0 ∧
      goes (.frameTxStart 0 edge) (tagged none) (fun t => (t.getSwPort 0).preUntil == 6000 + t.bytesNs 0 124) = true ∧
      goes (.frameTxStart 0 edge) ((tagged (some (3, 1))).fset F.swVlan_UNTAG 1 1) (fun t => (t.getSwPort 0).preUntil == 6000 + t.bytesNs 0 116) = true) ∧
     goes (.fixedLatencyRelease 0 edge) (swAt 0 { expUntil := 6001 } (holding (f .fwd))) (fun t => t.rget (key .tasCntLate) == 1 && (t.sw.frames.all fun f => f.copies.all FrameCopy.late)) = true ∧
     goes (.launchRelease 0 edge) (swAt 0 { expUntil := 6001 } ((holding (f .launch)).fset F.tasLatePol_DROP 1 0)) (fun t => t.sw.frames.all fun f => f.copies.isEmpty) = true ∧
     (let g : PFrame := { f .launch with id := 4 }
      let s := net.setSw { net.sw with frames := [f .fwd, g] }
      goes (.launchRelease 0 edge) s (fun t => t.sw.frames.map (fun f => f.copies.map FrameCopy.start) == [[none], [some 6000]]) = true) ∧
     (let g : PFrame := { aFrame 5 4 1 { port := 0 } with id := 4 }
      let s := net.setSw { net.sw with frames := [aFrame 5 3 1 { port := 0 }, g] }
      s.gateFits 0 4 100 = true ∧
      goes (.frameTxStart 0 edge) s (fun t => t.sw.frames.map (fun f => f.copies.map FrameCopy.start) == [[none], [some 6000]]) = true)) := by decide +kernel

/-- A launch frame due at port 0 at an instant. -/
def launching (i : Instant) : State := holding { aFrame 5 3 1 { port := 0, inst := some i } with kind := .launch }

theorem witness_BoundaryGone :
    started (.launchRelease 0 edge) (launching (5004 * lsbPerNs)) = true ∧
    goes (.launchRelease 0 edge) (launching (4000 * lsbPerNs))
      (fun t => t.rget (key .tasCntLate) == 1 && (t.sw.frames.all fun f => f.copies.all fun c => c.late && c.start == some 6000)) = true ∧
    goes (.launchRelease 0 edge) ((launching (4000 * lsbPerNs)).fset F.tasLatePol_DROP 1 0)
      (fun t => t.rget (key .tasCntLate) == 1 && t.sw.frames.all fun f => f.copies.isEmpty) = true := by decide +kernel

theorem witness_TemplatesAndXoff :
    (let w (len addr : Nat) : BitVec 128 := BitVec.ofNat 128 (addr + len * 2 ^ 64 + 7 * 2 ^ 80)
     net.writable .pcie .tasLqTpl = true ∧ net.dramUnavail = false ∧
     bits (w 256 0x180000000).toNat 34 0 = 0x180000000 ∧ bits (w 256 0x180000000).toNat 77 64 = 256 ∧
     goes (.lqTplCommit .pcie 0 (w 256 0x180000000)) net (fun t => ((t.getSwPort 0).tpl.map fun x => (x.cells, x.cls, x.data.length)) == some (2, 7, 256) && t.fget F.tasLqTpl_RES 0 == 0) = true ∧
     cellsOf 260 = 2 ∧ (filled 242175).padFree < 2 ∧ goes (.lqTplCommit .pcie 0 (w 256 0x180000000)) (filled 242175) (fun t => t.fget F.tasLqTpl_RES 0 == 3) = true ∧
     goes (.lqTplCommit .pcie 0 (w 256 0x180000000)) (net.fset F.glbBlkRst_SWPAD 1) (fun t => t.fget F.tasLqTpl_RES 0 == 3) = true ∧
     goes (.lqTplCommit .pcie 0 (w 256 0x1BFFFFF08)) net (fun t => t.fget F.tasLqTpl_RES 0 == 4) = true) ∧
    (let s := (holding (aFrame 0 3 242176 { port := 51 }) ((net.fset F.padClass_LL 1 3).fset F.swPortCfg_FC 1 0))
     let t := s.setSw { s.sw with xoff := s.sw.xoff.put id none 3 (some 0) }
     let due : State := { t with tickNo := 335545 }
     due.swTick = due ∧ t.swTick = t ∧ due.sw.xoff.get none (8 * 0 + 3) = some 0 ∧ 0 + due.bytesNs 0 (64 * 16384) ≤ due.tickNo ∧
     goes (.xoffRepeat 0 3) due (fun u => u.sw.xoff.get none 3 == some 335545 && (u.getSwPort 0).fcMask == 8) = true ∧
     goes (.xoffRepeat 0 3) t (fun u => u == t) = true) ∧
    (let e : Stamp := ⟨5600 * lsbPerNs, 0⟩
     let tp : LqTpl := ⟨octets 100, 7, 0, 1⟩
     let s := groupAt (Con.lqTrig 0) [e] 0 net
     findGroup (Con.lqTrig 0) 0 s.tickNo s.dw.inbox = some ⟨Con.lqTrig 0, [e], 6000⟩ ∧ (net.getSwPort 0).tpl = none ∧
     (swAt 0 { tpl := some tp } s).fbit F.glbBlkRst_TAS = false ∧ s.nowI + 500 * lsbPerNs ≤ (addSpan e.ts (tp.offset * 65536)).1 ∧
     goes (.lqTrig 0) (swAt 0 { tpl := some tp } s) (fun t => t.sw.frames.map (fun f => (f.cls, f.len, f.guar, f.kind)) == [(7, 104, 1, FrameKind.launch)] && t.dw.inbox.isEmpty) = true ∧
     goes (.lqTrig 0) ((swAt 0 { tpl := some tp } s).fset F.glbBlkRst_TAS 1) (fun t => t.sw.frames.isEmpty && t.rget (key .dwCntDrop) == 1) = true ∧
     goes (.lqTrig 0) (swAt 0 { tpl := some { tp with offset := -97 } } s) (fun t => t.sw.frames.isEmpty) = true) := by decide +kernel

/-! ### Faults, monitors and the black box -/

def withFlt (x : FltSt) (s : State := base) : State := s.setFlt x
def withBbr (x : BbrSt) (s : State := base) : State := s.setBbr x
def on1 (i : Nat) : SMap Nat Bool := ({} : SMap Nat Bool).put id false i true
/-- A fault of a class; a record. -/
def fault (cls : Nat) (detected : Bool := true) (flock : Option Nat := none) : FaultRep := ⟨detected, cls, 0x3800, 0x2001, 7, 8, none, false, flock, 0⟩
def record (seq : Nat) : BbrRec := ⟨5, 0x3800, 0x2001, 7, 8, seq, 0⟩

theorem witness_FaultsAreReported :
    (let s := withFlt { reports := [fault 3 true (some 5)] }
     (fault 3).cls ≤ 10 ∧ s.bbrLast 0x3800 0x2001 = none ∧ s.bbr.queue.length < 63 ∧ s.reactsOn 3 = true ∧ (fault 3).upstream = false ∧
     s.fbit F.bbrCtl_TRIG_EN = true ∧ s.bbr.frozen = false ∧ s.bbr.triggered = false ∧ bit (s.fget F.fltFreeze_CLASS) 3 = true ∧
     goes (.faultDetected none) s (fun t => t.flt.reports.isEmpty && t.flt.reacts == [some 5] && t.flt.pinLow && t.bbr.triggered && t.bbr.queue.length == 2 &&
       t.fget F.fltStat_DET == 8 && t.rget (key .fltCntDet) == 1) = true) ∧
    (let s := withFlt { reports := [fault 3 false] }
     s.reactsOn 10 = false ∧ s.reactsOn 7 = false ∧
     goes (.faultMasked none) s (fun t => t.fget F.fltStat_MASKED == 8 && t.flt.pinLow == s.fbit F.fltCtl_MASK_PIN && t.bbr.queue.length == 1 && t.flt.reacts.isEmpty) = true ∧
     goes (.faultDetected none) s (fun t => t == s) = true ∧
     goes (.faultDetected (some (fault 10))) (base.fset F.fltFreeze_CLASS 0) (fun t => t.fget F.fltStat_DET == 1024 && t.flt.reacts.isEmpty && !t.bbr.triggered && t.bbr.queue.length == 1) = true) ∧
    (base.writable .fw .fltWdogKick = true ∧ base.writable .pcie .fltWdogKick = true ∧ (0x5A : BitVec 8).toNat = 0x5A ∧ (0xA5 : BitVec 8).toNat ≠ 0x5A ∧
     goes (.wdogKick .fw 0x5A) { base with glb := { base.glb with aonCycle := 9 } } (fun t => t.flt.kickCycle == 9) = true ∧
     goes (.wdogKick .pcie 0x5A) base (fun t => t.fbit F.fltStat_WR_ERR && t.flt == base.flt) = true) ∧
    (let s : State := { base with glb := { base.glb with aonCycle := 10000000 } }
     s.fbit F.fltCtl_WDOG_EN = true ∧ s.glb.fwRun = true ∧ s.flt.kickCycle + s.fget F.fltCtl_WDOG_MS * 100000 ≤ s.glb.aonCycle ∧
     goes .wdogExpire s (fun t => t.flt.kickCycle == 10000000 && t.flt.reports.map FaultRep.code == [0x2A01]) = true ∧
     goes .wdogExpire base (fun t => t == base) = true) ∧
    (base.fbit F.fltCtl_SCAN_EN = true ∧ goes (.cfgScanGroup 0 12 true) base (fun t => t.flt.reports.map FaultRep.source == [0x6000]) = true ∧ goes (.cfgScanGroup 65535 4 false) base (fun t => t == base) = true ∧
     goes (.cfgScanGroup 65535 4 true) base (fun t => t.fget F.fltScanStat_GROUP == 65535 && t.flt.reports.map FaultRep.source == [0x2000]) = true ∧
     (base.fset F.fltCtl_SCAN_EN 0).fbit F.fltCtl_SCAN_EN = false) ∧
    (goes (.memScrub (.drover 15) 77 1) base (fun t => t.fbit F.drvStat_ECC_CORR 15 && t.flt.reports.map FaultRep.code == [0x1001]) = true ∧
     goes (.memScrub (.drover 0) 77 2) base (fun t => t.fbit F.drvStat_ECC_UNC 0 && t.flt.reports.map FaultRep.code == [0x2001]) = true ∧
     goes (.memScrub .dram 77 2) base (fun t => t.dramUnavail && t.flt.reports.map FaultRep.source == [0x8800]) = true ∧
     (let s := holding (aFrame 5 0 1 { port := 0 })
      s.sw.frames.map PFrame.id = [3] ∧ goes (.memScrub (.paddock 3) 77 2) s (fun t => t.sw.frames.all (fun f => f.copies.isEmpty) && t.rget (key .swCntRxBad 5) == 1) = true)) := by decide +kernel

theorem witness_FaultsAreReleased :
    (let at_ (n : Nat) (x : FltSt) : State := { withFlt x with glb := { base.glb with aonCycle := n } }
     let x : FltSt := { first := some (record 0), firstCycle := 5, pinLow := true, lastDet := some (5, record 0) }
     base.writable .pcie .fltClr = true ∧
     goes (.faultRelease .pcie) (at_ 100005 x) (fun t => t.flt.first == none && !t.flt.pinLow) = true ∧
     goes (.faultRelease .pcie) (at_ 100004 x) (fun t => t.flt.pinLow && t.flt.releaseAt == some 100005) = true ∧
     goes (.faultRelease .pcie) (at_ 100005 { x with lastDet := some (100005, record 1) }) (fun t => t.flt.pinLow && t.flt.first == some (record 1)) = true ∧
     goes .faultPinRelease (at_ 100005 { x with releaseAt := some 100005 }) (fun t => !t.flt.pinLow) = true ∧
     goes .faultPinRelease (at_ 100004 { x with releaseAt := some 100005 }) (fun t => t.flt.pinLow) = true) := by decide +kernel

def temps (v : BitVec 16) : List (BitVec 16) := List.replicate 12 v

theorem witness_MonitorsFind :
    (base.glb.vaux = true ∧ base.glb.thermal = false ∧ base.flt.shutDue = false ∧
     goes (.monTempSample (temps 0x6901)) (withFlt { hotPrev := on1 11 }) (fun t => t.flt.reports.map (fun f => (f.code, f.arg0)) == [(0x2801, 11)] && t.rget (key .monTemp 11) == 0x6901) = true ∧
     goes (.monTempSample (temps 0xFF00)) (withFlt { hot := on1 0 }) (fun t => !t.flt.hot.get false 0 && t.flt.reports.isEmpty) = true ∧
     goes (.monTempSample (temps 0x6900)) (withFlt { hotPrev := on1 11 }) (fun t => t.flt.reports.isEmpty) = true) ∧
    (goes (.monTempSample (temps 0x7D00)) (withFlt { shutPrev := on1 5, hot := on1 5, hotPrev := on1 5 }) (fun t =>
       t.flt.shutDue && t.flt.reports.map FaultRep.code == [0x2802] && !t.glb.thermal) = true) ∧
    (let s := withFlt { shutDue := true }
     s.awaitsRecord 0x2802 = false ∧ s.rstHeld = false ∧
     goes (.monTempSample (temps 0x7CFF)) s (fun t => t.glb.thermal && !t.time.run && bit (t.rget ⟨.glbRstCause, 0, 0, 0⟩) 5) = true) ∧
    (let s : State := { base with glb := { base.glb with thermal := true } }
     goes (.monTempSample (temps 0x72FF)) s (fun t => !t.glb.thermal) = true ∧ goes (.monTempSample (temps 0x7300)) s (fun t => t.glb.thermal) = true) ∧
    (let mvs (r v : Nat) : List (BitVec 12) := (List.range 11).map fun i => BitVec.ofNat 12 (if i = r then v else railNominal i)
     (∀ r, r < 10 → ¬ ((mvs 11 0).getD r 0).toNat * 10 < railNominal r * 9) ∧
     goes (.monSupplySample (mvs 11 0)) base (fun t => t.flt.reports.isEmpty && t.rget (key .monSup 10) == 750) = true ∧
     goes (.monSupplySample (mvs 10 600)) (withFlt { supPrev := on1 10 }) (fun t => t.flt.reports.map (fun f => (f.code, f.arg0)) == [(0x2901, 10)] && !t.glb.por) = true ∧
     (let s := withFlt { supPrev := on1 9, sup := on1 9 }
      1619 * 10 < railNominal 9 * 9 ∧ 1619 < s.fget F.monSupWin_LO 9 ∧ s.awaitsRecord 0x2901 = false ∧ s.glb.por = false ∧
      (∀ i, i < 11 → i ≠ 9 → ¬ (((mvs 9 1619).getD i 0).toNat < s.fget F.monSupWin_LO i ∨ s.fget F.monSupWin_HI i < ((mvs 9 1619).getD i 0).toNat)) ∧
      goes (.monSupplySample (mvs 9 1619)) s (fun t => t.glb.por && bit t.glb.rails 9) = true)) := by decide +kernel

/-- The windows of the 1.1 V rail: each field within its own range is taken, and one outside it is left and marked. -/
theorem witness_SupplyWindows :
    let w (x : BitVec 32) (a b : Nat) (err : Bool) : Bool := goes (.registerWrite .pcie 0x20144 x 15 false) base (fun t =>
      t.fget F.monSupWin_LO 8 == a && t.fget F.monSupWin_HI 8 == b && t.fbit F.fltStat_WR_ERR == err)
    regAt (0x20144 / 4 * 4) = some (⟨.monSupWin, 8, 0, 0⟩, 0) ∧ blkOf 0x20144 = some .mon ∧ base.writable .pcie .monSupWin = true ∧
    w (BitVec.ofNat 32 (1210 * 65536 + 990)) 990 1210 false = true ∧ w (BitVec.ofNat 32 (1210 * 65536 + 989)) 1045 1210 true = true ∧
    w (BitVec.ofNat 32 (1211 * 65536 + 990)) 990 1155 true = true ∧ w (BitVec.ofNat 32 (1045 * 65536 + 989)) 1045 1155 true = true := by decide +kernel

def offer1 : BbrOffer := ⟨0x3800, 0x2001, 7, 8, none, false, 0⟩

theorem witness_TheBlackBoxRecords :
    (let s := withBbr { offers := [offer1] }
     s.bbrRepeat 0x3800 0x2001 = false ∧ s.bbrLast 0x3800 0x2001 = none ∧
     goes .bbrRecordOffer s (fun t => t.bbr.queue.map BbrRec.seq == [0] && t.bbr.seq == 1) = true ∧
     goes .bbrRecordOffer (withBbr { offers := [offer1], queue := List.replicate 64 (record 0) }) (fun t => t.bbr.gap && t.bbr.queue.length == 64 && t.rget (key .bbrCntLost) == 1) = true ∧
     (let s := withBbr { offers := [offer1], last := [⟨0x3800, 0x2001, 0, 255⟩] }
      s.bbrRepeat 0x3800 0x2001 = true ∧ goes .bbrRecordOffer s (fun t => t.bbr.queue.isEmpty && t.bbr.last.map BbrLast.repeats == [255] && t.rget (key .fltCntRepeat) == 1) = true)) ∧
    (let s := withBbr { queue := [record 3, record 4] }
     bit (record 3).flags 2 = false ∧ s.fbit F.bbrCtl_SPILL_EN = true ∧ s.dramUnavail = false ∧
     goes .bbrRecordEnter s (fun t => t.bbr.wptr == 1 && t.bbr.queue.length == 1 && memReadLE dramUnl t.dram 0x1E000000C 4 == 0x20013800 && t.bbr.enteredCycle == some 0) = true ∧
     goes .bbrRecordEnter (withBbr { queue := [record 3], enteredCycle := some 0 }) (fun t => t.bbr.queue.length == 1) = true ∧
     goes .bbrRecordEnter { s with glb := { s.glb with dramReady := false } } (fun t => t.rget (key .bbrCntSpillLost) == 1) = true ∧
     goes .bbrRecordEnter (s.fset F.bbrCtl_SPILL_EN 0) (fun t => t.dram == s.dram) = true) ∧
    (let s (after : Nat) := (withBbr { queue := [record 6], triggered := true, trigSeq := 4, after := after }).fset F.bbrPost_N 2
     (record 6).seq = (s 1).bbr.trigSeq + 1 + 1 ∧ goes .bbrRecordEnter (s 1) (fun t => t.bbr.frozen) = true ∧
     goes .bbrRecordEnter ((s 1).fset F.bbrPost_N 3) (fun t => !t.bbr.frozen) = true) ∧
    (let s := withBbr { queue := [record 6], frozen := true }
     goes .bbrRecordEnter s (fun t => t.bbr.wptr == 0 && t.rget (key .bbrCntLost) == 1 && t.bbr.spill == 1) = true ∧
     goes .bbrRecordEnter (s.fset F.bbrCtl_SPILL_FOLLOW 1) (fun t => t.bbr.spill == 0) = true) ∧
    (base.writable .jtag .bbrCtl = true ∧ base.bbrLast (0x12 * 2048) 0x0003 = none ∧ bit (1 : BitVec 32).toNat 0 = true ∧ bit (1 : BitVec 32).toNat 5 = false ∧
     goes (.bbrFire .jtag 1) base (fun t => t.bbr.triggered && t.bbr.queue.map BbrRec.arg0 == [1]) = true ∧
     goes (.bbrRearm .jtag 0) (withBbr { frozen := true, triggered := true, after := 9 }) (fun t => !t.bbr.frozen && t.bbr.after == 0) = true ∧
     16383 < (base.fset F.bbrPost_N 0x1001).fget F.bbrPre_N + (base.fset F.bbrPost_N 0x1001).fget F.bbrPost_N ∧
     goes (.bbrRearm .jtag 0) ((withBbr { frozen := true }).fset F.bbrPost_N 0x1001) (fun t => t.bbr.frozen && t.fbit F.bbrStat_WR_ERR) = true) ∧
    (let s := groupAt Con.bbrTrig [⟨77, 0⟩] 0
     (findGroup Con.bbrTrig 0 s.tickNo s.dw.inbox).map Group.evs = some [⟨77, 0⟩] ∧
     goes .bbrTrig s (fun t => t.bbr.triggered && t.bbr.queue.map (fun r => (r.time, r.arg0)) == [(77, 0)]) = true ∧
     goes .bbrTrig (s.setBbr { frozen := true }) (fun t => t.bbr.frozen && t.dw.inbox.isEmpty) = true) := by decide +kernel

/-! ### The host interface -/

/-- Ring i of 16 descriptors at 0x1000 in host memory, one of them the device's: host address, DRAM address, length, the word at 20, flags. -/
def ringAt (i kind : Nat) (host dram len ret : Nat) (flags : Nat := 2 ^ 31) (s : State := base) : State :=
  let w (m : Memory) (a v n : Nat) : Memory := memWriteLE hostUnl m a v n
  { ((((s.fset F.dmaRingCfg_EN 1 i).fset F.dmaRingCfg_KIND kind i).fset F.dmaRingBase_ADDR 0x1000 i).fset F.dmaRingSize_LOG 4 i).fset F.dmaRingTail_IDX 1 i with
    hostMem := w (w (w (w (w s.hostMem 0x1000 host 8) 0x1008 dram 8) 0x1010 len 4) 0x1014 ret 4) 0x1018 flags 4 }
/-- The returned length, the status and HEAD after a descriptor. -/
def doneAs (i : Nat) (status len : Nat) (t : State) : Bool :=
  memReadLE hostUnl t.hostMem 0x1018 2 == status && memReadLE hostUnl t.hostMem 0x1014 4 == len && t.fget F.dmaRingHead_IDX i == 1 &&
  !bit (memReadLE hostUnl t.hostMem 0x1018 4) 31
def noDram (s : State) : State := { s with glb := { s.glb with dramReady := false } }

theorem witness_RingsStallAndEnd :
    (let s := ringAt 15 0 0x2000 0x100 8 0 0
     Memory.wf hostUnl s.hostMem = true ∧ Memory.wf dramUnl s.dram = true ∧ s.fget F.dmaRingSize_LOG 15 ≤ 16 ∧
     s.glb.barReady = true ∧ s.rstHeld = false ∧ s.fbit F.dmaRingCfg_EN 15 = true ∧ (s.fget F.dmaRingTail_IDX 15 + 16 - s.fget F.dmaRingHead_IDX 15) % 16 ≠ 0 ∧
     (s.getRing 15).stopped = false ∧ s.fbit F.dmaRingCfg_TRIG 15 = false ∧ bit (memReadLE hostUnl s.hostMem 0x1018 4) 31 = false ∧
     goes (.dmaH2d 15 none) s (fun t => t.fbit F.dmaRingStat_STALL 15 && (t.getRing 15).stopped) = true) ∧
    (goes (.dmaD2h 0 none) (ringAt 0 1 0x2000 0x100 8 0 0) (fun t => t.fbit F.dmaRingStat_STALL) = true ∧
     goes (.dmaSample 0) (ringAt 0 2 0x2000 0 8 0 0) (fun t => t.fbit F.dmaRingStat_STALL) = true ∧
     goes (.dmaTally 0) (ringAt 0 3 0x2000 0 8 0 0) (fun t => t.fbit F.dmaRingStat_STALL) = true ∧
     goes (.dmaLaunch 0 false) (ringAt 0 4 0x2000 0 8 0 0) (fun t => t.fbit F.dmaRingStat_STALL) = true ∧ base.fbit F.dmaRingCfg_EN 0 = false) ∧
    (goes (.dmaH2d 0 none) (ringAt 0 0 0x2000 0x100 0 7) (doneAs 0 1 0) = true ∧ goes (.dmaD2h 0 none) (ringAt 0 1 0x2001 0x100 8 7) (doneAs 0 2 0) = true ∧
     goes (.dmaSample 0) (noDram (ringAt 0 2 0x2000 0x100 8 7)) (doneAs 0 3 0) = true ∧ goes (.dmaTally 0) (ringAt 0 3 0x2000 0x100 0 7) (doneAs 0 1 0) = true) := by decide +kernel

theorem witness_RingsMoveData :
    (let s := { ringAt 0 0 0x2000 0x1EFFFFFF8 8 0 with hostMem := memWriteLE hostUnl (ringAt 0 0 0x2000 0x1EFFFFFF8 8 0).hostMem 0x2000 0x0807060504030201 8 }
     goes (.dmaH2d 0 none) s (fun t => doneAs 0 0 8 t && memReadLE dramUnl t.dram 0x1EFFFFFF8 8 == 0x0807060504030201) = true ∧
     goes (.dmaH2d 0 (some 3)) s (fun t => doneAs 0 4 3 t && t.fbit F.dmaStat_PCIE_ERR && memReadLE dramUnl t.dram 0x1EFFFFFF8 8 == 0x030201) = true ∧
     goes (.dmaH2d 0 none) (ringAt 0 0 0x2000 0x1EFFFFFF9 8 0) (doneAs 0 2 0) = true) ∧
    (let s := { ringAt 0 1 0x2000 0x1FFFFFFF8 8 0 with dram := memWriteLE dramUnl [] 0x1FFFFFFF8 0x0807060504030201 8 }
     0x1000 + 32 ≤ 0x2000 ∧ goes (.dmaD2h 0 none) s (fun t => doneAs 0 0 8 t && memReadLE hostUnl t.hostMem 0x2000 8 == 0x0807060504030201) = true ∧
     goes (.dmaD2h 0 (some 0)) s (fun t => doneAs 0 4 0 t && memReadLE hostUnl t.hostMem 0x2000 8 == 0) = true ∧
     goes (.dmaD2h 0 none) (ringAt 0 1 0x2000 0x1FFFFFFF9 8 0) (doneAs 0 2 0) = true) ∧
    (let sampled : State := { base.setSw { base.sw with samples := [(0x1FFFFFFE, 4), (2, 1)], sampleAt := 3 } with
       dram := memWriteLE dramUnl (memWriteLE dramUnl [] 0x1C0000000 0x050403 3) 0x1DFFFFFFE 0x0201 2 }
     let s (n : Nat) := ringAt 0 2 0x2000 0 n 0 (2 ^ 31) sampled
     goes (.dmaSample 0) (s 4) (fun t => doneAs 0 0 4 t && memReadLE hostUnl t.hostMem 0x2000 4 == 0x04030201 && t.sw.samples == [(2, 1)]) = true ∧
     goes (.dmaSample 0) (s 3) (fun t => doneAs 0 5 3 t && memReadLE hostUnl t.hostMem 0x2000 4 == 0x030201) = true ∧
     goes (.dmaSample 0) (ringAt 0 2 0x2000 0 4 0) (fun t => t.fget F.dmaRingHead_IDX 0 == 0) = true) ∧
    (let s (n : Nat) : State := { (((ringAt 0 3 0x2000 0 n 0).fset F.talSize_SIZE 4).fset F.dmaRingAux_IDX 3).setRing 0 { talGen := some 0, talLag := 1 } with
       dram := memWriteLE dramUnl [] (base.talAddr 3) 0xAA 1 }
     (s 32).tal.gen = 0 ∧ (s 32).tal.total = 0 ∧ (s 32).dramUnavail = false ∧ (s 32).talAddr 3 = base.talAddr 3 ∧
     goes (.dmaTally 0) (s 32) (fun t => doneAs 0 0 32 t && t.fget F.dmaRingAux_IDX 0 == 0 && memReadLE hostUnl t.hostMem 0x2000 1 == 0xAA) = true ∧
     goes (.dmaTally 0) (s 64) (fun t => t.fget F.dmaRingHead_IDX 0 == 0 && (t.getRing 0).talFrom == some 6000) = true) ∧
    (let s := (ringAt 0 3 0x2000 0 64 0).setRing 0 { talFrom := some 6000, talGot := 1 }
     goes (.dmaTallyTimeout 0) { s with tickNo := 106000 } (doneAs 0 0 32) = true ∧ goes (.dmaTallyTimeout 0) s (fun t => t.fget F.dmaRingHead_IDX 0 == 0) = true) := by decide +kernel

/-- A launch of 64 bytes of class 7 at port 0, at an instant. -/
def launchAt (size cls : Nat) (at_ : Instant) (s : State := net) : State :=
  ringAt 0 4 0x2000 (packT96 at_ % 2 ^ 64) (packT96 at_ / 2 ^ 64) (size + cls * 65536) (2 ^ 31) s
def launched (status : Nat) (t : State) : Bool := memReadLE hostUnl t.hostMem 0x1018 2 == status && t.fget F.dmaRingHead_IDX 0 == 1

theorem witness_LaunchesAndRingRegisters :
    (goes (.dmaLaunch 0 false) (launchAt 0 7 0) (launched 0x14) = true ∧ goes (.dmaLaunch 0 false) (launchAt 64 8 0) (launched 0x14) = true ∧
     goes (.dmaLaunch 0 true) (launchAt 64 7 0) (fun t => launched 4 t && t.fbit F.dmaStat_PCIE_ERR) = true ∧
     unpackT96 (memReadLE hostUnl (launchAt 64 7 (5504 * lsbPerNs)).hostMem 0x1008 12) = some (5504 * lsbPerNs) ∧
     goes (.dmaLaunch 0 false) (launchAt 64 7 0 base) (launched 0x16) = true ∧
     64 + 4 ≤ net.fget F.swPortCfg_MTU 0 ∧ cellsOf 68 ≤ net.fget F.padGmin_CELLS 0 7 ∧ net.fbit F.glbBlkRst_TAS = false ∧
     goes (.dmaLaunch 0 false) (launchAt 64 7 (5504 * lsbPerNs - 1)) (launched 0x12) = true ∧
     goes (.dmaLaunch 0 false) (launchAt 64 7 (5504 * lsbPerNs)) (fun t => launched 0x10 t && t.sw.frames.map (fun f => (f.cls, f.data.length)) == [(7, 64)]) = true) ∧
    (let s := ((groupAt (Con.dmaTrig 3) [⟨1, 0⟩, ⟨2, 0⟩] 0 (ringAt 3 0 0 0 0 0)).fset F.dmaRingCfg_TRIG 1 3)
     (findGroup (Con.dmaTrig 3) 0 s.tickNo s.dw.inbox).map (fun g => g.evs.length) = some 2 ∧
     goes (.dmaTrig 3) s (fun t => (t.getRing 3).credits == 1 && t.rget (key .dmaRingCntDrop 3) == 1) = true) ∧
    (base.writable .pcie .dmaRingCfg = true ∧
     goes (.dmaRingEnable .pcie 15 0x80000004) (base.fset F.dmaRingHead_IDX 5 15) (fun t => t.fbit F.dmaRingCfg_EN 15 && t.fget F.dmaRingHead_IDX 15 == 0 && t.fget F.dmaRingCfg_KIND 15 == 4) = true ∧
     goes (.dmaRingEnable .pcie 15 0x80000005) base (fun t => t.fget F.dmaRingCfg_KIND 15 == 0 && t.fbit F.dmaStat_WR_ERR) = true ∧
     goes (.dmaRingDisable .pcie 0 0) (ringAt 0 3 0 0 64 0) (fun t => !t.fbit F.dmaRingCfg_EN 0 && t.fget F.dmaRingCfg_KIND 0 == 3) = true ∧
     goes (.dmaRingDisable .pcie 0 0) ((ringAt 0 3 0x2000 0 64 0).setRing 0 { talFrom := some 0, talGot := 1 }) (fun t => doneAs 0 6 32 t && !t.fbit F.dmaRingCfg_EN 0) = true ∧
     goes (.dmaTailWrite .pcie 0 15) (ringAt 0 0 0 0 0 0) (fun t => t.fget F.dmaRingTail_IDX 0 == 15) = true ∧
     goes (.dmaTailWrite .pcie 0 16) (ringAt 0 0 0 0 0 0) (fun t => t.fget F.dmaRingTail_IDX 0 == 1 && t.fbit F.dmaStat_WR_ERR) = true) := by decide +kernel

def jtagged (j : Jtag) (s : State := base) : State := s.setHost { s.host with jtag := j }

theorem witness_SideBusesReachTheDevice :
    (base.glb.vaux = true ∧ (0x58 : BitVec 7).toNat = 0x58 + base.fget F.glbStrap_SMB_ADDR ∧ (0x59 : BitVec 7).toNat ≠ 0x58 + base.fget F.glbStrap_SMB_ADDR ∧
     base.blkHeld (Reg.info .dmaRingTail).blk = false ∧ base.blkHeld (Reg.info .fltCtl).blk = false ∧
     goes (.smbRegWrite 0x58 0 0 false) base (fun t => t.rget (key .glbSmbCntPec) == 1) = true ∧
     goes (.smbSetAddress 0x58 0x10000 true) base (fun t => t.host.smbAddr == 0x10000) = true ∧
     (let s := base.fset F.dmaRingSize_LOG 4 15
      (0x413D8 : BitVec 32).toNat = 0x41018 + 0x40 * (15 : Fin 16).val ∧ (15 : BitVec 32).toNat % 65536 < 2 ^ s.fget F.dmaRingSize_LOG 15 ∧
      goes (.smbRegWrite 0x58 0x413D8 15 true) s (fun t => t.fget F.dmaRingTail_IDX 15 == 15) = true ∧
      goes (.regaccWrite 0x413D8 15) (jtagged { ir := 0x20 } s) (fun t => t.fget F.dmaRingTail_IDX 15 == 15) = true) ∧
     (let s := base.setHost { base.host with smbAddr := 0x10000 }
      goes (.smbRegRead 0x58) s (fun t => t.resp.data == 0x6403 && t.resp.status == 0) = true)) ∧
    (let s := State.reset.setHost { State.reset.host with smbAddr := 0x200000 }
     s.glb.vaux = true ∧ s.blkHeld (Reg.info .eoCtl).blk = true ∧ goes (.smbRegRead 0x58) s (fun t => t.resp.status == 1) = true ∧
     goes (.regaccRead 0x200000) (jtagged { ir := 0x20 } State.reset) (fun t => t.host.jtag.status == 3) = true) ∧
    (goes .jtagRegacc base (fun t => t.host.jtag.ir == 0x20 && !t.glb.boundary) = true ∧
     goes .jtagTestLogicReset (jtagged { ir := 3 } { base with glb := { base.glb with boundary := true } }) (fun t => !t.glb.boundary && t.host.jtag.ir == 1) = true ∧
     base.glb.boundary = false ∧ base.rstHeld = false ∧
     goes .jtagHighz base (fun t => t.glb.boundary && t.rstHeld && !t.time.run && t.bbr.offers.length == 1) = true ∧
     goes .jtagClamp { base with glb := { base.glb with boundary := true } } (fun t => t.host.jtag.ir == 6 && t.time.run) = true ∧
     goes (.jtagSamplePreload 77) base (fun t => t.host.jtag.boundary == 77 && t.host.jtag.ir == 2) = true ∧
     goes (.regaccRead 0x10000) (jtagged { ir := 0x20 }) (fun t => t.host.jtag.data == 0x6403 && t.host.jtag.status == 0) = true ∧
     base.host.jtag.ir ≠ 0x20) := by decide +kernel

/-- The mailbox with a command in progress, its firmware running; and a command that asks. -/
def asked (op owner : Nat) (args : List Nat) (s : State := base) : State := (s.fset F.mbStatus_BUSY 1).setMbox { s.host.mbox with cmd := some ⟨op, owner, args⟩ }
/-- What MB_COMPLETE answers: a code, BUSY 0, and what the state shows. -/
def answers (s : State) (code : Nat) (P : State → Bool) : Bool :=
  match execMbComplete true s with
  | .next t => t.fget F.mbStatus_CODE == code && !t.fbit F.mbStatus_BUSY && t.fbit F.mbInt_DONE && P t
  | _ => false

theorem witness_MailboxTakesCommands :
    (base.writable .pcie .mbCmd = true ∧ base.fbit F.mbStatus_BUSY = false ∧ base.fget F.mbLong_SRC = 0 ∧ ([1, 1] : List Word).length ≤ 64 ∧
     goes (.mbFwBegin .pcie [1, 1]) base (fun t => t.fbit F.mbStatus_BUSY && t.fget F.mbStatus_OWNER == 1 && t.fget F.mbStatus_SEQ == 1 && t.fget F.mbLong_SRC == 1 &&
       (t.host.mbox.cmd.map fun c => (c.op, c.arg 0, c.arg 1)) == some (2, 1, 1)) = true ∧
     goes (.mbFwSelect .jtag [2, 1]) (base.fset F.mbLong_SRC 2) (fun t => t.fbit F.mbStatus_BUSY && t.fget F.mbLong_SRC == 2 && t.fget F.mbStatus_OWNER == 3) = true ∧
     goes (.mbFlashRead .smbus [0, 4, 0, 0]) (base.fset F.mbLong_SRC 2) (fun t => !t.fbit F.mbStatus_BUSY && t.fget F.mbStatus_CODE == 1 && t.host.mbox.cmd == none) = true ∧
     goes (.mbAbort .fw) (base.fset F.mbStatus_BUSY 1) (fun t => t.fbit F.mbStatus_WR_ERR && t.host.mbox.cmd == none) = true) ∧
    (base.host.mbox.cmd = none ∧ goes (.mbComplete true) { asked 1 1 [] with glb := { base.glb with fwRun := false } } (fun t => t.host.mbox.cmd.isSome) = true) := by decide +kernel

theorem witness_MailboxAnswers :
    (let s := asked 0 1 []
     s.glb.fwRun = true ∧ s.glb.limited = false ∧ Memory.wf flashUnl s.flash = true ∧ Memory.wf dramUnl s.dram = true ∧
     answers s 2 (fun _ => true) = true ∧ answers (asked 13 1 []) 2 (fun _ => true) = true) ∧
    (answers (asked 2 1 [3, 0]) 3 (fun _ => true) = true ∧ answers (asked 2 1 [1, 2]) 3 (fun _ => true) = true ∧
     (let s := base.setHost { base.host with boot := some ⟨true, false, false⟩ }
      s.slotRuns false true = true ∧ answers (asked 2 1 [1, 1] s) 8 (fun _ => true) = true ∧ s.slotRuns false false = false ∧
      answers (asked 2 1 [1, 0] { s with flash := [(5, 0)] }) 0 (fun t => t.flash == [] && t.host.mbox.upd == some (false, false)) = true)) := by decide +kernel

theorem witness_MailboxMovesImages :
    (let opened (s : State) : State := s.setMbox { s.host.mbox with upd := some (true, true) }
     let full : State := { base with dram := memWriteLE dramUnl [] 0x200 0x0102 2 }
     answers (asked 3 1 [0, 2, 0x200, 0]) 3 (fun _ => true) = true ∧ answers (asked 3 1 [0, 2, 0x200, 0] (opened (noDram base))) 10 (fun _ => true) = true ∧
     answers (asked 3 1 [0x1FFFEE, 2, 0x200, 0] (opened full)) 0 (fun t => memReadLE flashUnl t.flash (0x1200000 + 0x1FFFEE) 2 == 0x0102) = true ∧
     (opened base).imgJudge true true = .imgFormat ∧ answers (asked 4 1 [] (opened base)) 4 (fun t => t.host.mbox.upd == none) = true ∧
     answers (asked 4 1 []) 3 (fun _ => true) = true ∧
     answers (asked 5 1 [2, 1]) 0 (fun t => t.host.bootRec.prefL && !t.host.bootRec.prefM && t.host.bootRec.forced.isNone) = true ∧ answers (asked 5 1 [0, 1]) 3 (fun _ => true) = true ∧
     answers (asked 6 1 [2, 1]) 4 (fun _ => true) = true ∧ answers (asked 6 1 [2, 2]) 3 (fun _ => true) = true ∧
     answers (asked 7 1 [0x3FFFFFE, 2, 0x1FFFFFFE, 1]) 0 (fun t => memReadLE dramUnl t.dram 0x11FFFFFFE 2 == 0xFFFF) = true ∧
     answers (asked 7 1 [0, 2, 0x200, 0] (noDram base)) 10 (fun _ => true) = true ∧
     answers (asked 8 1 [0x2FFFFFE, 2, 0x200, 0] full) 0 (fun t => memReadLE flashUnl t.flash 0x2FFFFFE 2 == 0x0102) = true ∧
     answers (asked 8 1 [0x1FFFFFF, 2, 0x200, 0] full) 3 (fun _ => true) = true ∧ answers (asked 8 1 [0x2FFFFFF, 2, 0x200, 0] full) 3 (fun _ => true) = true) := by decide +kernel

theorem witness_MailboxNeedsItsKey :
    (answers (asked 9 0 [0xD1A6, 0, 1]) 12 (fun _ => true) = true ∧ answers (asked 9 3 [0xD1A5, 0, 1]) 12 (fun _ => true) = true ∧
     answers (asked 9 3 [0xD1A6, 0, 1]) 0 (fun t => t.host.bootRec.forced == some (false, true) && t.bbr.offers.map BbrOffer.code == [0x4001]) = true ∧
     answers (asked 10 0 []) 12 (fun _ => true) = true ∧
     answers (asked 10 1 [] (base.setHost { base.host with bootRec := { forced := some (true, true) } })) 0 (fun t => t.host.bootRec.forced == none && t.bbr.offers.length == 1) = true ∧
     answers (asked 11 1 [0]) 12 (fun _ => true) = true ∧ base.cal.long = none ∧ answers (asked 12 1 []) 0 (fun t => t.host.mbox.upd == none) = true) ∧
    (let lim (s : State) : State := { s with glb := { s.glb with limited := true } }
     answers (asked 8 1 [] (lim base)) 13 (fun _ => true) = true ∧ answers (asked 11 1 [0xD1A6] (lim base)) 13 (fun _ => true) = true) := by decide +kernel

/-- The first boot record written: sequence number 0, in the copy at 0x01400000. -/
theorem witness_BootRecordIsReadBack :
    (base.bootStore { prefL := true }).bootBest = some (false, 0) ∧ (base.bootStore { prefL := true }).bootRead = { prefL := true } := by decide +kernel

theorem witness_StartUp :
    (base.rstHeld = false ∧ base.host.selected = false ∧ base.bootBest = none ∧ base.bootRead = {} ∧
     { base with host := { base.host with bootRec := base.bootRead } }.bootChoice = none ∧
     goes .bootSelect (base.fset F.eoCtl_EN 1 63) (fun t => t.glb.limited && t.host.selected && !t.fbit F.eoCtl_EN 63) = true ∧
     (base.fset F.glbStrap_LIMITED 1).fbit F.glbStrap_LIMITED = true ∧
     goes .bootSelect (base.setHost { base.host with selected := true }) (fun t => !t.glb.limited) = true) ∧
    (goes .dramTrained (noDram base) (fun t => t.glb.dramReady) = true ∧ State.reset.rstHeld = true ∧
     goes .firmwareStart { base.setHost { base.host with boot := some ⟨false, false, false⟩ } with glb := { base.glb with fwRun := false, aonCycle := 7 } }
       (fun t => t.glb.fwRun && t.flt.kickCycle == 7) = true ∧ base.host.boot = none) := by decide +kernel

/-- A firmware slot with an image of no body: its header and its commit record, with an SVN of 7. -/
def imageIn (lnf : Bool) (m : Memory) : Memory :=
  let w (m : Memory) (a v n : Nat) : Memory := memWriteLE flashUnl m (slotBase lnf false + a) v n
  let hdr := w (w (w (w (w (w m 0 0x49574645 4) 4 1 2) 6 (if lnf then 2 else 1) 1) 8 0x01020304 4) 12 5 2) 14 (5 + 5 * 65536) 4
  let crc := crc32c []
  let hdr2 := w (w (w (w hdr 20 0xFFFFFFFF 4) 24 0 4) 28 crc 4) 32 7 4
  w (w (w (w hdr2 (slotSize lnf - 16) 0x46A55AF1 4) (slotSize lnf - 12) 7 4) (slotSize lnf - 8) 256 4) (slotSize lnf - 4) crc 4
def booted : State := { base.fset F.glbStepping_MAJOR 1 with flash := imageIn true (imageIn false []) }

/-- Whether a key and a signature are good is left open (log entry 73); where they are, and no higher SVN is fused, the images are valid. -/
theorem booted_judge (lnf : Bool) (hk : ∀ k, Config.keyOk k = true) (hs : ∀ k a b, Config.sigOk k a b = true) (hv : Config.svnMinFused ≤ 7) :
    booted.imgJudge lnf false = .ok := by
  rw [State.imgJudge]
  dsimp only
  rw [if_neg (by cases lnf <;> decide +kernel), if_neg (by cases lnf <;> decide +kernel), hk, hs, if_neg (by decide), if_neg ?_]
  have h7 : booted.hdr lnf false 32 4 = 7 := by cases lnf <;> decide +kernel
  have h0 : booted.host.svnRaised = 0 := by decide +kernel
  rw [h7, State.svnMin, h0]
  omega

theorem witness_ImagesAreStarted (hk : ∀ k, Config.keyOk k = true) (hs : ∀ k a b, Config.sigOk k a b = true) (hv : Config.svnMinFused ≤ 7) :
    booted.bootChoice = some ⟨false, false, false⟩ ∧ booted.fbit F.glbStrap_LIMITED = false ∧ booted.rstHeld = false ∧ booted.host.selected = false ∧ booted.bootRead = booted.host.bootRec := by
  have v (lnf : Bool) : booted.slotValid lnf false = true := by
    rw [State.slotValid, State.slotJudge, if_pos (by cases lnf <;> decide +kernel), booted_judge lnf hk hs hv]; rfl
  have c : booted.compatible false false = true := by decide +kernel
  refine ⟨?_, by decide +kernel, by decide +kernel, by decide +kernel, by decide +kernel⟩
  have r : booted.host.bootRec = {} := by decide +kernel
  rw [State.bootChoice, r]
  simp [BootRec.order, v, c]

/-- A sound state in which registers, DRAM and the queue hold something. -/
def soundSample : State :=
  { ((State.reset.fset F.bwRestartY_Y 5).dramWrite 64 0x1122 2).withQueue [.warmReset .pcie 0xD5, .pinReset] with
    glb := { State.reset.glb with barReady := true } }

theorem good_reset : Good [] State.reset := ⟨⟨rfl, rfl, rfl, fun _ _ v n => regReset_gap v n⟩, rfl⟩

theorem soundSample_sound : soundSample.Sound :=
  ⟨by decide +kernel, rfl, rfl,
    (good_fset (v := 5) (i := 0) (j := 0) (k := 0) good_reset (by decide +kernel : F.bwRestartY_Y.inside = true)).sound.reserved⟩

theorem witness_EveryStepKeepsTheStateSound :
    soundSample.Sound ∧ ∃ t, step soundSample = .next t ∧ t ≠ soundSample ∧ t.pending = [.pinReset] :=
  ⟨soundSample_sound, _, rfl, by decide +kernel, by decide +kernel⟩

end Sys2Proof.Tests
end

section
/-! PROOFS. Every step keeps the state sound, and what BAR0 accesses do (R6 to R9, R23 to R25, R48). -/

namespace Sys2Proof.Machine

/-! ### A sound state stays sound (R6, R8, R24) -/

/-- What a step is: idle on an empty queue, else the command at the front acting on the state with the rest of the queue. -/
theorem step_cases {s t : State} (h : step s = .next t) :
    t = s ∨ ∃ c rest, s.pending = c :: rest ∧ exec c (s.withQueue rest) = .next t := by
  unfold step at h
  split at h
  next => cases h; exact .inl rfl
  next c rest hq => exact .inr ⟨c, rest, hq, h⟩

theorem State.withQueue_good {s : State} (h : s.Sound) (q : List Instr) : Good q (s.withQueue q) :=
  ⟨⟨h.dram, h.flash, h.host, h.reserved⟩, rfl⟩

/-- Every command completes, and keeps the state sound and the queue as it is: each by the law of the operation it is. A command that
needs the timebase goes through `live`, a Barli instruction through `issue`, a register access of the table through the bus. -/
theorem exec_keeps_good {q : List Instr} {s : State} (h : Good q s) : ∀ i : Instr, Completes i s (Good q)
  -- Register access, resets and power (R6 to R53)
  | .registerWrite .. => ⟨_, rfl, State.registerWrite_good h⟩
  | .multiwordReadLatch .. | .counterReadClear .. => ⟨_, rfl, State.busRead_good h⟩
  | .bar2Read .. => ⟨_, rfl, State.bar2Read_good h⟩
  | .bar2Write .. => ⟨_, rfl, State.bar2Write_good h⟩
  | .auxPowerOn .. => ⟨_, rfl, State.auxPowerOn_good h⟩
  | .pinReset .. => ⟨_, rfl, State.pinLow_good h⟩
  | .pinResetRelease .. => ⟨_, rfl, State.pinRelease_good h⟩
  | .mainRailPor .. => ⟨_, rfl, State.mainPor_good h⟩
  | .mainRailLoss .. => ⟨_, rfl, State.mainLoss_good h⟩
  | .warmReset .. | .blockResetMem .. | .blockResetSwpad .. | .blockResetTas .. | .blockResetNt .. | .blockResetTal ..
  | .blockResetCal .. | .blockResetDrv .. | .blockResetDw .. => ⟨_, rfl, State.busTo_good h⟩
  | .blockResetDone .. => ⟨_, rfl, State.blockResetDone_good h⟩
  | .functionLevelReset .. => ⟨_, rfl, State.flr_good h⟩
  | .timebaseReady .. => ⟨_, rfl, State.timebaseReady_good h⟩
  | .vauxLoss .. => ⟨_, rfl, State.vauxLoss_good h⟩
  | .aonShadowAdvance .. => ⟨_, rfl, State.shadowAdvance_good h⟩
  | .barAccessReady .. => ⟨_, rfl, State.barAccess_good h⟩
  -- The tick, time steps and the timebase
  | .tick .. => ⟨_, rfl, State.tickAll_good h⟩
  | .tbStepCommit .. | .tbSetCommit .. | .tbNcoSwWrite .. => ⟨_, rfl, State.busCommit_good h⟩
  | .timeStepApply .. => ⟨_, rfl, State.timeStepApply_good h⟩
  | .xoLoss .. => ⟨_, rfl, State.xoLoss_good h⟩
  | .xoReturn .. => ⟨_, rfl, State.xoReturn_good h⟩
  | .tsynSwap .. => ⟨_, rfl, State.live_good h (State.tsynSwap_good h)⟩
  | .tsynReturn .. => ⟨_, rfl, State.live_good h (State.tsynReturn_good h)⟩
  | .forceBpll .. => ⟨_, rfl, State.busFld_good h (by decide +kernel)⟩
  -- Synthesizers
  | .csynTargetWrite .. | .osynApply .. | .osynRamp .. => ⟨_, rfl, State.busTo_good h⟩
  | .csynBandChange .. => ⟨_, rfl, State.live_good h (State.csynBandChange_good h)⟩
  | .csynRelockDone .. => ⟨_, rfl, State.live_good h (State.csynRelocked_good h)⟩
  | .csynBandFail .. => ⟨_, rfl, State.live_good h (State.csynBandFail_good h)⟩
  | .csynRetry .. => ⟨_, rfl, State.live_good h (State.csynRetry_good h)⟩
  | .csynGuardMove .. => ⟨_, rfl, State.live_good h (State.csynGuard_good h)⟩
  | .csynRampDone .. => ⟨_, rfl, State.live_good h (State.csynRampDone_good h)⟩
  | .osynLockDone .. => ⟨_, rfl, State.live_good h (State.osynLockDone_good h)⟩
  | .osynRampStart .. => ⟨_, rfl, State.live_good h (State.osynRampStart_good h)⟩
  | .osynSegmentEnd .. => ⟨_, rfl, State.live_good h (State.osynSegEnd_good h)⟩
  | .osynLossOfLock .. => ⟨_, rfl, State.live_good h (State.osynLol_good h)⟩
  | .osynRelock .. => ⟨_, rfl, State.live_good h (State.osynRelock_good h)⟩
  | .osynDisable .. => ⟨_, rfl, State.busFld_good h (by decide +kernel)⟩
  -- Edge outputs
  | .eoQeCommit .. | .eoTeCommit .. => ⟨_, rfl, State.busCommit_good h⟩
  | .actionAccept .. => ⟨_, rfl, State.live_good h (State.eoAccept_good h)⟩
  | .cancelCut .. => ⟨_, rfl, State.live_good h (State.cancelCut_good h)⟩
  | .actionActivate .. => ⟨_, rfl, State.live_good h (State.eoActivate_good h)⟩
  | .transitionFilter .. => ⟨_, rfl, State.live_good h (State.eoFilter_good h)⟩
  | .transitionCommit .. => ⟨_, rfl, State.live_good h (State.eoCommit_good h)⟩
  | .transitionLaunch .. => ⟨_, rfl, State.live_good h (State.eoLaunch_good h)⟩
  | .edgeVerify .. => ⟨_, rfl, State.live_good h (State.eoVerify_good h)⟩
  | .eoEnable .. | .eoDisable .. => ⟨_, rfl, State.busFld_good h (by decide +kernel)⟩
  | .bankPowerDown .. | .bankPowerUp .. => ⟨_, rfl, State.busTo_good h⟩
  | .bankPowerUpDone .. => ⟨_, rfl, State.live_good h (State.bankUpDone_good h)⟩
  | .eoArm .. => ⟨_, rfl, State.live_good h (State.onGroup_good h fun _ _ hst => good_fon hst (by decide +kernel))⟩
  | .eoTrig .. => ⟨_, rfl, State.live_good h (State.onGroup_good h fun _ _ hst => good_foldl hst fun _ _ => State.eoTrigOne_good)⟩
  | .profStart .. => ⟨_, rfl, State.live_good h (State.profStart_good h)⟩
  | .profileSegmentEnd .. => ⟨_, rfl, State.live_good h (State.profSegEnd_good h)⟩
  | .eoFaultReaction .. => ⟨_, rfl, State.live_good h (State.eoFaultReaction_good h)⟩
  -- Interval units and Tally
  | .tiuHitCapture .. => ⟨_, rfl, State.live_good h (State.tiuCapture_good h)⟩
  | .tiuRecordComplete .. => ⟨_, rfl, State.live_good h (State.tiuForm_good h)⟩
  | .tiuOverflow .. => ⟨_, rfl, State.live_good h (State.tiuOverflow_good h)⟩
  | .tiuTimeout .. => ⟨_, rfl, State.live_good h (State.tiuTimeout_good h)⟩
  | .tiuArm .. => ⟨_, rfl, State.tiuArmCmd_good h⟩
  | .tiuDisarm .. | .talFire .. | .tallyEnable .. | .tallyDisable .. => ⟨_, rfl, State.busFld_good h (by decide +kernel)⟩
  | .tiuStart .. | .tiuStop .. => ⟨_, rfl, State.live_good h (State.onGroup_good h fun _ _ => State.tiuEventHalf_good)⟩
  | .tiuCtlWrite .. => ⟨_, rfl, State.busTo_good h⟩
  | .tiuFifoDrain .. => ⟨_, rfl, State.live_good h (State.tiuDrain_good h)⟩
  | .tiuResRead .. => ⟨_, rfl, State.busFrom_good h⟩
  | .tallyRecordIn .. => ⟨_, rfl, State.live_good h (State.talIn_good h)⟩
  | .tallyWrite .. => ⟨_, rfl, State.live_good h (State.talWrite_good h)⟩
  | .talTrig .. => ⟨_, rfl, State.live_good h (State.onGroup_good h fun _ _ hst => good_foldl hst fun _ _ => State.talTrigger_good)⟩
  | .tallyFreeze .. => ⟨_, rfl, State.live_good h (State.talFreeze_good h)⟩
  | .tallyDrainDone .. => ⟨_, rfl, State.live_good h (State.talDrain_good h)⟩
  -- The Droveway
  | .dwChannelEvent .. => ⟨_, rfl, State.live_good h (State.channelEvent_good h)⟩
  | .evinEdge .. => ⟨_, rfl, State.live_good h (State.evinEdge_good h)⟩
  | .dwTmrEnable .. | .dwChannelEnable .. | .dwChannelDisable .. => ⟨_, rfl, State.busFld_good h (by decide +kernel)⟩
  | .dwTmrInstant .. => ⟨_, rfl, State.live_good h (State.tmrFire_good h)⟩
  | .swfFire .. | .flockStateWrite .. | .dwChOwnWrite .. | .dwConSelWrite .. => ⟨_, rfl, State.busTo_good h⟩
  | .evoutEvent .. => ⟨_, rfl, State.live_good h (State.onGroup_good h fun _ _ => State.evoutGroup_good)⟩
  | .evoutPulseEnd .. => ⟨_, rfl, State.live_good h (State.evoutEnd_good h)⟩
  | .flockEn .. | .flockDis .. => ⟨_, rfl, State.live_good h (State.onGroup_good h fun _ _ => State.flockGroup_good)⟩
  | .dwEnableCheckDone .. => ⟨_, rfl, State.live_good h (State.chCheckDone_good h)⟩
  | .asyncSourceLevelChange .. => ⟨_, rfl, State.asyncLevel_good h⟩
  -- Drovers
  | .drvInGroup .. => ⟨_, rfl, State.live_good h (State.drvInGroup_good h)⟩
  | .taskWakeEvent .. => ⟨_, rfl, State.wakeOnEvent_good h⟩
  | .taskWakeTime .. => ⟨_, rfl, State.wakeTime_good h⟩
  | .taskWakeTimeout .. => ⟨_, rfl, State.wakeOnTimeout_good h⟩
  | .yieldEnd .. => ⟨_, rfl, State.yieldEnd_good h⟩
  | .drvBusyEnd .. => ⟨_, rfl, State.busyEnd_good h⟩
  | .waitQueueReoffer .. => ⟨_, rfl, State.reoffer_good h⟩
  | .ldxReturn .. => ⟨_, rfl, State.ldxReturn_good h⟩
  | .ldxTimeout .. => ⟨_, rfl, State.ldxTimeout_good h⟩
  | .measComplete .. => ⟨_, rfl, State.measComplete_good h⟩
  | .measTimeout .. => ⟨_, rfl, State.measTimeout_good h⟩
  | .launchComplete .. => ⟨_, rfl, State.launchComplete_good h⟩
  | .taskStart .. | .taskStop .. | .drvReset .. => ⟨_, rfl, State.busFld_good h (by decide +kernel)⟩
  | .drvProgCommit .. | .drvMemWrite .. => ⟨_, rfl, State.busCommit_good h⟩
  | .drvProgCheckDone .. => ⟨_, rfl, State.progCheckDone_good h⟩
  | .drvMemRead .. => ⟨_, rfl, State.busFrom_good h⟩
  -- Barli instructions: each is issued and acts on a good state
  | .nop .. => ⟨_, rfl, State.issue_good h fun _ => State.bNop_good⟩
  | .halt .. => ⟨_, rfl, State.issue_good h fun _ => State.bHalt_good⟩
  | .yield .. => ⟨_, rfl, State.issue_good h fun _ => State.bYield_good⟩
  | .trap .. => ⟨_, rfl, State.issue_good h fun _ => State.bTrap_good⟩
  | .b .. => ⟨_, rfl, State.issue_good h fun _ => State.bJump_good⟩
  | .bc .. => ⟨_, rfl, State.issue_good h fun _ => State.bBc_good⟩
  | .call .. => ⟨_, rfl, State.issue_good h fun _ => State.bCall_good⟩
  | .ret .. => ⟨_, rfl, State.issue_good h fun _ => State.bRet_good⟩
  | .loop .. => ⟨_, rfl, State.issue_good h fun _ => State.bLoop_good⟩
  | .endl .. => ⟨_, rfl, State.issue_good h fun _ => State.bEndl_good⟩
  | .endlPop .. => ⟨_, rfl, State.issue_good h fun _ => State.bEndlPop_good⟩
  | .add .. | .sub .. | .adds .. | .subs .. | .and .. | .or .. | .xor .. => ⟨_, rfl, State.issue_good h fun _ => State.bAlu_good⟩
  | .mulq .. => ⟨_, rfl, State.issue_good h fun _ => State.bMulq_good⟩
  | .divq .. => ⟨_, rfl, State.issue_good h fun _ => State.bDivq_good⟩
  | .shl .. => ⟨_, rfl, State.issue_good h fun _ => State.bShl_good⟩
  | .shr .. => ⟨_, rfl, State.issue_good h fun _ => State.bShr_good⟩
  | .cmp .. => ⟨_, rfl, State.issue_good h fun _ => State.bCmp_good⟩
  | .ldi .. => ⟨_, rfl, State.issue_good h fun _ => State.bLdi_good⟩
  | .ldhi .. => ⟨_, rfl, State.issue_good h fun _ => State.bLdhi_good⟩
  | .mov .. => ⟨_, rfl, State.issue_good h fun _ => State.bMov_good⟩
  | .neg .. => ⟨_, rfl, State.issue_good h fun _ => State.bNeg_good⟩
  | .tadd .. | .taddSub .. => ⟨_, rfl, State.issue_good h fun _ => State.bTadd_good⟩
  | .tsub .. => ⟨_, rfl, State.issue_good h fun _ => State.bTsub_good⟩
  | .tcmp .. => ⟨_, rfl, State.issue_good h fun _ => State.bTcmp_good⟩
  | .tnow .. => ⟨_, rfl, State.issue_good h fun _ => State.bTnow_good⟩
  | .tmov .. => ⟨_, rfl, State.issue_good h fun _ => State.bTmov_good⟩
  | .tmovSec .. => ⟨_, rfl, State.issue_good h fun _ => State.bTmovSec_good⟩
  | .tmovNsf .. => ⟨_, rfl, State.issue_good h fun _ => State.bTmovNsf_good⟩
  | .tmovPack .. => ⟨_, rfl, State.issue_good h fun _ => State.bTmovPack_good⟩
  | .tmovZero .. => ⟨_, rfl, State.issue_good h fun _ => State.bTmovZero_good⟩
  | .tld .. => ⟨_, rfl, State.issue_good h fun _ => State.bTld_good⟩
  | .tst .. => ⟨_, rfl, State.issue_good h fun _ => State.bTst_good⟩
  | .ld .. => ⟨_, rfl, State.issue_good h fun _ => State.bLd_good⟩
  | .st .. => ⟨_, rfl, State.issue_good h fun _ => State.bSt_good⟩
  | .ldx .. => ⟨_, rfl, State.issue_good h fun _ => State.bLdx_good⟩
  | .stx .. => ⟨_, rfl, State.issue_good h fun _ => State.bStx_good⟩
  | .edge .. | .pulse .. | .train .. | .prof .. | .cancel .. => ⟨_, rfl, State.issue_good h fun _ => State.bAction_good⟩
  | .waitt .. => ⟨_, rfl, State.issue_good h fun _ => State.bWaitt_good⟩
  | .waite .. => ⟨_, rfl, State.issue_good h fun _ => State.bWaite_good⟩
  | .signal .. => ⟨_, rfl, State.issue_good h fun _ => State.bSignal_good⟩
  | .armTiu .. => ⟨_, rfl, State.issue_good h fun _ => State.bArmTiu_good⟩
  | .disarmTiu .. => ⟨_, rfl, State.issue_good h fun _ => State.bDisarmTiu_good⟩
  | .armEoSlot .. | .disarmEoSlot .. => ⟨_, rfl, State.issue_good h fun _ => State.bArmSlot_good⟩
  | .meas .. => ⟨_, rfl, State.issue_good h fun _ => State.bMeas_good⟩
  | .launch .. => ⟨_, rfl, State.issue_good h fun _ => State.bLaunch_good⟩
  | .csrReadCw .. => ⟨_, rfl, State.issue_good h fun _ => State.bCsrRead_good⟩
  | .csrWriteCw .. => ⟨_, rfl, State.issue_good h fun _ => State.bCsrWrite_good⟩
  | .csrReadBar0 .. => ⟨_, rfl, State.issue_good h fun _ => State.bCsrReadBar_good⟩
  | .csrWriteBar0 .. => ⟨_, rfl, State.issue_good h fun _ => State.bCsrWriteBar_good⟩
  | .illegal .. => ⟨_, rfl, State.issueIllegal_good h⟩
  -- Self-calibration
  | .calTempEval .. => ⟨_, rfl, State.tempEval_good h⟩
  | .calHold .. => ⟨_, rfl, good_ite (State.calHoldEo_good h) (good_ite (State.calHoldTiu_good h) h)⟩
  | .cdRunDone .. => ⟨_, rfl, State.cdDone_good h⟩
  | .tapRunDone .. => ⟨_, rfl, State.tapDone_good h⟩
  | .pinRunDone .. => ⟨_, rfl, State.pinDone_good h⟩
  | .regionRunDone .. => ⟨_, rfl, State.regionDone_good h⟩
  | .calRunStarved .. => ⟨_, rfl, State.runStarved_good h⟩
  | .runRegion .. | .runTiu .. | .runEo .. | .calPin .. | .calFull .. | .calApply .. | .loadTiu .. | .loadEo .. | .calExport ..
  | .calImport .. | .calSave .. | .calAbort .. => ⟨_, rfl, State.busTo_good h⟩
  | .exportDone .. => ⟨_, rfl, State.exportDone_good h⟩
  | .importDone .. => ⟨_, rfl, State.importDone_good h⟩
  | .saveDone .. => ⟨_, rfl, State.saveDone_good h⟩
  | .calStartupImport .. => ⟨_, rfl, State.calStartup_good h⟩
  -- Bellwether
  | .ppsinPulse .. => ⟨_, rfl, good_ite (State.ppsinPulse_good h) h⟩
  | .bwRefSwCommit .. => ⟨_, rfl, State.busCommit_good h⟩
  | .bwSecond .. => ⟨_, rfl, State.bwSecond_good h⟩
  | .refDisqualify .. => ⟨_, rfl, State.signalLost_good h⟩
  | .bwEvaluate .. => ⟨_, rfl, State.bwEvaluate_good h⟩
  | .bwUnlockWrite .. | .bwRealign .. | .bwCtlWrite .. | .bwRefCfgWrite .. => ⟨_, rfl, State.busTo_good h⟩
  | .holdoverLost .. => ⟨_, rfl, State.holdoverLost_good h⟩
  -- Network time
  | .syncRx .. => ⟨_, rfl, State.syncRx_good h⟩
  | .followUpRx .. => ⟨_, rfl, State.followUpRx_good h⟩
  | .delayReqRx .. => ⟨_, rfl, State.delayReqRx_good h⟩
  | .delayRespRx .. => ⟨_, rfl, State.delayRespRx_good h⟩
  | .pdelayReqRx .. => ⟨_, rfl, State.pdelayReqRx_good h⟩
  | .pdelayRespRx .. => ⟨_, rfl, State.pdelayRespRx_good h⟩
  | .pdelayRespFollowUpRx .. => ⟨_, rfl, State.pdelayFuRx_good h⟩
  | .syncTx .. => ⟨_, rfl, State.syncTx_good h⟩
  | .delayReqTx .. => ⟨_, rfl, State.delayReqTx_good h⟩
  | .pdelayReqTx .. => ⟨_, rfl, State.pdelayReqTx_good h⟩
  | .sesSyncTimeout .. => ⟨_, rfl, State.sesTimeout_good h⟩
  | .ntSesEnable .. => ⟨_, rfl, State.busFld_good h (by decide +kernel)⟩
  | .esmcRx .. => ⟨_, rfl, State.esmcRx_good h⟩
  | .esmcLoss .. => ⟨_, rfl, State.esmcLoss_good h⟩
  | .pdReading .. => ⟨_, rfl, State.pdReading_good h⟩
  | .lanePhaseMeasured .. => ⟨_, rfl, State.phaseMeasured_good h⟩
  | .ptTsfRead .. => ⟨_, rfl, State.busFrom_good h⟩
  -- Lanes and ports
  | .ptEnable .. | .ptDisable .. | .laneReset .. => ⟨_, rfl, State.busFld_good h (by decide +kernel)⟩
  | .ptCfgWrite .. | .syntChange .. => ⟨_, rfl, State.busTo_good h⟩
  | .laneLock .. => ⟨_, rfl, good_ite (State.laneLock_good h) (State.lnmLock_good h)⟩
  | .laneLossOfLock .. => ⟨_, rfl, good_ite (State.laneLoss_good h) (State.lnmLoss_good h)⟩
  | .qpllRelockDone .. => ⟨_, rfl, State.qpllDone_good h⟩
  | .elmHello .. => ⟨_, rfl, State.elmHello_good h⟩
  | .elmAck .. => ⟨_, rfl, State.elmAck_good h⟩
  | .elmRate .. => ⟨_, rfl, State.elmRate_good h⟩
  | .elmEq .. => ⟨_, rfl, State.elmEq_good h⟩
  | .elmVerify .. => ⟨_, rfl, State.elmVerify_good h⟩
  | .elmEcho .. => ⟨_, rfl, State.elmEcho_good h⟩
  | .elmDrop .. => ⟨_, rfl, State.elmDrop_good h⟩
  | .elmDropAck .. => ⟨_, rfl, State.elmDropAck_good h⟩
  | .elmAdd .. => ⟨_, rfl, State.elmAdd_good h⟩
  | .helloTx .. => ⟨_, rfl, State.helloTx_good h⟩
  | .rateSwitch .. => ⟨_, rfl, State.rateSwitch_good h⟩
  | .verifyEnd .. => ⟨_, rfl, State.verifyEnd_good h⟩
  | .echoTx .. => ⟨_, rfl, State.echoTx_good h⟩
  | .trainStepTimeout .. => ⟨_, rfl, State.stepTimeout_good h⟩
  | .trainTotalTimeout .. => ⟨_, rfl, State.totalTimeout_good h⟩
  | .standardLinkUp .. => ⟨_, rfl, State.standardUp_good h⟩
  | .listenBackoffExpire .. => ⟨_, rfl, State.backoffExpire_good h⟩
  | .dropResend .. => ⟨_, rfl, State.dropResend_good h⟩
  | .dropAckTimeout .. => ⟨_, rfl, State.dropTimeout_good h⟩
  | .laneRejoin .. => ⟨_, rfl, State.laneRejoin_good h⟩
  | .laneRejoinRetry .. => ⟨_, rfl, State.rejoinRetry_good h⟩
  | .laneSignalDetected .. => ⟨_, rfl, good_ite (State.laneSignal_good h) (good_fset h (by decide +kernel))⟩
  -- Switch, Paddock and time-aware shaper
  | .frameRx .. => ⟨_, rfl, State.frameRx_good h⟩
  | .frameRxEnd .. => ⟨_, rfl, State.frameRxEnd_good h⟩
  | .frameTxStart .. => ⟨_, rfl, State.frameTxStart_good h⟩
  | .pfcRx .. => ⟨_, rfl, State.pfcRx_good h⟩
  | .pauseExpire .. => ⟨_, rfl, State.pauseExpire_good h⟩
  | .xoffRepeat .. => ⟨_, rfl, State.xoffRepeat_good h⟩
  | .macAgeExpire .. => ⟨_, rfl, State.macAge_good h⟩
  | .portDown .. => ⟨_, rfl, State.portDown_good h⟩
  | .padHoldExpire .. => ⟨_, rfl, State.padHoldExpire_good h⟩
  | .portUp .. => ⟨_, rfl, State.portUp_good h⟩
  | .frrRevert .. => ⟨_, rfl, State.frrRevert_good h⟩
  | .gclEntry .. => ⟨_, rfl, State.gclEntry_good h⟩
  | .gclChange .. => ⟨_, rfl, State.busFld_good h (by decide +kernel)⟩
  | .gclChangeEffect .. => ⟨_, rfl, State.gclEffect_good h⟩
  | .preemptVerifyDone .. => ⟨_, rfl, State.preemptVerified_good h⟩
  | .launchRelease .. => ⟨_, rfl, State.launchRelease_good h⟩
  | .fixedLatencyRelease .. => ⟨_, rfl, State.fixedRelease_good h⟩
  | .lqTplCommit .. => ⟨_, rfl, State.busCommit_good h⟩
  | .lqTrig .. => ⟨_, rfl, State.lqTrig_good h⟩
  -- Fault coverage and the black box
  | .faultDetected .. | .faultMasked .. => ⟨_, rfl, State.takeFault_good h⟩
  | .wdogKick .. | .faultRelease .. => ⟨_, rfl, State.busTo_good h⟩
  | .wdogExpire .. => ⟨_, rfl, State.wdogExpire_good h⟩
  | .cfgScanGroup .. => ⟨_, rfl, State.cfgScan_good h⟩
  | .monTempSample .. => ⟨_, rfl, State.monTemps_good h⟩
  | .monSupplySample .. => ⟨_, rfl, State.monSupplies_good h⟩
  | .faultPinRelease .. => ⟨_, rfl, State.faultPinRelease_good h⟩
  | .bbrRecordOffer .. => ⟨_, rfl, State.bbrOfferNext_good h⟩
  | .bbrRecordEnter .. => ⟨_, rfl, State.bbrEnter_good h⟩
  | .bbrFire .. | .bbrRearm .. => ⟨_, rfl, State.busFld_good h (by decide +kernel)⟩
  | .bbrTrig .. => ⟨_, rfl, State.bbrTrigEvent_good h⟩
  | .memScrub .. => ⟨_, rfl, State.memScrub_good h⟩
  -- DMA, SMBus, JTAG, the mailbox and the boot
  | .dmaRingEnable .. | .dmaRingDisable .. => ⟨_, rfl, State.busFld_good h (by decide +kernel)⟩
  | .dmaTailWrite .. => ⟨_, rfl, State.busTo_good h⟩
  | .dmaH2d .. => ⟨_, rfl, State.dmaH2d_good h⟩
  | .dmaD2h .. => ⟨_, rfl, State.dmaD2h_good h⟩
  | .dmaSample .. => ⟨_, rfl, State.dmaSample_good h⟩
  | .dmaTally .. => ⟨_, rfl, State.dmaTally_good h⟩
  | .dmaTallyTimeout .. => ⟨_, rfl, State.dmaTallyTimeout_good h⟩
  | .dmaLaunch .. => ⟨_, rfl, State.dmaLaunch_good h⟩
  | .dmaTrig .. => ⟨_, rfl, State.dmaTrig_good h⟩
  | .smbRegWrite .. => ⟨_, rfl, State.smbWrite_good h⟩
  | .smbSetAddress .. => ⟨_, rfl, State.smbSet_good h⟩
  | .smbRegRead .. => ⟨_, rfl, State.smbRead_good h⟩
  | .jtagBypass .. => ⟨_, rfl, State.jtagBypass_good h⟩
  | .jtagIdcode .. | .jtagExtest .. | .jtagExtestPulse .. | .jtagExtestTrain .. | .jtagClamp .. | .jtagHighz .. | .jtagRegacc ..
  | .jtagTestLogicReset .. => ⟨_, rfl, State.jtagIr_good h⟩
  | .jtagSamplePreload .. => ⟨_, rfl, State.jtagSample_good h⟩
  | .regaccRead .. => ⟨_, rfl, State.regaccRead_good h⟩
  | .regaccWrite .. => ⟨_, rfl, State.regaccWrite_good h⟩
  | .mbGetInfo .. | .mbFwBegin .. | .mbFwChunk .. | .mbFwEnd .. | .mbFwSelect .. | .mbFwVerify .. | .mbFlashRead ..
  | .mbFlashWrite .. | .mbOverrideSet .. | .mbOverrideClear .. | .mbSvnCommit .. | .mbAbort .. => ⟨_, rfl, State.mailbox_good h⟩
  | .mbComplete .. => ⟨_, rfl, State.mbComplete_good h⟩
  | .bootSelect .. => ⟨_, rfl, State.bootSelect_good h⟩
  | .dramTrained .. => ⟨_, rfl, State.dramTrained_good h⟩
  | .firmwareStart .. => ⟨_, rfl, State.firmwareStart_good h⟩

/-- Settles O60: the front command keeps what the queue's rest was given (`exec_keeps_good`). -/
theorem everyStepKeepsTheStateSound : Obligations.EveryStepKeepsTheStateSound := by
  intro s t hs ht
  rcases step_cases ht with rfl | ⟨c, rest, _, hc⟩
  · exact hs
  · obtain ⟨u, hu, hgood⟩ := exec_keeps_good (s.withQueue_good hs rest) c
    cases hu.symm.trans hc
    exact hgood.sound

/-- Settles O59: no memory lists a byte, and a reset value has no bit outside the fields of its register. -/
theorem theResetStateIsSound : Obligations.TheResetStateIsSound := ⟨rfl, rfl, rfl, fun _ _ v n => regReset_gap v n⟩

/-! ### A write within a register: its fields one by one (R6, R7, R9) -/

/-- What a write of `new` leaves in a field that holds `was`, by the field's access code and range; `hw` are the bits of the field that a
hardware event has acted on in this cycle. -/
def FldDef.written (f : FldDef) (lock : Bool) (was new hw : Nat) : Nat :=
  match f.acc with
  | .rw => if f.rng.ok new then new else was
  | .rws => if f.rng.ok new then new else was
  | .rwl => if lock = false ∧ f.rng.ok new then new else was
  | .rw1c => was - (was &&& without new hw)
  | .rw1s => was ||| without new hw
  | _ => was

/-- Two fields share no bit. -/
def FldDef.apart (f g : FldDef) : Bool := decide (f.hi < g.lo) || decide (g.hi < f.lo)

theorem FldDef.apart_comm (f g : FldDef) : f.apart g = g.apart f := Bool.or_comm _ _

theorem Reg.fields_apart (r : Reg) : r.info.flds.Pairwise fun f g => f.apart g = true := by
  cases r <;> decide +kernel

theorem bits_lt (v hi lo : Nat) : bits v hi lo < 2 ^ (hi + 1 - lo) := Nat.mod_lt _ (by positivity)

theorem without_le (x m : Nat) : without x m ≤ x := Nat.sub_le _ _

/-- A write of a field leaves a field apart from it alone. -/
theorem bits_setBits_apart {f g : FldDef} (v x : Nat) (h : f.lo ≤ f.hi) (ha : f.apart g = true) :
    bits (setBits v f.hi f.lo x) g.hi g.lo = bits v g.hi g.lo := by
  simp only [FldDef.apart, Bool.or_eq_true, decide_eq_true_eq] at ha
  rcases ha with ha | ha
  · exact bits_setBits_above v f.hi f.lo x g.hi g.lo h ha
  · exact bits_setBits_below v f.hi f.lo x g.hi g.lo h ha

/-- A field written with a value of its own width reads that value. -/
theorem bits_setBits_of_lt {v hi lo x : Nat} (h : lo ≤ hi) (hx : x < 2 ^ (hi + 1 - lo)) : bits (setBits v hi lo x) hi lo = x := by
  rw [bits_setBits_same v hi lo x h, Nat.mod_eq_of_lt hx]

/-- A write of one field changes the bits of that field at most. -/
theorem fieldWrite_fst (lock : Bool) (hw v : Nat) (a : Nat × Bool) (f : FldDef) :
    (fieldWrite lock hw v a f).1 = a.1 ∨ ∃ x, (fieldWrite lock hw v a f).1 = setBits a.1 f.hi f.lo x := by
  have take (x : Nat) : (if f.rng.ok x then (setBits a.1 f.hi f.lo x, a.2) else (a.1, true)).1 = a.1 ∨
      ∃ y, (if f.rng.ok x then (setBits a.1 f.hi f.lo x, a.2) else (a.1, true)).1 = setBits a.1 f.hi f.lo y := by
    split
    · exact .inr ⟨x, rfl⟩
    · exact .inl rfl
  unfold fieldWrite
  cases f.acc
  case ro | wo | rc => exact .inl rfl
  case rw | rws => exact take _
  case rwl =>
    cases lock
    · exact take _
    · exact .inl rfl
  case rw1c | rw1s => exact .inr ⟨_, rfl⟩

theorem fieldWrite_apart {lock : Bool} {hw v : Nat} {a : Nat × Bool} {f g : FldDef} (h : f.lo ≤ f.hi) (ha : f.apart g = true) :
    bits (fieldWrite lock hw v a f).1 g.hi g.lo = bits a.1 g.hi g.lo := by
  rcases fieldWrite_fst lock hw v a f with e | ⟨x, e⟩
  · rw [e]
  · rw [e, bits_setBits_apart _ _ h ha]

theorem fieldWrite_own {lock : Bool} {hw v : Nat} {a : Nat × Bool} {f : FldDef} (h : f.lo ≤ f.hi) :
    bits (fieldWrite lock hw v a f).1 f.hi f.lo =
      f.written lock (bits a.1 f.hi f.lo) (bits v f.hi f.lo) (bits hw f.hi f.lo) := by
  have take : bits (if f.rng.ok (bits v f.hi f.lo) then (setBits a.1 f.hi f.lo (bits v f.hi f.lo), a.2) else (a.1, true)).1 f.hi f.lo =
      if f.rng.ok (bits v f.hi f.lo) then bits v f.hi f.lo else bits a.1 f.hi f.lo := by
    split
    · exact bits_setBits_of_lt h (bits_lt ..)
    · rfl
  have hold := bits_lt a.1 f.hi f.lo
  have hnew := (without_le (bits v f.hi f.lo) (bits hw f.hi f.lo)).trans_lt (bits_lt ..)
  unfold fieldWrite FldDef.written
  cases f.acc
  case ro | wo | rc => rfl
  case rw | rws => exact take
  case rwl => cases lock <;> simp [take]
  case rw1c => exact bits_setBits_of_lt h ((Nat.sub_le _ _).trans_lt hold)
  case rw1s => exact bits_setBits_of_lt h (Nat.or_lt_two_pow hold hnew)

theorem foldl_fieldWrite_apart {lock : Bool} {hw v : Nat} {g : FldDef} {fs : List FldDef} {a : Nat × Bool}
    (ho : ∀ f ∈ fs, f.lo ≤ f.hi) (ha : ∀ f ∈ fs, f.apart g = true) :
    bits (fs.foldl (fieldWrite lock hw v) a).1 g.hi g.lo = bits a.1 g.hi g.lo := by
  induction fs generalizing a with
  | nil => rfl
  | cons f t ih =>
    rw [List.forall_mem_cons] at ho ha
    rw [List.foldl_cons, ih ho.2 ha.2, fieldWrite_apart ho.1 ha.1]

/-- Each field of a write takes what its access code and range say. -/
theorem foldl_fieldWrite_mem {lock : Bool} {hw v : Nat} {g : FldDef} {fs : List FldDef} {a : Nat × Bool}
    (ho : ∀ f ∈ fs, f.lo ≤ f.hi) (hp : fs.Pairwise fun f g => f.apart g = true) (hg : g ∈ fs) :
    bits (fs.foldl (fieldWrite lock hw v) a).1 g.hi g.lo =
      g.written lock (bits a.1 g.hi g.lo) (bits v g.hi g.lo) (bits hw g.hi g.lo) := by
  induction fs generalizing a with
  | nil => cases hg
  | cons f t ih =>
    rw [List.forall_mem_cons] at ho
    rw [List.pairwise_cons] at hp
    rw [List.foldl_cons]
    rcases List.mem_cons.mp hg with rfl | hg
    · rw [foldl_fieldWrite_apart ho.2 fun f hf => (f.apart_comm g).trans (hp.1 f hf), fieldWrite_own ho.1]
    · rw [ih ho.2 hp.2 hg, fieldWrite_apart ho.1 (hp.1 g hg)]

/-- A field in range raises no complaint. -/
theorem fieldWrite_snd {lock : Bool} {hw v : Nat} {a : Nat × Bool} {f : FldDef} (h : f.rng.ok (bits v f.hi f.lo) = true) :
    (fieldWrite lock hw v a f).2 = a.2 := by
  unfold fieldWrite
  simp only [h, if_true]
  cases f.acc
  case rwl => cases lock <;> rfl
  all_goals rfl

theorem fieldsWrite_snd {fs : List FldDef} {old hw v : Nat} (h : ∀ f ∈ fs, f.rng.ok (bits v f.hi f.lo) = true) :
    (fieldsWrite fs old hw v).2 = false := by
  unfold fieldsWrite
  refine List.foldlRecOn fs _ (motive := fun a : Nat × Bool => a.2 = false) rfl fun a ha f hf => ?_
  rw [fieldWrite_snd (h f hf), ha]

/-- Every field of a register after a write. -/
theorem fieldsWrite_field {r : Reg} {f : FldDef} (old hw v : Nat) (hf : f ∈ r.info.flds) :
    bits (fieldsWrite r.info.flds old hw v).1 f.hi f.lo =
      f.written ((r.info.flds.any fun f => decide (f.acc = .rwl)) && bit old 31) (bits old f.hi f.lo) (bits v f.hi f.lo)
        (bits hw f.hi f.lo) :=
  foldl_fieldWrite_mem (fun _ => Reg.ordered_mem) r.fields_apart hf

/-! ### Storing a written value (R9, R50) -/

/-- Nothing of the state but its registers, and what it notes of the writes and events of the cycle, differs. -/
def State.sameBesideRegs (s t : State) : Prop := { t with regs := s.regs, cyc := s.cyc } = s

theorem State.sameBesideRegs.trans {s t u : State} (h : s.sameBesideRegs t) (h2 : t.sameBesideRegs u) : s.sameBesideRegs u := by
  have e : { u with regs := s.regs, cyc := s.cyc } = { t with regs := s.regs, cyc := s.cyc } :=
    congrArg (fun x : State => { x with regs := s.regs, cyc := s.cyc }) h2
  exact e.trans h

theorem State.rset_sameBesideRegs (s : State) (k : RegKey) (v : Nat) : s.sameBesideRegs (s.rset k v) := rfl

theorem State.fon_sameBesideRegs (s : State) (f : Fld) (i j k : Nat) : s.sameBesideRegs (s.fon f i j k) := rfl

theorem State.wroteBy_sameBesideRegs (s : State) (q : Requester) (k : RegKey) : s.sameBesideRegs (s.wroteBy q k) := rfl

theorem State.wrErr_sameBesideRegs (s : State) (k : RegKey) : s.sameBesideRegs (s.wrErr k) := by
  unfold State.wrErr
  split
  case h_20 => rfl  -- TAS has no WR_ERR
  all_goals exact s.fon_sameBesideRegs ..

/-- Setting a status bit leaves every other register alone. -/
theorem State.rget_fon_other (s : State) (f : Fld) (i j k : Nat) (c : RegKey) (h : c ≠ ⟨f.reg, i, j, k⟩) :
    (s.fon f i j k).rget c = s.rget c := by
  rw [State.fon, State.rget_hwMark, State.rget_fset_other s f 1 i j k c h]

/-- The registers that hold a WR_ERR. -/
def wrErrRegs : List Reg :=
  [.glbErr, .fltStat, .mbStatus, .dmaStat, .tbStat, .synStat, .bwStat, .eoStat, .tiuStat, .talStat, .dwStat, .drvStat, .calStat, .ntStat,
    .lnStat, .ptStat, .swStat, .padStat, .bbrStat]

/-- No field of a register that holds a WR_ERR has a range to be out of. -/
theorem wrErrRegs_any : ∀ r ∈ wrErrRegs, ∀ f ∈ r.info.flds, f.rng = .any := by decide +kernel

theorem State.rget_wrErr_other (s : State) (k c : RegKey) (h : c.r ∉ wrErrRegs) : (s.wrErr k).rget c = s.rget c := by
  have other (f : Fld) (i : Nat) (hf : f.reg ∈ wrErrRegs) : (s.fon f i).rget c = s.rget c :=
    State.rget_fon_other s f i 0 0 c fun e => h (by rw [e]; exact hf)
  unfold State.wrErr
  split
  case h_20 => rfl  -- TAS has no WR_ERR
  all_goals exact other _ _ (by decide)

theorem State.store_inRange {s : State} {k : RegKey} {v : Nat} (h : ∀ f ∈ k.r.info.flds, f.rng.ok (bits v f.hi f.lo) = true) :
    s.store k v = s.rset k (fieldsWrite k.r.info.flds (s.rget k) (s.hwMask k) v).1 := by
  simp only [State.store, fieldsWrite_snd h, Bool.false_eq_true, if_false]

/-- A register of one word stores its fields, in range or not. -/
theorem State.rget_store_self {s : State} {k : RegKey} {v : Nat} (hw : k.r.info.words = 1) :
    (s.store k v).rget k = (fieldsWrite k.r.info.flds (s.rget k) (s.hwMask k) v).1 := by
  by_cases hk : k.r ∈ wrErrRegs
  · rw [State.store_inRange fun f hf => by rw [wrErrRegs_any _ hk f hf]; rfl, State.rget_rset_same]
  · simp only [State.store, hw, if_true]
    split
    · rw [State.rget_wrErr_other _ _ _ hk, State.rget_rset_same]
    · rw [State.rget_rset_same]

theorem State.store_sameBesideRegs (s : State) (k : RegKey) (v : Nat) : s.sameBesideRegs (s.store k v) := by
  unfold State.store
  dsimp only
  split
  · refine State.sameBesideRegs.trans ?_ (State.wrErr_sameBesideRegs _ k)
    split <;> rfl
  · rfl

/-! ### A write on the bus (R8, R23 to R25) -/

section BusWrite
variable {s : State} {q : Requester} {a x : Nat}

theorem lookupCell_mem {K V : Type} [DecidableEq K] {k : K} {v : V} {l : List (K × V)} (h : lookupCell k l = some v) : (k, v) ∈ l := by
  induction l with
  | nil => cases h
  | cons c t ih =>
    obtain ⟨k', v'⟩ := c
    rw [lookupCell] at h
    split at h
    next e => cases h; rw [e]; exact List.mem_cons_self
    next => exact List.mem_cons_of_mem _ (ih h)

/-- Where no later requester has written a register of the name, none has written this one. -/
theorem State.outranked_of_outranksAny {k : RegKey} (h : s.outranksAny q k.r = false) : s.outranked q k = false := by
  have hle : ¬ q.order + 1 < s.cyc.wrote.get 0 k := fun hlt => by
    rw [SMap.get] at hlt
    cases e : lookupCell k s.cyc.wrote.cells with
    | none => simp [e] at hlt
    | some v =>
      rw [e] at hlt
      have := List.any_eq_false.mp h _ (lookupCell_mem e)
      simp_all
  simp [State.outranked, hle]

/-- A register without rules of its own stores what is written. -/
theorem State.commit_unruled {k : RegKey} (v : Nat) (h : k.r.ruled = false) : s.commit q k v = s.store k v := by
  unfold State.commit
  split
  case h_91 => rfl  -- the arm of every register not named
  all_goals
    rename_i e
    rw [e] at h
    exact absurd h (by decide)

theorem State.busWriteBe_unreached (be : Nat) (h : s.reaches0 q = false) : s.busWriteBe q a x be = s := by
  simp [State.busWriteBe, h]

theorem State.busWriteBe_partial {be : Nat} (h : s.reaches0 q = true) (hbe : be ≠ 15) :
    s.busWriteBe q a x be = s.fon F.glbErr_ACC_ERR := by
  simp [State.busWriteBe, h, hbe]

theorem State.busWriteBe_held {b : Blk} (h : s.reaches0 q = true) (hb : blkOf a = some b) (hh : s.blkHeld b = true) :
    s.busWriteBe q a x 15 = s.fon F.glbErr_ACC_ERR := by
  simp [State.busWriteBe, h, hb, hh]

theorem State.busWriteBe_outside (hb : blkOf a = none) : s.busWriteBe q a x 15 = s := by
  simp [State.busWriteBe, hb]

theorem State.busWriteBe_reserved (hr : regAt (a / 4 * 4) = none) (hh : ∀ b, blkOf a = some b → s.blkHeld b = false) :
    s.busWriteBe q a x 15 = s := by
  cases hb : blkOf a with
  | none => exact State.busWriteBe_outside hb
  | some b => simp [State.busWriteBe, hb, hh b hb, hr]

theorem State.busWriteBe_register {b : Blk} {k : RegKey} {w : Nat} (h : s.reaches0 q = true) (hb : blkOf a = some b)
    (hh : s.blkHeld b = false) (hr : regAt (a / 4 * 4) = some (k, w)) : s.busWriteBe q a x 15 = s.wordWrite q k w (x % 2 ^ 32) := by
  simp [State.busWriteBe, h, hb, hh, hr]

end BusWrite

theorem exec_registerWrite (q : Port) (a x : BitVec 32) (be : BitVec 4) (s : State) :
    exec (.registerWrite q a x be false) s = .next (s.busWriteBe q.req a.toNat x.toNat be.toNat) := rfl

/-- A refused write shows in GLB_ERR.ACC_ERR and nowhere else. -/
theorem State.accErr_alone (s : State) :
    (s.fon F.glbErr_ACC_ERR).fbit F.glbErr_ACC_ERR = true ∧
      (∀ c, c ≠ ⟨.glbErr, 0, 0, 0⟩ → (s.fon F.glbErr_ACC_ERR).rget c = s.rget c) ∧ s.sameBesideRegs (s.fon F.glbErr_ACC_ERR) :=
  ⟨State.fbit_fon_same s F.glbErr_ACC_ERR 0 0 0 rfl, State.rget_fon_other s F.glbErr_ACC_ERR 0 0 0, rfl⟩

/-- Settles O2: the branches of a BAR0 write that are turned away, one equation each. -/
theorem refusedRegisterWrites : Obligations.RefusedRegisterWrites := by
  intro q a x be s
  refine ⟨fun hq hbe => ?_, fun b hq hb hh => ?_, fun hb => ?_, fun hr hh => ?_, fun hq p => ?_⟩
  · have hbe' : be.toNat ≠ 15 := fun e => hbe (BitVec.eq_of_toNat_eq e)
    exact ⟨_, by rw [exec_registerWrite, State.busWriteBe_partial hq hbe'], s.accErr_alone⟩
  · exact ⟨_, (exec_registerWrite ..).trans (congrArg _ (State.busWriteBe_held hq hb hh)), s.accErr_alone⟩
  · exact ⟨_, exec_registerWrite .., State.busWriteBe_outside hb⟩
  · exact ⟨_, exec_registerWrite .., State.busWriteBe_reserved hr hh⟩
  · refine ⟨_, rfl, ?_⟩
    cases p
    · exact State.busWriteBe_unreached _ hq
    · simp [State.registerWrite, Port.req, hq]

/-- A write that reaches a one-word register without rules of its own, of a requester that none outranks, is stored. -/
theorem exec_registerWrite_unruled {q : Port} {a x : BitVec 32} {key : RegKey} {s : State}
    (hr : regAt (a.toNat / 4 * 4) = some (key, 0)) (hw : key.r.info.words = 1) (hu : key.r.ruled = false)
    (hs : s.writable q.req key.r = true) (hb : blkOf a.toNat = some key.r.info.blk) :
    exec (.registerWrite q a x 15 false) s = .next ((s.wroteBy q.req key).store key x.toNat) := by
  simp only [State.writable, Bool.and_eq_true, Bool.not_eq_true'] at hs
  obtain ⟨⟨hreach, hheld⟩, hrank⟩ := hs
  have hx : x.toNat % 2 ^ 32 = x.toNat := Nat.mod_eq_of_lt x.isLt
  rw [exec_registerWrite, show (15 : BitVec 4).toNat = 15 from rfl, State.busWriteBe_register hreach hb hheld hr, hx]
  simp only [State.wordWrite, hw, if_true, State.commitOf, State.outranked_of_outranksAny hrank, Bool.false_eq_true, if_false,
    State.commit_unruled _ hu]

/-- Settles O1: the write is one `store`, whose fields `fieldsWrite_field` gives. -/
theorem registerWriteFollowsAccessCodes : Obligations.RegisterWriteFollowsAccessCodes := by
  intro q a x key s hr hw hu hs hb
  refine ⟨_, exec_registerWrite_unruled hr hw hu hs hb, fun f hf => ?_, fun hok c hc => ?_, ?_⟩
  · rw [State.rget_store_self hw]
    exact fieldsWrite_field _ _ _ hf
  · rw [State.store_inRange hok, State.rget_rset_other _ _ _ _ hc]
    rfl
  · exact (s.wroteBy_sameBesideRegs q.req key).trans (State.store_sameBesideRegs ..)

/-! ### A read on the bus (R6, R48) -/

section BusRead
variable {s : State} {q : Requester} {key : RegKey}

theorem State.busRead_register {a w : Nat} (hs : s.readable q key.r = true) (hb : blkOf a = some key.r.info.blk)
    (hr : regAt (a / 4 * 4) = some (key, w)) :
    s.busRead q a = (s.wordRead q key w).2.setResp { data := (s.wordRead q key w).1 } := by
  simp only [State.readable, Bool.and_eq_true, Bool.not_eq_true'] at hs
  obtain ⟨hreach, hheld⟩ := hs
  simp [State.busRead, State.busReadWord, hreach, hheld, hb, hr, bnat]

/-- A read of a register whose chapter gives the read no rule of its own clears its RC fields. -/
theorem State.regRead_plain (h1 : key.r ≠ .tiuRes) (h2 : key.r ≠ .ptTsf) (h3 : key.r ≠ .drvMemData) :
    s.regRead q key = (s.view q key, s.rcClear key) := by
  unfold State.regRead
  split
  next e => exact absurd e h1
  next e => exact absurd e h2
  next e => exact absurd e h3
  next => rfl

theorem State.wordRead_lowest (h1 : key.r ≠ .eoQe) (h2 : key.r ≠ .eoTe) :
    s.wordRead q key 0 = ((s.regRead q key).1 % 2 ^ 32,
      if key.r.info.words = 1 then (s.regRead q key).2 else (s.regRead q key).2.latchSet q key ((s.regRead q key).1 / 2 ^ 32)) := by
  simp [State.wordRead, h1, h2, wordOf, bits]

theorem State.wordRead_higher {w : Nat} (h1 : key.r ≠ .eoQe) (h2 : key.r ≠ .eoTe) (hw : 0 < w) :
    s.wordRead q key w = (s.latchOf q key / 2 ^ (32 * (w - 1)) % 2 ^ 32, s) := by
  have e : 32 * (w - 1) + 31 + 1 - 32 * (w - 1) = 32 := by omega
  simp [State.wordRead, h1, h2, hw.ne', wordOf, bits, e]

/-- A register without RC fields stays as it is when it is read. -/
theorem State.rcClear_none (h : (key.r.info.flds.any fun f => decide (f.acc = .rc)) = false) : s.rcClear key = s := by
  simp [State.rcClear, h]

/-- The fields of a 32-bit counter that a read clears. -/
def rcCounter : List FldDef := [⟨31, 0, .rc, 0, .any⟩]

theorem State.rcClear_counter (h : key.r.info.flds = rcCounter) : s.rcClear key = s.rset key (s.rget key / 2 ^ 32 * 2 ^ 32) := by
  simp [State.rcClear, h, rcCounter, clearRc, setBits, Nat.mod_one]

theorem isY48_counter {r : Reg} (h : r.info.flds = rcCounter) : isY48 r = false := by
  unfold isY48
  split
  case h_10 => rfl  -- the arm of every register not named
  all_goals exact absurd h (by decide)

/-- A counter that a read clears reads as it is stored. -/
theorem State.view_counter (h : key.r.info.flds = rcCounter) : s.view q key = s.rget key := by
  unfold State.view
  dsimp only
  split
  case h_52 => rw [isY48_counter h]; rfl  -- the arm of every register not named
  all_goals
    rename_i e
    rw [e] at h
    exact absurd h (by decide)

theorem exec_multiwordReadLatch {p : Port} {a : BitVec 32} {w : Nat} (hs : s.readable p.req key.r = true)
    (hb : blkOf a.toNat = some key.r.info.blk) (hr : regAt (a.toNat / 4 * 4) = some (key, w)) :
    exec (.multiwordReadLatch p a) s = .next ((s.wordRead p.req key w).2.setResp { data := (s.wordRead p.req key w).1 }) :=
  congrArg Host.Outcome.next (State.busRead_register hs hb hr)

theorem exec_counterReadClear {p : Port} {a : BitVec 32} {w : Nat} (hs : s.readable p.req key.r = true)
    (hb : blkOf a.toNat = some key.r.info.blk) (hr : regAt (a.toNat / 4 * 4) = some (key, w)) :
    exec (.counterReadClear p a) s = .next ((s.wordRead p.req key w).2.setResp { data := (s.wordRead p.req key w).1 }) :=
  congrArg Host.Outcome.next (State.busRead_register hs hb hr)

/-- A read of the lowest of several words: the register, its higher words kept for the requester. -/
theorem State.wordRead_latches (h1 : key.r ≠ .eoQe) (h2 : key.r ≠ .eoTe) (h3 : key.r ≠ .tiuRes) (h4 : key.r ≠ .ptTsf)
    (h5 : key.r ≠ .drvMemData) (hw : 1 < key.r.info.words) (hrc : (key.r.info.flds.any fun f => decide (f.acc = .rc)) = false) :
    s.wordRead q key 0 = (s.view q key % 2 ^ 32, s.latchSet q key (s.view q key / 2 ^ 32)) := by
  rw [State.wordRead_lowest h1 h2, State.regRead_plain h3 h4 h5, State.rcClear_none hrc, if_neg hw.ne']

/-- A read of a counter that a read clears: its low word, which becomes 0. -/
theorem State.wordRead_counter (hw : key.r.info.words = 1) (hf : key.r.info.flds = rcCounter) :
    s.wordRead q key 0 = (s.rget key % 2 ^ 32, s.rset key (s.rget key / 2 ^ 32 * 2 ^ 32)) := by
  have other (r : Reg) (hr : r.info.flds ≠ rcCounter) : key.r ≠ r := fun e => hr (e ▸ hf)
  rw [State.wordRead_lowest (other .eoQe (by decide)) (other .eoTe (by decide)),
    State.regRead_plain (other .tiuRes (by decide)) (other .ptTsf (by decide)) (other .drvMemData (by decide)),
    State.view_counter hf, State.rcClear_counter hf, if_pos hw]

/-- What a latching read leaves. -/
theorem State.latchSet_setResp_effect (s : State) (q : Requester) (k : RegKey) (v : Nat) (r : Resp) :
    ((s.latchSet q k v).setResp r).latchOf q k = v ∧
      (∀ c, c ≠ ⟨q, k⟩ → ((s.latchSet q k v).setResp r).latches.get 0 c = s.latches.get 0 c) ∧
      { (s.latchSet q k v).setResp r with latches := s.latches, resp := s.resp } = s :=
  ⟨SMap.get_put_same .., fun _ hc => SMap.get_put_other _ _ _ _ _ _ _ hc, rfl⟩

/-- What a clearing read leaves. -/
theorem State.rset_setResp_effect (s : State) (k : RegKey) (v : Nat) (r : Resp) :
    ((s.rset k v).setResp r).rget k = v ∧ (∀ c, c ≠ k → ((s.rset k v).setResp r).rget c = s.rget c) ∧
      { (s.rset k v).setResp r with regs := s.regs, resp := s.resp } = s :=
  ⟨State.rget_rset_same .., fun _ hc => State.rget_rset_other _ _ _ _ hc, rfl⟩

end BusRead

/-- Settles O3: what a word of a register reads as, and what the read does. -/
theorem registerReadsLatchAndClear : Obligations.RegisterReadsLatchAndClear := by
  intro q a key w s hr hb hs h1 h2
  refine ⟨?_, fun hw => ?_, ?_⟩
  · rintro rfl hwords h3 h4 h5 hrc
    refine ⟨_, exec_multiwordReadLatch hs hb hr, ?_⟩
    rw [State.wordRead_latches h1 h2 h3 h4 h5 hwords hrc]
    exact ⟨rfl, s.latchSet_setResp_effect ..⟩
  · refine ⟨_, exec_multiwordReadLatch hs hb hr, ?_⟩
    rw [State.wordRead_higher h1 h2 hw]
    exact ⟨rfl, rfl⟩
  · rintro rfl hwords hflds
    refine ⟨_, exec_counterReadClear hs hb hr, ?_⟩
    rw [State.wordRead_counter hwords hflds]
    exact ⟨rfl, s.rset_setResp_effect ..⟩

end Sys2Proof.Machine
end

section
/-! PROOFS. Reads and writes of DRAM through the BAR2 aperture (R28, R29). -/

namespace Sys2Proof.Machine

section Bar2
variable {s : State} {x : Nat} {bs : List Byte}

/-- The BASE of the aperture stands beside FW_WR, and is not touched by it. -/
theorem State.bar2Addr_fon_fwWr (s : State) (x : Nat) : (s.fon F.dmaAperBase_FW_WR).bar2Addr x = s.bar2Addr x := by
  have hbase : (s.fon F.dmaAperBase_FW_WR).fget F.dmaAperBase_BASE = s.fget F.dmaAperBase_BASE := by
    rw [State.fget, State.fon, State.rget_hwMark, State.fset]
    exact (congrArg (bits · 2 0) (State.rget_rset_same ..)).trans (bits_setBits_below _ 3 3 1 2 0 (by decide) (by decide))
  rw [State.bar2Addr, State.bar2Addr, hbase]

theorem State.dramUnavail_fon_fwWr (s : State) : (s.fon F.dmaAperBase_FW_WR).dramUnavail = s.dramUnavail := by
  have hmem : (s.fon F.dmaAperBase_FW_WR).fbit F.glbBlkRst_MEM = s.fbit F.glbBlkRst_MEM :=
    congrArg (bit · 7) (State.rget_fon_other s F.dmaAperBase_FW_WR 0 0 0 ⟨.glbBlkRst, 0, 0, 0⟩ (by decide))
  rw [State.dramUnavail, State.dramUnavail, hmem]
  rfl

theorem State.bar2Byte_firmware {b : Byte} (h : fwRegion ≤ s.bar2Addr x) : s.bar2Byte x b = s.fon F.dmaAperBase_FW_WR := if_pos h

theorem State.bar2Byte_unavail {b : Byte} (h : ¬ fwRegion ≤ s.bar2Addr x) (hu : s.dramUnavail = true) : s.bar2Byte x b = s :=
  (if_neg h).trans (if_pos hu)

theorem State.bar2Byte_stored {b : Byte} (h : ¬ fwRegion ≤ s.bar2Addr x) (hu : s.dramUnavail = false) :
    s.bar2Byte x b = s.setDram (memWrite dramUnl s.dram (s.bar2Addr x) b) :=
  (if_neg h).trans (if_neg (by simp [hu]))

/-- While DRAM is unavailable a write reaches no more than FW_WR. -/
theorem State.bar2Bytes_unavail_sameBesideRegs (hu : s.dramUnavail = true) : s.sameBesideRegs (s.bar2Bytes x bs) := by
  induction bs generalizing s x with
  | nil => rfl
  | cons b t ih =>
    rw [State.bar2Bytes]
    by_cases h : fwRegion ≤ s.bar2Addr x
    · rw [State.bar2Byte_firmware h]
      exact (s.fon_sameBesideRegs F.dmaAperBase_FW_WR 0 0 0).trans (ih (s.dramUnavail_fon_fwWr.trans hu))
    · rw [State.bar2Byte_unavail h hu]
      exact ih hu

theorem State.sameBesideRegs.dram_eq {t : State} (h : s.sameBesideRegs t) : t.dram = s.dram :=
  show ({ t with regs := s.regs, cyc := s.cyc } : State).dram = s.dram from congrArg State.dram h

/-- Below the firmware region it reaches nothing at all. -/
theorem State.bar2Bytes_unavail_below (hu : s.dramUnavail = true) (ha : s.bar2Addr x + bs.length ≤ fwRegion)
    (hx : x + bs.length ≤ 2 ^ 30) : s.bar2Bytes x bs = s := by
  induction bs generalizing x with
  | nil => rfl
  | cons b t ih =>
    rw [List.length_cons] at ha hx
    rw [State.bar2Bytes, State.bar2Byte_unavail (by omega) hu]
    exact ih (by unfold State.bar2Addr at ha ⊢; omega) (by omega)

/-- Below the firmware region the bytes are stored at rising addresses. -/
theorem State.bar2Bytes_stored (hu : s.dramUnavail = false) (ha : s.bar2Addr x + bs.length ≤ fwRegion) (hx : x + bs.length ≤ 2 ^ 30) :
    s.bar2Bytes x bs = s.setDram (memWriteBytes dramUnl s.dram (s.bar2Addr x) bs) := by
  induction bs generalizing s x with
  | nil => rfl
  | cons b t ih =>
    rw [List.length_cons] at ha hx
    rw [State.bar2Bytes, State.bar2Byte_stored (by omega) hu, memWriteBytes]
    cases t with
    | nil => rfl
    | cons c t =>
      have hnext : (s.setDram (memWrite dramUnl s.dram (s.bar2Addr x) b)).bar2Addr (x + 1) = s.bar2Addr x + 1 := by
        rw [List.length_cons] at hx
        show s.fget F.dmaAperBase_BASE * 2 ^ 30 + (x + 1) % 2 ^ 30 = s.fget F.dmaAperBase_BASE * 2 ^ 30 + x % 2 ^ 30 + 1
        omega
      rw [ih (s := s.setDram (memWrite dramUnl s.dram (s.bar2Addr x) b)) hu (by omega) (by omega), hnext]
      rfl

theorem memReadBytes_getElem? (unl : Byte) (m : Memory) {a n i : Nat} (h : i < n) :
    (memReadBytes unl m a n)[i]? = some (memRead unl m (a + i)) := by
  induction n generalizing a i with
  | zero => omega
  | succ n ih =>
    cases i with
    | zero => rfl
    | succ i => rw [memReadBytes, List.getElem?_cons_succ, ih (by omega), Nat.add_right_comm, Nat.add_assoc]

/-- Each byte of a stored list reads back at its place. -/
theorem memRead_memWriteBytes_at (unl : Byte) (m : Memory) (a : Nat) {i : Nat} (hi : i < bs.length) (h : Memory.wf unl m = true) :
    some (memRead unl (memWriteBytes unl m a bs) (a + i)) = bs[i]? := by
  rw [← memReadBytes_getElem? _ _ hi, memReadBytes_memWriteBytes unl bs m a h]

/-- A write shows in FW_WR and in no other register, and stores nothing. -/
def State.fwWrAlone (s t : State) : Prop :=
  t.fbit F.dmaAperBase_FW_WR = true ∧ (∀ c, c ≠ ⟨.dmaAperBase, 0, 0, 0⟩ → t.rget c = s.rget c) ∧ s.sameBesideRegs t

theorem State.fon_fwWrAlone (s : State) : s.fwWrAlone (s.fon F.dmaAperBase_FW_WR) :=
  ⟨State.fbit_fon_same s F.dmaAperBase_FW_WR 0 0 0 rfl, State.rget_fon_other s F.dmaAperBase_FW_WR 0 0 0, s.fon_sameBesideRegs ..⟩

theorem State.fwWrAlone.trans {t u : State} (h : s.fwWrAlone t) (h2 : t.fwWrAlone u) : s.fwWrAlone u :=
  ⟨h2.1, fun c hc => (h2.2.1 c hc).trans (h.2.1 c hc), h.2.2.trans h2.2.2⟩

/-- A write that begins in the firmware region stays in it up to the end of the aperture. -/
theorem State.bar2Bytes_firmware (hne : bs ≠ []) (ha : fwRegion ≤ s.bar2Addr x) (hx : x + bs.length ≤ 2 ^ 30) :
    s.fwWrAlone (s.bar2Bytes x bs) := by
  induction bs generalizing s x with
  | nil => exact absurd rfl hne
  | cons b t ih =>
    rw [State.bar2Bytes, State.bar2Byte_firmware ha]
    cases t with
    | nil => exact s.fon_fwWrAlone
    | cons c t =>
      simp only [List.length_cons] at hx ih
      refine s.fon_fwWrAlone.trans (ih (List.cons_ne_nil c t) ?_ (by omega))
      rw [State.bar2Addr_fon_fwWr]
      unfold State.bar2Addr at ha ⊢
      omega

theorem exec_bar2Read {x : BitVec 30} {n : Fin 4097} (h : s.glb.barReady = true) :
    exec (.bar2Read x n) s = .next (s.setResp { bytes := (List.range n.val).map fun i =>
      if s.dramUnavail then 255 else (memRead dramUnl s.dram (s.bar2Addr (x.toNat + i))).toNat }) :=
  congrArg Host.Outcome.next (if_neg (by simp [h]))

theorem exec_bar2Write {x : BitVec 30} (h : s.glb.barReady = true) :
    exec (.bar2Write x bs false) s = .next (s.bar2Bytes x.toNat bs) :=
  congrArg Host.Outcome.next ((if_neg (by simp [h])).trans (if_neg Bool.false_ne_true))

end Bar2

/-- Settles O4: what a write does byte by byte, by the region its bytes lie in. -/
theorem bar2Aperture : Obligations.Bar2Aperture := by
  intro x s hbar at_
  refine ⟨fun n => ⟨_, exec_bar2Read hbar, by simp, fun i hi => ?_, rfl⟩, fun bytes hu => ⟨_, exec_bar2Write hbar, ?_⟩,
    fun bytes hu hwf ha hx => ⟨_, exec_bar2Write hbar, ?_⟩, fun bytes hne ha hx => ⟨_, exec_bar2Write hbar, ?_⟩⟩
  · simp only [State.setResp_resp, List.getElem?_map, List.getElem?_range hi, Option.map_some]
    rfl
  · have hsame := State.bar2Bytes_unavail_sameBesideRegs (x := x.toNat) (bs := bytes) hu
    exact ⟨hsame.dram_eq, hsame, State.bar2Bytes_unavail_below hu⟩
  · rw [State.bar2Bytes_stored hu ha hx]
    exact ⟨fun i hi => memRead_memWriteBytes_at _ _ _ hi hwf, fun y hy => memRead_memWriteBytes_other _ _ _ _ _ hwf hy, rfl⟩
  · exact State.bar2Bytes_firmware hne ha hx

end Sys2Proof.Machine
end

section
/-! PROOFS. Pin reset, auxiliary power-on and warm reset (R30, R32, R34, R472). -/

namespace Sys2Proof.Machine

/-! ### Registers that are kept -/

theorem SMap.get_keep {K V : Type} [DecidableEq K] (p : K → Bool) (m : SMap K V) (d : V) (k : K) :
    (m.keep p).get d k = if p k then m.get d k else d := by
  simp only [SMap.get, SMap.keep, lookupCell_filter]
  split <;> rfl

/-- A register of which only some keys were kept reads its reset value at the others. -/
theorem State.rget_of_keep {s t : State} {p : RegKey → Bool} (h : t.regs = s.regs.keep p) (c : RegKey) :
    t.rget c = if p c then s.rget c else regReset c := by
  rw [State.rget, h, SMap.get_keep]
  rfl

theorem pinKeeps_iff (c : RegKey) :
    pinKeeps c = true ↔ c.r.info.blk = .flt ∨ c.r.info.blk = .mon ∨ c.r = .glbRstCause ∨ c.r = .glbStrap := by
  unfold pinKeeps
  split
  case h_1 e => simp [e]
  case h_2 e => simp [e]
  case h_3 hflt hmon => simp [show ¬ c.r.info.blk = .flt from hflt, show ¬ c.r.info.blk = .mon from hmon]

theorem warmKeeps_iff (c : RegKey) :
    warmKeeps c = true ↔ c.r.info.blk = .flt ∨ c.r.info.blk = .mon ∨ c.r.info.blk = .bbr ∨ c.r = .glbStrap ∨ c.r = .glbRstCause ∨
      c.r = .bwRestartY := by
  simp only [warmKeeps, Bool.or_eq_true, decide_eq_true_eq, pinKeeps_iff]
  tauto

/-! ### The start of a reset (R32, R34) -/

section Reset
variable {s : State} {c : RegKey}

theorem State.rget_resetCause_same (s : State) (n : Nat) :
    (s.resetCause n).rget ⟨.glbRstCause, 0, 0, 0⟩ = s.rget ⟨.glbRstCause, 0, 0, 0⟩ ||| 2 ^ n := State.rget_rset_same ..

theorem State.rget_resetCause_other (s : State) (n : Nat) (h : c ≠ ⟨.glbRstCause, 0, 0, 0⟩) : (s.resetCause n).rget c = s.rget c :=
  State.rget_rset_other s _ c _ h

theorem bit_or_two_pow_same (v n : Nat) : bit (v ||| 2 ^ n) n = true := by
  simp [bit_testBit]

theorem State.resetBegin_unabsorbed {lvl : RstLevel} {cause : Nat} {core : State → State}
    (h : ¬ (s.rstHeld ∧ lvl.rank < s.glb.level.rank)) :
    s.resetBegin lvl cause core =
      ((core s).setGlb { (core s).glb with level := if s.glb.level.rank < lvl.rank then lvl else s.glb.level }).resetCause cause :=
  if_neg h

theorem RstLevel.rank_le_pin {l : RstLevel} (h : l ≠ .aux) : l.rank ≤ RstLevel.pin.rank := by
  cases l
  case aux => exact absurd rfl h
  all_goals decide

/-- A warm reset takes the place of no reset alone. -/
theorem RstLevel.warm_over (l : RstLevel) :
    (if l.rank < RstLevel.warm.rank then RstLevel.warm else l) = if l = .none then .warm else l := by
  cases l <;> rfl

theorem State.shadowBegin_running (h : s.time.run = true) (t : TimeSt) :
    s.shadowBegin t = { t with
      shadow := s.time.now * 2 ^ 56 / 10, shadowY := s.time.y, shadowCarry := s.time.carry, rcDuring := s.glb.aonRc } := if_pos h

theorem State.shadowBegin_stopped (h : ¬ s.time.run = true) (t : TimeSt) :
    s.shadowBegin t = { t with
      shadow := s.time.shadow, shadowY := s.time.shadowY, shadowCarry := s.time.shadowCarry
      rcDuring := s.time.rcDuring || s.glb.aonRc } := if_neg h

/-- What the AON shadow takes over from device time. -/
theorem State.shadowBegin_start (s : State) (valid : Bool) (y : Int) :
    ({ s.shadowBegin {} with valid := valid, y := y } : TimeSt) =
      { valid := valid, y := y
        shadow := if s.time.run then s.time.now * 2 ^ 56 / 10 else s.time.shadow
        shadowY := if s.time.run then s.time.y else s.time.shadowY
        shadowCarry := if s.time.run then s.time.carry else s.time.shadowCarry
        rcDuring := (!s.time.run && s.time.rcDuring) || s.glb.aonRc } := by
  by_cases h : s.time.run = true
  · simp [State.shadowBegin_running h, h]
  · simp [State.shadowBegin_stopped h, h]

theorem State.shadowBegin_run (s : State) (t : TimeSt) : (s.shadowBegin t).run = t.run := by
  by_cases h : s.time.run = true
  · rw [State.shadowBegin_running h]
  · rw [State.shadowBegin_stopped h]

/-! ### Pin reset -/

/-- The state of a device that a pin reset with a cause has just cleared. -/
def State.pinCleared (s : State) (cause : Nat) (t : State) : Prop :=
  t.time.run = false ∧ t.eo = {} ∧ t.dw.evq = [] ∧ t.drv = {} ∧ t.dram = [] ∧ t.flash = s.flash ∧ t.bbr.ring = s.bbr.ring ∧
  t.flt = s.flt ∧ t.staging = {} ∧ t.latches = {} ∧ t.pending = s.pending ∧
  bit (t.rget ⟨.glbRstCause, 0, 0, 0⟩) cause = true ∧
  (∀ c, c.r ≠ .glbRstCause →
    t.rget c = if c.r.info.blk = .flt ∨ c.r.info.blk = .mon ∨ c.r = .glbStrap then s.rget c else regReset c) ∧
  t.bbr.offers = s.bbr.offers ++
    [{ source := 0x10 * 2048, code := 0x3001, arg0 := 2 ^ cause, arg1 := 0, ts := none, tick := s.glb.aonCycle }]

theorem State.rget_pinCore (hc : c.r ≠ .glbRstCause) :
    s.pinCore.rget c = if c.r.info.blk = .flt ∨ c.r.info.blk = .mon ∨ c.r = .glbStrap then s.rget c else regReset c := by
  rw [State.rget_of_keep (p := pinKeeps) (s := s) rfl]
  simp only [pinKeeps_iff, hc, false_or]

/-- A pin reset that no broader one absorbs clears the device, whatever the supplies and pins say next. -/
theorem State.pinReset_cleared (h : s.glb.level ≠ .aux) (cause : Nat) (g : GlbSt) : s.pinCleared cause ((s.pinReset cause).setGlb g) := by
  rw [State.pinReset, State.resetBegin_unabsorbed fun hb => absurd hb.2 (RstLevel.rank_le_pin h).not_gt]
  refine ⟨s.shadowBegin_run {}, rfl, rfl, rfl, rfl, rfl, rfl, rfl, rfl, rfl, rfl, ?_, fun c hc => ?_, rfl⟩
  · rw [State.setGlb_rget, State.rget_resetCause_same]
    exact bit_or_two_pow_same ..
  · rw [State.setGlb_rget, State.rget_resetCause_other _ _ fun e => hc (congrArg RegKey.r e)]
    exact State.rget_pinCore hc

theorem State.pinLow_begins (h : s.glb.pinLow = false) :
    s.pinLow = (s.pinReset 2).setGlb { (s.pinReset 2).glb with pinLow := true } := if_neg (by simp [h])

theorem State.mainPor_begins {low : Nat} (h : s.glb.por = false) (hl : low % 1024 ≠ 0) :
    s.mainPor low = (s.pinReset 1).setGlb { (s.pinReset 1).glb with por := true, rails := low % 1024, porSince := none } := by
  simp only [State.mainPor, h, ne_eq, hl, not_false_eq_true, if_true, Bool.false_eq_true, if_false]

/-- Settles O5: each of the three sources makes the one pin reset. -/
theorem pinResetClearsTheDevice : Obligations.PinResetClearsTheDevice := by
  intro low s hlvl cleared
  refine ⟨fun hpin => ⟨_, rfl, ?_⟩, fun hpor hlow => ⟨_, rfl, ?_⟩, fun hpor => ⟨_, rfl, ?_⟩⟩
  · rw [State.pinLow_begins hpin]
    exact ⟨State.pinReset_cleared hlvl 2 _, rfl⟩
  · have hmod : low.toNat % 1024 = low.toNat := Nat.mod_eq_of_lt low.isLt
    have hne : low.toNat ≠ 0 := fun e => hlow (BitVec.eq_of_toNat_eq e)
    rw [State.mainPor_begins hpor (hmod.symm ▸ hne)]
    exact ⟨State.pinReset_cleared hlvl 1 _, rfl, hmod⟩
  · rw [State.mainLoss, State.mainPor_begins hpor (by decide)]
    exact ⟨State.pinReset_cleared hlvl 1 _, rfl, rfl⟩

/-! ### Auxiliary power-on -/

/-- Settles O6: a power-on leaves the state of reset beside what is not the device's. -/
theorem auxiliaryPowerOnClearsEverything : Obligations.AuxiliaryPowerOnClearsEverything := fun s =>
  ⟨⟨s.auxCore, rfl, fun _ => rfl, rfl, rfl, rfl, rfl, rfl, rfl, rfl, rfl,
    show bit (regReset ⟨.glbRstCause, 0, 0, 0⟩) 0 = true by decide +kernel⟩,
    ⟨s.vauxLoss, rfl, rfl, fun _ => rfl, rfl, rfl, rfl⟩⟩

/-! ### Warm reset -/

/-- A register of which no field stores what is written takes every write as it is, also of an outranked requester. -/
theorem keepStored_unstored {fs : List FldDef} {old v : Nat} (h : ∀ f ∈ fs, f.acc ∉ [Acc.rw, .rws, .rwl]) :
    keepStored fs old v = v := by
  unfold keepStored
  refine List.foldlRecOn fs _ (motive := fun a => a = v) rfl fun a ha f hf => ?_
  have hf := h f hf
  cases hacc : f.acc <;> simp_all

/-- A write by name reaches the commit of a register of one word without stored fields. -/
theorem State.busTo_unstored {q : Requester} {r : Reg} {x : Nat} (hs : s.readable q r = true)
    (hr : regAt (addrOf ⟨r, 0, 0, 0⟩ 0 / 4 * 4) = some (⟨r, 0, 0, 0⟩, 0)) (hb : blkOf (addrOf ⟨r, 0, 0, 0⟩ 0) = some r.info.blk)
    (hw : r.info.words = 1) (hf : ∀ f ∈ r.info.flds, f.acc ∉ [Acc.rw, .rws, .rwl]) (hx : x < 2 ^ 32) :
    s.busTo q r x = (s.wroteBy q ⟨r, 0, 0, 0⟩).commit q ⟨r, 0, 0, 0⟩ x := by
  simp only [State.readable, Bool.and_eq_true, Bool.not_eq_true'] at hs
  rw [State.busTo, State.busWrite, State.busWriteBe_register hs.1 hb hs.2 hr, Nat.mod_eq_of_lt hx]
  simp only [State.wordWrite, hw, if_true, State.commitOf, keepStored_unstored hf, ite_self]

theorem exec_warmReset {q : Port} {key : BitVec 8} (hs : s.readable q.req .glbRstCtl = true) :
    exec (.warmReset q key) s = .next ((s.wroteBy q.req ⟨.glbRstCtl, 0, 0, 0⟩).warmReset key.toNat) := by
  have hmod : key.toNat % 256 = key.toNat := Nat.mod_eq_of_lt key.isLt
  refine congrArg Host.Outcome.next ((State.busTo_unstored hs (by decide +kernel) (by decide +kernel) rfl (by decide +kernel)
    (key.isLt.trans (by decide))).trans ?_)
  show (s.wroteBy q.req ⟨.glbRstCtl, 0, 0, 0⟩).warmReset (key.toNat % 256) = _
  rw [hmod]

/-- Where GLB answers, nothing holds the core. -/
theorem State.rstHeld_of_readable {q : Requester} {r : Reg} (hr : r.info.blk = .glb) (hs : s.readable q r = true) : s.rstHeld = false := by
  simp only [State.readable, hr, Bool.and_eq_true, Bool.not_eq_true'] at hs
  exact hs.2

theorem State.warmReset_key (h : s.rstHeld = false) :
    s.warmReset 0xD5 =
      (s.warmCore.setGlb { s.warmCore.glb with level := if s.glb.level = .none then .warm else s.glb.level }).resetCause 3 := by
  have hpin : s.glb.pinLow = false := by
    simp only [State.rstHeld, Bool.or_eq_false_iff] at h
    exact h.1.1.1.1
  rw [State.warmReset, if_neg (by decide), if_neg (by simp [hpin]), State.resetBegin_unabsorbed (by simp [h]), RstLevel.warm_over]

theorem State.warmReset_otherKey {key : Nat} (h : key % 256 ≠ 0xD5) : s.warmReset key = s.fon F.glbErr_WR_ERR := if_pos h

theorem State.rget_warmCore (s : State) (c : RegKey) :
    s.warmCore.rget c =
      if c.r.info.blk = .flt ∨ c.r.info.blk = .mon ∨ c.r.info.blk = .bbr ∨ c.r = .glbStrap ∨ c.r = .glbRstCause ∨
        c.r = .bwRestartY then s.rget c else regReset c := by
  rw [State.rget_of_keep (p := warmKeeps) (s := s) rfl]
  simp only [warmKeeps_iff]

/-- The steering word after a warm reset is that of BW_RESTART_Y, which the reset keeps (R318). -/
theorem State.fget_coreReset_restartY (s : State) : (s.coreReset warmKeeps).fget F.bwRestartY_Y = s.fget F.bwRestartY_Y :=
  congrArg (bits · 47 0) (State.rget_of_keep (s := s) (p := warmKeeps) rfl ⟨.bwRestartY, 0, 0, 0⟩)

end Reset

/-- Settles O7: the key makes the reset of `warmCore`, field by field; another key is an error of GLB. -/
theorem warmResetKeepsDramAndAon : Obligations.WarmResetKeepsDramAndAon := by
  intro q key s hs
  refine ⟨fun hkey => ⟨_, exec_warmReset hs, ?_⟩, fun hkey => ⟨_, exec_warmReset hs, ?_⟩⟩
  · have hheld : (s.wroteBy q.req ⟨.glbRstCtl, 0, 0, 0⟩).rstHeld = false := State.rstHeld_of_readable (s := s) rfl hs
    rw [hkey, show (0xD5 : BitVec 8).toNat = 0xD5 from rfl, State.warmReset_key hheld]
    have hy : (clampY48 (y48Of ((s.coreReset warmKeeps).fget F.bwRestartY_Y))).1 = (clampY48 (y48Of (s.fget F.bwRestartY_Y))).1 := by
      rw [State.fget_coreReset_restartY]
    refine ⟨fun c hc => ?_, ?_, rfl, rfl, ?_, ?_, rfl, fun d => ?_, rfl⟩
    · exact (State.rget_resetCause_other _ _ hc).trans (State.rget_warmCore _ c)
    · exact (State.rget_resetCause_same _ 3).trans (congrArg (· ||| 8) (State.rget_warmCore ..))
    · exact (congrArg (fun z => ({ s.shadowBegin {} with valid := s.time.valid, y := z } : TimeSt)) hy).trans
        (s.shadowBegin_start s.time.valid _)
    · exact congrArg (fun z => ({ y := z } : Bw)) hy
    · exact SMap.get_mapVals {} Drover.memOnly rfl s.drv d
  · have hne : key.toNat % 256 ≠ 0xD5 := by
      rw [Nat.mod_eq_of_lt key.isLt]
      exact fun e => hkey (BitVec.eq_of_toNat_eq e)
    rw [State.warmReset_otherKey hne]
    exact ⟨State.fbit_fon_same _ F.glbErr_WR_ERR 0 0 0 rfl, State.rget_fon_other _ F.glbErr_WR_ERR 0 0 0, rfl⟩

end Sys2Proof.Machine
end

section
/-! PROOFS. The start of the timebase, the AON shadow, BAR access and the function-level reset (R30 to R32, R53, R290, R431). -/

namespace Sys2Proof.Machine

/-! ### An event without a vector (R149, R156) -/

section Start
variable {s : State}

/-- Nothing of the state but the Droveway differs. -/
def State.sameBesideDw (s t : State) : Prop := { t with dw := s.dw } = s

theorem State.sameBesideDw_iff {t : State} : s.sameBesideDw t ↔ ∃ d, t = { s with dw := d } :=
  ⟨fun h => ⟨t.dw, congrArg (fun x : State => { x with dw := t.dw }) h⟩, fun ⟨_, h⟩ => h ▸ rfl⟩

/-- Groups put at consumers' inputs change nothing but the inbox. -/
theorem State.foldl_deliver (s : State) (l : List Nat) (evs : List Stamp) (due : Nat) :
    (l.foldl (fun st x => st.deliver x evs due) s).dw.evq = s.dw.evq ∧
      s.sameBesideDw (l.foldl (fun st x => st.deliver x evs due) s) := by
  refine List.foldlRecOn l _ (motive := fun t => t.dw.evq = s.dw.evq ∧ s.sameBesideDw t) ⟨rfl, rfl⟩ ?_
  rintro t ⟨hev, hsame⟩ x -
  exact ⟨hev, hsame⟩

/-- No tag limit holds back an event of tag 0: its vector leaves, it is queued, and its fixed wires carry it. -/
theorem State.raiseEv_untagged (s : State) (prod : Nat) (ts : Instant) : ∃ l : List Nat,
    s.raiseEv prod ts 0 = l.foldl (fun st x => st.deliver x [⟨ts, 0⟩] (s.tickNo + 1))
      ((s.sendVector prod).setDw { s.dw with evq := s.dw.evq ++ [⟨prod, ts, 0, s.tickNo, []⟩] }) :=
  ⟨_, (if_pos rfl).trans (if_neg (Nat.not_lt_zero _))⟩

theorem State.sendVector_none {prod : Nat} (h : vectorOf prod = none) : s.sendVector prod = s := by
  rw [State.sendVector, h]

/-- An event of tag 0 that has no vector stands among those to be carried; nothing but the Droveway sees it. -/
theorem State.raiseEv_vectorless {prod : Nat} (ts : Instant) (h : vectorOf prod = none) :
    (s.raiseEv prod ts 0).raises prod ts 0 s.tickNo ∧ s.sameBesideDw (s.raiseEv prod ts 0) := by
  obtain ⟨l, hraise⟩ := s.raiseEv_untagged prod ts
  rw [State.sendVector_none h] at hraise
  obtain ⟨hev, hsame⟩ := State.foldl_deliver (s.setDw { s.dw with evq := s.dw.evq ++ [⟨prod, ts, 0, s.tickNo, []⟩] }) l [⟨ts, 0⟩]
    (s.tickNo + 1)
  rw [← hraise] at hev hsame
  obtain ⟨d, hd⟩ := State.sameBesideDw_iff.mp hsame
  rw [hd] at hev ⊢
  refine ⟨?_, rfl⟩
  show _ ∈ if s.tickNo = s.tickNo then d.evq else d.soon
  rw [if_pos rfl, show d.evq = s.dw.evq ++ [⟨prod, ts, 0, s.tickNo, []⟩] from hev]
  exact List.mem_append_right _ (List.mem_singleton_self _)

/-! ### The timebase starts (R30, R53, R290) -/

/-- The time at which the timebase starts: zero, or the AON shadow's after a warm reset. -/
def State.startValue (s : State) : Nat := if s.glb.level = .warm then ctrOf (s.time.shadow * 10 / 2 ^ 56) else 0

/-- The timebase has just started, TB_SEC not yet raised. -/
def State.timebaseStarted (s : State) : State :=
  let v := s.startValue
  { s with
    time := { s.time with
      run := true, a := ctrLoad (ctrInc v), b := ctrLoad (ctrInc v), pa := v, pb := v, now := ctrNs v, xoPh := ctrNs v % 10
      valid := decide (s.glb.level = .warm) && s.time.valid && !s.time.rcDuring, rcDuring := false }
    tsyn := { src := .tsyn, locked := true, bpllLocked := true, everLocked := true }
    glb := { s.glb with level := .none } }

theorem State.timebaseReady_starts (hh : s.rstHeld = false) (hr : s.time.run = false) (hx : s.glb.xo = true) :
    s.timebaseReady = s.timebaseStarted.secTick := by
  have hv : (if decide (s.glb.level = .warm) = true then ctrOf (s.time.shadow * 10 / 2 ^ 56) else 0) = s.startValue := by
    simp only [decide_eq_true_eq, State.startValue]
  unfold State.timebaseReady State.timebaseStarted
  rw [if_neg (by simp [hh, hr, hx]), ← hv]
  rfl

/-- TB_SEC goes to the Droveway at a whole second, and to nothing else. -/
theorem State.secTick_effect (s : State) :
    (s.time.now % 1000000000 = 0 → s.secTick.raises Prod.tbSec s.nowI 0 s.tickNo) ∧
      (s.time.now % 1000000000 ≠ 0 → s.secTick.dw = s.dw) ∧ s.sameBesideDw s.secTick := by
  by_cases h : s.time.now % 1000000000 = 0
  · have hsec : s.secTick = s.raiseEv Prod.tbSec s.nowI 0 := if_pos (decide_eq_true h)
    obtain ⟨hraises, hsame⟩ := State.raiseEv_vectorless (s := s) s.nowI (prod := Prod.tbSec) rfl
    exact ⟨fun _ => hsec ▸ hraises, fun hn => absurd h hn, hsec ▸ hsame⟩
  · have hsec : s.secTick = s := if_neg fun e => h (of_decide_eq_true e)
    exact ⟨fun hn => absurd hn h, fun _ => congrArg State.dw hsec, by rw [hsec]; rfl⟩

/-! ### The AON shadow and BAR access (R30, R431) -/

theorem State.shadowAdvance_stopped (hr : s.time.run = false) (hv : s.glb.vaux = true) :
    s.shadowAdvance = { s with
      cyc := {}
      glb := { s.glb with aonCycle := s.glb.aonCycle + 1 }
      time := if s.glb.xo then
          { s.time with
            shadow := ((s.time.shadow : Int) + 2 ^ 56 + (steerIncrement s.time.shadowY s.time.shadowCarry).1).toNat
            shadowCarry := (steerIncrement s.time.shadowY s.time.shadowCarry).2 }
        else s.time } := by
  unfold State.shadowAdvance
  rw [if_neg (by simp [hr, hv])]
  cases s.glb.xo <;> rfl

theorem State.shadowAdvance_idle (h : s.time.run = true ∨ s.glb.vaux = false) : s.shadowAdvance = s :=
  if_pos (by simpa using h)

/-! ### Function-level reset (R31, R135) -/

/-- The registers that a function-level reset returns, as a list. -/
def flrGone : List Reg := [.dmaRingCfg, .dmaRingStat, .dmaRingBase, .dmaRingSize, .dmaRingHead, .dmaRingTail, .dmaRingCntDrop,
  .dmaRingAux, .msixTable, .msixPba, .mbInt]

theorem flrResets_iff (r : Reg) : flrResets r = true ↔ r ∈ flrGone := by
  simp [flrResets, flrGone]

/-- The rings, MSI-X and the doorbells of a function-level reset have gone; nothing is counted or entered yet. -/
def State.flrCleared (s : State) : State :=
  { s with
    regs := s.regs.keep fun k => !flrResets k.r
    host := { s.host with ring := {}, flrTick := some s.tickNo } }

/-- Tally records that rings held and did not hand to the host. -/
def State.flrLost (s : State) : Nat := (s.host.ring.cells.map fun c => c.2.talGot).sum

theorem State.flr_resets (hh : s.rstHeld = false) (hb : s.rget ⟨.glbBlkRst, 0, 0, 0⟩ = 0) :
    s.flr = (if 0 < s.flrLost then s.flrCleared.cnt64 .talCntLost s.flrLost else s.flrCleared).resetCause 4 := by
  unfold State.flr State.flrLost
  rw [if_neg (by simp [hh, hb]), List.sum_eq_foldl]
  rfl

theorem State.flr_absorbed (h : s.rstHeld = true ∨ s.rget ⟨.glbBlkRst, 0, 0, 0⟩ ≠ 0) : s.flr = s := if_pos h

theorem State.rget_flrCleared (s : State) (c : RegKey) : s.flrCleared.rget c = if c.r ∈ flrGone then regReset c else s.rget c := by
  rw [State.rget_of_keep (p := fun k => !flrResets k.r) (s := s) rfl]
  by_cases h : c.r ∈ flrGone
  · simp [(flrResets_iff c.r).mpr h, h]
  · simp [mt (flrResets_iff c.r).mp h, h]

/-- The count of lost records, and no other register, takes what a function-level reset loses. -/
theorem State.rget_flrCounted (s : State) (c : RegKey) :
    (if 0 < s.flrLost then s.flrCleared.cnt64 .talCntLost s.flrLost else s.flrCleared).rget c =
      if c = ⟨.talCntLost, 0, 0, 0⟩ then (if s.flrLost = 0 then s.rget c else (s.rget c + s.flrLost) % 2 ^ 64)
      else if c.r ∈ flrGone then regReset c else s.rget c := by
  have hcnt : s.flrCleared.rget ⟨.talCntLost, 0, 0, 0⟩ = s.rget ⟨.talCntLost, 0, 0, 0⟩ :=
    (s.rget_flrCleared _).trans (if_neg (by decide))
  by_cases hl : s.flrLost = 0
  · rw [if_neg (by omega), if_pos hl]
    split
    next e => rw [e, hcnt]
    next => exact s.rget_flrCleared c
  · rw [if_pos (by omega), if_neg hl, State.cnt64, State.rget_rset, hcnt]
    split
    next e => rw [e]
    next => exact s.rget_flrCleared c

theorem State.flrCounted_regs (s : State) : ∃ r,
    (if 0 < s.flrLost then s.flrCleared.cnt64 .talCntLost s.flrLost else s.flrCleared) = { s.flrCleared with regs := r } := by
  split <;> exact ⟨_, rfl⟩

end Start

/-- Settles O9: each event by the branch of its condition. -/
theorem startUpAndFunctionLevelReset : Obligations.StartUpAndFunctionLevelReset := by
  intro straps s
  refine ⟨fun hp hv => ⟨_, rfl, ?_⟩, fun h => ⟨_, rfl, ?_⟩, fun hh hr hx => ⟨_, rfl, ?_⟩, fun hr hv => ⟨_, rfl, ?_⟩,
    fun h => ⟨_, rfl, State.shadowAdvance_idle h⟩, fun hh => ⟨_, rfl, ?_⟩, fun hh => ⟨_, rfl, if_pos hh⟩,
    fun hh hb => ⟨_, rfl, ?_⟩,
    fun h => ⟨_, rfl, State.flr_absorbed h⟩⟩
  · have hmod : straps.toNat % 16 = straps.toNat := Nat.mod_eq_of_lt straps.isLt
    rw [show s.pinRelease straps.toNat = _ from if_pos ⟨hp, hv⟩, hmod]
    exact ⟨State.rget_rset_same .., rfl, fun c hc => State.rget_rset_other _ _ _ _ hc, rfl⟩
  · exact if_neg (by rcases h with h | h <;> simp [h])
  · rw [State.timebaseReady_starts hh hr hx]
    obtain ⟨hraises, hquiet, hsame⟩ := s.timebaseStarted.secTick_effect
    obtain ⟨d, hd⟩ := State.sameBesideDw_iff.mp hsame
    rw [hd] at hraises hquiet ⊢
    exact ⟨rfl, rfl, rfl, hraises, hquiet, rfl⟩
  · rw [State.shadowAdvance_stopped hr hv]
    exact ⟨rfl, rfl, rfl, rfl⟩
  · exact if_neg (by simp [hh])
  · rw [State.flr_resets hh hb]
    have hreg := s.rget_flrCounted
    obtain ⟨r, hr⟩ := s.flrCounted_regs
    rw [hr] at hreg ⊢
    refine ⟨fun c hcause hcount => ?_, ?_, ?_, rfl, rfl, rfl⟩
    · exact (State.rget_resetCause_other _ 4 hcause).trans ((hreg c).trans (if_neg hcount))
    · exact (State.rget_resetCause_same _ 4).trans (congrArg (· ||| 16) (hreg _))
    · exact (State.rget_resetCause_other _ 4 (by decide)).trans ((hreg _).trans (if_pos rfl))

end Sys2Proof.Machine
end

section
/-! PROOFS. Block resets: the request, what each leaves, and its end (R33, R135, R207, R265, R348, R404). -/

namespace Sys2Proof.Machine

/-! ### The request and the end (R33) -/

section BlkRst
variable {s : State}

/-- The register of the block resets. -/
def blkRstKey : RegKey := ⟨.glbBlkRst, 0, 0, 0⟩

/-- The block reset of a bit has been asked for: its bit of GLB_BLK_RST stands, and a function-level reset is over. -/
def State.blockBegun (s : State) (q : Requester) (n : Nat) : State :=
  let u : State := { s.wroteBy q blkRstKey with host := { s.host with flrTick := none } }
  u.rset blkRstKey (s.rget blkRstKey ||| 2 ^ n)

theorem State.rget_blockBegun_self (s : State) (q : Requester) (n : Nat) :
    (s.blockBegun q n).rget blkRstKey = s.rget blkRstKey ||| 2 ^ n := State.rget_rset_same ..

theorem State.rget_blockBegun_other (q : Requester) (n : Nat) {c : RegKey} (h : c ≠ blkRstKey) : (s.blockBegun q n).rget c = s.rget c :=
  State.rget_rset_other _ _ _ _ h

/-- A write of one bit starts the reset of its block alone. -/
theorem State.wrBlkRst_single (s : State) (b : Fin 8) : s.wrBlkRst (2 ^ b.val) = s.blockReset b.val := by
  fin_cases b <;> rfl

theorem State.busTo_blkRst {q : Requester} (hs : s.readable q .glbBlkRst = true) (b : Fin 8) :
    s.busTo q .glbBlkRst (2 ^ b.val) = (s.wroteBy q blkRstKey).blockReset b.val := by
  have hx : 2 ^ b.val < 2 ^ 32 := Nat.pow_lt_pow_right (by decide) (by omega)
  rw [State.busTo_unstored hs (by decide +kernel) (by decide +kernel) rfl (by decide +kernel) hx]
  exact State.wrBlkRst_single _ b

/-- The bit of a number that is subtracted is its field of one bit, cleared. -/
theorem sub_two_pow_eq_setBits {v b : Nat} (h : bit v b = true) : v - 2 ^ b = setBits v b b 0 := by
  have hodd : v / 2 ^ b % 2 = 1 := of_decide_eq_true h
  have hv : 2 ^ b * (v / 2 ^ b) + v % 2 ^ b = v := Nat.div_add_mod v (2 ^ b)
  have hk : v / 2 ^ b = 2 * (v / 2 ^ (b + 1)) + 1 := by rw [pow_succ, ← Nat.div_div_eq_div_mul]; omega
  have hm : 2 ^ b * (v / 2 ^ b) = v / 2 ^ (b + 1) * 2 ^ (b + 1) + 2 ^ b := by rw [hk]; ring
  simp only [setBits, Nat.zero_mod, Nat.zero_mul, Nat.add_zero]
  omega

theorem bit_sub_two_pow_self {v b : Nat} (h : bit v b = true) : bit (v - 2 ^ b) b = false := by
  rw [sub_two_pow_eq_setBits h, bit_eq_bits, bits_setBits_same v b b 0 le_rfl, Nat.zero_mod]
  rfl

theorem bit_sub_two_pow_other {v b j : Nat} (h : bit v b = true) (hj : j ≠ b) : bit (v - 2 ^ b) j = bit v j := by
  rw [sub_two_pow_eq_setBits h, bit_setBits_out le_rfl (by omega)]

theorem State.blockResetDone_ends {b : Nat} (h : bit (s.rget blkRstKey) b = true) :
    s.blockResetDone b = (s.rset blkRstKey (s.rget blkRstKey - 2 ^ b)).hwMark blkRstKey (2 ^ b) := if_pos h

theorem State.blockResetDone_idle {b : Nat} (h : bit (s.rget blkRstKey) b = false) : s.blockResetDone b = s :=
  if_neg (Bool.eq_false_iff.mp h)

/-! ### The registers of a block -/

theorem State.rget_blkRegs (s : State) (b : Blk) (stays : Reg → Bool) (c : RegKey) :
    (s.blkRegs b stays).rget c = if c.r.info.blk = b ∧ stays c.r = false then regReset c else s.rget c := by
  rw [State.rget_of_keep (s := s) (p := fun k => decide (k.r.info.blk ≠ b) || stays k.r) rfl]
  by_cases hb : c.r.info.blk = b <;> cases hst : stays c.r <;> simp [hb]

theorem State.stageOf_blkRegs (s : State) (b : Blk) (stays : Reg → Bool) (p : Requester) (c : RegKey) :
    (s.blkRegs b stays).stageOf p c = if c.r.info.blk = b then 0 else s.stageOf p c := by
  show (s.staging.keep _).get 0 _ = _
  rw [SMap.get_keep]
  by_cases hb : c.r.info.blk = b <;> simp [hb, State.stageOf]

/-- A block reset has set its bit and ended a function-level reset. -/
def State.blockOn (s : State) (n : Nat) (t : State) : Prop :=
  t.rget blkRstKey = s.rget blkRstKey ||| 2 ^ n ∧ t.host = { s.host with flrTick := none }

/-- A block reset has returned the registers of its block, and of no other, and dropped what was staged for them. -/
def State.blockCleared (s : State) (b : Blk) (t : State) : Prop :=
  (∀ c, c ≠ blkRstKey → t.rget c = if c.r.info.blk = b then regReset c else s.rget c) ∧
    (∀ p c, t.stageOf p c = if c.r.info.blk = b then 0 else s.stageOf p c)

theorem State.blockBegun_on (s : State) (q : Requester) (n : Nat) (b : Blk) (hb : b ≠ .glb) :
    s.blockOn n ((s.blockBegun q n).blkRegs b) :=
  ⟨by rw [State.rget_blkRegs, if_neg fun e => hb e.1.symm, State.rget_blockBegun_self], rfl⟩

theorem State.blockBegun_cleared (s : State) (q : Requester) (n : Nat) (b : Blk) : s.blockCleared b ((s.blockBegun q n).blkRegs b) := by
  refine ⟨fun c hc => ?_, fun p c => State.stageOf_blkRegs ..⟩
  rw [State.rget_blkRegs, State.rget_blockBegun_other q n hc]
  simp only [and_true]

theorem State.blockOn.of_same {n : Nat} {t u : State} (h : s.blockOn n t) (hr : u.regs = t.regs) (hh : u.host = t.host) : s.blockOn n u :=
  ⟨(congrArg (fun m : SMap RegKey Nat => m.get (regReset blkRstKey) blkRstKey) hr).trans h.1, hh.trans h.2⟩

theorem State.blockCleared.of_same {b : Blk} {t u : State} (h : s.blockCleared b t) (hr : u.regs = t.regs) (hs : u.staging = t.staging) :
    s.blockCleared b u :=
  ⟨fun c hc => (congrArg (fun m : SMap RegKey Nat => m.get (regReset c) c) hr).trans (h.1 c hc),
    fun p c => (congrArg (fun m : SMap ReqKey Nat => m.get 0 ⟨p, c⟩) hs).trans (h.2 p c)⟩

end BlkRst

/-! ### Updates of each index of a map -/

/-- A fold of updates, each of which acts on the value of its own index alone, acts once on those it names. -/
theorem foldl_update {S A : Type} {get : S → Nat → A} {upd : S → Nat → S} {f : A → A} (hf : ∀ a, f (f a) = f a)
    (hu : ∀ s p q, get (upd s p) q = if q = p then f (get s q) else get s q) (l : List Nat) (s : S) (q : Nat) :
    get (l.foldl upd s) q = if q ∈ l then f (get s q) else get s q := by
  induction l generalizing s with
  | nil => rfl
  | cons p t ih =>
    rw [List.foldl_cons, ih, hu]
    by_cases hq : q = p <;> by_cases ht : q ∈ t <;> simp [hq, ht, hf]

theorem lookupCell_eq_none {K V : Type} [DecidableEq K] {k : K} {l : List (K × V)} (h : k ∉ l.map Prod.fst) : lookupCell k l = none := by
  cases e : lookupCell k l with
  | none => rfl
  | some v => exact absurd (List.mem_map_of_mem (lookupCell_mem e)) h

/-- A function that keeps the default, applied at every listed key, applies at every key. -/
theorem ite_listed {K V : Type} [DecidableEq K] {m : SMap K V} {d : V} {f : V → V} (hf : f d = d) (k : K) :
    (if k ∈ m.cells.map Prod.fst then f (m.get d k) else m.get d k) = f (m.get d k) := by
  split
  next => rfl
  next h => rw [SMap.get, lookupCell_eq_none h]; exact hf.symm

section Switch
variable {s : State}

/-- An update of the ports of the switch, one by one. -/
def State.onPorts (s : State) (f : SwPort → SwPort) (l : List Nat) : State := l.foldl (fun st p => st.setSwPort p (f (st.getSwPort p))) s

theorem State.getSwPort_setSwPort (s : State) (p q : Nat) (x : SwPort) :
    (s.setSwPort p x).getSwPort q = if q = p then x else s.getSwPort q := SMap.get_put ..

/-- It reaches nothing but the ports. -/
theorem State.onPorts_rest (s : State) (f : SwPort → SwPort) (l : List Nat) :
    { s.onPorts f l with sw := { (s.onPorts f l).sw with port := s.sw.port } } = s :=
  List.foldlRecOn l _ (motive := fun t : State => { t with sw := { t.sw with port := s.sw.port } } = s) rfl fun _ h _ _ => h

/-- Each port, listed or not, is as the update makes it. -/
theorem State.getSwPort_onPorts {f : SwPort → SwPort} (hf : ∀ x, f (f x) = f x) (h0 : f {} = {}) (p : Nat) :
    (s.onPorts f (s.sw.port.cells.map fun c => c.1)).getSwPort p = f (s.getSwPort p) := by
  rw [State.onPorts, foldl_update (get := State.getSwPort) (f := f) hf fun st p q => ?_]
  · exact ite_listed h0 p
  · rw [State.getSwPort_setSwPort]
    split
    next e => rw [e]
    next => rfl

/-! ### TAS (R404) -/

/-- A port without gates, templates and lists. -/
def SwPort.tasReset (x : SwPort) : SwPort := { x with gates := 255, oper := [], pend := none, tpl := none }

/-- The frames that are not in a launch queue. -/
def Sw.unlaunched (x : Sw) : Sw := { x with frames := x.frames.filter fun f => decide (f.kind ≠ FrameKind.launch) }

theorem State.tasClear_eq (s : State) :
    s.tasClear = (s.setSw s.sw.unlaunched).onPorts SwPort.tasReset (s.sw.port.cells.map fun c => c.1) := rfl

theorem State.getSwPort_tasClear (s : State) (p : Nat) : s.tasClear.getSwPort p = (s.getSwPort p).tasReset :=
  State.getSwPort_onPorts (s := s.setSw s.sw.unlaunched) (f := SwPort.tasReset) (fun _ => rfl) rfl p

theorem State.tasClear_rest (s : State) :
    { s.tasClear with sw := { s.tasClear.sw with port := s.sw.port } } = s.setSw s.sw.unlaunched :=
  State.tasClear_eq s ▸ State.onPorts_rest (s.setSw s.sw.unlaunched) ..


theorem State.tasClear_beside (s : State) : { s.tasClear with sw := s.sw } = s :=
  congrArg (fun x : State => { x with sw := s.sw }) s.tasClear_rest

/-! ### Frames that a port flushes (R404) -/

/-- Copies that wait at a port. -/
def State.waitingCopies (s : State) (p : Nat) : Nat :=
  (s.sw.frames.map fun f => (f.copies.filter fun c => decide (c.port = p) && c.start.isNone).length).sum

/-- A port's waiting copies are dropped and counted. -/
def State.flushPort (s : State) (p : Nat) : State := s.dropCopies p true fun _ _ => true

theorem State.flushPort_eq (s : State) (p : Nat) :
    s.flushPort p = (s.setSw { s.sw with frames := s.sw.frames.map fun f =>
      { f with copies := f.copies.filter fun c => !(decide (c.port = p) && c.start.isNone) } }).cntAdd
        .padCntFlush (s.waitingCopies p) p := by
  simp only [State.flushPort, State.dropCopies, Bool.and_true, if_true, State.waitingCopies, List.sum_eq_foldl, List.foldl_map]

theorem State.rget_flushPort (s : State) (p : Nat) (c : RegKey) :
    (s.flushPort p).rget c = if c = ⟨.padCntFlush, p, 0, 0⟩ then min (s.rget c + s.waitingCopies p) 0xFFFFFFFF else s.rget c := by
  rw [State.flushPort_eq, State.cntAdd, State.rget_rset]
  split
  next e => rw [e]; rfl
  next => rfl

/-- The copies that wait at another port stay. -/
theorem State.waitingCopies_flushPort {p q : Nat} (h : q ≠ p) : (s.flushPort p).waitingCopies q = s.waitingCopies q := by
  rw [State.flushPort_eq]
  show (List.map _ (List.map _ s.sw.frames)).sum = (List.map _ s.sw.frames).sum
  rw [List.map_map]
  refine congrArg List.sum (List.map_congr_left fun f _ => ?_)
  simp only [Function.comp, List.filter_filter]
  refine congrArg List.length (List.filter_congr fun c _ => ?_)
  by_cases hq : c.port = q <;> simp [hq, h]

/-- Each port of a list of different ports counts what waited at it. -/
theorem State.rget_flushPorts {l : List Nat} (hl : l.Nodup) (s : State) (p : Nat) :
    (l.foldl State.flushPort s).rget ⟨.padCntFlush, p, 0, 0⟩ =
      if p ∈ l then min (s.rget ⟨.padCntFlush, p, 0, 0⟩ + s.waitingCopies p) 0xFFFFFFFF else s.rget ⟨.padCntFlush, p, 0, 0⟩ := by
  induction l generalizing s with
  | nil => rfl
  | cons a t ih =>
    obtain ⟨hat, ht⟩ := List.nodup_cons.mp hl
    rw [List.foldl_cons, ih ht, State.rget_flushPort]
    by_cases hp : p = a
    · subst hp
      simp [hat]
    · simp [hp, State.waitingCopies_flushPort hp]

theorem State.rget_flushPorts_other (s : State) (l : List Nat) {c : RegKey} (h : c.r ≠ .padCntFlush) :
    (l.foldl State.flushPort s).rget c = s.rget c := by
  refine List.foldlRecOn l _ (motive := fun t : State => t.rget c = s.rget c) rfl fun t ht p _ => ?_
  rw [State.rget_flushPort, if_neg fun e => h (congrArg RegKey.r e), ht]

theorem State.flushPorts_rest (s : State) (l : List Nat) :
    { l.foldl State.flushPort s with
      regs := s.regs, sw := { (l.foldl State.flushPort s).sw with frames := s.sw.frames } } = s :=
  List.foldlRecOn l _ (motive := fun t : State => { t with regs := s.regs, sw := { t.sw with frames := s.sw.frames } } = s) rfl
    fun t h p _ => by rw [State.flushPort_eq]; exact h

/-! ### SWPAD (R404) -/

/-- A port without a frame in reception, a template or a reroute. -/
def SwPort.swpadReset (x : SwPort) : SwPort :=
  { x with rx := none, expUntil := 0, preUntil := 0, holdUntil := none, rerouted := false, tpl := none, sampCnt := 0 }

/-- The frames and the flow control of the switch have gone. -/
def Sw.flushed (x : Sw) : Sw := { x with frames := [], xoff := {}, pause := {} }

/-- What SWPAD does once the waiting copies are counted. -/
def State.swpadEmptied (s : State) : State :=
  (s.setSw s.sw.flushed).onPorts SwPort.swpadReset (s.sw.port.cells.map fun c => c.1)

theorem State.swpadClear_eq (s : State) : s.swpadClear = ((List.range 52).foldl State.flushPort s).swpadEmptied := rfl

theorem State.getSwPort_swpadEmptied (s : State) (p : Nat) : s.swpadEmptied.getSwPort p = (s.getSwPort p).swpadReset :=
  State.getSwPort_onPorts (s := s.setSw s.sw.flushed) (f := SwPort.swpadReset) (fun _ => rfl) rfl p

theorem State.swpadEmptied_rest (s : State) :
    { s.swpadEmptied with sw := { s.swpadEmptied.sw with port := s.sw.port } } = s.setSw s.sw.flushed :=
  State.onPorts_rest (s.setSw s.sw.flushed) SwPort.swpadReset _

theorem State.frames_swpadEmptied (s : State) : s.swpadEmptied.sw.frames = [] :=
  show ({ s.swpadEmptied with sw := { s.swpadEmptied.sw with port := s.sw.port } } : State).sw.frames = [] by
    rw [s.swpadEmptied_rest]; rfl

theorem State.swpadEmptied_beside (s : State) : { s.swpadEmptied with sw := s.sw } = s :=
  congrArg (fun x : State => { x with sw := s.sw }) s.swpadEmptied_rest

theorem State.rget_swpadEmptied (s : State) (c : RegKey) : s.swpadEmptied.rget c = s.rget c :=
  show ({ s.swpadEmptied with sw := s.sw } : State).rget c = s.rget c by rw [s.swpadEmptied_beside]

theorem State.rget_swpadClear_flush (s : State) {p : Nat} (hp : p < 52) :
    s.swpadClear.rget ⟨.padCntFlush, p, 0, 0⟩ = min (s.rget ⟨.padCntFlush, p, 0, 0⟩ + s.waitingCopies p) 0xFFFFFFFF := by
  rw [State.swpadClear_eq, State.rget_swpadEmptied, State.rget_flushPorts List.nodup_range, if_pos (List.mem_range.mpr hp)]

theorem State.rget_swpadClear_other (s : State) {c : RegKey} (h : c.r ≠ .padCntFlush) : s.swpadClear.rget c = s.rget c := by
  rw [State.swpadClear_eq, State.rget_swpadEmptied, State.rget_flushPorts_other _ _ h]

/-- SWPAD reaches nothing but the registers and the switch. -/
theorem State.swpadClear_beside (s : State) : { s.swpadClear with regs := s.regs, sw := s.sw } = s := by
  have h := s.flushPorts_rest (List.range 52)
  rw [State.swpadClear_eq]
  generalize (List.range 52).foldl State.flushPort s = u at h ⊢
  exact (congrArg (fun x : State => { x with regs := s.regs, sw := s.sw }) u.swpadEmptied_beside).trans
    (congrArg (fun x : State => { x with sw := s.sw }) h)

end Switch
end Sys2Proof.Machine
end

section
/-! PROOFS. The CAL block reset, and what every block reset leaves (R33, R257, R265). -/

namespace Sys2Proof.Machine

/-! ### What the end of calibration work leaves alone (R257, R264, R265) -/

/-- The tables in force and tracking terms stay, and so does everything but the registers of CAL, of the mailbox, and those of the
Droveway and DMA that CAL_DONE reaches, the holds of the units, and the work of CAL itself. -/
structure CalFrame (s t : State) : Prop where
  tables : ∀ n, (t.getCalEo n).inForce = (s.getCalEo n).inForce ∧ (t.getCalEo n).trk = (s.getCalEo n).trk
  regs : s.regsWithin t [.cal, .mb, .dw, .dma]
  rest : { t with
    regs := s.regs, cyc := s.cyc, tiu := s.tiu, dw := s.dw, cal := s.cal, msix := s.msix, hostMem := s.hostMem } = s

section Frame
variable {s t u : State}

theorem CalFrame.refl (s : State) : CalFrame s s := ⟨fun _ => ⟨rfl, rfl⟩, fun _ _ => rfl, rfl⟩

theorem CalFrame.foldl {A : Type} {f : State → A → State} {l : List A} (h : CalFrame s t)
    (hf : ∀ st a, CalFrame s st → CalFrame s (f st a)) :
    CalFrame s (l.foldl f t) :=
  List.foldlRecOn l f (motive := fun t => CalFrame s t) h fun _ h a _ => hf _ a h

theorem CalFrame.setCal {c : Cal} (h : CalFrame s t) (hc : c.eo = t.cal.eo) : CalFrame s (t.setCal c) where
  tables n := by
    have e : (t.setCal c).getCalEo n = t.getCalEo n := congrArg (fun m : SMap Nat CalEo => m.get {} n) hc
    rw [e]
    exact h.tables n
  regs := h.regs
  rest := h.rest

theorem State.getCalEo_setCalEo (s : State) (p q : Nat) (c : CalEo) :
    (s.setCalEo p c).getCalEo q = if q = p then c else s.getCalEo q := SMap.get_put ..

theorem CalFrame.setCalEo {n : Nat} {c : CalEo} (h : CalFrame s t) (hi : c.inForce = (t.getCalEo n).inForce)
    (ht : c.trk = (t.getCalEo n).trk) : CalFrame s (t.setCalEo n c) where
  tables q := by
    rw [State.getCalEo_setCalEo]
    split
    next e => rw [e, hi, ht]; exact h.tables n
    next => exact h.tables q
  regs := h.regs
  rest := h.rest

theorem CalFrame.setCalTiu {n : Nat} {x : CalTiu} (h : CalFrame s t) : CalFrame s (t.setCalTiu n x) := ⟨h.tables, h.regs, h.rest⟩

theorem CalFrame.setCalReg {n : Nat} {x : CalReg} (h : CalFrame s t) : CalFrame s (t.setCalReg n x) := ⟨h.tables, h.regs, h.rest⟩

theorem CalFrame.setTiu {n : Nat} {x : Tiu} (h : CalFrame s t) : CalFrame s (t.setTiu n x) := ⟨h.tables, h.regs, h.rest⟩

theorem CalFrame.setDw {d : Dw} (h : CalFrame s t) : CalFrame s (t.setDw d) := ⟨h.tables, h.regs, h.rest⟩

theorem CalFrame.fset {f : Fld} {v i j k : Nat} (h : CalFrame s t) (hf : f.reg.info.blk ∈ [Blk.cal, .mb, .dw, .dma]) :
    CalFrame s (t.fset f v i j k) where
  tables := h.tables
  regs c hc := (State.rget_fset_other t f v i j k c fun e => hc (by rw [e]; exact hf)).trans (h.regs c hc)
  rest := h.rest

theorem CalFrame.hwMark {k : RegKey} {m : Nat} (h : CalFrame s t) : CalFrame s (t.hwMark k m) := ⟨h.tables, h.regs, h.rest⟩

theorem CalFrame.fonBit {f : Fld} {b i j k : Nat} (h : CalFrame s t) (hf : f.reg.info.blk ∈ [Blk.cal, .mb, .dw, .dma]) :
    CalFrame s (t.fonBit f b i j k) := (h.fset hf).hwMark

theorem CalFrame.msixMessage {v : Nat} (h : CalFrame s t) : CalFrame s (t.msixMessage v) := ⟨h.tables, h.regs, h.rest⟩

theorem CalFrame.sendMsix {v : Nat} (h : CalFrame s t) : CalFrame s (t.sendMsix v) := by
  unfold State.sendMsix
  split
  · exact h.fonBit (by decide)
  · exact h.msixMessage

theorem CalFrame.sendVector {prod : Nat} (h : CalFrame s t) : CalFrame s (t.sendVector prod) := by
  unfold State.sendVector
  split
  · exact h.sendMsix
  · exact h

theorem CalFrame.calDone (h : CalFrame s t) : CalFrame s t.calDone := by
  obtain ⟨l, hraise⟩ := t.raiseEv_untagged Prod.calDone t.nowI
  rw [State.calDone, hraise]
  exact h.sendVector.setDw.foldl fun _ _ hst => hst.setDw

theorem CalFrame.calAnswer {q : Requester} {seq code : Nat} (h : CalFrame s t) : CalFrame s (t.calAnswer q seq code) := by
  unfold State.calAnswer
  split
  · exact h.setCal rfl
  · exact h

theorem CalFrame.calWake {w : CalWhat} {code : Nat} (h : CalFrame s t) : CalFrame s (t.calWake w code) := by
  delta State.calWake
  extract_lets hit cal s1
  have h1 : CalFrame s s1 := h.setCal rfl
  exact h1.foldl fun _ _ hst => hst.calAnswer.calDone

theorem CalFrame.calProgress {done total : Nat} (h : CalFrame s t) : CalFrame s (t.calProgress done total) := by
  unfold State.calProgress
  exact ((h.fset (by decide)).fset (by decide)).fset (by decide)

/-! ### Holds (R251) -/

/-- The hold of a channel is released; no other channel changes. -/
theorem State.getCalEo_calRelease (s : State) (p q : Nat) :
    (s.calRelease p).getCalEo q = if q = p then { s.getCalEo q with hold := false } else s.getCalEo q := by
  unfold State.calRelease
  split
  next =>
    refine (State.getCalEo_setCalEo s p q _).trans ?_
    split
    next e => rw [e]
    next => rfl
  next h =>
    split
    next e =>
      rw [Bool.or_eq_true, not_or, Bool.not_eq_true] at h
      rw [e, ← h.1]
    next => rfl

theorem CalFrame.calRelease {n : Nat} (h : CalFrame s t) : CalFrame s (t.calRelease n) := by
  unfold State.calRelease
  split
  · have hset : CalFrame s (t.setCalEo n { t.getCalEo n with hold := false }) := h.setCalEo rfl rfl
    exact hset.setTiu
  · exact h

theorem CalFrame.unitRelease {n : Nat} (h : CalFrame s t) : CalFrame s (t.unitRelease n) := by
  unfold State.unitRelease
  split
  · exact h.calRelease
  · exact h.setTiu

/-! ### The end of a run and of a long operation -/

theorem CalFrame.ite {p : Prop} [Decidable p] (ht : CalFrame s t) (hu : CalFrame s u) : CalFrame s (if p then t else u) := by
  split
  · exact ht
  · exact hu

theorem CalFrame.calHistory {kind idx region code : Nat} (h : CalFrame s t) : CalFrame s (t.calHistory kind idx region code) := h.setCal rfl

theorem CalFrame.itemEnd {eo : Bool} {idx code : Nat} (h : CalFrame s t) : CalFrame s (t.itemEnd eo idx code) := by
  delta State.itemEnd
  extract_lets r chan unit s1 cal s2 s3 x s4 s5
  have hchan : CalFrame s (t.setCalEo idx { chan with code := code }) := h.setCalEo rfl rfl
  have h1 : CalFrame s s1 := .ite hchan.calRelease h.setCalTiu.unitRelease
  have h2 : CalFrame s s2 := h1.setCal rfl
  have h5 : CalFrame s s5 := h2.calHistory.setCalReg.calWake
  exact .ite h5.calProgress h5

/-- A long operation that ends with a failure starts no save of the image. -/
theorem CalFrame.longEnd {code : Nat} (h : CalFrame s t) (hc : code ≠ 0) : CalFrame s (t.longEnd code) := by
  delta State.longEnd
  split
  · exact h
  next l hl =>
    extract_lets cal s1 s2 s3 s4 saves
    have h0 : CalFrame s (t.setCal { cal with long := none }) := h.setCal rfl
    have h1 : CalFrame s s1 := h0.fset (by decide)
    have h2 : CalFrame s s2 := .ite ((h1.fset (by decide)).fset (by decide)) h1
    have h3 : CalFrame s s3 := by
      show CalFrame s (match l.by_ with | some w => s2.calAnswer w.1 w.2 code | none => s2)
      split
      · exact h2.calAnswer
      · exact h2
    rw [if_neg (by simp [hc])]
    exact h3.calDone

theorem CalFrame.setLongNone (h : CalFrame s t) : CalFrame s t.setLongNone := by
  have hcal : CalFrame s (t.setCal { t.cal with long := none }) := h.setCal rfl
  exact hcal.fset (by decide)

/-! ### The reset of CAL (R265) -/

/-- The runs of CAL have ended, ABORTED. -/
def State.calAborted (s : State) : State := s.cal.runs.foldl (fun st r => st.itemEnd r.eo r.idx CalCode.aborted) s

/-- So has a long operation. -/
def State.calLongAborted (s : State) : State :=
  match s.cal.long with
  | some _ => (s.longEnd CalCode.aborted).setLongNone
  | none => s

/-- Nothing of the engine's work is left. -/
def State.calEmptied (s : State) : State :=
  s.setCal { s.cal with
    runs := [], retries := [], waits := [], res := {}
    reg := ⟨s.cal.reg.cells.map fun c => (c.1, { c.2 with pending := false, running := false, rej := 0 })⟩ }

/-- A channel keeps its table in force and tracking term alone, and is not held. -/
def CalEo.settled (c : CalEo) : CalEo :=
  { c with
    hold := false, tab := c.inForce, blend := none, pend := none, pendApply := false, pendTrk := none, pendPin := none
    trkTarget := c.trk, sum := 0, cnt := 0 }

def State.settleEo (s : State) (n : Nat) : State :=
  let c := (s.calRelease n).getCalEo n
  (s.calRelease n).setCalEo n { c with
    tab := c.inForce, blend := none, pend := none, pendApply := false, pendTrk := none, pendPin := none
    trkTarget := c.trk, sum := 0, cnt := 0 }

theorem State.calBlockReset_eq (s : State) :
    s.calBlockReset = (List.range 64).foldl State.settleEo s.calAborted.calLongAborted.calEmptied := rfl

theorem State.getCalEo_settleEo (s : State) (p q : Nat) :
    (s.settleEo p).getCalEo q = if q = p then (s.getCalEo q).settled else s.getCalEo q := by
  refine (State.getCalEo_setCalEo (s.calRelease p) p q _).trans ?_
  split
  next e => rw [e, State.getCalEo_calRelease, if_pos rfl]; rfl
  next e => rw [State.getCalEo_calRelease, if_neg e]

theorem State.hold_calBlockReset (s : State) {n : Nat} (h : n < 64) : (s.calBlockReset.getCalEo n).hold = false := by
  rw [State.calBlockReset_eq, foldl_update (get := State.getCalEo) (f := CalEo.settled) (fun _ => rfl) State.getCalEo_settleEo,
    if_pos (List.mem_range.mpr h)]
  rfl

theorem CalFrame.settleEo {n : Nat} (h : CalFrame s t) : CalFrame s (t.settleEo n) := h.calRelease.setCalEo rfl rfl

theorem CalFrame.calLongAborted (h : CalFrame s t) : CalFrame s t.calLongAborted := by
  unfold State.calLongAborted
  split
  · exact (h.longEnd (by decide)).setLongNone
  · exact h

theorem CalFrame.calBlockReset (s : State) : CalFrame s s.calBlockReset := by
  have hab : CalFrame s s.calAborted := (CalFrame.refl s).foldl fun _ _ hst => hst.itemEnd
  have hempty : CalFrame s s.calAborted.calLongAborted.calEmptied := hab.calLongAborted.setCal rfl
  rw [State.calBlockReset_eq]
  exact hempty.foldl fun _ _ hst => hst.settleEo

/-- No run and no long operation is under way. -/
def State.calIdle (s : State) : Prop := s.cal.runs = [] ∧ s.cal.long = none

theorem State.calRelease_calIdle {n : Nat} (h : s.calIdle) : (s.calRelease n).calIdle := by
  unfold State.calRelease
  split <;> exact h

theorem State.long_calLongAborted (s : State) : s.calLongAborted.cal.long = none := by
  unfold State.calLongAborted
  split
  next => rfl
  next h => exact h

theorem State.calBlockReset_idle (s : State) : s.calBlockReset.calIdle := by
  rw [State.calBlockReset_eq]
  exact List.foldlRecOn _ State.settleEo (motive := State.calIdle) ⟨rfl, s.calAborted.long_calLongAborted⟩
    fun _ h _ _ => State.calRelease_calIdle h

end Frame

/-! ### What each block reset leaves -/

section Blocks
variable {s : State}

theorem swTable_iff (r : Reg) : swTable r = true ↔ r ∈ [Reg.swMac, .swVlan, .swStream] := by
  simp [swTable, or_assoc]

/-- The registers of SW and PAD have returned, but for the tables. -/
def State.swpadRegs (s : State) : State := (s.blkRegs .sw swTable).blkRegs .pad

theorem State.blkSwpad_eq (s : State) : s.blkSwpad = s.swpadRegs.swpadClear := rfl

theorem State.rget_swpadRegs (s : State) (c : RegKey) :
    s.swpadRegs.rget c =
      if (c.r.info.blk = .sw ∨ c.r.info.blk = .pad) ∧ c.r ∉ [Reg.swMac, .swVlan, .swStream] then regReset c else s.rget c := by
  have htab : c.r ∈ [Reg.swMac, .swVlan, .swStream] → c.r.info.blk = .sw := by
    generalize c.r = r
    revert r
    decide +kernel
  rw [State.swpadRegs, State.rget_blkRegs, State.rget_blkRegs]
  by_cases ht : c.r ∈ [Reg.swMac, .swVlan, .swStream]
  · rw [(swTable_iff c.r).mpr ht, htab ht]
    simp [ht]
  · rw [Bool.eq_false_iff.mpr (mt (swTable_iff c.r).mp ht)]
    by_cases hsw : c.r.info.blk = .sw <;> simp [ht, hsw]

theorem State.stageOf_swpadRegs (s : State) (p : Requester) (c : RegKey) :
    s.swpadRegs.stageOf p c = if c.r.info.blk = .sw ∨ c.r.info.blk = .pad then 0 else s.stageOf p c := by
  rw [State.swpadRegs, State.stageOf_blkRegs, State.stageOf_blkRegs]
  by_cases hsw : c.r.info.blk = .sw <;> by_cases hpad : c.r.info.blk = .pad <;> simp [hsw, hpad]

theorem State.dramUnavail_of_mem (h : s.fbit F.glbBlkRst_MEM = true) : s.dramUnavail = true := by
  simp [State.dramUnavail, h]

/-- A port of network time keeps its timestamps and what its lanes have shown. -/
def NtPort.cleared (x : NtPort) : NtPort := { esmcTick := x.esmcTick, ph := x.ph, turn := x.turn, measured := x.measured, tsf := x.tsf }

theorem State.getNtPort_ntClear (s : State) (p : Nat) : s.ntClear.getNtPort p = (s.getNtPort p).cleared :=
  SMap.get_mapVals ({} : NtPort) NtPort.cleared rfl s.nt.port p

theorem State.getDrv_blkDrv (s : State) (d : Nat) : s.blkDrv.getDrv d = (s.getDrv d).memOnly :=
  SMap.get_mapVals ({} : Drover) Drover.memOnly rfl s.drv d

end Blocks

/-- Settles O8: the write starts the reset of one block, and each block by the laws of what it clears. -/
theorem blockResetsClearTheirBlock : Obligations.BlockResetsClearTheirBlock := by
  intro q s hs key on cleared
  have begins (b : Fin 8) := congrArg (Host.Outcome.next (φ := Fault) (ρ := Refusal)) (State.busTo_blkRst hs b)
  have begun (n : Nat) {c : RegKey} (hc : c ≠ key) : (s.blockBegun q.req n).rget c = s.rget c := State.rget_blockBegun_other q.req n hc
  have hon (n : Nat) (b : Blk) (hb : b ≠ .glb) := s.blockBegun_on q.req n b hb
  have hcl (n : Nat) (b : Blk) := s.blockBegun_cleared q.req n b
  refine ⟨⟨(s.blockBegun q.req 7).setGlb { s.glb with dramFault := false }, begins 7, ?mem⟩,
    ⟨(s.blockBegun q.req 5).blkTas, begins 5, ?tas⟩,
    ⟨(s.blockBegun q.req 4).blkNt, begins 4, hon 4 .nt nofun, hcl 4 .nt, rfl, fun p => State.getNtPort_ntClear _ p, rfl⟩,
    ⟨(s.blockBegun q.req 3).blkTal, begins 3, hon 3 .tal nofun, hcl 3 .tal, rfl, rfl⟩,
    ⟨(s.blockBegun q.req 1).blkDrv, begins 1, hon 1 .drv nofun, hcl 1 .drv, fun d => State.getDrv_blkDrv _ d, rfl⟩,
    ⟨(s.blockBegun q.req 0).blkDw, begins 0, hon 0 .dw nofun, hcl 0 .dw, rfl, rfl⟩,
    ⟨(s.blockBegun q.req 6).blkSwpad, begins 6, ?swpad⟩, ⟨(s.blockBegun q.req 2).blkCal, begins 2, ?cal⟩,
    fun b => ⟨fun hb => ⟨_, congrArg Host.Outcome.next (State.blockResetDone_ends hb), ?done⟩,
      fun hb => ⟨_, rfl, State.blockResetDone_idle hb⟩⟩⟩
  case mem =>
    have hmem : (s.blockBegun q.req 7).fbit F.glbBlkRst_MEM = true :=
      (congrArg (bit · 7) (s.rget_blockBegun_self q.req 7)).trans (bit_or_two_pow_same ..)
    exact ⟨⟨s.rget_blockBegun_self q.req 7, rfl⟩, State.dramUnavail_of_mem hmem, rfl, fun c hc => begun 7 hc, rfl⟩
  case tas =>
    have hsw := ((s.blockBegun q.req 5).blkRegs .tas).tasClear_rest
    have hrest := ((s.blockBegun q.req 5).blkRegs .tas).tasClear_beside
    refine ⟨(hon 5 .tas nofun).of_same (congrArg State.regs hrest :) (congrArg State.host hrest :),
      (hcl 5 .tas).of_same (congrArg State.regs hrest :) (congrArg State.staging hrest :),
      (congrArg (fun x : State => x.sw.frames) hsw :), fun p => State.getSwPort_tasClear _ p,
      (congrArg (fun x : State => { x.sw with frames := s.sw.frames }) hsw :), ?_⟩
    exact congrArg (fun x : State => { x with regs := s.regs, staging := s.staging, cyc := s.cyc, host := s.host }) hrest
  case swpad =>
    have hrest := (s.blockBegun q.req 6).swpadRegs.swpadClear_beside
    rw [State.blkSwpad_eq]
    refine ⟨⟨?_, (congrArg State.host hrest :)⟩, State.frames_swpadEmptied _, fun c hk hc => ?_, fun p hp => ?_,
      fun p c => ?_, fun p => ?_, ?_⟩
    · rw [State.rget_swpadClear_other _ (by decide), State.rget_swpadRegs]
      exact s.rget_blockBegun_self q.req 6
    · rw [State.rget_swpadClear_other _ hc, State.rget_swpadRegs, begun 6 hk]
    · rw [State.rget_swpadClear_flush _ hp, State.rget_swpadRegs]
      exact congrArg (min · 0xFFFFFFFF) (Nat.zero_add _)
    · exact (congrArg (fun x : State => x.stageOf p c) hrest :).trans (State.stageOf_swpadRegs ..)
    · rw [State.swpadClear_eq, State.getSwPort_swpadEmptied]
      exact ⟨rfl, rfl, rfl⟩
    · exact congrArg (fun x : State =>
        { x with regs := s.regs, staging := s.staging, cyc := s.cyc, host := s.host, sw := s.sw }) hrest
  case cal =>
    have hframe := CalFrame.calBlockReset (s.blockBegun q.req 2)
    have hidle := (s.blockBegun q.req 2).calBlockReset_idle
    have hhold (n : Nat) (hn : n < 64) := (s.blockBegun q.req 2).hold_calBlockReset hn
    rw [State.blkCal]
    generalize (s.blockBegun q.req 2).calBlockReset = u at hframe hidle hhold ⊢
    have hregs {c : RegKey} (hc : c.r.info.blk ∉ [Blk.cal, .mb, .dw, .dma]) :
        (u.blkRegs .cal calTable).rget c = (s.blockBegun q.req 2).rget c :=
      (State.rget_blkRegs ..).trans ((if_neg fun e => hc (by rw [e.1]; decide)).trans (hframe.regs c hc))
    refine ⟨⟨(hregs (by decide)).trans (s.rget_blockBegun_self q.req 2), (congrArg State.host hframe.rest :)⟩, hidle.1, hidle.2,
      fun n hn => ⟨(hframe.tables n).1, (hframe.tables n).2, hhold n hn⟩, fun c hb heo htiu => ?_,
      fun c hb hc => (hregs hb).trans (begun 2 hc), (congrArg State.time hframe.rest :), (congrArg State.eo hframe.rest :),
      (congrArg State.drv hframe.rest :), (congrArg State.sw hframe.rest :), (congrArg State.dram hframe.rest :),
      (congrArg State.flash hframe.rest :)⟩
    exact (State.rget_blkRegs ..).trans (if_pos ⟨hb, by simp [calTable, heo, htiu]⟩)
  case done =>
    exact ⟨(congrArg (bit · b.val) (State.rget_rset_same ..)).trans (bit_sub_two_pow_self hb),
      fun j hj => (congrArg (bit · j) (State.rget_rset_same ..)).trans (bit_sub_two_pow_other hb hj),
      fun c hc => State.rget_rset_other _ _ _ _ hc, rfl⟩

end Sys2Proof.Machine
end

section
/-! PROOFS. What the work of a tick leaves of the clock (R52 to R56). -/

namespace Sys2Proof.Machine

/-! ### The clock -/

/-- What tells the time: the tick, device time and its source, the faults reported, and what Drovers have sent out for coming ticks. -/
structure Clock where
  tickNo : Nat
  time : TimeSt
  tsyn : TsynSt
  reports : List FaultRep
  outs : Nat → List (Nat × DrvOut)

def State.clock (s : State) : Clock := ⟨s.tickNo, s.time, s.tsyn, s.flt.reports, fun d => (s.getDrv d).outs⟩

theorem State.time_of_clock {s : State} {c : Clock} (h : s.clock = c) : s.time = c.time := congrArg Clock.time h

theorem State.tickNo_of_clock {s : State} {c : Clock} (h : s.clock = c) : s.tickNo = c.tickNo := congrArg Clock.tickNo h

section Clock
variable (s : State)

@[simp] theorem State.rset_clock (k : RegKey) (v : Nat) : (s.rset k v).clock = s.clock := (rfl)
@[simp] theorem State.fset_clock (f : Fld) (v i j k : Nat) : (s.fset f v i j k).clock = s.clock := (rfl)
@[simp] theorem State.fon_clock (f : Fld) (i j k : Nat) : (s.fon f i j k).clock = s.clock := (rfl)
@[simp] theorem State.hwMark_clock (k : RegKey) (m : Nat) : (s.hwMark k m).clock = s.clock := (rfl)
@[simp] theorem State.cntAdd_clock (r : Reg) (n i : Nat) : (s.cntAdd r n i).clock = s.clock := (rfl)
@[simp] theorem State.cnt_clock (r : Reg) (i : Nat) : (s.cnt r i).clock = s.clock := (rfl)
@[simp] theorem State.cnt64_clock (r : Reg) (n i : Nat) : (s.cnt64 r n i).clock = s.clock := (rfl)
@[simp] theorem State.setEo_clock (n : Nat) (x : Eo) : (s.setEo n x).clock = s.clock := (rfl)
@[simp] theorem State.setTiu_clock (n : Nat) (x : Tiu) : (s.setTiu n x).clock = s.clock := (rfl)
@[simp] theorem State.setTal_clock (x : Tally) : (s.setTal x).clock = s.clock := (rfl)
@[simp] theorem State.setDw_clock (x : Dw) : (s.setDw x).clock = s.clock := (rfl)
@[simp] theorem State.setBbr_clock (x : BbrSt) : (s.setBbr x).clock = s.clock := (rfl)
@[simp] theorem State.setCal_clock (x : Cal) : (s.setCal x).clock = s.clock := (rfl)
@[simp] theorem State.setCalEo_clock (n : Nat) (x : CalEo) : (s.setCalEo n x).clock = s.clock := (rfl)
@[simp] theorem State.setCalReg_clock (n : Nat) (x : CalReg) : (s.setCalReg n x).clock = s.clock := (rfl)

theorem foldl_clock {A : Type} {f : State → A → State} (hf : ∀ s a, (f s a).clock = s.clock) (l : List A) :
    (l.foldl f s).clock = s.clock :=
  List.foldlRecOn l f (motive := fun t => t.clock = s.clock) rfl fun t h a _ => (hf t a).trans h

@[simp] theorem State.fonIf_clock (c : Bool) (f : Fld) (i j k : Nat) : (s.fonIf c f i j k).clock = s.clock := by
  unfold State.fonIf
  split <;> rfl

/-! ### Events -/

@[simp] theorem State.deliver_clock (x : Nat) (evs : List Stamp) (due : Nat) : (s.deliver x evs due).clock = s.clock := (rfl)

@[simp] theorem State.loopIn_clock (prod c : Nat) : (s.loopIn prod c).clock = s.clock := by
  unfold State.loopIn
  dsimp only
  split <;> rfl

@[simp] theorem State.fonBit_clock (f : Fld) (b i j k : Nat) : (s.fonBit f b i j k).clock = s.clock := (rfl)

@[simp] theorem State.msixMessage_clock (v : Nat) : (s.msixMessage v).clock = s.clock := (rfl)

@[simp] theorem State.sendVector_clock (prod : Nat) : (s.sendVector prod).clock = s.clock := by
  unfold State.sendVector State.sendMsix
  split
  · split
    · exact s.fonBit_clock ..
    · exact s.msixMessage_clock _
  · rfl

@[simp] theorem State.raiseNow_clock (prod : Nat) (ts : Instant) (tag : Nat) : (s.raiseNow prod ts tag).clock = s.clock := by
  unfold State.raiseNow
  split
  · exact foldl_clock _ (fun st c => st.loopIn_clock prod c) _
  · exact (foldl_clock _ (fun st x => st.deliver_clock x _ _) _).trans (s.sendVector_clock prod)

@[simp] theorem State.raiseEv_clock (prod : Nat) (ts : Instant) (tag delay : Nat) : (s.raiseEv prod ts tag delay).clock = s.clock := by
  unfold State.raiseEv
  split
  · exact s.raiseNow_clock ..
  · rfl

@[simp] theorem State.raiseIf_clock (c : Bool) (prod : Nat) (ts : Instant) (tag delay : Nat) :
    (s.raiseIf c prod ts tag delay).clock = s.clock := by
  unfold State.raiseIf
  split
  · exact s.raiseEv_clock ..
  · rfl

/-! ### Edge outputs -/

@[simp] theorem State.calRelease_clock (n : Nat) : (s.calRelease n).clock = s.clock := by
  unfold State.calRelease
  split <;> rfl

@[simp] theorem State.engPut_clock (ch act k : Nat) (t : Instant) (lvl : Bool) (tag : Nat) (late : Bool) :
    (s.engPut ch act k t lvl tag late).clock = s.clock := by
  unfold State.engPut
  dsimp only
  split
  · simp
  · rfl

@[simp] theorem State.engOutputs_clock (n : Nat) (e : Engine) (o0 o1 : Bool × Bool × Bool) (t : Instant) (late : Bool) (out : Nat → Bool) :
    (s.engOutputs n e o0 o1 t late out).clock = s.clock := by
  unfold State.engOutputs
  dsimp only
  split_ifs <;> simp

@[simp] theorem State.engCross_clock (n : Nat) (e e1 : Engine) (out : Nat → Bool) : (s.engCross n e e1 out).clock = s.clock := by
  unfold State.engCross
  dsimp only
  split
  · rfl
  · simp

theorem State.engReplay_clock (n : Nat) (out : Nat → Bool) (upto fuel : Nat) (e : Engine) :
    (s.engReplay n out upto fuel e).clock = s.clock := by
  induction fuel generalizing s e with
  | zero => rfl
  | succ fuel ih =>
    rw [State.engReplay]
    dsimp only
    split
    · rfl
    · rw [ih, State.engCross_clock]

@[simp] theorem State.engAgain_clock (n : Nat) (out : Nat → Bool) (k : Track) : (s.engAgain n out k).clock = s.clock := by
  unfold State.engAgain
  exact (State.engReplay_clock ..).trans (State.engOutputs_clock ..)

@[simp] theorem State.eoLeave_clock (n : Nat) (p : QAct → Bool) : (s.eoLeave n p).clock = s.clock := by
  unfold State.eoLeave
  dsimp only
  split
  · rfl
  · simp

@[simp] theorem State.eoSettle_clock (n : Nat) : (s.eoSettle n).clock = s.clock := s.eoLeave_clock ..

@[simp] theorem State.engEnd_clock (n id : Nat) : (s.engEnd n id).clock = s.clock := by
  simp [State.engEnd]

@[simp] theorem State.engTick_clock (n : Nat) : (s.engTick n).clock = s.clock := by
  unfold State.engTick
  dsimp only
  split
  · rfl
  · split_ifs <;> simp

/-! ### A forward step (R56, R82, R152, R392, R397) -/

@[simp] theorem State.skipOne_clock (n : Nat) (ts : Instant) (tag : Nat) : (s.skipOne n ts tag).clock = s.clock := by
  simp [State.skipOne]

@[simp] theorem State.eoLate_clock (n : Nat) (ts : Instant) (tag : Nat) : (s.eoLate n ts tag).clock = s.clock := by
  simp [State.eoLate]

@[simp] theorem State.skipFlow_clock (n : Nat) : (s.skipFlow n).clock = s.clock := by
  unfold State.skipFlow
  dsimp only
  rw [foldl_clock _ fun st t => st.skipOne_clock n _ _, foldl_clock _ fun st t => st.skipOne_clock n _ _, State.setEo_clock]

@[simp] theorem State.skipPulses_clock (fuel n id : Nat) : (s.skipPulses fuel n id).clock = s.clock := by
  induction fuel generalizing s with
  | zero => rfl
  | succ fuel ih =>
    rw [State.skipPulses]
    dsimp only
    split
    · rfl
    · split
      · rfl
      · split_ifs <;> simp [ih]

@[simp] theorem State.skipQueued_clock (n : Nat) (a : QAct) : (s.skipQueued n a).clock = s.clock := by
  unfold State.skipQueued
  dsimp only
  split_ifs <;> simp

@[simp] theorem State.engForward_clock (n : Nat) : (s.engForward n).clock = s.clock := by
  unfold State.engForward
  dsimp only
  split
  · rfl
  · split_ifs
    · rfl
    · rw [foldl_clock _ fun st _ => st.engTick_clock n, State.setEo_clock, State.engOutputs_clock]
      exact foldl_clock _ (fun st m => st.setEo_clock m _) _
    · rw [foldl_clock _ fun st j => st.engAgain_clock n _ j, State.engReplay_clock, State.engOutputs_clock]
      exact foldl_clock _ (fun st m => st.setEo_clock m _) _

@[simp] theorem State.eoRejudge_clock (n : Nat) : (s.eoRejudge n).clock = s.clock := (rfl)

@[simp] theorem State.eoForward_clock (n : Nat) : (s.eoForward n).clock = s.clock := by
  unfold State.eoForward
  dsimp only
  rw [State.eoSettle_clock, State.eoRejudge_clock, foldl_clock _ fun st a => st.skipQueued_clock n a,
    foldl_clock _ fun st a => st.skipPulses_clock _ n _, State.skipFlow_clock, State.engForward_clock]

@[simp] theorem State.tmrMove_clock (i k : Nat) : (s.tmrMove i k).clock = s.clock := by
  unfold State.tmrMove
  dsimp only
  split <;> rfl

@[simp] theorem State.tmrStep_clock (i : Nat) : (s.tmrStep i).clock = s.clock := by
  unfold State.tmrStep
  dsimp only
  split
  · rw [State.tmrMove_clock, State.fon_clock]
  · rfl

/-- A change of every cell that keeps its key and a part of its value keeps that part at every key. -/
theorem lookupCell_map_part {K V P : Type} [DecidableEq K] {part : V → P} {f : K × V → K × V} (hk : ∀ c, (f c).1 = c.1)
    (hp : ∀ c, part (f c).2 = part c.2) (k : K) (l : List (K × V)) :
    (lookupCell k (l.map f)).map part = (lookupCell k l).map part := by
  induction l with
  | nil => rfl
  | cons c t ih =>
    rw [List.map_cons, lookupCell, lookupCell, hk]
    split
    · simp [hp]
    · exact ih

/-- A change of every Drover that keeps what it has sent out. -/
theorem State.mapDrv_clock {f : Nat × Drover → Nat × Drover} (hk : ∀ c, (f c).1 = c.1) (ho : ∀ c, (f c).2.outs = c.2.outs) :
    State.clock { s with drv := ⟨s.drv.cells.map f⟩ } = s.clock := by
  refine congrArg (Clock.mk _ _ _ _) (funext fun d => ?_)
  have h := congrArg (fun o => o.getD []) (lookupCell_map_part (part := Drover.outs) hk ho d s.drv.cells)
  have part (o : Option Drover) : (o.map Drover.outs).getD [] = (o.getD {}).outs := Option.getD_map Drover.outs {} o
  rwa [part, part] at h

@[simp] theorem State.waitsPassed_clock (w : Int) : (s.waitsPassed w).clock = s.clock := s.mapDrv_clock (fun _ => rfl) fun _ => rfl

@[simp] theorem State.timedLate_clock (p : Nat) (f : PFrame) : (s.timedLate p f).clock = s.clock := by
  unfold State.timedLate
  dsimp only
  split_ifs <;> rfl

@[simp] theorem State.timedSkipped_clock (was : Instant) : (s.timedSkipped was).clock = s.clock := by
  unfold State.timedSkipped
  refine foldl_clock _ (fun st f => foldl_clock _ (fun st c => ?_) _) _
  split
  · rfl
  · split
    · split
      · exact st.timedLate_clock ..
      · rfl
    · rfl

@[simp] theorem State.gatesFollow_clock : s.gatesFollow.clock = s.clock := by
  unfold State.gatesFollow
  refine foldl_clock _ (fun st p => ?_) _
  split <;> rfl

/-- A step counts in STEP_SEQ and marks its tick; all else it does leaves the clock alone. -/
theorem State.stepped_clock (w span : Int) :
    (s.stepped w span).clock = { s.clock with time := { s.time with
      stepSeq := (s.time.stepSeq + 1) % 16, stepTick := some s.tickNo, xoPh := (((s.time.xoPh : Int) + w) % 10).toNat } } := by
  delta State.stepped
  extract_lets t s1 sp s2 s3 s4 a s5
  have h3 : s3.clock = s1.clock := by simp [s3, s2]
  have h4 : s4.clock = s1.clock := h3
  have h5 : s5.clock = s4.clock := by
    show (if 0 < w then _ else s4).clock = _
    split
    · simp [foldl_clock, a]
    · rfl
  rw [State.gatesFollow_clock, h5, h4]
  rfl

@[simp] theorem State.bwStepped_clock (span : Int) : (s.bwStepped span).clock = s.clock := by
  unfold State.bwStepped
  refine foldl_clock _ (fun st r => ?_) _
  dsimp only
  split <;> rfl

end Clock
end Sys2Proof.Machine
end

section
/-! PROOFS. The time step of a tick (R53, R55, R273 to R275, R290). -/

namespace Sys2Proof.Machine

theorem addSpan_saturates (t : Instant) (d : Int) :
    (addSpan t d).2 = true ↔ (t : Int) + 4 * d < 0 ∨ ((2 ^ 48 * lsbPerSec : Nat) : Int) ≤ (t : Int) + 4 * d := by
  have hend : (instantMax : Int) = ((2 ^ 48 * lsbPerSec : Nat) : Int) - 1 := by decide
  unfold addSpan
  dsimp only
  split_ifs with hneg hbig
  · simp [hneg]
  · simp only [true_iff]
    omega
  · simp only [false_iff]
    omega

/-- The request picked has waited since an earlier tick. -/
theorem stepPick_some {now : Nat} {r : StepReq} {l : List StepReq} (h : stepPick now l = some r) : r.tick < now ∧ r ∈ l := by
  induction l generalizing r with
  | nil => cases h
  | cons x t ih =>
    rw [stepPick] at h
    split at h
    next =>
      split at h
      next hx => cases h; exact ⟨hx, List.mem_cons_self⟩
      next => cases h
    next p hp =>
      obtain ⟨hlt, hmem⟩ := ih hp
      split at h
      next => cases h; exact ⟨hlt, List.mem_cons_of_mem _ hmem⟩
      next hx => cases h; exact ⟨by omega, List.mem_cons_self⟩

section Step
variable {s t u : State} {r : StepReq}

/-- A request no longer waits. -/
def State.requestTaken (s : State) (r : StepReq) : State := s.setTime { s.time with reqs := dropFirst r s.time.reqs }

/-- Device time has moved by `w` ns, and `phi` is left to the oscillator. -/
structure Moved (s t : State) (w phi : Int) : Prop where
  tickNo : t.tickNo = s.tickNo
  now : t.time.now = ((s.time.now : Int) + w).toNat
  valid : t.time.valid = true
  seq : t.time.stepSeq = (s.time.stepSeq + 1) % 16
  tick : t.time.stepTick = some s.tickNo
  reqs : t.time.reqs = s.time.reqs
  subNs : t.time.subNs = s.time.subNs + phi

theorem Moved.of_clock {w phi : Int} (h : Moved s t w phi) (hc : u.clock = t.clock) : Moved s u w phi := by
  have htime := State.time_of_clock hc
  exact ⟨(State.tickNo_of_clock hc).trans h.tickNo, htime ▸ h.now, htime ▸ h.valid, htime ▸ h.seq, htime ▸ h.tick, htime ▸ h.reqs, htime ▸ h.subNs⟩

/-- Both counters load one value, whatever it is. -/
theorem State.moveTime_loads (s : State) (w phi : Int) : ∃ p c, s.moveTime w phi = s.setTime { s.time with
    a := c, b := c, pa := p, pb := p, reloadA := false, reloadB := false, now := ((s.time.now : Int) + w).toNat, valid := true
    subNs := s.time.subNs + phi } := ⟨_, _, rfl⟩

theorem State.stepped_moved (s : State) (w phi span : Int) : Moved s ((s.moveTime w phi).stepped w span) w phi := by
  obtain ⟨p, c, hload⟩ := s.moveTime_loads w phi
  rw [hload]
  have hc := State.stepped_clock (s.setTime { s.time with
    a := c, b := c, pa := p, pb := p, reloadA := false, reloadB := false, now := ((s.time.now : Int) + w).toNat, valid := true
    subNs := s.time.subNs + phi }) w span
  refine ⟨State.tickNo_of_clock hc, ?_, ?_, ?_, ?_, ?_, ?_⟩ <;> rw [State.time_of_clock hc] <;> rfl

theorem State.stepApply_nothing (h : r.ask = .by_ 0 ∨ r.ask = .to_ (s.time.now * lsbPerNs)) : s.stepApply r = s.requestTaken r := by
  unfold State.stepApply
  rcases h with h | h <;> rw [h]
  · exact if_pos rfl
  · exact if_pos (sub_eq_zero.mpr (Int.natCast_mul s.time.now 262144))

theorem State.stepApply_saturates {d : Int} (h : r.ask = .by_ d) (hd : d ≠ 0) (hs : (addSpan s.nowI d).2 = true) :
    s.stepApply r = (s.requestTaken r).fon F.tbStat_STEP_SAT := by
  unfold State.stepApply
  rw [h]
  exact (if_neg hd).trans (if_pos hs)

theorem State.stepApply_span {d : Int} (h : r.ask = .by_ d) (hd : d ≠ 0) (hs : (addSpan s.nowI d).2 = false) :
    Moved (s.requestTaken r) (s.stepApply r) (stepWhole d) (d - 65536 * stepWhole d) := by
  have hstep := (s.requestTaken r).stepped_moved (stepWhole d) (d - 65536 * stepWhole d) d
  have happly : s.stepApply r = if r.src = .bw then
      (((s.requestTaken r).moveTime (stepWhole d) (d - 65536 * stepWhole d)).stepped (stepWhole d) d).bwStepped d
      else ((s.requestTaken r).moveTime (stepWhole d) (d - 65536 * stepWhole d)).stepped (stepWhole d) d := by
    unfold State.stepApply
    rw [h]
    exact (if_neg hd).trans (if_neg fun e => Bool.false_ne_true (hs.symm.trans e))
  rw [happly]
  split
  · exact hstep.of_clock (State.bwStepped_clock ..)
  · exact hstep

theorem State.stepApply_set {v : Instant} (h : r.ask = .to_ v) (hv : v ≠ s.time.now * lsbPerNs) :
    ∃ phi, Moved (s.requestTaken r) (s.stepApply r) (((v : Int) - (s.time.now : Int) * 262144 + 131072) / 262144) phi := by
  have hd : (v : Int) - (s.time.now : Int) * 262144 ≠ 0 := fun e =>
    hv (Int.ofNat_inj.mp ((sub_eq_zero.mp e).trans (Int.natCast_mul s.time.now 262144).symm))
  have happly : ∃ phi span, s.stepApply r = ((s.requestTaken r).moveTime
      (((v : Int) - (s.time.now : Int) * 262144 + 131072) / 262144) phi).stepped
      (((v : Int) - (s.time.now : Int) * 262144 + 131072) / 262144) span := by
    unfold State.stepApply
    rw [h]
    exact ⟨_, _, if_neg hd⟩
  obtain ⟨phi, span, happly⟩ := happly
  exact ⟨phi, happly ▸ (s.requestTaken r).stepped_moved _ phi span⟩

theorem State.stepDue_eq (hrun : s.time.run = true) (ht : s.time.stepTick ≠ some s.tickNo) :
    s.stepDue = stepPick s.tickNo s.time.reqs := if_neg (by simp [hrun, ht])

theorem State.timeStepApply_none (h : s.stepDue = none) : s.timeStepApply = s := by
  rw [State.timeStepApply, h]

/-- Beside the Droveway, to which TB_SEC goes, the tick's step is its request's. -/
theorem State.timeStepApply_rest (h : s.stepDue = some r) : (s.stepApply r).sameBesideDw s.timeStepApply := by
  rw [State.timeStepApply, h]
  dsimp only
  split
  · exact (s.stepApply r).secTick_effect.2.2
  · rfl

theorem State.timeStepApply_time (h : s.stepDue = some r) : s.timeStepApply.time = (s.stepApply r).time :=
  (congrArg State.time (State.timeStepApply_rest h) :)

/-- With one step a tick, none is due after one that moved device time: TB_SEC follows it. -/
theorem State.timeStepApply_moved {w phi : Int} (h : s.stepDue = some r) (hm : Moved (s.requestTaken r) (s.stepApply r) w phi) :
    s.timeStepApply = (s.stepApply r).secTick := by
  have hdone : (s.stepApply r).stepDue = none := if_pos (.inr (hm.tick.trans (congrArg some hm.tickNo.symm)))
  rw [State.timeStepApply, h]
  exact if_pos (by rw [hdone]; rfl)

theorem State.timeStepApply_raises {w phi : Int} (h : s.stepDue = some r) (hm : Moved (s.requestTaken r) (s.stepApply r) w phi)
    (hsec : s.timeStepApply.time.now % 1000000000 = 0) :
    s.timeStepApply.raises Prod.tbSec (ofNs s.timeStepApply.time.now) 0 s.tickNo := by
  have hnow := congrArg TimeSt.now (State.timeStepApply_time h)
  rw [hnow] at hsec ⊢
  have hraises := (s.stepApply r).secTick_effect.1 hsec
  rwa [← State.timeStepApply_moved h hm, hm.tickNo] at hraises

end Step

/-- Settles O12: the request's step by what it asks (`stepApply_nothing` to `stepApply_set`), then TB_SEC. -/
theorem timeStepApplies : Obligations.TimeStepApplies := by
  intro r s hrun sec
  refine ⟨fun htick hpick => ?_, fun h => ⟨_, rfl, State.timeStepApply_none ?_⟩, fun x _ hpick => stepPick_some hpick⟩
  · have hdue : s.stepDue = some r := (State.stepDue_eq hrun htick).trans hpick
    have htime := State.timeStepApply_time hdue
    refine ⟨fun d hask hd hout => ⟨_, rfl, ?_⟩, fun hask => ⟨_, rfl, ?_⟩, fun d hask hd hlo hhi => ⟨_, rfl, ?_⟩,
      fun v hask hv => ⟨_, rfl, ?_⟩⟩
    · have hrest := State.timeStepApply_rest hdue
      have happly := State.stepApply_saturates hask hd ((addSpan_saturates s.nowI d).mpr hout)
      rw [happly] at htime hrest
      refine ⟨?_, htime⟩
      have hsat := congrArg (fun t : State => t.fbit F.tbStat_STEP_SAT) hrest
      exact hsat.trans (State.fbit_fon_same (s.requestTaken r) F.tbStat_STEP_SAT 0 0 0 rfl)
    · exact htime.trans (congrArg State.time (State.stepApply_nothing hask))
    · have hin : (addSpan s.nowI d).2 = false := by
        rw [Bool.eq_false_iff, Ne, addSpan_saturates]
        exact fun h => h.elim (not_lt.mpr hlo) (not_le.mpr hhi)
      have hm := State.stepApply_span hask hd hin
      have hsec : sec s.timeStepApply := State.timeStepApply_raises hdue hm
      dsimp only
      rw [htime]
      exact ⟨hm.now, hm.valid, hm.seq, hm.tick, hm.reqs, hm.subNs, hsec⟩
    · obtain ⟨phi, hm⟩ := State.stepApply_set hask hv
      have hsec : sec s.timeStepApply := State.timeStepApply_raises hdue hm
      rw [htime]
      exact ⟨hm.now, hm.valid, hm.seq, hm.reqs, hsec⟩
  · rcases h with h | h
    · exact if_pos (.inr h)
    · by_cases ht : s.time.stepTick = some s.tickNo
      · exact if_pos (.inr ht)
      · exact (State.stepDue_eq hrun ht).trans h

end Sys2Proof.Machine
end

section
/-! PROOFS. Commits of registers of several words, and of those that step and steer (R36, R43, R49, R272, R275). -/

namespace Sys2Proof.Machine

/-! ### A write of a whole register of several words (R25, R49) -/

theorem wordOf_lt (v w : Nat) : wordOf v w < 2 ^ 32 :=
  (bits_lt ..).trans_le (Nat.pow_le_pow_right (by decide) (by omega))

/-- A word put in above words that agree with a value makes one more word agree. -/
theorem putWord_wordOf_agree {x v w : Nat} (h : x % 2 ^ (32 * w) = v % 2 ^ (32 * w)) :
    putWord x w (wordOf v w) % 2 ^ (32 * (w + 1)) = v % 2 ^ (32 * (w + 1)) := by
  have hlen : 32 * w + 31 + 1 - 32 * w = 32 := by omega
  have hend : 32 * w + 31 + 1 = 32 * (w + 1) := by omega
  have hpow : 2 ^ (32 * (w + 1)) = 2 ^ (32 * w) * 2 ^ 32 := by rw [← pow_add]; rfl
  have hlow : wordOf v w * 2 ^ (32 * w) + x % 2 ^ (32 * w) = v % 2 ^ (32 * (w + 1)) := by
    rw [h, wordOf, bits, hlen, hpow, Nat.mod_mul, Nat.mul_comm, Nat.add_comm]
  rw [putWord, setBits, hlen, hend, Nat.mod_eq_of_lt (wordOf_lt v w), Nat.add_assoc, hlow, Nat.mul_add_mod', Nat.mod_mod]

section Words
variable {s : State} {q : Requester} {key : RegKey} {v : Nat}

/-- Each word of a register of several words lies at its address. -/
def RegKey.mapped (k : RegKey) : Prop :=
  ∀ w < k.r.info.words, regAt (addrOf k w / 4 * 4) = some (k, w) ∧ blkOf (addrOf k w) = some k.r.info.blk

/-- Requesters have staged words of registers and written registers; nothing of it is committed yet. -/
def State.staged (s : State) (m : SMap ReqKey Nat) (c : Cyc) : State := { s with staging := m, cyc := c }

theorem State.busWrite_word {w : Nat} (hs : s.readable q key.r = true) (hm : key.mapped) (hw : w < key.r.info.words) :
    s.busWrite q (addrOf key w) (wordOf v w) = s.wordWrite q key w (wordOf v w) := by
  simp only [State.readable, Bool.and_eq_true, Bool.not_eq_true'] at hs
  refine (State.busWriteBe_register hs.1 (hm w hw).2 hs.2 (hm w hw).1).trans ?_
  rw [Nat.mod_eq_of_lt (wordOf_lt v w)]

theorem State.wordWrite_stages {w x : Nat} (hw : w + 1 < key.r.info.words) :
    s.wordWrite q key w x = s.stageSet q key (putWord (s.stageOf q key) w x) := by
  rw [State.wordWrite]
  simp only [show key.r.info.words ≠ 1 by omega, hw, if_false, if_true]

theorem State.wordWrite_commits {w x : Nat} (hq : key.r ≠ .eoQe) (ht : key.r ≠ .eoTe) (hmany : 1 < key.r.info.words)
    (hw : w + 1 = key.r.info.words) : s.wordWrite q key w x = s.commitOf q key (putWord (s.stageOf q key) w x) := by
  rw [State.wordWrite]
  simp only [hmany.ne', hw, lt_irrefl, hq, ht, or_self, if_false]

/-- The words before the last are staged; the last commits them together. -/
theorem State.busWords_commit {n w : Nat} (hs : s.readable q key.r = true) (hm : key.mapped) (hq : key.r ≠ .eoQe) (ht : key.r ≠ .eoTe)
    (hmany : 1 < key.r.info.words) (hn : w + (n + 1) = key.r.info.words)
    (hag : s.stageOf q key % 2 ^ (32 * w) = v % 2 ^ (32 * w)) :
    ∃ m x, State.busWords q key v (n + 1) w s = (s.staged m s.cyc).commitOf q key x ∧
      x % 2 ^ (32 * key.r.info.words) = v % 2 ^ (32 * key.r.info.words) := by
  induction n generalizing s w with
  | zero =>
    rw [State.busWords, State.busWrite_word hs hm (by omega)]
    exact ⟨s.staging, _, State.wordWrite_commits hq ht hmany hn, hn ▸ putWord_wordOf_agree hag⟩
  | succ n ih =>
    rw [State.busWords, State.busWrite_word hs hm (by omega), State.wordWrite_stages (by omega)]
    have hread : (s.stageSet q key (putWord (s.stageOf q key) w (wordOf v w))).stageOf q key % 2 ^ (32 * (w + 1)) =
        v % 2 ^ (32 * (w + 1)) := (congrArg (· % 2 ^ (32 * (w + 1))) (SMap.get_put_same ..)).trans (putWord_wordOf_agree hag)
    exact ih hs (by omega) hread

/-- A write of a whole register commits the value written, or one that differs in bits above it. -/
theorem State.busCommit_commits {r : Reg} (hs : s.readable q r = true) (hm : RegKey.mapped ⟨r, 0, 0, 0⟩) (hq : r ≠ .eoQe) (ht : r ≠ .eoTe)
    (hmany : 1 < r.info.words) :
    ∃ m x, s.busCommit q r 0 v = (s.staged m s.cyc).commitOf q ⟨r, 0, 0, 0⟩ x ∧ x % 2 ^ (32 * r.info.words) = v % 2 ^ (32 * r.info.words) := by
  have hcommit := State.busWords_commit (key := ⟨r, 0, 0, 0⟩) (v := v) (n := r.info.words - 1) (w := 0) hs hm hq ht hmany (by dsimp only; omega)
    (by rw [Nat.mul_zero, pow_zero, Nat.mod_one, Nat.mod_one])
  rwa [Nat.sub_add_cancel hmany.le] at hcommit

/-- A register whose write asks for something keeps every requester's write. -/
theorem State.commitOf_asks (ha : key.r.asks = true) : s.commitOf q key v = (s.wroteBy q key).commit q key v := by
  simp [State.commitOf, State.outranked, ha]

theorem State.commitOf_first (h : s.outranksAny q key.r = false) : s.commitOf q key v = (s.wroteBy q key).commit q key v := by
  simp [State.commitOf, State.outranked_of_outranksAny h]

end Words

/-! ### Commits of TB_STEP, TB_SET and TB_NCO_SW (R43, R272, R275) -/

section Commits
variable {s : State} {q : Requester} {w : Nat}

theorem s64Of_toInt {v : BitVec 64} (h : w % 2 ^ 64 = v.toNat) : s64Of w = v.toInt := by
  rw [s64Of, h, BitVec.toInt_eq_toNat_cond]
  split_ifs <;> omega

theorem unpackT96_canonical (hw : w < 2 ^ 96) (h : t96Ns w < 1000000000) :
    unpackT96 w = some (w / 2 ^ 48 * lsbPerSec + w % 2 ^ 48) := by
  have hsec : w / 2 ^ 48 % 2 ^ 48 = w / 2 ^ 48 := by omega
  have hfrac : w / 2 ^ 18 % 2 ^ 30 * 2 ^ 18 + w % 2 ^ 18 = w % 2 ^ 48 := by omega
  refine (if_pos h).trans (congrArg some ?_)
  rw [Nat.add_assoc, hsec]
  exact congrArg _ hfrac

theorem clampY48_fst (y : Int) : (clampY48 y).1 = max (-500000000000) (min y 500000000000) := by
  unfold clampY48 y48Max
  split_ifs <;> dsimp only <;> omega

theorem clampY48_snd {y : Int} (h : (clampY48 y).1 ≠ y) : (clampY48 y).2 = true := by
  unfold clampY48 at h ⊢
  split_ifs at h ⊢
  · rfl
  · rfl
  · exact absurd rfl h

theorem y48Of_bitsOf {y : Int} (hlo : -500000000000 ≤ y) (hhi : y ≤ 500000000000) : y48Of (bitsOf 48 y) = y := by
  have hnat : ((bitsOf 48 y : Nat) : Int) = y % 2 ^ 48 := Int.toNat_of_nonneg (Int.emod_nonneg _ (by decide))
  unfold y48Of signedOf
  split_ifs <;> omega

theorem y48Of_congr {x : Nat} (h : w % 2 ^ 64 = x) : y48Of w = y48Of x := by
  have hlow : w % 2 ^ 48 = x % 2 ^ 48 := by omega
  rw [y48Of, y48Of, signedOf, signedOf, hlow]

theorem State.tbStepCommit_disabled (h : s.fbit F.tbCtl_SWSTEP_EN = false) : s.tbStepCommit q w = s.fon F.tbStat_WR_ERR :=
  if_pos (by rw [h]; rfl)

/-- The value committed stands in TB_STEP. -/
def State.tbStepSet (s : State) (w : Nat) : State := s.rset ⟨.tbStep, 0, 0, 0⟩ (w % 2 ^ 64)

theorem State.tbStepCommit_saturates (hen : s.fbit F.tbCtl_SWSTEP_EN = true) (hs : (addSpan s.nowI (s64Of w)).2 = true) :
    s.tbStepCommit q w = (s.tbStepSet w).fon F.tbStat_STEP_SAT :=
  (if_neg (by rw [hen]; exact Bool.false_ne_true)).trans (if_pos hs)

theorem State.tbStepCommit_requests (hen : s.fbit F.tbCtl_SWSTEP_EN = true) (hs : ¬ (addSpan s.nowI (s64Of w)).2 = true)
    (hd : s64Of w ≠ 0) : s.tbStepCommit q w = (s.tbStepSet w).setTime { s.time with
      reqs := s.time.reqs ++ [⟨.sw q, .by_ (s64Of w), s.tickNo⟩] } :=
  (if_neg (by rw [hen]; exact Bool.false_ne_true)).trans ((if_neg hs).trans (if_neg hd))

/-- A span of 0 asks nothing; it is stored, also where device time itself is out of range. -/
theorem State.tbStepCommit_zero (hen : s.fbit F.tbCtl_SWSTEP_EN = true) (hd : s64Of w = 0) :
    (s.tbStepCommit q w).rget ⟨.tbStep, 0, 0, 0⟩ = w % 2 ^ 64 ∧ (s.tbStepCommit q w).time = s.time := by
  by_cases hs : (addSpan s.nowI (s64Of w)).2 = true
  · rw [State.tbStepCommit_saturates hen hs]
    exact ⟨(State.rget_fon_other _ _ _ _ _ _ (by decide)).trans (State.rget_rset_same ..), rfl⟩
  · have hset : s.tbStepCommit q w = s.tbStepSet w :=
      (if_neg (by rw [hen]; exact Bool.false_ne_true)).trans ((if_neg hs).trans (if_pos hd))
    rw [hset]
    exact ⟨State.rget_rset_same .., rfl⟩

theorem State.tbSetCommit_refused {v : Nat} (hv : w % 2 ^ 96 = v) (h : s.fbit F.tbCtl_SWSTEP_EN = false ∨ 1000000000 ≤ t96Ns v) :
    s.tbSetCommit q w = s.fon F.tbStat_WR_ERR := by
  unfold State.tbSetCommit
  by_cases hen : s.fbit F.tbCtl_SWSTEP_EN = true
  · have hns : unpackT96 v = none := if_neg (not_lt.mpr (h.resolve_left (by simp [hen])))
    rw [if_neg (by simp [hen]), hv, hns]
  · exact if_pos (by simp [hen])

theorem State.tbSetCommit_requests {v : Nat} (hv : w % 2 ^ 96 = v) (hen : s.fbit F.tbCtl_SWSTEP_EN = true) (hc : t96Ns v < 1000000000) :
    s.tbSetCommit q w = (s.rset ⟨.tbSet, 0, 0, 0⟩ v).setTime { s.time with
      reqs := s.time.reqs ++ [⟨.sw q, .to_ (v / 2 ^ 48 * lsbPerSec + v % 2 ^ 48), s.tickNo⟩] } := by
  unfold State.tbSetCommit
  rw [if_neg (by simp [hen]), hv, unpackT96_canonical (by omega) hc]
  rfl

/-- The clamped word stands in TB_NCO_SW, and the clamp shows. -/
def State.ncoSwSet (s : State) (w : Nat) : State :=
  (s.rset ⟨.tbNcoSw, 0, 0, 0⟩ (bitsOf 48 (clampY48 (y48Of w)).1)).fonIf (clampY48 (y48Of w)).2 F.tbStat_CLAMP

theorem State.rget_ncoSwSet {c : RegKey} (h : c.r ≠ .tbStat) :
    (s.ncoSwSet w).rget c = (s.rset ⟨.tbNcoSw, 0, 0, 0⟩ (bitsOf 48 (clampY48 (y48Of w)).1)).rget c := by
  unfold State.ncoSwSet State.fonIf
  split
  · exact State.rget_fon_other _ _ _ _ _ _ fun e => h (by rw [e]; rfl)
  · rfl

theorem State.ncoSwCommit_effect : y48Of ((s.ncoSwCommit w).rget ⟨.tbNcoSw, 0, 0, 0⟩) = (clampY48 (y48Of w)).1 ∧
    ((clampY48 (y48Of w)).1 ≠ y48Of w → (s.ncoSwCommit w).fbit F.tbStat_CLAMP = true) ∧
    (s.ncoSwCommit w).time =
      if s.fbit F.tbCtl_NCO_SRC then { s.time with yNext := some (clampY48 (y48Of w)).1 } else s.time := by
  have hsrc : (s.ncoSwSet w).fbit F.tbCtl_NCO_SRC = s.fbit F.tbCtl_NCO_SRC :=
    congrArg (bit · _) ((State.rget_ncoSwSet (by decide)).trans (State.rget_rset_other _ _ _ _ (by decide)))
  have htime : (s.ncoSwSet w).time = s.time := State.time_of_clock (State.fonIf_clock ..)
  have hword : y48Of ((s.ncoSwSet w).rget ⟨.tbNcoSw, 0, 0, 0⟩) = (clampY48 (y48Of w)).1 := by
    rw [State.rget_ncoSwSet (by decide), State.rget_rset_same, clampY48_fst]
    exact y48Of_bitsOf (by omega) (by omega)
  have hclamp (h : (clampY48 (y48Of w)).1 ≠ y48Of w) : (s.ncoSwSet w).fbit F.tbStat_CLAMP = true := by
    rw [State.ncoSwSet, clampY48_snd h]
    exact State.fbit_fon_same _ F.tbStat_CLAMP 0 0 0 rfl
  have heq : s.ncoSwCommit w = if (s.ncoSwSet w).fbit F.tbCtl_NCO_SRC then
      (s.ncoSwSet w).setTime { (s.ncoSwSet w).time with yNext := some (clampY48 (y48Of w)).1 } else s.ncoSwSet w := rfl
  rw [heq, hsrc, htime]
  split
  · exact ⟨hword, hclamp, rfl⟩
  · exact ⟨hword, hclamp, htime⟩

end Commits

/-- The registers of TB that take a value of several words lie word by word at their addresses. -/
theorem tbMapped : ∀ r ∈ [Reg.tbStep, .tbSet, .tbNcoSw], RegKey.mapped ⟨r, 0, 0, 0⟩ := by
  unfold RegKey.mapped
  decide +kernel

theorem exec_tbStepCommit {q : Port} {s : State} (v : BitVec 64) (hs : s.readable q.req .tbStep = true) :
    ∃ m c w, exec (.tbStepCommit q v) s = .next ((s.staged m c).tbStepCommit q.req w) ∧ w % 2 ^ 64 = v.toNat := by
  obtain ⟨m, w, hcommit, hw⟩ := State.busCommit_commits (v := v.toNat) hs (tbMapped _ (by decide)) nofun nofun (by decide)
  rw [State.commitOf_asks rfl] at hcommit
  exact ⟨m, _, w, congrArg Host.Outcome.next hcommit, hw.trans (Nat.mod_eq_of_lt v.isLt)⟩

theorem exec_tbSetCommit {q : Port} {s : State} (v : BitVec 96) (hs : s.readable q.req .tbSet = true) :
    ∃ m c w, exec (.tbSetCommit q v) s = .next ((s.staged m c).tbSetCommit q.req w) ∧ w % 2 ^ 96 = v.toNat := by
  obtain ⟨m, w, hcommit, hw⟩ := State.busCommit_commits (v := v.toNat) hs (tbMapped _ (by decide)) nofun nofun (by decide)
  rw [State.commitOf_asks rfl] at hcommit
  exact ⟨m, _, w, congrArg Host.Outcome.next hcommit, hw.trans (Nat.mod_eq_of_lt v.isLt)⟩

theorem exec_tbNcoSwWrite {q : Port} {s : State} (v : BitVec 64) (hs : s.readable q.req .tbNcoSw = true)
    (hfirst : s.outranksAny q.req .tbNcoSw = false) :
    ∃ m c w, exec (.tbNcoSwWrite q v) s = .next ((s.staged m c).ncoSwCommit w) ∧ w % 2 ^ 64 = v.toNat := by
  obtain ⟨m, w, hcommit, hw⟩ := State.busCommit_commits (v := v.toNat) hs (tbMapped _ (by decide)) nofun nofun (by decide)
  rw [State.commitOf_first hfirst] at hcommit
  exact ⟨m, _, w, congrArg Host.Outcome.next hcommit, hw.trans (Nat.mod_eq_of_lt v.isLt)⟩

/-- Settles O11: each commit reaches its register whole (`busCommit_commits`) and does what its value and SWSTEP_EN make of it. -/
theorem softwareStepAndSteeringCommits : Obligations.SoftwareStepAndSteeringCommits := by
  intro q s hs
  refine ⟨?step, ?set, ?nco⟩
  case step =>
    intro v x
    obtain ⟨m, c, w, hexec, hw⟩ := exec_tbStepCommit v hs
    have hd := s64Of_toInt hw
    have hsat : (addSpan s.nowI (s64Of w)).2 = true ↔ x < 0 ∨ ((2 ^ 48 * lsbPerSec : Nat) : Int) ≤ x := by
      rw [hd]
      exact addSpan_saturates ..
    rw [← hd]
    refine ⟨fun hen hne hlo hhi => ⟨_, hexec, ?_⟩, fun hen hz => ⟨_, hexec, ?_⟩, fun hen _ hout => ⟨_, hexec, ?_⟩,
      fun hen => ⟨_, hexec, ?_⟩⟩
    · rw [State.tbStepCommit_requests (s := s.staged m c) hen (fun h => (hsat.mp h).elim (not_lt.mpr hlo) (not_le.mpr hhi)) hne]
      exact ⟨rfl, (State.rget_rset_same ..).trans hw, rfl⟩
    · obtain ⟨hreg, htime⟩ := State.tbStepCommit_zero (s := s.staged m c) (q := q.req) hen hz
      have hzero : v.toNat = 0 := by
        rw [hd, BitVec.toInt_eq_toNat_cond] at hz
        omega
      exact ⟨hreg.trans (hw.trans hzero), htime⟩
    · rw [State.tbStepCommit_saturates (s := s.staged m c) hen (hsat.mpr hout)]
      exact ⟨State.fbit_fon_same _ F.tbStat_STEP_SAT 0 0 0 rfl, rfl⟩
    · rw [State.tbStepCommit_disabled (s := s.staged m c) hen]
      exact ⟨State.fbit_fon_same _ F.tbStat_WR_ERR 0 0 0 rfl, rfl⟩
  case set =>
    intro v
    obtain ⟨m, c, w, hexec, hw⟩ := exec_tbSetCommit v hs
    refine ⟨fun hen hc => ⟨_, hexec, ?_⟩, fun h => ⟨_, hexec, ?_⟩⟩
    · rw [State.tbSetCommit_requests (s := s.staged m c) hw hen hc]
      exact ⟨rfl, State.rget_rset_same ..⟩
    · rw [State.tbSetCommit_refused (s := s.staged m c) hw h]
      exact ⟨State.fbit_fon_same _ F.tbStat_WR_ERR 0 0 0 rfl, rfl⟩
  case nco =>
    intro v y c hfirst
    obtain ⟨m, cyc, w, hexec, hw⟩ := exec_tbNcoSwWrite v hs hfirst
    have hy : y48Of w = y := y48Of_congr hw
    have hc : (clampY48 (y48Of w)).1 = c := by rw [clampY48_fst, hy]
    obtain ⟨hword, hclamp, htime⟩ := (s.staged m cyc).ncoSwCommit_effect (w := w)
    rw [hc] at hword hclamp htime
    rw [hy] at hclamp
    exact ⟨_, hexec, hword, hclamp, htime⟩

end Sys2Proof.Machine
end

section
/-! PROOFS. What the units, Tally, CAL, the mailbox and the Drovers do in a tick leaves the clock alone (R54, R113 to R130, R242 to R255,
R443). -/

namespace Sys2Proof.Machine

section Work
variable (s : State)

/-! ### Time-interval units (R113 to R123) -/

@[simp] theorem State.closeDue_clock (u : Nat) (before : Nat × Nat → Bool) : (s.closeDue u before).clock = s.clock := by
  unfold State.closeDue
  dsimp only
  split <;> rfl

@[simp] theorem State.tiuPush_clock (u : Nat) (r : Rec) (eo : Option Nat) : (s.tiuPush u r eo).clock = s.clock := by
  unfold State.tiuPush
  dsimp only
  split <;> rfl

@[simp] theorem State.measGive_clock (u : Nat) (r : Rec) (tag : Nat) : (s.measGive u r tag).clock = s.clock :=
  s.mapDrv_clock (fun _ => rfl) fun _ => rfl

@[simp] theorem State.tiuComplete_clock (u : Nat) (time : Instant) (value : Int) (f : RecFlags) (aux tag : Nat) (at_ : Instant) (ends : Bool) :
    (s.tiuComplete u time value f aux tag at_ ends).clock = s.clock := by
  simp [State.tiuComplete]

@[simp] theorem State.pairDone_clock (u : Nat) (start stop : Half) (at_ : Instant) (arb : Bool) :
    (s.pairDone u start stop at_ arb).clock = s.clock := by
  simp [State.pairDone]

@[simp] theorem State.tiuOvf_clock (u : Nat) (h : Half) : (s.tiuOvf u h).clock = s.clock := by
  simp [State.tiuOvf]

@[simp] theorem State.tiuExpire_clock (u : Nat) (e : Instant) : (s.tiuExpire u e).clock = s.clock := by
  simp [State.tiuExpire]

@[simp] theorem State.tiuLapse_clock (u : Nat) (ts : Instant) (tick : Nat) : (s.tiuLapse u ts tick).clock = s.clock := by
  delta State.tiuLapse
  extract_lets s1
  have h1 : s1.clock = s.clock := by
    simp only [s1]
    split <;> simp
  split
  · split <;> simp [h1]
  · exact h1

@[simp] theorem State.offerHalf_clock (u : Nat) (x : TiuIn) (h : TiuHalf) : (s.offerHalf u x h).clock = s.clock := by
  unfold State.offerHalf
  dsimp only
  split
  · split_ifs <;> simp
  · split_ifs <;> simp

@[simp] theorem State.tiuTakeHalf_clock (u : Nat) (x : TiuIn) (h : TiuHalf) : (s.tiuTakeHalf u x h).clock = s.clock := by
  unfold State.tiuTakeHalf State.tiuMiss
  dsimp only
  split_ifs <;> simp

@[simp] theorem State.closeOn_clock (u tick code : Nat) : (s.closeOn u tick code).clock = s.clock := (rfl)

@[simp] theorem State.tiuAccept_clock (u : Nat) (c : CapPos) (rising own : Bool) (closes : Option Gate) :
    (s.tiuAccept u c rising own closes).clock = s.clock := by
  unfold State.tiuAccept
  dsimp only
  split <;> simp

@[simp] theorem State.tiuFrontEnd_clock (u : Nat) (c : CapPos) (rising own : Bool) (takers : List Nat) (closes : Option Gate) :
    (s.tiuFrontEnd u c rising own takers closes).1.clock = s.clock := by
  unfold State.tiuFrontEnd
  split
  · exact foldl_clock _ (fun st w => st.closeOn_clock w _ _) _
  · exact s.tiuAccept_clock ..

@[simp] theorem State.gateAfter_clock (u : Nat) (ts : Instant) (role : GateRole) : (s.gateAfter u ts role).clock = s.clock := by
  cases role <;> rfl

@[simp] theorem State.tiuFreqEdge_clock (u : Nat) (c : CapPos) (takers : List Nat) : (s.tiuFreqEdge u c takers).clock = s.clock := by
  delta State.tiuFreqEdge
  extract_lets t ratio n ts s1 late s2 role tag t2 s3 closes r
  have h2 : s2.clock = s.clock := by
    simp only [s2]
    split
    · rfl
    · exact s1.tiuLapse_clock ..
  have h3 : s3.clock = s.clock := by
    simp only [s3]
    split
    · exact h2
    · exact h2
  have hr : r.1.clock = s.clock := (s3.tiuFrontEnd_clock ..).trans h3
  split
  · exact h3
  · split
    · exact (r.1.gateAfter_clock ..).trans hr
    · exact hr

@[simp] theorem State.tiuSetArm_clock (u : Nat) (x : TiuIn) (count : Nat) (ta : Instant) : (s.tiuSetArm u x count ta).clock = s.clock := by
  delta State.tiuSetArm
  extract_lets st t arm1 again s1
  have h : st.clock = s.clock := s.tiuLapse_clock ..
  have h1 : s1.clock = s.clock := h
  split
  · split
    · exact h
    · exact h
  · split
    · exact (foldl_clock _ (fun st c => st.tiuFreqEdge_clock u _ _) _).trans h1
    · exact h1

@[simp] theorem State.tiuTake_clock (u : Nat) (x : TiuIn) : (s.tiuTake u x).clock = s.clock := by
  unfold State.tiuTake
  split <;> simp

theorem State.tiuSettleBy_clock (fuel u : Nat) (by_ : Instant) : (State.tiuSettleBy fuel s u by_).clock = s.clock := by
  induction fuel generalizing s with
  | zero => rfl
  | succ fuel ih =>
    rw [State.tiuSettleBy]
    split
    · rfl
    · split
      · rw [ih, State.tiuTake_clock, State.setTiu_clock]
      · rfl

@[simp] theorem State.tiuTick_clock (u : Nat) : (s.tiuTick u).clock = s.clock := s.tiuSettleBy_clock ..

/-! ### Tally (R130) -/

@[simp] theorem State.talMark_clock (code count : Nat) (time : Instant) : (s.talMark code count time).clock = s.clock := by
  unfold State.talMark
  split <;> rfl

@[simp] theorem State.talTick_clock : s.talTick.clock = s.clock := by
  unfold State.talTick State.talMarksIn
  dsimp only
  split_ifs <;> simp

/-! ### CAL and the mailbox (R242 to R255, R262, R443) -/

@[simp] theorem State.calDitherHit_clock (u code : Nat) : (s.calDitherHit u code).clock = s.clock := by
  unfold State.calDitherHit
  split <;> rfl

@[simp] theorem State.calProgress_clock (done total : Nat) : (s.calProgress done total).clock = s.clock := by
  simp [State.calProgress]

@[simp] theorem State.flashWrite_clock (a : Nat) (b : List Nat) : (s.flashWrite a b).clock = s.clock := (rfl)

@[simp] theorem State.flashErase_clock (a n : Nat) : (s.flashErase a n).clock = s.clock := (rfl)

@[simp] theorem State.setDram_clock (m : Memory) : (s.setDram m).clock = s.clock := (rfl)

@[simp] theorem State.saveSteps_clock (l : CalLong) (lo hi : Nat) : (s.saveSteps l lo hi).clock = s.clock := by
  unfold State.saveSteps
  dsimp only
  split_ifs <;> simp

@[simp] theorem State.calWork_clock (n : Nat) : (s.calWork n).clock = s.clock := by
  unfold State.calWork
  dsimp only
  split
  · rfl
  · split
    · rfl
    · split <;> simp

@[simp] theorem State.calGaps_clock : s.calGaps.clock = s.clock := by
  unfold State.calGaps
  refine foldl_clock _ (fun st n => ?_) _
  split <;> simp

@[simp] theorem State.addRun_clock (eo : Bool) (idx : Nat) (dither : Bool) : (s.addRun eo idx dither).clock = s.clock := by
  unfold State.addRun
  split <;> rfl

@[simp] theorem State.scheduleRegion_clock (r : Nat) (temp dither : Bool) : (s.scheduleRegion r temp dither).clock = s.clock := by
  delta State.scheduleRegion
  extract_lets x left s1 s2
  have h1 : s1.clock = s.clock := foldl_clock _ (fun st u => by split <;> simp) _
  have h2 : s2.clock = s.clock := (foldl_clock _ (fun st n => by split <;> simp) _).trans h1
  split_ifs <;> simp [h2]

@[simp] theorem State.trkFit_clock (n : Nat) : (s.trkFit n).clock = s.clock := by
  unfold State.trkFit
  dsimp only
  split <;> simp

@[simp] theorem State.calIdles_clock : s.calIdles.clock = s.clock := by
  unfold State.calIdles State.idleTable
  refine foldl_clock _ (fun st n => ?_) _
  dsimp only
  split <;> simp

@[simp] theorem State.calTick_clock (dither : List (Nat × Nat)) (work : Nat) : (s.calTick dither work).clock = s.clock := by
  unfold State.calTick
  rw [State.calIdles_clock, State.calGaps_clock, State.calWork_clock, foldl_clock _ fun st x => st.calDitherHit_clock _ _]

/-- While the timebase moves to BPLL, CAL stops (R252). -/
@[simp] theorem State.calDegOn_clock : s.calDegOn.clock = s.clock := by
  delta State.calDegOn
  extract_lets s1 s3 cal s4
  have h1 : s1.clock = s.clock := foldl_clock _ (fun st n => by dsimp only; split <;> simp) _
  have h3 : s3.clock = s.clock := (foldl_clock _ (fun st u => by split <;> rfl) _).trans h1
  have h4 : s4.clock = s.clock := by
    refine Eq.trans ?_ h3
    simp only [s4]
    split
    · split <;> simp
    · rfl
  have h5 : (s4.calDiscard fun _ _ => true).clock = s.clock := (s4.setCal_clock _).trans h4
  exact (foldl_clock _ (fun st r => by dsimp only; split <;> simp) _).trans h5

@[simp] theorem State.bufPut_clock (b : List Byte) : (s.bufPut b).clock = s.clock :=
  foldl_clock _ (fun st _ => st.rset_clock ..) _

@[simp] theorem State.placePut_clock (b : List Byte) (a : Option Nat) : (s.placePut b a).clock = s.clock := by
  unfold State.placePut
  split <;> simp

@[simp] theorem State.mbPart_clock (c : MbCmd) (n : Nat) : (s.mbPart c n).clock = s.clock := by
  delta State.mbPart
  extract_lets p
  split_ifs
  · exact s.flashErase_clock ..
  · exact s.flashWrite_clock ..
  · exact s.placePut_clock ..
  · exact s.flashWrite_clock ..
  · rfl

@[simp] theorem State.mbWork_clock (n : Nat) : (s.mbWork n).clock = s.clock := by
  unfold State.mbWork
  dsimp only
  split
  · rfl
  · split <;> simp

/-! ### Drovers -/

theorem State.setDrv_clock {d : Nat} {x : Drover} (h : x.outs = (s.getDrv d).outs) : (s.setDrv d x).clock = s.clock := by
  refine congrArg (Clock.mk _ _ _ _) (funext fun e => ?_)
  have hget : (s.setDrv d x).getDrv e = if e = d then x else s.getDrv e := SMap.get_put ..
  rw [hget]
  split
  next he => rw [h, he]
  next => rfl

@[simp] theorem State.drvWakes_clock (d : Nat) : (s.drvWakes d).clock = s.clock := s.setDrv_clock rfl

/-- Where nothing a Drover has sent out is due, its tasks that wake are all that changes. -/
theorem State.drvDue_clock (h : ∀ d x, x ∈ (s.getDrv d).outs → s.tickNo < x.1) : s.drvDue.clock = s.clock := by
  unfold State.drvDue
  refine List.foldlRecOn _ _ (motive := fun t : State => t.clock = s.clock) rfl fun t ht d _ => ?_
  have hw : (t.drvWakes d.val).clock = s.clock := (t.drvWakes_clock d.val).trans ht
  have hdue : ((t.drvWakes d.val).getDrv d.val).outs.filter (fun o => decide (o.1 ≤ (t.drvWakes d.val).tickNo)) = [] := by
    have houts : ((t.drvWakes d.val).getDrv d.val).outs = (s.getDrv d.val).outs := congrArg (fun c => Clock.outs c d.val) hw
    have htick : (t.drvWakes d.val).tickNo = s.tickNo := State.tickNo_of_clock hw
    rw [houts, htick, List.filter_eq_nil_iff]
    exact fun o ho => by simpa using h d.val o ho
  unfold State.drvOuts
  dsimp only
  rw [hdue]
  exact hw

end Work
end Sys2Proof.Machine
end

section
/-! PROOFS. The tick: the counters advance and are judged, and nothing else the tick does touches them (R52, R54, R183, R274, R279). -/

namespace Sys2Proof.Machine

/-! ### What a tick does beside advancing device time -/

/-- The counters, their standing and the time driven out are the same. -/
structure TimeSt.SameCounters (t u : TimeSt) : Prop where
  now : u.now = t.now
  a : u.a = t.a
  b : u.b = t.b
  pa : u.pa = t.pa
  suspA : u.suspA = t.suspA
  suspB : u.suspB = t.suspB
  reloadA : u.reloadA = t.reloadA
  reloadB : u.reloadB = t.reloadB
  faultOn : u.faultOn = t.faultOn

theorem TimeSt.SameCounters.refl (t : TimeSt) : t.SameCounters t := ⟨rfl, rfl, rfl, rfl, rfl, rfl, rfl, rfl, rfl⟩

theorem TimeSt.SameCounters.trans {t u v : TimeSt} (h : t.SameCounters u) (h2 : u.SameCounters v) : t.SameCounters v :=
  ⟨h2.now.trans h.now, h2.a.trans h.a, h2.b.trans h.b, h2.pa.trans h.pa, h2.suspA.trans h.suspA, h2.suspB.trans h.suspB,
    h2.reloadA.trans h.reloadA, h2.reloadB.trans h.reloadB, h2.faultOn.trans h.faultOn⟩

/-- The rest of a tick leaves the counters, and what Drovers have sent out; reports stay and may be joined by more, and the timebase stays
with its source or moves to BPLL. -/
structure TickFrame (s t : State) : Prop where
  tickNo : t.tickNo = s.tickNo
  counters : s.time.SameCounters t.time
  source : t.tsyn.src = s.tsyn.src ∨ t.tsyn.src = .bpll
  reports : s.flt.reports ⊆ t.flt.reports
  outs : ∀ d, (t.getDrv d).outs = (s.getDrv d).outs

section Frame
variable {s t u : State}

theorem State.source_of_clock {c : Clock} (h : s.clock = c) : s.tsyn.src = c.tsyn.src := congrArg (fun c => c.tsyn.src) h

theorem State.reports_of_clock {c : Clock} (h : s.clock = c) : s.flt.reports = c.reports := congrArg Clock.reports h

theorem State.outs_of_clock {c : Clock} (h : s.clock = c) (d : Nat) : (s.getDrv d).outs = c.outs d := congrArg (fun c => c.outs d) h

/-- The clock is the same up to what the frame allows. -/
theorem TickFrame.of_clocks {c : Clock} (h : t.clock = c) (htick : c.tickNo = s.tickNo) (htime : s.time.SameCounters c.time)
    (hsrc : c.tsyn.src = s.tsyn.src ∨ c.tsyn.src = .bpll) (hrep : c.reports = s.flt.reports) (houts : ∀ d, c.outs d = (s.getDrv d).outs) :
    TickFrame s t where
  tickNo := (State.tickNo_of_clock h).trans htick
  counters := (State.time_of_clock h).symm ▸ htime
  source := (State.source_of_clock h).symm ▸ hsrc
  reports f hf := by rwa [State.reports_of_clock h, hrep]
  outs d := (State.outs_of_clock h d).trans (houts d)

theorem TickFrame.of_clock (h : t.clock = s.clock) : TickFrame s t := .of_clocks h rfl (.refl _) (.inl rfl) rfl fun _ => rfl

theorem TickFrame.refl : TickFrame s s := .of_clock rfl

theorem TickFrame.trans (h : TickFrame s t) (h2 : TickFrame t u) : TickFrame s u where
  tickNo := h2.tickNo.trans h.tickNo
  counters := h.counters.trans h2.counters
  source := h2.source.elim (fun e => e ▸ h.source) .inr
  reports := List.Subset.trans h.reports h2.reports
  outs d := (h2.outs d).trans (h.outs d)

/-- A step of the frame that keeps the whole clock. -/
theorem TickFrame.clock (h : TickFrame s t) (hc : u.clock = t.clock) : TickFrame s u := h.trans (.of_clock hc)

theorem TickFrame.setTime {x : TimeSt} (h : TickFrame s t) (hx : t.time.SameCounters x) : TickFrame s (t.setTime x) :=
  ⟨h.tickNo, h.counters.trans hx, h.source, h.reports, h.outs⟩

theorem TickFrame.setTsyn {x : TsynSt} (h : TickFrame s t) (hx : x.src = t.tsyn.src) : TickFrame s (t.setTsyn x) :=
  ⟨h.tickNo, h.counters, (hx.symm ▸ h.source :), h.reports, h.outs⟩

theorem TickFrame.report {f : FaultRep} (h : TickFrame s t) : TickFrame s (t.report f) :=
  ⟨h.tickNo, h.counters, h.source, List.Subset.trans h.reports (List.subset_append_left ..), h.outs⟩

theorem TickFrame.foldl {A : Type} {f : State → A → State} {l : List A} (h : TickFrame s t)
    (hf : ∀ st a, TickFrame s st → TickFrame s (f st a)) : TickFrame s (l.foldl f t) :=
  List.foldlRecOn l f (motive := fun t => TickFrame s t) h fun _ h a _ => hf _ a h

theorem TickFrame.stepped {w span : Int} (h : TickFrame s t) : TickFrame s (t.stepped w span) :=
  h.trans (.of_clocks (t.stepped_clock w span) rfl ⟨rfl, rfl, rfl, rfl, rfl, rfl, rfl, rfl, rfl⟩ (.inl rfl) rfl fun _ => rfl)

/-! ### The time bus and the oscillator (R57, R58, R270 to R273) -/

theorem TickFrame.busReceive {was : BusRx} {bad : List (Nat × Nat)} (h : TickFrame s t) : TickFrame s (t.busReceive was bad) := by
  unfold State.busReceive
  refine h.foldl fun st r hst => ?_
  have hset (m : SMap Nat (Option BusRx)) : TickFrame s (st.setTime { st.time with rx := m }) :=
    hst.setTime ⟨rfl, rfl, rfl, rfl, rfl, rfl, rfl, rfl, rfl⟩
  dsimp only
  split
  · exact (hset _).report
  · exact hset _

theorem State.syntClamp_clock (s : State) : s.syntClamp.clock = s.clock := by
  unfold State.syntClamp
  split
  · rfl
  · refine foldl_clock _ (fun st c => ?_) _
    split <;> rfl

/-- The place of the oscillator, the word in force and the one to come are no part of the counters. -/
theorem TimeSt.sameCounters_oscillator (t : TimeSt) (xoAge phase rotPos : Nat) (carry subNs rotRes y : Int) (yNext : Option Int) :
    t.SameCounters { t with
      xoAge := xoAge, phase := phase, rotPos := rotPos, carry := carry, subNs := subNs, rotRes := rotRes, y := y, yNext := yNext } :=
  ⟨rfl, rfl, rfl, rfl, rfl, rfl, rfl, rfl, rfl⟩

theorem TickFrame.takeWord (h : TickFrame s t) : TickFrame s t.takeWord := by
  unfold State.takeWord
  split
  · exact h
  · have hset := h.setTime (t.time.sameCounters_oscillator t.time.xoAge t.time.phase t.time.rotPos t.time.carry t.time.subNs t.time.rotRes
      (clampY48 ‹Int›).1 none)
    refine hset.clock ((State.syntClamp_clock _).trans ?_)
    rw [State.rset_clock, State.fonIf_clock]

theorem TickFrame.xoEdge (h : TickFrame s t) : TickFrame s t.xoEdge := h.takeWord.setTime (TimeSt.sameCounters_oscillator ..)

theorem TickFrame.xoTick (h : TickFrame s t) : TickFrame s t.xoTick := by
  have hage : TickFrame s (t.setTime { t.time with xoAge := t.time.xoAge + 1 }) := h.setTime (TimeSt.sameCounters_oscillator ..)
  unfold State.xoTick
  dsimp only
  split
  · exact hage.xoEdge
  · exact hage

/-! ### The timebase (R277, R279) -/

theorem TickFrame.tsynCompare {err : Option Int} (h : TickFrame s t) : TickFrame s (t.tsynCompare err) := by
  unfold State.tsynCompare
  dsimp only
  split
  · exact (h.clock (t.fon_clock F.synStat_REF_LOSS 0 0 0)).setTsyn rfl
  · split
    · exact (h.clock (t.cnt_clock ..)).setTsyn rfl
    · exact h.setTsyn rfl

theorem State.toBpll_clock (s : State) : s.toBpll.clock = { s.clock with tsyn := { s.tsyn with src := .bpll, declared := false } } := by
  rw [State.toBpll, State.calDegOn_clock, State.raiseEv_clock, State.cnt_clock, State.fon_clock]
  rfl

theorem TickFrame.toBpll (h : TickFrame s t) : TickFrame s t.toBpll :=
  h.trans (.of_clocks t.toBpll_clock rfl (.refl _) (.inr rfl) rfl fun _ => rfl)

theorem TickFrame.forceTick (h : TickFrame s t) : TickFrame s t.forceTick := by
  unfold State.forceTick
  split
  · exact h.toBpll
  · exact h

end Frame
end Sys2Proof.Machine
end

section
/-! PROOFS. SYN_TSYN_CTL, whose FORCE_BPLL a tick obeys, is no register that the hardware writes (R279). -/

namespace Sys2Proof.Machine

def State.tsynCtl (s : State) : Nat := s.rget ⟨.synTsynCtl, 0, 0, 0⟩

section TsynCtl
variable {s : State}

theorem State.rset_tsynCtl {k : RegKey} {v : Nat} (h : k.r ≠ .synTsynCtl) : (s.rset k v).tsynCtl = s.tsynCtl :=
  State.rget_rset_other s k _ v fun e => h (e ▸ rfl)

theorem State.fon_tsynCtl {f : Fld} {i j k : Nat} (h : f.reg ≠ .synTsynCtl) : (s.fon f i j k).tsynCtl = s.tsynCtl :=
  State.rset_tsynCtl (k := ⟨f.reg, i, j, k⟩) h

theorem State.fonBit_tsynCtl {f : Fld} {b i j k : Nat} (h : f.reg ≠ .synTsynCtl) : (s.fonBit f b i j k).tsynCtl = s.tsynCtl :=
  State.rset_tsynCtl (k := ⟨f.reg, i, j, k⟩) h

theorem State.fonIf_tsynCtl {c : Bool} {f : Fld} {i j k : Nat} (h : f.reg ≠ .synTsynCtl) : (s.fonIf c f i j k).tsynCtl = s.tsynCtl := by
  unfold State.fonIf
  split
  · exact State.fon_tsynCtl h
  · rfl

theorem State.cntAdd_tsynCtl {r : Reg} {n i : Nat} (h : r ≠ .synTsynCtl) : (s.cntAdd r n i).tsynCtl = s.tsynCtl :=
  State.rset_tsynCtl (k := ⟨r, i, 0, 0⟩) h

theorem foldl_tsynCtl {A : Type} {f : State → A → State} (hf : ∀ s a, (f s a).tsynCtl = s.tsynCtl) (l : List A) :
    (l.foldl f s).tsynCtl = s.tsynCtl :=
  List.foldlRecOn l f (motive := fun t => t.tsynCtl = s.tsynCtl) rfl fun t h a _ => (hf t a).trans h

theorem State.loopIn_tsynCtl {prod c : Nat} : (s.loopIn prod c).tsynCtl = s.tsynCtl := by
  unfold State.loopIn
  dsimp only
  split
  · exact State.fon_tsynCtl (by decide)
  · exact State.fon_tsynCtl (s := s.offerBbr _) (by decide)

theorem State.sendVector_tsynCtl {prod : Nat} : (s.sendVector prod).tsynCtl = s.tsynCtl := by
  unfold State.sendVector State.sendMsix
  split
  · split
    · exact State.fonBit_tsynCtl (by decide)
    · rfl
  · rfl

theorem State.deliver_tsynCtl {x due : Nat} {evs : List Stamp} : (s.deliver x evs due).tsynCtl = s.tsynCtl := rfl

theorem State.raiseNow_tsynCtl {prod tag : Nat} {ts : Instant} : (s.raiseNow prod ts tag).tsynCtl = s.tsynCtl := by
  unfold State.raiseNow
  split
  · exact (foldl_tsynCtl (fun _ _ => State.loopIn_tsynCtl) _).trans ((State.cntAdd_tsynCtl (by decide)).trans (State.fon_tsynCtl (by decide)))
  · exact (foldl_tsynCtl (fun _ _ => State.deliver_tsynCtl) _).trans (State.sendVector_tsynCtl (s := s))

theorem State.raiseDue_tsynCtl : s.raiseDue.tsynCtl = s.tsynCtl := foldl_tsynCtl (fun _ _ => State.raiseNow_tsynCtl) _

theorem State.dropHeld_tsynCtl : s.dropHeld.tsynCtl = s.tsynCtl := by
  unfold State.dropHeld
  dsimp only
  split
  · rfl
  · exact State.cntAdd_tsynCtl (by decide)

theorem State.syntClamp_tsynCtl : s.syntClamp.tsynCtl = s.tsynCtl := by
  unfold State.syntClamp
  split
  · rfl
  · exact foldl_tsynCtl (fun _ _ => by split <;> rfl) _

theorem State.takeWord_tsynCtl : s.takeWord.tsynCtl = s.tsynCtl := by
  unfold State.takeWord
  split
  · rfl
  · exact State.syntClamp_tsynCtl.trans ((State.rset_tsynCtl (by decide)).trans (State.fonIf_tsynCtl (by decide)))

theorem State.xoTick_tsynCtl : s.xoTick.tsynCtl = s.tsynCtl := by
  unfold State.xoTick
  dsimp only
  split
  · exact State.takeWord_tsynCtl (s := s.setTime _)
  · rfl

theorem State.tsynCompare_tsynCtl {err : Option Int} : (s.tsynCompare err).tsynCtl = s.tsynCtl := by
  unfold State.tsynCompare
  dsimp only
  split
  · exact State.fon_tsynCtl (s := s) (by decide)
  · split
    · exact State.cntAdd_tsynCtl (s := s) (by decide)
    · rfl

end TsynCtl
end Sys2Proof.Machine
end

section
/-! PROOFS. The counters advance and are judged (R52, R54). -/

namespace Sys2Proof.Machine

/-- What the counters show is found at the tick. -/
def TimeSt.eval (t : TimeSt) : TimeEval :=
  timeEval (decide (t.a.val = t.b.val)) (t.a.passes t.pa) (t.b.passes t.pb) t.suspA t.suspB

/-- No counter is suspect or to be loaded, and TIME_FAULT has not struck. -/
structure TimeSt.Untroubled (t : TimeSt) : Prop where
  suspA : t.suspA = false
  suspB : t.suspB = false
  reloadA : t.reloadA = false
  reloadB : t.reloadB = false
  faultOn : t.faultOn = false

/-- No upset strikes a counter in this tick. -/
structure TickObs.Spares (o : TickObs) : Prop where
  upA : o.upA = 0
  upB : o.upB = 0
  parA : o.parA = false
  parB : o.parB = false

/-- The counters `t` have advanced to `u`, as `e` judges them. -/
structure TimeSt.Judged (t u : TimeSt) (e : TimeEval) : Prop where
  now : u.now = ctrNs (if e.useA then t.a.val else t.b.val)
  pa : u.pa = t.a.val
  a : u.a = t.a.next
  b : u.b = t.b.next
  suspA : u.suspA = e.badA
  suspB : u.suspB = e.badB
  reloadA : u.reloadA = e.badA
  reloadB : u.reloadB = e.badB
  faultOn : u.faultOn = (!e.clean && e.fault)

theorem TimeSt.Judged.of_sameCounters {t u v : TimeSt} {e : TimeEval} (h : t.Judged u e) (hv : u.SameCounters v) : t.Judged v e :=
  ⟨hv.now.trans h.now, hv.pa.trans h.pa, hv.a.trans h.a, hv.b.trans h.b, hv.suspA.trans h.suspA, hv.suspB.trans h.suspB,
    hv.reloadA.trans h.reloadA, hv.reloadB.trans h.reloadB, hv.faultOn.trans h.faultOn⟩

/-- TIME_FAULT is among the reports. -/
def State.TimeFault (s : State) : Prop := ∃ f ∈ s.flt.reports, f.detected = true ∧ f.cls = 2 ∧ f.code = 0x2202

theorem TickFrame.timeFault {s t : State} (h : TickFrame s t) (hf : s.TimeFault) : t.TimeFault :=
  hf.imp fun _ ⟨hmem, hrep⟩ => ⟨h.reports hmem, hrep⟩

theorem Ctr.upset_none (c : Ctr) : c.upset 0 false = c := by
  simp [Ctr.upset]

/-- The tick's time, judged. -/
structure TimeJudged (s t : State) : Prop where
  tickNo : t.tickNo = s.tickNo
  counters : s.time.Judged t.time s.time.eval
  source : t.tsyn.src = s.tsyn.src ∨ t.tsyn.src = .bpll
  fault : s.time.eval.fault = true → t.TimeFault
  outs : ∀ d, (t.getDrv d).outs = (s.getDrv d).outs

theorem TimeJudged.frame {s t u : State} (h : TimeJudged s t) (hu : TickFrame t u) : TimeJudged s u where
  tickNo := hu.tickNo.trans h.tickNo
  counters := h.counters.of_sameCounters hu.counters
  source := hu.source.elim (fun e => e ▸ h.source) .inr
  fault hf := hu.timeFault (h.fault hf)
  outs d := (hu.outs d).trans (h.outs d)

theorem State.timeAdvance_judged {s : State} {o : TickObs} (ht : s.time.Untroubled) (ho : o.Spares) : TimeJudged s (s.timeAdvance o) := by
  obtain ⟨hsuspA, hsuspB, hreloadA, hreloadB, hfaultOn⟩ := ht
  obtain ⟨hupA, hupB, hparA, hparB⟩ := ho
  delta State.timeAdvance
  extract_lets t e out due eq loadA a1 loadB b1 s1 rep s2 s3 s4 d
  have hnone : t.faultOn = false := hfaultOn
  have hrep (c : Bool) (st : State) (det : Bool) (code arg : Nat) : TickFrame st (if c then rep st det code arg else st) := by
    split
    · exact TickFrame.refl.report
    · exact .refl
  have hstep : TickFrame s4 (if ((t.faultOn || e.fault) && decide (d ≠ 0)) = true then s4.stepped d (d * 65536) else s4) := by
    split
    · exact TickFrame.refl.stepped
    · exact .refl
  have hlate := (hrep _ s3 true 0x2203 0).trans hstep
  have hrest := ((hrep _ s1 false 0x1201 _).trans (hrep _ s2 true 0x2202 0)).trans hlate
  have hfault (he : e.fault = true) : s3.TimeFault := by
    rw [show s3 = rep s2 true 0x2202 0 from if_pos (by rw [he, hnone]; rfl)]
    exact ⟨_, List.mem_append_right _ (List.mem_singleton_self _), rfl, rfl, rfl⟩
  have ha : a1 = t.a.next := if_neg (by rw [show t.reloadA = false from hreloadA]; exact Bool.false_ne_true)
  have hb : b1 = t.b.next := if_neg (by rw [show t.reloadB = false from hreloadB]; exact Bool.false_ne_true)
  have hj : s.time.Judged s1.time e := by
    refine ⟨rfl, rfl, ?_, ?_, ?_, ?_, rfl, rfl, ?_⟩
    · show a1.upset o.upA o.parA = _
      rw [hupA, hparA, Ctr.upset_none, ha]
    · show b1.upset o.upB o.parB = _
      rw [hupB, hparB, Ctr.upset_none, hb]
    · show (if eq = true then e.badA else t.suspA || e.badA) = _
      rw [show t.suspA = false from hsuspA, Bool.false_or, ite_self]
    · show (if eq = true then e.badB else t.suspB || e.badB) = _
      rw [show t.suspB = false from hsuspB, Bool.false_or, ite_self]
    · show (!e.clean && (t.faultOn || e.fault)) = _
      rw [hnone, Bool.false_or]
  exact ⟨hrest.tickNo, hj.of_sameCounters hrest.counters, hrest.source, fun he => hlate.timeFault (hfault he), hrest.outs⟩

/-- Without TIME_FAULT no step follows, and with it nothing that writes a register of the timebase. -/
theorem State.timeAdvance_tsynCtl {s : State} {o : TickObs} (ht : s.time.Untroubled) (hf : s.time.eval.fault = false) :
    (s.timeAdvance o).tsynCtl = s.tsynCtl := by
  delta State.timeAdvance
  extract_lets t e out due eq loadA a1 loadB b1 s1 rep s2 s3 s4 d
  have hrep (c : Bool) (st : State) (det : Bool) (code arg : Nat) : (if c then rep st det code arg else st).tsynCtl = st.tsynCtl := by
    split <;> rfl
  have h4 : s4.tsynCtl = s1.tsynCtl := ((hrep ..).trans (hrep ..)).trans (hrep ..)
  rw [if_neg (by rw [show t.faultOn = false from ht.faultOn, show e.fault = false from hf]; simp)]
  exact h4

end Sys2Proof.Machine
end

section
/-! PROOFS. The tick as a whole (R52 to R58, R270 to R280, R285, R290). -/

namespace Sys2Proof.Machine

/-- The clock with the next tick begun. -/
def Clock.next (c : Clock) : Clock := { c with tickNo := c.tickNo + 1 }

section Parts
variable {s : State} {o : TickObs}

theorem State.tickBegun_clock : State.clock { s with tickNo := s.tickNo + 1, cyc := {} } = s.clock.next := (rfl)

theorem State.osynTicked_clock : State.clock { s with osyn := ⟨s.osyn.cells.map fun c => (c.1, c.2.tick)⟩ } = s.clock := (rfl)

theorem State.setGlb_clock {g : GlbSt} : (s.setGlb g).clock = s.clock := (rfl)

theorem State.setCsyn_clock {c : CsynSt} : (s.setCsyn c).clock = s.clock := (rfl)

theorem State.evqPrune_clock : s.evqPrune.clock = s.clock := s.setDw_clock _

theorem State.secTick_clock : s.secTick.clock = s.clock := s.raiseIf_clock ..

theorem State.raiseDue_clock : s.raiseDue.clock = s.clock := by
  rw [State.raiseDue, foldl_clock _ fun st e => st.raiseNow_clock _ _ _, State.setDw_clock]

theorem State.dropHeld_clock : s.dropHeld.clock = s.clock := by
  unfold State.dropHeld
  dsimp only
  split
  · rfl
  · rw [State.cntAdd_clock, State.setDw_clock]

/-- A tick of `s`, which ends in `t`, begins in `u`, where device time advances; once the timebase is steered, a forced BPLL acts in `v`. -/
structure TickParts (s : State) (o : TickObs) (u v t : State) : Prop where
  begun : u.clock = s.clock.next
  begunCtl : u.tsynCtl = s.tsynCtl
  steered : TickFrame (u.timeAdvance o) v
  steeredCtl : v.tsynCtl = (u.timeAdvance o).tsynCtl
  work : TickFrame v.forceTick t

theorem State.tick_parts (hrun : s.time.run = true) : ∃ u v, TickParts s o u v (s.tick o) := by
  unfold State.tick
  rw [if_neg (by rw [hrun]; exact Bool.false_ne_true)]
  extract_lets was begun s0 glb s1 s2 due time s3 s4 tsyn s5 tsyn5 s6 s7 s8 s9 eng tiu s10 s11 csyn s12
  have h0 : s0.clock = s.clock.next := State.dropHeld_clock.trans (State.raiseDue_clock.trans State.tickBegun_clock)
  have h0c : s0.tsynCtl = s.tsynCtl := State.dropHeld_tsynCtl.trans State.raiseDue_tsynCtl
  have h1 : s1.clock = s0.clock ∧ s1.tsynCtl = s0.tsynCtl := by
    simp only [s1]
    split
    · exact ⟨State.setGlb_clock, rfl⟩
    · exact ⟨rfl, rfl⟩
  have h3 : TickFrame s2 s3 ∧ s3.tsynCtl = s2.tsynCtl := by
    simp only [s3]
    split
    · refine ⟨(TickFrame.refl.setTime ?_).tsynCompare, State.tsynCompare_tsynCtl (s := s2.setTime _)⟩
      exact ⟨rfl, rfl, rfl, rfl, rfl, rfl, rfl, rfl, rfl⟩
    · exact ⟨.refl, rfl⟩
  have h5 : TickFrame s4 s5 ∧ s5.tsynCtl = s4.tsynCtl := by
    simp only [s5]
    split
    · exact ⟨(TickFrame.refl.clock (s4.fon_clock F.synTsynStat_GUARD 0 0 0)).setTsyn rfl, State.fon_tsynCtl (by decide)⟩
    · exact ⟨.refl, rfl⟩
  have h8 : s8.clock = s7.clock := by
    simp only [s8]
    split
    · rfl
    · exact State.secTick_clock
  have h10 : s10.clock = s9.clock := by
    simp only [s10]
    rw [State.mbWork_clock, State.calTick_clock, State.talTick_clock]
    exact (foldl_clock _ (fun st u => st.tiuTick_clock u) _).trans (foldl_clock _ (fun st n => st.engTick_clock n) _)
  have h12 : s12.clock = s11.clock := by
    simp only [s12]
    split
    · exact State.setCsyn_clock
    · rfl
  refine ⟨s1, s6, h1.1.trans h0, h1.2.trans h0c, (h3.1.xoTick.trans h5.1).setTsyn rfl,
    h5.2.trans (State.xoTick_tsynCtl.trans h3.2), ?_⟩
  exact ((TickFrame.of_clock h8).busReceive.clock h10).clock (State.evqPrune_clock.trans (h12.trans State.osynTicked_clock))
end Parts

end Sys2Proof.Machine
end

section
/-! PROOFS. A tick drives out device time, and a suspect counter is found (R52, R54, R183, R274, R279). -/

namespace Sys2Proof.Machine

section Tick
variable {s t u : State} {o : TickObs}

/-- The tick `t` after `s`: its number, its time judged, and a forced BPLL. -/
structure Ticked (s t : State) : Prop where
  tickNo : t.tickNo = s.tickNo + 1
  counters : s.time.Judged t.time s.time.eval
  fault : s.time.eval.fault = true → t.TimeFault
  forced : s.time.eval.fault = false → s.fbit F.synTsynCtl_FORCE_BPLL = true → s.tsyn.src = .tsyn → t.tsyn.src = .bpll

theorem Ticked.of_clock (h : Ticked s t) (hc : u.clock = t.clock) : Ticked s u where
  tickNo := (State.tickNo_of_clock hc).trans h.tickNo
  counters := (State.time_of_clock hc : u.time = t.time) ▸ h.counters
  fault hf := (TickFrame.of_clock hc).timeFault (h.fault hf)
  forced hf hbit hsrc := (State.source_of_clock hc).trans (h.forced hf hbit hsrc)

/-- A forced BPLL drives the timebase, which had TSYN or had left it already. -/
theorem State.forceTick_source (hbit : s.fbit F.synTsynCtl_FORCE_BPLL = true) (hsrc : s.tsyn.src = .tsyn ∨ s.tsyn.src = .bpll) :
    s.forceTick.tsyn.src = .bpll := by
  unfold State.forceTick
  rcases hsrc with h | h
  · rw [if_pos ⟨hbit, h⟩]
    exact State.source_of_clock s.toBpll_clock
  · rwa [if_neg (by simp [h])]

/-- The counters as judged reach the end of the tick, and a forced BPLL finds the register and the source as the tick began. -/
theorem State.tick_ticked (hrun : s.time.run = true) (ht : s.time.Untroubled) (ho : o.Spares) :
    Ticked s (s.tick o) ∧ ∀ d, ((s.tick o).getDrv d).outs = (s.getDrv d).outs := by
  obtain ⟨u, v, hbegun, hbegunCtl, hsteered, hsteeredCtl, hwork⟩ := State.tick_parts (o := o) hrun
  have htime : u.time = s.time := State.time_of_clock hbegun
  have hutick : u.tickNo = s.tickNo + 1 := State.tickNo_of_clock hbegun
  have hv : TimeJudged u v := (State.timeAdvance_judged (htime.symm ▸ ht) ho).frame hsteered
  have hend := (hv.frame TickFrame.refl.forceTick).frame hwork
  refine ⟨⟨hend.tickNo.trans hutick, htime ▸ hend.counters, fun hf => hend.fault (htime.symm ▸ hf), fun hf hbit hsrc => ?_⟩,
    fun d => (hend.outs d).trans (State.outs_of_clock hbegun d)⟩
  have hctl : v.tsynCtl = s.tsynCtl :=
    hsteeredCtl.trans ((State.timeAdvance_tsynCtl (htime.symm ▸ ht) (htime.symm ▸ hf)).trans hbegunCtl)
  have hvbit : v.fbit F.synTsynCtl_FORCE_BPLL = true :=
    (congrArg (fun w => bit w F.synTsynCtl_FORCE_BPLL.lo) hctl).trans hbit
  have husrc : u.tsyn.src = .tsyn := (State.source_of_clock hbegun).trans hsrc
  have hforce := State.forceTick_source hvbit (husrc ▸ hv.source)
  exact hwork.source.elim (fun e => e.trans hforce) id

/-- A tick passes when its predecessor has no work left; Drovers that have sent out nothing for it add nothing to it. -/
theorem State.tickAll_ticked (hready : s.tickReady = true) (hquiet : s.quietNext) (ht : s.time.Untroubled) (ho : o.Spares) :
    Ticked s (s.tickAll o) := by
  have hrun : s.time.run = true := (Bool.and_eq_true_iff.mp (Bool.and_eq_true_iff.mp hready).1).1
  obtain ⟨htick, houts⟩ := State.tick_ticked hrun ht ho
  have hall : s.tickAll o = (s.tick o).drvDue := if_pos hready
  rw [hall]
  refine htick.of_clock (State.drvDue_clock _ fun d x hx => ?_)
  rw [htick.tickNo]
  exact hquiet d x (houts d ▸ hx)

theorem State.tickAll_notReady (h : s.tickReady = false) : s.tickAll o = s := if_neg fun e => Bool.false_ne_true (h.symm.trans e)

end Tick

/-! ### The judgement (R54) -/

section Eval
variable {t : TimeSt}

theorem TimeSt.eval_agree (heq : t.a.val = t.b.val) (hA : t.a.passes t.pa = true) (hB : t.b.passes t.pb = true) :
    t.eval = { useA := true, clean := true } := by
  simp [TimeSt.eval, timeEval, heq, hA, hB]

/-- The counter that passes drives, the other is suspect. -/
theorem TimeSt.Untroubled.eval_differ {okA : Bool} (h : t.Untroubled) (hne : t.a.val ≠ t.b.val) (hA : t.a.passes t.pa = okA)
    (hB : t.b.passes t.pb = !okA) : t.eval = { useA := okA, badA := !okA, badB := okA, masked := true } := by
  cases okA <;> simp [TimeSt.eval, timeEval, hne, hA, hB, h.suspA, h.suspB]

theorem TimeSt.Untroubled.eval_fault (h : t.Untroubled) (hne : t.a.val ≠ t.b.val) (hok : t.a.passes t.pa = t.b.passes t.pb) :
    t.eval = { useA := true, fault := true } := by
  simp [TimeSt.eval, timeEval, hne, hok, h.suspA, h.suspB]

end Eval

/-- Settles O10: a tick's counters are those judged by R54's table (`State.tickAll_ticked`), read off row by row. -/
theorem tickAdvancesDeviceTime : Obligations.TickAdvancesDeviceTime := by
  intro o s
  refine ⟨fun hready => ⟨_, rfl, State.tickAll_notReady hready⟩, ?_⟩
  intro hready hquiet hsuspA hsuspB hreloadA hreloadB hfaultOn hupA hupB hparA hparB okA okB
  have hs : s.time.Untroubled := ⟨hsuspA, hsuspB, hreloadA, hreloadB, hfaultOn⟩
  have ht : Ticked s (s.tickAll o) := State.tickAll_ticked hready hquiet hs ⟨hupA, hupB, hparA, hparB⟩
  obtain ⟨htick, hcounters, hfault, hforced⟩ := ht
  refine ⟨fun heq hA hB => ⟨_, rfl, ?_⟩, fun hne hA hB => ⟨_, rfl, ?_⟩, fun hne hA hB => ⟨_, rfl, ?_⟩, fun hne hok => ⟨_, rfl, ?_⟩⟩
  · rw [TimeSt.eval_agree heq hA hB] at hcounters hforced
    exact ⟨htick, hcounters.now, hcounters.pa, congrArg Ctr.val hcounters.a, (congrArg Ctr.val hcounters.b).trans (congrArg ctrInc heq.symm),
      hcounters.suspA, hcounters.suspB, hforced rfl⟩
  · rw [hs.eval_differ hne hA hB] at hcounters
    exact ⟨htick, hcounters.now, hcounters.suspA, hcounters.reloadA⟩
  · rw [hs.eval_differ hne hA hB] at hcounters
    exact ⟨htick, hcounters.now, hcounters.suspB, hcounters.reloadB⟩
  · rw [hs.eval_fault hne hok] at hcounters hfault
    exact ⟨htick, hcounters.faultOn, hfault rfl⟩

end Sys2Proof.Machine
end

section
/-! PROOFS. The channels of the edge outputs: reads after writes, what an event leaves alone, what the queue, the calibration and the
engines do to a channel and to nothing else (R65 to R92, R149, R168, R251). -/

namespace Sys2Proof.Machine

/-! ### Reads after writes -/

section Reads
variable {s t : State} {n m : Nat}

@[simp] theorem State.getEo_setEo_same (s : State) (n : Nat) (c : Eo) : (s.setEo n c).getEo n = c := SMap.get_put_same ..

theorem State.getEo_setEo_other (c : Eo) (h : m ≠ n) : (s.setEo n c).getEo m = s.getEo m := SMap.get_put_other _ _ _ _ _ _ _ h

theorem State.getEo_setEo (s : State) (n m : Nat) (c : Eo) : (s.setEo n c).getEo m = if m = n then c else s.getEo m := SMap.get_put ..

@[simp] theorem State.getEo_eoOffer_same (s : State) (n : Nat) (o : Offer) :
    (s.eoOffer n o).getEo n = { s.getEo n with offers := (s.getEo n).offers ++ [o] } := State.getEo_setEo_same ..

theorem State.getEo_eoOffer_other (o : Offer) (h : m ≠ n) : (s.eoOffer n o).getEo m = s.getEo m := State.getEo_setEo_other _ h

theorem State.getEo_of_eo (h : t.eo = s.eo) (m : Nat) : t.getEo m = s.getEo m := congrArg (fun x : SMap Nat Eo => x.get {} m) h

theorem State.rget_of_regs (h : t.regs = s.regs) (c : RegKey) : t.rget c = s.rget c :=
  congrArg (fun x : SMap RegKey Nat => x.get (regReset c) c) h

theorem State.rget_cntAdd_same (s : State) (r : Reg) (k i : Nat) : (s.cntAdd r k i).rget ⟨r, i, 0, 0⟩ = counted (s.rget ⟨r, i, 0, 0⟩) k :=
  State.rget_rset_same ..

theorem State.rget_cntAdd_other {r : Reg} {k i : Nat} {c : RegKey} (h : c ≠ ⟨r, i, 0, 0⟩) : (s.cntAdd r k i).rget c = s.rget c :=
  State.rget_rset_other _ _ _ _ h

/-- A status bit that stands is not taken back by another that is set. -/
theorem State.fbit_fon_mono {f g : Fld} {i j k i2 j2 k2 : Nat} (hf : f.hi = f.lo) (h : s.fbit g i2 j2 k2 = true) :
    (s.fon f i j k).fbit g i2 j2 k2 = true := by
  by_cases hk : (⟨g.reg, i2, j2, k2⟩ : RegKey) = ⟨f.reg, i, j, k⟩
  · by_cases hb : g.lo = f.lo
    · have hsame := State.fbit_fon_same s f i j k hf
      rw [State.fbit, hk, hb]
      exact hsame
    · have hset : (s.fon f i j k).rget ⟨f.reg, i, j, k⟩ = setBits (s.rget ⟨f.reg, i, j, k⟩) f.hi f.lo 1 := State.rget_rset_same ..
      rw [State.fbit, hk, hset, bit_setBits_out (by omega) (by omega), ← hk]
      exact h
  · rw [State.fbit, State.rget_fon_other _ _ _ _ _ _ hk]
    exact h

theorem State.fbit_of_rget {f : Fld} {i j k : Nat} (h : t.rget ⟨f.reg, i, j, k⟩ = s.rget ⟨f.reg, i, j, k⟩) :
    t.fbit f i j k = s.fbit f i j k := congrArg (bit · f.lo) h

theorem State.fget_of_rget {f : Fld} {i j k : Nat} (h : t.rget ⟨f.reg, i, j, k⟩ = s.rget ⟨f.reg, i, j, k⟩) :
    t.fget f i j k = s.fget f i j k := congrArg (bits · f.hi f.lo) h

theorem State.regsWithin.refl (s : State) (bs : List Blk) : s.regsWithin s bs := fun _ _ => rfl

theorem State.regsWithin.trans {u : State} {bs : List Blk} (h : s.regsWithin t bs) (h2 : t.regsWithin u bs) : s.regsWithin u bs :=
  fun c hc => (h2 c hc).trans (h c hc)

theorem State.regsWithin.mono {bs bs2 : List Blk} (h : s.regsWithin t bs) (hb : bs ⊆ bs2) : s.regsWithin t bs2 :=
  fun c hc => h c fun hm => hc (hb hm)

theorem State.rset_within {k : RegKey} {v : Nat} {bs : List Blk} (h : k.r.info.blk ∈ bs) : s.regsWithin (s.rset k v) bs :=
  fun _ hc => State.rget_rset_other _ _ _ _ fun e => hc (by rw [e]; exact h)

theorem State.fon_within {f : Fld} {i j k : Nat} {bs : List Blk} (h : f.reg.info.blk ∈ bs) : s.regsWithin (s.fon f i j k) bs :=
  fun _ hc => State.rget_fon_other _ _ _ _ _ _ fun e => hc (by rw [e]; exact h)

theorem State.cntAdd_within {r : Reg} {k i : Nat} {bs : List Blk} (h : r.info.blk ∈ bs) : s.regsWithin (s.cntAdd r k i) bs :=
  State.rset_within h

end Reads

/-! ### Events (R149, R156, R168) -/

/-- What raising an event leaves alone: every register but those of the Droveway, of these DW_CTL, and all but the Droveway and, for one
held back by its tag, the black box's offers. -/
structure EventFrame (s t : State) : Prop where
  regs : s.regsWithin t [.dw]
  limit : t.rget ⟨.dwCtl, 0, 0, 0⟩ = s.rget ⟨.dwCtl, 0, 0, 0⟩
  rest : { t with regs := s.regs, cyc := s.cyc, dw := s.dw, bbr := s.bbr } = s

section Events
variable {s t u : State} {prod tag : Nat} {ts : Instant}

theorem EventFrame.refl (s : State) : EventFrame s s := ⟨.refl _ _, rfl, rfl⟩

theorem EventFrame.trans (h : EventFrame s t) (h2 : EventFrame t u) : EventFrame s u :=
  ⟨h.regs.trans h2.regs, h2.limit.trans h.limit,
    (congrArg (fun x : State => { x with regs := s.regs, cyc := s.cyc, dw := s.dw, bbr := s.bbr }) h2.rest).trans h.rest⟩

theorem EventFrame.of_sameBesideDw (h : s.sameBesideDw t) : EventFrame s t := by
  obtain ⟨d, rfl⟩ := State.sameBesideDw_iff.mp h
  exact ⟨.refl _ _, rfl, rfl⟩

theorem EventFrame.eo (h : EventFrame s t) : t.eo = s.eo := (congrArg State.eo h.rest :)

/-- The limit on the tags of events stands. -/
theorem EventFrame.genLimit (h : EventFrame s t) : t.fget F.dwCtl_GEN_LIMIT = s.fget F.dwCtl_GEN_LIMIT := State.fget_of_rget h.limit

theorem EventFrame.rget_eo (h : EventFrame s t) {c : RegKey} (hc : c.r.info.blk = .eo) : t.rget c = s.rget c :=
  h.regs c (by rw [hc]; decide)

theorem EventFrame.rget (h : EventFrame s t) {c : RegKey} (hc : c.r.info.blk ≠ .dw) : t.rget c = s.rget c := h.regs c (by simpa using hc)

/-- The event is noted as suppressed in a channel of the Droveway. -/
theorem State.loopIn_frame (s : State) (prod c : Nat) : EventFrame s (s.loopIn prod c) := by
  unfold State.loopIn
  split
  · exact ⟨State.fon_within (by decide), State.rget_fon_other _ _ _ _ _ _ (by simp [F.dwChStat_LOOP]), rfl⟩
  · exact ⟨fun k hk => State.fon_within (s := s.offerBbr _) (bs := [.dw]) (by decide) k hk,
      State.rget_fon_other _ _ _ _ _ _ (by simp [F.dwChStat_LOOP]), rfl⟩

/-- An event whose tag is within the limit is queued, and nothing but the Droveway sees it. -/
theorem State.raiseEv_queued (hv : vectorOf prod = none) (ht : tag ≤ s.fget F.dwCtl_GEN_LIMIT) :
    (s.raiseEv prod ts tag).raises prod ts tag s.tickNo ∧ s.sameBesideDw (s.raiseEv prod ts tag) := by
  have hraise : ∃ l : List Nat, s.raiseEv prod ts tag = l.foldl (fun st x => st.deliver x [⟨ts, tag⟩] (s.tickNo + 1))
      (s.setDw { s.dw with evq := s.dw.evq ++ [⟨prod, ts, tag, s.tickNo, []⟩] }) := by
    rw [State.raiseEv, if_pos rfl, State.raiseNow, if_neg (not_lt.mpr ht), State.sendVector_none hv]
    exact ⟨_, rfl⟩
  obtain ⟨l, hraise⟩ := hraise
  obtain ⟨hev, hsame⟩ := State.foldl_deliver (s.setDw { s.dw with evq := s.dw.evq ++ [⟨prod, ts, tag, s.tickNo, []⟩] }) l [⟨ts, tag⟩]
    (s.tickNo + 1)
  rw [← hraise] at hev hsame
  obtain ⟨d, hd⟩ := State.sameBesideDw_iff.mp hsame
  rw [hd] at hev ⊢
  refine ⟨?_, rfl⟩
  show _ ∈ if s.tickNo = s.tickNo then d.evq else d.soon
  rw [if_pos rfl, show d.evq = s.dw.evq ++ [⟨prod, ts, tag, s.tickNo, []⟩] from hev]
  exact List.mem_append_right _ (List.mem_singleton_self _)

/-- An event without a vector touches the Droveway and its registers, whatever its tag. -/
theorem State.raiseEv_frame (s : State) (ts : Instant) (tag : Nat) (hv : vectorOf prod = none) : EventFrame s (s.raiseEv prod ts tag) := by
  by_cases ht : tag ≤ s.fget F.dwCtl_GEN_LIMIT
  · exact .of_sameBesideDw (State.raiseEv_queued hv ht).2
  · have hloop : s.raiseEv prod ts tag = (((s.fon F.dwStat_LOOP).cnt .dwCntLoop).channelsOf prod).foldl (fun st c => st.loopIn prod c)
        ((s.fon F.dwStat_LOOP).cnt .dwCntLoop) := (if_pos rfl).trans (if_pos (not_le.mp ht))
    rw [hloop]
    refine List.foldlRecOn _ _ (motive := EventFrame s) ⟨?_, ?_, rfl⟩ fun st h c _ => h.trans (st.loopIn_frame prod c)
    · exact (State.fon_within (by decide)).trans (State.cntAdd_within (by decide))
    · exact (State.rget_cntAdd_other (by simp)).trans (State.rget_fon_other _ _ _ _ _ _ (by simp [F.dwStat_LOOP]))

theorem State.raiseIf_frame (s : State) (b : Bool) (ts : Instant) (tag : Nat) (hv : vectorOf prod = none) :
    EventFrame s (s.raiseIf b prod ts tag) := by
  unfold State.raiseIf
  split
  · exact s.raiseEv_frame ts tag hv
  · exact .refl s

/-- The events of the edge outputs have no vector (R432). -/
theorem vectorOf_eo (h : prod < 0x140) : vectorOf prod = none := by
  have hne {p : Nat} (hp : 0x140 ≤ p) : prod ≠ p := by omega
  have hnle {p : Nat} (hp : 0x140 ≤ p) : ¬ p ≤ prod := by omega
  unfold vectorOf
  rw [if_neg (hne (by decide)), if_neg (hne (by decide)), if_neg (hne (by decide)), if_neg (hne (by decide)),
    if_neg fun e => hnle (by decide) e.1, if_neg fun e => e.elim (hne (by decide)) fun e => hnle (by decide) e.1]

theorem vectorOf_eoIss {n : Nat} (h : n < 64) : vectorOf (Prod.eoIss n) = none := vectorOf_eo (by unfold Prod.eoIss; omega)
theorem vectorOf_eoVer {n : Nat} (h : n < 64) : vectorOf (Prod.eoVer n) = none := vectorOf_eo (by unfold Prod.eoVer; omega)
theorem vectorOf_eoErr {n : Nat} (h : n < 64) : vectorOf (Prod.eoErr n) = none := vectorOf_eo (by unfold Prod.eoErr; omega)
theorem vectorOf_eoLate {n : Nat} (h : n < 64) : vectorOf (Prod.eoLate n) = none := vectorOf_eo (by unfold Prod.eoLate; omega)
theorem vectorOf_eoQlow {n : Nat} (h : n < 64) : vectorOf (Prod.eoQlow n) = none := vectorOf_eo (by unfold Prod.eoQlow; omega)

end Events

/-! ### What the work of a channel leaves alone -/

/-- What a channel's work leaves alone that sets and counts nothing in EO's registers. -/
structure ChanFrame (s t : State) (n : Nat) : Prop extends EoFrame s t n where
  quiet : s.regsWithin t [.dw]
  limit : t.rget ⟨.dwCtl, 0, 0, 0⟩ = s.rget ⟨.dwCtl, 0, 0, 0⟩

section Frames
variable {s t u : State} {n : Nat}

theorem EoFrame.refl (s : State) (n : Nat) : EoFrame s s n := ⟨fun _ _ => rfl, .refl _ _, rfl⟩

theorem EoFrame.trans (h : EoFrame s t n) (h2 : EoFrame t u n) : EoFrame s u n where
  channels m hm := (h2.channels m hm).trans (h.channels m hm)
  regs := h.regs.trans h2.regs
  rest := (congrArg (fun x : State => { x with regs := s.regs, cyc := s.cyc, eo := s.eo, dw := s.dw, bbr := s.bbr }) h2.rest).trans h.rest

theorem EoFrame.setEo (h : EoFrame s t n) (c : Eo) : EoFrame s (t.setEo n c) n where
  channels m hm := (State.getEo_setEo_other c hm).trans (h.channels m hm)
  regs := h.regs
  rest := h.rest

theorem EoFrame.fon (h : EoFrame s t n) {f : Fld} {i : Nat} (hf : f.reg.info.blk = .eo) : EoFrame s (t.fon f i) n where
  channels := h.channels
  regs := h.regs.trans (State.fon_within (by simp [hf]))
  rest := h.rest

theorem EoFrame.cntAdd (h : EoFrame s t n) {r : Reg} {k i : Nat} (hr : r.info.blk = .eo) : EoFrame s (t.cntAdd r k i) n where
  channels := h.channels
  regs := h.regs.trans (State.cntAdd_within (by simp [hr]))
  rest := h.rest

theorem EventFrame.chanFrame (h : EventFrame s t) (n : Nat) : ChanFrame s t n where
  channels m _ := State.getEo_of_eo h.eo m
  regs := h.regs.mono (by simp)
  rest := congrArg (fun x : State => { x with eo := s.eo }) h.rest
  quiet := h.regs
  limit := h.limit

theorem ChanFrame.refl (s : State) (n : Nat) : ChanFrame s s n := ⟨.refl s n, .refl _ _, rfl⟩

theorem ChanFrame.trans (h : ChanFrame s t n) (h2 : ChanFrame t u n) : ChanFrame s u n :=
  ⟨h.toEoFrame.trans h2.toEoFrame, h.quiet.trans h2.quiet, h2.limit.trans h.limit⟩

theorem ChanFrame.setEo (h : ChanFrame s t n) (c : Eo) : ChanFrame s (t.setEo n c) n := ⟨h.toEoFrame.setEo c, h.quiet, h.limit⟩

theorem ChanFrame.genLimit (h : ChanFrame s t n) : t.fget F.dwCtl_GEN_LIMIT = s.fget F.dwCtl_GEN_LIMIT := State.fget_of_rget h.limit

theorem ChanFrame.rget_eo (h : ChanFrame s t n) {c : RegKey} (hc : c.r.info.blk = .eo) : t.rget c = s.rget c :=
  h.quiet c (by rw [hc]; decide)

theorem ChanFrame.rget (h : ChanFrame s t n) {c : RegKey} (hc : c.r.info.blk ≠ .dw) : t.rget c = s.rget c := h.quiet c (by simpa using hc)

theorem ChanFrame.fbit (h : ChanFrame s t n) {f : Fld} {i : Nat} (hf : f.reg.info.blk ≠ .dw) : t.fbit f i = s.fbit f i :=
  State.fbit_of_rget (h.rget hf)

/-! ### Actions leave the queue (R65, R94) -/

/-- The channel keeps the actions that did not leave, and nothing else of it changes. -/
theorem State.eoLeave_effect (s : State) (hn : n < 64) (p : QAct → Bool) :
    ChanFrame s (s.eoLeave n p) n ∧ (s.eoLeave n p).getEo n = { s.getEo n with queue := (s.getEo n).queue.filter fun a => !p a } := by
  unfold State.eoLeave
  extract_lets c gone kept ql s1
  split
  next h =>
    have hall : c.queue.filter (fun a => !p a) = c.queue := by
      rw [List.filter_eq_self]
      intro a ha
      rw [List.isEmpty_iff, List.filter_eq_nil_iff] at h
      simpa using h a ha
    exact ⟨.refl s n, congrArg (fun q => { c with queue := q }) hall.symm⟩
  next =>
    have hev := s1.raiseIf_frame (decide (ql < c.queue.length) && decide (kept.length ≤ ql)) s.nowI
      ((gone.getLast?.map QAct.tag).getD 0 + 1) (vectorOf_eoQlow hn)
    refine ⟨((ChanFrame.refl s n).setEo _).trans (hev.chanFrame n), ?_⟩
    exact (State.getEo_of_eo hev.eo n).trans (State.getEo_setEo_same ..)

theorem State.eoLeave_frame (s : State) (hn : n < 64) (p : QAct → Bool) : ChanFrame s (s.eoLeave n p) n := (s.eoLeave_effect hn p).1

theorem State.getEo_eoLeave (s : State) (hn : n < 64) (p : QAct → Bool) :
    (s.eoLeave n p).getEo n = { s.getEo n with queue := (s.getEo n).queue.filter fun a => !p a } := (s.eoLeave_effect hn p).2

/-- The channel with the actions gone whose work is over. -/
def Eo.settled (c : Eo) : Eo := { c with queue := c.queue.filter fun a => !finished c.cuts a }

theorem State.eoSettle_frame (s : State) (hn : n < 64) : ChanFrame s (s.eoSettle n) n := s.eoLeave_frame hn _

theorem State.getEo_eoSettle (s : State) (hn : n < 64) : (s.eoSettle n).getEo n = (s.getEo n).settled := s.getEo_eoLeave hn _

/-- A channel that is changed and then settled. -/
theorem State.setEo_eoSettle (s : State) (hn : n < 64) (c : Eo) :
    ChanFrame s ((s.setEo n c).eoSettle n) n ∧ ((s.setEo n c).eoSettle n).getEo n = c.settled := by
  refine ⟨((ChanFrame.refl s n).setEo c).trans (State.eoSettle_frame _ hn), ?_⟩
  rw [State.getEo_eoSettle _ hn, State.getEo_setEo_same]

end Frames

/-! ### Holds of CAL and the units' records (R251, R127) -/

/-- What calibration and a monitor unit's FIFO leave alone. -/
structure UnitFrame (s t : State) : Prop where
  regs : s.regsWithin t [.tiu, .cal]
  rest : { t with regs := s.regs, cyc := s.cyc, tiu := s.tiu, cal := s.cal } = s

section Units
variable {s t u : State} {n : Nat}

theorem UnitFrame.refl (s : State) : UnitFrame s s := ⟨.refl _ _, rfl⟩

theorem UnitFrame.trans (h : UnitFrame s t) (h2 : UnitFrame t u) : UnitFrame s u :=
  ⟨h.regs.trans h2.regs,
    (congrArg (fun x : State => { x with regs := s.regs, cyc := s.cyc, tiu := s.tiu, cal := s.cal }) h2.rest).trans h.rest⟩

theorem UnitFrame.eo (h : UnitFrame s t) : t.eo = s.eo := (congrArg State.eo h.rest :)

theorem UnitFrame.rget (h : UnitFrame s t) {c : RegKey} (hc : c.r.info.blk ∉ [Blk.tiu, .cal]) : t.rget c = s.rget c := h.regs c hc

theorem UnitFrame.setCal (h : UnitFrame s t) (x : Cal) : UnitFrame s (t.setCal x) := ⟨h.regs, h.rest⟩

theorem UnitFrame.setCalEo (h : UnitFrame s t) (i : Nat) (x : CalEo) : UnitFrame s (t.setCalEo i x) := ⟨h.regs, h.rest⟩

theorem UnitFrame.setCalReg (h : UnitFrame s t) (i : Nat) (x : CalReg) : UnitFrame s (t.setCalReg i x) := ⟨h.regs, h.rest⟩

theorem UnitFrame.fon (h : UnitFrame s t) {f : Fld} {i : Nat} (hf : f.reg.info.blk ∈ [Blk.tiu, .cal]) : UnitFrame s (t.fon f i) :=
  ⟨h.regs.trans (State.fon_within hf), h.rest⟩

theorem UnitFrame.foldl {A : Type} {f : State → A → State} {l : List A} (h : UnitFrame s t)
    (hf : ∀ st a, UnitFrame s st → UnitFrame s (f st a)) : UnitFrame s (l.foldl f t) :=
  List.foldlRecOn l f (motive := UnitFrame s) h fun _ h a _ => hf _ a h

/-- A release writes no register. -/
theorem State.calRelease_effect (s : State) (n : Nat) : ∃ c x, s.calRelease n = { s with cal := c, tiu := x } := by
  unfold State.calRelease
  split
  · exact ⟨_, _, rfl⟩
  · exact ⟨s.cal, s.tiu, rfl⟩

theorem State.calRelease_frame (s : State) (n : Nat) : UnitFrame s (s.calRelease n) := by
  obtain ⟨c, x, h⟩ := s.calRelease_effect n
  rw [h]
  exact ⟨.refl _ _, rfl⟩

@[simp] theorem State.calRelease_eo (s : State) (n : Nat) : (s.calRelease n).eo = s.eo := (s.calRelease_frame n).eo

@[simp] theorem State.getEo_calRelease (s : State) (n m : Nat) : (s.calRelease n).getEo m = s.getEo m := State.getEo_of_eo (s.calRelease_eo n) m

@[simp] theorem State.rget_calRelease (s : State) (n : Nat) (c : RegKey) : (s.calRelease n).rget c = s.rget c := by
  obtain ⟨x, y, h⟩ := s.calRelease_effect n
  rw [h]
  rfl

@[simp] theorem State.calRelease_time (s : State) (n : Nat) : (s.calRelease n).time = s.time := (congrArg State.time (s.calRelease_frame n).rest :)

theorem State.addRun_frame (s : State) (eo : Bool) (idx : Nat) (dither : Bool) : UnitFrame s (s.addRun eo idx dither) := by
  unfold State.addRun
  split <;> exact (UnitFrame.refl s).setCal _

theorem UnitFrame.addRunIf (h : UnitFrame s t) (b : Bool) (eo : Bool) (idx : Nat) (dither : Bool) :
    UnitFrame s (if b then t.addRun eo idx dither else t) := by
  split
  · exact h.trans (t.addRun_frame eo idx dither)
  · exact h

theorem State.scheduleRegion_frame (s : State) (r : Nat) (temp dither : Bool) : UnitFrame s (s.scheduleRegion r temp dither) := by
  unfold State.scheduleRegion
  split
  next => exact .refl s
  next =>
    extract_lets x left s1 s2
    have h1 : UnitFrame s s1 := (UnitFrame.refl s).foldl fun _ _ h => h.addRunIf ..
    have h2 : UnitFrame s s2 := h1.foldl fun _ _ h => h.addRunIf ..
    split
    · exact h2.setCalReg _ _
    · split <;> exact h2.setCalReg _ _

theorem State.trkFit_frame (s : State) (n : Nat) : UnitFrame s (s.trkFit n) := by
  unfold State.trkFit
  extract_lets c hi
  split
  · exact .refl s
  · exact (((UnitFrame.refl s).setCalEo _ _).fon (by decide)).trans (State.scheduleRegion_frame ..)

theorem State.idleTable_frame (s : State) (n : Nat) : UnitFrame s (s.idleTable n) := by
  unfold State.idleTable
  extract_lets c
  split
  · exact ((UnitFrame.refl s).setCalEo _ _).trans (State.trkFit_frame ..)
  · exact .refl s

theorem State.calTrack_frame (s : State) (n : Nat) (e : Int) : UnitFrame s (s.calTrack n e) := by
  delta State.calTrack
  extract_lets c size sum want hi lim s1
  have h1 : UnitFrame s s1 := (UnitFrame.refl s).setCalEo _ _
  split
  · exact (UnitFrame.refl s).setCalEo _ _
  split
  · exact .refl s
  split
  · exact (UnitFrame.refl s).setCalEo _ _
  split
  · exact h1
  · exact (h1.fon (by decide)).trans (State.scheduleRegion_frame ..)

theorem State.calCommit_frame (s : State) (n : Nat) (target : Instant) : UnitFrame s (s.calCommit n target) :=
  ((UnitFrame.refl s).setCalEo _ _).trans (State.trkFit_frame ..)

end Units

/-! ### The end of a profile's engine (R86) -/

section Engines
variable {s : State} {n : Nat}

/-- The channel with the engine of an action stopped and the action done. -/
def Eo.engEnded (c : Eo) (id : Nat) : Eo :=
  { c with
    track := match c.engine with
      | some e => trackStop id e.tick c.track
      | none => c.track
    engine := match c.engine with
      | some e => if e.act = id then none else some e
      | none => none
    queue := c.queue.map fun a => if a.id = id then { a with done := true } else a }

theorem State.engEnd_effect (s : State) (hn : n < 64) (id : Nat) :
    ChanFrame s (s.engEnd n id) n ∧ (s.engEnd n id).getEo n = ((s.getEo n).engEnded id).settled := s.setEo_eoSettle hn _

end Engines

end Sys2Proof.Machine
end

section
/-! PROOFS. The edge instructions offer their entries (R71, R185, R231). -/

namespace Sys2Proof.Machine

section Instructions
variable {s : State} {d : Fin 16} {k : Fin 8} {ch : ChSrc} {i : Instr} {w : Word} {entry : Task → Nat}

/-- The instruction holds its task BUSY and offers an entry to a channel with TAG + 1, for acceptance two ticks after the issue; nothing
else changes but what every issue changes. -/
def OffersEntry (i : Instr) (s : State) (d : Fin 16) (k : Fin 8) (n entry : Nat) : Prop :=
  Completes i s fun t =>
    t.getTask d.val k.val = { s.getTask d.val k.val with st := .busy, wait := .action n, offer := entry } ∧
    (t.getEo n).offers =
      (s.getEo n).offers ++ [{ src := .task d k, entry := entry, tag := (s.getTask d.val k.val).tag + 1, due := s.tickNo + 2 }] ∧
    { t.getEo n with offers := (s.getEo n).offers } = s.getEo n ∧ (∀ m, m ≠ n → t.getEo m = s.getEo m) ∧
    IssueFrame s t d.val k.val ∧ { t with regs := s.regs, drv := s.drv, eo := s.eo } = s

/-- An offer reaches its channel and no Drover. -/
theorem IssueFrame.eoOffer {t : State} {d k n : Nat} {o : Offer} (h : IssueFrame s t d k) : IssueFrame s (t.eoOffer n o) d k :=
  ⟨h.regs, h.counted, h.drovers, h.tasks, h.imem, h.check, h.round⟩

/-- An edge instruction that fires offers the entry its task spells to the channel it names. -/
theorem offersEntry_of_exec (hn : s.nextOk d.val k.val = true)
    (he : exec i s = .next (s.issue d.val k.val {} w fun st => st.bAction d k ch entry)) (hf : s.fires d.val k.val w = true) :
    OffersEntry i s d k ((s.getTask d.val k.val).chan ch) (entry (s.getTask d.val k.val)) := by
  rw [State.issue_of_fires _ _ _ _ _ hf, State.bAction, State.inRange_issued _ _ _ _ hn, State.markIssue_getTask] at he
  refine ⟨_, he, State.getTask_setTask_same .., ?_, ?_, fun m hm => State.getEo_eoOffer_other _ hm,
    (taskFrame_markIssue_setTask s d.val k.val _).issue.eoOffer, rfl⟩
  · rw [State.getEo_eoOffer_same]
    rfl
  · rw [State.getEo_eoOffer_same]
    rfl

end Instructions

theorem bnat_false : bnat false = 0 := rfl

/-- An entry is the sum of its fields, each at its place (R71); a field that an action does not have is 0. -/
theorem mkEntry_start (typ start : Nat) (level : Bool) :
    mkEntry typ level false false false 0 start 0 0 0 = typ + 16 * bnat level + start * 2 ^ 32 := by
  simp only [mkEntry, bnat_false, mul_zero, zero_mul, add_zero]

theorem mkEntry_pulse (start width : Nat) : mkEntry 1 false false false false 0 start width 0 0 = 1 + start * 2 ^ 32 + width * 2 ^ 128 := by
  simp only [mkEntry, bnat_false, mul_zero, zero_mul, add_zero]

theorem mkEntry_train (unlim chain : Bool) (start width period count : Nat) :
    mkEntry 2 false unlim chain false 0 start width period count =
      2 + 32 * bnat unlim + 64 * bnat chain + start * 2 ^ 32 + width * 2 ^ 128 + period * 2 ^ 192 + count * 2 ^ 288 := by
  simp only [mkEntry, bnat_false, mul_zero, add_zero]

theorem mkEntry_prof (cont bank : Bool) (start count : Nat) :
    mkEntry 3 false false false cont (bnat bank) start 0 0 count =
      3 + 128 * bnat cont + 256 * bnat bank + start * 2 ^ 32 + count * 2 ^ 288 := by
  simp only [mkEntry, bnat_false, mul_zero, zero_mul, add_zero]

/-- Settles O33: each instruction by `offersEntry_of_exec`, its entry by the sum of its fields. -/
theorem edgeInstructionsOffer : Obligations.EdgeInstructionsOffer := by
  intro d k ch ts s hn t0 n start width count offers
  have hchan : t0.chan ch = n := by cases ch <;> rfl
  have offer {i : Instr} {w : Word} {entry : Task → Nat} {e : Nat} (hexec : ∀ s, exec i s = .next (s.issue d.val k.val {} w fun st =>
      st.bAction d k ch entry)) (hentry : entry t0 = e) (hf : s.fires d.val k.val w = true) : offers i e := by
    have h := offersEntry_of_exec hn (hexec s) hf
    rw [show entry (s.getTask d.val k.val) = e from hentry, show (s.getTask d.val k.val).chan ch = n from hchan] at h
    exact h
  have hedge (level : Bool) : t0.edgeEntry ts.val level = 16 * bnat level + start := by
    rw [Task.edgeEntry, mkEntry_start, zero_add]
  have hcancel : t0.cancelEntry ts.val = 4 + start := by rw [Task.cancelEntry, mkEntry_start, bnat_false, mul_zero, add_zero]
  exact ⟨fun level => offer (fun _ => rfl) (hedge level), fun aw => offer (fun _ => rfl) (mkEntry_pulse ..),
    fun aw ap ac unlim chain => offer (fun _ => rfl) (mkEntry_train ..), fun ac cont bank => offer (fun _ => rfl) (mkEntry_prof ..),
    offer (fun _ => rfl) hcancel⟩

end Sys2Proof.Machine
end

section
/-! PROOFS. Commits of EO_QE and EO_TE, and the groups at a channel's trigger (R70 to R73, R83, R101). -/

namespace Sys2Proof.Machine

/-! ### Writes of EO's registers by name -/

/-- The registers of a channel that commands name lie word by word at their addresses. -/
theorem eoMapped : ∀ r ∈ [Reg.eoCtl, .eoQe, .eoTe], ∀ n : Fin 64, RegKey.mapped ⟨r, n.val, 0, 0⟩ := by
  unfold RegKey.mapped
  decide +kernel

section Writes
variable {s : State} {q : Requester} {key : RegKey} {v : Nat}

theorem State.readable_of_writable {r : Reg} (h : s.writable q r = true) : s.readable q r = true := by
  simp only [State.writable, Bool.and_eq_true] at h
  simp only [State.readable, Bool.and_eq_true]
  exact h.1

theorem State.notOutranked_of_writable {r : Reg} (h : s.writable q r = true) : s.outranksAny q r = false := by
  simp only [State.writable, Bool.and_eq_true, Bool.not_eq_true'] at h
  exact h.2

/-- The highest word of an entry stays staged beside its commit (R101). -/
theorem State.wordWrite_entry {w x : Nat} (hr : key.r = .eoQe ∨ key.r = .eoTe) (hw : w + 1 = key.r.info.words) :
    s.wordWrite q key w x = (s.stageSet q key (putWord (s.stageOf q key) w x)).commitOf q key (putWord (s.stageOf q key) w x) := by
  have hmany : key.r.info.words ≠ 1 := by rcases hr with h | h <;> rw [h] <;> decide
  rw [State.wordWrite]
  simp only [hmany, hw, lt_irrefl, hr, if_false, if_true]

/-- The words of an entry are staged; the last commits them together. -/
theorem State.busWords_entry {n w : Nat} (hs : s.readable q key.r = true) (hm : key.mapped) (hr : key.r = .eoQe ∨ key.r = .eoTe)
    (hn : w + (n + 1) = key.r.info.words) (hag : s.stageOf q key % 2 ^ (32 * w) = v % 2 ^ (32 * w)) :
    ∃ m x, State.busWords q key v (n + 1) w s = (s.staged m s.cyc).commitOf q key x ∧
      x % 2 ^ (32 * key.r.info.words) = v % 2 ^ (32 * key.r.info.words) := by
  induction n generalizing s w with
  | zero =>
    rw [State.busWords, State.busWrite_word hs hm (by omega)]
    exact ⟨_, _, State.wordWrite_entry hr hn, hn ▸ putWord_wordOf_agree hag⟩
  | succ n ih =>
    rw [State.busWords, State.busWrite_word hs hm (by omega), State.wordWrite_stages (by omega)]
    have hread : (s.stageSet q key (putWord (s.stageOf q key) w (wordOf v w))).stageOf q key % 2 ^ (32 * (w + 1)) =
        v % 2 ^ (32 * (w + 1)) := (congrArg (· % 2 ^ (32 * (w + 1))) (SMap.get_put_same ..)).trans (putWord_wordOf_agree hag)
    exact ih hs (by omega) hread

theorem State.busCommit_entry {r : Reg} {i : Nat} (hs : s.readable q r = true) (hm : RegKey.mapped ⟨r, i, 0, 0⟩) (hr : r = .eoQe ∨ r = .eoTe) :
    ∃ m x, s.busCommit q r i v = (s.staged m s.cyc).commitOf q ⟨r, i, 0, 0⟩ x ∧ x % 2 ^ 320 = v % 2 ^ 320 := by
  have hwords : r.info.words = 9 + 1 := by rcases hr with rfl | rfl <;> rfl
  have h := State.busWords_entry (key := ⟨r, i, 0, 0⟩) (v := v) (n := 9) (w := 0) hs hm hr (by rw [hwords]) (by simp [Nat.mod_one])
  have hbits : 32 * (9 + 1) = 320 := rfl
  rw [hwords, hbits] at h
  rw [State.busCommit, hwords]
  exact h

end Writes

theorem exec_eoQeCommit {q : Port} {n : Fin 64} {s : State} (v : BitVec 320) (hs : s.writable q.req .eoQe = true) :
    ∃ m c e, exec (.eoQeCommit q n v) s = .next ((s.staged m c).qeCommit q.req n.val e) ∧ e % 2 ^ 320 = v.toNat := by
  obtain ⟨m, e, hcommit, he⟩ :=
    State.busCommit_entry (v := v.toNat) (State.readable_of_writable hs) (eoMapped .eoQe (by decide) n) (.inl rfl)
  rw [State.commitOf_asks rfl] at hcommit
  exact ⟨m, _, e, congrArg Host.Outcome.next hcommit, by rw [he, BitVec.toNat_mod_cancel]⟩

theorem exec_eoTeCommit {q : Port} {n : Fin 64} {s : State} (v : BitVec 320) (hs : s.writable q.req .eoTe = true) :
    ∃ m c e, exec (.eoTeCommit q n v) s = .next ((s.staged m c).teCommit q.req n.val e) ∧ e % 2 ^ 320 = v.toNat := by
  obtain ⟨m, e, hcommit, he⟩ :=
    State.busCommit_entry (v := v.toNat) (State.readable_of_writable hs) (eoMapped .eoTe (by decide) n) (.inr rfl)
  rw [State.commitOf_asks rfl] at hcommit
  exact ⟨m, _, e, congrArg Host.Outcome.next hcommit, by rw [he, BitVec.toNat_mod_cancel]⟩

/-! ### The templates (R72, R83) -/

/-- A field reads the bits below its end alone. -/
theorem bits_mod {v hi lo k : Nat} (h : hi < k) : bits (v % 2 ^ k) hi lo = bits v hi lo := by
  rcases Nat.lt_or_ge hi lo with hl | hl
  · simp [bits, show hi + 1 - lo = 0 by omega, Nat.mod_one]
  · have e : 2 ^ k = 2 ^ lo * 2 ^ (k - lo) := by rw [← pow_add]; congr 1; omega
    rw [bits, bits, e, Nat.mod_mul_right_div_self, Nat.mod_mod_of_dvd _ (pow_dvd_pow 2 (by omega))]

theorem bit_mod {v i k : Nat} (h : i < k) : bit (v % 2 ^ k) i = bit v i := by
  rw [bit_eq_bits, bit_eq_bits, bits_mod h]

theorem eType_mod (e : Nat) : eType (e % 2 ^ 320) = eType e := bits_mod (by decide)

/-- An entry's check reads its 320 bits alone. -/
theorem badArgStatic_mod (e : Nat) : badArgStatic (e % 2 ^ 320) = badArgStatic e := by
  simp only [badArgStatic, eType_mod, eResv, eWidth, eCount, eUnlim, ePeriod, bits_mod (show 31 < 320 by decide),
    bits_mod (show 191 < 320 by decide), bits_mod (show 271 < 320 by decide), bits_mod (show 319 < 320 by decide),
    bit_mod (show 5 < 320 by decide)]
  rfl

section Commits
variable {s : State} {q : Requester} {n e : Nat}

@[simp] theorem State.getQres_setQres_same (s : State) (q : Requester) (n : Nat) (r : QRes) : (s.setQres q n r).getQres q n = r :=
  SMap.get_put_same ..

theorem State.getQres_setQres_other {p q : Requester} (r : QRes) (h : p ≠ q) : (s.setQres q n r).getQres p n = s.getQres p n :=
  SMap.get_put_other _ _ _ _ _ _ _ fun e => h (congrArg ReqKey.q e)

/-- A commit has reported its code. -/
def State.committed (s : State) (q : Requester) (n code : Nat) : State := s.setQres q n ⟨((s.getQres q n).seq + 1) % 256, code⟩

theorem State.teCommit_refused {code : Nat} (h : s.templateCheck n e = code) (hc : code ≠ 0) :
    s.teCommit q n e = (s.committed q n code).fon F.eoStat_WR_ERR n := by
  rw [State.teCommit, h]
  exact if_neg hc

theorem State.teCommit_stored (h : s.templateCheck n e = 0) :
    s.teCommit q n e = (s.committed q n 0).setEo n { s.getEo n with slot := e } := by
  rw [State.teCommit, h]
  exact if_pos rfl

end Commits

/-! ### Groups at a channel's trigger (R83, R154) -/

section Groups
variable {s : State} {x : Nat} {g : Group} {n : Nat}

/-- The consumer has taken a group. -/
def State.groupTaken (s : State) (x : Nat) : State := s.setDw { s.dw with inbox := dropGroup x 0 s.tickNo s.dw.inbox }

/-- A consumer of the edge outputs acts on the group at its input. -/
theorem State.onGroup_eo {f : List Stamp → State → State} (hx : x < 0x1A0) (hg : findGroup x 0 s.tickNo s.dw.inbox = some g) :
    s.onGroup x f = f g.evs (s.groupTaken x) := by
  have hheld (t : State) : t.conHeld x = false := by
    unfold State.conHeld
    rw [if_neg (by omega), if_neg (by omega), if_neg (by omega), if_neg (by omega)]
  rw [State.onGroup, State.takeGroup, hg]
  exact if_neg (by rw [hheld]; exact Bool.false_ne_true)

/-- A trigger slot is enabled and armed. -/
def State.trigReady (s : State) (n : Nat) : Bool := s.fbit F.eoCtl_TRIG_EN n && s.fbit F.eoTrigCtl_ARMED n

/-- The offer an event makes of a channel's template (R83). -/
def State.fired (s : State) (n : Nat) (e : Stamp) : Offer := ⟨.slot, fireEntry (s.getEo n).slot e.ts, e.tag, s.tickNo + 2⟩

theorem State.eoTrigOne_fires {e : Stamp} (h : s.trigReady n = true) (h1 : s.fbit F.eoTrigCtl_ONESHOT n = false) :
    s.eoTrigOne n e = s.eoOffer n (s.fired n e) := by
  rw [State.eoTrigOne, if_pos (by simpa [State.trigReady] using h), h1]
  rfl

theorem State.eoTrigOne_fires_once {e : Stamp} (h : s.trigReady n = true) (h1 : s.fbit F.eoTrigCtl_ONESHOT n = true) :
    s.eoTrigOne n e =
      ((s.fset F.eoTrigCtl_ARMED 0 n).hwMark ⟨.eoTrigCtl, n, 0, 0⟩ (2 ^ F.eoTrigCtl_ARMED.lo)).eoOffer n (s.fired n e) := by
  rw [State.eoTrigOne, if_pos (by simpa [State.trigReady] using h), h1]
  rfl

theorem State.eoTrigOne_ignored {e : Stamp} (h : s.trigReady n = false) :
    s.eoTrigOne n e = (s.cnt .eoCntTrigIgn n).fon F.eoStat_TRIG_IGN n := by
  rw [State.eoTrigOne, if_neg (by simpa [State.trigReady] using h)]

/-- An armed slot that stays armed fires for each event of a group. -/
theorem State.foldl_eoTrigOne_fires (h : s.trigReady n = true) (h1 : s.fbit F.eoTrigCtl_ONESHOT n = false) (evs : List Stamp) :
    (evs.foldl (fun x e => x.eoTrigOne n e) s).getEo n = { s.getEo n with offers := (s.getEo n).offers ++ evs.map (s.fired n) } ∧
      (evs.foldl (fun x e => x.eoTrigOne n e) s).regs = s.regs ∧
      ∀ m, m ≠ n → (evs.foldl (fun x e => x.eoTrigOne n e) s).getEo m = s.getEo m := by
  induction evs generalizing s with
  | nil => exact ⟨by simp, rfl, fun _ _ => rfl⟩
  | cons e rest ih =>
    have hfired : (s.eoOffer n (s.fired n e)).fired n = s.fired n := by
      funext x
      simp only [State.fired, State.getEo_eoOffer_same]
      rfl
    rw [List.foldl_cons, State.eoTrigOne_fires h h1]
    obtain ⟨hown, hregs, hother⟩ := ih (s := s.eoOffer n (s.fired n e)) h h1
    refine ⟨?_, hregs, fun m hm => (hother m hm).trans (State.getEo_eoOffer_other _ hm)⟩
    rw [hown, hfired, State.getEo_eoOffer_same]
    simp

theorem counted_counted (v a b : Nat) : counted (counted v a) b = counted v (a + b) := by
  unfold counted
  omega

/-- A slot that is not ready ignores and counts each event of a group. -/
theorem State.foldl_eoTrigOne_ignored (h : s.trigReady n = false) (e : Stamp) (rest : List Stamp) :
    let t := (e :: rest).foldl (fun x e => x.eoTrigOne n e) s
    t.eo = s.eo ∧ t.fbit F.eoStat_TRIG_IGN n = true ∧
      t.rget ⟨.eoCntTrigIgn, n, 0, 0⟩ = counted (s.rget ⟨.eoCntTrigIgn, n, 0, 0⟩) (rest.length + 1) ∧
      ∀ c, c.r ∈ [Reg.eoCtl, .eoTrigCtl] → t.rget c = s.rget c := by
  have hother (s : State) (c : RegKey) (hc : c.r ∈ [Reg.eoCtl, .eoTrigCtl]) :
      ((s.cnt .eoCntTrigIgn n).fon F.eoStat_TRIG_IGN n).rget c = s.rget c := by
    have hne {r : Reg} (hr : r ∉ [Reg.eoCtl, .eoTrigCtl]) : c ≠ ⟨r, n, 0, 0⟩ := fun e => hr (by rw [e] at hc; exact hc)
    exact (State.rget_fon_other _ _ _ _ _ _ (hne (by decide))).trans (State.rget_cntAdd_other (hne (by decide)))
  have hcnt (s : State) : ((s.cnt .eoCntTrigIgn n).fon F.eoStat_TRIG_IGN n).rget ⟨.eoCntTrigIgn, n, 0, 0⟩ =
      counted (s.rget ⟨.eoCntTrigIgn, n, 0, 0⟩) 1 :=
    (State.rget_fon_other _ _ _ _ _ _ (by simp [F.eoStat_TRIG_IGN])).trans (State.rget_cntAdd_same ..)
  induction rest generalizing s e with
  | nil =>
    rw [List.foldl_cons, State.eoTrigOne_ignored h]
    exact ⟨rfl, State.fbit_fon_same _ F.eoStat_TRIG_IGN n 0 0 rfl, hcnt s, hother s⟩
  | cons e2 rest ih =>
    have hready : ((s.cnt .eoCntTrigIgn n).fon F.eoStat_TRIG_IGN n).trigReady n = false := by
      rw [State.trigReady, State.fbit_of_rget (hother s _ (.head _)), State.fbit_of_rget (hother s _ (.tail _ (.head _)))]
      exact h
    rw [List.foldl_cons, State.eoTrigOne_ignored h]
    obtain ⟨heo, hset, hcount, hkept⟩ := ih hready e2
    refine ⟨heo, hset, ?_, fun c hc => (hkept c hc).trans (hother s c hc)⟩
    rw [hcount, hcnt, counted_counted]
    congr 1
    simp only [List.length_cons]
    omega

/-- A slot that fires once is disarmed by the first event of a group and ignores the others. -/
theorem State.foldl_eoTrigOne_once (h : s.trigReady n = true) (h1 : s.fbit F.eoTrigCtl_ONESHOT n = true) (e : Stamp) (rest : List Stamp) :
    let t := (e :: rest).foldl (fun x e => x.eoTrigOne n e) s
    t.getEo n = { s.getEo n with offers := (s.getEo n).offers ++ [s.fired n e] } ∧ t.fbit F.eoTrigCtl_ARMED n = false := by
  rw [List.foldl_cons, State.eoTrigOne_fires_once h h1]
  have hoff : (((s.fset F.eoTrigCtl_ARMED 0 n).hwMark ⟨.eoTrigCtl, n, 0, 0⟩ (2 ^ F.eoTrigCtl_ARMED.lo)).eoOffer n
      (s.fired n e)).fbit F.eoTrigCtl_ARMED n = false := by
    have hread : bits ((s.fset F.eoTrigCtl_ARMED 0 n).rget ⟨.eoTrigCtl, n, 0, 0⟩) 0 0 = 0 :=
      State.fget_fset_same s F.eoTrigCtl_ARMED 0 n 0 0 (by decide)
    exact (bit_eq_bits _ 0).trans (congrArg (fun x => decide (x = 1)) hread)
  have hown := State.getEo_eoOffer_same ((s.fset F.eoTrigCtl_ARMED 0 n).hwMark ⟨.eoTrigCtl, n, 0, 0⟩ (2 ^ F.eoTrigCtl_ARMED.lo)) n
    (s.fired n e)
  generalize ((s.fset F.eoTrigCtl_ARMED 0 n).hwMark ⟨.eoTrigCtl, n, 0, 0⟩ (2 ^ F.eoTrigCtl_ARMED.lo)).eoOffer n (s.fired n e) = u
    at hoff hown ⊢
  cases rest with
  | nil => exact ⟨hown, hoff⟩
  | cons e2 rest =>
    obtain ⟨heo, -, -, hkept⟩ := State.foldl_eoTrigOne_ignored (s := u) (n := n) (by simp [State.trigReady, hoff]) e2 rest
    exact ⟨(State.getEo_of_eo heo n).trans hown, (State.fbit_of_rget (hkept _ (.tail _ (.head _)))).trans hoff⟩

end Groups

/-- Settles O14: a commit reaches its register whole (`busCommit_entry`), a group its slot (`onGroup_eo`). -/
theorem actionsAreOffered : Obligations.ActionsAreOffered := by
  intro q n v s key c next
  have harm : Con.eoArm n.val < 0x1A0 := by unfold Con.eoArm; omega
  have htrig : Con.eoTrig n.val < 0x1A0 := by unfold Con.eoTrig; omega
  refine ⟨fun hs => ?qe, fun hs => ?te, fun hrun => ⟨fun g hg => ?arm, fun g hg => ?trig⟩⟩
  case qe =>
    obtain ⟨m, cyc, e, hexec, he⟩ := exec_eoQeCommit v hs
    exact ⟨_, hexec, ⟨e, he, State.getEo_eoOffer_same ..⟩, State.getQres_setQres_same .., fun m hm => State.getEo_eoOffer_other _ hm, rfl⟩
  case te =>
    obtain ⟨m, cyc, e, hexec, he⟩ := exec_eoTeCommit v hs
    have hbad : badArgStatic v.toNat = badArgStatic e := by rw [← he, badArgStatic_mod]
    have htype : eType v.toNat = eType e := by rw [← he, eType_mod]
    rw [hbad, htype]
    refine ⟨fun h => ⟨_, hexec, ?_⟩, fun h hsrc => ⟨_, hexec, ?_⟩, fun h hsrc => ⟨_, hexec, ?_⟩⟩
    · rw [State.teCommit_refused (s := s.staged m cyc) (if_pos h) (by decide)]
      exact ⟨State.getQres_setQres_same .., State.fbit_fon_same _ F.eoStat_WR_ERR n.val 0 0 rfl, rfl⟩
    · rw [State.teCommit_refused (s := s.staged m cyc) ((if_neg (by simp [h])).trans (if_pos hsrc)) (by decide)]
      exact ⟨State.getQres_setQres_same .., State.fbit_fon_same _ F.eoStat_WR_ERR n.val 0 0 rfl, rfl⟩
    · rw [State.teCommit_stored (s := s.staged m cyc) ((if_neg (by simp [h])).trans (if_neg (ne_true_of_eq_false hsrc)))]
      refine ⟨State.getQres_setQres_same .., ?_, rfl, fun m hm => State.getEo_setEo_other _ hm⟩
      rw [State.getEo_setEo_same]
      exact he
  case arm =>
    refine ⟨_, congrArg Host.Outcome.next ((if_pos hrun).trans (State.onGroup_eo harm hg)), State.fbit_fon_same _ F.eoTrigCtl_ARMED n.val 0 0 rfl,
      rfl, fun x hx => State.rget_fon_other _ _ _ _ _ _ hx, rfl⟩
  case trig =>
    intro fired ready
    have hexec : exec (.eoTrig n) s = .next (g.evs.foldl (fun x e => x.eoTrigOne n.val e) (s.groupTaken (Con.eoTrig n.val))) :=
      congrArg Host.Outcome.next ((if_pos hrun).trans (State.onGroup_eo htrig hg))
    refine ⟨fun hready h1 => ⟨_, hexec, ?_⟩, fun e rest hready h1 hev => ⟨_, hexec, ?_⟩, fun hready hev => ⟨_, hexec, ?_⟩⟩
    · exact State.foldl_eoTrigOne_fires (s := s.groupTaken _) hready h1 g.evs
    · rw [hev]
      exact State.foldl_eoTrigOne_once (s := s.groupTaken _) hready h1 e rest
    · obtain ⟨e, rest, hev⟩ := List.exists_cons_of_ne_nil hev
      rw [hev]
      obtain ⟨heo, hset, hcount, -⟩ := State.foldl_eoTrigOne_ignored (s := s.groupTaken (Con.eoTrig n.val)) (n := n.val) hready e rest
      exact ⟨heo, hset, hcount⟩

end Sys2Proof.Machine
end

section
/-! PROOFS. Offers are judged, actions take generators, and cuts act (R65, R66, R70 to R73, R80, R81). -/

namespace Sys2Proof.Machine

/-! ### The result of an offer (R70, R72) -/

section Results
variable {s u : State} {n code : Nat} {o : Offer}

/-- The channel has taken an offer up for this tick's judgement. -/
def State.offerTaken (s : State) (n : Nat) (o : Offer) : State :=
  s.setEo n { s.getEo n with offers := (s.getEo n).offers.erase o, acceptTick := some s.tickNo }

/-- The offer that is next, in a tick without an acceptance, is judged, and its code goes back. -/
theorem State.eoAccept_judges (hp : pickOffer s.tickNo (s.getEo n).offers = some o) (ht : (s.getEo n).acceptTick ≠ some s.tickNo)
    (hj : (s.offerTaken n o).eoJudge n o = (u, code)) :
    s.eoAccept n = (if code ≤ 1 then u.calRelease n else u).eoResult n o.src code := by
  unfold State.eoAccept
  extract_lets c
  rw [hp]
  dsimp only
  rw [if_neg ht, show s.setEo n { c with offers := c.offers.erase o, acceptTick := some s.tickNo } = s.offerTaken n o from rfl, hj]

/-- A refusal shows in EO_STAT and counts. -/
def State.refusalShown (s : State) (n code : Nat) : State :=
  if 2 ≤ code then (s.fon F.eoStat_REFUSED n).cnt .eoCntRefuse n else s

/-- The requester that offered an action reads its code in its result register. -/
def State.Told (s : State) (n : Nat) (o : Offer) (code : Nat) (t : State) : Prop :=
  ∀ q, t.getQres q n = if o.src = .reg q then { s.getQres q n with code := code } else s.getQres q n

theorem State.getQres_refusalShown (s : State) (q : Requester) (n code : Nat) : (s.refusalShown n code).getQres q n = s.getQres q n := by
  unfold State.refusalShown
  split <;> rfl

/-- The code of an offer that is no Drover's goes to the result registers and nowhere else. -/
theorem State.eoResult_effect (s : State) (n code : Nat) (hsrc : ∀ d k, o.src ≠ .task d k) :
    (∃ m, s.eoResult n o.src code = { s.refusalShown n code with qres := m }) ∧ s.Told n o code (s.eoResult n o.src code) := by
  unfold State.Told
  cases hs : o.src with
  | task d k => exact absurd hs (hsrc d k)
  | slot => exact ⟨⟨(s.refusalShown n code).qres, rfl⟩, fun q => (s.getQres_refusalShown q n code).trans (by simp)⟩
  | reg p =>
    refine ⟨⟨_, rfl⟩, fun q => ?_⟩
    have hres : s.eoResult n (.reg p) code = (s.refusalShown n code).setQres p n { (s.refusalShown n code).getQres p n with code := code } :=
      rfl
    rw [hres]
    by_cases hq : q = p
    · rw [hq, State.getQres_setQres_same, State.getQres_refusalShown, if_pos rfl]
    · rw [State.getQres_setQres_other _ hq, State.getQres_refusalShown, if_neg fun e => hq (ActSrc.reg.inj e).symm]

/-- What a refused offer leaves: the code told, the refusal shown and counted, and the offer gone. -/
def State.OfferRefused (s : State) (n : Nat) (o : Offer) (code : Nat) (t : State) : Prop :=
  s.Told n o code t ∧ t.fbit F.eoStat_REFUSED n = true ∧
    t.rget ⟨.eoCntRefuse, n, 0, 0⟩ = counted (s.rget ⟨.eoCntRefuse, n, 0, 0⟩) 1 ∧ (t.getEo n).queue = (s.getEo n).queue ∧
    (t.getEo n).offers = (s.getEo n).offers.erase o ∧ (∀ m, m ≠ n → t.getEo m = s.getEo m) ∧ t.drv = s.drv ∧ t.time = s.time

theorem State.getEo_offerTaken (s : State) (n : Nat) (o : Offer) :
    (s.offerTaken n o).getEo n = { s.getEo n with offers := (s.getEo n).offers.erase o, acceptTick := some s.tickNo } :=
  State.getEo_setEo_same ..

theorem State.getEo_offerTaken_other {m : Nat} (h : m ≠ n) : (s.offerTaken n o).getEo m = s.getEo m := State.getEo_setEo_other _ h

theorem State.Told.of_qres {t : State} (h : u.Told n o code t) (hq : u.qres = s.qres) : s.Told n o code t := fun q => by
  have hres : u.getQres q n = s.getQres q n := congrArg (fun m : SMap ReqKey QRes => m.get {} ⟨q, ⟨.eoQres, n, 0, 0⟩⟩) hq
  rw [h q, hres]

/-- An offer refused with a code from 2 on, in a state that differs only by what the judgement has shown in EO's and the Droveway's
registers. -/
theorem State.eoAccept_refuses (hp : pickOffer s.tickNo (s.getEo n).offers = some o) (ht : (s.getEo n).acceptTick ≠ some s.tickNo)
    (hsrc : ∀ d k, o.src ≠ .task d k) (hc : 2 ≤ code) (hj : (s.offerTaken n o).eoJudge n o = (u, code)) (hu : EoFrame (s.offerTaken n o) u n)
    (hown : u.getEo n = (s.offerTaken n o).getEo n) (hcnt : u.rget ⟨.eoCntRefuse, n, 0, 0⟩ = s.rget ⟨.eoCntRefuse, n, 0, 0⟩) :
    s.OfferRefused n o code (s.eoAccept n) ∧ (u.fbit F.eoStat_LATE n = true → (s.eoAccept n).fbit F.eoStat_LATE n = true) ∧
      (s.eoAccept n).dw = u.dw ∧ (s.eoAccept n).tickNo = u.tickNo := by
  obtain ⟨⟨m, hres⟩, htold⟩ := u.eoResult_effect n code hsrc
  have hc2 := hown.trans (s.getEo_offerTaken n o)
  have hacc : s.eoAccept n = u.eoResult n o.src code := (State.eoAccept_judges hp ht hj).trans (by rw [if_neg (by omega)])
  have hshown : u.refusalShown n code = (u.fon F.eoStat_REFUSED n).cnt .eoCntRefuse n := if_pos hc
  have hstat {f : Fld} (hf : f.reg = .eoStat) (h : (u.fon F.eoStat_REFUSED n).fbit f n = true) :
      ((u.fon F.eoStat_REFUSED n).cnt .eoCntRefuse n).fbit f n = true :=
    (State.fbit_of_rget (State.rget_cntAdd_other (by simp [hf]))).trans h
  have hset : (u.fon F.eoStat_REFUSED n).fbit F.eoStat_REFUSED n = true := State.fbit_fon_same u F.eoStat_REFUSED n 0 0 rfl
  rw [hres, hshown] at hacc htold
  rw [hacc]
  refine ⟨⟨htold.of_qres (congrArg State.qres hu.rest :), hstat rfl hset, ?_, ?_, ?_, fun m hm => ?_, ?_, ?_⟩, fun h => ?_, rfl, rfl⟩
  · refine (State.rget_cntAdd_same ..).trans (congrArg (counted · 1) ?_)
    exact (State.rget_fon_other _ _ _ _ _ _ (by simp [F.eoStat_REFUSED])).trans hcnt
  · exact (congrArg Eo.queue hc2 :)
  · exact (congrArg Eo.offers hc2 :)
  · exact (hu.channels m hm).trans (State.getEo_offerTaken_other hm)
  · exact (congrArg State.drv hu.rest :)
  · exact (congrArg State.time hu.rest :)
  · exact hstat rfl (State.fbit_fon_mono rfl h)

/-- An accepted offer has its code told; the state is that which the judgement has left, with the hold of CAL released. -/
theorem State.eoAccept_accepts (hp : pickOffer s.tickNo (s.getEo n).offers = some o) (ht : (s.getEo n).acceptTick ≠ some s.tickNo)
    (hsrc : ∀ d k, o.src ≠ .task d k) (hc : code ≤ 1) (hj : (s.offerTaken n o).eoJudge n o = (u, code)) (hu : EoFrame (s.offerTaken n o) u n) :
    s.Told n o code (s.eoAccept n) ∧ (s.eoAccept n).eo = u.eo ∧ (∀ m, m ≠ n → (s.eoAccept n).getEo m = s.getEo m) ∧
      (∀ c, (s.eoAccept n).rget c = u.rget c) ∧ (s.eoAccept n).dw = u.dw ∧ (s.eoAccept n).tickNo = s.tickNo ∧
      (s.eoAccept n).drv = s.drv ∧ (s.eoAccept n).time = s.time := by
  obtain ⟨⟨m, hres⟩, htold⟩ := (u.calRelease n).eoResult_effect n code hsrc
  have hacc : s.eoAccept n = (u.calRelease n).eoResult n o.src code := (State.eoAccept_judges hp ht hj).trans (by rw [if_pos hc])
  obtain ⟨cal, tiu, hrel⟩ := u.calRelease_effect n
  rw [hres, State.refusalShown, if_neg (by omega), hrel] at hacc htold
  rw [hacc]
  refine ⟨htold.of_qres (congrArg State.qres hu.rest :), rfl, fun m hm => (hu.channels m hm).trans (State.getEo_offerTaken_other hm),
    fun _ => rfl, rfl, (congrArg State.tickNo hu.rest :), (congrArg State.drv hu.rest :), (congrArg State.time hu.rest :)⟩

end Results

/-! ### The checks, in the order of R73 -/

section Checks
variable {s : State} {n e : Nat}

/-- The code 4 conditions of an entry (R72). -/
def badEntry (e : Nat) : Bool := badArgStatic e || (decide (eType e = 3) && decide (eStart e % 2 ^ 18 ≠ 0))

theorem State.eoCheck_badArg (h : badEntry e = true) : s.eoCheck n e = (4, 0) := if_pos h

theorem State.eoCheck_noncanon (h : badEntry e = false) (hs : 1000000000 ≤ t96Ns (eStart e)) : s.eoCheck n e = (5, 0) := by
  have hun : unpackT96 (eStart e) = none := if_neg (not_lt.mpr hs)
  refine (if_neg (Bool.eq_false_iff.mp h)).trans ?_
  rw [hun]
  rfl

theorem State.eoCheck_off (h : badEntry e = false) (hs : t96Ns (eStart e) < 1000000000) (hoff : s.eoOff n = true) :
    s.eoCheck n e = (6, 0) := by
  have hun : unpackT96 (eStart e) = some (eStart e / 2 ^ 48 % 2 ^ 48 * lsbPerSec + t96Ns (eStart e) * lsbPerNs + eStart e % 2 ^ 18) :=
    if_pos hs
  refine (if_neg (Bool.eq_false_iff.mp h)).trans ?_
  rw [hun]
  exact if_pos hoff

theorem State.eoOff_iff : s.eoOff n = true ↔
    s.fbit F.eoCtl_EN n = false ∨ s.fbit F.eoBankCtl_PWR (n / 8) = false ∨ (s.getEo n).stand ≠ .run := by
  simp [State.eoOff, State.bankOn, or_assoc]

/-- The judgement of an entry does not read the offers. -/
theorem State.eoCheck_offerTaken (s : State) (n e : Nat) (o : Offer) : (s.offerTaken n o).eoCheck n e = s.eoCheck n e := by
  unfold State.eoCheck State.eoOff State.profCheck
  simp only [State.getEo_offerTaken]
  rfl

/-- An entry that passes the checks makes pulses of some width, and a train makes some (R72, ZERO). -/
theorem State.eoCheck_nonzero (h : s.eoCheck n e = (0, 0)) : eType e = 2 → eCount e ≠ 0 ∨ eUnlim e = true := by
  intro htype
  by_contra hzero
  rw [not_or, not_not] at hzero
  have hz : (eType e = 1 ∨ eType e = 2) ∧ (eWidth e = 0 ∨ (eType e = 2 ∧ eCount e = 0 ∧ ¬ eUnlim e)) :=
    ⟨.inr htype, .inr ⟨htype, hzero⟩⟩
  unfold State.eoCheck at h
  repeat' split at h
  all_goals simp_all [Code.badArg, Code.noncanon, Code.chOff, Code.srcErr, Code.zero]

end Checks

/-! ### The judgement of an offer (R72, R73, R80, R81) -/

section Judgement
variable {s : State} {n code : Nat} {o : Offer}

/-- The start an offered entry spells. -/
def offerStart (o : Offer) : Instant := (unpackT96 (eStart o.entry)).getD 0

/-- The instant before which an offer is late (R81). -/
def State.offerLimit (s : State) (o : Offer) : Instant := (s.time.now + (if eType o.entry = 3 then 64 else 24)) * lsbPerNs

/-- The action an offer makes. -/
def State.offeredAct (s : State) (n : Nat) (o : Offer) : QAct := s.actOfEntry n (s.getEo n).nextAct o.entry o.tag (offerStart o)

/-- A chained train ends the one it follows. -/
def offerChain (o : Offer) : Bool := decide (eType o.entry = 2) && eChain o.entry

theorem State.eoJudge_refused (h : s.eoCheck n o.entry = (code, 0)) (h0 : code ≠ 0) (h9 : code ≠ 8) : s.eoJudge n o = (s, code) := by
  rw [State.eoJudge, h]
  exact (if_neg h9).trans (if_pos h0)

/-- An entry that passes the checks is a CANCEL, late, without room, or taken. -/
theorem State.eoJudge_passed (h : s.eoCheck n o.entry = (0, 0)) :
    s.eoJudge n o =
      if eType o.entry = 4 then
        (s.setEo n { s.getEo n with cuts := (s.getEo n).cuts ++ [⟨max (offerStart o) (ofNs (s.time.now + leadNs)), (s.getEo n).nextAct⟩] }, 0)
      else if offerStart o < s.offerLimit o then
        if eType o.entry = 3 ∨ ¬ s.fbit F.eoCtl_LATE n then (s.eoLate n (offerStart o) o.tag, 2)
        else if 64 ≤ (s.getEo n).queue.length then (s, 3)
        else ((s.eoEnqueue n (asapAct (s.offeredAct n o) (s.offerLimit o)) (offerChain o)).eoLate n (offerStart o) o.tag, 1)
      else if 64 ≤ (s.getEo n).queue.length then (s, 3)
      else (s.eoEnqueue n (s.offeredAct n o) (offerChain o), 0) := by
  rw [State.eoJudge, h]
  exact (if_neg (by decide)).trans (if_neg (absurd rfl))

section Passed
variable (h : s.eoCheck n o.entry = (0, 0))
include h

theorem State.eoJudge_cancel (htype : eType o.entry = 4) :
    s.eoJudge n o =
      (s.setEo n { s.getEo n with cuts := (s.getEo n).cuts ++ [⟨max (offerStart o) (ofNs (s.time.now + leadNs)), (s.getEo n).nextAct⟩] }, 0) := by
  rw [State.eoJudge_passed h, if_pos htype]

theorem State.eoJudge_onTime (htype : eType o.entry ≤ 3) (htime : s.offerLimit o ≤ offerStart o) (hroom : (s.getEo n).queue.length < 64) :
    s.eoJudge n o = (s.eoEnqueue n (s.offeredAct n o) (offerChain o), 0) := by
  rw [State.eoJudge_passed h, if_neg (by omega), if_neg (not_lt.mpr htime), if_neg (not_le.mpr hroom)]

theorem State.eoJudge_full (htype : eType o.entry ≤ 3) (htime : s.offerLimit o ≤ offerStart o) (hfull : 64 ≤ (s.getEo n).queue.length) :
    s.eoJudge n o = (s, 3) := by
  rw [State.eoJudge_passed h, if_neg (by omega), if_neg (not_lt.mpr htime), if_pos hfull]

theorem State.eoJudge_dropped (htype : eType o.entry ≤ 3) (hlate : offerStart o < s.offerLimit o)
    (hpol : eType o.entry = 3 ∨ s.fbit F.eoCtl_LATE n = false) : s.eoJudge n o = (s.eoLate n (offerStart o) o.tag, 2) := by
  rw [State.eoJudge_passed h, if_neg (by omega), if_pos hlate, if_pos (hpol.imp_right Bool.eq_false_iff.mp)]

theorem State.eoJudge_moved (htype : eType o.entry ≤ 1) (hlate : offerStart o < s.offerLimit o) (hpol : s.fbit F.eoCtl_LATE n = true)
    (hroom : (s.getEo n).queue.length < 64) :
    s.eoJudge n o = ((s.eoEnqueue n (asapAct (s.offeredAct n o) (s.offerLimit o)) false).eoLate n (offerStart o) o.tag, 1) := by
  have hasap : ¬ (eType o.entry = 3 ∨ ¬ s.fbit F.eoCtl_LATE n = true) := fun hc => hc.elim (by omega) (absurd hpol)
  have hchain : offerChain o = false := by
    rw [offerChain, decide_eq_false (by omega : ¬ eType o.entry = 2), Bool.false_and]
  rw [State.eoJudge_passed h, if_neg (by omega), if_pos hlate, if_neg hasap, if_neg (not_le.mpr hroom), hchain]

end Passed

/-- A late action shows in EO_STAT, and its event is raised. -/
theorem State.eoLate_effect {tag : Nat} (s : State) (hn : n < 64) (ts : Instant) (ht : tag + 1 ≤ s.fget F.dwCtl_GEN_LIMIT) :
    EoFrame s (s.eoLate n ts tag) n ∧ (s.eoLate n ts tag).eo = s.eo ∧ (s.eoLate n ts tag).fbit F.eoStat_LATE n = true ∧
      (s.eoLate n ts tag).raises (Prod.eoLate n) ts (tag + 1) s.tickNo ∧
      (s.eoLate n ts tag).rget ⟨.eoCntRefuse, n, 0, 0⟩ = s.rget ⟨.eoCntRefuse, n, 0, 0⟩ := by
  have hlim : ((s.fon F.eoStat_LATE n).cnt .eoCntLate n).fget F.dwCtl_GEN_LIMIT = s.fget F.dwCtl_GEN_LIMIT :=
    State.fget_of_rget ((State.rget_cntAdd_other (by simp [F.dwCtl_GEN_LIMIT])).trans
      (State.rget_fon_other _ _ _ _ _ _ (by simp [F.eoStat_LATE, F.dwCtl_GEN_LIMIT])))
  obtain ⟨hraise, hsame⟩ := State.raiseEv_queued (ts := ts) (vectorOf_eoLate hn) (hlim ▸ ht)
  have hev := EventFrame.of_sameBesideDw hsame
  refine ⟨?_, hev.eo, ?_, hraise, ?_⟩
  · exact (((EoFrame.refl s n).fon rfl).cntAdd rfl).trans (hev.chanFrame n).toEoFrame
  · refine (State.fbit_of_rget (hev.rget_eo rfl)).trans ?_
    exact (State.fbit_of_rget (State.rget_cntAdd_other (by simp [F.eoStat_LATE]))).trans (State.fbit_fon_same s F.eoStat_LATE n 0 0 rfl)
  · refine (hev.rget_eo rfl).trans ((State.rget_cntAdd_other (by simp)).trans ?_)
    exact State.rget_fon_other _ _ _ _ _ _ (by simp [F.eoStat_LATE])

/-- The queue that an action enters, the train before a chained one limited. -/
def Eo.enqueued (c : Eo) (a : QAct) (chain : Bool) : Eo :=
  { c with queue := insertAct a (if chain then chainLimit c.queue a.start else c.queue), nextAct := c.nextAct + 1 }

theorem State.eoEnqueue_effect (s : State) (hn : n < 64) (a : QAct) (chain : Bool) :
    ChanFrame s (s.eoEnqueue n a chain) n ∧ (s.eoEnqueue n a chain).getEo n = ((s.getEo n).enqueued a chain).settled := s.setEo_eoSettle hn _

theorem mem_insertAct (a : QAct) (q : List QAct) : a ∈ insertAct a q := by
  induction q with
  | nil => exact .head _
  | cons b q ih =>
    unfold insertAct
    split
    · exact .head _
    · exact .tail _ ih

/-- An action with a transition to make stays in the queue that it enters. -/
theorem Eo.mem_enqueued {c : Eo} {a : QAct} {chain : Bool} (h : finished c.cuts a = false) : a ∈ (c.enqueued a chain).settled.queue :=
  List.mem_filter.mpr ⟨mem_insertAct .., by simp [Eo.enqueued, h]⟩

/-- No cut that came before an action limits it. -/
theorem effLimit_of_later {cuts : List Cut} {a : QAct} (h : ∀ k ∈ cuts, k.before ≤ a.id) : effLimit cuts a = a.limit := by
  have hnone : cuts.filter (fun c => decide (a.id < c.before)) = [] := by
    rw [List.filter_eq_nil_iff]
    intro k hk
    simpa using h k hk
  rw [effLimit, hnone]
  rfl

/-- The kind an entry's type gives. -/
theorem State.kind_actOfEntry (s : State) (n id e tag : Nat) (start : Instant) :
    (s.actOfEntry n id e tag start).kind =
      if eType e = 0 then .edge else if eType e = 1 then .pulse else if eType e = 2 then .train else .prof := rfl

/-- An action that has just been accepted has its first transition, or its profile, before it. -/
theorem State.unfinished_actOfEntry {id e tag : Nat} {start : Instant} {cuts : List Cut} (h : s.eoCheck n e = (0, 0))
    (hcuts : ∀ k ∈ cuts, k.before ≤ id) : finished cuts (s.actOfEntry n id e tag start) = false := by
  have hlim : effLimit cuts (s.actOfEntry n id e tag start) = none := effLimit_of_later hcuts
  have hkind := s.kind_actOfEntry n id e tag start
  have hnext : (s.actOfEntry n id e tag start).next = 0 := rfl
  have hdone : (s.actOfEntry n id e tag start).done = false := rfl
  split at hkind
  · simp [finished, nextOf, hkind, hnext, hdone]
  split at hkind
  · simp [finished, nextOf, hkind, hnext, hdone]
  split at hkind
  next htype =>
    have hpulses : ¬ (¬ (s.actOfEntry n id e tag start).unlim ∧ (s.actOfEntry n id e tag start).count ≤ 0) := fun hz =>
      (State.eoCheck_nonzero h htype).elim (fun hc => hc (Nat.le_zero.mp hz.2)) hz.1
    have hsome : (nextOf cuts (s.actOfEntry n id e tag start)).isSome = true := by
      simp only [nextOf, hkind, hnext, hdone, hlim, Nat.zero_div, if_neg hpulses]
      rfl
    simp [finished, hkind, hsome]
  · have hactive : (s.actOfEntry n id e tag start).active = false := rfl
    simp [finished, hkind, hactive]

/-- An EDGE or PULSE that policy ASAP moves is moved to the limit and marked. -/
theorem asapAct_moves {a : QAct} (h : a.kind ≠ .train) (lim : Instant) :
    asapAct a lim = { a with start := lim, first := lim, late := true, shift := a.shift + ((lim : Int) - a.start) } := by
  unfold asapAct
  split
  next ht => exact absurd ht h
  next => rfl

theorem unfinished_asapAct {id e tag : Nat} {start lim : Instant} {cuts : List Cut} (h : eType e ≤ 1) :
    finished cuts (asapAct (s.actOfEntry n id e tag start) lim) = false := by
  have hkind := s.kind_actOfEntry n id e tag start
  have hnext : (s.actOfEntry n id e tag start).next = 0 := rfl
  have hdone : (s.actOfEntry n id e tag start).done = false := rfl
  split at hkind
  · rw [asapAct_moves (by simp [hkind])]
    simp [finished, nextOf, hkind, hnext, hdone]
  next h0 =>
    rw [if_pos (by omega)] at hkind
    rw [asapAct_moves (by simp [hkind])]
    simp [finished, nextOf, hkind, hnext, hdone]

end Judgement

/-! ### Activation (R66) -/

section Activation
variable {s : State} {n : Nat} {a : QAct}

theorem State.eoActivate_full (h : s.activationDue n = some a) (hfull : 4 ≤ activeCount (s.getEo n).queue) : s.eoActivate n = s.actFull n a.id := by
  rw [State.eoActivate, h]
  exact if_pos hfull

theorem State.eoActivate_free (h : s.activationDue n = some a) (hfree : activeCount (s.getEo n).queue < 4) :
    s.eoActivate n = s.setEo n { s.getEo n with queue := markActive a.id (s.getEo n).queue } := by
  rw [State.eoActivate, h]
  exact if_neg (not_le.mpr hfree)

/-- An action that finds no generator leaves the queue and is counted. -/
theorem State.actFull_effect (s : State) (hn : n < 64) (id : Nat) :
    EoFrame s (s.actFull n id) n ∧ ((s.actFull n id).getEo n).queue = (s.getEo n).queue.filter (fun b => !decide (b.id = id)) ∧
      (s.actFull n id).fbit F.eoStat_ACT_FULL n = true ∧
      (s.actFull n id).rget ⟨.eoCntActFull, n, 0, 0⟩ = counted (s.rget ⟨.eoCntActFull, n, 0, 0⟩) 1 := by
  obtain ⟨hframe, hown⟩ := s.eoLeave_effect hn fun a => decide (a.id = id)
  refine ⟨(hframe.toEoFrame.fon rfl).cntAdd rfl, congrArg Eo.queue hown, ?_, ?_⟩
  · exact (State.fbit_of_rget (State.rget_cntAdd_other (by simp [F.eoStat_ACT_FULL]))).trans (State.fbit_fon_same _ F.eoStat_ACT_FULL n 0 0 rfl)
  · refine (State.rget_cntAdd_same ..).trans (congrArg (counted · 1) ?_)
    exact (State.rget_fon_other _ _ _ _ _ _ (by simp [F.eoStat_ACT_FULL])).trans (hframe.rget_eo rfl)

end Activation

/-! ### Cuts (R80) -/

section Cuts
variable {s : State} {n : Nat} {k : Cut} {c : Eo}

/-- A queued action that a cut governs keeps its transitions before the cut. -/
def keptByCut (k : Cut) (a : QAct) : Prop :=
  a.id < k.before → (a.active = true ∨ a.first < k.at_) ∧ (a.kind = .train → ∃ l, a.limit = some l ∧ l ≤ guardOf k.at_)

/-- A train that a cut governs makes no pulse from the cut on. -/
def cutTrain (k : Cut) (a : QAct) : QAct :=
  if a.id < k.before ∧ a.kind = .train then
    { a with limit := some (match a.limit with
      | none => guardOf k.at_
      | some m => min m (guardOf k.at_)) }
  else a

/-- A channel whose queue a cut has limited and cleared. -/
def Eo.cutQueue (c : Eo) (k : Cut) : Eo :=
  { c with queue := (c.queue.map (cutTrain k)).filter fun a => !(!a.active && cutOff [k] a) }

/-- The channel as a cut that is over has left it. -/
def Eo.cutOver (c : Eo) (k : Cut) : Eo := { c with cuts := c.cuts.erase k }

theorem cutTrain_limited {a : QAct} (h : a.id < k.before) (ht : a.kind = .train) :
    ∃ l, (cutTrain k a).limit = some l ∧ l ≤ guardOf k.at_ := by
  rw [cutTrain, if_pos ⟨h, ht⟩]
  refine ⟨_, rfl, ?_⟩
  split
  · exact le_rfl
  · exact min_le_right _ _

theorem cutTrain_keeps (k : Cut) (a : QAct) : (cutTrain k a).id = a.id ∧ (cutTrain k a).kind = a.kind := by
  unfold cutTrain
  split <;> exact ⟨rfl, rfl⟩

/-- Of the actions a cut governs, those stay that have a generator or begin before it, and trains with their limit. -/
theorem Eo.keptByCut_cutQueue (c : Eo) (k : Cut) : ∀ a ∈ (c.cutQueue k).queue, keptByCut k a := by
  intro a ha hid
  obtain ⟨hmem, hkeep⟩ := List.mem_filter.mp ha
  obtain ⟨b, -, rfl⟩ := List.mem_map.mp hmem
  obtain ⟨hsame, hkind⟩ := cutTrain_keeps k b
  refine ⟨?_, fun ht => cutTrain_limited (hsame ▸ hid) (hkind ▸ ht)⟩
  simp only [cutOff, List.any_cons, List.any_nil, Bool.or_false, Bool.not_and, Bool.not_not, Bool.or_eq_true, Bool.not_eq_true',
    decide_eq_false_iff_not, not_and, not_le] at hkeep
  exact hkeep.imp_right fun h => h hid

theorem Eo.keptByCut_settled (h : ∀ a ∈ c.queue, keptByCut k a) : ∀ a ∈ c.settled.queue, keptByCut k a :=
  fun a ha => h a (List.mem_filter.mp ha).1

theorem Eo.keptByCut_engEnded {id : Nat} (h : ∀ a ∈ c.queue, keptByCut k a) : ∀ a ∈ (c.engEnded id).queue, keptByCut k a := by
  intro a ha
  obtain ⟨b, hb, rfl⟩ := List.mem_map.mp ha
  split
  · exact h b hb
  · exact h b hb

/-- A cut stops the engine of a profile that it governs. -/
def State.cutEngine (s : State) (n : Nat) (k : Cut) : State :=
  match (s.getEo n).engine with
  | some e => if e.act < k.before then s.engEnd n e.act else s
  | none => s

theorem State.cutEngine_effect (s : State) (hn : n < 64) (k : Cut) :
    ChanFrame s (s.cutEngine n k) n ∧ ((s.cutEngine n k).getEo n).cuts = (s.getEo n).cuts ∧
      ((∀ a ∈ (s.getEo n).queue, keptByCut k a) → ∀ a ∈ ((s.cutEngine n k).getEo n).queue, keptByCut k a) := by
  unfold State.cutEngine
  split
  next e _ =>
    split
    · obtain ⟨hframe, hown⟩ := s.engEnd_effect hn e.act
      rw [hown]
      exact ⟨hframe, rfl, fun h => Eo.keptByCut_settled (Eo.keptByCut_engEnded h)⟩
    · exact ⟨.refl s n, rfl, id⟩
  next => exact ⟨.refl s n, rfl, id⟩

theorem State.cancelCut_due (h : (s.getEo n).cuts.find? (fun k => decide (k.at_ ≤ s.nowI)) = some k) :
    ∃ u, u = (s.setEo n { s.getEo n with queue := (s.getEo n).queue.map (cutTrain k) }).eoLeave n (fun a => !a.active && cutOff [k] a) ∧
      s.cancelCut n = ((u.cutEngine n k).setEo n (((u.cutEngine n k).getEo n).cutOver k)).eoSettle n := by
  refine ⟨_, rfl, ?_⟩
  rw [State.cancelCut, h]
  rfl

theorem State.cancelCut_effect (hn : n < 64) (h : (s.getEo n).cuts.find? (fun k => decide (k.at_ ≤ s.nowI)) = some k) :
    ((s.cancelCut n).getEo n).cuts = (s.getEo n).cuts.erase k ∧ (∀ a ∈ ((s.cancelCut n).getEo n).queue, keptByCut k a) ∧
      EoFrame s (s.cancelCut n) n := by
  obtain ⟨u, hu, hcut⟩ := State.cancelCut_due h
  obtain ⟨hleave, hown⟩ := State.eoLeave_effect (s.setEo n { s.getEo n with queue := (s.getEo n).queue.map (cutTrain k) }) hn
    (fun a => !a.active && cutOff [k] a)
  rw [← hu, State.getEo_setEo_same] at hown
  obtain ⟨hengine, hcuts, hkept⟩ := u.cutEngine_effect hn k
  obtain ⟨hsettle, hlast⟩ := (u.cutEngine n k).setEo_eoSettle hn (((u.cutEngine n k).getEo n).cutOver k)
  rw [← hcut] at hsettle hlast
  have hqueue : ∀ a ∈ (u.getEo n).queue, keptByCut k a := by
    rw [hown]
    exact (s.getEo n).keptByCut_cutQueue k
  refine ⟨?_, ?_, ?_⟩
  · rw [hlast, Eo.settled, Eo.cutOver, hcuts, hown]
  · rw [hlast]
    exact Eo.keptByCut_settled (hkept hqueue)
  · exact ((((EoFrame.refl s n).setEo _).trans (hu ▸ hleave.toEoFrame)).trans hengine.toEoFrame).trans hsettle.toEoFrame

end Cuts

/-- Settles O15: the offer that is next meets its checks in their order (`eoCheck_…`), then its time and the queue (`eoJudge_passed`). -/
theorem actionsAreJudgedAndActivated : Obligations.ActionsAreJudgedAndActivated := by
  intro n s hrun c key
  have hn := n.isLt
  have hlive (t : State) : s.live t = t := if_pos hrun
  refine ⟨fun o hsrc hpick htick => ?offers, fun a hdue => ⟨fun hfree => ?free, fun hfull => ?full⟩, fun k hcut => ?cut⟩
  case free =>
    refine ⟨_, congrArg Host.Outcome.next ((hlive _).trans (State.eoActivate_free hdue hfree)), State.getEo_setEo_same .., rfl, ?_⟩
    exact fun m hm => State.getEo_setEo_other _ hm
  case full =>
    obtain ⟨hframe, hqueue, hset, hcount⟩ := s.actFull_effect hn a.id
    exact ⟨_, congrArg Host.Outcome.next ((hlive _).trans (State.eoActivate_full hdue hfull)), hqueue, hset, hcount, hframe⟩
  case cut =>
    exact ⟨_, congrArg Host.Outcome.next (hlive _), State.cancelCut_effect hn hcut⟩
  case offers =>
    intro e bad start lim a told refused good
    have hacc : exec (.actionAccept n) s = .next (s.eoAccept n.val) := congrArg Host.Outcome.next (hlive _)
    have hrefuse {code : Nat} (h2 : 2 ≤ code) (h8 : code ≠ 8) (h : s.eoCheck n.val e = (code, 0)) :
        Completes (.actionAccept n) s (refused code) :=
      ⟨_, hacc, (State.eoAccept_refuses hpick htick hsrc h2
        (State.eoJudge_refused ((s.eoCheck_offerTaken n.val e o).trans h) (by omega) h8) (.refl _ _) rfl rfl).1⟩
    have hown := s.getEo_offerTaken n.val o
    have hqueue : ((s.offerTaken n.val o).getEo n.val).queue = c.queue := (congrArg Eo.queue hown :)
    have hcuts : ((s.offerTaken n.val o).getEo n.val).cuts = c.cuts := (congrArg Eo.cuts hown :)
    have hnext : ((s.offerTaken n.val o).getEo n.val).nextAct = c.nextAct := (congrArg Eo.nextAct hown :)
    have hact : (s.offerTaken n.val o).offeredAct n.val o = a := congrArg (s.actOfEntry n.val · e o.tag start) hnext
    have hpassed (h : good) : (s.offerTaken n.val o).eoCheck n.val o.entry = (0, 0) := (s.eoCheck_offerTaken n.val e o).trans h
    refine ⟨fun h => hrefuse (by decide) (by decide) (State.eoCheck_badArg h),
      fun h hns => hrefuse (by decide) (by decide) (State.eoCheck_noncanon h hns),
      fun h hns hoff => hrefuse (by decide) (by decide) (State.eoCheck_off h hns (State.eoOff_iff.mpr hoff)),
      fun h htype htime hroom hk => ?onTime, fun h htype htime hfull => ?full, fun h htype hlate hpol htag => ?dropped,
      fun h htype hlate hpol hroom htag => ?moved, fun h htype => ?cancel⟩
    case onTime =>
      have hj := State.eoJudge_onTime (hpassed h) htype htime (hqueue ▸ hroom)
      obtain ⟨hframe, heo⟩ := (s.offerTaken n.val o).eoEnqueue_effect hn ((s.offerTaken n.val o).offeredAct n.val o) (offerChain o)
      obtain ⟨htold, hch, hother, -, -, -, hdrv, htm⟩ := State.eoAccept_accepts hpick htick hsrc (by decide) hj hframe.toEoFrame
      have hlast := (State.getEo_of_eo hch n.val).trans heo
      rw [hact] at hlast
      refine ⟨_, hacc, ?_, htold, ?_, ?_, hother, hdrv, htm⟩
      · rw [hlast]
        exact Eo.mem_enqueued (hcuts ▸ State.unfinished_actOfEntry h hk)
      · rw [hlast]
        exact congrArg (· + 1) hnext
      · rw [hlast]
        exact (congrArg Eo.offers hown :)
    case full =>
      have hj := State.eoJudge_full (hpassed h) htype htime (hqueue ▸ hfull)
      exact ⟨_, hacc, (State.eoAccept_refuses hpick htick hsrc (by decide) hj (.refl _ _) rfl rfl).1⟩
    case dropped =>
      have hj := State.eoJudge_dropped (hpassed h) htype hlate hpol
      obtain ⟨hframe, heo, hset, hraise, hcount⟩ := (s.offerTaken n.val o).eoLate_effect hn (offerStart o) htag
      obtain ⟨hrefused, hlast, hdw, htm⟩ :=
        State.eoAccept_refuses hpick htick hsrc (by decide) hj hframe (State.getEo_of_eo heo n.val) hcount
      refine ⟨_, hacc, hrefused, hlast hset, ?_⟩
      rw [State.raises, hdw, htm]
      exact hraise
    case moved =>
      have hj := State.eoJudge_moved (hpassed h) htype hlate hpol (hqueue ▸ hroom)
      obtain ⟨henq, henqEo⟩ := (s.offerTaken n.val o).eoEnqueue_effect hn
        (asapAct ((s.offerTaken n.val o).offeredAct n.val o) ((s.offerTaken n.val o).offerLimit o)) false
      rw [hact] at henq henqEo hj
      have hlimit : o.tag + 1 ≤ _ := htag.trans_eq henq.genLimit.symm
      obtain ⟨hframe, heo, hset, hraise, -⟩ := State.eoLate_effect _ hn (offerStart o) hlimit
      obtain ⟨htold, hch, -, hregs, hdw, htm, -, -⟩ :=
        State.eoAccept_accepts hpick htick hsrc (by decide) hj (henq.toEoFrame.trans hframe)
      have hlast := ((State.getEo_of_eo hch n.val).trans (State.getEo_of_eo heo n.val)).trans henqEo
      rw [State.raises, (congrArg State.tickNo hframe.rest :), (congrArg State.tickNo henq.rest :)] at hraise
      have hkind : a.kind ≠ .train := by
        rw [State.kind_actOfEntry]
        split
        · nofun
        · rw [if_pos (by omega)]
          nofun
      refine ⟨_, hacc, ⟨asapAct a lim, ?_, ?_⟩, htold, ?_, ?_⟩
      · rw [hlast]
        exact Eo.mem_enqueued (unfinished_asapAct htype)
      · rw [asapAct_moves hkind]
        exact ⟨rfl, rfl, rfl, rfl, rfl, rfl, rfl⟩
      · exact (State.fbit_of_rget (hregs _)).trans hset
      · rw [State.raises, hdw, htm]
        exact hraise
    case cancel =>
      have hj := State.eoJudge_cancel (hpassed h) htype
      obtain ⟨htold, hch, -⟩ := State.eoAccept_accepts hpick htick hsrc (by decide) hj ((EoFrame.refl _ _).setEo _)
      have hlast := (State.getEo_of_eo hch n.val).trans (State.getEo_setEo_same ..)
      refine ⟨_, hacc, ?_, ?_, htold⟩
      · rw [hlast]
        exact congrArg₂ (fun (x : List Cut) y => x ++ [⟨max start ((s.time.now + 24) * lsbPerNs), y⟩]) hcuts hnext
      · rw [hlast]
        exact hqueue

end Sys2Proof.Machine
end

section
/-! PROOFS. Transitions are filtered, committed, launched and verified (R65, R75 to R78, R89, R90). -/

namespace Sys2Proof.Machine

/-! ### The filter (R75, R76) -/

section Filter
variable {s : State} {n : Nat} {x p : Trans}

theorem consumeCand_keeps (c : Eo) (x : Trans) : (consumeCand c x).filter = c.filter ∧ (consumeCand c x).flevel = c.flevel := by
  unfold consumeCand
  split
  · split <;> exact ⟨rfl, rfl⟩
  · exact ⟨rfl, rfl⟩

theorem State.filterJudge_null (h : x.level = (s.getEo n).flevel) :
    EoFrame s (s.filterJudge n x) n ∧ ((s.filterJudge n x).getEo n).filter = (s.getEo n).filter ∧
      ((s.filterJudge n x).getEo n).flevel = (s.getEo n).flevel ∧
      (s.filterJudge n x).rget ⟨.eoCntNull, n, 0, 0⟩ = counted (s.rget ⟨.eoCntNull, n, 0, 0⟩) 1 := by
  have hgo : s.filterJudge n x = (s.setEo n { s.getEo n with queue := unflow x (s.getEo n).queue }).cnt .eoCntNull n := if_pos h
  have hown : (s.filterJudge n x).getEo n = { s.getEo n with queue := unflow x (s.getEo n).queue } :=
    (congrArg (·.getEo n) hgo).trans (State.getEo_setEo_same ..)
  rw [hown, hgo]
  exact ⟨((EoFrame.refl s n).setEo _).cntAdd rfl, rfl, rfl, State.rget_cntAdd_same ..⟩

theorem State.filterJudge_runt (h : x.level ≠ (s.getEo n).flevel) (hp : (s.getEo n).filter.getLast? = some p) (hx : x.target < p.target + 65536) :
    EoFrame s (s.filterJudge n x) n ∧ ((s.filterJudge n x).getEo n).filter = (s.getEo n).filter.dropLast ∧
      ((s.filterJudge n x).getEo n).flevel = x.level ∧ (s.filterJudge n x).fbit F.eoStat_RUNT n = true ∧
      (s.filterJudge n x).rget ⟨.eoCntRunt, n, 0, 0⟩ = counted (s.rget ⟨.eoCntRunt, n, 0, 0⟩) 1 := by
  have hgo : s.filterJudge n x = ((s.setEo n { s.getEo n with
      filter := (s.getEo n).filter.dropLast, flevel := x.level, queue := unflow p (unflow x (s.getEo n).queue) }).cnt .eoCntRunt n).fon
      F.eoStat_RUNT n := by
    rw [State.filterJudge, if_neg h, hp]
    exact if_pos hx
  have hown : (s.filterJudge n x).getEo n =
      { s.getEo n with filter := (s.getEo n).filter.dropLast, flevel := x.level, queue := unflow p (unflow x (s.getEo n).queue) } :=
    (congrArg (·.getEo n) hgo).trans (State.getEo_setEo_same ..)
  rw [hown, hgo]
  refine ⟨(((EoFrame.refl s n).setEo _).cntAdd rfl).fon rfl, rfl, rfl, State.fbit_fon_same _ F.eoStat_RUNT n 0 0 rfl, ?_⟩
  exact (State.rget_fon_other _ _ _ _ _ _ (by simp [F.eoStat_RUNT])).trans (State.rget_cntAdd_same ..)

theorem State.filterJudge_kept (h : x.level ≠ (s.getEo n).flevel)
    (hp : ∀ p, (s.getEo n).filter.getLast? = some p → p.target + 65536 ≤ x.target) :
    EoFrame s (s.filterJudge n x) n ∧ ((s.filterJudge n x).getEo n).filter = (s.getEo n).filter ++ [x] ∧
      ((s.filterJudge n x).getEo n).flevel = x.level := by
  have hgo : s.filterJudge n x = s.setEo n { s.getEo n with filter := (s.getEo n).filter ++ [x], flevel := x.level } := by
    refine (if_neg h).trans ?_
    split
    next q hq => exact if_neg (not_lt.mpr (hp q hq))
    next => rfl
  rw [hgo, State.getEo_setEo_same]
  exact ⟨(EoFrame.refl s n).setEo _, rfl, rfl⟩

/-- The channel a candidate has left. -/
def State.candTaken (s : State) (n : Nat) (x : Trans) : State := s.setEo n (consumeCand (s.getEo n) x)

theorem State.eoFilter_due (h : earliestTrans (filterCands (s.getEo n)) = some x) (hd : s.launchTick n x.target ≤ (s.time.now : Int) + 17) :
    s.eoFilter n = ((s.candTaken n x).filterJudge n x).eoSettle n := by
  rw [State.eoFilter, h]
  exact if_pos hd

/-- The actions gone whose work is over, the filter stands. -/
theorem State.eoSettle_after {u : State} (h : EoFrame s u n) (hn : n < 64) :
    EoFrame s (u.eoSettle n) n ∧ ((u.eoSettle n).getEo n).filter = (u.getEo n).filter ∧ ((u.eoSettle n).getEo n).flevel = (u.getEo n).flevel ∧
      ∀ k : RegKey, k.r.info.blk = .eo → (u.eoSettle n).rget k = u.rget k := by
  have hsettle := u.eoSettle_frame hn
  rw [u.getEo_eoSettle hn]
  exact ⟨h.trans hsettle.toEoFrame, rfl, rfl, fun k hk => hsettle.rget_eo hk⟩

theorem State.candTaken_effect (s : State) (n : Nat) (x : Trans) :
    EoFrame s (s.candTaken n x) n ∧ ((s.candTaken n x).getEo n).filter = (s.getEo n).filter ∧
      ((s.candTaken n x).getEo n).flevel = (s.getEo n).flevel := by
  obtain ⟨hfilter, hlevel⟩ := consumeCand_keeps (s.getEo n) x
  rw [State.candTaken, State.getEo_setEo_same]
  exact ⟨(EoFrame.refl s n).setEo _, hfilter, hlevel⟩

end Filter

/-! ### The commit (R65, R77, R90, R254) -/

section Commit
variable {s t : State} {n : Nat} {x : Trans} {rest : List Trans} {target : Instant}

theorem State.addRun_calEo (s : State) (eo : Bool) (idx : Nat) (dither : Bool) : (s.addRun eo idx dither).cal.eo = s.cal.eo := by
  unfold State.addRun
  split <;> rfl

/-- Runs of a region are scheduled beside the channels' tables. -/
theorem State.scheduleRegion_calEo (s : State) (r : Nat) (temp dither : Bool) : (s.scheduleRegion r temp dither).cal.eo = s.cal.eo := by
  have hrun (b : Bool) (eo : Bool) (idx : Nat) (st : State) (h : st.cal.eo = s.cal.eo) :
      (if b then st.addRun eo idx (eo == false && dither) else st).cal.eo = s.cal.eo := by
    split
    · rw [State.addRun_calEo, h]
    · exact h
  delta State.scheduleRegion
  extract_lets y left s1 s2
  have h1 : s1.cal.eo = s.cal.eo :=
    List.foldlRecOn _ _ (motive := fun st : State => st.cal.eo = s.cal.eo) rfl fun st h u _ => hrun _ false u st h
  have h2 : s2.cal.eo = s.cal.eo :=
    List.foldlRecOn _ _ (motive := fun st : State => st.cal.eo = s.cal.eo) h1 fun st h u _ => hrun _ true u st h
  split_ifs
  · rfl
  · exact h2
  · exact h2
  · exact h2

/-- A channel's tracking term, held where its delay leaves room. -/
def CalEo.fitted (c : CalEo) (n : Nat) : CalEo :=
  if c.trk ≤ 2 ^ 26 - 1 - (c.delay n : Int) ∧ c.trkTarget ≤ 2 ^ 26 - 1 - (c.delay n : Int) then c
  else { c with trk := min c.trk (2 ^ 26 - 1 - (c.delay n : Int)), trkTarget := min c.trkTarget (2 ^ 26 - 1 - (c.delay n : Int)) }

theorem State.getCalEo_trkFit (s : State) (n : Nat) : (s.trkFit n).getCalEo n = (s.getCalEo n).fitted n := by
  unfold State.trkFit CalEo.fitted
  extract_lets c hi
  split
  · rfl
  · rw [State.getCalEo, State.scheduleRegion_calEo]
    exact SMap.get_put_same ..

/-- What a commit brings into force turns on the channel's own calibration and what stands at the boundary. -/
theorem State.getCalEo_calCommit_congr (hc : t.getCalEo n = s.getCalEo n) (hb : t.boundary n target = s.boundary n target) (hd : t.deg = s.deg)
    (hs : t.trkStep = s.trkStep) : (t.calCommit n target).getCalEo n = (s.calCommit n target).getCalEo n := by
  unfold State.calCommit
  extract_lets a0 a1 a2 b0 b1 b2
  have h0 : a0 = b0 := hc
  have h1 : a1 = b1 := by simp only [a1, b1, h0, hb]
  have h2 : a2 = b2 := by simp only [a2, b2, h1, hd, hs]
  rw [State.getCalEo_trkFit, State.getCalEo_trkFit, State.getCalEo_setCalEo, State.getCalEo_setCalEo, if_pos rfl, if_pos rfl, h2]

theorem State.tableNow_congr (h : t.getCalEo n = s.getCalEo n) : t.tableNow n = s.tableNow n := by
  unfold State.tableNow
  rw [h]

/-- The table of a commit reads nothing of the channel but its last launched target. -/
theorem State.commitTable_setEo {c : Eo} (h : c.lastTarget = (s.getEo n).lastTarget) :
    ((s.setEo n c).commitTable n target).1 = (s.commitTable n target).1 := by
  refine State.tableNow_congr (State.getCalEo_calCommit_congr rfl ?_ rfl rfl)
  unfold State.boundary
  rw [State.getEo_setEo_same, h]
  rfl

/-- A hold of CAL does not take part in a table. -/
theorem State.launchTick_calRelease (s : State) (n : Nat) (target : Instant) : (s.calRelease n).launchTick n target = s.launchTick n target := by
  have htable : (s.calRelease n).tableNow n = s.tableNow n := by
    unfold State.tableNow
    rw [State.getCalEo_calRelease, if_pos rfl]
    rfl
  rw [State.launchTick, htable, State.launchTick]

theorem State.filterWaits_calRelease (s : State) (n : Nat) (x : Trans) : (s.calRelease n).filterWaits n x = s.filterWaits n x := by
  unfold State.filterWaits
  rw [State.getEo_calRelease]

theorem State.eoCommit_waits (h : (s.getEo n).filter = x :: rest)
    (hw : (s.time.now : Int) + 16 < s.launchTick n x.target ∨ s.filterWaits n x = true) : s.eoCommit n = s := by
  unfold State.eoCommit
  extract_lets u c
  have hc : c.filter = x :: rest := (congrArg Eo.filter (s.getEo_calRelease n n)).trans h
  rw [hc]
  dsimp only
  rw [State.launchTick_calRelease, State.filterWaits_calRelease, State.calRelease_time, if_pos hw]

/-- The head of the filter goes to its grid place, or away. -/
def State.headTaken (s : State) (n : Nat) (x : Trans) (rest : List Trans) : State :=
  (s.calRelease n).setEo n { (s.calRelease n).getEo n with filter := rest, queue := unflow x ((s.calRelease n).getEo n).queue }

theorem State.getEo_headTaken (s : State) (n : Nat) (x : Trans) (rest : List Trans) :
    (s.headTaken n x rest).getEo n = { s.getEo n with filter := rest, queue := unflow x (s.getEo n).queue } := by
  rw [State.headTaken, State.getEo_setEo_same, State.getEo_calRelease]

theorem State.getEo_headTaken_other {m : Nat} (hm : m ≠ n) : (s.headTaken n x rest).getEo m = s.getEo m :=
  (State.getEo_setEo_other _ hm).trans (s.getEo_calRelease n m)

theorem State.commitTable_headTaken : ((s.headTaken n x rest).commitTable n target).1 = ((s.calRelease n).commitTable n target).1 :=
  State.commitTable_setEo rfl

/-- The channel with a launch that a commit has made. -/
def Eo.launched (c : Eo) (x : Trans) (g : GridPlace) : Eo :=
  { c with committed := c.committed ++ [⟨x, g.tick, g.tap, g.code, g.res⟩], tickLoad := (g.tick :: c.tickLoad).take 4 }

/-- Where the head of the filter is placed (R61). -/
def State.headPlace (s : State) (n : Nat) (x : Trans) (rest : List Trans) : GridPlace :=
  toGrid ((s.headTaken n x rest).commitTable n x.target).1 x.target

theorem State.headPlace_eq : s.headPlace n x rest = toGrid ((s.calRelease n).commitTable n x.target).1 x.target :=
  congrArg (toGrid · x.target) State.commitTable_headTaken

/-- The head of the filter, once its time has come, goes with a removed one, is one too many for its tick, or takes its place. -/
theorem State.eoCommit_goes (h : (s.getEo n).filter = x :: rest) (ht : s.launchTick n x.target ≤ (s.time.now : Int) + 16)
    (hw : s.filterWaits n x = false) :
    s.eoCommit n =
      if (s.getEo n).dropNext then
        ((s.headTaken n x rest).setEo n { (s.headTaken n x rest).getEo n with dropNext := false }).eoSettle n
      else if 2 ≤ loadAt (s.getEo n).tickLoad (s.headPlace n x rest).tick then
        ((((s.headTaken n x rest).setEo n { (s.headTaken n x rest).getEo n with dropNext := true }).cnt .eoCntRate n).fon F.eoStat_RATE
          n).eoSettle n
      else
        ((((s.headTaken n x rest).commitTable n x.target).2).setEo n
          (((((s.headTaken n x rest).commitTable n x.target).2).getEo n).launched x (s.headPlace n x rest))).eoSettle n := by
  have hgo : ¬ (((s.calRelease n).time.now : Int) + 16 < (s.calRelease n).launchTick n x.target ∨ (s.calRelease n).filterWaits n x) := by
    rw [State.launchTick_calRelease, State.filterWaits_calRelease, State.calRelease_time, hw]
    simpa using ht
  have hown := s.getEo_calRelease n n
  unfold State.eoCommit
  extract_lets u c
  have hc : c.filter = x :: rest := (congrArg Eo.filter hown).trans h
  rw [hc]
  dsimp only
  rw [if_neg hgo, ← hown]
  rfl

section Goes
variable (hn : n < 64) (h : (s.getEo n).filter = x :: rest) (ht : s.launchTick n x.target ≤ (s.time.now : Int) + 16)
  (hw : s.filterWaits n x = false)
include hn h ht hw

theorem State.eoCommit_dropped (hd : (s.getEo n).dropNext = true) :
    ((s.eoCommit n).getEo n).filter = rest ∧ ((s.eoCommit n).getEo n).committed = (s.getEo n).committed ∧
      ((s.eoCommit n).getEo n).dropNext = false := by
  rw [State.eoCommit_goes h ht hw, if_pos hd, (State.setEo_eoSettle _ hn _).2, State.getEo_headTaken]
  exact ⟨rfl, rfl, rfl⟩

theorem State.eoCommit_rated (hd : (s.getEo n).dropNext = false) (hl : 2 ≤ loadAt (s.getEo n).tickLoad (s.headPlace n x rest).tick) :
    ((s.eoCommit n).getEo n).filter = rest ∧ ((s.eoCommit n).getEo n).committed = (s.getEo n).committed ∧
      ((s.eoCommit n).getEo n).dropNext = true ∧ (s.eoCommit n).fbit F.eoStat_RATE n = true ∧
      (s.eoCommit n).rget ⟨.eoCntRate, n, 0, 0⟩ = counted (s.rget ⟨.eoCntRate, n, 0, 0⟩) 1 := by
  rw [State.eoCommit_goes h ht hw, if_neg (Bool.eq_false_iff.mp hd), if_pos hl]
  have hset : ∀ t : State, (((t.cnt .eoCntRate n).fon F.eoStat_RATE n).eoSettle n).fbit F.eoStat_RATE n = true ∧
      (((t.cnt .eoCntRate n).fon F.eoStat_RATE n).eoSettle n).rget ⟨.eoCntRate, n, 0, 0⟩ = counted (t.rget ⟨.eoCntRate, n, 0, 0⟩) 1 := by
    intro t
    have hframe := State.eoSettle_frame ((t.cnt .eoCntRate n).fon F.eoStat_RATE n) hn
    refine ⟨(State.fbit_of_rget (hframe.rget_eo rfl)).trans (State.fbit_fon_same _ F.eoStat_RATE n 0 0 rfl), (hframe.rget_eo rfl).trans ?_⟩
    exact (State.rget_fon_other _ _ _ _ _ _ (by simp [F.eoStat_RATE])).trans (State.rget_cntAdd_same ..)
  rw [State.getEo_eoSettle _ hn]
  have hown : ((((s.headTaken n x rest).setEo n { (s.headTaken n x rest).getEo n with dropNext := true }).cnt .eoCntRate n).fon F.eoStat_RATE
      n).getEo n = { s.getEo n with filter := rest, queue := unflow x (s.getEo n).queue, dropNext := true } := by
    refine (State.getEo_setEo_same ..).trans ?_
    rw [State.getEo_headTaken]
  rw [hown]
  obtain ⟨hbit, hcount⟩ := hset ((s.headTaken n x rest).setEo n { (s.headTaken n x rest).getEo n with dropNext := true })
  exact ⟨rfl, rfl, rfl, hbit, hcount.trans (congrArg (counted · 1) (s.rget_calRelease n _))⟩

theorem State.eoCommit_placed (hd : (s.getEo n).dropNext = false) (hl : loadAt (s.getEo n).tickLoad (s.headPlace n x rest).tick < 2) :
    (s.eoCommit n).getEo n =
        (({ s.getEo n with filter := rest, queue := unflow x (s.getEo n).queue } : Eo).launched x (s.headPlace n x rest)).settled ∧
      ∀ m, m ≠ n → (s.eoCommit n).getEo m = s.getEo m := by
  rw [State.eoCommit_goes h ht hw, if_neg (Bool.eq_false_iff.mp hd), if_neg (not_le.mpr hl)]
  have heo : ((s.headTaken n x rest).commitTable n x.target).2.eo = (s.headTaken n x rest).eo := (State.calCommit_frame ..).eo
  obtain ⟨hframe, hown⟩ := ((s.headTaken n x rest).commitTable n x.target).2.setEo_eoSettle hn
    ((((s.headTaken n x rest).commitTable n x.target).2.getEo n).launched x (s.headPlace n x rest))
  refine ⟨?_, fun m hm => ?_⟩
  · rw [hown, State.getEo_of_eo heo, State.getEo_headTaken]
  · exact (hframe.channels m hm).trans ((State.getEo_of_eo heo m).trans (State.getEo_headTaken_other hm))

end Goes

end Commit

/-! ### The launch (R78) -/

/-- What a verification record leaves alone: the channel but for what it counts and checks, and all but its units. -/
structure RecordFrame (s t : State) (n : Nat) : Prop where
  own : { t.getEo n with selCount := (s.getEo n).selCount, wins := (s.getEo n).wins, seq := (s.getEo n).seq } = s.getEo n
  channels : ∀ m, m ≠ n → t.getEo m = s.getEo m
  regs : s.regsWithin t [.eo, .tiu]
  kept : ∀ c : RegKey, c.r.info.blk = .eo → c.r ≠ .eoCntSkip → t.rget c = s.rget c
  rest : { t with regs := s.regs, cyc := s.cyc, eo := s.eo, tiu := s.tiu } = s

section Launch
variable {s t u : State} {n : Nat}

theorem RecordFrame.refl (s : State) (n : Nat) : RecordFrame s s n := ⟨rfl, fun _ _ => rfl, .refl _ _, fun _ _ _ => rfl, rfl⟩

theorem RecordFrame.trans (h : RecordFrame s t n) (h2 : RecordFrame t u n) : RecordFrame s u n where
  own := (congrArg (fun c : Eo => { c with selCount := (s.getEo n).selCount, wins := (s.getEo n).wins, seq := (s.getEo n).seq })
    h2.own).trans h.own
  channels m hm := (h2.channels m hm).trans (h.channels m hm)
  regs := h.regs.trans h2.regs
  kept c hc hr := (h2.kept c hc hr).trans (h.kept c hc hr)
  rest := (congrArg (fun x : State => { x with regs := s.regs, cyc := s.cyc, eo := s.eo, tiu := s.tiu }) h2.rest).trans h.rest

/-- A record counts and keeps windows in the channel. -/
theorem RecordFrame.setEo (s : State) (n sel seq : Nat) (wins : List Win) :
    RecordFrame s (s.setEo n { s.getEo n with selCount := sel, wins := wins, seq := seq }) n where
  own := by rw [State.getEo_setEo_same]
  channels _ hm := State.getEo_setEo_other _ hm
  regs := .refl _ _
  kept _ _ _ := rfl
  rest := rfl

theorem RecordFrame.cntSkip (s : State) (n : Nat) : RecordFrame s (s.cnt .eoCntSkip n) n where
  own := rfl
  channels _ _ := rfl
  regs := State.cntAdd_within (by decide)
  kept _ _ hr := State.rget_cntAdd_other fun e => hr (by rw [e])
  rest := rfl

theorem RecordFrame.setTiu (s : State) (n i : Nat) (x : Tiu) : RecordFrame s (s.setTiu i x) n :=
  ⟨rfl, fun _ _ => rfl, .refl _ _, fun _ _ _ => rfl, rfl⟩

theorem RecordFrame.eoRec (s : State) (n : Nat) (time : Instant) (value : Int) (flags outcome : Nat) (res : Int) :
    RecordFrame s (s.eoRec n time value flags outcome res).2 n := by
  unfold State.eoRec
  dsimp only
  split
  · exact RecordFrame.setEo s n (s.getEo n).selCount _ (s.getEo n).wins
  · exact .refl s n

theorem RecordFrame.tiuPush (s : State) (n i : Nat) (r : Rec) (eo : Option Nat) : RecordFrame s (s.tiuPush i r eo) n := by
  unfold State.tiuPush
  extract_lets x fl
  split
  · have hregs : s.regsWithin (((s.setTiu i { x with gapNext := true }).cnt .tiuCntGap i).fon F.tiuStat_GAP i) [.tiu] :=
      State.regsWithin.trans (t := (s.setTiu i { x with gapNext := true }).cnt .tiuCntGap i) (State.cntAdd_within (by decide))
        (State.fon_within (by decide))
    exact ⟨rfl, fun _ _ => rfl, hregs.mono (by simp), fun c hc _ => hregs c (by rw [hc]; decide), rfl⟩
  · exact .setTiu s n i _

/-- A record takes the entry that its transition reserved. -/
theorem RecordFrame.tiuPushReserved (s : State) (n i : Nat) (r : Rec) (eo : Option Nat) : RecordFrame s (s.tiuPushReserved i r eo) n :=
  (RecordFrame.setTiu s n i _).trans (.tiuPush _ n i r eo)

theorem State.eoSelect_frame (s : State) (n : Nat) (w : Win) (prev : Option Instant) : RecordFrame s (s.eoSelect n w prev) n := by
  unfold State.eoSelect
  extract_lets c ratio chosen turn s1 t near check c1 s2 r
  have h1 : RecordFrame s s1 n := by
    show RecordFrame s (if chosen then _ else _) n
    split
    · exact RecordFrame.setEo s n _ c.seq c.wins
    · exact .refl s n
  have h2 : RecordFrame s s2 n := h1.trans (RecordFrame.setEo s1 n c1.selCount c1.seq _)
  split
  · exact h2
  split
  · exact h2.trans (.setTiu s2 n _ _)
  · exact ((h2.trans (.cntSkip s2 n)).trans (.eoRec ..)).trans (.tiuPush ..)

theorem State.raises_of {prod tag tick : Nat} {ts : Instant} (hd : t.dw = s.dw) (ht : t.tickNo = s.tickNo) (h : s.raises prod ts tag tick) :
    t.raises prod ts tag tick := by
  rw [State.raises, hd, ht]
  exact h

/-- The channel with its first committed transition out at the output. -/
def Eo.atOutput (c : Eo) (l : Launch) (rest : List Launch) (wins : List Win) : Eo :=
  { c with committed := rest, level := l.tr.level, lastTarget := some l.tr.target, lastTag := l.tr.tag, wins := wins }

/-- A launch has been counted. -/
def State.issCounted (s : State) (n : Nat) (c : Eo) : State := ((s.setEo n c).cnt64 .eoCntIss 1 n).fonIf s.deg F.eoStat_DEGRADED n

theorem State.rget_issCounted_other {c : Eo} {k : RegKey} (h1 : k ≠ ⟨.eoCntIss, n, 0, 0⟩) (h2 : k ≠ ⟨.eoStat, n, 0, 0⟩) :
    (s.issCounted n c).rget k = s.rget k := by
  have hcnt : ((s.setEo n c).cnt64 .eoCntIss 1 n).rget k = s.rget k := State.rget_rset_other _ _ _ _ h1
  rw [State.issCounted, State.fonIf]
  split
  · exact (State.rget_fon_other _ _ _ _ _ _ h2).trans hcnt
  · exact hcnt

theorem State.issCounted_effect (s : State) (n : Nat) (c : Eo) :
    EoFrame s (s.issCounted n c) n ∧ (s.issCounted n c).getEo n = c ∧ s.regsWithin (s.issCounted n c) [.eo] ∧
      (s.issCounted n c).rget ⟨.eoCntIss, n, 0, 0⟩ = (s.rget ⟨.eoCntIss, n, 0, 0⟩ + 1) % 2 ^ 64 ∧
      (s.deg = true → (s.issCounted n c).fbit F.eoStat_DEGRADED n = true) := by
  have hcnt : ((s.setEo n c).cnt64 .eoCntIss 1 n).rget ⟨.eoCntIss, n, 0, 0⟩ = (s.rget ⟨.eoCntIss, n, 0, 0⟩ + 1) % 2 ^ 64 :=
    State.rget_rset_same ..
  have hregs : s.regsWithin (s.issCounted n c) [.eo] := fun k hk =>
    State.rget_issCounted_other (fun e => hk (by rw [e]; exact .head _)) fun e => hk (by rw [e]; exact .head _)
  refine ⟨⟨fun m hm => ?_, hregs.mono (by simp), ?_⟩, ?_, hregs, ?_, fun hd => ?_⟩
  all_goals rw [State.issCounted, State.fonIf]
  · split <;> exact State.getEo_setEo_other _ hm
  · split <;> rfl
  · split <;> exact State.getEo_setEo_same ..
  · split
    · exact (State.rget_fon_other _ _ _ _ _ _ (by simp [F.eoStat_DEGRADED])).trans hcnt
    · exact hcnt
  · rw [if_pos hd]
    exact State.fbit_fon_same _ F.eoStat_DEGRADED n 0 0 rfl

theorem State.eoLaunch_goes {l : Launch} {rest : List Launch} (h : (s.getEo n).committed = l :: rest) (ht : l.tick ≤ (s.time.now : Int)) :
    ∃ wins w, s.eoLaunch n = ((s.issCounted n ((s.getEo n).atOutput l rest wins)).raiseEv (Prod.eoIss n) l.tr.target l.tr.tag).eoSelect n w
      (s.getEo n).lastTarget := by
  rw [State.eoLaunch, h]
  exact ⟨_, _, if_neg (not_lt.mpr ht)⟩

end Launch

/-! ### Verification (R89) -/

section Verify
variable {s : State} {n : Nat} {w : Win} {m : Instant}

/-- An outcome's record takes the entry that its transition reserved. -/
def State.recorded (s : State) (n : Nat) (w : Win) (value : Int) (outcome : Nat) : State :=
  (s.eoRec n w.target value (winFlags w) outcome w.res).2.tiuPushReserved (32 + n)
    (s.eoRec n w.target value (winFlags w) outcome w.res).1 (some n)

theorem State.recorded_frame (s : State) (n : Nat) (w : Win) (value : Int) (outcome : Nat) : RecordFrame s (s.recorded n w value outcome) n :=
  (RecordFrame.eoRec ..).trans (.tiuPushReserved ..)

/-- An outcome other than VERIFIED is counted, shown and raised as an error. -/
def State.errShown (s : State) (n : Nat) (r : Reg) (f : Fld) (ts : Instant) (tag : Nat) : State :=
  ((s.cnt r n).fon f n).raiseEv (Prod.eoErr n) ts tag

/-- The timing error of a hit. -/
def hitErr (m : Instant) (w : Win) : Int := (spanBetween m w.target).val

theorem State.eoOutcome_verified (hw : w.hit = some m) (h : withinFs (hitErr m w) (s.verifyTol n) = true) :
    s.eoOutcome n w = (((s.cnt .eoCntVer n).raiseEv (Prod.eoVer n) m w.tag).recorded n w (hitErr m w) 0).calTrack n (hitErr m w) := by
  rw [State.eoOutcome, hw]
  exact if_pos h

theorem State.eoOutcome_displaced (hw : w.hit = some m) (h : withinFs (hitErr m w) (s.verifyTol n) = false) :
    ∃ a f, s.eoOutcome n w = ((s.errShown n .eoCntDisp F.eoStat_DISPLACED m w.tag).report
      { detected := true, cls := 4, source := srcOf 0x04 n, code := 0x2401, arg0 := n, arg1 := a, ts := some m, flock := f }).recorded n w
        (hitErr m w) 1 := by
  rw [State.eoOutcome, hw]
  exact ⟨_, _, if_neg (Bool.eq_false_iff.mp h)⟩

theorem State.eoOutcome_missing (hw : w.hit = none) :
    ∃ a f, s.eoOutcome n w = ((s.errShown n .eoCntMiss F.eoStat_MISSING w.target w.tag).report
      { detected := true, cls := 4, source := srcOf 0x04 n, code := 0x2402, arg0 := n, arg1 := a, ts := some w.target, flock := f }).recorded n
        w 0 2 := by
  rw [State.eoOutcome, hw]
  exact ⟨_, _, rfl⟩

/-- What a VERIFIED outcome leaves behind. -/
theorem State.verOutcome_effect (hn : n < 64) (hw : w.hit = some m) (h : withinFs (hitErr m w) (s.verifyTol n) = true)
    (htag : w.tag ≤ s.fget F.dwCtl_GEN_LIMIT) :
    (s.eoOutcome n w).rget ⟨.eoCntVer, n, 0, 0⟩ = counted (s.rget ⟨.eoCntVer, n, 0, 0⟩) 1 ∧
      (s.eoOutcome n w).raises (Prod.eoVer n) m w.tag s.tickNo ∧ (s.eoOutcome n w).flt = s.flt := by
  have hlim : (s.cnt .eoCntVer n).fget F.dwCtl_GEN_LIMIT = s.fget F.dwCtl_GEN_LIMIT :=
    State.fget_of_rget (State.rget_cntAdd_other (by simp [F.dwCtl_GEN_LIMIT]))
  obtain ⟨hraise, hsame⟩ := State.raiseEv_queued (ts := m) (vectorOf_eoVer hn) (htag.trans_eq hlim.symm)
  have hev := EventFrame.of_sameBesideDw hsame
  have hrec := State.recorded_frame ((s.cnt .eoCntVer n).raiseEv (Prod.eoVer n) m w.tag) n w (hitErr m w) 0
  have htrack := State.calTrack_frame (((s.cnt .eoCntVer n).raiseEv (Prod.eoVer n) m w.tag).recorded n w (hitErr m w) 0) n (hitErr m w)
  rw [← State.eoOutcome_verified hw h] at htrack
  refine ⟨?_, State.raises_of ?_ ?_ hraise, ?_⟩
  · exact (htrack.rget (by simp [Reg.info])).trans ((hrec.kept _ rfl (by simp)).trans ((hev.rget_eo rfl).trans (State.rget_cntAdd_same ..)))
  · exact (congrArg State.dw htrack.rest :).trans (congrArg State.dw hrec.rest :)
  · exact (congrArg State.tickNo htrack.rest :).trans (congrArg State.tickNo hrec.rest :)
  · exact (congrArg State.flt htrack.rest :).trans ((congrArg State.flt hrec.rest :).trans (congrArg State.flt hev.rest :))

/-- What an outcome other than VERIFIED leaves behind. -/
theorem State.errOutcome_effect {r : Reg} {f : Fld} {ts : Instant} {rep : FaultRep} {value : Int} {outcome : Nat} (hn : n < 64)
    (htag : w.tag ≤ s.fget F.dwCtl_GEN_LIMIT) (hr : r.info.blk = .eo) (hskip : r ≠ .eoCntSkip) (hf : f.reg = .eoStat) (hbit : f.hi = f.lo)
    (hne : r ≠ .eoStat) :
    let t := ((s.errShown n r f ts w.tag).report rep).recorded n w value outcome
    t.rget ⟨r, n, 0, 0⟩ = counted (s.rget ⟨r, n, 0, 0⟩) 1 ∧ t.fbit f n = true ∧ t.raises (Prod.eoErr n) ts w.tag s.tickNo ∧
      { rep with tick := s.tickNo } ∈ t.flt.reports := by
  intro t
  have hdwCtl : r ≠ .dwCtl := fun e => by
    rw [e] at hr
    exact absurd hr (by decide)
  have hlim : ((s.cnt r n).fon f n).fget F.dwCtl_GEN_LIMIT = s.fget F.dwCtl_GEN_LIMIT :=
    State.fget_of_rget ((State.rget_fon_other _ _ _ _ _ _ (by simp [hf, F.dwCtl_GEN_LIMIT])).trans
      (State.rget_cntAdd_other fun e => hdwCtl (congrArg RegKey.r e).symm))
  obtain ⟨hraise, hsame⟩ := State.raiseEv_queued (ts := ts) (vectorOf_eoErr hn) (htag.trans_eq hlim.symm)
  have hev := EventFrame.of_sameBesideDw hsame
  have hrec := State.recorded_frame ((s.errShown n r f ts w.tag).report rep) n w value outcome
  have hdw : t.dw = (s.errShown n r f ts w.tag).dw := (congrArg State.dw hrec.rest :)
  have htick : t.tickNo = (s.errShown n r f ts w.tag).tickNo := (congrArg State.tickNo hrec.rest :)
  have hflt : t.flt = ((s.errShown n r f ts w.tag).report rep).flt := (congrArg State.flt hrec.rest :)
  have hno : (s.errShown n r f ts w.tag).tickNo = s.tickNo := (congrArg State.tickNo hev.rest :)
  refine ⟨?_, ?_, State.raises_of hdw htick hraise, ?_⟩
  · refine (hrec.kept _ hr hskip).trans ((hev.rget_eo hr).trans ?_)
    exact (State.rget_fon_other _ _ _ _ _ _ (by simp [hf, hne])).trans (State.rget_cntAdd_same ..)
  · refine (State.fbit_of_rget ((hrec.kept _ (by rw [hf]; rfl) (by simp [hf])).trans (hev.rget_eo (by rw [hf]; rfl)))).trans ?_
    exact State.fbit_fon_same _ f n 0 0 hbit
  · rw [hflt]
    refine List.mem_append_right _ ?_
    rw [hno]
    exact List.mem_singleton_self _

/-- The channel with the window of its oldest known outcome closed. -/
def State.outcomeTaken (s : State) (n : Nat) : State := s.setEo n { s.getEo n with wins := reportFirst s.tickNo (s.getEo n).wins }

theorem State.eoVerify_ready (h : (s.getEo n).wins.find? (winReady s.tickNo) = some w) : s.eoVerify n = (s.outcomeTaken n).eoOutcome n w := by
  rw [State.eoVerify, h]
  rfl

end Verify

/-- Settles O16: the head of each stage goes by its own rule (`filterJudge_…`, `eoCommit_…`, `eoLaunch_goes`, `eoOutcome_…`). -/
theorem transitionsReachTheOutput : Obligations.TransitionsReachTheOutput := by
  intro n s hrun c key
  have hn := n.isLt
  have hlive (t : State) : s.live t = t := if_pos hrun
  refine ⟨fun x hx hdue => ?filter, fun x rest hhead => ?commit, fun l rest hhead htick htag => ?launch, fun w hw htag => ?verify⟩
  case filter =>
    obtain ⟨htaken, hfilter, hlevel⟩ := s.candTaken_effect n.val x
    have hexec : exec (.transitionFilter n) s = .next (((s.candTaken n.val x).filterJudge n.val x).eoSettle n.val) :=
      congrArg Host.Outcome.next ((hlive _).trans (State.eoFilter_due hx hdue))
    refine ⟨fun hnull => ⟨_, hexec, ?_⟩, fun p hne hp hrunt => ⟨_, hexec, ?_⟩, fun hne hp => ⟨_, hexec, ?_⟩⟩
    · obtain ⟨hjudge, hf, hl, hcount⟩ := State.filterJudge_null (hnull.trans hlevel.symm)
      obtain ⟨hframe, hf2, hl2, hregs⟩ := State.eoSettle_after (htaken.trans hjudge) hn
      exact ⟨hf2.trans (hf.trans hfilter), hl2.trans (hl.trans hlevel), (hregs _ rfl).trans hcount, hframe⟩
    · obtain ⟨hjudge, hf, hl, hset, hcount⟩ := State.filterJudge_runt (fun e => hne (e.trans hlevel)) (hfilter ▸ hp) hrunt
      obtain ⟨hframe, hf2, hl2, hregs⟩ := State.eoSettle_after (htaken.trans hjudge) hn
      exact ⟨hf2.trans (hf.trans (congrArg List.dropLast hfilter)), hl2.trans hl, (State.fbit_of_rget (hregs _ rfl)).trans hset,
        (hregs _ rfl).trans hcount, hframe⟩
    · obtain ⟨hjudge, hf, hl⟩ := State.filterJudge_kept (fun e => hne (e.trans hlevel)) (hfilter ▸ hp)
      obtain ⟨hframe, hf2, hl2, -⟩ := State.eoSettle_after (htaken.trans hjudge) hn
      exact ⟨hf2.trans (hf.trans (congrArg (· ++ [x]) hfilter)), hl2.trans hl, hframe⟩
  case commit =>
    have hexec : exec (.transitionCommit n) s = .next (s.eoCommit n.val) := congrArg Host.Outcome.next (hlive _)
    refine ⟨fun hwait => ⟨_, hexec, State.eoCommit_waits hhead hwait⟩,
      fun ht hw => ⟨fun hd => ⟨_, hexec, State.eoCommit_dropped hn hhead ht hw hd⟩, fun hd => ?_⟩⟩
    intro g
    have hg : s.headPlace n.val x rest = g := State.headPlace_eq
    refine ⟨fun hl => ⟨_, hexec, ?_⟩, fun hl => ⟨_, hexec, State.eoCommit_rated hn hhead ht hw hd (hg ▸ hl)⟩⟩
    obtain ⟨hown, hother⟩ := State.eoCommit_placed hn hhead ht hw hd (hg ▸ hl)
    rw [hown, hg]
    exact ⟨rfl, rfl, hother⟩
  case launch =>
    obtain ⟨wins, w, hgo⟩ := State.eoLaunch_goes hhead htick
    obtain ⟨hframe, hown, hregs, hcount, hdeg⟩ := s.issCounted_effect n.val ((s.getEo n.val).atOutput l rest wins)
    have hlim : (s.issCounted n.val ((s.getEo n.val).atOutput l rest wins)).fget F.dwCtl_GEN_LIMIT = s.fget F.dwCtl_GEN_LIMIT :=
      State.fget_of_rget (State.rget_issCounted_other (by simp [F.dwCtl_GEN_LIMIT]) (by simp [F.dwCtl_GEN_LIMIT]))
    obtain ⟨hraise, hsame⟩ := State.raiseEv_queued (ts := l.tr.target) (vectorOf_eoIss hn) (htag.trans_eq hlim.symm)
    have hev := EventFrame.of_sameBesideDw hsame
    have hsel := State.eoSelect_frame
      ((s.issCounted n.val ((s.getEo n.val).atOutput l rest wins)).raiseEv (Prod.eoIss n.val) l.tr.target l.tr.tag) n.val w c.lastTarget
    rw [← hgo] at hsel
    have hlast := hsel.own.trans ((State.getEo_of_eo hev.eo n.val).trans hown)
    have hkept {k : RegKey} (hk : k.r.info.blk = .eo) (hr : k.r ≠ .eoCntSkip) := (hsel.kept k hk hr).trans (hev.rget_eo hk)
    have hstat := State.fbit_of_rget (f := F.eoStat_DEGRADED) (i := n.val) (j := 0) (k := 0) (hkept rfl (by simp [F.eoStat_DEGRADED]))
    refine ⟨_, congrArg Host.Outcome.next (hlive _), (congrArg Eo.level hlast :), (congrArg Eo.committed hlast :),
      (congrArg Eo.lastTarget hlast :), (congrArg Eo.lastTag hlast :), (hkept rfl (by simp)).trans hcount, ?_,
      fun hd => hstat.trans (hdeg hd), (congrArg Eo.queue hlast :), fun m hm => ?_, ?_, ?_, ?_, ?_⟩
    · refine State.raises_of (congrArg State.dw hsel.rest :) (congrArg State.tickNo hsel.rest :) ?_
      rw [(congrArg State.tickNo hframe.rest :)] at hraise
      exact hraise
    · exact (hsel.channels m hm).trans ((State.getEo_of_eo hev.eo m).trans (hframe.channels m hm))
    · exact ((hregs.mono (by simp)).trans (hev.regs.mono (by simp))).trans (hsel.regs.mono (by simp))
    · exact (congrArg State.time hsel.rest :).trans ((congrArg State.time hev.rest :).trans (congrArg State.time hframe.rest :))
    · exact (congrArg State.drv hsel.rest :).trans ((congrArg State.drv hev.rest :).trans (congrArg State.drv hframe.rest :))
    · exact (congrArg State.cal hsel.rest :).trans ((congrArg State.cal hev.rest :).trans (congrArg State.cal hframe.rest :))
  case verify =>
    have hexec : exec (.edgeVerify n) s = .next ((s.outcomeTaken n.val).eoOutcome n.val w) :=
      congrArg Host.Outcome.next ((hlive _).trans (State.eoVerify_ready hw))
    refine ⟨fun m hm => ⟨fun hin => ⟨_, hexec, ?_⟩, fun hout => ⟨_, hexec, ?_⟩⟩, fun hmiss => ⟨_, hexec, ?_⟩⟩
    · exact State.verOutcome_effect (s := s.outcomeTaken n.val) hn hm (decide_eq_true hin) htag
    · obtain ⟨a, f, hgo⟩ := State.eoOutcome_displaced (s := s.outcomeTaken n.val) hm (decide_eq_false (not_le.mpr hout))
      rw [hgo]
      obtain ⟨hcount, hset, hraise, hrep⟩ :=
        State.errOutcome_effect (s := s.outcomeTaken n.val) (w := w) (r := .eoCntDisp) (f := F.eoStat_DISPLACED) hn htag rfl nofun rfl rfl nofun
      exact ⟨hcount, hset, hraise, _, hrep, rfl, rfl, rfl⟩
    · obtain ⟨a, f, hgo⟩ := State.eoOutcome_missing (s := s.outcomeTaken n.val) (n := n.val) hmiss
      rw [hgo]
      obtain ⟨hcount, hset, hraise, hrep⟩ :=
        State.errOutcome_effect (s := s.outcomeTaken n.val) (w := w) (r := .eoCntMiss) (f := F.eoStat_MISSING) hn htag rfl nofun rfl rfl nofun
      exact ⟨hcount, hset, hraise, _, hrep, rfl, rfl, rfl⟩

end Sys2Proof.Machine
end

section
/-! PROOFS. Writes of EO_CTL and EO_BANK_CTL by name, and what clears, forces and joins a channel (R67, R69, R88, R92). -/

namespace Sys2Proof.Machine

/-! ### A write of a register of one word -/

theorem bankMapped : ∀ b : Fin 8, RegKey.mapped ⟨.eoBankCtl, b.val, 0, 0⟩ := by
  unfold RegKey.mapped
  decide +kernel

section Writes
variable {s : State} {q : Requester} {r : Reg} {f : Fld} {i v x rst : Nat}

/-- The first write of a register of one word by name reaches it. -/
theorem State.busTo_first (hs : s.writable q r = true) (hm : RegKey.mapped ⟨r, i, 0, 0⟩) (hw : r.info.words = 1) (hx : x < 2 ^ 32) :
    s.busTo q r x i = (s.wroteBy q ⟨r, i, 0, 0⟩).commit q ⟨r, i, 0, 0⟩ x := by
  have hword : wordOf x 0 = x := by
    rw [wordOf, bits]
    simpa using Nat.mod_eq_of_lt hx
  have h := State.busWrite_word (v := x) (key := ⟨r, i, 0, 0⟩) (State.readable_of_writable hs) hm (w := 0) (by rw [hw]; exact one_pos)
  rw [hword] at h
  refine h.trans ((if_pos hw).trans ?_)
  exact State.commitOf_first (State.notOutranked_of_writable hs)

/-- A stored field of one bit reads what was written, wherever no hardware keeps it. -/
theorem State.fbit_store (hw : f.reg.info.words = 1) (hf : (⟨f.lo, f.lo, .rw, rst, .any⟩ : FldDef) ∈ f.reg.info.flds) :
    (s.store ⟨f.reg, i, 0, 0⟩ v).fbit f i = bit v f.lo := by
  have hfield := fieldsWrite_field (s.rget ⟨f.reg, i, 0, 0⟩) (s.hwMask ⟨f.reg, i, 0, 0⟩) v hf
  rw [State.fbit, State.rget_store_self hw, bit_eq_bits, bit_eq_bits]
  exact congrArg (fun y => decide (y = 1)) hfield

theorem State.store_other {k c : RegKey} (hk : c ≠ k) (hc : c.r ∉ wrErrRegs) : (s.store k v).rget c = s.rget c := by
  unfold State.store
  dsimp only
  split
  · rw [State.rget_wrErr_other _ _ _ hc]
    split
    · exact State.rget_rset_other _ _ _ _ hk
    · rfl
  · exact State.rget_rset_other _ _ _ _ hk

theorem State.wrErrIf_other {k c : RegKey} {b : Bool} (hc : c.r ∉ wrErrRegs) : (s.wrErrIf b k).rget c = s.rget c := by
  unfold State.wrErrIf
  split
  · exact State.rget_wrErr_other _ _ _ hc
  · rfl

theorem State.wrErrIf_sameBesideRegs (s : State) (b : Bool) (k : RegKey) : s.sameBesideRegs (s.wrErrIf b k) := by
  unfold State.wrErrIf
  split
  · exact s.wrErr_sameBesideRegs k
  · rfl

theorem State.storeHeld_sameBesideRegs (s : State) (k : RegKey) (v : Nat) (b : Bool) (fs : List Fld) :
    s.sameBesideRegs (s.storeHeld k v b fs) := (State.store_sameBesideRegs ..).trans (State.wrErrIf_sameBesideRegs ..)

theorem State.storeHeld_other {k c : RegKey} {b : Bool} {fs : List Fld} (hk : c ≠ k) (hc : c.r ∉ wrErrRegs) :
    (s.storeHeld k v b fs).rget c = s.rget c := (State.wrErrIf_other hc).trans (State.store_other hk hc)

/-- The value that a write stores where the given fields are held. -/
def heldValue (old v : Nat) (b : Bool) (fs : List Fld) : Nat := (if b then holdFields old fs v else (v, false)).1

theorem State.fbit_storeHeld {b : Bool} {fs : List Fld} (hw : f.reg.info.words = 1)
    (hf : (⟨f.lo, f.lo, .rw, rst, .any⟩ : FldDef) ∈ f.reg.info.flds) (hr : f.reg ∉ wrErrRegs) :
    (s.storeHeld ⟨f.reg, i, 0, 0⟩ v b fs).fbit f i = bit (heldValue (s.rget ⟨f.reg, i, 0, 0⟩) v b fs) f.lo :=
  (State.fbit_of_rget (State.wrErrIf_other hr)).trans (State.fbit_store hw hf)

/-- The fields of EO_CTL that stand while the channel is enabled (R94). -/
def eoHeld : List Fld := [F.eoCtl_POL, F.eoCtl_IDLE, F.eoCtl_SRC]

theorem heldValue_en (old v : Nat) (b : Bool) : bit (heldValue old v b eoHeld) 0 = bit v 0 := by
  cases b
  · rfl
  · exact (bit_setBits_out (by decide) (by decide)).trans ((bit_setBits_out (by decide) (by decide)).trans
      (bit_setBits_out (by decide) (by decide)))

theorem heldValue_idle (old v : Nat) : bit (heldValue old v true eoHeld) 2 = bit old 2 := by
  refine (bit_setBits_out (by decide) (by decide)).trans ?_
  rw [bit_eq_bits, bit_eq_bits]
  refine congrArg (fun y => decide (y = 1)) ((bits_setBits_same _ _ _ _ (by decide)).trans ?_)
  exact Nat.mod_mod _ _

/-- A word of the bus with its lowest bit as given. -/
theorem setBits_zero_lt {v x : Nat} (h : v < 2 ^ 32) : setBits v 0 0 x < 2 ^ 32 := by
  unfold setBits
  omega

theorem bit_setBits_zero (v x : Nat) : bit (setBits v 0 0 x) 0 = decide (x % 2 = 1) := by
  rw [bit_eq_bits, bits_setBits_same _ _ _ _ le_rfl]
  rfl

end Writes

/-! ### The work of a channel goes (R67, R69, R92) -/

section Clear
variable {s t u : State} {n m : Nat}

/-- The channel with its work dropped. -/
def Eo.cleared (c : Eo) (now : Nat) (keep : Bool) : Eo :=
  { c with
    queue := [], filter := [], dropNext := false, engine := none, profNext := [], cuts := []
    committed := if keep then c.committed else []
    track := trackHalt now c.track
    flevel := ((if keep then c.committed else []).getLast?.map fun l => l.tr.level).getD c.level }

theorem State.eoClear_effect (s : State) (hn : n < 64) (keep : Bool) :
    ChanFrame s (s.eoClear n keep) n ∧ (s.eoClear n keep).getEo n = (s.getEo n).cleared s.time.now keep := by
  obtain ⟨hframe, hown⟩ := s.eoLeave_effect hn fun _ => true
  refine ⟨hframe.setEo _, ?_⟩
  rw [State.eoClear, State.getEo_setEo_same, hown]
  rfl

theorem State.eoForce_level {lvl : Bool} {tag : Nat} (h : (s.getEo n).level = lvl) :
    s.eoForce n lvl tag = s.setEo n { s.getEo n with flevel := lvl } := by
  refine if_pos ?_
  rw [State.getEo_calRelease]
  exact h

/-- A channel at another level has one more transition on its way. -/
theorem State.eoForce_other {lvl : Bool} {tag : Nat} (h : (s.getEo n).level ≠ lvl) :
    ∃ l : Launch, l.tr.level = lvl ∧ l.tr.tag = tag ∧
      s.eoForce n lvl tag = (s.calRelease n).setEo n { s.getEo n with flevel := lvl, committed := (s.getEo n).committed ++ [l] } := by
  have hgo : s.eoForce n lvl tag = _ := if_neg (by rw [State.getEo_calRelease]; exact h)
  rw [hgo, State.getEo_calRelease]
  exact ⟨_, by rfl, by rfl, rfl⟩

/-- A hold of CAL released beside what a channel's work does. -/
theorem EoFrame.calRelease (h : EoFrame s t n) : EoFrame (s.calRelease n) (t.calRelease n) n := by
  have hcal : t.cal = s.cal := (congrArg State.cal h.rest :)
  have htiu : t.tiu = s.tiu := (congrArg State.tiu h.rest :)
  have hrel : t.calRelease n = { t with cal := (s.calRelease n).cal, tiu := (s.calRelease n).tiu } := by
    have hhold : t.getCalEo n = s.getCalEo n := congrArg (fun x : Cal => x.eo.get {} n) hcal
    have hunit : t.getTiu (32 + n) = s.getTiu (32 + n) := congrArg (fun x : SMap Nat Tiu => x.get {} (32 + n)) htiu
    unfold State.calRelease
    rw [hhold, hunit]
    split
    · simp only [State.setTiu, State.setCalEo, State.getTiu, hcal, htiu]
    · rw [← hcal, ← htiu]
  obtain ⟨c, x, hs⟩ := s.calRelease_effect n
  rw [hrel, hs]
  exact ⟨h.channels, h.regs, congrArg (fun y : State => { y with cal := c, tiu := x }) h.rest⟩

end Clear

/-! ### What an engine gives its outputs (R69, R85, R88) -/

/-- What an engine's transitions leave alone: no channel outside `p` changes, and in the others only what is on its way to
the output; no register changes. -/
structure EngFrame (p : Nat → Prop) (s t : State) : Prop where
  own : ∀ m, { t.getEo m with
    queue := (s.getEo m).queue, flevel := (s.getEo m).flevel, committed := (s.getEo m).committed
    profNext := (s.getEo m).profNext } = s.getEo m
  others : ∀ m, ¬ p m → t.getEo m = s.getEo m
  rest : { t with eo := s.eo, tiu := s.tiu, cal := s.cal } = s

section Engines
variable {p : Nat → Prop} {s t u : State} {n m k : Nat}

theorem EngFrame.refl (p : Nat → Prop) (s : State) : EngFrame p s s := ⟨fun _ => rfl, fun _ _ => rfl, rfl⟩

theorem EngFrame.trans (h : EngFrame p s t) (h2 : EngFrame p t u) : EngFrame p s u where
  own m := (congrArg (fun c : Eo => { c with
    queue := (s.getEo m).queue, flevel := (s.getEo m).flevel, committed := (s.getEo m).committed
    profNext := (s.getEo m).profNext }) (h2.own m)).trans (h.own m)
  others m hm := (h2.others m hm).trans (h.others m hm)
  rest := (congrArg (fun x : State => { x with eo := s.eo, tiu := s.tiu, cal := s.cal }) h2.rest).trans h.rest

theorem EngFrame.rget (h : EngFrame p s t) (c : RegKey) : t.rget c = s.rget c := State.rget_of_regs (congrArg State.regs h.rest :) c

theorem EngFrame.calRelease (p : Nat → Prop) (s : State) (n : Nat) : EngFrame p s (s.calRelease n) := by
  obtain ⟨c, x, h⟩ := s.calRelease_effect n
  rw [h]
  exact ⟨fun _ => rfl, fun _ _ => rfl, rfl⟩

/-- A channel that takes part gets other work on its way. -/
theorem EngFrame.setEo (s : State) (hp : p n) (q : List QAct) (fl : Bool) (com : List Launch) (pn : List Trans) :
    EngFrame p s (s.setEo n { s.getEo n with queue := q, flevel := fl, committed := com, profNext := pn }) where
  own m := by
    rw [State.getEo_setEo]
    split
    next e => rw [e]
    next => rfl
  others m hm := State.getEo_setEo_other _ fun e => hm (by rw [e]; exact hp)
  rest := rfl

theorem EngFrame.foldl {A : Type} {f : State → A → State} {l : List A} (hf : ∀ st a, EngFrame p st (f st a)) (s : State) :
    EngFrame p s (l.foldl f s) :=
  List.foldlRecOn l f (motive := EngFrame p s) (.refl p s) fun st h a _ => h.trans (hf st a)

theorem State.eoForce_frame (s : State) (hp : p n) (lvl : Bool) (tag : Nat) : EngFrame p s (s.eoForce n lvl tag) := by
  by_cases h : (s.getEo n).level = lvl
  · rw [State.eoForce_level h]
    exact EngFrame.setEo s hp (s.getEo n).queue lvl (s.getEo n).committed (s.getEo n).profNext
  · obtain ⟨l, -, -, hgo⟩ := State.eoForce_other (tag := tag) h
    rw [hgo, ← s.getEo_calRelease n n]
    exact (EngFrame.calRelease p s n).trans (EngFrame.setEo _ hp ((s.calRelease n).getEo n).queue lvl _ ((s.calRelease n).getEo n).profNext)

theorem State.engPut_frame (s : State) (hp : p n) (act k : Nat) (ts : Instant) (lvl : Bool) (tag : Nat) (late : Bool) :
    EngFrame p s (s.engPut n act k ts lvl tag late) := by
  unfold State.engPut
  extract_lets u c tr
  split
  · exact (EngFrame.calRelease p s n).trans (EngFrame.setEo u hp _ c.flevel c.committed _)
  · exact .refl p s

/-- An engine reaches the outputs that `out` selects. -/
theorem State.engOutputs_frame (s : State) {out : Nat → Bool} (hp : ∀ k, out k = true → p (n + k)) (e : Engine) (o0 o1 : Bool × Bool × Bool)
    (ts : Instant) (late : Bool) : EngFrame p s (s.engOutputs n e o0 o1 ts late out) := by
  unfold State.engOutputs
  extract_lets fol s1 s2
  have hfol {k : Nat} (h : fol k = true) : p (n + k) := hp k (Bool.and_eq_true_iff.mp h).1
  have h1 : EngFrame p s s1 := by
    show EngFrame p s (if _ then _ else _)
    split
    next h => exact s.engPut_frame (hp 0 h.2) ..
    next => exact .refl p s
  have h2 : EngFrame p s s2 := by
    show EngFrame p s (if _ then _ else _)
    split
    next h => exact h1.trans (s1.engPut_frame (hfol h.2) ..)
    next => exact h1
  split
  next h => exact h2.trans (s2.engPut_frame (hfol h.2.2) ..)
  next => exact h2

theorem State.engCross_frame (s : State) {out : Nat → Bool} (hp : ∀ k, out k = true → p (n + k)) (e e1 : Engine) :
    EngFrame p s (s.engCross n e e1 out) := by
  unfold State.engCross
  extract_lets f0 f1 tau
  split
  · exact .refl p s
  · exact s.engOutputs_frame hp ..

theorem State.engReplay_frame {out : Nat → Bool} (hp : ∀ k, out k = true → p (n + k)) (upto fuel : Nat) (s : State) (e : Engine) :
    EngFrame p s (s.engReplay n out upto fuel e) := by
  induction fuel generalizing s e with
  | zero => exact .refl p s
  | succ fuel ih =>
    unfold State.engReplay
    dsimp only
    split
    · exact .refl p s
    · exact (s.engCross_frame hp ..).trans (ih ..)

theorem State.engAgain_frame (s : State) {out : Nat → Bool} (hp : ∀ k, out k = true → p (n + k)) (k : Track) :
    EngFrame p s (s.engAgain n out k) := (s.engOutputs_frame hp ..).trans (State.engReplay_frame hp ..)

/-- A channel that joins its leader's profiles changes alone. -/
theorem State.followJoin_frame (s : State) (h : m + k = n) : EngFrame (· = n) s (s.followJoin n m k) := by
  have hp : ∀ o, decide (o = k) = true → m + o = n := fun o ho => by rw [of_decide_eq_true ho, h]
  unfold State.followJoin
  extract_lets c next only
  refine EngFrame.foldl (fun st a => ?_) s
  split
  · exact (st.eoForce_frame (p := (· = n)) rfl ..).trans (State.engReplay_frame hp ..)
  split
  · exact st.engAgain_frame hp a
  · exact .refl _ st

theorem State.leaderOf_reaches (s : State) {r : Nat × Nat} (h : s.leaderOf n = some r) : r.1 + r.2 = n := by
  unfold State.leaderOf at h
  extract_lets leads abz at h
  split at h
  next hc => obtain rfl := Option.some.inj h; exact Nat.sub_add_cancel hc.1
  next =>
    split at h
    next hc => obtain rfl := Option.some.inj h; exact Nat.sub_add_cancel hc.1
    next => exact absurd h nofun

end Engines

/-! ### Enables (R69) -/

section Enables
variable {s : State} {n m : Nat}

/-- A pin run that ends leaves the channels and their registers alone. -/
theorem State.pinEnabled_frame (s : State) (n : Nat) : CalFrame s (s.pinEnabled n) := by
  unfold State.pinEnabled
  split
  · exact .refl s
  split
  · exact .refl s
  · have hset : CalFrame s (s.setCalEo n { s.getCalEo n with code := CalCode.notIdle }) := (CalFrame.refl s).setCalEo rfl rfl
    exact hset.calHistory.longEnd (by decide)

/-- A channel that has just been enabled. -/
def Eo.enabled (c : Eo) (idle : Bool) : Eo := { c with level := idle, flevel := idle, selCount := 0, lastTag := 0, stand := .run }

/-- An enabled channel stands at its idle level, and no other channel changes. -/
theorem State.eoEnableCh_effect (s : State) (n : Nat) :
    ((s.eoEnableCh n).getEo n).level = s.fbit F.eoCtl_IDLE n ∧ ((s.eoEnableCh n).getEo n).stand = .run ∧
      ((s.eoEnableCh n).getEo n).lastTag = 0 ∧ (∀ m, m ≠ n → (s.eoEnableCh n).getEo m = s.getEo m) ∧
      (∀ c : RegKey, c.r.info.blk = .eo → (s.eoEnableCh n).rget c = s.rget c) ∧ (s.eoEnableCh n).time = s.time := by
  have hpin := s.pinEnabled_frame n
  have hregs {c : RegKey} (hc : c.r.info.blk = .eo) : (s.pinEnabled n).rget c = s.rget c := hpin.regs c (by rw [hc]; decide)
  have hfollow : EngFrame (· = n) ((s.pinEnabled n).setEo n (((s.pinEnabled n).getEo n).enabled ((s.pinEnabled n).fbit F.eoCtl_IDLE n)))
      (s.eoEnableCh n) := by
    unfold State.eoEnableCh
    extract_lets v idle c s1
    split
    · split
      next r hr => exact s1.followJoin_frame (s1.leaderOf_reaches hr)
      next => exact .refl _ s1
    · exact .refl _ s1
  have hown := hfollow.own n
  rw [State.getEo_setEo_same, State.fbit_of_rget (hregs rfl)] at hown
  refine ⟨(congrArg Eo.level hown :), (congrArg Eo.stand hown :), (congrArg Eo.lastTag hown :), fun m hm => ?_, fun c hc => ?_, ?_⟩
  · exact (hfollow.others m hm).trans ((State.getEo_setEo_other _ hm).trans (State.getEo_of_eo (congrArg State.eo hpin.rest :) m))
  · exact (hfollow.rget c).trans (hregs hc)
  · exact (congrArg State.time hfollow.rest :).trans (congrArg State.time hpin.rest :)

/-- A channel without work, in a standing. -/
def State.quieted (s : State) (n : Nat) (st : Stand) : State := (s.eoClear n false).setEo n { (s.eoClear n false).getEo n with stand := st }

/-- And on its way to its idle level. -/
def State.idled (s : State) (n : Nat) (st : Stand) : State := (s.quieted n st).eoForce n ((s.quieted n st).fbit F.eoCtl_IDLE n)

theorem State.quieted_effect (s : State) (hn : n < 64) (st : Stand) :
    ChanFrame s (s.quieted n st) n ∧ (s.quieted n st).getEo n = { (s.getEo n).cleared s.time.now false with stand := st } := by
  obtain ⟨hframe, hown⟩ := s.eoClear_effect hn false
  refine ⟨hframe.setEo _, ?_⟩
  rw [State.quieted, State.getEo_setEo_same, hown]

/-- What stays of a channel that is driven to its idle level: one transition, if it stands at another level. -/
structure Idled (s t : State) (n : Nat) (st : Stand) : Prop where
  queue : (t.getEo n).queue = []
  filter : (t.getEo n).filter = []
  engine : (t.getEo n).engine = none
  stand : (t.getEo n).stand = st
  same : (s.getEo n).level = s.fbit F.eoCtl_IDLE n → (t.getEo n).committed = [] ∧ EoFrame s t n
  other : (s.getEo n).level ≠ s.fbit F.eoCtl_IDLE n →
    (∃ l, (t.getEo n).committed = [l] ∧ l.tr.level = s.fbit F.eoCtl_IDLE n ∧ l.tr.tag = 0) ∧ EoFrame (s.calRelease n) t n
  regs : ∀ c : RegKey, c.r.info.blk = .eo → t.rget c = s.rget c

theorem State.idled_effect (s : State) (hn : n < 64) (st : Stand) : Idled s (s.idled n st) n st := by
  obtain ⟨hframe, hown⟩ := s.quieted_effect hn st
  have hidle : (s.quieted n st).fbit F.eoCtl_IDLE n = s.fbit F.eoCtl_IDLE n := State.fbit_of_rget (hframe.rget_eo rfl)
  have hlevel : ((s.quieted n st).getEo n).level = (s.getEo n).level := (congrArg Eo.level hown :)
  by_cases h : (s.getEo n).level = s.fbit F.eoCtl_IDLE n
  · have hgo := State.eoForce_level (tag := 0) (hlevel.trans (h.trans hidle.symm))
    have hlast : (s.idled n st).getEo n = _ := (congrArg (·.getEo n) hgo).trans (State.getEo_setEo_same ..)
    rw [hown] at hlast
    have hall : EoFrame s (s.idled n st) n := by
      rw [State.idled, hgo]
      exact hframe.toEoFrame.setEo _
    refine ⟨by rw [hlast]; rfl, by rw [hlast]; rfl, by rw [hlast]; rfl, by rw [hlast], fun _ => ⟨by rw [hlast]; rfl, hall⟩,
      fun hne => absurd h hne, fun c hc => ?_⟩
    rw [State.idled, hgo]
    exact hframe.rget_eo hc
  · obtain ⟨l, hl, htag, hgo⟩ := State.eoForce_other (tag := 0) fun e => h (hlevel.symm.trans (e.trans hidle))
    have hlast : (s.idled n st).getEo n = _ := (congrArg (·.getEo n) hgo).trans (State.getEo_setEo_same ..)
    rw [hown] at hlast
    have hall : EoFrame (s.calRelease n) (s.idled n st) n := by
      rw [State.idled, hgo]
      exact hframe.toEoFrame.calRelease.setEo _
    refine ⟨by rw [hlast]; rfl, by rw [hlast]; rfl, by rw [hlast]; rfl, by rw [hlast], fun he => absurd he h,
      fun _ => ⟨⟨l, by rw [hlast]; rfl, hl.trans hidle, htag⟩, hall⟩, fun c hc => ?_⟩
    rw [State.idled, hgo]
    exact ((s.quieted n st).rget_calRelease n c).trans (hframe.rget_eo hc)

theorem Idled.frame {t : State} {st : Stand} (h : Idled s t n st) : EoFrame s t n ∨ EoFrame (s.calRelease n) t n :=
  (em ((s.getEo n).level = s.fbit F.eoCtl_IDLE n)).imp (fun e => (h.same e).2) fun e => (h.other e).2

theorem Idled.others {t : State} {st : Stand} (h : Idled s t n st) (hm : m ≠ n) : t.getEo m = s.getEo m :=
  h.frame.elim (fun e => e.channels m hm) fun e => (e.channels m hm).trans (s.getEo_calRelease n m)

theorem Idled.time {t : State} {st : Stand} (h : Idled s t n st) : t.time = s.time :=
  h.frame.elim (fun e => (congrArg State.time e.rest :)) fun e => (congrArg State.time e.rest :).trans (s.calRelease_time n)

/-- A channel of a powered bank that is disabled goes to its idle level. -/
theorem State.eoDisableCh_idles (hn : n < 64) (hbank : s.bankOn n = true) : s.eoDisableCh n = (s.idled n .run).idleTable n := by
  have hon : (s.quieted n .run).bankOn n = true :=
    (State.fbit_of_rget (f := F.eoBankCtl_PWR) ((s.quieted_effect hn .run).1.rget_eo rfl)).trans hbank
  exact congrArg (State.idleTable · n) (if_pos hon)

end Enables


end Sys2Proof.Machine
end

section
/-! PROOFS. Channel enables, bank power, fault reactions and the profile engine (R67, R69, R84, R86, R92). -/

namespace Sys2Proof.Machine

/-! ### Writes of EO_CTL (R69, R94) -/

section EoCtl
variable {s : State} {n v : Nat}

theorem State.fbit_fset_other {f g : Fld} {x i : Nat} (hr : g.reg = f.reg) (hf : f.lo ≤ f.hi) (hb : g.lo < f.lo ∨ f.hi < g.lo) :
    (s.fset f x i).fbit g i = s.fbit g i := by
  rw [State.fbit, State.fbit, hr, State.fset, State.rget_rset_same, bit_setBits_out hf hb]

/-- EO_CTL after a write: in limited mode no channel is enabled. -/
def State.eoCtlStored (s : State) (n v : Nat) : State :=
  if s.glb.limited then (s.storeHeld ⟨.eoCtl, n, 0, 0⟩ v (s.fbit F.eoCtl_EN n) eoHeld).fset F.eoCtl_EN 0 n
  else s.storeHeld ⟨.eoCtl, n, 0, 0⟩ v (s.fbit F.eoCtl_EN n) eoHeld

theorem State.eoCtlStored_sameBesideRegs (s : State) (n v : Nat) : s.sameBesideRegs (s.eoCtlStored n v) := by
  unfold State.eoCtlStored
  split
  · exact (s.storeHeld_sameBesideRegs ..).trans rfl
  · exact s.storeHeld_sameBesideRegs ..

theorem State.getEo_eoCtlStored (s : State) (n v m : Nat) : (s.eoCtlStored n v).getEo m = s.getEo m :=
  State.getEo_of_eo (congrArg State.eo (s.eoCtlStored_sameBesideRegs n v) :) m

theorem State.time_eoCtlStored (s : State) (n v : Nat) : (s.eoCtlStored n v).time = s.time :=
  (congrArg State.time (s.eoCtlStored_sameBesideRegs n v) :)

theorem State.rget_eoCtlStored_other {c : RegKey} (hk : c ≠ ⟨.eoCtl, n, 0, 0⟩) (hc : c.r ∉ wrErrRegs) :
    (s.eoCtlStored n v).rget c = s.rget c := by
  unfold State.eoCtlStored
  split
  · exact (State.rget_fset_other _ _ _ _ _ _ _ hk).trans (State.storeHeld_other hk hc)
  · exact State.storeHeld_other hk hc

theorem State.en_eoCtlStored : (s.eoCtlStored n v).fbit F.eoCtl_EN n = (!s.glb.limited && bit v 0) := by
  unfold State.eoCtlStored
  split
  next h =>
    rw [h]
    have hread := State.fget_fset_same (s.storeHeld ⟨.eoCtl, n, 0, 0⟩ v (s.fbit F.eoCtl_EN n) eoHeld) F.eoCtl_EN 0 n 0 0 (by decide)
    exact (bit_eq_bits _ 0).trans (congrArg (fun x => decide (x = 1)) hread)
  next h =>
    rw [Bool.eq_false_iff.mpr h]
    exact (State.fbit_storeHeld (f := F.eoCtl_EN) (rst := 0) rfl (by decide) (by decide)).trans (heldValue_en ..)

theorem State.idle_eoCtlStored : (s.eoCtlStored n v).fbit F.eoCtl_IDLE n = if s.fbit F.eoCtl_EN n then s.fbit F.eoCtl_IDLE n else bit v 2 := by
  have hstored : (s.storeHeld ⟨.eoCtl, n, 0, 0⟩ v (s.fbit F.eoCtl_EN n) eoHeld).fbit F.eoCtl_IDLE n =
      if s.fbit F.eoCtl_EN n then s.fbit F.eoCtl_IDLE n else bit v 2 := by
    refine (State.fbit_storeHeld (f := F.eoCtl_IDLE) (rst := 0) rfl (by decide) (by decide)).trans ?_
    split
    next h =>
      rw [h]
      exact heldValue_idle ..
    next h =>
      rw [Bool.eq_false_iff.mpr h]
      rfl
  unfold State.eoCtlStored
  split
  · exact (State.fbit_fset_other (f := F.eoCtl_EN) (g := F.eoCtl_IDLE) rfl (by decide) (by decide)).trans hstored
  · exact hstored

theorem State.wrEoCtl_rises (h : s.fbit F.eoCtl_EN n = false) (hl : s.glb.limited = false) (hv : bit v 0 = true) :
    s.wrEoCtl n v = ((s.eoCtlStored n v).setEo n
      { (s.eoCtlStored n v).getEo n with reactSeen := (s.eoCtlStored n v).flt.reacts.length }).eoEnableCh n := by
  have hen : (s.eoCtlStored n v).fbit F.eoCtl_EN n = true := by rw [State.en_eoCtlStored, hl, hv]; rfl
  have hfalls : ¬ (s.fbit F.eoCtl_EN n && !(s.eoCtlStored n v).fbit F.eoCtl_EN n) = true := by rw [h]; nofun
  have hrises : (!s.fbit F.eoCtl_EN n && (s.eoCtlStored n v).fbit F.eoCtl_EN n) = true := by rw [h, hen]; rfl
  exact (if_neg hfalls).trans (if_pos hrises)

theorem State.wrEoCtl_falls (h : s.fbit F.eoCtl_EN n = true) (hv : bit v 0 = false) : s.wrEoCtl n v = (s.eoCtlStored n v).eoDisableCh n := by
  have hen : (s.eoCtlStored n v).fbit F.eoCtl_EN n = false := by rw [State.en_eoCtlStored, hv, Bool.and_false]
  have hfalls : (s.fbit F.eoCtl_EN n && !(s.eoCtlStored n v).fbit F.eoCtl_EN n) = true := by rw [h, hen]; rfl
  exact if_pos hfalls

end EoCtl

theorem exec_eoEnable {q : Port} {n : Fin 64} {s : State} (data : BitVec 32) (hs : s.writable q.req .eoCtl = true) :
    exec (.eoEnable q n data) s = .next ((s.wroteBy q.req ⟨.eoCtl, n.val, 0, 0⟩).wrEoCtl n.val (setBits data.toNat 0 0 1)) :=
  congrArg Host.Outcome.next (State.busTo_first hs (eoMapped .eoCtl (by decide) n) rfl (setBits_zero_lt data.isLt))

theorem exec_eoDisable {q : Port} {n : Fin 64} {s : State} (data : BitVec 32) (hs : s.writable q.req .eoCtl = true) :
    exec (.eoDisable q n data) s = .next ((s.wroteBy q.req ⟨.eoCtl, n.val, 0, 0⟩).wrEoCtl n.val (setBits data.toNat 0 0 0)) :=
  congrArg Host.Outcome.next (State.busTo_first hs (eoMapped .eoCtl (by decide) n) rfl (setBits_zero_lt data.isLt))

/-! ### Banks (R67) -/

section Banks
variable {s : State} {n m b : Nat}

theorem mem_bankChans : m ∈ bankChans b ↔ m / 8 = b := by
  simp only [bankChans, List.mem_map, List.mem_range]
  exact ⟨fun ⟨i, hi, he⟩ => by omega, fun h => ⟨m % 8, by omega, by omega⟩⟩

theorem bankChans_nodup (b : Nat) : (bankChans b).Nodup := List.nodup_range.map fun i j h => by
  simpa using h

/-- Work done on channels one after the other, each in a state that keeps `p` and with effect `r` on the channel alone. -/
theorem foldl_channels {f : State → Nat → State} {p : State → Prop} {r : Nat → Eo → Eo → Prop} {l : List Nat} (hl : l.Nodup)
    (hf : ∀ st n, n ∈ l → p st → p (f st n) ∧ r n (st.getEo n) ((f st n).getEo n) ∧ ∀ m, m ≠ n → (f st n).getEo m = st.getEo m)
    (hp : p s) :
    p (l.foldl f s) ∧ (∀ m ∈ l, r m (s.getEo m) ((l.foldl f s).getEo m)) ∧ ∀ m, m ∉ l → (l.foldl f s).getEo m = s.getEo m := by
  induction l generalizing s with
  | nil => exact ⟨hp, fun _ hm => absurd hm List.not_mem_nil, fun _ _ => rfl⟩
  | cons n l ih =>
    rw [List.nodup_cons] at hl
    obtain ⟨hp1, hr, hother⟩ := hf s n (.head _) hp
    obtain ⟨hp2, hin, hout⟩ := ih hl.2 (fun st k hk => hf st k (.tail _ hk)) hp1
    rw [List.foldl_cons]
    refine ⟨hp2, fun m hm => ?_, fun m hm => ?_⟩
    · rcases List.mem_cons.mp hm with rfl | hm
      · rw [hout m hl.1]
        exact hr
      · have hne : m ≠ n := fun e => hl.1 (e ▸ hm)
        have h := hin m hm
        rw [hother m hne] at h
        exact h
    · rw [List.mem_cons, not_or] at hm
      rw [hout m hm.2, hother m hm.1]

/-- A channel of an unpowered bank has no work and stands at its idle level. -/
def Eo.isDown (c : Eo) (idle : Bool) : Prop := c.queue = [] ∧ c.filter = [] ∧ c.committed = [] ∧ c.level = idle ∧ c.wins = []

/-- A channel of a bank that powers down. -/
def State.chanDown (s : State) (n : Nat) : State :=
  (((s.eoClear n false).closeWins n).calRelease n).setEo n
    { (((s.eoClear n false).closeWins n).calRelease n).getEo n with
      level := (((s.eoClear n false).closeWins n).calRelease n).fbit F.eoCtl_IDLE n
      flevel := (((s.eoClear n false).closeWins n).calRelease n).fbit F.eoCtl_IDLE n, poweringUp := false }

theorem State.chanDown_effect (s : State) (hn : n < 64) :
    (s.chanDown n).getEo n = { (s.getEo n).cleared s.time.now false with
      wins := [], level := s.fbit F.eoCtl_IDLE n, flevel := s.fbit F.eoCtl_IDLE n, poweringUp := false } ∧
      (∀ m, m ≠ n → (s.chanDown n).getEo m = s.getEo m) ∧ ∀ c : RegKey, c.r.info.blk = .eo → (s.chanDown n).rget c = s.rget c := by
  obtain ⟨hframe, hown⟩ := s.eoClear_effect hn false
  have hwins : ((s.eoClear n false).closeWins n).getEo n = { (s.getEo n).cleared s.time.now false with wins := [] } := by
    rw [← hown]
    exact State.getEo_setEo_same ..
  have hregs (c : RegKey) (hc : c.r.info.blk = .eo) : (((s.eoClear n false).closeWins n).calRelease n).rget c = s.rget c :=
    (State.rget_calRelease ..).trans (hframe.rget_eo hc)
  refine ⟨?_, fun m hm => ?_, hregs⟩
  · rw [State.chanDown, State.getEo_setEo_same, State.getEo_calRelease, hwins, State.fbit_of_rget (hregs _ rfl)]
  · have hclose : ((s.eoClear n false).closeWins n).getEo m = (s.eoClear n false).getEo m := State.getEo_setEo_other _ hm
    exact (State.getEo_setEo_other _ hm).trans ((State.getEo_calRelease ..).trans (hclose.trans (hframe.channels m hm)))

theorem State.bankDown_effect (s : State) (hb : b < 8) :
    (∀ c : RegKey, c.r.info.blk = .eo → (s.bankDown b).rget c = s.rget c) ∧
      (∀ m, m / 8 = b → ((s.bankDown b).getEo m).isDown (s.fbit F.eoCtl_IDLE m)) ∧
      ∀ m, m / 8 ≠ b → (s.bankDown b).getEo m = s.getEo m := by
  have hgo : s.bankDown b = (bankChans b).foldl State.chanDown s := rfl
  rw [hgo]
  obtain ⟨hregs, hin, hout⟩ := foldl_channels (s := s) (f := State.chanDown)
    (p := fun st => ∀ c : RegKey, c.r.info.blk = .eo → st.rget c = s.rget c)
    (r := fun m _ c => c.isDown (s.fbit F.eoCtl_IDLE m)) (bankChans_nodup b)
    (fun st n hn hst => by
      have hmem := mem_bankChans.mp hn
      obtain ⟨hown, hother, hkept⟩ := st.chanDown_effect (n := n) (by omega)
      refine ⟨fun c hc => (hkept c hc).trans (hst c hc), ?_, hother⟩
      rw [hown]
      exact ⟨rfl, rfl, rfl, State.fbit_of_rget (hst _ rfl), rfl⟩) fun _ _ => rfl
  exact ⟨hregs, fun m hm => hin m (mem_bankChans.mpr hm), fun m hm => hout m fun h => hm (mem_bankChans.mp h)⟩

/-- A channel of a bank that powers up. -/
def Eo.comingUp (c : Eo) (idle : Bool) : Eo := { c with level := idle, flevel := idle, poweringUp := true }

/-- The channels of a bank that powers up. -/
def State.chansUp (s : State) (b : Nat) : State :=
  (bankChans b).foldl (fun st n => st.setEo n ((st.getEo n).comingUp (st.fbit F.eoCtl_IDLE n))) s

theorem State.chansUp_effect (s : State) (b : Nat) :
    (s.chansUp b).regs = s.regs ∧ (∀ m ∈ bankChans b, (s.chansUp b).getEo m = (s.getEo m).comingUp (s.fbit F.eoCtl_IDLE m)) ∧
      ∀ m, m ∉ bankChans b → (s.chansUp b).getEo m = s.getEo m :=
  foldl_channels (p := fun st => st.regs = s.regs) (r := fun m c d => d = c.comingUp (s.fbit F.eoCtl_IDLE m)) (bankChans_nodup b)
    (fun st n _ hst => by
      have hidle : st.fbit F.eoCtl_IDLE n = s.fbit F.eoCtl_IDLE n := State.fbit_of_rget (State.rget_of_regs hst _)
      refine ⟨hst, ?_, fun m hm => State.getEo_setEo_other _ hm⟩
      rw [State.getEo_setEo_same, hidle]) rfl

theorem State.bankUp_effect (s : State) (b : Nat) :
    (∀ c : RegKey, c.r.info.blk = .eo → (s.bankUp b).rget c = s.rget c) ∧
      (∀ m, m / 8 = b → (s.bankUp b).getEo m = (s.getEo m).comingUp (s.fbit F.eoCtl_IDLE m)) ∧
      ∀ m, m / 8 ≠ b → (s.bankUp b).getEo m = s.getEo m := by
  obtain ⟨hregs, hin, hout⟩ := s.chansUp_effect b
  have hcal : UnitFrame (s.chansUp b) (s.bankUp b) := (s.chansUp b).scheduleRegion_frame b false false
  refine ⟨fun c hc => ?_, fun m hm => ?_, fun m hm => ?_⟩
  · exact (hcal.rget (by rw [hc]; decide)).trans (State.rget_of_regs hregs c)
  · exact (State.getEo_of_eo hcal.eo m).trans (hin m (mem_bankChans.mpr hm))
  · exact (State.getEo_of_eo hcal.eo m).trans (hout m fun h => hm (mem_bankChans.mp h))

theorem State.bankUpDone_effect (s : State) (b : Nat) :
    (∀ m, m / 8 = b → (s.bankUpDone b).getEo m = { s.getEo m with poweringUp := false }) ∧
      (∀ m, m / 8 ≠ b → (s.bankUpDone b).getEo m = s.getEo m) ∧ { s.bankUpDone b with eo := s.eo } = s := by
  obtain ⟨hrest, hin, hout⟩ := foldl_channels (s := s)
    (f := fun st n => if (st.getEo n).poweringUp then st.setEo n { st.getEo n with poweringUp := false } else st)
    (p := fun st => { st with eo := s.eo } = s) (r := fun _ c d => d = { c with poweringUp := false }) (bankChans_nodup b)
    (fun st n _ hst => by
      split
      · exact ⟨hst, State.getEo_setEo_same .., fun m hm => State.getEo_setEo_other _ hm⟩
      next h =>
        exact ⟨hst, congrArg (fun x => { st.getEo n with poweringUp := x }) (Bool.eq_false_iff.mpr h), fun _ _ => rfl⟩) rfl
  exact ⟨fun m hm => hin m (mem_bankChans.mpr hm), fun m hm => hout m fun h => hm (mem_bankChans.mp h), hrest⟩

theorem State.wrBank_down (h : s.fbit F.eoBankCtl_PWR b = true) :
    s.wrBank b 0 = (s.store ⟨.eoBankCtl, b, 0, 0⟩ 0).bankDown b ∧ (s.store ⟨.eoBankCtl, b, 0, 0⟩ 0).fbit F.eoBankCtl_PWR b = false := by
  have hoff : (s.store ⟨.eoBankCtl, b, 0, 0⟩ 0).fbit F.eoBankCtl_PWR b = false :=
    State.fbit_store (f := F.eoBankCtl_PWR) (rst := 1) rfl (by decide)
  refine ⟨if_pos ?_, hoff⟩
  rw [h, hoff]
  rfl

theorem State.wrBank_up (h : s.fbit F.eoBankCtl_PWR b = false) :
    s.wrBank b 1 = (s.store ⟨.eoBankCtl, b, 0, 0⟩ 1).bankUp b ∧ (s.store ⟨.eoBankCtl, b, 0, 0⟩ 1).fbit F.eoBankCtl_PWR b = true := by
  have hon : (s.store ⟨.eoBankCtl, b, 0, 0⟩ 1).fbit F.eoBankCtl_PWR b = true :=
    State.fbit_store (f := F.eoBankCtl_PWR) (rst := 1) rfl (by decide)
  refine ⟨(if_neg ?_).trans (if_pos ?_), hon⟩
  · rw [h]
    nofun
  · rw [h, hon]
    rfl

end Banks

/-! ### What a write of EO_CTL or EO_BANK_CTL brings about -/

section Written
variable {s : State} {n b v : Nat}

/-- EN rising starts the channel at the idle level that is written with it. -/
theorem State.wrEoCtl_enables (hen : s.fbit F.eoCtl_EN n = false) (hlim : s.glb.limited = false) (hv : bit v 0 = true) :
    (s.wrEoCtl n v).fbit F.eoCtl_EN n = true ∧ (s.wrEoCtl n v).fbit F.eoCtl_IDLE n = bit v 2 ∧ ((s.wrEoCtl n v).getEo n).level = bit v 2 ∧
      ((s.wrEoCtl n v).getEo n).stand = .run ∧ ((s.wrEoCtl n v).getEo n).lastTag = 0 ∧
      (∀ m, m ≠ n → (s.wrEoCtl n v).getEo m = s.getEo m) ∧ (s.wrEoCtl n v).time = s.time := by
  have hidle : (s.eoCtlStored n v).fbit F.eoCtl_IDLE n = bit v 2 := by rw [State.idle_eoCtlStored, hen]; rfl
  have hset : (s.eoCtlStored n v).fbit F.eoCtl_EN n = true := by rw [State.en_eoCtlStored, hlim, hv]; rfl
  obtain ⟨hlevel, hstand, htag, hother, hregs, htime⟩ := State.eoEnableCh_effect ((s.eoCtlStored n v).setEo n
    { (s.eoCtlStored n v).getEo n with reactSeen := (s.eoCtlStored n v).flt.reacts.length }) n
  rw [← State.wrEoCtl_rises hen hlim hv] at hlevel hstand htag hother hregs htime
  refine ⟨(State.fbit_of_rget (hregs _ rfl)).trans hset, (State.fbit_of_rget (hregs _ rfl)).trans hidle, hlevel.trans hidle, hstand, htag,
    fun m hm => ?_, htime.trans (s.time_eoCtlStored n v)⟩
  exact (hother m hm).trans ((State.getEo_setEo_other _ hm).trans (s.getEo_eoCtlStored n v m))

/-- EN falling takes the channel of a powered bank to its idle level. -/
theorem State.wrEoCtl_disables (hn : n < 64) (hen : s.fbit F.eoCtl_EN n = true) (hbank : s.bankOn n = true) (hv : bit v 0 = false) :
    Idled (s.eoCtlStored n v) ((s.eoCtlStored n v).idled n .run) n .run ∧
      UnitFrame ((s.eoCtlStored n v).idled n .run) (s.wrEoCtl n v) ∧ (s.wrEoCtl n v).fbit F.eoCtl_EN n = false ∧
      (s.eoCtlStored n v).fbit F.eoCtl_IDLE n = s.fbit F.eoCtl_IDLE n := by
  have hidle : (s.eoCtlStored n v).fbit F.eoCtl_IDLE n = s.fbit F.eoCtl_IDLE n := by rw [State.idle_eoCtlStored, if_pos hen]
  have hset : (s.eoCtlStored n v).fbit F.eoCtl_EN n = false := by rw [State.en_eoCtlStored, hv, Bool.and_false]
  have hpower : (s.eoCtlStored n v).rget ⟨.eoBankCtl, n / 8, 0, 0⟩ = s.rget ⟨.eoBankCtl, n / 8, 0, 0⟩ :=
    State.rget_eoCtlStored_other (by simp) (show Reg.eoBankCtl ∉ wrErrRegs by decide)
  have hon : (s.eoCtlStored n v).bankOn n = true := (State.fbit_of_rget (f := F.eoBankCtl_PWR) hpower).trans hbank
  have hidled := (s.eoCtlStored n v).idled_effect hn .run
  have htable := ((s.eoCtlStored n v).idled n .run).idleTable_frame n
  rw [← State.eoDisableCh_idles hn hon, ← State.wrEoCtl_falls hen hv] at htable
  have hregs : (s.wrEoCtl n v).rget ⟨.eoCtl, n, 0, 0⟩ = (s.eoCtlStored n v).rget ⟨.eoCtl, n, 0, 0⟩ :=
    (htable.rget (by simp [Reg.info])).trans (hidled.regs _ rfl)
  exact ⟨hidled, htable, (State.fbit_of_rget hregs).trans hset, hidle⟩

/-- Storing the power of a bank changes no channel, and no register of one that is read to power it. -/
theorem State.storeBank_effect (s : State) (b v : Nat) :
    (∀ m, (s.store ⟨.eoBankCtl, b, 0, 0⟩ v).getEo m = s.getEo m) ∧
      ∀ m, (s.store ⟨.eoBankCtl, b, 0, 0⟩ v).fbit F.eoCtl_IDLE m = s.fbit F.eoCtl_IDLE m :=
  ⟨fun m => State.getEo_of_eo (congrArg State.eo (s.store_sameBesideRegs ⟨.eoBankCtl, b, 0, 0⟩ v) :) m,
    fun _ => State.fbit_of_rget (State.store_other (by simp [F.eoCtl_IDLE]) (show Reg.eoCtl ∉ wrErrRegs by decide))⟩

theorem State.wrBank_powersDown (hb : b < 8) (h : s.fbit F.eoBankCtl_PWR b = true) :
    (s.wrBank b 0).fbit F.eoBankCtl_PWR b = false ∧ (∀ m, m / 8 = b → ((s.wrBank b 0).getEo m).isDown (s.fbit F.eoCtl_IDLE m)) ∧
      ∀ m, m / 8 ≠ b → (s.wrBank b 0).getEo m = s.getEo m := by
  obtain ⟨hgo, hoff⟩ := State.wrBank_down h
  obtain ⟨heo, hidle⟩ := s.storeBank_effect b 0
  obtain ⟨hregs, hin, hout⟩ := State.bankDown_effect (s.store ⟨.eoBankCtl, b, 0, 0⟩ 0) hb
  rw [← hgo] at hregs hin hout
  exact ⟨(State.fbit_of_rget (hregs _ rfl)).trans hoff, fun m hm => hidle m ▸ hin m hm, fun m hm => (hout m hm).trans (heo m)⟩

theorem State.wrBank_powersUp (h : s.fbit F.eoBankCtl_PWR b = false) :
    (s.wrBank b 1).fbit F.eoBankCtl_PWR b = true ∧
      (∀ m, m / 8 = b → (s.wrBank b 1).getEo m = (s.getEo m).comingUp (s.fbit F.eoCtl_IDLE m)) ∧
      ∀ m, m / 8 ≠ b → (s.wrBank b 1).getEo m = s.getEo m := by
  obtain ⟨hgo, hon⟩ := State.wrBank_up h
  obtain ⟨heo, hidle⟩ := s.storeBank_effect b 1
  obtain ⟨hregs, hin, hout⟩ := State.bankUp_effect (s.store ⟨.eoBankCtl, b, 0, 0⟩ 1) b
  rw [← hgo] at hregs hin hout
  refine ⟨(State.fbit_of_rget (hregs _ rfl)).trans hon, fun m hm => ?_, fun m hm => (hout m hm).trans (heo m)⟩
  rw [hin m hm, heo m, hidle m]

end Written

/-! ### Fault reactions (R92) -/

section Reactions
variable {s : State} {n : Nat} {r : Option Nat}

/-- A channel has seen one more fault reaction. -/
def State.reactionSeen (s : State) (n : Nat) : State := s.setEo n { s.getEo n with reactSeen := (s.getEo n).reactSeen + 1 }

theorem State.reactionSeen_frame (s : State) (n : Nat) : EoFrame s (s.reactionSeen n) n := (EoFrame.refl s n).setEo _

theorem State.getEo_reactionSeen (s : State) (n : Nat) :
    (s.reactionSeen n).getEo n = { s.getEo n with reactSeen := (s.getEo n).reactSeen + 1 } := State.getEo_setEo_same ..

theorem State.eoFaultReaction_reaches (h : s.flt.reacts[(s.getEo n).reactSeen]? = some r) (hr : r = none ∨ r = some (s.fget F.eoCtl_FLOCK n)) :
    s.eoFaultReaction n = (s.reactionSeen n).eoReact n (s.fget F.dwFlCtl_REACT (s.fget F.eoCtl_FLOCK n)) := by
  rw [State.eoFaultReaction, h]
  exact if_pos hr

/-- QUIET takes an enabled channel of a powered bank to its idle level. -/
theorem State.eoReact_quiet (hn : n < 64) (hen : s.fbit F.eoCtl_EN n = true) (hbank : s.bankOn n = true) : s.eoReact n 1 = s.idled n .quiet := by
  have hframe := (s.quieted_effect hn .quiet).1
  have hgo : (s.quieted n .quiet).fbit F.eoCtl_EN n = true ∧ (s.quieted n .quiet).bankOn n = true :=
    ⟨(State.fbit_of_rget (hframe.rget_eo rfl)).trans hen, (State.fbit_of_rget (f := F.eoBankCtl_PWR) (hframe.rget_eo rfl)).trans hbank⟩
  exact (if_pos rfl).trans (if_pos hgo)

/-- FREEZE keeps the transitions on their way. -/
theorem State.eoReact_freeze (s : State) (hn : n < 64) :
    EoFrame s (s.eoReact n 2) n ∧ (s.eoReact n 2).getEo n = { (s.getEo n).cleared s.time.now true with stand := .freeze } := by
  obtain ⟨hframe, hown⟩ := s.eoClear_effect hn true
  have hgo : s.eoReact n 2 = (s.eoClear n true).setEo n { (s.eoClear n true).getEo n with stand := .freeze } :=
    (if_neg (by decide)).trans (if_pos rfl)
  rw [hgo, State.getEo_setEo_same, hown]
  exact ⟨hframe.toEoFrame.setEo _, rfl⟩

theorem State.eoReact_hold (s : State) (n : Nat) : s.eoReact n 0 = s := (if_neg (by decide)).trans (if_neg (by decide))

end Reactions

/-! ### Profiles (R86) -/

section Profiles
variable {s : State} {n : Nat} {a : QAct} {cap : ProfCap} {e : Engine}

/-- The first queued PROF whose anchor the engine has reached. -/
def State.profDue (s : State) (n : Nat) : Option QAct :=
  (s.getEo n).queue.find? fun x =>
    !x.active && decide (x.kind = .prof) && decide (nsOf x.start ≤ s.time.now + engineAhead) && !cutOff (s.getEo n).cuts x

theorem profStartOf_own (cuts : List Cut) (run : Option Engine) (h : cap.cont = false) :
    profStartOf cuts run a cap = some (engineAt a.id a.tag cap cap.x0 cap.v0 (nsOf a.start)) := if_neg (Bool.eq_false_iff.mp h)

theorem profStartOf_continues {cuts : List Cut} {e0 : Engine} (h : cap.cont = true) (he : engineAtTick cuts e0 (nsOf a.start) = some e) :
    profStartOf cuts (some e0) a cap = some (engineAt a.id a.tag cap e.x e.v (nsOf a.start)) := by
  refine (if_pos h).trans ?_
  rw [he]

theorem profStartOf_none (cuts : List Cut) (h : cap.cont = true) : profStartOf cuts none a cap = none := if_pos h

/-- A channel whose engine runs a new profile. -/
def Eo.started (c : Eo) (now : Nat) (a : QAct) (e : Engine) : Eo :=
  { c with queue := markActive a.id c.queue, engine := some e, track := trackStart now e c.track }

/-- The engine of a PROF has started and its outputs have gone to its first levels. -/
def State.profStarted (s : State) (n : Nat) (a : QAct) (cap : ProfCap) (e : Engine) : State :=
  let s1 := s.setEo n ((s.getEo n).started s.time.now a e)
  s1.engOutputs n e (s1.engLevels n) (profOutputs cap e.x) a.start false

theorem State.engine_profStarted (s : State) (n : Nat) (a : QAct) (cap : ProfCap) (e : Engine) :
    ((s.profStarted n a cap e).getEo n).engine = some e := by
  have hframe : EngFrame (fun _ => True) (s.setEo n ((s.getEo n).started s.time.now a e)) (s.profStarted n a cap e) :=
    (s.setEo n ((s.getEo n).started s.time.now a e)).engOutputs_frame (out := fun _ => true) (fun _ _ => trivial) e _ _ a.start false
  have hown := hframe.own n
  rw [State.getEo_setEo_same] at hown
  exact (congrArg Eo.engine hown :)

/-- A PROF with nothing to continue leaves the queue. -/
theorem State.contNone_effect (s : State) (hn : n < 64) (id : Nat) :
    EoFrame s (s.contNone n id) n ∧ (s.contNone n id).fbit F.eoStat_PROF_ERR n = true ∧
      (s.contNone n id).getEo n = { s.getEo n with queue := (s.getEo n).queue.filter (fun b => !decide (b.id = id)), perr := 5 } := by
  obtain ⟨hframe, hown⟩ := s.eoLeave_effect hn fun b => decide (b.id = id)
  have hshown (u : State) : ((u.fon F.eoStat_PROF_ERR n).cnt .eoCntRefuse n).getEo n = u.getEo n := rfl
  rw [State.contNone, State.getEo_setEo_same, hshown, hown]
  refine ⟨((hframe.toEoFrame.fon rfl).cntAdd rfl).setEo _, ?_, rfl⟩
  exact (State.fbit_of_rget (State.rget_cntAdd_other (by simp [F.eoStat_PROF_ERR]))).trans (State.fbit_fon_same _ F.eoStat_PROF_ERR n 0 0 rfl)

section Due
variable (hdue : s.profDue n = some a) (hcap : a.prof = some cap)
include hdue hcap

theorem State.profStart_discards (hstart : profStartOf (s.getEo n).cuts (s.getEo n).engine a cap = none) :
    s.profStart n = s.contNone n a.id := by
  rw [State.profDue] at hdue
  unfold State.profStart
  extract_lets c
  rw [hdue]
  dsimp only
  rw [hcap]
  dsimp only
  rw [hstart]

theorem State.profStart_starts (hstart : profStartOf (s.getEo n).cuts (s.getEo n).engine a cap = some e)
    (hfree : ((s.getEo n).queue.filter fun x => x.active && !decide (x.kind = .prof)).length < 4) :
    s.profStart n = match (s.getEo n).engine with
      | some e0 => (s.profStarted n a cap e).engEnd n e0.act
      | none => s.profStarted n a cap e := by
  rw [State.profDue] at hdue
  unfold State.profStart
  dsimp only
  rw [hdue]
  dsimp only
  rw [hcap]
  dsimp only
  rw [hstart]
  dsimp only
  rw [if_neg (not_le.mpr hfree)]
  cases (s.getEo n).engine <;> rfl

/-- A PROF that starts replaces the engine of the one before it. -/
theorem State.profStart_engine (hn : n < 64) (hstart : profStartOf (s.getEo n).cuts (s.getEo n).engine a cap = some e)
    (hfree : ((s.getEo n).queue.filter fun x => x.active && !decide (x.kind = .prof)).length < 4)
    (hact : ∀ e0, (s.getEo n).engine = some e0 → e.act ≠ e0.act) : ((s.profStart n).getEo n).engine = some e := by
  have hnew := s.engine_profStarted n a cap e
  rw [State.profStart_starts hdue hcap hstart hfree]
  cases hold : (s.getEo n).engine with
  | none => exact hnew
  | some e0 =>
    dsimp only
    rw [(State.engEnd_effect _ hn e0.act).2, Eo.settled, Eo.engEnded, hnew]
    exact if_neg (hact e0 hold)

end Due

section SegmentEnd
variable (he : (s.getEo n).engine = some e) (hleft : e.left = 0)
include he hleft

theorem State.profSegEnd_loads (hend : e.load.ended = false) :
    s.profSegEnd n = s.setEo n { s.getEo n with engine := some e.load } := by
  rw [State.profSegEnd, he]
  exact (if_neg (by simp [hleft])).trans (if_neg (Bool.eq_false_iff.mp hend))

theorem State.profSegEnd_ends (hend : e.load.ended = true) : s.profSegEnd n = s.engEnd n e.act := by
  rw [State.profSegEnd, he]
  exact (if_neg (by simp [hleft])).trans (if_pos hend)

end SegmentEnd

theorem Engine.load_segment {g : Seg} {rest : List Seg} (hleft : e.left = 0) (hs : e.segs = g :: rest) (hd : g.dur ≠ 0) :
    e.load = { e with h := g.h, left := g.dur, segs := rest } := by
  rw [Engine.load, if_neg (by simp [hleft]), hs]
  exact if_neg hd

theorem Engine.load_cruise (hleft : e.left = 0) (hs : e.segs = []) (hh : e.cap.halt = false) : e.load = { e with h := 0 } := by
  have hload : e.load = { e with h := 0, left := 0, segs := [] } := by
    rw [Engine.load, if_neg (by simp [hleft]), hs, hh]
    rfl
  rw [hload, ← hleft, ← hs]

theorem Engine.load_halt (hleft : e.left = 0) (hs : e.segs = []) (hh : e.cap.halt = true) : e.load.ended = true := by
  rw [Engine.load, if_neg (by simp [hleft]), hs, hh]
  rfl

/-- The end of a profile takes its engine. -/
theorem State.engEnd_engine (hn : n < 64) (he : (s.getEo n).engine = some e) : ((s.engEnd n e.act).getEo n).engine = none := by
  rw [(s.engEnd_effect hn e.act).2, Eo.settled, Eo.engEnded, he]
  exact if_pos rfl

end Profiles

/-- A write of a bank's power reaches EO_BANK_CTL. -/
theorem busTo_bankPower {q : Port} {b : Fin 8} {s : State} (v : Nat) (hv : v < 2 ^ 32) (hs : s.writable q.req .eoBankCtl = true) :
    s.busTo q.req .eoBankCtl v b.val = (s.wroteBy q.req ⟨.eoBankCtl, b.val, 0, 0⟩).wrBank b.val v :=
  State.busTo_first hs (bankMapped b) rfl hv

/-- Settles O17: writes by name reach the enables (`wrEoCtl_rises`, `wrEoCtl_falls`) and banks (`wrBank_…`), reactions and profiles act on
their channel (`eoReact_…`, `profStart_…`, `profSegEnd_…`). -/
theorem channelsBanksAndProfiles : Obligations.ChannelsBanksAndProfiles := by
  intro q n b data s c idle
  have hn := n.isLt
  have hlive (hrun : s.time.run = true) (t : State) : s.live t = t := if_pos hrun
  refine ⟨fun hs => ⟨fun hen hlim => ?enable, fun hen hbank => ?disable⟩, fun hs => ⟨fun hon => ?down, fun hoff => ?up⟩, fun hrun =>
    ⟨⟨_, congrArg Host.Outcome.next (hlive hrun _), s.bankUpDone_effect b.val⟩, fun r hreact hreach => ?reaction, fun a cap hdue hcap => ?prof,
      fun e he hleft hend => ?segment⟩⟩
  case enable =>
    have hidle : bit (setBits data.toNat 0 0 1) 2 = bit data.toNat 2 := bit_setBits_out le_rfl (by decide)
    rw [← hidle]
    exact ⟨_, exec_eoEnable data hs, State.wrEoCtl_enables (s := s.wroteBy q.req _) hen hlim (bit_setBits_zero ..)⟩
  case disable =>
    obtain ⟨hidled, htable, hoff, hidle⟩ :=
      State.wrEoCtl_disables (s := s.wroteBy q.req ⟨.eoCtl, n.val, 0, 0⟩) hn hen hbank (bit_setBits_zero data.toNat 0)
    have hstored (m : Nat) := (s.wroteBy q.req ⟨.eoCtl, n.val, 0, 0⟩).getEo_eoCtlStored n.val (setBits data.toNat 0 0 0) m
    have hlevel := congrArg Eo.level (hstored n.val)
    refine ⟨_, exec_eoDisable data hs, hoff, ?_⟩
    simp only [State.getEo_of_eo htable.eo]
    refine ⟨hidled.queue, hidled.filter, hidled.engine, fun heq => (hidled.same (hlevel.trans (heq.trans hidle.symm))).1, fun hne => ?_,
      fun m hm => (hidled.others hm).trans (hstored m), ?_⟩
    · obtain ⟨⟨l, hl, hto, htag⟩, -⟩ := hidled.other fun heq => hne (hlevel.symm.trans (heq.trans hidle))
      exact ⟨l, hl, hto.trans hidle, htag⟩
    · exact (congrArg State.time htable.rest :).trans (hidled.time.trans (State.time_eoCtlStored ..))
  case down =>
    exact ⟨_, congrArg Host.Outcome.next (busTo_bankPower 0 (by decide) hs), State.wrBank_powersDown (s := s.wroteBy q.req _) b.isLt hon⟩
  case up =>
    exact ⟨_, congrArg Host.Outcome.next (busTo_bankPower 1 (by decide) hs), State.wrBank_powersUp (s := s.wroteBy q.req _) hoff⟩
  case reaction =>
    intro react
    have hexec : exec (.eoFaultReaction n) s = .next ((s.reactionSeen n.val).eoReact n.val react) :=
      congrArg Host.Outcome.next ((hlive hrun _).trans (State.eoFaultReaction_reaches hreact hreach))
    have hown := s.getEo_reactionSeen n.val
    have hframe := s.reactionSeen_frame n.val
    have hlevel : ((s.reactionSeen n.val).getEo n.val).level = c.level := (congrArg Eo.level hown :)
    refine ⟨fun h hen hbank => ?quiet, fun h => ?freeze, fun h => ?hold⟩
    case quiet =>
      obtain ⟨hq, hf, -, hst, hsame, hdiff, -⟩ := (s.reactionSeen n.val).idled_effect hn .quiet
      rw [h, State.eoReact_quiet (s := s.reactionSeen n.val) hn hen hbank] at hexec
      refine ⟨_, hexec, hst, hq, hf, fun heq => ?_, fun hne => ?_⟩
      · obtain ⟨hnone, hall⟩ := hsame (hlevel.trans heq)
        exact ⟨hnone, hframe.trans hall⟩
      · obtain ⟨⟨l, hl, hto, -⟩, hall⟩ := hdiff fun heq => hne (hlevel.symm.trans heq)
        exact ⟨⟨l, hl, hto⟩, hframe.calRelease.trans hall⟩
    case freeze =>
      obtain ⟨hall, hlast⟩ := (s.reactionSeen n.val).eoReact_freeze hn
      rw [h] at hexec
      rw [hown] at hlast
      exact ⟨_, hexec, by rw [hlast], by rw [hlast]; rfl, by rw [hlast]; rfl, by rw [hlast]; rfl, by rw [hlast]; rfl, hframe.trans hall⟩
    case hold =>
      rw [h, State.eoReact_hold] at hexec
      exact ⟨_, hexec, hown, hframe⟩
  case prof =>
    have hexec : exec (.profStart n) s = .next (s.profStart n.val) := congrArg Host.Outcome.next (hlive hrun _)
    refine ⟨fun hnone hcont hfree => ⟨_, hexec, engineAt a.id a.tag cap cap.x0 cap.v0 (nsOf a.start), ?_, rfl, rfl, rfl, rfl, rfl, rfl⟩,
      fun e0 e1 hold hact hcont hrun1 hfree => ⟨_, hexec, engineAt a.id a.tag cap e1.x e1.v (nsOf a.start), ?_, rfl, rfl, rfl, rfl, rfl⟩,
      fun hnone hcont => ⟨_, hexec, ?_⟩⟩
    · refine State.profStart_engine hdue hcap hn (profStartOf_own _ _ hcont) hfree fun e0 he0 => ?_
      exact absurd (hnone.symm.trans he0) nofun
    · have hstart := profStartOf_continues (a := a) hcont hrun1
      rw [← hold] at hstart
      refine State.profStart_engine hdue hcap hn hstart hfree fun e2 he2 => ?_
      obtain rfl := Option.some.inj (hold.symm.trans he2)
      exact hact.symm
    · have hstart : profStartOf c.cuts c.engine a cap = none := by rw [hnone, profStartOf_none _ hcont]
      obtain ⟨hframe, hset, hown⟩ := s.contNone_effect hn a.id
      rw [State.profStart_discards hdue hcap hstart]
      refine ⟨by rw [hown]; exact hnone, by rw [hown], hset, fun x hx => ?_, hframe⟩
      rw [hown] at hx
      simpa using (List.mem_filter.mp hx).2
  case segment =>
    have hexec : exec (.profileSegmentEnd n) s = .next (s.profSegEnd n.val) := congrArg Host.Outcome.next (hlive hrun _)
    refine ⟨fun g rest hsegs hdur => ⟨_, hexec, ?_⟩, fun hsegs hhalt => ⟨_, hexec, ?_⟩, fun hsegs hhalt => ⟨_, hexec, ?_⟩⟩
    · have hload := Engine.load_segment hleft hsegs hdur
      rw [State.profSegEnd_loads he hleft (by rw [hload]; exact hend), hload]
      exact ⟨State.getEo_setEo_same .., (EoFrame.refl s n.val).setEo _⟩
    · have hload := Engine.load_cruise hleft hsegs hhalt
      rw [State.profSegEnd_loads he hleft (by rw [hload]; exact hend), hload]
      exact ⟨State.getEo_setEo_same .., (EoFrame.refl s n.val).setEo _⟩
    · rw [State.profSegEnd_ends he hleft (Engine.load_halt hleft hsegs hhalt)]
      exact ⟨State.engEnd_engine hn he, (s.engEnd_effect hn e.act).1.toEoFrame⟩

end Sys2Proof.Machine
end

section
/-! PROOFS. Tally: what it keeps of its control, how it takes, writes and marks records, triggers, freezes and drains (R130 to R134). -/

namespace Sys2Proof.Machine

/-! ### Fields after a write -/

section Fields
variable {s : State} {f g : Fld} {v i j k i2 j2 k2 : Nat}

theorem State.fget_fset_register (h : g.reg ≠ f.reg) : (s.fset f v i j k).fget g i2 j2 k2 = s.fget g i2 j2 k2 :=
  State.fget_of_rget (State.rget_fset_other _ _ _ _ _ _ _ fun e => h (congrArg RegKey.r e))

theorem State.fbit_fset_register (h : g.reg ≠ f.reg) : (s.fset f v i j k).fbit g i2 j2 k2 = s.fbit g i2 j2 k2 :=
  State.fbit_of_rget (State.rget_fset_other _ _ _ _ _ _ _ fun e => h (congrArg RegKey.r e))

theorem State.fget_fon_register (h : g.reg ≠ f.reg) : (s.fon f i j k).fget g i2 j2 k2 = s.fget g i2 j2 k2 := State.fget_fset_register h

theorem State.fbit_fon_register (h : g.reg ≠ f.reg) : (s.fon f i j k).fbit g i2 j2 k2 = s.fbit g i2 j2 k2 := State.fbit_fset_register h

theorem State.rget_fon_register {c : RegKey} (h : c.r ≠ f.reg) : (s.fon f i j k).rget c = s.rget c :=
  State.rget_fon_other _ _ _ _ _ _ fun e => h (congrArg RegKey.r e)

theorem State.rget_fset_register {c : RegKey} (h : c.r ≠ f.reg) : (s.fset f v i j k).rget c = s.rget c :=
  State.rget_fset_other _ _ _ _ _ _ _ fun e => h (congrArg RegKey.r e)

theorem State.rget_cnt64_same (s : State) (r : Reg) (n i : Nat) : (s.cnt64 r n i).rget ⟨r, i, 0, 0⟩ = (s.rget ⟨r, i, 0, 0⟩ + n) % 2 ^ 64 :=
  State.rget_rset_same ..

theorem State.rget_cnt64_register {r : Reg} {n : Nat} {c : RegKey} (h : c.r ≠ r) : (s.cnt64 r n i).rget c = s.rget c :=
  State.rget_rset_other _ _ _ _ fun e => h (congrArg RegKey.r e)

theorem State.rget_cnt_register {r : Reg} {c : RegKey} (h : c.r ≠ r) : (s.cnt r i).rget c = s.rget c :=
  State.rget_cntAdd_other fun e => h (congrArg RegKey.r e)

/-- A bit of a register stands as it is while another of its bits is set. -/
theorem State.fbit_fon_bit (hr : g.reg = f.reg) (hf : f.lo ≤ f.hi) (hb : g.lo < f.lo ∨ f.hi < g.lo) :
    (s.fon f i).fbit g i = s.fbit g i := State.fbit_fset_other hr hf hb

/-- A field of one bit written as 0 or 1 reads so. -/
theorem State.fbit_fset_same (h : f.hi = f.lo) : (s.fset f v i j k).fbit f i j k = decide (v % 2 = 1) := by
  have hread := State.fget_fset_same s f v i j k (by omega)
  rw [State.fget, h] at hread
  rw [State.fbit, bit_eq_bits, hread, Nat.add_sub_cancel_left, pow_one]

theorem State.fget_fset_zero (h : f.lo ≤ f.hi) : (s.fset f 0 i j k).fget f i j k = 0 :=
  (State.fget_fset_same s f 0 i j k h).trans (Nat.zero_mod _)

end Fields

/-! ### Numbers in a byte memory -/

theorem memRead_memWriteLE_other (unl : Byte) (n : Nat) {m : Memory} {a v y : Nat} (h : Memory.wf unl m = true) (hy : y < a ∨ a + n ≤ y) :
    memRead unl (memWriteLE unl m a v n) y = memRead unl m y := by
  induction n generalizing m a v with
  | zero => rfl
  | succ n ih =>
    rw [memWriteLE, ih (memWrite_wf unl m a _ h) (by omega)]
    exact memRead_memWrite_other unl m a y _ (by omega) h

/-- A number stored little-endian reads back, reduced to its width. -/
theorem memReadLE_memWriteLE (unl : Byte) (n : Nat) {m : Memory} {a v : Nat} (h : Memory.wf unl m = true) :
    memReadLE unl (memWriteLE unl m a v n) a n = v % 256 ^ n := by
  induction n generalizing m a v with
  | zero => rw [pow_zero, Nat.mod_one, memReadLE]
  | succ n ih =>
    have hw := memWrite_wf unl m a (BitVec.ofNat 8 v) h
    have hmod : v % 256 ^ (n + 1) = v % 256 + 256 * (v / 256 % 256 ^ n) := by rw [Nat.pow_succ, Nat.mul_comm (256 ^ n), Nat.mod_mul]
    rw [hmod, memReadLE, memWriteLE, ih hw, memRead_memWriteLE_other unl n hw (by omega), memRead_memWrite_same unl m a _ h,
      BitVec.toNat_ofNat]

/-! ### The control register of Tally (R130 to R134) -/

/-- TAL_CTL. -/
def State.talCtl (s : State) : Nat := s.rget ⟨.talCtl, 0, 0, 0⟩

section Control
variable {s : State}

@[simp] theorem State.talCtl_setTal (x : Tally) : (s.setTal x).talCtl = s.talCtl := rfl

@[simp] theorem State.talCtl_dramWrite (a v n : Nat) : (s.dramWrite a v n).talCtl = s.talCtl := rfl

theorem State.talCtl_fset {f : Fld} {v : Nat} (h : Reg.talCtl ≠ f.reg) : (s.fset f v).talCtl = s.talCtl := State.rget_fset_register h

theorem State.talCtl_fon {f : Fld} (h : Reg.talCtl ≠ f.reg) : (s.fon f).talCtl = s.talCtl := State.rget_fon_register h

theorem State.talCtl_cnt64 {r : Reg} (h : Reg.talCtl ≠ r) : (s.cnt64 r 1).talCtl = s.talCtl := State.rget_cnt64_register h

theorem State.talCtl_cnt {r : Reg} (h : Reg.talCtl ≠ r) : (s.cnt r).talCtl = s.talCtl := State.rget_cnt_register h

@[simp] theorem State.talCtl_talLose : s.talLose.talCtl = s.talCtl :=
  (State.talCtl_fon (s := s.cnt64 .talCntLost 1) (by decide)).trans (State.talCtl_cnt64 (by decide))

/-- Nothing of the state but what Tally holds differs. -/
def State.sameBesideTal (s t : State) : Prop := { t with tal := s.tal } = s

theorem State.sameBesideTal.trans {t u : State} (h : s.sameBesideTal t) (h2 : t.sameBesideTal u) : s.sameBesideTal u := by
  have e : { u with tal := s.tal } = { t with tal := s.tal } := congrArg (fun x : State => { x with tal := s.tal }) h2
  exact e.trans h

theorem State.sameBesideTal.regs {t : State} (h : s.sameBesideTal t) : t.regs = s.regs := (congrArg State.regs h :)

theorem State.sameBesideTal.dram {t : State} (h : s.sameBesideTal t) : t.dram = s.dram := (congrArg State.dram h :)

theorem State.sameBesideRegs.tal_eq {t : State} (h : s.sameBesideRegs t) : t.tal = s.tal := (congrArg State.tal h :)
theorem State.sameBesideRegs.time_eq {t : State} (h : s.sameBesideRegs t) : t.time = s.time := (congrArg State.time h :)
theorem State.sameBesideRegs.eo_eq {t : State} (h : s.sameBesideRegs t) : t.eo = s.eo := (congrArg State.eo h :)
theorem State.sameBesideRegs.tiu_eq {t : State} (h : s.sameBesideRegs t) : t.tiu = s.tiu := (congrArg State.tiu h :)

theorem State.setTal_beside (s : State) (x : Tally) : s.sameBesideTal (s.setTal x) := rfl

theorem State.talMark_beside (s : State) (code count : Nat) (time : Instant) : s.sameBesideTal (s.talMark code count time) := by
  unfold State.talMark
  split <;> rfl

theorem State.talMarksIn_beside (s : State) : s.sameBesideTal s.talMarksIn := by
  unfold State.talMarksIn
  dsimp only
  split
  · exact ((State.setTal_beside ..).trans (State.talMark_beside ..)).trans (State.setTal_beside ..)
  · exact State.setTal_beside ..

@[simp] theorem State.talCtl_talMarksIn : s.talMarksIn.talCtl = s.talCtl :=
  State.rget_of_regs s.talMarksIn_beside.regs _

/-- A record at WPTR, and what Tally notes of it. -/
def State.talPut (s : State) (r : TalIn) : State :=
  let s1 := s.dramWrite (s.talAddr (s.fget F.talWptr_WPTR)) r.rcd.pack 32
  let counts := s.fbit F.talStat_TRIGGERED && !r.marker && decide ((unpackT96 (s.fget F.talTrigTime_TT)).getD 0 ≤ r.rcd.time)
  s1.setTal { s1.tal with
    written := min (s1.tal.written + 1) (s.fget F.talSize_SIZE)
    total := s1.tal.total + 1
    afterTrig := if s.fbit F.talStat_TRIGGERED then s1.tal.afterTrig + 1 else 0
    post := if counts then s1.tal.post + 1 else s1.tal.post }

section Store
variable {r : TalIn}

theorem State.talStore_advances (h : s.fget F.talWptr_WPTR + 1 < s.fget F.talSize_SIZE) :
    s.talStore r = (s.talPut r).fset F.talWptr_WPTR (s.fget F.talWptr_WPTR + 1) := if_pos h

theorem State.talStore_fills (h : s.fget F.talSize_SIZE ≤ s.fget F.talWptr_WPTR + 1) (hm : s.fbit F.talCtl_MODE = true) :
    s.talStore r = ((s.talPut r).fset F.talWptr_WPTR (s.fget F.talSize_SIZE)).fon F.talStat_FULL := (if_neg (not_lt.mpr h)).trans (if_pos hm)

theorem State.talStore_wraps (h : s.fget F.talSize_SIZE ≤ s.fget F.talWptr_WPTR + 1) (hm : s.fbit F.talCtl_MODE = false) :
    s.talStore r = ((s.talPut r).fset F.talWptr_WPTR 0).cnt .talWraps :=
  (if_neg (not_lt.mpr h)).trans (if_neg (ne_true_of_eq_false hm))

/-- A record is put at WPTR; but for registers, nothing else happens. -/
theorem State.talStore_effect (s : State) (r : TalIn) : (s.talPut r).sameBesideRegs (s.talStore r) ∧ (s.talStore r).talCtl = s.talCtl := by
  have hput : (s.talPut r).talCtl = s.talCtl := by simp [State.talPut]
  rcases Nat.lt_or_ge (s.fget F.talWptr_WPTR + 1) (s.fget F.talSize_SIZE) with h | h
  · rw [State.talStore_advances h]
    exact ⟨State.rset_sameBesideRegs .., (State.talCtl_fset (by decide)).trans hput⟩
  cases hm : s.fbit F.talCtl_MODE with
  | true =>
    rw [State.talStore_fills h hm]
    exact ⟨(State.rset_sameBesideRegs ..).trans (State.fon_sameBesideRegs ..),
      ((State.talCtl_fon (by decide)).trans (State.talCtl_fset (by decide))).trans hput⟩
  | false =>
    rw [State.talStore_wraps h hm]
    exact ⟨(State.rset_sameBesideRegs ..).trans (State.rset_sameBesideRegs ..),
      ((State.talCtl_cnt (by decide)).trans (State.talCtl_fset (by decide))).trans hput⟩

@[simp] theorem State.talCtl_talStore : (s.talStore r).talCtl = s.talCtl := (s.talStore_effect r).2

@[simp] theorem State.talCtl_talDrop : (s.talDrop r).talCtl = s.talCtl := by
  unfold State.talDrop
  split
  · rfl
  · exact State.talCtl_cnt64 (by decide)

end Store

@[simp] theorem State.talCtl_talFreezeNow : s.talFreezeNow.talCtl = s.talCtl := by
  refine (State.talCtl_fon (by decide)).trans ?_
  split
  · exact State.talCtl_talStore
  · rfl

@[simp] theorem State.talCtl_talWrite : s.talWrite.talCtl = s.talCtl := by
  unfold State.talWrite
  extract_lets s1
  have h1 : s1.talCtl = s.talCtl := State.talCtl_talMarksIn
  split
  · exact h1
  next r rest _ =>
    have h2 : (s1.setTal { s1.tal with buf := rest }).talCtl = s.talCtl := h1
    dsimp only
    split_ifs
    · exact State.talCtl_talDrop.trans h2
    · exact h2
    · exact State.talCtl_talLose.trans h2
    · exact State.talCtl_talDrop.trans (State.talCtl_talFreezeNow.trans ((State.talCtl_fon (by decide)).trans h2))
    · exact State.talCtl_talStore.trans h2

/-- What is left in the buffer is written under the control that stands. -/
theorem State.talFlush_effect (s : State) : s.talFlush.talCtl = s.talCtl ∧
    (s.tal.draining = true → s.talFlush.tal.buf = [] ∧ s.talFlush.tal.marks = [] ∧ s.talFlush.tal.draining = false) ∧
    (s.tal.draining = false → s.talFlush = s) := by
  unfold State.talFlush
  split
  next h =>
    refine ⟨?_, fun _ => ⟨rfl, rfl, rfl⟩, fun h2 => absurd (h.symm.trans h2) (by decide)⟩
    exact List.foldlRecOn _ _ (motive := fun t : State => t.talCtl = s.talCtl) rfl fun t ht _ _ => State.talCtl_talWrite.trans ht
  next h => exact ⟨rfl, fun h2 => absurd h2 h, fun _ => rfl⟩

end Control

/-! ### Records taken and written (R130 to R132) -/

section Records
variable {s : State}

/-- Where no marker waits and no loss is to be marked, Tally's slots stay as they are. -/
theorem State.talMarksIn_idle (hm : s.tal.marks = []) (hl : s.tal.lost = 0) : s.talMarksIn = s := by
  have hset (b m : List TalIn) (hb : b = s.tal.buf) (hmarks : m = s.tal.marks) : s.setTal { s.tal with buf := b, marks := m } = s := by
    rw [hb, hmarks]
    rfl
  unfold State.talMarksIn
  dsimp only
  rw [hset _ _ (by rw [hm, List.take_nil, List.append_nil]) (by rw [hm, List.drop_nil]), if_neg fun h => absurd h.1 (by rw [hl]; exact lt_irrefl 0)]

/-- An offer has been taken. -/
def State.talOfferTaken (s : State) (o : TalOffer) : State :=
  s.setTal { s.tal with offers := s.tal.offers.erase o, takenTick := s.tickNo, takenCnt := 1 }

theorem State.talIn_takes {o : TalOffer} (ho : pickTal s.tal.offers = some o) (ht : s.tal.takenTick ≠ s.tickNo) :
    s.talIn = (s.talOfferTaken o).talTake o.rcd := by
  simp [State.talIn, ho, ht, State.talOfferTaken]

theorem State.talTake_discards {r : Rec} (h : s.talActive = false ∨ s.fget F.talSize_SIZE = 0) : s.talTake r = s.cnt64 .talCntDisc 1 :=
  if_pos (h.imp_left ne_true_of_eq_false)

theorem State.talTake_loses {r : Rec} (ha : s.talActive = true) (hs : 0 < s.fget F.talSize_SIZE) (hd : s.dramUnavail = true) :
    s.talTake r = s.talLose :=
  (if_neg (by simp [ha, hs.ne'])).trans (if_pos (.inl hd))

theorem State.talTake_stores {r : Rec} (ha : s.talActive = true) (hs : 0 < s.fget F.talSize_SIZE) (hd : s.dramUnavail = false)
    (hh : s.fbit F.glbBlkRst_TAL = false) (hl : s.tal.lost = 0) (hm : s.tal.marks = []) (hroom : s.tal.buf.length < 8192) :
    s.talTake r = s.setTal { s.tal with buf := s.tal.buf ++ [⟨r, false⟩] } := by
  unfold State.talTake
  rw [if_neg (by simp [ha, hs.ne']), if_neg (by simp [hd, hh]), State.talMarksIn_idle hm hl]
  exact if_neg (not_le.mpr hroom)

/-- A record lost is counted and shown. -/
theorem State.talLose_effect (s : State) : s.talLose.tal.buf = s.tal.buf ∧ s.talLose.fbit F.talStat_LOST = true ∧
    s.talLose.rget ⟨.talCntLost, 0, 0, 0⟩ = (s.rget ⟨.talCntLost, 0, 0, 0⟩ + 1) % 2 ^ 64 :=
  ⟨rfl, State.fbit_fon_same (s.cnt64 .talCntLost 1) F.talStat_LOST 0 0 0 rfl,
    (State.rget_fon_register (s := s.cnt64 .talCntLost 1) (by decide)).trans (s.rget_cnt64_same .talCntLost 1 0)⟩

theorem State.talWrite_stores {r : TalIn} {rest : List TalIn} (hb : s.tal.buf = r :: rest) (hz : s.fbit F.talStat_FROZEN = false)
    (hf : s.fbit F.talStat_FULL = false) (hs : 0 < s.fget F.talSize_SIZE) (hd : s.dramUnavail = false) (hk : s.talBlocked = false)
    (hm : s.tal.marks = []) (hl : s.tal.lost = 0) : s.talWrite = (s.setTal { s.tal with buf := rest }).talStore r := by
  unfold State.talWrite
  rw [State.talMarksIn_idle hm hl]
  dsimp only
  rw [hb]
  dsimp only
  rw [if_neg, if_neg, if_neg]
  · exact ne_true_of_eq_false hk
  · exact ne_true_of_eq_false hd
  · simp [hz, hf, hs.ne']

end Records

/-! ### The capture trigger (R133) -/

section Trigger
variable {s : State} {tt : Instant}

theorem State.talMark_tal (s : State) (code count : Nat) (time : Instant) : (s.talMark code count time).tal.kept = s.tal.kept ∧
    (s.talMark code count time).tal.post = s.tal.post := by
  unfold State.talMark
  split
  · dsimp only
    split <;> exact ⟨rfl, rfl⟩
  · exact ⟨rfl, rfl⟩

/-- A trigger is shown, with its time and the place of the next record. -/
def State.talTrigShown (s : State) (tt : Instant) : State :=
  ((s.fon F.talStat_TRIGGERED).fset F.talTrigTime_TT (packT96 tt)).fset F.talTrigPos_POS (s.fget F.talWptr_WPTR)

/-- The records before a trigger are reserved, and those after it are counted from here. -/
def State.talReserve (s : State) : State :=
  s.setTal { s.tal with kept := min (s.fget F.talPre_PRE) s.tal.written, afterTrig := 0, post := 0 }

theorem State.talTrigShown_beside (s : State) (tt : Instant) : s.sameBesideRegs (s.talTrigShown tt) :=
  ((State.fon_sameBesideRegs ..).trans (State.rset_sameBesideRegs ..)).trans (State.rset_sameBesideRegs ..)

theorem State.talTrigShown_effect (s : State) (tt : Instant) : (s.talTrigShown tt).fbit F.talStat_TRIGGERED = true ∧
    (s.talTrigShown tt).fget F.talTrigTime_TT = packT96 tt % 2 ^ 96 ∧ (s.talTrigShown tt).fget F.talTrigPos_POS = s.fget F.talWptr_WPTR ∧
    (s.talTrigShown tt).fget F.talPre_PRE = s.fget F.talPre_PRE := by
  have hpos : (s.talTrigShown tt).fget F.talTrigPos_POS = s.fget F.talWptr_WPTR % 2 ^ 28 :=
    State.fget_fset_same _ F.talTrigPos_POS _ 0 0 0 (by decide)
  refine ⟨?_, ?_, hpos.trans (Nat.mod_eq_of_lt (bits_lt ..)), ?_⟩
  · exact (State.fbit_fset_register (by decide)).trans ((State.fbit_fset_register (by decide)).trans
      (State.fbit_fon_same s F.talStat_TRIGGERED 0 0 0 rfl))
  · exact (State.fget_fset_register (by decide)).trans ((State.fget_fset_same _ F.talTrigTime_TT (packT96 tt) 0 0 0 (by decide)).trans
      (by rw [show F.talTrigTime_TT.hi + 1 - F.talTrigTime_TT.lo = 96 from rfl]))
  · exact (State.fget_fset_register (by decide)).trans ((State.fget_fset_register (by decide)).trans (State.fget_fon_register (by decide)))

theorem State.talTrigger_first (hten : s.fbit F.talCtl_TRIG_EN = true) (hen : s.fbit F.talCtl_EN = true)
    (hfirst : s.fbit F.talStat_TRIGGERED = false) : s.talTrigger tt = (s.talTrigShown tt).talReserve.talMark 2 0 tt :=
  if_neg (by simp [hten, hen, hfirst])

/-- The first trigger is shown with its time and place, and reserves the records before it. -/
theorem State.talTrigger_effect (hten : s.fbit F.talCtl_TRIG_EN = true) (hen : s.fbit F.talCtl_EN = true)
    (hfirst : s.fbit F.talStat_TRIGGERED = false) :
    (s.talTrigger tt).fbit F.talStat_TRIGGERED = true ∧ (s.talTrigger tt).fget F.talTrigTime_TT = packT96 tt % 2 ^ 96 ∧
      (s.talTrigger tt).fget F.talTrigPos_POS = s.fget F.talWptr_WPTR ∧
      (s.talTrigger tt).tal.kept = min (s.fget F.talPre_PRE) s.tal.written ∧ (s.talTrigger tt).tal.post = 0 ∧
      (s.talTrigger tt).dram = s.dram := by
  obtain ⟨hset, htime, hpos, hpre⟩ := s.talTrigShown_effect tt
  obtain ⟨hkept, hpost⟩ := (s.talTrigShown tt).talReserve.talMark_tal 2 0 tt
  have hbeside : (s.talTrigShown tt).sameBesideTal ((s.talTrigShown tt).talReserve.talMark 2 0 tt) :=
    (State.setTal_beside ..).trans (State.talMark_beside ..)
  rw [State.talTrigger_first hten hen hfirst]
  have hdram : (s.talTrigShown tt).dram = s.dram := (s.talTrigShown_beside tt).dram_eq
  have htal : (s.talTrigShown tt).tal = s.tal := (s.talTrigShown_beside tt).tal_eq
  refine ⟨?_, ?_, ?_, ?_, hpost, hbeside.dram.trans hdram⟩
  · exact (State.fbit_of_rget (State.rget_of_regs hbeside.regs _)).trans hset
  · exact (State.fget_of_rget (State.rget_of_regs hbeside.regs _)).trans htime
  · exact (State.fget_of_rget (State.rget_of_regs hbeside.regs _)).trans hpos
  · rw [hkept, ← hpre, ← htal]
    rfl

end Trigger

/-! ### Writes of TAL_CTL (R134, R145) -/

theorem talMapped : RegKey.mapped ⟨.talCtl, 0, 0, 0⟩ := by
  unfold RegKey.mapped
  decide +kernel

/-- The fields of TAL_CTL that stand while Tally is enabled (R134). -/
def talHeld : List Fld := [F.talCtl_MODE, F.talCtl_TRIG_EN]

/-- TAL_CTL after a write, EN as it was. -/
def State.talCtlStored (s : State) (v : Nat) : State :=
  s.storeHeld ⟨.talCtl, 0, 0, 0⟩ (setBits v 0 0 (bnat (s.fbit F.talCtl_EN))) (s.fbit F.talCtl_EN) talHeld

section TalCtl
variable {s : State} {v : Nat}

theorem State.talCtlStored_sameBesideRegs (s : State) (v : Nat) : s.sameBesideRegs (s.talCtlStored v) := s.storeHeld_sameBesideRegs ..

theorem State.talCtlStored_other {c : RegKey} (hk : c.r ≠ .talCtl) (hc : c.r ∉ wrErrRegs) : (s.talCtlStored v).rget c = s.rget c :=
  State.storeHeld_other (fun e => hk (congrArg RegKey.r e)) hc

theorem talHeldValue_en (old v : Nat) (b : Bool) : bit (heldValue old v b talHeld) 0 = bit v 0 := by
  cases b
  · rfl
  · exact (bit_setBits_out (by decide) (by decide)).trans (bit_setBits_out (by decide) (by decide))

theorem talHeldValue_trigEn (old v : Nat) : bit (heldValue old v true talHeld) 5 = bit old 5 := by
  refine (bit_setBits_out (by decide) (by decide)).trans ?_
  rw [bit_eq_bits, bit_eq_bits]
  refine congrArg (fun y => decide (y = 1)) ((bits_setBits_same _ _ _ _ (by decide)).trans ?_)
  exact Nat.mod_mod _ _

theorem State.en_talCtlStored : (s.talCtlStored v).fbit F.talCtl_EN = s.fbit F.talCtl_EN := by
  refine (State.fbit_storeHeld (f := F.talCtl_EN) (rst := 0) rfl (by decide) (by decide)).trans ((talHeldValue_en ..).trans ?_)
  rw [bit_setBits_zero]
  cases s.fbit F.talCtl_EN <;> rfl

theorem State.trigEn_talCtlStored : (s.talCtlStored v).fbit F.talCtl_TRIG_EN = if s.fbit F.talCtl_EN then s.fbit F.talCtl_TRIG_EN else bit v 5 := by
  refine (State.fbit_storeHeld (f := F.talCtl_TRIG_EN) (rst := 0) rfl (by decide) (by decide)).trans ?_
  cases s.fbit F.talCtl_EN with
  | true => exact talHeldValue_trigEn ..
  | false => exact bit_setBits_out le_rfl (by decide)

theorem State.mark_talCtlStored : (s.talCtlStored v).fbit F.talCtl_MARK = bit v 4 := by
  refine (State.fbit_storeHeld (f := F.talCtl_MARK) (rst := 1) rfl (by decide) (by decide)).trans ?_
  cases s.fbit F.talCtl_EN
  · exact bit_setBits_out le_rfl (by decide)
  · exact (bit_setBits_out (by decide) (by decide)).trans ((bit_setBits_out (by decide) (by decide)).trans (bit_setBits_out le_rfl (by decide)))

theorem State.wrErr_talCtl (s : State) : s.wrErr ⟨.talCtl, 0, 0, 0⟩ = s.fon F.talStat_WR_ERR := rfl

/-- The fields of TAL_CTL take any value, so that WR_ERR shows at most an attempt to change a held one, and no other status bit moves. -/
theorem State.triggered_talCtlStored : (s.talCtlStored v).fbit F.talStat_TRIGGERED = s.fbit F.talStat_TRIGGERED := by
  have hstore (t : State) (x : Nat) : (t.store ⟨.talCtl, 0, 0, 0⟩ x).fbit F.talStat_TRIGGERED = t.fbit F.talStat_TRIGGERED := by
    have hany : ∀ f ∈ Reg.talCtl.info.flds, f.rng = .any := by decide
    rw [State.store_inRange fun f hf => by rw [hany f hf]; rfl]
    exact State.fbit_of_rget (State.rget_rset_other _ _ _ _ (by simp [F.talStat_TRIGGERED]))
  have herr (t : State) (b : Bool) : (t.wrErrIf b ⟨.talCtl, 0, 0, 0⟩).fbit F.talStat_TRIGGERED = t.fbit F.talStat_TRIGGERED := by
    unfold State.wrErrIf
    split
    · rw [State.wrErr_talCtl]
      exact State.fbit_fon_bit rfl (by decide) (by decide)
    · rfl
  exact (herr ..).trans (hstore ..)

/-- What EN asks for when TAL_CTL is written: a checked start, a stop, or nothing. -/
def State.talSwitched (s : State) (v : Nat) : State :=
  if bit v 0 && !s.fbit F.talCtl_EN then
    if (s.talCtlStored v).talEnableOk ((s.talCtlStored v).fbit F.talCtl_TRIG_EN) then (s.talCtlStored v).talStart
    else (s.talCtlStored v).fon F.talStat_WR_ERR
  else if s.fbit F.talCtl_EN && !bit v 0 then (s.talCtlStored v).talStop
  else s.talCtlStored v

theorem State.wrTalCtl_switches (s : State) (v : Nat) :
    s.wrTalCtl v = if bit v 7 then (s.talSwitched v).talTrigger (s.talSwitched v).nowI else s.talSwitched v := rfl

theorem State.talSwitched_stays (hen : s.fbit F.talCtl_EN = true) (h0 : bit v 0 = true) : s.talSwitched v = s.talCtlStored v := by
  simp [State.talSwitched, hen, h0]

theorem State.talSwitched_stops (hen : s.fbit F.talCtl_EN = true) (h0 : bit v 0 = false) : s.talSwitched v = (s.talCtlStored v).talStop := by
  simp [State.talSwitched, hen, h0]

theorem State.talSwitched_starts (hen : s.fbit F.talCtl_EN = false) (h0 : bit v 0 = true) :
    s.talSwitched v = if (s.talCtlStored v).talEnableOk (bit v 5) then (s.talCtlStored v).talStart
      else (s.talCtlStored v).fon F.talStat_WR_ERR := by
  simp [State.talSwitched, hen, h0, State.trigEn_talCtlStored]

theorem State.fget_talCtlStored {f : Fld} (hk : f.reg ≠ .talCtl) (hc : f.reg ∉ wrErrRegs) : (s.talCtlStored v).fget f = s.fget f :=
  State.fget_of_rget (State.talCtlStored_other hk hc)

theorem State.talEnableOk_iff (s : State) (b : Bool) : s.talEnableOk b = true ↔
    s.fget F.talBase_BASE + s.fget F.talSize_SIZE ≤ 134217728 ∧ (b = true → s.fget F.talPre_PRE + s.fget F.talPost_POST ≤ s.fget F.talSize_SIZE) := by
  cases b <;> simp [State.talEnableOk]

theorem State.talEnableOk_talCtlStored (b : Bool) : (s.talCtlStored v).talEnableOk b = s.talEnableOk b := by
  simp (disch := decide) only [State.talEnableOk, State.fget_talCtlStored]

end TalCtl

/-! ### The start (R134) -/

/-- The registers of the ring as a start leaves them, with EN. -/
def State.talCleared (s : State) : State :=
  let s1 := ((s.fset F.talWptr_WPTR 0).fset F.talWraps_WRAPS 0).fset F.talStat_TRIGGERED 0
  let s2 := ((s1.fset F.talStat_FROZEN 0).fset F.talStat_FULL 0).fset F.talTrigTime_TT 0
  (s2.fset F.talTrigPos_POS 0).fset F.talCtl_EN 1

theorem State.talCleared_beside (s : State) : s.sameBesideRegs s.talCleared := by
  have h (t u : State) (f : Fld) (v : Nat) (h : t.sameBesideRegs u) : t.sameBesideRegs (u.fset f v) := h.trans (State.rset_sameBesideRegs ..)
  exact h _ _ _ _ (h _ _ _ _ (h _ _ _ _ (h _ _ _ _ (h _ _ _ _ (h _ _ _ _ (h _ _ _ _ (State.rset_sameBesideRegs ..)))))))

/-- What Tally holds when a capture begins. -/
def Tally.begun (x : Tally) : Tally :=
  { x with buf := [], marks := [], lost := 0, written := 0, total := 0, gen := x.gen + 1, kept := 0, afterTrig := 0, post := 0, draining := false }

section Start
variable {s : State}

theorem State.talStart_begins (s : State) :
    s.talStart = (s.talFlush.talCleared.setTal s.talFlush.talCleared.tal.begun).talMark 1 0 s.talFlush.nowI := rfl

theorem State.talCleared_effect (s : State) : s.talCleared.fbit F.talCtl_EN = true ∧ s.talCleared.fget F.talWptr_WPTR = 0 ∧
    s.talCleared.fget F.talWraps_WRAPS = 0 ∧ s.talCleared.fbit F.talStat_TRIGGERED = false ∧ s.talCleared.fbit F.talStat_FROZEN = false ∧
    s.talCleared.fbit F.talStat_FULL = false ∧ s.talCleared.fget F.talTrigTime_TT = 0 ∧ s.talCleared.fget F.talTrigPos_POS = 0 := by
  unfold State.talCleared
  refine ⟨State.fbit_fset_same rfl, ?_, ?_, ?_, ?_, ?_, ?_, ?_⟩
  all_goals simp (disch := decide) [State.fget_fset_register, State.fbit_fset_register, State.fbit_fset_other, State.fbit_fset_same,
    State.fget_fset_zero]

theorem State.mark_talCleared : s.talCleared.fbit F.talCtl_MARK = s.fbit F.talCtl_MARK := by
  simp (disch := decide) [State.talCleared, State.fbit_fset_register, State.fbit_fset_other]

/-- A marker into an empty buffer, if markers are on. -/
theorem State.talMark_first {code count : Nat} {time : Instant} (hb : s.tal.buf = []) (hm : s.tal.marks = []) :
    (s.talMark code count time).tal.buf.length = if s.fbit F.talCtl_MARK then 1 else 0 := by
  unfold State.talMark
  split
  · dsimp only
    rw [hb, hm]
    rfl
  · rw [hb]
    rfl

theorem State.talStart_effect (s : State) : s.talStart.fbit F.talCtl_EN = true ∧ s.talStart.fget F.talWptr_WPTR = 0 ∧
    s.talStart.fget F.talWraps_WRAPS = 0 ∧ s.talStart.fbit F.talStat_TRIGGERED = false ∧ s.talStart.fbit F.talStat_FROZEN = false ∧
    s.talStart.fbit F.talStat_FULL = false ∧ s.talStart.fget F.talTrigTime_TT = 0 ∧ s.talStart.fget F.talTrigPos_POS = 0 ∧
    s.talStart.tal.buf.length = (if s.fbit F.talCtl_MARK then 1 else 0) ∧ (s.tal.draining = false → s.talStart.dram = s.dram) := by
  obtain ⟨hctl, -, hidle⟩ := s.talFlush_effect
  obtain ⟨hen, hwptr, hwraps, htrig, hfrozen, hfull, htime, hpos⟩ := s.talFlush.talCleared_effect
  have hmark : s.talFlush.talCleared.fbit F.talCtl_MARK = s.fbit F.talCtl_MARK := State.mark_talCleared.trans (State.fbit_of_rget hctl)
  have hbeside : s.talFlush.talCleared.sameBesideTal s.talStart := by
    rw [State.talStart_begins]
    exact (State.setTal_beside ..).trans (State.talMark_beside ..)
  have hbit (f : Fld) : s.talStart.fbit f = s.talFlush.talCleared.fbit f := State.fbit_of_rget (State.rget_of_regs hbeside.regs _)
  have hfld (f : Fld) : s.talStart.fget f = s.talFlush.talCleared.fget f := State.fget_of_rget (State.rget_of_regs hbeside.regs _)
  refine ⟨(hbit _).trans hen, (hfld _).trans hwptr, (hfld _).trans hwraps, (hbit _).trans htrig, (hbit _).trans hfrozen, (hbit _).trans hfull,
    (hfld _).trans htime, (hfld _).trans hpos, ?_, fun hd => ?_⟩
  · rw [← hmark]
    rw [State.talStart_begins, State.talMark_first]
    · rw [State.fbit, State.setTal_rget]
      rfl
    · rw [State.setTal_tal]
      rfl
    · rw [State.setTal_tal]
      rfl
  · rw [show s.talStart.dram = s.talFlush.talCleared.dram from hbeside.dram, s.talFlush.talCleared_beside.dram_eq, hidle hd]

end Start

end Sys2Proof.Machine
end

section
/-! PROOFS. Tally's commands: what O20 says of each (R130 to R134). -/

namespace Sys2Proof.Machine

theorem State.sameBesideRegs.nowI_eq {s t : State} (h : s.sameBesideRegs t) : t.nowI = s.nowI := by rw [State.nowI, State.nowI, h.time_eq]

section Settled
variable {s : State} {v : Nat}

theorem State.talPut_effect (s : State) (r : TalIn) :
    (s.talPut r).dram = memWriteLE dramUnl s.dram ((s.fget F.talBase_BASE + s.fget F.talWptr_WPTR) * 32) r.rcd.pack 32 ∧
      (s.talPut r).tal.buf = s.tal.buf ∧ (s.talPut r).eo = s.eo ∧ (s.talPut r).tiu = s.tiu ∧ (∀ c, (s.talPut r).rget c = s.rget c) := by
  simp [State.talPut, State.dramWrite, State.talAddr]

/-- A record stored: its 32 bytes at WPTR, the rest of DRAM as it was, and WPTR moved on. -/
theorem State.talStore_stores (r : TalIn) (hwf : Memory.wf dramUnl s.dram = true) :
    let w := s.fget F.talWptr_WPTR
    let a := (s.fget F.talBase_BASE + w) * 32
    let size := s.fget F.talSize_SIZE
    let t := s.talStore r
    memReadLE dramUnl t.dram a 32 = r.rcd.pack % 2 ^ 256 ∧ (∀ y, (y < a ∨ a + 32 ≤ y) → memRead dramUnl t.dram y = memRead dramUnl s.dram y) ∧
      t.tal.buf = s.tal.buf ∧ (w + 1 < size → w + 1 < 2 ^ 28 → t.fget F.talWptr_WPTR = w + 1) ∧
      (size ≤ w + 1 → s.fbit F.talCtl_MODE = false →
        t.fget F.talWptr_WPTR = 0 ∧ t.rget ⟨.talWraps, 0, 0, 0⟩ = counted (s.rget ⟨.talWraps, 0, 0, 0⟩) 1) ∧
      (size ≤ w + 1 → s.fbit F.talCtl_MODE = true → t.fbit F.talStat_FULL = true) ∧ t.eo = s.eo ∧ t.tiu = s.tiu := by
  intro w a size t
  obtain ⟨hdram, hbuf, heo, htiu, hregs⟩ := s.talPut_effect r
  have hbeside : (s.talPut r).sameBesideRegs t := (s.talStore_effect r).1
  have hmem : t.dram = memWriteLE dramUnl s.dram a r.rcd.pack 32 := hbeside.dram_eq.trans hdram
  have hpow : (256 : Nat) ^ 32 = 2 ^ 256 := by norm_num
  refine ⟨?_, fun y hy => ?_, (congrArg Tally.buf hbeside.tal_eq).trans hbuf, fun h hlt => ?_, fun h hm => ⟨?_, ?_⟩, fun h hm => ?_,
    hbeside.eo_eq.trans heo, hbeside.tiu_eq.trans htiu⟩
  · rw [hmem, memReadLE_memWriteLE dramUnl 32 hwf, hpow]
  · rw [hmem, memRead_memWriteLE_other dramUnl 32 hwf hy]
  · rw [show t = _ from State.talStore_advances h]
    exact (State.fget_fset_same _ F.talWptr_WPTR (w + 1) 0 0 0 (by decide)).trans (Nat.mod_eq_of_lt hlt)
  · rw [show t = _ from State.talStore_wraps h hm]
    exact (State.fget_of_rget (State.rget_cnt_register (by decide))).trans (State.fget_fset_zero (by decide))
  · rw [show t = _ from State.talStore_wraps h hm, State.cnt, State.rget_cntAdd_same, State.rget_fset_register (by decide), hregs]
  · rw [show t = _ from State.talStore_fills h hm]
    exact State.fbit_fon_same _ F.talStat_FULL 0 0 0 rfl

/-- A write of FIRE is the first trigger, with device time as its timestamp. -/
theorem State.wrTalCtl_triggers (hen : s.fbit F.talCtl_EN = true) (hten : s.fbit F.talCtl_TRIG_EN = true)
    (hfirst : s.fbit F.talStat_TRIGGERED = false) (h0 : bit v 0 = true) (h7 : bit v 7 = true) :
    (s.wrTalCtl v).fbit F.talStat_TRIGGERED = true ∧ (s.wrTalCtl v).fget F.talTrigTime_TT = packT96 s.nowI % 2 ^ 96 := by
  have hnow : (s.talCtlStored v).nowI = s.nowI := (s.talCtlStored_sameBesideRegs v).nowI_eq
  have hen2 : (s.talCtlStored v).fbit F.talCtl_EN = true := State.en_talCtlStored.trans hen
  have hten2 : (s.talCtlStored v).fbit F.talCtl_TRIG_EN = true := State.trigEn_talCtlStored.trans ((if_pos hen).trans hten)
  have hfirst2 : (s.talCtlStored v).fbit F.talStat_TRIGGERED = false := State.triggered_talCtlStored.trans hfirst
  rw [State.wrTalCtl_switches, if_pos h7, State.talSwitched_stays hen h0, hnow]
  generalize s.talCtlStored v = t at *
  obtain ⟨hshown, htime, -⟩ := State.talTrigger_effect (tt := s.nowI) hten2 hen2 hfirst2
  exact ⟨hshown, htime⟩

/-- EN rises where the ring fits. -/
theorem State.wrTalCtl_begins (hen : s.fbit F.talCtl_EN = false) (h0 : bit v 0 = true) (h7 : bit v 7 = false)
    (hfits : s.talEnableOk (bit v 5) = true) : s.wrTalCtl v = (s.talCtlStored v).talStart := by
  rw [State.wrTalCtl_switches, if_neg (ne_true_of_eq_false h7), State.talSwitched_starts hen h0, State.talEnableOk_talCtlStored, if_pos hfits]

theorem State.wrTalCtl_refuses (hen : s.fbit F.talCtl_EN = false) (h0 : bit v 0 = true) (h7 : bit v 7 = false)
    (hfits : s.talEnableOk (bit v 5) = false) : (s.wrTalCtl v).fbit F.talCtl_EN = false ∧ (s.wrTalCtl v).fbit F.talStat_WR_ERR = true ∧
      (s.wrTalCtl v).tal = s.tal := by
  rw [State.wrTalCtl_switches, if_neg (ne_true_of_eq_false h7), State.talSwitched_starts hen h0, State.talEnableOk_talCtlStored,
    if_neg (ne_true_of_eq_false hfits)]
  exact ⟨(State.fbit_fon_register (by decide)).trans (State.en_talCtlStored.trans hen), State.fbit_fon_same _ F.talStat_WR_ERR 0 0 0 rfl,
    ((s.talCtlStored_sameBesideRegs v).trans (State.fon_sameBesideRegs ..)).tal_eq⟩

theorem State.talStop_effect (s : State) : s.talStop.fbit F.talCtl_EN = false ∧ s.talStop.tal = { s.tal with draining := true } ∧
    s.talStop.dram = s.dram :=
  ⟨State.fbit_fset_same (s := s) (f := F.talCtl_EN) (v := 0) rfl, rfl, rfl⟩

/-- EN falls. -/
theorem State.wrTalCtl_ends (hen : s.fbit F.talCtl_EN = true) (h0 : bit v 0 = false) (h7 : bit v 7 = false) :
    (s.wrTalCtl v).fbit F.talCtl_EN = false ∧ (s.wrTalCtl v).tal = { s.tal with draining := true } ∧ (s.wrTalCtl v).dram = s.dram := by
  have hbeside := s.talCtlStored_sameBesideRegs v
  obtain ⟨hoff, htal, hdram⟩ := (s.talCtlStored v).talStop_effect
  rw [State.wrTalCtl_switches, if_neg (ne_true_of_eq_false h7), State.talSwitched_stops hen h0]
  exact ⟨hoff, hbeside.tal_eq ▸ htal, hdram.trans hbeside.dram_eq⟩

end Settled


/-- A consumer whose block is not held in reset acts on the group at its input. -/
theorem State.onGroup_acts {s : State} {x : Nat} {f : List Stamp → State → State} {g : Group}
    (hg : findGroup x 0 s.tickNo s.dw.inbox = some g) (h : (s.groupTaken x).conHeld x = false) : s.onGroup x f = f g.evs (s.groupTaken x) := by
  rw [State.onGroup, State.takeGroup, hg]
  exact if_neg (ne_true_of_eq_false h)

theorem setBits_lt {v hi lo x n : Nat} (h : lo ≤ hi) (hh : hi < n) (hv : v < 2 ^ n) : setBits v hi lo x < 2 ^ n := by
  have hn : 2 ^ n = 2 ^ (n - (hi + 1)) * 2 ^ (hi + 1) := by rw [← pow_add]; congr 1; omega
  have hfield : x % 2 ^ (hi + 1 - lo) * 2 ^ lo + v % 2 ^ lo < 2 ^ (hi + 1) := by
    have e : 2 ^ (hi + 1) = 2 ^ (hi + 1 - lo) * 2 ^ lo := by rw [← pow_add]; congr 1; omega
    have hlow : v % 2 ^ lo < 2 ^ lo := Nat.mod_lt _ (by positivity)
    have hx : (x % 2 ^ (hi + 1 - lo) + 1) * 2 ^ lo ≤ 2 ^ (hi + 1 - lo) * 2 ^ lo := Nat.mul_le_mul_right _ (Nat.mod_lt _ (by positivity))
    rw [Nat.add_mul, one_mul] at hx
    omega
  have htop : (v / 2 ^ (hi + 1) + 1) * 2 ^ (hi + 1) ≤ 2 ^ n := by
    rw [hn] at hv ⊢
    exact Nat.mul_le_mul_right _ ((Nat.div_lt_iff_lt_mul (by positivity)).mpr hv)
  rw [Nat.add_mul, one_mul] at htop
  unfold setBits
  omega

/-- A write of TAL_CTL by one of its fields reaches it. -/
theorem busFld_talCtl {q : Port} {f : Fld} {s : State} (data : BitVec 32) (x : Nat) (hs : s.writable q.req .talCtl = true) (hf : f.reg = .talCtl)
    (hb : f.lo ≤ f.hi ∧ f.hi < 32) :
    s.busFld q.req f data.toNat x = (s.wroteBy q.req ⟨.talCtl, 0, 0, 0⟩).wrTalCtl (setBits data.toNat f.hi f.lo x) := by
  rw [State.busFld, hf]
  exact State.busTo_first hs talMapped rfl (setBits_lt hb.1 hb.2 data.isLt)

/-- Settles O20: each command is one operation of Tally (`talIn_takes`, `talWrite_stores`, `talTrigger_effect`, `talFlush_effect`), or a write
of TAL_CTL (`wrTalCtl_switches`). -/
theorem tallyTakesWritesAndFreezes : Obligations.TallyTakesWritesAndFreezes := by
  intro q data s key size
  refine ⟨fun hrun => ?running, fun hw => ⟨fun hen hten hfirst h0 => ?fire, fun hen h7 => ?enable, fun hen h7 => ?disable⟩⟩
  case running =>
    have hlive (t : State) : s.live t = t := if_pos hrun
    refine ⟨fun o ho ht => ?record, fun r rest hb hz hf hs hd hk hm hl hwf => ?write, fun g e hg hev hten hen hfirst hheld => ?trigger,
      fun htrig hz => ⟨fun hpost htime => ?freeze, fun hpost => ?waits⟩, fun hd => ?drain⟩
    case record =>
      have hexec : exec .tallyRecordIn s = .next ((s.talOfferTaken o).talTake o.rcd) :=
        congrArg Host.Outcome.next ((hlive _).trans (State.talIn_takes ho ht))
      refine ⟨fun ha hs hd hh hl hm hroom => ⟨_, hexec, ?_⟩, fun h => ⟨_, hexec, ?_⟩, fun ha hs hd => ⟨_, hexec, ?_⟩⟩
      · rw [State.talTake_stores (s := s.talOfferTaken o) ha hs hd hh hl hm hroom]
        exact ⟨rfl, rfl⟩
      · rw [State.talTake_discards (s := s.talOfferTaken o) h]
        exact ⟨rfl, State.rget_cnt64_same ..⟩
      · rw [State.talTake_loses (s := s.talOfferTaken o) ha hs hd]
        exact (s.talOfferTaken o).talLose_effect
    case write =>
      exact ⟨_, congrArg Host.Outcome.next ((hlive _).trans (State.talWrite_stores hb hz hf hs hd hk hm hl)),
        State.talStore_stores (s := s.setTal { s.tal with buf := rest }) r hwf⟩
    case trigger =>
      have hgroup : s.onGroup Con.talTrig (fun evs st => evs.foldl (fun x e => x.talTrigger e.ts) st) =
          (s.groupTaken Con.talTrig).talTrigger e.ts := by
        rw [State.onGroup_acts hg hheld, hev]
        rfl
      exact ⟨_, congrArg Host.Outcome.next ((hlive _).trans hgroup), State.talTrigger_effect (s := s.groupTaken Con.talTrig) hten hen hfirst⟩
    case freeze =>
      have hfreeze : s.talFreeze = s.talFreezeNow := if_pos ⟨htrig, ne_true_of_eq_false hz, hpost, htime⟩
      exact ⟨_, congrArg Host.Outcome.next ((hlive _).trans hfreeze), State.fbit_fon_same _ F.talStat_FROZEN 0 0 0 rfl⟩
    case waits =>
      have hfreeze : s.talFreeze = s := if_neg fun h => absurd h.2.2.1 (not_le.mpr hpost)
      exact ⟨_, congrArg Host.Outcome.next (hlive _), hfreeze⟩
    case drain =>
      obtain ⟨hctl, hempty, -⟩ := s.talFlush_effect
      obtain ⟨hbuf, hmarks, hdone⟩ := hempty hd
      exact ⟨_, congrArg Host.Outcome.next (hlive _), hbuf, hmarks, hdone, State.fbit_of_rget hctl⟩
  case fire =>
    have hbit : bit (setBits data.toNat 7 7 1) 7 = true := by rw [bit_eq_bits, bits_setBits_same _ _ _ _ le_rfl]; rfl
    exact ⟨_, congrArg Host.Outcome.next (busFld_talCtl (f := F.talCtl_FIRE) data 1 hw rfl (by decide)),
      State.wrTalCtl_triggers (s := s.wroteBy q.req _) hen hten hfirst ((bit_setBits_out le_rfl (by decide)).trans h0) hbit⟩
  case enable =>
    let v := setBits data.toNat 0 0 1
    have hexec : exec (.tallyEnable q data) s = .next ((s.wroteBy q.req ⟨.talCtl, 0, 0, 0⟩).wrTalCtl v) :=
      congrArg Host.Outcome.next (busFld_talCtl (f := F.talCtl_EN) data 1 hw rfl (by decide))
    have hbit {b : Nat} (hb : 0 < b) : bit v b = bit data.toNat b := bit_setBits_out le_rfl (.inr hb)
    have hok := (s.wroteBy q.req ⟨.talCtl, 0, 0, 0⟩).talEnableOk_iff (bit v 5)
    rw [hbit (by decide)] at hok
    refine ⟨fun hfits => ⟨_, hexec, ?_⟩, fun hfits => ⟨_, hexec, ?_⟩⟩
    · have hbegin := State.wrTalCtl_begins (s := s.wroteBy q.req ⟨.talCtl, 0, 0, 0⟩) (v := v) hen (bit_setBits_zero ..) ((hbit (by decide)).trans h7)
        (by rw [hbit (by decide)]; exact hok.mpr hfits)
      have hmark : ((s.wroteBy q.req ⟨.talCtl, 0, 0, 0⟩).talCtlStored v).fbit F.talCtl_MARK = bit data.toNat 4 :=
        State.mark_talCtlStored.trans (hbit (by decide))
      have hbeside := (s.wroteBy q.req ⟨.talCtl, 0, 0, 0⟩).talCtlStored_sameBesideRegs v
      rw [hbegin]
      generalize (s.wroteBy q.req ⟨.talCtl, 0, 0, 0⟩).talCtlStored v = t at hmark hbeside ⊢
      obtain ⟨hen', hwptr, hwraps, htrig, hfrozen, hfull, htime, hpos, hbuf, hdram⟩ := t.talStart_effect
      rw [hmark] at hbuf
      exact ⟨hen', hwptr, hwraps, htrig, hfrozen, hfull, htime, hpos, hbuf,
        fun hd => (hdram ((congrArg Tally.draining hbeside.tal_eq).trans hd)).trans hbeside.dram_eq⟩
    · exact State.wrTalCtl_refuses (s := s.wroteBy q.req _) hen (bit_setBits_zero ..) ((hbit (by decide)).trans h7) (by
        rw [hbit (by decide)]
        exact Bool.eq_false_iff.mpr fun h => hfits (hok.mp h))
  case disable =>
    exact ⟨_, congrArg Host.Outcome.next (busFld_talCtl (f := F.talCtl_EN) data 0 hw rfl (by decide)),
      State.wrTalCtl_ends (s := s.wroteBy q.req _) hen (bit_setBits_zero ..) ((bit_setBits_out le_rfl (by decide)).trans h7)⟩

end Sys2Proof.Machine
end

section
/-! PROOFS. What the controller of a unit leaves alone while it works: the other units, what is set of the units, the channels, the
calibration and the clock (R113 to R128). -/

namespace Sys2Proof.Machine

/-! ### Units after a write -/

section Units
variable {s t : State} {u w : Nat}

@[simp] theorem State.getTiu_setTiu_same (s : State) (u : Nat) (x : Tiu) : (s.setTiu u x).getTiu u = x := SMap.get_put_same ..

theorem State.getTiu_setTiu_other (x : Tiu) (h : w ≠ u) : (s.setTiu u x).getTiu w = s.getTiu w := SMap.get_put_other _ _ _ _ _ _ _ h

theorem State.getTiu_of_tiu (h : t.tiu = s.tiu) (u : Nat) : t.getTiu u = s.getTiu u := congrArg (fun x : SMap Nat Tiu => x.get {} u) h

end Units

/-! ### The frame of a unit's work -/

/-- The registers in which a unit shows and counts what has happened. -/
def unitShown : List Reg :=
  [.tiuStat, .tiuCntHit, .tiuCntClose, .tiuCntGap, .tiuCntOvf, .tiuCntTmo, .tiuCntRdq, .tiuCntCalhold]

/-- What the work of unit `w` leaves alone: the other units, the registers of the units but those in which `w` itself shows things, the
events raised before, the channels, the calibration and the clock. -/
structure UnitWork (s t : State) (w : Nat) : Prop where
  units : ∀ v, v ≠ w → t.getTiu v = s.getTiu v
  regs : ∀ c : RegKey, c.r.info.blk = .tiu → (c.i = w → c.r ∉ unitShown) → t.rget c = s.rget c
  events : s.dw.evq ⊆ t.dw.evq
  eo : t.eo = s.eo
  cal : t.cal = s.cal
  clock : t.clock = s.clock

section Work
variable {s t x : State} {w : Nat}

theorem UnitWork.refl (s : State) (w : Nat) : UnitWork s s w := ⟨fun _ _ => rfl, fun _ _ _ => rfl, fun _ h => h, rfl, rfl, rfl⟩

theorem UnitWork.trans (h : UnitWork s t w) (h2 : UnitWork t x w) : UnitWork s x w where
  units v hv := (h2.units v hv).trans (h.units v hv)
  regs c hc hw := (h2.regs c hc hw).trans (h.regs c hc hw)
  events := List.Subset.trans h.events h2.events
  eo := h2.eo.trans h.eo
  cal := h2.cal.trans h.cal
  clock := h2.clock.trans h.clock

theorem UnitWork.foldl {A : Type} {f : State → A → State} (hf : ∀ s a, UnitWork s (f s a) w) (l : List A) (s : State) :
    UnitWork s (l.foldl f s) w :=
  List.foldlRecOn l f (motive := fun t => UnitWork s t w) (.refl s w) fun t h a _ => h.trans (hf t a)

theorem UnitWork.ite {c : Prop} [Decidable c] (h : c → UnitWork s t w) (h2 : ¬ c → UnitWork s x w) : UnitWork s (if c then t else x) w := by
  split
  · exact h ‹_›
  · exact h2 ‹_›

theorem State.setTiu_work (s : State) (w : Nat) (c : Tiu) : UnitWork s (s.setTiu w c) w :=
  ⟨fun _ hv => State.getTiu_setTiu_other _ hv, fun _ _ _ => rfl, fun _ h => h, rfl, rfl, rfl⟩

theorem UnitWork.of_regs {r : Reg} (hb : s.sameBesideRegs t) (h : ∀ c, c ≠ ⟨r, w, 0, 0⟩ → t.rget c = s.rget c) (hr : r ∈ unitShown) :
    UnitWork s t w where
  units v _ := State.getTiu_of_tiu hb.tiu_eq v
  regs c _ hw := h c fun e => absurd hr (by subst e; exact hw rfl)
  events := by rw [show t.dw = s.dw from (congrArg State.dw hb :)]; exact fun _ h => h
  eo := hb.eo_eq
  cal := (congrArg State.cal hb :)
  clock := (congrArg State.clock hb :)

theorem State.fon_work (s : State) {f : Fld} (h : f.reg ∈ unitShown) : UnitWork s (s.fon f w) w :=
  .of_regs (State.fon_sameBesideRegs ..) (fun _ hc => State.rget_fon_other _ _ _ _ _ _ hc) h

theorem State.fonIf_work (s : State) (b : Bool) {f : Fld} (h : f.reg ∈ unitShown) : UnitWork s (s.fonIf b f w) w :=
  .ite (fun _ => s.fon_work h) fun _ => .refl s w

theorem State.cnt_work (s : State) {r : Reg} (h : r ∈ unitShown) : UnitWork s (s.cnt r w) w :=
  .of_regs (State.rset_sameBesideRegs ..) (fun _ hc => State.rget_rset_other _ _ _ _ hc) h

theorem State.cnt64_work (s : State) {r : Reg} {n : Nat} (h : r ∈ unitShown) : UnitWork s (s.cnt64 r n w) w :=
  .of_regs (State.rset_sameBesideRegs ..) (fun _ hc => State.rget_rset_other _ _ _ _ hc) h

/-! ### Events -/

/-- What stands in no unit's register is no unit's. -/
theorem UnitWork.of_regs_other {k : RegKey} (hb : s.sameBesideRegs t) (h : ∀ c, c ≠ k → t.rget c = s.rget c) (hk : k.r.info.blk ≠ .tiu) :
    UnitWork s t w where
  units v _ := State.getTiu_of_tiu hb.tiu_eq v
  regs c hc _ := h c fun e => hk (e ▸ hc)
  events := by rw [show t.dw = s.dw from (congrArg State.dw hb :)]; exact fun _ h => h
  eo := hb.eo_eq
  cal := (congrArg State.cal hb :)
  clock := (congrArg State.clock hb :)

theorem State.fon_work_other (s : State) {f : Fld} {i : Nat} (h : f.reg.info.blk ≠ .tiu) : UnitWork s (s.fon f i) w :=
  .of_regs_other (State.fon_sameBesideRegs ..) (fun _ hc => State.rget_fon_other _ _ _ _ _ _ hc) h

theorem State.cnt_work_other (s : State) {r : Reg} {i : Nat} (h : r.info.blk ≠ .tiu) : UnitWork s (s.cnt r i) w :=
  .of_regs_other (State.rset_sameBesideRegs ..) (fun _ hc => State.rget_rset_other _ _ _ _ hc) h

theorem State.setDw_work (s : State) {d : Dw} (h : s.dw.evq ⊆ d.evq) : UnitWork s (s.setDw d) w :=
  ⟨fun _ _ => rfl, fun _ _ _ => rfl, h, rfl, rfl, rfl⟩

theorem State.setBbr_work (s : State) (b : BbrSt) : UnitWork s (s.setBbr b) w :=
  ⟨fun _ _ => rfl, fun _ _ _ => rfl, fun _ h => h, rfl, rfl, s.setBbr_clock b⟩

theorem State.msixMessage_work (s : State) (v : Nat) : UnitWork s (s.msixMessage v) w :=
  ⟨fun _ _ => rfl, fun _ _ _ => rfl, fun _ h => h, rfl, rfl, s.msixMessage_clock v⟩

theorem State.offerBbr_work (s : State) (o : BbrOffer) : UnitWork s (s.offerBbr o) w := s.setBbr_work _

theorem State.fonBit_sameBesideRegs (s : State) (f : Fld) (b i : Nat) : s.sameBesideRegs (s.fonBit f b i) := rfl

theorem State.rget_fonBit_other (s : State) (f : Fld) (b i j k : Nat) {c : RegKey} (h : c ≠ ⟨f.reg, i, j, k⟩) :
    (s.fonBit f b i j k).rget c = s.rget c := State.rget_rset_other s ⟨f.reg, i, j, k⟩ c _ h

theorem State.fonBit_work_other (s : State) {f : Fld} {b i : Nat} (h : f.reg.info.blk ≠ .tiu) : UnitWork s (s.fonBit f b i) w :=
  .of_regs_other (s.fonBit_sameBesideRegs ..) (fun _ hc => State.rget_fonBit_other _ _ _ _ _ _ hc) h

theorem State.loopIn_work (s : State) (prod c : Nat) : UnitWork s (s.loopIn prod c) w := by
  unfold State.loopIn
  exact UnitWork.trans (.ite (fun _ => .refl s w) fun _ => s.offerBbr_work _) (State.fon_work_other _ (by decide))

theorem State.sendMsix_work (s : State) (v : Nat) : UnitWork s (s.sendMsix v) w := by
  unfold State.sendMsix
  split
  · exact s.fonBit_work_other (f := F.msixPba_PENDING) (by decide)
  · exact s.msixMessage_work v

theorem State.sendVector_work (s : State) (prod : Nat) : UnitWork s (s.sendVector prod) w := by
  unfold State.sendVector
  split
  · exact s.sendMsix_work _
  · exact .refl s w

theorem State.sendMsix_dw (s : State) (v : Nat) : (s.sendMsix v).dw = s.dw := by
  unfold State.sendMsix
  split
  · exact (congrArg State.dw (s.fonBit_sameBesideRegs F.msixPba_PENDING v 0) :)
  · exact (rfl : (s.msixMessage v).dw = s.dw)

theorem State.sendVector_dw (s : State) (prod : Nat) : (s.sendVector prod).dw = s.dw := by
  unfold State.sendVector
  split
  · exact s.sendMsix_dw _
  · rfl

theorem State.deliver_work (s : State) (x : Nat) (evs : List Stamp) (due : Nat) : UnitWork s (s.deliver x evs due) w :=
  s.setDw_work fun _ h => h

theorem State.raiseNow_work (s : State) (prod : Nat) (ts : Instant) (tag : Nat) : UnitWork s (s.raiseNow prod ts tag) w := by
  unfold State.raiseNow
  split
  · exact ((s.fon_work_other (by decide)).trans (State.cnt_work_other _ (by decide))).trans (.foldl (fun t c => t.loopIn_work prod c) _ _)
  · refine ((s.sendVector_work prod).trans (State.setDw_work _ ?_)).trans (.foldl (fun t x => t.deliver_work x _ _) _ _)
    rw [State.sendVector_dw]
    exact List.subset_append_left _ _

theorem State.raiseEv_work (s : State) (prod : Nat) (ts : Instant) (tag delay : Nat) : UnitWork s (s.raiseEv prod ts tag delay) w :=
  .ite (fun _ => s.raiseNow_work ..) fun _ => s.setDw_work fun _ h => h

theorem State.raiseIf_work (s : State) (b : Bool) (prod : Nat) (ts : Instant) (tag delay : Nat) :
    UnitWork s (s.raiseIf b prod ts tag delay) w :=
  .ite (fun _ => s.raiseEv_work ..) fun _ => .refl s w

/-! ### Records (R109, R118 to R127) -/

theorem State.closeDue_work (s : State) (w : Nat) (before : Nat × Nat → Bool) : UnitWork s (s.closeDue w before) w :=
  .ite (fun _ => s.setTiu_work ..) fun _ => .refl s w

theorem State.tiuPush_work (s : State) (w : Nat) (r : Rec) (eo : Option Nat) : UnitWork s (s.tiuPush w r eo) w :=
  .ite (fun _ => ((s.setTiu_work ..).trans (State.cnt_work _ (by decide))).trans (State.fon_work _ (by decide))) fun _ => s.setTiu_work ..

theorem State.measGive_work (s : State) (u : Nat) (r : Rec) (tag : Nat) : UnitWork s (s.measGive u r tag) w :=
  ⟨fun _ _ => rfl, fun _ _ _ => rfl, fun _ h => h, rfl, rfl, s.measGive_clock u r tag⟩

theorem State.tiuComplete_work (s : State) (w : Nat) (time : Instant) (value : Int) (f : RecFlags) (aux tag : Nat) (at_ : Instant)
    (ends : Bool) : UnitWork s (s.tiuComplete w time value f aux tag at_ ends) w := by
  have hshow (t : State) (b : Bool) {g : Fld} (h : g.reg = .tiuStat) : UnitWork t (t.fonIf b g w) w := t.fonIf_work b (by rw [h]; decide)
  unfold State.tiuComplete
  exact ((((((((s.setTiu_work ..).trans (hshow _ _ rfl)).trans (hshow _ _ rfl)).trans (hshow _ _ rfl)).trans (hshow _ _ rfl)).trans
    (State.tiuPush_work ..)).trans (State.measGive_work ..)).trans (State.raiseIf_work ..)).trans (State.raiseIf_work ..)

theorem State.pairDone_work (s : State) (w : Nat) (start stop : Half) (at_ : Instant) (arb : Bool) :
    UnitWork s (s.pairDone w start stop at_ arb) w := (s.setTiu_work ..).trans (State.tiuComplete_work ..)

theorem State.tiuOvf_work (s : State) (w : Nat) (h : Half) : UnitWork s (s.tiuOvf w h) w :=
  (((s.setTiu_work ..).trans (State.closeDue_work ..)).trans (State.cnt_work _ (by decide))).trans (State.tiuComplete_work ..)

theorem State.tiuExpire_work (s : State) (w : Nat) (e : Instant) : UnitWork s (s.tiuExpire w e) w :=
  (((s.setTiu_work ..).trans (State.closeDue_work ..)).trans (State.cnt_work _ (by decide))).trans (State.tiuComplete_work ..)

theorem State.tiuLapse_work (s : State) (w : Nat) (ts : Instant) (tick : Nat) : UnitWork s (s.tiuLapse w ts tick) w := by
  delta State.tiuLapse
  extract_lets s1
  have h1 : UnitWork s s1 w := by
    simp only [s1]
    split
    · exact s.tiuOvf_work ..
    · exact .refl s w
  split
  · exact .ite (fun _ => h1.trans (State.tiuExpire_work ..)) fun _ => h1
  · exact h1

/-! ### Pairing and arms (R113 to R118) -/

theorem State.offerHalf_work (s : State) (w : Nat) (y : TiuIn) (h : TiuHalf) : UnitWork s (s.offerHalf w y h) w := by
  unfold State.offerHalf
  dsimp only
  split
  · exact .ite (fun _ => s.setTiu_work ..) fun _ => .ite (fun _ => s.setTiu_work ..) fun _ => .refl s w
  · refine .ite (fun _ => .ite (fun _ => .refl s w) fun _ => .ite (fun _ => ?_) fun _ => s.pairDone_work ..)
      fun _ => .ite (fun _ => s.pairDone_work ..) fun _ => .refl s w
    exact (s.pairDone_work ..).trans (State.setTiu_work ..)

theorem State.tiuTakeHalf_work (s : State) (w : Nat) (y : TiuIn) (h : TiuHalf) : UnitWork s (s.tiuTakeHalf w y h) w := by
  have hlapse := s.tiuLapse_work w y.ts y.tick
  exact .ite (fun _ => .ite (fun _ => hlapse.trans (State.setTiu_work ..)) fun _ =>
    .ite (fun _ => hlapse.trans (State.tiuComplete_work ..)) fun _ => hlapse.trans (State.offerHalf_work ..)) fun _ => .refl s w

theorem State.closeOn_work (s : State) (w tick code : Nat) : UnitWork s (s.closeOn w tick code) w :=
  ((s.cnt_work (by decide)).trans (State.fon_work _ (by decide))).trans (State.setTiu_work ..)

theorem State.tiuAccept_work (s : State) (w : Nat) (c : CapPos) (rising own : Bool) (closes : Option Gate) :
    UnitWork s (s.tiuAccept w c rising own closes) w :=
  .ite (fun _ => ((s.setTiu_work ..).trans (State.cnt64_work _ (by decide))).trans (State.raiseEv_work ..)) fun _ => s.setTiu_work ..

/-- A hit that no other unit takes. -/
theorem State.tiuFrontEnd_work (s : State) (w : Nat) (c : CapPos) (rising own : Bool) (closes : Option Gate) :
    UnitWork s (s.tiuFrontEnd w c rising own [] closes).1 w := by
  unfold State.tiuFrontEnd
  split
  · cases own
    · exact .refl s w
    · exact s.closeOn_work ..
  · exact s.tiuAccept_work ..

theorem State.gateAfter_work (s : State) (w : Nat) (ts : Instant) (role : GateRole) : UnitWork s (s.gateAfter w ts role) w := by
  cases role
  · exact .refl s w
  · exact s.setTiu_work ..
  · exact s.setTiu_work ..

theorem State.tiuFreqEdge_work (s : State) (w : Nat) (c : CapPos) : UnitWork s (s.tiuFreqEdge w c []) w := by
  delta State.tiuFreqEdge
  extract_lets t ratio n ts s1 late s2 role tag t2 s3 closes r
  have h1 : UnitWork s s1 w := s.setTiu_work ..
  have h2 : UnitWork s s2 w := .ite (fun _ => h1) fun _ => h1.trans (s1.tiuLapse_work ..)
  have h3 : UnitWork s s3 w := .ite (fun _ => h2) fun _ => h2.trans (s2.setTiu_work ..)
  have hr : UnitWork s r.1 w := h3.trans (s3.tiuFrontEnd_work ..)
  exact .ite (fun _ => h3) fun _ => .ite (fun _ => hr.trans (State.gateAfter_work ..)) fun _ => hr

theorem State.tiuSetArm_work (s : State) (w : Nat) (y : TiuIn) (count : Nat) (ta : Instant) : UnitWork s (s.tiuSetArm w y count ta) w := by
  delta State.tiuSetArm
  extract_lets st t arm1 again s1
  have h : UnitWork s st w := s.tiuLapse_work ..
  have h1 : UnitWork s s1 w := h.trans (st.setTiu_work ..)
  exact .ite (fun _ => .ite (fun _ => h.trans (st.setTiu_work ..)) fun _ => h) fun _ =>
    .ite (fun _ => h1.trans (.foldl (fun t c => t.tiuFreqEdge_work w _) _ _)) fun _ => h1

theorem State.tiuTake_work (s : State) (w : Nat) (y : TiuIn) : UnitWork s (s.tiuTake w y) w := by
  unfold State.tiuTake
  split
  · exact s.tiuSetArm_work ..
  · exact s.tiuTakeHalf_work ..

theorem State.tiuSettleBy_work (fuel : Nat) (s : State) (w : Nat) (by_ : Instant) : UnitWork s (State.tiuSettleBy fuel s w by_) w := by
  induction fuel generalizing s with
  | zero => exact .refl s w
  | succ fuel ih =>
    rw [State.tiuSettleBy]
    split
    · exact .refl s w
    · exact .ite (fun _ => ((s.setTiu_work ..).trans (State.tiuTake_work ..)).trans (ih _)) fun _ => .refl s w

theorem State.tiuInput_work (s : State) (w : Nat) (y : TiuIn) : UnitWork s (s.tiuInput w y) w :=
  (s.setTiu_work ..).trans (State.tiuSettleBy_work ..)

end Work

end Sys2Proof.Machine
end

section
/-! PROOFS. What the controller of a unit judges by, and what it does with one input, one arm and one record (R113 to R128). -/

namespace Sys2Proof.Machine

/-! ### What a unit judges by -/

/-- The registers that set how a unit pairs, times out and stamps. -/
def unitSet : List Reg := [.tiuCtl, .tiuSel, .tiuTmo, .tiuOfs]

/-- All that unit `u` judges an input by, but for the hits in flight, stands. -/
structure UnitView (s t : State) (u : Nat) : Prop where
  regs : ∀ c : RegKey, c.r ∈ unitSet → t.rget c = s.rget c
  cal : t.cal = s.cal
  clock : t.clock = s.clock
  arm : (t.getTiu u).arm = (s.getTiu u).arm
  half : (t.getTiu u).half = (s.getTiu u).half
  gate : (t.getTiu u).gate = (s.getTiu u).gate

/-- Nothing of the state but its units differs. -/
def State.sameBesideTiu (s t : State) : Prop := { t with tiu := s.tiu } = s

section View
variable {s t x : State} {u : Nat}

theorem State.sameBesideTiu.trans (h : s.sameBesideTiu t) (h2 : t.sameBesideTiu x) : s.sameBesideTiu x := by
  have e : { x with tiu := s.tiu } = { t with tiu := s.tiu } := congrArg (fun x : State => { x with tiu := s.tiu }) h2
  exact e.trans h

theorem State.setTiu_beside (s : State) (u : Nat) (c : Tiu) : s.sameBesideTiu (s.setTiu u c) := rfl

theorem State.sameBesideTiu.regs (h : s.sameBesideTiu t) : t.regs = s.regs := (congrArg State.regs h :)
theorem State.sameBesideTiu.cal (h : s.sameBesideTiu t) : t.cal = s.cal := (congrArg State.cal h :)
theorem State.sameBesideTiu.eo (h : s.sameBesideTiu t) : t.eo = s.eo := (congrArg State.eo h :)
theorem State.sameBesideTiu.dw (h : s.sameBesideTiu t) : t.dw = s.dw := (congrArg State.dw h :)
theorem State.sameBesideTiu.clock (h : s.sameBesideTiu t) : t.clock = s.clock := (congrArg State.clock h :)

theorem UnitView.refl (s : State) (u : Nat) : UnitView s s u := ⟨fun _ _ => rfl, rfl, rfl, rfl, rfl, rfl⟩

theorem UnitView.trans (h : UnitView s t u) (h2 : UnitView t x u) : UnitView s x u :=
  ⟨fun c hc => (h2.regs c hc).trans (h.regs c hc), h2.cal.trans h.cal, h2.clock.trans h.clock, h2.arm.trans h.arm, h2.half.trans h.half,
    h2.gate.trans h.gate⟩

theorem UnitView.of_units (h : s.sameBesideTiu t) (ha : (t.getTiu u).arm = (s.getTiu u).arm) (hh : (t.getTiu u).half = (s.getTiu u).half)
    (hg : (t.getTiu u).gate = (s.getTiu u).gate) : UnitView s t u :=
  ⟨fun c _ => State.rget_of_regs h.regs c, h.cal, h.clock, ha, hh, hg⟩

theorem UnitView.of_same (h : s.sameBesideTiu t) (hu : ∀ v, t.getTiu v = s.getTiu v) : UnitView s t u :=
  .of_units h (by rw [hu]) (by rw [hu]) (by rw [hu])

theorem UnitView.of_dw (h : s.sameBesideDw t) : UnitView s t u := by
  obtain ⟨d, rfl⟩ := State.sameBesideDw_iff.mp h
  exact ⟨fun _ _ => rfl, rfl, rfl, rfl, rfl, rfl⟩

theorem UnitView.of_regs (h : s.sameBesideRegs t) (hr : ∀ c : RegKey, c.r ∈ unitSet → t.rget c = s.rget c) : UnitView s t u where
  regs := hr
  cal := (congrArg State.cal h :)
  clock := (congrArg State.clock h :)
  arm := by rw [State.getTiu_of_tiu h.tiu_eq]
  half := by rw [State.getTiu_of_tiu h.tiu_eq]
  gate := by rw [State.getTiu_of_tiu h.tiu_eq]

theorem UnitView.fget (h : UnitView s t u) {f : Fld} {i : Nat} (hf : f.reg ∈ unitSet) : t.fget f i = s.fget f i := State.fget_of_rget (h.regs _ hf)
theorem UnitView.fbit (h : UnitView s t u) {f : Fld} {i : Nat} (hf : f.reg ∈ unitSet) : t.fbit f i = s.fbit f i := State.fbit_of_rget (h.regs _ hf)
theorem UnitView.tickNo (h : UnitView s t u) : t.tickNo = s.tickNo := State.tickNo_of_clock h.clock
theorem UnitView.time (h : UnitView s t u) : t.time = s.time := State.time_of_clock h.clock
theorem UnitView.nowI (h : UnitView s t u) : t.nowI = s.nowI := by rw [State.nowI, State.nowI, h.time]
theorem UnitView.mode (h : UnitView s t u) (v : Nat) : t.tiuMode v = s.tiuMode v := h.fget (by decide)
theorem UnitView.cont (h : UnitView s t u) (v : Nat) : t.tiuCont v = s.tiuCont v := h.fbit (by decide)

theorem UnitView.tmoFrom (h : UnitView s t u) (v : Nat) (ts : Instant) : t.tmoFrom v ts = s.tmoFrom v ts := by
  simp only [State.tmoFrom, h.fbit (f := F.tiuTmo_EN) (by decide), h.fget (f := F.tiuTmo_TMO) (by decide)]

theorem UnitView.stampOf (h : UnitView s t u) (v tk code : Nat) : t.stampOf v tk code = s.stampOf v tk code := by
  simp only [State.stampOf, State.tiuCentre, State.getCalTiu, h.cal, h.fget (f := F.tiuOfs_OFS) (by decide)]

theorem UnitView.tickOf (h : UnitView s t u) (ts : Instant) : t.tickOf ts = s.tickOf ts := by rw [State.tickOf, State.tickOf, h.tickNo, h.time]

theorem UnitView.expiry (h : UnitView s t u) : t.tiuExpiry u = s.tiuExpiry u := by
  simp only [State.tiuExpiry, h.cont, h.half, h.gate, h.arm]

theorem UnitView.admits (h : UnitView s t u) (ts : Instant) : t.armAdmits u ts = s.armAdmits u ts := by
  simp only [State.armAdmits, h.cont, h.arm]

theorem UnitView.ignored (h : UnitView s t u) : t.armIgnored u = s.armIgnored u := by
  simp only [State.armIgnored, h.cont, h.mode]

theorem UnitView.armFrom (h : UnitView s t u) (ta : Instant) : t.armFrom ta = s.armFrom ta := by simp only [State.armFrom, h.nowI]

theorem UnitView.stopUnit (h : UnitView s t u) : t.stopUnit u = s.stopUnit u := by
  simp only [State.stopUnit, h.mode, h.fget (f := F.tiuSel_STOP_UNIT) (by decide), h.fget (f := F.tiuSel_STOP_SRC) (by decide)]

/-- Where the hits in flight stand too, so does what comes first. -/
theorem UnitView.flightBefore (h : UnitView s t u) (hf : ∀ v, (t.getTiu v).flight = (s.getTiu v).flight) (e : Instant) :
    t.flightBefore u e = s.flightBefore u e := by
  simp only [State.flightBefore, State.hitsAhead, h.stopUnit, h.stampOf, hf, h.fget (f := F.tiuSel_STOP_EDGES) (by decide)]

end View

/-! ### One input (R115, R118, R120, R122, R123) -/

/-- A unit with these inputs waiting. -/
def Tiu.withIns (c : Tiu) (l : List TiuIn) : Tiu := { c with ins := l }

/-- An input of an instant and a tick count is taken at once: none waits, no hit in flight comes before it, and nothing that waits has
ended by then. -/
structure TakesNow (s : State) (u : Nat) (ts : Instant) (tick : Nat) : Prop where
  ins : (s.getTiu u).ins = []
  first : s.tiuMode u = 3 ∨ s.flightBefore u ts = false
  inTime : ∀ x, s.tiuExpiry u = some x → ts < x
  short : ∀ h, (s.getTiu u).half = some h → tick < h.tick + 2 ^ 24

section Input
variable {s t : State} {u : Nat} {x : TiuIn}

theorem TakesNow.of_view {ts : Instant} {tick : Nat} (h : TakesNow s u ts tick) (hv : UnitView s t u)
    (hf : ∀ v, (t.getTiu v).flight = (s.getTiu v).flight) (hins : (t.getTiu u).ins = []) : TakesNow t u ts tick where
  ins := hins
  first := by rw [hv.mode, hv.flightBefore hf]; exact h.first
  inTime := by rw [hv.expiry]; exact h.inTime
  short := by rw [hv.half]; exact h.short

/-- Nothing that waits has ended: neither the coarse counter nor the expiry. -/
theorem TakesNow.lapse {ts : Instant} {tick : Nat} (h : TakesNow s u ts tick) : s.tiuLapse u ts tick = s := by
  have hovf : s.ovfBefore u tick = none := by
    unfold State.ovfBefore
    split
    · rfl
    next p hp => exact if_neg fun e => absurd e.1 (not_le.mpr (h.short p hp))
  unfold State.tiuLapse
  rw [hovf]
  dsimp only
  split
  next e he => exact if_neg (not_le.mpr (h.inTime e he))
  next => rfl

theorem State.tiuSettleBy_empty {by_ : Instant} (h : (s.getTiu u).ins = []) (fuel : Nat) : State.tiuSettleBy fuel s u by_ = s := by
  cases fuel with
  | zero => rfl
  | succ fuel => rw [State.tiuSettleBy, h]

theorem State.tiuSettleBy_waits {by_ : Instant} {rest : List TiuIn} (h : (s.getTiu u).ins = x :: rest) (hr : s.inReady u by_ x rest = false)
    (fuel : Nat) : State.tiuSettleBy fuel s u by_ = s := by
  cases fuel with
  | zero => rfl
  | succ fuel =>
    rw [State.tiuSettleBy, h]
    exact if_neg (ne_true_of_eq_false hr)

theorem State.tiuSettleBy_takes {by_ : Instant} {rest : List TiuIn} {fuel : Nat} (h : (s.getTiu u).ins = x :: rest)
    (hr : s.inReady u by_ x rest = true) : State.tiuSettleBy (fuel + 1) s u by_ =
      State.tiuSettleBy fuel ((s.setTiu u ((s.getTiu u).withIns rest)).tiuTake u x) u by_ := by
  rw [State.tiuSettleBy, h]
  exact if_pos hr

/-- An input that is taken at once finds the units as they were. -/
theorem State.tiuInput_takes (h : TakesNow s u x.ts x.tick) (harm : ∀ n ta, x.ask = .arm n ta → x.ts ≤ s.nowI) :
    ∃ t, s.sameBesideTiu t ∧ (∀ v, t.getTiu v = s.getTiu v) ∧ TakesNow t u x.ts x.tick ∧
      (((t.tiuTake u x).getTiu u).ins = [] → s.tiuInput u x = t.tiuTake u x) := by
  let s1 := s.setTiu u ((s.getTiu u).withIns [x])
  let t := s1.setTiu u ((s1.getTiu u).withIns [])
  have hown1 : s1.getTiu u = (s.getTiu u).withIns [x] := State.getTiu_setTiu_same ..
  have hview1 : UnitView s s1 u := .of_units (s.setTiu_beside ..) (by rw [hown1]; rfl) (by rw [hown1]; rfl) (by rw [hown1]; rfl)
  have hflight1 (v : Nat) : (s1.getTiu v).flight = (s.getTiu v).flight := by
    by_cases hv : v = u
    · rw [hv, hown1]
      rfl
    · rw [State.getTiu_setTiu_other _ hv]
  have hbeside : s.sameBesideTiu t := (s.setTiu_beside ..).trans (s1.setTiu_beside ..)
  have hunits (v : Nat) : t.getTiu v = s.getTiu v := by
    by_cases hv : v = u
    · rw [hv, State.getTiu_setTiu_same, hown1]
      exact congrArg (s.getTiu u).withIns h.ins.symm
    · rw [State.getTiu_setTiu_other _ hv, State.getTiu_setTiu_other _ hv]
  have hview : UnitView s t u := .of_same hbeside hunits
  have hready : s1.inReady u s.nowI x [] = true := by
    rw [State.inReady, hview1.mode, hview1.flightBefore hflight1]
    have hfirst : (decide (s.tiuMode u = 3) || !s.flightBefore u x.ts) = true := by simpa using h.first
    rw [hfirst, Bool.true_and]
    split
    · rfl
    next n ta hask => simp [harm n ta hask]
  have hins1 : (s1.getTiu u).ins = [x] := congrArg Tiu.ins hown1
  refine ⟨t, hbeside, hunits, h.of_view hview (fun v => by rw [hunits]) (by rw [hunits, h.ins]), fun hafter => ?_⟩
  have hinput : s.tiuInput u x = s1.tiuSettle u s.nowI := by
    rw [State.tiuInput, h.ins, insertIn]
    rfl
  rw [hinput, State.tiuSettle, hins1]
  obtain ⟨fuel, hfuel⟩ : ∃ fuel, ([x].length + 1) * ([x].length + (s1.getTiu u).missed.length + 1) = fuel + 1 :=
    ⟨_, (Nat.succ_pred_eq_of_pos (by positivity)).symm⟩
  rw [hfuel, State.tiuSettleBy_takes hins1 hready]
  exact State.tiuSettleBy_empty hafter fuel

/-- An arm whose instant is still to come waits (R115). -/
theorem State.tiuInput_waits {n : Nat} {ta : Instant} (hins : (s.getTiu u).ins = []) (hask : x.ask = .arm n ta) (h : s.nowI < x.ts) :
    s.tiuInput u x = s.setTiu u ((s.getTiu u).withIns [x]) := by
  have hinput : s.tiuInput u x = (s.setTiu u ((s.getTiu u).withIns [x])).tiuSettle u s.nowI := by
    rw [State.tiuInput, hins, insertIn, Tiu.withIns]
  rw [hinput]
  exact State.tiuSettleBy_waits (x := x) (rest := []) (congrArg Tiu.ins (State.getTiu_setTiu_same ..)) (by simp [State.inReady, hask, h]) _

end Input

end Sys2Proof.Machine
end

section
/-! PROOFS. Arms and disarms of a unit (R114 to R116). -/

namespace Sys2Proof.Machine

/-- A unit with an arm that has just taken effect. -/
def Tiu.armed (c : Tiu) (a : Arm) : Tiu := { c with arm := some a, pre := 0, preFresh := true, missed := [], edges := [] }

/-- A unit whose arm has ended. -/
def Tiu.unarmed (c : Tiu) : Tiu := { c with arm := none, half := none, gate := none }

/-- One unit is now this, and nothing else of the state differs. -/
def State.unitBecomes (s t : State) (u : Nat) (c : Tiu) : Prop :=
  s.sameBesideTiu t ∧ t.getTiu u = c ∧ ∀ w, w ≠ u → t.getTiu w = s.getTiu w

section Arms
variable {s t : State} {u n tag : Nat} {x : TiuIn} {ta a : Instant} {late : Bool} {c : Tiu}

theorem State.unitBecomes_setTiu (h : s.sameBesideTiu t) (hu : ∀ v, t.getTiu v = s.getTiu v) (u : Nat) (c : Tiu) :
    s.unitBecomes (t.setTiu u c) u c :=
  ⟨h.trans (t.setTiu_beside ..), State.getTiu_setTiu_same .., fun w hw => (State.getTiu_setTiu_other _ hw).trans (hu w)⟩

/-! ### The instant of an arm (R115) -/

theorem State.armFrom_recent (h : s.nowI ≤ ta + 32 * lsbPerNs) : s.armFrom ta = (ta, false) := if_neg (not_lt.mpr h)

theorem State.armFrom_late (h : ta + 32 * lsbPerNs < s.nowI) : s.armFrom ta = (s.nowI, true) := if_pos h

theorem State.armFrom_now (s : State) : s.armFrom s.nowI = (s.nowI, false) := State.armFrom_recent (Nat.le_add_right _ _)

theorem State.armFrom_past (h : ta ≤ s.nowI) : (s.armFrom ta).1 ≤ s.nowI := by
  unfold State.armFrom
  split
  · exact le_refl _
  · exact h

/-! ### An arm takes effect -/

theorem State.tiuSetArm_arms (h : TakesNow s u x.ts x.tick) (hn : n ≠ 0) (harm : (s.getTiu u).arm = none)
    (hmissed : ∀ y ∈ (s.getTiu u).missed, y.ts < x.ts) (hedges : ∀ e ∈ (s.getTiu u).edges, s.stampOf u e.2.1 e.2.2 < x.ts) :
    s.tiuSetArm u x n ta = s.setTiu u ((s.getTiu u).armed ⟨x.ts, n, x.tag, s.tmoFrom u ta⟩) := by
  have hagain : ((s.getTiu u).missed.filter fun y => decide (x.ts ≤ y.ts)) = [] :=
    List.filter_eq_nil_iff.mpr fun y hy => by simpa using hmissed y hy
  have hcount : ((s.getTiu u).edges.filter fun e => decide (x.ts ≤ s.stampOf u e.2.1 e.2.2)) = [] :=
    List.filter_eq_nil_iff.mpr fun e he => by simpa using hedges e he
  unfold State.tiuSetArm
  rw [h.lapse]
  dsimp only
  rw [if_neg hn, hagain, hcount, harm]
  exact ite_self _

theorem State.tiuSetArm_disarms (h : TakesNow s u x.ts x.tick) :
    s.tiuSetArm u x 0 ta = if (s.getTiu u).arm.isSome then s.setTiu u (s.getTiu u).unarmed else s := by
  unfold State.tiuSetArm
  rw [h.lapse]
  exact if_pos rfl

theorem State.tiuArmWith_input (hon : s.armIgnored u = false) (hfrom : s.armFrom ta = (a, late)) (tag n : Nat) :
    s.tiuArmWith u ta tag n = (s.fonIf late F.tiuStat_ARM_LATE u).tiuInput u ⟨a, s.tickNo, tag, .arm n ta⟩ := by
  unfold State.tiuArmWith
  rw [if_neg (ne_true_of_eq_false hon), hfrom]

theorem State.tiuTake_arm (s : State) (hask : x.ask = .arm n ta) : s.tiuTake u x = s.tiuSetArm u x n ta := by
  unfold State.tiuTake
  rw [hask]

theorem State.fonIf_sameBesideRegs (s : State) (b : Bool) (f : Fld) (i : Nat) : s.sameBesideRegs (s.fonIf b f i) := by
  cases b
  · rfl
  · exact s.fon_sameBesideRegs ..

/-- What a unit judges by does not lie in the registers in which it shows things. -/
theorem UnitView.fonIf (s : State) (b : Bool) {f : Fld} (i : Nat) (h : f.reg ∈ unitShown) : UnitView s (s.fonIf b f i) u := by
  have hwork := s.fonIf_work (w := i) b h
  have hset {r : Reg} (hr : r ∈ unitSet) : r.info.blk = .tiu ∧ r ∉ unitShown := by revert r; decide
  exact .of_regs (s.fonIf_sameBesideRegs ..) fun c hc => hwork.regs c (hset hc).1 fun _ => (hset hc).2

/-- An arm that is taken at once finds the units as they were; ARM_LATE may show. -/
theorem State.tiuArmWith_takes (hon : s.armIgnored u = false) (hfrom : s.armFrom ta = (a, late)) (h : TakesNow s u a s.tickNo) (hpast : a ≤ s.nowI)
    (tag n : Nat) : ∃ t, (s.fonIf late F.tiuStat_ARM_LATE u).sameBesideTiu t ∧ (∀ v, t.getTiu v = s.getTiu v) ∧ UnitView s t u ∧
      TakesNow t u a s.tickNo ∧ (((t.tiuSetArm u ⟨a, s.tickNo, tag, .arm n ta⟩ n ta).getTiu u).ins = [] →
        s.tiuArmWith u ta tag n = t.tiuSetArm u ⟨a, s.tickNo, tag, .arm n ta⟩ n ta) := by
  have hview : UnitView s (s.fonIf late F.tiuStat_ARM_LATE u) u := .fonIf s _ u (by decide)
  have hsame (v : Nat) : (s.fonIf late F.tiuStat_ARM_LATE u).getTiu v = s.getTiu v :=
    State.getTiu_of_tiu (s.fonIf_sameBesideRegs ..).tiu_eq v
  rw [State.tiuArmWith_input hon hfrom]
  obtain ⟨t, hbeside, hunits, htakes, hdone⟩ := State.tiuInput_takes (x := ⟨a, s.tickNo, tag, .arm n ta⟩)
    (h.of_view hview (fun v => by rw [hsame]) (by rw [hsame]; exact h.ins)) (fun _ _ _ => by rw [hview.nowI]; exact hpast)
  rw [State.tiuTake_arm t rfl] at hdone
  exact ⟨t, hbeside, fun v => (hunits v).trans (hsame v), hview.trans (.of_same hbeside hunits), htakes, hdone⟩

/-- A unit without an arm that has seen nothing from the arm's instant on is armed. -/
theorem State.tiuArmWith_arms (hon : s.armIgnored u = false) (hfrom : s.armFrom ta = (a, late)) (h : TakesNow s u a s.tickNo) (hpast : a ≤ s.nowI)
    (hn : n ≠ 0) (harm : (s.getTiu u).arm = none) (hmissed : ∀ y ∈ (s.getTiu u).missed, y.ts < a)
    (hedges : ∀ e ∈ (s.getTiu u).edges, s.stampOf u e.2.1 e.2.2 < a) :
    (s.fonIf late F.tiuStat_ARM_LATE u).unitBecomes (s.tiuArmWith u ta tag n) u ((s.getTiu u).armed ⟨a, n, tag, s.tmoFrom u ta⟩) := by
  obtain ⟨t, hbeside, hunits, hview, htakes, hdone⟩ := State.tiuArmWith_takes hon hfrom h hpast tag n
  have hsame (v : Nat) : (s.fonIf late F.tiuStat_ARM_LATE u).getTiu v = s.getTiu v :=
    State.getTiu_of_tiu (s.fonIf_sameBesideRegs ..).tiu_eq v
  have harmed := State.tiuSetArm_arms (s := t) (x := ⟨a, s.tickNo, tag, .arm n ta⟩) (ta := ta) htakes hn (by rw [hunits, harm])
    (by rw [hunits]; exact hmissed) (by rw [hunits]; exact fun e he => by rw [hview.stampOf]; exact hedges e he)
  rw [harmed, hunits, hview.tmoFrom] at hdone
  rw [hdone (by rw [State.getTiu_setTiu_same]; exact h.ins)]
  exact State.unitBecomes_setTiu hbeside (fun v => (hunits v).trans (hsame v).symm) u _

/-- An arm for no records ends the arm of a unit that has one. -/
theorem State.tiuArmWith_disarms (hon : s.armIgnored u = false) (hfrom : s.armFrom ta = (a, late)) (h : TakesNow s u a s.tickNo)
    (hpast : a ≤ s.nowI) : (s.fonIf late F.tiuStat_ARM_LATE u).unitBecomes (s.tiuArmWith u ta tag 0) u
      (if (s.getTiu u).arm.isSome then (s.getTiu u).unarmed else s.getTiu u) := by
  obtain ⟨t, hbeside, hunits, hview, htakes, hdone⟩ := State.tiuArmWith_takes hon hfrom h hpast tag 0
  have hsame (v : Nat) : (s.fonIf late F.tiuStat_ARM_LATE u).getTiu v = s.getTiu v :=
    State.getTiu_of_tiu (s.fonIf_sameBesideRegs ..).tiu_eq v
  rw [State.tiuSetArm_disarms (x := ⟨a, s.tickNo, tag, .arm 0 ta⟩) htakes, hunits] at hdone
  split at hdone
  next harm =>
    rw [if_pos harm, hdone (by rw [State.getTiu_setTiu_same]; exact h.ins)]
    exact State.unitBecomes_setTiu hbeside (fun v => (hunits v).trans (hsame v).symm) u _
  next harm =>
    rw [if_neg harm, hdone (by rw [hunits, h.ins])]
    exact ⟨hbeside, hunits u, fun w _ => (hunits w).trans (hsame w).symm⟩

/-- An arm whose instant is still to come waits for it. -/
theorem State.tiuArmWith_waits (hon : s.armIgnored u = false) (h : s.nowI < ta) (hins : (s.getTiu u).ins = []) :
    s.tiuArmWith u ta tag n = s.setTiu u ((s.getTiu u).withIns [⟨ta, s.tickNo, tag, .arm n ta⟩]) := by
  rw [State.tiuArmWith_input hon (State.armFrom_recent (h.le.trans (Nat.le_add_right _ _)))]
  exact State.tiuInput_waits hins rfl h

end Arms

end Sys2Proof.Machine
end

section
/-! PROOFS. Writes of TIU_ARM and TIU_CTL, the FIFO and the readout queue of a unit: what O19 says of each command (R114 to R116, R127,
R143). -/

namespace Sys2Proof.Machine

theorem tiuMapped : ∀ r ∈ [Reg.tiuCtl, .tiuArm, .tiuRes], ∀ u : Fin 96, RegKey.mapped ⟨r, u.val, 0, 0⟩ := by
  unfold RegKey.mapped
  decide +kernel

/-! ### Writes of TIU_ARM (R115, R116) -/

section Writes
variable {s t : State} {u v : Nat}

/-- A field that a write may write holds what is written in range. -/
theorem State.bits_store {r : Reg} {f : FldDef} (hw : r.info.words = 1) (hf : f ∈ r.info.flds) (hrw : f.acc = .rw)
    (hok : f.rng.ok (bits v f.hi f.lo) = true) : bits ((s.store ⟨r, u, 0, 0⟩ v).rget ⟨r, u, 0, 0⟩) f.hi f.lo = bits v f.hi f.lo := by
  rw [State.rget_store_self (k := ⟨r, u, 0, 0⟩) hw, fieldsWrite_field _ _ _ hf, FldDef.written, hrw]
  exact if_pos hok

/-- A field that is written with what it holds stands. -/
theorem State.bits_store_held {r : Reg} {f : FldDef} (hw : r.info.words = 1) (hf : f ∈ r.info.flds) (hrw : f.acc = .rw)
    (hv : bits v f.hi f.lo = bits (s.rget ⟨r, u, 0, 0⟩) f.hi f.lo) :
    bits ((s.store ⟨r, u, 0, 0⟩ v).rget ⟨r, u, 0, 0⟩) f.hi f.lo = bits (s.rget ⟨r, u, 0, 0⟩) f.hi f.lo := by
  rw [State.rget_store_self (k := ⟨r, u, 0, 0⟩) hw, fieldsWrite_field _ _ _ hf, FldDef.written, hrw]
  dsimp only
  rw [hv]
  exact ite_self _

/-- A write of TIU_ARM stores its COUNT, and a unit judges as before. -/
theorem State.storeArm_effect (s : State) (q : Requester) (u v : Nat) :
    let t := (s.wroteBy q ⟨.tiuArm, u, 0, 0⟩).store ⟨.tiuArm, u, 0, 0⟩ v
    s.sameBesideRegs t ∧ UnitView s t u ∧ s.regsWithin t [.tiu] ∧ t.fget F.tiuArm_COUNT u = bits v 23 0 := by
  intro t
  have hbeside : s.sameBesideRegs t := (s.wroteBy_sameBesideRegs ..).trans (State.store_sameBesideRegs ..)
  have hany : ∀ f ∈ Reg.tiuArm.info.flds, f.rng = .any := by decide
  have hstore : t = (s.wroteBy q ⟨.tiuArm, u, 0, 0⟩).rset ⟨.tiuArm, u, 0, 0⟩ _ := State.store_inRange fun f hf => by rw [hany f hf]; rfl
  have hother (c : RegKey) (hc : c ≠ ⟨.tiuArm, u, 0, 0⟩) : t.rget c = s.rget c := by rw [hstore, State.rget_rset_other _ _ _ _ hc]; rfl
  refine ⟨hbeside, .of_regs hbeside fun c hc => hother c fun e => ?_, fun c hc => hother c fun e => hc (e ▸ List.mem_singleton_self _), ?_⟩
  · exact absurd (show Reg.tiuArm ∈ unitSet by rw [e] at hc; exact hc) (by decide)
  · exact State.bits_store (r := .tiuArm) (f := ⟨23, 0, .rw, 1, .any⟩) rfl (by decide) rfl rfl

theorem State.wrTiuArm_arms (h31 : bit v 31 = true) (h30 : bit v 30 = false) :
    s.wrTiuArm u v = (s.store ⟨.tiuArm, u, 0, 0⟩ v).tiuArmWith u (s.store ⟨.tiuArm, u, 0, 0⟩ v).nowI 0
      ((s.store ⟨.tiuArm, u, 0, 0⟩ v).fget F.tiuArm_COUNT u) := by
  simp [State.wrTiuArm, h31, h30]

theorem State.wrTiuArm_disarms (h31 : bit v 31 = false) (h30 : bit v 30 = true) :
    s.wrTiuArm u v = (s.store ⟨.tiuArm, u, 0, 0⟩ v).tiuArmWith u (s.store ⟨.tiuArm, u, 0, 0⟩ v).nowI 0 0 := by
  simp [State.wrTiuArm, State.tiuDisarmWith, h31, h30]

theorem State.wrTiuArm_refuses (h31 : bit v 31 = true) (h30 : bit v 30 = true) :
    s.wrTiuArm u v = (s.store ⟨.tiuArm, u, 0, 0⟩ v).fon F.tiuStat_WR_ERR u := by
  simp [State.wrTiuArm, h31, h30, State.wrErr, Reg.info]

/-- A write of TIU_ARM by one of its fields reaches it. -/
theorem busFld_tiuArm {q : Port} {u : Fin 96} {f : Fld} (data : BitVec 32) (x : Nat) (hs : s.writable q.req .tiuArm = true) (hf : f.reg = .tiuArm)
    (hb : f.lo ≤ f.hi ∧ f.hi < 32) :
    s.busFld q.req f data.toNat x u.val = (s.wroteBy q.req ⟨.tiuArm, u.val, 0, 0⟩).wrTiuArm u.val (setBits data.toNat f.hi f.lo x) := by
  rw [State.busFld, hf]
  exact State.busTo_first hs (tiuMapped _ (by decide) u) rfl (setBits_lt hb.1 hb.2 data.isLt)

/-! ### Writes of TIU_CTL (R116, R136) -/

/-- MODE, CONT and EDGES lie side by side. -/
theorem bits_mode_cont_edges (v : Nat) : bits v 5 0 = bits v 2 0 + 8 * (bits v 3 3 + 2 * bits v 5 4) ∧ bits v 5 3 = bits v 3 3 + 2 * bits v 5 4 := by
  simp only [bits]
  omega

theorem State.tiuCtl_mode (h : bits v 2 0 ≤ 4) : ((s.store ⟨.tiuCtl, u, 0, 0⟩ v).fget F.tiuCtl_MODE u) = bits v 2 0 :=
  State.bits_store (r := .tiuCtl) (f := ⟨2, 0, .rw, 0, .span 0 4⟩) rfl (by decide) rfl (by simpa [Rng.ok] using h)

theorem State.tiuCtl_edges (h : bits v 5 4 ≤ 2) : ((s.store ⟨.tiuCtl, u, 0, 0⟩ v).fget F.tiuCtl_EDGES u) = bits v 5 4 :=
  State.bits_store (r := .tiuCtl) (f := ⟨5, 4, .rw, 0, .span 0 2⟩) rfl (by decide) rfl (by simpa [Rng.ok] using h)

theorem State.tiuCtl_cont : bits ((s.store ⟨.tiuCtl, u, 0, 0⟩ v).rget ⟨.tiuCtl, u, 0, 0⟩) 3 3 = bits v 3 3 :=
  State.bits_store (r := .tiuCtl) (f := ⟨3, 3, .rw, 0, .any⟩) rfl (by decide) rfl rfl

theorem State.storeCtl_regs (hm : bits v 2 0 ≤ 4) (he : bits v 5 4 ≤ 2) (s : State) (u : Nat) :
    ∃ x, s.store ⟨.tiuCtl, u, 0, 0⟩ v = s.rset ⟨.tiuCtl, u, 0, 0⟩ x := by
  refine ⟨_, State.store_inRange fun f hf => ?_⟩
  revert f
  simp [Reg.info, Rng.ok, hm, he]

/-- A change of MODE, CONT or EDGES ends the arm and what waits (R116). -/
theorem State.wrTiuCtl_changes (hmon : ¬ (u < 32 ∧ bits v 2 0 = 4)) (hm : bits v 2 0 ≤ 4) (he : bits v 5 4 ≤ 2)
    (hne : bits v 5 0 ≠ bits (s.rget ⟨.tiuCtl, u, 0, 0⟩) 5 0) :
    s.wrTiuCtl u v = (s.store ⟨.tiuCtl, u, 0, 0⟩ v).tiuModeChanged u (bits (s.rget ⟨.tiuCtl, u, 0, 0⟩) 2 0) := by
  have hheld : (decide (u < 32) && decide (bits v 2 0 = 4)) = false := by simpa using hmon
  have hstore : s.storeHeld ⟨.tiuCtl, u, 0, 0⟩ v false [F.tiuCtl_MODE] = s.store ⟨.tiuCtl, u, 0, 0⟩ v := rfl
  unfold State.wrTiuCtl
  dsimp only
  rw [hheld, hstore]
  refine if_neg fun h => hne ?_
  obtain ⟨h53, h20⟩ := h
  have hmode : bits ((s.store ⟨.tiuCtl, u, 0, 0⟩ v).rget ⟨.tiuCtl, u, 0, 0⟩) 2 0 = bits v 2 0 := State.tiuCtl_mode hm
  have hedges : bits ((s.store ⟨.tiuCtl, u, 0, 0⟩ v).rget ⟨.tiuCtl, u, 0, 0⟩) 5 4 = bits v 5 4 := State.tiuCtl_edges he
  rw [(bits_mode_cont_edges v).1, (bits_mode_cont_edges (s.rget _)).1, ← (bits_mode_cont_edges (s.rget _)).2, h53, h20,
    (bits_mode_cont_edges (State.rget _ _)).2, hmode, hedges, State.tiuCtl_cont]

/-- An input unit takes no MONITOR (R136): MODE stands, and the attempt shows. -/
theorem State.wrTiuCtl_refuses (hu : u < 32) (hm : bits v 2 0 = 4) (hmode : s.fget F.tiuCtl_MODE u ≠ 4) :
    (s.wrTiuCtl u v).fget F.tiuCtl_MODE u = s.fget F.tiuCtl_MODE u ∧ (s.wrTiuCtl u v).fbit F.tiuStat_WR_ERR u = true := by
  let v1 := setBits v 2 0 (s.fget F.tiuCtl_MODE u)
  have hheld : s.storeHeld ⟨.tiuCtl, u, 0, 0⟩ v (decide (u < 32) && decide (bits v 2 0 = 4)) [F.tiuCtl_MODE] =
      (s.store ⟨.tiuCtl, u, 0, 0⟩ v1).fon F.tiuStat_WR_ERR u := by
    have hold : holdFields (s.rget ⟨.tiuCtl, u, 0, 0⟩) [F.tiuCtl_MODE] v = (v1, true) :=
      congrArg (v1, ·) (decide_eq_true fun e => hmode (e.symm.trans hm))
    rw [State.storeHeld, decide_eq_true hu, decide_eq_true hm]
    rw [if_pos (Bool.and_self true), hold]
    rfl
  have hstands : (s.store ⟨.tiuCtl, u, 0, 0⟩ v1).fget F.tiuCtl_MODE u = s.fget F.tiuCtl_MODE u :=
    State.bits_store_held (r := .tiuCtl) (f := ⟨2, 0, .rw, 0, .span 0 4⟩) rfl (by decide) rfl
      ((bits_setBits_same _ _ _ _ (by decide)).trans (Nat.mod_mod _ _))
  have hregs : (s.wrTiuCtl u v).regs = ((s.store ⟨.tiuCtl, u, 0, 0⟩ v1).fon F.tiuStat_WR_ERR u).regs := by
    rw [← hheld]
    unfold State.wrTiuCtl
    dsimp only
    split <;> rfl
  exact ⟨((State.fget_of_rget (State.rget_of_regs hregs _)).trans (State.fget_fon_register (by decide))).trans hstands,
    (State.fbit_of_rget (State.rget_of_regs hregs _)).trans (State.fbit_fon_same _ _ _ _ _ rfl)⟩

end Writes

/-! ### The FIFO and the readout queue (R127, R132, R143, R148) -/

section Drain
variable {s : State} {u : Nat} {r : Rec}

/-- An offer to Tally touches Tally and its registers. -/
theorem State.offerTally_frame (s : State) (r : Rec) : (s.offerTally r).tiu = s.tiu ∧ s.regsWithin (s.offerTally r) [.tal] := by
  unfold State.offerTally
  dsimp only
  split_ifs
  · exact ⟨rfl, .refl _ _⟩
  · exact ⟨rfl, (State.rset_within (by decide)).trans (State.rset_within (by decide))⟩
  · exact ⟨rfl, fun c hc => State.rset_within (s := s) (k := ⟨.talCntIn, 0, 0, 0⟩) (bs := [.tal]) (by decide) c hc⟩

theorem State.offerTally_off (h : s.fbit F.talCtl_EN = false) : s.offerTally r = s := by simp [State.offerTally, h]

/-- While Tally is ACTIVE and has a ring, the record is offered and counted. -/
theorem State.offerTally_offers (ha : s.talActive = true) (hs : s.fget F.talSize_SIZE ≠ 0) :
    (s.offerTally r).tal = { s.tal with offers := s.tal.offers ++ [⟨r, s.tickNo⟩] } ∧
      (s.offerTally r).rget ⟨.talCntIn, 0, 0, 0⟩ = (s.rget ⟨.talCntIn, 0, 0, 0⟩ + 1) % 2 ^ 64 := by
  have hen : s.fbit F.talCtl_EN = true := by
    simp only [State.talActive, Bool.and_eq_true] at ha
    exact ha.1.1
  have hbit {f : Fld} (hf : f.reg ≠ .talCntIn) : (s.cnt64 .talCntIn 1).fbit f = s.fbit f := State.fbit_of_rget (State.rget_cnt64_register hf)
  have hactive : (s.cnt64 .talCntIn 1).talActive = true := by
    rw [← ha]
    simp (disch := decide) only [State.talActive, hbit]
  have hsize : (s.cnt64 .talCntIn 1).fget F.talSize_SIZE = s.fget F.talSize_SIZE := State.fget_of_rget (State.rget_cnt64_register (by decide))
  have hoffer : s.offerTally r = (s.cnt64 .talCntIn 1).setTal { s.tal with offers := s.tal.offers ++ [⟨r, s.tickNo⟩] } := by
    unfold State.offerTally
    dsimp only
    rw [hen, hactive, hsize]
    exact (if_neg (by decide)).trans (if_neg (by simpa using hs))
  rw [hoffer]
  exact ⟨rfl, s.rget_cnt64_same ..⟩

/-- The head of a FIFO has left it; the next may leave at a half tick from here on. -/
def Tiu.drained (c : Tiu) (rest : List FifoRec) (next : Nat) : Tiu := { c with fifo := rest, nextDrain := next }

/-- A record that leaves a FIFO is copied to the readout queue where RDQ says so. -/
def State.drainCopy (s : State) (u : Nat) (r : Rec) : State := if s.fbit F.tiuCtl_RDQ u then s.rdqPut u r else s

/-- A record that leaves a FIFO goes to Tally where the unit, or the channel that it verified, says so. -/
def State.drainTally (s : State) (u : Nat) (r : FifoRec) : Bool :=
  match r.eo with
  | some n => s.fbit F.eoCtl_TALLY n
  | none => s.fbit F.tiuCtl_TALLY u

theorem State.drainCopy_skips (h : s.fbit F.tiuCtl_RDQ u = false) : s.drainCopy u r = s := if_neg (ne_true_of_eq_false h)

theorem State.drainCopy_puts (h : s.fbit F.tiuCtl_RDQ u = true) (hroom : (s.getTiu u).rdq.length < 16) :
    s.drainCopy u r = s.setTiu u { s.getTiu u with rdq := (s.getTiu u).rdq ++ [r] } := (if_pos h).trans (if_neg (not_le.mpr hroom))

theorem State.drainCopy_loses (h : s.fbit F.tiuCtl_RDQ u = true) (hfull : 16 ≤ (s.getTiu u).rdq.length) :
    s.drainCopy u r = (s.cnt .tiuCntRdq u).fon F.tiuStat_RDQ_OVF u := (if_pos h).trans (if_pos hfull)

/-- What the copy leaves alone. -/
theorem State.drainCopy_frame (s : State) (u : Nat) (r : Rec) : UnitWork s (s.drainCopy u r) u ∧ s.regsWithin (s.drainCopy u r) [.tiu] ∧
    (s.drainCopy u r).tal = s.tal ∧ ∃ l, (s.drainCopy u r).getTiu u = { s.getTiu u with rdq := l } := by
  cases h : s.fbit F.tiuCtl_RDQ u with
  | false =>
    rw [State.drainCopy_skips h]
    exact ⟨.refl s u, .refl _ _, rfl, _, rfl⟩
  | true =>
    rcases Nat.lt_or_ge (s.getTiu u).rdq.length 16 with hroom | hfull
    · rw [State.drainCopy_puts h hroom]
      exact ⟨s.setTiu_work .., fun _ _ => rfl, rfl, _, State.getTiu_setTiu_same ..⟩
    · rw [State.drainCopy_loses h hfull]
      exact ⟨(s.cnt_work (by decide)).trans (State.fon_work _ (by decide)), (State.cntAdd_within (by decide)).trans (State.fon_within (by decide)),
        rfl, _, rfl⟩

/-- The head of a FIFO leaves it, no sooner than it may. -/
theorem State.tiuDrain_drains {f : FifoRec} {rest : List FifoRec} (h : (s.getTiu u).fifo = f :: rest)
    (hdue : (s.getTiu u).nextDrain ≤ 2 * s.tickNo) : ∃ next, (s.getTiu u).nextDrain + 25 ≤ next ∧
      s.tiuDrain u = if s.drainTally u f then ((s.setTiu u ((s.getTiu u).drained rest next)).drainCopy u f.rcd).offerTally f.rcd
        else (s.setTiu u ((s.getTiu u).drained rest next)).drainCopy u f.rcd := by
  refine ⟨(if 2 * s.tickNo < (s.getTiu u).nextDrain + 2 then (s.getTiu u).nextDrain else 2 * s.tickNo) + 25, ?_, ?_⟩
  · split <;> omega
  · unfold State.tiuDrain
    dsimp only
    rw [h]
    exact if_neg (not_lt.mpr hdue)

end Drain

/-! ### Reads of TIU_RES (R143) -/

section Res
variable {s : State} {q : Port} {u : Fin 96}

theorem exec_tiuResRead (hs : s.readable q.req .tiuRes = true) :
    exec (.tiuResRead q u) s = .next (((s.rdqPop u.val).2.latchSet q.req ⟨.tiuRes, u.val, 0, 0⟩ ((s.rdqPop u.val).1 / 2 ^ 32)).setResp
      { data := (s.rdqPop u.val).1 % 2 ^ 32 }) := by
  obtain ⟨hreg, hblk⟩ := tiuMapped .tiuRes (by decide) u 0 (show 0 < Reg.tiuRes.info.words by decide)
  have hread := State.busRead_register (key := ⟨.tiuRes, u.val, 0, 0⟩) hs hblk hreg
  rw [State.wordRead_lowest (key := ⟨.tiuRes, u.val, 0, 0⟩) nofun nofun] at hread
  exact congrArg Host.Outcome.next hread

end Res

end Sys2Proof.Machine
end

section
/-! PROOFS. The commands of a unit's arms and readout (R114 to R116, R122, R127, R143). -/

namespace Sys2Proof.Machine

section Commands
variable {s t : State} {u v : Nat}

theorem State.groupTaken_beside (s : State) (x : Nat) : s.sameBesideDw (s.groupTaken x) := rfl

theorem State.sameBesideDw.tiu_eq (h : s.sameBesideDw t) : t.tiu = s.tiu := (congrArg State.tiu h :)

theorem State.getTiu_groupTaken (s : State) (x v : Nat) : (s.groupTaken x).getTiu v = s.getTiu v :=
  State.getTiu_of_tiu (s.groupTaken_beside x).tiu_eq v

theorem State.fonIf_false (s : State) (f : Fld) (i : Nat) : s.fonIf false f i = s := rfl

/-- A unit without an arm, or one whose arm is ended, has none and waits for nothing. -/
theorem Tiu.unarmed_waits (c : Tiu) (h : c.arm = none → c.half = none ∧ c.gate = none) :
    let d := if c.arm.isSome then c.unarmed else c
    d.arm = none ∧ d.half = none ∧ d.gate = none ∧ d.fifo = c.fifo := by
  intro d
  cases harm : c.arm with
  | some a =>
    have hd : d = c.unarmed := if_pos (by rw [harm]; rfl)
    rw [hd]
    exact ⟨rfl, rfl, rfl, rfl⟩
  | none =>
    have hd : d = c := if_neg (by simp [harm])
    obtain ⟨hhalf, hgate⟩ := h harm
    rw [hd]
    exact ⟨harm, hhalf, hgate, rfl⟩

/-- A unit judges an arm of a write as before the write. -/
theorem TakesNow.storeArm {q : Requester} {ts : Instant} {tick : Nat} (h : TakesNow s u ts tick) :
    TakesNow ((s.wroteBy q ⟨.tiuArm, u, 0, 0⟩).store ⟨.tiuArm, u, 0, 0⟩ v) u ts tick := by
  obtain ⟨hbeside, hview, -, -⟩ := s.storeArm_effect q u v
  exact h.of_view hview (fun w => by rw [State.getTiu_of_tiu hbeside.tiu_eq]) (by rw [State.getTiu_of_tiu hbeside.tiu_eq, h.ins])

theorem TakesNow.groupTaken {ts : Instant} {tick x : Nat} (h : TakesNow s u ts tick) : TakesNow (s.groupTaken x) u ts tick :=
  h.of_view (.of_dw (s.groupTaken_beside x)) (fun v => by rw [State.getTiu_groupTaken]) (by rw [State.getTiu_groupTaken, h.ins])

/-- A write of ARM for records arms a unit that has no arm. -/
theorem State.wrTiuArm_armed (q : Requester) (hon : s.armIgnored u = false) (h : TakesNow s u s.nowI s.tickNo) (harm : (s.getTiu u).arm = none)
    (hmissed : ∀ y ∈ (s.getTiu u).missed, y.ts < s.nowI) (hedges : ∀ e ∈ (s.getTiu u).edges, s.stampOf u e.2.1 e.2.2 < s.nowI)
    (h31 : bit v 31 = true) (h30 : bit v 30 = false) (hn : bits v 23 0 ≠ 0) :
    let t := (s.wroteBy q ⟨.tiuArm, u, 0, 0⟩).wrTiuArm u v
    (t.getTiu u).arm = some ⟨s.nowI, bits v 23 0, 0, s.tmoFrom u s.nowI⟩ ∧ t.fget F.tiuArm_COUNT u = bits v 23 0 ∧
      (∀ w, w ≠ u → t.getTiu w = s.getTiu w) ∧ s.regsWithin t [.tiu] := by
  intro t
  obtain ⟨hbeside, hview, hwithin, hcount⟩ := s.storeArm_effect q u v
  have ht : t = _ := State.wrTiuArm_arms h31 h30
  rw [hcount, hview.nowI] at ht
  have htakes := h.storeArm (q := q) (v := v)
  generalize (s.wroteBy q ⟨.tiuArm, u, 0, 0⟩).store ⟨.tiuArm, u, 0, 0⟩ v = st at *
  have hunit (w : Nat) : st.getTiu w = s.getTiu w := State.getTiu_of_tiu hbeside.tiu_eq w
  have hfrom : st.armFrom s.nowI = (s.nowI, false) := by rw [hview.armFrom, State.armFrom_now]
  have harmed := State.tiuArmWith_arms (tag := 0) (hview.ignored.trans hon) hfrom (by rw [hview.tickNo]; exact htakes) hview.nowI.ge hn
    (by rw [hunit, harm]) (by rw [hunit]; exact hmissed) (by rw [hunit]; exact fun e he => by rw [hview.stampOf]; exact hedges e he)
  rw [State.fonIf_false] at harmed
  obtain ⟨hrest, hown, hothers⟩ := harmed
  rw [hview.tmoFrom] at hown
  rw [ht]
  have hregs (c : RegKey) := State.rget_of_regs hrest.regs c
  exact ⟨congrArg Tiu.arm hown, (State.fget_of_rget (hregs _)).trans hcount, fun w hw => (hothers w hw).trans (hunit w),
    fun c hc => (hregs c).trans (hwithin c hc)⟩

/-- A write of ARM for no records leaves a unit without an arm alone. -/
theorem State.wrTiuArm_none (q : Requester) (hon : s.armIgnored u = false) (h : TakesNow s u s.nowI s.tickNo) (harm : (s.getTiu u).arm = none)
    (h31 : bit v 31 = true) (h30 : bit v 30 = false) (hn : bits v 23 0 = 0) (w : Nat) :
    ((s.wroteBy q ⟨.tiuArm, u, 0, 0⟩).wrTiuArm u v).getTiu w = s.getTiu w := by
  obtain ⟨hbeside, hview, -, hcount⟩ := s.storeArm_effect q u v
  have htakes := h.storeArm (q := q) (v := v)
  rw [State.wrTiuArm_arms h31 h30, hcount, hn, hview.nowI]
  generalize (s.wroteBy q ⟨.tiuArm, u, 0, 0⟩).store ⟨.tiuArm, u, 0, 0⟩ v = st at *
  have hunit (w : Nat) : st.getTiu w = s.getTiu w := State.getTiu_of_tiu hbeside.tiu_eq w
  have hfrom : st.armFrom s.nowI = (s.nowI, false) := by rw [hview.armFrom, State.armFrom_now]
  have hends := State.tiuArmWith_disarms (tag := 0) (hview.ignored.trans hon) hfrom (by rw [hview.tickNo]; exact htakes) hview.nowI.ge
  rw [State.fonIf_false] at hends
  obtain ⟨-, hown, hothers⟩ := hends
  rw [hunit, harm] at hown
  by_cases hw : w = u
  · rw [hw, hown]
    exact if_neg (by decide)
  · exact (hothers w hw).trans (hunit w)

/-- A write of DISARM ends the arm, and what waits goes. -/
theorem State.wrTiuArm_disarmed (q : Requester) (hon : s.armIgnored u = false) (h : TakesNow s u s.nowI s.tickNo)
    (hidle : (s.getTiu u).arm = none → (s.getTiu u).half = none ∧ (s.getTiu u).gate = none) (h31 : bit v 31 = false) (h30 : bit v 30 = true) :
    let t := (s.wroteBy q ⟨.tiuArm, u, 0, 0⟩).wrTiuArm u v
    (t.getTiu u).arm = none ∧ (t.getTiu u).half = none ∧ (t.getTiu u).gate = none ∧ (t.getTiu u).fifo = (s.getTiu u).fifo ∧
      (∀ w, w ≠ u → t.getTiu w = s.getTiu w) ∧ s.regsWithin t [.tiu] := by
  obtain ⟨hbeside, hview, hwithin, -⟩ := s.storeArm_effect q u v
  have htakes := h.storeArm (q := q) (v := v)
  rw [State.wrTiuArm_disarms h31 h30, hview.nowI]
  generalize (s.wroteBy q ⟨.tiuArm, u, 0, 0⟩).store ⟨.tiuArm, u, 0, 0⟩ v = st at *
  have hunit (w : Nat) : st.getTiu w = s.getTiu w := State.getTiu_of_tiu hbeside.tiu_eq w
  have hfrom : st.armFrom s.nowI = (s.nowI, false) := by rw [hview.armFrom, State.armFrom_now]
  have hends := State.tiuArmWith_disarms (tag := 0) (hview.ignored.trans hon) hfrom (by rw [hview.tickNo]; exact htakes) hview.nowI.ge
  rw [State.fonIf_false] at hends
  obtain ⟨hrest, hown, hothers⟩ := hends
  obtain ⟨harm, hhalf, hgate, hfifo⟩ := (s.getTiu u).unarmed_waits hidle
  rw [hunit] at hown
  intro t
  rw [hown]
  exact ⟨harm, hhalf, hgate, hfifo, fun w hw => (hothers w hw).trans (hunit w), fun c hc => (State.rget_of_regs hrest.regs c).trans (hwithin c hc)⟩

/-- A change of MODE, CONT or EDGES ends the arm and what waits, and stores the three. -/
theorem State.wrTiuCtl_changed (q : Requester) (hmon : ¬ (u < 32 ∧ bits v 2 0 = 4)) (hm : bits v 2 0 ≤ 4) (he : bits v 5 4 ≤ 2)
    (hne : bits v 5 0 ≠ bits (s.rget ⟨.tiuCtl, u, 0, 0⟩) 5 0) :
    let t := (s.wroteBy q ⟨.tiuCtl, u, 0, 0⟩).wrTiuCtl u v
    ((t.getTiu u).arm = none ∧ (t.getTiu u).half = none ∧ (t.getTiu u).gate = none ∧ (t.getTiu u).fifo = (s.getTiu u).fifo ∧
      (∀ w, w ≠ u → t.getTiu w = s.getTiu w) ∧ s.regsWithin t [.tiu]) ∧
      t.fget F.tiuCtl_MODE u = bits v 2 0 ∧ t.fbit F.tiuCtl_CONT u = bit v 3 ∧ t.fget F.tiuCtl_EDGES u = bits v 5 4 := by
  obtain ⟨x, hx⟩ := State.storeCtl_regs hm he (s.wroteBy q ⟨.tiuCtl, u, 0, 0⟩) u
  have hmode := State.tiuCtl_mode (s := s.wroteBy q ⟨.tiuCtl, u, 0, 0⟩) (u := u) hm
  have hedges := State.tiuCtl_edges (s := s.wroteBy q ⟨.tiuCtl, u, 0, 0⟩) (u := u) he
  have hcont : ((s.wroteBy q ⟨.tiuCtl, u, 0, 0⟩).store ⟨.tiuCtl, u, 0, 0⟩ v).fbit F.tiuCtl_CONT u = bit v 3 := by
    rw [State.fbit, bit_eq_bits, bit_eq_bits]
    exact congrArg (fun y => decide (y = 1)) State.tiuCtl_cont
  have hbeside : s.sameBesideRegs ((s.wroteBy q ⟨.tiuCtl, u, 0, 0⟩).store ⟨.tiuCtl, u, 0, 0⟩ v) :=
    (s.wroteBy_sameBesideRegs ..).trans (State.store_sameBesideRegs ..)
  have hwithin : s.regsWithin ((s.wroteBy q ⟨.tiuCtl, u, 0, 0⟩).store ⟨.tiuCtl, u, 0, 0⟩ v) [.tiu] := by
    rw [hx]
    exact fun c hc => State.rset_within (s := s.wroteBy q ⟨.tiuCtl, u, 0, 0⟩) (show Blk.tiu ∈ [Blk.tiu] by decide) c hc
  intro t
  have ht : t = _ := State.wrTiuCtl_changes hmon hm he hne
  rw [ht]
  generalize (s.wroteBy q ⟨.tiuCtl, u, 0, 0⟩).store ⟨.tiuCtl, u, 0, 0⟩ v = st at *
  have hunit (w : Nat) : st.getTiu w = s.getTiu w := State.getTiu_of_tiu hbeside.tiu_eq w
  unfold State.tiuModeChanged
  dsimp only
  simp only [State.getTiu_setTiu_same, State.setTiu_fget, State.setTiu_fbit]
  exact ⟨⟨trivial, trivial, trivial, by rw [hunit], fun w hw => (State.getTiu_setTiu_other _ hw).trans (hunit w), fun c hc => hwithin c hc⟩,
    hmode, hcont, hedges⟩

end Commands
end Sys2Proof.Machine
end

section
/-! PROOFS. What O19 says of each command of a unit's arms and readout (R114 to R116, R122, R127, R143). -/

namespace Sys2Proof.Machine

section Drained
variable {s : State} {u : Nat} {f : FifoRec} {rest : List FifoRec}

/-- What one drain does to the unit, to Tally and to the registers. -/
theorem State.tiuDrain_effect (h : (s.getTiu u).fifo = f :: rest) (hdue : (s.getTiu u).nextDrain ≤ 2 * s.tickNo) :
    let c := s.getTiu u
    let t := s.tiuDrain u
    let others (t : State) : Prop := ∀ x : RegKey, x.r.info.blk ≠ .tal → t.rget x = s.rget x
    (t.getTiu u).fifo = rest ∧ c.nextDrain + 25 ≤ (t.getTiu u).nextDrain ∧
      (s.drainTally u f = true → s.talActive = true → s.fget F.talSize_SIZE ≠ 0 →
        t.tal = { s.tal with offers := s.tal.offers ++ [⟨f.rcd, s.tickNo⟩] } ∧
        t.rget ⟨.talCntIn, 0, 0, 0⟩ = (s.rget ⟨.talCntIn, 0, 0, 0⟩ + 1) % 2 ^ 64) ∧
      ((s.drainTally u f = false ∨ s.fbit F.talCtl_EN = false) → t.tal = s.tal) ∧
      (s.fbit F.tiuCtl_RDQ u = false → (t.getTiu u).rdq = c.rdq ∧ others t) ∧
      (s.fbit F.tiuCtl_RDQ u = true → c.rdq.length < 16 → (t.getTiu u).rdq = c.rdq ++ [f.rcd] ∧ others t) ∧
      (s.fbit F.tiuCtl_RDQ u = true → 16 ≤ c.rdq.length → (t.getTiu u).rdq = c.rdq ∧ t.fbit F.tiuStat_RDQ_OVF u = true) ∧
      (∀ w, w ≠ u → t.getTiu w = s.getTiu w) := by
  intro c t others
  obtain ⟨next, hnext, hdrain⟩ := State.tiuDrain_drains h hdue
  let s1 := s.setTiu u (c.drained rest next)
  let s2 := s1.drainCopy u f.rcd
  have hown1 : s1.getTiu u = c.drained rest next := State.getTiu_setTiu_same ..
  obtain ⟨hwork, hwithin, htal, l, hown⟩ := s1.drainCopy_frame u f.rcd
  rw [hown1] at hown
  have hthen : t = if s.drainTally u f then s2.offerTally f.rcd else s2 := hdrain
  have htiu (v : Nat) : t.getTiu v = s2.getTiu v := by
    rw [hthen]
    split
    · exact State.getTiu_of_tiu (s2.offerTally_frame f.rcd).1 v
    · rfl
  have hregs {x : RegKey} (hx : x.r.info.blk ≠ .tal) : t.rget x = s2.rget x := by
    rw [hthen]
    split
    · exact (s2.offerTally_frame f.rcd).2 x (by simpa using hx)
    · rfl
  have hset {x : RegKey} (hx : x.r.info.blk ≠ .tiu) : s2.rget x = s.rget x := hwithin x (by simpa using hx)
  have htick : s2.tickNo = s.tickNo := State.tickNo_of_clock hwork.clock
  have hactive : s2.talActive = s.talActive := by
    have hbit {g : Fld} (hg : g.reg.info.blk ≠ .tiu) : s2.fbit g = s.fbit g := State.fbit_of_rget (hset hg)
    simp (disch := decide) only [State.talActive, hbit]
  have hsize : s2.fget F.talSize_SIZE = s.fget F.talSize_SIZE := State.fget_of_rget (hset (by decide))
  have hrdq1 : s1.fbit F.tiuCtl_RDQ u = s.fbit F.tiuCtl_RDQ u := rfl
  have hothers (h : s2.regs = s.regs) : others t := fun x hx => (hregs hx).trans (State.rget_of_regs h x)
  refine ⟨?fifo, ?next, fun ht ha hs => ?offer, fun ht => ?none, fun hr => ?skip, fun hr hl => ?put, fun hr hl => ?lose, fun w hw => ?units⟩
  case fifo => rw [htiu, hown]; rfl
  case next => rw [htiu, hown]; exact hnext
  case offer =>
    obtain ⟨hoffers, hcount⟩ := State.offerTally_offers (r := f.rcd) (hactive.trans ha) (hsize.trans_ne hs)
    rw [hthen, if_pos ht, hoffers, hcount, htal, htick, hset (by decide)]
    exact ⟨rfl, rfl⟩
  case none =>
    cases htally : s.drainTally u f with
    | false => rw [hthen, if_neg (ne_true_of_eq_false htally)]; exact htal
    | true =>
      have hen : s2.fbit F.talCtl_EN = false :=
        (State.fbit_of_rget (hset (by decide))).trans (ht.resolve_left fun e => Bool.noConfusion (htally.symm.trans e))
      rw [hthen, State.offerTally_off hen, ite_self]
      exact htal
  case skip =>
    have hcopy : s2 = s1 := State.drainCopy_skips (hrdq1.trans hr)
    exact ⟨by rw [htiu, hcopy, hown1]; rfl, hothers (by rw [hcopy]; rfl)⟩
  case put =>
    have hcopy : s2 = _ := State.drainCopy_puts (hrdq1.trans hr) (by rw [hown1]; exact hl)
    refine ⟨?_, hothers (by rw [hcopy]; rfl)⟩
    rw [htiu, hcopy, State.getTiu_setTiu_same, hown1]
    rfl
  case lose =>
    have hcopy : s2 = _ := State.drainCopy_loses (hrdq1.trans hr) (by rw [hown1]; exact hl)
    refine ⟨?_, (State.fbit_of_rget (hregs (show Reg.tiuStat.info.blk ≠ .tal by decide))).trans (by
      rw [hcopy]
      exact State.fbit_fon_same _ F.tiuStat_RDQ_OVF u 0 0 rfl)⟩
    rw [htiu, hcopy, show ((s1.cnt .tiuCntRdq u).fon F.tiuStat_RDQ_OVF u).getTiu u = s1.getTiu u from rfl, hown1]
    rfl
  case units => exact (htiu w).trans ((hwork.units w hw).trans (State.getTiu_setTiu_other _ hw))

end Drained

section Event
variable {s : State} {u : Nat} {g : Group} {e : Stamp}

theorem State.fonIf_within {b : Bool} {f : Fld} {i : Nat} {bs : List Blk} (h : f.reg.info.blk ∈ bs) : s.regsWithin (s.fonIf b f i) bs := by
  cases b
  · exact .refl _ _
  · exact State.fon_within h

theorem State.fget_groupTaken (s : State) (x : Nat) (f : Fld) (i : Nat) : (s.groupTaken x).fget f i = s.fget f i := State.setDw_fget ..

/-- An arm event reaches its unit with the COUNT of TIU_ARM. -/
theorem State.tiuArmEvent (hu : u < 96) (hg : findGroup (Con.tiuArm u) 0 s.tickNo s.dw.inbox = some g) (hev : g.evs = [e]) :
    s.onGroup (Con.tiuArm u) (fun evs st => st.tiuArmGroup u evs) =
      (s.groupTaken (Con.tiuArm u)).tiuArmWith u e.ts e.tag (s.fget F.tiuArm_COUNT u) := by
  rw [State.onGroup_eo (by unfold Con.tiuArm; omega) hg, hev, State.tiuArmGroup, List.foldl_cons, List.foldl_nil, State.fget_groupTaken]

/-- Once a group is taken, an arm that is ended leaves the rest as it was. -/
theorem State.tiuArmWith_ends {ta : Instant} {tag x : Nat} (hon : s.armIgnored u = false) (h : TakesNow s u (s.armFrom ta).1 s.tickNo)
    (hpast : ta ≤ s.nowI) (harm : (s.getTiu u).arm ≠ none) :
    let t := (s.groupTaken x).tiuArmWith u ta tag 0
    (t.getTiu u).arm = none ∧ (t.getTiu u).half = none ∧ (t.getTiu u).gate = none ∧ (t.getTiu u).fifo = (s.getTiu u).fifo ∧
      (∀ w, w ≠ u → t.getTiu w = s.getTiu w) ∧ s.regsWithin t [.tiu] := by
  have hview : UnitView s (s.groupTaken x) u := .of_dw (s.groupTaken_beside x)
  have hregs : (s.groupTaken x).regs = s.regs := State.setDw_regs ..
  have hunit (w : Nat) := s.getTiu_groupTaken x w
  have hpast1 := State.armFrom_past hpast
  have htakes := h.groupTaken (x := x)
  generalize hfrom : s.armFrom ta = r at *
  obtain ⟨a, late⟩ := r
  generalize s.groupTaken x = st at *
  have hends := State.tiuArmWith_disarms (tag := tag) (hview.ignored.trans hon) ((hview.armFrom ta).trans hfrom) (by rw [hview.tickNo]; exact htakes)
    (by rw [hview.nowI]; exact hpast1)
  obtain ⟨hrest, hown, hothers⟩ := hends
  obtain ⟨harm1, hhalf, hgate, hfifo⟩ := (s.getTiu u).unarmed_waits fun e => absurd e harm
  rw [hunit] at hown
  intro t
  rw [hown]
  refine ⟨harm1, hhalf, hgate, hfifo, fun w hw => ?_, fun c hc => ?_⟩
  · rw [hothers w hw, State.getTiu_of_tiu (st.fonIf_sameBesideRegs ..).tiu_eq, hunit]
  · rw [State.rget_of_regs hrest.regs, State.fonIf_within (by decide) c hc, State.rget_of_regs hregs]

/-- An arm of a later instant is kept. -/
theorem State.tiuArmWith_keeps {ta : Instant} {tag n x : Nat} (hon : s.armIgnored u = false) (h : s.nowI < ta) (hins : (s.getTiu u).ins = []) :
    let t := (s.groupTaken x).tiuArmWith u ta tag n
    t.getTiu u = { s.getTiu u with ins := [⟨ta, s.tickNo, tag, .arm n ta⟩] } ∧ t.regs = s.regs ∧ t.eo = s.eo := by
  have hview : UnitView s (s.groupTaken x) u := .of_dw (s.groupTaken_beside x)
  have hunit := s.getTiu_groupTaken x u
  have hregs : (s.groupTaken x).regs = s.regs := State.setDw_regs ..
  have heo : (s.groupTaken x).eo = s.eo := State.setDw_eo ..
  generalize s.groupTaken x = st at *
  rw [State.tiuArmWith_waits (hview.ignored.trans hon) (by rw [hview.nowI]; exact h) (by rw [hunit, hins]), hview.tickNo, hunit]
  exact ⟨State.getTiu_setTiu_same .., hregs, heo⟩

/-- A late arm shows; one in time does not. -/
theorem State.tiuArmWith_event {ta a : Instant} {late : Bool} {tag n x : Nat} (hon : s.armIgnored u = false) (hfrom : s.armFrom ta = (a, late))
    (h : TakesNow s u a s.tickNo) (hpast : a ≤ s.nowI) (hn : n ≠ 0) (harm : (s.getTiu u).arm = none)
    (hmissed : ∀ y ∈ (s.getTiu u).missed, y.ts < a) (hedges : ∀ e ∈ (s.getTiu u).edges, s.stampOf u e.2.1 e.2.2 < a) :
    let t := (s.groupTaken x).tiuArmWith u ta tag n
    (t.getTiu u).arm = some ⟨a, n, tag, s.tmoFrom u ta⟩ ∧ t.regs = (s.fonIf late F.tiuStat_ARM_LATE u).regs ∧ t.eo = s.eo := by
  have hview : UnitView s (s.groupTaken x) u := .of_dw (s.groupTaken_beside x)
  have hunit := s.getTiu_groupTaken x u
  have hregs : ((s.groupTaken x).fonIf late F.tiuStat_ARM_LATE u).regs = (s.fonIf late F.tiuStat_ARM_LATE u).regs := by cases late <;> rfl
  have heo : (s.groupTaken x).eo = s.eo := State.setDw_eo ..
  have htakes := h.groupTaken (x := x)
  generalize s.groupTaken x = st at *
  obtain ⟨hrest, hown, -⟩ := State.tiuArmWith_arms (tag := tag) (hview.ignored.trans hon) ((hview.armFrom ta).trans hfrom)
    (by rw [hview.tickNo]; exact htakes) (by rw [hview.nowI]; exact hpast) hn (by rw [hunit, harm]) (by rw [hunit]; exact hmissed)
    (by rw [hunit]; exact fun e he => by rw [hview.stampOf]; exact hedges e he)
  rw [hview.tmoFrom] at hown
  exact ⟨congrArg Tiu.arm hown, hrest.regs.trans hregs, hrest.eo.trans ((st.fonIf_sameBesideRegs ..).eo_eq.trans heo)⟩

end Event

theorem emptyRec_words : emptyRec % 2 ^ 32 = 0 ∧ emptyRec / 2 ^ 32 = 0xC000 * 2 ^ 128 := by norm_num [emptyRec]

section Res
variable {s : State} {u : Nat}

theorem State.rdqPop_takes {r : Rec} {rest : List Rec} (h : (s.getTiu u).rdq = r :: rest) :
    s.rdqPop u = (r.pack, s.setTiu u { s.getTiu u with rdq := rest }) := by
  unfold State.rdqPop
  dsimp only
  rw [h]

theorem State.rdqPop_empty (h : (s.getTiu u).rdq = []) : s.rdqPop u = (emptyRec, s) := by
  unfold State.rdqPop
  dsimp only
  rw [h]

/-- A latching read that is answered leaves the units and the registers. -/
theorem State.answered_effect (s : State) (q : Requester) (k : RegKey) (v : Nat) (r : Resp) :
    ((s.latchSet q k v).setResp r).tiu = s.tiu ∧ ((s.latchSet q k v).setResp r).regs = s.regs ∧ ((s.latchSet q k v).setResp r).resp = r ∧
      ((s.latchSet q k v).setResp r).latchOf q k = v := ⟨rfl, rfl, rfl, (s.latchSet_setResp_effect ..).1⟩

end Res

/-- Settles O19: a command is an arm or disarm that the unit takes at once (`tiuArmWith_arms`, `tiuArmWith_disarms`) or keeps
(`tiuArmWith_waits`), a write of TIU_CTL (`wrTiuCtl_changes`, `wrTiuCtl_refuses`), or a record that leaves the FIFO or the queue. -/
theorem tiuArmsAndReadout : Obligations.TiuArmsAndReadout := by
  intro q u data s c now count ready unseen ends
  have htakes {ta : Instant} (h : ready ta) : TakesNow s u.val ta s.tickNo := by
    obtain ⟨hins, hfirst, htime, hshort⟩ := h
    exact ⟨hins, hfirst, htime, hshort⟩
  have hlive (hrun : s.time.run = true) (t : State) : s.live t = t := if_pos hrun
  have hset {b hi lo x : Nat} (h : lo ≤ hi) (hb : b < lo ∨ hi < b) : bit (setBits data.toNat hi lo x) b = bit data.toNat b := bit_setBits_out h hb
  have hone (b : Nat) : bit (setBits data.toNat b b 1) b = true := by rw [bit_eq_bits, bits_setBits_same _ _ _ _ le_rfl, Nat.add_sub_cancel_left]; rfl
  refine ⟨fun hon => ⟨fun hw h30 harm hready hunseen => ?arm, fun hrun g e hg hev => ?event, fun hw h31 hready hidle => ?disarm⟩,
    fun hw h31 => ?both, fun hw hm he hmon hne => ?ctl, fun hw hu hm hmode => ?monitor, fun hrun r rest hfifo hdue => ?drain, fun hr => ?res⟩
  case arm =>
    have hexec : exec (.tiuArm u (some (q, data))) s = .next ((s.wroteBy q.req ⟨.tiuArm, u.val, 0, 0⟩).wrTiuArm u.val (setBits data.toNat 31 31 1)) :=
      congrArg Host.Outcome.next (busFld_tiuArm (f := F.tiuArm_ARM) data 1 hw rfl (by decide))
    have hcount : bits (setBits data.toNat 31 31 1) 23 0 = bits data.toNat 23 0 := bits_setBits_below _ _ _ _ _ _ (by decide) (by decide)
    have h30' := (hset (x := 1) (hi := 31) (lo := 31) le_rfl (by decide)).trans h30
    obtain ⟨hmissed, hedges⟩ := hunseen
    refine ⟨fun hn => ⟨_, hexec, ?_⟩, fun hn => ⟨_, hexec, ?_⟩⟩
    · rw [← hcount]
      exact State.wrTiuArm_armed q.req hon (htakes hready) harm hmissed hedges (hone 31) h30' (by rw [hcount]; exact hn)
    · exact State.wrTiuArm_none q.req hon (htakes hready) harm (hone 31) h30' (hcount.trans hn)
  case event =>
    have hexec : exec (.tiuArm u none) s = .next ((s.groupTaken (Con.tiuArm u.val)).tiuArmWith u.val e.ts e.tag count) :=
      congrArg Host.Outcome.next ((hlive hrun _).trans (State.tiuArmEvent u.isLt hg hev))
    refine ⟨fun harm hn hlate hpast hready hunseen => ⟨_, hexec, ?_⟩, fun hfuture hins => ⟨_, hexec, ?_⟩,
      fun harm hn hlate hready hunseen => ⟨_, hexec, ?_⟩, fun harm hn hpast hready => ⟨_, hexec, ?_⟩⟩
    · obtain ⟨hmissed, hedges⟩ := hunseen
      exact State.tiuArmWith_event hon (State.armFrom_recent hlate) (htakes hready) hpast hn.ne' harm hmissed hedges
    · exact State.tiuArmWith_keeps hon hfuture hins
    · obtain ⟨hmissed, hedges⟩ := hunseen
      obtain ⟨harmed, hregs, -⟩ := State.tiuArmWith_event hon (State.armFrom_late hlate) (htakes hready) le_rfl hn.ne' harm hmissed hedges
        (x := Con.tiuArm u.val) (tag := e.tag)
      exact ⟨harmed, (State.fbit_of_rget (State.rget_of_regs hregs _)).trans (State.fbit_fon_same _ F.tiuStat_ARM_LATE u.val 0 0 rfl)⟩
    · rw [hn]
      exact State.tiuArmWith_ends hon (htakes hready) hpast harm
  case disarm =>
    have hexec : exec (.tiuDisarm q u data) s = .next ((s.wroteBy q.req ⟨.tiuArm, u.val, 0, 0⟩).wrTiuArm u.val (setBits data.toNat 30 30 1)) :=
      congrArg Host.Outcome.next (busFld_tiuArm (f := F.tiuArm_DISARM) data 1 hw rfl (by decide))
    exact ⟨_, hexec, State.wrTiuArm_disarmed q.req hon (htakes hready) hidle ((hset le_rfl (by decide)).trans h31) (hone 30)⟩
  case both =>
    have hexec : exec (.tiuDisarm q u data) s = .next ((s.wroteBy q.req ⟨.tiuArm, u.val, 0, 0⟩).wrTiuArm u.val (setBits data.toNat 30 30 1)) :=
      congrArg Host.Outcome.next (busFld_tiuArm (f := F.tiuArm_DISARM) data 1 hw rfl (by decide))
    rw [State.wrTiuArm_refuses ((hset le_rfl (by decide)).trans h31) (hone 30)] at hexec
    refine ⟨_, hexec, State.fbit_fon_same _ F.tiuStat_WR_ERR u.val 0 0 rfl, ?_⟩
    obtain ⟨hbeside, -⟩ := s.storeArm_effect q.req u.val (setBits data.toNat 30 30 1)
    exact (hbeside.trans (State.fon_sameBesideRegs ..)).tiu_eq
  case ctl =>
    have hexec : exec (.tiuCtlWrite q u data) s = .next ((s.wroteBy q.req ⟨.tiuCtl, u.val, 0, 0⟩).wrTiuCtl u.val data.toNat) :=
      congrArg Host.Outcome.next (State.busTo_first hw (tiuMapped .tiuCtl (by decide) u) rfl data.isLt)
    exact ⟨_, hexec, State.wrTiuCtl_changed q.req hmon hm he hne⟩
  case monitor =>
    have hexec : exec (.tiuCtlWrite q u data) s = .next ((s.wroteBy q.req ⟨.tiuCtl, u.val, 0, 0⟩).wrTiuCtl u.val data.toNat) :=
      congrArg Host.Outcome.next (State.busTo_first hw (tiuMapped .tiuCtl (by decide) u) rfl data.isLt)
    exact ⟨_, hexec, State.wrTiuCtl_refuses (s := s.wroteBy q.req _) hu hm hmode⟩
  case drain => exact ⟨_, congrArg Host.Outcome.next (hlive hrun _), State.tiuDrain_effect hfifo hdue⟩
  case res =>
    refine ⟨fun r rest hrdq => ⟨_, exec_tiuResRead hr, ?_⟩, fun hrdq => ⟨_, exec_tiuResRead hr, ?_⟩⟩
    · rw [State.rdqPop_takes hrdq]
      obtain ⟨hunits, hregs, hdata, hlatch⟩ := (s.setTiu u.val { c with rdq := rest }).answered_effect q.req ⟨.tiuRes, u.val, 0, 0⟩
        (r.pack / 2 ^ 32) { data := r.pack % 2 ^ 32 }
      exact ⟨(State.getTiu_of_tiu hunits _).trans (State.getTiu_setTiu_same ..), congrArg Resp.data hdata, hlatch, hregs⟩
    · rw [State.rdqPop_empty hrdq]
      obtain ⟨hunits, -, hdata, hlatch⟩ := s.answered_effect q.req ⟨.tiuRes, u.val, 0, 0⟩ (emptyRec / 2 ^ 32) { data := emptyRec % 2 ^ 32 }
      exact ⟨hunits, (congrArg Resp.data hdata).trans emptyRec_words.1, hlatch.trans emptyRec_words.2⟩

end Sys2Proof.Machine
end

section
/-! PROOFS. The record a unit completes, and the pairing of its halves (R113, R118 to R128). -/

namespace Sys2Proof.Machine

/-! ### A record completed (R123 to R128) -/

/-- The status bits that a record's flags set. -/
def State.tiuShows (s : State) (u : Nat) (f : RecFlags) : State :=
  (((s.fonIf f.reversed F.tiuStat_REVERSED u).fonIf f.coincident F.tiuStat_COINCIDENT u).fonIf f.ovf F.tiuStat_OVF u).fonIf f.timeout
    F.tiuStat_TIMEOUT u

section Record
variable {s t : State} {u : Nat}

theorem State.fbit_fonIf_mono {b : Bool} {f g : Fld} {i j : Nat} (hf : f.hi = f.lo) (h : s.fbit g j = true) : (s.fonIf b f i).fbit g j = true := by
  cases b
  · exact h
  · exact State.fbit_fon_mono hf h

theorem State.fbit_fonIf_same {f : Fld} (hf : f.hi = f.lo) (s : State) (i : Nat) : (s.fonIf true f i).fbit f i = true :=
  State.fbit_fon_same s f i 0 0 hf

theorem State.tiuShows_beside (s : State) (u : Nat) (f : RecFlags) : s.sameBesideRegs (s.tiuShows u f) :=
  (((s.fonIf_sameBesideRegs ..).trans (State.fonIf_sameBesideRegs ..)).trans (State.fonIf_sameBesideRegs ..)).trans
    (State.fonIf_sameBesideRegs ..)

theorem State.rget_fonIf_register {b : Bool} {f : Fld} {i : Nat} {c : RegKey} (h : c.r ≠ f.reg) : (s.fonIf b f i).rget c = s.rget c := by
  cases b
  · rfl
  · exact State.rget_fon_register h

theorem State.tiuShows_effect (s : State) (u : Nat) (f : RecFlags) : (∀ c : RegKey, c.r ≠ .tiuStat → (s.tiuShows u f).rget c = s.rget c) ∧
    (f.reversed = true → (s.tiuShows u f).fbit F.tiuStat_REVERSED u = true) ∧ (f.ovf = true → (s.tiuShows u f).fbit F.tiuStat_OVF u = true) ∧
    (f.timeout = true → (s.tiuShows u f).fbit F.tiuStat_TIMEOUT u = true) := by
  unfold State.tiuShows
  refine ⟨fun c hc => ?_, fun h => ?_, fun h => ?_, fun h => ?_⟩
  · rw [State.rget_fonIf_register hc, State.rget_fonIf_register hc, State.rget_fonIf_register hc, State.rget_fonIf_register hc]
  · rw [h]
    exact State.fbit_fonIf_mono rfl (State.fbit_fonIf_mono rfl (State.fbit_fonIf_mono rfl (State.fbit_fonIf_same rfl _ _)))
  · rw [h]
    exact State.fbit_fonIf_mono rfl (State.fbit_fonIf_same rfl _ _)
  · rw [h]
    exact State.fbit_fonIf_same rfl _ _

theorem State.tiuPush_room {r : Rec} {eo : Option Nat} (h : (s.getTiu u).fifo.length + (s.getTiu u).reserved < 64) :
    ∃ fl, s.tiuPush u r eo = s.setTiu u { s.getTiu u with
      fifo := (s.getTiu u).fifo ++ [⟨{ r with flags := fl }, eo⟩], closeNext := false, gapNext := false } :=
  ⟨_, if_neg (not_le.mpr h)⟩

theorem State.measGive_beside (s : State) (u : Nat) (r : Rec) (n : Nat) : (s.measGive u r n).tiu = s.tiu ∧ (s.measGive u r n).regs = s.regs :=
  ⟨rfl, rfl⟩

/-- The events of the units have no vector (R432). -/
theorem vectorOf_tiu {prod : Nat} (h : prod < 0x2C0) : vectorOf prod = none := by
  have hne {p : Nat} (hp : 0x2C0 ≤ p) : prod ≠ p := by omega
  have hnle {p : Nat} (hp : 0x2C0 ≤ p) : ¬ p ≤ prod := by omega
  unfold vectorOf
  rw [if_neg (hne (by decide)), if_neg (hne (by decide)), if_neg (hne (by decide)), if_neg (hne (by decide)),
    if_neg fun e => hnle (by decide) e.1, if_neg fun e => e.elim (hne (by decide)) fun e => hnle (by decide) e.1]

theorem State.tiuComplete_stages (s : State) (u : Nat) (time : Instant) (value : Int) (f : RecFlags) (aux tag : Nat) (at_ : Instant) (ends : Bool) :
    ∃ arm seq fl rcd n done err, (ends = true → s.tiuCont u = false → arm = none) ∧
      s.tiuComplete u time value f aux tag at_ ends = (((((s.setTiu u { s.getTiu u with arm := arm, seq := seq }).tiuShows u f).tiuPush u
        ⟨time, value, u, fl, aux, (s.getTiu u).seq⟩ none).measGive u rcd n).raiseIf done (Prod.tiuDone u) at_ n).raiseIf err (Prod.tiuErr u) at_ n := by
  refine ⟨_, _, _, _, _, _, _, fun he hc => ?_, rfl⟩
  rw [he, hc]
  rfl

/-- With room in the FIFO a record goes there; but for its arm and its count of records, its unit stands. -/
theorem State.tiuComplete_effect {time at_ : Instant} {value : Int} {f : RecFlags} {aux tag : Nat} {ends : Bool} (hu : u < 96)
    (hroom : (s.getTiu u).fifo.length + (s.getTiu u).reserved < 64) :
    let c := s.getTiu u
    let t := s.tiuComplete u time value f aux tag at_ ends
    (∃ arm seq fl, t.getTiu u = { c with
        arm := arm, seq := seq, fifo := c.fifo ++ [⟨⟨time, value, u, fl, aux, c.seq⟩, none⟩], closeNext := false, gapNext := false } ∧
      (ends = true → s.tiuCont u = false → arm = none)) ∧
      (∀ k : RegKey, k.r.info.blk = .tiu → k.r ≠ .tiuStat → t.rget k = s.rget k) ∧
      (f.reversed = true → t.fbit F.tiuStat_REVERSED u = true) ∧ (f.ovf = true → t.fbit F.tiuStat_OVF u = true) ∧
      (f.timeout = true → t.fbit F.tiuStat_TIMEOUT u = true) := by
  intro c t
  obtain ⟨arm, seq, fl, rcd, n, done, err, hends, hstages⟩ := s.tiuComplete_stages u time value f aux tag at_ ends
  let s1 := s.setTiu u { c with arm := arm, seq := seq }
  let s2 := s1.tiuShows u f
  have hown : s2.getTiu u = { c with arm := arm, seq := seq } :=
    (State.getTiu_of_tiu (s1.tiuShows_beside u f).tiu_eq u).trans (State.getTiu_setTiu_same ..)
  obtain ⟨fl2, hpush⟩ := State.tiuPush_room (s := s2) (u := u) (r := ⟨time, value, u, fl, aux, c.seq⟩) (eo := none) (by rw [hown]; exact hroom)
  obtain ⟨hregs, hrev, hovf, htmo⟩ := s1.tiuShows_effect u f
  have hframe := (State.raiseIf_frame ((s2.tiuPush u ⟨time, value, u, fl, aux, c.seq⟩ none).measGive u rcd n) done at_ n
    (vectorOf_tiu (prod := Prod.tiuDone u) (by unfold Prod.tiuDone; omega))).trans
    (State.raiseIf_frame _ err at_ n (vectorOf_tiu (prod := Prod.tiuErr u) (by unfold Prod.tiuErr; omega)))
  rw [← hstages] at hframe
  obtain ⟨hmeasTiu, hmeasRegs⟩ := (s2.tiuPush u ⟨time, value, u, fl, aux, c.seq⟩ none).measGive_beside u rcd n
  have hunit : t.getTiu u = (s2.tiuPush u ⟨time, value, u, fl, aux, c.seq⟩ none).getTiu u :=
    State.getTiu_of_tiu (((congrArg State.tiu hframe.rest :)).trans hmeasTiu) u
  have hset (k : RegKey) (hk : k.r.info.blk ≠ .dw) : t.rget k = s2.rget k := by
    rw [hframe.rget hk, State.rget_of_regs hmeasRegs, hpush, State.setTiu_rget]
  have hbit {g : Fld} (hg : g.reg = .tiuStat) : t.fbit g u = s2.fbit g u := State.fbit_of_rget (hset _ (show g.reg.info.blk ≠ .dw by rw [hg]; decide))
  refine ⟨⟨arm, seq, fl2, ?_, hends⟩, fun k hk hr => ?_, fun h => ?_, fun h => ?_, fun h => ?_⟩
  · rw [hunit, hpush, State.getTiu_setTiu_same, hown]
  · rw [hset k (by rw [hk]; decide), hregs k hr, State.setTiu_rget]
  · exact (hbit rfl).trans (hrev h)
  · exact (hbit rfl).trans (hovf h)
  · exact (hbit rfl).trans (htmo h)

end Record

/-! ### Overflow and timeout (R120, R122, R123) -/

section Ends
variable {s t : State} {u : Nat}

theorem getLast?_rcd (l : List FifoRec) (r : Rec) (eo : Option Nat) : (l ++ [(⟨r, eo⟩ : FifoRec)]).getLast?.map FifoRec.rcd = some r := by
  rw [List.getLast?_concat, Option.map_some]

theorem lastRecord_of {c d : Tiu} (h : c = d) : c.fifo.getLast?.map FifoRec.rcd = d.fifo.getLast?.map FifoRec.rcd := by rw [h]

/-- The lost hits before a record touch nothing of a unit but its CLOSE. -/
theorem State.closeDue_effect (s : State) (u : Nat) (before : Nat × Nat → Bool) : s.sameBesideTiu (s.closeDue u before) ∧
    ∀ v, ∃ n l, (s.closeDue u before).getTiu v = { s.getTiu v with closeNext := n, closeLost := l } := by
  unfold State.closeDue
  dsimp only
  split
  · refine ⟨s.setTiu_beside .., fun v => ?_⟩
    by_cases hv : v = u
    · exact ⟨_, _, by rw [hv, State.getTiu_setTiu_same]⟩
    · exact ⟨_, _, State.getTiu_setTiu_other _ hv⟩
  · exact ⟨rfl, fun v => ⟨_, _, rfl⟩⟩

/-- A unit about to end what waits in it: counted, with CLOSE due. -/
theorem State.ended_effect (s : State) (u : Nat) (c : Tiu) (before : Nat × Nat → Bool) {r : Reg} (hr : r ∈ unitShown) :
    let t := ((s.setTiu u c).closeDue u before).cnt r u
    (∃ n l, t.getTiu u = { c with closeNext := n, closeLost := l }) ∧ t.rget ⟨r, u, 0, 0⟩ = counted (s.rget ⟨r, u, 0, 0⟩) 1 ∧
      t.tiuCont u = s.tiuCont u ∧ t.eo = s.eo := by
  intro t
  obtain ⟨hbeside, hunits⟩ := (s.setTiu u c).closeDue_effect u before
  obtain ⟨n, l, hown⟩ := hunits u
  rw [State.getTiu_setTiu_same] at hown
  have hregs (k : RegKey) : ((s.setTiu u c).closeDue u before).rget k = s.rget k := State.rget_of_regs hbeside.regs k
  refine ⟨⟨n, l, (State.getTiu_of_tiu rfl u).trans hown⟩, ?_, ?_, hbeside.eo⟩
  · rw [← hregs]
    exact State.rget_cntAdd_same ..
  · refine State.fbit_of_rget ((State.rget_cnt_register fun e => ?_).trans (hregs _))
    exact absurd (show Reg.tiuCtl ∈ unitShown by rw [← e] at hr; exact hr) (by decide)

/-- A unit whose half has ended in overflow, counted. -/
def State.ovfCounted (s : State) (u : Nat) : State :=
  ((s.setTiu u { s.getTiu u with half := none }).closeDue u (pastPath s.tickNo)).cnt .tiuCntOvf u

/-- A unit whose expiry has come, counted. -/
def State.tmoCounted (s : State) (u : Nat) : State :=
  ((s.setTiu u { s.getTiu u with half := none, gate := none }).closeDue u (pastPath s.tickNo)).cnt .tiuCntTmo u

theorem State.tiuOvf_completes (s : State) (u : Nat) (h : Half) :
    s.tiuOvf u h = (s.ovfCounted u).tiuComplete u h.ts (if h.isStart then 2 ^ 40 - 1 else -(2 ^ 40 - 1))
      { h.flags with ovf := true, reversed := !h.isStart } 0 (max (armTag (s.getTiu u)) h.tag) s.nowI false := by
  unfold State.tiuOvf State.ovfCounted
  rfl

theorem State.tiuExpire_completes (s : State) (u : Nat) (e : Instant) : ∃ (f : RecFlags) (tag : Nat), s.tiuExpire u e = (s.tmoCounted u).tiuComplete u
    (((s.getTiu u).half.map Half.ts).getD (((s.getTiu u).gate.map Gate.opened).getD e)) 0 { f with timeout := true } 0 tag e true := by
  unfold State.tiuExpire State.tmoCounted
  dsimp only
  cases (s.getTiu u).half with
  | none => exact ⟨_, _, rfl⟩
  | some h => exact ⟨_, _, rfl⟩

/-- A half ends in overflow (R120). -/
theorem State.tiuOvf_effect (hu : u < 96) (hroom : (s.getTiu u).fifo.length + (s.getTiu u).reserved < 64) (h : Half) :
    let t := s.tiuOvf u h
    (∃ r, (t.getTiu u).fifo.getLast?.map FifoRec.rcd = some r ∧ r.time = h.ts ∧ r.value = (if h.isStart then 2 ^ 40 - 1 else -(2 ^ 40 - 1))) ∧
      (t.getTiu u).half = none ∧ t.fbit F.tiuStat_OVF u = true ∧
      t.rget ⟨.tiuCntOvf, u, 0, 0⟩ = counted (s.rget ⟨.tiuCntOvf, u, 0, 0⟩) 1 ∧ t.eo = s.eo := by
  intro t
  obtain ⟨⟨n, l, hown⟩, hcount, -, -⟩ := s.ended_effect u { s.getTiu u with half := none } (pastPath s.tickNo) (r := .tiuCntOvf) (by decide)
  obtain ⟨⟨arm, seq, fl, hunit, -⟩, hregs, -, hshown, -⟩ := State.tiuComplete_effect (s := s.ovfCounted u) (u := u) (time := h.ts)
    (at_ := s.nowI) (value := if h.isStart then 2 ^ 40 - 1 else -(2 ^ 40 - 1)) (f := { h.flags with ovf := true, reversed := !h.isStart }) (aux := 0)
    (tag := max (armTag (s.getTiu u)) h.tag) (ends := false) hu (by rw [State.ovfCounted, hown]; exact hroom)
  rw [← State.tiuOvf_completes] at hunit hregs hshown
  refine ⟨⟨_, (lastRecord_of hunit).trans (getLast?_rcd ..), rfl, rfl⟩, ?_, hshown rfl, ?_, (s.tiuOvf_work u h).eo⟩
  · rw [hunit, State.ovfCounted, hown]
  · rw [hregs _ (show Reg.tiuCntOvf.info.blk = .tiu by decide) (show Reg.tiuCntOvf ≠ .tiuStat by decide)]
    exact hcount

/-- What an expiry ends: a half, else an open gate, else the arm alone. -/
theorem State.tiuExpire_effect (hu : u < 96) (hroom : (s.getTiu u).fifo.length + (s.getTiu u).reserved < 64) (e : Instant) :
    let c := s.getTiu u
    let t := s.tiuExpire u e
    (∃ r, (t.getTiu u).fifo.getLast?.map FifoRec.rcd = some r ∧ r.value = 0 ∧ r.time = ((c.half.map Half.ts).getD ((c.gate.map Gate.opened).getD e))) ∧
      (t.getTiu u).half = none ∧ (t.getTiu u).gate = none ∧ (s.tiuCont u = false → (t.getTiu u).arm = none) ∧
      t.fbit F.tiuStat_TIMEOUT u = true ∧ t.rget ⟨.tiuCntTmo, u, 0, 0⟩ = counted (s.rget ⟨.tiuCntTmo, u, 0, 0⟩) 1 := by
  intro c t
  obtain ⟨⟨n, l, hown⟩, hcount, hcont, -⟩ := s.ended_effect u { s.getTiu u with half := none, gate := none } (pastPath s.tickNo)
    (r := .tiuCntTmo) (by decide)
  obtain ⟨f, tag, hexpire⟩ := s.tiuExpire_completes u e
  obtain ⟨⟨arm, seq, fl, hunit, hends⟩, hregs, -, -, hshown⟩ := State.tiuComplete_effect (s := s.tmoCounted u) (u := u)
    (time := (c.half.map Half.ts).getD ((c.gate.map Gate.opened).getD e)) (at_ := e) (value := 0) (f := { f with timeout := true }) (aux := 0)
    (tag := tag) (ends := true) hu (by rw [State.tmoCounted, hown]; exact hroom)
  rw [← hexpire] at hunit hregs hshown
  refine ⟨⟨_, (lastRecord_of hunit).trans (getLast?_rcd ..), rfl, rfl⟩, ?_, ?_, fun hc => ?_, hshown rfl, ?_⟩
  · rw [hunit, State.tmoCounted, hown]
  · rw [hunit, State.tmoCounted, hown]
  · rw [hunit]
    exact hends rfl (hcont.trans hc)
  · rw [hregs _ (show Reg.tiuCntTmo.info.blk = .tiu by decide) (show Reg.tiuCntTmo ≠ .tiuStat by decide)]
    exact hcount

end Ends


end Sys2Proof.Machine
end

section
/-! PROOFS. What a unit does with a hit or an event that it takes at once (R113, R117 to R119, R123). -/

namespace Sys2Proof.Machine

/-! ### Pairing (R118, R119) -/

section Pairing
variable {s t : State} {u : Nat} {x : TiuIn} {h : TiuHalf} {p : Half}

/-- A pair completes a record of its interval. -/
theorem State.pairDone_effect (hu : u < 96) (hroom : (s.getTiu u).fifo.length + (s.getTiu u).reserved < 64) (start stop : Half) (at_ : Instant)
    (arb : Bool) :
    let c := s.getTiu u
    let v := (spanBetween stop.ts start.ts).val
    let t := s.pairDone u start stop at_ arb
    (∃ arm seq fl, t.getTiu u = { c with
      half := none, arm := arm, seq := seq, fifo := c.fifo ++ [⟨⟨start.ts, v, u, fl, 0, c.seq⟩, none⟩], closeNext := false, gapNext := false }) ∧
      (v < 0 → t.fbit F.tiuStat_REVERSED u = true) := by
  intro c v t
  have hown : (s.setTiu u { c with half := none }).getTiu u = { c with half := none } := State.getTiu_setTiu_same ..
  obtain ⟨⟨arm, seq, fl, hunit, -⟩, -, hrev, -⟩ := State.tiuComplete_effect (s := s.setTiu u { c with half := none }) (u := u) (time := start.ts)
    (at_ := at_) (value := v) (f := pairFlags start.flags v (start.event || stop.event) arb) (aux := 0)
    (tag := max (armTag c) (max start.tag stop.tag)) (ends := false) hu (by rw [hown]; exact hroom)
  rw [hown] at hunit
  exact ⟨⟨arm, seq, fl, hunit⟩, fun hv => hrev (decide_eq_true hv)⟩

/-- A start that finds no half pending waits as one. -/
theorem State.offerHalf_starts (hnone : (s.getTiu u).half = none) (hq : h.qStart = true) :
    s.offerHalf u x h = s.setTiu u { s.getTiu u with half := some (s.halfOf u x h true) } := by
  unfold State.offerHalf
  dsimp only
  rw [hnone]
  exact if_pos hq

/-- A stop completes the pair of a pending start; in CONT mode the same hit may be the next start. -/
theorem State.offerHalf_pairs (hp : (s.getTiu u).half = some p) (hs : p.isStart = true) (hq : h.qStop = true)
    (hafter : s.fbit F.tiuSel_STOP_AFTER u = true → p.ts ≤ x.ts) :
    let s1 := s.pairDone u p (s.halfOf u x h false) x.ts h.arb
    s.offerHalf u x h = s1 ∨ (h.qStart = true ∧ ∃ k, s.offerHalf u x h = s1.setTiu u { s1.getTiu u with half := some k }) := by
  intro s1
  have hin : ¬ (!h.qStop ∨ (s.fbit F.tiuSel_STOP_AFTER u ∧ x.ts < p.ts)) := by
    rw [hq]
    rintro (hf | ⟨ha, hlt⟩)
    · exact absurd hf (by decide)
    · exact absurd hlt (not_lt.mpr (hafter ha))
  have hoffer : s.offerHalf u x h = if s.tiuCont u ∧ h.qStart then s1.setTiu u { s1.getTiu u with half := some (s.halfOf u x h true) } else s1 := by
    unfold State.offerHalf
    dsimp only
    rw [hp]
    exact (if_pos hs).trans (if_neg hin)
  rw [hoffer]
  split
  next hcont => exact .inr ⟨hcont.2, _, rfl⟩
  next => exact .inl rfl

/-! ### A hit or an event taken at once -/

theorem State.tiuTakeHalf_timestamp (hm : s.tiuMode u = 1) (htakes : TakesNow s u x.ts x.tick) (hadm : s.armAdmits u x.ts = true) :
    ∃ f tag, s.tiuTakeHalf u x h = s.tiuComplete u x.ts 0 f h.code tag x.ts false := by
  unfold State.tiuTakeHalf
  dsimp only
  rw [htakes.lapse, hadm, hm]
  exact ⟨_, _, rfl⟩

theorem State.tiuTakeHalf_interval (hm : s.tiuMode u = 2) (htakes : TakesNow s u x.ts x.tick) (hadm : s.armAdmits u x.ts = true) :
    s.tiuTakeHalf u x h = s.offerHalf u x h := by
  unfold State.tiuTakeHalf
  dsimp only
  rw [htakes.lapse, hadm, hm]
  rfl

theorem State.tiuTake_half (s : State) (u : Nat) (hask : x.ask = .half h) : s.tiuTake u x = s.tiuTakeHalf u x h := by
  unfold State.tiuTake
  rw [hask]

/-- A hit or an event that is taken at once finds the units as they were. -/
theorem State.tiuInput_half (hask : x.ask = .half h) (htakes : TakesNow s u x.ts x.tick) :
    ∃ t, s.sameBesideTiu t ∧ (∀ v, t.getTiu v = s.getTiu v) ∧ UnitView s t u ∧ TakesNow t u x.ts x.tick ∧
      (((t.tiuTakeHalf u x h).getTiu u).ins = [] → s.tiuInput u x = t.tiuTakeHalf u x h) := by
  obtain ⟨t, hbeside, hunits, htakes1, hdone⟩ := State.tiuInput_takes htakes fun _ _ e => TiuAsk.noConfusion (hask.symm.trans e)
  rw [State.tiuTake_half t u hask] at hdone
  exact ⟨t, hbeside, hunits, .of_same hbeside hunits, htakes1, hdone⟩

/-- In TIMESTAMP mode a hit is a record of its own. -/
theorem State.tiuInput_timestamp (hu : u < 96) (hroom : (s.getTiu u).fifo.length + (s.getTiu u).reserved < 64) (hask : x.ask = .half h)
    (hm : s.tiuMode u = 1) (htakes : TakesNow s u x.ts x.tick) (hadm : s.armAdmits u x.ts = true) :
    let c := s.getTiu u
    ∃ arm seq fl, (s.tiuInput u x).getTiu u = { c with
      arm := arm, seq := seq, fifo := c.fifo ++ [⟨⟨x.ts, 0, u, fl, h.code, c.seq⟩, none⟩], closeNext := false, gapNext := false } := by
  intro c
  obtain ⟨t, -, hunits, hview, htakes1, hdone⟩ := State.tiuInput_half hask htakes
  obtain ⟨f, tag, hrec⟩ := State.tiuTakeHalf_timestamp (h := h) ((hview.mode u).trans hm) htakes1 ((hview.admits _).trans hadm)
  obtain ⟨⟨arm, seq, fl, hunit, -⟩, -⟩ := State.tiuComplete_effect (s := t) (u := u) (time := x.ts) (at_ := x.ts) (value := 0) (f := f)
    (aux := h.code) (tag := tag) (ends := false) hu (by rw [hunits]; exact hroom)
  rw [← hrec, hunits] at hunit
  rw [hdone (by rw [hunit]; exact htakes.ins)]
  exact ⟨arm, seq, fl, hunit⟩

/-- A start half is now pending. -/
theorem State.tiuInput_starts (hask : x.ask = .half h) (hm : s.tiuMode u = 2) (htakes : TakesNow s u x.ts x.tick) (hadm : s.armAdmits u x.ts = true)
    (hnone : (s.getTiu u).half = none) (hq : h.qStart = true) :
    s.sameBesideTiu (s.tiuInput u x) ∧ ∃ k, ((s.tiuInput u x).getTiu u).half = some k ∧ k.isStart = true ∧ k.ts = x.ts ∧ k.event = h.event ∧
      k.tag = x.tag := by
  obtain ⟨t, hbeside, hunits, hview, htakes1, hdone⟩ := State.tiuInput_half hask htakes
  rw [State.tiuTakeHalf_interval ((hview.mode u).trans hm) htakes1 ((hview.admits _).trans hadm),
    State.offerHalf_starts (by rw [hunits]; exact hnone) hq] at hdone
  rw [hdone (by rw [State.getTiu_setTiu_same, hunits]; exact htakes.ins), State.getTiu_setTiu_same]
  exact ⟨hbeside.trans (t.setTiu_beside ..), _, rfl, rfl, rfl, rfl, rfl⟩

/-- A stop half completes a pair with the start that waits. -/
theorem State.tiuInput_pairs (hu : u < 96) (hroom : (s.getTiu u).fifo.length + (s.getTiu u).reserved < 64) (hask : x.ask = .half h)
    (hm : s.tiuMode u = 2) (htakes : TakesNow s u x.ts x.tick) (hadm : s.armAdmits u x.ts = true) (hp : (s.getTiu u).half = some p)
    (hs : p.isStart = true) (hq : h.qStop = true) (hafter : s.fbit F.tiuSel_STOP_AFTER u = true → p.ts ≤ x.ts) :
    let c := s.getTiu u
    let v := (spanBetween x.ts p.ts).val
    (∃ arm half seq fl, (s.tiuInput u x).getTiu u = { c with
      half := half, arm := arm, seq := seq, fifo := c.fifo ++ [⟨⟨p.ts, v, u, fl, 0, c.seq⟩, none⟩], closeNext := false, gapNext := false } ∧
      (h.qStart = false → half = none)) ∧ (v < 0 → (s.tiuInput u x).fbit F.tiuStat_REVERSED u = true) := by
  intro c v
  obtain ⟨t, -, hunits, hview, htakes1, hdone⟩ := State.tiuInput_half hask htakes
  rw [State.tiuTakeHalf_interval ((hview.mode u).trans hm) htakes1 ((hview.admits _).trans hadm)] at hdone
  have hpairs := State.offerHalf_pairs (s := t) (x := x) (h := h) (by rw [hunits]; exact hp) hs hq (by rw [hview.fbit (by decide)]; exact hafter)
  obtain ⟨⟨arm, seq, fl, hunit⟩, hrev⟩ := State.pairDone_effect (s := t) hu (by rw [hunits]; exact hroom) p (t.halfOf u x h false) x.ts h.arb
  rw [hunits] at hunit
  rcases hpairs with hpair | ⟨hstart, k, hpair⟩
  · rw [hpair] at hdone
    rw [hdone (by rw [hunit]; exact htakes.ins)]
    exact ⟨⟨arm, none, seq, fl, hunit, fun _ => rfl⟩, hrev⟩
  · rw [hpair] at hdone
    rw [hdone (by rw [State.getTiu_setTiu_same, hunit]; exact htakes.ins), State.getTiu_setTiu_same, hunit]
    exact ⟨⟨arm, some k, seq, fl, rfl, fun e => Bool.noConfusion (hstart.symm.trans e)⟩, hrev⟩

end Pairing

end Sys2Proof.Machine
end

section
/-! PROOFS. Hits: captured, lost or held back, and formed (R108 to R111, R117, R128, R129). -/

namespace Sys2Proof.Machine

/-! ### A unit while other units work -/

/-- Unit `u`, its registers, the events raised, the channels and the clock stand. -/
structure UnitStands (s t : State) (u : Nat) : Prop where
  own : t.getTiu u = s.getTiu u
  regs : ∀ c : RegKey, c.r.info.blk = .tiu → c.i = u → t.rget c = s.rget c
  events : s.dw.evq ⊆ t.dw.evq
  eo : t.eo = s.eo
  clock : t.clock = s.clock

section Stands
variable {s t x : State} {u w : Nat}

theorem UnitStands.refl (s : State) (u : Nat) : UnitStands s s u := ⟨rfl, fun _ _ _ => rfl, fun _ h => h, rfl, rfl⟩

theorem UnitStands.trans (h : UnitStands s t u) (h2 : UnitStands t x u) : UnitStands s x u :=
  ⟨h2.own.trans h.own, fun c hc hi => (h2.regs c hc hi).trans (h.regs c hc hi), List.Subset.trans h.events h2.events, h2.eo.trans h.eo,
    h2.clock.trans h.clock⟩

theorem UnitWork.stands (h : UnitWork s t w) (hw : w ≠ u) : UnitStands s t u :=
  ⟨h.units u hw.symm, fun c hc hi => h.regs c hc fun e => absurd (e.symm.trans hi) hw, h.events, h.eo, h.clock⟩

/-- Other units work one after another. -/
theorem UnitStands.foldl {f : State → Nat → State} (hf : ∀ s w, UnitWork s (f s w) w) {l : List Nat} (hl : ∀ w ∈ l, w ≠ u) (s : State) :
    UnitStands s (l.foldl f s) u :=
  List.foldlRecOn l f (motive := fun t => UnitStands s t u) (.refl s u) fun t h w hw => h.trans ((hf t w).stands (hl w hw))

/-- A unit takes no stops from itself as from another. -/
theorem State.stopTakers_ne {rising : Bool} (h : w ∈ s.stopTakers u rising) : w ≠ u := by
  obtain ⟨c, -, hc⟩ := List.mem_filterMap.mp h
  dsimp only at hc
  split at hc
  next hw =>
    obtain rfl := Option.some.inj hc
    exact hw.1
  next => exact absurd hc nofun

theorem State.raises_mono {prod tag : Nat} {ts : Instant} (hd : s.dw.evq ⊆ t.dw.evq) (ht : t.tickNo = s.tickNo)
    (h : s.raises prod ts tag s.tickNo) : t.raises prod ts tag s.tickNo := by
  rw [State.raises, if_pos rfl] at h
  rw [State.raises, if_pos ht.symm]
  exact hd h

end Stands

/-! ### Hits near and far (R109) -/

section Close
variable {s t : State} {u w tick code : Nat}

theorem State.closeOn_effect (s : State) (u tick code : Nat) :
    let t := s.closeOn u tick code
    t.getTiu u = { s.getTiu u with closeLost := (s.getTiu u).closeLost ++ [(tick, code)] } ∧ t.fbit F.tiuStat_CLOSE u = true ∧
      t.rget ⟨.tiuCntClose, u, 0, 0⟩ = counted (s.rget ⟨.tiuCntClose, u, 0, 0⟩) 1 ∧ t.dw = s.dw := by
  refine ⟨State.getTiu_setTiu_same .., ?_, ?_, rfl⟩
  · exact State.fbit_fon_same (s.cnt .tiuCntClose u) F.tiuStat_CLOSE u 0 0 rfl
  · exact (State.rget_fon_register (s := s.cnt .tiuCntClose u) (f := F.tiuStat_CLOSE) (show Reg.tiuCntClose ≠ F.tiuStat_CLOSE.reg by decide)).trans
      (State.rget_cntAdd_same ..)

theorem State.closeOn_shows (h : s.fbit F.tiuStat_CLOSE w = true) : (s.closeOn u tick code).fbit F.tiuStat_CLOSE w = true :=
  State.fbit_fon_mono (s := s.cnt .tiuCntClose u) (f := F.tiuStat_CLOSE) rfl
    ((State.fbit_of_rget (State.rget_cnt_register (show Reg.tiuStat ≠ .tiuCntClose by decide))).trans h)

/-- Every unit that selects a hit lost to the dead time shows it. -/
theorem State.foldl_closeOn_shows (l : List Nat) (s : State) (h : w ∈ l ∨ s.fbit F.tiuStat_CLOSE w = true) :
    (l.foldl (fun st v => st.closeOn v tick code) s).fbit F.tiuStat_CLOSE w = true := by
  induction l generalizing s with
  | nil => exact h.resolve_left List.not_mem_nil
  | cons v l ih =>
    refine ih _ ?_
    rcases h with h | h
    · rcases List.mem_cons.mp h with rfl | h
      · exact .inr (s.closeOn_effect w tick code).2.1
      · exact .inl h
    · exact .inr (State.closeOn_shows h)

theorem State.foldl_closeOn_dw (l : List Nat) (s : State) : (l.foldl (fun st v => st.closeOn v tick code) s).dw = s.dw :=
  List.foldlRecOn l _ (motive := fun t : State => t.dw = s.dw) rfl fun t h v _ => (t.closeOn_effect v tick code).2.2.2.trans h

/-- A hit within the dead time of the last is lost in every unit that selects it. -/
theorem State.tiuFrontEnd_loses {c : CapPos} {rising : Bool} {takers : List Nat} {closes : Option Gate} {p : Nat}
    (hp : (s.getTiu u).lastHit = some p) (hnear : c.tick * 1024 + c.code < p + 6144) (ht : ∀ w ∈ takers, w ≠ u) :
    let t := (s.tiuFrontEnd u c rising true takers closes).1
    t.getTiu u = { s.getTiu u with closeLost := (s.getTiu u).closeLost ++ [(c.tick, c.code)] } ∧
      t.rget ⟨.tiuCntClose, u, 0, 0⟩ = counted (s.rget ⟨.tiuCntClose, u, 0, 0⟩) 1 ∧ t.fbit F.tiuStat_CLOSE u = true ∧
      (∀ w ∈ takers, t.fbit F.tiuStat_CLOSE w = true) ∧ t.dw = s.dw ∧ t.eo = s.eo := by
  intro t
  let s1 := takers.foldl (fun st w => st.closeOn w c.tick c.code) s
  have hlost : t = s1.closeOn u c.tick c.code := by
    have hdead : ((s.getTiu u).lastHit.any fun p => decide (c.tick * 1024 + c.code < p + deadTime)) = true := by
      rw [hp]
      exact decide_eq_true hnear
    have hfront : s.tiuFrontEnd u c rising true takers closes = ((takers ++ [u]).foldl (fun st w => st.closeOn w c.tick c.code) s, false) :=
      if_pos hdead
    rw [show t = _ from congrArg Prod.fst hfront, List.foldl_append]
    rfl
  have hstands : UnitStands s s1 u := .foldl (fun t w => t.closeOn_work w c.tick c.code) ht s
  obtain ⟨hown, hclose, hcount, hdw⟩ := s1.closeOn_effect u c.tick c.code
  rw [hlost, hown, hcount, hstands.own, hstands.regs _ (show Reg.tiuCntClose.info.blk = .tiu by decide) rfl]
  exact ⟨rfl, rfl, hclose, fun w hw => State.closeOn_shows (State.foldl_closeOn_shows takers s (.inl hw)),
    hdw.trans (State.foldl_closeOn_dw takers s), ((s1.closeOn_work u c.tick c.code).eo).trans hstands.eo⟩

/-- An event of two ticks on waits for its tick. -/
theorem State.raiseEv_later (s : State) (prod : Nat) (ts : Instant) (tag : Nat) :
    (s.raiseEv prod ts tag 2).raises prod ts tag (s.tickNo + 2) ∧ (s.raiseEv prod ts tag 2).regs = s.regs ∧
      (s.raiseEv prod ts tag 2).tiu = s.tiu := by
  have h : s.raiseEv prod ts tag 2 = s.setDw { s.dw with soon := s.dw.soon ++ [⟨prod, ts, tag, s.tickNo + 2, []⟩] } := if_neg (by decide)
  rw [h]
  refine ⟨?_, State.setDw_regs .., State.setDw_tiu ..⟩
  rw [State.raises, State.setDw_tickNo, if_neg (Nat.ne_of_gt (Nat.lt_add_of_pos_right (by decide)))]
  exact List.mem_append_right _ (List.mem_singleton_self _)

/-- A unit in which a hit is in flight. -/
def Tiu.captures (c : Tiu) (pos : Nat) (f : Flight) : Tiu := { c with lastHit := some pos, flight := c.flight ++ [f] }

/-- A hit far enough from the last is in flight, counted and announced two ticks on. -/
theorem State.tiuFrontEnd_accepts {c : CapPos} {rising : Bool} {takers : List Nat} {closes : Option Gate}
    (hfar : ∀ p, (s.getTiu u).lastHit = some p → p + 6144 ≤ c.tick * 1024 + c.code) :
    let t := (s.tiuFrontEnd u c rising true takers closes).1
    t.getTiu u = (s.getTiu u).captures (c.tick * 1024 + c.code) ⟨c.tk, c.tick, c.code, rising, true, s.hitTag u, closes, s.time.valid, s.deg⟩ ∧
      t.rget ⟨.tiuCntHit, u, 0, 0⟩ = (s.rget ⟨.tiuCntHit, u, 0, 0⟩ + 1) % 2 ^ 64 ∧
      t.raises (Prod.tiuRaw u) (ofNs c.tk) (s.hitTag u) (s.tickNo + 2) ∧ (∀ w, w ≠ u → t.getTiu w = s.getTiu w) ∧ t.eo = s.eo ∧ t.time = s.time := by
  intro t
  have hdead : ((s.getTiu u).lastHit.any fun p => decide (c.tick * 1024 + c.code < p + deadTime)) = false := by
    cases hp : (s.getTiu u).lastHit with
    | none => rfl
    | some p => exact decide_eq_false (not_lt.mpr (hfar p hp))
  have hfront : s.tiuFrontEnd u c rising true takers closes = (s.tiuAccept u c rising true closes, true) := if_neg (ne_true_of_eq_false hdead)
  have ht : t = s.tiuAccept u c rising true closes := congrArg Prod.fst hfront
  have hwork := s.tiuAccept_work u c rising true closes
  rw [ht]
  let s1 := s.setTiu u ((s.getTiu u).captures (c.tick * 1024 + c.code) ⟨c.tk, c.tick, c.code, rising, true, s.hitTag u, closes, s.time.valid, s.deg⟩)
  have haccept : s.tiuAccept u c rising true closes = (s1.cnt64 .tiuCntHit 1 u).raiseEv (Prod.tiuRaw u) (ofNs c.tk) (s.hitTag u) 2 := by
    unfold State.tiuAccept
    exact if_pos rfl
  have hbeside := State.raiseEv_later (s1.cnt64 .tiuCntHit 1 u) (Prod.tiuRaw u) (ofNs c.tk) (s.hitTag u)
  rw [← haccept] at hbeside
  obtain ⟨hraises, hregs, hunits⟩ := hbeside
  refine ⟨?_, ?_, hraises, hwork.units, hwork.eo, State.time_of_clock hwork.clock⟩
  · rw [State.getTiu_of_tiu hunits]
    exact State.getTiu_setTiu_same ..
  · rw [State.rget_of_regs hregs]
    exact State.rget_cnt64_same ..

end Close

/-! ### Capture (R109, R117, R129) -/

section Capture
variable {s : State} {u code : Nat} {rising : Bool}

/-- A unit that has seen a transition. -/
def State.tiuSaw (s : State) (u : Nat) : State := s.setTiu u { s.getTiu u with seen := some s.tickNo }

theorem State.getTiu_tiuSaw (s : State) (u : Nat) : (s.tiuSaw u).getTiu u = { s.getTiu u with seen := some s.tickNo } :=
  State.getTiu_setTiu_same ..

/-- A hit of a run in LIVE mode enters its histogram; nothing but the calibration sees it. -/
theorem State.calLiveHit_cal (s : State) (u code : Nat) : ∃ x, s.calLiveHit u code = s.setCal x := by
  unfold State.calLiveHit State.onRun
  split
  · exact ⟨_, rfl⟩
  · exact ⟨s.cal, rfl⟩

/-- The unit itself selects the transition, and its input is on. -/
theorem State.tiuCapture_selected (hsel : s.ownSelects u rising = true) (hmode : s.tiuMode u ≠ 3)
    (hon : 32 ≤ u → (s.getEo (u - 32)).poweringUp = false ∧ s.bankOn (u - 32) = true) :
    s.tiuCapture u code rising =
      if (s.getTiu u).calHeld then
        if u < 32 then ((s.tiuSaw u).cnt .tiuCntCalhold u).setTiu u { (s.tiuSaw u).getTiu u with calHeld := false }
        else (s.tiuSaw u).cnt .tiuCntCalhold u
      else (((s.tiuSaw u).calLiveHit u code).tiuFrontEnd u ⟨s.tickNo, s.time.now, code⟩ rising true (s.stopTakers u rising) none).1 := by
  have hmode0 : s.tiuMode u ≠ 0 := by
    intro e
    simp [State.ownSelects, e] at hsel
  have hoff : (decide (32 ≤ u) && ((s.getEo (u - 32)).poweringUp || !s.bankOn (u - 32))) = false := by
    by_cases h : 32 ≤ u
    · obtain ⟨hpower, hbank⟩ := hon h
      rw [hpower, hbank, Bool.not_true, Bool.or_self, Bool.and_false]
    · rw [decide_eq_false h, Bool.false_and]
  have hnotFreq : ¬ (((s.tiuSaw u).calLiveHit u code).tiuMode u = 3 ∧ rising) := by
    obtain ⟨x, hx⟩ := (s.tiuSaw u).calLiveHit_cal u code
    rw [hx]
    exact fun h => hmode h.1
  have hheld : ((s.tiuSaw u).getTiu u).calHeld = (s.getTiu u).calHeld := by rw [State.getTiu_tiuSaw]
  unfold State.tiuCapture
  dsimp only
  rw [if_neg (by simp [hmode0, hoff, hsel]), show s.setTiu u { s.getTiu u with seen := some s.tickNo } = s.tiuSaw u from rfl, hheld,
    if_neg hnotFreq, hsel]
  rfl

end Capture


end Sys2Proof.Machine
end

section
/-! PROOFS. What O18 says of captures and of formed timestamps (R108 to R111, R113, R117 to R119, R128, R129). -/

namespace Sys2Proof.Machine

section Capture
variable {s : State} {u : Nat} {rising : Bool}

theorem State.tiuSaw_live (s : State) (u code : Nat) :
    let t := (s.tiuSaw u).calLiveHit u code
    t.tiu = (s.tiuSaw u).tiu ∧ t.regs = s.regs ∧ t.eo = s.eo ∧ t.dw = s.dw ∧ t.clock = s.clock := by
  obtain ⟨x, hx⟩ := (s.tiuSaw u).calLiveHit_cal u code
  intro t
  rw [show t = _ from hx]
  exact ⟨State.setCal_tiu .., State.setCal_regs .., State.setCal_eo .., State.setCal_dw .., State.setCal_clock ..⟩

/-- A hit far enough from the last is captured. -/
theorem State.tiuCapture_far (code : Nat) (hsel : s.ownSelects u rising = true) (hmode : s.tiuMode u ≠ 3)
    (hon : 32 ≤ u → (s.getEo (u - 32)).poweringUp = false ∧ s.bankOn (u - 32) = true) (hfree : (s.getTiu u).calHeld = false)
    (hfar : ∀ p, (s.getTiu u).lastHit = some p → p + 6144 ≤ s.tickNo * 1024 + code) :
    let c := s.getTiu u
    let t := s.tiuCapture u code rising
    t.getTiu u = { c with
        seen := some s.tickNo, lastHit := some (s.tickNo * 1024 + code)
        flight := c.flight ++ [⟨s.time.now, s.tickNo, code, rising, true, s.hitTag u, none, s.time.valid, s.deg⟩] } ∧
      t.rget ⟨.tiuCntHit, u, 0, 0⟩ = (s.rget ⟨.tiuCntHit, u, 0, 0⟩ + 1) % 2 ^ 64 ∧
      t.raises (Prod.tiuRaw u) s.nowI (s.hitTag u) (s.tickNo + 2) ∧ (∀ w, w ≠ u → t.getTiu w = s.getTiu w) ∧ t.eo = s.eo ∧ t.time = s.time := by
  obtain ⟨htiu, hregs, heo, -, hclock⟩ := s.tiuSaw_live u code
  rw [State.tiuCapture_selected hsel hmode hon, if_neg (ne_true_of_eq_false hfree)]
  generalize (s.tiuSaw u).calLiveHit u code = x at *
  have hown : x.getTiu u = { s.getTiu u with seen := some s.tickNo } := (State.getTiu_of_tiu htiu u).trans (s.getTiu_tiuSaw u)
  have htag : x.hitTag u = s.hitTag u := by simp only [State.hitTag, State.getEo_of_eo heo]
  have hdeg : x.deg = s.deg := by rw [State.deg, State.deg, show x.tsyn = s.tsyn from congrArg Clock.tsyn hclock]
  have hcapture := State.tiuFrontEnd_accepts (s := x) (u := u) (c := ⟨s.tickNo, s.time.now, code⟩) (rising := rising)
    (takers := s.stopTakers u rising) (closes := none) (by rw [hown]; exact hfar)
  rw [hown, State.rget_of_regs hregs, htag, hdeg, State.tickNo_of_clock hclock, State.time_of_clock hclock, heo] at hcapture
  obtain ⟨hunit, hcount, hraises, hunits, heo2, htime⟩ := hcapture
  exact ⟨hunit, hcount, hraises, fun w hw => (hunits w hw).trans ((State.getTiu_of_tiu htiu w).trans (State.getTiu_setTiu_other _ hw)), heo2, htime⟩

/-- A nearer one is lost to the dead time. -/
theorem State.tiuCapture_near {p code : Nat} (hsel : s.ownSelects u rising = true) (hmode : s.tiuMode u ≠ 3)
    (hon : 32 ≤ u → (s.getEo (u - 32)).poweringUp = false ∧ s.bankOn (u - 32) = true) (hfree : (s.getTiu u).calHeld = false)
    (hp : (s.getTiu u).lastHit = some p) (hnear : s.tickNo * 1024 + code < p + 6144) :
    let t := s.tiuCapture u code rising
    (t.getTiu u).flight = (s.getTiu u).flight ∧ t.rget ⟨.tiuCntClose, u, 0, 0⟩ = counted (s.rget ⟨.tiuCntClose, u, 0, 0⟩) 1 ∧
      t.fbit F.tiuStat_CLOSE u = true ∧ (s.tickNo, code) ∈ (t.getTiu u).closeLost ∧
      (∀ w ∈ s.stopTakers u rising, t.fbit F.tiuStat_CLOSE w = true) ∧ t.dw = s.dw ∧ t.eo = s.eo := by
  obtain ⟨htiu, hregs, heo, hdw, -⟩ := s.tiuSaw_live u code
  rw [State.tiuCapture_selected hsel hmode hon, if_neg (ne_true_of_eq_false hfree)]
  generalize (s.tiuSaw u).calLiveHit u code = x at *
  have hown : x.getTiu u = { s.getTiu u with seen := some s.tickNo } := (State.getTiu_of_tiu htiu u).trans (s.getTiu_tiuSaw u)
  have hlost := State.tiuFrontEnd_loses (s := x) (u := u) (c := ⟨s.tickNo, s.time.now, code⟩) (rising := rising) (takers := s.stopTakers u rising)
    (closes := none) (p := p) (by rw [hown]; exact hp) hnear fun w hw => State.stopTakers_ne hw
  rw [hown, State.rget_of_regs hregs, hdw, heo] at hlost
  obtain ⟨hunit, hcount, hclose, htakers, hdw2, heo2⟩ := hlost
  exact ⟨by rw [hunit], hcount, hclose, by rw [hunit]; exact List.mem_append_right _ (List.mem_singleton_self _), htakers, hdw2, heo2⟩

/-- One on a held unit is not taken; it ends the hold of an input unit. -/
theorem State.tiuCapture_held (code : Nat) (hsel : s.ownSelects u rising = true) (hmode : s.tiuMode u ≠ 3)
    (hon : 32 ≤ u → (s.getEo (u - 32)).poweringUp = false ∧ s.bankOn (u - 32) = true) (hheld : (s.getTiu u).calHeld = true) :
    let t := s.tiuCapture u code rising
    (t.getTiu u).flight = (s.getTiu u).flight ∧ t.rget ⟨.tiuCntCalhold, u, 0, 0⟩ = counted (s.rget ⟨.tiuCntCalhold, u, 0, 0⟩) 1 ∧
      (t.getTiu u).calHeld = decide (32 ≤ u) ∧ t.dw = s.dw := by
  rw [State.tiuCapture_selected hsel hmode hon, if_pos hheld, s.getTiu_tiuSaw u]
  have hcount : ((s.tiuSaw u).cnt .tiuCntCalhold u).rget ⟨.tiuCntCalhold, u, 0, 0⟩ = counted (s.rget ⟨.tiuCntCalhold, u, 0, 0⟩) 1 :=
    State.rget_cntAdd_same ..
  have hown : ((s.tiuSaw u).cnt .tiuCntCalhold u).getTiu u = { s.getTiu u with seen := some s.tickNo } :=
    (State.getTiu_of_tiu (State.rset_tiu ..) u).trans (s.getTiu_tiuSaw u)
  have hdw : ((s.tiuSaw u).cnt .tiuCntCalhold u).dw = s.dw := State.rset_dw ..
  generalize (s.tiuSaw u).cnt .tiuCntCalhold u = x at *
  dsimp only
  by_cases hu : u < 32
  · rw [if_pos hu, State.getTiu_setTiu_same, decide_eq_false (not_le.mpr hu)]
    exact ⟨rfl, hcount, rfl, hdw⟩
  · rw [if_neg hu, hown, decide_eq_true (not_lt.mp hu)]
    exact ⟨rfl, hcount, hheld, hdw⟩

end Capture

/-! ### Timestamps formed (R110, R111) -/

section Form
variable {s : State} {u : Nat} {f : Flight} {rest : List Flight}

theorem State.foldl_closeDue_effect (l : List Nat) (before : Nat × Nat → Bool) (s : State) :
    let t := l.foldl (fun st w => st.closeDue w before) s
    s.sameBesideTiu t ∧ ∀ v, ∃ n m, t.getTiu v = { s.getTiu v with closeNext := n, closeLost := m } := by
  refine List.foldlRecOn l _ (motive := fun t => s.sameBesideTiu t ∧ ∀ v, ∃ n m, t.getTiu v = { s.getTiu v with closeNext := n, closeLost := m })
    ⟨rfl, fun v => ⟨_, _, rfl⟩⟩ ?_
  rintro t ⟨hbeside, hunits⟩ w -
  obtain ⟨hbeside2, hunits2⟩ := t.closeDue_effect w before
  refine ⟨hbeside.trans hbeside2, fun v => ?_⟩
  obtain ⟨n, m, h⟩ := hunits v
  obtain ⟨n2, m2, h2⟩ := hunits2 v
  exact ⟨n2, m2, by rw [h2, h]⟩

/-- A hit has left the flight of its unit, the losses before it marked. -/
def State.tiuLanded (s : State) (u : Nat) (f : Flight) (rest : List Flight) : State :=
  let s0 := (u :: s.stopTakers u f.rising).foldl (fun st w => st.closeDue w (beforeHit f)) s
  s0.setTiu u { s0.getTiu u with flight := rest }

theorem State.tiuLanded_effect (s : State) (u : Nat) (f : Flight) (rest : List Flight) : s.sameBesideTiu (s.tiuLanded u f rest) ∧
    ∃ n m, (s.tiuLanded u f rest).getTiu u = { s.getTiu u with flight := rest, closeNext := n, closeLost := m } := by
  obtain ⟨hbeside, hunits⟩ := s.foldl_closeDue_effect (u :: s.stopTakers u f.rising) (beforeHit f)
  obtain ⟨n, m, hown⟩ := hunits u
  exact ⟨hbeside.trans (State.setTiu_beside ..), n, m, (State.getTiu_setTiu_same ..).trans (by rw [hown])⟩

/-- The input that a unit makes of its own hit. -/
def State.hitInput (s : State) (u : Nat) (f : Flight) (arb : Bool) : TiuIn :=
  ⟨s.stampOf u f.tk f.code, f.tick, f.tag, .half ⟨f.rising, false, s.ownStart u f.rising, s.ownStop u f.rising, arb, f.valid, f.deg, f.code⟩⟩

theorem UnitView.ownStart {t : State} (h : UnitView s t u) (rising : Bool) : t.ownStart u rising = s.ownStart u rising := by
  simp only [State.ownStart, h.fget (f := F.tiuSel_START_SRC) (by decide), h.fget (f := F.tiuCtl_EDGES) (by decide)]

theorem UnitView.ownStop {t : State} (h : UnitView s t u) (rising : Bool) : t.ownStop u rising = s.ownStop u rising := by
  simp only [State.ownStop, h.fget (f := F.tiuSel_STOP_SRC) (by decide), h.fget (f := F.tiuSel_STOP_UNIT) (by decide),
    h.fget (f := F.tiuSel_STOP_EDGES) (by decide)]

/-- In TIMESTAMP and INTERVAL mode a formed timestamp reaches the controller. -/
theorem State.tiuOwnHit_input {t : State} (hview : UnitView s t u) (arb : Bool) (hmode : s.tiuMode u = 1 ∨ s.tiuMode u = 2) :
    t.tiuOwnHit u f (s.stampOf u f.tk f.code) arb = t.tiuInput u (s.hitInput u f arb) := by
  rw [State.hitInput, ← hview.ownStart, ← hview.ownStop]
  exact if_pos (by rw [hview.mode]; exact hmode)

/-- The oldest hit in flight has its timestamp, its unit selects it, and nothing holds it back: its tag is within the limit, it comes before
all that waits or is in flight and before the expiry, an arm admits it, and the FIFO has room. -/
structure HitDue (s : State) (u : Nat) (f : Flight) (rest : List Flight) : Prop where
  oldest : (s.getTiu u).flight = f :: rest
  formed : f.tick + 28 ≤ s.tickNo
  own : f.own = true
  tagged : f.tag ≤ s.fget F.dwCtl_GEN_LIMIT
  room : (s.getTiu u).fifo.length + (s.getTiu u).reserved < 64
  alone : (s.getTiu u).ins = []
  first : ∀ g ∈ rest, g.own = true → s.stampOf u f.tk f.code ≤ s.stampOf u g.tk g.code
  inTime : ∀ e, s.tiuExpiry u = some e → s.stampOf u f.tk f.code < e
  admitted : s.armAdmits u (s.stampOf u f.tk f.code) = true

/-- The hit that has landed is announced and goes to its own unit, then to the units that take their stops from it. -/
theorem State.tiuForm_gives (h : HitDue s u f rest) (arb : Bool) (hmode : s.tiuMode u = 1 ∨ s.tiuMode u = 2) :
    let ts := s.stampOf u f.tk f.code
    let t := ((s.tiuLanded u f rest).raiseEv (Prod.tiuHit u) ts f.tag).tiuOwnHit u f ts arb
    s.tiuForm u arb = (t.stopTakers u f.rising).foldl (fun st w => st.tiuGiveStop w f ts arb) t := by
  intro ts t
  have hused : f.own ∧ s.tiuMode u ≠ 0 := ⟨h.own, by omega⟩
  unfold State.tiuForm
  dsimp only
  rw [h.oldest]
  dsimp only
  rw [if_neg (not_lt.mpr h.formed), if_pos hused]
  rfl

/-- The oldest hit in flight, which the unit itself selects, leaves it, is announced and reaches the controller; what other units do with it
leaves its own alone. -/
theorem State.tiuForm_own (hu : u < 96) (h : HitDue s u f rest) (arb : Bool) (hmode : s.tiuMode u = 1 ∨ s.tiuMode u = 2) :
    ∃ x, UnitView s x u ∧ (∃ n m, x.getTiu u = { s.getTiu u with flight := rest, closeNext := n, closeLost := m }) ∧
      x.raises (Prod.tiuHit u) (s.stampOf u f.tk f.code) f.tag s.tickNo ∧ x.eo = s.eo ∧
      UnitStands (x.tiuInput u (s.hitInput u f arb)) (s.tiuForm u arb) u := by
  obtain ⟨hbeside, n, m, hunit⟩ := s.tiuLanded_effect u f rest
  have hform := State.tiuForm_gives h arb hmode
  have hlimit : (s.tiuLanded u f rest).fget F.dwCtl_GEN_LIMIT = s.fget F.dwCtl_GEN_LIMIT := State.fget_of_rget (State.rget_of_regs hbeside.regs _)
  obtain ⟨hraises, hdw⟩ := State.raiseEv_queued (s := s.tiuLanded u f rest) (prod := Prod.tiuHit u) (ts := s.stampOf u f.tk f.code) (tag := f.tag)
    (vectorOf_tiu (by unfold Prod.tiuHit; omega)) (by rw [hlimit]; exact h.tagged)
  have hlanded : UnitView s (s.tiuLanded u f rest) u := .of_units hbeside (by rw [hunit]) (by rw [hunit]) (by rw [hunit])
  have hview := hlanded.trans (.of_dw hdw)
  rw [hlanded.tickNo] at hraises
  dsimp only at hform
  generalize (s.tiuLanded u f rest).raiseEv (Prod.tiuHit u) (s.stampOf u f.tk f.code) f.tag = x at *
  rw [State.tiuOwnHit_input hview arb hmode] at hform
  refine ⟨x, hview, ⟨n, m, (State.getTiu_of_tiu hdw.tiu_eq u).trans hunit⟩, hraises, (EventFrame.of_sameBesideDw hdw).eo.trans hbeside.eo, ?_⟩
  rw [hform]
  exact .foldl (fun t w => t.tiuInput_work w _) (fun w hw => State.stopTakers_ne hw) _

end Form

end Sys2Proof.Machine
end

section
/-! PROOFS. What O18 says of overflows, timeouts and events at a unit, and O18 itself (R113, R117 to R123, R128). -/

namespace Sys2Proof.Machine

section Ends
variable {s : State} {u : Nat} {e : Instant}

theorem State.tiuOverflow_ends {h : Half} (hh : (s.getTiu u).half = some h) (hpast : h.tick + 2 ^ 24 ≤ s.tickNo)
    (hexp : ∀ x, s.tiuExpiry u = some x → h.ts + 2 ^ 24 * lsbPerNs ≤ x) (hahead : ∀ f ∈ s.hitsAhead u, h.tick + 2 ^ 24 ≤ f.2) :
    s.tiuOverflow u = s.tiuOvf u h := by
  have hall : (s.tiuExpiry u).all (fun x => decide (h.ovfAt ≤ x)) = true := by
    cases he : s.tiuExpiry u with
    | none => rfl
    | some x =>
      rw [Option.all_some, decide_eq_true_iff, Half.ovfAt]
      exact hexp x he
  have hovf : s.ovfBefore u s.tickNo = some h := by
    unfold State.ovfBefore
    rw [hh]
    dsimp only
    rw [hall, Half.ovfTick]
    exact if_pos ⟨hpast, rfl⟩
  unfold State.tiuOverflow
  rw [hovf]
  refine if_neg fun hany => ?_
  obtain ⟨f, hf, hlt⟩ := List.any_eq_true.mp hany
  exact absurd (of_decide_eq_true hlt) (not_lt.mpr (hahead f hf))

theorem State.tiuTimeout_ends (he : s.tiuExpiry u = some e) (hpast : e ≤ s.nowI) (hbefore : s.flightBefore u e = false)
    (hhalf : ∀ h, (s.getTiu u).half = some h → s.tickNo < h.tick + 2 ^ 24 ∨ e < h.ts + 2 ^ 24 * lsbPerNs) :
    s.tiuTimeout u = s.tiuExpire u e := by
  have hovf : s.ovfBefore u s.tickNo = none := by
    unfold State.ovfBefore
    split
    · rfl
    next h hh =>
      refine if_neg fun hended => ?_
      obtain ⟨htick, hall⟩ := hended
      rw [he, Option.all_some] at hall
      exact (hhalf h hh).elim (not_lt.mpr htick) (not_lt.mpr (of_decide_eq_true hall))
  unfold State.tiuTimeout
  rw [he]
  dsimp only
  rw [hbefore, hovf, decide_eq_false (not_lt.mpr hpast)]
  rfl

end Ends

/-! ### Events at a unit (R117, R128) -/

section Events
variable {s : State} {u con : Nat} {g : Group} {e : Stamp} {isStart : Bool}

theorem State.tiuEventHalf_one (hsrc : (if isStart then decide (s.fget F.tiuSel_START_SRC u = 1) else decide (s.fget F.tiuSel_STOP_SRC u = 2)) = true)
    (hm : s.tiuMode u = 2) :
    let st := s.closeDue u (pastPath s.tickNo)
    s.tiuEventHalf u isStart [e] =
      st.tiuInput u ⟨e.ts, st.tickOf e.ts, e.tag, .half ⟨false, true, isStart, !isStart, false, st.time.valid, st.deg, 0⟩⟩ := by
  unfold State.tiuEventHalf
  exact if_pos ⟨hsrc, hm⟩

/-- An event whose half TIU_SEL takes reaches the controller, which judges it as before. -/
theorem State.onGroup_half (hcon : con < 0x1A0) (hg : findGroup con 0 s.tickNo s.dw.inbox = some g) (hev : g.evs = [e])
    (hsrc : (if isStart then decide (s.fget F.tiuSel_START_SRC u = 1) else decide (s.fget F.tiuSel_STOP_SRC u = 2)) = true) (hm : s.tiuMode u = 2) :
    ∃ y h, UnitView s y u ∧ (∃ n m, y.getTiu u = { s.getTiu u with closeNext := n, closeLost := m }) ∧
      (∀ v, (y.getTiu v).flight = (s.getTiu v).flight) ∧ y.regs = s.regs ∧ y.eo = s.eo ∧ y.dw = (s.groupTaken con).dw ∧
      h.event = true ∧ h.qStart = isStart ∧ h.qStop = !isStart ∧
      s.onGroup con (fun evs st => st.tiuEventHalf u isStart evs) = y.tiuInput u ⟨e.ts, s.tickOf e.ts, e.tag, .half h⟩ := by
  have htaken : UnitView s (s.groupTaken con) u := .of_dw (s.groupTaken_beside con)
  have hunit := s.getTiu_groupTaken con
  have hregs : (s.groupTaken con).regs = s.regs := State.setDw_regs ..
  have heo : (s.groupTaken con).eo = s.eo := State.setDw_eo ..
  rw [State.onGroup_eo hcon hg, hev]
  generalize s.groupTaken con = st at *
  obtain ⟨hbeside, hunits⟩ := st.closeDue_effect u (pastPath st.tickNo)
  obtain ⟨n, m, hown⟩ := hunits u
  have hview : UnitView s (st.closeDue u (pastPath st.tickNo)) u :=
    htaken.trans (.of_units hbeside (by rw [hown]) (by rw [hown]) (by rw [hown]))
  have hevent := State.tiuEventHalf_one (s := st) (u := u) (e := e) (isStart := isStart)
    (by rw [htaken.fget (by decide), htaken.fget (by decide)]; exact hsrc) ((htaken.mode u).trans hm)
  dsimp only at hevent
  rw [hview.tickOf] at hevent
  refine ⟨_, _, hview, ⟨n, m, by rw [hown, hunit]⟩, fun v => ?_, hbeside.regs.trans hregs, hbeside.eo.trans heo, hbeside.dw, ?_, ?_, ?_, hevent⟩
  · obtain ⟨n2, m2, h⟩ := hunits v
    rw [h, hunit]
  all_goals rfl

end Events

/-! ### A hit that has landed (R118, R123) -/

section Landed
variable {s x : State} {u : Nat} {f : Flight} {rest : List Flight}

/-- A unit that takes no stops from another takes a formed timestamp at once. -/
theorem TakesNow.of_landed (h : HitDue s u f rest) (hview : UnitView s x u) {n : Bool} {m : List (Nat × Nat)}
    (hunit : x.getTiu u = { s.getTiu u with flight := rest, closeNext := n, closeLost := m }) (hstop : s.stopUnit u = none)
    (hshort : ∀ p, (s.getTiu u).half = some p → f.tick < p.tick + 2 ^ 24) : TakesNow x u (s.stampOf u f.tk f.code) f.tick where
  ins := by rw [hunit]; exact h.alone
  first := by
    refine .inr (List.any_eq_false.mpr ?_)
    have hahead : x.hitsAhead u = ((rest.filter Flight.own).map fun f => (s.stampOf u f.tk f.code, f.tick)) := by
      simp only [State.hitsAhead, hview.stopUnit, hstop, hunit, hview.stampOf, List.append_nil]
    rw [hahead]
    rintro y hy
    obtain ⟨g, hg, rfl⟩ := List.mem_map.mp hy
    obtain ⟨hmem, hown⟩ := List.mem_filter.mp hg
    simpa using h.first g hmem hown
  inTime := by rw [hview.expiry]; exact h.inTime
  short := by rw [hview.half]; exact hshort

theorem State.stopUnit_mode (h : s.tiuMode u = 1) : s.stopUnit u = none := if_neg fun e => absurd (h.symm.trans e.1) (by decide)

theorem State.stopUnit_own (h : s.fget F.tiuSel_STOP_SRC u = 0) : s.stopUnit u = none := if_neg fun e => absurd (h.symm.trans e.2.1) (by decide)

/-- In TIMESTAMP mode a formed timestamp is a record. -/
theorem State.tiuForm_timestamp (hu : u < 96) (h : HitDue s u f rest) (arb : Bool) (hm : s.tiuMode u = 1) (hnone : (s.getTiu u).half = none) :
    let ts := s.stampOf u f.tk f.code
    let t := s.tiuForm u arb
    (∃ r, (t.getTiu u).fifo.getLast?.map FifoRec.rcd = some r ∧ r.time = ts ∧ r.value = 0 ∧ r.src = u ∧ r.aux = f.code ∧
      r.seq = (s.getTiu u).seq) ∧
      (t.getTiu u).flight = rest ∧ t.raises (Prod.tiuHit u) ts f.tag s.tickNo ∧ t.eo = s.eo ∧ t.time = s.time := by
  intro ts t
  obtain ⟨x, hview, ⟨n, m, hunit⟩, hraises, heo, hstands⟩ := State.tiuForm_own hu h arb (.inl hm)
  have htakes : TakesNow x u ts f.tick := .of_landed h hview hunit (State.stopUnit_mode hm)
    fun p hp => (Option.some_ne_none p (hp.symm.trans hnone)).elim
  have hwork := x.tiuInput_work u (s.hitInput u f arb)
  obtain ⟨arm, seq, fl, hrec⟩ := State.tiuInput_timestamp (s := x) (x := s.hitInput u f arb) hu (by rw [hunit]; exact h.room) rfl
    ((hview.mode _).trans hm) htakes ((hview.admits _).trans h.admitted)
  have hnow := hstands.own.trans hrec
  have hclock := hstands.clock.trans hwork.clock
  rw [← hview.tickNo] at hraises ⊢
  exact ⟨⟨_, (lastRecord_of hnow).trans (getLast?_rcd ..), rfl, rfl, rfl, rfl, by rw [hunit]⟩, by rw [hnow, hunit],
    State.raises_mono (List.Subset.trans hwork.events hstands.events) (State.tickNo_of_clock hclock) hraises,
    hstands.eo.trans (hwork.eo.trans heo), (State.time_of_clock hclock).trans hview.time⟩

/-- In INTERVAL mode a formed timestamp of a unit's own stop completes the pair of the start that waits. -/
theorem State.tiuForm_pair {p : Half} (hu : u < 96) (h : HitDue s u f rest) (arb : Bool) (hm : s.tiuMode u = 2)
    (hp : (s.getTiu u).half = some p) (hstart : p.isStart = true) (hshort : f.tick < p.tick + 2 ^ 24) (hsrc : s.fget F.tiuSel_STOP_SRC u = 0)
    (hsense : senseOk (s.fget F.tiuSel_STOP_EDGES u) f.rising = true)
    (hafter : s.fbit F.tiuSel_STOP_AFTER u = true → p.ts ≤ s.stampOf u f.tk f.code) :
    let v := (spanBetween (s.stampOf u f.tk f.code) p.ts).val
    let t := s.tiuForm u arb
    (∃ r, (t.getTiu u).fifo.getLast?.map FifoRec.rcd = some r ∧ r.time = p.ts ∧ r.value = v ∧ r.src = u ∧ r.seq = (s.getTiu u).seq) ∧
      (v < 0 → t.fbit F.tiuStat_REVERSED u = true) ∧ (t.getTiu u).flight = rest := by
  intro v t
  obtain ⟨x, hview, ⟨n, m, hunit⟩, -, -, hstands⟩ := State.tiuForm_own hu h arb (.inr hm)
  have htakes : TakesNow x u (s.stampOf u f.tk f.code) f.tick := .of_landed h hview hunit (State.stopUnit_own hsrc)
    fun k hk => by rw [Option.some.inj (hk.symm.trans hp)]; exact hshort
  have hstop : s.ownStop u f.rising = true := by simp [State.ownStop, hsrc, hsense]
  obtain ⟨⟨arm, half, seq, fl, hrec, -⟩, hrev⟩ := State.tiuInput_pairs (s := x) (x := s.hitInput u f arb) hu (by rw [hunit]; exact h.room) rfl
    ((hview.mode _).trans hm) htakes ((hview.admits _).trans h.admitted) (hview.half.trans hp) hstart hstop
    (by rw [hview.fbit (by decide)]; exact hafter)
  have hnow := hstands.own.trans hrec
  refine ⟨⟨_, (lastRecord_of hnow).trans (getLast?_rcd ..), rfl, rfl, rfl, by rw [hunit]⟩, fun hv => ?_, by rw [hnow, hunit]⟩
  exact (State.fbit_of_rget (hstands.regs _ (show Reg.tiuStat.info.blk = .tiu by decide) rfl)).trans (hrev hv)

end Landed

/-- Settles O18: a hit is captured, lost or held back (`tiuCapture_far`, `tiuCapture_near`, `tiuCapture_held`); a formed timestamp reaches the
controller (`tiuForm_own`), as an event does (`onGroup_half`), which takes it at once (`tiuInput_timestamp`, `tiuInput_starts`,
`tiuInput_pairs`); overflow and timeout end what waits (`tiuOvf_effect`, `tiuExpire_effect`). -/
theorem tiuHitsBecomeRecords : Obligations.TiuHitsBecomeRecords := by
  intro u s hrun c key pos room last unexpired
  have hlive (t : State) : s.live t = t := if_pos hrun
  refine ⟨fun code rising hsel hmode hon => ?capture, fun arb f rest hflight hdue hown htag hroom => ?form,
    fun h hh hpast hexp hahead hroom => ?overflow, fun e he hpast hbefore hhalf hroom => ?timeout,
    fun g e hev hm hins hbefore hexp hadm => ?events⟩
  case capture =>
    have hexec : exec (.tiuHitCapture u code rising) s = .next (s.tiuCapture u.val code.val rising) := congrArg Host.Outcome.next (hlive _)
    exact ⟨fun hfree hfar => ⟨_, hexec, State.tiuCapture_far code.val hsel hmode hon hfree hfar⟩,
      fun p hfree hp hnear => ⟨_, hexec, State.tiuCapture_near hsel hmode hon hfree hp hnear⟩,
      fun hheld => ⟨_, hexec, State.tiuCapture_held code.val hsel hmode hon hheld⟩⟩
  case form =>
    intro ts hins hrest hexp hadm
    have hexec : exec (.tiuRecordComplete u arb) s = .next (s.tiuForm u.val arb) := congrArg Host.Outcome.next (hlive _)
    have hdueNow : HitDue s u.val f rest := ⟨hflight, hdue, hown, htag, hroom, hins, hrest, hexp, hadm⟩
    exact ⟨fun hm hnone => ⟨_, hexec, State.tiuForm_timestamp u.isLt hdueNow arb hm hnone⟩, fun p hm hp hstart hshort hsrc hsense hafter =>
      ⟨_, hexec, State.tiuForm_pair u.isLt hdueNow arb hm hp hstart hshort hsrc hsense hafter⟩⟩
  case overflow =>
    have hexec : exec (.tiuOverflow u) s = .next (s.tiuOvf u.val h) :=
      congrArg Host.Outcome.next ((hlive _).trans (State.tiuOverflow_ends hh hpast hexp hahead))
    exact ⟨_, hexec, State.tiuOvf_effect u.isLt hroom h⟩
  case timeout =>
    have hexec : exec (.tiuTimeout u) s = .next (s.tiuExpire u.val e) :=
      congrArg Host.Outcome.next ((hlive _).trans (State.tiuTimeout_ends he hpast hbefore hhalf))
    exact ⟨_, hexec, State.tiuExpire_effect u.isLt hroom e⟩
  case events =>
    have htakes {y : State} {n : Bool} {m : List (Nat × Nat)} (hview : UnitView s y u.val)
        (hunit : y.getTiu u.val = { c with closeNext := n, closeLost := m }) (hflights : ∀ v, (y.getTiu v).flight = (s.getTiu v).flight)
        (hshort : ∀ h, c.half = some h → s.tickOf e.ts < h.tick + 2 ^ 24) : TakesNow y u.val e.ts (s.tickOf e.ts) :=
      TakesNow.of_view ⟨hins, .inr hbefore, hexp, hshort⟩ hview hflights (by rw [hunit]; exact hins)
    refine ⟨fun hg hsrc hnone => ?_, fun p hg hsrc hp hstart hshort hafter hroom => ?_⟩
    · obtain ⟨y, h, hview, ⟨n, m, hunit⟩, hflights, hregs, heo, hdw, hevent, hqStart, -, hgroup⟩ :=
        State.onGroup_half (isStart := true) (by unfold Con.tiuStart; omega) hg hev (decide_eq_true hsrc) hm
      have hexec : exec (.tiuStart u) s = .next _ := congrArg Host.Outcome.next ((hlive _).trans hgroup)
      obtain ⟨hbeside, k, hk, hkStart, hkTs, hkEvent, hkTag⟩ := State.tiuInput_starts (s := y) (x := ⟨e.ts, s.tickOf e.ts, e.tag, .half h⟩) rfl
        ((hview.mode _).trans hm) (htakes hview hunit hflights fun h hh => (Option.some_ne_none h (hh.symm.trans hnone)).elim)
        ((hview.admits _).trans hadm) (hview.half.trans hnone) hqStart
      exact ⟨_, hexec, ⟨k, hk, hkStart, hkTs, hkEvent.trans hevent, hkTag⟩, hbeside.regs.trans hregs, hbeside.eo.trans heo, hbeside.dw.trans hdw⟩
    · obtain ⟨y, h, hview, ⟨n, m, hunit⟩, hflights, -, heo, -, -, hqStart, hqStop, hgroup⟩ :=
        State.onGroup_half (isStart := false) (by unfold Con.tiuStop; omega) hg hev (decide_eq_true hsrc) hm
      have hexec : exec (.tiuStop u) s = .next _ := congrArg Host.Outcome.next ((hlive _).trans hgroup)
      obtain ⟨⟨arm, half, seq, fl, hrec, hhalf⟩, -⟩ := State.tiuInput_pairs (s := y) (x := ⟨e.ts, s.tickOf e.ts, e.tag, .half h⟩) u.isLt
        (by rw [hunit]; exact hroom) rfl ((hview.mode _).trans hm)
        (htakes hview hunit hflights fun h hh => by rw [Option.some.inj (hh.symm.trans hp)]; exact hshort)
        ((hview.admits _).trans hadm) (hview.half.trans hp) hstart hqStop (by rw [hview.fbit (by decide)]; exact hafter)
      exact ⟨_, hexec, ⟨_, (lastRecord_of hrec).trans (getLast?_rcd ..), rfl, rfl⟩, by rw [hrec]; exact hhalf hqStart,
        (y.tiuInput_work ..).eo.trans heo⟩

end Sys2Proof.Machine
end

section
/-! PROOFS. The Droveway: groups at the inputs of consumers, events raised, what is listed and in force, writes of its registers by name
(R149, R154, R156, R164, R170). -/

namespace Sys2Proof.Machine

/-! ### Registers listed by name -/

section Listed
variable {K V W : Type} [DecidableEq K] {p : K × V → Option W} {k : K} {v : V}

theorem filterMap_eraseCell (h : ∀ v, p (k, v) = none) (l : List (K × V)) : (eraseCell k l).filterMap p = l.filterMap p := by
  induction l with
  | nil => rfl
  | cons c t ih =>
    obtain ⟨k', v⟩ := c
    by_cases hk : k' = k
    · rw [eraseCell, if_pos hk, ih, List.filterMap_cons_none (hk ▸ h v)]
    · rw [eraseCell, if_neg hk, List.filterMap_cons, List.filterMap_cons, ih]

omit [DecidableEq K] in
theorem filterMap_insertCell (code : K → Nat) (h : p (k, v) = none) (l : List (K × V)) :
    (insertCell code k v l).filterMap p = l.filterMap p := by
  induction l with
  | nil => exact List.filterMap_cons_none h
  | cons c t ih =>
    rw [insertCell]
    split
    · exact List.filterMap_cons_none h
    · rw [List.filterMap_cons, List.filterMap_cons, ih]

/-- What is selected of a map's cells stands while a cell is written that is not among it. -/
theorem SMap.filterMap_put [DecidableEq V] (code : K → Nat) (d : V) (h : ∀ v, p (k, v) = none) (m : SMap K V) :
    (m.put code d k v).cells.filterMap p = m.cells.filterMap p := by
  unfold SMap.put
  split
  · exact filterMap_eraseCell h _
  · exact (filterMap_insertCell code (h v) _).trans (filterMap_eraseCell h _)

end Listed

section Droveway
variable {s t : State} {k : RegKey} {v : Nat}

theorem State.listed_rset {r : Reg} (h : k.r ≠ r) : (s.rset k v).listed r = s.listed r := SMap.filterMap_put _ _ (fun _ => if_neg h) _

/-! ### Values in force and selections (R156, R164) -/

theorem State.inForce_congr (hl : t.dw.late = s.dw.late) (ht : t.tickNo = s.tickNo) (hr : t.rget k = s.rget k) :
    t.inForce k = s.inForce k := by
  unfold State.inForce
  rw [hl, ht, hr]

theorem State.conSels_rset (h : k.r ≠ .dwConSel) : (s.rset k v).conSels = s.conSels := by
  have hin (x : Nat) : (s.rset k v).inForce ⟨.dwConSel, x, 0, 0⟩ = s.inForce ⟨.dwConSel, x, 0, 0⟩ :=
    State.inForce_congr rfl rfl (State.rget_rset_other _ _ _ _ fun e => h (congrArg RegKey.r e).symm)
  simp only [State.conSels, State.listed_rset h, hin]
  rfl

theorem State.consumersOf_rset (c : Nat) (h : k.r ≠ .dwConSel) : (s.rset k v).consumersOf c = s.consumersOf c := by
  unfold State.consumersOf
  rw [State.conSels_rset h]

theorem State.consumersOf_fonIf {b : Bool} {f : Fld} {i : Nat} (c : Nat) (h : f.reg ≠ .dwConSel) :
    (s.fonIf b f i).consumersOf c = s.consumersOf c := by
  unfold State.fonIf
  split
  · exact (State.consumersOf_rset c (k := ⟨f.reg, i, 0, 0⟩) h : (s.fset f 1 i).consumersOf c = _)
  · rfl

/-! ### Groups at inputs (R149) -/

theorem mem_insertStamp {a e : Stamp} {l : List Stamp} : a ∈ insertStamp e l ↔ a = e ∨ a ∈ l := by
  induction l with
  | nil => simp [insertStamp]
  | cons b l ih =>
    rw [insertStamp]
    split
    · exact List.mem_cons
    · rw [List.mem_cons, ih, List.mem_cons, or_left_comm]

theorem mem_foldl_insertStamp {a : Stamp} {evs l : List Stamp} :
    a ∈ evs.foldl (fun l e => insertStamp e l) l ↔ a ∈ evs ∨ a ∈ l := by
  induction evs generalizing l with
  | nil => simp
  | cons e evs ih => rw [List.foldl_cons, ih, mem_insertStamp, List.mem_cons, or_left_comm, or_assoc]

section Deliver
variable {x due : Nat} {evs : List Stamp} {g : Group}

/-- The group with events put among its own where it is the one of an input and a tick. -/
def Group.joined (x : Nat) (evs : List Stamp) (due : Nat) (g : Group) : Group :=
  if g.x = x ∧ g.due = due then { g with evs := evs.foldl (fun l e => insertStamp e l) g.evs } else g

/-- Events join the group of their tick at the input, or make one. -/
theorem State.deliver_inbox (s : State) (x : Nat) (evs : List Stamp) (due : Nat) :
    ((∃ g ∈ s.dw.inbox, g.x = x ∧ g.due = due) ∧ (s.deliver x evs due).dw.inbox = s.dw.inbox.map (Group.joined x evs due)) ∨
      ((∀ g ∈ s.dw.inbox, g.x = x → g.due ≠ due) ∧ (s.deliver x evs due).dw.inbox = s.dw.inbox ++ [⟨x, evs, due⟩]) := by
  by_cases h : s.dw.inbox.any (fun g => decide (g.x = x ∧ g.due = due)) = true
  · refine .inl ⟨by simpa using h, (if_pos h).trans (List.map_congr_left fun g _ => ?_)⟩
    simp [Group.joined]
  · exact .inr ⟨by simpa using h, if_neg h⟩

theorem Group.joined_keeps (x : Nat) (evs : List Stamp) (due : Nat) (g : Group) :
    (g.joined x evs due).x = g.x ∧ (g.joined x evs due).due = g.due ∧ g.evs ⊆ (g.joined x evs due).evs := by
  unfold Group.joined
  split
  · exact ⟨rfl, rfl, fun _ ha => mem_foldl_insertStamp.mpr (.inr ha)⟩
  · exact ⟨rfl, rfl, List.Subset.refl _⟩

theorem State.deliver_keeps (hg : g ∈ s.dw.inbox) :
    ∃ g2 ∈ (s.deliver x evs due).dw.inbox, g2.x = g.x ∧ g2.due = g.due ∧ g.evs ⊆ g2.evs := by
  rcases s.deliver_inbox x evs due with ⟨-, hin⟩ | ⟨-, hin⟩ <;> rw [hin]
  · exact ⟨_, List.mem_map_of_mem hg, g.joined_keeps x evs due⟩
  · exact ⟨g, List.mem_append_left _ hg, rfl, rfl, List.Subset.refl _⟩

theorem State.deliver_holds (s : State) (x : Nat) (evs : List Stamp) (due : Nat) :
    ∃ g ∈ (s.deliver x evs due).dw.inbox, g.x = x ∧ g.due = due ∧ evs ⊆ g.evs := by
  rcases s.deliver_inbox x evs due with ⟨⟨g, hg, hx, hdue⟩, hin⟩ | ⟨-, hin⟩ <;> rw [hin]
  · refine ⟨_, List.mem_map_of_mem hg, (g.joined_keeps x evs due).1.trans hx, (g.joined_keeps x evs due).2.1.trans hdue, ?_⟩
    rw [Group.joined, if_pos ⟨hx, hdue⟩]
    exact fun _ ha => mem_foldl_insertStamp.mpr (.inl ha)
  · exact ⟨_, List.mem_append_right _ (List.mem_singleton_self _), rfl, rfl, List.Subset.refl _⟩

theorem State.deliver_other (h : g.x ≠ x) : g ∈ (s.deliver x evs due).dw.inbox ↔ g ∈ s.dw.inbox := by
  rcases s.deliver_inbox x evs due with ⟨-, hin⟩ | ⟨-, hin⟩ <;> rw [hin]
  · have hself : Group.joined x evs due g = g := if_neg fun e => h e.1
    refine ⟨fun hg => ?_, fun hg => List.mem_map.mpr ⟨g, hg, hself⟩⟩
    obtain ⟨g2, hg2, rfl⟩ := List.mem_map.mp hg
    have hself2 : Group.joined x evs due g2 = g2 := if_neg fun e => h ((g2.joined_keeps x evs due).1.trans e.1)
    rwa [hself2]
  · rw [List.mem_append, List.mem_singleton, or_iff_left fun e => h (congrArg Group.x e)]

theorem State.deliver_new (h : ∀ g ∈ s.dw.inbox, g.x = x → g.due ≠ due) : (⟨x, evs, due⟩ : Group) ∈ (s.deliver x evs due).dw.inbox := by
  rcases s.deliver_inbox x evs due with ⟨⟨g, hg, hx, hdue⟩, -⟩ | ⟨-, hin⟩
  · exact absurd hdue (h g hg hx)
  · rw [hin]
    exact List.mem_append_right _ (List.mem_singleton_self _)

variable {l : List Nat}

theorem State.foldl_deliver_keeps (l : List Nat) (hg : g ∈ s.dw.inbox) :
    ∃ g2 ∈ (l.foldl (fun st x => st.deliver x evs due) s).dw.inbox, g2.x = g.x ∧ g2.due = g.due ∧ g.evs ⊆ g2.evs := by
  induction l generalizing s g with
  | nil => exact ⟨g, hg, rfl, rfl, List.Subset.refl _⟩
  | cons y l ih =>
    obtain ⟨g1, hg1, hx1, hdue1, hevs1⟩ := State.deliver_keeps (x := y) (evs := evs) (due := due) hg
    obtain ⟨g2, hg2, hx2, hdue2, hevs2⟩ := ih hg1
    exact ⟨g2, hg2, hx2.trans hx1, hdue2.trans hdue1, List.Subset.trans hevs1 hevs2⟩

/-- Each consumer that events are delivered to has a group of their tick that holds them. -/
theorem State.foldl_deliver_holds (s : State) (hx : x ∈ l) :
    ∃ g ∈ (l.foldl (fun st x => st.deliver x evs due) s).dw.inbox, g.x = x ∧ g.due = due ∧ evs ⊆ g.evs := by
  induction l generalizing s with
  | nil => cases hx
  | cons y l ih =>
    rcases List.mem_cons.mp hx with rfl | hx
    · obtain ⟨g1, hg1, hx1, hdue1, hevs1⟩ := s.deliver_holds x evs due
      obtain ⟨g2, hg2, hx2, hdue2, hevs2⟩ := State.foldl_deliver_keeps (evs := evs) (due := due) l hg1
      exact ⟨g2, hg2, hx2.trans hx1, hdue2.trans hdue1, List.Subset.trans hevs1 hevs2⟩
    · exact ih _ hx

theorem State.foldl_deliver_other (h : g.x ∉ l) : g ∈ (l.foldl (fun st x => st.deliver x evs due) s).dw.inbox ↔ g ∈ s.dw.inbox := by
  induction l generalizing s with
  | nil => rfl
  | cons y l ih =>
    rw [List.mem_cons, not_or] at h
    exact (ih h.2).trans (State.deliver_other h.1)

/-- Where nothing of their tick is at an input, the events make a group of their own there. -/
theorem State.foldl_deliver_new (hn : l.Nodup) (hx : x ∈ l) (h : ∀ g ∈ s.dw.inbox, g.x = x → g.due ≠ due) :
    (⟨x, evs, due⟩ : Group) ∈ (l.foldl (fun st x => st.deliver x evs due) s).dw.inbox := by
  induction l generalizing s with
  | nil => cases hx
  | cons y l ih =>
    rw [List.nodup_cons] at hn
    rcases List.mem_cons.mp hx with rfl | hx
    · exact (State.foldl_deliver_other (s := s.deliver x evs due) hn.1).mpr (State.deliver_new h)
    · have hne : x ≠ y := fun e => hn.1 (e ▸ hx)
      exact ih hn.2 hx fun g hg hgx => h g ((State.deliver_other (hgx ▸ hne)).mp hg) hgx

/-- Events have come to the inputs of consumers for a tick: into a group of each, of their own where nothing of that tick stood there. -/
def DeliveredTo (l : List Nat) (evs : List Stamp) (due : Nat) (was now : List Group) : Prop :=
  ∀ x ∈ l, (∃ g ∈ now, g.x = x ∧ g.due = due ∧ evs ⊆ g.evs) ∧
    (l.Nodup → (∀ g ∈ was, g.x = x → g.due ≠ due) → (⟨x, evs, due⟩ : Group) ∈ now)

theorem State.foldl_deliver_delivers (s : State) (l : List Nat) (evs : List Stamp) (due : Nat) :
    DeliveredTo l evs due s.dw.inbox (l.foldl (fun st x => st.deliver x evs due) s).dw.inbox :=
  fun _ hx => ⟨State.foldl_deliver_holds s hx, fun hn h => State.foldl_deliver_new hn hx h⟩

/-- Deliveries change nothing but the inbox. -/
theorem State.foldl_deliver_inbox (s : State) (l : List Nat) (evs : List Stamp) (due : Nat) :
    ∃ b, l.foldl (fun st x => st.deliver x evs due) s = s.setDw { s.dw with inbox := b } := by
  refine List.foldlRecOn l _ (motive := fun t => ∃ b, t = s.setDw { s.dw with inbox := b }) ⟨s.dw.inbox, rfl⟩ ?_
  rintro _ ⟨b, rfl⟩ x -
  exact ⟨_, rfl⟩

end Deliver

/-! ### Events raised (R149, R168) -/

/-- An event without a vector, its tag within the limit, is queued and goes to the inputs its fixed wires reach. -/
theorem State.raiseEv_queues {prod tag : Nat} {ts : Instant} (hv : vectorOf prod = none) (ht : tag ≤ s.fget F.dwCtl_GEN_LIMIT) :
    ∃ b, s.raiseEv prod ts tag = s.setDw { s.dw with evq := s.dw.evq ++ [⟨prod, ts, tag, s.tickNo, []⟩], inbox := b } := by
  rw [State.raiseEv, if_pos rfl, State.raiseNow, if_neg (not_lt.mpr ht), State.sendVector_none hv]
  exact State.foldl_deliver_inbox ..

/-- The events of the timers, DW_SWF and flocks have no vector (R432). -/
theorem vectorOf_dw {prod : Nat} (h : 0x350 ≤ prod ∧ prod < 0x368 ∨ 0x380 ≤ prod ∧ prod < 0x3A0) : vectorOf prod = none := by
  have hne {p : Nat} (hp : 0x368 ≤ p ∧ p < 0x380) : prod ≠ p := by omega
  have hosyn : ¬ (Prod.osynLock 0 ≤ prod ∧ prod ≤ Prod.osynLock 3) := by
    unfold Prod.osynLock
    omega
  unfold vectorOf
  rw [if_neg (hne (by decide)), if_neg (hne (by decide)), if_neg (hne (by decide)), if_neg (hne (by decide)), if_neg (by omega),
    if_neg fun e => e.elim (hne (by decide)) hosyn]

theorem vectorOf_dwTmr {i : Nat} (h : i < 8) : vectorOf (Prod.dwTmr i) = none := vectorOf_dw (by unfold Prod.dwTmr; omega)
theorem vectorOf_swf {i : Nat} (h : i < 16) : vectorOf (Prod.swf i) = none := vectorOf_dw (by unfold Prod.swf; omega)
theorem vectorOf_flock {f : Nat} (h : f < 32) : vectorOf (Prod.flock f) = none := vectorOf_dw (by unfold Prod.flock; omega)

theorem State.raises_of_mem {prod tag : Nat} {ts : Instant} (h : (⟨prod, ts, tag, s.tickNo, []⟩ : Ev) ∈ s.dw.evq) :
    s.raises prod ts tag s.tickNo := by
  rw [State.raises, if_pos rfl]
  exact h

/-! ### Groups taken (R30, R154) -/

/-- While device time runs, TB and FAB act. -/
theorem State.live_running (h : s.time.run = true) : s.live t = t := if_pos h

/-- A consumer has taken the oldest group that came to its input `lag` ticks ago or earlier. -/
def State.inputTaken (s : State) (x lag : Nat) : State := s.setDw { s.dw with inbox := dropGroup x lag s.tickNo s.dw.inbox }

/-- A consumer whose block is not held in reset acts on the group at its input, `lag` ticks after it has come. -/
theorem State.onGroup_takes {x lag : Nat} {f : List Stamp → State → State} {g : Group} (hg : findGroup x lag s.tickNo s.dw.inbox = some g)
    (h : s.conHeld x = false) : s.onGroup x f lag = f g.evs (s.inputTaken x lag) := by
  rw [State.onGroup, State.takeGroup, hg]
  exact if_neg (ne_true_of_eq_false h)

/-- The pins' and the flocks' consumers are the Droveway's own. -/
theorem State.conHeld_dw {x : Nat} (h : s.fbit F.glbBlkRst_DW = false) (hx : 0x3A8 ≤ x ∧ x < 0x400) : s.conHeld x = false := by
  rw [State.conHeld, if_neg (by omega), if_neg (by omega), if_neg (by omega), if_pos hx.1, h]

/-! ### Writes of its registers by name (R25) -/

/-- A write of a register of one word by one of its fields reaches it. -/
theorem State.busFld_first {q : Requester} {f : Fld} {i x : Nat} (data : BitVec 32) (hs : s.writable q f.reg = true)
    (hm : RegKey.mapped ⟨f.reg, i, 0, 0⟩) (hw : f.reg.info.words = 1) (hb : f.lo ≤ f.hi ∧ f.hi < 32) :
    s.busFld q f data.toNat x i = (s.wroteBy q ⟨f.reg, i, 0, 0⟩).commit q ⟨f.reg, i, 0, 0⟩ (setBits data.toNat f.hi f.lo x) :=
  State.busTo_first hs hm hw (setBits_lt hb.1 hb.2 data.isLt)

theorem dwChMapped : ∀ r ∈ [Reg.dwChCfg, .dwChOwn], ∀ c : Fin 256, RegKey.mapped ⟨r, c.val, 0, 0⟩ := by
  unfold RegKey.mapped
  decide +kernel

theorem dwFlMapped : ∀ f : Fin 32, RegKey.mapped ⟨.dwFlCtl, f.val, 0, 0⟩ := by
  unfold RegKey.mapped
  decide +kernel

theorem dwTmrMapped : ∀ i : Fin 8, RegKey.mapped ⟨.dwTmrCtl, i.val, 0, 0⟩ := by
  unfold RegKey.mapped
  decide +kernel

theorem dwSwfMapped : RegKey.mapped ⟨.dwSwf, 0, 0, 0⟩ := by
  unfold RegKey.mapped
  decide +kernel

end Droveway

end Sys2Proof.Machine
end

section
/-! PROOFS. Channels, timers, DW_SWF and pins of the Droveway (R151 to R153, R155, R157 to R160). -/

namespace Sys2Proof.Machine

/-! ### Channels (R157, R159) -/

section Channel
variable {s : State} {c : Nat} {e0 : Ev} {rest : List Ev}

/-- The channel has taken a group. -/
def State.channelTaken (s : State) (c : Nat) (evs : List Ev) : State :=
  s.setDw { s.dw with evq := s.dw.evq.map fun e => if evs.contains e then { e with taken := c :: e.taken } else e }

/-- The events of a group that the channel's flock lets pass. -/
def State.channelPass (s : State) (c : Nat) (evs : List Ev) : List Ev :=
  evs.filter fun e => !s.fbit F.dwChCfg_FL_MEM c || flockAt (s.flockLog (s.fget F.dwChCfg_FLOCK c)) e.ts

/-- The channel has taken a group, shown what its flock kept back, and counted what passes. -/
def State.channelCounted (s : State) (c : Nat) (evs : List Ev) : State :=
  ((s.channelTaken c evs).fonIf (decide ((s.channelPass c evs).length < evs.length)) F.dwChStat_FLOCKED c).cntAdd .dwChCnt
    (s.channelPass c evs).length c

theorem State.channelEvent_off (hg : s.channelGroup c = e0 :: rest) (hen : s.fbit F.dwChCfg_EN c = false) :
    s.channelEvent c = s.channelTaken c (e0 :: rest) := by
  unfold State.channelEvent
  rw [hg]
  exact if_pos (.inl (ne_true_of_eq_false hen))

theorem State.channelEvent_on (hg : s.channelGroup c = e0 :: rest) (hen : s.fbit F.dwChCfg_EN c = true)
    (ha : s.fbit F.dwChCfg_ASYNC c = false) :
    s.channelEvent c =
      if ¬ s.gateOf c then (s.channelTaken c (e0 :: rest)).fon F.dwChStat_GATED c
      else if (s.channelPass c (e0 :: rest)).isEmpty then
        (s.channelTaken c (e0 :: rest)).fonIf (decide ((s.channelPass c (e0 :: rest)).length < (e0 :: rest).length)) F.dwChStat_FLOCKED c
      else ((s.channelCounted c (e0 :: rest)).consumersOf c).foldl (fun st x => st.deliver x
        ((s.channelPass c (e0 :: rest)).map fun e => ⟨e.ts, e.tag⟩) (e0.tick + 3)) (s.channelCounted c (e0 :: rest)) := by
  have hnot : ¬ (¬ s.fbit F.dwChCfg_EN c = true ∨ s.fbit F.dwChCfg_ASYNC c = true) := by simp [hen, ha]
  unfold State.channelEvent
  rw [hg]
  exact if_neg hnot

theorem State.channelEvent_gated (hg : s.channelGroup c = e0 :: rest) (hen : s.fbit F.dwChCfg_EN c = true)
    (ha : s.fbit F.dwChCfg_ASYNC c = false) (hgate : s.gateOf c = false) :
    s.channelEvent c = (s.channelTaken c (e0 :: rest)).fon F.dwChStat_GATED c :=
  (State.channelEvent_on hg hen ha).trans (if_pos (ne_true_of_eq_false hgate))

theorem State.consumersOf_channelCounted (evs : List Ev) : (s.channelCounted c evs).consumersOf c = s.consumersOf c :=
  (State.consumersOf_rset (k := ⟨.dwChCnt, c, 0, 0⟩) c (show Reg.dwChCnt ≠ .dwConSel by decide)).trans (State.consumersOf_fonIf c (by decide))

theorem State.channelEvent_passes (hg : s.channelGroup c = e0 :: rest) (hen : s.fbit F.dwChCfg_EN c = true)
    (ha : s.fbit F.dwChCfg_ASYNC c = false) (hgate : s.gateOf c = true) (hpass : s.channelPass c (e0 :: rest) ≠ []) :
    s.channelEvent c = (s.consumersOf c).foldl (fun st x => st.deliver x
      ((s.channelPass c (e0 :: rest)).map fun e => ⟨e.ts, e.tag⟩) (e0.tick + 3)) (s.channelCounted c (e0 :: rest)) := by
  rw [State.channelEvent_on hg hen ha, if_neg (not_not.mpr hgate), if_neg (by simpa using hpass), State.consumersOf_channelCounted]

theorem State.channelCounted_effect (s : State) (c : Nat) (evs : List Ev) :
    let t := s.channelCounted c evs
    t.dw = (s.channelTaken c evs).dw ∧ t.eo = s.eo ∧ t.drv = s.drv ∧
      t.rget ⟨.dwChCnt, c, 0, 0⟩ = counted (s.rget ⟨.dwChCnt, c, 0, 0⟩) (s.channelPass c evs).length ∧
      ((s.channelPass c evs).length < evs.length → t.fbit F.dwChStat_FLOCKED c = true) := by
  have hshown (b : Bool) : let u := (s.channelTaken c evs).fonIf b F.dwChStat_FLOCKED c
      (s.channelTaken c evs).sameBesideRegs u ∧ u.rget ⟨.dwChCnt, c, 0, 0⟩ = s.rget ⟨.dwChCnt, c, 0, 0⟩ ∧
        (b = true → u.fbit F.dwChStat_FLOCKED c = true) := by
    cases b
    · exact ⟨rfl, rfl, nofun⟩
    · exact ⟨rfl, State.rget_fon_register (show Reg.dwChCnt ≠ .dwChStat by decide),
        fun _ => State.fbit_fon_same _ F.dwChStat_FLOCKED c 0 0 rfl⟩
  obtain ⟨hsame, hcnt, hset⟩ := hshown (decide ((s.channelPass c evs).length < evs.length))
  intro t
  refine ⟨(congrArg State.dw hsame :), hsame.eo_eq, (congrArg State.drv hsame :), ?_, fun h => ?_⟩
  · exact (State.rget_cntAdd_same ..).trans (congrArg (counted · _) hcnt)
  · exact (State.fbit_of_rget (State.rget_cntAdd_other (by simp [F.dwChStat_FLOCKED]))).trans (hset (decide_eq_true h))

/-- What passes is counted and reaches each consumer that selects the channel. -/
theorem State.channelEvent_hands (hg : s.channelGroup c = e0 :: rest) (hen : s.fbit F.dwChCfg_EN c = true)
    (ha : s.fbit F.dwChCfg_ASYNC c = false) (hgate : s.gateOf c = true) (hpass : s.channelPass c (e0 :: rest) ≠ []) :
    let t := s.channelEvent c
    let stamps := (s.channelPass c (e0 :: rest)).map fun e => (⟨e.ts, e.tag⟩ : Stamp)
    t.dw.evq = (s.channelTaken c (e0 :: rest)).dw.evq ∧
      t.rget ⟨.dwChCnt, c, 0, 0⟩ = counted (s.rget ⟨.dwChCnt, c, 0, 0⟩) (s.channelPass c (e0 :: rest)).length ∧
      DeliveredTo (s.consumersOf c) stamps (e0.tick + 3) s.dw.inbox t.dw.inbox ∧
      ((s.channelPass c (e0 :: rest)).length < (e0 :: rest).length → t.fbit F.dwChStat_FLOCKED c = true) ∧ t.eo = s.eo ∧ t.drv = s.drv := by
  intro t stamps
  obtain ⟨hdw, heo, hdrv, hcount, hflocked⟩ := s.channelCounted_effect c (e0 :: rest)
  have hin : (s.channelCounted c (e0 :: rest)).dw.inbox = s.dw.inbox := (congrArg Dw.inbox hdw :)
  obtain ⟨b, hfold⟩ := State.foldl_deliver_inbox (s.channelCounted c (e0 :: rest)) (s.consumersOf c) stamps (e0.tick + 3)
  have ht : t = (s.consumersOf c).foldl (fun st x => st.deliver x stamps (e0.tick + 3)) (s.channelCounted c (e0 :: rest)) :=
    State.channelEvent_passes hg hen ha hgate hpass
  have hreach : DeliveredTo (s.consumersOf c) stamps (e0.tick + 3) s.dw.inbox t.dw.inbox := by
    rw [ht, ← hin]
    exact State.foldl_deliver_delivers _ _ _ _
  rw [hfold] at ht
  refine ⟨?_, ?_, hreach, ?_, ?_, ?_⟩ <;> rw [ht]
  · exact (congrArg Dw.evq hdw :)
  · exact hcount
  · exact hflocked
  · exact heo
  · exact hdrv

end Channel

/-! ### Timers (R152) -/

section Timer
variable {s t : State} {i k v : Nat}

/-- A timer's instants are those of its anchor and period. -/
theorem State.tmrInstant_congr (ha : t.fget F.dwTmrAnchor_ANCHOR i = s.fget F.dwTmrAnchor_ANCHOR i)
    (hp : t.fget F.dwTmrPeriod_PERIOD i = s.fget F.dwTmrPeriod_PERIOD i) : t.tmrInstant i k = s.tmrInstant i k := by
  rw [State.tmrInstant, State.tmrInstant, ha, hp]

theorem State.tmrInstant_from (s : State) (i k : Nat) : s.tmrInstant i k = s.tmrInstant i 0 + k * (4 * s.fget F.dwTmrPeriod_PERIOD i) := by
  simp only [State.tmrInstant]
  ring

/-- A span rounded up to whole periods. -/
theorem le_roundUp {d p : Nat} (hd : 0 < d) (hp : 0 < p) : 0 < (d + (p - 1)) / p ∧ d ≤ (d + (p - 1)) / p * p := by
  have hround := Nat.div_add_mod (d + (p - 1)) p
  have hrest := Nat.mod_lt (d + (p - 1)) hp
  rw [Nat.mul_comm] at hround
  exact ⟨Nat.div_pos (by omega) hp, by omega⟩

/-- The first instant that is not before a given one. -/
theorem State.tmrBefore_first {x : Nat} (h : s.tmrInstant i 0 < x) (hp : 0 < s.fget F.dwTmrPeriod_PERIOD i) :
    0 < s.tmrBefore i x ∧ x ≤ s.tmrInstant i (s.tmrBefore i x) := by
  rw [State.tmrInstant_from s i (s.tmrBefore i x), State.tmrBefore, if_neg (not_le.mpr h)]
  exact (le_roundUp (Nat.sub_pos_of_lt h) (Nat.mul_pos (by decide) hp)).imp_right Nat.sub_le_iff_le_add'.mp

/-- A timer moves on: its next instant is noted, and it ends when that one is past its last. -/
theorem State.tmrMove_effect (s : State) (i k : Nat) :
    let t := s.tmrMove i k
    t.dw = { s.dw with timers := s.dw.timers.put id 0 i k } ∧ { t with dw := s.dw, regs := s.regs, cyc := s.cyc } = s ∧
      t.fbit F.dwTmrCtl_EN i = (s.fbit F.dwTmrCtl_EN i && !s.tmrOver i k) ∧ (s.tmrOver i k = true → t.fbit F.dwTmrCtl_DONE i = true) ∧
      t.fbit F.dwTmrCtl_SKIP i = s.fbit F.dwTmrCtl_SKIP i := by
  have hmove : s.tmrMove i k = if s.tmrOver i k then (s.setDw { s.dw with timers := s.dw.timers.put id 0 i k }).tmrEnd i
      else s.setDw { s.dw with timers := s.dw.timers.put id 0 i k } := rfl
  intro t
  rw [show t = _ from hmove]
  cases s.tmrOver i k
  · exact ⟨rfl, rfl, (Bool.and_true _).symm, nofun, rfl⟩
  · have hen (u : State) : (u.tmrEnd i).fbit F.dwTmrCtl_EN i = false :=
      (State.fbit_fon_bit (f := F.dwTmrCtl_DONE) (g := F.dwTmrCtl_EN) rfl (by decide) (by decide)).trans (State.fbit_fset_same rfl)
    have hskip (u : State) : (u.tmrEnd i).fbit F.dwTmrCtl_SKIP i = u.fbit F.dwTmrCtl_SKIP i :=
      (State.fbit_fon_bit (f := F.dwTmrCtl_DONE) (g := F.dwTmrCtl_SKIP) rfl (by decide) (by decide)).trans
        (State.fbit_fset_other (f := F.dwTmrCtl_EN) (g := F.dwTmrCtl_SKIP) rfl (by decide) (by decide))
    exact ⟨rfl, rfl, (hen _).trans (Bool.and_false _).symm, fun _ => State.fbit_fon_same _ F.dwTmrCtl_DONE i 0 0 rfl, hskip _⟩

/-- DW_TMR_CTL as a write leaves it: UNLIM and EN as written, and the timer's count, period and instants as they were. -/
theorem State.storeTmrCtl_effect (s : State) (i v : Nat) :
    let t := s.store ⟨.dwTmrCtl, i, 0, 0⟩ v
    s.sameBesideRegs t ∧ t.fbit F.dwTmrCtl_EN i = bit v 0 ∧ t.fbit F.dwTmrCtl_UNLIM i = bit v 1 ∧
      t.fget F.dwTmrCount_COUNT i = s.fget F.dwTmrCount_COUNT i ∧ t.fget F.dwTmrPeriod_PERIOD i = s.fget F.dwTmrPeriod_PERIOD i ∧
      ∀ k, t.tmrInstant i k = s.tmrInstant i k := by
  intro t
  have hkept (f : Fld) (hk : f.reg ≠ .dwTmrCtl) (hc : f.reg ∉ wrErrRegs) : t.fget f i = s.fget f i :=
    State.fget_of_rget (State.store_other (fun e => hk (congrArg RegKey.r e)) hc)
  exact ⟨State.store_sameBesideRegs .., State.fbit_store (f := F.dwTmrCtl_EN) (rst := 0) rfl (by decide),
    State.fbit_store (f := F.dwTmrCtl_UNLIM) (rst := 0) rfl (by decide), hkept _ (by decide) (by decide), hkept _ (by decide) (by decide),
    fun k => State.tmrInstant_congr (hkept _ (by decide) (by decide)) (hkept _ (by decide) (by decide))⟩

/-- EN rises with every instant ahead. -/
theorem State.tmrEnable_ahead (hen : s.fbit F.dwTmrCtl_EN i = true) (hcnt : s.fbit F.dwTmrCtl_UNLIM i = true ∨ 0 < s.fget F.dwTmrCount_COUNT i)
    (hnow : s.nowI + 2 * lsbPerNs ≤ s.tmrInstant i 0) (hmax : s.tmrInstant i 0 < instantEnd) :
    (s.tmrEnable i).fbit F.dwTmrCtl_EN i = true ∧ (s.tmrEnable i).dw.timers.get 0 i = 0 ∧ (s.tmrEnable i).eo = s.eo := by
  have hbefore : s.tmrBefore i (s.nowI + 2 * lsbPerNs) = 0 := if_pos hnow
  have hmove : s.tmrEnable i = s.tmrMove i 0 := by
    unfold State.tmrEnable
    simp only [hbefore, Nat.zero_min, ite_self, Nat.lt_irrefl, decide_false]
    rfl
  have hin : ¬ instantMax < s.tmrInstant i 0 := not_lt.mpr (Nat.le_sub_one_of_lt hmax)
  have hover : s.tmrOver i 0 = false := by
    rcases hcnt with h | h
    · simp [State.tmrOver, h, hin]
    · simp [State.tmrOver, hin, h.ne']
  obtain ⟨hdw, hsame, hset, -⟩ := s.tmrMove_effect i 0
  rw [hmove, hdw, hset, hen, hover]
  exact ⟨rfl, SMap.get_put_same .., (congrArg State.eo hsame :)⟩

/-- EN rises with instants already past, or too near: a timer without an end goes on from the first that is not. -/
theorem State.tmrEnable_skips (hun : s.fbit F.dwTmrCtl_UNLIM i = true) (hnow : s.tmrInstant i 0 < s.nowI + 2 * lsbPerNs)
    (hp : 0 < s.fget F.dwTmrPeriod_PERIOD i) :
    (s.tmrEnable i).fbit F.dwTmrCtl_SKIP i = true ∧ 0 < (s.tmrEnable i).dw.timers.get 0 i ∧
      s.nowI + 2 * lsbPerNs ≤ s.tmrInstant i ((s.tmrEnable i).dw.timers.get 0 i) := by
  obtain ⟨hpos, hle⟩ := State.tmrBefore_first hnow hp
  have hmove : s.tmrEnable i = (s.fon F.dwTmrCtl_SKIP i).tmrMove i (s.tmrBefore i (s.nowI + 2 * lsbPerNs)) := by
    unfold State.tmrEnable
    simp only [hun, if_true, hpos, decide_true]
    rfl
  obtain ⟨hdw, -, -, -, hskip⟩ := (s.fon F.dwTmrCtl_SKIP i).tmrMove_effect i (s.tmrBefore i (s.nowI + 2 * lsbPerNs))
  rw [hmove, hdw, hskip, State.fbit_fon_same _ F.dwTmrCtl_SKIP i 0 0 rfl, SMap.get_put_same]
  exact ⟨rfl, hpos, hle⟩

theorem State.wrTmrCtl_rises (hen : s.fbit F.dwTmrCtl_EN i = false) (hv : bit v 0 = true) :
    s.wrTmrCtl i v = (s.store ⟨.dwTmrCtl, i, 0, 0⟩ v).tmrEnable i := by
  simp [State.wrTmrCtl, hen, hv]

/-- Device time has reached a timer's next instant. -/
theorem State.tmrFire_fires (hi : i < 8) (hen : s.fbit F.dwTmrCtl_EN i = true) (hover : s.tmrOver i (s.dw.timers.get 0 i) = false)
    (hdue : nsOf (s.tmrInstant i (s.dw.timers.get 0 i)) ≤ s.time.now) :
    let k := s.dw.timers.get 0 i
    let t := s.tmrFire i
    t.raises (Prod.dwTmr i) (s.tmrInstant i k) 0 s.tickNo ∧ t.dw.timers.get 0 i = k + 1 ∧
      (t.fbit F.dwTmrCtl_EN i = !s.tmrOver i (k + 1)) ∧ (s.tmrOver i (k + 1) = true → t.fbit F.dwTmrCtl_DONE i = true) := by
  intro k t
  have hfire : t = (s.raiseEv (Prod.dwTmr i) (s.tmrInstant i k) 0).tmrMove i (k + 1) :=
    (if_neg (not_not.mpr hen)).trans ((if_neg (ne_true_of_eq_false hover)).trans (if_neg (not_lt.mpr hdue)))
  obtain ⟨b, hraise⟩ := State.raiseEv_queues (s := s) (ts := s.tmrInstant i k) (vectorOf_dwTmr hi) (Nat.zero_le _)
  obtain ⟨hdw, hsame, hset, hdone, -⟩ := (s.raiseEv (Prod.dwTmr i) (s.tmrInstant i k) 0).tmrMove_effect i (k + 1)
  rw [← hfire] at hdw hsame hset hdone
  rw [hraise] at hdw hsame hset hdone
  have htick : t.tickNo = s.tickNo := (congrArg State.tickNo hsame :)
  refine ⟨?_, ?_, ?_, hdone⟩
  · rw [← htick]
    refine State.raises_of_mem ?_
    rw [hdw, htick]
    exact List.mem_append_right _ (List.mem_singleton_self _)
  · rw [hdw]
    exact SMap.get_put_same ..
  · rw [hset, State.setDw_fbit, hen, Bool.true_and]
    rfl

theorem State.tmrFire_waits (hen : s.fbit F.dwTmrCtl_EN i = true) (hover : s.tmrOver i (s.dw.timers.get 0 i) = false)
    (hdue : s.time.now < nsOf (s.tmrInstant i (s.dw.timers.get 0 i))) : s.tmrFire i = s :=
  (if_neg (not_not.mpr hen)).trans ((if_neg (ne_true_of_eq_false hover)).trans (if_pos hdue))

end Timer

/-! ### DW_SWF (R153) -/

section Swf
variable {v : Nat}

/-- The lines of DW_SWF that are written as 1 raise their events, and nothing else is raised. -/
theorem State.foldl_swf (s : State) {l : List Nat} (hl : ∀ i ∈ l, i < 16) :
    let t := l.foldl (fun st i => if bit v i then st.raiseEv (Prod.swf i) st.nowI 0 else st) s
    s.sameBesideDw t ∧ s.dw.evq ⊆ t.dw.evq ∧
      (∀ i ∈ l, bit v i = true → (⟨Prod.swf i, s.nowI, 0, s.tickNo, []⟩ : Ev) ∈ t.dw.evq) ∧
      ∀ e ∈ t.dw.evq, e ∈ s.dw.evq ∨ ∃ i ∈ l, bit v i = true ∧ e.prod = Prod.swf i := by
  induction l generalizing s with
  | nil => exact ⟨rfl, List.Subset.refl _, nofun, fun _ he => .inl he⟩
  | cons i l ih =>
    rw [List.forall_mem_cons] at hl
    rw [List.foldl_cons]
    by_cases hi : bit v i = true
    · obtain ⟨b, hraise⟩ := State.raiseEv_queues (s := s) (ts := s.nowI) (vectorOf_swf hl.1) (Nat.zero_le _)
      rw [if_pos hi, hraise]
      obtain ⟨hsame, hsub, hall, honly⟩ := ih (s.setDw
        { s.dw with evq := s.dw.evq ++ [⟨Prod.swf i, s.nowI, 0, s.tickNo, []⟩], inbox := b }) hl.2
      refine ⟨(congrArg (fun x : State => { x with dw := s.dw }) hsame :), fun _ he => hsub (List.mem_append_left _ he),
        fun j hj hb => ?_, fun e he => ?_⟩
      · rcases List.mem_cons.mp hj with rfl | hj
        · exact hsub (List.mem_append_right _ (List.mem_singleton_self _))
        · exact hall j hj hb
      · rcases honly e he with he | ⟨j, hj, hb, hp⟩
        · rcases List.mem_append.mp he with he | he
          · exact .inl he
          · exact .inr ⟨i, List.mem_cons_self, hi, congrArg Ev.prod (List.mem_singleton.mp he)⟩
        · exact .inr ⟨j, List.mem_cons_of_mem _ hj, hb, hp⟩
    · rw [if_neg hi]
      obtain ⟨hsame, hsub, hall, honly⟩ := ih s hl.2
      refine ⟨hsame, hsub, fun j hj hb => ?_, fun e he => (honly e he).imp_right fun ⟨j, hj, h⟩ => ⟨j, List.mem_cons_of_mem _ hj, h⟩⟩
      rcases List.mem_cons.mp hj with rfl | hj
      · exact absurd hb hi
      · exact hall j hj hb

end Swf

/-! ### Pins (R151, R155) -/

section Pins
variable {s : State} {i : Nat} {level : Bool}

/-- A pin's first synchroniser stage has captured a level. -/
def State.evinCaptured (s : State) (i : Nat) (level : Bool) : State :=
  s.setDw { s.dw with evpin := s.dw.evpin.put id false i level, evin := s.dw.evin.put id {} i ⟨level, s.evinSeen i, s.tickNo⟩ }

/-- A pin's selected sense admits a transition. -/
def State.evinRaises (s : State) (i : Nat) (level : Bool) : Bool :=
  decide (s.fget F.dwEvinCtl_EDGES i ≠ 3) && senseOk (s.fget F.dwEvinCtl_EDGES i) level

theorem State.evinEdge_captures (h : (s.dw.evin.get {} i).level ≠ level) :
    s.evinEdge i level = (s.evinCaptured i level).raiseIf (s.evinRaises i level) (Prod.evin i) (ofNs (s.time.now - 2)) 0 3 := if_neg h

/-- An event of a later tick waits for it. -/
theorem State.raiseEv_waits (s : State) (prod : Nat) (ts : Instant) (tag : Nat) {delay : Nat} (h : 0 < delay) :
    (s.raiseEv prod ts tag delay).raises prod ts tag (s.tickNo + delay) := by
  have hsoon : s.raiseEv prod ts tag delay = s.setDw { s.dw with soon := s.dw.soon ++ [⟨prod, ts, tag, s.tickNo + delay, []⟩] } :=
    if_neg h.ne'
  rw [hsoon, State.raises, State.setDw_tickNo, if_neg (by omega)]
  exact List.mem_append_right _ (List.mem_singleton_self _)

theorem State.evinCaptured_level (s : State) (i : Nat) (level : Bool) : ((s.evinCaptured i level).dw.evin.get {} i).level = level :=
  congrArg EvIn.level (SMap.get_put_same ..)

/-- An output pin changes. -/
def State.setEvout (s : State) (i : Nat) (q : EvOut) : State := s.setDw { s.dw with evout := s.dw.evout.put id {} i q }

@[simp] theorem State.setEvout_get (s : State) (i : Nat) (q : EvOut) : (s.setEvout i q).dw.evout.get {} i = q := SMap.get_put_same ..

/-- A consumer that is fed, by a wire or by a clocked channel. -/
def State.evoutFed (s : State) (i : Nat) : Prop :=
  bits (s.inForce ⟨.dwConSel, Con.evout i, 0, 0⟩) 29 28 ≠ 0 ∧
    (bits (s.inForce ⟨.dwConSel, Con.evout i, 0, 0⟩) 29 28 = 2 →
      s.fbit F.dwChCfg_ASYNC (bits (s.inForce ⟨.dwConSel, Con.evout i, 0, 0⟩) 7 0) = false)

theorem State.evoutGroup_fed (h : s.evoutFed i) (evs : List Stamp) :
    s.evoutGroup i evs =
      if s.fget F.dwEvoutCtl_MODE i = 1 then
        s.setEvout i { s.dw.evout.get {} i with level := (s.dw.evout.get {} i).level != decide (evs.length % 2 = 1) }
      else if s.fget F.dwEvoutCtl_WIDTH i = 0 then s
      else s.setEvout i ⟨true, some (s.tickNo + s.fget F.dwEvoutCtl_WIDTH i)⟩ := by
  obtain ⟨hsel, hasync⟩ := h
  exact if_neg fun e => e.elim hsel fun e => absurd e.2 (ne_true_of_eq_false (hasync e.1))

/-- A pin that asynchronous channels may select: an event input, a PPS input or a precision input (R160). -/
theorem State.asyncLevel_cases {a : Nat} (s : State) (level : Bool) (h : a < 0x40) :
    (a ≤ 0x0F ∧ s.asyncLevel a level = s.setDw { s.dw with evpin := s.dw.evpin.put id false a level }) ∨
      ((0x10 ≤ a ∧ a ≤ 0x11) ∧ s.asyncLevel a level = s.setDw { s.dw with ppsin := s.dw.ppsin.put id false (a - 0x10) level }) ∨
      (0x20 ≤ a ∧ s.asyncLevel a level = s.setDw { s.dw with ti := s.dw.ti.put id false (a - 0x20) level }) ∨
      ((0x11 < a ∧ a < 0x20) ∧ s.asyncLevel a level = s) := by
  unfold State.asyncLevel
  split
  · exact .inl ⟨by assumption, rfl⟩
  split
  · exact .inr (.inl ⟨by assumption, rfl⟩)
  split
  · exact .inr (.inr (.inl ⟨by omega, rfl⟩))
  · exact .inr (.inr (.inr ⟨by omega, rfl⟩))

end Pins

/-- A write that sets EN of a timer that stands starts it. -/
theorem exec_dwTmrEnable {q : Port} {i : Fin 8} {s : State} (data : BitVec 32) (hw : s.writable q.req .dwTmrCtl = true)
    (hen : s.fbit F.dwTmrCtl_EN i.val = false) :
    exec (.dwTmrEnable q i data) s =
      .next (((s.wroteBy q.req ⟨.dwTmrCtl, i.val, 0, 0⟩).store ⟨.dwTmrCtl, i.val, 0, 0⟩ (setBits data.toNat 0 0 1)).tmrEnable i.val) :=
  congrArg Host.Outcome.next ((State.busFld_first (f := F.dwTmrCtl_EN) data hw (dwTmrMapped i) rfl (by decide)).trans
    (State.wrTmrCtl_rises (s := s.wroteBy q.req ⟨.dwTmrCtl, i.val, 0, 0⟩) hen (bit_setBits_zero ..)))

/-- Settles O21: a channel's group by the gate it meets (`channelEvent_gated`, `channelEvent_passes`), a timer by `tmrEnable_ahead`,
`tmrEnable_skips` and `tmrFire_fires`, DW_SWF by `foldl_swf`, a pin by what it captures or is set to. -/
theorem drovewayCarriesEvents : Obligations.DrovewayCarriesEvents := by
  intro s
  refine ⟨fun hrun c e0 rest hg => ?channel, fun hrun i level hne => ?evin, fun q i data hw hen hcnt hnow hmax => ?ahead,
    fun q i data hw hen hun hnow hp => ?skips, fun hrun i hen => ?fire, fun q data hw => ?swf, fun hrun hdw i g hg => ?evout,
    fun hrun i u hu hdue => ?pulseEnd, fun a level => ?async⟩
  case channel =>
    have hexec : exec (.dwChannelEvent c) s = .next (s.channelEvent c.val) := congrArg Host.Outcome.next (State.live_running hrun)
    refine ⟨fun hen ha => ⟨fun hgate => ⟨_, hexec, ?_⟩, fun hgate hpass => ⟨_, hexec, ?_⟩⟩,
      fun hen => ⟨_, hexec, State.channelEvent_off hg hen⟩⟩
    · rw [State.channelEvent_gated hg hen ha hgate]
      exact ⟨State.fbit_fon_same _ F.dwChStat_GATED c.val 0 0 rfl, rfl, rfl⟩
    · obtain ⟨hevq, hcount, hreach, hrest⟩ := State.channelEvent_hands hg hen ha hgate hpass
      refine ⟨hevq, hcount, fun x hx => ?_, hrest⟩
      obtain ⟨⟨g, hg, hgx, hdue, hevs⟩, hnew⟩ := hreach x hx
      exact ⟨⟨g, hg, hgx, hdue, fun e he => hevs (List.mem_map_of_mem (f := fun e : Ev => (⟨e.ts, e.tag⟩ : Stamp)) he)⟩, hnew⟩
  case evin =>
    have hexec : exec (.evinEdge i level) s = .next (s.evinEdge i.val level) := congrArg Host.Outcome.next (State.live_running hrun)
    refine ⟨fun he hs => ⟨_, hexec, ?_⟩, fun h => ⟨_, hexec, ?_⟩⟩
    · rw [State.evinEdge_captures hne, show s.evinRaises i.val level = true by simp [State.evinRaises, he, hs]]
      exact ⟨State.raiseEv_waits _ _ _ _ (by decide), s.evinCaptured_level i.val level⟩
    · rw [State.evinEdge_captures hne, show s.evinRaises i.val level = false by rcases h with h | h <;> simp [State.evinRaises, h]]
      exact ⟨rfl, s.evinCaptured_level i.val level, rfl⟩
  case ahead =>
    obtain ⟨hsame, hset, hun, hcount, -, hinst⟩ :=
      (s.wroteBy q.req ⟨.dwTmrCtl, i.val, 0, 0⟩).storeTmrCtl_effect i.val (setBits data.toNat 0 0 1)
    rw [Nat.add_mul] at hnow
    obtain ⟨hon, hfirst, heo⟩ := State.tmrEnable_ahead (hset.trans (bit_setBits_zero ..))
      (hcnt.imp (fun h => hun.trans ((bit_setBits_out le_rfl (by decide)).trans h)) fun h => hcount ▸ h)
      (by rw [hsame.nowI_eq, hinst]; exact hnow) (by rw [hinst]; exact hmax)
    exact ⟨_, exec_dwTmrEnable data hw hen, hon, hfirst, heo.trans hsame.eo_eq⟩
  case skips =>
    obtain ⟨hsame, -, hunl, -, hper, hinst⟩ :=
      (s.wroteBy q.req ⟨.dwTmrCtl, i.val, 0, 0⟩).storeTmrCtl_effect i.val (setBits data.toNat 0 0 1)
    have hunl1 := hunl.trans ((bit_setBits_out le_rfl (by decide)).trans hun)
    rw [Nat.add_mul] at hnow
    have hskip := State.tmrEnable_skips hunl1 (by rw [hsame.nowI_eq, hinst]; exact hnow) (hper ▸ hp)
    rw [hinst, hsame.nowI_eq] at hskip
    obtain ⟨hskip, hpos, hle⟩ := hskip
    rw [Nat.add_mul]
    exact ⟨_, exec_dwTmrEnable data hw hen, hskip, hpos, hle⟩
  case fire =>
    have hexec : exec (.dwTmrInstant i) s = .next (s.tmrFire i.val) := congrArg Host.Outcome.next (State.live_running hrun)
    exact ⟨fun hover hdue => ⟨_, hexec, State.tmrFire_fires i.isLt hen hover hdue⟩,
      fun hdue hover => ⟨_, hexec, State.tmrFire_waits hen hover hdue⟩⟩
  case swf =>
    have hexec : exec (.swfFire q data) s = .next ((s.wroteBy q.req ⟨.dwSwf, 0, 0, 0⟩).wrSwf data.toNat) :=
      congrArg Host.Outcome.next (State.busTo_first hw dwSwfMapped rfl (data.isLt.trans (by decide)))
    obtain ⟨hsame, -, hall, honly⟩ :=
      (s.wroteBy q.req ⟨.dwSwf, 0, 0, 0⟩).foldl_swf (v := data.toNat) (l := List.range 16) fun _ => List.mem_range.mp
    have htick : ((s.wroteBy q.req ⟨.dwSwf, 0, 0, 0⟩).wrSwf data.toNat).tickNo = s.tickNo := (congrArg State.tickNo hsame :)
    refine ⟨_, hexec, fun i hi hb => ?_, fun e he => ?_, (congrArg State.eo hsame :)⟩
    · rw [← htick]
      refine State.raises_of_mem ?_
      rw [htick]
      exact hall i (List.mem_range.mpr hi) hb
    · exact (honly e he).imp_right fun ⟨i, hi, h⟩ => ⟨i, List.mem_range.mp hi, h⟩
  case evout =>
    intro sel p w hsel hasync
    have hcon : s.conHeld (Con.evout i.val) = false := State.conHeld_dw hdw (by unfold Con.evout; omega)
    have hexec := (State.live_running hrun).trans ((State.onGroup_takes (f := fun evs st => st.evoutGroup i.val evs) hg hcon).trans
      (State.evoutGroup_fed (s := s.inputTaken (Con.evout i.val) 1) ⟨hsel, hasync⟩ g.evs))
    refine ⟨fun hm => ⟨_, congrArg Host.Outcome.next (hexec.trans (if_pos hm)), State.setEvout_get .., rfl⟩, fun hm hz => ?_⟩
    exact ⟨_, congrArg Host.Outcome.next (hexec.trans ((if_neg hm).trans (if_neg hz))), State.setEvout_get .., rfl⟩
  case pulseEnd =>
    have hend : s.evoutEnd i.val = s.setEvout i.val ⟨false, none⟩ := by
      simp only [State.evoutEnd, hu]
      exact if_neg (not_lt.mpr hdue)
    refine ⟨_, congrArg Host.Outcome.next ((State.live_running hrun).trans hend), State.setEvout_get .., fun j hj => ?_, rfl⟩
    exact SMap.get_put_other _ _ _ _ _ _ _ hj
  case async =>
    refine ⟨_, rfl, ?_⟩
    rcases s.asyncLevel_cases level a.isLt with ⟨ha, h⟩ | ⟨ha, h⟩ | ⟨ha, h⟩ | ⟨ha, h⟩ <;> rw [h]
    · exact ⟨fun _ => SMap.get_put_same .., fun _ _ => by omega, fun _ => by omega, rfl, rfl⟩
    · exact ⟨fun _ => by omega, fun _ _ => SMap.get_put_same .., fun _ => by omega, rfl, rfl⟩
    · exact ⟨fun _ => by omega, fun _ _ => by omega, fun _ => SMap.get_put_same .., rfl, rfl⟩
    · exact ⟨fun _ => by omega, fun _ _ => by omega, fun _ => by omega, rfl, rfl⟩

end Sys2Proof.Machine
end

section
/-! PROOFS. Fields held through a write, and values that stay in force to the end of a tick (R156, R164, R170, R178). -/

namespace Sys2Proof.Machine

/-! ### Held fields -/

section Held
variable {f : Fld} {fs : List Fld} {old v hi lo b : Nat}

/-- A write leaves to the held fields what they hold, and gives the others what is written. -/
theorem bits_holdFields_apart (ho : ∀ f ∈ fs, f.lo ≤ f.hi) (h : ∀ f ∈ fs, hi < f.lo ∨ f.hi < lo) :
    bits (holdFields old fs v).1 hi lo = bits v hi lo := by
  induction fs with
  | nil => rfl
  | cons f t ih =>
    rw [List.forall_mem_cons] at ho h
    refine Eq.trans ?_ (ih ho.2 h.2)
    rcases h.1 with h | h
    · exact bits_setBits_below _ _ _ _ _ _ ho.1 h
    · exact bits_setBits_above _ _ _ _ _ _ ho.1 h

theorem bits_holdFields_mem (ho : ∀ g ∈ fs, g.lo ≤ g.hi) (h : ∀ g ∈ fs, g ≠ f → f.hi < g.lo ∨ g.hi < f.lo) (hf : f ∈ fs) :
    bits (holdFields old fs v).1 f.hi f.lo = bits old f.hi f.lo := by
  induction fs with
  | nil => cases hf
  | cons g t ih =>
    rw [List.forall_mem_cons] at ho h
    by_cases hg : g = f
    · subst hg
      exact bits_setBits_of_lt ho.1 (bits_lt ..)
    · refine Eq.trans ?_ (ih ho.2 h.2 ((List.mem_cons.mp hf).resolve_left fun e => hg e.symm))
      rcases h.1 hg with h | h
      · exact bits_setBits_below _ _ _ _ _ _ ho.1 h
      · exact bits_setBits_above _ _ _ _ _ _ ho.1 h

theorem bit_heldValue {c : Bool} (ho : ∀ f ∈ fs, f.lo ≤ f.hi) (h : ∀ f ∈ fs, b < f.lo ∨ f.hi < b) :
    bit (heldValue old v c fs) b = bit v b := by
  cases c
  · rfl
  · rw [bit_eq_bits, bit_eq_bits]
    exact congrArg (fun x => decide (x = 1)) (bits_holdFields_apart ho h)

section HeldStore
variable {s : State} {r : Reg} {i : Nat} {g : FldDef}

/-- A field beside the held ones takes what is written, in its range. -/
theorem State.bits_storeHeld_apart (hw : r.info.words = 1) (hr : r ∉ wrErrRegs) (hg : g ∈ r.info.flds) (hrw : g.acc = .rw)
    (hok : g.rng.ok (bits v g.hi g.lo) = true) (ho : ∀ f ∈ fs, f.lo ≤ f.hi) (h : ∀ f ∈ fs, g.hi < f.lo ∨ f.hi < g.lo) :
    bits ((s.storeHeld ⟨r, i, 0, 0⟩ v true fs).rget ⟨r, i, 0, 0⟩) g.hi g.lo = bits v g.hi g.lo := by
  have hval := bits_holdFields_apart (old := s.rget ⟨r, i, 0, 0⟩) (v := v) (hi := g.hi) (lo := g.lo) ho h
  rw [State.storeHeld, State.wrErrIf_other hr]
  exact (State.bits_store hw hg hrw (hval.symm ▸ hok)).trans hval

/-- A held field stays. -/
theorem State.bits_storeHeld_mem (hw : r.info.words = 1) (hr : r ∉ wrErrRegs) (hg : g ∈ r.info.flds) (hrw : g.acc = .rw)
    (hf : f ∈ fs) (hhi : f.hi = g.hi) (hlo : f.lo = g.lo) (ho : ∀ f ∈ fs, f.lo ≤ f.hi) (h : ∀ e ∈ fs, e ≠ f → f.hi < e.lo ∨ e.hi < f.lo) :
    bits ((s.storeHeld ⟨r, i, 0, 0⟩ v true fs).rget ⟨r, i, 0, 0⟩) g.hi g.lo = bits (s.rget ⟨r, i, 0, 0⟩) g.hi g.lo := by
  have hval := bits_holdFields_mem (old := s.rget ⟨r, i, 0, 0⟩) (v := v) ho h hf
  rw [hhi, hlo] at hval
  rw [State.storeHeld, State.wrErrIf_other hr]
  exact State.bits_store_held hw hg hrw hval

end HeldStore

end Held

/-! ### Values in force (R156, R164) -/

section Defer
variable {s t : State} {k : RegKey}

theorem State.defer_beside (s : State) (k : RegKey) : s.sameBesideDw (s.defer k) := by
  unfold State.defer
  split <;> rfl

theorem State.evq_defer (s : State) (k : RegKey) : (s.defer k).dw.evq = s.dw.evq := by
  unfold State.defer
  split <;> rfl

/-- A value kept in force to the end of the tick stays in force through the register's write. -/
theorem State.inForce_deferred (hl : t.dw.late = (s.defer k).dw.late) (ht : t.tickNo = s.tickNo) : t.inForce k = s.inForce k := by
  unfold State.inForce
  rw [hl, ht, State.defer]
  by_cases h : (s.dw.late.any fun l => decide (l.key = k) && decide (s.tickNo < l.from_)) = true
  · rw [if_pos h]
    obtain ⟨l, hfind⟩ := Option.isSome_iff_exists.mp (List.find?_isSome.mpr (List.any_eq_true.mp h))
    rw [hfind]
  · have hnone : s.dw.late.find? (fun l => decide (l.key = k) && decide (s.tickNo < l.from_)) = none :=
      List.find?_eq_none.mpr (by simpa using h)
    rw [if_neg h, hnone, State.setDw_dw, List.find?_append, hnone]
    simp

end Defer

end Sys2Proof.Machine
end

section
/-! PROOFS. Flocks, channel enables, ownership and selections of the Droveway (R156, R162, R164 to R166, R170 to R173, R176, R178). -/

namespace Sys2Proof.Machine

/-! ### Flocks (R162) -/

section Flock
variable {s : State} {f tag : Nat} {a : Instant} {on : Bool}

/-- A change put into a flock's log is the one in force at its instant, if it is among those kept. -/
theorem find?_insertChange {x : FlockChange} {l : List FlockChange} {n : Nat} (hne : ∀ c ∈ l, c.at_ ≠ x.at_)
    (hlen : (l.filter fun c => decide (x.at_ < c.at_)).length < n) :
    ((insertChange x l).take n).find? (fun c => decide (c.at_ ≤ x.at_)) = some x := by
  have hself : decide (x.at_ ≤ x.at_) = true := decide_eq_true le_rfl
  induction l generalizing n with
  | nil =>
    obtain ⟨n, rfl⟩ := Nat.exists_eq_succ_of_ne_zero (Nat.ne_of_gt hlen)
    exact List.find?_cons_of_pos hself
  | cons d l ih =>
    rw [List.forall_mem_cons] at hne
    obtain ⟨n, rfl⟩ := Nat.exists_eq_succ_of_ne_zero (Nat.ne_of_gt (Nat.zero_lt_of_lt hlen))
    rw [insertChange]
    by_cases hlt : d.at_ < x.at_
    · rw [if_pos hlt]
      exact List.find?_cons_of_pos hself
    · have hafter : x.at_ < d.at_ := lt_of_le_of_ne (not_lt.mp hlt) (Ne.symm hne.1)
      rw [List.filter_cons_of_pos (p := fun c : FlockChange => decide (x.at_ < c.at_)) (decide_eq_true hafter)] at hlen
      rw [if_neg hlt, if_neg hne.1, List.take_succ_cons, List.find?_cons_of_neg (by simpa using hafter)]
      exact ih hne.2 (Nat.lt_of_succ_lt_succ hlen)

theorem flockAt_insertChange {l : List FlockChange} (hne : ∀ c ∈ l, c.at_ ≠ a)
    (hlen : (l.filter fun c => decide (a < c.at_)).length < 8) : flockAt ((insertChange ⟨a, on⟩ l).take 8) a = on := by
  rw [flockAt, find?_insertChange (x := ⟨a, on⟩) hne hlen]

/-- A change of a flock: in its log, and raised as an event. -/
theorem State.flockSet_changes (hf : f < 32) (hat : flockAt (s.flockLog f) a = !on) (hfree : on = true → a ∉ s.dw.disAt.get [] f)
    (htag : tag ≤ s.fget F.dwCtl_GEN_LIMIT) :
    ∃ d b, s.flockSet f a on tag = s.setDw { s.dw with
      disAt := d, flocks := s.dw.flocks.put id [⟨0, true⟩] f ((insertChange ⟨a, on⟩ (s.flockLog f)).take 8)
      evq := s.dw.evq ++ [⟨Prod.flock f, a, tag, s.tickNo, []⟩], inbox := b } := by
  have hnot : ¬ (flockAt (s.flockLog f) a = on ∨ (on && (s.dw.disAt.get [] f).contains a) = true) := by
    rw [hat]
    cases on
    · simp
    · simpa using hfree rfl
  unfold State.flockSet
  cases on
  · obtain ⟨b, hb⟩ := State.raiseEv_queues (s := (s.setDw { s.dw with disAt := s.dw.disAt.put id [] f ((a :: s.dw.disAt.get [] f).take 8) }).setDw
      { s.dw with disAt := s.dw.disAt.put id [] f ((a :: s.dw.disAt.get [] f).take 8)
                  flocks := s.dw.flocks.put id [⟨0, true⟩] f ((insertChange ⟨a, false⟩ (s.flockLog f)).take 8) })
      (ts := a) (vectorOf_flock hf) htag
    exact ⟨_, _, (if_neg hnot).trans hb⟩
  · obtain ⟨b, hb⟩ := State.raiseEv_queues (s := s.setDw { s.dw with
      flocks := s.dw.flocks.put id [⟨0, true⟩] f ((insertChange ⟨a, true⟩ (s.flockLog f)).take 8) }) (ts := a) (vectorOf_flock hf) htag
    exact ⟨_, _, (if_neg hnot).trans hb⟩

/-- No change raises nothing. -/
theorem State.flockSet_same (hat : flockAt (s.flockLog f) a = on) : ∃ d, s.flockSet f a on tag = s.setDw { s.dw with disAt := d } := by
  unfold State.flockSet
  cases on
  · exact ⟨_, if_pos (.inl hat)⟩
  · exact ⟨s.dw.disAt, if_pos (.inl hat)⟩

/-- What a change leaves: the flock's state from its instant, its event, and the rest of the flocks and of the device. -/
theorem State.flockSet_effect (hf : f < 32) (hat : flockAt (s.flockLog f) a = !on) (hfree : on = true → a ∉ s.dw.disAt.get [] f)
    (htag : tag ≤ s.fget F.dwCtl_GEN_LIMIT) (hne : ∀ c ∈ s.flockLog f, c.at_ ≠ a)
    (hlen : ((s.flockLog f).filter fun c => decide (a < c.at_)).length < 8) :
    let t := s.flockSet f a on tag
    flockAt (t.flockLog f) a = on ∧ t.raises (Prod.flock f) a tag s.tickNo ∧ (∀ j, j ≠ f → t.flockLog j = s.flockLog j) ∧ s.sameBesideDw t := by
  intro t
  obtain ⟨d, b, ht⟩ := State.flockSet_changes hf hat hfree htag
  rw [show t = _ from ht]
  have hlog : ((s.setDw { s.dw with
      disAt := d, flocks := s.dw.flocks.put id [⟨0, true⟩] f ((insertChange ⟨a, on⟩ (s.flockLog f)).take 8)
      evq := s.dw.evq ++ [⟨Prod.flock f, a, tag, s.tickNo, []⟩], inbox := b }).flockLog f) = (insertChange ⟨a, on⟩ (s.flockLog f)).take 8 :=
    SMap.get_put_same ..
  refine ⟨?_, State.raises_of_mem (s := s.setDw _) (List.mem_append_right _ (List.mem_singleton_self _)),
    fun j hj => SMap.get_put_other _ _ _ _ _ _ _ hj, rfl⟩
  rw [hlog]
  exact flockAt_insertChange hne hlen

/-- The instant from which a flock event acts: its own, or that of its arrival when it comes late. -/
def State.flockFrom (s : State) (ts : Instant) : Instant := if ts + 32 * lsbPerNs < s.nowI then s.nowI else ts

theorem State.flockEvent_from (s : State) (f : Nat) (on : Bool) (e : Stamp) :
    s.flockEvent f on e =
      (s.fonIf (decide (e.ts + 32 * lsbPerNs < s.nowI)) F.dwStat_FL_LATE).flockSet f (s.flockFrom e.ts) on (e.tag + 1) := by
  unfold State.flockEvent State.flockFrom State.fonIf
  by_cases h : e.ts + 32 * lsbPerNs < s.nowI
  · rw [if_pos h, if_pos h, decide_eq_true h]
    rfl
  · rw [if_neg h, if_neg h, decide_eq_false h]
    rfl

theorem State.fget_fonIf_register {b : Bool} {x y : Fld} {i j : Nat} (h : y.reg ≠ x.reg) : (s.fonIf b x i).fget y j = s.fget y j :=
  congrArg (fun v => bits v y.hi y.lo) (State.rget_fonIf_register h)

/-- A flock event that comes late is shown. -/
theorem State.flLate_effect (s : State) (b : Bool) : s.sameBesideRegs (s.fonIf b F.dwStat_FL_LATE) ∧
    (s.fonIf b F.dwStat_FL_LATE).fget F.dwCtl_GEN_LIMIT = s.fget F.dwCtl_GEN_LIMIT ∧
    (b = true → (s.fonIf b F.dwStat_FL_LATE).fbit F.dwStat_FL_LATE = true) := by
  refine ⟨State.fonIf_sameBesideRegs s b F.dwStat_FL_LATE 0, State.fget_fonIf_register (by decide), fun hb => ?_⟩
  subst hb
  exact State.fbit_fonIf_same rfl s 0

theorem State.late_of_flockFrom {ts : Instant} (h : s.flockFrom ts ≠ ts) : ts + 32 * lsbPerNs < s.nowI := by
  by_contra hin
  exact h (if_neg hin)

/-- A change of a flock once registers have changed. -/
theorem State.flockSet_after {y : State} (hsame : s.sameBesideRegs y) (hf : f < 32) (hat : flockAt (s.flockLog f) a = !on)
    (hfree : on = true → a ∉ s.dw.disAt.get [] f) (htag : tag ≤ y.fget F.dwCtl_GEN_LIMIT) (hne : ∀ c ∈ s.flockLog f, c.at_ ≠ a)
    (hlen : ((s.flockLog f).filter fun c => decide (a < c.at_)).length < 8) :
    let t := y.flockSet f a on tag
    flockAt (t.flockLog f) a = on ∧ t.raises (Prod.flock f) a tag s.tickNo ∧ (∀ k, t.rget k = y.rget k) ∧
      (∀ j, j ≠ f → t.flockLog j = s.flockLog j) ∧ t.eo = s.eo ∧ t.time = s.time := by
  intro t
  have hdw : y.dw = s.dw := (congrArg State.dw hsame :)
  have hlog (j : Nat) : y.flockLog j = s.flockLog j := by rw [State.flockLog, State.flockLog, hdw]
  rw [← hlog] at hat hne hlen
  rw [← hdw] at hfree
  obtain ⟨hon, hraise, hother, hbeside⟩ := State.flockSet_effect hf hat hfree htag hne hlen
  exact ⟨hon, (congrArg State.tickNo hsame :) ▸ hraise, State.rget_of_regs (congrArg State.regs hbeside :),
    fun j hj => (hother j hj).trans (hlog j), (congrArg State.eo hbeside :).trans hsame.eo_eq, (congrArg State.time hbeside :).trans hsame.time_eq⟩

/-- A flock event that comes while its flock stands otherwise, with none of its changes at that instant. -/
theorem State.flockEvent_effect {s : State} {f : Nat} {on : Bool} {e : Stamp} (hf : f < 32)
    (hat : flockAt (s.flockLog f) (s.flockFrom e.ts) = !on) (hfree : on = true → s.flockFrom e.ts ∉ s.dw.disAt.get [] f)
    (htag : e.tag + 1 ≤ s.fget F.dwCtl_GEN_LIMIT) (hne : ∀ c ∈ s.flockLog f, c.at_ ≠ s.flockFrom e.ts)
    (hlen : ((s.flockLog f).filter fun c => decide (s.flockFrom e.ts < c.at_)).length < 8) :
    let t := s.flockEvent f on e
    flockAt (t.flockLog f) (s.flockFrom e.ts) = on ∧ t.raises (Prod.flock f) (s.flockFrom e.ts) (e.tag + 1) s.tickNo ∧
      (s.flockFrom e.ts ≠ e.ts → t.fbit F.dwStat_FL_LATE = true) ∧ (∀ j, j ≠ f → t.flockLog j = s.flockLog j) ∧ t.eo = s.eo ∧ t.time = s.time := by
  obtain ⟨hsame, hlimit, hlate⟩ := s.flLate_effect (decide (e.ts + 32 * lsbPerNs < s.nowI))
  obtain ⟨hon, hraise, hregs, hother, hrest⟩ := State.flockSet_after hsame hf hat hfree (hlimit.symm ▸ htag) hne hlen
  rw [s.flockEvent_from]
  exact ⟨hon, hraise, fun h => (State.fbit_of_rget (hregs _)).trans (hlate (decide_eq_true (State.late_of_flockFrom h))), hother, hrest⟩

theorem exec_flock {s : State} {f : Fin 32} {on : Bool} {g : Group} {e : Stamp} (hrun : s.time.run = true) (hdw : s.fbit F.glbBlkRst_DW = false)
    (hg : findGroup (if on then Con.flockEn f.val else Con.flockDis f.val) 0 s.tickNo s.dw.inbox = some g) (hev : g.evs = [e]) :
    exec (if on then .flockEn f else .flockDis f) s =
      .next ((s.inputTaken (if on then Con.flockEn f.val else Con.flockDis f.val) 0).flockEvent f.val on e) := by
  have hcon : s.conHeld (if on then Con.flockEn f.val else Con.flockDis f.val) = false :=
    State.conHeld_dw hdw (by cases on <;> simp [Con.flockEn, Con.flockDis] <;> omega)
  have hexec : exec (if on then .flockEn f else .flockDis f) s =
      .next (s.live (s.onGroup (if on then Con.flockEn f.val else Con.flockDis f.val) fun evs st => st.flockGroup f.val on evs)) := by
    cases on <;> rfl
  rw [hexec, State.live_running hrun, State.onGroup_takes hg hcon, hev, State.flockGroup, List.foldl_cons, List.foldl_nil]

end Flock

/-! ### Writes of DW_FL_CTL (R162, R176) -/

/-- The state in which a write of DW_FL_CTL sets its flock. -/
def State.flCtlStored (s : State) (q : Requester) (f v : Nat) : State :=
  (s.wroteBy q ⟨.dwFlCtl, f, 0, 0⟩).store ⟨.dwFlCtl, f, 0, 0⟩ v

theorem exec_flockStateWrite {q : Port} {f : Fin 32} {s : State} (data : BitVec 32) (hw : s.writable q.req .dwFlCtl = true) :
    exec (.flockStateWrite q f data) s =
      .next ((s.flCtlStored q.req f.val data.toNat).flockSet f.val s.nowI (bit data.toNat 0) 0) :=
  congrArg Host.Outcome.next (State.busTo_first hw (dwFlMapped f) rfl data.isLt)

theorem State.storeFlCtl_react {s : State} {f v : Nat} (h : bits v 5 4 ≤ 2) :
    (s.store ⟨.dwFlCtl, f, 0, 0⟩ v).fget F.dwFlCtl_REACT f = bits v 5 4 :=
  State.bits_store (r := .dwFlCtl) (f := ⟨5, 4, .rw, 0, .span 0 2⟩) rfl (by decide) rfl (by simpa [Rng.ok] using h)

section FlockWrite
variable {s : State} {q : Requester} {f v : Nat} {on : Bool}

theorem State.flCtlStored_beside (s : State) (q : Requester) (f v : Nat) : s.sameBesideRegs (s.flCtlStored q f v) :=
  (s.wroteBy_sameBesideRegs ..).trans (State.store_sameBesideRegs ..)

theorem State.flCtlStored_same (hv : bits v 5 4 ≤ 2) (hat : s.flockNow f = on) :
    let t := (s.flCtlStored q f v).flockSet f s.nowI on 0
    { t.dw with disAt := s.dw.disAt } = s.dw ∧ t.fget F.dwFlCtl_REACT f = bits v 5 4 := by
  have hdw : (s.flCtlStored q f v).dw = s.dw := (congrArg State.dw (s.flCtlStored_beside q f v) :)
  obtain ⟨d, ht⟩ := State.flockSet_same (s := s.flCtlStored q f v) (f := f) (tag := 0)
    (show flockAt ((s.flCtlStored q f v).flockLog f) s.nowI = on by rw [State.flockLog, hdw]; exact hat)
  rw [ht]
  exact ⟨congrArg (fun x : Dw => { x with disAt := s.dw.disAt }) hdw, State.storeFlCtl_react hv⟩

theorem State.flCtlStored_changes (hf : f < 32) (hv : bits v 5 4 ≤ 2) (hat : s.flockNow f = !on)
    (hfree : on = true → s.nowI ∉ s.dw.disAt.get [] f) (hpast : ∀ c ∈ s.flockLog f, c.at_ < s.nowI) :
    let t := (s.flCtlStored q f v).flockSet f s.nowI on 0
    t.flockNow f = on ∧ t.raises (Prod.flock f) s.nowI 0 s.tickNo ∧ t.fget F.dwFlCtl_REACT f = bits v 5 4 := by
  have hnone : (s.flockLog f).filter (fun c => decide (s.nowI < c.at_)) = [] :=
    List.filter_eq_nil_iff.mpr fun c hc => by simpa using (hpast c hc).le
  obtain ⟨hon, hraise, hregs, -, -, htime⟩ := State.flockSet_after (s.flCtlStored_beside q f v) hf hat hfree (Nat.zero_le _)
    (fun c hc => (hpast c hc).ne) (by rw [hnone]; decide)
  refine ⟨?_, hraise, (State.fget_of_rget (hregs _)).trans (State.storeFlCtl_react hv)⟩
  rw [State.flockNow, show ((s.flCtlStored q f v).flockSet f s.nowI on 0).nowI = s.nowI from congrArg (fun x : TimeSt => ofNs x.now) htime]
  exact hon

end FlockWrite

/-! ### Channel enables (R165, R166) -/

section Channel
variable {s t u : State} {q : Requester} {c v n : Nat} {b : Bool}

/-- The other channels' DW_CH_CFG, the outputs and the events that are queued stand. -/
def State.besideChannel (s t : State) (c : Nat) : Prop :=
  (∀ j, j ≠ c → t.rget ⟨.dwChCfg, j, 0, 0⟩ = s.rget ⟨.dwChCfg, j, 0, 0⟩) ∧ t.eo = s.eo ∧ t.dw.evq = s.dw.evq

theorem State.besideChannel.trans (h : s.besideChannel t c) (h2 : t.besideChannel u c) : s.besideChannel u c :=
  ⟨fun j hj => (h2.1 j hj).trans (h.1 j hj), h2.2.1.trans h.2.1, h2.2.2.trans h.2.2⟩

theorem State.besideChannel_fset (f : Fld) (x : Nat) : s.besideChannel (s.fset f x c) c :=
  ⟨fun _ hj => State.rget_fset_other _ _ _ _ _ _ _ fun e => hj (congrArg RegKey.i e), rfl, rfl⟩

/-- DW_CH_CFG after a write, before EN rises or falls: what an enable check has read is held (R166). -/
def State.chCfgStored (s : State) (c v : Nat) : State :=
  s.storeHeld ⟨.dwChCfg, c, 0, 0⟩ (setBits v 0 0 (bnat (s.fbit F.dwChCfg_EN c))) (s.fbit F.dwChCfg_EN c || s.chBusy c)
    [F.dwChCfg_GSEL, F.dwChCfg_FLOCK, F.dwChCfg_FL_MEM, F.dwChCfg_SRCB_EN, F.dwChCfg_GINV, F.dwChCfg_ASYNC]

theorem State.wrChCfg_enables (hen : s.fbit F.dwChCfg_EN c = false) (hb : s.chBusy c = false) (hv : bit v 0 = true) :
    s.wrChCfg c v = (s.chCfgStored c v).chEnable c := by
  rw [State.wrChCfg, State.chCfgStored, hen, hb, hv]
  rfl

theorem State.wrChCfg_disables (h : s.fbit F.dwChCfg_EN c = true ∨ s.chBusy c = true) (hv : bit v 0 = false) :
    s.wrChCfg c v = (s.chCfgStored c v).chDisable c := by
  unfold State.wrChCfg
  dsimp only
  rw [hv, if_neg (by simp), if_pos (by simpa using h)]
  rfl

/-- The store keeps EN as it was; what is not held is as written. -/
theorem State.chCfgStored_effect (s : State) (c v : Nat) :
    let t := s.chCfgStored c v
    s.besideChannel t c ∧ t.dw = s.dw ∧ t.fbit F.dwChCfg_EN c = s.fbit F.dwChCfg_EN c ∧
      (∀ k : RegKey, k.r = .dwChSrc → t.rget k = s.rget k) ∧
      (s.fbit F.dwChCfg_EN c = false → s.chBusy c = false →
        t.fbit F.dwChCfg_ASYNC c = bit v 1 ∧ t.fbit F.dwChCfg_SRCB_EN c = bit v 4) := by
  intro t
  have hsame : s.sameBesideRegs t := s.storeHeld_sameBesideRegs ..
  have hcfg : Reg.dwChCfg ∉ wrErrRegs := by decide
  refine ⟨⟨fun j hj => State.storeHeld_other (fun e => hj (congrArg RegKey.i e)) hcfg, hsame.eo_eq, ?_⟩, (congrArg State.dw hsame :), ?_,
    fun k hk => State.storeHeld_other (fun e => ?_) (hk ▸ by decide), fun hen hb => ⟨?_, ?_⟩⟩
  · exact congrArg Dw.evq (congrArg State.dw hsame :)
  · refine (State.fbit_storeHeld (f := F.dwChCfg_EN) (rst := 0) rfl (by decide) hcfg).trans ?_
    rw [bit_heldValue (by decide) (by decide)]
    refine (bit_setBits_zero ..).trans ?_
    cases s.fbit F.dwChCfg_EN c <;> rfl
  · exact absurd ((congrArg RegKey.r e).symm.trans hk) (show Reg.dwChCfg ≠ .dwChSrc by decide)
  · refine (State.fbit_storeHeld (f := F.dwChCfg_ASYNC) (rst := 0) rfl (by decide) hcfg).trans ?_
    rw [hen, hb]
    exact bit_setBits_out (by decide) (by decide)
  · refine (State.fbit_storeHeld (f := F.dwChCfg_SRCB_EN) (rst := 0) rfl (by decide) hcfg).trans ?_
    rw [hen, hb]
    exact bit_setBits_out (by decide) (by decide)

/-- A check's result is shown as it begins or ends. -/
def State.chResult (s : State) (c n : Nat) (b : Bool) : State :=
  (s.fset F.dwChStat_RES n c).setDw { s.dw with checking := s.dw.checking.put id false c b }

theorem State.chResult_effect (s : State) (c : Nat) (b : Bool) (hn : n < 16) :
    let t := s.chResult c n b
    t.fget F.dwChStat_RES c = n ∧ t.chBusy c = b ∧ t.fbit F.dwChCfg_EN c = s.fbit F.dwChCfg_EN c ∧ s.besideChannel t c := by
  refine ⟨(State.fget_fset_same s F.dwChStat_RES n c 0 0 (by decide)).trans (Nat.mod_eq_of_lt hn), SMap.get_put_same ..,
    State.fbit_fset_register (by decide), fun j hj => ?_, rfl, rfl⟩
  exact (s.besideChannel_fset F.dwChStat_RES n).1 j hj

theorem State.fbit_setEn (s : State) (c n : Nat) (hn : n < 2) : (s.fset F.dwChCfg_EN n c).fbit F.dwChCfg_EN c = decide (n = 1) := by
  rw [State.fbit_fset_same rfl, Nat.mod_eq_of_lt hn]

theorem State.chEnable_async (h : s.fbit F.dwChCfg_ASYNC c = true) : s.chEnable c = s.chResult c 15 true := if_pos h

theorem State.chEnable_clocked (h : s.fbit F.dwChCfg_ASYNC c = false) :
    s.chEnable c = if s.clockedSrcOk c then (s.fset F.dwChStat_RES 0 c).fset F.dwChCfg_EN 1 c else s.fset F.dwChStat_RES 4 c :=
  if_neg (ne_true_of_eq_false h)

theorem State.chDisable_busy (h : s.chBusy c = true) : s.chDisable c = s.chResult c 5 false := if_pos h
theorem State.chDisable_idle (h : s.chBusy c = false) : s.chDisable c = s.fset F.dwChCfg_EN 0 c := if_neg (ne_true_of_eq_false h)

theorem State.chCheckDone_busy (h : s.chBusy c = true) :
    s.chCheckDone c = if s.asyncCheck c = 0 then (s.chResult c (s.asyncCheck c) false).fset F.dwChCfg_EN 1 c
      else s.chResult c (s.asyncCheck c) false := if_pos h

theorem State.asyncCheck_lt (s : State) (c : Nat) : s.asyncCheck c < 16 := by
  unfold State.asyncCheck
  split_ifs <;> decide

/-- The sources of a clocked channel as a write of its DW_CH_CFG finds them. -/
def State.sourcesListed (s : State) (c v : Nat) : Prop :=
  prodListed (s.fget F.dwChSrc_SRC_A c) = true ∧
    (bit v 4 = true → s.fget F.dwChSrc_SRC_B c = 0x7FF ∨ prodListed (s.fget F.dwChSrc_SRC_B c) = true)

theorem State.clockedSrcOk_iff (hsrc : ∀ k : RegKey, k.r = .dwChSrc → t.rget k = s.rget k) (hb : t.fbit F.dwChCfg_SRCB_EN c = bit v 4) :
    t.clockedSrcOk c = true ↔ s.sourcesListed c v := by
  have ha : t.fget F.dwChSrc_SRC_A c = s.fget F.dwChSrc_SRC_A c := State.fget_of_rget (hsrc _ rfl)
  have hbs : t.fget F.dwChSrc_SRC_B c = s.fget F.dwChSrc_SRC_B c := State.fget_of_rget (hsrc _ rfl)
  unfold State.clockedSrcOk State.sourcesListed
  rw [ha, hbs, hb]
  cases bit v 4 <;> simp

/-- A write sets EN of a channel that stands. -/
theorem State.wrChCfg_rises (hen : s.fbit F.dwChCfg_EN c = false) (hb : s.chBusy c = false) (v : Nat) :
    let t := s.wrChCfg c (setBits v 0 0 1)
    s.besideChannel t c ∧
      (bit v 1 = false → s.sourcesListed c v → t.fbit F.dwChCfg_EN c = true ∧ t.fget F.dwChStat_RES c = 0) ∧
      (bit v 1 = false → ¬ s.sourcesListed c v → t.fbit F.dwChCfg_EN c = false ∧ t.fget F.dwChStat_RES c = 4) ∧
      (bit v 1 = true → t.fbit F.dwChCfg_EN c = false ∧ t.fget F.dwChStat_RES c = 15 ∧ t.chBusy c = true) := by
  obtain ⟨hbeside, hdw, hen1, hsrc, hrest⟩ := s.chCfgStored_effect c (setBits v 0 0 1)
  obtain ⟨hasync, hsrcb⟩ := hrest hen hb
  rw [bit_setBits_out le_rfl (by decide)] at hasync hsrcb
  rw [State.wrChCfg_enables hen hb (bit_setBits_zero ..)]
  generalize s.chCfgStored c (setBits v 0 0 1) = y at *
  have hlisted := State.clockedSrcOk_iff (s := s) hsrc hsrcb
  cases ha : bit v 1 with
  | true =>
    obtain ⟨hres, hbusy, hen2, hbeside2⟩ := y.chResult_effect c true (n := 15) (by decide)
    rw [State.chEnable_async (hasync.trans ha)]
    exact ⟨hbeside.trans hbeside2, nofun, nofun, fun _ => ⟨hen2.trans (hen1.trans hen), hres, hbusy⟩⟩
  | false =>
    rw [State.chEnable_clocked (hasync.trans ha)]
    by_cases hok : s.sourcesListed c v
    · rw [if_pos (hlisted.mpr hok)]
      refine ⟨hbeside.trans ((State.besideChannel_fset ..).trans (State.besideChannel_fset ..)), fun _ _ => ⟨State.fbit_setEn _ c 1 (by decide), ?_⟩,
        fun _ h => absurd hok h, nofun⟩
      exact (State.fget_fset_register (by decide)).trans (State.fget_fset_zero (by decide))
    · rw [if_neg (mt hlisted.mp hok)]
      refine ⟨hbeside.trans (State.besideChannel_fset ..), fun _ h => absurd h hok, fun _ _ => ⟨?_, ?_⟩, nofun⟩
      · exact (State.fbit_fset_register (by decide)).trans (hen1.trans hen)
      · exact State.fget_fset_same y F.dwChStat_RES 4 c 0 0 (by decide)

/-- A write clears EN. -/
theorem State.wrChCfg_falls (hon : s.fbit F.dwChCfg_EN c = true ∨ s.chBusy c = true) (v : Nat) :
    let t := s.wrChCfg c (setBits v 0 0 0)
    s.besideChannel t c ∧ (s.chBusy c = false → t.fbit F.dwChCfg_EN c = false) ∧
      (s.chBusy c = true → t.chBusy c = false ∧ t.fget F.dwChStat_RES c = 5 ∧ t.fbit F.dwChCfg_EN c = s.fbit F.dwChCfg_EN c) := by
  obtain ⟨hbeside, hdw, hen, -, -⟩ := s.chCfgStored_effect c (setBits v 0 0 0)
  have hbusy : (s.chCfgStored c (setBits v 0 0 0)).chBusy c = s.chBusy c := congrArg (fun x : Dw => x.checking.get false c) hdw
  rw [State.wrChCfg_disables hon (bit_setBits_zero ..)]
  generalize s.chCfgStored c (setBits v 0 0 0) = y at *
  cases hb : s.chBusy c with
  | true =>
    obtain ⟨hres, hbusy2, hen2, hbeside2⟩ := y.chResult_effect c false (n := 5) (by decide)
    rw [State.chDisable_busy (hbusy.trans hb)]
    exact ⟨hbeside.trans hbeside2, nofun, fun _ => ⟨hbusy2, hres, hen2.trans hen⟩⟩
  | false =>
    rw [State.chDisable_idle (hbusy.trans hb)]
    exact ⟨hbeside.trans (State.besideChannel_fset ..), fun _ => State.fbit_setEn _ c 0 (by decide), nofun⟩

/-- A check ends: its result is shown, and sets EN if it finds nothing. -/
theorem State.chCheckDone_ends (hb : s.chBusy c = true) :
    let t := s.chCheckDone c
    t.fget F.dwChStat_RES c = s.asyncCheck c ∧ t.chBusy c = false ∧
      (t.fbit F.dwChCfg_EN c = if s.asyncCheck c = 0 then true else s.fbit F.dwChCfg_EN c) := by
  obtain ⟨hres, hbusy, hen, -⟩ := s.chResult_effect c false (s.asyncCheck_lt c)
  rw [State.chCheckDone_busy hb]
  split
  · exact ⟨(State.fget_fset_register (by decide)).trans hres, hbusy, State.fbit_setEn _ c 1 (by decide)⟩
  · exact ⟨hres, hbusy, hen⟩

/-- A write of a channel's registers that its lock does not refuse and its owner makes. -/
theorem State.chGuard_passes {f : State → State} (hl : s.fbit F.dwChOwn_LOCK c = false) (hm : s.mayWriteCh q c = true) :
    s.chGuard q c f = f s := (if_neg (ne_true_of_eq_false hl)).trans (if_pos hm)

theorem State.chGuard_locked {f : State → State} (hl : s.fbit F.dwChOwn_LOCK c = true) : s.chGuard q c f = s.fon F.dwStat_LOCK_ERR := if_pos hl

theorem State.chGuard_refused {f : State → State} (hl : s.fbit F.dwChOwn_LOCK c = false) (hm : s.mayWriteCh q c = false) :
    s.chGuard q c f = s.ownRefused q c := (if_neg (ne_true_of_eq_false hl)).trans (if_neg (ne_true_of_eq_false hm))

end Channel

/-! ### Ownership (R164, R165) -/

section Owner
variable {s : State} {q : Requester} {c v : Nat}

/-- A refused write shows in OWN_ERR and, for a secure channel, in a record. -/
theorem State.ownRefused_effect (s : State) (q : Requester) (c : Nat) :
    let t := s.ownRefused q c
    t.fbit F.dwStat_OWN_ERR = true ∧ (∀ k : RegKey, k.r ≠ .dwStat → t.rget k = s.rget k) ∧
      (s.isSecure c = true → t.bbr.offers.length = s.bbr.offers.length + 1) := by
  have hon : (s.fon F.dwStat_OWN_ERR).fbit F.dwStat_OWN_ERR = true := State.fbit_fon_same s F.dwStat_OWN_ERR 0 0 0 rfl
  have hregs (k : RegKey) (hk : k.r ≠ .dwStat) : (s.fon F.dwStat_OWN_ERR).rget k = s.rget k :=
    State.rget_fon_other _ _ _ _ _ _ fun e => hk (congrArg RegKey.r e)
  unfold State.ownRefused
  split
  next => exact ⟨hon, hregs, fun _ => List.length_append⟩
  next h => exact ⟨hon, hregs, fun hs => absurd hs h⟩

/-- DW_CH_OWN takes a write whose OWNER is in range, which acts from the next tick. -/
theorem State.chOwn_stores (hv : bits v 1 0 ≤ 2) :
    let t := (s.defer ⟨.dwChOwn, c, 0, 0⟩).store ⟨.dwChOwn, c, 0, 0⟩ v
    t.fget F.dwChOwn_OWNER c = bits v 1 0 ∧ t.fget F.dwChOwn_DRV c = bits v 7 4 ∧ t.fbit F.dwChOwn_SEC c = bit v 8 ∧
      t.ownOf c = s.ownOf c ∧ (∀ k, k ≠ ⟨.dwChOwn, c, 0, 0⟩ → t.rget k = s.rget k) := by
  have hdefer : (s.defer ⟨.dwChOwn, c, 0, 0⟩).regs = s.regs := (congrArg State.regs (s.defer_beside _) :)
  have hstore := (s.defer ⟨.dwChOwn, c, 0, 0⟩).store_sameBesideRegs ⟨.dwChOwn, c, 0, 0⟩ v
  have hrange : ∀ f ∈ Reg.dwChOwn.info.flds, f.rng.ok (bits v f.hi f.lo) = true := by simpa [Reg.info, Rng.ok] using hv
  refine ⟨?_, ?_, State.fbit_store (f := F.dwChOwn_SEC) (rst := 0) rfl (by decide), ?_, fun k hk => ?_⟩
  · exact State.bits_store (r := .dwChOwn) (f := ⟨1, 0, .rw, 0, .span 0 2⟩) rfl (by decide) rfl (by simpa [Rng.ok] using hv)
  · exact State.bits_store (r := .dwChOwn) (f := ⟨7, 4, .rw, 0, .any⟩) rfl (by decide) rfl rfl
  · exact State.inForce_deferred (congrArg (fun x : State => x.dw.late) hstore :)
      ((congrArg State.tickNo hstore :).trans (congrArg State.tickNo (s.defer_beside _) :))
  · rw [State.store_inRange (k := ⟨.dwChOwn, c, 0, 0⟩) hrange, State.rget_rset_other _ _ _ _ hk]
    exact State.rget_of_regs hdefer k

end Owner

/-! ### Selections (R156, R164, R165, R178) -/

section Selection
variable {s : State} {q : Requester} {x v : Nat}

theorem State.wrConSel_locked (h : s.fbit F.dwConSel_LOCK x = true) : s.wrConSel q x v = s.fon F.dwStat_LOCK_ERR := if_pos h

/-- A selection that names a secure channel of another is refused. -/
theorem State.wrConSel_foreign {c : Nat} (hl : s.fbit F.dwConSel_LOCK x = false) (hsec : s.secureOf v = some c)
    (hown : s.isOwner q c = false) : s.wrConSel q x v = s.ownRefused q c := by
  unfold State.wrConSel
  simp [hl, hsec, hown]

/-- The fields of a selection that a write leaves, as what it gives them is out of range. -/
def State.selHeld (s : State) (x v : Nat) : List Fld :=
  (if selModeOk x v then [] else [F.dwConSel_MODE]) ++ (if s.selChOk x v then [] else [F.dwConSel_CH])

theorem State.wrConSel_takes (hl : s.fbit F.dwConSel_LOCK x = false) (hnew : s.secureOf v = none)
    (hold : s.secureOf (s.rget ⟨.dwConSel, x, 0, 0⟩) = none) :
    s.wrConSel q x v = (((s.defer ⟨.dwConSel, x, 0, 0⟩).storeHeld ⟨.dwConSel, x, 0, 0⟩ v true (s.selHeld x v)).wrErrIf
      (!(s.selHeld x v).isEmpty) ⟨.dwConSel, x, 0, 0⟩) := by
  unfold State.wrConSel
  simp only [hl, hnew, hold, Bool.false_eq_true, if_false, List.filterMap_cons, List.filterMap_nil, id, List.find?_nil]
  rfl

theorem State.selHeld_ordered : ∀ f ∈ s.selHeld x v, f.lo ≤ f.hi := by
  unfold State.selHeld
  split <;> split <;> decide

theorem State.selHeld_apart {f : Fld} (hf : f = F.dwConSel_MODE ∨ f = F.dwConSel_CH) :
    ∀ e ∈ s.selHeld x v, e ≠ f → f.hi < e.lo ∨ e.hi < f.lo := by
  unfold State.selHeld
  rcases hf with rfl | rfl <;> split <;> split <;> decide

theorem State.mode_mem_selHeld : F.dwConSel_MODE ∈ s.selHeld x v ↔ selModeOk x v = false := by
  unfold State.selHeld
  cases selModeOk x v <;> cases s.selChOk x v <;> decide

theorem State.ch_mem_selHeld : F.dwConSel_CH ∈ s.selHeld x v ↔ s.selChOk x v = false := by
  unfold State.selHeld
  cases selModeOk x v <;> cases s.selChOk x v <;> decide

theorem selModeOk_le (h : selModeOk x v = true) : bits v 29 28 ≤ 2 := by
  have hlt : bits v 29 28 < 4 := bits_lt ..
  simp only [selModeOk, Bool.and_eq_true, decide_eq_true_eq] at h
  omega

/-- A selection takes a write, in the fields whose values are in range, from the next tick. -/
theorem State.conSel_stores (s : State) (x v : Nat) :
    let k : RegKey := ⟨.dwConSel, x, 0, 0⟩
    let t := ((s.defer k).storeHeld k v true (s.selHeld x v)).wrErrIf (!(s.selHeld x v).isEmpty) k
    t.fget F.dwConSel_MODE x = (if selModeOk x v then bits v 29 28 else s.fget F.dwConSel_MODE x) ∧
      t.fget F.dwConSel_CH x = (if s.selChOk x v then bits v 7 0 else s.fget F.dwConSel_CH x) ∧
      t.inForce k = s.inForce k ∧ (selModeOk x v = false ∨ s.selChOk x v = false → t.fbit F.dwStat_WR_ERR = true) := by
  intro k t
  have hreg : Reg.dwConSel ∉ wrErrRegs := by decide
  have hdefer : (s.defer k).rget k = s.rget k := State.rget_of_regs (congrArg State.regs (s.defer_beside k) :) k
  have hsame : (s.defer k).sameBesideRegs t := (State.storeHeld_sameBesideRegs ..).trans (State.wrErrIf_sameBesideRegs ..)
  have hself : t.rget k = ((s.defer k).storeHeld k v true (s.selHeld x v)).rget k := State.wrErrIf_other hreg
  have hne {f : Fld} (h : f ∉ s.selHeld x v) : ∀ e ∈ s.selHeld x v, e ≠ f := fun e he hf => h (hf ▸ he)
  refine ⟨?_, ?_, ?_, fun h => ?_⟩
  · rw [State.fget, show t.rget ⟨F.dwConSel_MODE.reg, x, 0, 0⟩ = _ from hself]
    by_cases hok : selModeOk x v = true
    · have hle := selModeOk_le hok
      have hout := hne (mt State.mode_mem_selHeld.mp (by simp [hok]))
      rw [if_pos hok]
      exact State.bits_storeHeld_apart (g := ⟨29, 28, .rw, 0, .span 0 2⟩) rfl hreg (by decide) rfl (by simpa [Rng.ok] using hle)
        State.selHeld_ordered fun e he => State.selHeld_apart (.inl rfl) e he (hout e he)
    · rw [if_neg hok]
      exact (State.bits_storeHeld_mem (g := ⟨29, 28, .rw, 0, .span 0 2⟩) rfl hreg (by decide) rfl (State.mode_mem_selHeld.mpr
        (Bool.eq_false_iff.mpr hok)) rfl rfl State.selHeld_ordered (State.selHeld_apart (.inl rfl))).trans (congrArg (bits · 29 28) hdefer)
  · rw [State.fget, show t.rget ⟨F.dwConSel_CH.reg, x, 0, 0⟩ = _ from hself]
    by_cases hok : s.selChOk x v = true
    · have hout := hne (mt State.ch_mem_selHeld.mp (by simp [hok]))
      rw [if_pos hok]
      exact State.bits_storeHeld_apart (g := ⟨7, 0, .rw, 0, .any⟩) rfl hreg (by decide) rfl rfl
        State.selHeld_ordered fun e he => State.selHeld_apart (.inr rfl) e he (hout e he)
    · rw [if_neg hok]
      exact (State.bits_storeHeld_mem (g := ⟨7, 0, .rw, 0, .any⟩) rfl hreg (by decide) rfl (State.ch_mem_selHeld.mpr
        (Bool.eq_false_iff.mpr hok)) rfl rfl State.selHeld_ordered (State.selHeld_apart (.inr rfl))).trans (congrArg (bits · 7 0) hdefer)
  · exact State.inForce_deferred (congrArg (fun x : State => x.dw.late) hsame :)
      ((congrArg State.tickNo hsame :).trans (congrArg State.tickNo (s.defer_beside k) :))
  · have hsome : (s.selHeld x v).isEmpty = false := by
      rcases h with h | h
      · exact List.isEmpty_eq_false_iff.mpr (List.ne_nil_of_mem (State.mode_mem_selHeld.mpr h))
      · exact List.isEmpty_eq_false_iff.mpr (List.ne_nil_of_mem (State.ch_mem_selHeld.mpr h))
    rw [show t = ((s.defer k).storeHeld k v true (s.selHeld x v)).wrErrIf true k by unfold t; rw [hsome]; rfl]
    exact State.fbit_fon_same _ F.dwStat_WR_ERR 0 0 0 rfl

end Selection

/-! ### The words of DW_CON_SEL (R154) -/

theorem conSelMapped : ∀ x : Fin 1076, conListed x.val = true → RegKey.mapped ⟨.dwConSel, x.val, 0, 0⟩ := by
  unfold RegKey.mapped
  decide +kernel

theorem conSelReserved : ∀ x : Fin 1076, conListed x.val = false →
    regAt (addrOf ⟨.dwConSel, x.val, 0, 0⟩ 0 / 4 * 4) = none ∧ blkOf (addrOf ⟨.dwConSel, x.val, 0, 0⟩ 0) = some .dw := by
  decide +kernel

section Exec
variable {q : Port} {c : Fin 256} {s : State}

theorem exec_dwChannelEnable (data : BitVec 32) (hw : s.writable q.req .dwChCfg = true) :
    exec (.dwChannelEnable q c data) s = .next ((s.wroteBy q.req ⟨.dwChCfg, c.val, 0, 0⟩).chGuard q.req c.val
      fun st => st.wrChCfg c.val (setBits data.toNat 0 0 1)) :=
  congrArg Host.Outcome.next (State.busFld_first (f := F.dwChCfg_EN) data hw (dwChMapped _ (by decide) c) rfl (by decide))

theorem exec_dwChannelDisable (data : BitVec 32) (hw : s.writable q.req .dwChCfg = true) :
    exec (.dwChannelDisable q c data) s = .next ((s.wroteBy q.req ⟨.dwChCfg, c.val, 0, 0⟩).chGuard q.req c.val
      fun st => st.wrChCfg c.val (setBits data.toNat 0 0 0)) :=
  congrArg Host.Outcome.next (State.busFld_first (f := F.dwChCfg_EN) data hw (dwChMapped _ (by decide) c) rfl (by decide))

theorem exec_dwChOwnWrite (data : BitVec 32) (hw : s.writable q.req .dwChOwn = true) :
    exec (.dwChOwnWrite q c data) s = .next ((s.wroteBy q.req ⟨.dwChOwn, c.val, 0, 0⟩).chGuard q.req c.val
      fun st => (st.defer ⟨.dwChOwn, c.val, 0, 0⟩).store ⟨.dwChOwn, c.val, 0, 0⟩ data.toNat) :=
  congrArg Host.Outcome.next (State.busTo_first hw (dwChMapped _ (by decide) c) rfl data.isLt)

theorem exec_dwConSelWrite {x : Fin 1076} (data : BitVec 32) (hw : s.writable q.req .dwConSel = true) (hx : conListed x.val = true) :
    exec (.dwConSelWrite q x data) s = .next ((s.wroteBy q.req ⟨.dwConSel, x.val, 0, 0⟩).wrConSel q.req x.val data.toNat) :=
  congrArg Host.Outcome.next (State.busTo_first hw (conSelMapped x hx) rfl data.isLt)

/-- A word of a consumer that R154 does not list takes no write. -/
theorem exec_dwConSelWrite_reserved {x : Fin 1076} (data : BitVec 32) (hw : s.writable q.req .dwConSel = true) (hx : conListed x.val = false) :
    exec (.dwConSelWrite q x data) s = .next s := by
  obtain ⟨hreg, hblk⟩ := conSelReserved x hx
  have hheld : s.blkHeld .dw = false := by
    have hr := State.readable_of_writable hw
    simp only [State.readable, Bool.and_eq_true, Bool.not_eq_true'] at hr
    exact hr.2
  exact congrArg Host.Outcome.next (State.busWriteBe_reserved hreg fun b hb => Option.some.inj (hblk.symm.trans hb) ▸ hheld)

/-- Settles O22: flocks by `flockEvent_effect` and `flCtlStored_changes`, enables by `wrChCfg_rises`, `wrChCfg_falls` and `chCheckDone_ends`,
ownership by `chOwn_stores` and `ownRefused_effect`, selections by `conSel_stores`. -/
theorem drovewayConfiguration : Obligations.DrovewayConfiguration := by
  intro q s
  refine ⟨fun f on => ?flock, fun c data hw => ?channel, fun c hrun hb => ?check, fun c data hw hl => ?own, fun x data hw => ?select⟩
  case flock =>
    refine ⟨fun hrun hdw g e hg hev htag => ?event, fun data hw hon hv => ?write⟩
    case event =>
      intro at_ hat hfree hne hlen
      exact ⟨_, exec_flock hrun hdw hg hev, State.flockEvent_effect f.isLt hat hfree htag hne hlen⟩
    case write =>
      refine ⟨fun hnow => ⟨_, exec_flockStateWrite data hw, ?_⟩, fun hnow hfree hpast => ⟨_, exec_flockStateWrite data hw, ?_⟩⟩ <;> rw [hon]
      · exact State.flCtlStored_same hv hnow
      · exact State.flCtlStored_changes f.isLt hv hnow hfree hpast
  case channel =>
    let y := s.wroteBy q.req ⟨.dwChCfg, c.val, 0, 0⟩
    refine ⟨fun hl => ⟨_, exec_dwChannelEnable data hw, ?_⟩, fun hl hm => ⟨fun hen hb => ?_, fun hen hb => ?_, fun hen hb => ?_⟩⟩
    · rw [State.chGuard_locked (s := y) hl]
      exact ⟨State.fbit_fon_same y F.dwStat_LOCK_ERR 0 0 0 rfl, State.rget_fon_other y F.dwStat_LOCK_ERR 0 0 0 _ nofun⟩
    · have hexec := (exec_dwChannelEnable data hw).trans (congrArg Host.Outcome.next (State.chGuard_passes (s := y) hl hm))
      obtain ⟨hbeside, hgood, hbad, hasync⟩ := State.wrChCfg_rises (s := y) hen hb data.toNat
      refine ⟨fun ha hlisted => ⟨_, hexec, ?_⟩, fun ha hnot => ⟨_, hexec, ?_⟩, fun ha => ⟨_, hexec, ?_⟩⟩
      · obtain ⟨hon, hres⟩ := hgood ha hlisted
        exact ⟨hon, hres, hbeside⟩
      · obtain ⟨hoff, hres⟩ := hbad ha hnot
        exact ⟨hoff, hres, hbeside⟩
      · obtain ⟨hoff, hres, hbusy⟩ := hasync ha
        exact ⟨hoff, hres, hbusy, hbeside⟩
    · have hexec := (exec_dwChannelDisable data hw).trans (congrArg Host.Outcome.next (State.chGuard_passes (s := y) hl hm))
      obtain ⟨hbeside, hoff, -⟩ := State.wrChCfg_falls (s := y) (.inl hen) data.toNat
      exact ⟨_, hexec, hoff hb, hbeside⟩
    · have hexec := (exec_dwChannelDisable data hw).trans (congrArg Host.Outcome.next (State.chGuard_passes (s := y) hl hm))
      obtain ⟨hbeside, -, hend⟩ := State.wrChCfg_falls (s := y) (.inr hb) data.toNat
      obtain ⟨hidle, hres, hsame⟩ := hend hb
      exact ⟨_, hexec, hidle, hres, hsame.trans hen, hbeside⟩
  case check =>
    have hexec : exec (.dwEnableCheckDone c) s = .next (s.chCheckDone c.val) := congrArg Host.Outcome.next (State.live_running hrun)
    obtain ⟨hres, hidle, hen⟩ := State.chCheckDone_ends hb
    refine ⟨fun hz => ⟨_, hexec, ?_⟩, fun hz hoff => ⟨_, hexec, ?_⟩⟩
    · exact ⟨hen.trans (if_pos hz), hres.trans hz, hidle⟩
    · exact ⟨hen.trans ((if_neg hz).trans hoff), hres, hidle⟩
  case own =>
    let y := s.wroteBy q.req ⟨.dwChOwn, c.val, 0, 0⟩
    refine ⟨fun hm hv => ⟨_, exec_dwChOwnWrite data hw, ?_⟩, fun hm => ⟨_, exec_dwChOwnWrite data hw, ?_⟩⟩
    · rw [State.chGuard_passes (s := y) hl hm]
      exact State.chOwn_stores (s := y) hv
    · rw [State.chGuard_refused (s := y) hl hm]
      obtain ⟨hset, hregs, hrec⟩ := y.ownRefused_effect q.req c.val
      exact ⟨hset, hregs _ nofun, hrec⟩
  case select =>
    let y := s.wroteBy q.req ⟨.dwConSel, x.val, 0, 0⟩
    refine ⟨fun hx => ⟨_, exec_dwConSelWrite_reserved data hw hx, rfl⟩, fun hx => ⟨fun hl => ⟨_, exec_dwConSelWrite data hw hx, ?_⟩,
      fun hl hnew hold => ⟨_, exec_dwConSelWrite data hw hx, ?_⟩, fun c hl hsec hown => ⟨_, exec_dwConSelWrite data hw hx, ?_⟩⟩⟩
    · rw [State.wrConSel_locked (s := y) hl]
      exact ⟨State.fbit_fon_same y F.dwStat_LOCK_ERR 0 0 0 rfl, State.rget_fon_other y F.dwStat_LOCK_ERR 0 0 0 _ nofun⟩
    · rw [State.wrConSel_takes (s := y) hl hnew hold]
      exact y.conSel_stores x.val data.toNat
    · rw [State.wrConSel_foreign (s := y) hl hsec hown]
      obtain ⟨hset, hregs, -⟩ := y.ownRefused_effect q.req c
      exact ⟨hset, hregs _ nofun⟩

end Exec

end Sys2Proof.Machine
end

section
/-! PROOFS. The tasks of a Drover: one of them put back, its inputs, and what ends a wait (R161, R187 to R191, R223, R232, R233). -/

namespace Sys2Proof.Machine

/-! ### One task put back -/

section Tasks
variable {s t u : State} {d e k j : Nat}

/-- Nothing but one task, and the free values taken, differs. -/
def State.besideTask (s t : State) (d k : Nat) : Prop :=
  (∀ e, e ≠ d → t.getDrv e = s.getDrv e) ∧ (∀ j, j ≠ k → t.getTask d j = s.getTask d j) ∧ { t with drv := s.drv, free := s.free } = s

theorem State.besideTask_setTask (s : State) (d k : Nat) (x : Task) : s.besideTask (s.setTask d k x) d k :=
  ⟨fun e he => State.getDrv_setDrv_other s d e _ he, fun j hj => State.getTask_setTask_other s d k j x hj, rfl⟩

theorem State.besideTask.setTask (h : s.besideTask t d k) (x : Task) : s.besideTask (t.setTask d k x) d k := by
  obtain ⟨hdrv, htask, hrest⟩ := h
  obtain ⟨hdrv2, htask2, -⟩ := t.besideTask_setTask d k x
  exact ⟨fun e he => (hdrv2 e he).trans (hdrv e he), fun j hj => (htask2 j hj).trans (htask j hj), hrest⟩

end Tasks

/-! ### Inputs (R161, R188) -/

section Inputs
variable {t : Task} {i j now : Nat} {evs : List Stamp}

/-- A group is in its input from the tick it comes in, as if it had been there before. -/
theorem Task.iget_iarrive_same (h : evs ≠ []) : (t.iarrive i evs now).iget i = (t.iget i).arrive evs now := by
  have hnew : (t.iarrive i evs now).newIn.get (0, []) i = (now, evs) := SMap.get_put_same ..
  have hinp : (t.iarrive i evs now).inp.get {} i = t.iget i := SMap.get_put_same ..
  rw [Task.iget, hnew, hinp]
  exact if_neg h

theorem Task.iget_iarrive_other (h : j ≠ i) : (t.iarrive i evs now).iget j = t.iget j := by
  have hnew : (t.iarrive i evs now).newIn.get (0, []) j = t.newIn.get (0, []) j :=
    (SMap.get_put_other _ _ _ _ _ _ _ h).trans (SMap.get_put_other _ _ _ _ _ _ _ h)
  have hinp : (t.iarrive i evs now).inp.get {} j = t.inp.get {} j := SMap.get_put_other _ _ _ _ _ _ _ h
  rw [Task.iget, hnew, hinp]
  rfl

/-- A Drover's inputs take groups while the Drovers are not held in reset. -/
theorem State.conHeld_drvIn {s : State} (d : Fin 16) (k : Fin 8) (i : Fin 4) (h : s.fbit F.glbBlkRst_DRV = false) :
    s.conHeld (Con.drvIn d.val k.val i.val) = false := by
  have hin : 0x1A0 ≤ Con.drvIn d.val k.val i.val ∧ Con.drvIn d.val k.val i.val ≤ 0x39F := by
    unfold Con.drvIn
    omega
  rw [State.conHeld, if_pos hin, h]

end Inputs

/-! ### Wakes (R188 to R191) -/

section Wakes
variable {s : State} {d k : Nat} {t : Task}

/-- The inputs named in WAKE, a bit each. -/
theorem foldl_inputs_lt {is : List Nat} (h : is.Sublist (List.range 4)) : is.foldl (fun a i => a + 2 ^ i) 0 < 256 := by
  have hall : ∀ is ∈ (List.range 4).sublists, is.foldl (fun a i => a + 2 ^ i) 0 < 256 := by decide
  exact hall is (List.mem_sublists.mpr h)

theorem State.wakers_sublist (s : State) (t : Task) (mask : Nat) (x : Option Instant) : (s.wakers t mask x).Sublist (List.range 4) :=
  List.filter_sublist.trans List.filter_sublist

theorem Task.wakeWith_reason (t : Task) (tag reason : Nat) {inputs : Nat} (w : Instant) (h : inputs < 256) :
    (t.wakeWith tag reason inputs w).wake / 256 = reason := by
  show (reason * 256 + inputs) / 256 = reason
  omega

/-- A task in WAIT_EVENT with a group of an earlier tick is woken by it, and is to be READY two ticks after that. -/
theorem State.wakeOnEvent_wakes {mask : Nat} {ex : Option Instant} {w : Instant} (hrun : s.time.run = true)
    (hst : (s.getTask d k).st = .waitEvent) (hwait : (s.getTask d k).wait = .event mask ex) (his : s.wakers (s.getTask d k) mask ex ≠ [])
    (hw : ((s.getTask d k).unseen s.tickNo).earliest (s.wakers (s.getTask d k) mask ex) = some w) :
    let v := (s.getTask d k).unseen s.tickNo
    let is := s.wakers (s.getTask d k) mask ex
    let s1 := s.setTask d k ((s.getTask d k).wakeEvent v is 0)
    s.wakeOnEvent d k =
      s1.setTask d k { (s.getTask d k).wakeEvent v is 0 with st := .waitEvent, wait := .wakes (max (s.tickNo + 1) (v.firstTick is + 2)) } := by
  intro v is s1
  have hby : s.wakeByEvent d k v is = s1 := by
    unfold State.wakeByEvent
    rw [hw]
  have hnot : is.isEmpty = false := List.isEmpty_eq_false_iff.mpr his
  unfold State.wakeOnEvent
  simp only [hst, hwait, hrun, Bool.true_and]
  rw [show s.wakers (s.getTask d k) mask ex = is from rfl, hnot, hby, State.getTask_setTask_same]
  rfl

/-- A task in WAIT_TIME goes on when device time is at its instant. -/
theorem State.wakeTime_ends {a : Instant} (hrun : s.time.run = true) (hst : (s.getTask d k).st = .waitTime)
    (hwait : (s.getTask d k).wait = .instant a false) (ha : a ≤ s.nowI) :
    ∃ l, s.wakeTime d k = s.setTask d k
      { (s.getTask d k).wakeWith 0 2 0 a with
        pc := (s.getTask d k).pc + 1, fl := { (s.getTask d k).fl with l := l }, readyAt := s.tickNo } := by
  unfold State.wakeTime
  simp only [hst, hwait, hrun, Bool.false_or, Bool.true_and, decide_eq_true ha, if_true]
  exact ⟨_, rfl⟩

/-- A task in WAIT_EVENT goes on when its expiry instant's tick has passed without a group. -/
theorem State.wakeOnTimeout_ends {mask : Nat} {x : Instant} (hrun : s.time.run = true) (hst : (s.getTask d k).st = .waitEvent)
    (hwait : (s.getTask d k).wait = .event mask (some x)) (hx : s.expired x = true) (hnone : s.wakingBy (s.getTask d k) mask (some x) = []) :
    s.wakeOnTimeout d k = s.setTask d k { ((s.getTask d k).wakeTimeout x s.tickNo).advance with readyAt := s.tickNo } := by
  unfold State.wakeOnTimeout
  simp only [hst, hwait, hrun, hx, hnone, List.isEmpty_nil, Bool.and_self, if_true]

theorem State.yieldEnd_ends {u : Nat} (hrun : s.time.run = true) (hst : (s.getTask d k).st = .waitTime)
    (hwait : (s.getTask d k).wait = .yield u) (hu : u ≤ s.tickNo) :
    s.yieldEnd d k = s.setTask d k { (s.getTask d k).advance with st := .ready, wait := .none, readyAt := s.tickNo } := by
  unfold State.yieldEnd
  simp only [hst, hwait, hrun, Bool.true_and, decide_eq_true hu, if_true]

theorem lookupCell_map {K V W : Type} [DecidableEq K] (f : V → W) (k : K) (l : List (K × V)) :
    lookupCell k (l.map fun c => (c.1, f c.2)) = (lookupCell k l).map f := by
  induction l with
  | nil => rfl
  | cons c l ih =>
    rw [List.map_cons, lookupCell, lookupCell, ih]
    split <;> rfl

/-- A task whose wake was decided goes on in its tick. -/
theorem State.drvWakes_wakes {u : Nat} (hwait : (s.getTask d k).wait = .wakes u) (hu : u ≤ s.tickNo) :
    (s.drvWakes d).getTask d k = { s.getTask d k with pc := (s.getTask d k).pc + 1, st := .ready, wait := .none, readyAt := s.tickNo } := by
  have hget : (s.drvWakes d).getTask d k = ((lookupCell k (s.getDrv d).tasks.cells).map fun t => t.woken s.tickNo).getD {} := by
    rw [State.getTask, State.drvWakes, State.getDrv_setDrv_same]
    exact congrArg (fun o : Option Task => o.getD {}) (lookupCell_map (fun t : Task => t.woken s.tickNo) k (s.getDrv d).tasks.cells)
  have hwas : s.getTask d k = (lookupCell k (s.getDrv d).tasks.cells).getD {} := rfl
  rw [hget]
  cases hc : lookupCell k (s.getDrv d).tasks.cells with
  | none =>
    rw [hwas, hc] at hwait
    cases hwait
  | some t =>
    rw [hc] at hwas
    have ht : s.getTask d k = t := hwas
    rw [ht] at hwait ⊢
    show t.woken s.tickNo = _
    simp only [Task.woken, hwait, hu, if_true]
    rfl

end Wakes

/-! ### Measurements (R236, R237) -/

section Meas
variable {s : State} {d k td ad : Nat} {t : Task}

@[simp] theorem Task.aget_aput_same (t : Task) (r : Nat) (v : W64) : (t.aput r v).aget r = v := SMap.get_put_same ..
theorem Task.aget_aput_other {r q : Nat} (v : W64) (h : q ≠ r) : (t.aput r v).aget q = t.aget q := SMap.get_put_other _ _ _ _ _ _ _ h
@[simp] theorem Task.tget_tput_same (t : Task) (r : Nat) (v : Instant) : (t.tput r v).tget r = v := SMap.get_put_same ..

/-- A measurement's results in Td, Aa and the register after Aa. -/
def Task.measured (t : Task) (td ad : Nat) (x : Instant) (v w : W64) : Task := ((t.tput td x).aput ad v).aput ((ad + 1) % 16) w

theorem Task.measured_results (t : Task) (td ad : Nat) (x : Instant) (v w : W64) :
    (t.measured td ad x v w).tget td = x ∧ (t.measured td ad x v w).aget ad = v ∧ (t.measured td ad x v w).aget ((ad + 1) % 16) = w := by
  have hne : ad ≠ (ad + 1) % 16 := by omega
  exact ⟨t.tget_tput_same td x, (Task.aget_aput_other w hne).trans ((t.tput td x).aget_aput_same ad v),
    Task.aget_aput_same ((t.tput td x).aput ad v) ((ad + 1) % 16) w⟩

theorem Task.measRecord_results (t : Task) (td ad : Nat) (r : Rec) (tag : Nat) :
    (t.measRecord td ad r tag).tget td = r.time ∧ (t.measRecord td ad r tag).aget ad = BitVec.ofInt 64 r.value ∧
      (t.measRecord td ad r tag).aget ((ad + 1) % 16) = BitVec.ofNat 64 (r.flags % 65536 + r.aux % 2 ^ 32 * 65536) :=
  t.measured_results td ad r.time _ _

theorem Task.measTimeout_results (t : Task) (td ad : Nat) (x w : Instant) :
    (t.measTimeout td ad x w).tget td = x ∧ (t.measTimeout td ad x w).aget ad = 0 ∧ (t.measTimeout td ad x w).aget ((ad + 1) % 16) = 0 :=
  t.measured_results td ad x 0 0

/-- A record completed two ticks ago ends its MEAS. -/
theorem State.measComplete_ends {u tick done tag : Nat} {iss : Instant} {ex : Option Instant} {r : Rec} (hrun : s.time.run = true)
    (hst : (s.getTask d k).st = .waitMeas) (hwait : (s.getTask d k).wait = .meas u td ad tick iss ex (some (r, tag, done)))
    (hdone : done + 2 ≤ s.tickNo) :
    s.measComplete d k = s.setTask d k
      { (s.getTask d k).measRecord td ad r tag with st := .waitMeas, wait := .wakes (max (s.tickNo + 1) (done + 3)) } := by
  unfold State.measComplete
  simp only [hst, hwait, hrun, Bool.true_and, decide_eq_true hdone, if_true]

theorem State.measTimeout_ends {u tick : Nat} {iss x : Instant} (hrun : s.time.run = true)
    (hst : (s.getTask d k).st = .waitMeas) (hwait : (s.getTask d k).wait = .meas u td ad tick iss (some x) none) (hx : s.expired x = true) :
    s.measTimeout d k = s.setTask d k { (s.getTask d k).measTimeout td ad x x with readyAt := s.tickNo } := by
  unfold State.measTimeout
  simp only [hst, hwait, hrun, hx, Bool.and_self, if_true]

end Meas

/-! ### Actions offered again (R186) -/

theorem Offer.ofTask_iff {o : Offer} {d : Fin 16} {k : Fin 8} : o.ofTask d.val k.val = true ↔ o.src = .task d k := by
  unfold Offer.ofTask
  split
  next d' k' h => rw [h]; simp [Fin.val_inj]
  next h => simpa using fun e => h d k e

theorem State.reoffer_offers {s : State} {d : Fin 16} {k : Fin 8} {n : Nat} (hrun : s.time.run = true)
    (hst : (s.getTask d.val k.val).st = .waitQueue) (hwait : (s.getTask d.val k.val).wait = .action n)
    (hready : (s.getTask d.val k.val).readyAt ≤ s.tickNo) (hnone : ∀ o ∈ (s.getEo n).offers, o.src ≠ .task d k) :
    s.reoffer d k = s.eoOffer n ⟨.task d k, (s.getTask d.val k.val).offer, (s.getTask d.val k.val).tag + 1, s.tickNo⟩ := by
  have hoff : (s.getEo n).offers.any (fun o => o.ofTask d.val k.val) = false :=
    List.any_eq_false.mpr fun o ho => mt Offer.ofTask_iff.mp (hnone o ho)
  unfold State.reoffer
  simp only [hst, hwait, hrun, hoff, Bool.true_and, decide_eq_true hready, Bool.not_false, if_true]

/-! ### Traps (R199, R200) -/

section Trap
variable {s t : State} {d k j code arg : Nat}

theorem State.getTask_of_drv (h : t.drv = s.drv) : t.getTask d k = s.getTask d k :=
  congrArg (fun x : SMap Nat Drover => (x.get {} d).tasks.get {} k) h

theorem State.drv_sendMsix (s : State) (v : Nat) : (s.sendMsix v).drv = s.drv := by
  unfold State.sendMsix
  split
  · exact (congrArg State.drv (s.fonBit_sameBesideRegs F.msixPba_PENDING v 0) :)
  · exact (rfl : (s.msixMessage v).drv = s.drv)

theorem State.rget_sendMsix (s : State) (v : Nat) {c : RegKey} (h : c.r ≠ .msixPba) : (s.sendMsix v).rget c = s.rget c := by
  unfold State.sendMsix
  split
  · exact State.rget_fonBit_other _ _ _ _ _ _ fun e => h (congrArg RegKey.r e)
  · rfl

/-- The offers of a task are dropped at its channel, and nowhere else. -/
theorem State.dropOffers_beside (s : State) (d k : Nat) : { s.dropOffers d k with eo := s.eo } = s := by
  unfold State.dropOffers
  split <;> rfl

/-- A task in TRAPPED with its record. -/
def State.trappedTask (s : State) (d k code arg : Nat) : Task :=
  { s.getTask d k with st := .trapped, wait := .none, trap := s.trapRecord d k code arg }

/-- A trap as the steps that make it. -/
theorem State.trapOne_eq (s : State) (d k code arg : Nat) :
    ∃ o, s.trapOne d k code arg =
      ((((s.dropOffers d k).setTask d k (s.trappedTask d k code arg)).fonBit F.drvStat_TRAP k d).offerBbr o).sendMsix 6 := ⟨_, rfl⟩

theorem State.getTask_trapOne (s : State) (d k code arg j : Nat) :
    (s.trapOne d k code arg).getTask d j = if j = k then s.trappedTask d k code arg else s.getTask d j := by
  obtain ⟨o, ho⟩ := s.trapOne_eq d k code arg
  have hset : (s.trapOne d k code arg).getTask d j = ((s.dropOffers d k).setTask d k (s.trappedTask d k code arg)).getTask d j := by
    rw [ho]
    exact State.getTask_of_drv (State.drv_sendMsix _ 6)
  rw [hset]
  split
  next h => rw [h, State.getTask_setTask_same]
  next h => exact (State.getTask_setTask_other _ _ _ _ _ h).trans (State.getTask_of_drv (congrArg State.drv (s.dropOffers_beside d k) :))

theorem State.fget_fonBit (s : State) {f : Fld} (b i : Nat) (h : f.lo ≤ f.hi) :
    (s.fonBit f b i).fget f i = (s.fget f i ||| 2 ^ b) % 2 ^ (f.hi + 1 - f.lo) := State.fget_fset_same s f _ i 0 0 h

theorem State.offerBbr_fget (s : State) (o : BbrOffer) (f : Fld) (i : Nat) : (s.offerBbr o).fget f i = s.fget f i := rfl

/-- The bit of a task in DRV_STAT.TRAP is set beside those that are. -/
theorem State.bit_trapOne (s : State) (d k code arg : Nat) (h : j < 8) :
    bit ((s.trapOne d k code arg).fget F.drvStat_TRAP d) j = bit (s.fget F.drvStat_TRAP d ||| 2 ^ k) j := by
  obtain ⟨o, ho⟩ := s.trapOne_eq d k code arg
  have hwas : (s.dropOffers d k).fget F.drvStat_TRAP d = s.fget F.drvStat_TRAP d :=
    State.fget_of_rget (State.rget_of_regs (congrArg State.regs (s.dropOffers_beside d k) :) _)
  rw [ho, State.fget_of_rget (State.rget_sendMsix _ 6 (show Reg.drvStat ≠ .msixPba by decide)), State.offerBbr_fget,
    State.fget_fonBit _ _ _ (by decide), State.setTask_fget, hwas]
  exact bit_mod h

theorem bit_or_two_pow_mono {v n i : Nat} (h : bit v i = true) : bit (v ||| 2 ^ n) i = true := by
  rw [bit_testBit] at h
  simp [bit_testBit, h]

/-- A task that traps stays as the trap leaves it, whatever becomes of its siblings. -/
theorem State.trapTask_traps (s : State) (d code arg : Nat) (hk : k < 8) :
    (s.trapTask d k code arg).getTask d k = s.trappedTask d k code arg ∧ bit ((s.trapTask d k code arg).fget F.drvStat_TRAP d) k = true := by
  have hone : (s.trapOne d k code arg).getTask d k = s.trappedTask d k code arg ∧
      bit ((s.trapOne d k code arg).fget F.drvStat_TRAP d) k = true :=
    ⟨(s.getTask_trapOne d k code arg k).trans (if_pos rfl), (s.bit_trapOne d k code arg hk).trans (bit_or_two_pow_same ..)⟩
  unfold State.trapTask
  dsimp only
  split
  · refine List.foldlRecOn _ _ (motive := fun t : State => t.getTask d k = s.trappedTask d k code arg ∧
      bit (t.fget F.drvStat_TRAP d) k = true) hone fun t ht j _ => ?_
    split
    · exact ht
    next h =>
      have hj : k ≠ j := fun e => h (.inl e.symm)
      obtain ⟨htask, hbit⟩ := ht
      exact ⟨((t.getTask_trapOne d j _ k k).trans (if_neg hj)).trans htask, (t.bit_trapOne d j _ k hk).trans (bit_or_two_pow_mono hbit)⟩
  · exact hone

/-- An LDX without data in 2 µs traps. -/
theorem State.ldxTimeout_traps {r off tick : Nat} {v : W64} (hrun : s.time.run = true) (hst : (s.getTask d k).st = .waitMem)
    (hwait : (s.getTask d k).wait = .ldx r off tick v) (htick : tick + 2000 ≤ s.tickNo) :
    s.ldxTimeout d k = s.trapTask d k TrapCode.dram off := by
  unfold State.ldxTimeout
  simp only [hst, hwait, hrun, Bool.true_and, decide_eq_true htick, if_true]

end Trap

/-! ### Launches (R231, R238, R396) -/

section Launch
variable {s t u : State} {d k p : Nat}

/-- Nothing but Paddock and the Switch differs. -/
def State.sameBesideSw (s t : State) : Prop := { t with sw := s.sw } = s

theorem State.sameBesideSw.trans (h : s.sameBesideSw t) (h2 : t.sameBesideSw u) : s.sameBesideSw u :=
  (congrArg (fun x : State => { x with sw := s.sw }) h2 :).trans h

theorem State.sameBesideSw.setSw (h : s.sameBesideSw t) (x : Sw) : s.sameBesideSw (t.setSw x) := h

theorem State.sameBesideSw.fcSend (h : s.sameBesideSw t) (p c quanta : Nat) : s.sameBesideSw (t.fcSend p c quanta) := h.setSw _

/-- A pair's XOFF or XON changes what its port sends, and what it notes of it, alone. -/
theorem State.xoffCheck_beside (s : State) (p c : Nat) : s.sameBesideSw (s.xoffCheck p c) := by
  have hself : s.sameBesideSw s := rfl
  unfold State.xoffCheck State.xonSend
  dsimp only
  split_ifs
  · exact hself
  · exact hself.setSw _
  · exact (hself.setSw _).fcSend ..
  · exact (hself.fcSend ..).setSw _
  · exact hself

/-- Housekeeping changes Paddock and the flow control of its ports alone. -/
theorem State.swTick_beside (s : State) : s.sameBesideSw s.swTick := by
  have hsweep : s.sameBesideSw s.sweep := rfl
  exact hsweep.trans (List.foldlRecOn _ _ (motive := fun t => s.sweep.sameBesideSw t) rfl fun t ht x _ => ht.trans (t.xoffCheck_beside _ _))

/-- A frame that a launch queue takes: its one copy bound to its instant. -/
def PFrame.launched (f : PFrame) (p cls : Nat) (data : List Byte) (tt : Instant) : Prop :=
  f.kind = .launch ∧ f.data = data ∧ f.cls = cls ∧ f.copies.map FrameCopy.port = [p] ∧ f.copies.map FrameCopy.inst = [some tt]

/-- A launch queue takes a frame of a length its port carries, in time, while it has room and Paddock has cells. -/
theorem State.launchOffer_accepts {cls : Nat} {data : List Byte} {tt : Instant} (hup : s.swTick.linkUpOn p = true)
    (hlim : s.glb.limited = false) (htas : s.fbit F.glbBlkRst_TAS = false) (hpad : s.fbit F.glbBlkRst_SWPAD = false)
    (hlen : s.swTick.lenBad p data.length = false) (htt : s.nowI + 500 * lsbPerNs ≤ tt) (hcount : s.swTick.launchCount p < 256)
    (hfree : cellsOf (data.length + 4) ≤ s.swTick.padFree) :
    ∃ f : PFrame, f.launched p cls data tt ∧ s.launchOffer p cls data tt = (LaunchRes.accepted, s.swTick.addFrame f) := by
  have hsame := s.swTick_beside
  have hlim1 : s.swTick.glb.limited = false := (congrArg (fun x : State => x.glb.limited) hsame :).trans hlim
  have hregs : s.swTick.regs = s.regs := (congrArg State.regs hsame :)
  have hnow : s.swTick.nowI = s.nowI := (congrArg (fun x : State => ofNs x.time.now) hsame :)
  have hup1 : ¬ ((!s.swTick.linkUpOn p) = true ∨ s.swTick.glb.limited = true ∨ s.swTick.fbit F.glbBlkRst_TAS = true) := by
    rw [hup, hlim1, State.fbit_of_rget (State.rget_of_regs hregs _), htas]
    simp
  have hroom (g : Nat) : ¬ (256 ≤ s.swTick.launchCount p ∨ s.swTick.padFree < cellsOf (data.length + 4) - g ∨
      s.swTick.fbit F.glbBlkRst_SWPAD = true) := by
    rw [State.fbit_of_rget (State.rget_of_regs hregs _), hpad]
    simp only [Bool.false_eq_true, or_false]
    omega
  refine ⟨_, ⟨rfl, rfl, rfl, rfl, rfl⟩, (if_neg hup1).trans ((if_neg (ne_true_of_eq_false hlen)).trans
    ((if_neg (not_lt.mpr (hnow.symm ▸ htt))).trans (if_neg (hroom _))))⟩

/-- The task goes on to its next instruction two ticks after its launch has been accepted. -/
theorem State.actionResult_accepted {a tick : Nat} {tt : Instant} (hwait : (s.getTask d k).wait = .launch p a tt tick) :
    s.actionResult d k p LaunchRes.accepted = s.setTask d k { s.getTask d k with
      ares := p * 65536, pc := (s.getTask d k).pc + 1, st := .busy, wait := .busy (s.tickNo + 1) { adv := false } } := by
  unfold State.actionResult
  simp [hwait, LaunchRes.accepted, Task.advance]

/-- What a launch that may act offers is what it describes in DRAM. -/
theorem State.launchComplete_offers {a tick : Nat} {tt : Instant} (hrun : s.time.run = true)
    (hwait : (s.getTask d k).wait = .launch p a tt tick) (htick : tick < s.tickNo) (hdrv : s.fbit F.glbBlkRst_DRV = false)
    (hdram : s.dramUnavail = false) (harg : launchArgOk a = true) :
    s.launchComplete d k =
      let r := s.launchOffer p (bits a 50 48) (s.dramBytes (windowAddr d (bits a 26 0)) (bits a 45 32)) tt
      r.2.actionResult d k p r.1 := by
  unfold State.launchComplete
  simp only [hwait, hrun, hdrv, hdram, harg, decide_eq_false (not_le.mpr htick), Bool.not_true, Bool.or_self, Bool.false_eq_true, if_false]

end Launch

/-- Settles O23: each wait's end by the lemma that says what its command leaves (`wakeOnEvent_wakes`, `wakeTime_ends`, …), a trap by
`trapTask_traps`, a launch by `launchOffer_accepts`. -/
theorem taskWaitsEnd : Obligations.TaskWaitsEnd := by
  intro d k s hrun
  refine ⟨fun i g hg hdrv hevs => ?group, fun mask ex hst hwait => ?event, fun u hwait hu => State.drvWakes_wakes hwait hu,
    fun a hst hwait ha => ?time, fun mask x hst hwait hx hnone => ?timeout, fun u hst hwait hu => ?yield,
    fun n hst hwait hready hnone => ?again, fun r off tick v hst hwait htick => ?ldx,
    fun u td ad tick iss ex r tag done _ _ hst hwait hdone => ?meas, fun u td ad tick iss x _ _ hst hwait hx => ?measTime,
    fun p a tt tick hwait htick hdrv hdram harg => ?launch⟩
  case group =>
    have hin : s.drvInGroup d.val k.val i.val = (s.inputTaken (Con.drvIn d.val k.val i.val) 0).setTask d.val k.val
        ((s.getTask d.val k.val).iarrive i.val g.evs s.tickNo) := State.onGroup_takes hg (State.conHeld_drvIn d k i hdrv)
    refine ⟨_, congrArg Host.Outcome.next ((State.live_running hrun).trans hin), ?_⟩
    dsimp only
    rw [State.getTask_setTask_same, Task.iget_iarrive_same hevs]
    exact ⟨rfl, rfl, rfl, rfl, rfl, rfl, State.setTask_regs .., fun j hj => Task.iget_iarrive_other hj⟩
  case event =>
    intro seen is his w hw
    have heq := State.wakeOnEvent_wakes hrun hst hwait his hw
    refine ⟨_, congrArg Host.Outcome.next heq, ?_⟩
    dsimp only
    rw [State.getTask_setTask_same]
    exact ⟨rfl, rfl, rfl, rfl, (s.getTask d.val k.val).wakeWith_reason 0 1 0 (foldl_inputs_lt (s.wakers_sublist _ mask ex)),
      congrArg (Option.getD · 0) hw, rfl, rfl, rfl, rfl, (State.besideTask_setTask ..).setTask _⟩
  case time =>
    obtain ⟨l, heq⟩ := State.wakeTime_ends hrun hst hwait ha
    refine ⟨_, congrArg Host.Outcome.next heq, ?_⟩
    dsimp only
    rw [State.getTask_setTask_same]
    exact ⟨rfl, rfl, rfl, rfl, (s.getTask d.val k.val).wakeWith_reason 0 2 a (by decide), rfl, rfl, rfl, rfl, rfl, rfl, rfl,
      rfl, rfl, State.besideTask_setTask ..⟩
  case timeout =>
    refine ⟨_, congrArg Host.Outcome.next (State.wakeOnTimeout_ends hrun hst hwait (decide_eq_true hx) hnone), ?_⟩
    dsimp only
    rw [State.getTask_setTask_same]
    exact ⟨rfl, rfl, rfl, rfl, (s.getTask d.val k.val).wakeWith_reason 0 3 x (by decide), rfl, rfl, rfl, rfl, rfl, rfl, rfl,
      rfl, rfl, State.besideTask_setTask ..⟩
  case yield =>
    refine ⟨_, congrArg Host.Outcome.next (State.yieldEnd_ends hrun hst hwait hu), State.getTask_setTask_same .., State.besideTask_setTask ..⟩
  case again =>
    refine ⟨_, congrArg Host.Outcome.next (State.reoffer_offers hrun hst hwait hready hnone), State.getEo_eoOffer_same ..,
      fun m hm => State.getEo_eoOffer_other _ hm, rfl⟩
  case ldx => exact ⟨_, congrArg Host.Outcome.next (State.ldxTimeout_traps hrun hst hwait htick), s.trapTask_traps d.val _ off k.isLt⟩
  case meas =>
    refine ⟨_, congrArg Host.Outcome.next (State.measComplete_ends hrun hst hwait hdone), ?_⟩
    dsimp only
    rw [State.getTask_setTask_same]
    obtain ⟨htd, had, had1⟩ := (s.getTask d.val k.val).measRecord_results td ad r tag
    exact ⟨rfl, rfl, rfl, htd, had, had1, rfl, rfl, rfl, rfl, rfl, rfl, State.besideTask_setTask ..⟩
  case measTime =>
    refine ⟨_, congrArg Host.Outcome.next (State.measTimeout_ends hrun hst hwait (decide_eq_true hx)), ?_⟩
    dsimp only
    rw [State.getTask_setTask_same]
    obtain ⟨htd, had, had1⟩ := (s.getTask d.val k.val).measTimeout_results td ad x x
    exact ⟨rfl, rfl, htd, had, had1, rfl, rfl, rfl, rfl, rfl, rfl, State.besideTask_setTask ..⟩
  case launch =>
    intro s1 data hup hlim htas hpad hlen htt hcount hfree
    obtain ⟨f, ⟨hkind, hdata, hcls, hport, hinst⟩, hoffer⟩ := State.launchOffer_accepts (cls := bits a 50 48) hup hlim htas hpad hlen htt hcount hfree
    have hsame := s.swTick_beside
    have htask : (s.swTick.addFrame f).getTask d.val k.val = s.getTask d.val k.val := State.getTask_of_drv (congrArg State.drv hsame :)
    have htick1 : (s.swTick.addFrame f).tickNo = s.tickNo := (congrArg State.tickNo hsame :)
    have heq := State.launchComplete_offers hrun hwait htick hdrv hdram harg
    dsimp only at heq
    rw [hoffer] at heq
    have hres := heq.trans (State.actionResult_accepted (htask ▸ hwait))
    refine ⟨_, congrArg Host.Outcome.next hres, ?_, ⟨{ f with id := s.swTick.sw.nextId }, ?_, hkind, hdata, hcls, hport, hinst⟩, ?_⟩
    · rw [State.getTask_setTask_same, htask, htick1]
    · exact List.mem_append_right _ (List.mem_singleton_self _)
    · exact (State.setTask_dram ..).trans (congrArg State.dram hsame :)

end Sys2Proof.Machine
end
